-- ==== Sys2Proof/Word.lean ====
section
/-! DEFINITION. The word types of the register window and of Beam time, and their plainest arithmetic
(spec/00_scope.md R8, R9; spec/02_ports.md R30). -/

namespace Sys2Proof

/-- One 64-bit word of the register window (R30). -/
abbrev Word := BitVec 64

/-- A 512-byte block as one number, byte 0 in the lowest bits (R9, R32). -/
abbrev Block := BitVec 4096

/-- A 64-byte beat, byte 0 in bits [7:0] (R32). -/
abbrev Beat := BitVec 512

/-- A count of Beam ticks (bt, 250 ps). Raw counts and Beam times are kept below `two64`. -/
abbrev Bt := Nat

/-- The modulus of the raw count and of Beam (R78). -/
def two64 : Nat := 2 ^ 64

/-- A 64-bit two's-complement reading of a number below 2^64. -/
def signed64 (n : Nat) : Int :=
  if n % two64 < 2 ^ 63 then (n % two64 : Int) else (n % two64 : Int) - (two64 : Int)

/-- The residue of an integer modulo 2^64. -/
def wrap64 (i : Int) : Nat := (i % (two64 : Int)).toNat

end Sys2Proof
end

