-- ==== Sys2Proof/Syntax.lean ====
section
/-! DEFINITION. The commands of the block: one constructor per row of spec/opcode_table.json, with the operands its rule gives.
Every command carries `dt`, the bt by which the raw count has advanced since the command before it (R78; notes/assumptions 3). -/

namespace Sys2Proof

/-- A TDC reading at a stamping point (R92): `n` cells from the latest Gray update to the event, `p` cells per update. -/
structure Tdc where
  n : Nat := 0
  p : Nat := 0
  deriving DecidableEq, Repr

/-- An item of the issue channel of an engine tap (Table PT-8). -/
structure Issue where
  seq : BitVec 2
  addrOnly : Bool
  ctx : BitVec 4
  cls : BitVec 4
  mark : BitVec 2
  tag : BitVec 16
  layer : BitVec 24
  op : BitVec 24
  tensor : BitVec 48
  src : BitVec 57
  dst : BitVec 57
  len : BitVec 32
  tdc : Tdc
  deriving DecidableEq, Repr

/-- An item of the retire channel of an engine tap (Table PT-8). -/
structure Retire where
  seq : BitVec 2
  ctx : BitVec 4
  tag : BitVec 16
  status : BitVec 2
  tdc : Tdc
  deriving DecidableEq, Repr

/-- An item of the output-beat channel of an engine tap (Table PT-8). -/
structure OutBeat where
  seq : BitVec 2
  ctx : BitVec 4
  tag : BitVec 16
  off : BitVec 32
  last : Bool
  data : Beat
  tdc : Tdc
  deriving DecidableEq, Repr

/-- A mirrored frame header of a link tap (Table PT-9). -/
structure Hdr where
  seq : BitVec 2
  sent : Bool
  data : BitVec 256
  epv : Bool
  die : BitVec 14
  epoch : BitVec 16
  tdc : Tdc
  deriving DecidableEq, Repr

/-- The common fields of a received PTP message (IEEE 1588-2019 common header, as R120 and R121 use them); `len` is the length of
its frame in bytes (R46). -/
structure PtpHdr where
  len : Nat
  domain : BitVec 8
  seqId : BitVec 16
  twoStep : Bool
  ptpTimescale : Bool
  corr : BitVec 64
  srcClock : BitVec 64
  srcPort : BitVec 16
  logInterval : BitVec 8
  deriving DecidableEq, Repr

/-- A PTP timestamp: seconds and nanoseconds (R121). -/
structure PtpTime where
  sec : BitVec 48
  ns : BitVec 32
  deriving DecidableEq, Repr

/-- The data set that an Announce carries for the best-master comparison (Table NT-9). -/
structure PtpMaster where
  prio1 : BitVec 8
  clockClass : BitVec 8
  accuracy : BitVec 8
  variance : BitVec 16
  prio2 : BitVec 8
  gm : BitVec 64
  steps : BitVec 16
  deriving DecidableEq, Repr

/-- What a fatal fault is (R70, R20). `retention` is an uncorrectable error in the retention entries of a stream, and `notices` one in the notice
queue, of which the part knows the count or not. -/
inductive FaultCause where
  | ecc
  | timeout
  | retention (stream : Nat) (known : Bool)
  | notices (known : Bool)
  deriving DecidableEq, Repr

/-- What an uncorrectable error in staging SRAM hits (R216, R141): the staging of a check, or the slot of a full entry of a re-homed Heddle. -/
inductive StagingHit where
  | tile (check : BitVec 32)
  | slot (hed : Nat) (num : Nat)
  deriving DecidableEq, Repr

/-- The commands. -/
inductive Instr where
  -- resets and part state
  | fundamentalReset (dt : Nat)
  | blockReset (dt : Nat)
  | initialisationComplete (dt : Nat) (who : Option Nat)
  | partResetPortRequest (dt : Nat) (page : Nat)
  | regOverlap (dt : Nat)
  | registerWrite (dt : Nat) (addr : Nat) (data : Word)
  | readClearRegister (dt : Nat) (addr : Nat)
  | enable (dt : Nat) (page : Nat) (cond : Option (BitVec 32))
  | disable (dt : Nat) (page : Nat) (cond : Option (BitVec 32))
  | partReset (dt : Nat) (page : Nat) (cond : Option (BitVec 32))
  | retire (dt : Nat) (page : Nat) (cond : Option (BitVec 32))
  | reinstate (dt : Nat) (page : Nat) (cond : Option (BitVec 32))
  | auditNow (dt : Nat) (page : Nat) (cond : Option (BitVec 32))
  | fatalFault (dt : Nat) (page : Nat) (cause : FaultCause)
  | quiesceComplete (dt : Nat) (page : Nat)
  | quiesceOverdue (dt : Nat) (page : Nat)
  | stateReport (dt : Nat) (page : Nat) (corrupted : Bool)
  | periodicAudit (dt : Nat)
  | auditAnswer (dt : Nat) (page : Nat)
  -- Beam on the die
  | step (dt : Nat) (cond : Option (BitVec 32))
  | set (dt : Nat) (cond : Option (BitVec 32))
  | rate (dt : Nat) (cond : Option (BitVec 32))
  | calTdc (dt : Nat) (cond : Option (BitVec 32))
  | calRunComplete (dt : Nat) (words : List (Nat × Word)) (failed : List Nat)
  | stepAt (dt : Nat)
  | referenceLoss (dt : Nat)
  | referenceReturn (dt : Nat)
  | serialMessage (dt : Nat) (page : Nat) (msg : BitVec 192)
  | statusRequest (dt : Nat) (page : Nat)
  | sensorSample (dt : Nat) (ch : Nat) (voltage : Bool) (val : BitVec 16) (tdc : Tdc)
  | tdispStateChange (dt : Nat) (state : BitVec 2)
  -- the engine taps
  | commandIssue (dt : Nat) (hed : Nat) (item : Issue)
  | commandRetire (dt : Nat) (hed : Nat) (item : Retire)
  | spanAccept (dt : Nat) (hed : Nat)
  | eventLineTransition (dt : Nat) (hed : Nat) (line : BitVec 5)
  | stallReasonChange (dt : Nat) (hed : Nat) (reason : BitVec 8) (tdc : Tdc)
  | stallSamplePeriodic (dt : Nat) (hed : Nat)
  | counterSample (dt : Nat) (hed : Nat) (edges : Nat)
  | clockStateChange (dt : Nat) (hed : Nat) (state : BitVec 2) (edges : Nat) (tdc : Tdc)
  | gapLimit (dt : Nat) (hed : Nat) (edges : Nat)
  | hedCardMap (dt : Nat) (hed : Nat) (high : Bool) (data : Word)
  | outputBeat (dt : Nat) (hed : Nat) (item : OutBeat)
  -- the witness
  | mirrorIntake (dt : Nat) (reed : Nat)
  | gatherTimeout (dt : Nat) (reed : Nat) (check : BitVec 32)
  | shareComplete (dt : Nat) (wit : Nat)
  | stagingEccError (dt : Nat) (reed : Nat) (hit : StagingHit)
  | cardLoad (dt : Nat) (reed : Nat) (cond : Option (BitVec 32))
  | cardFetch (dt : Nat) (reed : Nat) (cond : Option (BitVec 32))
  -- the governor and delivery
  | governorWindowStart (dt : Nat)
  | flushWaitExpiry (dt : Nat) (stream : Nat)
  | flush (dt : Nat) (page : Nat) (cond : Option (BitVec 32))
  | blockIssue (dt : Nat) (writer : Nat)
  | memoryCompletion (dt : Nat) (writer : Nat) (tag : BitVec 4) (error : Bool)
  | completionTimeout (dt : Nat) (writer : Nat) (tag : BitVec 4)
  | releaseAcknowledge (dt : Nat) (bob : Nat)
  | shadowAcknowledge (dt : Nat) (bob : Nat)
  | bobEnable (dt : Nat) (page : Nat) (slot : BitVec 3) (cond : Option (BitVec 32))
  | bobDisable (dt : Nat) (page : Nat) (slot : BitVec 3) (cond : Option (BitVec 32))
  | bobTail (dt : Nat) (page : Nat) (slot : BitVec 3) (tail : Word)
  | writePortIdle (dt : Nat) (reed : Nat)
  | scanComplete (dt : Nat) (reed : Nat)
  | retainedRunReport (dt : Nat) (reed : Nat) (stream : Nat)
  | handBack (dt : Nat) (reed : Nat)
  -- verdicts
  | epochSettled (dt : Nat)
  | staleEpoch (dt : Nat)
  | epochQuery (dt : Nat) (port : Nat) (hed : Nat)
  | ledgerReceipt (dt : Nat) (port : Nat)
  | poison (dt : Nat) (die : BitVec 14) (epoch : BitVec 16)
  | clear (dt : Nat) (die : BitVec 14) (epoch : BitVec 16)
  | absolve (dt : Nat) (die : BitVec 14) (epoch : BitVec 16)
  | confirm (dt : Nat) (die : BitVec 14) (epoch : BitVec 16)
  | clearBatch (dt : Nat)
  | gateRequest (dt : Nat) (hed : Nat) (ctx : BitVec 4) (tdc : Tdc)
  | gateOpen (dt : Nat) (hed : Nat)
  | unblind (dt : Nat) (cond : Option (BitVec 32))
  | testReload (dt : Nat) (cond : Option (BitVec 32))
  | manifestLoadComplete (dt : Nat)
  | testDeadline (dt : Nat) (entry : Nat) (hed : Nat)
  | hubTestNext (dt : Nat)
  | sensorWaitExpiry (dt : Nat)
  -- the stop
  | stopNow (dt : Nat) (cond : Option (BitVec 32))
  | arm (dt : Nat) (cond : Option (BitVec 32))
  | disarm (dt : Nat) (cond : Option (BitVec 32))
  | resume (dt : Nat) (cond : Option (BitVec 32))
  | stopIn (dt : Nat) (tdc : Tdc)
  | ttCompare (dt : Nat)
  | armedPartFire (dt : Nat) (page : Nat)
  | stopTreeArrival (dt : Nat) (page : Nat)
  | holdAck (dt : Nat) (hed : Nat) (tdc : Tdc)
  | holdTimeout (dt : Nat) (hed : Nat)
  | scanWord (dt : Nat) (hed : Nat) (word : BitVec 32) (last : Bool)
  | scanWordTimeout (dt : Nat) (hed : Nat)
  | graceExpiry (dt : Nat) (port : Nat)
  | cutComplete (dt : Nat)
  | snagWritten (dt : Nat)
  | resumeArrival (dt : Nat) (page : Nat)
  | resumeComplete (dt : Nat)
  -- the Treadle
  | treadleInputEdge (dt : Nat) (src : Nat) (level : Bool)
  | filterAccept (dt : Nat) (src : Nat)
  | falcenSourceEvent (dt : Nat) (src : Nat)
  | coalesceTimeout (dt : Nat) (src : Nat)
  | trdDoorbell (dt : Nat) (data : Word)
  | trdClaim (dt : Nat) (target : Nat)
  | trdComplete (dt : Nat) (target : Nat) (data : Word)
  | trdPendingSet (dt : Nat) (word : Nat) (bits : Word)
  | trdPendingClr (dt : Nat) (word : Nat) (bits : Word)
  | trdDoze (dt : Nat) (data : Word)
  | asyncWake (dt : Nat) (src : Nat)
  -- link ports
  | linkStateChange (dt : Nat) (port : Nat) (state : BitVec 2) (tdc : Tdc)
  | absentTimer (dt : Nat) (port : Nat)
  | headerCapture (dt : Nat) (port : Nat) (item : Hdr)
  | unackEntry (dt : Nat) (port : Nat) (coll : BitVec 32) (chunk : BitVec 32)
  | unackEnd (dt : Nat) (port : Nat)
  | listTimeout (dt : Nat) (port : Nat)
  | listEntryPick (dt : Nat) (port : Nat)
  | ringRelease (dt : Nat) (port : Nat) (cond : Option (BitVec 32))
  -- mesh time
  | helloSend (dt : Nat) (port : Nat)
  | hello (dt : Nat) (port : Nat) (frame : Beat)
  | pdreqSend (dt : Nat) (port : Nat)
  | pdreq (dt : Nat) (port : Nat) (frame : Beat)
  | pdresp (dt : Nat) (port : Nat) (frame : Beat)
  | pdfollowSend (dt : Nat) (port : Nat)
  | pdfollow (dt : Nat) (port : Nat) (frame : Beat)
  | pdelayTimeout (dt : Nat) (port : Nat)
  | rootSyncSend (dt : Nat)
  | sync (dt : Nat) (port : Nat) (frame : Beat)
  | follow (dt : Nat) (port : Nat) (frame : Beat)
  | followSend (dt : Nat) (port : Nat)
  | followTimeout (dt : Nat)
  | rootLost (dt : Nat)
  | txTimestamp (dt : Nat) (port : Nat) (tdc : Tdc)
  | rxTimestamp (dt : Nat) (port : Nat) (tdc : Tdc)
  | servoStart (dt : Nat) (cond : Option (BitVec 32))
  | servoStop (dt : Nat) (cond : Option (BitVec 32))
  | servoRearm (dt : Nat) (cond : Option (BitVec 32))
  -- the Ethernet ordinary clock
  | ethTimestamp (dt : Nat) (sent : Bool) (msg : BitVec 4) (domain : BitVec 8) (seqId : BitVec 16) (seq : BitVec 2) (tdc : Tdc)
  | ptpSync (dt : Nat) (hdr : PtpHdr) (origin : PtpTime)
  | ptpFollowUp (dt : Nat) (hdr : PtpHdr) (origin : PtpTime)
  | ptpDelayResp (dt : Nat) (hdr : PtpHdr) (receive : PtpTime) (reqClock : BitVec 64) (reqPort : BitVec 16)
  | ptpAnnounce (dt : Nat) (hdr : PtpHdr) (master : PtpMaster)
  | ptpIgnoredMessage (dt : Nat) (len : Nat)
  | ptpDelayReqSend (dt : Nat)
  | announceTimeout (dt : Nat)
  -- tenants and keys
  | install (dt : Nat) (cond : Option (BitVec 32))
  | rotate (dt : Nat) (cond : Option (BitVec 32))
  | remove (dt : Nat) (cond : Option (BitVec 32))
  | release (dt : Nat) (cond : Option (BitVec 32))
  | scanRelease (dt : Nat) (cond : Option (BitVec 32))
  | genRetired (dt : Nat) (slot : BitVec 6)
  | fenceComplete (dt : Nat) (slot : BitVec 6)
  | slotDrainComplete (dt : Nat) (slot : BitVec 6)
  | drainOverdue (dt : Nat) (slot : BitVec 6)
  | scrubComplete (dt : Nat) (slot : BitVec 6)
  | keyEcc (dt : Nat) (slot : BitVec 6) (known : Bool)
  | readbackRequest (dt : Nat) (rid : BitVec 16) (addr : BitVec 48)
  | readbackComplete (dt : Nat)
  | readBeat (dt : Nat) (tag : BitVec 4) (beat : BitVec 3) (last : Bool) (error : Bool) (data : Beat)
  | readTimeout (dt : Nat) (tag : BitVec 4)
  -- the management core and calibration
  | load (dt : Nat) (cond : Option (BitVec 32))
  | loadComplete (dt : Nat)
  | handover (dt : Nat) (cond : Option (BitVec 32))
  | verifyComplete (dt : Nat)
  | fwReady (dt : Nat)
  | handoverTimeout (dt : Nat)
  | reloadComplete (dt : Nat)
  | fwAccept (dt : Nat)
  | fwReject (dt : Nat)
  | acceptTimeout (dt : Nat)
  | watchdogKick (dt : Nat)
  | watchdogExpiry (dt : Nat)
  | fwEmit (dt : Nat) (n : Word)
  | blockBufferTransfer (dt : Nat) (word : Word) (buffer : Block)
  | emit (dt : Nat) (cond : Option (BitVec 32))
  | hostScrubbed (dt : Nat) (cond : Option (BitVec 32))
  | calData (dt : Nat) (write : Option Word)
  | calStoreWrite (dt : Nat) (verified : Bool)
  | eccCorr (dt : Nat) (page : Nat)
  | powerLoss (dt : Nat)
  | frameCrc (dt : Nat) (port : Nat) (frame : Beat)
  deriving DecidableEq, Repr

end Sys2Proof
end

