-- ==== Sys2Proof/Decode.lean ====
section
/-! DEFINITION. What spec/opcode_table.json gives bits: no row. The commands are events at the ports, accesses and conditions, and none of
them is spelled by a word. -/

namespace Sys2Proof

/-- The command that a word spells by the table's bits: the table gives no row any bits. -/
def decodeTableWord (_nbits _w : Nat) : Option Instr := none

end Sys2Proof
end

