-- ==== Sys2Proof/Config.lean ====
section
/-! DEFINITION. What the manufacture of one die fixes, and the values the manual leaves free. None of them has a body, so nothing
can be proved of a value of one; a statement about the machine holds for every choice (notes/assumptions 7 to 10). -/

namespace Sys2Proof.Config

/-- The memory root key KM, fused at manufacture and readable by nothing (R300). -/
opaque keyKM : BitVec 256

/-- The link root key KL (R300). -/
opaque keyKL : BitVec 256

/-- The fused firmware key digest, SHA-384 of the signing key, byte 0 in the lowest bits; all zero when unprogrammed (R320). -/
opaque fwKeyDigest : BitVec 384

/-- The n-th 256-bit salt that the entropy source gives (R300). -/
opaque salt : Nat → BitVec 256

/-- The order in which the n-th sum of the witness arrays takes its k terms, as positions (R208, R209: not specified). -/
opaque sumOrder : Nat → Nat → List Nat

/-- The n-th FP32 word that the manual gives no value for: a sum or a maximum beyond the format (R208). -/
opaque freeWord : Nat → BitVec 32

/-- The AES counter block for a check ID, a vector number and a block of the vector's keystream (R209: its layout is not given). -/
opaque vecCounter : BitVec 32 → Nat → Nat → BitVec 128

/-- SEEN_MAX of a ledger entry of a die from which no epoch was received (R229 allocates such an entry without giving it one). -/
opaque seenUnset : Nat → BitVec 16

/-- Whether the n-th value that the manual gives without a rounding rule is rounded up rather than down (R108, R117, R121). -/
opaque roundUp : Nat → Bool

/-- Whether, at a raw count within the n-th calibration run, a point's freshly calibrated line is in service already, and its 16 bytes (R96
gives neither the instant of the swap nor the values before the run's end). -/
opaque freshLine : Nat → Nat → Nat → Option Nat

/-- The n-th block of the checkpoint area as firmware leaves it when it writes READY: what firmware computes is not modelled (R323). -/
opaque freeBlock : Nat → Block

end Sys2Proof.Config
end

