-- ==== Sys2Proof/Machine/Crypto.lean ====
section
/-! DEFINITION. The published algorithms that the manual uses (Table SC-6, R301, R304, R312, R320): AES-256 (FIPS 197), GCM (NIST
SP 800-38D), SHA-384 (FIPS 180-4), HMAC (FIPS 198-1), the counter-mode key derivation of SP 800-108 and ECDSA on P-384 (FIPS 186). A
byte string is a list of bytes, first byte first. -/

namespace Sys2Proof.Machine

/-- A byte string. -/
abbrev Bytes := List (BitVec 8)

/-- The `n` low bytes of a number, lowest first (R9). -/
def bytesLE (n v : Nat) : Bytes := (List.range n).map fun i => BitVec.ofNat 8 (v >>> (8 * i))

/-- The `n` low bytes of a number, highest first. -/
def bytesBE (n v : Nat) : Bytes := (bytesLE n v).reverse

/-- The number whose bytes are given, lowest first. -/
def natLE : Bytes → Nat
  | [] => 0
  | b :: bs => b.toNat + 256 * natLE bs

/-- The number whose bytes are given, highest first. -/
def natBE (bs : Bytes) : Nat := bs.foldl (fun a b => a * 256 + b.toNat) 0

/-- Split a list into pieces of `n`, the fuel bounding their number. -/
def chunks {α : Type} (n : Nat) : Nat → List α → List (List α)
  | 0, _ => []
  | f + 1, l => if l.isEmpty then [] else l.take n :: chunks n f (l.drop n)

/-- Exclusive or of two byte strings, as long as the shorter. -/
def xorBytes (a b : Bytes) : Bytes := List.zipWith (· ^^^ ·) a b

/-! ### AES-256 -/

/-- Multiplication by x in the field of AES. -/
def aesX (b : BitVec 8) : BitVec 8 := (b <<< 1) ^^^ (if b.msb then 0x1B else 0)

/-- Multiplication in the field of AES. -/
def aesMul (a b : BitVec 8) : BitVec 8 :=
  ((List.range 8).foldl (fun (acc, p) i => (if b.getLsbD i then acc ^^^ p else acc, aesX p)) ((0 : BitVec 8), a)).1

/-- The inverse in the field of AES (0 for 0), as the power 254. -/
def aesInv (b : BitVec 8) : BitVec 8 :=
  let b2 := aesMul b b
  let b4 := aesMul b2 b2
  let b8 := aesMul b4 b4
  let b16 := aesMul b8 b8
  let b32 := aesMul b16 b16
  let b64 := aesMul b32 b32
  let b128 := aesMul b64 b64
  aesMul b2 (aesMul b4 (aesMul b8 (aesMul b16 (aesMul b32 (aesMul b64 b128)))))

/-- The substitution box of AES. -/
def aesSub (b : BitVec 8) : BitVec 8 :=
  let i := aesInv b
  i ^^^ i.rotateLeft 1 ^^^ i.rotateLeft 2 ^^^ i.rotateLeft 3 ^^^ i.rotateLeft 4 ^^^ 0x63

/-- The round constant of the i-th use, from 0. -/
def aesRcon (i : Nat) : BitVec 8 := (List.range i).foldl (fun b _ => aesX b) 1

/-- The next eight words of the key schedule from the last eight. -/
def aesKeyStep (i : Nat) (k : List Bytes) : List Bytes :=
  let w7 := k.getD 7 []
  let r := (w7.drop 1 ++ w7.take 1).map aesSub
  let t0 := xorBytes (k.getD 0 []) (xorBytes r [aesRcon i, 0, 0, 0])
  let t1 := xorBytes (k.getD 1 []) t0
  let t2 := xorBytes (k.getD 2 []) t1
  let t3 := xorBytes (k.getD 3 []) t2
  let t4 := xorBytes (k.getD 4 []) (t3.map aesSub)
  let t5 := xorBytes (k.getD 5 []) t4
  let t6 := xorBytes (k.getD 6 []) t5
  [t0, t1, t2, t3, t4, t5, t6, xorBytes (k.getD 7 []) t6]

/-- The fifteen round keys of a 256-bit key. -/
def aesRoundKeys (key : Bytes) : List Bytes :=
  let k0 := chunks 4 8 key
  let ws := ((List.range 7).foldl (fun (acc, k) i => let k' := aesKeyStep i k; (acc ++ k', k')) (k0, k0)).1
  (chunks 4 15 ws).map List.flatten

/-- ShiftRows on the column-major state. -/
def aesShift (s : Bytes) : Bytes :=
  [0, 5, 10, 15, 4, 9, 14, 3, 8, 13, 2, 7, 12, 1, 6, 11].map fun i => s.getD i 0

/-- MixColumns of one column. -/
def aesMixColumn (c : Bytes) : Bytes :=
  let a := c.getD 0 0
  let b := c.getD 1 0
  let d := c.getD 2 0
  let e := c.getD 3 0
  [aesX a ^^^ aesX b ^^^ b ^^^ d ^^^ e, a ^^^ aesX b ^^^ aesX d ^^^ d ^^^ e,
   a ^^^ b ^^^ aesX d ^^^ aesX e ^^^ e, aesX a ^^^ a ^^^ b ^^^ d ^^^ aesX e]

/-- The AES-256 cipher on one 16-byte block with its round keys. -/
def aesRounds (rks : List Bytes) (blk : Bytes) : Bytes :=
  let s0 := xorBytes blk (rks.headD [])
  let mid := ((rks.drop 1).take 13).foldl
    (fun s rk => xorBytes (((chunks 4 4 (aesShift (s.map aesSub))).map aesMixColumn).flatten) rk) s0
  xorBytes (aesShift (mid.map aesSub)) (rks.getD 14 [])

/-- AES-256 of one block under a 256-bit key held as a number, byte 0 in the lowest bits. -/
def aes256 (key : BitVec 256) (blk : Bytes) : Bytes := aesRounds (aesRoundKeys (bytesLE 32 key.toNat)) blk

/-! ### GCM -/

/-- Multiplication in the field of GHASH; the first bit of a block is the highest. -/
def ghashMul (x y : BitVec 128) : BitVec 128 :=
  ((List.range 128).foldl (fun (z, v) i =>
      (if x.getMsbD i then z ^^^ v else z,
       if v.getLsbD 0 then (v >>> 1) ^^^ (0xE1 : BitVec 128) <<< 120 else v >>> 1)) ((0 : BitVec 128), y)).1

/-- GHASH over whole blocks. -/
def ghash (h : BitVec 128) (blks : List (BitVec 128)) : BitVec 128 := blks.foldl (fun y x => ghashMul (y ^^^ x) h) 0

/-- Zero padding to a multiple of 16 bytes. -/
def pad16 (b : Bytes) : Bytes := b ++ List.replicate ((16 - b.length % 16) % 16) 0

/-- The 16-byte blocks of a string, as numbers with the first byte highest. -/
def blocks128 (b : Bytes) : List (BitVec 128) := (chunks 16 (b.length / 16 + 1) b).map fun c => BitVec.ofNat 128 (natBE c)

/-- The keystream of counter mode from counter value 2 on, for a 96-bit nonce. -/
def gcmStream (rks : List Bytes) (nonce : Nat) (n : Nat) : Bytes :=
  ((List.range ((n + 15) / 16)).map fun i => aesRounds rks (bytesBE 12 nonce ++ bytesBE 4 (i + 2))).flatten

/-- The GCM tag of additional data and ciphertext. -/
def gcmTag (rks : List Bytes) (nonce : Nat) (aad ct : Bytes) : Bytes :=
  let h := BitVec.ofNat 128 (natBE (aesRounds rks (List.replicate 16 0)))
  let s := ghash h (blocks128 (pad16 aad ++ pad16 ct ++ bytesBE 8 (8 * aad.length) ++ bytesBE 8 (8 * ct.length)))
  xorBytes (bytesBE 16 s.toNat) (aesRounds rks (bytesBE 12 nonce ++ bytesBE 4 1))

/-- AES-256-GCM: the ciphertext and the tag. -/
def gcmSeal (key : BitVec 256) (nonce : Nat) (aad pt : Bytes) : Bytes × Bytes :=
  let rks := aesRoundKeys (bytesLE 32 key.toNat)
  let ct := xorBytes pt (gcmStream rks nonce pt.length)
  (ct, gcmTag rks nonce aad ct)

/-- AES-256-GCM: the plaintext, if the tag verifies. -/
def gcmOpen (key : BitVec 256) (nonce : Nat) (aad ct tag : Bytes) : Option Bytes :=
  let rks := aesRoundKeys (bytesLE 32 key.toNat)
  if gcmTag rks nonce aad ct = tag then some (xorBytes ct (gcmStream rks nonce ct.length)) else none

/-! ### SHA-384, HMAC, key derivation -/

/-- The first eighty primes. -/
def shaPrimes : List Nat :=
  [2, 3, 5, 7, 11, 13, 17, 19, 23, 29, 31, 37, 41, 43, 47, 53, 59, 61, 67, 71, 73, 79, 83, 89, 97, 101, 103, 107, 109, 113, 127, 131,
   137, 139, 149, 151, 157, 163, 167, 173, 179, 181, 191, 193, 197, 199, 211, 223, 227, 229] ++
  [233, 239, 241, 251, 257, 263, 269, 271, 277, 281, 283, 293, 307, 311, 313, 317, 331, 337, 347, 349, 353, 359, 367, 373, 379, 383, 389,
   397, 401, 409]

/-- The greatest r of `bits` bits with r to the power e at most n. -/
def rootFloor (e n : Nat) : Nat → Nat → Nat
  | 0, r => r
  | b + 1, r => rootFloor e n b (if (r + 2 ^ b) ^ e ≤ n then r + 2 ^ b else r)

/-- The round constants: the first 64 bits of the fractional parts of the cube roots of the primes. -/
def shaK : List (BitVec 64) := shaPrimes.map fun p => BitVec.ofNat 64 (rootFloor 3 (p * 2 ^ 192) 72 0)

/-- The initial value of SHA-384: the same of the square roots of the ninth to sixteenth primes. -/
def sha384Init : List (BitVec 64) := ((shaPrimes.drop 8).take 8).map fun p => BitVec.ofNat 64 (rootFloor 2 (p * 2 ^ 128) 70 0)

/-- The message schedule, newest word first, extended by `n` words. -/
def shaExtend : Nat → List (BitVec 64) → List (BitVec 64)
  | 0, w => w
  | n + 1, w =>
    let a := w.getD 1 0
    let b := w.getD 14 0
    let s1 := a.rotateRight 19 ^^^ a.rotateRight 61 ^^^ (a >>> 6)
    let s0 := b.rotateRight 1 ^^^ b.rotateRight 8 ^^^ (b >>> 7)
    shaExtend n ((s1 + w.getD 6 0 + s0 + w.getD 15 0) :: w)

/-- One round on the eight working words. -/
def shaRound (v : List (BitVec 64)) (kw : BitVec 64) : List (BitVec 64) :=
  match v with
  | [a, b, c, d, e, f, g, h] =>
    let t1 := h + (e.rotateRight 14 ^^^ e.rotateRight 18 ^^^ e.rotateRight 41) + ((e &&& f) ^^^ (~~~e &&& g)) + kw
    let t2 := (a.rotateRight 28 ^^^ a.rotateRight 34 ^^^ a.rotateRight 39) + ((a &&& b) ^^^ (a &&& c) ^^^ (b &&& c))
    [t1 + t2, a, b, c, d + t1, e, f, g]
  | _ => v

/-- The compression function on a 128-byte block. -/
def shaBlock (h : List (BitVec 64)) (blk : Bytes) : List (BitVec 64) :=
  let w0 := ((chunks 8 16 blk).map fun c => BitVec.ofNat 64 (natBE c)).reverse
  let ws := (shaExtend 64 w0).reverse
  List.zipWith (· + ·) h ((List.zipWith (· + ·) shaK ws).foldl shaRound h)

/-- SHA-384. -/
def sha384 (m : Bytes) : Bytes :=
  let z := (239 - m.length % 128) % 128
  let p := m ++ [0x80] ++ List.replicate z 0 ++ bytesBE 16 (8 * m.length)
  let h := (chunks 128 (p.length / 128) p).foldl shaBlock sha384Init
  ((h.map fun w => bytesBE 8 w.toNat).flatten).take 48

/-- HMAC-SHA-384 with a key of at most 128 bytes. -/
def hmac384 (key m : Bytes) : Bytes :=
  let k := key ++ List.replicate (128 - key.length) 0
  sha384 (k.map (· ^^^ 0x5C) ++ sha384 (k.map (· ^^^ 0x36) ++ m))

/-- One iteration of the counter-mode derivation of R301, the leftmost 256 bits kept, byte 0 in the lowest bits. -/
def kdf (key : BitVec 256) (label context : Bytes) : BitVec 256 :=
  BitVec.ofNat 256 (natLE ((hmac384 (bytesLE 32 key.toNat) (bytesBE 4 1 ++ label ++ [0] ++ context ++ bytesBE 4 256)).take 32))

/-- The bytes of an ASCII label. -/
def ascii (s : String) : Bytes := s.toList.map fun c => BitVec.ofNat 8 c.toNat

/-! ### ECDSA on P-384 -/

/-- The prime of P-384. -/
def p384P : Nat := 2 ^ 384 - 2 ^ 128 - 2 ^ 96 + 2 ^ 32 - 1

/-- The order of the group. -/
def p384N : Nat := 0xFFFFFFFFFFFFFFFFFFFFFFFFFFFFFFFFFFFFFFFFFFFFFFFFC7634D81F4372DDF581A0DB248B0A77AECEC196ACCC52973

/-- The coefficient b of the curve. -/
def p384B : Nat := 0xB3312FA7E23EE7E4988E056BE3F82D19181D9C6EFE8141120314088F5013875AC656398D8A2ED19D2A85C8EDD3EC2AEF

/-- The base point. -/
def p384G : Nat × Nat :=
  (0xAA87CA22BE8B05378EB1C71EF320AD746E1D3B628BA79B9859F741E082542A385502F25DBF55296C3A545E3872760AB7,
   0x3617DE4A96262C6F5D9E98BF9292DC29F8F41DBD289A147CE9DA3113B5F0B8C00A60B1CE1D7E819D7A431D7C90EA0E5F)

/-- The power b^e modulo m, by the `n` low bits of e, highest first. -/
def powMod (m b e : Nat) : Nat → Nat → Nat
  | 0, acc => acc
  | n + 1, acc =>
    let sq := acc * acc % m
    powMod m b e n (if e.testBit n then sq * b % m else sq)

/-- The inverse modulo a prime below 2^384. -/
def invMod (m a : Nat) : Nat := powMod m (a % m) (m - 2) 384 1

/-- Addition of points, none being the point at infinity. -/
def ecAdd (a b : Option (Nat × Nat)) : Option (Nat × Nat) :=
  match a, b with
  | none, q => q
  | q, none => q
  | some (x1, y1), some (x2, y2) =>
    let m := p384P
    if x1 = x2 ∧ (y1 + y2) % m = 0 then none
    else
      let l := if x1 = x2 then (3 * x1 * x1 + (m - 3)) * invMod m (2 * y1) % m
        else (y2 + m - y1) * invMod m (x2 + m - x1) % m
      let x3 := (l * l + (m - x1) + (m - x2)) % m
      some (x3, (l * (x1 + m - x3) + (m - y1)) % m)

/-- The multiple k·q by the `n` low bits of k. -/
def ecMul (k : Nat) (q : Nat × Nat) : Nat → Option (Nat × Nat) → Option (Nat × Nat)
  | 0, acc => acc
  | n + 1, acc =>
    let d := ecAdd acc acc
    ecMul k q n (if k.testBit n then ecAdd d (some q) else d)

/-- Whether (r, s) is a signature of the 384-bit digest e by the key q. -/
def ecdsaVerify (q : Nat × Nat) (e r s : Nat) : Bool :=
  let m := p384P
  let onCurve := q.1 < m && q.2 < m && q.2 * q.2 % m == (q.1 * q.1 * q.1 + (m - 3) * q.1 + p384B) % m
  let w := invMod p384N s
  let u1 := e * w % p384N
  let u2 := r * w % p384N
  onCurve && 0 < r && r < p384N && 0 < s && s < p384N &&
    (match ecAdd (ecMul u1 p384G 384 none) (ecMul u2 q 384 none) with
     | none => false
     | some (x, _) => x % p384N == r)

end Sys2Proof.Machine
end

