-- ==== Sys2Proof/Machine/State.lean ====
section
/-! DEFINITION. The state of the block: every register, buffer, queue, counter, mode and pin that the manual gives it, and the queue
of commands that wait. INVENTORY.md, section State, lists each piece with its rule. -/

namespace Sys2Proof.Machine

/-- The reasons a step can stop with a fault. -/
inductive Fault where
  /-- Raised by no command: one whose operand names a part, port, channel or target that was not instantiated (R5, R58) changes nothing but
  time, or is answered UNMAPPED (notes/assumptions 2 and 16). Safe: no statement rests on a stop. -/
  | absentInstance
  deriving DecidableEq, Repr

/-- The reasons a step can be refused. -/
inductive Refusal where
  /-- Raised by the dispatch for a command whose meaning is not written yet. Safe: nothing is proved of it. -/
  | notModelled (mnemonic : String)
  deriving DecidableEq, Repr

/-! ## What the licensee fixes, the parts and the register port -/

/-- The instantiation parameters of Table SC-1 and the frequency strap (R5, R48). -/
structure Inst where
  reeds : Nat
  hpr : Nat
  linksPerDir : Nat
  eth : Bool
  targets : Nat
  sensors : Nat
  refKhz : Nat
  deriving DecidableEq, Repr

/-- The state codes of R68. -/
inductive PState where
  | resetting | disabled | enabled | quiescing | failed | retired
  deriving DecidableEq, Repr

/-- A report of a transition on its way to the Hub, and the answer of an audit (R73, R74). -/
structure Report where
  st : PState
  seq : BitVec 32
  cause : BitVec 8
  deriving DecidableEq, Repr

/-- The reported view of a part (Table RM-12). -/
structure View where
  st : PState
  seq : BitVec 32
  cause : BitVec 8
  skewed : Bool
  deriving DecidableEq, Repr

/-- A part: its data-path state word (R68), the Hub's view of it (R73), and its copy of the Beam status (R90, R91). -/
structure Part where
  st : PState
  seq : BitVec 32
  cause : BitVec 8
  view : View
  /-- reports sent and not yet arrived, oldest first (R73) -/
  reports : List Report
  /-- kinds of the single audits asked and not answered (R74): 1 after a refusal, 2 AUDIT_NOW -/
  audits : List Nat
  locked : Bool
  /-- a status message was asked for and has not come (R91) -/
  asked : Bool
  rxDisc : Bool
  rxHoldover : Bool
  rxSteps : BitVec 8
  /-- what the part's copies of raw count and offset lead the true ones by, modulo 2^64 (R90) -/
  devRaw : Nat
  devOff : Nat
  /-- the announcement of the pending step failed its CRC here (R90) -/
  missed : Bool
  /-- raw count at which the part's records last became undisciplined or disciplined (R119) -/
  undRaw : Bt
  /-- raw count at the entry to QUIESCING, and whether the stay was found overdue (R70) -/
  quiesceAt : Bt
  overdue : Bool
  /-- raw count of the transition to the present state -/
  entered : Bt
  deriving DecidableEq, Repr

/-- The periodic audit (R74): the home pages that have answered, and the corrections made. -/
structure Audit where
  running : Bool
  answered : List Nat
  skews : Nat
  /-- raw count of the instant that the last periodic audit was for, or of the initial audit -/
  last : Option Bt
  deriving DecidableEq, Repr

/-- One access of the register port (R30): `addr` is the byte address of the word. -/
structure Access where
  wr : Bool
  addr : Nat
  data : Word
  deriving DecidableEq, Repr

/-- The outputs of the register port and of the part-reset port, and the access that waits for READY (R30, R31, R52). -/
structure Port where
  rsp : BitVec 2
  rdata : Word
  held : Option Access
  prst : BitVec 2
  /-- the page of a part-reset request that waits for READY (R31, R52) -/
  prstHeld : Option Nat
  deriving DecidableEq, Repr

/-! ## Beam -/

/-- A step announced and not yet in force (R85): the raw count AT, the new offset, and kind and origin of its record (R88). -/
structure StepAnn where
  raw : Bt
  newOff : Nat
  kind : Nat
  origin : Nat
  deriving DecidableEq, Repr

/-- A step that took force (R87): the raw count of its AT, Beam there before it and after it. -/
structure StepDone where
  raw : Bt
  before : Nat
  after : Nat
  deriving DecidableEq, Repr

/-- The Beam generator and the Beam status (R78 to R89, R96 to R98). -/
structure Time where
  raw : Bt
  offset : Nat
  /-- what raw count leads the phase accumulator by, in 2^-40 bt (R79) -/
  phase : Nat
  /-- messages on the serial line whose AT has not passed, oldest first (R89) -/
  line : List (BitVec 192)
  step : Option StepAnn
  stepCount : BitVec 32
  /-- the steps that took force, oldest first (R87) -/
  stepped : List StepDone
  rate : Int
  ratePend : Option Int
  refOk : Bool
  holdover : Bool
  disc : Bool
  calRunning : Bool
  /-- calibration runs begun since reset (R96) -/
  calRun : Nat
  calDue : Bool
  /-- raw count at which CAL_DUE last changed (R138) -/
  dueRaw : Bt
  /-- stamping parts that were reset during the calibration run (R97) -/
  calLost : List Nat
  deriving DecidableEq, Repr

/-! ## Records and delivery -/

/-- A pick before it has a sequence number (Table CT-4): payload bytes 16-31, and bytes 32-63 of an error report. -/
structure Pick where
  typ : BitVec 8
  flags : BitVec 8
  stamp : BitVec 64
  payload : BitVec 128
  ext : BitVec 256
  deriving DecidableEq, Repr

/-- A retained record (R15): its sequence, when it was accepted (raw count), and whether it is to be written REPLAYED (R184). -/
structure Rec where
  seq : BitVec 32
  pick : Pick
  accepted : Bt
  replay : Bool
  deriving DecidableEq, Repr

/-- A run of records of a stream: records and positions, the flush wait in force when it was opened, and the order in which it was
closed (R171, R191). -/
structure Run where
  n : Nat
  pos : Nat
  flush : Nat
  closed : Option Nat
  deriving DecidableEq, Repr

/-- A stream (R15, R170): the next sequence, the retained records oldest first, of which the first `committed` are committed and
not released and the next `taken` are in a block that has not completed OK; the others lie in `runs`. -/
structure Strm where
  next : BitVec 32
  recs : List Rec
  committed : Nat
  taken : Nat
  runs : List Run
  deriving DecidableEq, Repr

/-- Where a claimed slot of a bobbin stands. -/
inductive SlotState where
  | waiting      -- to be issued (again)
  | outstanding  -- its block is at the write port
  | stored       -- completed OK; the release is not acknowledged
  | released     -- completed OK and released, or a void completed
  deriving DecidableEq, Repr

/-- A claimed slot of a bobbin (R171 to R173): its index, its stream (none for a void), its last sequence and record count, the
block as sent, and the repeats already used. -/
structure Slot where
  idx : BitVec 32
  stream : Option Nat
  last : BitVec 32
  n : Nat
  blk : Block
  tries : Nat
  /-- it was issued before -/
  sent : Bool
  st : SlotState
  /-- the repeats it may have, as RETRY stood at its first issue (R172, R191) -/
  limit : Nat
  deriving DecidableEq, Repr

/-- The nonce head (the first 32 bits of R304) that a bobbin took for a generation of a tenant slot, and the blocks sealed under it. -/
structure BobHead where
  slot : Nat
  gen : BitVec 8
  head : BitVec 32
  blocks : Nat
  deriving DecidableEq, Repr

/-- A bobbin slot (R175, R178, Table DL-9): the configuration latched at BOB_ENABLE, the indices, the successor's shadow of HEAD and
the HEAD last sent to it, the claimed slots from HEAD on, and those whose blocks were still outstanding, or not yet released, when a
BOB_ENABLE set the indices to 0 (R170, R175). -/
structure Bob where
  en : Bool
  fault : Bool
  full : Bool
  latched : Bool
  cfg : Word
  base : Word
  size : Word
  head : BitVec 32
  write : BitVec 32
  tail : BitVec 32
  shadow : BitVec 32
  shadowSent : BitVec 32
  window : List Slot
  past : List Slot
  /-- the count of wraps kept beside WRITE (R304) -/
  wraps : BitVec 16
  /-- the nonce head taken for each live generation, with the blocks sealed under it (R304) -/
  heads : List BobHead
  /-- LAST_OLD of the last ROTATE, until its generation retires (R306) -/
  lastOld : Option (BitVec 32)
  deriving DecidableEq, Repr

/-- What a block at a write port is. -/
inductive BlkRef where
  | bob (b : Nat) (idx : BitVec 32)
  | past (b : Nat) (str : Option Nat)   -- a block of a stream, or a void, of a bobbin whose indices have been set to 0 since
  | scan (h : Nat) (blk : Nat)
  | snag (n : Nat)
  | zero (b : Nat) (n : Nat)
  | fw
  deriving DecidableEq, Repr

/-- A tag of a memory write port in use (R32, R34): its block and the address it is written to, the raw count at its issue, and whether its
deadline has passed. -/
structure TagUse where
  ref : BlkRef
  addr : Nat
  issued : Bt
  late : Bool
  deriving DecidableEq, Repr

/-- A memory write port (R32, R34): the tags in use, and the completions taken while its part was in part reset. -/
structure WPort where
  tags : List (Nat × TagUse)
  recorded : List (BlkRef × Bool)
  /-- how many runs had closed at the last DISABLE of the part: those are its drain (R71, R180) -/
  drain : Nat
  deriving DecidableEq, Repr

/-- The adoption state of a Reed for its predecessor (Table DL-3). -/
inductive Phase where
  | idle | waitPort | scan | serving | returning
  deriving DecidableEq, Repr

/-- What one slot of a bobbin held when it was scanned (R182). -/
structure Scanned where
  bob : Nat
  idx : BitVec 32
  stored : Option (Nat × BitVec 32)   -- stream and committed-sequence word
  deriving DecidableEq, Repr

/-- The adoption work of a Reed (index Reed), or of the Hub's packer (R182, R187). -/
structure Adopt where
  phase : Phase
  /-- reads of the scan not yet done: bobbin, offset 0 to 31 from H, repeats used -/
  todo : List (Nat × Nat × Nat)
  results : List Scanned
  /-- streams whose retained run has not been reported since the rebuild, with their stored word (R184) -/
  await : List (Nat × Option (BitVec 32))
  /-- raw count at which the re-homing began -/
  began : Bt
  /-- bobbins whose slots are being read: no block of theirs is written meanwhile (R182, R183) -/
  scanning : List Nat
  /-- service bobbins whose scan failed or was not made: their BOB_ENABLE scans them (R182, R187) -/
  unscanned : List Nat
  /-- the adoption ended with the loss of this Reed while its predecessor was at work: the predecessor's Heddles stay unserved (Table
  DL-3, last row) -/
  unserved : Bool
  deriving DecidableEq, Repr

/-! ## Heddles: trace -/

/-- The state of an open command (Table CT-3). -/
inductive EState where
  | opened | openCut | overflow | retired
  deriving DecidableEq, Repr

/-- An entry of a Heddle's tag index (R129, R130). The identifiers of a full entry stand in its Reed slot; `noIds` says that they
are lost. -/
structure Ent where
  full : Bool
  num : Nat
  st : EState
  item : Issue
  selected : Bool
  form : Bool
  marker : Bool
  noIds : Bool
  issue : Nat
  issueRaw : Bt
  /-- what held at the issue stamp: records undisciplined, CAL_DUE (R119, R138) -/
  und : Bool
  wide : Bool
  retire : Nat
  retireRaw : Bt
  status : BitVec 2
  /-- the TABLE_FULL record, and an OPEN_AT_CUT record, was accepted -/
  tfAcc : Bool
  cutAcc : Bool
  /-- the check card that governs its mirrored beats (R195) -/
  mirror : Option Nat
  deriving DecidableEq, Repr

/-- A clock gap that is open (R100), with what held at its entry stamp. -/
structure Gap where
  entry : Nat
  entryRaw : Bt
  und : Bool
  wide : Bool
  cycles : Nat
  state : BitVec 2
  foundAtEnable : Bool
  invalid : Bool
  deriving DecidableEq, Repr

/-- How a record is governed (Table CS-4): exempt, of a class, or of no known class. -/
inductive Cls where
  | exempt
  | cls (n : Nat)
  | unknown
  deriving DecidableEq, Repr

/-- A stamp, its raw count, and what held there: whether its part's records were undisciplined, and CAL_DUE (R18, R119, R138). -/
structure At where
  stamp : Nat
  raw : Bt
  und : Bool
  wide : Bool
  deriving DecidableEq, Repr

/-- What a record that waits is made from at its acceptance (R133, R249): a begin-only record of an entry with its reason; a span with
NO_BEGIN; a clock gap that closed; a counter sample as it was latched; a stall sample with the bt stalled and the changes up to its stamp; a
throttle record; the marker of a cut with the commands and the gap open at Tc; the marker of a resume. -/
inductive HeldWhat where
  | begin (e : Ent) (reason : Nat)
  | endOnly (tag : BitVec 16) (status : BitVec 2)
  | gap (g : Gap) (exit : Nat) (cycles : Nat) (extra : Nat)
  | sample (cycles : BitVec 48) (evt : List (Nat × BitVec 48))
  | stall (kind : Nat) (reason old : BitVec 8) (held stalled changes : Nat)
  | throttle (payload : Nat)
  | cut (marked : Bool) (source : Nat) (num : BitVec 16) (dist : Nat) (ents : List Ent) (gap : Option (Gap × Nat))
  | resume (source : Nat) (num : BitVec 16) (dist : Nat)
  deriving DecidableEq, Repr

/-- A record that waits to be accepted (R132, R133, R249): its context, the stamp of its bytes 8-15, the raw count of its triggering stamp, the
latest stamp that it holds, and the raw count from which it may be accepted. -/
structure Held where
  ctx : Nat
  at_ : At
  trig : Bt
  latest : Nat
  due : Bt
  what : HeldWhat
  deriving DecidableEq, Repr

/-- The trace state of a Heddle. -/
structure HedTrace where
  ents : List Ent
  /-- records that wait, in the order they were captured -/
  held : List Held
  /-- a transition out of ENABLED that waits for the records of the leaving to be accepted (R130): by PART_RESET, with its cause -/
  leaving : Option (Bool × BitVec 8)
  cycles : BitVec 48
  clkState : BitVec 2
  /-- the state before it, and the raw count of the change (R258) -/
  clkWas : BitVec 2
  clkRaw : Bt
  clkInvalid : Bool
  gap : Option Gap
  /-- closed gaps [entry, exit) that an open command may overlap (R102) -/
  gaps : List (Nat × Nat)
  /-- last _SEQ captured on the issue, retire and output-beat channels (R28); none since reset -/
  seqIss : Option (BitVec 2)
  seqRet : Option (BitVec 2)
  seqBeat : Option (BitVec 2)
  deriving DecidableEq, Repr

/-! ## The Treadle -/

/-- A source of the Treadle (R266 to R277): what it has pending, its batch, its coalescing count, its filter and its latch. -/
structure Src where
  pend : Bool
  active : Bool
  unrep : Nat
  first : Nat
  stamp : Nat
  batch : Nat
  asy : Bool
  noBeam : Bool
  repend : Bool
  /-- the level at the input, the filtered level, and the stamp of the run that the filter is judging -/
  input : Bool
  level : Bool
  levelStamp : Nat
  runRaw : Option (Bt × Nat)
  latch : Option Nat
  /-- a level source passing its filter after a wake, with its latched stamp (R277) -/
  wake : Option Nat
  deriving DecidableEq, Repr

/-- A target of the Treadle (Table TI-6): its stack, top first, with the tiers stored at the push. -/
structure Tgt where
  stack : List (Nat × Nat)
  offered : Bool
  irq : Bool
  stamp : Nat
  info : Word
  claims : BitVec 32
  /-- sources held back by the depth limit and already counted in FULL (R271) -/
  heldBack : List Nat
  deriving DecidableEq, Repr

/-- The Treadle. -/
structure Treadle where
  srcs : List (Nat × Src)
  tgts : List (Nat × Tgt)
  doze : Bool
  wakeSrc : Nat
  wakeAt : Nat
  deriving DecidableEq, Repr

/-! ## Heddles: cards, counters, stalls; the governor -/

/-- A pattern card in force (R144, R145): its words and the entry it was copied from; none is the null card. -/
structure Card where
  entry : Nat
  w0 : Word
  w1 : Word
  deriving DecidableEq, Repr

/-- The cards, event counters and stall state of a Heddle (R145, R147, R150). -/
structure HedCount where
  /-- context to card in force, and context to the entry that waits for a marker -/
  cards : List (Nat × Card)
  waiting : List (Nat × Nat)
  /-- cards that were in force: context, the raw count at which another took force, and the card, latest first (R145, R146) -/
  was : List (Nat × Bt × Option Card)
  evt : List (Nat × BitVec 48)
  reason : BitVec 8
  reasonAt : Nat
  reasonRaw : Bt
  /-- the reason before it, and the raw count of its beginning (R150, R258) -/
  reasonWas : BitVec 8
  reasonWasRaw : Bt
  /-- bt stalled before the reason in force, and reason changes, since reset; and per context what they were at its last accepted stall
  sample (R150) -/
  stalled : Nat
  changes : Nat
  base : List (Nat × (Nat × Nat))
  /-- the raw counts of the last sampling instants taken -/
  lastCnt : Option Nat
  lastStl : Option Nat
  deriving DecidableEq, Repr

/-- Quotas of a window and what is used of them (R155). -/
structure Quota where
  qp : Nat
  qu : Nat
  pu : Nat
  uu : Nat
  deriving DecidableEq, Repr

/-- Demand of a window: protected and unprotected records, and the Reed that counted them (R154). -/
structure Demand where
  p : Nat
  u : Nat
  reed : Nat
  deriving DecidableEq, Repr

/-- The demand of a window that has ended (R154): whether the Heddle was ENABLED for the whole of it, the Reed in whose count it was at the
window's end, and what each Reed counted. -/
structure Counted where
  whole : Bool
  reed : Nat
  counts : List Demand
  deriving DecidableEq, Repr

/-- What governed a window (R152, R155, R156): quotas and what is used of them, protection, stretch. -/
structure Win where
  q : Quota
  prot : BitVec 19
  stretch : Nat
  deriving DecidableEq, Repr

/-- The governor's state in a Heddle: the quotas of the window under way, the windows before it of which a record may still be decided,
latest first, by their numbers, the demand counted in the window under way and in the one before, the protection in force and next, the
refusals of the window by context, and the Beam at the window's start (R161). -/
structure HedGov where
  cur : Quota
  past : List (Nat × Win)
  d0 : List Demand
  d1 : Option Counted
  prot : BitVec 19
  protNext : BitVec 19
  refP : List (Nat × Nat)
  refU : List (Nat × Nat)
  start : At
  deriving DecidableEq, Repr

/-- The governor's state in a Reed (R156, R159, R162, R203): the stretch and the calm windows, its total quotas of the last
windows, the scan quota, the refusals of the window, the energy credits and energy demands. Energies are in the unit of
Machine/Governor. -/
structure ReedGov where
  stretch : Nat
  calm : Nat
  tq0 : Nat
  tq1 : Nat
  scanQ : Nat
  scanUsed : Nat
  scan0 : Nat
  scan1 : Nat
  refU : Nat
  refP : Nat
  retain : Nat
  tiles : Nat
  deferred : Nat
  heds : List Nat
  raised : Bool
  creditM : Int
  creditO : Int
  quotaM : Nat
  quotaO : Nat
  em0 : Nat
  em1 : Nat
  eo0 : Nat
  eo1 : Nat
  /-- the quotas of the last 64 windows, latest first (R203) -/
  pastM : List Nat
  pastO : List Nat
  /-- the Beam at the start of the window under way (R162) -/
  start : At
  deriving DecidableEq, Repr

/-- The governor in the Hub: the window number, the settings in force and next, the exempt picks of the last windows, the allowance, and
the energy admitted in this window, and the windows of the last 10 ms (newest first: the end, the energy, the length). -/
structure Gov where
  k : Nat
  budget : Nat
  budgetNext : Nat
  cap : Nat
  capNext : Nat
  e1 : Nat
  e2 : Nat
  allow : Nat
  energy : Nat
  energies : List (Bt × Nat × Nat)
  deriving DecidableEq, Repr

/-! ## Tenant slots and keys -/

/-- The state of a tenant slot (Table TK-4). -/
inductive SlotSt where
  | free | active | fencing | draining | erased
  deriving DecidableEq, Repr

/-- A live generation of a slot (R300, R301, R304): its number, its salt, its keys, its next nonce head, and the Beam at the ROTATE that
made it old. -/
structure Gen where
  g : BitVec 8
  salt : BitVec 256
  enc : BitVec 256
  dig : Nat
  nextHead : BitVec 32
  oldAt : Nat
  deriving DecidableEq, Repr

/-- The nonce head of a slot's scan-out (R304): the stop's number, the raw count of its Tc, the generation, and the head. -/
structure ScanHead where
  num : BitVec 16
  stop : Bt
  gen : BitVec 8
  head : BitVec 32
  deriving DecidableEq, Repr

/-- A tenant slot: the current generation first. -/
structure KSlot where
  st : SlotSt
  tenant : BitVec 32
  gens : List Gen
  ktag : BitVec 256
  scrubbed : Bool
  cause : Nat
  tf : Nat
  /-- generations that sealed the slot's last scan-out, while SCAN_HOLD is in force (R306) -/
  scanHold : List (BitVec 8)
  /-- the nonce heads of the slot's scan-outs under its live generations, latest first (R304, R305) -/
  scanHeads : List ScanHead
  fenceRefused : Nat
  lateDrops : Nat
  scrubRetries : Nat
  /-- records refused since Tf, blocks written in FENCING and DRAINING, and the raw count and Beam at the entry to DRAINING -/
  refusedSince : Nat
  written : Nat
  drainRaw : Bt
  overdue : Bool
  /-- bobbins and scan areas that the scrub covers, and blocks zeroed (R309) -/
  scrubBobs : List Nat
  scrubHeds : List Nat
  /-- base and size exponent of the scan area at the entry to ERASED (R309) -/
  scrubBase : Nat
  scrubLog : Nat
  zeroed : Nat
  scanZeroed : Nat
  /-- the next block to zero, those to repeat, and the Beam of the last zero write -/
  zeroNext : Nat
  zeroRedo : List Nat
  zeroAt : Nat
  deriving DecidableEq, Repr

/-- A readback request (R36). -/
structure Readback where
  rid : BitVec 16
  addr : BitVec 48
  deriving DecidableEq, Repr

/-- What a read of the memory read port is for (R35). -/
inductive ReadFor where
  | scan (adopter : Nat) (bob : Nat) (off : Nat) (tries : Nat)
  | readback
  | fwLoad (n : Nat)
  | fwReload (n : Nat)
  | manifest (n : Nat)
  | fwBuf
  | dropped   -- nothing waits for it any more
  deriving DecidableEq, Repr

/-- A read outstanding: its purpose, its address, the raw count of its request and the beats so far. -/
structure ReadUse where
  what : ReadFor
  addr : BitVec 48
  asked : Bt
  beats : List Beat
  bad : Bool
  /-- it has ended before its last beat, and the beats still to come are dropped (R35) -/
  ended : Bool
  deriving DecidableEq, Repr

/-- The memory read port (R35): the tags in use, and the reads that wait for a tag. -/
structure RPort where
  tags : List (Nat × ReadUse)
  waiting : List (ReadFor × BitVec 48)
  deriving DecidableEq, Repr

/-- The readback port (R36, R37): requests in arrival order, the front one's status where it needs no read, the result of its read, and the last answer
(status and block). -/
structure RbPort where
  queue : List Readback
  early : Option (BitVec 3)
  data : Option (Option Block)
  answer : Option (BitVec 3 × Block)
  deriving DecidableEq, Repr

/-- The key store. -/
structure KeyStore where
  slots : List (Nat × KSlot)
  tdi : BitVec 2
  /-- the seed words written since the seed was last cleared -/
  seed : List (Nat × Word)
  rb : RbPort
  deriving DecidableEq, Repr
/-! ## The witness -/

/-- A mirrored beat in a mirror queue (R195, R196), with the operator ID of a compiled command; `lost` is one that found the queue full. -/
structure QBeat where
  hed : Nat
  ctx : BitVec 4
  tag : BitVec 16
  card : Nat
  op : Option (BitVec 24)
  off : BitVec 32
  last : Bool
  data : Beat
  stamp : Nat
  raw : Bt
  lost : Bool
  /-- a beat of a tile that ended by a lost beat: it is dropped at intake -/
  dead : Bool
  deriving DecidableEq, Repr

/-- What a role of a tile holds: its beats by ET_BEAT_OFF, whether ET_BEAT_LAST came, and the capture stamp of its last beat. -/
structure Role where
  beats : List (Nat × Beat)
  last : Bool
  stamp : Nat
  deriving DecidableEq, Repr

/-- The fields of a check card (Table WA-1). -/
structure CheckCard where
  w0 : Word
  w1 : Word
  w2 : Word
  w3 : Word
  deriving DecidableEq, Repr

/-- The outcome of a check (R212): its reason, the vectors that failed, the first failing column and the Beam at which it was known. -/
structure Verdict where
  reason : Nat
  vecs : Nat
  col : Nat
  stamp : Nat
  deriving DecidableEq, Repr

/-- An accepted check without an accepted result (R204, R205), with its tile: the primary Reed of its Heddles, its card as copied and
the generation copied with it, its first beat, the time gathered before `ticking`, its roles A, B, C. -/
structure Check where
  id : BitVec 32
  owner : Nat
  idx : Nat
  tag : BitVec 16
  card : CheckCard
  gen : BitVec 8
  first : Nat
  firstRaw : Bt
  gathered : Nat
  ticking : Bt
  roles : List Role
  complete : Bool
  admitted : Bool
  deferred : Bool
  outcome : Option Verdict
  deriving DecidableEq, Repr

/-- A tile whose further beats are dropped: refused, not captured, or ended while it was gathered. `lasts` are the roles that have had
their ET_BEAT_LAST. -/
structure Tomb where
  owner : Nat
  idx : Nat
  tag : BitVec 16
  card : CheckCard
  lasts : List Bool
  ends : Bt
  deriving DecidableEq, Repr

/-- A share of a check: its phase and its multiply-accumulates (R205). -/
structure Share where
  second : Bool
  macs : Nat
  deriving DecidableEq, Repr

/-- The witness state of a Reed: mirror queue, checks in check-ID order, the ordered part of the check queue, next check ID, vector key,
the shares of the running check not given out, those at the arrays, and witness picks that wait for retention. -/
structure WitReed where
  queue : List QBeat
  checks : List Check
  order : List (BitVec 32)
  tombs : List Tomb
  nextId : BitVec 32
  vecKey : BitVec 256
  started : Bool
  todo : List Share
  busy : List (Nat × Share)
  /-- witness picks with the raw count from which each may be accepted (R249) -/
  out : List (Bt × Pick)
  deriving DecidableEq, Repr

/-! ## Verdicts -/

/-- The own die's verdict values (R222, R224): the raw count at which the epoch of the last own ABSOLVE begins, the value the last CLEAR
named and the PASS outcomes after it. -/
structure Own where
  cleared : BitVec 16
  taintFrom : BitVec 16
  confirm : BitVec 16
  tainted : Bool
  stale : Bool
  absolved : Option Int
  /-- raw counts of the first beats of the checks that ended FAIL or UNCHECKED, since the last ABSOLVE of the own die that covers them -/
  bad : List Nat
  lastClear : BitVec 16
  passes : Nat
  deriving DecidableEq, Repr

/-- An entry of the taint ledger (R227), kept under its die; no epoch may have been received yet. -/
structure LedEnt where
  cleared : BitVec 16
  taintFrom : BitVec 16
  tainted : Bool
  seen : Option (BitVec 16)
  pend : List (BitVec 16 × Nat)
  deriving DecidableEq, Repr

/-- An error report (R238): class, unit, bytes 20 to 23, bytes 24 to 31 where no sensor fills them, and bytes 32 to 63; whether sensors
fill bytes 24 to 31, and whether they have. -/
structure ErrReport where
  cls : Nat
  unit : Nat
  index : Nat
  w20 : BitVec 32
  w24 : BitVec 64
  ext : BitVec 256
  stamp : Nat
  flags : BitVec 8
  placedRaw : Bt
  sensed : Bool
  filled : Bool
  deriving DecidableEq, Repr

/-- A notice (R233): kind, reason, die, epoch, merge count, check ID or count of PASS, Reed, position and context, flags and stamp; or an
error report. -/
inductive Notice where
  | notice (kind reason die : Nat) (epoch : BitVec 16) (merged : Nat) (id : BitVec 32) (reed home : Nat) (flags : BitVec 8) (stamp : Nat)
  | report (r : ErrReport)
  deriving DecidableEq, Repr

/-- The Hub's verdict state: own die, ledger, blindness, notice queue, poison hold and waiting reports (R232), the batch instant last
taken (R231), and the emissions that wait for retention: of the oldest notices, and of the Hub's own POISON (R318, R325). -/
structure Verdicts where
  own : Own
  led : List (Nat × LedEnt)
  blind : Bool
  blindAt : Nat
  queue : List Notice
  hold : Option Notice
  waiting : List Notice
  lastBatch : Option Nat
  owed : Nat
  eager : Nat
  deriving DecidableEq, Repr

/-- A pending gate (R235): context, stamp, raw count, scope, and the SEEN_MAX of each tainted-relevant die as of the stamp. -/
structure Gate where
  ctx : BitVec 4
  g : Nat
  raw : Bt
  scope : Nat
  seen : List (Nat × BitVec 16)
  deriving DecidableEq, Repr

/-- The gate channel of a Heddle: the levels of ET_GATE_REQ and ET_GATE_ACK, the context last presented, and the pending gate. -/
structure HedGate where
  req : Bool
  ack : Bool
  ctx : BitVec 4
  gate : Option Gate
  deriving DecidableEq, Repr

/-- An entry of the test manifest (Table VT-8). -/
structure TestEnt where
  id : BitVec 32
  trig : BitVec 8
  ctx : Nat
  card : Nat
  first : Nat
  last : Nat
  limit : Nat
  deriving DecidableEq, Repr

/-- The test state of an entry and Heddle (Table VT-9): 1 WAITING, 2 WINDOW, 3 PREEMPT; the trigger and its stamp, the stamp of the
request, the raw counts of the deadline's start and of the entry to the state, and whether its request still has to enter the FIFO. -/
structure TestState where
  st : Nat
  trig : Nat
  trigAt : Nat
  reqAt : Nat
  fromRaw : Bt
  entered : Bt
  offer : Bool
  deriving DecidableEq, Repr

/-- The in-field test ledger: manifest, states by entry and Heddle, request FIFO, blocks of a manifest being read, the Heddles enabled
once since reset, those reinstated and not enabled since, and the raw count at which no firmware ran any more. -/
structure Tests where
  mid : BitVec 32
  ents : List TestEnt
  states : List (Nat × TestState)
  fifo : List (Bool × Nat × Nat)
  reading : Option (List (Nat × Option Block))
  seen : List Nat
  back : List Nat
  frozen : Option Bt
  deriving DecidableEq, Repr


/-! ## The stop -/

/-- The phases of Table SS-2. -/
inductive StopPhase where
  | idle | armed | cutting | snagging | stopped | resuming
  deriving DecidableEq, Repr

/-- What the Hub holds of the stop (R250): phase, number, source, Tc, Tr and Ts, STOP_OUT, the fields latched at the launch, the parts
armed, whether Tc was DISC, the pulses not yet arrived, and the snag report under way. -/
structure Stop where
  phase : StopPhase
  num : BitVec 16
  source : Nat
  tc : Nat
  /-- the raw count at Tc -/
  tcRaw : Bt
  tr : Nat
  ts : Nat
  out : Bool
  pinIn : Bool
  ctl : Word
  scanBase : Word
  scanLog : Nat
  snagBase : Word
  snagLog : Nat
  hdrTs : Word
  guard : Nat
  armedAt : Nat
  armed : List Nat
  /-- armed parts that fired before the Hub (R247), and the Tc and Tr of the stops that were resumed (R251) -/
  fired : List Nat
  past : List (Nat × Nat)
  discAtTc : Bool
  /-- home pages of Heddles and link ports that the cut, or the resume, has not reached yet -/
  cutTodo : List Nat
  resumeTodo : List Nat
  /-- snag: entries taken, blocks written, the block handed to the port and the repeats used, and the
  Beam at the last entry -/
  snagNext : Nat
  snagBlocks : Nat
  snagOut : Option (Nat × Block × Nat × Bool)
  snagBeam : Nat
  snagTrunc : Bool
  snagDone : Bool
  snagEntries : Nat
  deriving DecidableEq, Repr

/-- A scan block handed to the Reed (R256): its content, sealed at its first issue (R303), whether it is at a port, the repeats used, whether
it is the last, and whether it was issued before. -/
structure ScanOut where
  blk : Block
  atPort : Bool
  tries : Nat
  last : Bool
  sent : Bool
  deriving DecidableEq, Repr

/-- What a Heddle holds of the stop (R252, R256): its hold, ET_HOLD and ET_HOLD_ACK, the stamps, the scan with its buffer, and what
the snag report shows of the cut. -/
structure HedStop where
  hold : Nat
  line : Bool
  ack : Bool
  ackStamp : Nat
  learnt : Bool
  learntRaw : Bt
  /-- Tc as the Heddle takes it (R246) -/
  tc : Nat
  markers : List Nat
  atCut : Bool
  scan : Nat
  words : Nat
  buf : List (BitVec 32)
  blkNo : Nat
  /-- block handed to the Reed -/
  out : Option ScanOut
  /-- the repeats it may have, as RETRY stood at its first issue (R172) -/
  limit : Nat
  wordAsked : Option Bt
  ended : Bool
  stallAtTc : BitVec 8
  clkAtTc : BitVec 2
  cyclesAtTc : BitVec 48
  deriving DecidableEq, Repr
/-! ## Link ports -/

/-- A header of the ring (Table LT-3). -/
structure RingEnt where
  data : BitVec 256
  stamp : Nat
  cap : BitVec 32
  sent : Bool
  epv : Bool
  die : BitVec 14
  epoch : BitVec 16
  label : Nat
  deriving DecidableEq, Repr

/-- A chunk header on its way to the ledger (R226). -/
structure Receipt where
  die : BitVec 14
  epoch : BitVec 16
  stamp : Nat
  deriving DecidableEq, Repr

/-- A thread (R291, R292): its number, TD, the LP_STATE entered at TD, picks made, entries dropped, its flags, the entries buffered,
whether its list is open, whether it timed out and its end has not come, and whether its end pick was accepted. -/
structure Thread where
  num : BitVec 16
  td : Nat
  tdRaw : Bt
  und : Bool
  wide : Bool
  state : BitVec 2
  picks : Nat
  dropped : Nat
  listed : Nat
  flags : Nat
  buf : List (BitVec 32 × BitVec 32)
  isOpen : Bool
  late : Bool
  done : Bool
  deriving DecidableEq, Repr

/-- A link port at a stop (R253): whether it has learnt Tc and is in its grace, its counts, and what the snag report shows of the cut. -/
structure LinkCut where
  grace : Bool
  frozen : Bool
  inFlight : Nat
  post : Nat
  unknown : Nat
  lost : Nat
  lpAtTc : BitVec 2
  lastPre : Nat
  /-- Tc as the port takes it (R246) -/
  tc : Nat
  deriving DecidableEq, Repr

/-- A record of a link port that waits to be accepted (R249): a link event, whose count of lost headers is taken at its acceptance, or a stop
cut marker. -/
inductive LinkWhat where
  | event
  | marker
  deriving DecidableEq, Repr

/-- Its stamp, the raw count from which it may be accepted, and its payload. -/
structure LinkHeld where
  at_ : At
  due : Bt
  what : LinkWhat
  payload : Nat
  deriving DecidableEq, Repr

/-- A link port: LP_STATE, topology, the neighbour last heard, header ring, threads, and what waits for the ledger. -/
structure Link where
  lp : BitVec 2
  /-- the state before it, and the raw count of the change (R258) -/
  lpWas : BitVec 2
  lpRaw : Bt
  /-- records that wait, in the order of their capture -/
  held : List LinkHeld
  topo : Nat
  absentFrom : Option Bt
  absentMs : Nat
  seen : Option (BitVec 14 × BitVec 8)
  lastChange : Nat
  seq : Option (BitVec 2)
  ring : List (Nat × RingEnt)
  next : BitVec 32
  mark : BitVec 32
  freeze : Nat
  thread : BitVec 16
  threads : List Thread
  lostSince : Nat
  toLedger : List Receipt
  warned : Bool
  eqValid : Bool
  eqEpoch : BitVec 16
  cut : LinkCut
  deriving DecidableEq, Repr

/-! ## Pod time -/

/-- A quotient of integers. -/
structure Q where
  n : Int
  d : Nat
  deriving DecidableEq, Repr

/-- A mesh time frame sent whose egress stamp is not known yet (R44): its kind and sequence, and its port's fields for a forward. -/
structure Sent where
  kind : Nat
  seq : BitVec 16
  deriving DecidableEq, Repr

/-- A received FOLLOW as R111 to R113 use it. -/
structure Follow where
  root : BitVec 14
  seq : BitVec 16
  hops : Nat
  n : Nat
  steps : BitVec 8
  flags : BitVec 8
  origin : Nat
  corr : Int
  rate : Int
  raw : Bt
  deriving DecidableEq, Repr

/-- The time state of a link port (R105 to R113): negotiation, the plane times of unpaired LP_RXTS, frames sent and not stamped, the
peer-delay exchange (with the calibration word that it uses, R332) and its history, the last SYNC and FOLLOW, a forward in progress (the port its SYNC came in on, or 96 at the root; the
sequence; the egress plane time), the intervals in which the last HELLO and PDREQ were due, and LP_TFTX_DATA, and PEER_DELAY. Plane times are in 1/64 bt. -/
structure LinkTime where
  ver : Nat
  noCommon : Bool
  verMax : Nat
  nbr : Option (Nat × Nat)
  agreed : Option Nat
  helloSeq : BitVec 16
  rx : List Int
  sent : List Sent
  pdSeq : BitVec 16
  pdRaw : Option Bt
  cal : Word
  t1 : Option Int
  t2 : Option Nat
  t4 : Option Int
  last : Option (Int × Nat)
  ratio : Q
  delays : List Q
  good : Nat
  discards : Nat
  reply : Option (BitVec 16 × Option Int)
  syncIn : Option (BitVec 16 × Int × Bt)
  follow : Option Follow
  fwd : Option (Nat × BitVec 16 × Option Int)
  helloIdx : Nat
  pdIdx : Nat
  txd : Beat
  shown : Int
  deriving DecidableEq, Repr

/-- The sync servo (R114 to R118): its state (Table NT-6), the configuration latched at its start, the frequency in parts per 10^12,
the offsets gathered by an acquisition with their Beam, runs of measurements, offsets set aside, the last applied offset in 2^-8 bt, the
parent port, the root as last carried, at the root its sequence and the interval of its last SYNC; and the newest FOLLOW of a root seen on any
port, its raw count and the root's interval exponent (R112). -/
structure Servo where
  st : Nat
  ctl : Word
  lock : Word
  die : Word
  acqDone : Bool
  clamped : Bool
  freq : Int
  got : List (Q × Nat)
  inLock : Nat
  outLock : Nat
  aside : Nat
  theta : Int
  lastAt : Option Nat
  parent : Option Nat
  rootDisc : Bool
  rootSteps : Option (BitVec 8)
  rootLost : Bool
  wantStep : Bool
  rootSeq : BitVec 16
  rootIdx : Nat
  newest : Option (BitVec 14 × BitVec 16)
  freshRaw : Bt
  rootLog : Option Nat
  deriving DecidableEq, Repr

/-- An Ethernet timestamp that waits for its frame (R121): direction, message type, domain, sequence, corrected stamp in 2^-14 bt and raw count. -/
structure EthTs where
  sent : Bool
  msg : BitVec 4
  domain : BitVec 8
  seqId : BitVec 16
  stamp : Int
  raw : Bt
  deriving DecidableEq, Repr

/-- A foreign master (R120). -/
structure Foreign where
  clock : BitVec 64
  port : BitVec 16
  master : PtpMaster
  log : BitVec 8
  raw : Bt
  deriving DecidableEq, Repr

/-- The Sync being measured (R121): its sequence, whether a Follow_Up is to come, its correctionField, t1 and t2. -/
structure EthSync where
  seqId : BitVec 16
  twoStep : Bool
  corr : Int
  t1 : Option Int
  t2 : Option Int
  raw : Bt
  deriving DecidableEq, Repr

/-- The Ethernet ordinary clock (R120, R121): foreign masters and the selected one, timestamps not paired, the Sync being measured, the raw
count of the last Sync and its interval, the last master-to-slave offset, the Delay_Req outstanding with its t3, ms + sm of
the last exchanges, the calibration word of that exchange (R332), and MPD.
Times and differences are in 2^-14 bt. `tx` is the frame last sent. -/
structure Eth where
  seqTs : Option (BitVec 2)
  foreign : List Foreign
  sel : Option (BitVec 64 × BitVec 16)
  ts : List EthTs
  sync : Option EthSync
  lastSync : Bt
  syncLog : BitVec 8
  ms : Option Int
  drSeq : BitVec 16
  drRaw : Option Bt
  cal : Word
  t3 : Option Int
  drLog : BitVec 8
  mpds : List Int
  shown : Int
  tx : List (BitVec 8)
  deriving DecidableEq, Repr

/-! ## The management core, the calibration set and the sensors -/

/-- An image being read by the loader (R321): its base, how many blocks its header asks for, the header, the body blocks by their number, and
whether a read ended ERROR. -/
structure Loader where
  kind : Nat        -- 0 cold load, 1 verify of a handover, 2 reload of a handover
  base : Nat
  header : Option Block
  body : List (Nat × Block)
  want : Nat
  bad : Bool
  deriving DecidableEq, Repr

/-- The management core (R319 to R328): the loaded image's figures, the loader, the handover, the core's dealings with the Hub, and its
SRAM as blocks. -/
structure Fw where
  loaded : Bool
  version : BitVec 32
  ckpt : BitVec 16
  entry : Nat
  newVersion : BitVec 32
  newCkpt : BitVec 16
  newEntry : Nat
  newBase : Nat
  newWant : Nat
  loader : Option Loader
  phase : Nat
  hash : Option Nat
  phaseRaw : Bt
  readyRaw : Bt
  startKind : Nat
  freshLoad : Bool
  stopReq : Bool
  halted : Bool
  kickRaw : Bt
  kickUs : Nat
  image : List (Nat × Block)
  checkpoint : List (Nat × Block)
  buf : Block
  bufStatus : Nat
  /-- a write of the block buffer that waits for the service write port: its block address -/
  bufOut : Option Nat
  deriving DecidableEq, Repr

/-- The calibration set (R330, R95): region 0 words, the words of regions 1 to 4 by region and index, the line in service of each stamping
point, and the store with its pending words and count of writes. -/
structure Cal where
  lin : List (Nat × Nat)
  /-- what a region 0 word was before its last write, and the raw count of that write (R332) -/
  linOld : List (Nat × (Nat × Bt))
  words : List (Nat × Word)
  inService : List (Nat × Nat)
  factory : BitVec 5
  store : List (Nat × Word)
  storeFactory : BitVec 5
  queue : List (Nat × Word)
  writes : Nat
  deriving DecidableEq, Repr


/-! ## The whole state -/

/-- The machine. -/
structure State where
  pending : List Instr
  inst : Inst
  ready : Bool
  booting : Bool
  workHeld : Bool
  port : Port
  regs : List (Nat × Word)
  parts : List (Nat × Part)
  audit : Audit
  tim : Time
  /-- records of kind 0x0E owed while the Hub is in RESETTING (R88) -/
  owed : List Pick
  strs : List (Nat × Strm)
  closes : Nat
  bobs : List (Nat × Bob)
  wports : List (Nat × WPort)
  rport : RPort
  adopts : List (Nat × Adopt)
  /-- exempt positions written in the governor window under way (R153, R171) -/
  exempt : Nat
  /-- records of the Hub's, the Reeds' and the link ports' streams refused for full retention, by stream (R16) -/
  refused : List (Nat × Nat)
  heds : List (Nat × HedTrace)
  counts : List (Nat × HedCount)
  hedGovs : List (Nat × HedGov)
  reedGovs : List (Nat × ReedGov)
  gov : Gov
  trd : Treadle
  stop : Stop
  hedStops : List (Nat × HedStop)
  key : KeyStore
  wits : List (Nat × WitReed)
  /-- check cards and their shadows by Reed times 64 plus entry (R197) -/
  cards : List (Nat × CheckCard)
  shadows : List (Nat × CheckCard)
  /-- Heddles that have had a POISON placed in the unserved interval under way (R346) -/
  lapsed : List Nat
  ver : Verdicts
  gates : List (Nat × HedGate)
  tests : Tests
  links : List (Nat × Link)
  linkTimes : List (Nat × LinkTime)
  servo : Servo
  eth : Eth
  fw : Fw
  cal : Cal
  /-- trimmed samples of each sensor channel, oldest first, with their stamps (R47) -/
  sens : List (Nat × List (Nat × BitVec 16))
  /-- the words of the channel map as they took force, at each channel's last sample (R337) -/
  snsOn : List (Nat × Word)
  /-- the model's own: free values used, and entropy draws made (notes/assumptions 7, 9) -/
  free : Nat
  salts : Nat
  deriving DecidableEq, Repr


/-- The machine at the instant READY has risen after a fundamental reset (R51, R68, Table PT-12), in the full configuration of Table
SC-1 with a reference of 100 MHz (notes/assumptions 1, 2): every part DISABLED with STATE_SEQ 1, every output inert. -/
def State.reset : State :=
  { pending := [],
    inst := { reeds := 256, hpr := 16, linksPerDir := 24, eth := true, targets := 16, sensors := 64, refKhz := 100000 },
    ready := true, booting := false, workHeld := false,
    port := { rsp := 0, rdata := 0, held := none, prst := 0, prstHeld := none },
    regs := [], parts := [], audit := { running := false, answered := [], skews := 0, last := none },
    tim := { raw := 0, offset := 0, phase := 0, line := [], step := none, stepCount := 0, stepped := [], rate := 0, ratePend := none, refOk := false,
             holdover := false, disc := false, calRunning := false, calRun := 0, calDue := false, dueRaw := 0, calLost := [] },
    owed := [], strs := [], closes := 0, bobs := [], wports := [], rport := { tags := [], waiting := [] }, adopts := [], exempt := 0, refused := [],
    heds := [], counts := [], hedGovs := [], reedGovs := [],
    gov := { k := 0, budget := 0, budgetNext := 0, cap := 384, capNext := 384, e1 := 0, e2 := 0, allow := 0, energy := 0, energies := [] },
    trd := { srcs := [], tgts := [], doze := false, wakeSrc := 0, wakeAt := 0 },
    stop := { phase := .idle, num := 0, source := 0, tc := 0, tcRaw := 0, tr := 0, ts := 0, out := false, pinIn := false, ctl := 0, scanBase := 0,
              scanLog := 16, snagBase := 0, snagLog := 19, hdrTs := 0, guard := 0, armedAt := 0, armed := [], fired := [], past := [], discAtTc := false, cutTodo := [],
              resumeTodo := [], snagNext := 0, snagBlocks := 0, snagOut := none, snagBeam := 0, snagTrunc := false, snagDone := false,
              snagEntries := 0 },
    hedStops := [],
    key := { slots := [], tdi := 0, seed := [], rb := { queue := [], early := none, data := none, answer := none } },
    wits := [], cards := [], shadows := [], lapsed := [],
    ver := { own := { cleared := 0xFFFF, taintFrom := 0, confirm := 0xFFFF, tainted := false, stale := false, absolved := none, bad := [],
                      lastClear := 0xFFFF, passes := 0 },
             led := [], blind := false, blindAt := 0, queue := [], hold := none, waiting := [], lastBatch := none, owed := 0, eager := 0 },
    gates := [],
    tests := { mid := 0, ents := [], states := [], fifo := [], reading := none, seen := [], back := [], frozen := some 0 },
    links := [], linkTimes := [],
    servo := { st := 0, ctl := 0, lock := 0, die := 0, acqDone := false, clamped := false, freq := 0, got := [], inLock := 0, outLock := 0,
               aside := 0, theta := 0, lastAt := none, parent := none, rootDisc := false, rootSteps := none, rootLost := false,
               wantStep := false, rootSeq := 0, rootIdx := 0, newest := none, freshRaw := 0, rootLog := none },
    eth := { seqTs := none, foreign := [], sel := none, ts := [], sync := none, lastSync := 0, syncLog := 0, ms := none, drSeq := 0,
             drRaw := none, cal := 0, t3 := none, drLog := 0, mpds := [], shown := 0, tx := [] },
    fw := { loaded := false, version := 0, ckpt := 0, entry := 0, newVersion := 0, newCkpt := 0, newEntry := 0, newBase := 0, newWant := 0,
            loader := none, phase := 0, hash := none, phaseRaw := 0, readyRaw := 0, startKind := 0, freshLoad := false, stopReq := false,
            halted := false, kickRaw := 0, kickUs := 0, image := [], checkpoint := [], buf := 0, bufStatus := 1, bufOut := none },
    cal := { lin := [], linOld := [], words := [], inService := [], factory := 31, store := [], storeFactory := 31, queue := [], writes := 0 },
    sens := [], snsOn := [], free := 0, salts := 0 }

end Sys2Proof.Machine
end

