-- ==== Sys2Proof/Machine/Ops.lean ====
section
/-! DEFINITION. The named operations over keyed lists, bit fields and register words, and the plain readers of State. -/

namespace Sys2Proof.Machine

/-! ### Keyed lists in canonical form: keys strictly rising, no entry equal to what an unlisted key reads as -/

/-- What a key reads as. -/
def mget {α : Type} (d : α) : List (Nat × α) → Nat → α
  | [], _ => d
  | (k, v) :: m, i => if k = i then v else mget d m i

/-- The entry of a key. -/
def mfind {α : Type} : List (Nat × α) → Nat → Option α
  | [], _ => none
  | (k, v) :: m, i => if k = i then some v else mfind m i

/-- The list without a key. -/
def mdel {α : Type} : List (Nat × α) → Nat → List (Nat × α)
  | [], _ => []
  | (k, v) :: m, i => if k = i then m else (k, v) :: mdel m i

/-- The list with an entry for a key. -/
def mins {α : Type} : List (Nat × α) → Nat → α → List (Nat × α)
  | [], i, v => [(i, v)]
  | (k, w) :: m, i, v =>
    if i < k then (i, v) :: (k, w) :: m else if k = i then (i, v) :: m else (k, w) :: mins m i v

/-- Write a key: writing what an unlisted key reads as removes the entry. -/
def mset {α : Type} [DecidableEq α] (d : α) (m : List (Nat × α)) (i : Nat) (v : α) : List (Nat × α) :=
  if v = d then mdel m i else mins m i v

/-- Change a key. -/
def mupd {α : Type} [DecidableEq α] (d : α) (m : List (Nat × α)) (i : Nat) (f : α → α) : List (Nat × α) :=
  mset d m i (f (mget d m i))

/-- The keys of a list are strictly rising. -/
def msorted {α : Type} : List (Nat × α) → Bool
  | [] => true
  | [_] => true
  | (a, _) :: (b, w) :: m => decide (a < b) && msorted ((b, w) :: m)

/-! ### Bit fields -/

/-- Bits [hi:lo] of a number. -/
def fieldN (w hi lo : Nat) : Nat := w / 2 ^ lo % 2 ^ (hi + 1 - lo)

/-- Bits [hi:lo] of a word. -/
def fld (w : Word) (hi lo : Nat) : Nat := fieldN w.toNat hi lo

/-- A bit of a word. -/
def bit (w : Word) (i : Nat) : Bool := w.getLsbD i

/-- The number of a Bool. -/
def bn (b : Bool) : Nat := if b then 1 else 0

/-- A number made of fields (low bit, width, value). -/
def pack : List (Nat × Nat × Nat) → Nat
  | [] => 0
  | (lo, n, v) :: r => v % 2 ^ n * 2 ^ lo + pack r

/-- A word made of fields. -/
def packW (l : List (Nat × Nat × Nat)) : Word := BitVec.ofNat 64 (pack l)

/-- A word with bits [hi:lo] replaced. -/
def setFld (w : Word) (hi lo v : Nat) : Word :=
  BitVec.ofNat 64 (w.toNat - fld w hi lo * 2 ^ lo + v % 2 ^ (hi + 1 - lo) * 2 ^ lo)

/-- A saturating increase of a field by n. -/
def satFld (w : Word) (hi lo n : Nat) : Word := setFld w hi lo (min (fld w hi lo + n) (2 ^ (hi + 1 - lo) - 1))

/-- A wrapping increase of a field by n. -/
def addFld (w : Word) (hi lo n : Nat) : Word := setFld w hi lo (fld w hi lo + n)

/-- The two's-complement number of a field of n bits. -/
def signedN (n v : Nat) : Int := if v % 2 ^ n < 2 ^ (n - 1) then (v % 2 ^ n : Nat) else (v % 2 ^ n : Nat) - (2 ^ n : Nat)

/-- The field of n bits of an integer. -/
def fieldOfInt (n : Nat) (i : Int) : Nat := (i % (2 ^ n : Nat)).toNat

/-- Sequence and index comparison modulo 2^32 (R135, R175): a precedes b. -/
def before32 (a b : BitVec 32) : Bool := let d := (b - a).toNat; 0 < d && d < 2 ^ 31

/-- Add or remove an element of a list without repeats. -/
def addOnce (l : List Nat) (n : Nat) : List Nat := if l.contains n then l else l ++ [n]

/-! ### Beam -/

/-- Whether the strap is in range (R48). -/
def strapOk (s : State) : Bool := 50000 ≤ s.inst.refKhz && s.inst.refKhz ≤ 800000

/-- Beam now (R78). -/
def beam (s : State) : Nat := (s.tim.raw + s.tim.offset) % two64

/-- The word of the channel map in force for a sensor channel (R337). -/
def snsMap (s : State) (ch : Nat) : Word := mget 0 s.snsOn ch

/-- Take a free value's number. -/
def takeFree (s : State) : Nat × State := (s.free, { s with free := s.free + 1 })

/-- Take a salt's number. -/
def takeSalt (s : State) : Nat × State := (s.salts, { s with salts := s.salts + 1 })

end Sys2Proof.Machine
end

