-- ==== Sys2Proof/Machine/RegTable.lean ====
section
/-! DEFINITION. The registers of every page, row by row from the manual's tables (RM-13, BT-8, NT-12, CT-11, CT-12, CS-1, CS-9, CS-10, DL-8,
DL-9, WA-1, WA-7, VT-10, VT-11, SS-10, SS-11, TI-6 to TI-9, LT-9, TK-9, FS-10, FS-11, BU-2). -/

namespace Sys2Proof.Machine

/-- A row: the registers at `off + stride * i` for `i < count`; the bits a write sets, the bits a read clears, whether it is held
(R64 rule 4), its reset value, the ranges (high bit, low bit, least, greatest) that rule 5 checks, and 1 for the set address or 2 for
the clear address of a group (R61). -/
structure RegRow where
  off : Nat
  stride : Nat
  count : Nat
  rw : Word
  rc : Word
  held : Bool
  reset : Word
  checks : List (Nat × Nat × Nat × Nat)
  grp : Nat
  deriving DecidableEq, Repr

/-- The kinds of page (Table RM-1). -/
inductive PageKind where
  | hub | beam | sync | stop | key | fw | cal
  | trd (k : Nat)
  | lnk (n : Nat)
  | wit (n : Nat)
  | reed (n : Nat)
  | hed (n : Nat)
  deriving DecidableEq, Repr

/-- The registers of the HUB page. -/
def rowsHub : List RegRow :=
  [
    ⟨0x40, 8, 1, 0x0, 0x0, false, 0x0, [], 0⟩,  -- HUB_AUDIT
    ⟨0x48, 8, 1, 0x0, 0xFFFFFFFF, false, 0x0, [], 0⟩,  -- HUB_SKEW_COUNT
    ⟨0x50, 8, 1, 0x0, 0xFFFFFFFF, false, 0x0, [], 0⟩,  -- HUB_REFUSE_COUNT
    ⟨0x58, 8, 1, 0x0, 0xFFFFFFFF, false, 0x0, [], 0⟩,  -- HUB_UNMAPPED_COUNT
    ⟨0x60, 8, 1, 0x0, 0x0, false, 0x0, [], 0⟩,  -- HUB_LAST_REJECT
    ⟨0x68, 8, 1, 0xFFFFF, 0x0, false, 0x3E8, [(19, 0, 1, 1000000)], 0⟩,  -- HUB_QUIESCE_LIMIT
    ⟨0x70, 8, 1, 0x0, 0xFFFFFFFF, false, 0x0, [], 0⟩,  -- HUB_REPORT_DROPS
    ⟨0x78, 8, 1, 0x0, 0xFFFFFFFF, false, 0x0, [], 0⟩,  -- HUB_PORT_ERR
    ⟨0x100, 8, 1, 0xFFFF, 0x0, false, 0x0, [(15, 0, 16, 65535)], 0⟩,  -- HUB_WBUDGET
    ⟨0x108, 8, 1, 0x1FF, 0x0, false, 0x180, [(8, 0, 8, 384)], 0⟩,  -- HUB_PWRCAP
    ⟨0x110, 8, 1, 0xFF1F1F, 0x0, true, 0x10080C, [(23, 16, 1, 255), (12, 8, 0, 21), (4, 0, 12, 20)], 0⟩,  -- HUB_GOV_CTL
    ⟨0x118, 8, 1, 0x7F, 0x0, false, 0x0, [], 0⟩,  -- HUB_PWR_VCH
    ⟨0x120, 8, 1, 0x0, 0x0, false, 0x0, [], 0⟩,  -- HUB_GOV_STATUS
    ⟨0x128, 8, 1, 0x0, 0x0, false, 0x0, [], 0⟩,  -- HUB_PWR_STATUS
    ⟨0x130, 8, 1, 0x0, 0xFFFFFFFFFFFFFFFF, false, 0x0, [], 0⟩,  -- HUB_GOV_REFUSED
    ⟨0x138, 8, 1, 0x0, 0xFFFFFFFF, false, 0x0, [], 0⟩,  -- HUB_GOV_ZERO
    ⟨0x140, 8, 1, 0x777, 0x0, true, 0x0, [], 0⟩,  -- HUB_SVC_ROUTE
    ⟨0x148, 8, 1, 0x1F0F00, 0x0, false, 0x100300, [(20, 16, 8, 24)], 0⟩,  -- HUB_SVC_DELIV
    ⟨0x150, 8, 1, 0x0, 0xFFFFFFFFFFFFFFFF, false, 0x0, [], 0⟩,  -- HUB_SVC_COMPL
    ⟨0x200, 8, 1, 0x3F, 0x0, true, 0x16, [(5, 0, 13, 40)], 0⟩  -- HUB_SHED
  ] ++
  [
    ⟨0x240, 8, 1, 0x1F, 0x0, true, 0xE, [(4, 0, 12, 20)], 0⟩,  -- HUB_EPOCH_CTL
    ⟨0x248, 8, 1, 0x0, 0x0, false, 0x0, [], 0⟩,  -- HUB_OWN_EPOCH
    ⟨0x250, 8, 1, 0x0, 0x0, false, 0x0, [], 0⟩,  -- HUB_OWN_STATUS
    ⟨0x258, 8, 1, 0x0, 0x0, false, 0x0, [], 0⟩,  -- HUB_NOTICE_IN
    ⟨0x260, 8, 1, 0x3FFF, 0x0, false, 0x0, [], 0⟩,  -- HUB_LEDGER_QUERY
    ⟨0x268, 8, 1, 0x0, 0x0, false, 0x0, [], 0⟩,  -- HUB_LEDGER_ENTRY
    ⟨0x270, 8, 1, 0x0, 0x0, false, 0x0, [], 0⟩,  -- HUB_LEDGER_STATUS
    ⟨0x278, 8, 1, 0x0, 0x0, false, 0x0, [], 0⟩,  -- HUB_LEDGER_BLIND
    ⟨0x280, 8, 1, 0x0, 0xFFFFFFFFFFFFFFFF, false, 0x0, [], 0⟩,  -- HUB_VERDICT_COUNTS
    ⟨0x288, 8, 1, 0x0, 0xFFFF00000000, false, 0x0, [], 0⟩,  -- HUB_NOTICE_Q
    ⟨0x290, 8, 1, 0x1FFFFFFFFFFFE00, 0x0, false, 0x0, [], 0⟩,  -- HUB_TEST_BASE
    ⟨0x298, 8, 1, 0x0, 0xC000003F00000FFF, false, 0x0, [], 0⟩,  -- HUB_TEST_NEXT
    ⟨0x2A0, 8, 1, 0x0, 0x0, false, 0x0, [], 0⟩,  -- HUB_TEST_STATUS
    ⟨0x300, 8, 64, 0xE0FFFFFF00000000, 0x0, false, 0x0, [], 0⟩,  -- HUB_SNS
    ⟨0x500, 8, 1, 0x0, 0xFFFFFFFF, false, 0x0, [], 0⟩,  -- HUB_SNS_DROPS
    ⟨0xC00, 8, 1, 0x3FF073F8110, 0x0, false, 0x3000000, [], 0⟩,  -- BOB_CFG
    ⟨0xC08, 8, 1, 0x1FFFFFFFFFFFE00, 0x0, false, 0x0, [], 0⟩,  -- BOB_BASE
    ⟨0xC10, 8, 1, 0xFF3F, 0x0, false, 0x3010, [], 0⟩,  -- BOB_SIZE
    ⟨0xC18, 8, 1, 0x0, 0x0, false, 0x0, [], 0⟩,  -- BOB_HEAD
    ⟨0xC20, 8, 1, 0x0, 0x0, false, 0x0, [], 0⟩  -- BOB_TAIL
  ] ++
  [
    ⟨0xC28, 8, 1, 0x0, 0x0, false, 0x0, [], 0⟩,  -- BOB_STATUS
    ⟨0xC30, 8, 1, 0x0, 0xFFFFFFFFFFFFFFFF, false, 0x0, [], 0⟩,  -- BOB_COUNTS
    ⟨0xC40, 8, 1, 0x3FF073F8110, 0x0, false, 0x3000000, [], 0⟩,  -- BOB_CFG
    ⟨0xC48, 8, 1, 0x1FFFFFFFFFFFE00, 0x0, false, 0x0, [], 0⟩,  -- BOB_BASE
    ⟨0xC50, 8, 1, 0xFF3F, 0x0, false, 0x3010, [], 0⟩,  -- BOB_SIZE
    ⟨0xC58, 8, 1, 0x0, 0x0, false, 0x0, [], 0⟩,  -- BOB_HEAD
    ⟨0xC60, 8, 1, 0x0, 0x0, false, 0x0, [], 0⟩,  -- BOB_TAIL
    ⟨0xC68, 8, 1, 0x0, 0x0, false, 0x0, [], 0⟩,  -- BOB_STATUS
    ⟨0xC70, 8, 1, 0x0, 0xFFFFFFFFFFFFFFFF, false, 0x0, [], 0⟩,  -- BOB_COUNTS
    ⟨0xC80, 8, 1, 0x3FF073F8110, 0x0, false, 0x3000000, [], 0⟩,  -- BOB_CFG
    ⟨0xC88, 8, 1, 0x1FFFFFFFFFFFE00, 0x0, false, 0x0, [], 0⟩,  -- BOB_BASE
    ⟨0xC90, 8, 1, 0xFF3F, 0x0, false, 0x3010, [], 0⟩,  -- BOB_SIZE
    ⟨0xC98, 8, 1, 0x0, 0x0, false, 0x0, [], 0⟩,  -- BOB_HEAD
    ⟨0xCA0, 8, 1, 0x0, 0x0, false, 0x0, [], 0⟩,  -- BOB_TAIL
    ⟨0xCA8, 8, 1, 0x0, 0x0, false, 0x0, [], 0⟩,  -- BOB_STATUS
    ⟨0xCB0, 8, 1, 0x0, 0xFFFFFFFFFFFFFFFF, false, 0x0, [], 0⟩,  -- BOB_COUNTS
    ⟨0xCC0, 8, 1, 0x3FF073F8110, 0x0, false, 0x3000000, [], 0⟩,  -- BOB_CFG
    ⟨0xCC8, 8, 1, 0x1FFFFFFFFFFFE00, 0x0, false, 0x0, [], 0⟩,  -- BOB_BASE
    ⟨0xCD0, 8, 1, 0xFF3F, 0x0, false, 0x3010, [], 0⟩,  -- BOB_SIZE
    ⟨0xCD8, 8, 1, 0x0, 0x0, false, 0x0, [], 0⟩  -- BOB_HEAD
  ] ++
  [
    ⟨0xCE0, 8, 1, 0x0, 0x0, false, 0x0, [], 0⟩,  -- BOB_TAIL
    ⟨0xCE8, 8, 1, 0x0, 0x0, false, 0x0, [], 0⟩,  -- BOB_STATUS
    ⟨0xCF0, 8, 1, 0x0, 0xFFFFFFFFFFFFFFFF, false, 0x0, [], 0⟩,  -- BOB_COUNTS
    ⟨0xD00, 8, 1, 0x3FF073F8110, 0x0, false, 0x3000000, [], 0⟩,  -- BOB_CFG
    ⟨0xD08, 8, 1, 0x1FFFFFFFFFFFE00, 0x0, false, 0x0, [], 0⟩,  -- BOB_BASE
    ⟨0xD10, 8, 1, 0xFF3F, 0x0, false, 0x3010, [], 0⟩,  -- BOB_SIZE
    ⟨0xD18, 8, 1, 0x0, 0x0, false, 0x0, [], 0⟩,  -- BOB_HEAD
    ⟨0xD20, 8, 1, 0x0, 0x0, false, 0x0, [], 0⟩,  -- BOB_TAIL
    ⟨0xD28, 8, 1, 0x0, 0x0, false, 0x0, [], 0⟩,  -- BOB_STATUS
    ⟨0xD30, 8, 1, 0x0, 0xFFFFFFFFFFFFFFFF, false, 0x0, [], 0⟩,  -- BOB_COUNTS
    ⟨0xD40, 8, 1, 0x3FF073F8110, 0x0, false, 0x3000000, [], 0⟩,  -- BOB_CFG
    ⟨0xD48, 8, 1, 0x1FFFFFFFFFFFE00, 0x0, false, 0x0, [], 0⟩,  -- BOB_BASE
    ⟨0xD50, 8, 1, 0xFF3F, 0x0, false, 0x3010, [], 0⟩,  -- BOB_SIZE
    ⟨0xD58, 8, 1, 0x0, 0x0, false, 0x0, [], 0⟩,  -- BOB_HEAD
    ⟨0xD60, 8, 1, 0x0, 0x0, false, 0x0, [], 0⟩,  -- BOB_TAIL
    ⟨0xD68, 8, 1, 0x0, 0x0, false, 0x0, [], 0⟩,  -- BOB_STATUS
    ⟨0xD70, 8, 1, 0x0, 0xFFFFFFFFFFFFFFFF, false, 0x0, [], 0⟩,  -- BOB_COUNTS
    ⟨0xD80, 8, 1, 0x3FF073F8110, 0x0, false, 0x3000000, [], 0⟩,  -- BOB_CFG
    ⟨0xD88, 8, 1, 0x1FFFFFFFFFFFE00, 0x0, false, 0x0, [], 0⟩,  -- BOB_BASE
    ⟨0xD90, 8, 1, 0xFF3F, 0x0, false, 0x3010, [], 0⟩  -- BOB_SIZE
  ] ++
  [
    ⟨0xD98, 8, 1, 0x0, 0x0, false, 0x0, [], 0⟩,  -- BOB_HEAD
    ⟨0xDA0, 8, 1, 0x0, 0x0, false, 0x0, [], 0⟩,  -- BOB_TAIL
    ⟨0xDA8, 8, 1, 0x0, 0x0, false, 0x0, [], 0⟩,  -- BOB_STATUS
    ⟨0xDB0, 8, 1, 0x0, 0xFFFFFFFFFFFFFFFF, false, 0x0, [], 0⟩,  -- BOB_COUNTS
    ⟨0xDC0, 8, 1, 0x3FF073F8110, 0x0, false, 0x3000000, [], 0⟩,  -- BOB_CFG
    ⟨0xDC8, 8, 1, 0x1FFFFFFFFFFFE00, 0x0, false, 0x0, [], 0⟩,  -- BOB_BASE
    ⟨0xDD0, 8, 1, 0xFF3F, 0x0, false, 0x3010, [], 0⟩,  -- BOB_SIZE
    ⟨0xDD8, 8, 1, 0x0, 0x0, false, 0x0, [], 0⟩,  -- BOB_HEAD
    ⟨0xDE0, 8, 1, 0x0, 0x0, false, 0x0, [], 0⟩,  -- BOB_TAIL
    ⟨0xDE8, 8, 1, 0x0, 0x0, false, 0x0, [], 0⟩,  -- BOB_STATUS
    ⟨0xDF0, 8, 1, 0x0, 0xFFFFFFFFFFFFFFFF, false, 0x0, [], 0⟩  -- BOB_COUNTS
  ]

/-- The registers of the BEAM page. -/
def rowsBeam : List RegRow :=
  [
    ⟨0x40, 8, 1, 0x0, 0x0, false, 0x0, [], 0⟩,  -- BEAM_NOW
    ⟨0x48, 8, 1, 0x0, 0x0, false, 0x0, [], 0⟩,  -- BEAM_RAW
    ⟨0x50, 8, 1, 0x0, 0x0, false, 0x0, [], 0⟩,  -- BEAM_OFFSET
    ⟨0x58, 8, 1, 0x0, 0x0, false, 0x0, [], 0⟩,  -- BEAM_STATUS
    ⟨0x60, 8, 1, 0x0, 0x0, false, 0x0, [], 0⟩,  -- BEAM_INC
    ⟨0x68, 8, 1, 0x0, 0x0, false, 0x0, [], 0⟩,  -- BEAM_RATE
    ⟨0x70, 8, 1, 0xFFFFFFFF, 0x0, false, 0x0, [], 0⟩,  -- BEAM_RATE_REQ
    ⟨0x78, 8, 1, 0xFFFFFFFFFFFFFFFF, 0x0, false, 0x0, [], 0⟩,  -- BEAM_STEP_DELTA
    ⟨0x80, 8, 1, 0xFFFFFFFFFFFFFFFF, 0x0, false, 0x0, [], 0⟩,  -- BEAM_SET_VALUE
    ⟨0x88, 8, 1, 0x0, 0x0, false, 0x0, [], 0⟩,  -- BEAM_STEP_AT
    ⟨0x90, 8, 1, 0xFFFFFF01, 0x0, false, 0x191400, [(31, 16, 5, 100), (15, 8, 1, 60)], 0⟩,  -- BEAM_CAL_CTL
    ⟨0x98, 8, 1, 0x0, 0x0, false, 0x0, [], 0⟩,  -- BEAM_CAL_LAST
    ⟨0xA0, 8, 1, 0x0, 0x0, false, 0x0, [], 0⟩,  -- BEAM_CAL_POINTS
    ⟨0xA8, 8, 1, 0x0, 0xFFFFFFFF00000000, false, 0x0, [], 0⟩,  -- BEAM_REFRESH_ERR
    ⟨0xB0, 8, 1, 0x0, 0xFFFFFFFF00000000, false, 0x0, [], 0⟩  -- BEAM_REFLOSS
  ]

/-- The registers of the SYNC page. -/
def rowsSync : List RegRow :=
  [
    ⟨0x40, 8, 1, 0x3FFFFF1F, 0x0, false, 0x34140400, [(29, 28, 1, 3), (27, 24, 1, 12), (23, 20, 0, 8), (19, 16, 0, 8), (15, 8, 1, 255)], 0⟩,  -- SYNC_CTL
    ⟨0x48, 8, 1, 0xFFFF00FF, 0x0, false, 0x500008, [(31, 16, 16, 65535), (7, 0, 1, 255)], 0⟩,  -- SYNC_LOCK
    ⟨0x50, 8, 1, 0xBFFF3FFF, 0x0, false, 0x0, [], 0⟩,  -- SYNC_DIE
    ⟨0x58, 8, 1, 0x1FF, 0x0, true, 0x0, [], 0⟩,  -- SYNC_PTP
    ⟨0x60, 8, 1, 0xFFFFFFFFFFFF, 0x0, true, 0x0, [], 0⟩,  -- SYNC_PTP_MAC
    ⟨0x68, 8, 1, 0xFFFFFFFF, 0x0, true, 0x0, [], 0⟩,  -- SYNC_PTP_IP
    ⟨0x70, 8, 1, 0xFFFFFFFFFFFFFFFF, 0x0, true, 0x0, [], 0⟩,  -- SYNC_PTP_CLKID
    ⟨0x78, 8, 1, 0xFFFFFFFFFFFFFFFF, 0x0, true, 0x0, [], 0⟩,  -- SYNC_PTP_BASE
    ⟨0x80, 8, 1, 0x0, 0x0, false, 0x0, [], 0⟩,  -- SYNC_STATUS
    ⟨0x88, 8, 1, 0x0, 0x0, false, 0x0, [], 0⟩,  -- SYNC_OFFSET
    ⟨0x90, 8, 1, 0x0, 0x0, false, 0x0, [], 0⟩,  -- SYNC_FREQ
    ⟨0x98, 8, 1, 0x0, 0x0, false, 0x0, [], 0⟩,  -- SYNC_ETH_MPD
    ⟨0xA0, 8, 1, 0x0, 0x0, false, 0x0, [], 0⟩,  -- SYNC_ETH_MASTER
    ⟨0xA8, 8, 1, 0x0, 0xFFFFFFFFFFFFFFFF, false, 0x0, [], 0⟩,  -- SYNC_COUNTS
    ⟨0x400, 8, 96, 0x0, 0x0, false, 0x0, [], 0⟩  -- SYNC_PORT
  ]

/-- The registers of the STOP page. -/
def rowsStop : List RegRow :=
  [
    ⟨0x40, 8, 1, 0xFFFFFFFFF0F0001F, 0x0, false, 0x100003E80A00000, [(63, 48, 64, 65535), (47, 28, 1, 1000000), (23, 20, 6, 15)], 0⟩,  -- STOP_CTL
    ⟨0x48, 8, 1, 0xFFFFFFFFFFFFFFFF, 0x0, false, 0x0, [], 0⟩,  -- STOP_TT_AT
    ⟨0x50, 8, 1, 0x0, 0x0, false, 0x0, [], 0⟩,  -- STOP_STATUS
    ⟨0x58, 8, 1, 0x0, 0x0, false, 0x0, [], 0⟩,  -- STOP_TC
    ⟨0x60, 8, 1, 0x0, 0x0, false, 0x0, [], 0⟩,  -- STOP_TR
    ⟨0x68, 8, 1, 0x0, 0x0, false, 0x0, [], 0⟩,  -- STOP_HOLD
    ⟨0x70, 8, 1, 0x1FFFFFFFFFFF000, 0x0, false, 0x0, [], 0⟩,  -- STOP_SCAN_BASE
    ⟨0x78, 8, 1, 0x3F, 0x0, false, 0x10, [(5, 0, 12, 24)], 0⟩,  -- STOP_SCAN_SIZE
    ⟨0x80, 8, 1, 0x1FFFFFFFFFFFE00, 0x0, false, 0x0, [], 0⟩,  -- STOP_SNAG_BASE
    ⟨0x88, 8, 1, 0x3F, 0x0, false, 0x13, [(5, 0, 12, 26)], 0⟩,  -- STOP_SNAG_SIZE
    ⟨0x90, 8, 1, 0x8000000000001F8F, 0x0, false, 0x0, [], 0⟩,  -- STOP_HDR_TS
    ⟨0x98, 8, 1, 0x0, 0xFFFFFFFFFFFFFFFF, false, 0x0, [], 0⟩,  -- STOP_COUNTS
    ⟨0xA0, 8, 1, 0x0, 0x0, false, 0x0, [], 0⟩  -- STOP_SNAG_STATUS
  ]

/-- The registers of the KEY page. -/
def rowsKey : List RegRow :=
  [
    ⟨0x40, 8, 1, 0x0, 0x0, false, 0x0, [], 0⟩,  -- KEY_STATUS
    ⟨0x48, 8, 1, 0xFFFFFFFF0000003F, 0x0, false, 0x0, [], 0⟩,  -- KEY_ARG
    ⟨0x50, 8, 4, 0x0, 0x0, false, 0x0, [], 0⟩,  -- KEY_SEED
    ⟨0x70, 8, 1, 0x3F, 0x0, false, 0x0, [], 0⟩,  -- KEY_SLOT_QUERY
    ⟨0x78, 8, 1, 0x0, 0x0, false, 0x0, [], 0⟩,  -- KEY_SLOT_VIEW
    ⟨0x80, 8, 1, 0x0, 0x0, false, 0x0, [], 0⟩,  -- KEY_SLOT_FENCE
    ⟨0x88, 8, 1, 0x0, 0x0, false, 0x0, [], 0⟩,  -- KEY_SLOT_COUNTS
    ⟨0x90, 8, 1, 0x0, 0x0, false, 0x0, [], 0⟩,  -- KEY_SLOT_OLD
    ⟨0x100, 8, 32, 0xC07F00000000FFFF, 0x0, false, 0x0, [], 0⟩  -- KEY_RB
  ]

/-- The registers of the FW page. -/
def rowsFw : List RegRow :=
  [
    ⟨0x40, 8, 1, 0x1FFFFFFFFFFFE00, 0x0, true, 0x0, [], 0⟩,  -- FW_IMAGE_BASE
    ⟨0x48, 8, 1, 0x0, 0x0, false, 0x0, [], 0⟩,  -- FW_IMAGE_INFO
    ⟨0x50, 8, 1, 0x1FFFFFFFFFFFE00, 0x0, false, 0x0, [], 0⟩,  -- FW_NEXT_BASE
    ⟨0x58, 8, 1, 0x0, 0x0, false, 0x0, [], 0⟩,  -- FW_LOAD_STATUS
    ⟨0x60, 8, 1, 0xFFFFFFFFF0000, 0x0, false, 0x271003E80000, [(51, 32, 100, 1000000), (31, 16, 1, 65535)], 0⟩,  -- FW_CTL
    ⟨0x68, 8, 1, 0x0, 0xFFFF000000000000, false, 0x0, [], 0⟩,  -- FW_WDOG
    ⟨0x70, 8, 1, 0x0, 0xFFFF, false, 0x0, [], 0⟩,  -- FW_NQ
    ⟨0x78, 8, 1, 0x3F07FF, 0x0, false, 0x1, [(10, 0, 1, 1024)], 0⟩,  -- FW_ARG
    ⟨0x80, 8, 8, 0x0, 0x0, false, 0x0, [], 0⟩,  -- FW_NQ_VIEW
    ⟨0xC0, 8, 6, 0x0, 0x0, false, 0x0, [], 0⟩  -- FW_KEYDIG
  ]

/-- The registers of the CAL page. -/
def rowsCal : List RegRow :=
  [
    ⟨0x40, 8, 1, 0x0, 0x0, false, 0x0, [], 0⟩,  -- CAL_STATUS
    ⟨0x48, 8, 1, 0x7000FFFFF, 0x0, false, 0x0, [(34, 32, 0, 4)], 0⟩,  -- CAL_SEL
    ⟨0x50, 8, 1, 0x0, 0x0, false, 0x0, [], 0⟩  -- CAL_DATA
  ]

/-- The registers of TRD 0. -/
def rowsTrd0 : List RegRow :=
  [
    ⟨0x40, 8, 1, 0x1F0, 0x0, true, 0x0, [], 0⟩,  -- TRD_CTL
    ⟨0x48, 8, 1, 0x0, 0xFFFFFFFFFFFFFFFF, false, 0x0, [], 0⟩,  -- TRD_STATS
    ⟨0x50, 8, 1, 0x0, 0x0, false, 0x0, [], 0⟩,  -- TRD_DOORBELL
    ⟨0x58, 8, 1, 0x0, 0x0, false, 0x0, [], 0⟩,  -- TRD_DOZE
    ⟨0x60, 8, 1, 0x0, 0x0, false, 0x0, [], 0⟩,  -- TRD_WAKE_AT
    ⟨0x80, 8, 4, 0xFFFFFFFFFFFFFFFF, 0x0, true, 0xFFFFFFFFFFFFFFFF, [], 0⟩,  -- TRD_TIER
    ⟨0x100, 64, 16, 0x0, 0x0, false, 0x0, [], 0⟩,  -- TRD_CLAIM
    ⟨0x108, 64, 16, 0x0, 0x0, false, 0x0, [], 0⟩,  -- TRD_COMPLETE
    ⟨0x110, 64, 16, 0x0, 0x0, false, 0x0, [], 0⟩,  -- TRD_CLAIM_STAMP
    ⟨0x118, 64, 16, 0x0, 0x0, false, 0x0, [], 0⟩,  -- TRD_CLAIM_INFO
    ⟨0x128, 64, 16, 0x0, 0x0, false, 0x0, [], 0⟩,  -- TRD_STACK0
    ⟨0x130, 64, 16, 0x0, 0x0, false, 0x0, [], 0⟩,  -- TRD_STACK1
    ⟨0x138, 64, 16, 0x0, 0xFFFFFFFFFFFF, false, 0x0, [], 0⟩,  -- TRD_TGT_COUNTS
    ⟨0x120, 64, 16, 0x1, 0x0, false, 0x0, [], 0⟩  -- TRD_TGT
  ]

/-- The registers of TRD 1. -/
def rowsTrd1 : List RegRow :=
  [
    ⟨0x40, 24, 32, 0x0, 0x0, false, 0x0, [], 0⟩,  -- TRD_ENABLE
    ⟨0x48, 24, 32, 0xFFFFFFFFFFFFFFFF, 0x0, false, 0x0, [], 1⟩,  -- TRD_ENABLE_SET
    ⟨0x50, 24, 32, 0xFFFFFFFFFFFFFFFF, 0x0, false, 0x0, [], 2⟩,  -- TRD_ENABLE_CLR
    ⟨0x400, 24, 32, 0x0, 0x0, false, 0x0, [], 0⟩,  -- TRD_PENDING
    ⟨0x408, 24, 32, 0x0, 0x0, false, 0x0, [], 0⟩,  -- TRD_PENDING_SET
    ⟨0x410, 24, 32, 0x0, 0x0, false, 0x0, [], 0⟩,  -- TRD_PENDING_CLR
    ⟨0x800, 8, 32, 0x0, 0x0, false, 0x0, [], 0⟩,  -- TRD_ACTIVE
    ⟨0x900, 8, 32, 0x0, 0x0, false, 0x0, [], 0⟩  -- TRD_LEVEL
  ]

/-- The registers of TRD 2 to TRD 6; their words are written by Machine/Regs. -/
def rowsTrdSrc : List RegRow :=
  [
    ⟨0x40, 8, 504, 0x0, 0x0, false, 0x0, [], 0⟩  -- TRD_SRC
  ]

/-- The registers of TRD 7. -/
def rowsTrd7 : List RegRow :=
  [
    ⟨0x40, 8, 32, 0x0, 0x0, false, 0x0, [], 0⟩  -- TRD_LATCHED
  ]

/-- The registers of a LNK page. -/
def rowsLnk : List RegRow :=
  [
    ⟨0x40, 8, 1, 0xE0FF3FFF00000000, 0x0, true, 0x0, [(55, 48, 0, 95)], 0⟩,  -- LNK_PLAN
    ⟨0x48, 8, 1, 0xFFFFFFFF0001, 0x0, false, 0x3E800640000, [(47, 32, 1, 65535), (31, 16, 1, 65535)], 0⟩,  -- LNK_CTL
    ⟨0x50, 8, 1, 0x0, 0x0, false, 0x0, [], 0⟩,  -- LNK_STATUS
    ⟨0x58, 8, 1, 0x0, 0x0, false, 0x0, [], 0⟩,  -- LNK_LAST_CHANGE
    ⟨0x60, 8, 1, 0x0, 0x0, false, 0x0, [], 0⟩,  -- LNK_RING_STATUS
    ⟨0x68, 8, 1, 0xFF, 0x0, false, 0x0, [], 0⟩,  -- LNK_RING_IDX
    ⟨0x70, 8, 8, 0x0, 0x0, false, 0x0, [], 0⟩,  -- LNK_RING_ENT
    ⟨0xB0, 8, 1, 0x0, 0xFFFFFFFFFFFFFFFF, false, 0x0, [], 0⟩,  -- LNK_COUNTS
    ⟨0xB8, 8, 1, 0x0, 0x0, false, 0x0, [], 0⟩  -- LNK_LIST
  ]

/-- The registers of a WIT page. -/
def rowsWit : List RegRow :=
  [
    ⟨0x40, 8, 1, 0x0, 0x0, false, 0x0, [], 0⟩,  -- WIT_WORK
    ⟨0x48, 8, 1, 0x0, 0xFFFF0000, false, 0x0, [], 0⟩  -- WIT_SHARES
  ]

/-- The registers of a REED page. -/
def rowsReed : List RegRow :=
  [
    ⟨0x40, 8, 1, 0x0, 0x0, false, 0x0, [], 0⟩,  -- REED_WIT_STATUS
    ⟨0x48, 8, 1, 0x0, 0xFFFFFFFF, false, 0x0, [], 0⟩,  -- REED_WIT_COUNTS
    ⟨0x50, 8, 1, 0x0, 0xFFFFFFFFFFFFFFFF, false, 0x0, [], 0⟩,  -- REED_WIT_LOSS
    ⟨0x58, 8, 1, 0x0, 0x0, false, 0x0, [], 0⟩,  -- REED_CHECK_ID
    ⟨0x60, 8, 1, 0x1F, 0x0, false, 0x16, [(4, 0, 12, 30)], 0⟩,  -- REED_WIT_CTL
    ⟨0x100, 8, 1, 0xFFFF, 0x0, false, 0x20, [(15, 0, 0, 256)], 0⟩,  -- REED_GOV
    ⟨0x108, 8, 1, 0x0, 0x0, false, 0x0, [], 0⟩,  -- REED_GOV_STATUS
    ⟨0x110, 8, 1, 0x0, 0xFFFFFFFFFFFFFFFF, false, 0x0, [], 0⟩,  -- REED_REFUSED
    ⟨0x118, 8, 1, 0x0, 0xFFFFFFFFFFFFFFFF, false, 0x0, [], 0⟩,  -- REED_MIRROR
    ⟨0x120, 8, 1, 0x3F, 0x0, false, 0x0, [], 0⟩,  -- REED_CARD_IDX
    ⟨0x140, 8, 1, 0x1F0F00, 0x0, false, 0x100300, [(20, 16, 8, 24)], 0⟩,  -- REED_DELIV
    ⟨0x148, 8, 1, 0x0, 0x0, false, 0x0, [], 0⟩,  -- REED_SERVE
    ⟨0x150, 8, 1, 0x0, 0xFFFFFFFFFFFFFFFF, false, 0x0, [], 0⟩,  -- REED_REPLAY
    ⟨0x158, 8, 1, 0x0, 0xFFFFFFFFFFFFFFFF, false, 0x0, [], 0⟩,  -- REED_BLOCK_ERR
    ⟨0x160, 8, 1, 0x0, 0x0, false, 0x0, [], 0⟩,  -- REED_REHOME
    ⟨0x168, 8, 1, 0x0, 0xFFFFFFFFFFFFFFFF, false, 0x0, [], 0⟩,  -- REED_COMPL
    ⟨0x180, 8, 16, 0xFFFFFFFFFFFFFFFF, 0x0, true, 0x0, [(3, 0, 0, 7), (7, 4, 0, 7), (11, 8, 0, 7), (15, 12, 0, 7), (19, 16, 0, 7), (23, 20, 0, 7), (27, 24, 0, 7), (31, 28, 0, 7), (35, 32, 0, 7), (39, 36, 0, 7), (43, 40, 0, 7), (47, 44, 0, 7), (51, 48, 0, 7), (55, 52, 0, 7), (59, 56, 0, 7), (63, 60, 0, 7)], 0⟩,  -- REED_ROUTE
    ⟨0x200, 8, 1, 0x7, 0x0, true, 0x0, [], 0⟩,  -- REED_ROUTE_SELF
    ⟨0x800, 8, 1, 0x3FF073F8110, 0x0, false, 0x3000000, [], 0⟩,  -- BOB_CFG
    ⟨0x808, 8, 1, 0x1FFFFFFFFFFFE00, 0x0, false, 0x0, [], 0⟩  -- BOB_BASE
  ] ++
  [
    ⟨0x810, 8, 1, 0xFF3F, 0x0, false, 0x3010, [], 0⟩,  -- BOB_SIZE
    ⟨0x818, 8, 1, 0x0, 0x0, false, 0x0, [], 0⟩,  -- BOB_HEAD
    ⟨0x820, 8, 1, 0x0, 0x0, false, 0x0, [], 0⟩,  -- BOB_TAIL
    ⟨0x828, 8, 1, 0x0, 0x0, false, 0x0, [], 0⟩,  -- BOB_STATUS
    ⟨0x830, 8, 1, 0x0, 0xFFFFFFFFFFFFFFFF, false, 0x0, [], 0⟩,  -- BOB_COUNTS
    ⟨0x840, 8, 1, 0x3FF073F8110, 0x0, false, 0x3000000, [], 0⟩,  -- BOB_CFG
    ⟨0x848, 8, 1, 0x1FFFFFFFFFFFE00, 0x0, false, 0x0, [], 0⟩,  -- BOB_BASE
    ⟨0x850, 8, 1, 0xFF3F, 0x0, false, 0x3010, [], 0⟩,  -- BOB_SIZE
    ⟨0x858, 8, 1, 0x0, 0x0, false, 0x0, [], 0⟩,  -- BOB_HEAD
    ⟨0x860, 8, 1, 0x0, 0x0, false, 0x0, [], 0⟩,  -- BOB_TAIL
    ⟨0x868, 8, 1, 0x0, 0x0, false, 0x0, [], 0⟩,  -- BOB_STATUS
    ⟨0x870, 8, 1, 0x0, 0xFFFFFFFFFFFFFFFF, false, 0x0, [], 0⟩,  -- BOB_COUNTS
    ⟨0x880, 8, 1, 0x3FF073F8110, 0x0, false, 0x3000000, [], 0⟩,  -- BOB_CFG
    ⟨0x888, 8, 1, 0x1FFFFFFFFFFFE00, 0x0, false, 0x0, [], 0⟩,  -- BOB_BASE
    ⟨0x890, 8, 1, 0xFF3F, 0x0, false, 0x3010, [], 0⟩,  -- BOB_SIZE
    ⟨0x898, 8, 1, 0x0, 0x0, false, 0x0, [], 0⟩,  -- BOB_HEAD
    ⟨0x8A0, 8, 1, 0x0, 0x0, false, 0x0, [], 0⟩,  -- BOB_TAIL
    ⟨0x8A8, 8, 1, 0x0, 0x0, false, 0x0, [], 0⟩,  -- BOB_STATUS
    ⟨0x8B0, 8, 1, 0x0, 0xFFFFFFFFFFFFFFFF, false, 0x0, [], 0⟩,  -- BOB_COUNTS
    ⟨0x8C0, 8, 1, 0x3FF073F8110, 0x0, false, 0x3000000, [], 0⟩  -- BOB_CFG
  ] ++
  [
    ⟨0x8C8, 8, 1, 0x1FFFFFFFFFFFE00, 0x0, false, 0x0, [], 0⟩,  -- BOB_BASE
    ⟨0x8D0, 8, 1, 0xFF3F, 0x0, false, 0x3010, [], 0⟩,  -- BOB_SIZE
    ⟨0x8D8, 8, 1, 0x0, 0x0, false, 0x0, [], 0⟩,  -- BOB_HEAD
    ⟨0x8E0, 8, 1, 0x0, 0x0, false, 0x0, [], 0⟩,  -- BOB_TAIL
    ⟨0x8E8, 8, 1, 0x0, 0x0, false, 0x0, [], 0⟩,  -- BOB_STATUS
    ⟨0x8F0, 8, 1, 0x0, 0xFFFFFFFFFFFFFFFF, false, 0x0, [], 0⟩,  -- BOB_COUNTS
    ⟨0x900, 8, 1, 0x3FF073F8110, 0x0, false, 0x3000000, [], 0⟩,  -- BOB_CFG
    ⟨0x908, 8, 1, 0x1FFFFFFFFFFFE00, 0x0, false, 0x0, [], 0⟩,  -- BOB_BASE
    ⟨0x910, 8, 1, 0xFF3F, 0x0, false, 0x3010, [], 0⟩,  -- BOB_SIZE
    ⟨0x918, 8, 1, 0x0, 0x0, false, 0x0, [], 0⟩,  -- BOB_HEAD
    ⟨0x920, 8, 1, 0x0, 0x0, false, 0x0, [], 0⟩,  -- BOB_TAIL
    ⟨0x928, 8, 1, 0x0, 0x0, false, 0x0, [], 0⟩,  -- BOB_STATUS
    ⟨0x930, 8, 1, 0x0, 0xFFFFFFFFFFFFFFFF, false, 0x0, [], 0⟩,  -- BOB_COUNTS
    ⟨0x940, 8, 1, 0x3FF073F8110, 0x0, false, 0x3000000, [], 0⟩,  -- BOB_CFG
    ⟨0x948, 8, 1, 0x1FFFFFFFFFFFE00, 0x0, false, 0x0, [], 0⟩,  -- BOB_BASE
    ⟨0x950, 8, 1, 0xFF3F, 0x0, false, 0x3010, [], 0⟩,  -- BOB_SIZE
    ⟨0x958, 8, 1, 0x0, 0x0, false, 0x0, [], 0⟩,  -- BOB_HEAD
    ⟨0x960, 8, 1, 0x0, 0x0, false, 0x0, [], 0⟩,  -- BOB_TAIL
    ⟨0x968, 8, 1, 0x0, 0x0, false, 0x0, [], 0⟩,  -- BOB_STATUS
    ⟨0x970, 8, 1, 0x0, 0xFFFFFFFFFFFFFFFF, false, 0x0, [], 0⟩  -- BOB_COUNTS
  ] ++
  [
    ⟨0x980, 8, 1, 0x3FF073F8110, 0x0, false, 0x3000000, [], 0⟩,  -- BOB_CFG
    ⟨0x988, 8, 1, 0x1FFFFFFFFFFFE00, 0x0, false, 0x0, [], 0⟩,  -- BOB_BASE
    ⟨0x990, 8, 1, 0xFF3F, 0x0, false, 0x3010, [], 0⟩,  -- BOB_SIZE
    ⟨0x998, 8, 1, 0x0, 0x0, false, 0x0, [], 0⟩,  -- BOB_HEAD
    ⟨0x9A0, 8, 1, 0x0, 0x0, false, 0x0, [], 0⟩,  -- BOB_TAIL
    ⟨0x9A8, 8, 1, 0x0, 0x0, false, 0x0, [], 0⟩,  -- BOB_STATUS
    ⟨0x9B0, 8, 1, 0x0, 0xFFFFFFFFFFFFFFFF, false, 0x0, [], 0⟩,  -- BOB_COUNTS
    ⟨0x9C0, 8, 1, 0x3FF073F8110, 0x0, false, 0x3000000, [], 0⟩,  -- BOB_CFG
    ⟨0x9C8, 8, 1, 0x1FFFFFFFFFFFE00, 0x0, false, 0x0, [], 0⟩,  -- BOB_BASE
    ⟨0x9D0, 8, 1, 0xFF3F, 0x0, false, 0x3010, [], 0⟩,  -- BOB_SIZE
    ⟨0x9D8, 8, 1, 0x0, 0x0, false, 0x0, [], 0⟩,  -- BOB_HEAD
    ⟨0x9E0, 8, 1, 0x0, 0x0, false, 0x0, [], 0⟩,  -- BOB_TAIL
    ⟨0x9E8, 8, 1, 0x0, 0x0, false, 0x0, [], 0⟩,  -- BOB_STATUS
    ⟨0x9F0, 8, 1, 0x0, 0xFFFFFFFFFFFFFFFF, false, 0x0, [], 0⟩,  -- BOB_COUNTS
    ⟨0xA00, 8, 1, 0xFFFFF0FFFFFFFFFF, 0x0, false, 0x0, [], 0⟩,  -- REED_CARD_BUF[0]
    ⟨0xA08, 8, 1, 0xFFFFFFFFFFFFF8FF, 0x0, false, 0x0, [(15, 11, 0, 16)], 0⟩,  -- REED_CARD_BUF[1]
    ⟨0xA10, 8, 1, 0x7FFFFFFFFFF80000, 0x0, false, 0x0, [], 0⟩,  -- REED_CARD_BUF[2]
    ⟨0xA18, 8, 1, 0xFFFFFFFF00000000, 0x0, false, 0x0, [], 0⟩,  -- REED_CARD_BUF[3]
    ⟨0xA20, 8, 1, 0x0, 0x0, false, 0x0, [], 0⟩,  -- REED_CARD_BUF[4]
    ⟨0xA28, 8, 1, 0x0, 0x0, false, 0x0, [], 0⟩  -- REED_CARD_BUF[5]
  ] ++
  [
    ⟨0xA30, 8, 1, 0x0, 0x0, false, 0x0, [], 0⟩,  -- REED_CARD_BUF[6]
    ⟨0xA38, 8, 1, 0x0, 0x0, false, 0x0, [], 0⟩  -- REED_CARD_BUF[7]
  ]

/-- The registers of a HED page. -/
def rowsHed : List RegRow :=
  [
    ⟨0x40, 8, 1, 0x0, 0x0, false, 0x0, [], 0⟩,  -- HED_CTX_EN
    ⟨0x48, 8, 1, 0xFFFF, 0x0, false, 0x0, [], 1⟩,  -- HED_CTX_EN_SET
    ⟨0x50, 8, 1, 0xFFFF, 0x0, false, 0x0, [], 2⟩,  -- HED_CTX_EN_CLR
    ⟨0x58, 8, 1, 0xFFFFFFFF, 0x0, false, 0x0, [], 0⟩,  -- HED_CTX_FORM
    ⟨0x60, 8, 1, 0xFFFFFFFF0001, 0x0, true, 0x0, [], 0⟩,  -- HED_ENGINE
    ⟨0x68, 8, 1, 0x0, 0xFF00000000000000, false, 0x0, [], 0⟩,  -- HED_OPEN
    ⟨0x70, 8, 1, 0x0, 0x0, false, 0x0, [], 0⟩,  -- HED_SPANS
    ⟨0x78, 8, 1, 0x0, 0x0, false, 0x0, [], 0⟩,  -- HED_PARTIALS
    ⟨0x80, 8, 1, 0x0, 0xFFFFFFFFFFFFFFFF, false, 0x0, [], 0⟩,  -- HED_TRACE_LOSS
    ⟨0x88, 8, 1, 0x0, 0xFFFFFFFFFFFFFFFF, false, 0x0, [], 0⟩,  -- HED_TRACE_ANOM
    ⟨0x90, 8, 1, 0x0, 0x0, false, 0x0, [], 0⟩,  -- HED_CYCLES
    ⟨0x98, 8, 1, 0x0, 0x0, false, 0x0, [], 0⟩,  -- HED_LAST_MARK
    ⟨0x100, 8, 1, 0x0, 0x0, false, 0x0, [], 0⟩,  -- HED_PROTECT
    ⟨0x108, 8, 1, 0x7FFFF, 0x0, false, 0x0, [], 1⟩,  -- HED_PROTECT_SET
    ⟨0x110, 8, 1, 0x7FFFF, 0x0, false, 0x0, [], 2⟩,  -- HED_PROTECT_CLR
    ⟨0x118, 8, 2, 0x0, 0x0, false, 0x0, [], 0⟩,  -- HED_CARD_MAP
    ⟨0x128, 8, 2, 0x0, 0x0, false, 0x0, [], 0⟩,  -- HED_CARD_ACTIVE
    ⟨0x138, 8, 1, 0x0, 0x0, false, 0x0, [], 0⟩,  -- HED_GOV
    ⟨0x140, 8, 1, 0x0, 0xFFFFFFFF, false, 0x0, [], 0⟩,  -- HED_REFUSE_PROT
    ⟨0x148, 8, 1, 0x0, 0xFFFFFFFF, false, 0x0, [], 0⟩  -- HED_REFUSE_UNPROT
  ] ++
  [
    ⟨0x150, 8, 1, 0x0, 0xFFFFFFFF, false, 0x0, [], 0⟩,  -- HED_REFUSE_RETAIN
    ⟨0x158, 8, 1, 0x0, 0xFFFFFFFF, false, 0x0, [], 0⟩,  -- HED_MIRROR_REFUSED
    ⟨0x160, 8, 1, 0x0, 0xFFFFFFFF, false, 0x0, [], 0⟩,  -- HED_MIRROR
    ⟨0x168, 8, 1, 0xFFFFFFFFFFFF, 0x0, false, 0x6DB6DB6DB6DB, [], 0⟩,  -- HED_VERDICT
    ⟨0x170, 8, 1, 0x1, 0x0, false, 0x0, [], 0⟩,  -- HED_VERDICT_CTL
    ⟨0x178, 8, 1, 0x0, 0xFFFF0000, false, 0x0, [], 0⟩,  -- HED_GATES
    ⟨0x180, 8, 1, 0x7F, 0x0, false, 0x0, [], 0⟩,  -- HED_STOP
    ⟨0x188, 8, 1, 0x0, 0xFFFFFFFF, false, 0x0, [], 0⟩,  -- HED_TENANT_REFUSED
    ⟨0x200, 8, 32, 0x0, 0x0, false, 0x0, [], 0⟩,  -- HED_EVT
    ⟨0x400, 32, 32, 0xFFFFFFFFFFFFFFFF, 0x0, false, 0x0, [], 0⟩,  -- HED_CARD_W0
    ⟨0x408, 32, 32, 0xFFFEFFFFFC000000, 0x0, false, 0x0, [], 0⟩,  -- HED_CARD_W1
    ⟨0x410, 32, 32, 0xFFFFFFFF00000000, 0x0, false, 0x0, [], 0⟩,  -- HED_CARD_W2
    ⟨0x418, 32, 32, 0x0, 0x0, false, 0x0, [], 0⟩  -- HED_CARD_W3
  ]

/-- The header that every page has (Table RM-2). Which bits of PAGE_ERR_MASK can be written is DESIGN CHOICE 57. -/
def rowsHeader : List RegRow :=
  [
    ⟨0x0, 8, 1, 0, 0, false, 0, [], 0⟩,  -- PAGE_ID
    ⟨0x8, 8, 1, 0, 0, false, 0, [], 0⟩,  -- PAGE_CAPS
    ⟨0x10, 8, 1, 0xFF00, 0, true, 0x300, [(15, 8, 3, 3)], 0⟩,  -- PAGE_VERSEL
    ⟨0x18, 8, 1, 0, 0, false, 0, [], 0⟩,  -- PAGE_CTRL
    ⟨0x20, 8, 1, 0, 0, false, 0, [], 0⟩,  -- PAGE_STATE
    ⟨0x28, 8, 1, 0, 0xFF00FFFFFFFFFFFF, false, 0, [], 0⟩,  -- PAGE_ERR
    ⟨0x30, 8, 1, 0xFF00FFFFFFFFFFFF, 0, false, 0, [], 0⟩,  -- PAGE_ERR_MASK
    ⟨0x38, 8, 1, 0, 0xFFFF000000000000, false, 0, [], 0⟩  -- PAGE_EVENT
  ]

/-- The registers of a kind of page beyond the header. -/
def rowsOf : PageKind → List RegRow
  | .hub => rowsHub
  | .beam => rowsBeam
  | .sync => rowsSync
  | .stop => rowsStop
  | .key => rowsKey
  | .fw => rowsFw
  | .cal => rowsCal
  | .trd k => if k = 0 then rowsTrd0 else if k = 1 then rowsTrd1 else if k = 7 then rowsTrd7 else rowsTrdSrc
  | .lnk _ => rowsLnk
  | .wit _ => rowsWit
  | .reed _ => rowsReed
  | .hed _ => rowsHed

/-- Whether an offset is that of a register of a row, and the number of the register within it. -/
def RegRow.index (r : RegRow) (off : Nat) : Option Nat :=
  if r.off ≤ off && off < r.off + r.stride * r.count && (off - r.off) % r.stride == 0 then some ((off - r.off) / r.stride) else none

/-- The row that an offset of a page falls in. -/
def findRow (rows : List RegRow) (off : Nat) : Option RegRow :=
  match rows with
  | [] => none
  | r :: rs => if (r.index off).isSome then some r else findRow rs off

/-- The kind of the page with an index, where it is instantiated (Table RM-1, R58). -/
def pageKind (i : Inst) (p : Nat) : Option PageKind :=
  if p = 0 then some .hub else if p = 1 then some .beam else if p = 2 then some .sync else if p = 3 then some .stop
  else if p = 4 then some .key else if p = 5 then some .fw else if p = 6 then some .cal
  else if 8 ≤ p ∧ p < 16 then some (.trd (p - 8))
  else if 0x10 ≤ p ∧ p < 0x70 then if (p - 0x10) % 24 < i.linksPerDir then some (.lnk (p - 0x10)) else none
  else if 0x100 ≤ p ∧ p < 0x500 then if p - 0x100 < 4 * i.reeds then some (.wit (p - 0x100)) else none
  else if 0x800 ≤ p ∧ p < 0x900 then if p - 0x800 < i.reeds then some (.reed (p - 0x800)) else none
  else if 0x1000 ≤ p ∧ p < 0x2000 then if p - 0x1000 < i.reeds * i.hpr then some (.hed (p - 0x1000)) else none
  else none

/-- Whether a register of an instantiated page exists in this configuration (R58, R125, R279, R281, R337). -/
def regPresent (i : Inst) (k : PageKind) (off : Nat) : Bool :=
  match k with
  | .hub => !(0x300 ≤ off && off < 0x500) || decide ((off - 0x300) / 8 < i.sensors)
  | .sync => !(0x400 ≤ off) || decide (((off - 0x400) / 8) % 24 < i.linksPerDir)
  | .trd k =>
    if k = 0 then !(0x100 ≤ off) || decide ((off - 0x100) / 0x40 < i.targets)
    else if 2 ≤ k ∧ k ≤ 6 then !(0x40 ≤ off) || (let n := 504 * (k - 2) + (off - 0x40) / 8; decide (1 ≤ n) && decide (n ≤ 2040))
    else true
  | _ => true

/-- The row of a register of a page, header included. -/
def regRow (i : Inst) (k : PageKind) (off : Nat) : Option RegRow :=
  if off < 0x40 then findRow rowsHeader off
  else if regPresent i k off then findRow (rowsOf k) off else none

/-- The key of a register word: the word index within the window. -/
def regKey (page off : Nat) : Nat := page * 512 + off / 8

/-- What a register word reads as before anything writes it. -/
def resetWord (i : Inst) (key : Nat) : Word :=
  match pageKind i (key / 512) with
  | none => 0
  | some k =>
    match k with
    | .trd j =>
      if 2 ≤ j ∧ j ≤ 6 ∧ 8 ≤ key % 512 then
        if 504 * (j - 2) + (key % 512 - 8) < 100 then 0x8000044010001000 else 0x800C044010001000
      else ((regRow i k (key % 512 * 8)).map (·.reset)).getD 0
    | _ => ((regRow i k (key % 512 * 8)).map (·.reset)).getD 0

/-- A register word as stored. -/
def regGet (s : State) (page off : Nat) : Word := mget (resetWord s.inst (regKey page off)) s.regs (regKey page off)

/-- Store a register word. -/
def regPut (s : State) (page off : Nat) (w : Word) : State :=
  { s with regs := mset (resetWord s.inst (regKey page off)) s.regs (regKey page off) w }

/-- Count n in a saturating field of a register. -/
def bump (s : State) (page off hi lo n : Nat) : State := regPut s page off (satFld (regGet s page off) hi lo n)

/-- Count n in a wrapping field of a register. -/
def count (s : State) (page off hi lo n : Nat) : State := regPut s page off (addFld (regGet s page off) hi lo n)

/-- A field of a register. -/
def regFld (s : State) (page off hi lo : Nat) : Nat := fld (regGet s page off) hi lo

/-- A bit of a register. -/
def regBit (s : State) (page off i : Nat) : Bool := bit (regGet s page off) i

/-- Write a field of a register. -/
def regSetFld (s : State) (page off hi lo v : Nat) : State := regPut s page off (setFld (regGet s page off) hi lo v)

/-- The home pages of parts. -/
def pgHub : Nat := 0
def pgBeam : Nat := 1
def pgSync : Nat := 2
def pgStop : Nat := 3
def pgKey : Nat := 4
def pgFw : Nat := 5
def pgCal : Nat := 6
def pgTrd : Nat := 8
/-- A page number of the gap that Table RM-1 leaves before the TRD pages. -/
def pgNone : Nat := 7
def pgLnk (n : Nat) : Nat := 0x10 + n
def pgWit (n : Nat) : Nat := 0x100 + n
def pgReed (r : Nat) : Nat := 0x800 + r
def pgHed (h : Nat) : Nat := 0x1000 + h

/-- The page of a writer of bobbins: a Reed, or the Hub for 256. -/
def pgWriter (w : Nat) : Nat := if w = 256 then pgHub else pgReed w

/-- The home page of the part that a page belongs to (Table RM-1); the SYNC page's is the Hub's where the Ethernet tap is absent (DESIGN
CHOICE 64). -/
def homeOf (i : Inst) (k : PageKind) (p : Nat) : Nat :=
  match k with
  | .sync => if i.eth then p else pgHub
  | .beam | .stop | .cal => pgHub
  | .trd _ => pgTrd
  | _ => p

end Sys2Proof.Machine
end

