-- ==== Sys2Proof/Machine/Parts.lean ====
section
/-! DEFINITION. The parts of the block: reading and writing their state words (R68, R70), the reports they send (R73), and the stamps they
form from their copies of Beam (R90, R92). -/

namespace Sys2Proof.Machine

/-- The code of a state (R68). -/
def PState.code : PState → Nat
  | .resetting => 0
  | .disabled => 1
  | .enabled => 2
  | .quiescing => 3
  | .failed => 4
  | .retired => 5

/-- A part that has reported DISABLED after a block or fundamental reset (Table RM-12). -/
def Part.quiet : Part :=
  { st := .disabled, seq := 1, cause := 0, view := ⟨.disabled, 1, 0, false⟩, reports := [], audits := [], locked := true,
    asked := false, rxDisc := false, rxHoldover := false, rxSteps := 0, devRaw := 0, devOff := 0, missed := false, undRaw := 0, quiesceAt := 0,
    overdue := false, entered := 0 }

/-- A part in the RESETTING that a block or fundamental reset began (R68). -/
def Part.starting : Part :=
  { Part.quiet with st := .resetting, seq := 0, view := ⟨.resetting, 0, 0, false⟩, locked := false, asked := true }

/-- What an unlisted part reads as. -/
def partDflt (s : State) : Part := if s.booting then Part.starting else Part.quiet

/-- The part with a home page. -/
def part (s : State) (p : Nat) : Part := mget (partDflt s) s.parts p

/-- Change a part. -/
def updPart (s : State) (p : Nat) (f : Part → Part) : State :=
  { s with parts := mset (partDflt s) s.parts p (f (part s p)) }

/-- The state of a part. -/
def pst (s : State) (p : Nat) : PState := (part s p).st

/-- Whether a part is ENABLED. -/
def isEnabled (s : State) (p : Nat) : Bool := pst s p == .enabled

/-- Whether a part is ENABLED or QUIESCING: it works on what it has. -/
def isWorking (s : State) (p : Nat) : Bool := pst s p == .enabled || pst s p == .quiescing

/-- Whether a page is a home page, and of an instantiated part. -/
def isHome (i : Inst) (p : Nat) : Bool :=
  match pageKind i p with
  | some k => (homeOf i k p == p)
  | none => false

/-- The home pages of every instantiated part. -/
def homes (i : Inst) : List Nat :=
  [pgHub] ++ (if i.eth then [pgSync] else []) ++ [pgKey, pgFw, pgTrd] ++
  ((List.range 96).filter fun n => decide (n % 24 < i.linksPerDir)).map pgLnk ++
  (List.range (4 * i.reeds)).map pgWit ++ (List.range i.reeds).map pgReed ++ (List.range (i.reeds * i.hpr)).map pgHed

/-- Whether a part stamps from a copy of Beam (Table BT-4). -/
def isStamping (p : Nat) : Bool :=
  p == pgHub || p == pgSync || p == pgFw || (0x10 ≤ p && p < 0x70) || (0x800 ≤ p && p < 0x900) || 0x1000 ≤ p

/-- A transition of a part with its cause: STATE_SEQ rises, and a report goes to the Hub, whose own view follows at once (R68, R73,
R75). -/
def transition (p : Nat) (dst : PState) (cause : BitVec 8) (s : State) : State :=
  updPart s p fun (x : Part) =>
    let seq := x.seq + 1
    let y : Part :=
      { x with
        st := dst, seq := seq, cause := cause, entered := s.tim.raw,
        quiesceAt := if dst == .quiescing then s.tim.raw else x.quiesceAt,
        overdue := if dst == .quiescing then false else x.overdue }
    if p = pgHub then { y with view := { y.view with st := dst, seq := seq, cause := cause } }
    else { y with reports := y.reports ++ [⟨dst, seq, cause⟩] }

/-! ### Stamps -/

/-- The offset that was in force at a raw count, of those that steps have replaced (R85): the first step after it says which. -/
def offsetWas (s : State) (raw : Bt) : Nat :=
  match s.tim.stepped.find? fun e => decide (raw < e.raw) with
  | some e => wrap64 ((e.before : Int) - e.raw)
  | none => s.tim.offset

/-- The offset that a part applies to a raw count (R85, R90, R92). -/
def offsetFor (s : State) (p : Nat) (raw : Bt) : Nat :=
  let x := part s p
  let o := match s.tim.step with
    | some a => if a.raw ≤ raw && !x.missed then a.newOff else offsetWas s raw
    | none => offsetWas s raw
  o + x.devOff

/-- Beam at a raw count, as a part sees it: 0 while the strap holds Beam (R84). -/
def beamAt (s : State) (p : Nat) (raw : Bt) : Nat :=
  if strapOk s then (raw + (part s p).devRaw + offsetFor s p raw) % two64 else 0

/-- Beam now, as a part sees it. -/
def beamOf (s : State) (p : Nat) : Nat := beamAt s p s.tim.raw

/-- Beam now in the Hub. -/
def hubBeam (s : State) : Nat := beamOf s pgHub

/-- The linearity values c[0] to c[16] of a line from its 16 calibration bytes (R92, R95); byte 15 is the stored supply. -/
def lineC (lin : Nat) (k : Nat) : Int := if k = 0 ∨ 16 ≤ k then 0 else signedN 8 (lin / 256 ^ (k - 1))

/-- The fraction of an update that n cells of p measure, corrected and rounded, in bt (R92). -/
def tdcFrac (lin : Nat) (t : Tdc) : Nat :=
  if t.p = 0 then 0 else
    let k := 16 * t.n / t.p
    let rem : Int := ((16 * t.n % t.p : Nat) : Int)
    let pI : Int := t.p
    -- 64 * p * (16 f + c / 64), rounded to the nearest bt, halves up
    let num : Int := 64 * 16 * (t.n : Int) + (lineC lin k * pI + rem * (lineC lin (k + 1) - lineC lin k))
    let q := (num * 2 + 64 * pI) / (2 * 64 * pI)
    min 16 q.toNat

end Sys2Proof.Machine
end

