-- ==== Sys2Proof/Machine/Treadle.lean ====
section
/-! DEFINITION. The Treadle interrupt controller (spec/12_treadle.md), and the raising of errors that feeds it (R55, R62, R63). -/

namespace Sys2Proof.Machine

/-- A source at reset. -/
def Src.idle : Src :=
  { pend := false, active := false, unrep := 0, first := 0, stamp := 0, batch := 0, asy := false, noBeam := false,
    repend := false, input := false, level := false, levelStamp := 0, runRaw := none, latch := none, wake := none }

/-- A target at reset. -/
def Tgt.idle : Tgt :=
  { stack := [], offered := false, irq := false, stamp := 0, info := 0, claims := 0, heldBack := [] }

/-- A source. -/
def trdSrc (s : State) (n : Nat) : Src := mget Src.idle s.trd.srcs n

/-- Change a source. -/
def updSrc (n : Nat) (f : Src → Src) (s : State) : State :=
  { s with trd := { s.trd with srcs := mupd Src.idle s.trd.srcs n f } }

/-- A target. -/
def trdTgt (s : State) (t : Nat) : Tgt := mget Tgt.idle s.trd.tgts t

/-- Change a target. -/
def updTgt (t : Nat) (f : Tgt → Tgt) (s : State) : State :=
  { s with trd := { s.trd with tgts := mupd Tgt.idle s.trd.tgts t f } }

/-- The configuration word TRD_SRC[n] (R281). -/
def srcWord (s : State) (n : Nat) : Word := regGet s (10 + n / 504) (0x40 + 8 * (n % 504))

/-- PRIO of a source. -/
def srcPrio (s : State) (n : Nat) : Nat := fld (srcWord s n) 63 56

/-- TARGET of a source. -/
def srcTarget (s : State) (n : Nat) : Nat := fld (srcWord s n) 55 52

/-- SENSE of a source (R266). -/
def srcSense (s : State) (n : Nat) : Nat := fld (srcWord s n) 51 50

/-- Whether a level of the input is the active one (R266). -/
def srcActiveLevel (s : State) (n : Nat) (lvl : Bool) : Bool := lvl != bit (srcWord s n) 49

/-- The glitch filter's D in bt (R267). -/
def srcFilter (s : State) (n : Nat) : Nat := fld (srcWord s n) 47 40 * 2 ^ fld (srcWord s n) 39 36

/-- Whether a source is enabled (R271). -/
def srcEnabled (s : State) (n : Nat) : Bool := regBit s 9 (0x40 + 0x18 * (n / 64)) (n % 64)

/-- The tier of a PRIO value (R270): the number of set bits 1 to p of the tier map. -/
def tierOf (s : State) (p : Nat) : Nat :=
  ((List.range p).filter fun i => regBit s pgTrd (0x80 + 8 * ((i + 1) / 64)) ((i + 1) % 64)).length

/-- Whether the Treadle is ENABLED and not dozing. -/
def trdOn (s : State) : Bool := isEnabled s pgTrd && !s.trd.doze

/-- Whether a source is pending, enabled and routed to a target with a tier that the target's stack admits, its depth aside (R271). -/
def wouldClaim (s : State) (t n : Nat) (x : Src) : Bool :=
  x.pend && srcEnabled s n && srcTarget s n == t && regBit s pgTrd (0x120 + 0x40 * t) 0 && trdOn s &&
  (match (trdTgt s t).stack with
   | [] => true
   | (_, run) :: _ => decide (tierOf s (srcPrio s n) < run))

/-- The sources claimable on a target (R271). -/
def claimable (s : State) (t : Nat) : List Nat :=
  if (trdTgt s t).stack.length < 8 then (s.trd.srcs.filter fun (n, x) => wouldClaim s t n x).map (·.1) else []

/-- The sources held back on a target by the depth limit alone (R271). -/
def depthHeld (s : State) (t : Nat) : List Nat :=
  if (trdTgt s t).stack.length < 8 then [] else (s.trd.srcs.filter fun (n, x) => wouldClaim s t n x).map (·.1)

/-- The most urgent of some sources: the lowest PRIO, then the lowest number (R270). -/
def mostUrgent (s : State) : List Nat → Option Nat
  | [] => none
  | n :: ns =>
    match mostUrgent s ns with
    | none => some n
    | some m => if srcPrio s m < srcPrio s n || (srcPrio s m == srcPrio s n && decide (m < n)) then some m else some n

/-- Evaluate the line of a target: TRD_IRQ, OFFERED on its rise, and FULL (R271, R272). -/
def settleTgt (s : State) (t : Nat) : State :=
  let irq := !(claimable s t).isEmpty
  let held := depthHeld s t
  let fresh := held.filter fun n => !(trdTgt s t).heldBack.contains n
  let s1 := updTgt t (fun g => { g with irq := irq, offered := g.offered || (irq && !g.irq), heldBack := held }) s
  if fresh.isEmpty then s1 else bump s1 pgTrd (0x138 + 0x40 * t) 15 0 fresh.length

/-- Evaluate every line. -/
def settle (s : State) : State := (List.range s.inst.targets).foldl settleTgt s

/-- The stamp that the Treadle gives an event now, to 16 bt (R265); 0 without Beam. -/
def trdStamp (s : State) : Nat := beamAt s pgTrd (s.tim.raw / 16 * 16)

/-- One event of a coalesced source (R269). -/
def srcEvent (n stamp : Nat) (fromLatch : Bool) (s : State) : State :=
  let cnt := fld (srcWord s n) 35 28
  updSrc n (fun x =>
    let x := { x with asy := x.asy || fromLatch, noBeam := x.noBeam || (fromLatch && !strapOk s) }
    if x.pend then { x with batch := min 255 (x.batch + 1) }
    else
      let f := if x.unrep = 0 then stamp else x.first
      if cnt ≤ x.unrep + 1 then
        { x with pend := true, batch := min 255 (x.batch + x.unrep + 1), unrep := 0, stamp := f, first := 0 }
      else { x with unrep := x.unrep + 1, first := f }) s

/-- A coalesced source whose time has come becomes pending (R269). -/
def srcBatch (n : Nat) (s : State) : State :=
  updSrc n (fun x => { x with pend := true, batch := min 255 (x.batch + x.unrep), unrep := 0, stamp := x.first, first := 0 }) s

/-- A level source is no longer pending, and what its next claim would have told of it is discarded (R271, R276). -/
def Src.withdrawn (x : Src) : Src := { x with pend := false, batch := 0, asy := false, noBeam := false, repend := false }

/-- A level source is withdrawn while pending: WITHDRAWN counts (Table TI-6). -/
def withdraw (n : Nat) (s : State) : State := bump (updSrc n Src.withdrawn s) pgTrd 0x48 47 32 1

/-- A level source that is active and not on a stack is pending (R271, R274, R276). -/
def srcLevelPend (n : Nat) (s : State) : State :=
  let x := trdSrc s n
  if srcSense s n = 1 && 100 ≤ n && srcActiveLevel s n x.level && !x.active && !x.pend then
    updSrc n (fun x => { x with pend := true, stamp := x.levelStamp }) s
  else s

/-- Raise a Falcen source: an event while the Treadle runs; a latched transition while it dozes, is not ENABLED or is being reset; nothing
while it is FAILED or RETIRED (R265, R277, R278). -/
def raise (n : Nat) (s : State) : State :=
  if trdOn s then settle (srcEvent n (trdStamp s) false s)
  else if pst s pgTrd == .failed || pst s pgTrd == .retired then s
  else if (trdSrc s n).latch.isSome then s
  else updSrc n (fun x => { x with latch := some (trdStamp s) }) s

/-- Record error bits in a page's PAGE_ERR and PAGE_EVENT (R62, Table RM-7). -/
def recordErr (page : Nat) (bits : List Nat) (s : State) : State :=
  let w := bits.foldl (fun w b => w ||| (1#64 <<< b)) (regGet s page 0x28)
  let ev := regGet s page 0x38
  regPut (regPut s page 0x28 w) page 0x38 (setFld (satFld ev 63 48 1) 47 0 (hubBeam s))

/-- An error that is no port error: its bit, and source 60, or 30 for SKEW, unless masked (R63). -/
def setErr (page b : Nat) (s : State) : State :=
  let s1 := recordErr page [b] s
  if regBit s page 0x30 b then s1 else raise (if b = 57 then 30 else 60) s1

/-- A boundary port error: its detailed bit and PORT; source 61 unless PORT is masked (R55). -/
def setPortErr (page b : Nat) (s : State) : State :=
  let s1 := recordErr page [b, 62] s
  if regBit s page 0x30 62 then s1 else raise 61 s1

/-! ### The inputs -/

/-- The filter accepts the level that a source's run has shown (R267): an edge source has an event, a level source becomes pending or
is withdrawn, with the stamp that began the run. -/
def acceptLevel (n : Nat) (s : State) : State :=
  let x := trdSrc s n
  match x.runRaw with
  | none => s
  | some (_, st) =>
    let act := srcActiveLevel s n x.input
    let s1 := updSrc n (fun x =>
      { x with
        level := x.input, levelStamp := st, runRaw := none, asy := x.asy || (act && x.wake.isSome),
        noBeam := x.noBeam || (act && x.wake.isSome && !strapOk s), wake := none }) s
    if srcSense s n = 0 then (if act then srcEvent n st false s1 else s1)
    else if srcSense s n = 1 then
      if act then srcLevelPend n s1
      else if x.pend then withdraw n s1
      else s1
    else s1

/-- A run that ends before the filter accepted it: a glitch if it was shorter than D; accepted after all if it lasted D + 32 bt; a level
source that was passing its filter after a wake counts as withdrawn (R267, R277). -/
def endRun (n : Nat) (s : State) : State :=
  let x := trdSrc s n
  match x.runRaw with
  | none => s
  | some (r, _) =>
    if r + srcFilter s n + 32 ≤ s.tim.raw then acceptLevel n s
    else
      let s1 := updSrc n (fun x => { x with runRaw := none, wake := none }) s
      if x.wake.isSome then bump s1 pgTrd 0x48 47 32 1
      else if s.tim.raw < r + srcFilter s n then bump s1 pgTrd 0x48 63 48 1 else s1

/-- A transition at TRD_IN[n] (R266, R267, R277, R278). -/
def inputEdge (n : Nat) (lvl : Bool) (s : State) : State :=
  if (trdSrc s n).input == lvl then s
  else if trdOn s then
    let s1 := endRun n s
    let s2 := updSrc n (fun x => { x with input := lvl }) s1
    if srcSense s n ≤ 1 then
      settle (updSrc n (fun x => { x with runRaw := if x.level == lvl then none else some (s.tim.raw, trdStamp s) }) s2)
    else s2
  else
    let s1 := updSrc n (fun x => { x with input := lvl, runRaw := none }) s
    if srcSense s n ≤ 1 && srcActiveLevel s n lvl && (trdSrc s n).latch.isNone && pst s pgTrd != .failed && pst s pgTrd != .retired then
      updSrc n (fun x => { x with latch := some (trdStamp s) }) s1
    else s1

/-- Report the caught transition of a source: one event, or for a level source a pass through its filter (R277). -/
def reportLatch (n : Nat) (s : State) : State :=
  let x := trdSrc s n
  match x.latch with
  | none => s
  | some st =>
    let s0 := bump (updSrc n (fun x => { x with latch := none }) s) pgTrd 0x48 31 16 1
    if 100 ≤ n && srcSense s n = 1 then
      -- one that was passing its filter when the filters stopped has gone inactive since
      let s1 := if x.wake.isSome then bump (updSrc n (fun x => { x with wake := none }) s0) pgTrd 0x48 47 32 1 else s0
      if srcActiveLevel s n x.input then updSrc n (fun x => { x with runRaw := some (s.tim.raw, st), wake := some st }) s1
      else bump s1 pgTrd 0x48 47 32 1
    else
      let s1 := if 100 ≤ n then updSrc n (fun x => { x with level := x.input, levelStamp := st, runRaw := none }) s0 else s0
      srcEvent n st true s1

/-- A licensee input whose level the stopped filter has not accepted begins its run again; a level source that was passing its filter after a
wake keeps its latched stamp, and counts as withdrawn if its level is no longer active (R277). -/
def restartRun (n : Nat) (s : State) : State :=
  let x := trdSrc s n
  if x.wake.isSome && x.runRaw.isNone then
    if srcActiveLevel s n x.input then updSrc n (fun x => { x with runRaw := some (s.tim.raw, x.wake.getD 0) }) s
    else bump (updSrc n (fun x => { x with wake := none }) s) pgTrd 0x48 47 32 1
  else if 100 ≤ n && srcSense s n ≤ 1 && x.input != x.level && x.runRaw.isNone then
    updSrc n (fun x => { x with runRaw := some (s.tim.raw, trdStamp s) }) s
  else s

/-- Report every caught transition, restart the filters and evaluate the lines (R277, R278). -/
def reportLatches (s : State) : State :=
  let ns := s.trd.srcs.map (·.1)
  settle (ns.foldl (fun s n => restartRun n s) (ns.foldl (fun s n => reportLatch n s) s))

/-- Wake from doze on behalf of a source (R277). -/
def wakeUp (n stamp : Nat) (s : State) : State :=
  reportLatches (bump { s with trd := { s.trd with doze := false, wakeSrc := n, wakeAt := stamp } } pgTrd 0x48 31 16 1)

/-! ### The accesses -/

/-- A claim read of a target (R273): the number returned, and the state after. -/
def claim (t : Nat) (s : State) : Nat × State :=
  if !trdOn s then (0, s)
  else
    match mostUrgent s (claimable s t) with
    | some n =>
      let x := trdSrc s n
      let info := packW [(0, 11, x.batch), (16, 1, bn x.asy), (17, 1, bn x.noBeam), (18, 1, bn x.repend)]
      let s1 := updSrc n (fun x => { x with pend := false, active := true, batch := 0, asy := false, noBeam := false, repend := false }) s
      let s2 := updTgt t (fun g =>
        { g with
          stack := (n, tierOf s (srcPrio s n)) :: g.stack, offered := false, stamp := x.stamp,
          info := info, claims := g.claims + 1 }) s1
      (n, settle s2)
    | none =>
      if (trdTgt s t).offered then
        (2047, bump (updTgt t (fun g => { g with offered := false }) s) pgTrd (0x138 + 0x40 * t) 31 16 1)
      else (0, s)

/-- A completion write (R274): none where it is refused. -/
def complete (t n : Nat) (s : State) : Option State :=
  if !isEnabled s pgTrd then none
  else
    match (trdTgt s t).stack with
    | [] => none
    | (m, _) :: rest =>
      if m ≠ n then none
      else
        let s1 := updTgt t (fun g => { g with stack := rest, offered := false }) s
        let s2 := updSrc n (fun x => { x with active := false }) s1
        let x := trdSrc s2 n
        let s3 := if 100 ≤ n && srcSense s n = 1 && srcActiveLevel s n x.level && !x.pend then
            updSrc n (fun x => { x with pend := true, stamp := trdStamp s, repend := true }) s2 else s2
        some (settle s3)

/-- The effects of a refused completion (R274). -/
def completeRefused (t n : Nat) (s : State) : State :=
  let mismatch := match (trdTgt s t).stack with
    | [] => false
    | (m, _) :: _ => m != n
  let s1 := bump s pgTrd (0x138 + 0x40 * t) 47 32 1
  if mismatch then setErr pgTrd 0 s1 else s1

/-- A doorbell write (R268, R277, R278): none where it is refused. An accepted doorbell wakes a dozing Treadle. -/
def doorbell (n : Nat) (s : State) : Option State :=
  if isEnabled s pgTrd && 100 ≤ n && n ≤ 2040 && srcSense s n == 2 then
    let s1 := if s.trd.doze then wakeUp n (trdStamp s) s else s
    some (settle (srcEvent n (trdStamp s) false s1))
  else none

/-- The sources of the bits set in word w. -/
def wordSources (w : Nat) (bits : Word) : List Nat :=
  ((List.range 64).filter fun b => bit bits b && 1 ≤ 64 * w + b && 64 * w + b ≤ 2040).map (64 * w + ·)

/-- A write to a pending set address (R276). -/
def pendingSet (w : Nat) (bits : Word) (s : State) : State :=
  settle ((wordSources w bits).foldl (fun s n =>
    if (trdSrc s n).pend then s else updSrc n (fun x => { x with pend := true, stamp := trdStamp s }) s) s)

/-- A write to a pending clear address (R276): the batch is discarded; an active level pends again at once. -/
def pendingClr (w : Nat) (bits : Word) (s : State) : State :=
  settle ((wordSources w bits).foldl (fun s n =>
    if (trdSrc s n).pend then srcLevelPend n (updSrc n Src.withdrawn s) else s) s)

/-- A write of TRD_DOZE (R277): none where it is refused. -/
def dozeWrite (d : Bool) (s : State) : Option State :=
  if d then
    if (List.range s.inst.targets).any fun t => !(claimable s t).isEmpty then none
    else
      -- the filters stop: a run in progress is judged afresh at the wake
      let srcs := (s.trd.srcs.map fun (n, x) => (n, { x with runRaw := none })).filter fun e => e.2 != Src.idle
      some (settle { s with trd := { s.trd with doze := true, srcs := srcs } })
  else if s.trd.doze then some (reportLatches { s with trd := { s.trd with doze := false } })
  else some s

/-- The word that a write of TRD_SRC[n] leaves, or none where a field is out of range (R281, Table TI-8). -/
def srcWriteWord (s : State) (n : Nat) (d : Word) : Option Word :=
  let w := srcWord s n
  if fld d 55 52 < s.inst.targets && 1 ≤ fld d 35 28 && 1 ≤ fld d 27 12 && (n < 100 || 1 ≤ fld d 47 40) then
    if n < 100 then some (setFld (setFld (setFld w 63 52 (fld d 63 52)) 35 28 (fld d 35 28)) 27 12 (fld d 27 12))
    else some (d &&& 0xFFFEFFFFFFFFF000)
  else none

/-- A write of TRD_SRC[n] that is in range (R276): none where it is refused under rule 6. -/
def srcWrite (n : Nat) (w' : Word) (s : State) : Option State :=
  let w := srcWord s n
  if (trdSrc s n).active && (fld w 55 52 != fld w' 55 52 || fld w 51 50 != fld w' 51 50) then none
  else
    let s1 := regPut s (10 + n / 504) (0x40 + 8 * (n % 504)) w'
    -- a source that no longer senses a level is not pending for one, nor one whose level a change of POL makes inactive (R271)
    let s2 := if fld w' 51 50 ≥ 2 then updSrc n (fun x => { x with runRaw := none }) s1 else s1
    let s3 := if fld w 51 50 = 1 && fld w' 51 50 != 1 then updSrc n Src.withdrawn s2
      else if fld w 51 50 = 1 && bit w 49 != bit w' 49 && (trdSrc s2 n).pend && !srcActiveLevel s2 n (trdSrc s2 n).level then withdraw n s2
      else s2
    some (settle (srcLevelPend n (if trdOn s3 then restartRun n s3 else s3)))

/-! ### What the pages show -/

/-- A word of one bit per source; those of numbers that no source has are reserved (R280). -/
def srcBits (s : State) (w : Nat) (f : Nat → Src → Bool) : Word :=
  (List.range 64).foldl (fun acc b =>
    let n := 64 * w + b
    if 1 ≤ n && n ≤ 2040 && f n (trdSrc s n) then acc ||| (1#64 <<< b) else acc) 0

/-- The line that is presented to the management core: that of CORE_TGT where CORE_EN is 1 (R277). -/
def coreIrq (s : State) : Bool := regBit s pgTrd 0x40 8 && (trdTgt s (regFld s pgTrd 0x40 7 4)).irq

/-- One of the two stack words of a target (Table TI-6). -/
def stackWord (g : Tgt) (k : Nat) : Word :=
  let es := (g.stack.reverse.drop (4 * k)).take 4
  packW ((es.zip [0, 1, 2, 3]).map fun (e, j) => (16 * j, 16, 0x8000 + e.1))

/-- The read-only fields of TRD 0 (Table TI-6). -/
def trd0View (s : State) (off : Nat) : Word :=
  if off = 0x58 then packW [(0, 1, bn s.trd.doze), (32, 11, s.trd.wakeSrc)]
  else if off = 0x60 then BitVec.ofNat 64 s.trd.wakeAt
  else if 0x100 ≤ off then
    let t := (off - 0x100) / 0x40
    let g := trdTgt s t
    let o := (off - 0x100) % 0x40
    if o = 0x10 then BitVec.ofNat 64 g.stamp
    else if o = 0x18 then g.info
    else if o = 0x20 then
      packW [(1, 1, bn g.offered), (8, 4, g.stack.length), (16, 8, ((g.stack.head?).map (·.2)).getD 0), (32, 32, g.claims.toNat)]
    else if o = 0x28 then stackWord g 0
    else if o = 0x30 then stackWord g 1
    else 0
  else 0

/-- The read-only words of TRD 1 and TRD 7 (Tables TI-7, TI-9). -/
def trdBitsView (s : State) (k off : Nat) : Word :=
  if k = 7 then srcBits s ((off - 0x40) / 8) fun _ x => x.latch.isSome
  else if 0x900 ≤ off then srcBits s ((off - 0x900) / 8) fun n x => decide (100 ≤ n) && decide (srcSense s n ≤ 1) && srcActiveLevel s n x.level
  else if 0x800 ≤ off then srcBits s ((off - 0x800) / 8) fun _ x => x.active
  else if 0x400 ≤ off && (off - 0x400) % 0x18 = 0 then srcBits s ((off - 0x400) / 0x18) fun _ x => x.pend
  else 0

end Sys2Proof.Machine
end

