-- ==== Sys2Proof/Machine/Streams.lean ====
section
/-! DEFINITION. Streams: sequence numbers, retention and runs (R14, R15, R135, R171), the Reed that serves a Heddle (R141, R185), and
the bobbin that a stream's records go to (R179). -/

namespace Sys2Proof.Machine

/-- Streams by originator (Table AR-2). -/
def strHed (h c : Nat) : Nat := h * 16 + c
def strReed (r : Nat) : Nat := 0x10000 + r
def strLnk (n : Nat) : Nat := 0x10100 + n
def strHub : Nat := 0x10160
def strMc : Nat := 0x10161

/-- A stream after reset. -/
def Strm.empty : Strm := { next := 0, recs := [], committed := 0, taken := 0, runs := [] }

/-- A stream. -/
def strm (s : State) (n : Nat) : Strm := mget Strm.empty s.strs n

/-- Change a stream. -/
def updStrm (n : Nat) (f : Strm → Strm) (s : State) : State := { s with strs := mupd Strm.empty s.strs n f }

/-- The streams of one originator, by its home page (Table AR-2). -/
def originStreams (n : Nat) : List Nat :=
  if n < 0x10000 then (List.range 16).map (n / 16 * 16 + ·) else [n]

/-- The entries in use of the retention buffer that holds a stream's records (R15). -/
def occupancy (s : State) (n : Nat) : Nat := ((originStreams n).map fun m => (strm s m).recs.length).sum

/-- Positions that a pick takes in a block (R134). -/
def Pick.positions (p : Pick) : Nat := if p.typ = 0x0F then 2 else 1

/-! ### Reeds and adoption -/

/-- The Reed after Reed r (R13, R178). -/
def succReed (s : State) (r : Nat) : Nat := (r + 1) % s.inst.reeds

/-- The Reed before Reed r. -/
def predReed (s : State) (r : Nat) : Nat := (r + s.inst.reeds - 1) % s.inst.reeds

/-- No adoption. -/
def Adopt.idle : Adopt := { phase := .idle, todo := [], results := [], await := [], began := 0, scanning := [], unscanned := [], unserved := false }

/-- The adoption state of Reed r for its predecessor, or of the Hub's packer for 256. -/
def adopt (s : State) (w : Nat) : Adopt := mget Adopt.idle s.adopts w

/-- Change an adoption state. -/
def updAdopt (w : Nat) (f : Adopt → Adopt) (s : State) : State := { s with adopts := mupd Adopt.idle s.adopts w f }

/-- The adoption state of the successor of Reed r, which concerns Reed r's own bobbins. -/
def adoptedBy (s : State) (r : Nat) : Adopt := adopt s (succReed s r)

/-- The primary Reed of a Heddle and its position (R141, R142). -/
def primaryReed (s : State) (h : Nat) : Nat := h / s.inst.hpr
def hedPos (s : State) (h : Nat) : Nat := h % s.inst.hpr

/-- The writer of the bobbins of an owner, if any (R180 to R187): Reed r while it is ENABLED or drains and nothing is adopted, nor left
unserved by an adoption that was lost; its successor in SERVING and RETURNING; the Hub's packer while the Hub works and has rebuilt. -/
def bobWriter (s : State) (owner : Nat) : Option Nat :=
  if owner = 256 then
    (if isWorking s pgHub && (adopt s 256).phase == .idle then some 256 else none)
  else
    match (adoptedBy s owner).phase with
    | .idle => if isWorking s (pgReed owner) && !(adoptedBy s owner).unserved then some owner else none
    | .serving | .returning => some (succReed s owner)
    | _ => none

/-- The Reed that serves a Heddle, if any (R141). -/
def servingReed (s : State) (h : Nat) : Option Nat := bobWriter s (primaryReed s h)

/-! ### Routes -/

/-- The owner of the bobbin of a stream: a Reed, or the Hub as 256. -/
def strOwner (s : State) (n : Nat) : Nat :=
  if n < 0x10000 then primaryReed s (n / 16) else if n < 0x10100 then n - 0x10000 else 256

/-- The bobbin of a stream, as owner times 8 plus slot (R179, R191). -/
def strBob (s : State) (n : Nat) : Nat :=
  let o := strOwner s n
  if n < 0x10000 then
    let c := n % 16
    8 * o + regFld s (pgReed o) (0x180 + 8 * hedPos s (n / 16)) (4 * c + 2) (4 * c)
  else if n < 0x10100 then 8 * o + regFld s (pgReed o) 0x200 2 0
  else if n < 0x10160 then 8 * 256 + regFld s pgHub 0x140 2 0
  else if n = 0x10160 then 8 * 256 + regFld s pgHub 0x140 6 4
  else 8 * 256 + regFld s pgHub 0x140 10 8

/-- The delivery register of a writer: REED_DELIV or HUB_SVC_DELIV (R191). -/
def delivReg (s : State) (w : Nat) : Word := if w = 256 then regGet s pgHub 0x148 else regGet s (pgReed w) 0x140

/-! ### Runs -/

/-- A bobbin slot at reset. -/
def Bob.off : Bob :=
  { en := false, fault := false, full := false, latched := false, cfg := 0x3000000, base := 0, size := 0x3010, head := 0, write := 0,
    tail := 0, shadow := 0, shadowSent := 0, window := [], past := [], wraps := 0, heads := [], lastOld := none }

/-- A bobbin slot. -/
def bob (s : State) (b : Nat) : Bob := mget Bob.off s.bobs b

/-- Change a bobbin slot. -/
def updBob (b : Nat) (f : Bob → Bob) (s : State) : State := { s with bobs := mupd Bob.off s.bobs b f }

/-- Close a run, giving it the next place in the order of closing. -/
def closeLast (k : Nat) : List Run → List Run
  | [] => []
  | [r] => [if r.closed.isSome then r else { r with closed := some k }]
  | r :: rs => r :: closeLast k rs

/-- Close the open run of a stream (R171). -/
def closeRun (n : Nat) (s : State) : State :=
  match (strm s n).runs.getLast? with
  | none => s
  | some r =>
    if r.closed.isSome then s
    else { updStrm n (fun x => { x with runs := closeLast s.closes x.runs }) s with closes := s.closes + 1 }

/-- Append a record to the runs of its stream: to the last run while it has room, closed or not; a run of 15 positions is closed, and
so is a run of 14 that an error report does not fit (R171). -/
def growRuns (n pos flush : Nat) (s : State) : State :=
  let s1 := match (strm s n).runs.getLast? with
    | some r => if r.pos + pos ≤ 15 then s else closeRun n s
    | none => s
  let s2 := updStrm n (fun x =>
    match x.runs.getLast? with
    | some r =>
      if r.pos + pos ≤ 15 then { x with runs := x.runs.dropLast ++ [{ r with n := r.n + 1, pos := r.pos + pos }] }
      else { x with runs := x.runs ++ [{ n := 1, pos := pos, flush := flush, closed := none }] }
    | none => { x with runs := [{ n := 1, pos := pos, flush := flush, closed := none }] }) s1
  match (strm s2 n).runs.getLast? with
  | some r => if r.pos = 15 then closeRun n s2 else s2
  | none => s2

/-- The writer whose delivery register governs the runs of a stream. -/
def strWriter (s : State) (n : Nat) : Nat := (bobWriter s (strOwner s n)).getD (strOwner s n)

/-- Whether a bobbin's KIND matches a stream (R179). -/
def kindOk (s : State) (b n : Nat) : Bool := fld (bob s b).cfg 8 8 == (if n < 0x10000 then 0 else 1)

/-- Records that wait because their enabled bobbin's KIND does not match: their writer sets ROUTE_KIND (R179). -/
def noteKind (n : Nat) (s : State) : State :=
  let b := strBob s n
  if (bob s b).en && !kindOk s b n then setErr (pgWriter (strWriter s n)) 5 s else s

/-- Accept a record: it takes the stream's next sequence number and a retention entry (R7, R15, R135). -/
def acceptRec (n : Nat) (p : Pick) (s : State) : State :=
  let flush := fld (delivReg s (strWriter s n)) 20 16
  growRuns n p.positions flush
    (updStrm n (fun x => { x with next := x.next + 1, recs := x.recs ++ [⟨x.next, p, s.tim.raw, false⟩] }) (if (strm s n).recs.isEmpty then noteKind n s else s))

/-- Whether the retention buffer of a stream's originator has room (R16). -/
def hasRoom (s : State) (n : Nat) : Bool := occupancy s n < 64

/-- Form the runs of a stream afresh from all its records (R183 to R185). -/
def reformRuns (n : Nat) (s : State) : State :=
  let recs := (strm s n).recs
  let s0 := updStrm n (fun x => { x with runs := [], committed := 0, taken := 0 }) s
  recs.foldl (fun s r => growRuns n r.pick.positions (fld (delivReg s (strWriter s n)) 20 16) s) s0

end Sys2Proof.Machine
end

