-- ==== Sys2Proof/Machine/Seal.lean ====
section
/-! DEFINITION. Tenant slots, the sealing of blocks (R301, R304), keyed tags (R312), and the layout of blocks (Tables CT-4, DL-1,
DL-6). -/

namespace Sys2Proof.Machine

/-! ### Tenant slots -/

/-- A free slot. -/
def KSlot.empty : KSlot :=
  { st := .free, tenant := 0, gens := [], ktag := 0, scrubbed := false, cause := 0, tf := 0, scanHold := [], scanHeads := [],
    fenceRefused := 0, lateDrops := 0, scrubRetries := 0, refusedSince := 0, written := 0, drainRaw := 0, overdue := false,
    scrubBobs := [], scrubHeds := [], scrubBase := 0, scrubLog := 16, zeroed := 0, scanZeroed := 0, zeroNext := 0, zeroRedo := [], zeroAt := 0 }

/-- A tenant slot. -/
def kslot (s : State) (t : Nat) : KSlot := mget KSlot.empty s.key.slots t

/-- Change a tenant slot. -/
def updSlot (t : Nat) (f : KSlot → KSlot) (s : State) : State :=
  { s with key := { s.key with slots := mupd KSlot.empty s.key.slots t f } }

/-- Whether a slot is live (R299). -/
def KSlot.live (k : KSlot) : Bool := k.st == .active || k.st == .fencing || k.st == .draining

/-- The live generation with a number. -/
def KSlot.gen (k : KSlot) (g : BitVec 8) : Option Gen := k.gens.find? fun x => x.g == g

/-- The current generation's number; 0 none. -/
def KSlot.current (k : KSlot) : BitVec 8 := ((k.gens.head?).map (·.g)).getD 0

/-- CONF and TENANT of a latched bobbin configuration (Table DL-9). -/
def Bob.conf (x : Bob) : Bool := bit x.cfg 15
def Bob.tenant (x : Bob) : Nat := fld x.cfg 21 16
def Bob.fmt (x : Bob) : Nat := fld x.cfg 26 24
def Bob.slots (x : Bob) : Nat := 2 ^ (fld x.size 5 0 - 9)

/-- The tenant slot that a bobbin is latched with, if it is confidential. -/
def bobSlot (s : State) (b : Nat) : Option Nat := if (bob s b).latched && (bob s b).conf then some (bob s b).tenant else none

/-- The tenant slot that a Heddle names with CONF 1 (R262). -/
def hedSlot (s : State) (h : Nat) : Option Nat :=
  if regBit s (pgHed h) 0x180 6 then some (regFld s (pgHed h) 0x180 5 0) else none

/-- Whether a Heddle is bound (R311), and to which slot. -/
def hedBound (s : State) (h : Nat) : Option Nat :=
  match hedSlot s h with
  | some t => if (kslot s t).st == .active then some t else none
  | none => none

/-- Take the next nonce head of a generation of a slot (R304). -/
def takeHead (t : Nat) (g : BitVec 8) (s : State) : BitVec 32 × State :=
  let h := (((kslot s t).gen g).map (·.nextHead)).getD 0
  (h, updSlot t (fun k => { k with gens := k.gens.map fun x => if x.g == g then { x with nextHead := x.nextHead + 1 } else x }) s)

/-! ### Keyed tags (R312) -/

/-- One round of the Feistel permutation. -/
def tagRound (key : BitVec 256) (kind h j : Nat) (lr : Nat × Nat) : Nat × Nat :=
  let blk := bytesLE 1 kind ++ bytesLE 1 j ++ bytesLE 6 lr.2 ++ List.replicate 8 0
  let f := natLE (aes256 key blk) % 2 ^ h
  (lr.2, lr.1 ^^^ f)

/-- The keyed tag of an identifier of w bits. -/
def keyedTag (key : BitVec 256) (x kind w : Nat) : Nat :=
  let h := w / 2
  let lr := [0, 1, 2, 3].foldl (fun lr j => tagRound key kind h j lr) (x / 2 ^ h % 2 ^ h, x % 2 ^ h)
  lr.1 * 2 ^ h + lr.2

/-! ### Blocks -/

/-- Bytes [a, a + n) of a block as a number. -/
def blkBytes (b : Block) (a n : Nat) : Nat := b.toNat / 256 ^ a % 256 ^ n

/-- The sealed form of a block: bytes 0-15 authenticated, 32-511 encrypted, the tag in 16-31 (R304). -/
def sealBlock (key : BitVec 256) (nonce : Nat) (b : Block) : Block :=
  let r := gcmSeal key nonce (bytesLE 16 (blkBytes b 0 16)) (bytesLE 480 (blkBytes b 32 480))
  BitVec.ofNat 4096 (blkBytes b 0 16 + natLE r.2 * 256 ^ 16 + natLE r.1 * 256 ^ 32)

/-- The plaintext form of a sealed block, if its tag verifies. -/
def openBlock (key : BitVec 256) (nonce : Nat) (b : Block) : Option Block :=
  match gcmOpen key nonce (bytesLE 16 (blkBytes b 0 16)) (bytesLE 480 (blkBytes b 32 480)) (bytesLE 16 (blkBytes b 16 16)) with
  | some p => some (BitVec.ofNat 4096 (blkBytes b 0 32 + natLE p * 256 ^ 32))
  | none => none

/-- The nonce of a bobbin block (R304): head, 48-bit index, zeros. -/
def bobNonce (head : BitVec 32) (idx48 : Nat) : Nat := head.toNat * 2 ^ 64 + idx48 % 2 ^ 48 * 2 ^ 16

/-- The 48-bit index of an index near WRITE (R304). -/
def bobIdx48 (x : Bob) (idx : BitVec 32) : Nat :=
  let w : Int := x.wraps.toNat * 2 ^ 32 + x.write.toNat
  (w + signedN 32 (idx - x.write).toNat).toNat

/-- The flags of a record as a block of a format carries them (Table DL-6). -/
def fmtFlags (fmt : Nat) (r : Rec) : Nat :=
  let f := r.pick.flags.toNat + (if r.replay && !r.pick.flags.getLsbD 4 then 16 else 0)
  if fmt = 1 then f - fieldN f 4 4 * 16 - fieldN f 6 6 * 64 else f

/-- The payload of a record as a block of a format carries it: a compiled span has a 32-bit duration before version 3 (Table DL-6). -/
def fmtPayload (fmt : Nat) (p : Pick) : Nat :=
  let v := p.payload.toNat
  if fmt < 3 && p.typ = 0x01 && !p.flags.getLsbD 7 then
    let d := fieldN v 103 64
    v - d * 2 ^ 64 + min d 0xFFFFFFFF * 2 ^ 64
  else v

/-- The bytes of a record at its position or positions (Table CT-4), as a number. -/
def recBytes (fmt n : Nat) (r : Rec) : Nat :=
  let v := r.pick.typ.toNat + fmtFlags fmt r * 2 ^ 8 + n % 65536 * 2 ^ 16 + r.seq.toNat * 2 ^ 32 + r.pick.stamp.toNat * 2 ^ 64 +
    fmtPayload fmt r.pick * 2 ^ 128
  if r.pick.typ = 0x0F then v + r.pick.ext.toNat * 2 ^ 256 else v

/-- Records laid out one after another. -/
def layRecs (fmt n : Nat) : List Rec → Nat
  | [] => 0
  | r :: rs => recBytes fmt n r + layRecs fmt n rs * 256 ^ (32 * r.pick.positions)

/-- A block of a bobbin before it is sealed (Table DL-1); a void for no records. -/
def plainBlock (x : Bob) (idx : BitVec 32) (gen : BitVec 8) (adopted : Bool) (n : Nat) (pos : Nat) (recs : List Rec) : Block :=
  let svc := fld x.cfg 8 8
  let first := ((recs.head?).map (·.seq.toNat)).getD 0
  let last := ((recs.getLast?).map (·.seq.toNat)).getD 0
  let hdr := pack [(0, 16, 0xF31B), (16, 8, x.fmt), (24, 8, gen.toNat), (32, 10, fld x.cfg 41 32), (42, 6, idx.toNat / x.slots),
    (48, 4, pos), (52, 1, bn recs.isEmpty), (53, 1, svc), (54, 1, bn adopted), (64, 32, first), (96, 32, last)]
  BitVec.ofNat 4096 (hdr + layRecs x.fmt n recs * 256 ^ 32)

/-- The nonce head that a bobbin took for a generation of a slot. -/
def Bob.headOf (x : Bob) (t : Nat) (g : BitVec 8) : Option BobHead := x.heads.find? fun e => e.slot == t && e.gen == g

/-- The block that a bobbin's slot is written with: sealed under the current generation for a confidential bobbin, which takes a nonce
head for its first block of a generation (R303, R304). -/
def bobBlock (b : Nat) (idx : BitVec 32) (adopted : Bool) (n pos : Nat) (recs : List Rec) (s : State) : Block × State :=
  let x := bob s b
  if !x.conf then (plainBlock x idx 0 adopted n pos recs, s)
  else
    let t := x.tenant
    let g := (kslot s t).current
    let (head, s1) := match x.headOf t g with
      | some e => (e.head, s)
      | none => takeHead t g s
    let keep := x.heads.filter fun e => e.slot == t && ((kslot s t).gen e.gen).isSome && e.gen != g
    let used := ((x.headOf t g).map (·.blocks)).getD 0
    let s2 := updBob b (fun x => { x with heads := ⟨t, g, head, used + 1⟩ :: keep }) s1
    match (kslot s t).gen g with
    | some gn => (sealBlock gn.enc (bobNonce head (bobIdx48 x idx)) (plainBlock x idx g adopted n pos recs), s2)
    | none => (plainBlock x idx g adopted n pos recs, s2)

/-- What a slot read back during a rebuild holds (R182, sequences compared as R135 gives): the stream and committed-sequence word of a stored block of this bobbin. -/
def storedIn (s : State) (b : Nat) (idx : BitVec 32) (blk : Block) : Option (Nat × BitVec 32) :=
  let x := bob s b
  let f := fun hi lo => fieldN blk.toNat hi lo
  if f 15 0 = 0xF31B && f 41 32 = fld x.cfg 41 32 && f 47 42 = idx.toNat / x.slots % 64 && f 52 52 = 0 && 1 ≤ f 51 48 &&
      f 51 48 ≤ 15 && !before32 (BitVec.ofNat 32 (f 127 96)) (BitVec.ofNat 32 (f 95 64)) then
    let plain := if x.conf then
        match (kslot s x.tenant).gen (BitVec.ofNat 8 (f 31 24)), x.headOf x.tenant (BitVec.ofNat 8 (f 31 24)) with
        | some gn, some e => openBlock gn.enc (bobNonce e.head (bobIdx48 x idx)) blk
        | _, _ => none
      else some blk
    match plain with
    | some p => some (f 53 53 * 65536 + blkBytes p 34 2, BitVec.ofNat 32 (f 127 96))
    | none => none
  else none

end Sys2Proof.Machine
end

