-- ==== Sys2Proof/Machine/Deliver.lean ====
section
/-! DEFINITION. Delivery to bobbins (spec/08_delivery.md): closing and issuing blocks, completions, release, HEAD and its shadow, and
re-homing. -/

namespace Sys2Proof.Machine

/-! ### Write ports -/

/-- A write port with nothing outstanding. -/
def WPort.idle : WPort := { tags := [], recorded := [], drain := 0 }

/-- A write port: a Reed's, or the Hub's service port as 256. -/
def wport (s : State) (w : Nat) : WPort := mget WPort.idle s.wports w

/-- Change a write port. -/
def updPort (w : Nat) (f : WPort → WPort) (s : State) : State := { s with wports := mupd WPort.idle s.wports w f }

/-- The lowest tag not in use (R32). -/
def freeTag (s : State) (w : Nat) : Option Nat := (List.range 16).find? fun t => (mfind (wport s w).tags t).isNone

/-- How many ring blocks and scan blocks a slot's scrub covers (R309). -/
def scrubRing (s : State) (k : KSlot) : Nat := (k.scrubBobs.map fun b => (bob s b).slots).sum
def scrubScan (k : KSlot) : Nat := k.scrubHeds.length * 2 ^ (k.scrubLog - 9)

/-- The address of block n of some rings, one after the other. -/
def ringAddr (s : State) : List Nat → Nat → Nat
  | [], _ => 0
  | b :: bs, n => if n < (bob s b).slots then (bob s b).base.toNat + 512 * n else ringAddr s bs (n - (bob s b).slots)

/-- The address of zero block n of a slot's scrub: the rings, then the scan areas (R309). -/
def zeroAddr (s : State) (t n : Nat) : Nat :=
  let k := kslot s t
  if n < scrubRing s k then ringAddr s k.scrubBobs n
  else
    let m := n - scrubRing s k
    k.scrubBase + (k.scrubHeds.getD (m / 2 ^ (k.scrubLog - 9)) 0) * 2 ^ k.scrubLog + 512 * (m % 2 ^ (k.scrubLog - 9))

/-- Where a block is written: a bobbin's slot (R175; one of before its indices were set to 0 is never sent again), a scan or snag block in the areas latched for the stop (R256, R257), the place of a zero
block (R309), the place that firmware named (R319). -/
def blkAddr (s : State) : BlkRef → Nat
  | .bob b idx => (bob s b).base.toNat + 512 * (idx.toNat % (bob s b).slots)
  | .past b _ => (bob s b).base.toNat
  | .scan h n => s.stop.scanBase.toNat + h * 2 ^ s.stop.scanLog + 512 * n
  | .snag n => s.stop.snagBase.toNat + 512 * n
  | .zero b n => zeroAddr s b n
  | .fw => (s.fw.bufOut).getD 0

/-- Give a block to a write port under a free tag. -/
def sendBlock (w tag : Nat) (ref : BlkRef) (s : State) : State :=
  updPort w (fun p => { p with tags := mins p.tags tag ⟨ref, blkAddr s ref, s.tim.raw, false⟩ }) s

/-- Whether a port may start a new block: not while its part is disabled or in part reset (R34). -/
def portOpen (s : State) (w : Nat) : Bool := isWorking s (pgWriter w)

/-- Whether a port has a block outstanding (R181). -/
def portBusy (s : State) (w : Nat) : Bool := (wport s w).tags.any fun e => !e.2.late

/-! ### Bobbins -/

/-- The index distance b - a modulo 2^32. -/
def idxDist (a b : BitVec 32) : Nat := (b - a).toNat

/-- WRITE - TAIL. -/
def Bob.fill (x : Bob) : Nat := idxDist x.tail x.write

/-- Whether a bobbin may overwrite its oldest delivered block: wrap mode, or the fence of its slot (R176, R308). -/
def bobWraps (s : State) (b : Nat) : Bool :=
  bit (bob s b).cfg 4 || (match bobSlot s b with
    | some t => (kslot s t).st == .fencing
    | none => false)

/-- A claimed slot that waits to be issued, the first one. -/
def waitingSlot (x : Bob) : Option Slot := x.window.find? fun e => e.st == .waiting

/-- Whether a confidential bobbin has a key to be sealed under. -/
def keyOk (s : State) (b : Nat) : Bool :=
  match bobSlot s b with
  | some t => !(kslot s t).gens.isEmpty
  | none => true

/-- The adoption work that a bobbin's slots are read for: that of its owner's successor, or of the Hub's packer. -/
def scanHolder (s : State) (b : Nat) : Adopt := if b / 8 = 256 then adopt s 256 else adoptedBy s (b / 8)

/-- Whether a scan is to judge, or is judging, what a bobbin's slots hold (R181, R182). -/
def beingScanned (s : State) (b : Nat) : Bool := (scanHolder s b).scanning.contains b

/-- Whether a block of a bobbin is at a write port within its deadline: what is stored of it is not settled (R181). -/
def blockOut (s : State) (b : Nat) : Bool :=
  [b / 8, succReed s (b / 8)].any fun w => (wport s w).tags.any fun e => !e.2.late && (match e.2.ref with
    | .bob c _ => c == b
    | _ => false)

/-- The conditions of R171 on a bobbin for a new claim, its ring's room aside. -/
def claimOk (s : State) (b : Nat) : Bool :=
  let x := bob s b
  x.en && !x.fault && !beingScanned s b && (waitingSlot x).isNone && keyOk s b && idxDist x.shadow x.write + 1 < 32

/-- Whether a bobbin's ring has no free slot. -/
def ringFull (s : State) (b : Nat) : Bool := (bob s b).slots ≤ (bob s b).fill

/-- The bobbins that a writer writes (R184, R187). -/
def writerBobs (s : State) (w : Nat) : List Nat :=
  let own := [0, 1, 2, 3, 4, 5, 6, 7].map (8 * w + ·)
  let adopted := if w = 256 then [] else [0, 1, 2, 3, 4, 5, 6, 7].map (8 * predReed s w + ·)
  (own ++ adopted).filter fun b => bobWriter s (b / 8) == some w

/-- Whether a stream's retained run is still to be reported to the writer that rebuilt (R184). -/
def awaited (s : State) (w n : Nat) : Bool := (adopt s w).await.any fun e => e.1 == n

/-- Closed runs that only their bobbin may hold back, as (order of closing, stream): in QUIESCING those that had closed at the DISABLE, for
new work is refused (R71, R180). -/
def closedRuns (s : State) (w : Nat) : List (Nat × Nat) :=
  let bs := writerBobs s w
  let late := fun (k : Nat) => pst s (pgWriter w) == .quiescing && decide ((wport s w).drain ≤ k)
  s.strs.filterMap fun (n, x) =>
    match x.runs.head? with
    | some r =>
      match r.closed with
      | some k => if x.taken = 0 && !late k && bs.contains (strBob s n) && !awaited s w n then some (k, n) else none
      | none => none
    | none => none

/-- Insert by the order of closing. -/
def insertRun (e : Nat × Nat) : List (Nat × Nat) → List (Nat × Nat)
  | [] => [e]
  | f :: l => if e.1 ≤ f.1 then e :: f :: l else f :: insertRun e l

/-- Closed runs in the order they closed. -/
def runsInOrder (s : State) (w : Nat) : List Nat := ((closedRuns s w).foldr insertRun []).map (·.2)

/-- Whether a block that a writer writes to a bobbin carries ADOPTED (Table DL-1). -/
def carriesAdopted (w b : Nat) (replay void : Bool) : Bool := if w = 256 then replay || void else b / 8 != w

/-- Raise source 18 where WRITE - TAIL has just risen to FILL x slots / 64 (R176). -/
def fillEvent (b : Nat) (s : State) : State :=
  let x := bob s b
  if x.fill = fld x.size 15 8 * x.slots / 64 then raise 18 s else s

/-- Count a block written for a slot in FENCING or DRAINING (Table TK-6). -/
def countFenced (b : Nat) (s : State) : State :=
  match bobSlot s b with
  | some t => if (kslot s t).st == .fencing || (kslot s t).st == .draining then updSlot t (fun k => { k with written := k.written + 1 }) s else s
  | none => s

/-- Claim the next index of a bobbin for a block (R175, R176). -/
def claimIdx (b : Nat) (mk : BitVec 32 → Slot) (s : State) : State :=
  let x := bob s b
  let s1 := if x.slots ≤ x.fill then
      bump (updBob b (fun x => { x with tail := x.write - BitVec.ofNat 32 x.slots + 1 }) s) (pgWriter (b / 8))
        ((if b / 8 = 256 then 0xC30 else 0x830) + 0x40 * (b % 8)) 63 32 1
    else s
  let s2 := updBob b (fun x =>
    { x with
      window := x.window ++ [mk x.write], write := x.write + 1,
      wraps := if x.write = 0xFFFFFFFF then x.wraps + 1 else x.wraps }) s1
  fillEvent b s2

/-- The offset of BOB_COUNTS of a bobbin on its owner's page. -/
def bobCounts (b : Nat) : Nat := (if b / 8 = 256 then 0xC30 else 0x830) + 0x40 * (b % 8)

/-- Issue the first closed run of a stream to its bobbin (R169 to R171, R184). -/
def issueRun (w n tag : Nat) (s : State) : State :=
  let b := strBob s n
  let st := strm s n
  match st.runs with
  | [] => s
  | r :: rest =>
    let recs := (st.recs.drop st.committed).take r.n
    let idx := (bob s b).write
    let replays := (recs.filter (·.replay)).length
    let (blk, s1) := bobBlock b idx (carriesAdopted w b (replays != 0) false) n r.pos recs s
    let last := ((recs.getLast?).map (·.seq)).getD 0
    let s2 := claimIdx b (fun i => ⟨i, some n, last, r.n, blk, 0, true, .outstanding, fld (delivReg s w) 11 8⟩) s1
    let s3 := updStrm n (fun x => { x with taken := r.n, runs := rest }) s2
    let s4 := sendBlock w tag (.bob b idx) s3
    let s5 := if w = 256 || replays = 0 then s4 else bump s4 (pgReed w) 0x150 63 32 replays
    countFenced b { s5 with exempt := s5.exempt + (15 - r.pos) }

/-- Issue a claimed slot again, or for the first time for a void of a rebuild, which is sealed then (R172, R183, R303). -/
def issueSlot (w b tag : Nat) (e : Slot) (s : State) : State :=
  let (blk, s0) := if e.sent then (e.blk, s) else bobBlock b e.idx (carriesAdopted w b false true) 0 0 [] s
  let s1 := updBob b (fun x =>
    { x with
      window := x.window.map fun y =>
        if y.idx == e.idx then
          { y with st := .outstanding, blk := blk, sent := true, limit := if y.sent then y.limit else fld (delivReg s w) 11 8 }
        else y }) s0
  let s2 := sendBlock w tag (.bob b e.idx) s1
  let s3 := if w = 256 then s2
    else if e.sent then bump s2 (pgReed w) 0x158 31 16 1
    else if e.stream.isNone then bump s2 (pgReed w) 0x158 15 0 1 else s2
  if e.sent then s3 else countFenced b { s3 with exempt := s3.exempt + (if e.stream.isNone then 15 else 0) }

/-- An issue that finds a stop-on-full ring full (R176). -/
def noteFull (b : Nat) (s : State) : State :=
  if claimOk s b && ringFull s b && !bobWraps s b && !(bob s b).full then
    bump (updBob b (fun x => { x with full := true }) s) (pgWriter (b / 8)) (bobCounts b) 31 16 1
  else s

/-- Go through closed runs in their order and issue the first whose conditions hold. -/
def issueFirst (w tag : Nat) : List Nat → State → State
  | [], s => s
  | n :: ns, s =>
    let b := strBob s n
    if claimOk s b && kindOk s b n && (!ringFull s b || bobWraps s b) then issueRun w n tag s
    else issueFirst w tag ns ((if regBit s (pgWriter w) 0x28 5 then noteFull b s else noteKind n (noteFull b s)))

/-- The next block of a writer: a claimed slot of a bobbin not in FAULT before anything else of that bobbin, then the closed run whose
conditions hold that closed first (R171, R172, R183). -/
def issueNext (w : Nat) (s : State) : State :=
  if !portOpen s w then s
  else
    match freeTag s w with
    | none => s
    | some tag =>
      let waiting := (writerBobs s w).filterMap fun b =>
        if (bob s b).fault || beingScanned s b || !keyOk s b then none else (waitingSlot (bob s b)).map fun e => (b, e)
      match waiting.head? with
      | some (b, e) => issueSlot w b tag e s
      | none => issueFirst w tag (runsInOrder s w) s

/-! ### Completion, release, HEAD -/

/-- Whether a bobbin's HEAD has no shadow to wait for: the Hub's, and an adopted one, which its adopter keeps itself (R178, R187). -/
def ownShadow (s : State) (b : Nat) : Bool := b / 8 == 256 || (adoptedBy s (b / 8)).phase != .idle

/-- Advance HEAD past the leading slots that are released or void and stored, and send it to the shadow (R173). -/
def advanceHead (b : Nat) (s : State) : State :=
  let k := ((bob s b).window.takeWhile fun e => e.st == .released).length
  if k = 0 then s
  else
    updBob b (fun x =>
      let h := x.head + BitVec.ofNat 32 k
      { x with
        window := x.window.drop k, head := h, shadowSent := h,
        shadow := if ownShadow s b then h else x.shadow }) s

/-- A bobbin enters FAULT (R172, R182): BOB_FAULT on the page of its writer or owner, source 19. -/
def faultBob (b page : Nat) (s : State) : State :=
  if (bob s b).fault then s
  else raise 19 (setErr page 2 (bump (updBob b (fun x => { x with fault := true }) s) (pgWriter (b / 8)) (bobCounts b) 15 0 1))

/-- The records of a stream's block that is not stored wait again, before the stream's other runs. -/
def requeue (n : Nat) (s : State) : State :=
  updStrm n (fun x =>
    if x.taken = 0 then x
    else
      let recs := (x.recs.drop x.committed).take x.taken
      { x with taken := 0, runs := ⟨x.taken, (recs.map fun r => r.pick.positions).sum, 0, some 0⟩ :: x.runs }) s

/-- The records of a stream's block are committed. -/
def commitTaken (n : Nat) (s : State) : State := updStrm n (fun x => { x with committed := x.committed + x.taken, taken := 0 }) s

/-- A block that was outstanding when its bobbin's indices were set to 0 has completed OK, or is not stored (R170, R175): its records are
committed, or they wait for a block of the ring in force (notes/assumptions 78). -/
def completePast (b : Nat) (str : Option Nat) (ok : Bool) (s : State) : State :=
  match (bob s b).past.find? fun e => e.stream == str && e.st == .outstanding with
  | none => s
  | some e =>
    let s1 := updBob b (fun x =>
      { x with
        past := if ok then x.past.map fun y => if y == e then { y with st := .stored } else y else x.past.filter (· != e) }) s
    match e.stream with
    | some n => if ok then commitTaken n s1 else requeue n s1
    | none => s1

/-- A block of a bobbin that has completed OK, or that is not stored (R172, R173); a scan judges those of a bobbin that it reads (R181). -/
def completeBob (w b : Nat) (idx : BitVec 32) (ok : Bool) (s : State) : State :=
  match (bob s b).window.find? fun e => e.idx == idx with
  | none => s
  | some e =>
    let put := fun (f : Slot → Slot) (s : State) =>
      updBob b (fun x => { x with window := x.window.map fun y => if y.idx == idx then f y else y }) s
    if e.st != .outstanding || beingScanned s b then s
    else if ok then
      match e.stream with
      | none => advanceHead b (put (fun y => { y with st := .released }) s)
      | some n =>
        commitTaken n (put (fun y => { y with st := .stored }) s)
    else if e.tries < e.limit then put (fun y => { y with st := .waiting, tries := y.tries + 1 }) s
    else faultBob b (pgWriter w) (put (fun y => { y with st := .waiting, tries := 0 }) s)

/-- Whether the retained run of a stream has still to be reported since a bobbin was rebuilt (R184). -/
def unreported (s : State) (b : Nat) (n : Option Nat) : Bool := (scanHolder s b).await.any fun e => some e.1 == n

/-- The stored block of a bobbin whose records are released next: one of before its indices were set to 0, else the oldest; what a rebuild
found stored is released by the report of its stream's retained run (R173, R184). -/
def releasing (s : State) (b : Nat) : Option Slot :=
  match (bob s b).past.find? fun e => e.st == .stored with
  | some e => some e
  | none => (bob s b).window.find? fun e => e.st == .stored && !unreported s b e.stream

/-- The originator has released the records of a stored block of a bobbin and acknowledges it (R173). -/
def releaseBob (b : Nat) (s : State) : State :=
  match releasing s b with
  | none => s
  | some e =>
    let s1 := updBob b (fun x =>
      if x.past.contains e then { x with past := x.past.filter (· != e) }
      else { x with window := x.window.map fun y => if y.idx == e.idx then { y with st := .released } else y }) s
    let s2 := match e.stream with
      | some n => updStrm n (fun x => { x with recs := x.recs.drop e.n, committed := x.committed - e.n }) s1
      | none => s1
    advanceHead b s2

/-- The successor acknowledges the HEAD sent to its shadow (R173, R178); once it has taken its shadows they stand. -/
def shadowAck (b : Nat) (s : State) : State :=
  if b / 8 != 256 && (adoptedBy s (b / 8)).phase != .idle then s else updBob b (fun x => { x with shadow := x.shadowSent }) s

/-- Whether completions of a port are only recorded: its part is in part reset or FAILED (R34, R174). -/
def portRecords (s : State) (w : Nat) : Bool := let p := pst s (pgWriter w); p == .resetting || p == .failed || p == .retired

/-! ### Closing -/

/-- The streams with an open run that go to some bobbins. -/
def openStreams (s : State) (bs : List Nat) : List Nat :=
  (s.strs.filter fun (n, x) => bs.contains (strBob s n) && (match x.runs.getLast? with
    | some r => r.closed.isNone
    | none => false)).map (·.1)

/-- Close every open run of some bobbins (R171). -/
def closeBobs (bs : List Nat) (s : State) : State := (openStreams s bs).foldl (fun s n => closeRun n s) s

/-- The bobbin slots of an owner. -/
def ownerBobs (o : Nat) : List Nat := [0, 1, 2, 3, 4, 5, 6, 7].map (8 * o + ·)

/-! ### Re-homing -/

/-- The entries of a Heddle lose the identifiers that stood in the Reed: those with a slot there, and open light ones (R141, Table CT-3). -/
def loseIds (h : Nat) (s : State) : State :=
  match mfind s.heds h with
  | none => s
  | some x =>
    let mine := fun (e : Ent) => e.full || e.st != .retired
    let lost := (x.ents.filter fun e => mine e && !e.noIds).length
    if lost = 0 then s
    else
      let s1 := { s with heds := mins s.heds h { x with ents := x.ents.map fun e => if mine e then { e with noIds := true } else e } }
      setErr (pgHed h) 5 (bump s1 (pgHed h) 0x80 15 0 lost)

/-- The Heddles of a primary Reed. -/
def reedHeds (s : State) (r : Nat) : List Nat := (List.range s.inst.hpr).map (s.inst.hpr * r + ·)

/-- Record the entry of adopter a to SERVING (REED_REHOME, Table DL-8) and raise source 20. -/
def enterServing (a : Nat) (s : State) : State :=
  let s1 := count s (pgReed a) 0x160 63 48 1
  raise 20 (regSetFld s1 (pgReed a) 0x160 47 0 (hubBeam s1))

/-- Forget reads of the memory read port: those that wait, and the results of those outstanding. -/
def dropReads (p : ReadFor → Bool) (s : State) : State :=
  { s with
    rport := { s.rport with
      waiting := s.rport.waiting.filter fun (e : ReadFor × BitVec 48) => !p e.1,
      tags := s.rport.tags.map fun (e : Nat × ReadUse) => if p e.2.what then (e.1, { e.2 with what := .dropped }) else e } }

/-- Whether a read is one of a scan by a writer, of any bobbin or of one. -/
def scanOf (a : Nat) (b : Option Nat) : ReadFor → Bool
  | .scan v c _ _ => v == a && (b.isNone || b == some c)
  | _ => false

/-- Read the 32 slots from a bobbin's shadow HEAD (R182): the window is forgotten, and HEAD and WRITE stand at the shadow. -/
def beginScan (a b : Nat) (s : State) : State :=
  let s1 := updBob b (fun x =>
    { x with
      window := [], head := x.shadow, write := x.shadow, shadowSent := x.shadow,
      wraps := if x.write.toNat < x.shadow.toNat then x.wraps - 1 else x.wraps }) s
  updAdopt a (fun x =>
    { x with
      todo := x.todo ++ (List.range 32).map (fun i => (b, i, 0)), scanning := addOnce x.scanning b,
      unscanned := x.unscanned.filter (· != b) }) s1

/-- The adopter a goes back to IDLE because it leaves ENABLED (Table DL-3, last row): a predecessor that is at work serves none of its Heddles
until it is next enabled (notes/assumptions 79). -/
def dropAdoption (a : Nat) (s : State) : State :=
  if (adopt s a).phase == .idle then s
  else
    let r := predReed s a
    let s1 := (ownerBobs r).foldl (fun s b =>
      if (bob s b).en && !(bob s b).fault then bump (updBob b (fun x => { x with fault := true }) s) (pgReed r) (bobCounts b) 15 0 1 else s) s
    let s2 := (reedHeds s r).foldl (fun s h => loseIds h s) s1
    setErr (pgReed r) 3 (updAdopt a (fun _ => { Adopt.idle with unserved := isWorking s (pgReed r) }) (dropReads (scanOf a none) s2))

/-- Records that waited at one writer pass to another: their runs are formed afresh where the writer had no block of theirs. -/
def handOver (r : Nat) (s : State) : State :=
  ((s.strs.map (·.1)).filter fun n => n < 0x10100 && strOwner s n == r && (strm s n).taken = 0 && (strm s n).committed = 0).foldl
    (fun s n => reformRuns n s) s

/-- Adopter a takes the shadows of an owner's bobbins and waits for its port: the enabled bobbins that are not in FAULT are to be scanned (R181,
R182). -/
def awaitPort (a o : Nat) (s : State) : State :=
  updAdopt a (fun _ =>
    { Adopt.idle with
      phase := .waitPort, began := s.tim.raw, scanning := (ownerBobs o).filter fun b => (bob s b).en && !(bob s b).fault }) s

/-- Start the re-homing of Reed r (R180, Table DL-3), after a DISABLE drain or because the Reed is in reset or lost. -/
def startRehome (r : Nat) (drained : Bool) (s : State) : State :=
  let a := succReed s r
  match (adopt s a).phase with
  | .returning => updAdopt a (fun x => { x with phase := .serving }) s
  | .idle =>
    if !isEnabled s (pgReed a) then setErr (pgReed r) 3 s
    else if drained then
      let s2 := (ownerBobs r).foldl (fun s b => updBob b (fun x => { x with shadow := x.head, shadowSent := x.head }) s) s
      enterServing a (handOver r (updAdopt a (fun _ => { Adopt.idle with phase := .serving, began := s.tim.raw }) s2))
    else awaitPort a r s
  | _ => s

/-- The predecessor's port, or the Hub's own, has no block outstanding: the scan begins (R181, R182). -/
def portIdle (a : Nat) (s : State) : State :=
  let r := if a = 256 then 256 else predReed s a
  if (adopt s a).phase == .waitPort && !portBusy s r then
    let rec_ := (wport s r).recorded
    let s0 := updPort r (fun p => { p with recorded := p.recorded.filter fun e => match e.1 with
      | .bob _ _ => false
      | .past _ _ => false
      | _ => true }) s
    -- what is scanned is judged by the scan; the recorded completions settle the rest (R174, R181)
    let s1 := rec_.foldl (fun s e => match e.1 with
      | .bob b idx => completeBob r b idx e.2 s
      | .past b n => completePast b n e.2 s
      | _ => s) s0
    let scans := (adopt s a).scanning
    let idle := (ownerBobs r).filter fun b => (bob s b).en && !scans.contains b
    let s2 := updAdopt a (fun x => { x with phase := .scan, unscanned := if a = 256 then idle else [] }) s1
    scans.foldl (fun s b => beginScan a b s) s2
  else s

/-- A read of a scan has ended: its slot's content is judged, or the read is repeated, or the bobbin enters FAULT (R182). -/
def scanRead (a b off tries : Nat) (blk : Option Block) (s : State) : State :=
  match blk with
  | some d =>
    let idx := (bob s b).shadow + BitVec.ofNat 32 off
    updAdopt a (fun x => { x with results := x.results ++ [⟨b, idx, storedIn s b idx d⟩] }) s
  | none =>
    if tries < fld (delivReg s a) 11 8 then updAdopt a (fun x => { x with todo := x.todo ++ [(b, off, tries + 1)] }) s
    else
      let s1 := updAdopt a (fun x =>
        { x with
          todo := x.todo.filter (fun e => e.1 != b), results := x.results.filter (fun e => e.bob != b),
          scanning := x.scanning.filter (· != b), unscanned := if a = 256 then addOnce x.unscanned b else [] }) s
      faultBob b (pgWriter (b / 8)) (setErr (pgWriter (b / 8)) 4 (dropReads (scanOf a (some b)) s1))

/-- The later of two committed-sequence words, of those that there are. -/
def laterWord (a b : Option (BitVec 32)) : Option (BitVec 32) :=
  match a, b with
  | some v, some w => if before32 v w then some w else some v
  | some v, none => some v
  | none, w => w

/-- The stored committed-sequence word of a stream among scanned slots: that of the highest sequence (R183). -/
def storedWord (rs : List Scanned) (n : Nat) : Option (BitVec 32) :=
  rs.foldl (fun acc e =>
    match e.stored with
    | some (m, w) => if m = n then laterWord acc (some w) else acc
    | none => acc) none

/-- Claim a void for a hole of a rebuild, or keep a stored block, released unless its stream's retained run is to be reported (R183, R184). -/
def rebuildSlot (ns : List Nat) (b : Nat) (e : Scanned) (s : State) : State :=
  let y : Slot := match e.stored with
    | some (n, w) => ⟨e.idx, some n, w, 0, 0, 0, true, if ns.contains n then .stored else .released, 0⟩
    | none => ⟨e.idx, none, 0, 0, 0, 0, false, .waiting, 0⟩
  updBob b (fun x => { x with window := x.window ++ [y] }) s

/-- Whether a block of a stream is in a slot that no scan has judged: outstanding, to be issued again, or stored and not released. -/
def strHeld (s : State) (n : Nat) : Bool :=
  s.bobs.any fun e => (e.2.past ++ e.2.window).any fun y => y.stream == some n && y.n != 0 && y.st != .released

/-- The streams whose retained runs a rebuild of some bobbins of an owner needs (R184): those with records that go to these bobbins, or that
had blocks in them. -/
def rebuiltStreams (s : State) (o : Nat) (bs : List Nat) : List Nat :=
  (s.strs.filter fun (n, y) =>
    !y.recs.isEmpty && !strHeld s n && (bs.contains (strBob s n) || (strOwner s n == o && y.committed + y.taken != 0))).map (·.1)

/-- Set WRITE one past the highest stored index and put a void into each hole before it (R183). -/
def rebuildBob (a : Nat) (ns : List Nat) (b : Nat) (s : State) : State :=
  let rs := (adopt s a).results.filter fun e => e.bob == b
  let h := (bob s b).shadow
  let top := rs.foldl (fun m e => if e.stored.isSome then max m (idxDist h e.idx + 1) else m) 0
  let s1 := (List.range top).foldl (fun s i =>
    match rs.find? fun e => idxDist h e.idx == i with
    | some e => rebuildSlot ns b e s
    | none => s) s
  advanceHead b (updBob b (fun x =>
    { x with
      write := h + BitVec.ofNat 32 top,
      wraps := if (h + BitVec.ofNat 32 top).toNat < h.toNat then x.wraps + 1 else x.wraps }) s1)

/-- Reed r is ENABLED, in SERVING or before it: its successor, if it serves for it, begins the hand-back (Table DL-3). -/
def beginReturn (r : Nat) (s : State) : State :=
  let a := succReed s r
  if (adopt s a).phase == .serving && isEnabled s (pgReed r) then
    closeBobs (ownerBobs r) (updAdopt a (fun x => { x with phase := .returning }) s)
  else s

/-- Every read of a scan is done: the bobbins are rebuilt and each stream's retained run is asked for; the adopter serves (R182 to R185). -/
def scanDone (a : Nat) (s : State) : State :=
  let x := adopt s a
  let pendingReads := s.rport.waiting.any (fun e => match e.1 with
      | .scan v _ _ _ => v == a
      | _ => false) || s.rport.tags.any (fun e => match e.2.what with
      | .scan v _ _ _ => v == a
      | _ => false)
  if !x.todo.isEmpty || pendingReads || !(x.phase == .scan || !x.results.isEmpty) then s
  else
    let bs := (x.results.map (·.bob)).eraseDups
    let ns := rebuiltStreams s (if a = 256 then 256 else predReed s a) bs
    let s1 := bs.foldl (fun s b => rebuildBob a ns b s) s
    let first := x.phase == .scan
    let s2 := updAdopt a (fun y =>
      { y with
        phase := if a = 256 then .idle else if first then .serving else y.phase, results := [], scanning := [],
        await := y.await.filter (fun e => !ns.contains e.1) ++
          ns.map fun n => (n, laterWord ((mfind y.await n).getD none) (storedWord x.results n)) }) s1
    if a = 256 || !first then s2 else beginReturn (predReed s a) (enterServing a s2)

/-- What a rebuild found stored of a stream is released, and HEAD passes it (R173, R184). -/
def releaseRebuilt (n b : Nat) (s : State) : State :=
  advanceHead b (updBob b (fun x =>
    { x with window := x.window.map fun y => if y.stream == some n && y.n = 0 && y.st == .stored then { y with st := .released } else y }) s)

/-- The retained run of a stream is reported to the writer that rebuilt: duplicates are confirmed and released, the others are to be
written, REPLAYED where they were accepted before the re-homing began (R184). -/
def runReport (a n : Nat) (s : State) : State :=
  match (adopt s a).await.find? fun e => e.1 == n with
  | none => s
  | some (_, w) =>
    let isDup := fun (r : Rec) => match w with
      | some v => r.seq == v || before32 r.seq v
      | none => false
    let recs := (strm s n).recs
    let dups := (recs.filter isDup).length
    let began := (adopt s a).began
    let s1 := updStrm n (fun x =>
      { x with recs := (x.recs.filter fun r => !isDup r).map fun r => if r.accepted < began then { r with replay := true } else r }) s
    let s3 := updAdopt a (fun x => { x with await := x.await.filter fun e => e.1 != n }) (reformRuns n s1)
    let s2 := (ownerBobs (if a = 256 then 256 else predReed s a)).foldl (fun s b => releaseRebuilt n b s) s3
    if a = 256 || dups = 0 then s2 else bump s2 (pgReed a) 0x150 31 0 dups

/-- Whether the conditions of a hand-back hold (Table DL-3): nothing issued is outstanding, every release acknowledged, HEAD at WRITE. -/
def returnReady (s : State) (a : Nat) : Bool :=
  let r := predReed s a
  (adopt s a).phase == .returning && (adopt s a).await.isEmpty && (adopt s a).todo.isEmpty &&
  (ownerBobs r).all fun b => (bob s b).window.isEmpty

/-- The hand-back (Table DL-3): runs not yet issued are dissolved, and the predecessor serves and closes those records afresh. -/
def handBack (a : Nat) (s : State) : State :=
  if returnReady s a then
    let r := predReed s a
    raise 20 (handOver r ((ownerBobs r).foldl (fun s b => updBob b (fun x => { x with shadow := x.head, shadowSent := x.head }) s)
      (updAdopt a (fun _ => Adopt.idle) s)))
  else s

/-- Whether a writer's drain is done (R71, R180): nothing claimed is left, and no run that had closed at the DISABLE waits for a bobbin that
could take it. -/
def drained (s : State) (w : Nat) : Bool :=
  (ownerBobs w).all (fun b => (bob s b).window.isEmpty && (bob s b).past.isEmpty) &&
  s.strs.all fun (n, x) => !(strOwner s n == w) || !(bob s (strBob s n)).en || !kindOk s (strBob s n) n ||
    x.runs.all fun r => match r.closed with
      | some k => decide ((wport s w).drain ≤ k)
      | none => true

/-- The open runs of a writer close for its drain (R180). -/
def beginDrain (w : Nat) (s : State) : State :=
  let s1 := closeBobs (ownerBobs w) s
  updPort w (fun p => { p with drain := s1.closes }) s1

/-- Whether anything is left to pass when Reed r's drain ends (R342). -/
def workLeft (s : State) (r : Nat) : Bool :=
  !((reedHeds s r).all fun h => pst s (pgHed h) == .disabled && (List.range 16).all fun c => (strm s (strHed h c)).recs.isEmpty)

/-! ### Actions and TAIL -/

/-- Whether a bobbin is adopted (R190). -/
def bobAdopted (s : State) (b : Nat) : Bool := b / 8 != 256 && (adoptedBy s (b / 8)).phase != .idle

/-- The offset of the slot registers of a bobbin on its owner's page. -/
def bobBase (b : Nat) : Nat := (if b / 8 = 256 then 0xC00 else 0x800) + 0x40 * (b % 8)

/-- Whether a bobbin is in FAULT while its tenant slot is being removed: BOB_ENABLE clears the fault then (R308). -/
def faultHolds (s : State) (b : Nat) : Bool :=
  (bob s b).fault && (match bobSlot s b with
    | some t => (kslot s t).st == .fencing || (kslot s t).st == .draining
    | none => false)

/-- Set a bobbin's indices to 0 (R175): blocks outstanding complete, and their records are committed and released; those of a block that waits
to be issued again are written to the ring in force (R170; notes/assumptions 78). -/
def restartRing (b : Nat) (s : State) : State :=
  let x := bob s b
  let was := fun (r : BlkRef) => match r with
    | .bob c idx => if c = b then .past b ((x.window.find? fun e => e.idx == idx).bind (·.stream)) else r
    | _ => r
  let s1 := [b / 8, succReed s (b / 8)].foldl (fun s w => updPort w (fun p =>
    { p with tags := p.tags.map fun e => (e.1, { e.2 with ref := was e.2.ref }), recorded := p.recorded.map fun e => (was e.1, e.2) }) s) s
  let s2 := (x.window.filter fun e => e.st == .waiting).foldl (fun s e => match e.stream with
    | some n => requeue n s
    | none => s) s1
  updBob b (fun x =>
    { x with
      past := x.past ++ x.window.filter fun e => e.n != 0 && (e.st == .outstanding || e.st == .stored),
      full := false, head := 0, write := 0, tail := 0, shadow := 0, shadowSent := 0, window := [], wraps := 0, heads := [],
      lastOld := none }) s2

/-- BOB_ENABLE (Table DL-7, R172, R175, R182): none where it is refused. -/
def bobEnable (b : Nat) (s : State) : Option State :=
  let pg := pgWriter (b / 8)
  let cfg := regGet s pg (bobBase b)
  let base := regGet s pg (bobBase b + 8)
  let size := regGet s pg (bobBase b + 16)
  let x := bob s b
  if bobAdopted s b then
    if x.fault then
      let a := succReed s (b / 8)
      let s1 := updBob b (fun x => { x with fault := false }) s
      some (if (adopt s a).phase == .waitPort then s1 else beginScan a b s1)
    else none
  else
    let fmt := fld cfg 26 24
    let sizeLog := fld size 5 0
    let fresh := !x.latched || fld cfg 41 32 != fld x.cfg 41 32 || base != x.base || sizeLog != fld x.size 5 0
    let same := x.en || (!fresh && fld cfg 21 16 = x.tenant)
    let bad := fmt < 1 || 3 < fmt || sizeLog < 16 || 40 < sizeLog || fld size 15 8 < 1 || 64 < fld size 15 8 ||
      (bit cfg 15 && fmt = 1) || (bit cfg 15 && (kslot s (fld cfg 21 16)).st != .active && !(same && faultHolds s b)) ||
      (b / 8 = 256 && !bit cfg 8) ||
      s.key.slots.any fun e => e.2.st == .erased && e.2.scrubBobs.contains b
    if bad then none
    else if x.en then
      let s1 := if x.fault then updBob b (fun x => { x with fault := false }) s else s
      some (if x.fault && b / 8 = 256 && (adopt s 256).unscanned.contains b then beginScan 256 b s1 else s1)
    else
      let s1 := updBob b (fun x =>
        { x with
          en := true, fault := false, latched := true, cfg := cfg, base := base, size := size,
          lastOld := if bit cfg 15 && fld cfg 21 16 = x.tenant then x.lastOld else none }) (if fresh then restartRing b s else s)
      let waits := ((s.strs.filter fun (e : Nat × Strm) => !e.2.recs.isEmpty && strBob s e.1 == b).map (·.1))
      let s2 := waits.foldl (fun s n => noteKind n s) s1
      if fresh && bit cfg 15 then
        let t := fld cfg 21 16
        let (h, s3) := takeHead t (kslot s t).current s2
        some (updBob b (fun x => { x with heads := [⟨t, (kslot s t).current, h, 0⟩] }) s3)
      else some s2

/-- BOB_DISABLE (Table DL-7). -/
def bobDisable (b : Nat) (s : State) : Option State :=
  if bobAdopted s b then none else some (updBob b (fun x => { x with en := false }) s)

/-- FLUSH (R171): close every open run of the page's part. -/
def flush (w : Nat) (s : State) : State := closeBobs (writerBobs s w) s

/-- A bobbin slot as its registers show it: while the owner's alternate waits or scans, the shadow HEAD is HEAD and WRITE (R190). -/
def shownBob (s : State) (b : Nat) : Bob :=
  let y := bob s b
  let p := (adoptedBy s (b / 8)).phase
  if b / 8 != 256 && (p == .waitPort || p == .scan) then { y with head := y.shadow, write := y.shadow } else y

/-- A TAIL write (R176, R177, R190): none where it is refused. -/
def tailWrite (b : Nat) (d : Word) (s : State) : Option State :=
  let x := shownBob s b
  let t := BitVec.ofNat 32 (fld d 31 0)
  if before32 x.head t then none
  else if before32 t x.tail then (if bit x.cfg 4 then some s else none)
  else
    some (updBob b (fun x =>
      { x with tail := t, full := if idxDist t x.write < x.slots then false else x.full }) s)

/-! ### What the pages show -/

/-- The read-only words of a bobbin slot (Table DL-9, R190); a slot that was never enabled has no writer (notes/assumptions 80). -/
def bobView (s : State) (b o : Nat) : Word :=
  let x := shownBob s b
  if o = 0x18 then packW [(0, 32, x.head.toNat), (32, 32, x.write.toNat)]
  else if o = 0x20 then packW [(0, 32, x.tail.toNat)]
  else if o = 0x28 then
    packW [(63, 1, bn x.en), (62, 1, bn x.fault), (61, 1, bn (bobAdopted s b)), (60, 1, bn x.full),
      (48, 8, if b / 8 = 256 || !x.latched then 0 else if bobAdopted s b then succReed s (b / 8) else b / 8),
      (0, 6, x.write.toNat / x.slots)]
  else 0

/-- The code of an adoption state. -/
def Phase.code : Phase → Nat
  | .idle => 0
  | .waitPort => 1
  | .scan => 2
  | .serving => 3
  | .returning => 4

/-- REED_SERVE (Table DL-8). -/
def reedServe (s : State) (r : Nat) : Word :=
  let p := (adopt s r).phase
  let adopting := p == .serving || p == .returning
  let away := (adoptedBy s r).phase
  packW [(63, 1, bn adopting), (48, 8, if adopting then predReed s r else 0),
    (32, 16, if away == .serving || away == .returning then 2 ^ s.inst.hpr - 1 else 0), (0, 3, p.code)]

end Sys2Proof.Machine
end

