-- ==== Sys2Proof/Machine/Flags.lean ====
section
/-! DEFINITION. The flags of a record (Table CT-5): sheds (R138), the cut (R140, R251), discipline (R18, R119) and steps (R87). -/

namespace Sys2Proof.Machine

/-- Flag bits (Table CT-5). -/
def fStraddle : Nat := 1
def fPostcut : Nat := 2
def fGapped : Nat := 4
def fCoarse : Nat := 8
def fReplayed : Nat := 16
def fUndisciplined : Nat := 32
def fStepped : Nat := 64
def fAddrOnly : Nat := 128

/-- The shed length in bt (R139). -/
def shedLen (s : State) : Nat := 2 ^ regFld s pgHub 0x200 5 0

/-- The half-width u of a stamp's uncertainty interval (R138): by CAL_DUE at the stamp. -/
def stampU (wide : Bool) : Nat := if wide then 3 else 2

/-- Whether the uncertainty interval of a stamp contains a shed boundary (R138). -/
def straddles (s : State) (wide : Bool) (stamp : Nat) : Bool :=
  let b := (stamp + stampU wide) / shedLen s * shedLen s
  decide (stamp < b + stampU wide)

/-- The shed that a stamp belongs to (R138). -/
def shedOf (s : State) (wide : Bool) (stamp : Nat) : Nat :=
  if straddles s wide stamp then (stamp + stampU wide) / shedLen s else stamp / shedLen s

/-- Tc of the stop in force (R247, R250): from Tc until its Tr; an armed one counts from the stamps at or after it on, for a part that fires
before the Hub is in the cut (R247). -/
def cutTime (s : State) : Option Nat :=
  match s.stop.phase with
  | .armed => some s.stop.armedAt
  | .cutting | .snagging | .stopped => some s.stop.tc
  | _ => none

/-- Whether a stop is in force (R250): from Tc until Tr. -/
def stopInForce (s : State) : Bool :=
  match s.stop.phase with
  | .armed => decide (s.stop.armedAt ≤ hubBeam s)
  | .cutting | .snagging | .stopped => true
  | _ => false

/-- Whether a stamp lies at or after the Tc of a stop and before its Tr (R251): of the stop in force, or of one resumed before. -/
def afterCut (s : State) (stamp : Nat) : Bool :=
  (match cutTime s with
   | some tc => decide (tc ≤ stamp)
   | none => false) ||
  s.stop.past.any fun e => decide (e.1 ≤ stamp) && decide (stamp < e.2)

/-- Whether a part's records are undisciplined (R18, R82, R84, R91): by the status it last received. -/
def undisciplined (s : State) (p : Nat) : Bool := !(part s p).rxDisc || (part s p).rxHoldover || !strapOk s

/-- The same at a raw count: before its last change it was the other way. -/
def undAt (s : State) (p : Nat) (raw : Bt) : Bool := if raw < (part s p).undRaw then !undisciplined s p else undisciplined s p

/-- A stamp of a part with its raw count, and what held there. -/
def stampAt (s : State) (p stamp : Nat) (raw : Bt) : At :=
  ⟨stamp, raw, undAt s p raw, if raw < s.tim.dueRaw then !s.tim.calDue else s.tim.calDue⟩

/-- A stamp that a part forms now. -/
def stampNow (s : State) (p stamp : Nat) : At := ⟨stamp, s.tim.raw, undisciplined s p, s.tim.calDue⟩

/-- A stamp that a part formed before, with the raw count that it stands at now. -/
def stampedAt (s : State) (p stamp : Nat) : At := stampAt s p stamp (s.tim.raw - (beamOf s p - stamp))

/-- The steps that have taken force, an announced one whose AT has passed included (R87). -/
def stepsTaken (s : State) : List StepDone :=
  s.tim.stepped ++ (match s.tim.step with
    | some a => if a.raw ≤ s.tim.raw then [⟨a.raw, (a.raw + s.tim.offset) % two64, (a.raw + a.newOff) % two64⟩] else []
    | none => [])

/-- The raw count at which Beam, as a part sees it, last reached a multiple of n: none where it has not since a step (R74). -/
def multipleAt (s : State) (p n : Nat) : Option Bt :=
  let b := beamOf s p % n
  let i := s.tim.raw - b
  if s.tim.raw < b || (stepsTaken s).any (fun e => decide (i < e.raw)) then none else some i

/-- The same in a part that is ENABLED, and was then (R148, R150, R231). -/
def lastMultiple (s : State) (p n : Nat) : Option Bt :=
  if isEnabled s p then (multipleAt s p n).filter fun i => decide ((part s p).entered ≤ i) else none

/-- Whether an instant has not been taken yet. -/
def isNew (last : Option Bt) (i : Bt) : Bool :=
  match last with
  | some l => decide (l < i)
  | none => true

/-- Whether a stamp lies in the shed of a step's AT (R87). -/
def inSteppedShed (s : State) (wide : Bool) (stamp : Nat) : Bool := (stepsTaken s).any fun e => e.after / shedLen s == shedOf s wide stamp

/-- Whether an instant of Beam had been reached before a negative step and is reached again, which R148 marks STEPPED beside R87's shed. -/
def isRepeated (s : State) (a : At) : Bool := (stepsTaken s).any fun e => decide (e.raw ≤ a.raw) && decide (a.stamp < e.before)

/-- Whether a step's AT lies between two raw counts (R87). -/
def stepBetween (s : State) (a b : Bt) : Bool := (stepsTaken s).any fun e => decide (a < e.raw) && decide (e.raw ≤ b)

/-- The flags of a record with the stamp of its bytes 8-15, the other stamps it holds, and flags of its own (Table CT-5). -/
def recFlags (s : State) (a : At) (others : List Nat) (own : Nat) : BitVec 8 :=
  let post := (a.stamp :: others).any (afterCut s)
  BitVec.ofNat 8 (own ||| (if straddles s a.wide a.stamp then fStraddle else 0) ||| (if post then fPostcut else 0) |||
    (if a.und then fUndisciplined else 0) ||| (if inSteppedShed s a.wide a.stamp then fStepped else 0))

/-- A pick with a payload of 16 bytes. -/
def pickAt (s : State) (a : At) (typ own payload : Nat) : Pick :=
  { typ := BitVec.ofNat 8 typ, flags := recFlags s a [] own, stamp := BitVec.ofNat 64 a.stamp, payload := BitVec.ofNat 128 payload, ext := 0 }

/-- A pick of a part that it stamps now. -/
def mkPick (s : State) (p typ stamp own : Nat) (payload : Nat) : Pick := pickAt s (stampNow s p stamp) typ own payload

/-- A pick without POSTCUT, whatever its stamp (R254). -/
def markerAt (s : State) (a : At) (payload : Nat) : Pick :=
  let f := (recFlags s a [] 0).toNat
  { typ := 0x0B, flags := BitVec.ofNat 8 (f - fieldN f 1 1 * fPostcut), stamp := BitVec.ofNat 64 a.stamp,
    payload := BitVec.ofNat 128 payload, ext := 0 }

/-- The slot, in FENCING, DRAINING or ERASED, of the bobbin that a stream's records go to (R307). -/
def fencedBob (s : State) (n : Nat) : Option Nat :=
  match bobSlot s (strBob s n) with
  | some t => let k := kslot s t; if k.st == .fencing || k.st == .draining || k.st == .erased then some t else none
  | none => none

/-- A record that a fence refuses is counted at its slot (Table TK-6). -/
def fenceCount (t k : Nat) (s : State) : State :=
  updSlot t (fun x => { x with fenceRefused := min 0xFFFFFFFF (x.fenceRefused + k), refusedSince := x.refusedSince + k }) s

/-- Accept an exempt record in retention; a full retention buffer refuses it and counts it (R16); whether it was accepted. -/
def retain (n : Nat) (p : Pick) (s : State) : Bool × State :=
  if hasRoom s n then (true, { acceptRec n p s with exempt := s.exempt + 1 })
  else (false, { s with refused := mupd 0 s.refused n (· + 1) })

/-- Accept an exempt record of an originator that is no Heddle, where its retention has room and no fence holds its bobbin (R16, R151,
R307); whether it was accepted. A refusal for full retention is counted by stream (DESIGN CHOICE 58). -/
def emitExempt (n : Nat) (p : Pick) (s : State) : Bool × State :=
  match fencedBob s n with
  | some t => (false, fenceCount t 1 s)
  | none => retain n p s

/-- Whether a stream's originator may offer an exempt record now: one that waits for room is not refused (R217, R292). -/
def mayEmit (s : State) (n : Nat) : Bool := (fencedBob s n).isSome || hasRoom s n

/-- Emit a record on the Hub stream. -/
def emitHub (p : Pick) (s : State) : State := (emitExempt strHub p s).2

end Sys2Proof.Machine
end

