-- ==== Sys2Proof/Machine/Governor.lean ====
section
/-! DEFINITION. The trace governor and the witness power cap (spec/07_counters_governor.md), and the decision on every record that a
Heddle originates (R155, R307). -/

namespace Sys2Proof.Machine

/-! ### State -/

/-- Quotas at reset. -/
def Quota.zero : Quota := ⟨0, 0, 0, 0⟩

/-- A Heddle's governor state at reset. -/
def HedGov.zero : HedGov :=
  { cur := Quota.zero, past := [], d0 := [], d1 := none, prot := 0, protNext := 0, refP := [], refU := [], start := ⟨0, 0, true, false⟩ }

/-- A Reed's governor state at reset. -/
def ReedGov.zero : ReedGov :=
  { stretch := 0, calm := 0, tq0 := 0, tq1 := 0, scanQ := 0, scanUsed := 0, scan0 := 0, scan1 := 0, refU := 0,
    refP := 0, retain := 0, tiles := 0, deferred := 0, heds := [], raised := false, creditM := 0, creditO := 0, quotaM := 0,
    quotaO := 0, em0 := 0, em1 := 0, eo0 := 0, eo1 := 0, pastM := [], pastO := [],
    start := ⟨0, 0, true, false⟩ }

/-- The governor's state of a Heddle. -/
def hedGov (s : State) (h : Nat) : HedGov := mget HedGov.zero s.hedGovs h

/-- Change it. -/
def updHedGov (h : Nat) (f : HedGov → HedGov) (s : State) : State := { s with hedGovs := mupd HedGov.zero s.hedGovs h f }

/-- The governor's state of a Reed; the Hub's scan-out share under 256. -/
def reedGov (s : State) (r : Nat) : ReedGov := mget ReedGov.zero s.reedGovs r

/-- Change it. -/
def updReedGov (r : Nat) (f : ReedGov → ReedGov) (s : State) : State := { s with reedGovs := mupd ReedGov.zero s.reedGovs r f }

/-- The window length W in bt (R153). -/
def govWindow (s : State) : Nat := 2 ^ regFld s pgHub 0x110 4 0

/-- The Reed in whose count a Heddle's demand and refusals go: the one that serves it, else its primary (R154, R162). -/
def countingReed (s : State) (h : Nat) : Nat := (servingReed s h).getD (primaryReed s h)

/-! ### The decision -/

/-- The stretch that applies to a Heddle's intervals (R156). -/
def stretchOf (s : State) (h : Nat) : Nat := (reedGov s (countingReed s h)).stretch

/-- The window that holds a raw count (R153). -/
def windowOf (s : State) (raw : Bt) : Nat := raw / govWindow s

/-- What governs the window of a raw count on a Heddle: a window that has ended has what it had, any other what the window under way has. -/
def winAt (s : State) (h : Nat) (raw : Bt) : Win :=
  let g := hedGov s h
  let now : Win := ⟨g.cur, g.prot, stretchOf s h⟩
  if windowOf s raw < s.gov.k then (mfind g.past (windowOf s raw)).getD now else now

/-- Put back what is used of the quotas of the window of a raw count. -/
def putQuota (h : Nat) (raw : Bt) (q : Quota) (s : State) : State :=
  let w := windowOf s raw
  updHedGov h (fun g =>
    if w < s.gov.k && (mfind g.past w).isSome then { g with past := g.past.map fun e => if e.1 = w then (e.1, { e.2 with q := q }) else e }
    else { g with cur := q }) s

/-- Whether a class is protected on a Heddle in the window of a raw count (R151, R152). -/
def isProtected (s : State) (h : Nat) (raw : Bt) : Cls → Bool
  | .cls n => (winAt s h raw).prot.getLsbD n
  | _ => false

/-- The unit that a record takes, from the quotas of its window: 1 protected, 2 unprotected, none refused (R155). -/
def takeUnit (q : Quota) (prot : Bool) : Option Quota :=
  if prot && q.pu < q.qp then some { q with pu := q.pu + 1 }
  else if q.uu < q.qu then some { q with uu := q.uu + 1 }
  else none

/-- The units that k picks of one sample take, all or none (R155). -/
def takeUnits (prot : Bool) : Nat → Quota → Option Quota
  | 0, q => some q
  | k + 1, q =>
    match takeUnit q prot with
    | some q' => takeUnits prot k q'
    | none => none

/-- Count n at a context. -/
def countCtx (m : List (Nat × Nat)) (c n : Nat) : List (Nat × Nat) := mupd 0 m c (· + n)

/-- A Reed's count of a Heddle's demand with k more records. -/
def addDemand (r k : Nat) (prot : Bool) : List Demand → List Demand
  | [] => [if prot then ⟨k, 0, r⟩ else ⟨0, k, r⟩]
  | d :: ds =>
    if d.reed = r then (if prot then { d with p := d.p + k } else { d with u := d.u + k }) :: ds else d :: addDemand r k prot ds

/-- Count the demand of k records for the window that their trigger lies in, by the Reed that counts it (R153, R154): the allocations of the
windows before the last one are made. -/
def countDemand (h k : Nat) (prot : Bool) (trig : Bt) (s : State) : State :=
  let add := addDemand (countingReed s h) k prot
  if s.gov.k ≤ windowOf s trig then updHedGov h (fun g => { g with d0 := add g.d0 }) s
  else if windowOf s trig + 1 = s.gov.k then updHedGov h (fun g => { g with d1 := g.d1.map fun c => { c with counts := add c.counts } }) s
  else s

/-- A refusal by the governor (R155, R161 to R164). -/
def refuseGov (h c k : Nat) (prot : Bool) (s : State) : State :=
  let r := countingReed s h
  let s1 := updHedGov h (fun g => if prot then { g with refP := countCtx g.refP c k } else { g with refU := countCtx g.refU c k }) s
  let s2 := bump s1 (pgHed h) (if prot then 0x140 else 0x148) 31 0 k
  let s3 := bump s2 (pgReed r) 0x110 (if prot then 63 else 31) (if prot then 32 else 0) k
  let s4 := bump s3 pgHub 0x130 (if prot then 63 else 31) (if prot then 32 else 0) k
  let first := prot && !(reedGov s4 r).raised
  let s5 := updReedGov r (fun g =>
    if prot then { g with refP := g.refP + k, heds := addOnce g.heds h, raised := true } else { g with refU := g.refU + k }) s4
  if first then raise 17 s5 else s5

/-- The tenant slot whose fence refuses a record of a Heddle's stream (R307). -/
def fencedBy (s : State) (n : Nat) : Option Nat :=
  let fenced := fun (t : Option Nat) => match t with
    | some t => let k := kslot s t; if k.st == .fencing || k.st == .draining || k.st == .erased then some t else none
    | none => none
  match (if n < 0x10000 then fenced (hedSlot s (n / 16)) else none) with
  | some t => some t
  | none => fencedBob s n

/-- The three decisions on the picks of a record or sample of a Heddle's stream: fence, governor, retention (R155); whether it was
accepted. `trig` is the raw count of the triggering stamp. -/
def offerHed (h c : Nat) (cls : Cls) (trig : Bt) (picks : List Pick) (s : State) : Bool × State :=
  let n := strHed h c
  let k := picks.length
  let exempt := cls == .exempt
  let prot := isProtected s h trig cls
  match fencedBy s n with
  | some t => (false, fenceCount t k (bump s (pgHed h) 0x188 31 0 k))
  | none =>
    let s1 := if exempt then s else countDemand h k prot trig s
    let q := (winAt s1 h trig).q
    match (if exempt then some q else takeUnits prot k q) with
    | none => (false, refuseGov h c k prot s1)
    | some q' =>
      if 64 < occupancy s1 n + k then
        (false, updReedGov (countingReed s1 h) (fun g => { g with retain := g.retain + k }) (bump s1 (pgHed h) 0x150 31 0 k))
      else
        let s2 := if exempt then { s1 with exempt := s1.exempt + k } else putQuota h trig q' s1
        (true, picks.foldl (fun s p => acceptRec n p s) s2)

/-! ### Records that wait (R133, R249) -/

/-- A Heddle's trace state at reset. -/
def HedTrace.zero : HedTrace :=
  { ents := [], held := [], leaving := none, cycles := 0, clkState := 0, clkWas := 0, clkRaw := 0, clkInvalid := false, gap := none, gaps := [],
    seqIss := none, seqRet := none, seqBeat := none }

/-- The trace state of a Heddle. -/
def hed (s : State) (h : Nat) : HedTrace := mget HedTrace.zero s.heds h

/-- Change it. -/
def updHed (h : Nat) (f : HedTrace → HedTrace) (s : State) : State := { s with heds := mupd HedTrace.zero s.heds h f }

/-- A Heddle's cards, counters and stall state at reset (R145, R147, R150; ET_STALL before its first transition: notes/assumptions 14). -/
def HedCount.zero : HedCount :=
  { cards := [], waiting := [], was := [], evt := [], reason := 0, reasonAt := 0, reasonRaw := 0, reasonWas := 0, reasonWasRaw := 0, stalled := 0,
    changes := 0, base := [], lastCnt := none, lastStl := none }

/-- The cards, counters and stall state of a Heddle. -/
def hedC (s : State) (h : Nat) : HedCount := mget HedCount.zero s.counts h

/-- Change it. -/
def updHedC (h : Nat) (f : HedCount → HedCount) (s : State) : State := { s with counts := mupd HedCount.zero s.counts h f }

/-- The Tc of a stop in force that an ENABLED Heddle or link port has not learnt yet. -/
def unlearnt (s : State) (p : Nat) : Option Nat :=
  if stopInForce s && isEnabled s p && !s.stop.fired.contains p &&
      (s.stop.phase == .armed || s.stop.cutTodo.contains p || s.stop.armed.contains p) then cutTime s else none

/-- Whether a stamp lies at or after a Tc that a part has not learnt: no record that holds it is accepted yet (R249). -/
def tooEarly (s : State) (p stamp : Nat) : Bool :=
  match unlearnt s p with
  | some tc => decide (tc ≤ stamp)
  | none => false

/-- Whether a record with a latest stamp, due at a raw count and triggered at another, may be accepted: its wait is over, no cut is still to come
before it (R249), and the window of its trigger has begun (R153, R165). -/
def mayAccept (s : State) (h latest : Nat) (due trig : Bt) : Bool :=
  decide (due ≤ s.tim.raw) && !tooEarly s (pgHed h) latest && decide (windowOf s trig ≤ s.gov.k)

/-- The wait of a Heddle or a link port after the latest stamp of a record (R249). -/
def waitHed : Nat := 32

/-- The wait of a Reed (R249). -/
def waitReed : Nat := 64

/-! ### The allocation -/

/-- The elements still below their demand. -/
def openShares (d q : List Nat) : List Nat := (List.range d.length).filter fun i => decide (q.getD i 0 < d.getD i 0)

/-- The max-min rule of R154, the fuel bounding its rounds. -/
def maxminLoop : Nat → List Nat → List Nat → Nat → List Nat
  | 0, _, q, _ => q
  | fuel + 1, d, q, left =>
    let op := openShares d q
    if left = 0 || op.isEmpty then q
    else
      let f := left / op.length
      if f = 0 then (q.zipIdx).map fun (v, i) => if (op.take left).contains i then v + 1 else v
      else
        let q' := (q.zipIdx).map fun (v, i) => v + min f (d.getD i 0 - v)
        maxminLoop fuel d q' (left - (q'.sum - q.sum))

/-- maxmin(d, total) (R154). -/
def maxmin (d : List Nat) (total : Nat) : List Nat := maxminLoop (d.length + 2) d (d.map fun _ => 0) total

/-- The Reeds. -/
def reedList (s : State) : List Nat := List.range s.inst.reeds

/-- The Heddles. -/
def hedList (s : State) : List Nat := List.range (s.inst.reeds * s.inst.hpr)

/-- Whether any Heddle is bound (Table TK-5). -/
def anyBound (s : State) : Bool := (hedList s).any fun h => (hedBound s h).isSome

/-- Whether a Heddle was ENABLED for the whole of the window that ends now. -/
def wholeWindow (s : State) (h : Nat) : Bool :=
  isEnabled s (pgHed h) && decide ((part s (pgHed h)).entered ≤ s.gov.k * govWindow s)

/-- The demand of a window that ends, as the allocation takes it (R154). -/
def closeDemand (s : State) (h : Nat) : Counted := ⟨wholeWindow s h, countingReed s h, (hedGov s h).d0⟩

/-- The demand of a Heddle that each Reed counted in a window: 64 and 64 for one that was not ENABLED throughout, by the Reed that had it in
its count at the end, or by its primary where there was no window (R154). -/
def demandOf (s : State) (h : Nat) : Option Counted → List Demand
  | some c => if c.whole then c.counts else [⟨64, 64, c.reed⟩]
  | none => [⟨64, 64, primaryReed s h⟩]

/-- The demand of the window before the one that ends. -/
def earlierDemand (s : State) (h : Nat) : List Demand := demandOf s h (hedGov s h).d1

/-- What a Reed counted in a window: the sum over the Heddles. -/
def reedDemand (ds : List (Nat × List Demand)) (r : Nat) (f : Demand → Nat) : Nat :=
  (ds.map fun e => ((e.2.filter fun d => d.reed == r).map f).sum).sum

/-- The Heddles that a Reed serves, its own first, then adopted ones, in position order (R154). -/
def countedHeds (s : State) (r : Nat) : List Nat :=
  let mine := (hedList s).filter fun h => countingReed s h == r
  mine.filter (fun h => primaryReed s h == r) ++ mine.filter fun h => primaryReed s h != r

/-- The shares of one tier of the Heddles of every Reed, from the Reeds' shares. -/
def hedShares (s : State) (ds : List (Nat × List Demand)) (reedQ : List Nat) (f : Demand → Nat) : List (Nat × Nat) :=
  ((reedList s).map fun r =>
    let hs := countedHeds s r
    hs.zip (maxmin (hs.map fun h => (((mget [] ds h).filter fun d => d.reed == r).map f).sum) (reedQ.getD r 0))).flatten

/-- The energy allowance of a window, in units of 1 pJ / (100 x 15,000^2) (R159): (CAP / 16 - 0.4 W) x W, taken as 0 below the idle share. -/
def energyAllowance (s : State) : Nat := (10 * s.gov.cap - 64) * govWindow s * 35156250000

/-- The voltage of the scale of R159 in units of 50 uV: the channel of HUB_PWR_VCH, or 0.85 V. -/
def energyVolt (s : State) : Nat :=
  if regBit s pgHub 0x118 6 then
    let ch := regFld s pgHub 0x118 5 0
    let w := snsMap s ch
    match (mget [] s.sens ch).getLast? with
    | some e => if bit w 63 && bit w 62 then e.2.toNat else 17000
    | none => 17000
  else 17000

/-- The energy of a tile (R159) in the unit of `energyAllowance`. -/
def tileEnergy (s : State) (stagingBytes macs : Nat) : Nat := (800 * stagingBytes + 45 * macs) * energyVolt s * energyVolt s

/-- Put a record at the end of a Heddle's records that wait. -/
def hold (h : Nat) (x : Held) (s : State) : State := updHed h (fun y => { y with held := y.held ++ [x] }) s

/-- The throttle pick of a Heddle's stream, stamped with the Beam at the window's start (R161). -/
def throttle (h c : Nat) (s : State) : State :=
  let g := hedGov s h
  let p := mget 0 g.refP c
  let u := mget 0 g.refU c
  let payload := pack [(0, 1, bn (p != 0)), (1, 1, bn (u != 0)), (8, 8, stretchOf s h),
    (16, 8, regFld s pgHub 0x110 4 0), (32, 32, p), (64, 32, u), (96, 16, g.cur.qp), (112, 16, g.cur.qu)]
  hold h ⟨c, g.start, s.tim.raw, g.start.stamp, g.start.raw + waitHed, .throttle payload⟩ s

/-- The refusal summary of a Reed, stamped likewise (R162). -/
def refusalSummary (r : Nat) (s : State) : State :=
  let g := reedGov s r
  if g.refU = 0 && g.refP = 0 && g.retain = 0 && g.tiles = 0 && g.deferred = 0 then s
  else
    let payload := pack [(0, 32, g.refU), (32, 32, g.refP), (64, 16, min g.retain 0xFFFF), (80, 16, min g.tiles 0xFFFF),
      (96, 16, min g.deferred 0xFFFF), (112, 8, g.stretch), (120, 8, g.heds.length)]
    (emitExempt (strReed r) (pickAt s g.start 0x0D 0 payload) s).2

/-- The stretch of a Reed at a window start (R156), from its demand and total quota of window k - 2. -/
def newStretch (s : State) (g : ReedGov) (p2 tq2 : Nat) : ReedGov :=
  let calm := if 2 * p2 ≤ tq2 then g.calm + 1 else 0
  let st := if tq2 < p2 then min (g.stretch + 1) (max g.stretch (regFld s pgHub 0x110 12 8))
    else if regFld s pgHub 0x110 23 16 ≤ calm then g.stretch - 1 else g.stretch
  { g with stretch := st, calm := calm }

/-- A credit after a window start: what is unused of it is kept up to the ceiling, the sum of the tier's quotas over the last 64 windows
(R159, R203). -/
def bankCredit (credit : Int) (quota : Nat) (past : List Nat) : Int := min (credit + quota) past.sum

/-- The quotas of the last 64 windows once a window's quota is added. -/
def pastQuotas (past : List Nat) (quota : Nat) : List Nat := (quota :: past).take 64

/-- Whether the quotas of a window may still decide a record of a Heddle: the last window's, and any that is not later than the trigger of a
record that waits or of a retired command. -/
def winNeeded (s : State) (h w : Nat) : Bool :=
  decide (s.gov.k ≤ w + 1) || (hed s h).held.any (fun x => decide (windowOf s x.trig ≤ w)) ||
  (hed s h).ents.any fun e => e.st == .retired && decide (windowOf s e.retireRaw ≤ w)

/-- The Beam at a window's start as a part sees it. -/
def startAt (s : State) (p : Nat) (raw : Bt) : At := stampAt s p (beamAt s p raw) raw

/-- The window start (R153 to R162): the reports of the window that ends, then quotas, stretch and credits of the one that begins. -/
def windowStart (s : State) : State :=
  let w := govWindow s
  let next := (s.gov.k + 1) * w
  -- the reports of the window that ends
  let s1 := s.hedGovs.foldl (fun s (h, g) => g.refP.foldl (fun s (c, _) => throttle h c s) s) s
  let s2 := (s1.reedGovs.map (·.1)).foldl (fun s r => if r < s.inst.reeds then refusalSummary r s else s) s1
  -- what the windows leave
  let hs := hedList s2
  let d2 := hs.map fun h => (h, earlierDemand s2 h)
  let rs := reedList s2
  let p2 := rs.map fun r => reedDemand d2 r (·.p)
  let u2 := rs.map fun r => reedDemand d2 r (·.u)
  -- the allowance and the Reeds' shares
  let budget := s2.gov.budgetNext
  let allow := budget * w / 64 * 15 / 512 - s2.gov.e1
  let qp := maxmin p2 allow
  let left1 := allow - qp.sum
  let scanD := rs.map (fun r => (reedGov s2 r).scan1) ++ [(reedGov s2 256).scan1]
  let qs := maxmin scanD left1
  let qu := maxmin u2 (left1 - qs.sum)
  let hp := hedShares s2 d2 qp (·.p)
  let hu := hedShares s2 d2 qu (·.u)
  -- energy
  let cap := s2.gov.capNext
  let s3 := { s2 with gov := { s2.gov with cap := cap } }
  let en := energyAllowance s3
  let qm := maxmin (rs.map fun r => (reedGov s3 r).em1) en
  let qo := maxmin (rs.map fun r => (reedGov s3 r).eo1) (en - qm.sum)
  -- what the window that ends had stays for the records of it that are not decided yet
  let s4 := hs.foldl (fun s h =>
    let c := closeDemand s h
    -- a re-homed Heddle keeps its quotas until its new Reed's allocation covers it (R154)
    let kept := ((hedGov s h).d1.map (·.reed)).getD (primaryReed s h) != c.reed
    let ended : Win := ⟨(hedGov s h).cur, (hedGov s h).prot, stretchOf s h⟩
    updHedGov h (fun g =>
      { cur := if kept then { g.cur with pu := 0, uu := 0 } else ⟨mget 0 hp h, mget 0 hu h, 0, 0⟩,
        past := ((s.gov.k, ended) :: g.past).filter fun e => winNeeded s h e.1,
        d1 := some c, d0 := [], prot := g.protNext, protNext := BitVec.ofNat 19 (regFld s (pgHed h) 0x100 18 0), refP := [], refU := [],
        start := startAt s (pgHed h) next }) s) s3
  let s5 := rs.foldl (fun s r =>
    updReedGov r (fun g =>
      let g := newStretch s g (p2.getD r 0) g.tq1
      { g with
        tq1 := g.tq0, tq0 := qp.getD r 0 + qu.getD r 0, scanQ := qs.getD r 0, scanUsed := 0, scan1 := g.scan0, scan0 := 0,
        refU := 0, refP := 0, retain := 0, tiles := 0, deferred := 0, heds := [], raised := false,
        quotaM := qm.getD r 0, quotaO := qo.getD r 0, creditM := bankCredit g.creditM (qm.getD r 0) (pastQuotas g.pastM (qm.getD r 0)),
        creditO := bankCredit g.creditO (qo.getD r 0) (pastQuotas g.pastO (qo.getD r 0)), pastM := pastQuotas g.pastM (qm.getD r 0),
        pastO := pastQuotas g.pastO (qo.getD r 0), em1 := g.em0, em0 := 0, eo1 := g.eo0, eo0 := 0,
        start := startAt s (pgReed r) next }) s) s4
  let s6 := updReedGov 256 (fun g => { g with scanQ := qs.getD s.inst.reeds 0, scanUsed := 0, scan1 := g.scan0, scan0 := 0 }) s5
  let g := s6.gov
  let s7 := { s6 with
    exempt := s6.exempt - s.exempt,
    gov := { g with
      k := g.k + 1, budget := budget, budgetNext := regFld s6 pgHub 0x100 15 0, capNext := regFld s6 pgHub 0x108 8 0,
      e2 := g.e1, e1 := s.exempt, allow := allow, energies := (s6.tim.raw, g.energy, w) :: g.energies.filter fun e => s6.tim.raw < e.1 + 40000000, energy := 0 } }
  if allow = 0 then raise 16 (bump s7 pgHub 0x138 31 0 1) else s7

/-! ### What the pages show -/

/-- HUB_GOV_STATUS (Table CS-9). -/
def govStatus (s : State) : Word :=
  packW [(40, 24, min 0xFFFFFF s.gov.allow), (16, 24, min 0xFFFFFF s.gov.e2), (0, 9, ((reedList s).filter fun r => (reedGov s r).stretch != 0).length)]

/-- HUB_PWR_STATUS (Table CS-9): energy of the last window over its length, with the idle share of 0.4 W, in 1/16 W. While any Heddle is
bound (Table TK-5) it is the average over the windows that ended in the 10 ms before, rounded to 1 W; which windows a 10 ms average takes in
is DESIGN CHOICE 82. -/
def pwrEst (s : State) : Nat :=
  let unit := 5625000000000
  if anyBound s then
    let l := s.gov.energies.take 1 ++ (s.gov.energies.drop 1).filter fun e => s.tim.raw < e.1 + 40000000
    let d := unit * max 1 (l.map (·.2.2)).sum
    min 0xFFF ((10 * (l.map (·.2.1)).sum + 9 * d) / (10 * d)) * 16
  else
    match s.gov.energies.head? with
    | some (_, e, w) => min 0xFFFF ((e * 160 / (unit * w) + 64) / 10)
    | none => 0

/-- REED_GOV_STATUS (R167). -/
def reedGovStatus (s : State) (r : Nat) : Word :=
  let g := reedGov s r
  let ds := s.hedGovs.filterMap fun (h, x) => x.d1.map fun c => (h, demandOf s h (some c))
  packW [(48, 16, min 0xFFFF g.tq1), (32, 16, min 0xFFFF (reedDemand ds r (·.p))), (16, 16, min 0xFFFF (reedDemand ds r (·.u))), (0, 8, g.stretch)]

/-- HED_GOV (Table CS-10). -/
def hedGovView (s : State) (h : Nat) : Word :=
  let q := (hedGov s h).cur
  packW [(48, 16, q.qp), (32, 16, q.qu), (24, 8, stretchOf s h)]

end Sys2Proof.Machine
end

