-- ==== Sys2Proof/Machine/Trace.lean ====
section
/-! DEFINITION. Command trace (spec/06_command_trace.md), clock gaps (R99 to R102), pattern cards, event counters and stall samples
(R144 to R150) of a Heddle. -/

namespace Sys2Proof.Machine

/-! ### Stamps of a tap -/

/-- A word of region 0 of the calibration set as the line uses it: a write takes force at the next Gray update (R332). -/
def linWord (s : State) (k : Nat) : Nat :=
  match mfind s.cal.linOld k with
  | some e => if s.tim.raw / 16 ≤ e.2 / 16 then e.1 else mget 0 s.cal.lin k
  | none => mget 0 s.cal.lin k

/-- The 16 linearity bytes of the in-service line of a stamping point (R92, R95): region 0 of the calibration set as Machine/Cal keeps it; in a
calibration run the fresh line may be in service already (R96; notes/assumptions 75). -/
def lineOf (s : State) (point : Nat) : Nat :=
  let line := 2 * point + mget 0 s.cal.inService point
  let w := linWord s (2 * line) + 2 ^ 64 * linWord s (2 * line + 1)
  if s.tim.calRunning then (Config.freshLine s.tim.calRun point s.tim.raw).getD w else w

/-- The raw count that a stamping point reads at an event (R92): the Gray word's update and the corrected fraction. -/
def tapRaw (s : State) (point : Nat) (t : Tdc) : Bt := if strapOk s then s.tim.raw / 16 * 16 + tdcFrac (lineOf s point) t else 0

/-- Stamping points of the Heddles (Table BT-4, Table FS-8): issue; retire; stall, clock state, output beat and gate. -/
def ptIssue (h : Nat) : Nat := 3 * h
def ptRetire (h : Nat) : Nat := 3 * h + 1
def ptOther (h : Nat) : Nat := 3 * h + 2

/-- How many items a _SEQ skip shows lost (R28): 1 or 2 when it advanced by 2 or 3. -/
def seqLost (last : Option (BitVec 2)) (now : BitVec 2) : Nat :=
  match last with
  | none => 0
  | some l => let d := (now - l).toNat; if d = 2 then 1 else if d = 3 then 2 else 0

/-- Items lost on a Heddle's tap channel: CAPTURE_LOST and CAPTURE_OVERRUN (R28). -/
def captureLost (h n : Nat) (s : State) : State :=
  if n = 0 then s else setPortErr (pgHed h) 0 (bump s (pgHed h) 0x80 63 48 n)

/-- Whether a Heddle works as an ENABLED one: one that waits to leave ENABLED takes nothing new (R130). -/
def hedActive (s : State) (h : Nat) : Bool := isEnabled s (pgHed h) && (hed s h).leaving.isNone

/-! ### Contexts and cards -/

/-- Whether a context is traced (HED_CTX_EN). -/
def ctxOn (s : State) (h c : Nat) : Bool := regBit s (pgHed h) 0x40 c

/-- The contexts that are traced. -/
def ctxsOn (s : State) (h : Nat) : List Nat := (List.range 16).filter fun c => ctxOn s h c

/-- The card in force on a context; none is the null card (R145). -/
def card (s : State) (h c : Nat) : Option Card := mfind (hedC s h).cards c

/-- Whether a card selects a class for tracing (R126). -/
def traces (k : Option Card) (cls : Nat) : Bool :=
  match k with
  | some k => bit k.w0 (48 + cls)
  | none => false

/-- A number field of a card's second word, 0 for the null card. -/
def cardFld (k : Option Card) (hi lo : Nat) : Nat :=
  match k with
  | some k => fld k.w1 hi lo
  | none => 0

/-- The card that was in force on a context at a raw count (R145, R146): the one that the first change after it replaced. -/
def cardAt (s : State) (h c : Nat) (raw : Bt) : Option Card :=
  match ((hedC s h).was.filter fun e => e.1 == c && decide (raw < e.2.1)).getLast? with
  | some e => e.2.2
  | none => card s h c

/-- An entry judged under a card by its class (R126, R195). -/
def Ent.judge (k : Option Card) (e : Ent) : Ent :=
  { e with
    selected := traces k e.item.cls.toNat,
    mirror := match k with
      | some k => if bit k.w0 (32 + e.item.cls.toNat) then some (fld k.w1 31 26) else none
      | none => none }

/-- Bring an entry into force on a context from a raw count on (R145): commands issued from there on are judged under it; an invalid entry
leaves the card and sets BAD_CARD. A card that was replaced is kept while an instant before that may still be sampled. -/
def applyCard (h c e : Nat) (raw : Bt) (s : State) : State :=
  let w0 := regGet s (pgHed h) (0x400 + 0x20 * e)
  let w1 := regGet s (pgHed h) (0x408 + 0x20 * e)
  let s1 := updHedC h (fun x => { x with waiting := mdel x.waiting c }) s
  if bit w1 63 && fld w1 62 61 = 1 then
    let k : Card := ⟨e, w0, w1⟩
    let s2 := updHedC h (fun x =>
      { x with
        was := ((c, raw, mfind x.cards c) :: x.was).filter (fun e => decide (s.tim.raw < e.2.1 + 2 ^ 31)), cards := mins x.cards c k }) s1
    updHed h (fun x =>
      { x with ents := x.ents.map fun y => if y.item.ctx.toNat == c && decide (raw ≤ y.issueRaw) then y.judge (some k) else y }) s2
  else setErr (pgHed h) 7 s1

/-- One byte of a HED_CARD_MAP write (R145, Table CS-9). -/
def cardMapByte (h c b : Nat) (s : State) : State :=
  if fieldN b 6 6 = 0 then s
  else if fieldN b 7 7 = 1 then updHedC h (fun x => { x with waiting := mins x.waiting c (b % 32) }) s
  else applyCard h c (b % 32) s.tim.raw s

/-- A HED_CARD_MAP write: eight bytes, from context 0 or 8. -/
def cardMapWrite (h : Nat) (high : Bool) (d : Word) (s : State) : State :=
  (List.range 8).foldl (fun s i => cardMapByte h ((if high then 8 else 0) + i) (fld d (8 * i + 7) (8 * i)) s) s

/-- HED_CARD_ACTIVE (Table CS-10). -/
def cardActive (s : State) (h : Nat) (high : Bool) : Word :=
  packW ((List.range 8).map fun i =>
    let c := (if high then 8 else 0) + i
    (8 * i, 8, (if (mfind (hedC s h).waiting c).isSome then 128 else 0) +
      (match card s h c with
       | some k => k.entry
       | none => 32)))

/-! ### Coarsening (R311 to R313) -/

/-- The slot whose confidentiality coarsens a Heddle's records on a context: the Heddle is bound, and its bobbin is not latched with the
same slot (R311, R313). -/
def coarseSlot (s : State) (h c : Nat) : Option Nat :=
  match hedBound s h with
  | none => none
  | some t => if bobSlot s (strBob s (strHed h c)) == some t then none else some t

/-- A stamp with its low 12 bits cleared. -/
def coarse12 (n : Nat) : Nat := n / 4096 * 4096

/-- A count with its low 8 bits cleared. -/
def coarse8 (n : Nat) : Nat := n / 256 * 256

/-- A pick of a Heddle's stream with its stamp, flags and COARSE: the flags are decided on the exact stamp (R311). -/
def hedPick (s : State) (h c typ : Nat) (a : At) (others : List Nat) (own : Nat) (payload : Nat) : Pick :=
  let co := (coarseSlot s h c).isSome
  { typ := BitVec.ofNat 8 typ, flags := recFlags s a others (own ||| (if co then fCoarse else 0)),
    stamp := BitVec.ofNat 64 (if co then coarse12 a.stamp else a.stamp), payload := BitVec.ofNat 128 payload, ext := 0 }

/-- An identifier as a Heddle's record shows it. -/
def showId (s : State) (h c x kind w : Nat) : Nat :=
  match coarseSlot s h c with
  | some t => keyedTag (kslot s t).ktag x kind w
  | none => x

/-! ### Clock gaps -/

/-- Whether [a, b) overlaps a clock gap of a Heddle, an open one included (R102). -/
def gapped (s : State) (h a b : Nat) : Bool :=
  (hed s h).gaps.any (fun g => decide (a < g.2) && decide (g.1 < b) && decide (g.1 < g.2)) ||
  (match (hed s h).gap with
   | some g => decide (g.entry < b)
   | none => false)

/-- What a clock state counts as (R100): 0b11 is treated as stopped. -/
def clkEff (c : BitVec 2) : BitVec 2 := if c = 3 then 2 else c

/-- Open a clock gap (R100, R101). -/
def openGap (h stamp : Nat) (raw : Bt) (found : Bool) (s : State) : State :=
  let x := hed s h
  if x.clkState = 0 then s
  else
    let a := stampAt s (pgHed h) stamp raw
    updHed h (fun y =>
      { y with gap := some ⟨stamp, raw, a.und, a.wide, y.cycles.toNat, clkEff y.clkState, found, y.clkInvalid || y.clkState = 3⟩ }) s

/-- The open gap with the cycles counted in it. -/
def gapNow (s : State) (h : Nat) : Option (Gap × Nat) :=
  (hed s h).gap.map fun g => (g, ((hed s h).cycles - BitVec.ofNat 48 g.cycles).toNat)

/-- Take the open gap away, closed at a stamp; it is kept for GAPPED while a command or a record may overlap it (R102). -/
def dropGap (h exit : Nat) (s : State) : State :=
  updHed h (fun y => { y with
    gap := none, gaps := (match y.gap with
      | some g => y.gaps ++ [(g.entry, exit)]
      | none => y.gaps) }) s

/-- Close the open clock gap at a stamp (R100, R101); its record waits. `extra` holds CONTINUES. -/
def closeGap (h exit : Nat) (exitRaw : Bt) (extra : Nat) (s : State) : State :=
  match gapNow s h with
  | none => s
  | some (g, cyc) =>
    let s1 := dropGap h exit s
    if ctxOn s h 0 then
      hold h ⟨0, ⟨g.entry, g.entryRaw, g.und, g.wide⟩, exitRaw, exit, exitRaw + waitHed, .gap g exit cyc extra⟩ s1
    else s1

/-- Count ET_CLK edges (R99). -/
def addEdges (h edges : Nat) (s : State) : State := updHed h (fun y => { y with cycles := y.cycles + BitVec.ofNat 48 edges }) s

/-- A transition of ET_CLKSTATE (R100). -/
def clockState (h : Nat) (st : BitVec 2) (t : Tdc) (s : State) : State :=
  let raw := tapRaw s (ptOther h) t
  let stamp := beamAt s (pgHed h) raw
  let s0 := if st = 3 then setPortErr (pgHed h) 6 s else s
  let was := (hed s0 h).clkState
  let set := fun (s : State) => updHed h (fun y => { y with clkState := st, clkWas := y.clkState, clkRaw := raw, clkInvalid := st = 3 }) s
  if was = st then s0
  else if clkEff was = clkEff st then
    updHed h (fun y => { y with gap := y.gap.map fun g => { g with invalid := true } }) (set s0)
  else
    let s2 := set (closeGap h stamp raw 0 s0)
    if hedActive s2 h then openGap h stamp raw false s2 else s2

/-- A gap reaches the limit of its duration or cycles: it is closed with CONTINUES and a new one opens (R101). -/
def gapLimit (h : Nat) (s : State) : State :=
  match (hed s h).gap with
  | none => s
  | some g =>
    let cyc := ((hed s h).cycles - BitVec.ofNat 48 g.cycles).toNat
    let now := beamOf s (pgHed h)
    if g.entryRaw + 0xFFFFFFFF ≤ s.tim.raw || 0xFFFFFFFF ≤ cyc then openGap h now s.tim.raw false (closeGap h now s.tim.raw 4 s) else s

/-! ### Records of commands -/

/-- Whether an entry's identifiers can be written. -/
def Ent.known (e : Ent) : Bool := e.full && !e.noIds

/-- The stamp of a command's record. -/
def Ent.mark (e : Ent) : At := ⟨e.issue, e.issueRaw, e.und, e.wide⟩

/-- A begin-only record of an entry (R137, Tables CT-9, CT-10); `upto` ends the interval that GAPPED is judged over. -/
def beginOnly (s : State) (h reason : Nat) (e : Ent) (ids : Bool) (upto : Nat) : Pick :=
  let c := e.item.ctx.toNat
  let own := (if gapped s h e.issue upto then fGapped else 0) ||| (if e.item.addrOnly then fAddrOnly else 0)
  let z := fun n => if ids then n else 0
  let payload := if e.item.addrOnly then
      pack [(0, 57, z e.item.src.toNat), (57, 4, e.item.cls.toNat), (64, 57, z e.item.dst.toNat), (121, 4, reason), (125, 1, bn !ids)]
    else
      pack [(0, 24, z (showId s h c e.item.layer.toNat 1 24)), (24, 24, z (showId s h c e.item.op.toNat 2 24)), (48, 16, z e.item.tag.toNat),
        (64, 48, z (showId s h c e.item.tensor.toNat 3 48)), (112, 4, e.item.cls.toNat), (116, 4, reason), (120, 1, bn e.marker),
        (121, 1, bn !ids)]
  hedPick s h c 0x02 e.mark [] own payload

/-- The duration that a span shows (R131, R311). -/
def spanDur (co : Bool) (issue retire : Nat) : Nat := if co then coarse12 retire - coarse12 issue else retire - issue

/-- The span of a retired entry (R136, Tables CT-7, CT-8). -/
def spanPick (s : State) (h : Nat) (e : Ent) : Pick :=
  let c := e.item.ctx.toNat
  let co := (coarseSlot s h c).isSome
  let ids := e.known
  let kind := (if ids then 0 else 2) + (if e.cutAcc then 4 else 0) + (if e.tfAcc then 8 else 0)
  let dur := spanDur co e.issue e.retire
  let z := fun n => if ids then n else 0
  let own := (if gapped s h e.issue e.retire then fGapped else 0) ||| (if e.item.addrOnly then fAddrOnly else 0) |||
    (if e.cutAcc then fPostcut else 0) ||| (if stepBetween s e.issueRaw e.retireRaw then fStepped else 0)
  let payload := if e.item.addrOnly then
      pack [(0, 57, z (if e.form then e.item.dst.toNat else e.item.src.toNat)), (57, 1, bn e.form), (58, 2, e.status.toNat), (60, 4, kind),
        (64, 32, z e.item.len.toNat), (96, 32, min dur 0xFFFFFFFF)]
    else
      let id := if e.form then showId s h c e.item.tensor.toNat 3 48
        else showId s h c e.item.layer.toNat 1 24 + 2 ^ 24 * showId s h c e.item.op.toNat 2 24
      pack [(0, 48, z id), (48, 16, z e.item.tag.toNat), (64, 40, min dur 0xFFFFFFFFFF), (104, 4, e.item.cls.toNat), (108, 2, e.status.toNat),
        (110, 1, bn e.form), (111, 1, bn e.marker), (112, 4, kind)]
  hedPick s h c 0x01 e.mark [e.retire] own payload

/-- Whether a begin-only record of an entry carries its identifiers: TABLE_FULL takes them from the capture, the others from the Reed slot. -/
def Ent.ids (e : Ent) (reason : Nat) : Bool := reason = 2 || e.known

/-- Hold a begin-only record of an entry, if its class is selected. -/
def holdBegin (h reason : Nat) (e : Ent) (trig : Bt) (s : State) : State :=
  if !e.selected then s else hold h ⟨e.item.ctx.toNat, e.mark, trig, e.issue, e.issueRaw + waitHed, .begin e reason⟩ s

/-- The gaps kept for GAPPED are dropped when no command and no record is left that could overlap one. -/
def dropGaps (h : Nat) (s : State) : State :=
  updHed h (fun x => { x with gaps := if x.ents.isEmpty && x.held.isEmpty then [] else x.gaps }) s

/-- Remove an entry. -/
def freeEnt (h : Nat) (e : Ent) (s : State) : State :=
  dropGaps h (updHed h (fun x => { x with ents := x.ents.filter fun y => !(y.full == e.full && y.num == e.num) }) s)

/-- Change an entry. -/
def updEnt (h : Nat) (e : Ent) (f : Ent → Ent) (s : State) : State :=
  updHed h (fun x => { x with ents := x.ents.map fun y => if y.full == e.full && y.num == e.num then f y else y }) s

/-- Entries that a retire or a reused tag can match (Table CT-3). -/
def Ent.isOpen (e : Ent) : Bool := e.st != .retired

/-- The open entry of a context and tag. -/
def openEnt (s : State) (h : Nat) (c : BitVec 4) (tag : BitVec 16) : Option Ent :=
  (hed s h).ents.find? fun e => e.isOpen && e.item.ctx == c && e.item.tag == tag

/-- The lowest entry number free among full or light entries. -/
def freeEntNum (s : State) (h : Nat) (full : Bool) : Option Nat :=
  (List.range 16).find? fun i => !(hed s h).ents.any fun e => e.full == full && e.num == i

/-- HIGH_WATER follows the entries in use (Table CT-12). -/
def highWater (h : Nat) (s : State) : State :=
  let n := (hed s h).ents.length
  if regFld s (pgHed h) 0x68 63 56 < n then regSetFld s (pgHed h) 0x68 63 56 n else s

/-- Open a command (R129, R130), judged under the card in force at its stamp (R146). -/
def openCommand (h : Nat) (it : Issue) (stamp : Nat) (raw : Bt) (mark : Bool) (s : State) : State :=
  let c := it.ctx.toNat
  let pg := pgHed h
  let form := regBit s pg 0x58 ((if it.addrOnly then 16 else 0) + c)
  let served := (servingReed s h).isSome
  let a := stampAt s pg stamp raw
  let mk := fun full num st noIds =>
    (Ent.mk full num st it false form mark noIds stamp raw a.und a.wide 0 0 0 false false none).judge (cardAt s h c raw)
  match freeEntNum s h true with
  | some i =>
    let s1 := highWater h (updHed h (fun x => { x with ents := x.ents ++ [mk true i .opened (!served)] }) s)
    if served then s1 else setErr pg 5 (bump s1 pg 0x80 15 0 1)
  | none =>
    match freeEntNum s h false with
    | some i =>
      let e := mk false i .overflow false
      let s1 := setErr pg 2 (bump s pg 0x88 31 16 1)
      highWater h (holdBegin h 2 e raw (updHed h (fun x => { x with ents := x.ents ++ [e] }) s1))
    | none => bump s pg 0x80 31 16 1

/-- Close the entry of a reused tag (Table CT-3). -/
def tagReused (h : Nat) (e : Ent) (raw : Bt) (s : State) : State :=
  let pg := pgHed h
  let s1 := setErr pg 3 (bump s pg 0x88 47 32 1)
  freeEnt h e (if e.st == .opened then holdBegin h 4 e raw s1 else s1)

/-- An issue captured on an ENABLED Heddle (Table CT-1, R126 to R130, R145). The marker hook is applied by the caller. -/
def issueItem (h : Nat) (it : Issue) (s : State) : State :=
  let pg := pgHed h
  let raw := tapRaw s (ptIssue h) it.tdc
  let stamp := beamAt s pg raw
  let badMark := it.mark = 2 || it.mark = 3 || (it.mark = 1 && it.addrOnly)
  let isMark := it.mark = 1 && !it.addrOnly
  let s0 := if badMark then setPortErr pg 4 (bump s pg 0x88 15 0 1) else s
  let s1 := if isMark then regPut s0 pg 0x98 (BitVec.ofNat 64 stamp) else s0
  let s2 := if isMark then (match mfind (hedC s1 h).waiting it.ctx.toNat with
    | some e => applyCard h it.ctx.toNat e raw s1
    | none => s1) else s1
  if !ctxOn s2 h it.ctx.toNat then s2
  else
    let s3 := match openEnt s2 h it.ctx it.tag with
      | some e => tagReused h e raw s2
      | none => s2
    openCommand h it stamp raw isMark s3

/-- A retire captured (Table CT-1): close the open entry; or an end-only span. -/
def retireItem (h : Nat) (it : Retire) (s : State) : State :=
  let pg := pgHed h
  let raw := tapRaw s (ptRetire h) it.tdc
  let stamp := beamAt s pg raw
  match openEnt s h it.ctx it.tag with
  | some e => updEnt h e (fun y => { y with st := .retired, retire := stamp, retireRaw := raw, status := it.status }) s
  | none =>
    if !ctxOn s h it.ctx.toNat then s
    else
      let s1 := setPortErr pg 1 (bump s pg 0x80 47 32 1)
      hold h ⟨it.ctx.toNat, stampAt s pg stamp raw, raw, stamp, raw + waitHed, .endOnly it.tag it.status⟩ s1

/-- Accept the span of a retired entry, if its class is selected, and free the entry. -/
def acceptSpan (h : Nat) (e : Ent) (s : State) : State :=
  let s1 := if e.selected then
      let (acc, s2) := offerHed h e.item.ctx.toNat (.cls e.item.cls.toNat) e.retireRaw [spanPick s h e] s
      if acc then count s2 (pgHed h) 0x70 63 0 1 else s2
    else s
  freeEnt h e s1

/-- Insert by retire stamp (R132, R133). -/
def insertRetired (e : Ent) : List Ent → List Ent
  | [] => [e]
  | f :: l => if e.retireRaw < f.retireRaw then e :: f :: l else f :: insertRetired e l

/-- The retired entries in retire-stamp order. -/
def retiredEnts (s : State) (h : Nat) : List Ent := ((hed s h).ents.filter fun e => e.st == .retired).foldl (fun l e => insertRetired e l) []

/-! ### Event counters, counter samples, stall samples -/

/-- A transition of an event line (R147). -/
def eventLine (h : Nat) (line : BitVec 5) (s : State) : State :=
  updHedC h (fun x => { x with evt := mupd 0 x.evt line.toNat (· + 1) }) s

/-- The cards that may govern a sample on a context: the one in force, those that were, and the entry that waits for a marker. -/
def mayCards (s : State) (h c : Nat) : List (Option Card) :=
  let x := hedC s h
  [card s h c] ++ ((x.was.filter fun e => e.1 == c).map fun e => e.2.2) ++
  (match mfind x.waiting c with
   | some e => [some ⟨e, regGet s (pgHed h) (0x400 + 0x20 * e), regGet s (pgHed h) (0x408 + 0x20 * e)⟩]
   | none => [])

/-- The interval exponents that counter sampling (hi 60 lo 56) or periodic stall sampling (hi 55 lo 51) of a context may have, from the least
stretch that may govern an instant not taken yet (R148, R150, R156). -/
def mayIntervals (s : State) (h c hi lo : Nat) : List Nat :=
  let st := ((hedGov s h).past.map (·.2.stretch)).foldl min (stretchOf s h) - 1
  ((mayCards s h c).map fun k => cardFld k hi lo).filterMap fun m => if m = 0 then none else some (min (m + st) 31)

/-- The interval exponent of a context at an instant, if it samples there (R148, R150): by the card and the stretch in force at it. Exponents
1 to 9 are taken as they stand (DESIGN CHOICE 66). -/
def interval (s : State) (h c hi lo : Nat) (raw : Bt) : Option Nat :=
  let m := cardFld (cardAt s h c raw) hi lo
  if m = 0 then none else some (min (m + (winAt s h raw).stretch) 31)

/-- The raw count of the instant that Beam has last reached, of the shortest interval that a context may have (R148). -/
def lastInstant (s : State) (h hi lo : Nat) : Option Bt :=
  match (ctxsOn s h).flatMap fun c => mayIntervals s h c hi lo with
  | [] => none
  | e :: es => lastMultiple s (pgHed h) (2 ^ es.foldl min e)

/-- The lines that a card reports, ascending (R149). -/
def cardLines (k : Option Card) : List Nat :=
  match k with
  | some k => (List.range 32).filter fun i => bit k.w0 i
  | none => []

/-- Latch the counters at the instant last reached (R148): what each context makes of it is decided by what governs the instant. -/
def counterSample (h : Nat) (s : State) : State :=
  match (if hedActive s h then lastInstant s h 60 56 else none) with
  | none => s
  | some raw =>
    if !isNew (hedC s h).lastCnt raw then s
    else
      let t := beamOf s (pgHed h) - (s.tim.raw - raw)
      let a := stampAt s (pgHed h) t raw
      (ctxsOn s h).foldl (fun s c => hold h ⟨c, a, raw, t, raw + waitHed, .sample (hed s h).cycles (hedC s h).evt⟩ s)
        (updHedC h (fun x => { x with lastCnt := some raw }) s)

/-- The stall reason in force at a raw count, the raw count of its beginning, and the bt stalled and the changes before it (R150). -/
def stallAt (x : HedCount) (raw : Bt) : BitVec 8 × Bt × Nat × Nat :=
  if raw < x.reasonRaw then
    (x.reasonWas, x.reasonWasRaw, x.stalled - (if x.reasonWas = 0 then 0 else x.reasonRaw - x.reasonWasRaw), x.changes - 1)
  else (x.reason, x.reasonRaw, x.stalled, x.changes)

/-- bt stalled up to a raw count, the reason in force there included. -/
def stalledTo (x : HedCount) (raw : Bt) : Nat :=
  let r := stallAt x raw
  r.2.2.1 + (if r.1 = 0 then 0 else raw - r.2.1)

/-- A transition of ET_STALL (R150). -/
def stallChange (h : Nat) (r : BitVec 8) (t : Tdc) (s : State) : State :=
  let raw := tapRaw s (ptOther h) t
  let stamp := beamAt s (pgHed h) raw
  let x := hedC s h
  if x.reason = r then s
  else
    let stalled := x.stalled + (if x.reason = 0 then 0 else raw - x.reasonRaw)
    let s1 := updHedC h (fun x =>
      { x with
        reason := r, reasonAt := stamp, reasonRaw := raw, reasonWas := x.reason, reasonWasRaw := x.reasonRaw, stalled := stalled,
        changes := x.changes + 1 }) s
    if !hedActive s1 h then s1
    else
      (ctxsOn s h).foldl (fun s c =>
        hold h ⟨c, stampAt s (pgHed h) stamp raw, raw, stamp, raw + waitHed,
          .stall 1 r x.reason (raw - x.reasonRaw) stalled (x.changes + 1)⟩ s) s1

/-- Take the stall state at the periodic instant last reached (R150). -/
def stallPeriodic (h : Nat) (s : State) : State :=
  match (if hedActive s h then lastInstant s h 55 51 else none) with
  | none => s
  | some raw =>
    if !isNew (hedC s h).lastStl raw then s
    else
      let t := beamOf s (pgHed h) - (s.tim.raw - raw)
      let x := hedC s h
      let r := stallAt x raw
      (ctxsOn s h).foldl (fun s c =>
        hold h ⟨c, stampAt s (pgHed h) t raw, raw, t, raw + waitHed, .stall 0 r.1 0 (raw - r.2.1) (stalledTo x raw) r.2.2.2⟩ s)
        (updHedC h (fun x => { x with lastStl := some raw }) s)

/-! ### Acceptance (R132, R133, R249) -/

/-- A span with NO_BEGIN (R133). -/
def endOnlyPick (s : State) (h : Nat) (x : Held) (tag : BitVec 16) (status : BitVec 2) : Pick :=
  hedPick s h x.ctx 0x01 x.at_ [] 0 (pack [(48, 16, tag.toNat), (108, 2, status.toNat), (112, 4, 3)])

/-- A clock gap's pick (Table BT-6). -/
def gapPick (s : State) (h : Nat) (g : Gap) (exit cyc extra : Nat) : Pick :=
  let co := (coarseSlot s h 0).isSome
  let dur := if co then coarse12 exit - coarse12 g.entry else exit - g.entry
  let c8 := fun n => if co then coarse8 n else n
  hedPick s h 0 0x05 ⟨g.entry, g.entryRaw, g.und, g.wide⟩ [] 0
    (pack [(0, 32, min dur 0xFFFFFFFF), (32, 48, c8 g.cycles), (80, 32, min (c8 (if g.state = 2 then 0 else cyc)) 0xFFFFFFFF),
      (112, 8, g.state.toNat + extra + (if g.foundAtEnable then 8 else 0) + (if g.invalid then 32 else 0))])

/-- Whether a gap that closed at a raw count has a record: its context is traced and its card has GAP 1 (R100). -/
def gapTraced (s : State) (h : Nat) (raw : Bt) : Bool := cardFld (cardAt s h 0 raw) 49 49 = 1

/-- The picks of one counter sample (R149, Table CS-2). -/
def samplePicks (s : State) (h : Nat) (x : Held) (cycles : BitVec 48) (evt : List (Nat × BitVec 48)) : List Pick :=
  let co := (coarseSlot s h x.ctx).isSome
  let c8 := fun n => if co then coarse8 n else n
  let cyc := c8 cycles.toNat
  let v := fun l => c8 (mget (0 : BitVec 48) evt l).toNat
  let pairs := chunks 2 17 (cardLines (cardAt s h x.ctx x.trig))
  let pick := fun (first : Bool) (ls : List Nat) =>
    let a := match ls with
      | a :: _ => [(48, 5, a), (53, 1, 1), (64, 32, v a)]
      | [] => []
    let b := match ls with
      | [_, b] => [(56, 5, b), (61, 1, 1), (96, 32, v b)]
      | _ => []
    hedPick s h x.ctx 0x03 x.at_ [] (if isRepeated s x.at_ then fStepped else 0) (pack ([(0, 48, cyc), (54, 1, bn first)] ++ a ++ b))
  match pairs with
  | [] => [pick true []]
  | p :: ps => pick true p :: ps.map (pick false)

/-- A stall sample's pick (Table CS-3): the accumulators since the stream's last accepted one (R150). -/
def stallPick (s : State) (h : Nat) (x : Held) (kind : Nat) (reason old : BitVec 8) (held stalled changes : Nat) : Pick :=
  let b := mget (0, 0) (hedC s h).base x.ctx
  let co := (coarseSlot s h x.ctx).isSome
  let c12 := fun n => if co then coarse12 n else n
  hedPick s h x.ctx 0x04 x.at_ [] (if kind = 0 && isRepeated s x.at_ then fStepped else 0)
    (pack [(0, 8, reason.toNat), (8, 8, old.toNat), (16, 8, kind), (32, 32, min (c12 held) 0xFFFFFFFF),
      (64, 32, min (c12 (stalled - b.1)) 0xFFFFFFFF), (96, 16, min (if co then coarse8 (changes - b.2) else changes - b.2) 0xFFFF)])

/-- Whether a context takes a stall sample (R150). -/
def stallTraced (s : State) (h : Nat) (x : Held) (kind held : Nat) : Bool :=
  if kind = 0 then
    match interval s h x.ctx 55 51 x.trig with
    | some e => x.at_.stamp % 2 ^ e = 0
    | none => false
  else
    let k := cardAt s h x.ctx x.trig
    cardFld k 50 50 = 1 && decide (cardFld k 47 32 ≤ held)

/-- Whether a context takes a counter sample (R148). -/
def sampleTraced (s : State) (h : Nat) (x : Held) : Bool :=
  match interval s h x.ctx 60 56 x.trig with
  | some e => x.at_.stamp % 2 ^ e = 0
  | none => false

/-- The stop cut marker of a Heddle's stream (Table SS-4). -/
def markerPick (s : State) (x : Held) (kind source : Nat) (num : BitVec 16) (dist following : Nat) : Pick :=
  markerAt s x.at_ (pack [(0, 8, kind), (8, 8, source), (16, 16, num.toNat), (32, 32, min 0xFFFFFFFF dist), (64, 16, following)])

/-- A marker, and the OPEN_AT_CUT records and the clock gap that follow it (R133, R140, R254); how many of these were accepted. -/
def cutGroup (h : Nat) (x : Held) (marker : Option Pick) (ents : List Ent) (gap : Option (Gap × Nat)) (s : State) : Nat × State :=
  let tc := x.at_.stamp
  let s0 := match marker with
    | some p => (offerHed h x.ctx .exempt x.trig [p] s).2
    | none => s
  let r := ents.foldl (fun (acc : Nat × State) e =>
    let o := offerHed h x.ctx .exempt x.trig [beginOnly acc.2 h 1 e e.known tc] acc.2
    if o.1 then
      (acc.1 + 1, updHed h (fun y =>
        { y with ents := y.ents.map fun z => if z.full == e.full && z.num == e.num && z.issueRaw == e.issueRaw then { z with cutAcc := true } else z })
        (count o.2 (pgHed h) 0x78 63 32 1))
    else (acc.1, o.2)) (0, s0)
  match gap with
  | some (g, cyc) =>
    if gapTraced r.2 h x.trig then
      let o := offerHed h x.ctx (.cls 18) x.trig [gapPick r.2 h g tc cyc 16] r.2
      (r.1 + bn o.1, o.2)
    else r
  | none => r

/-- Decide a record that has waited, and do what its acceptance does (R133, R140, R150). -/
def Held.take (h : Nat) (x : Held) (s : State) : State :=
  let pg := pgHed h
  match x.what with
  | .begin e reason =>
    let r := offerHed h x.ctx (.cls e.item.cls.toNat) x.trig [beginOnly s h reason e (e.ids reason) (beamOf s pg)] s
    if r.1 then
      let s1 := count r.2 pg 0x78 63 32 1
      if reason = 2 then
        updHed h (fun y => { y with ents := y.ents.map fun z =>
          if !z.full && z.num == e.num && z.issueRaw == e.issueRaw then { z with tfAcc := true } else z }) s1
      else s1
    else r.2
  | .endOnly tag status =>
    let r := offerHed h x.ctx .unknown x.trig [endOnlyPick s h x tag status] s
    if r.1 then count (count r.2 pg 0x70 63 0 1) pg 0x78 31 0 1 else r.2
  | .gap g exit cyc extra =>
    if gapTraced s h x.trig then (offerHed h x.ctx (.cls 18) x.trig [gapPick s h g exit cyc extra] s).2 else s
  | .sample cycles evt =>
    if sampleTraced s h x then (offerHed h x.ctx (.cls 16) x.trig (samplePicks s h x cycles evt) s).2 else s
  | .stall kind reason old held stalled changes =>
    if stallTraced s h x kind held then
      let r := offerHed h x.ctx (.cls 17) x.trig [stallPick s h x kind reason old held stalled changes] s
      if r.1 then updHedC h (fun y => { y with base := mset (0, 0) y.base x.ctx (stalled, changes) }) r.2 else r.2
    else s
  | .throttle payload => (offerHed h x.ctx .exempt x.trig [pickAt s x.at_ 0x06 0 payload] s).2
  | .cut marked source num dist ents gap =>
    let mk := fun n => if marked then some (markerPick s x 0 source num dist n) else none
    -- how many records follow is found by taking them once (R254); the run that holds them is closed (R171, Table SS-9)
    closeRun (strHed h x.ctx) (cutGroup h x (mk (cutGroup h x (mk 0) ents gap s).1) ents gap s).2
  | .resume source num dist => (offerHed h x.ctx .exempt x.trig [markerPick s x 1 source num dist 0] s).2

/-- Whether a span that retired before a raw count still waits on a context. -/
def spanWaits (s : State) (h c : Nat) (raw : Bt) : Bool :=
  (hed s h).ents.any fun e => e.st == .retired && e.item.ctx.toNat == c && decide (e.retireRaw < raw)

/-- Whether a record that waits may be accepted: a span with NO_BEGIN, and a LEFT_ENABLED record, follow the spans of their stream that
retired before their trigger (R133). -/
def Held.ready (s : State) (h : Nat) (x : Held) : Bool :=
  mayAccept s h x.latest x.due x.trig &&
  (match x.what with
   | .endOnly _ _ | .begin _ 3 => !spanWaits s h x.ctx x.trig
   | _ => true)

/-- Decide a record, or let it wait on behind an earlier one of its stream. -/
def offerHeld (h : Nat) (x : Held) (s : State) : State :=
  if (hed s h).held.any (fun (y : Held) => y.ctx == x.ctx) || !x.ready s h then hold h x s else x.take h s

/-- Accept the records of a Heddle that have waited long enough, each stream's in their order (R133). -/
def settleHed (h : Nat) (s : State) : State :=
  let xs := (hed s h).held
  if xs.isEmpty then s
  else dropGaps h (xs.foldl (fun s x => offerHeld h x s) (updHed h (fun y => { y with held := [] }) s))

/-- Whether a record that waits comes before the span of an entry (R133): an earlier span with NO_BEGIN, or the records of a cut at or before
its retire. -/
def Held.before (x : Held) (e : Ent) : Bool :=
  x.ctx == e.item.ctx.toNat && (match x.what with
    | .endOnly _ _ => decide (x.trig < e.retireRaw)
    | .cut _ _ _ _ _ _ => decide (x.at_.stamp ≤ e.retire)
    | _ => false)

/-- Whether the span of a retired entry may be accepted (R132, R133, R249): a Reed returns its identifiers. -/
def spanReady (s : State) (h : Nat) (e : Ent) : Bool :=
  (servingReed s h).isSome && mayAccept s h e.retire (e.retireRaw + waitHed) e.retireRaw && !(hed s h).held.any fun x => x.before e

/-- The first span in retire order that may be accepted, once what waits before it is settled. -/
def spanAccept (h : Nat) (s : State) : State :=
  let s1 := settleHed h s
  match (retiredEnts s1 h).find? fun e => spanReady s1 h e with
  | some e => settleHed h (acceptSpan h e s1)
  | none => s1

/-- Every span and record of a Heddle that may be accepted now is, the fuel bounding the rounds. -/
def settleSpans : Nat → Nat → State → State
  | 0, h, s => settleHed h s
  | fuel + 1, h, s =>
    let s1 := settleHed h s
    match (retiredEnts s1 h).find? fun e => spanReady s1 h e with
    | some e => settleSpans fuel h (acceptSpan h e s1)
    | none => s1

/-! ### Entering and leaving ENABLED -/

/-- A Heddle is to leave ENABLED by DISABLE, RETIRE or PART_RESET (Table CT-3, R101): open commands are freed, with begin-only records, and the
clock gap is closed; the records wait, as the spans of retired commands do. -/
def hedLeaves (h : Nat) (s : State) : State :=
  let s1 := (hed s h).ents.foldl (fun s e =>
    if e.st == .retired then s else freeEnt h e (if e.st == .opened then holdBegin h 3 e s.tim.raw s else s)) s
  closeGap h (beamOf s1 (pgHed h)) s1.tim.raw 0 s1

/-- Whether a Heddle has no record left to accept. -/
def hedSettled (s : State) (h : Nat) : Bool := (hed s h).held.isEmpty && !(hed s h).ents.any fun e => e.st == .retired

/-- A Heddle's fatal fault frees its entries without records (Table CT-3); what waited is not accepted any more; its gap is closed (R101). -/
def hedFails (h : Nat) (s : State) : State :=
  let n := (hed s h).ents.length
  let s1 := updHed h (fun x => { x with ents := [], held := [], leaving := none, gaps := [] }) s
  let s2 := if n = 0 then s1 else bump s1 (pgHed h) 0x88 63 48 n
  dropGaps h (closeGap h (beamOf s2 (pgHed h)) s2.tim.raw 0 s2)

/-- A Heddle enters ENABLED: a clock that is not running opens a gap (R101). -/
def hedEnters (h : Nat) (s : State) : State := openGap h (beamOf s (pgHed h)) s.tim.raw true s

/-! ### What the page shows -/

/-- The read-only words of the trace and counter registers of a HED page (Tables CT-12, CS-10, R311). -/
def traceView (s : State) (h off : Nat) : Word :=
  let x := hed s h
  let co := (hedBound s h).isSome
  if off = 0x68 then
    packW [(8, 5, (x.ents.filter fun e => !e.full).length), (0, 5, (x.ents.filter fun e => e.full).length)]
  else if off = 0x90 then packW [(0, 48, if co then coarse8 x.cycles.toNat else x.cycles.toNat)]
  else if off = 0x128 then cardActive s h false
  else if off = 0x130 then cardActive s h true
  else if off = 0x138 then hedGovView s h
  else if 0x200 ≤ off && off < 0x300 then
    let v := (mget (0 : BitVec 48) (hedC s h).evt ((off - 0x200) / 8)).toNat
    packW [(0, 48, if co then coarse8 v else v)]
  else 0

end Sys2Proof.Machine
end

