-- ==== Sys2Proof/Machine/Stop.lean ====
section
/-! DEFINITION. The sources of a stop and its launch in the Hub (R245 to R250). -/

namespace Sys2Proof.Machine

/-! ### State -/

/-- A Heddle's stop state at reset. -/
def HedStop.zero : HedStop :=
  { hold := 0, line := false, ack := false, ackStamp := 0, learnt := false, learntRaw := 0, tc := 0, markers := [], atCut := false, scan := 0, words := 0,
    buf := [], blkNo := 0, out := none, limit := 0, wordAsked := none, ended := false, stallAtTc := 0, clkAtTc := 0, cyclesAtTc := 0 }

/-- A Heddle's stop state. -/
def hedStop (s : State) (h : Nat) : HedStop := mget HedStop.zero s.hedStops h

/-- Change it. -/
def updHedStop (h : Nat) (f : HedStop → HedStop) (s : State) : State := { s with hedStops := mupd HedStop.zero s.hedStops h f }

/-- A link port's stop state at reset. -/
def LinkCut.zero : LinkCut :=
  { grace := false, frozen := false, inFlight := 0, post := 0, unknown := 0, lost := 0, lpAtTc := 0, lastPre := 0, tc := 0 }

/-- A link port at reset. -/
def Link.zero : Link :=
  { lp := 0, lpWas := 0, lpRaw := 0, held := [], topo := 0, absentFrom := none, absentMs := 0, seen := none, lastChange := 0, seq := none, ring := [], next := 0, mark := 0,
    freeze := 0, thread := 0, threads := [], lostSince := 0, toLedger := [], warned := false, eqValid := false, eqEpoch := 0, cut := LinkCut.zero }

/-- A link port. -/
def link (s : State) (n : Nat) : Link := mget Link.zero s.links n

/-- Change it. -/
def updLink (n : Nat) (f : Link → Link) (s : State) : State := { s with links := mupd Link.zero s.links n f }

/-- The link ports. -/
def linkList (s : State) : List Nat := (List.range 96).filter fun n => decide (n % 24 < s.inst.linksPerDir)

/-- The home pages that a stop's pulse goes to: every instantiated Heddle and link port (R246). -/
def treePages (s : State) : List Nat := (linkList s).map pgLnk ++ (hedList s).map pgHed

/-- Whether a part has learnt Tc of the stop in force: armed parts that have fired. -/
def hasCut (s : State) (p : Nat) : Bool :=
  if 0x1000 ≤ p then (hedStop s (p - 0x1000)).learnt else (link s (p - 0x10)).cut.grace || (link s (p - 0x10)).cut.frozen

/-- Bits of STOP_CTL (Table SS-10). -/
def ctlPinIn (w : Word) : Bool := bit w 0
def ctlPinOut (w : Word) : Bool := bit w 1
def ctlScan (w : Word) : Bool := bit w 2
def ctlSnag (w : Word) : Bool := bit w 3
def ctlOnPoison (w : Word) : Bool := bit w 4

/-- HOLD_LIMIT in bt. -/
def ctlHoldLimit (w : Word) : Nat := fld w 47 28 * 4000

/-! ### Gather timers (R202, Table WA-8) -/

/-- No witness state. -/
def WitReed.zero : WitReed :=
  { queue := [], checks := [], order := [], tombs := [], nextId := 0, vecKey := 0, started := false, todo := [], busy := [], out := [] }

/-- The witness state of a Reed. -/
def witReed (s : State) (r : Nat) : WitReed := mget WitReed.zero s.wits r

/-- Change it. -/
def updWit (r : Nat) (f : WitReed → WitReed) (s : State) : State := { s with wits := mupd WitReed.zero s.wits r f }

/-- The gather timers of every Reed stop at a cut. -/
def pauseGather (raw : Bt) (s : State) : State :=
  (s.wits.map (·.1)).foldl (fun s r => updWit r (fun x =>
    { x with
      checks := x.checks.map fun c => { c with gathered := c.gathered + (raw - c.ticking), ticking := raw },
      tombs := x.tombs.map fun t => { t with ends := t.ends - raw } }) s) s

/-- The gather timers of a Reed start again at a resume. -/
def restartGather (r : Nat) (s : State) : State :=
  updWit r (fun x =>
    { x with
      checks := x.checks.map fun c => { c with ticking := s.tim.raw },
      tombs := x.tombs.map fun t => { t with ends := t.ends + s.tim.raw } }) s

/-- Whether a Reed's gather timers stand: from the launch until the Reed learns Tr from the first of its Heddles (R246, R259). -/
def gatherPaused (s : State) (r : Nat) : Bool :=
  match s.stop.phase with
  | .cutting | .snagging | .stopped => true
  | .resuming => (reedHeds s r).all fun h => s.stop.resumeTodo.contains (pgHed h)
  | _ => false

/-- What a gather timer of Reed r has counted. -/
def gatherTime (s : State) (r : Nat) (c : Check) : Nat := c.gathered + (if gatherPaused s r then 0 else s.tim.raw - c.ticking)

/-! ### The launch -/

/-- A launch or time-triggered cut with its Tc (R245, R250): the phase is CUTTING, the settings are latched, the tree carries Tc, the open
runs of the Hub's packer close (Table SS-3), and source 35 is raised. -/
def launch (src tc : Nat) (s : State) : State :=
  let ctl := regGet s pgStop 0x40
  let raw := s.tim.raw - (hubBeam s - tc)
  let s1 := pauseGather raw s
  let s2 := { s1 with
    stop := { s1.stop with
      phase := .cutting, num := s1.stop.num + 1, source := src, tc := tc, tcRaw := raw, out := s1.stop.out || ctlPinOut ctl, ctl := ctl,
      scanBase := regGet s pgStop 0x70, scanLog := regFld s pgStop 0x78 5 0, snagBase := regGet s pgStop 0x80,
      snagLog := regFld s pgStop 0x88 5 0, hdrTs := regGet s pgStop 0x90, discAtTc := s.tim.disc,
      cutTodo := (treePages s).filter fun p => !hasCut s p, resumeTodo := [],
      armed := if src = 3 then s.stop.armed else [], fired := [] } }
  let s3 := if ctlScan ctl && s2.stop.scanBase = 0 then setErr pgStop 2 s2 else s2
  raise 35 (closeBobs (writerBobs s3 256) s3)

/-- The Hub's Beam reaches the armed Tc (R247): ARM_INCOMPLETE where a part that is ENABLED was not armed. -/
def launchArmed (s : State) : State :=
  let pages := (linkList s).map pgLnk ++ (reedList s).map pgReed ++ (hedList s).map pgHed
  let missed := pages.any fun p => isEnabled s p && !s.stop.armed.contains p && !s.stop.fired.contains p
  let s1 := if missed then setErr pgStop 0 s else s
  launch 3 s.stop.armedAt s1

/-- A host STOP_NOW (1), a recognised STOP_IN (2) or a placed POISON (4) with its stamp, in any phase (R248, Table SS-2). -/
def stopEvent (src stamp : Nat) (s : State) : State :=
  let ignored := fun (s : State) => if src = 2 then bump s pgStop 0x98 31 16 1 else s
  match s.stop.phase with
  | .idle => launch src stamp s
  | .armed =>
    if hubBeam s + s.stop.guard < s.stop.armedAt then launch src stamp (bump s pgStop 0x98 47 32 1)
    else if hubBeam s < s.stop.armedAt then bump s pgStop 0x98 63 48 1
    else ignored (launchArmed s)
  | _ => ignored s

end Sys2Proof.Machine
end

