-- ==== Sys2Proof/Machine/Verdicts.lean ====
section
/-! DEFINITION. Verdict epochs, the taint ledger, the notice queue, verdict gates, error reports and the in-field test ledger
(spec/10_verdicts.md). -/

namespace Sys2Proof.Machine

/-! ### Epochs -/

/-- Epoch a is after epoch b (R221). -/
def after16 (a b : BitVec 16) : Bool := let d := (a - b).toNat; 1 ≤ d && d < 2 ^ 15

/-- The length of an epoch in bt. -/
def epochLen (s : State) : Nat := 2 ^ regFld s pgHub 0x240 4 0

/-- The verdict epoch of a raw count (R221). -/
def epochOf (s : State) (raw : Bt) : BitVec 16 := BitVec.ofNat 16 (raw / epochLen s)

/-- The current epoch. -/
def epochNow (s : State) : BitVec 16 := epochOf s s.tim.raw

/-- Change the own die's values. -/
def updOwn (f : Own → Own) (s : State) : State := { s with ver := { s.ver with own := f s.ver.own } }

/-- Who runs notices (R325): 0 firmware, 1 host, 2 Hub. -/
def fwOwner (s : State) : Nat :=
  if s.fw.phase = 3 || s.fw.phase = 4 then 2 else if isWorking s pgFw && !s.fw.halted then 0 else 1

/-- The epochs, as whole numbers, of checks without a result and of mirrored beats that still wait in a queue (R222). -/
def unsettledEpochs (s : State) : List Nat :=
  (s.wits.map fun e => e.2.checks.map (·.firstRaw / epochLen s) ++ e.2.queue.map (·.raw / epochLen s)).flatten

/-- The oldest epoch that is not settled, as a whole number (R222). -/
def oldestUnsettled (s : State) : Nat := (unsettledEpochs s).foldl min (s.tim.raw / epochLen s)

/-- Whether the Hub evaluates: not in RESETTING, nor FAILED. -/
def hubEvaluates (s : State) : Bool := pst s pgHub != .resetting && pst s pgHub != .failed

/-- How many epochs OWN_CLEARED_THRU lies behind the current one. -/
def clearedBack (s : State) : Int := signedN 16 (epochNow s - s.ver.own.cleared).toNat

/-- The oldest epoch with a check that ended FAIL or UNCHECKED, as a whole number; one past the current epoch if there is none. -/
def oldestBad (s : State) : Nat := (s.ver.own.bad.map (· / epochLen s)).foldl min (s.tim.raw / epochLen s + 1)

/-- OWN_CLEARED_THRU follows the settled epochs (R222), from a value that lies `back` epochs behind the current one: it never passes a
check that has not ended PASS, and never reaches OWN_TAINT_FROM while TAINTED. -/
def settleFrom (back : Int) (s : State) : State :=
  if !hubEvaluates s then s
  else
    let cur : Int := ((s.tim.raw / epochLen s : Nat) : Int)
    let b1 : Int := cur - (min (oldestUnsettled s) (oldestBad s) : Nat) + 1
    let o := s.ver.own
    let b2 : Int := if o.tainted then max b1 (back - signedN 16 (o.taintFrom - 1 - o.cleared).toNat) else b1
    if b2 < back then updOwn (fun o => { o with cleared := BitVec.ofInt 16 (cur - b2) }) s else s

/-- OWN_CLEARED_THRU follows the settled epochs now. -/
def settleEpochs (s : State) : State := settleFrom (clearedBack s) s

/-- The own die becomes tainted from an epoch (R222); whether anything changed. -/
def taintOwn (f : BitVec 16) (s : State) : Bool × State :=
  let o := s.ver.own
  if !o.tainted || after16 o.taintFrom f then
    (true, updOwn (fun o => { o with tainted := true, taintFrom := f, cleared := if after16 f o.cleared then o.cleared else f - 1 }) s)
  else (false, s)

/-! ### Sensors (R47, R239, R338) -/

/-- The lowest channel of a kind (0 temperature, 1 voltage) that serves a Heddle, or the Hub's own units (R338). -/
def channelFor (s : State) (kind : Nat) (h : Option Nat) : Option Nat :=
  (List.range s.inst.sensors).find? fun ch =>
    let w := snsMap s ch
    bit w 63 && fld w 62 62 == kind && (match h with
      | none => bit w 61
      | some h => decide (fld w 43 32 ≤ h) && decide (h ≤ fld w 55 44))

/-- The reference Heddle of a unit (R338): the notice queue has none and takes the Hub's channels; a key slot is assigned no channel. -/
def refHeddle (s : State) (unit index : Nat) : Option (Option Nat) :=
  if unit = 3 then some (some (index * s.inst.hpr)) else if unit = 4 then some (some (index / 4 * s.inst.hpr))
  else if unit = 5 then some none else if unit = 6 then none else some (some index)

/-- The samples of a channel, oldest first. -/
def samples (s : State) (ch : Nat) : List (Nat × BitVec 16) := mget [] s.sens ch

/-- The number of a sample: a temperature is signed. -/
def sampleVal (kind : Nat) (v : BitVec 16) : Int := if kind = 0 then v.toInt else v.toNat

/-- A quotient rounded to a whole number; the manual gives no rule, so an inexact one is a free choice of the two neighbours. -/
def freeRound (n : Int) (d : Nat) (s : State) : Int × State :=
  let q := n / (d : Int)
  if n % (d : Int) = 0 then (q, s)
  else let (k, s1) := takeFree s; (if Config.roundUp k then q + 1 else q, s1)

/-- A value of an error report (R239): found, valid, extrapolated. None: the later sample has not come. -/
def senseAt (s : State) (kind : Nat) (ch : Option Nat) (stamp : Nat) (force : Bool) : Option (Bool × Bool × Int × Nat) :=
  match ch with
  | none => some (false, false, 0, 1)
  | some c =>
    let xs := samples s c
    match (xs.filter fun e => decide (e.1 ≤ stamp)).getLast?, xs.find? fun e => decide (stamp < e.1) with
    | some a, some b =>
      let d := b.1 - a.1
      some (true, false, sampleVal kind a.2 * d + (sampleVal kind b.2 - sampleVal kind a.2) * ((stamp - a.1 : Nat) : Int), d)
    | some a, none =>
      if a.1 = stamp then some (true, false, sampleVal kind a.2, 1)
      else if force then some (true, true, sampleVal kind a.2, 1) else none
    | none, some _ => some (false, false, 0, 1)
    | none, none => if force then some (false, false, 0, 1) else none

/-- The average over the 10 ms before a stamp, rounded to a multiple of a step (Table TK-5). -/
def senseMean (s : State) (kind : Nat) (ch : Option Nat) (stamp step : Nat) : Bool × Int :=
  match ch with
  | none => (false, 0)
  | some c =>
    let xs := (samples s c).filter fun e => decide (e.1 ≤ stamp) && decide (stamp < e.1 + 40000000)
    if xs.isEmpty then (false, 0)
    else
      let sum := (xs.map fun e => sampleVal kind e.2).sum
      let n : Int := (xs.length * step : Nat)
      (true, (2 * sum + n) / (2 * n) * step)

/-- Bytes 24 to 31 of an error report. -/
def senseWord (tch vch : Option Nat) (t v : Bool × Bool × Int) : BitVec 64 :=
  BitVec.ofNat 64 (pack [(0, 16, if t.1 then fieldOfInt 16 t.2.2 else 0), (16, 16, if v.1 then fieldOfInt 16 v.2.2 else 0), (32, 8, tch.getD 0),
    (40, 8, vch.getD 0), (48, 1, bn t.1), (49, 1, bn v.1), (50, 1, bn (t.2.1 || v.2.1))])

/-- Fill temperature and voltage of an error report (R239, R338, Table TK-5); none while the later sample is still to come. -/
def fillReport (r : ErrReport) (force : Bool) (s : State) : Option (ErrReport × State) :=
  if !r.sensed || r.filled then some (r, s)
  else
    let ref := refHeddle s r.unit r.index
    let tch := ref.bind (channelFor s 0 ·)
    let vch := ref.bind (channelFor s 1 ·)
    if r.unit = 1 && (hedBound s r.index).isSome then
      let t := senseMean s 0 tch r.stamp 64
      let v := senseMean s 1 vch r.stamp 200
      some ({ r with w24 := senseWord tch vch (t.1, false, t.2) (v.1, false, v.2), filled := true }, s)
    else
      match senseAt s 0 tch r.stamp force, senseAt s 1 vch r.stamp force with
      | some (tv, tx, tn, td), some (vv, vx, vn, vd) =>
        let (t, s1) := freeRound tn td s
        let (v, s2) := freeRound vn vd s1
        some ({ r with w24 := senseWord tch vch (tv, tx, t) (vv, vx, v), filled := true }, s2)
      | _, _ => none

/-! ### The notice queue -/

/-- Change the Hub's verdict state. -/
def updVer (f : Verdicts → Verdicts) (s : State) : State := { s with ver := f s.ver }

/-- A notice's kind (Table VT-2); 0 for an error report. -/
def Notice.kind : Notice → Nat
  | .notice k _ _ _ _ _ _ _ _ _ => k
  | .report _ => 0

/-- The epoch of a notice. -/
def Notice.epoch : Notice → BitVec 16
  | .notice _ _ _ e _ _ _ _ _ _ => e
  | .report _ => 0

/-- A notice with one more POISON merged. -/
def Notice.merge : Notice → Notice
  | .notice k r d e m i re ho f st => .notice k r d e (min 0xFFFF (m + 1)) i re ho f st
  | n => n

/-- The pick that a notice becomes (Tables VT-2, VT-7, TK-6). -/
def Notice.pick : Notice → Pick
  | .notice k r d e m i re ho f st =>
    { typ := 0x08, flags := f, stamp := BitVec.ofNat 64 st,
      payload := BitVec.ofNat 128 (pack [(0, 8, k), (8, 8, r), (16, 14, d), (32, 16, e.toNat), (48, 16, m), (64, 32, i.toNat), (96, 8, re),
        (104, 8, ho)]), ext := 0 }
  | .report r =>
    { typ := 0x0F, flags := r.flags, stamp := BitVec.ofNat 64 r.stamp,
      payload := BitVec.ofNat 128 (pack [(0, 8, r.cls), (8, 8, r.unit), (16, 16, r.index), (32, 32, r.w20.toNat), (64, 64, r.w24.toNat)]),
      ext := r.ext }

/-- Put a notice into the queue, where it is accepted (R7, R232): POISON_OUT counts a POISON; who emits it follows R325. -/
def enqueue (n : Notice) (s : State) : State :=
  let s1 := updVer (fun v => { v with queue := v.queue ++ [n] }) s
  if n.kind = 1 then
    let s2 := bump s1 pgHub 0x280 63 48 1
    if fwOwner s2 = 0 then s2 else updVer (fun v => { v with eager := v.eager + 1 }) s2
  else s1

/-- A held POISON as it is placed: stamped then (R232, R233). -/
def Notice.placed (s : State) : Notice → Notice
  | .notice k r d e m i re ho _ _ => let st := hubBeam s; .notice k r d e m i re ho (recFlags s (stampNow s pgHub st) [] 0) st
  | n => n

/-- After an entry frees: the held POISON first, then the waiting reports in their order (R232). -/
def refill : Nat → State → State
  | 0, s => s
  | fuel + 1, s =>
    if 1024 ≤ s.ver.queue.length then s
    else
      match s.ver.hold with
      | some n => refill fuel (enqueue (n.placed s) (updVer (fun v => { v with hold := none }) s))
      | none =>
        match s.ver.waiting with
        | n :: ns => refill fuel (enqueue n (updVer (fun v => { v with waiting := ns }) s))
        | [] => s

/-- Move a notice from the queue into retention, where it takes the stream's next sequence number (R318); a POISON closes the open run
(R230, R325). -/
def emitAt (i : Nat) (n : Notice) (s : State) : State :=
  let s1 := updVer (fun v => { v with queue := v.queue.eraseIdx i }) s
  let s2 := acceptRec strMc n.pick { s1 with exempt := s1.exempt + n.pick.positions }
  refill 2 (if n.kind = 1 then closeRun strMc s2 else s2)

/-- The place in the queue of the oldest POISON that the Hub is to emit itself. -/
def eagerIdx (s : State) : Option Nat :=
  let ps := (s.ver.queue.zipIdx.filter fun e => e.1.kind == 1).map (·.2)
  (ps.drop (ps.length - s.ver.eager)).head?

/-- A notice ready to be emitted: an error report with its sensor values filled (R239); `force` takes what is held now (R326). -/
def readyNotice (force : Bool) (n : Notice) (s : State) : Option (Notice × State) :=
  match n with
  | .report r => (fillReport r (force || r.placedRaw + 4000000 ≤ s.tim.raw) s).map fun (r, s) => (.report r, s)
  | n => some (n, s)

/-- Emit what is owed while retention has room (R318): the Hub's own POISON, then the oldest notices. -/
def pumpEmit : Nat → State → State
  | 0, s => s
  | fuel + 1, s =>
    if !hasRoom s strMc then s
    else
      match (if s.ver.eager = 0 then none else eagerIdx s) with
      | some i =>
        match s.ver.queue[i]? with
        | some n => pumpEmit fuel (bump (emitAt i n (updVer (fun v => { v with eager := v.eager - 1 }) s)) pgFw 0x70 15 0 1)
        | none => s
      | none =>
        if s.ver.owed = 0 then s
        else
          match s.ver.queue with
          | [] => updVer (fun v => { v with owed := 0 }) s
          | n :: _ =>
            match readyNotice (fwOwner s != 0) n s with
            | none => s
            | some (n, s1) => pumpEmit fuel (emitAt 0 n (updVer (fun v => { v with owed := v.owed - 1 }) s1))

/-- Emit what is owed. Where a fence holds the stream's bobbin the emission asked for is refused and the notices stay in the queue (R307, R19:
notes/assumptions 77). -/
def pump (s : State) : State :=
  match fencedBob s strMc with
  | some t => if s.ver.owed = 0 then s else fenceCount t s.ver.owed (updVer (fun v => { v with owed := 0 }) s)
  | none => pumpEmit 65 s

/-- Owe the emission of the n oldest notices (R318, R326). -/
def emitNotices (n : Nat) (s : State) : State :=
  pump (updVer (fun v => { v with owed := min v.queue.length (v.owed + n) }) s)

/-- The own die (SYNC_DIE). -/
def ownDie (s : State) : Nat := regFld s pgSync 0x50 13 0

/-- Raise by one the merge count of the first queued POISON of the earliest epoch. -/
def mergeEarliest (q : List Notice) : List Notice :=
  let ps := q.zipIdx.filter fun e => e.1.kind == 1
  match ps with
  | [] => q
  | p :: rest =>
    let best := rest.foldl (fun b e => if after16 b.1.epoch e.1.epoch then e else b) p
    q.zipIdx.map fun (n, i) => if i = best.2 then n.merge else n

/-- Place, merge or hold a POISON, which names the first tainted epoch of the own die (R230, R232, Table VT-2): each raises source 24, and
is a stop event under ON_POISON (R245). -/
def placePoison (reason : Nat) (id : BitVec 32) (reed home : Nat) (s0 : State) : State :=
  let s := if ctlOnPoison (regGet s0 pgStop 0x40) then stopEvent 4 (hubBeam s0) s0 else s0
  let st := hubBeam s
  let n := Notice.notice 1 reason (ownDie s) s.ver.own.taintFrom 0 id reed home (recFlags s (stampNow s pgHub st) [] 0) st
  let merged := fun (s : State) => bump s pgHub 0x280 15 0 1
  let s1 := if s.ver.queue.length < 1024 then pump (enqueue n s)
    else if s.ver.queue.any fun q => q.kind == 1 then merged (updVer (fun v => { v with queue := mergeEarliest v.queue }) s)
    else
      match s.ver.hold with
      | none => updVer (fun v => { v with hold := some n }) s
      | some h => merged (updVer (fun v => { v with hold := some h.merge }) s)
  raise 24 s1

/-- Place an error report, or let it wait (R232). -/
def placeReport (r : ErrReport) (s : State) : State :=
  if s.ver.queue.length < 1024 && s.ver.waiting.isEmpty then pump (enqueue (.report r) s)
  else updVer (fun v => { v with waiting := v.waiting ++ [.report r] }) s

/-- An error report of a class, for a unit, at a stamp (R238). -/
def mkReport (s : State) (cls unit index stamp : Nat) (w20 : Nat) (sensed : Bool) (w24 ext : Nat) : ErrReport :=
  { cls := cls, unit := unit, index := index, w20 := BitVec.ofNat 32 w20, w24 := BitVec.ofNat 64 w24, ext := BitVec.ofNat 256 ext, stamp := stamp,
    flags := recFlags s (stampNow s pgHub stamp) [] 0, placedRaw := s.tim.raw, sensed := sensed, filled := false }

/-- A WORK_LOST report (Table VT-7): stream, record type, first sequence or check ID, items lost. -/
def workLost (unit index stream typ first items : Nat) (s : State) : State :=
  placeReport (mkReport s 4 unit index (hubBeam s) (pack [(0, 17, stream), (24, 8, typ)]) true 0 (pack [(32, 32, first), (64, 32, items)])) s

/-- The notice queue's storage is lost: its notices are gone, and one report of them follows (R20). -/
def noticesLost (known : Bool) (s : State) : State :=
  let n := s.ver.queue.length
  let s1 := updVer (fun v => { v with queue := [], owed := 0, eager := 0 }) s
  let s2 := if known && n = 0 then s1 else workLost 5 0 strMc 0 0 (if known then n else 0xFFFFFFFF) s1
  refill 1024 s2

/-- Log an inbound notice (R229, R232). -/
def logNotice (kind die : Nat) (e : BitVec 16) (s : State) : State :=
  let st := hubBeam s
  if 768 ≤ (s.ver.queue.filter fun n => 0x81 ≤ n.kind).length || 1024 ≤ s.ver.queue.length then bump s pgHub 0x288 47 32 1
  else enqueue (.notice (0x80 + kind) 0 die e 0 0 0 0 (recFlags s (stampNow s pgHub st) [] 0) st) s

/-- Fill waiting error reports whose later samples have come, or whose wait is over (R239); what is owed is then emitted. -/
def fillReports (s : State) : State :=
  let step := fun (acc : List Notice × State) (n : Notice) =>
    match n with
    | .report r =>
      match fillReport r (r.placedRaw + 4000000 ≤ acc.2.tim.raw) acc.2 with
      | some (r, s) => (acc.1 ++ [.report r], s)
      | none => (acc.1 ++ [.report r], acc.2)
    | n => (acc.1 ++ [n], acc.2)
  let (q, s1) := s.ver.queue.foldl step ([], s)
  pump (updVer (fun v => { v with queue := q }) s1)

/-- A CLEAR batch (R231): once per batch instant, while the Hub is ENABLED and the value has moved; a full queue waits for the next. -/
def clearBatch (s : State) : State :=
  match lastMultiple s pgHub 200000 with
  | none => s
  | some i =>
    if !isNew s.ver.lastBatch i then s
    else
      let s1 := settleEpochs (updVer (fun v => { v with lastBatch := some i }) s)
      let o := s1.ver.own
      if o.cleared = o.lastClear || 1024 ≤ s1.ver.queue.length then s1
      else
        let st := hubBeam s1
        let n := Notice.notice 2 0 (ownDie s1) o.cleared 0 (BitVec.ofNat 32 (min o.passes 0xFFFFFFFF)) 0 0 (recFlags s1 (stampNow s1 pgHub st) [] 0) st
        pump (enqueue n (updOwn (fun o => { o with lastClear := o.cleared, passes := 0 }) s1))

/-- The oldest unsettled epoch is declared stale (R223). -/
def staleEpoch (s : State) : State :=
  if !hubEvaluates s then s
  else
    let s1 := settleEpochs s
    if clearedBack s1 < 2 ^ 14 then s1
    else
      let g := BitVec.ofNat 16 (oldestUnsettled s1)
      let (new, s2) := taintOwn g s1
      if new then placePoison 0x20 0 0 0 (updOwn (fun o => { o with stale := true }) s2) else s2

/-! ### The taint ledger -/

/-- The ledger becomes blind at a stamp (R228). -/
def goBlind (b : Nat) (s : State) : State :=
  if s.ver.blind then s else raise 26 (updVer (fun v => { v with blind := true, blindAt := b }) s)

/-- Allocate an entry of the ledger (R227): a new one, else one that may be reused; none where that fails. -/
def ledgerAlloc (die : Nat) (e : BitVec 16) (seen : Option (BitVec 16)) (led : List (Nat × LedEnt)) : Option (List (Nat × LedEnt)) :=
  let x : LedEnt := { cleared := e - 1, taintFrom := 0, tainted := false, seen := seen, pend := [] }
  if led.length < 4096 then some (mins led die x)
  else
    match led.find? fun y => !y.2.tainted && y.2.pend.isEmpty with
    | some y => some (mins (mdel led y.1) die x)
    | none => none

/-- The later of two epochs. -/
def later16 (a b : BitVec 16) : BitVec 16 := if after16 b a then b else a

/-- Raise the latest pending epoch to e and keep its stamp (R227, step 3). -/
def raiseLatest (e : BitVec 16) (l : List (BitVec 16 × Nat)) : List (BitVec 16 × Nat) :=
  match l with
  | [] => []
  | p :: ps =>
    let top := ps.foldl (fun b x => if after16 x.1 b.1 then x else b) p
    l.map fun x => if x.1 = top.1 then (later16 x.1 e, x.2) else x

/-- An entry after a receipt (R227). -/
def LedEnt.receive (x : LedEnt) (e : BitVec 16) (stamp : Nat) : LedEnt :=
  let seen := some (match x.seen with
    | some m => later16 m e
    | none => e)
  let pend := if after16 e x.cleared && !x.pend.any fun p => p.1 == e then
      (if x.pend.length < 8 then x.pend ++ [(e, stamp)] else raiseLatest e x.pend) else x.pend
  { x with seen := seen, pend := pend }

/-- The SEEN_MAX snapshot of a gate after a receipt stamped before it (R235). -/
def noteSeen (die : Nat) (e : BitVec 16) (l : List (Nat × BitVec 16)) : List (Nat × BitVec 16) :=
  mins l die (match mfind l die with
    | some m => later16 m e
    | none => e)

/-- A header passed to the ledger (R226, R227). -/
def receive (r : Receipt) (s : State) : State :=
  let d := r.die.toNat
  let led := match mfind s.ver.led d with
    | some _ => some s.ver.led
    | none => ledgerAlloc d r.epoch none s.ver.led
  match led with
  | none => goBlind r.stamp s
  | some l =>
    let s1 := updVer (fun v => { v with led := match mfind l d with
      | some x => mins l d (x.receive r.epoch r.stamp)
      | none => l }) s
    { s1 with gates := s1.gates.map fun (h, x) =>
        (h, match x.gate with
          | some g => if r.stamp < g.g then { x with gate := some { g with seen := noteSeen d r.epoch g.seen } } else x
          | none => x) }

/-- Whether a link port is planned (R284). -/
def planned (s : State) (n : Nat) : Bool := regBit s (pgLnk n) 0x40 62

/-- A link port passes its oldest waiting header to the ledger (R226), unless the Hub is in RESETTING. -/
def passReceipt (n : Nat) (s : State) : State :=
  match (link s n).toLedger with
  | [] => s
  | r :: rs => if pst s pgHub == .resetting then s else receive r (updLink n (fun x => { x with toLedger := rs }) s)

/-- A link port has one more header for the ledger: up to 64 wait while the Hub is in RESETTING (R226, R228). -/
def queueReceipt (n : Nat) (r : Receipt) (s : State) : State :=
  if pst s pgHub == .resetting && 64 ≤ (link s n).toLedger.length then goBlind r.stamp s
  else updLink n (fun x => { x with toLedger := x.toLedger ++ [r] }) s

/-! ### Inbound notices -/

/-- The own die's values after an ABSOLVE (Table VT-1): of the ABSOLVEs applied the one of the latest epoch says which results change nothing
(R230). -/
def absolveOwn (e : BitVec 16) (s : State) : State :=
  let start : Int := (((s.tim.raw / epochLen s : Nat) : Int) - signedN 16 (epochNow s - e).toNat) * (epochLen s : Int)
  updOwn (fun o =>
    { o with
      tainted := false, stale := false, cleared := e - 1, absolved := some (max start (o.absolved.getD start)),
      bad := o.bad.filter fun r => decide (start ≤ (r : Int)) }) s

/-- An epoch of the own die under a new EPOCH_LOG (R224): the last new epoch that ends where the old one ended or before (`ends`), or the new
epoch that holds the raw count at which the old one began. -/
def carryEpoch (ends : Bool) (e : BitVec 16) (old new : State) : BitVec 16 :=
  let n : Int := ((old.tim.raw / epochLen old : Nat) : Int) - signedN 16 (epochNow old - e).toNat
  if ends then BitVec.ofInt 16 ((n + 1) * (epochLen old : Int) / (epochLen new : Int) - 1)
  else BitVec.ofInt 16 (n * (epochLen old : Int) / (epochLen new : Int))

/-- A write has changed EPOCH_LOG (R224): the own-die values are carried over by raw count. -/
def carryEpochs (old new : State) : State :=
  updOwn (fun o =>
    { o with
      cleared := carryEpoch true o.cleared old new, confirm := carryEpoch true o.confirm old new,
      lastClear := carryEpoch true o.lastClear old new, taintFrom := carryEpoch false o.taintFrom old new }) new

/-- A POISON of the own die that the host writes (Table VT-1, R237). -/
def poisonOwn (e : BitVec 16) (s : State) : State :=
  let s1 := settleEpochs s
  let late := !after16 e s1.ver.own.cleared
  let s2 := if late then raise 27 (bump (updOwn (fun o => { o with cleared := e - 1 }) s1) pgHub 0x280 31 16 1) else s1
  placePoison 0x21 0 0 0 (taintOwn e s2).2

/-- A POISON of another die (Table VT-1). -/
def poisonOther (d : Nat) (e : BitVec 16) (s : State) : State :=
  let led := match mfind s.ver.led d with
    | some _ => some s.ver.led
    | none => ledgerAlloc d e none s.ver.led
  match led with
  | none => goBlind (hubBeam s) s
  | some l =>
    match mfind l d with
    | none => s
    | some x =>
      let x1 := if !x.tainted || after16 x.taintFrom e then { x with taintFrom := e, tainted := true } else x
      let late := !after16 e x1.cleared
      let x2 := if late then { x1 with cleared := e - 1 } else x1
      let s1 := updVer (fun v => { v with led := mins l d x2 }) s
      if late then raise 27 (bump s1 pgHub 0x280 31 16 1) else s1

/-- The entry of another die after a CLEAR (Table VT-1). -/
def LedEnt.clear (x : LedEnt) (e : BitVec 16) : LedEnt :=
  let c := later16 x.cleared e
  let c1 := if x.tainted && !after16 x.taintFrom c then x.taintFrom - 1 else c
  { x with cleared := c1, pend := x.pend.filter fun p => after16 p.1 c1 }

/-- The entry of another die after an ABSOLVE (Table VT-1). -/
def LedEnt.absolve (x : LedEnt) (e : BitVec 16) : LedEnt :=
  { x with tainted := false, cleared := e - 1, pend := x.pend.filter fun p => after16 p.1 (e - 1) }

/-- Change the entry of a die, if there is one. -/
def updLed (d : Nat) (f : LedEnt → LedEnt) (s : State) : State :=
  match mfind s.ver.led d with
  | some x => updVer (fun v => { v with led := mins v.led d (f x) }) s
  | none => s

/-- A HUB_NOTICE_IN write (R229): none where it is refused. -/
def noticeIn (kind d : Nat) (e : BitVec 16) (s : State) : Option State :=
  let own := d == ownDie s
  let bad := !isEnabled s pgHub || !regBit s pgSync 0x50 31 || kind = 0 || 4 < kind || (kind = 2 && own) || (kind = 4 && !own) ||
    (kind = 3 && own && after16 e (epochNow s + 1))
  if bad then none
  else
    let s1 := if kind = 1 then bump (if own then poisonOwn e s else poisonOther d e s) pgHub 0x280 47 32 1
      else if kind = 2 then updLed d (·.clear e) s
      else if kind = 3 then (if own then absolveOwn e (settleEpochs s) else updLed d (·.absolve e) s)
      else updOwn (fun o => { o with confirm := later16 o.confirm e }) s
    some (pump (logNotice kind d e s1))

/-! ### Verdict gates -/

/-- A gate channel at reset. -/
def HedGate.zero : HedGate := { req := false, ack := false, ctx := 0, gate := none }

/-- The gate channel of a Heddle. -/
def hedGate (s : State) (h : Nat) : HedGate := mget HedGate.zero s.gates h

/-- Change it. -/
def updGate (h : Nat) (f : HedGate → HedGate) (s : State) : State := { s with gates := mupd HedGate.zero s.gates h f }

/-- A gate request at a stamp (R235): its scope is read now, and every SEEN_MAX as of now. -/
def startGate (h : Nat) (stamp : Nat) (raw : Bt) (s : State) : State :=
  let c := (hedGate s h).ctx
  let scope := regFld s (pgHed h) 0x168 (3 * c.toNat + 2) (3 * c.toNat)
  let seen := s.ver.led.filterMap fun (d, x) => x.seen.map fun m => (d, m)
  updGate h (fun x => { x with gate := some ⟨c, stamp, raw, scope, seen⟩ }) s

/-- LOCAL (R235). -/
def gateLocal (s : State) (g : Gate) : Bool := !after16 (epochOf s g.raw) s.ver.own.cleared

/-- REMOTE (R235). -/
def gateRemote (s : State) (g : Gate) : Bool :=
  s.links.all (fun (n, x) => !(isEnabled s (pgLnk n) && planned s n) || x.toLedger.all fun r => decide (g.g ≤ r.stamp)) &&
  s.ver.led.all (fun (d, x) => x.pend.all (fun p => decide (g.g ≤ p.2)) && (!x.tainted || match mfind g.seen d with
    | some m => after16 x.taintFrom m
    | none => true)) &&
  (!s.ver.blind || decide (g.g < s.ver.blindAt))

/-- HOST (R235). -/
def gateHost (s : State) (g : Gate) : Bool := !after16 (epochOf s g.raw) s.ver.own.confirm

/-- Whether every selected condition of a gate holds now. -/
def gateHolds (s : State) (g : Gate) : Bool :=
  (fieldN g.scope 0 0 = 0 || gateLocal s g) && (fieldN g.scope 1 1 = 0 || gateRemote s g) && (fieldN g.scope 2 2 = 0 || gateHost s g)

/-- A gate opens: it is answered and counted. -/
def gateAnswer (h : Nat) (s : State) : State := count (updGate h (fun x => { x with ack := !x.ack, gate := none }) s) (pgHed h) 0x178 63 32 1

/-- A gate that opens is answered, and a difference of the levels after that is a new request stamped now, which a scope of 0 opens at once
(R235). -/
def gateOpen (h : Nat) (s : State) : State :=
  match (hedGate s h).gate with
  | none => s
  | some g =>
    let s1 := settleEpochs s
    if g.scope = 0 || (hubEvaluates s1 && gateHolds s1 g) then
      let s2 := gateAnswer h s1
      if (hedGate s2 h).req = (hedGate s2 h).ack then s2
      else
        let s3 := startGate h (beamOf s2 (pgHed h)) s2.tim.raw s2
        if (hedGate s3 h).gate.any (·.scope == 0) then gateAnswer h s3 else s3
    else s1

/-- A transition of ET_GATE_REQ (R235, R42). -/
def gateRequest (h : Nat) (c : BitVec 4) (t : Tdc) (s : State) : State :=
  let pg := pgHed h
  let raw := tapRaw s (ptOther h) t
  let s1 := updGate h (fun x => { x with req := !x.req, ctx := c }) s
  if (hedGate s h).gate.isSome then setPortErr pg 9 s1
  else if !isEnabled s pg then bump (updGate h (fun x => { x with ack := x.req }) s1) pg 0x178 31 16 1
  else
    let s2 := startGate h (beamAt s1 pg raw) raw s1
    match (hedGate s2 h).gate with
    | some g => if g.scope = 0 then gateOpen h s2 else s2
    | none => s2

/-- A Heddle leaves ENABLED: its pending gate is answered unchecked, and so is a request behind it (Table VT-4, R42). -/
def gateReleased (h : Nat) (s : State) : State :=
  let x := hedGate s h
  match x.gate with
  | none => s
  | some _ =>
    let behind := x.req == x.ack
    raise 25 (bump (updGate h (fun x => { x with ack := x.req, gate := none }) s) (pgHed h) 0x178 31 16 (if behind then 2 else 1))

/-! ### The in-field test ledger -/

/-- Whether firmware runs, so that the test states move (R241). -/
def fwRuns (s : State) : Bool := fwOwner s == 0

/-- Change the test ledger. -/
def updTests (f : Tests → Tests) (s : State) : State := { s with tests := f s.tests }

/-- Offer waiting requests to the FIFO while it has room (R242). -/
def offerTests (s : State) : State :=
  s.tests.states.foldl (fun s (k, t) =>
    if t.offer && s.tests.fifo.length < 64 then
      updTests (fun x =>
        { x with fifo := x.fifo ++ [(t.st == 3, k / 4096, k % 4096)], states := mins x.states k { t with offer := false } }) s
    else s) s

/-- A trigger of a Heddle's tests (R241): 1 power-up, 2 online, 3 suspect. -/
def testTrigger (h trig stamp : Nat) (s : State) : State :=
  if !fwRuns s then s
  else
    (s.tests.ents.zipIdx).foldl (fun s (e, i) =>
      if e.first ≤ h && h ≤ e.last && e.trig.getLsbD (trig - 1) && (mfind s.tests.states (i * 4096 + h)).isNone then
        updTests (fun x => { x with states := mins x.states (i * 4096 + h) ⟨1, trig, stamp, 0, s.tim.raw, s.tim.raw, false⟩ }) s
      else s) s

/-- A request of a test, window or preemption, with its source (Table VT-9). -/
def testRequest (k st stamp : Nat) (t : TestState) (s : State) : State :=
  raise (if st = 2 then 39 else 40) (offerTests (updTests (fun x =>
    { x with states := mins x.states k { t with st := st, reqAt := stamp, entered := s.tim.raw, offer := true } }) s))

/-- A selvedge marker is captured on a Heddle (Table VT-9). -/
def testMarker (h stamp : Nat) (s : State) : State :=
  if !fwRuns s then s
  else s.tests.states.foldl (fun s (k, t) => if k % 4096 = h && t.st = 1 then testRequest k 2 stamp t s else s) s

/-- A test report (Tables VT-6, VT-7) and the return to IDLE. -/
def testReport (k cls : Nat) (id : BitVec 32) (reason : Nat) (t : TestState) (s : State) : State :=
  let s1 := updTests (fun x => { x with states := mdel x.states k }) s
  match s.tests.ents[k / 4096]? with
  | none => s1
  | some e =>
    let ext := pack [(0, 32, s.tests.mid.toNat), (32, 32, id.toNat), (96, 8, reason), (104, 8, t.trig), (128, 64, t.trigAt), (192, 64, t.reqAt)]
    placeReport (mkReport s1 cls 1 (k % 4096) (hubBeam s1) e.id.toNat true 0 ext) s1

/-- A deadline of a test state passes (Table VT-9). -/
def testDeadline (i h : Nat) (s : State) : State :=
  let k := i * 4096 + h
  match mfind s.tests.states k, s.tests.ents[i]? with
  | some t, some e =>
    if !fwRuns s then s
    else if t.st = 1 then (if t.fromRaw + e.limit * 4000 ≤ s.tim.raw then testRequest k 3 (hubBeam s) t s else s)
    else if t.entered + e.limit * 4000 ≤ s.tim.raw then testReport k 3 0 0 t s else s
  | _, _ => s

/-- The result of a check with its home Heddle and context ends the tests that wait for it; whether it ended one (Table VT-9, R241). -/
def testResult (h c cardIdx : Nat) (firstRaw : Bt) (id : BitVec 32) (reason : Nat) (s : State) : Bool × State :=
  if !fwRuns s then (false, s)
  else
    s.tests.states.foldl (fun (acc : Bool × State) (k, t) =>
      match acc.2.tests.ents[k / 4096]? with
      | some e =>
        if k % 4096 = h && t.st != 1 && e.ctx = c && e.card = cardIdx && t.entered ≤ firstRaw then
          (true, testReport k (if reason = 0 then 1 else 2) id reason t acc.2)
        else acc
      | none => acc) (false, s)

/-- A Heddle is RETIRED (Table VT-9). -/
def testRetired (h : Nat) (s : State) : State :=
  if !fwRuns s then s
  else s.tests.states.foldl (fun s (k, t) => if k % 4096 = h then testReport k 3 0 0 t s else s) s

/-- A Heddle enters ENABLED: its power-up or online trigger (R241). -/
def testEnabled (h : Nat) (s : State) : State :=
  let up := !s.tests.seen.contains h
  let on := s.tests.back.contains h
  let s1 := updTests (fun x => { x with seen := addOnce x.seen h, back := x.back.filter (· != h) }) s
  let s2 := if up then testTrigger h 1 (hubBeam s1) s1 else s1
  if on then testTrigger h 2 (hubBeam s2) s2 else s2

/-- Firmware stops or starts running: the deadlines of the test states stand meanwhile (R241). -/
def freezeTests (s : State) : State :=
  match s.tests.frozen with
  | none => if fwRuns s then s else updTests (fun x => { x with frozen := some s.tim.raw }) s
  | some r =>
    if fwRuns s then
      let d := s.tim.raw - r
      updTests (fun x =>
        { x with frozen := none, states := x.states.map fun (k, t) => (k, { t with fromRaw := t.fromRaw + d, entered := t.entered + d }) }) s
    else s

/-- A read of HUB_TEST_NEXT (R242): the word, and the state with the request popped. -/
def testNext (s : State) : Word × State :=
  match s.tests.fifo with
  | [] => (0, s)
  | (pre, i, h) :: rest =>
    (packW [(63, 1, 1), (62, 1, bn pre), (32, 6, i), (0, 12, h)], offerTests (updTests (fun x => { x with fifo := rest }) s))

/-! ### The manifest (R240) -/

/-- One entry of a block, 64 bytes; none where a check fails. -/
def manifestEnt (s : State) (d : Nat) : Option TestEnt :=
  let f := fun a n => d / 256 ^ a % 256 ^ n
  let lim := f 12 4
  if f 4 1 < 8 && f 7 1 = 0 && f 8 2 < s.inst.reeds * s.inst.hpr && f 10 2 < s.inst.reeds * s.inst.hpr && f 28 36 = 0 then
    some ⟨BitVec.ofNat 32 (f 0 4), BitVec.ofNat 8 (f 4 1), f 5 1, f 6 1, f 8 2, f 10 2, lim⟩
  else none

/-- A manifest from its nine blocks; none where a check fails. -/
def manifest (s : State) (bs : List (Option Block)) : Option (BitVec 32 × List TestEnt) :=
  match bs with
  | some b0 :: rest =>
    let f := fun a n => blkBytes b0 a n
    let n := f 3 1
    if f 0 2 = 0xF31E && f 2 1 = 1 && 1 ≤ n && n ≤ 64 && f 8 504 = 0 then
      let es := (List.range n).map fun i =>
        match rest[i / 8]? with
        | some (some b) => manifestEnt s (blkBytes b (64 * (i % 8)) 64)
        | _ => none
      if es.all (·.isSome) then some (BitVec.ofNat 32 (f 4 4), es.filterMap id) else none
    else none
  | _ => none

/-- How many blocks a manifest's read takes, from its header. -/
def manifestBlocks (b0 : Option Block) : Nat :=
  match b0 with
  | some b => let n := blkBytes b 3 1; if blkBytes b 0 2 = 0xF31E && 1 ≤ n && n ≤ 64 then 1 + (n + 7) / 8 else 1
  | none => 1

/-- The manifest's reads are done (R240). -/
def manifestDone (s : State) : State :=
  match s.tests.reading with
  | none => s
  | some ds =>
    let bs := ds.map (·.2)
    if bs.length < manifestBlocks (bs.head?.getD none) || bs.isEmpty then s
    else
      let s1 := updTests (fun x => { x with reading := none }) s
      match manifest s bs with
      | some (mid, es) => updTests (fun x => { x with mid := mid, ents := es, states := [] }) s1
      | none => setErr pgHub 6 s1

/-! ### What the pages show -/

/-- The read-only words of the verdict registers of the HUB page (Table VT-10). -/
def verdictView (s : State) (off : Nat) : Word :=
  let o := s.ver.own
  if off = 0x248 then packW [(48, 16, (epochNow s).toNat), (32, 16, o.cleared.toNat), (16, 16, o.taintFrom.toNat), (0, 16, o.confirm.toNat)]
  else if off = 0x250 then packW [(32, 32, (s.wits.map fun e => e.2.checks.length).sum), (1, 1, bn o.stale), (0, 1, bn o.tainted)]
  else if off = 0x268 then
    match mfind s.ver.led (regFld s pgHub 0x260 13 0) with
    | none => 0
    | some x =>
      packW [(63, 1, 1), (62, 1, bn x.tainted), (58, 4, x.pend.length), (32, 16, x.cleared.toNat), (16, 16, x.taintFrom.toNat),
        (0, 16, (x.seen.getD (Config.seenUnset (regFld s pgHub 0x260 13 0))).toNat)]
  else if off = 0x270 then packW [(48, 16, s.ver.led.length), (0, 1, bn s.ver.blind)]
  else if off = 0x278 then BitVec.ofNat 64 s.ver.blindAt
  else if off = 0x288 then packW [(48, 16, s.ver.queue.length)]
  else if off = 0x2A0 then packW [(32, 32, s.tests.mid.toNat), (24, 8, s.tests.ents.length), (0, 16, min 0xFFFF s.tests.states.length)]
  else 0

/-- HED_GATES as read (Table VT-11). -/
def gatesView (s : State) (h : Nat) : Word := packW [(15, 1, bn (hedGate s h).gate.isSome)]

end Sys2Proof.Machine
end

