-- ==== Sys2Proof/Machine/Links.lean ====
section
/-! DEFINITION. Link ports (spec/13_links_topology.md): link events, the header ring and its cut (R253), broken threads, and epoch
answers. -/

namespace Sys2Proof.Machine

/-! ### Time state, as far as link events show it -/

/-- A link port's time state at reset. -/
def LinkTime.zero : LinkTime :=
  { ver := 0, noCommon := false, verMax := 0, nbr := none, agreed := none, helloSeq := 0, rx := [], sent := [], pdSeq := 0, pdRaw := none, cal := 0,
    t1 := none, t2 := none, t4 := none, last := none, ratio := ⟨1, 1⟩, delays := [], good := 0, discards := 0, reply := none, syncIn := none,
    follow := none, fwd := none, helloIdx := 0, pdIdx := 0, txd := 0, shown := 0 }

/-- The time state of a link port. -/
def linkTime (s : State) (n : Nat) : LinkTime := mget LinkTime.zero s.linkTimes n

/-- Change it. -/
def updTime (n : Nat) (f : LinkTime → LinkTime) (s : State) : State := { s with linkTimes := mupd LinkTime.zero s.linkTimes n f }

/-! ### Stamping points (Table BT-4, Table FS-8) -/

/-- How many stamping points the Heddles have. -/
def ptHeds (s : State) : Nat := 3 * (s.inst.reeds * s.inst.hpr)

/-- A link port's point: 0 LP_TXTS, 1 LP_RXTS, 2 link state and headers. -/
def ptLnk (s : State) (n k : Nat) : Nat := ptHeds s + 3 * (n / 24 * s.inst.linksPerDir + n % 24) + k

/-- The point of the Ethernet timestamp tap. -/
def ptEth (s : State) : Nat := ptHeds s + 12 * s.inst.linksPerDir + s.inst.reeds

/-- A point of the Hub: 0 STOP_IN, 1 stop launch and Beam compare, 2 SNS_REQ. -/
def ptHub (s : State) (k : Nat) : Nat := ptEth s + bn s.inst.eth + k

/-- How many stamping points there are. -/
def pointCount (s : State) : Nat := ptHub s 4

/-! ### Link events (R294, Tables LT-2, LT-5) -/

/-- Put a record of a link port behind those that wait. -/
def holdLnk (n : Nat) (x : LinkHeld) (s : State) : State := updLink n (fun y => { y with held := y.held ++ [x] }) s

/-- A link event with its stamp and the states before and after it: it waits for 32 bt, and takes the count of lost headers then (R249,
Table LT-5). -/
def linkEvent (n kind : Nat) (a : At) (lpWas : BitVec 2) (thread : Nat) (s : State) : State :=
  let x := link s n
  let plan := regGet s (pgLnk n) 0x40
  let other := kind = 2 || kind = 4
  let die := if other then (match x.seen with
      | some e => e.1.toNat + 0x8000
      | none => 0) else fld plan 45 32 + 0x8000
  let port := if other then (match x.seen with
      | some e => e.2.toNat
      | none => 0xFF) else fld plan 55 48
  let payload := pack [(0, 8, kind), (8, 8, lpWas.toNat), (16, 8, x.lp.toNat), (24, 8, x.topo), (32, 16, die), (48, 8, port),
    (56, 8, (linkTime s n).ver), (64, 32, x.next.toNat), (112, 16, thread)]
  holdLnk n ⟨a, a.raw + waitHed, .event, payload⟩ s

/-- A link event that is stamped now. -/
def linkEventNow (n kind : Nat) (s : State) : State := linkEvent n kind (stampNow s (pgLnk n) (beamOf s (pgLnk n))) (link s n).lp 0 s

/-! ### The header ring and the cut (R253, R289, R290) -/

/-- STOP_CTL and STOP_HDR_TS as latched for the stop in force. -/
def actCtl (s : State) : Word := if s.stop.phase == .armed then regGet s pgStop 0x40 else s.stop.ctl
def actHdrTs (s : State) : Word := if s.stop.phase == .armed then regGet s pgStop 0x90 else s.stop.hdrTs

/-- The number and source of the stop in force. -/
def actNum (s : State) : BitVec 16 := if s.stop.phase == .armed then s.stop.num + 1 else s.stop.num
def actSource (s : State) : Nat := if s.stop.phase == .armed then 3 else s.stop.source

/-- The cut label of a header at a port that took Tc (R253). -/
def cutLabel (s : State) (tc : Nat) (d : BitVec 256) (sent : Bool) (stamp : Nat) : Nat :=
  if stamp < tc then 0
  else if sent then 2
  else
    let w := actHdrTs s
    if !bit w 63 then 3
    else
      let width := if bit w 7 then 32 else 16
      let field := d.toNat / 256 ^ fld w 12 8 % 2 ^ width
      let diff := (tc / 2 ^ fld w 3 0 + 2 ^ width - field) % 2 ^ width
      if 1 ≤ diff && diff < 2 ^ (width - 1) then 1 else 2

/-- Count a labelled header of the after-cut entries. -/
def countLabel (l : Nat) (sent : Bool) (c : LinkCut) : LinkCut :=
  if l = 1 then { c with inFlight := c.inFlight + 1 } else if l = 2 && !sent then { c with post := c.post + 1 }
  else if l = 3 then { c with unknown := c.unknown + 1 } else c

/-- The after-cut entries in use. -/
def afterCutUsed (x : Link) : Nat := (x.next - x.mark).toNat

/-- Freeze a ring for a stop at an instant of Beam; the kind 2 marker waits as every record of the port does (R249, R253, R254, Table SS-4). -/
def freezeForStop (n : Nat) (counts : Bool) (freezeAt : Nat) (s : State) : State :=
  let x := link s n
  let c := x.cut
  let tc := c.tc
  let raw := s.tim.raw - (beamOf s (pgLnk n) - tc)
  let z := fun v => if counts then min 0xFFFF v else 0
  let payload := pack [(0, 8, 2), (8, 8, actSource s), (16, 16, (actNum s).toNat), (32, 32, min 0xFFFFFFFF (freezeAt - tc)),
    (64, 16, z c.inFlight), (80, 16, z c.post), (96, 16, z c.unknown), (112, 16, z c.lost)]
  holdLnk n ⟨stampAt s (pgLnk n) tc raw, raw + waitHed, .marker, payload⟩
    (updLink n (fun x => { x with freeze := if x.freeze = 0 then 1 else x.freeze, cut := { x.cut with grace := false, frozen := true } }) s)

/-- LP_STATE at a raw count (R258). -/
def lpAt (x : Link) (raw : Bt) : BitVec 2 := if raw < x.lpRaw then x.lpWas else x.lp

/-- A link port learns Tc (R253); what the snag report shows of the cut is kept of every port (R258). -/
def linkCut (n tc : Nat) (s : State) : State :=
  if (link s n).cut.grace || (link s n).cut.frozen then s
  else
    let x := link s n
    let p := pgLnk n
    let last := (x.ring.filter fun e => e.2.stamp < tc).foldl (fun m e => max m e.2.stamp) 0
    let fresh := { LinkCut.zero with lpAtTc := lpAt x (s.tim.raw - (beamOf s p - tc)), lastPre := last, tc := tc }
    if !isEnabled s p then updLink n (fun x => { x with cut := fresh }) s
    else if x.freeze = 2 then freezeForStop n false (beamOf s p) (updLink n (fun x => { x with cut := fresh }) s)
    else
      -- headers captured at or after Tc before the port learnt it stand in the after-cut part
      let late := x.ring.filter fun e => e.2.stamp ≥ tc && (x.next - e.2.cap).toNat ≤ 64
      let mark := x.next - BitVec.ofNat 32 late.length
      let c1 := late.foldl (fun c e => countLabel (cutLabel s tc e.2.data e.2.sent e.2.stamp) e.2.sent c) { fresh with grace := true }
      updLink n (fun x =>
        { x with mark := mark, cut := c1, ring := x.ring.map fun (i, e) => (i, { e with label := cutLabel s tc e.data e.sent e.stamp }) }) s

/-- The grace of a link port ends (R253): 2^GRACE_LOG bt after Tc, or with 64 after-cut entries. -/
def graceExpiry (n : Nat) (s : State) : State :=
  let x := link s n
  let ends := x.cut.tc + 2 ^ fld (actCtl s) 23 20
  let now := beamOf s (pgLnk n)
  if x.cut.grace && (decide (ends ≤ now) || decide (64 ≤ afterCutUsed x)) then freezeForStop n true (min now ends) s else s

/-- The resume reaches a link port (R259, R290): a ring frozen for the stop captures again. -/
def linkResume (n : Nat) (s : State) : State :=
  updLink n (fun x =>
    { x with
      freeze := if x.freeze = 1 then 0 else x.freeze, mark := if x.freeze = 2 then x.mark else 0,
      ring := x.ring.map fun (i, e) => (i, { e with label := 0 }), cut := { x.cut with grace := false, frozen := false } }) s

/-- Write a header into the ring. -/
def ringPut (n : Nat) (h : Hdr) (stamp : Nat) (s : State) : State :=
  let inCut := (link s n).cut.grace
  let l := if inCut then cutLabel s (link s n).cut.tc h.data h.sent stamp else 0
  updLink n (fun x =>
    { x with
      ring := mins x.ring (x.next.toNat % 256) ⟨h.data, stamp, x.next, h.sent, h.epv, if h.epv then h.die else 0, if h.epv then h.epoch else 0, l⟩,
      next := x.next + 1, cut := if inCut then countLabel l h.sent x.cut else x.cut }) s

/-- Headers that no ring entry takes. -/
def loseHeaders (n k : Nat) (s : State) : State :=
  if k = 0 then s else updLink n (fun x => { x with lostSince := x.lostSince + k }) (bump s (pgLnk n) 0xB0 63 48 k)

/-- A mirrored header is captured (R43, R226, R285, R289). -/
def headerCapture (n : Nat) (h : Hdr) (s : State) : State :=
  let pg := pgLnk n
  let x := link s n
  let s0 := updLink n (fun x => { x with seq := some h.seq }) s
  if !isEnabled s pg then s0
  else
    let stamp := beamAt s pg (tapRaw s (ptLnk s n 2) h.tdc)
    let lost := seqLost x.seq h.seq
    let s1 := if lost = 0 then s0
      else
        let s' := setPortErr pg 0 (loseHeaders n lost s0)
        if planned s n then goBlind stamp s' else s'
    if planned s n then
      let s2 := if !h.sent && h.epv && h.die.toNat != ownDie s then queueReceipt n ⟨h.die, h.epoch, stamp⟩ s1 else s1
      if x.freeze != 0 || (x.cut.grace && 64 ≤ afterCutUsed x) then
        let s3 := loseHeaders n 1 s2
        if x.cut.grace || x.cut.frozen then updLink n (fun x => { x with cut := { x.cut with lost := x.cut.lost + 1 } }) s3 else s3
      else ringPut n h stamp s2
    else if !h.sent && h.epv then
      let s2 := bump s1 pg 0xB0 47 32 1
      if x.warned then s2 else setErr pg 3 (updLink n (fun x => { x with warned := true }) s2)
    else s1

/-- RING_RELEASE (R290, R297): none where it is refused. -/
def ringRelease (n : Nat) (s : State) : Option State :=
  if isEnabled s (pgLnk n) && (link s n).freeze = 2 then
    some (linkEventNow n 7 (updLink n (fun x => { x with freeze := 0, mark := 0 }) s))
  else none

/-! ### Broken threads (R291 to R293) -/

/-- Entries of the list buffer in use. -/
def listBuffered (x : Link) : Nat := (x.threads.map (·.buf.length)).sum

/-- The thread whose list is open. -/
def openThread (x : Link) : Option Thread := x.threads.find? (·.isOpen)

/-- Change the threads of a port that satisfy a condition. -/
def updThreads (n : Nat) (p : Thread → Bool) (f : Thread → Thread) (s : State) : State :=
  updLink n (fun x => { x with threads := x.threads.map fun t => if p t then f t else t }) s

/-- The pick of a thread (Table LT-4): stamped TD. -/
def threadPick (s : State) (t : Thread) (fields : List (Nat × Nat × Nat)) : Pick :=
  pickAt s ⟨t.td, t.tdRaw, t.und, t.wide⟩ 0x0A 0 (pack (fields ++ [(16, 16, t.num.toNat), (112, 8, t.state.toNat)]))

/-- Whether a record of a link port with a latest stamp may be accepted: the port works, the wait is over, and no cut is still to come before
the stamp (R249). -/
def lnkReady (s : State) (n stamp : Nat) (due : Bt) : Bool :=
  isWorking s (pgLnk n) && decide (due ≤ s.tim.raw) && !tooEarly s (pgLnk n) stamp

/-- Turn one buffered entry into a pick, or close a finished thread with its end pick, while retention has room (R291, R292); whether
anything was done. A pick that a fence refuses is gone (R307). -/
def listStep (n : Nat) (s : State) : Bool × State :=
  match (link s n).threads.find? fun t => !t.done && (!t.buf.isEmpty || !t.isOpen) with
  | none => (false, s)
  | some t =>
    if !lnkReady s n t.td (t.tdRaw + waitHed) || !(link s n).held.isEmpty || !mayEmit s (strLnk n) then (false, s)
    else
      match t.buf with
      | (coll, chunk) :: rest =>
        let r := emitExempt (strLnk n) (threadPick s t [(32, 32, coll.toNat), (64, 32, chunk.toNat), (96, 16, min 0xFFFF (t.picks + 1))]) s
        (true, updThreads n (fun y => y.num == t.num) (fun y => { y with picks := y.picks + bn r.1, buf := rest }) r.2)
      | [] =>
        let r := emitExempt (strLnk n) (threadPick s t [(0, 8, 1), (8, 3, t.flags), (32, 32, t.picks), (64, 32, t.dropped)]) s
        (true, updLink n (fun x =>
          { x with threads := (x.threads.map fun y => if y.num == t.num then { y with done := true } else y).filter fun y =>
              !y.done || y.num == x.thread }) r.2)

/-- Do so until nothing more is accepted. -/
def listPump : Nat → Nat → State → State
  | 0, _, s => s
  | fuel + 1, n, s =>
    let r := listStep n s
    if r.1 then listPump fuel n r.2 else r.2

/-- Decide a record that has waited (R294, R254). -/
def LinkHeld.take (n : Nat) (x : LinkHeld) (s : State) : State :=
  match x.what with
  | .event =>
    let r := emitExempt (strLnk n) (pickAt s x.at_ 0x09 0 (x.payload + min 0xFFFF (link s n).lostSince * 2 ^ 96)) s
    if r.1 then updLink n (fun y => { y with lostSince := 0 }) r.2 else r.2
  | .marker => (emitExempt (strLnk n) (markerAt s x.at_ x.payload) s).2

/-- Decide a record, or let it wait on behind an earlier one. -/
def offerLnk (n : Nat) (s : State) (x : LinkHeld) : State :=
  if !(link s n).held.isEmpty || !lnkReady s n x.at_.stamp x.due then holdLnk n x s else x.take n s

/-- Accept the records of a link port that have waited long enough, in their order. -/
def settleEvents (n : Nat) (s : State) : State :=
  let xs := (link s n).held
  if xs.isEmpty then s else xs.foldl (offerLnk n) (updLink n (fun y => { y with held := [] }) s)

/-- Accept what of a link port's records may be accepted now: those that waited, then what retention has room for of its threads. -/
def settleLnk (n : Nat) (s : State) : State :=
  let s1 := settleEvents n s
  listPump (listBuffered (link s1 n) + (link s1 n).threads.length + 1) n s1

/-- Close the open list of a port with a flag: 2 TIMEOUT. -/
def closeList (n flag : Nat) (late : Bool) (s : State) : State :=
  updThreads n (·.isOpen) (fun t => { t with isOpen := false, late := late, flags := t.flags ||| flag }) s

/-- The link-down sequence of a planned port, its ring and its thread (R291, R295). -/
def linkDown (n td : Nat) (raw : Bt) (s : State) : State :=
  let s1 := if (link s n).cut.grace then freezeForStop n true td s
    else if (link s n).freeze = 0 then updLink n (fun x => { x with freeze := 2, mark := x.next }) s else s
  let s2 := settleLnk n (closeList n 2 false s1)
  let a := stampAt s (pgLnk n) td raw
  updLink n (fun x =>
    { x with
      thread := x.thread + 1,
      threads := (x.threads.filter fun t => !t.done) ++ [⟨x.thread + 1, td, raw, a.und, a.wide, x.lp, 0, 0, 0, 0, [], true, false, false⟩] }) s2

/-- An entry of the unacknowledged list (R292, R293). -/
def unackEntry (n : Nat) (coll chunk : BitVec 32) (s : State) : State :=
  let pg := pgLnk n
  let x := link s n
  let p := pst s pg
  if p == .failed || p == .retired then s
  else if !planned s n then (if isEnabled s pg then bump s pg 0xB0 31 16 1 else s)
  else if x.lp = 2 then setPortErr pg 2 s
  else
    match openThread x with
    | some _ =>
      if 4096 ≤ listBuffered x then
        setErr pg 6 (bump (updThreads n (·.isOpen) (fun t => { t with dropped := t.dropped + 1, flags := t.flags ||| 1 }) s) pg 0xB0 31 16 1)
      else settleLnk n (updThreads n (·.isOpen) (fun t => { t with listed := t.listed + 1, buf := t.buf ++ [(coll, chunk)] }) s)
    | none => if x.threads.any (·.late) then bump s pg 0xB0 31 16 1 else setPortErr pg 2 s

/-- LP_UNACK_END (R291, R292). -/
def unackEnd (n : Nat) (s : State) : State :=
  let pg := pgLnk n
  let x := link s n
  let p := pst s pg
  if p == .failed || p == .retired || !planned s n then s
  else if x.lp = 2 then setPortErr pg 2 s
  else if (openThread x).isSome then settleLnk n (closeList n 0 false s)
  else if x.threads.any (·.late) then updThreads n (·.late) (fun t => { t with late := false }) s
  else setPortErr pg 2 s

/-- UNACK_US passes before LP_UNACK_END (R291, R292). -/
def listTimeout (n : Nat) (s : State) : State :=
  match openThread (link s n) with
  | none => s
  | some t =>
    if t.tdRaw + regFld s (pgLnk n) 0x48 47 32 * 4000 ≤ s.tim.raw && pst s (pgLnk n) != .failed then
      settleLnk n (setErr (pgLnk n) 7 (closeList n 2 true s))
    else s

/-- A fatal fault of a link port loses its list buffer, with no end pick (R293); a record that still waits is not accepted any more. -/
def linkFails (n : Nat) (s : State) : State :=
  updLink n (fun x =>
    { x with held := [], threads := x.threads.filterMap fun t =>
        if t.num == x.thread then some { t with buf := [], isOpen := false, late := false, done := true } else none }) s

/-- A port leaves ENABLED: with its link up and planned, the ledger becomes blind (R228, R295); the grace of a stop has no end here. The end
pick of a list that is open says LEFT_ENABLED (Table LT-4; notes/assumptions 68). -/
def linkLeaves (n : Nat) (s : State) : State :=
  let s1 := updLink n (fun x =>
    { x with
      cut := { x.cut with grace := false },
      threads := x.threads.map fun t => if t.isOpen then { t with flags := t.flags ||| 4 } else t }) s
  if planned s n && (link s n).lp = 2 then goBlind (beamOf s1 (pgLnk n)) s1 else s1

/-! ### Epoch answers -/

/-- The answer to an epoch query for a Heddle at a link port (R45, R225, R285, R288). -/
def epochQuery (n h : Nat) (s : State) : State :=
  let pg := pgLnk n
  let t := (link s n).topo
  let v := isEnabled s pg && planned s n && (t = 3 || t = 6) && regBit s pg 0x48 0 && decide (h < s.inst.reeds * s.inst.hpr) &&
    isEnabled s (pgHed h) && regBit s (pgHed h) 0x170 0
  updLink n (fun x => { x with eqValid := v, eqEpoch := if v then epochNow s else 0 }) s

/-! ### What the page shows (Table LT-9) -/

/-- The 64 bytes of a ring entry (Table LT-3). -/
def RingEnt.bytes (e : RingEnt) : Nat :=
  e.data.toNat + pack [(256, 64, e.stamp), (320, 32, e.cap.toNat), (352, 1, 1), (353, 1, bn e.sent), (354, 1, bn e.epv), (355, 2, e.label),
    (368, 14, e.die.toNat), (384, 16, e.epoch.toNat)]

/-- The read-only words of a LNK page. -/
def linkView (s : State) (n off : Nat) : Word :=
  let x := link s n
  if off = 0x50 then
    packW [(60, 4, x.topo), (58, 2, x.lp.toNat), (56, 2, x.freeze), (48, 8, ((x.seen.map (·.2.toNat)).getD 0xFF)), (46, 1, bn x.seen.isSome),
      (32, 14, ((x.seen.map (·.1.toNat)).getD 0)), (16, 16, x.thread.toNat)]
  else if off = 0x58 then BitVec.ofNat 64 x.lastChange
  else if off = 0x60 then packW [(32, 32, x.next.toNat), (0, 32, if x.freeze = 0 then 0 else x.mark.toNat)]
  else if 0x70 ≤ off && off < 0xB0 then
    match mfind x.ring (regFld s (pgLnk n) 0x68 7 0) with
    | some e => BitVec.ofNat 64 (e.bytes / 2 ^ (8 * (off - 0x70)))
    | none => 0
  else if off = 0xB8 then
    packW [(48, 16, listBuffered x), (47, 1, bn (openThread x).isSome), (16, 16, min 0xFFFF (((x.threads.getLast?).map (·.listed)).getD 0))]
  else 0

end Sys2Proof.Machine
end

