-- ==== Sys2Proof/Machine/Cal.lean ====
section
/-! DEFINITION. The calibration set (R330 to R332, Table FS-8), self-calibration of the TDC lines (R95 to R98), and the sensors (R47,
R337). -/

namespace Sys2Proof.Machine

/-! ### The set -/

/-- How many words a region has, where the index names an instantiated place (R331, Table FS-8). -/
def calPresent (s : State) (region index : Nat) : Bool :=
  if region = 0 then decide (index < 4 * pointCount s)
  else if region = 1 then decide (index < 96) && decide (index % 24 < s.inst.linksPerDir)
  else if region = 2 then s.inst.eth && index == 0
  else decide (region ≤ 4) && decide (index < s.inst.sensors)

/-- The key of a word of regions 1 to 4. -/
def calKey (region index : Nat) : Nat := region * 2 ^ 20 + index

/-- What a word of the set is before the factory values are known: a trim of gain 1 and no offset, else 0 (notes/assumptions 6). -/
def calDflt (region : Nat) : Word := if region = 3 then 0x80000000 else 0

/-- A word of the working copy. -/
def calGet (s : State) (region index : Nat) : Word :=
  if region = 0 then BitVec.ofNat 64 (mget 0 s.cal.lin index) else mget (calDflt region) s.cal.words (calKey region index)

/-- The bits of a word that its region uses (Table FS-8). -/
def calBits (region : Nat) : Nat := if region = 0 then 64 else if region = 3 then 32 else if region = 4 then 8 else 48

/-- Change the calibration set. -/
def updCal (f : Cal → Cal) (s : State) : State := { s with cal := f s.cal }

/-- Write a word of the working copy and queue it for the store; the region's FACTORY bit clears (R330). -/
def calPut (region index : Nat) (w : Word) (s : State) : State :=
  let v := w.toNat % 2 ^ calBits region
  updCal (fun c =>
    { c with
      lin := if region = 0 then mset 0 c.lin index v else c.lin,
      linOld := if region = 0 then mins c.linOld index (mget 0 c.lin index, s.tim.raw) else c.linOld,
      words := if region = 0 then c.words else mset (calDflt region) c.words (calKey region index) (BitVec.ofNat 64 v),
      factory := c.factory &&& ~~~(1#5 <<< region),
      queue := c.queue ++ [(calKey region index, BitVec.ofNat 64 v)] }) s

/-- CAL_STATUS. -/
def calStatus (s : State) : Word :=
  packW [(0, 5, s.cal.factory.toNat), (8, 1, bn !s.cal.queue.isEmpty), (32, 32, min 0xFFFFFFFF s.cal.writes)]

/-- An access to CAL_DATA (R331): none is REFUSED; else the word read, with INDEX advanced by one. -/
def calAccess (write : Option Word) (s : State) : Option (Word × State) :=
  let region := regFld s pgCal 0x48 34 32
  let index := regFld s pgCal 0x48 19 0
  if !calPresent s region index then none
  else if write.isSome && s.tim.calRunning && (region == 0 || region == 4) then none
  else
    let s1 := match write with
      | some w => calPut region index w s
      | none => s
    some (calGet s region index, regSetFld s1 pgCal 0x48 19 0 (index + 1))

/-- The store writes the oldest pending word (R330); one that does not verify sets STORE_FAIL, and what the store then holds is free. -/
def calStoreWrite (verified : Bool) (s : State) : State :=
  match s.cal.queue with
  | [] => s
  | (k, w) :: rest =>
    let put := fun (v : Word) (c : Cal) =>
      { c with
        store := mset (calDflt (k / 2 ^ 20)) c.store k v, storeFactory := c.storeFactory &&& ~~~(1#5 <<< (k / 2 ^ 20)),
        queue := rest, writes := c.writes + 1 }
    if verified then updCal (put w) s
    else
      let (i, s1) := takeFree s
      let (j, s2) := takeFree s1
      setErr pgCal 0 (updCal (put ((Config.freeWord i).setWidth 64 ||| ((Config.freeWord j).setWidth 64 <<< (32 : Nat)))) s2)

/-- The working copy loaded from the store (R330). -/
def calReload (c : Cal) : Cal :=
  { c with
    lin := (c.store.filter fun (e : Nat × Word) => decide (e.1 < 2 ^ 20)).map fun (e : Nat × Word) => (e.1, e.2.toNat), linOld := [],
    words := c.store.filter fun (e : Nat × Word) => decide (2 ^ 20 ≤ e.1),
    factory := c.storeFactory, inService := [], queue := [] }

/-! ### Which channel and which part a point belongs to (R98, Table BT-4) -/

/-- The stamping points of a part by its home page. -/
def partPoints (s : State) (p : Nat) : List Nat :=
  if 0x1000 ≤ p then [ptIssue (p - 0x1000), ptRetire (p - 0x1000), ptOther (p - 0x1000)]
  else if 0x800 ≤ p && p < 0x900 then [ptHeds s + 12 * s.inst.linksPerDir + (p - 0x800)]
  else if 0x10 ≤ p && p < 0x70 then [ptLnk s (p - 0x10) 0, ptLnk s (p - 0x10) 1, ptLnk s (p - 0x10) 2]
  else if p = pgSync && s.inst.eth then [ptEth s]
  else if p = pgFw then [ptHub s 3]
  else if p = pgHub then [ptHub s 0, ptHub s 1, ptHub s 2]
  else []

/-- The voltage channel assigned to a point. -/
def pointChannel (s : State) (point : Nat) : Option Nat :=
  if point < ptHeds s then channelFor s 1 (some (point / 3))
  else
    let r := point - (ptHeds s + 12 * s.inst.linksPerDir)
    if ptHeds s + 12 * s.inst.linksPerDir ≤ point && r < s.inst.reeds then channelFor s 1 (some (r * s.inst.hpr)) else channelFor s 1 none

/-- The last trimmed sample of a channel. -/
def lastSample (s : State) (ch : Nat) : Option (BitVec 16) := ((samples s ch).getLast?).map (·.2)

/-! ### Self-calibration (R96, R97) -/

/-- Start a run. -/
def calStart (s : State) : State := { s with tim := { s.tim with calRunning := true, calRun := s.tim.calRun + 1, calLost := [] } }

/-- Whether a run may start (Table BT-5). -/
def calMayStart (s : State) : Bool := !s.tim.calRunning && strapOk s

/-- A part reset meets a run (R97): that of the Hub abandons it; any other stamping part's points will keep
their values, and CAL_FAIL is set. -/
def calPartReset (p : Nat) (s : State) : State :=
  if !s.tim.calRunning then s
  else if p = pgHub then { s with tim := { s.tim with calRunning := false, calLost := [] } }
  else if isStamping p then setErr pgBeam 3 { s with tim := { s.tim with calLost := addOnce s.tim.calLost p } }
  else s

/-- The supply byte of a line: steps of 2 mV above 0.6 V of the point's channel; without one, or a sample, the byte stays (R95). -/
def supplyByte (s : State) (point old : Nat) : Nat × State :=
  match (pointChannel s point).bind (lastSample s) with
  | none => (old, s)
  | some v =>
    let (q, s1) := freeRound ((v.toNat : Int) - 12000) 40 s
    ((min (max q 0) 255).toNat, s1)

/-- Store the new linearity words of one line of a point, with the present supply. -/
def storeLine (words : List (Nat × Word)) (point line : Nat) (s : State) : State :=
  let i := 4 * point + 2 * line
  let w0 := (mfind words i).getD (calGet s 0 i)
  let w1 := (mfind words (i + 1)).getD (calGet s 0 (i + 1))
  let (b, s1) := supplyByte s point (fld (calGet s 0 (i + 1)) 63 56)
  calPut 0 (i + 1) (setFld w1 63 56 b) (calPut 0 i w0 s1)

/-- Store a point's new words; its lines have swapped roles (R96). -/
def storePoint (words : List (Nat × Word)) (point : Nat) (s : State) : State :=
  let s1 := storeLine words point 1 (storeLine words point 0 s)
  updCal (fun c => { c with inService := mset 0 c.inService point (1 - mget 0 c.inService point) }) s1

/-- Store the present temperature of a channel in whole degrees (R95). -/
def storeTemp (ch : Nat) (s : State) : State :=
  let w := snsMap s ch
  if !(bit w 63 && !bit w 62) then s
  else
    match lastSample s ch with
    | none => s
    | some v =>
      let (q, s1) := freeRound v.toInt 64 s
      calPut 4 ch (BitVec.ofNat 64 (fieldOfInt 8 (min (max q (-128)) 127))) s1

/-- The end of a run (R96, R97): `words` are the values found, by their index in region 0, and `failed` the points that failed. -/
def calRunComplete (words : List (Nat × Word)) (failed : List Nat) (s : State) : State :=
  if !s.tim.calRunning then s
  else
    let lost := s.tim.calLost.flatMap (partPoints s)
    let bad := (List.range (pointCount s)).filter fun p => failed.contains p || lost.contains p
    let good := (List.range (pointCount s)).filter fun p => !(failed.contains p || lost.contains p)
    let s1 := good.foldl (fun s p => storePoint words p s) s
    let s2 := (List.range s.inst.sensors).foldl (fun s ch => storeTemp ch s) s1
    let s3 := { s2 with tim := { s2.tim with calRunning := false, calDue := false, dueRaw := if s2.tim.calDue then s2.tim.raw else s2.tim.dueRaw, calLost := [] } }
    let s4 := regPut (regPut s3 pgBeam 0x98 (BitVec.ofNat 64 (hubBeam s3))) pgBeam 0xA0 (packW [(0, 32, bad.length), (32, 32, good.length)])
    if failed.any (fun p => decide (p < pointCount s)) then setErr pgBeam 3 s4 else s4

/-! ### Sensors (R47, R98, R337) -/

/-- A sample after the trims of its channel: val * GAIN / 2^15 + OFFSET; the rounding, and a value outside the format, are free. -/
def trimSample (ch : Nat) (voltage : Bool) (v : BitVec 16) (s : State) : BitVec 16 × State :=
  let w := calGet s 3 ch
  let off := signedN 16 (fld w 15 0)
  let n : Int := sampleVal (bn voltage) v * (fld w 31 16 : Nat) + off * 32768
  let (q, s1) := freeRound n 32768 s
  let lo : Int := if voltage then 0 else -32768
  let hi : Int := if voltage then 65535 else 32767
  if lo ≤ q ∧ q ≤ hi then (BitVec.ofNat 16 (fieldOfInt 16 q), s1)
  else let (i, s2) := takeFree s1; ((Config.freeWord i).setWidth 16, s2)

/-- Whether a new sample of a channel drifts from the conditions of the calibration (R98). -/
def drifted (s : State) (ch : Nat) (voltage : Bool) (v : BitVec 16) : Bool :=
  let ctl := regGet s pgBeam 0x90
  if voltage then
    (List.range (pointCount s)).any fun p =>
      pointChannel s p == some ch &&
      (let b := fld (calGet s 0 (4 * p + 2 * mget 0 s.cal.inService p + 1)) 63 56
       decide (((v.toNat : Int) - (12000 + 40 * b : Nat)).natAbs > 20 * fld ctl 31 16))
  else decide ((v.toInt - 64 * signedN 8 (fld (calGet s 4 ch) 7 0)).natAbs > 64 * fld ctl 15 8)

/-- CAL_DUE rises: source 10, and a run of its own under AUTO (R98). -/
def calRises (s : State) : State :=
  let s1 := raise 10 { s with tim := { s.tim with calDue := true, dueRaw := s.tim.raw } }
  if regBit s pgBeam 0x90 0 && calMayStart s then calStart s1 else s1

/-- The word of a channel's map takes force at its sample (R337); the samples of another kind of quantity are no longer the channel's. -/
def mapChannel (ch : Nat) (s : State) : State :=
  let w := regGet s pgHub (0x300 + 8 * ch)
  if s.inst.sensors ≤ ch || w = snsMap s ch then s
  else { s with snsOn := mset 0 s.snsOn ch w, sens := if bit w 62 = bit (snsMap s ch) 62 then s.sens else mset [] s.sens ch [] }

/-- A sample arrives on SNS_REQ; one of a channel that the map lacks is dropped and counted (R47). -/
def sensorSample (ch : Nat) (voltage : Bool) (v : BitVec 16) (t : Tdc) (s0 : State) : State :=
  let s := mapChannel ch s0
  let w := snsMap s ch
  if !bit w 63 || bit w 62 != voltage then setPortErr pgHub 9 (bump s pgHub 0x500 31 0 1)
  else
    let stamp := beamAt s pgHub (tapRaw s (ptHub s 2) t)
    let (x, s1) := trimSample ch voltage v s
    let s2 := { s1 with sens := mset [] s1.sens ch (samples s1 ch ++ [(stamp, x)]) }
    let s3 := if drifted s2 ch voltage x && !s2.tim.calDue then calRises s2 else s2
    fillReports s3

/-- HUB_SNS as read: VALUE is the last sample, coarsened while any Heddle is bound (Table BU-2, Table TK-5). -/
def snsView (s : State) (ch : Nat) : Word :=
  let kind := fld (snsMap s ch) 62 62
  let v := if anyBound s then
      let m := senseMean s kind (some ch) (hubBeam s) (if kind = 0 then 64 else 200)
      if m.1 then fieldOfInt 16 m.2 else 0
    else ((lastSample s ch).map (·.toNat)).getD 0
  packW [(0, 16, v)]

end Sys2Proof.Machine
end

