-- ==== Sys2Proof/Machine/Numeric.lean ====
section
/-! DEFINITION. The arithmetic of the witness arrays: formats (R199, R200), exact products and rounded sums (R194), digests (R207),
sketches (R208) and the product check (R209 to R211). -/

namespace Sys2Proof.Machine

/-! ### Numbers -/

/-- The number m * 2^e. -/
structure Dy where
  m : Int
  e : Int
  deriving DecidableEq, Repr

/-- A value: a number, or none for an infinity or a NaN. -/
abbrev Val := Option Dy

def Dy.zero : Dy := ⟨0, 0⟩

/-- The significands of two numbers at the lesser exponent. -/
def Dy.align (a b : Dy) : Int × Int × Int :=
  let e := min a.e b.e
  (a.m * 2 ^ (a.e - e).toNat, b.m * 2 ^ (b.e - e).toNat, e)

def Dy.add (a b : Dy) : Dy := let (x, y, e) := a.align b; ⟨x + y, e⟩
def Dy.mul (a b : Dy) : Dy := ⟨a.m * b.m, a.e + b.e⟩
def Dy.neg (a : Dy) : Dy := ⟨-a.m, a.e⟩
def Dy.abs (a : Dy) : Dy := ⟨a.m.natAbs, a.e⟩
def Dy.lt (a b : Dy) : Bool := let (x, y, _) := a.align b; decide (x < y)

/-- Bits of a number. -/
def bitLen (n : Nat) : Nat := if n = 0 then 0 else Nat.log2 n + 1

/-- The rounding modes of a pass (R194): to nearest even, or toward plus infinity. -/
inductive Mode where
  | near | up
  deriving DecidableEq, Repr

/-- A significand with its k low bits rounded off. -/
def roundOff (mode : Mode) (m : Int) (k : Nat) : Int :=
  match mode with
  | .up => -((-m) / 2 ^ k)
  | .near =>
    let q := m / 2 ^ k
    let r := m % 2 ^ k * 2
    if 2 ^ k < r || (r = 2 ^ k && q % 2 = 1) then q + 1 else q

/-- Rounding to a 24-bit significand; nothing underflows (R194). -/
def round24 (mode : Mode) (x : Dy) : Dy :=
  let k := bitLen x.m.natAbs - 24
  if k = 0 then x else ⟨roundOff mode x.m k, x.e + k⟩

/-- A rounded sum and a rounded product of numbers. -/
def addR (mode : Mode) (a b : Dy) : Dy := round24 mode (a.add b)
def mulR (mode : Mode) (a b : Dy) : Dy := round24 mode (a.mul b)

/-- Rounding to FP32, subnormals included; none where it overflows. -/
def roundFp32 (x : Dy) : Option Dy :=
  let k := max ((bitLen x.m.natAbs : Int) - 24) (-149 - x.e)
  let y := if k ≤ 0 then x else ⟨roundOff .near x.m k.toNat, x.e + k⟩
  if Dy.lt ⟨0xFFFFFF, 104⟩ y.abs then none else some y

/-- The FP32 encoding of a number that FP32 holds. -/
def encodeFp32 (x : Dy) : BitVec 32 :=
  if x.m = 0 then 0
  else
    let s := if x.m < 0 then 2 ^ 31 else 0
    -- scale to units of 2^-149
    let a := if 0 ≤ x.e + 149 then x.m.natAbs * 2 ^ (x.e + 149).toNat else x.m.natAbs / 2 ^ (-(x.e + 149)).toNat
    let n := bitLen a
    if n ≤ 23 then BitVec.ofNat 32 (s + a) else BitVec.ofNat 32 (s + (n - 23) * 2 ^ 23 + a / 2 ^ (n - 24) % 2 ^ 23)

/-! ### Formats -/

/-- A binary floating-point value; `top` 0: the highest exponent is an infinity or a NaN; 1: only its highest significand is a NaN;
2: every code is finite. -/
def floatVal (eb mb bias top bits : Nat) : Val :=
  let s : Int := if bits / 2 ^ (eb + mb) % 2 = 1 then -1 else 1
  let ex := bits / 2 ^ mb % 2 ^ eb
  let f := bits % 2 ^ mb
  if (top = 0 && ex = 2 ^ eb - 1) || (top = 1 && ex = 2 ^ eb - 1 && f = 2 ^ mb - 1) then none
  else if ex = 0 then some ⟨s * f, 1 - (bias : Int) - mb⟩
  else some ⟨s * (2 ^ mb + f : Nat), (ex : Int) - bias - mb⟩

/-- Whether a format code is used (Table WA-3). -/
def fmtUsed (c : Nat) : Bool := 1 ≤ c && c ≤ 11

/-- Whether a format is block-scaled. -/
def fmtMx (c : Nat) : Bool := 6 ≤ c && c ≤ 11

/-- Whether a format is allowed for C of a product check. -/
def fmtProductC (c : Nat) : Bool := 1 ≤ c && c ≤ 5

/-- Element bits of a format. -/
def fmtBits (c : Nat) : Nat :=
  if c = 1 then 32 else if c = 2 || c = 3 then 16 else if c = 8 || c = 9 then 6 else if c = 10 then 4 else 8

/-- Passes of a role of a format. -/
def fmtPasses (c : Nat) : Nat := if c = 1 then 3 else 1

/-- The value of an element, its scale aside. -/
def elemVal (c bits : Nat) : Val :=
  if c = 1 then floatVal 8 23 127 0 bits
  else if c = 2 then floatVal 8 7 127 0 bits
  else if c = 3 then floatVal 5 10 15 0 bits
  else if c = 4 || c = 6 then floatVal 4 3 7 1 bits
  else if c = 5 || c = 7 then floatVal 5 2 15 0 bits
  else if c = 8 then floatVal 3 2 3 2 bits
  else if c = 9 then floatVal 2 3 1 2 bits
  else if c = 10 then floatVal 2 1 1 2 bits
  else some ⟨signedN 8 bits, -6⟩

/-- The largest finite value of a format that C may have (Table WA-3). -/
def fmtMax (c : Nat) : Dy :=
  if c = 1 then ⟨0xFFFFFF, 104⟩ else if c = 2 then ⟨0xFF, 120⟩ else if c = 3 then ⟨65504, 0⟩ else if c = 4 then ⟨448, 0⟩ else ⟨57344, 0⟩

/-- u_out and eta_out of a format that C may have (Table WA-3). -/
def fmtUout (c : Nat) : Dy := ⟨1, if c = 1 then -24 else if c = 2 then -8 else if c = 3 then -11 else if c = 4 then -4 else -3⟩
def fmtEta (c : Nat) : Dy := ⟨1, if c = 1 then -150 else if c = 2 then -134 else if c = 3 then -25 else if c = 4 then -10 else -17⟩

/-- Bytes of a row of n elements (R200). -/
def rowBytes (c n : Nat) : Nat := n * fmtBits c / 8 + (if fmtMx c then n / 32 else 0)

/-- A matrix in staging: format, rows, columns, and its bytes as a number (R200). -/
structure Mat where
  fmt : Nat
  rows : Nat
  cols : Nat
  data : Nat
  deriving DecidableEq, Repr

/-- Its length in bytes. -/
def Mat.len (x : Mat) : Nat := x.rows * rowBytes x.fmt x.cols

/-- An element, its block's scale applied (R199). -/
def Mat.at (x : Mat) (i j : Nat) : Val :=
  let row := 8 * (rowBytes x.fmt x.cols * i)
  let v := elemVal x.fmt (x.data / 2 ^ (row + fmtBits x.fmt * j) % 2 ^ fmtBits x.fmt)
  if fmtMx x.fmt then
    let sc := x.data / 2 ^ (row + x.cols * fmtBits x.fmt + 8 * (j / 32)) % 256
    if sc = 255 then none else v.map fun d => ⟨d.m, d.e + sc - 127⟩
  else v

/-- The elements of a row, of a column, and all of them in order. -/
def Mat.row (x : Mat) (i : Nat) : List Val := (List.range x.cols).map (x.at i)
def Mat.col (x : Mat) (j : Nat) : List Val := (List.range x.rows).map fun i => x.at i j
def Mat.all (x : Mat) : List Val := ((List.range x.rows).map x.row).flatten

/-- The slices of an FP32 value, lowest first; other values are one slice (R199). -/
def slices (c : Nat) (d : Dy) : List Dy :=
  if c = 1 then
    let s : Int := if d.m < 0 then -1 else 1
    let a := d.m.natAbs
    [⟨s * (a % 256 : Nat), d.e⟩, ⟨s * (a / 256 % 256 : Nat), d.e + 8⟩, ⟨s * (a / 65536 : Nat), d.e + 16⟩]
  else [d]

/-! ### Sums -/

/-- The order of the n-th sum: the free order's positions below k, the ones it leaves out after them. -/
def sumPerm (n k : Nat) : List Nat :=
  let l := ((Config.sumOrder n k).filter fun i => decide (i < k)).eraseDups
  l ++ (List.range k).filter fun i => !l.contains i

/-- A sum whose terms are added in the n-th order, each addition rounded. -/
def sumInOrder (mode : Mode) (n : Nat) (ts : List Dy) : Dy :=
  (sumPerm n ts.length).foldl (fun acc i => addR mode acc (ts.getD i Dy.zero)) Dy.zero

/-- One output of a role's passes: the partial sums over its slices, added lowest slice first (R199). -/
def sumPasses (mode : Mode) (n : Nat) (fmt : Nat) (ts : List (Dy × Dy)) : Dy :=
  let part := fun k => sumInOrder mode (n + k) (ts.map fun (x, y) => ((slices fmt x).getD k Dy.zero).mul y)
  if fmt = 1 then addR mode (addR mode (part 0) (part 1)) (part 2) else part 0

/-- As `sumPasses`, over values of the role x and numbers y: not finite where a value is not. -/
def dot (mode : Mode) (n fmt : Nat) (xs ys : List Val) : Val :=
  let ts := (xs.zip ys).map fun (x, y) => match x, y with
    | some x, some y => some (x, y)
    | _, _ => none
  if ts.all (·.isSome) then some (sumPasses mode n fmt (ts.filterMap id)) else none

/-! ### Digests -/

/-- The digest of a role of L bytes under a key (R207). -/
def digestOf (k len data : Nat) : Nat :=
  let words := (List.range ((len + 3) / 4)).map fun i => data / 2 ^ (32 * i) % 2 ^ 32
  (len :: words).foldl (fun h y => (h + y) * k % (2 ^ 61 - 1)) 0

/-! ### Sketches -/

/-- A sketch (R208): the FP32 words of the sum, the sum of squares and the maximum, the saturated counts, and whether it fails for a
non-finite element or for its maximum. -/
structure Sketch where
  sum : BitVec 32
  squares : BitVec 32
  max : BitVec 32
  nonfin : Nat
  zeros : Nat
  failNonfin : Bool
  failLimit : Bool
  deriving DecidableEq, Repr

/-- A sum accumulated in FP32 in the n-th order; a free word where it leaves the format. -/
def sumFp32 (n : Nat) (ts : List Dy) : BitVec 32 :=
  match (sumPerm n ts.length).foldl (fun (acc : Option Dy) i => acc.bind fun a => roundFp32 (a.add (ts.getD i Dy.zero))) (some Dy.zero) with
  | some d => encodeFp32 d
  | none => Config.freeWord n

/-- The sketch of a matrix. -/
def sketchOf (n : Nat) (nonfinOk : Bool) (limit : BitVec 32) (x : Mat) : Sketch :=
  let all := x.all
  let fs := all.filterMap id
  let mx := fs.foldl (fun m d => if m.lt d.abs then d.abs else m) Dy.zero
  let bad := all.length - fs.length
  { sum := sumFp32 n fs, squares := sumFp32 (n + 1) (fs.map fun d => d.mul d),
    max := match roundFp32 mx with
      | some d => encodeFp32 d
      | none => Config.freeWord (n + 2),
    nonfin := min bad 0xFFFF, zeros := min (fs.filter fun d => d.m == 0).length 0xFFFF,
    failNonfin := !nonfinOk && decide (0 < bad),
    failLimit := match floatVal 8 23 127 0 limit.toNat with
      | some l => limit != 0 && l.lt mx
      | none => false }

/-! ### The product check -/

/-- What a product check needs of its card (Table WA-1). -/
structure Product where
  a : Mat
  b : Mat
  c : Mat
  reps : Nat
  tolMul : Nat
  accBits : Nat
  nonfin : Bool
  sat : Bool
  deriving DecidableEq, Repr

/-- Bit i of the keystream of a vector (R209). -/
def vecBit (key : BitVec 256) (id : BitVec 32) (v i : Nat) : Bool :=
  let blk := aes256 key (bytesLE 16 (Config.vecCounter id v (i / 128)).toNat)
  (blk.getD (i % 128 / 8) 0).getLsbD (i % 8)

/-- The rows of A that take part, and the columns compared before values are looked at (R211). -/
def Product.rowIn (p : Product) (i : Nat) : Bool := !p.nonfin || (p.a.row i).all (·.isSome)
def Product.colIn (p : Product) (j : Nat) : Bool :=
  (!p.nonfin || (p.b.row j).all (·.isSome)) &&
  !(p.sat && (List.range p.c.rows).any fun i => p.rowIn i && (match p.c.at i j with
    | some d => !(d.abs.lt (fmtMax p.c.fmt)) && !((fmtMax p.c.fmt).lt d.abs)
    | none => false))

/-- The tolerance of a column (R210), every operation rounded up. -/
def tauOf (p : Product) (s c : Dy) : Dy :=
  let ad := addR .up
  let ml := mulR .up
  let n := fun (k : Nat) (e : Int) => (⟨k, e⟩ : Dy)
  let m := p.a.rows
  let k := p.a.cols
  let cs := ad (n k (-(p.accBits : Int))) (n (m + k + 1) (-24))
  let cc := ad (ml (n 2 0) (fmtUout p.c.fmt)) (n m (-24))
  let ca := ml (n m 0) (ad (fmtEta p.c.fmt) (n k (-149)))
  ml (ml (n p.tolMul (-4)) (ad (n 1 0) (n 1 (-8)))) (ad (ad (ml cs s) (ml cc c)) ca)

/-- Whether a number is beyond the range of FP32 (R211). -/
def beyond (d : Dy) : Bool := Dy.lt ⟨0xFFFFFF, 104⟩ d.abs

/-- What a product check finds: the vectors that failed, the first failing column, a non-finite operand or element that fails the tile,
and a value out of range. -/
structure Found where
  vecs : Nat
  col : Nat
  nonfinite : Bool
  range : Bool
  deriving DecidableEq, Repr

/-- The product check (R209 to R211), its sums numbered from n. -/
def productCheck (p : Product) (sign : Nat → Nat → Bool) (n : Nat) : Found :=
  let rows := (List.range p.a.rows).filter p.rowIn
  let cols := (List.range p.b.rows).filter p.colIn
  let ks := List.range p.a.cols
  let nonfinite :=
    if p.nonfin then rows.any fun i => cols.any fun j => (p.c.at i j).isNone
    else p.a.all.any (·.isNone) || p.b.all.any (·.isNone) || p.c.all.any (·.isNone)
  if rows.isEmpty || cols.isEmpty then ⟨0, 0xFFFF, nonfinite, false⟩
  else
    let one : List Val := rows.map fun _ => some ⟨1, 0⟩
    let abs := fun (v : Val) => v.map Dy.abs
    let t := ks.map fun k => dot .up (n + 4 * k) p.a.fmt (rows.map fun i => abs (p.a.at i k)) one
    let s := cols.map fun j => dot .up (n + 2 ^ 16 + 4 * j) p.b.fmt ((p.b.row j).map abs) t
    let c := cols.map fun j => dot .up (n + 2 ^ 17 + 4 * j) p.c.fmt (rows.map fun i => abs (p.c.at i j)) one
    let tau := (s.zip c).map fun (s, c) => match s, c with
      | some s, some c => some (tauOf p s c)
      | _, _ => none
    let vec := fun r =>
      let n := n + (r + 1) * 2 ^ 18
      let v : List Val := rows.map fun i => some ⟨if sign r i then -1 else 1, 0⟩
      let x := ks.map fun k => dot .near (n + 4 * k) p.a.fmt (rows.map fun i => p.a.at i k) v
      let y := cols.map fun j => dot .near (n + 2 ^ 16 + 4 * j) p.b.fmt (p.b.row j) x
      let z := cols.map fun j => dot .near (n + 2 ^ 17 + 4 * j) p.c.fmt (rows.map fun i => p.c.at i j) v
      let bad := ((cols.zip (y.zip z)).zip tau).filterMap fun ((j, y, z), tau) => match y, z, tau with
        | some y, some z, some tau => if tau.lt (z.add y.neg).abs then some j else none
        | _, _, _ => none
      (bad, (x ++ y ++ z).any fun v => match v with
        | some d => beyond d
        | none => false)
    let vs := (List.range p.reps).map vec
    let bad := (vs.map (·.1)).flatten
    { vecs := (vs.filter fun v => !v.1.isEmpty).length,
      col := bad.foldl min 0xFFFF,
      nonfinite := nonfinite,
      range := vs.any (·.2) || (t ++ s ++ c ++ tau).any fun v => match v with
        | some d => beyond d
        | none => false }

end Sys2Proof.Machine
end

