-- ==== Sys2Proof/Machine/Witness.lean ====
section
/-! DEFINITION. The witness (spec/09_witness.md): mirroring, tiles and their admission, the check queue and its shares, outcomes, witness
picks and results. -/

namespace Sys2Proof.Machine

/-! ### Check cards (Table WA-1) -/

/-- A card nobody loaded. -/
def CheckCard.zero : CheckCard := ⟨0, 0, 0, 0⟩

def CheckCard.valid (k : CheckCard) : Bool := bit k.w0 63
def CheckCard.must (k : CheckCard) : Bool := bit k.w0 60
def CheckCard.product (k : CheckCard) : Bool := bit k.w0 59
def CheckCard.conf (k : CheckCard) : Bool := bit k.w0 58
def CheckCard.tenant (k : CheckCard) : Nat := fld k.w0 57 52
def CheckCard.nonfin (k : CheckCard) : Bool := bit k.w0 45
def CheckCard.sat (k : CheckCard) : Bool := bit k.w0 44
def CheckCard.operator (k : CheckCard) : Nat := fld k.w0 39 16
def CheckCard.dimM (k : CheckCard) : Nat := fld k.w1 63 48
def CheckCard.dimK (k : CheckCard) : Nat := fld k.w1 47 32
def CheckCard.dimN (k : CheckCard) : Nat := fld k.w1 31 16
def CheckCard.reps (k : CheckCard) : Nat := fld k.w1 15 11
def CheckCard.tolMul (k : CheckCard) : Nat := fld k.w1 7 0
def CheckCard.accBits (k : CheckCard) : Nat := fld k.w2 23 19

/-- Role i (0 A, 1 B, 2 C): whether it is valid, its Heddle position and context, its format. -/
def CheckCard.roleValid (k : CheckCard) (i : Nat) : Bool := bit k.w2 (62 - 9 * i)
def CheckCard.rolePos (k : CheckCard) (i : Nat) : Nat := fld k.w2 (61 - 9 * i) (58 - 9 * i)
def CheckCard.roleCtx (k : CheckCard) (i : Nat) : Nat := fld k.w2 (57 - 9 * i) (54 - 9 * i)
def CheckCard.fmt (k : CheckCard) (i : Nat) : Nat := fld k.w2 (35 - 4 * i) (32 - 4 * i)

/-- Whether role i is digested or sketched. -/
def CheckCard.digests (k : CheckCard) (i : Nat) : Bool := bit k.w0 (49 + i)
def CheckCard.sketches (k : CheckCard) (i : Nat) : Bool := bit k.w0 (46 + i)

/-- Rows and columns of role i as it is stored (R200). -/
def CheckCard.rows (k : CheckCard) (i : Nat) : Nat := if i = 1 then k.dimN else k.dimM
def CheckCard.cols (k : CheckCard) (i : Nat) : Nat := if i = 2 then k.dimN else k.dimK

/-- Bytes and beats of role i (R200). -/
def CheckCard.roleLen (k : CheckCard) (i : Nat) : Nat := k.rows i * rowBytes (k.fmt i) (k.cols i)
def CheckCard.roleBeats (k : CheckCard) (i : Nat) : Nat := (k.roleLen i + 63) / 64

/-- The valid roles. -/
def CheckCard.roles (k : CheckCard) : List Nat := [0, 1, 2].filter fun i => k.roleValid i

/-- The sum of a figure over some roles. -/
def sumOver (l : List Nat) (f : Nat → Nat) : Nat := (l.map f).sum

/-- The figures of R206. -/
def CheckCard.stagingBytes (k : CheckCard) : Nat := 64 * sumOver k.roles k.roleBeats
def CheckCard.footprint (k : CheckCard) : Nat :=
  k.stagingBytes + (if k.product then 8 * (k.dimK + k.dimN) * (k.reps + 1) else 0)
def CheckCard.macs (k : CheckCard) : Nat :=
  (if k.product then (k.reps + 1) * (fmtPasses (k.fmt 0) * k.dimM * k.dimK + fmtPasses (k.fmt 1) * k.dimN * k.dimK +
    fmtPasses (k.fmt 2) * k.dimM * k.dimN) else 0) +
  4 * sumOver (k.roles.filter k.digests) (fun i => (k.roleLen i + 3) / 4) +
  4 * sumOver (k.roles.filter k.sketches) (fun i => k.rows i * k.cols i)

/-- Whether a CARD_LOAD of a card with VALID 1 passes R198. -/
def CheckCard.loadable (k : CheckCard) : Bool :=
  let rs := k.roles
  fld k.w0 62 61 == 1 &&
  [0, 1, 2].all (fun i => !(k.digests i || k.sketches i) || k.roleValid i) && rs.all (fun i => fmtUsed (k.fmt i)) &&
  (!k.product || (rs == [0, 1, 2] && fmtProductC (k.fmt 2) && k.reps != 0)) &&
  rs.all (fun i => 1 ≤ k.rows i && k.rows i ≤ 4096 && 1 ≤ k.cols i && k.cols i ≤ 4096) &&
  rs.all (fun i => !fmtMx (k.fmt i) || k.cols i % 32 == 0) &&
  16 ≤ k.tolMul && 16 ≤ k.accBits && k.accBits ≤ 24 && (!k.product || decide (k.dimK * 512 ≤ 2 ^ k.accBits)) &&
  decide (k.footprint ≤ 131072) && decide (k.macs ≤ 16 * k.stagingBytes)

/-- The check card that governs a Heddle's tiles in Reed r (R197): its own, or the shadow of its predecessor's. -/
def cardFor (s : State) (r owner idx : Nat) : CheckCard :=
  if r = owner then mget CheckCard.zero s.cards (r * 64 + idx) else mget CheckCard.zero s.shadows (r * 64 + idx)

/-- The card in REED_CARD_BUF. -/
def cardBuf (s : State) (r : Nat) : CheckCard :=
  let w := fun i => regGet s (pgReed r) (0xA00 + 8 * i)
  ⟨w 0, w 1, w 2, w 3⟩

/-- Whether the entry's binding is locked against a load (Table TK-2). -/
def cardLocked (s : State) (old new : CheckCard) : Bool :=
  old.valid && old.conf && (kslot s old.tenant).live && (new.conf != old.conf || new.tenant != old.tenant)

/-- CARD_LOAD (R197, R198): none where it is refused under rule 6. -/
def cardLoad (r : Nat) (s : State) : Option State :=
  let k := cardBuf s r
  let e := regFld s (pgReed r) 0x120 5 0
  let st := pst s (pgReed r)
  if (st != .disabled && st != .enabled) || (k.valid && !k.loadable) then none
  else
    some { s with
      cards := mset CheckCard.zero s.cards (r * 64 + e) k, shadows := mset CheckCard.zero s.shadows (succReed s r * 64 + e) k }

/-- CARD_FETCH (R197). -/
def cardFetch (r : Nat) (s : State) : Option State :=
  let st := pst s (pgReed r)
  if st != .disabled && st != .enabled then none
  else
    let k := mget CheckCard.zero s.cards (r * 64 + regFld s (pgReed r) 0x120 5 0)
    let p := pgReed r
    let s1 := regPut (regPut (regPut (regPut s p 0xA00 k.w0) p 0xA08 k.w1) p 0xA10 k.w2) p 0xA18 k.w3
    some ([0xA20, 0xA28, 0xA30, 0xA38].foldl (fun s o => regPut s p o 0) s1)

/-- A Reed enters ENABLED: it copies its predecessor's cards into its shadow (R197). -/
def copyShadow (r : Nat) (s : State) : State :=
  (List.range 64).foldl (fun s e =>
    { s with shadows := mset CheckCard.zero s.shadows (r * 64 + e) (mget CheckCard.zero s.cards (predReed s r * 64 + e)) }) s

/-! ### Tiles and their keys -/

/-- Whether role i of a card lies at a position and context. -/
def CheckCard.roleAt (k : CheckCard) (i pos ctx : Nat) : Bool := k.roleValid i && k.rolePos i == pos && k.roleCtx i == ctx

/-- The home Heddle and context of a check (R201). -/
def Check.home (s : State) (c : Check) : Nat × Nat :=
  let i := if c.card.roleValid 2 then 2 else (c.card.roles.head?).getD 0
  (c.owner * s.inst.hpr + c.card.rolePos i, c.card.roleCtx i)

/-- Whether a tile is being gathered: neither complete nor ended. -/
def Check.gathering (c : Check) : Bool := !c.complete && c.outcome.isNone

/-- Whether a tile has a key. -/
def Check.keyed (c : Check) (owner idx : Nat) (tag : BitVec 16) : Bool := c.owner == owner && c.idx == idx && c.tag == tag
def Tomb.keyed (t : Tomb) (owner idx : Nat) (tag : BitVec 16) : Bool := t.owner == owner && t.idx == idx && t.tag == tag

/-- The roles that a beat of a position and context fills: each that has not had its last beat, but the first command with a tag fills A
and the next B where both name one place (R201). -/
def openRoles (k : CheckCard) (done : Nat → Bool) (pos ctx : Nat) : List Nat :=
  let l := [0, 1, 2].filter fun i => k.roleAt i pos ctx && !done i
  if l.contains 0 then l.filter (· != 1) else l

/-- Whether role i of a tile has had its last beat. -/
def Check.roleDone (c : Check) (i : Nat) : Bool := ((c.roles[i]?).map (·.last)).getD false
def Tomb.roleDone (t : Tomb) (i : Nat) : Bool := (t.lasts[i]?).getD true

/-- Whether Reed x holds the tile that a beat belongs to, gathered, dropped or still in its queue (R216). -/
def holdsTile (s : State) (x h ctx idx : Nat) (tag : BitVec 16) : Bool :=
  let w := witReed s x
  let o := primaryReed s h
  let p := hedPos s h
  isWorking s (pgReed x) &&
  (w.checks.any (fun c => c.keyed o idx tag && c.gathering && !(openRoles c.card c.roleDone p ctx).isEmpty) ||
   w.tombs.any (fun t => t.keyed o idx tag && !(openRoles t.card t.roleDone p ctx).isEmpty) ||
   w.queue.any (fun b => primaryReed s b.hed == o && b.card == idx && b.tag == tag))

/-- The Reed that takes a mirrored beat of a Heddle that Reed w serves (R195, R216). -/
def mirrorReed (s : State) (w h ctx idx : Nat) (tag : BitVec 16) : Nat :=
  let r := primaryReed s h
  match [r, succReed s r].find? fun x => holdsTile s x h ctx idx tag with
  | some x => x
  | none => if w = r && pst s (pgReed r) == .quiescing && isEnabled s (pgReed (succReed s r)) then succReed s r else w

/-- A mirrored beat that no Reed can take (R346). -/
def unserved (h : Nat) (ctx : BitVec 4) (raw : Bt) (s : State) : State :=
  let s1 := bump s (pgHed h) 0x160 31 0 1
  let e := epochOf s1 raw
  let s2 := (taintOwn e (settleEpochs s1)).2
  if s2.lapsed.contains h then s2
  else placePoison 0x10 0 (primaryReed s2 h) (hedPos s2 h + 16 * ctx.toNat) { s2 with lapsed := s2.lapsed ++ [h] }

/-- The beat of a dropped tile: with its last beat a role is done, and with its last role the tile is forgotten. -/
def dropBeat (j pos ctx : Nat) (last : Bool) (ts : List Tomb) : List Tomb :=
  (ts.zipIdx.map fun (t, n) =>
    if n = j && last then { t with lasts := (openRoles t.card t.roleDone pos ctx).foldl (fun l i => l.set i true) t.lasts } else t).filter
    fun t => !t.lasts.all (· == true)

/-- The dropped tile of Reed r that a beat belongs to. -/
def droppedTile (s : State) (r owner pos ctx idx : Nat) (tag : BitVec 16) : Option Nat :=
  (witReed s r).tombs.findIdx? fun t =>
    (gatherPaused s r || decide (s.tim.raw < t.ends)) && t.keyed owner idx tag && !(openRoles t.card t.roleDone pos ctx).isEmpty

/-- Whether a gathered tile of Reed r, or an earlier beat in its queue, has a key. -/
def keyWaits (s : State) (r owner idx : Nat) (tag : BitVec 16) : Bool :=
  (witReed s r).checks.any (fun c => c.keyed owner idx tag && c.gathering) ||
  (witReed s r).queue.any fun b => !b.dead && primaryReed s b.hed == owner && b.card == idx && b.tag == tag

/-! ### Witness picks -/

/-- A pick of a Reed's stream for a card: coarsened for a confidential tenant (R214, R217, R234); with the raw count from which it may be accepted
(R249). -/
def witPick (s : State) (r : Nat) (k : CheckCard) (typ stamp payload : Nat) : Bt × Pick :=
  let a := stampedAt s (pgReed r) stamp
  (a.raw + waitReed,
   { typ := BitVec.ofNat 8 typ, flags := recFlags s a [] (if k.conf then fCoarse else 0),
     stamp := BitVec.ofNat 64 (if k.conf then coarse12 stamp else stamp), payload := BitVec.ofNat 128 payload, ext := 0 })

/-- The payload of a witness pick (Table WA-2). -/
def witPayload (id : BitVec 32) (role kind pos ctx gen idx data : Nat) : Nat :=
  pack [(0, 32, id.toNat), (32, 2, role), (34, 2, kind), (36, 4, pos), (40, 4, ctx), (48, 8, gen), (56, 6, idx), (64, 64, data)]

/-- Accept the picks that wait, in order, once each may be accepted and while retention has room; no fence refuses them (R217, R307). -/
def drainOut : Nat → Nat → State → State
  | 0, _, s => s
  | fuel + 1, r, s =>
    match (witReed s r).out with
    | [] => s
    | p :: ps =>
      if hasRoom s (strReed r) && decide (p.1 ≤ s.tim.raw) then
        drainOut fuel r (retain (strReed r) p.2 (updWit r (fun x => { x with out := ps }) s)).2
      else s

/-- Give witness picks to a Reed's stream. -/
def witEmit (r : Nat) (ps : List (Bt × Pick)) (s : State) : State :=
  drainOut 65 r (updWit r (fun x => { x with out := x.out ++ ps }) s)

/-! ### Ending a check -/

/-- Change the checks of a Reed with an ID. -/
def updCheck (r : Nat) (id : BitVec 32) (f : Check → Check) (s : State) : State :=
  updWit r (fun x => { x with checks := x.checks.map fun c => if c.id == id then f c else c }) s

/-- What is dropped of a tile that has ended while it was gathered (R202). -/
def tombOf (s : State) (r : Nat) (c : Check) : List Tomb :=
  let lasts := [0, 1, 2].map fun i => !c.card.roleValid i || c.roleDone i
  if lasts.all id then []
  else
    let left := 2 ^ regFld s (pgReed r) 0x60 4 0 - gatherTime s r c
    [⟨c.owner, c.idx, c.tag, c.card, lasts, if gatherPaused s r then left else s.tim.raw + left⟩]

/-- A check's outcome becomes known (R202, R212): its staging is freed, its shares are dropped. -/
def endCheck (r : Nat) (c : Check) (reason vecs col : Nat) (s : State) : State :=
  let v : Verdict := ⟨reason, vecs, col, beamOf s (pgReed r)⟩
  let tomb := if c.gathering then tombOf s r c else []
  let running := (witReed s r).started && (witReed s r).order.head? == some c.id
  let s1 := updWit r (fun x =>
    { x with
      tombs := x.tombs ++ tomb, order := x.order.filter (· != c.id), started := x.started && !running,
      todo := if running then [] else x.todo, busy := if running then [] else x.busy }) s
  let s2 := updCheck r c.id (fun y => { y with outcome := some v, roles := [] }) s1
  if reason = 0x15 then bump s2 (pgReed r) 0x50 31 16 1 else s2

/-- The result payload (Table VT-3). -/
def resultPayload (s : State) (c : Check) (v : Verdict) : Nat :=
  let h := c.home s
  pack [(0, 32, c.id.toNat), (32, 8, v.reason), (40, 4, hedPos s h.1), (44, 4, h.2), (48, 6, c.idx), (54, 1, bn c.card.must),
    (55, 1, bn c.deferred), (56, 5, v.vecs), (64, 16, (epochOf s c.firstRaw).toNat), (80, 16, v.col), (96, 16, c.tag.toNat)]

/-- A check's result is accepted (R205, R212, R222, R230, R241). -/
def acceptResult (r : Nat) (c : Check) (v : Verdict) (s : State) : State :=
  let s1 := (retain (strReed r) (witPick s r c.card 0x08 v.stamp (resultPayload s c v)).2 s).2
  let s2 := updWit r (fun x => { x with checks := x.checks.filter fun y => y.id != c.id }) s1
  let h := c.home s
  let s3 := if v.reason = 0 then updOwn (fun o => { o with passes := o.passes + 1 }) s2
    else if v.reason < 0x10 then bump s2 (pgReed r) 0x48 31 16 1
    else raise 22 (setErr (pgReed r) 7 (bump s2 (pgReed r) 0x48 15 0 1))
  let void := match s3.ver.own.absolved with
    | some a => decide ((c.firstRaw : Int) < a)
    | none => false
  let s4 := if v.reason = 0 || void then s3
    else
      let s := updOwn (fun o => { o with bad := o.bad ++ [c.firstRaw] }) (settleEpochs s3)
      placePoison v.reason c.id r (hedPos s3 h.1 + 16 * h.2) (taintOwn (epochOf s3 c.firstRaw) s).2
  let (tested, s5) := testResult h.1 h.2 c.idx c.firstRaw c.id v.reason s4
  if !tested && 1 ≤ v.reason && v.reason ≤ 3 then testTrigger h.1 3 (hubBeam s5) s5 else s5

/-- Whether an outcome's result may be accepted, 64 bt after its stamp (R249). -/
def resultDue (s : State) (r : Nat) (v : Verdict) : Bool := decide ((stampedAt s (pgReed r) v.stamp).raw + waitReed ≤ s.tim.raw)

/-- The first check whose outcome is known where no check of the same home Heddle has a lower ID (R205). -/
def nextResult (s : State) : List Check → List Nat → Option (Check × Verdict)
  | [], _ => none
  | c :: cs, blocked =>
    let h := (c.home s).1
    match c.outcome with
    | some v => if blocked.contains h then nextResult s cs blocked else some (c, v)
    | none => nextResult s cs (h :: blocked)

/-- Accept every result that may be, the picks before it first (R205, R214). -/
def flushResults : Nat → Nat → State → State
  | 0, _, s => s
  | fuel + 1, r, s =>
    let s1 := drainOut 65 r s
    if !(witReed s1 r).out.isEmpty || !hasRoom s1 (strReed r) then s1
    else
      match nextResult s1 (witReed s1 r).checks [] with
      | some (c, v) => if resultDue s1 r v then flushResults fuel r (acceptResult r c v s1) else s1
      | none => s1

/-- Accept what can be accepted of a Reed's witness records. -/
def witFlush (r : Nat) (s : State) : State := flushResults (65 + (witReed s r).checks.length) r s

/-! ### Running checks (R205 to R212) -/

/-- The arrays of a Reed. -/
def reedWits (r : Nat) : List Nat := [4 * r, 4 * r + 1, 4 * r + 2, 4 * r + 3]

/-- The shares of passes over `cols` columns of `rows` terms: at most eight columns each. -/
def passShares (second : Bool) (passes rows cols : Nat) : List Share :=
  (List.range passes).flatMap fun _ => (List.range ((cols + 7) / 8)).map fun i => ⟨second, rows * min 8 (cols - 8 * i)⟩

/-- The shares of a check: the passes over A and C and every companion pass, digests and sketches; then the other passes over B (R205). -/
def sharesOf (k : CheckCard) : List Share :=
  let n := k.reps + 1
  (if k.product then passShares false (n * fmtPasses (k.fmt 0)) k.dimM k.dimK ++ passShares false (n * fmtPasses (k.fmt 2)) k.dimM k.dimN ++
    passShares false (fmtPasses (k.fmt 1)) k.dimK k.dimN else []) ++
  (k.roles.filter k.digests).map (fun i => ⟨false, 4 * ((k.roleLen i + 3) / 4)⟩) ++
  (k.roles.filter k.sketches).map (fun i => ⟨false, 4 * (k.rows i * k.cols i)⟩) ++
  (if k.product then passShares true (k.reps * fmtPasses (k.fmt 1)) k.dimK k.dimN else [])

/-- The matrix in staging of a role (R200). -/
def roleMat (c : Check) (i : Nat) : Mat :=
  let bs := ((c.roles[i]?).map (·.beats)).getD []
  ⟨c.card.fmt i, c.card.rows i, c.card.cols i, (bs.foldr (fun e n => e.2.toNat + n * 2 ^ 512) 0) % 2 ^ (8 * c.card.roleLen i)⟩

/-- The stamp of a role's last beat. -/
def roleStamp (c : Check) (i : Nat) : Nat := ((c.roles[i]?).map (·.stamp)).getD 0

/-- Whether sketch picks of a card may be accepted on a Reed's stream (R217). -/
def sketchOpen (s : State) (r : Nat) (k : CheckCard) : Bool := !k.conf || bobSlot s (strBob s (strReed r)) == some k.tenant

/-- All shares of a check are done: its picks and its outcome (R207 to R214). -/
def concludeCheck (r : Nat) (c : Check) (s : State) : State :=
  let k := c.card
  let n := s.free
  let s0 := { s with free := s.free + 2 ^ 24 }
  let p : Product :=
    { a := roleMat c 0, b := roleMat c 1, c := roleMat c 2, reps := k.reps, tolMul := k.tolMul, accBits := k.accBits, nonfin := k.nonfin,
      sat := k.sat }
  let key := (witReed s r).vecKey
  let found := if k.product then productCheck p (vecBit key c.id) n else ⟨0, 0xFFFF, false, false⟩
  let skRoles := k.roles.filter k.sketches
  let sks := skRoles.map fun i => (i, sketchOf (n + 2 ^ 23 + 8 * i) k.nonfin (BitVec.ofNat 32 (fld k.w3 63 32)) (roleMat c i))
  let dig := match (kslot s k.tenant).gen c.gen with
    | some g => (k.roles.filter k.digests).map fun i =>
        witPick s r k 0x07 (roleStamp c i)
          (witPayload c.id i 0 (k.rolePos i) (k.roleCtx i) c.gen.toNat c.idx (digestOf g.dig (k.roleLen i) (roleMat c i).data))
    | none => []
  let pay := fun i kind data => witPick s r k 0x07 (roleStamp c i) (witPayload c.id i kind (k.rolePos i) (k.roleCtx i) 0 c.idx data)
  let skPicks := sks.flatMap fun (i, x) =>
    [pay i 1 (x.sum.toNat + 2 ^ 32 * x.squares.toNat), pay i 2 (pack [(0, 32, x.max.toNat), (32, 16, x.nonfin), (48, 16, x.zeros)])]
  let s1 := if sketchOpen s r k then witEmit r (dig ++ skPicks) s0 else bump (witEmit r dig s0) (pgReed r) 0x50 15 0 skPicks.length
  let reason := if found.vecs != 0 then 1
    else if found.nonfinite || sks.any (fun e => e.2.failNonfin) then 2
    else if sks.any (fun e => e.2.failLimit) then 3
    else if found.range then 0x17 else 0
  endCheck r c reason found.vecs (if found.vecs != 0 then found.col else 0xFFFF) s1

/-- Give waiting shares to the ENABLED arrays that are free; no share of the second phase before the first has ended. -/
def giveShares (r : Nat) (s : State) : State :=
  (reedWits r).foldl (fun s w =>
    let x := witReed s r
    match x.todo with
    | sh :: rest =>
      if isEnabled s (pgWit w) && (mfind x.busy w).isNone && !(sh.second && x.busy.any fun e => !e.2.second) then
        updWit r (fun x => { x with todo := rest, busy := mins x.busy w sh }) s
      else s
    | [] => s) s

/-- Run the checks of a Reed as far as they go without an array completing: start the first of the order, judge its tenant, hand out its
shares, and conclude it when none is left (R205, R212). -/
def pumpChecks : Nat → Nat → State → State
  | 0, _, s => s
  | fuel + 1, r, s =>
    let x := witReed s r
    match x.order with
    | [] => s
    | id :: _ =>
      match x.checks.find? fun c => c.id == id with
      | none => s
      | some c =>
        if !x.started then
          if !((reedWits r).any fun w => isEnabled s (pgWit w)) then s
          else
            let sh := sharesOf c.card
            if !sh.isEmpty && (kslot s c.card.tenant).st != .active then pumpChecks fuel r (endCheck r c 0x18 0 0xFFFF s)
            else pumpChecks fuel r (updWit r (fun x => { x with started := true, todo := sh }) s)
        else if x.todo.isEmpty && x.busy.isEmpty then
          pumpChecks fuel r (concludeCheck r c (updWit r (fun x => { x with started := false }) s))
        else giveShares r s

/-- Run the checks of a Reed, and accept the results. -/
def witRun (r : Nat) (s : State) : State := witFlush r (pumpChecks (3 * (witReed s r).order.length + 3) r s)

/-- A witness array completes its share (R205). -/
def shareComplete (n : Nat) (s : State) : State :=
  let r := n / 4
  match mfind (witReed s r).busy n with
  | none => s
  | some sh =>
    let s1 := count s (pgWit n) 0x48 63 32 1
    let s2 := regPut s1 (pgWit n) 0x40 (regGet s1 (pgWit n) 0x40 + BitVec.ofNat 64 sh.macs)
    witRun r (updWit r (fun x => { x with busy := mdel x.busy n }) s2)

/-- A witness array abandons its share, which another array runs again (Table WA-8). -/
def shareAbandon (n : Nat) (s : State) : State :=
  let r := n / 4
  match mfind (witReed s r).busy n with
  | none => s
  | some sh => witRun r (bump (updWit r (fun x => { x with busy := mdel x.busy n, todo := sh :: x.todo }) s) (pgWit n) 0x48 31 16 1)

/-! ### Admission (R160, R203, R204) -/

/-- Staging that the tiles of a Reed have reserved. -/
def stagingUsed (s : State) (r : Nat) : Nat :=
  (((witReed s r).checks.filter fun c => c.outcome.isNone).map fun c => c.card.footprint).sum

/-- The working area of a Reed's staging (R193). -/
def stagingSize : Nat := 249856

/-- Draw a must-check tile's energy (R160, R203): from its own credit, from the other, or, above the ceiling, from its own alone. -/
def drawMust (r e : Nat) (s : State) : Option State :=
  let g := reedGov s r
  let ceil := g.pastM.sum
  let took := fun (s : State) => { s with gov := { s.gov with energy := s.gov.energy + e } }
  if g.creditM < 0 then none
  else if (e : Int) ≤ g.creditM then some (took (updReedGov r (fun g => { g with creditM := g.creditM - e }) s))
  else if (e : Int) ≤ g.creditO then some (took (updReedGov r (fun g => { g with creditO := g.creditO - e }) s))
  else if ceil < e && 0 < ceil && decide ((ceil : Int) ≤ g.creditM) then some (took (updReedGov r (fun g => { g with creditM := g.creditM - e }) s))
  else none

/-- Draw another tile's energy. -/
def drawOther (r e : Nat) (s : State) : Option State :=
  let g := reedGov s r
  if g.creditM < 0 || g.creditO < e then none
  else some (updReedGov r (fun g => { g with creditO := g.creditO - e }) { s with gov := { s.gov with energy := s.gov.energy + e } })

/-- The energy of a card's tile now. -/
def cardEnergy (s : State) (k : CheckCard) : Nat := tileEnergy s k.stagingBytes k.macs

/-- A check is accepted for a tile (R204, R303). -/
def acceptCheck (r owner : Nat) (b : QBeat) (k : CheckCard) (admitted deferred : Bool) (s : State) : BitVec 32 × State :=
  let id := (witReed s r).nextId
  let role : Role := ⟨[], false, 0⟩
  let c : Check :=
    { id := id, owner := owner, idx := b.card, tag := b.tag, card := k, gen := (kslot s k.tenant).current, first := b.stamp, firstRaw := b.raw,
      gathered := if gatherPaused s r then (s.tim.raw - (hubBeam s - s.stop.tc)) - b.raw else 0, ticking := b.raw, roles := [role, role, role], complete := false, admitted := admitted, deferred := deferred,
      outcome := none }
  (id, count (updWit r (fun x => { x with nextId := x.nextId + 1, checks := x.checks ++ [c] }) s) (pgReed r) 0x48 63 32 1)

/-- A deferral (R204): its pick, its counts and source 21. -/
def deferTile (r : Nat) (b : QBeat) (k : CheckCard) (id : BitVec 32) (cause : Nat) (s : State) : State :=
  let i := if k.roleValid 2 then 2 else (k.roles.head?).getD 0
  let data := pack [(0, 8, cause), (16, 16, k.stagingBytes / 64), (32, 32, k.macs)]
  let p := witPick s r k 0x07 b.stamp (witPayload id 3 3 (k.rolePos i) (k.roleCtx i) 0 b.card data)
  let s1 := updReedGov r (fun g => { g with deferred := g.deferred + 1 }) (bump s (pgReed r) 0x118 31 0 1)
  raise 21 (witEmit r [p] s1)

/-- A refusal (R160): the Heddle drops the tile's beats. -/
def refuseTile (r owner pos ctx : Nat) (b : QBeat) (k : CheckCard) (s : State) : State :=
  let s1 := bump (bump s (pgHed b.hed) 0x158 31 0 1) (pgReed r) 0x118 63 32 1
  let first := openRoles k (fun _ => false) pos ctx
  let lasts := [0, 1, 2].map fun i => !k.roleValid i || (first.contains i && b.last)
  let left := 2 ^ regFld s (pgReed r) 0x60 4 0
  let t : Tomb := ⟨owner, b.card, b.tag, k, lasts, if gatherPaused s r then left else b.raw + left⟩
  updReedGov r (fun g => { g with tiles := g.tiles + 1 })
    (if lasts.all id then s1 else updWit r (fun x => { x with tombs := x.tombs ++ [t] }) s1)

/-- The first beat of a tile: admit, defer or refuse it (R160, R203, R204); the check accepted for it, if any, and whether it is captured. -/
def admitTile (r owner pos ctx : Nat) (b : QBeat) (k : CheckCard) (s : State) : Option (BitVec 32 × Bool) × State :=
  let e := cardEnergy s k
  let free := stagingSize - stagingUsed s r
  if k.must then
    let s0 := updReedGov r (fun g => { g with em0 := g.em0 + e }) s
    if free < k.footprint then
      let (id, s1) := acceptCheck r owner b k false true s0
      (some (id, false), deferTile r b k id 2 s1)
    else
      match drawMust r e s0 with
      | some s1 => let (id, s2) := acceptCheck r owner b k true false s1; (some (id, true), s2)
      | none => let (id, s1) := acceptCheck r owner b k false true s0; (some (id, true), deferTile r b k id 1 s1)
  else
    let s0 := updReedGov r (fun g => { g with eo0 := g.eo0 + e }) s
    let bad := (kslot s k.tenant).st != .active || !((reedWits r).any fun w => isEnabled s (pgWit w)) ||
      free < k.footprint + 1024 * regFld s (pgReed r) 0x100 15 0
    match (if bad then none else drawOther r e s0) with
    | some s1 => let (id, s2) := acceptCheck r owner b k true false s1; (some (id, true), s2)
    | none => (none, refuseTile r owner pos ctx b k s0)

/-- A window start: each tile that waits for credit counts its energy as demand, and those that the credit covers are admitted in
check-ID order (R203). -/
def admitWaiting (r : Nat) (s : State) : State :=
  let s1 := ((witReed s r).checks.filter fun c => !c.admitted && c.outcome.isNone).foldl (fun s c =>
    let e := cardEnergy s c.card
    let s0 := updReedGov r (fun g => { g with em0 := g.em0 + e }) s
    match drawMust r e s0 with
    | some s1 =>
      updCheck r c.id (fun y => { y with admitted := true })
        (if c.complete then updWit r (fun x => { x with order := x.order ++ [c.id] }) s1 else s1)
    | none => s0) s
  witRun r s1

/-! ### Intake (R196, R200 to R202) -/

/-- A beat enters role i of a check: the reasons found, and the role after it. -/
def roleBeat (k : CheckCard) (i : Nat) (b : QBeat) (x : Role) : List Nat × Role :=
  let beats := mins x.beats b.off.toNat b.data
  let dup := (mfind x.beats b.off.toNat).isSome
  let n := x.beats.length + 1
  let shape := dup || decide (k.roleBeats i < n) || (b.last && n != k.roleBeats i)
  let op := i == 2 && k.operator != 0 && b.op != some (BitVec.ofNat 24 k.operator)
  ((if b.lost then [0x13] else []) ++ (if shape && !b.lost then [0x14] else []) ++ (if op then [0x16] else []), ⟨beats, b.last, b.stamp⟩)

/-- A beat enters the open roles of a gathered tile; a role's first beat is counted in HED_MIRROR.TILES (R220). -/
def fillTile (r : Nat) (c : Check) (is : List Nat) (b : QBeat) (s : State) : State :=
  let res := is.map fun i => (i, roleBeat c.card i b ((c.roles[i]?).getD ⟨[], false, 0⟩))
  let fresh := (is.filter fun i => (((c.roles[i]?).map (·.beats)).getD []).isEmpty).length
  let s0 := if fresh = 0 then s else count s (pgHed b.hed) 0x160 63 32 fresh
  let roles := res.foldl (fun l e => l.set e.1 e.2.2) c.roles
  let c1 := { c with roles := roles }
  let s1 := updCheck r c.id (fun z => { z with roles := roles }) s0
  match res.flatMap (·.2.1) with
  | m :: ms => endCheck r c1 (ms.foldl min m) 0 0xFFFF s1
  | [] =>
    if c.card.roles.all fun j => c1.roleDone j then
      let s2 := updCheck r c.id (fun z => { z with complete := true }) s1
      if c.admitted then updWit r (fun x => { x with order := x.order ++ [c.id] }) s2 else s2
    else s1

/-- A beat reaches its tile: it fills one, is dropped with one, forms one, or is stray (R196, R201, R202). -/
def tileBeat (r : Nat) (b : QBeat) (s : State) : State :=
  let owner := primaryReed s b.hed
  let pos := hedPos s b.hed
  let ctx := b.ctx.toNat
  let live := (witReed s r).checks.filter fun c => c.keyed owner b.card b.tag && c.gathering
  match live.find? fun c => !(openRoles c.card c.roleDone pos ctx).isEmpty with
  | some c => witRun r (fillTile r c (openRoles c.card c.roleDone pos ctx) b s)
  | none =>
    match droppedTile s r owner pos ctx b.card b.tag with
    | some j => updWit r (fun x => { x with tombs := dropBeat j pos ctx b.last x.tombs }) s
    | none =>
      match live.find? fun c => [0, 1, 2].any fun i => c.card.roleAt i pos ctx with
      | some c => witRun r (endCheck r c 0x14 0 0xFFFF s)
      | none =>
        let k := cardFor s r owner b.card
        let is := if k.valid then openRoles k (fun _ => false) pos ctx else []
        if is.isEmpty then bump s (pgReed r) 0x50 47 32 1
        else
          match admitTile r owner pos ctx b k s with
          | (none, s1) => s1
          | (some (id, captured), s1) =>
            match (witReed s1 r).checks.find? fun c => c.id == id with
            | none => s1
            | some c =>
              if captured then witRun r (fillTile r c is b s1)
              else
                let c1 := { c with roles := is.foldl (fun l i => l.set i ⟨[], b.last, b.stamp⟩) c.roles }
                witRun r (endCheck r c1 0x12 0 0xFFFF (count s1 (pgHed b.hed) 0x160 63 32 is.length))

/-- The Reed takes the next beat of its mirror queue (R196). -/
def mirrorIntake (r : Nat) (s : State) : State :=
  match (witReed s r).queue with
  | [] => s
  | b :: rest =>
    if !isWorking s (pgReed r) then s
    else
      let paused := gatherPaused s r
      let s0 := updWit r (fun x => { x with queue := rest, tombs := x.tombs.filter fun t => paused || s.tim.raw < t.ends }) s
      if b.dead then s0 else tileBeat r b s0

/-- A beat that finds the mirror queue full (R196): it is lost, and ends its tile at once, formed or to be formed by it; behind beats of
its tile that still wait to form it, the loss waits with them. -/
def beatLost (r : Nat) (b : QBeat) (s : State) : State :=
  let owner := primaryReed s b.hed
  let mine := fun (x : QBeat) => primaryReed s x.hed == owner && x.card == b.card && x.tag == b.tag
  let s1 := setErr (pgReed r) 6 (bump s (pgReed r) 0x50 63 48 1)
  let lost := { b with lost := true }
  if (witReed s r).checks.any fun c => c.keyed owner b.card b.tag && c.gathering then
    tileBeat r lost (updWit r (fun x => { x with queue := x.queue.map fun y => if mine y then { y with dead := true } else y }) s1)
  else if (witReed s r).queue.any mine then updWit r (fun x => { x with queue := x.queue ++ [lost] }) s1
  else tileBeat r lost s1

/-- An output beat is captured (R195, R196): on a Heddle that is not ENABLED it matches no open command. A Heddle drops the beats of a tile that was
refused or has ended (R160, R203). -/
def outputBeat (h : Nat) (it : OutBeat) (s : State) : State :=
  let pg := pgHed h
  let raw := tapRaw s (ptOther h) it.tdc
  let s0 := updHed h (fun x => { x with seqBeat := some it.seq }) s
  if !hedActive s h then bump s0 pg 0x160 31 0 1
  else
    let s1 := captureLost h (seqLost (hed s h).seqBeat it.seq) s0
    match openEnt s1 h it.ctx it.tag with
    | none => bump s1 pg 0x160 31 0 1
    | some e =>
      match e.mirror with
      | none => s1
      | some idx =>
        match servingReed s1 h with
        | none => unserved h it.ctx raw s1
        | some w =>
          let r := mirrorReed s1 w h it.ctx.toNat idx it.tag
          let own := primaryReed s1 h
          let b : QBeat :=
            { hed := h, ctx := it.ctx, tag := it.tag, card := idx, op := if e.item.addrOnly then none else some e.item.op, off := it.off,
              last := it.last, data := it.data, stamp := beamAt s1 pg raw, raw := raw, lost := false, dead := false }
          match (if keyWaits s1 r own idx it.tag then none else droppedTile s1 r own (hedPos s1 h) it.ctx.toNat idx it.tag) with
          | some j => updWit r (fun x => { x with tombs := dropBeat j (hedPos s1 h) it.ctx.toNat it.last x.tombs }) s1
          | none =>
            if 64 ≤ ((witReed s1 r).queue.filter fun x => !x.lost).length then beatLost r b s1
            else updWit r (fun x => { x with queue := x.queue ++ [b] }) s1

/-- A gather timer ends (R202). -/
def gatherTimeout (r : Nat) (id : BitVec 32) (s : State) : State :=
  match (witReed s r).checks.find? fun c => c.id == id with
  | none => s
  | some c =>
    if c.gathering && 2 ^ regFld s (pgReed r) 0x60 4 0 ≤ gatherTime s r c then witRun r (endCheck r c 0x15 0 0xFFFF s) else s

/-- The slot of a full entry of a Heddle is lost: the entry is marked NO_IDS (R141, Table CT-3). -/
def loseSlot (h num : Nat) (s : State) : State :=
  let hit := fun (e : Ent) => e.full && e.num == num && !e.noIds
  if (hed s h).ents.any hit then
    setErr (pgHed h) 5 (bump (updHed h (fun x => { x with ents := x.ents.map fun e => if hit e then { e with noIds := true } else e }) s)
      (pgHed h) 0x80 15 0 1)
  else s

/-- An uncorrectable error in a Reed's staging: in a tile's (R216), or in the area that holds the slots of the Heddles it serves for another Reed
(R141). -/
def stagingEcc (r : Nat) (hit : StagingHit) (s : State) : State :=
  match hit with
  | .tile id =>
    (match (witReed s r).checks.find? fun c => c.id == id with
     | none => s
     | some c => if c.outcome.isNone then witRun r (endCheck r c 0x11 0 0xFFFF s) else s)
  | .slot h num => if servingReed s h = some r && primaryReed s h != r then loseSlot h num s else s

/-- A Reed's staging is lost (R216): its mirror queue, and every accepted check ends REED_LOST, on its own stream. -/
def reedLost (r : Nat) (s : State) : State :=
  let st := beamOf s (pgReed r)
  let s1 := updWit r (fun x =>
    { x with
      queue := [], tombs := [], order := [], started := false, todo := [], busy := [],
      checks := x.checks.map fun c => { c with roles := [], outcome := some ⟨0x10, 0, 0xFFFF, st⟩ } }) s
  witFlush r s1

/-- Whether a Reed's check queue is empty (R216). -/
def witIdle (s : State) (r : Nat) : Bool :=
  let x := witReed s r
  x.queue.isEmpty && x.checks.isEmpty && x.out.isEmpty

/-- A Reed's vector key at ENABLE (R300). -/
def newVecKey (r : Nat) (s : State) : State :=
  let (k, s1) := takeSalt s
  let ctx := bytesLE 2 r ++ bytesLE 8 s.tim.raw ++ bytesLE 32 (Config.salt k).toNat
  updWit r (fun x => { x with vecKey := kdf Config.keyKL (ascii "FALCEN-VEC") ctx }) s1

/-! ### What the pages show -/

/-- The read-only words of the witness registers of a REED page (Table WA-7). -/
def witView (s : State) (r off : Nat) : Word :=
  let x := witReed s r
  let un := x.checks.filter fun c => c.outcome.isNone
  if off = 0x40 then
    packW [(40, 24, min 0xFFFFFF ((un.filter (·.admitted)).map fun c => c.card.macs).sum), (16, 16, (stagingSize - stagingUsed s r) / 64),
      (8, 8, min 255 (un.filter fun c => !c.admitted).length), (0, 3, ((reedWits r).filter fun w => isEnabled s (pgWit w)).length)]
  else if off = 0x58 then packW [(0, 32, x.nextId.toNat)]
  else 0

end Sys2Proof.Machine
end

