-- ==== Sys2Proof/Machine/Cut.lean ====
section
/-! DEFINITION. What the parts do at a stop: the cut in a Heddle (R140, R251, R254), the hold (R252), scan-out (R256) and the resume
(R259). -/

namespace Sys2Proof.Machine

/-! ### The cut in a Heddle -/

/-- Whether a Heddle's engine is present (HED_ENGINE). -/
def present (s : State) (h : Nat) : Bool := regBit s (pgHed h) 0x60 0

/-- Whether an entry's command is open at a cut (R140). -/
def Ent.openAt (e : Ent) (tc : Nat) : Bool := decide (e.issue < tc) && (e.st != .retired || decide (tc ≤ e.retire))

/-- Insert by issue stamp (R133). -/
def insertIssued (e : Ent) : List Ent → List Ent
  | [] => [e]
  | f :: l => if e.issueRaw < f.issueRaw then e :: f :: l else f :: insertIssued e l

/-- The commands of a context that are open at a cut, in the order of their issue stamps (R133, R140). -/
def openAtCut (s : State) (h c tc : Nat) : List Ent :=
  ((hed s h).ents.filter fun e => e.item.ctx.toNat == c && e.openAt tc).foldl (fun l e => insertIssued e l) []

/-- The gap of a Heddle that a cut finds open. -/
def gapAtCut (s : State) (h tc : Nat) : Option (Gap × Nat) := (gapNow s h).filter fun g => decide (g.1.entry < tc)

/-- The marker of one context, if it has one, and the records that follow it, wait together (R133, R254). -/
def cutContext (h tc : Nat) (raw : Bt) (marked : Bool) (s : State) (c : Nat) : State :=
  let gap := if c = 0 && ctxOn s h 0 then gapAtCut s h tc else none
  let ents := (openAtCut s h c tc).filter (·.selected)
  if !marked && ents.isEmpty && gap.isNone then s
  else
    hold h ⟨c, stampAt s (pgHed h) tc raw, raw, tc, raw + waitHed,
      .cut marked (actSource s) (actNum s) (beamOf s (pgHed h) - tc) ents gap⟩ s

/-- What a Heddle keeps of the instant Tc when it learns it (R258): the stall reason and the clock state as they were then. -/
def atCutView (s : State) (h tc : Nat) (raw : Bt) (x : HedStop) : HedStop :=
  { x with
    learnt := true, learntRaw := s.tim.raw, tc := tc, stallAtTc := (stallAt (hedC s h) raw).1,
    clkAtTc := if raw < (hed s h).clkRaw then (hed s h).clkWas else (hed s h).clkState, cyclesAtTc := (hed s h).cycles, scan := 0, words := 0,
    ended := false }

/-- A Heddle learns Tc (R251, R252, R254). -/
def hedCut (h tc : Nat) (s : State) : State :=
  let pg := pgHed h
  let raw := s.tim.raw - (beamOf s pg - tc)
  if (hedStop s h).learnt then s
  else if !isEnabled s pg then updHedStop h (fun x => { atCutView s h tc raw x with atCut := false }) s
  else
    let ctxs := ctxsOn s h
    let p := present s h
    let s1 := updHedStop h (fun x =>
      { atCutView s h tc raw x with
        atCut := true, markers := ctxs, line := p, hold := bn p, buf := [], blkNo := 0, out := none, wordAsked := none }) s
    let s2 := (List.range 16).foldl (fun s c => cutContext h tc raw (ctxs.contains c) s c) s1
    let s3 := updHed h (fun x =>
      { x with ents := x.ents.map fun e => if e.openAt tc && e.st != .retired then { e with st := .openCut } else e }) s2
    if (gapAtCut s h tc).isSome then dropGap h tc s3 else s3

/-- A Heddle that has learnt Tc passes it to its primary and its serving Reed, whose open runs close (R246, Table SS-3). -/
def passCut (h : Nat) (s : State) : State :=
  let s1 := closeBobs (writerBobs s (primaryReed s h)) s
  match servingReed s1 h with
  | some r => closeBobs (writerBobs s1 r) s1
  | none => s1

/-- The latest Beam of a part that has the bits [15:0] which the stop tree carries (R246). -/
def carried (s : State) (p : Nat) (hub : Nat) : Nat := let b := beamOf s p; b - (b + 65536 - hub % 65536) % 65536

/-- A part learns Tc: by its own Beam or by the tree (R246, R247). -/
def partCut (p tc : Nat) (s : State) : State :=
  let s1 := if 0x1000 ≤ p then passCut (p - 0x1000) (hedCut (p - 0x1000) tc s)
    else if 0x800 ≤ p then closeBobs (writerBobs s (p - 0x800)) s
    else linkCut (p - 0x10) tc s
  { s1 with
    stop := { s1.stop with
      armed := s1.stop.armed.filter (· != p), cutTodo := s1.stop.cutTodo.filter (· != p),
      fired := if s1.stop.phase == .armed then addOnce s1.stop.fired p else s1.stop.fired } }

/-- A stop pulse reaches a Heddle or link port (R246). -/
def treeArrival (p : Nat) (s : State) : State :=
  if s.stop.phase == .cutting && s.stop.cutTodo.contains p then partCut p (carried s p s.stop.tc) s else s

/-- An armed part's own Beam reaches Tc (R247). -/
def armedFire (p : Nat) (s : State) : State :=
  if s.stop.armed.contains p && s.stop.armedAt ≤ beamOf s p then
    partCut p s.stop.armedAt (if s.stop.phase == .armed && s.stop.armedAt ≤ hubBeam s then launchArmed s else s)
  else s

/-- The Hub's Beam reaches the armed Tc (R247). -/
def ttCompare (s : State) : State := if s.stop.phase == .armed && s.stop.armedAt ≤ hubBeam s then launchArmed s else s

/-! ### The actions (R247, R259, R263) -/

/-- ARM: none where it is refused. -/
def armStop (s : State) : Option State :=
  let at_ := (regGet s pgStop 0x48).toNat
  if !isEnabled s pgHub || s.stop.phase != .idle || !strapOk s || at_ < beam s + 80000 then none
  else
    let pages := (linkList s).map pgLnk ++ (reedList s).map pgReed ++ (hedList s).map pgHed
    some { s with
      stop := { s.stop with phase := .armed, armedAt := at_, guard := regFld s pgStop 0x40 63 48, armed := pages.filter fun p => isEnabled s p, fired := [] } }

/-- DISARM. -/
def disarmStop (s : State) : Option State :=
  if isEnabled s pgHub && s.stop.phase == .armed then some { s with stop := { s.stop with phase := .idle, armed := [] } } else none

/-- STOP_NOW. -/
def stopNow (s : State) : Option State :=
  if isEnabled s pgHub && (s.stop.phase == .idle || s.stop.phase == .armed) then
    let s1 := if s.stop.phase == .armed && s.stop.armedAt ≤ hubBeam s then launchArmed s else s
    if s1.stop.phase == .cutting then none else some (stopEvent 1 (hubBeam s1) s1)
  else none

/-- RESUME. -/
def resumeStop (s : State) : Option State :=
  if isEnabled s pgHub && s.stop.phase == .stopped then
    some { s with
      stop := { s.stop with
        phase := .resuming, tr := hubBeam s, out := false, resumeTodo := treePages s, past := s.stop.past ++ [(s.stop.tc, hubBeam s)] } }
  else none

/-- STOP_IN is recognised (R49, R248). -/
def stopInPin (t : Tdc) (s : State) : State :=
  if ctlPinIn (regGet s pgStop 0x40) then stopEvent 2 (beamAt s pgHub (tapRaw s (ptHub s 1) t)) s else s

/-- A part enters ENABLED while the stop is armed or in force (R247, R252). -/
def stopEnters (p : Nat) (s : State) : State :=
  let s1 := if s.stop.phase == .armed && s.stop.armedAt > hubBeam s && (0x1000 ≤ p || (0x800 ≤ p && p < 0x900) || (0x10 ≤ p && p < 0x70)) then
      { s with stop := { s.stop with armed := addOnce s.stop.armed p } }
    else s
  if 0x1000 ≤ p && stopInForce s1 && present s1 (p - 0x1000) then
    { updHedStop (p - 0x1000) (fun x =>
        { x with line := true, hold := if x.ack then 2 else 1, learnt := true, learntRaw := s1.tim.raw, atCut := false }) s1 with
      stop := { s1.stop with cutTodo := s1.stop.cutTodo.filter (· != p) } }
  else s1

/-! ### The hold (R252) -/

/-- ET_HOLD falls: HOLD returns to 0, and a scan that has not ended is abandoned (R41, R252, R259). -/
def lowerHold (h : Nat) (s : State) : State :=
  updHedStop h (fun x =>
    { x with line := false, ack := false, hold := 0, wordAsked := none, ended := x.ended || x.scan != 0 }) s

/-- Whether a Heddle's scan has begun and its last word has not come. -/
def HedStop.scanning (x : HedStop) : Bool := x.scan != 0 && !x.ended

/-- ET_HOLD_ACK rises. -/
def holdAck (h : Nat) (t : Tdc) (s : State) : State :=
  let x := hedStop s h
  if !x.line || x.ack then s
  else
    let stamp := beamAt s (pgHed h) (tapRaw s (ptOther h) t)
    let start := s.stop.phase == .cutting && x.atCut && ctlScan s.stop.ctl && s.stop.scanBase != 0
    updHedStop h (fun x =>
      { x with
        ack := true, ackStamp := stamp, hold := 2, scan := if start then 6 else x.scan,
        wordAsked := if start then some s.tim.raw else x.wordAsked }) s

/-- HOLD_LIMIT passes without ET_HOLD_ACK. -/
def holdTimeout (h : Nat) (s : State) : State :=
  let x := hedStop s h
  if x.line && x.hold = 1 && x.learntRaw + ctlHoldLimit (actCtl s) ≤ s.tim.raw then
    raise 36 (setErr pgStop 1 (updHedStop h (fun x => { x with hold := 3 }) s))
  else s

/-! ### Scan-out (R256) -/

/-- A scan ends with one of the codes 2 to 5. -/
def scanFail (h code : Nat) (s : State) : State :=
  let s1 := setErr pgStop 2 (bump (updHedStop h (fun x => { x with scan := code }) s) pgStop 0x98 15 0 1)
  if code = 2 then setErr pgStop 4 s1 else s1

/-- The words of a scan block at their places, from byte 32. -/
def layWords : List (BitVec 32) → Nat
  | [] => 0
  | w :: ws => w.toNat + layWords ws * 2 ^ 32

/-- The nonce of a scan block (R304): head, Heddle index and block number. -/
def scanNonce (head : BitVec 32) (h blk : Nat) : Nat := head.toNat * 2 ^ 64 + h * 2 ^ 48 + blk * 2 ^ 16 + 1

/-- The nonce head of a slot's scan-out of this stop under its current generation, taken at the first block that needs it (R304); the slot's
SCAN_HOLD follows, for every generation that the scan-out uses (R306). -/
def scanHeadOf (t : Nat) (s : State) : BitVec 8 × BitVec 32 × State :=
  let k := kslot s t
  let g := k.current
  match k.scanHeads.find? fun e => e.stop == s.stop.tcRaw && e.gen == g with
  | some e => (g, e.head, s)
  | none =>
    let (hd, s1) := takeHead t g s
    let again := k.scanHeads.any fun e => e.stop == s.stop.tcRaw
    (g, hd, updSlot t (fun k =>
      { k with
        scanHeads := ⟨s.stop.num, s.stop.tcRaw, g, hd⟩ :: k.scanHeads, scanHold := if again then k.scanHold ++ [g] else [g] }) s1)

/-- The blocks that a Heddle's scan area holds. -/
def scanBlocks (s : State) : Nat := 2 ^ (s.stop.scanLog - 9)

/-- A scan block (Table SS-5), sealed for a confidential tenant; one that fills the scan area before the last word truncates the scan. -/
def scanBlock (h : Nat) (last : Bool) (s : State) : Block × State :=
  let x := hedStop s h
  let trunc := !last && decide (scanBlocks s ≤ x.blkNo + 1)
  let mk := fun (gen : Nat) => BitVec.ofNat 4096 (pack [(0, 16, 0xF31C), (16, 8, 1), (24, 8, gen), (32, 12, h), (48, 16, s.stop.num.toNat),
    (64, 32, x.blkNo), (96, 8, x.buf.length), (104, 1, bn last), (105, 1, bn trunc)] + layWords x.buf * 2 ^ 256)
  match hedSlot s h with
  | none => (mk 0, s)
  | some t =>
    let (g, hd, s1) := scanHeadOf t s
    match (kslot s1 t).gen g with
    | some gn => (sealBlock gn.enc (scanNonce hd h x.blkNo) (mk g.toNat), s1)
    | none => (mk g.toNat, s1)

/-- The serving Reed, or the primary one. -/
def scanReed (s : State) (h : Nat) : Nat := countingReed s h

/-- A full or last buffer is handed to the Reed (R256); it counts as scan-out demand (R154). -/
def handBlock (h : Nat) (last : Bool) (s : State) : State :=
  updReedGov (scanReed s h) (fun g => { g with scan0 := g.scan0 + 15 })
    (updHedStop h (fun x => { x with out := some ⟨0, false, 0, last, false⟩, wordAsked := none }) s)

/-- The last word of a scan has come: a die that has resumed lowers ET_HOLD now (R259). -/
def scanLast (h : Nat) (s : State) : State :=
  let s1 := updHedStop h (fun x => { x with ended := true, wordAsked := none }) s
  if (hedStop s1 h).learnt then s1 else lowerHold h s1

/-- The engine supplies a scan word (R41, R256). -/
def scanWord (h : Nat) (w : BitVec 32) (last : Bool) (s : State) : State :=
  let x := hedStop s h
  if x.wordAsked.isNone then setPortErr (pgHed h) 8 s
  else
    let s1 := updHedStop h (fun x => { x with words := x.words + 1, wordAsked := some s.tim.raw }) s
    let withheld := match hedSlot s h with
      | some t => (kslot s t).st != .active
      | none => false
    if x.scan = 6 && !withheld then
      let s2 := updHedStop h (fun x => { x with buf := x.buf ++ [w] }) s1
      if last || 120 ≤ x.buf.length + 1 then handBlock h last s2 else s2
    else
      let s2 := if x.scan = 6 then scanFail h 5 (updHedStop h (fun x => { x with buf := [] }) s1) else s1
      if last then scanLast h s2 else s2

/-- A scan word is not supplied in time (R256). -/
def scanWordTimeout (h : Nat) (s : State) : State :=
  let x := hedStop s h
  match x.wordAsked with
  | some r => if x.scan = 6 && r + ctlHoldLimit s.stop.ctl ≤ s.tim.raw then scanFail h 3 s else s
  | none => s

/-- Scan block blk of a Heddle has completed (R256): stored, or not. A block that was stored already, and a failure at the port of a Reed that was
lost, change nothing. After an abort no more words are asked for (R252). -/
def scanDoneBlock (h blk : Nat) (ok : Bool) (s : State) : State :=
  let x := hedStop s h
  match x.out with
  | none => s
  | some o =>
    let last := o.last
    let ask := if last || !x.line || x.ended then none else some s.tim.raw
    if blk != x.blkNo then s
    else if ok then
      let trunc := !last && decide (scanBlocks s ≤ x.blkNo + 1)
      let s1 := updHedStop h (fun x => { x with out := none, buf := [], blkNo := x.blkNo + 1, wordAsked := ask }) s
      if last then scanLast h (updHedStop h (fun x => { x with scan := if x.scan = 6 then 1 else x.scan }) s1)
      else if trunc && x.line && !x.ended then scanFail h 2 s1 else s1
    else if !o.atPort then s
    else if o.tries < x.limit then updHedStop h (fun x => { x with out := some { o with atPort := false, tries := o.tries + 1 } }) s
    else
      let s1 := scanFail h 4 (updHedStop h (fun x => { x with out := none, buf := [], wordAsked := ask }) s)
      if last then scanLast h s1 else s1

/-- Whether a scan-out block of 15 exempt picks fits in a quota (R154). -/
def scanFits (s : State) (w : Nat) : Bool := let g := reedGov s w; decide (g.scanUsed + 15 ≤ g.scanQ)

/-- A Heddle whose scan block waits for Reed w. -/
def scanReady (s : State) (w : Nat) : Option Nat :=
  (s.hedStops.find? fun (h, x) => (match x.out with
    | some o => !o.atPort
    | none => false) && servingReed s h == some w).map (·.1)

/-- A Reed writes a scan block (R256): sealed at its first issue (R303), counted when it is issued again (R189), charged as 15 exempt picks
against the scan quota. -/
def issueScan (w tag h : Nat) (s : State) : State :=
  match (hedStop s h).out with
  | none => s
  | some o =>
    let (blk, s0) := if o.sent then (o.blk, s) else scanBlock h o.last s
    let s1 := updHedStop h (fun x =>
      { x with
        limit := if o.sent then x.limit else fld (delivReg s w) 11 8, out := some { o with blk := blk, atPort := true, sent := true } }) s0
    let s2 := updReedGov w (fun g => { g with scanUsed := g.scanUsed + 15 }) (if o.sent then bump s1 (pgReed w) 0x158 31 16 1 else s1)
    sendBlock w tag (.scan h (hedStop s h).blkNo) { s2 with exempt := s2.exempt + 15 }

/-- Whether the key that a Heddle's scan blocks are sealed under is gone (R310). -/
def scanKeyLost (s : State) (h : Nat) : Bool :=
  match hedSlot s h with
  | some t => (kslot s t).gens.isEmpty
  | none => false

/-- A Reed is lost with a scan block at its port: the buffered block waits again (R256), unless its key is gone. -/
def scanRedo (w : Nat) (s : State) : State :=
  (wport s w).tags.foldl (fun s e => match e.2.ref with
    | .scan h n =>
      if e.2.late || n != (hedStop s h).blkNo then s
      else if scanKeyLost s h then scanDoneBlock h n false s
      else updHedStop h (fun x => { x with out := x.out.map fun o => { o with atPort := false } }) s
    | _ => s) s

/-- A scan block that waits is given up with a code (R256, R310). -/
def dropScan (h code : Nat) (s : State) : State :=
  let x := hedStop s h
  match x.out with
  | none => s
  | some o =>
    let ask := if o.last || !x.line || x.ended then none else some s.tim.raw
    let s1 := scanFail h code (updHedStop h (fun x => { x with out := none, buf := [], wordAsked := ask }) s)
    if o.last then scanLast h s1 else s1

/-- A slot's key is lost: its Heddles' scan blocks at a port complete and are not issued again, those that wait are given up (R310). -/
def abandonScans (t : Nat) (s : State) : State :=
  (s.hedStops.map (·.1)).foldl (fun s h =>
    if hedSlot s h != some t then s
    else match (hedStop s h).out with
      | none => s
      | some o =>
        if o.atPort then updHedStop h (fun x => { x with limit := 0 }) s
        else dropScan h (if o.sent then 4 else 5) s) s

/-- Whether a Heddle's scan lets its QUIESCING end (R252): ended by its last word or by a word timeout, or never begun. -/
def scanQuiet (s : State) (h : Nat) : Bool :=
  let x := hedStop s h
  !x.scanning || x.scan = 3 || (x.scan != 6 && (match x.wordAsked with
    | some r => decide (r + ctlHoldLimit s.stop.ctl ≤ s.tim.raw)
    | none => false))

/-! ### The end of the cut, and the resume -/

/-- Whether a Heddle's hold is resolved and its scan has ended, as Table SS-2 takes them: a scan in progress is waited for even where the Heddle
has left ENABLED (R252). -/
def hedResolved (s : State) (h : Nat) (x : HedStop) : Bool :=
  (!x.atCut || !isEnabled s (pgHed h) || x.hold = 2 || x.hold = 3 || !present s h) && (x.scan != 6 || x.ended)

/-- Whether every record of a Heddle or link port that was triggered before Tc is decided (R251). -/
def preCutDecided (s : State) : Bool :=
  (s.heds.all fun (_, x) => (x.held.all fun y => decide (s.stop.tcRaw ≤ y.trig)) &&
    x.ents.all fun e => e.st != .retired || decide (s.stop.tcRaw ≤ e.retireRaw)) &&
  s.links.all fun (_, x) => x.held.all fun y => decide (s.stop.tcRaw ≤ y.at_.raw)

/-- Whether CUTTING ends (R250). -/
def cutReady (s : State) : Bool :=
  s.stop.phase == .cutting && s.stop.cutTodo.isEmpty && s.hedStops.all (fun (h, x) => hedResolved s h x) &&
  (s.links.all fun (n, x) => !(x.cut.grace && isEnabled s (pgLnk n))) && preCutDecided s

/-- What may be accepted now in Heddles and link ports is (R132, R249). -/
def settleAll (s : State) : State :=
  (s.links.map (·.1)).foldl (fun s n => settleLnk n s) ((s.heds.map (·.1)).foldl (fun s h => settleSpans 32 h s) s)

/-- Every hold and scan is resolved, every link port frozen and every record of before Tc decided (R250, R251, R257; DEDUCED
72). -/
def cutComplete (s : State) : State :=
  let s1 := if s.stop.phase == .cutting then settleAll s else s
  if !cutReady s1 then s1
  else
    let snag := ctlSnag s.stop.ctl && s.stop.snagBase != 0
    { s1 with
      stop := { s1.stop with
        ts := hubBeam s1, phase := if snag then .snagging else .stopped, snagNext := if snag then 0 else s1.stop.snagNext,
        snagBlocks := if snag then 0 else s1.stop.snagBlocks, snagOut := none,
        snagTrunc := if snag then false else s1.stop.snagTrunc, snagDone := if snag then false else s1.stop.snagDone,
        snagEntries := if snag then 0 else s1.stop.snagEntries } }

/-- The resume reaches a Heddle (R259). -/
def hedResume (h : Nat) (s : State) : State :=
  let x := hedStop s h
  let pg := pgHed h
  let tr := carried s pg s.stop.tr
  let raw := s.tim.raw - (beamOf s pg - tr)
  let on := isEnabled s pg
  let s1 := if on then x.markers.foldl (fun s c =>
      hold h ⟨c, stampAt s pg tr raw, raw, tr, raw + waitHed, .resume (actSource s) (actNum s) (tr - x.tc)⟩ s) s else s
  let s2 := if hedActive s h && (hed s1 h).gap.isNone then openGap h tr raw false s1 else s1
  let s3 := updHedStop h (fun x => { x with learnt := false, atCut := false, markers := [] }) s2
  if x.line && !(x.scanning && on) then lowerHold h s3 else s3

/-- The resume reaches a part (R246, R259); the first Heddle of a Reed passes it on. -/
def resumeArrival (p : Nat) (s : State) : State :=
  if s.stop.phase == .resuming && s.stop.resumeTodo.contains p then
    let r := primaryReed s (p - 0x1000)
    let s0 := if 0x1000 ≤ p && gatherPaused s r then restartGather r s else s
    let s1 := if 0x1000 ≤ p then hedResume (p - 0x1000) s0 else linkResume (p - 0x10) s0
    { s1 with stop := { s1.stop with resumeTodo := s1.stop.resumeTodo.filter (· != p) } }
  else s

/-- Every part has acted on the resume (R250, R259). -/
def resumeComplete (s : State) : State :=
  if s.stop.phase == .resuming && s.stop.resumeTodo.isEmpty then { s with stop := { s.stop with phase := .idle } } else s

/-! ### What the pages show -/

/-- The code of a phase (Table SS-2). -/
def StopPhase.code : StopPhase → Nat
  | .idle => 0
  | .armed => 1
  | .cutting => 2
  | .snagging => 3
  | .stopped => 4
  | .resuming => 5

/-- How many Heddles' stop states satisfy a condition. -/
def countHolds (s : State) (f : Nat → HedStop → Bool) : Nat := (s.hedStops.filter fun (h, x) => f h x).length

/-- The read-only words of the STOP page (Table SS-10). -/
def stopView (s : State) (off : Nat) : Word :=
  let st := s.stop
  if off = 0x50 then packW [(48, 16, st.num.toNat), (8, 4, st.source), (0, 3, st.phase.code)]
  else if off = 0x58 then BitVec.ofNat 64 st.tc
  else if off = 0x60 then BitVec.ofNat 64 st.tr
  else if off = 0x68 then
    packW [(48, 16, countHolds s fun _ x => x.hold = 2), (32, 16, countHolds s fun _ x => x.hold = 3),
      (16, 16, countHolds s fun _ x => x.scan = 6 && !x.ended), (0, 16, countHolds s fun h x => x.atCut && !present s h)]
  else if off = 0xA0 then packW [(32, 32, st.snagBlocks), (16, 16, st.snagEntries), (1, 1, bn st.snagTrunc), (0, 1, bn st.snagDone)]
  else 0

/-- The read-only fields of HED_STOP (Table SS-11). -/
def hedStopView (s : State) (h : Nat) : Word :=
  let x := hedStop s h
  packW [(32, 32, x.words), (16, 4, x.scan), (12, 2, x.hold)]

end Sys2Proof.Machine
end

