-- ==== Sys2Proof/Machine/Beam.lean ====
section
/-! DEFINITION. The Beam generator (spec/04_beam_time.md): steps and sets, rate, reference, serial refresh, and the BEAM page. -/

namespace Sys2Proof.Machine

/-! ### The generator (R79, R89) -/

/-- INC in 8.40 fixed point (R79); 0 under a bad strap, for which no value is stated (notes/assumptions 20). -/
def beamInc (s : State) : Nat := if strapOk s then (2 * 4000000 * 2 ^ 40 + s.inst.refKhz) / (2 * s.inst.refKhz) else 0

/-- The increment in use: under a rate offset INC x (1 + rate x 10^-12), rounded to the nearest 2^-40 bt (R79). -/
def incNow (s : State) : Nat := (((beamInc s : Int) * (1000000000000 + s.tim.rate) + 500000000000) / 1000000000000).toNat

/-- What raw count leads the phase accumulator by once dt bt have passed: the accumulator advances by whole increments (R79, R80), and stands in
holdover (R82). -/
def newPhase (dt : Nat) (s : State) : Nat :=
  if s.tim.holdover || incNow s = 0 then s.tim.phase else (s.tim.phase + dt * 2 ^ 40) % incNow s

/-- The 24-bit Gray code of raw count bits [27:4] on the Gray tree (R89). -/
def grayTree (s : State) : BitVec 24 := let b := BitVec.ofNat 24 (s.tim.raw / 16); b ^^^ (b >>> (1 : Nat))

/-- One bit of a CRC of 16 bits with polynomial 0x1021, most significant bit first. -/
def crc16Bit (c : BitVec 16) (b : Bool) : BitVec 16 := if c.msb != b then (c <<< 1) ^^^ 0x1021#16 else c <<< 1

/-- The CRC-16 of a serial message: over bits [191:32], then [15:0]. -/
def serialCrc (m : BitVec 192) : BitVec 16 :=
  ((List.range 160).map (191 - ·) ++ (List.range 16).map (15 - ·)).foldl (fun c i => crc16Bit c (m.getLsbD i)) 0xFFFF#16

/-- A message that the generator sends for an update AT (Table BT-2): the offset is the one in force there, or taking force there. -/
def serialMsg (s : State) (kind at' : Nat) : BitVec 192 :=
  let off := match s.tim.step with
    | some a => if a.raw ≤ at' then a.newOff else s.tim.offset
    | none => s.tim.offset
  let m := BitVec.ofNat 192 (pack [(128, 64, off), (64, 64, at'), (8, 8, s.tim.stepCount.toNat), (6, 1, bn s.tim.step.isSome),
    (5, 1, bn s.tim.holdover), (4, 1, bn s.tim.disc), (0, 4, kind)])
  m ||| ((serialCrc m).setWidth 192 <<< (16 : Nat))

/-- How long before its AT a message begins: 192 bits of 8 bt, the last of them 1,024 bt before AT (R89). -/
def serialLead : Nat := 192 * 8 + 1024

/-- Send a message for an update AT. -/
def sendMsg (kind at' : Nat) (s : State) : State := { s with tim := { s.tim with line := s.tim.line ++ [serialMsg s kind at'] } }

/-- Send a status message: after a change of status, or on a receiver's request (R82, R89, R91). -/
def statusMsg (s : State) : State := if strapOk s then sendMsg 2 ((s.tim.raw + serialLead + 15) / 16 * 16) s else s

/-- The messages on the line once raw count has risen to a value: those whose AT has not passed, and a periodic one for each multiple of 2^20 bt that
has come near, the last of them (R89). -/
def newLine (raw : Bt) (s : State) : List (BitVec 192) :=
  let kept := s.tim.line.filter fun m => decide (raw ≤ fieldN m.toNat 127 64)
  let m := (raw + serialLead) / 2 ^ 20
  if m = (s.tim.raw + serialLead) / 2 ^ 20 then kept else kept ++ [serialMsg s 1 (m * 2 ^ 20)]

/-! ### Records of time (R88, Table BT-1) -/

/-- A time step/rate event, with the rate offset that is in force after it; while the Hub is in RESETTING (or FAILED, which ends there) it is
owed. -/
def timeRecord (kind origin : Nat) (a : At) (delta : Int) (s : State) : State :=
  let p := pickAt s a 0x0E 0 (pack [(0, 8, kind), (8, 8, origin), (16, 16, s.tim.stepCount.toNat),
    (32, 32, fieldOfInt 32 (s.tim.ratePend.getD s.tim.rate)), (64, 64, fieldOfInt 64 delta)])
  let st := pst s pgHub
  if st == .resetting || st == .failed then { s with owed := s.owed ++ [p] } else emitHub p s

/-- A time event of this instant. -/
def timeEvent (kind origin : Nat) (s : State) : State := timeRecord kind origin (stampNow s pgHub (hubBeam s)) 0 s

/-- The records owed are emitted as the Hub leaves RESETTING. -/
def payOwed (s : State) : State := s.owed.foldl (fun s p => emitHub p s) { s with owed := [] }

/-! ### Steps and sets (R85 to R87) -/

/-- AT: the first multiple of 8,192 bt at least 8,192 bt from now. -/
def stepInstant (s : State) : Nat := (s.tim.raw + 8192 + 8191) / 8192 * 8192

/-- Announce a step whose Beam at AT would be `beamAtAT`; none where R86 refuses it. -/
def announce (kind origin : Nat) (beamAtAT : Int) (s : State) : Option State :=
  if s.tim.step.isSome || s.stop.phase == .armed || !strapOk s || beamAtAT < 0 || (two64 : Int) ≤ beamAtAT then none
  else
    let at' := stepInstant s
    some (sendMsg 3 at' { s with tim := { s.tim with step := some ⟨at', wrap64 (beamAtAT - at'), kind, origin⟩ } })

/-- Announce a step by a signed number of bt (R85, R116). -/
def announceDelta (kind origin : Nat) (delta : Int) (s : State) : Option State :=
  announce kind origin (((stepInstant s + s.tim.offset) % two64 : Nat) + delta) s

/-- The STEP action. -/
def stepAction (s : State) : Option State := announceDelta 0 0 (signed64 (regGet s pgBeam 0x78).toNat) s

/-- The SET action: Beam equals BEAM_SET_VALUE at the raw count of the action. -/
def setAction (s : State) : Option State := announce 1 0 ((regGet s pgBeam 0x80).toNat + (stepInstant s - s.tim.raw : Nat)) s

/-- A part that missed the announcement keeps its old offset (R90). -/
def keepOld (old new : Nat) (x : Part) : Part :=
  if x.missed then { x with missed := false, devOff := wrap64 (x.devOff + old - new) } else x

/-- The pending step takes force (R85, R88). -/
def stepTakesForce (s : State) : State :=
  match s.tim.step with
  | none => s
  | some a =>
    let old := s.tim.offset
    let stamp := (a.raw + a.newOff) % two64
    let delta := signed64 (wrap64 ((a.newOff : Int) - old))
    let s1 := { s with
      tim := { s.tim with
        step := none, offset := a.newOff, stepCount := s.tim.stepCount + 1,
        stepped := s.tim.stepped ++ [⟨a.raw, (a.raw + old) % two64, stamp⟩] } }
    let s2 := (s.parts.map (·.1)).foldl (fun s p => updPart s p (keepOld old a.newOff)) s1
    -- sampling instants are judged afresh in the new Beam
    let s3 := { s2 with counts := s2.counts.map fun (e : Nat × HedCount) => (e.1, { e.2 with lastCnt := none, lastStl := none }) }
    timeRecord a.kind a.origin (stampAt s3 pgHub stamp a.raw) delta s3

/-! ### Rate (R81) -/

/-- A rate offset that takes force at the next update. -/
def setRate (r : Int) (s : State) : State := { s with tim := { s.tim with ratePend := some r } }

/-- The servo owns the rate in every state but IDLE (R115). -/
def rateOwned (s : State) : Bool := s.servo.st != 0

/-- The RATE action. -/
def rateAction (s : State) : Option State :=
  let r := signedN 32 (regFld s pgBeam 0x70 31 0)
  if rateOwned s || !strapOk s || r < -200000000 || 200000000 < r then none else some (setRate r s)

/-- The CAL_TDC action. -/
def calTdcAction (s : State) : Option State := if calMayStart s then some (calStart s) else none

/-! ### The reference (R48, R82, R83) -/

/-- The Hub declares reference loss. -/
def referenceLoss (s : State) : State :=
  if s.tim.holdover || !strapOk s then s
  else
    let s1 := { s with tim := { s.tim with refOk := false, holdover := true, disc := false } }
    timeEvent 3 3 (statusMsg (setErr pgBeam 1 (bump s1 pgBeam 0xB0 63 32 1)))

/-- The Hub declares the reference there: the accumulator is re-based on raw count. After a loss it is back, and the status has changed; after a
reset REF_OK rises (notes/assumptions 73). -/
def referenceReturn (s : State) : State :=
  if s.tim.refOk || !strapOk s then s
  else
    let s1 := { s with tim := { s.tim with refOk := true, holdover := false, phase := 0 } }
    if s.tim.holdover then timeEvent 4 3 (statusMsg s1) else s1

/-! ### Serial refresh (R89 to R91) -/

/-- A part reports a refresh mismatch or a CRC failure (R90). -/
def refreshError (p : Nat) (s : State) : State :=
  setErr pgBeam 2 (regSetFld (bump s pgBeam 0xA8 63 32 1) pgBeam 0xA8 12 0 p)

/-- A message at its AT in a stamping part: a bad one is ignored and reported; else the part compares, adopts where they differ, and takes the
status (R90, R91). -/
def serialMessage (p : Nat) (m : BitVec 192) (s : State) : State :=
  let f := fun hi lo => fieldN m.toNat hi lo
  if !isStamping p || pst s p == .retired then s
  else if BitVec.ofNat 16 (f 31 16) != serialCrc m then
    refreshError p (if f 3 0 = 3 && s.tim.step.isSome then updPart s p (fun x => { x with missed := true }) else s)
  else if f 3 0 < 1 || 3 < f 3 0 then s
  else
    let x := part s p
    let now := s.tim.raw / 16 * 16
    let mine := (now + x.devRaw) % two64
    let agree := mine == f 127 64 && offsetFor s p s.tim.raw % two64 == f 191 128
    let fixed := fun (x : Part) =>
      { x with
        devRaw := wrap64 ((f 127 64 : Int) - now),
        devOff := wrap64 ((f 191 128 : Int) - (offsetFor s p s.tim.raw - x.devOff)) }
    let s1 := updPart s p (fun (x : Part) =>
      let y := if agree then x else fixed x
      let turns := (!x.rxDisc || x.rxHoldover) != (f 4 4 != 1 || f 5 5 == 1)
      { y with
        undRaw := if turns then now else x.undRaw, rxDisc := f 4 4 == 1, rxHoldover := f 5 5 == 1, rxSteps := BitVec.ofNat 8 (f 15 8), locked := x.locked || f 3 0 ≤ 2,
        asked := x.asked && f 3 0 == 3 })
    if agree then s1 else refreshError p s1

/-- A part leaving RESETTING asks for a status message (R91). -/
def statusRequest (p : Nat) (s : State) : State :=
  if isStamping p && pst s p == .resetting then statusMsg (updPart s p (fun x => { x with asked := true })) else s

/-! ### The BEAM page (Table BT-8) -/

/-- LOCKED_ALL: every enabled stamping part is locked, and there is one (notes/assumptions 74). -/
def lockedAll (s : State) : Bool :=
  (s.parts.any fun e => isStamping e.1 && e.2.st == .enabled) && s.parts.all fun e => !(isStamping e.1 && e.2.st == .enabled) || e.2.locked

/-- The read-only words of the BEAM page. -/
def beamView (s : State) (off : Nat) : Word :=
  if off = 0x40 then BitVec.ofNat 64 (hubBeam s)
  else if off = 0x48 then BitVec.ofNat 64 (if strapOk s then s.tim.raw else 0)
  else if off = 0x50 then BitVec.ofNat 64 s.tim.offset
  else if off = 0x58 then
    packW [(32, 32, s.tim.stepCount.toNat), (8, 1, bn s.tim.calRunning), (7, 1, bn s.tim.calDue), (6, 1, bn s.tim.step.isSome),
      (5, 1, bn s.tim.holdover), (4, 1, bn s.tim.refOk), (3, 1, bn s.tim.disc), (2, 1, bn (rateOwned s)), (1, 1, bn (lockedAll s)),
      (0, 1, bn (strapOk s))]
  else if off = 0x60 then packW [(0, 48, beamInc s)]
  else if off = 0x68 then packW [(0, 32, fieldOfInt 32 s.tim.rate)]
  else if off = 0x88 then
    (match s.tim.step with
     | some a => BitVec.ofNat 64 (a.raw + s.tim.offset)
     | none => 0)
  else 0

end Sys2Proof.Machine
end

