-- ==== Sys2Proof/Machine/Servo.lean ====
section
/-! DEFINITION. The sync servo (R114 to R119). Offsets are quotients in bt; the frequency is in parts per 10^12. Where the manual gives no
rounding, the choice between the two neighbours is free (Config.roundUp). -/

namespace Sys2Proof.Machine

/-! ### Quotients -/

/-- A quotient in lowest terms. -/
def Q.norm (n : Int) (d : Nat) : Q := let g := Nat.gcd n.natAbs d; if g = 0 then ⟨n, d⟩ else ⟨n / (g : Int), d / g⟩

/-- The quotient of an integer. -/
def Q.ofInt (n : Int) : Q := ⟨n, 1⟩

/-- Sum, difference and product. -/
def Q.add (a b : Q) : Q := Q.norm (a.n * b.d + b.n * a.d) (a.d * b.d)
def Q.sub (a b : Q) : Q := Q.norm (a.n * b.d - b.n * a.d) (a.d * b.d)
def Q.mul (a b : Q) : Q := Q.norm (a.n * b.n) (a.d * b.d)

/-- The quotient of two integers, the second not 0. -/
def Q.div (n d : Int) : Q := if d < 0 then Q.norm (-n) d.natAbs else Q.norm n d.natAbs

/-- The mean of a list. -/
def Q.mean (l : List Q) : Q := Q.mul (l.foldl Q.add (Q.ofInt 0)) ⟨1, l.length⟩

/-- Whether the magnitude of a quotient exceeds a number. -/
def Q.beyond (a : Q) (n : Nat) : Bool := decide (n * a.d < a.n.natAbs)

/-- A quotient times a number, rounded with a free choice. -/
def Q.scaled (a : Q) (k : Int) (s : State) : Int × State := freeRound (a.n * k) a.d s

/-- The nearest whole number; at a tie the choice is free. -/
def Q.nearest (a : Q) (s : State) : Int × State :=
  if 2 * (a.n % (a.d : Int)) = a.d then freeRound a.n a.d s else ((2 * a.n + a.d) / (2 * a.d), s)

/-! ### Configuration and state -/

/-- Change the servo. -/
def updServo (f : Servo → Servo) (s : State) : State := { s with servo := f s.servo }

/-- SYNC_CTL, SYNC_LOCK and SYNC_DIE as in force: the words read at SERVO_START, or while the servo is IDLE the registers (R114). -/
def syncCtl (s : State) : Word := if s.servo.st = 0 then regGet s pgSync 0x40 else s.servo.ctl
def syncLock (s : State) : Word := if s.servo.st = 0 then regGet s pgSync 0x48 else s.servo.lock
def syncDie (s : State) : Word := if s.servo.st = 0 then regGet s pgSync 0x50 else s.servo.die

/-- Fields of SYNC_CTL: the source, whether this die is the root, the interval. -/
def srcOf (w : Word) : Nat := fld w 1 0
def isRoot (s : State) : Bool := bit (syncCtl s) 2
def interval' (s : State) : Nat := 2 ^ (16 + fld (syncCtl s) 19 16)

/-- The root die: this one at the root. -/
def rootDie (s : State) : Nat := if isRoot s then fld (syncDie s) 13 0 else fld (syncDie s) 29 16

/-- The origin of a record of the servo: 1 mesh, 2 Ethernet (R88). -/
def srcOrigin (s : State) : Nat := srcOf s.servo.ctl

/-- UNLOCK_BT and LOCK_BT as latched. -/
def unlockBt (s : State) : Nat := fld s.servo.lock 31 16
def lockBt (s : State) : Nat := fld s.servo.lock 7 0

/-- A root with no source of its own (Table NT-6). -/
def freeRoot (s : State) : Bool := bit s.servo.ctl 2 && srcOf s.servo.ctl == 0

/-- DISC becomes 1: record kind 5. -/
def gainDisc (origin : Nat) (s : State) : State :=
  timeEvent 5 origin (statusMsg { s with tim := { s.tim with disc := true } })

/-- DISC, if it was 1, becomes 0: record kind 6, and source 11 where the table names it. -/
def loseDisc (origin : Nat) (src11 : Bool) (s : State) : State :=
  if !s.tim.disc then s
  else
    let s2 := timeEvent 6 origin (statusMsg { s with tim := { s.tim with disc := false } })
    if src11 then raise 11 s2 else s2

/-- Enter a state with fresh runs of measurements. -/
def servoTo (st : Nat) (s : State) : State :=
  updServo (fun v => { v with st := st, got := if st = 1 then [] else v.got, inLock := 0, outLock := 0, aside := 0, wantStep := false }) s

/-- HOLDOVER on a lost source (R118): the rate becomes freq. -/
def servoLost (s : State) : State := servoTo 5 (loseDisc (srcOrigin s) true (setRate s.servo.freq s))

/-- Judge source and generator afresh (Table NT-6): `present` says whether the configured source is there. -/
def servoCheck (present : Bool) (s : State) : State :=
  if s.servo.st = 0 then s
  else if s.servo.st = 5 then
    if s.tim.holdover then s
    else if freeRoot s then gainDisc 3 (servoTo 4 s)
    else if present then servoTo (if s.servo.acqDone then 3 else 1) s else s
  else if s.tim.holdover then servoTo 5 s
  else if !freeRoot s && !present then servoLost s
  else s

/-! ### Actions (Tables NT-5 and NT-6) -/

/-- Whether SERVO_START is refused for its configuration. -/
def startConfigBad (s : State) : Bool :=
  let ctl := regGet s pgSync 0x40
  let die := regGet s pgSync 0x50
  let src := srcOf ctl
  let root := bit ctl 2
  src == 3 || (root && src == 1) || (!root && src == 0) || (!root && fld die 29 16 == fld die 13 0) || ((src == 1 || root) && !bit die 31) ||
    (src == 2 && !(s.inst.eth && isEnabled s pgSync))

/-- SERVO_START: none where it is refused; `present` says whether a source of the new configuration is there. -/
def servoStart (present : State → Bool) (s : State) : Option State :=
  if s.servo.st != 0 || !strapOk s || startConfigBad s then none
  else
    let s1 := updServo (fun v =>
      { v with ctl := regGet s pgSync 0x40, lock := regGet s pgSync 0x48, die := regGet s pgSync 0x50, rootSteps := none }) s
    some (if freeRoot s1 then
        (if s1.tim.holdover then servoTo 5 s1 else gainDisc 0 (servoTo 4 s1))
      else let s2 := servoTo 1 s1; servoCheck (present s2) s2)

/-- SERVO_STOP, and the Hub's entry into RESETTING. -/
def servoStop (s : State) : State := if s.servo.st = 0 then s else servoTo 0 (loseDisc 0 false s)

/-- A rearm: by the host (origin 0), or ordered by REARM_ON_ROOT_STEP (R116). -/
def rearm (origin : Nat) (s : State) : State :=
  updServo (fun v => { v with acqDone := false }) (servoTo 1 (loseDisc origin false s))

/-- SERVO_REARM: none where it is refused. -/
def servoRearm (present : State → Bool) (s : State) : Option State :=
  if s.servo.st = 0 || freeRoot s then none else let s1 := rearm 0 s; some (servoCheck (present s1) s1)

/-! ### Measurements (R116, R117) -/

/-- The limit of the clamps: 200 ppm. -/
def clampPpt (x : Int) : Int := min (max x (-200000000)) 200000000

/-- A free signed number of parts per 10^12, where the manual's quotient has no value. -/
def freePpt (s : State) : Int × State := let (k, s1) := takeFree s; ((Config.freeWord k).toInt, s1)

/-- The control law (R117) at a measurement θ, with the Beam time I after the previous valid one. -/
def servoLaw (theta : Q) (now : Nat) (s : State) : State :=
  let v := s.servo
  let i : Int := (now : Int) - ((v.lastAt.getD now : Nat) : Int)
  -- x in parts per 10^12, as a quotient
  let (xn, xd, s1) := if i = 0 then let (p, s') := freePpt s; (p, 1, s')
    else if i < 0 then (-(theta.n * 1000000000000), theta.d * i.natAbs, s) else (theta.n * 1000000000000, theta.d * i.natAbs, s)
  let (df, s2) := freeRound (-xn) (xd * 2 ^ fld v.ctl 27 24) s1
  let f0 := v.freq + df
  let f := clampPpt f0
  let (dr, s3) := freeRound (-xn) (xd * 2 ^ fld v.ctl 23 20) s2
  let r0 := f + dr
  let r := clampPpt r0
  let c := f != f0 || r != r0
  let s4 := setRate r (updServo (fun v => { v with freq := f, clamped := c }) s3)
  if c && !v.clamped then timeEvent 7 (srcOrigin s4) s4 else s4

/-- Request the step of an acquisition (R116): −round(θ). -/
def requestStep (theta : Q) (s : State) : State :=
  let (r, s1) := theta.nearest s
  match announceDelta 2 (srcOrigin s1) (-r) s1 with
  | some s2 => updServo (fun v => { v with wantStep := false }) s2
  | none => updServo (fun v => { v with wantStep := true }) s1

/-- The least-squares slope of the offsets against Beam, in parts per 10^12 (Table NT-6). -/
def slopePpt (l : List (Q × Nat)) (s : State) : Int × State :=
  let m : Q := ⟨l.length, 1⟩
  let t0 : Int := (((l.head?).map (·.2)).getD 0 : Nat)
  let pts := l.map fun e => (e.1, Q.ofInt ((e.2 : Int) - t0))
  let sx := (pts.map (·.2)).foldl Q.add (Q.ofInt 0)
  let sy := (pts.map (·.1)).foldl Q.add (Q.ofInt 0)
  let sxy := (pts.map fun e => Q.mul e.1 e.2).foldl Q.add (Q.ofInt 0)
  let sxx := (pts.map fun e => Q.mul e.2 e.2).foldl Q.add (Q.ofInt 0)
  let den := Q.sub (Q.mul m sxx) (Q.mul sx sx)
  let num := Q.sub (Q.mul m sxy) (Q.mul sx sy)
  if den.n ≤ 0 then freePpt s else freeRound (num.n * den.d * 1000000000000) (num.d * den.n.toNat) s

/-- The eighth measurement of an acquisition. -/
def acquired (theta : Q) (s : State) : State :=
  let got := s.servo.got
  let (sl, s1) := slopePpt got s
  let mean := Q.mean (got.map (·.1))
  let s2 := updServo (fun v => { v with freq := -sl }) s1
  if !s2.servo.acqDone && mean.beyond (unlockBt s2) then requestStep theta (servoTo 2 s2)
  else updServo (fun v => { v with acqDone := true }) (servoTo 3 s2)

/-- The runs of TRACKING and LOCKED after a measurement. -/
def judge (theta : Q) (s : State) : State :=
  let v := s.servo
  let mesh := srcOf v.ctl == 1
  if v.st = 3 then
    let n := if theta.beyond (lockBt s) then 0 else v.inLock + 1
    let s1 := updServo (fun v => { v with inLock := n }) s
    if fld v.ctl 15 8 ≤ n && (!mesh || v.rootDisc) && !s.tim.holdover then gainDisc (srcOrigin s1) (servoTo 4 s1) else s1
  else if v.st = 4 then
    let n := if theta.beyond (unlockBt s) then v.outLock + 1 else 0
    let s1 := updServo (fun v => { v with outLock := n }) s
    if 4 ≤ n then servoTo 3 (loseDisc (srcOrigin s1) true s1) else s1
  else s

/-- A measurement θ (R115, R117): it is set aside, or it is valid and drives the servo. Its time is the Hub's Beam at which it is known
(notes/assumptions 63). -/
def measure (theta : Q) (s : State) : State :=
  let v := s.servo
  let hub := pst s pgHub
  if v.st = 0 || v.st = 5 || freeRoot s || hub == .resetting || hub == .failed then s
  else
    let wild := v.st == 4 && theta.beyond (4 * unlockBt s)
    let s0 := if wild then bump (updServo (fun v => { v with aside := v.aside + 1 }) s) pgSync 0xA8 47 32 1
      else updServo (fun v => { v with aside := 0 }) s
    if wild && s0.servo.aside < 3 then s0
    else
      let now := hubBeam s0
      let (t8, s1) := theta.scaled 256 (updServo (fun v => { v with aside := 0 }) s0)
      let s2 := updServo (fun v => { v with theta := t8 }) s1
      let s3 := if v.st = 1 then
          let s' := updServo (fun v => { v with got := v.got ++ [(theta, now)] }) s2
          if s'.servo.got.length = 8 then acquired theta s' else s'
        else
          let s' := servoLaw theta now s2
          judge theta (if v.st = 2 && v.wantStep then requestStep theta s' else s')
      updServo (fun v => { v with lastAt := some now }) s3

/-- ROOT_DISC 0 for a mesh source takes a LOCKED servo to TRACKING (Table NT-6). -/
def rootDiscLost (s : State) : State :=
  if s.servo.st = 4 && srcOf s.servo.ctl = 1 && !s.servo.rootDisc then servoTo 3 (loseDisc 1 true s) else s

/-- AT of the servo's step has passed (Table NT-6). -/
def servoStepped (s : State) : State :=
  if s.servo.st = 2 then updServo (fun v => { v with acqDone := true }) (servoTo 3 s) else s

/-- STEP_AT: the update whose value is AT. -/
def stepAt (s : State) : State :=
  match s.tim.step with
  | none => s
  | some a =>
    if a.raw ≤ s.tim.raw then (let s1 := stepTakesForce s; if a.kind = 2 then servoStepped s1 else s1) else s

end Sys2Proof.Machine
end

