-- ==== Sys2Proof/Machine/Eth.lean ====
section
/-! DEFINITION. The Ethernet ordinary clock (R46, R120, R121) and the sources of the servo (R118). Times are in 2^-14 bt, the unit of a
correctionField after the conversion of R121. -/

namespace Sys2Proof.Machine

/-- Change the Ethernet clock. -/
def updEth (f : Eth → Eth) (s : State) : State := { s with eth := f s.eth }

/-- Whether the tap is there and ENABLED. -/
def tapOn (s : State) : Bool := s.inst.eth && isEnabled s pgSync

/-- An interval of 2^log seconds in bt. -/
def logInterval (l : BitVec 8) : Nat := if l.msb then 4000000000 / 2 ^ (-l.toInt).toNat else 4000000000 * 2 ^ l.toNat

/-- A calibration value of the tap: 0 TX_DLY, 1 RX_DLY, 2 ASYM, in 1/64 bt (Table FS-8): an exchange under way goes on with the word it began
with (R332). -/
def ethCal (s : State) (k : Nat) : Nat := fld (if s.eth.drRaw.isSome then s.eth.cal else calGet s 2 0) (16 * k + 15) (16 * k)

/-- A PTP time as Beam (R121), before the modulo. -/
def ptpBeam (s : State) (t : PtpTime) (corr : Int) : Int :=
  ((((t.sec.toNat * 1000000000 + t.ns.toNat) * 4 : Nat) : Int) - ((regGet s pgSync 0x78).toNat : Int)) * 16384 + corr

/-- The difference of two Beam times, both modulo 2^64 bt. -/
def beamDiff (a b : Int) : Int := let d := (a - b) % (2 ^ 78 : Int); if d < 2 ^ 77 then d else d - 2 ^ 78

/-! ### Sources (R118) -/

/-- Whether the Ethernet source is there: a master, and a Sync from it within 3 of its intervals. -/
def ethPresent (s : State) : Bool := tapOn s && s.eth.sel.isSome && decide (s.tim.raw < s.eth.lastSync + 3 * logInterval s.eth.syncLog)

/-- Whether the source that the servo is configured for is there. -/
def sourcePresent (s : State) : Bool :=
  if srcOf s.servo.ctl = 1 then s.servo.parent.isSome else if srcOf s.servo.ctl = 2 then ethPresent s else true

/-- Judge the servo's source and generator afresh. -/
def recheck (s : State) : State := servoCheck (sourcePresent s) s

/-! ### Best master (Table NT-9) -/

/-- The numbers by which the default data set comparison ranks two masters, the better first: the same grandmaster by the path, different
ones by their quality. -/
def rankOf (same : Bool) (f : Foreign) : List Nat :=
  if same then [f.master.steps.toNat, f.clock.toNat, f.port.toNat]
  else [f.master.prio1.toNat, f.master.clockClass.toNat, f.master.accuracy.toNat, f.master.variance.toNat, f.master.prio2.toNat, f.master.gm.toNat]

/-- Lexicographic order. -/
def lexLt : List Nat → List Nat → Bool
  | a :: as, b :: bs => if a = b then lexLt as bs else a < b
  | _, _ => false

/-- Whether a master is better than another. -/
def betterMaster (a b : Foreign) : Bool := let same := a.master.gm == b.master.gm; lexLt (rankOf same a) (rankOf same b)

/-- The best of the foreign masters. -/
def bestMaster : List Foreign → Option Foreign
  | [] => none
  | f :: fs => match bestMaster fs with
    | none => some f
    | some g => if betterMaster g f then some g else some f

/-- Select the best master; a new one starts without measurements, its Sync interval taken as 1 s until its first Sync. -/
def selectMaster (s : State) : State :=
  let sel := (bestMaster s.eth.foreign).map fun f => (f.clock, f.port)
  recheck (if sel = s.eth.sel then s
    else updEth (fun e =>
      { e with sel := sel, sync := none, ms := none, mpds := [], shown := 0, lastSync := s.tim.raw, syncLog := 0, drRaw := none, t3 := none }) s)

/-- Nothing heard: the clock's state when its tap is enabled, or leaves ENABLED. -/
def ethClear (s : State) : State :=
  recheck (updEth (fun e =>
    { e with foreign := [], sel := none, ts := [], sync := none, ms := none, mpds := [], shown := 0, drRaw := none, t3 := none }) s)

/-- A frame over 256 bytes is truncated and counted (R46, R55). -/
def frameSize (len : Nat) (s : State) : State := if 256 < len then setPortErr pgSync 5 s else s

/-- Whether a message is of the clock's domain and from the selected master. -/
def fromMaster (s : State) (h : PtpHdr) : Bool :=
  h.domain.toNat == regFld s pgSync 0x58 7 0 && s.eth.sel == some (h.srcClock, h.srcPort)

/-- A received Announce. -/
def ptpAnnounce (h : PtpHdr) (m : PtpMaster) (s : State) : State :=
  if !tapOn s then s
  else
    let s1 := frameSize h.len s
    if h.domain.toNat != regFld s pgSync 0x58 7 0 || (!h.ptpTimescale && !bit (syncCtl s) 3) then s1
    else
      let f : Foreign := ⟨h.srcClock, h.srcPort, m, h.logInterval, s.tim.raw⟩
      let known := s1.eth.foreign.any fun g => g.clock == f.clock && g.port == f.port
      selectMaster (updEth (fun e =>
        { e with
          foreign := if known then e.foreign.map fun (g : Foreign) => if g.clock == f.clock && g.port == f.port then f else g
            else if e.foreign.length < 4 then e.foreign ++ [f] else e.foreign }) s1)

/-- The announce receipt timeout (3 intervals), or 3 missing Syncs (R118). -/
def announceTimeout (s : State) : State :=
  if !tapOn s then s
  else
    selectMaster (updEth (fun e =>
      { e with foreign := e.foreign.filter fun (f : Foreign) => decide (s.tim.raw < f.raw + 3 * logInterval f.log) }) s)

/-! ### Measurements (R121) -/

/-- With t1 and t2 known, the master-to-slave offset. -/
def tryMs (s : State) : State :=
  match s.eth.sync with
  | some y =>
    match y.t1, y.t2 with
    | some a, some b => updEth (fun e => { e with ms := some (beamDiff b a), sync := none }) s
    | _, _ => s
  | none => s

/-- Take the timestamp of a received Sync, where one has come within 1 ms. -/
def takeRxTs (s : State) (domain : BitVec 8) (seqId : BitVec 16) : Option Int :=
  (s.eth.ts.find? fun t => !t.sent && t.msg == 0 && t.domain == domain && t.seqId == seqId && decide (s.tim.raw ≤ t.raw + 4000000)).map (·.stamp)

/-- ETH_TS_REQ. -/
def ethTimestamp (sent : Bool) (msg : BitVec 4) (domain : BitVec 8) (seqId : BitVec 16) (seq : BitVec 2) (t : Tdc) (s : State) : State :=
  let s0 := updEth (fun e => { e with seqTs := some seq }) s
  if !tapOn s then s0
  else
    let s1 := if seqLost s.eth.seqTs seq = 0 then s0 else setPortErr pgSync 6 s0
    let stamp := beamAt s pgSync (tapRaw s (ptEth s) t)
    let x : Int := ((stamp : Int) * 64 - (ethCal s (if sent then 0 else 1) : Nat)) * 256
    if sent then
      if msg = 1 && domain.toNat = regFld s pgSync 0x58 7 0 && seqId = s.eth.drSeq then
        (match s.eth.drRaw with
         | some r => if s.tim.raw ≤ r + 4000000 then updEth (fun e => { e with t3 := some x }) s1 else s1
         | none => s1)
      else s1
    else
      match s1.eth.sync with
      | some y =>
        if msg = 0 && y.seqId = seqId && y.t2.isNone && domain.toNat = regFld s pgSync 0x58 7 0 && s.tim.raw ≤ y.raw + 4000000 then
          tryMs (updEth (fun e => { e with sync := some { y with t2 := some x } }) s1)
        else updEth (fun e => { e with ts := (e.ts.filter fun (t : EthTs) => decide (s.tim.raw ≤ t.raw + 4000000)) ++ [⟨sent, msg, domain, seqId, x, s.tim.raw⟩] }) s1
      | none =>
        updEth (fun e => { e with ts := (e.ts.filter fun (t : EthTs) => decide (s.tim.raw ≤ t.raw + 4000000)) ++ [⟨sent, msg, domain, seqId, x, s.tim.raw⟩] }) s1

/-- A received Sync. -/
def ptpSync (h : PtpHdr) (origin : PtpTime) (s : State) : State :=
  if !tapOn s then s
  else
    let s1 := frameSize h.len s
    if !fromMaster s h then s1
    else
      let y : EthSync :=
        { seqId := h.seqId, twoStep := h.twoStep, corr := h.corr.toInt,
          t1 := if h.twoStep then none else some (ptpBeam s origin h.corr.toInt), t2 := takeRxTs s h.domain h.seqId, raw := s.tim.raw }
      recheck (tryMs (updEth (fun e => { e with sync := some y, lastSync := s.tim.raw, syncLog := h.logInterval }) s1))

/-- A received Follow_Up: t1 of a two-step Sync, with both correctionFields. -/
def ptpFollowUp (h : PtpHdr) (origin : PtpTime) (s : State) : State :=
  if !tapOn s then s
  else
    let s1 := frameSize h.len s
    match s.eth.sync with
    | some y =>
      if fromMaster s h && y.twoStep && y.seqId == h.seqId && y.t1.isNone then
        tryMs (updEth (fun e => { e with sync := some { y with t1 := some (ptpBeam s origin (y.corr + h.corr.toInt)) } }) s1)
      else s1
    | none => s1

/-- A received Delay_Resp to the Delay_Req outstanding: the path delay and a measurement θ. -/
def ptpDelayResp (h : PtpHdr) (receive : PtpTime) (clk : BitVec 64) (port : BitVec 16) (s : State) : State :=
  if !tapOn s then s
  else
    let s1 := frameSize h.len s
    if !(fromMaster s h && clk == regGet s pgSync 0x70 && port == 1 && s.eth.drRaw.isSome && h.seqId == s.eth.drSeq) then s1
    else
      let s2 := updEth (fun e => { e with drRaw := none, t3 := none, drLog := h.logInterval }) s1
      match s.eth.t3, s.eth.ms with
      | some t3, some ms =>
        let sm := beamDiff (ptpBeam s receive h.corr.toInt) t3
        let l0 := s.eth.mpds ++ [ms + sm]
        let l := l0.drop (l0.length - 8)
        let (mpd, s3) := freeRound l.sum (2 * l.length * 64) s2
        let s4 := updEth (fun e => { e with mpds := l, shown := mpd }) s3
        let k : Int := (2 * l.length : Nat)
        let theta := Q.norm (ms * k - l.sum - k * 128 * signedN 16 (ethCal s 2)) (2 * l.length * 16384)
        let s5 := recheck s4
        if srcOf s5.servo.ctl = 2 then measure theta s5 else s5
      | _, _ => s2

/-- A message that is not supported. -/
def ptpIgnored (len : Nat) (s : State) : State := if tapOn s then frameSize len (bump s pgSync 0xA8 15 0 1) else s

/-! ### Delay_Req (IEEE 1588-2019 and IEEE 802.3 or UDP over IPv4: notes/assumptions 24) -/

/-- The PTP message. -/
def delayReqMsg (s : State) (seq : BitVec 16) : Bytes :=
  [0x01, 0x12, 0x00, 0x2C, BitVec.ofNat 8 (regFld s pgSync 0x58 7 0), 0, 0, 0] ++ List.replicate 12 0 ++
  bytesBE 8 (regGet s pgSync 0x70).toNat ++ [0, 1] ++ bytesBE 2 seq.toNat ++ [1, 0x7F] ++ List.replicate 10 0

/-- The one's-complement checksum of an IPv4 header. -/
def ipSum (b : Bytes) : Nat :=
  let n := ((chunks 2 b.length b).map natBE).sum
  let n1 := n % 65536 + n / 65536
  65535 - (n1 % 65536 + n1 / 65536)

/-- The frame, from the destination address on. -/
def delayReqFrame (s : State) (seq : BitVec 16) : Bytes :=
  let mac := bytesBE 6 (regFld s pgSync 0x60 47 0)
  if regBit s pgSync 0x58 8 then
    let ip := fun (c : Nat) => [0x45, 0, 0, 72, 0, 0, 0, 0, 1, 17] ++ bytesBE 2 c ++ bytesBE 4 (regFld s pgSync 0x68 31 0) ++ [224, 0, 1, 129]
    [0x01, 0x00, 0x5E, 0x00, 0x01, 0x81] ++ mac ++ [0x08, 0x00] ++ ip (ipSum (ip 0)) ++ bytesBE 2 319 ++ bytesBE 2 319 ++ bytesBE 2 52 ++ [0, 0] ++
      delayReqMsg s seq
  else [0x01, 0x1B, 0x19, 0x00, 0x00, 0x00] ++ mac ++ [0x88, 0xF7] ++ delayReqMsg s seq

/-- The ordinary clock sends a Delay_Req. -/
def ptpDelayReqSend (s : State) : State :=
  if tapOn s && s.eth.sel.isSome then
    let seq := s.eth.drSeq + 1
    updEth (fun e => { e with drSeq := seq, drRaw := some s.tim.raw, cal := calGet s 2 0, t3 := none, tx := delayReqFrame s seq }) s
  else s

/-- portState (R120). -/
def ethState (s : State) : Nat :=
  if !s.inst.eth then 3
  else if pst s pgSync == .failed then 2
  else if !tapOn s then 3
  else if s.eth.sel.isNone then 4
  else if s.servo.st = 1 then 8 else 9

end Sys2Proof.Machine
end

