-- ==== Sys2Proof/Machine/Mesh.lean ====
section
/-! DEFINITION. Mesh time on the link ports (R105 to R113): frames, negotiation, link delay, distribution from the root, and the topology
events that a HELLO causes (R286, R287). Plane times are in 1/64 bt. -/

namespace Sys2Proof.Machine

/-! ### Frames (Tables NT-1 and NT-2) -/

/-- One bit of the CRC-32 of IEEE 802.3, least significant bit first. -/
def crc32Bit (c : BitVec 32) (b : Bool) : BitVec 32 := if c.getLsbD 0 != b then (c >>> (1 : Nat)) ^^^ 0xEDB88320#32 else c >>> (1 : Nat)

/-- The CRC-32 over bytes 0 to 59 of a frame. -/
def frameCrc (f : Beat) : BitVec 32 := ~~~((List.range 480).foldl (fun c i => crc32Bit c (f.getLsbD i)) 0xFFFFFFFF#32)

/-- A field of n bytes of a frame. -/
def fby (f : Beat) (a n : Nat) : Nat := fieldN f.toNat (8 * (a + n) - 1) (8 * a)

/-- A frame with its CRC. -/
def mkFrame (s : State) (n kind ver flags : Nat) (seq : BitVec 16) (hops : Nat) (fields : List (Nat × Nat × Nat)) : Beat :=
  let f := BitVec.ofNat 512 (pack ([(0, 8, kind), (8, 8, ver), (16, 8, flags), (24, 8, n), (32, 14, fld (syncDie s) 13 0), (48, 14, rootDie s),
    (64, 16, seq.toNat), (80, 16, hops)] ++ fields))
  f ||| ((frameCrc f).setWidth 512 <<< (480 : Nat))

/-- Offer a frame to the link layer; its egress stamp is to come (R44). No row of the table carries the link layer's acknowledgement
(notes/assumptions 70). -/
def sendFrame (n kind : Nat) (seq : BitVec 16) (f : Beat) (s : State) : State :=
  updTime n (fun x => { x with txd := f, sent := x.sent ++ [⟨kind, seq⟩] }) s

/-! ### Ports (Table NT-13) -/

/-- Whether a port takes part in time: ENABLED, planned and up. -/
def timeUp (s : State) (n : Nat) : Bool := isEnabled s (pgLnk n) && planned s n && (link s n).lp == 2

/-- SYNC_PORT.STATE. -/
def portState (s : State) (n : Nat) : Nat :=
  if !planned s n then 0
  else if !timeUp s n then 1
  else
    let x := linkTime s n
    if (link s n).topo = 6 then 2 else if x.noCommon then 3 else if x.ver = 0 then 2 else if x.good < 4 then 4 else 5

/-- The interval number of a Beam time, and of a time half an interval later (R106, R108). -/
def intervalIdx (s : State) (b : Nat) : Nat := b / interval' s
def halfIdx (s : State) (b : Nat) : Nat := (b + interval' s / 2) / interval' s

/-- The version a port selects (R106): 0 when the ranges share none, or nothing was heard. -/
def selectVer (x : LinkTime) : Nat :=
  match x.nbr with
  | none => 0
  | some (lo, hi) => let v := min hi x.verMax; if max lo 1 ≤ v then v else 0

/-- Calibration values of a port (Table FS-8): an exchange under way goes on with the word it began with (R332). -/
def lnkCal (s : State) (n k : Nat) : Nat :=
  let x := linkTime s n
  fld (if x.pdRaw.isSome then x.cal else calGet s 1 n) (16 * k + 15) (16 * k)

/-- Drop a port from time use: the version and the peer delay are discarded (R106, R118). -/
def timeClear (n : Nat) (s : State) : State :=
  updTime n (fun x =>
    { LinkTime.zero with rx := x.rx, sent := x.sent, helloSeq := x.helloSeq, pdSeq := x.pdSeq, txd := x.txd, helloIdx := x.helloIdx, pdIdx := x.pdIdx }) s

/-- Begin negotiation (R106): VER_MAX takes force, and the next multiple of the interval is awaited. -/
def timeStart (n : Nat) (s : State) : State :=
  let b := beamOf s (pgLnk n)
  updTime n (fun x =>
    { x with verMax := regFld s pgSync 0x40 29 28, helloIdx := intervalIdx s b, pdIdx := halfIdx s b }) (timeClear n s)

/-! ### Candidates and parent (R112) -/

/-- The last FOLLOW of a port, where it names the root and came within the last 3 root intervals. -/
def freshFollow (s : State) (n : Nat) : Option Follow :=
  ((linkTime s n).follow).filter fun f =>
    f.root.toNat == rootDie s && decide (s.tim.raw ≤ f.raw + 3 * 2 ^ (16 + f.n)) && timeUp s n

/-- The ports with a FOLLOW. -/
def followPorts (s : State) : List (Nat × Follow) :=
  (s.linkTimes.map (·.1)).filterMap fun n => (freshFollow s n).map fun f => (n, f)

/-- The newest sequence of the root that was seen on any port. -/
def newestSeq (s : State) : Option (BitVec 16) := (s.servo.newest.filter fun e => e.1.toNat == rootDie s).map (·.2)

/-- The candidates, by port index. -/
def candidates (s : State) : List (Nat × Follow) :=
  (followPorts s).filter fun e => newestSeq s == some e.2.seq && portState s e.1 == 5

/-- The candidate with the fewest hops, and among those the lowest index. -/
def fewestHops : List (Nat × Follow) → Option (Nat × Follow)
  | [] => none
  | e :: r => match fewestHops r with
    | none => some e
    | some b => if b.2.hops < e.2.hops then some b else some e

/-- The parent that R112 gives. -/
def parentFor (s : State) : Option Nat :=
  if isRoot s then none
  else
    let l := candidates s
    match fewestHops l with
    | none => none
    | some b =>
      match s.servo.parent.bind fun p => (l.find? fun e => e.1 == p) with
      | some c => if b.2.hops < c.2.hops then some b.1 else some c.1
      | none => some b.1

/-- Choose the parent afresh: a change to another port is counted and raises source 12; then the source is judged. -/
def reparent (s : State) : State :=
  let p := parentFor s
  let s1 := updServo (fun v => { v with parent := p }) s
  recheck (if p.isSome && p != s.servo.parent then raise 12 (bump s1 pgSync 0xA8 63 48 1) else s1)

/-- A port is dropped from time use. -/
def timeDrop (n : Nat) (s : State) : State := reparent (timeClear n s)

/-- Hops of this die; 255 unknown. -/
def ownHops (s : State) : Nat :=
  if isRoot s then 0
  else match s.servo.parent.bind fun p => (linkTime s p).follow with
    | some f => min 255 (f.hops + 1)
    | none => 255

/-! ### Egress and ingress (R44, R105) -/

/-- LP_RXTS. -/
def rxTimestamp (n : Nat) (t : Tdc) (s : State) : State :=
  let stamp := beamAt s (pgLnk n) (tapRaw s (ptLnk s n 1) t)
  updTime n (fun x => { x with rx := x.rx ++ [(stamp : Int) * 64 - (lnkCal s n 1 : Nat)] }) s

/-- LP_TXTS: the egress plane of the next frame sent. -/
def txTimestamp (n : Nat) (t : Tdc) (s : State) : State :=
  let stamp := beamAt s (pgLnk n) (tapRaw s (ptLnk s n 0) t)
  let e : Int := (stamp : Int) * 64 - (lnkCal s n 0 : Nat)
  match (linkTime s n).sent with
  | [] => s
  | q :: rest =>
    updTime n (fun x =>
      { x with
        sent := rest,
        fwd := match x.fwd with
          | some (src, sq, o) => if q.kind = 2 && q.seq = sq then some (src, sq, some e) else some (src, sq, o)
          | none => none,
        t1 := if q.kind = 4 && q.seq = x.pdSeq && x.pdRaw.isSome then some e else x.t1,
        reply := match x.reply with
          | some (sq, o) => if q.kind = 5 && q.seq = sq then some (sq, some e) else some (sq, o)
          | none => none }) s

/-- Take a received frame at an ENABLED port: a frame without its LP_RXTS is a protocol error, whatever becomes of it (R44); it is dropped with its
count, the CRC judged first; or it passes with its ingress plane time, where one was stamped (R105). -/
def takeFrame (n : Nat) (f : Beat) (s : State) : Option (Option Int) × State :=
  let x := linkTime s n
  let s1 := updTime n (fun x => { x with rx := x.rx.drop 1 }) s
  let drop := fun (s : State) => bump s pgSync 0xA8 31 16 1
  if !isEnabled s (pgLnk n) then (none, s1)
  else
    let s2 := if x.rx.isEmpty then setPortErr (pgLnk n) 1 s1 else s1
    let kind := fby f 0 1
    if BitVec.ofNat 32 (fby f 60 4) != frameCrc f then (none, setErr pgSync 2 (drop s2))
    else if !planned s n || kind < 1 || 6 < kind || (kind != 1 && (fby f 1 1 != x.ver || x.ver == 0)) then (none, drop s2)
    else if (link s n).lp != 2 then (none, s2)
    else (some x.rx.head?, s2)

/-! ### HELLO (R106, R286, R287) -/

/-- Send a HELLO at a multiple of the interval. -/
def helloSend (n : Nat) (s : State) : State :=
  let i := intervalIdx s (beamOf s (pgLnk n))
  let x := linkTime s n
  if timeUp s n && i != x.helloIdx then
    let f := mkFrame s n 1 1 0 x.helloSeq 0 [(96, 8, 1), (104, 8, x.verMax), (112, 8, selectVer x)]
    sendFrame n 1 x.helloSeq f (updTime n (fun x => { x with helloIdx := i, helloSeq := x.helloSeq + 1 }) s)
  else s

/-- The stamp of a link event of a HELLO: its ingress plane in bt. -/
def planeStamp (s : State) (n : Nat) (p : Option Int) : Nat × State :=
  match p with
  | some e => let (q, s1) := freeRound e 64 s; (wrap64 q, s1)
  | none => (beamOf s (pgLnk n), s)

/-- Negotiate with a HELLO: adopt a version, or find none. -/
def negotiate (n carried stamp : Nat) (s : State) : State :=
  let x := linkTime s n
  let v := selectVer x
  if v = 0 then
    if x.noCommon then s
    else
      linkEvent n 6 (stampedAt s (pgLnk n) stamp) (link s n).lp 0
        (setErr pgSync 1 (reparent (updTime n (fun x => { x with noCommon := true, agreed := none, ver := 0, good := 0, delays := [], last := none }) s)))
  else if carried != v then updTime n (fun x => { x with noCommon := false, agreed := none }) s
  else if x.agreed = some v then
    if x.ver = v then s else linkEvent n 5 (stampedAt s (pgLnk n) stamp) (link s n).lp 0 (updTime n (fun x => { x with noCommon := false, ver := v }) s)
  else updTime n (fun x => { x with noCommon := false, agreed := some v }) s

/-- A received HELLO, judged against the plan and then for its versions. -/
def hello (n : Nat) (f : Beat) (p : Option Int) (s : State) : State :=
  let plan := regGet s (pgLnk n) 0x40
  let other := fby f 4 2 % 2 ^ 14 != fld plan 45 32 || fby f 3 1 != fld plan 55 48
  let (stamp, s0) := planeStamp s n p
  let s1 := updLink n (fun x => { x with seen := some (BitVec.ofNat 14 (fby f 4 2), BitVec.ofNat 8 (fby f 3 1)) }) s0
  let lp := (link s1 n).lp
  let a := stampedAt s1 (pgLnk n) stamp
  let s2 :=
    if (link s1 n).topo = 3 && other then
      timeDrop n (raise 51 (linkEvent n 4 a lp 0 (setErr (pgLnk n) 4 (updLink n (fun x => { x with topo := 6 }) s1))))
    else if (link s1 n).topo = 6 && !other then linkEvent n 1 a lp 0 (timeStart n (updLink n (fun x => { x with topo := 3 }) s1))
    else s1
  let s3 := updTime n (fun x =>
    { x with nbr := some (fby f 12 1, fby f 13 1), verMax := if x.verMax = 0 then regFld s pgSync 0x40 29 28 else x.verMax }) s2
  if (link s3 n).topo = 6 then s3 else negotiate n (fby f 14 1) stamp s3

/-! ### Link delay (R108) -/

/-- An exchange without its answer is discarded; the third in a row takes the port back to state 4. -/
def discardPd (n : Nat) (s : State) : State :=
  reparent (updTime n (fun x =>
    { x with pdRaw := none, t1 := none, t2 := none, t4 := none, discards := if x.discards = 2 then 0 else x.discards + 1,
             good := if x.discards = 2 then 0 else x.good }) s)

/-- Whether an exchange is under way with a sequence, and its interval has not passed. -/
def pdOpen (s : State) (x : LinkTime) (seq : Nat) : Bool :=
  match x.pdRaw with
  | some r => x.pdSeq.toNat = seq && decide (s.tim.raw < r + interval' s)
  | none => false

/-- Send a PDREQ half an interval after a multiple of the interval: an exchange that still has no answer is discarded. -/
def pdreqSend (n : Nat) (s0 : State) : State :=
  let i := halfIdx s0 (beamOf s0 (pgLnk n))
  let due := (portState s0 n = 4 || portState s0 n = 5) && i != (linkTime s0 n).pdIdx
  let s := if due && (linkTime s0 n).pdRaw.isSome then discardPd n s0 else s0
  let x := linkTime s n
  if due then
    let seq := x.pdSeq + 1
    sendFrame n 4 seq (mkFrame s n 4 x.ver 0 seq 0 [])
      (updTime n (fun x => { x with pdIdx := i, pdSeq := seq, pdRaw := some s.tim.raw, cal := calGet s 1 n, t1 := none, t2 := none, t4 := none }) s)
  else s

/-- A received PDREQ is answered with a PDRESP. -/
def pdreq (n : Nat) (f : Beat) (p : Option Int) (s : State) : State :=
  match p with
  | none => s
  | some e =>
    let seq := BitVec.ofNat 16 (fby f 8 2)
    let (t2, s1) := freeRound e 64 s
    sendFrame n 5 seq (mkFrame s1 n 5 (linkTime s n).ver 0 seq 0 [(128, 64, wrap64 t2)]) (updTime n (fun x => { x with reply := some (seq, none) }) s1)

/-- The PDFOLLOW that carries the egress plane of the PDRESP. -/
def pdfollowSend (n : Nat) (s : State) : State :=
  match (linkTime s n).reply with
  | some (seq, some e) =>
    if timeUp s n && (linkTime s n).ver != 0 then
      let (t3, s1) := freeRound e 64 s
      sendFrame n 6 seq (mkFrame s1 n 6 (linkTime s n).ver 0 seq 0 [(128, 64, wrap64 t3)]) (updTime n (fun x => { x with reply := none }) s1)
    else s
  | _ => s

/-- A received PDRESP: t2 and t4. -/
def pdresp (n : Nat) (f : Beat) (p : Option Int) (s : State) : State :=
  let x := linkTime s n
  match p with
  | some e => if pdOpen s x (fby f 8 2) then updTime n (fun x => { x with t2 := some (fby f 16 8), t4 := some e }) s else s
  | none => s

/-- The neighbour rate ratio of an exchange (R108): 1 in version 1; before two exchanges, or where the neighbour's stamps coincide, the manual
gives none and it is free. -/
def ratioOf (x : LinkTime) (t4 : Int) (t3 : Nat) (s : State) : Q × State :=
  let free := fun (s : State) => let (k, s1) := takeFree s; ((⟨(Config.freeWord k).toNat, 2 ^ 31⟩ : Q), s1)
  if x.ver = 1 then (Q.ofInt 1, s)
  else
    match x.last with
    | some (u4, u3) => if t3 = u3 then free s else (Q.div (t4 - u4) (64 * ((t3 : Int) - u3)), s)
    | none => free s

/-- A received PDFOLLOW completes an exchange. -/
def pdfollow (n : Nat) (f : Beat) (p : Option Int) (s : State) : State :=
  let x := linkTime s n
  if p.isNone || !pdOpen s x (fby f 8 2) then s
  else
    match x.t1, x.t2, x.t4 with
    | some t1, some t2, some t4 =>
      let t3 := fby f 16 8
      let (r, s1) := ratioOf x t4 t3 s
      let d := Q.mul (Q.sub (Q.div (t4 - t1) 64) (Q.mul r (Q.ofInt ((t3 : Int) - t2)))) ⟨1, 2⟩
      let l0 := x.delays ++ [Q.add d (Q.div (signedN 16 (lnkCal s n 2)) 128)]
      let l := l0.drop (l0.length - 8)
      let (sh, s2) := (Q.mean l).scaled 256 s1
      reparent (updTime n (fun x =>
        { x with pdRaw := none, t1 := none, t2 := none, t4 := none, last := some (t4, t3), ratio := r, delays := l, good := x.good + 1,
                 discards := 0, shown := sh }) s2)
    | _, _, _ => s

/-- An interval passes without the answer to a PDREQ. -/
def pdelayTimeout (n : Nat) (s : State) : State :=
  match (linkTime s n).pdRaw with
  | none => s
  | some r =>
    if r + interval' s ≤ s.tim.raw then discardPd n s else s

/-! ### Distribution (R110, R111, R113) -/

/-- Send a SYNC on a port; its FOLLOW waits for the egress stamp. -/
def sendSync (src : Nat) (seq : BitVec 16) (hops n : Nat) (s : State) : State :=
  sendFrame n 2 seq (mkFrame s n 2 (linkTime s n).ver 0 seq hops []) (updTime n (fun x => { x with fwd := some (src, seq, none) }) s)

/-- The ready ports. -/
def readyPorts (s : State) : List Nat := (linkList s).filter fun n => portState s n == 5

/-- The root sends a SYNC on every ready port at a multiple of the interval. -/
def rootSyncSend (s : State) : State :=
  let i := intervalIdx s (hubBeam s)
  if isRoot s && i != s.servo.rootIdx then
    let seq := s.servo.rootSeq + 1
    (readyPorts s).foldl (fun s n => sendSync 96 seq 0 n s) (updServo (fun v => { v with rootSeq := seq, rootIdx := i }) s)
  else s

/-- A received SYNC: its ingress is kept, and one on the parent port is forwarded at once. -/
def sync (n : Nat) (f : Beat) (p : Option Int) (s : State) : State :=
  match p with
  | none => s
  | some e =>
    let seq := BitVec.ofNat 16 (fby f 8 2)
    let s1 := updTime n (fun x => { x with syncIn := some (seq, e, s.tim.raw) }) s
    if s1.servo.parent = some n && !isRoot s1 then
      ((readyPorts s1).filter (· != n)).foldl (fun s m => sendSync n seq (ownHops s) m s) s1
    else s1

/-- This die's rate offset against the root (R111), from the parent port. -/
def rateVsRoot (x : LinkTime) (f : Follow) : Q :=
  let r := Q.sub x.ratio (Q.ofInt 1)
  if x.ver = 3 then Q.add r (Q.div f.rate 1000000000000) else r

/-- The scale of R111. -/
def scaleOf (x : LinkTime) (f : Follow) : Q := if x.ver = 1 then Q.ofInt 1 else Q.sub (Q.ofInt 1) (rateVsRoot x f)

/-- The offset of R113. -/
def thetaOf (x : LinkTime) (f : Follow) (tIn : Int) : Q :=
  Q.sub (Q.div tIn 64) (Q.add (Q.add (Q.ofInt f.origin) (Q.div f.corr 65536)) (Q.mul (Q.mean x.delays) (scaleOf x f)))

/-- Read a FOLLOW. -/
def readFollow (s : State) (f : Beat) : Follow :=
  { root := BitVec.ofNat 14 (fby f 6 2), seq := BitVec.ofNat 16 (fby f 8 2), hops := fby f 10 2, n := fby f 12 1, steps := BitVec.ofNat 8 (fby f 13 1),
    flags := BitVec.ofNat 8 (fby f 2 1), origin := fby f 16 8, corr := signed64 (fby f 24 8), rate := signedN 32 (fby f 32 4), raw := s.tim.raw }

/-- What the parent's FOLLOW tells of the root (R115, R116); a die that is not the root and follows the Ethernet does not rearm
(notes/assumptions 62). -/
def rootNews (f : Follow) (s : State) : State :=
  let stepped := match s.servo.rootSteps with
    | some k => k != f.steps
    | none => false
  let s1 := updServo (fun v => { v with rootDisc := f.flags.getLsbD 1, rootSteps := some f.steps }) s
  let s2 := if stepped && s1.servo.st != 0 && bit s1.servo.ctl 4 && srcOf s1.servo.ctl == 1 then recheck (rearm 1 s1) else s1
  rootDiscLost s2

/-- A FOLLOW of the root that is not older than the newest seen is fresh (R112). -/
def freshNews (y : Follow) (s : State) : State :=
  let older := match newestSeq s with
    | some q => after16 q y.seq
    | none => false
  if y.root.toNat = rootDie s && !older then
    updServo (fun v => { v with rootLost := false, newest := some (y.root, y.seq), freshRaw := s.tim.raw, rootLog := some y.n }) s
  else s

/-- A received FOLLOW. -/
def follow (n : Nat) (f : Beat) (p : Option Int) (s : State) : State :=
  let y := readFollow s f
  if p.isNone || ((linkTime s n).ver == 1 && y.flags.getLsbD 0) then s
  else
    let s2 := reparent (freshNews y (updTime n (fun x => { x with follow := some y }) s))
    if s2.servo.parent != some n then s2
    else
      let s3 := rootNews y s2
      match (linkTime s n).syncIn with
      | some (q, tIn, _) => if srcOf s3.servo.ctl = 1 && q = y.seq then measure (thetaOf (linkTime s n) y tIn) s3 else s3
      | none => s3

/-- The FOLLOW of a port, once the parent's FOLLOW and the egress stamp are known. -/
def followSend (n : Nat) (s : State) : State :=
  match (linkTime s n).fwd with
  | some (src, seq, some e) =>
    let ver := (linkTime s n).ver
    let done := fun (s : State) => updTime n (fun x => { x with fwd := none }) s
    if portState s n != 5 then s
    else if src = 96 then
      let (o, s1) := freeRound e 64 s
      sendFrame n 3 seq (mkFrame s1 n 3 ver (2 * bn s.tim.disc + 4 * bn (s.servo.st == 5)) seq 0
        [(96, 8, fld (syncCtl s) 19 16), (104, 8, s.tim.stepCount.toNat), (128, 64, wrap64 o)]) (done s1)
    else
      let x := linkTime s src
      match x.follow, x.syncIn with
      | some f, some (q, tIn, _) =>
        if f.seq = seq && q = seq && s.servo.parent = some src then
          if 254 < f.hops + 1 then done s
          else
            let res := Q.div (e - tIn) 64
            let (c, s1) := (Q.mul (Q.add (Q.mean x.delays) res) (scaleOf x f)).scaled 65536 s
            let (r, s2) := if ver != 3 then (0, s1)
              else if x.ver = 3 then (rateVsRoot x f).scaled 1000000000000 s1 else (s1.tim.rate - s1.servo.freq, s1)
            sendFrame n 3 seq (mkFrame s2 n 3 ver (bn (decide (16384 * 64 < e - tIn)) + 2 * bn (f.flags.getLsbD 1) + 4 * bn (f.flags.getLsbD 2)) seq
              (f.hops + 1) [(96, 8, f.n), (104, 8, f.steps.toNat), (128, 64, f.origin), (192, 64, fieldOfInt 64 (f.corr + c)),
              (256, 32, fieldOfInt 32 r)]) (done s2)
        else s
      | _, _ => s
  | _ => s

/-- A forward without its FOLLOW one interval after the SYNC is abandoned (R111). -/
def followTimeout (s : State) : State :=
  (linkList s).foldl (fun s n =>
    match (linkTime s n).fwd with
    | some (src, seq, _) =>
      let x := linkTime s src
      let came := (x.follow.map (·.seq)) == some seq
      let live := match x.syncIn with
        | some (q, _, r) => q == seq && decide (s.tim.raw < r + interval' s)
        | none => false
      if src = 96 || live || came then s else updTime n (fun x => { x with fwd := none }) s
    | none => s) s

/-- The root's interval: as its last fresh FOLLOW gave it, before one this die's own. -/
def rootInterval (s : State) : Nat :=
  match s.servo.rootLog with
  | some n => 2 ^ (16 + n)
  | none => interval' s

/-- No fresh FOLLOW on any port for 3 root intervals (R112); the sequence is then looked for afresh (notes/assumptions 69). -/
def rootLost (s : State) : State :=
  if isRoot s || s.servo.rootLost || decide (s.tim.raw < s.servo.freshRaw + 3 * rootInterval s) then s
  else reparent (setErr pgSync 3 (updServo (fun v => { v with rootLost := true, newest := none }) s))

/-- A received frame, by its kind. -/
def timeFrame (n : Nat) (f : Beat) (s : State) : State :=
  let (r, s1) := takeFrame n f s
  match r with
  | none => s1
  | some p =>
    match fby f 0 1 with
    | 1 => hello n f p s1
    | 2 => sync n f p s1
    | 3 => follow n f p s1
    | 4 => pdreq n f p s1
    | 5 => pdresp n f p s1
    | _ => pdfollow n f p s1

/-! ### The SYNC page (Tables NT-12 and NT-13) -/

/-- SYNC_PORT. -/
def syncPort (s : State) (n : Nat) : Word :=
  let x := linkTime s n
  let st := portState s n
  let role := if st != 5 then 0 else if s.servo.parent = some n then 1 else if (candidates s).any (·.1 == n) then 2 else 3
  packW [(60, 4, st), (58, 2, x.ver), (56, 2, role), (48, 8, ((x.follow.map fun f => min 255 f.hops)).getD 0xFF), (0, 40, fieldOfInt 40 x.shown)]

/-- The read-only words of the SYNC page. -/
def syncView (s : State) (off : Nat) : Word :=
  let v := s.servo
  if off = 0x80 then
    packW [(56, 8, v.parent.getD 0xFF), (48, 8, ownHops s), (32, 4, ethState s), (4, 4, v.st), (2, 1, bn v.acqDone), (1, 1, bn v.clamped),
      (0, 1, bn (if isRoot s then s.tim.disc else v.rootDisc))]
  else if off = 0x88 then BitVec.ofNat 64 (fieldOfInt 64 v.theta)
  else if off = 0x90 then packW [(0, 32, fieldOfInt 32 v.freq)]
  else if off = 0x98 then BitVec.ofNat 64 (fieldOfInt 64 s.eth.shown)
  else if off = 0xA0 then ((s.eth.sel.map (·.1)).getD 0)
  else if 0x400 ≤ off then syncPort s ((off - 0x400) / 8)
  else 0

end Sys2Proof.Machine
end

