-- ==== Sys2Proof/Machine/LinkState.lean ====
section
/-! DEFINITION. The topology state of a link port (R286, R287, Table LT-1). -/

namespace Sys2Proof.Machine

/-- A port enters ENABLED: its topology state begins. -/
def linkEnters (n : Nat) (s : State) : State :=
  let lp := (link s n).lp
  let s0 := updLink n (fun x => { x with warned := false, seen := none, absentFrom := none }) s
  let s1 :=
    if !planned s n then
      if lp = 2 then raise 51 (linkEventNow n 2 (updLink n (fun x => { x with topo := 5 }) s0))
      else updLink n (fun x => { x with topo := 0 }) s0
    else if lp = 2 then linkEventNow n 1 (timeStart n (updLink n (fun x => { x with topo := 3 }) s0))
    else updLink n (fun x => { x with topo := 1, absentFrom := some s.tim.raw, absentMs := regFld s (pgLnk n) 0x48 31 16 }) s0
  settleLnk n s1

/-- LP_STATE changes. A link that fails is dropped from time use once its event has taken the version (R291, Table LT-7). -/
def linkStateChange (n : Nat) (st : BitVec 2) (t : Tdc) (s : State) : State :=
  let x := link s n
  if st = x.lp then s
  else
    let raw := tapRaw s (ptLnk s n 2) t
    let stamp := beamAt s (pgLnk n) raw
    let a := stampAt s (pgLnk n) stamp raw
    let s1 := updLink n (fun x => { x with lp := st, lpWas := x.lp, lpRaw := raw, lastChange := stamp }) s
    if !isEnabled s (pgLnk n) then s1
    else
      let s2 := bump s1 (pgLnk n) 0xB0 15 0 1
      if x.topo = 0 || x.topo = 5 then
        let up := x.topo = 0 && st = 2
        let s3 := linkEvent n 1 a x.lp 0 (if up then updLink n (fun x => { x with topo := 5 }) s2 else s2)
        if up then raise 51 (linkEvent n 2 a x.lp 0 s3) else s3
      else if x.topo = 3 || x.topo = 6 then
        let s3 := linkDown n stamp raw (updLink n (fun x => { x with topo := 4 }) s2)
        raise 50 (timeDrop n (linkEvent n 1 a x.lp (link s3 n).thread.toNat s3))
      else if st = 2 then linkEvent n 1 a x.lp 0 (timeStart n (updLink n (fun x => { x with topo := 3, absentFrom := none }) s2))
      else linkEvent n 1 a x.lp 0 s2

/-- The absence timer expires in AWAITING. -/
def absentTimer (n : Nat) (s : State) : State :=
  let x := link s n
  match x.absentFrom with
  | none => s
  | some r =>
    let due := r + x.absentMs * 4000000
    if isEnabled s (pgLnk n) && x.topo = 1 && decide (due ≤ s.tim.raw) then
      raise 51 (linkEvent n 3 (stampAt s (pgLnk n) (beamAt s (pgLnk n) due) due) x.lp 0
        (setErr (pgLnk n) 5 (updLink n (fun x => { x with topo := 2, absentFrom := none }) s)))
    else s

end Sys2Proof.Machine
end

