-- ==== Sys2Proof/Machine/Snag.lean ====
section
/-! DEFINITION. The snag report (R257, R258): the Hub queries every part and writes the entries through its service port. -/

namespace Sys2Proof.Machine

/-! ### Entries (Table SS-7) -/

/-- The bytes common to every kind. -/
def snagHead (s : State) (kind flags index page : Nat) : List (Nat × Nat × Nat) :=
  [(0, 8, kind), (8, 8, flags), (16, 16, index), (32, 8, (pst s page).code)]

/-- The Hub's entry. -/
def snagHub (s : State) : Nat :=
  let v := s.ver
  let pend := v.led.flatMap fun e => e.2.pend.map (·.2)
  pack (snagHead s 5 0 0 pgHub ++ [(40, 8, s.servo.st), (48, 1, bn s.tim.disc), (49, 1, bn v.blind), (50, 1, bn v.own.tainted),
    (56, 8, (pst s pgFw).code), (64, 64, (pend.min?).getD 0), (128, 16, v.queue.length), (144, 16, v.led.length), (160, 16, v.own.cleared.toNat),
    (176, 16, v.own.taintFrom.toNat), (192, 16, (s.gates.filter fun e => e.2.gate.isSome).length), (208, 16, min 0xFFFF pend.length)])

/-- A link port's entry. -/
def snagLink (s : State) (n : Nat) : Nat :=
  let x := link s n
  let c := x.cut
  let w := syncPort s n
  pack (snagHead s 4 0 n (pgLnk n) ++ [(40, 8, c.lpAtTc.toNat), (48, 8, fld w 63 60), (56, 8, fld w 57 56), (64, 64, x.lastChange),
    (128, 64, c.lastPre), (192, 16, min 0xFFFF c.inFlight), (208, 16, min 0xFFFF c.post), (224, 16, min 0xFFFF c.unknown),
    (240, 16, min 0xFFFF c.lost)])

/-- Scan blocks that wait for a Reed. -/
def scanWaiting (s : State) (w : Nat) : Nat :=
  (s.hedStops.filter fun (h, x) => (match x.out with
    | some o => !o.atPort
    | none => false) && countingReed s h == w).length

/-- A Reed's entry. -/
def snagReed (s : State) (r : Nat) : Nat :=
  let x := witReed s r
  let slots := (List.range 8).map fun j =>
    let b := bob s (8 * r + j)
    (256 + 32 * j, 32, pack [(0, 24, min 0xFFFFFF b.fill), (24, 1, bn b.en), (25, 1, bn b.fault), (26, 1, bn b.full),
      (27, 1, bn (bobAdopted s (8 * r + j)))])
  pack (snagHead s 2 0 r (pgReed r) ++ [(40, 8, (adopt s r).phase.code), (48, 8, ((reedWits r).filter fun n => isEnabled s (pgWit n)).length),
    (64, 32, ((x.order.head?).map (·.toNat)).getD 0), (96, 32, x.nextId.toNat), (128, 16, x.queue.length),
    (144, 16, (x.checks.filter (·.deferred)).length), (160, 16, (stagingSize - stagingUsed s r) / 64), (176, 16, ((wport s r).tags.filter fun e => !e.2.late).length),
    (192, 16, scanWaiting s r), (208, 16, ((wport s r).tags.filter fun e => e.2.late).length),
    (224, 32, (x.checks.filter fun c => c.admitted && c.outcome.isNone).length)] ++ slots)

/-- A witness array's entry. -/
def snagWit (s : State) (n : Nat) : Nat := pack (snagHead s 3 0 n (pgWit n) ++ [(64, 64, (regGet s (pgWit n) 0x40).toNat)])

/-- The lowest unreleased sequence on any stream of a Heddle, with its stream. -/
def lowestSeq (s : State) (h : Nat) : Option (Nat × Nat) :=
  ((originStreams (strHed h 0)).filterMap fun n => ((strm s n).recs.head?).map fun r => (r.seq.toNat, n)).foldl
    (fun (b : Option (Nat × Nat)) e => match b with
      | none => some e
      | some c => if e.1 < c.1 then some e else some c) none

/-- The open command of a Heddle that was issued first. -/
def oldestOpen (s : State) (h : Nat) : Option Ent :=
  ((hed s h).ents.filter fun e => e.isOpen).foldl (fun (b : Option Ent) e => match b with
    | none => some e
    | some c => if e.issueRaw < c.issueRaw then some e else some c) none

/-- A Heddle's entry, coarsened where HED_STOP.CONF is set. -/
def snagHed (s : State) (h : Nat) : Nat :=
  let co := regBit s (pgHed h) 0x180 6
  let st := fun (x : Nat) => if co then coarse12 x else x
  let x := hedStop s h
  let used := (hed s h).ents
  let g := (gate s h)
  let low := lowestSeq s h
  let o := oldestOpen s h
  pack (snagHead s 1 (bn co) h (pgHed h) ++ [(40, 8, x.hold), (48, 8, x.scan),
    (56, 1, bn g.isSome), (57, 3, ((g.map (·.scope)).getD 0)), (60, 4, ((g.map (·.ctx.toNat)).getD 0)), (64, 64, if x.ack then st x.ackStamp else 0),
    (128, 64, st ((g.map (·.g)).getD 0)), (192, 8, (used.filter (·.full)).length), (200, 8, (used.filter fun e => !e.full).length),
    (208, 8, occupancy s (strHed h 0)), (216, 8, x.stallAtTc.toNat), (224, 32, x.words), (256, 64, ((o.map fun e => st e.issue).getD 0)),
    (320, 16, if co then 0 else ((o.map (·.item.tag.toNat)).getD 0)), (336, 8, ((o.map (·.item.ctx.toNat)).getD 0)),
    (344, 8, if co then 0 else ((o.map (·.item.cls.toNat)).getD 0)), (352, 32, ((low.map (·.1)).getD 0)),
    (384, 16, ((low.map (·.2)).getD 0)), (400, 8, x.clkAtTc.toNat), (416, 48, x.cyclesAtTc.toNat)])
where
  gate (s : State) (h : Nat) : Option Gate := (mfind s.gates h).bind (·.gate)

/-- How many parts the report asks. -/
def snagParts (s : State) : Nat := 1 + (linkList s).length + 5 * s.inst.reeds + s.inst.reeds * s.inst.hpr

/-- The entry of the i-th part in the order of R257. -/
def snagEntry (s : State) (i : Nat) : Nat :=
  let l := (linkList s).length
  let r := s.inst.reeds
  if i = 0 then snagHub s
  else if i < 1 + l then snagLink s ((linkList s).getD (i - 1) 0)
  else if i < 1 + l + r then snagReed s (i - 1 - l)
  else if i < 1 + l + 5 * r then snagWit s (i - 1 - l - r)
  else snagHed s (i - 1 - l - 5 * r)

/-- The entries that the area holds beside block 0. -/
def snagRoom (s : State) : Nat := 8 * (2 ^ (s.stop.snagLog - 9) - 1)

/-- The entries that will be written. -/
def snagLimit (s : State) : Nat := min (snagParts s) (snagRoom s)

/-! ### Blocks -/

/-- Change the stop. -/
def updStop (f : Stop → Stop) (s : State) : State := { s with stop := f s.stop }

/-- Entries laid into a block. -/
def layEntries : List Nat → Nat
  | [] => 0
  | e :: es => e + layEntries es * 2 ^ 512

/-- Block 0 (Table SS-6). -/
def snagHeader (s : State) : Block :=
  let st := s.stop
  BitVec.ofNat 4096 (pack [(0, 16, 0xF31D), (16, 8, 1), (24, 8, st.source), (32, 16, st.num.toNat), (48, 16, ownDie s), (64, 64, st.tc),
    (128, 64, st.ts), (192, 64, st.snagBeam), (256, 32, st.snagEntries), (288, 16, countHolds s fun _ x => x.hold = 2),
    (304, 16, countHolds s fun _ x => x.hold = 3), (320, 16, countHolds s fun _ x => decide (2 ≤ x.scan) && decide (x.scan ≤ 5)),
    (336, 16, (s.gates.filter fun e => e.2.gate.isSome).length), (352, 1, bn st.snagTrunc), (353, 1, bn st.discAtTc)])

/-- Whether a block of the report waits for the service port. -/
def snagReady (s : State) : Bool :=
  s.stop.phase == .snagging && !s.stop.snagDone && isWorking s pgHub && (match s.stop.snagOut with
    | some (_, _, _, atPort) => !atPort
    | none => true)

/-- Take the entries of the next block, or the header once all are written. -/
def snagFill (s : State) : State :=
  match s.stop.snagOut with
  | some _ => s
  | none =>
    let k := s.stop.snagNext
    let lim := snagLimit s
    if k < lim then
      let es := (List.range (min 8 (lim - k))).map fun i => snagEntry s (k + i)
      let trunc := lim < snagParts s && lim ≤ k + 8
      let s1 := updStop (fun x =>
        { x with snagOut := some (k / 8 + 1, BitVec.ofNat 4096 (layEntries es), 0, false), snagNext := k + es.length,
                 snagEntries := k + es.length, snagBeam := hubBeam s, snagTrunc := x.snagTrunc || trunc }) s
      if trunc then setErr pgStop 3 s1 else s1
    else updStop (fun x => { x with snagOut := some (0, snagHeader s, 0, false) }) s

/-- Write the next block, or repeat one, through the service port, charged as a scan-out block (R154, R257). -/
def issueSnag (tag : Nat) (s : State) : State :=
  let s1 := snagFill s
  match s1.stop.snagOut with
  | some (n, b, t, _) =>
    let s2 := updReedGov 256 (fun g => { g with scanUsed := g.scanUsed + 15 }) (updStop (fun x => { x with snagOut := some (n, b, t, true) }) s1)
    sendBlock 256 tag (.snag n) { s2 with exempt := s2.exempt + 15 }
  | none => s1

/-- A block of the report has completed: one not stored is written again. -/
def snagBlockDone (n : Nat) (ok : Bool) (s : State) : State :=
  match s.stop.snagOut with
  | some (m, b, t, _) =>
    if m != n then s
    else if ok then updStop (fun x => { x with snagOut := none, snagBlocks := x.snagBlocks + 1, snagDone := n == 0 }) s
    else updStop (fun x => { x with snagOut := some (m, b, t + 1, false) }) s
  | none => s

/-- The report is written (Table SS-2): STOPPED, source 37. -/
def snagWritten (s : State) : State :=
  if s.stop.phase == .snagging && s.stop.snagDone then raise 37 (updStop (fun x => { x with phase := .stopped }) s) else s

/-- A Hub part reset restarts the report from block 1 (Table SS-8). -/
def snagRestart (s : State) : State :=
  if s.stop.phase == .snagging && !s.stop.snagDone then
    updStop (fun x => { x with snagNext := 0, snagBlocks := 0, snagEntries := 0, snagOut := none, snagTrunc := false }) s
  else s

/-! ### Scan-out demand that waits (R154) -/

/-- A block that waits for its quota is demand of every window that begins meanwhile. -/
def waitingDemand (s : State) : State :=
  let s1 := (s.hedStops.map (·.1)).foldl (fun s h =>
    if (match (hedStop s h).out with
      | some o => !o.atPort
      | none => false) then updReedGov (countingReed s h) (fun g => { g with scan0 := g.scan0 + 15 }) s
    else s) s
  if snagReady s1 then updReedGov 256 (fun g => { g with scan0 := g.scan0 + 15 }) s1 else s1

end Sys2Proof.Machine
end

