-- ==== Sys2Proof/Machine/Keys.lean ====
section
/-! DEFINITION. Tenant slots (spec/14_tenancy_keys.md): the TDISP state, the actions of the KEY page, removal and scrub, and the
readback port (R36, R37, R305). -/

namespace Sys2Proof.Machine

/-- Change the key store. -/
def updKey (f : KeyStore → KeyStore) (s : State) : State := { s with key := f s.key }

/-- Whether the configuration lock is on (R298, R299). -/
def locked (s : State) : Bool := s.key.tdi != 0

/-! ### What belongs to a slot -/

/-- The bobbins latched with a slot. -/
def slotBobs (s : State) (t : Nat) : List Nat := (s.bobs.map (·.1)).filter fun b => bobSlot s b == some t

/-- The Heddles that name a slot with CONF 1. -/
def slotHeds (s : State) (t : Nat) : List Nat := (hedList s).filter fun h => hedSlot s h == some t

/-- The streams routed to a slot's bobbins. -/
def slotStrs (s : State) (t : Nat) : List (Nat × Strm) := s.strs.filter fun e => bobSlot s (strBob s e.1) == some t

/-- The generation in byte 3 of a block. -/
def blkGen (b : Block) : BitVec 8 := BitVec.ofNat 8 (blkBytes b 3 1)

/-- The scan blocks of a slot's Heddles that are not done. -/
def slotScans (s : State) (t : Nat) : List ScanOut := (s.hedStops.filter fun e => hedSlot s e.1 == some t).filterMap fun e => e.2.out

/-! ### Derivation (R301, Table TK-3) -/

/-- The seed, bytes 0 to 31, once its four words are written. -/
def seedOf (s : State) : Option (BitVec 256) :=
  match mfind s.key.seed 0, mfind s.key.seed 1, mfind s.key.seed 2, mfind s.key.seed 3 with
  | some a, some b, some c, some d => some (d ++ c ++ b ++ a)
  | _, _, _, _ => none

/-- The keys of a generation, with a fresh salt. -/
def deriveGen (tenant : BitVec 32) (g : BitVec 8) (seed : BitVec 256) (s : State) : Gen × State :=
  let (n, s1) := takeSalt s
  let id := bytesLE 4 tenant.toNat ++ bytesLE 1 g.toNat
  let enc := kdf Config.keyKM (ascii "FALCEN-ENC") (id ++ bytesLE 32 (Config.salt n).toNat ++ bytesLE 32 seed.toNat)
  let dig := kdf seed (ascii "FALCEN-DIG") id
  ({ g := g, salt := Config.salt n, enc := enc, dig := 1 + dig.toNat % 2 ^ 64 % (2 ^ 61 - 2), nextHead := 0, oldAt := 0 }, s1)

/-- Clear the seed. -/
def clearSeed (s : State) : State := updKey (fun k => { k with seed := [] }) s

/-! ### Actions (Tables TK-4 and TK-9) -/

/-- The slot that KEY_ARG names. -/
def argSlot (s : State) : Nat := regFld s pgKey 0x48 5 0

/-- INSTALL. -/
def install (s : State) : Option State :=
  let t := argSlot s
  let tenant := BitVec.ofNat 32 (regFld s pgKey 0x48 63 32)
  match seedOf s with
  | none => none
  | some seed =>
    if s.key.tdi != 2 || tenant = 0 || (kslot s t).st != .free then none
    else
      let (g, s1) := deriveGen tenant 1 seed s
      let tag := kdf seed (ascii "FALCEN-TAG") (bytesLE 4 tenant.toNat)
      some (clearSeed (updSlot t (fun k =>
        { k with
          st := .active, tenant := tenant, gens := [g], ktag := tag, scrubbed := false, cause := 0, scanHold := [], scanHeads := [],
          refusedSince := 0, written := 0, overdue := false, scrubBobs := [], scrubHeds := [], zeroed := 0, scanZeroed := 0, zeroNext := 0,
          zeroRedo := [] }) s1))

/-- ROTATE. -/
def rotate (s : State) : Option State :=
  let t := argSlot s
  let k := kslot s t
  match seedOf s, k.gens with
  | some seed, [old] =>
    if s.key.tdi != 2 || k.st != .active then none
    else
      let g := if old.g = 255 then 1 else old.g + 1
      let (new, s1) := deriveGen k.tenant g seed s
      let s2 := updSlot t (fun k => { k with gens := [new, { old with oldAt := hubBeam s }] }) s1
      some (clearSeed ((slotBobs s t).foldl (fun s b => updBob b (fun x => { x with lastOld := some (x.write - 1) }) s) s2))
  | _, _ => none

/-- A slot report (Table TK-6). -/
def slotReport (cls t stamp w24 ext : Nat) (s : State) : State :=
  placeReport (mkReport s cls 6 t stamp (kslot s t).tenant.toNat false w24 ext) s

/-- A removal begins (R307, R308): the fence, the runs closed, the report, source 45. -/
def beginRemoval (t cause : Nat) (s : State) : State :=
  let tf := hubBeam s
  let kept := ((slotStrs s t).map fun e => e.2.recs.length).sum
  let s1 := updSlot t (fun k => { k with st := .fencing, tf := tf, cause := cause, refusedSince := 0, written := 0, overdue := false }) s
  let s2 := closeBobs (slotBobs s1 t) s1
  raise 45 (slotReport 5 t tf (pack [(0, 8, cause), (8, 8, (kslot s t).gens.length), (16, 16, (slotBobs s t).length), (32, 32, kept)])
    (pack [(0, 32, (slotHeds s t).length)]) s2)

/-- REMOVE. -/
def remove (s : State) : Option State :=
  if (kslot s (argSlot s)).st == .active then some (beginRemoval (argSlot s) 1 s) else none

/-- RELEASE. -/
def release (s : State) : Option State :=
  let t := argSlot s
  let k := kslot s t
  if k.st == .erased && k.scrubbed then
    some (updSlot t (fun k =>
      { k with st := .free, tenant := 0, scrubbed := false, scanHold := [], scanHeads := [], scrubBobs := [], scrubHeds := [] }) s)
  else none

/-- SCAN_RELEASE. -/
def scanRelease (s : State) : Option State :=
  if (kslot s (argSlot s)).scanHold.isEmpty then none else some (updSlot (argSlot s) (fun k => { k with scanHold := [] }) s)

/-- SEED_MISSING (Table TK-9): an INSTALL or ROTATE with no seed written. -/
def noteSeed (s : State) : State := if (seedOf s).isNone then setErr pgKey 0 s else s

/-- TDI_STATE changes (R298, Table TK-1). -/
def tdispChange (st : BitVec 2) (s : State) : State :=
  let old := s.key.tdi
  if st = old then s
  else
    let s1 := raise 47 (updKey (fun k => { k with tdi := st }) s)
    let s2 := if old = 2 then setErr pgKey 1 (clearSeed s1) else s1
    if (old = 2 && st = 0) || st = 3 then
      ((s.key.slots.filter fun e => e.2.st == .active).map (·.1)).foldl (fun s t => beginRemoval t 2 s) s2
    else s2

/-! ### Retirement of a generation (R306) -/

/-- Whether a bobbin's TAIL has passed its LAST_OLD. -/
def Bob.passedOld (x : Bob) : Bool :=
  match x.lastOld with
  | some l => before32 l x.tail
  | none => true

/-- Whether an old generation may be zeroized: among others, no check that uses it is without a result, and a result has its 64 bt (R249) behind
it. -/
def retireReady (s : State) (t : Nat) (g : BitVec 8) : Bool :=
  let k := kslot s t
  (slotBobs s t).all (fun b => (bob s b).passedOld &&
    (bob s b).window.all fun e => !((e.st == .outstanding || (e.st == .waiting && e.sent)) && blkGen e.blk == g)) &&
  (slotScans s t).all (fun o => !o.sent || blkGen o.blk != g) &&
  s.wits.all (fun e => e.2.checks.all fun c =>
    !(c.card.tenant == t && c.gen == g && (c.card.conf || c.card.roles.any c.card.digests) && c.outcome.all fun v => !resultDue s e.1 v)) &&
  !k.scanHold.contains g

/-- The old generation of a slot is retired. -/
def genRetired (t : Nat) (s : State) : State :=
  let k := kslot s t
  match k.gens with
  | [_, old] =>
    if k.st == .active && retireReady s t old.g then
      let bs := slotBobs s t
      let heads := bs.filterMap fun b => (bob s b).headOf t old.g
      let s1 := updSlot t (fun k => { k with gens := k.gens.take 1, scanHeads := k.scanHeads.filter fun e => e.gen != old.g }) s
      let s2 := bs.foldl (fun s b => updBob b (fun x =>
        { x with lastOld := none, heads := x.heads.filter fun e => !(e.slot == t && e.gen == old.g) }) s) s1
      slotReport 8 t (hubBeam s2) (pack [(8, 8, old.g.toNat), (16, 16, heads.length), (32, 32, (heads.map (·.blocks)).sum)])
        (pack [(64, 64, old.oldAt)]) s2
    else s
  | _ => s

/-! ### Removal (R308 to R310) -/

/-- Whether a bobbin's writer has still to find out, or to hear, what is stored of it (R181 to R184, R315). -/
def rebuilding (s : State) (b : Nat) : Bool :=
  let a := scanHolder s b
  a.phase == .waitPort || a.phase == .scan || a.scanning.contains b || !a.await.isEmpty

/-- Whether no record accepted for a slot is left unissued (R308). -/
def fenced (s : State) (t : Nat) : Bool :=
  (slotStrs s t).all (fun e => e.2.runs.isEmpty && e.2.recs.length == e.2.committed + e.2.taken) &&
  (slotBobs s t).all fun b => !rebuilding s b

/-- FENCING ends. -/
def fenceComplete (t : Nat) (s : State) : State :=
  if (kslot s t).st == .fencing && fenced s t then updSlot t (fun k => { k with st := .draining, drainRaw := s.tim.raw }) s else s

/-- Whether no block of a slot is outstanding, or may be issued again, and none of its bobbins is in FAULT (R308, R315). -/
def slotDrained (s : State) (t : Nat) : Bool :=
  (slotBobs s t).all (fun b =>
    !(bob s b).fault && !rebuilding s b && (bob s b).window.all fun e => e.st != .outstanding && e.st != .waiting) &&
  (slotStrs s t).all (fun e => e.2.runs.isEmpty) &&
  (slotScans s t).isEmpty

/-- Disable a bobbin and set its indices to 0 (R309). -/
def clearBob (b : Nat) (s : State) : State :=
  updBob b (fun x =>
    { x with
      en := false, fault := false, full := false, head := 0, write := 0, tail := 0, shadow := 0, shadowSent := 0, window := [], past := [], wraps := 0,
      heads := [], lastOld := none }) s

/-- A slot is erased (Table TK-4): keys zeroized, bobbins disabled, the report, and the scrub asked for. -/
def eraseSlot (t : Nat) (s : State) : State :=
  let k := kslot s t
  let bs := slotBobs s t
  let s1 := updSlot t (fun k =>
    { k with
      st := .erased, gens := [], ktag := 0, scrubbed := false, scanHold := [], scanHeads := [], scrubBobs := bs,
      scrubHeds := if s.stop.scanBase = 0 then [] else slotHeds s t,
      scrubBase := s.stop.scanBase.toNat, scrubLog := s.stop.scanLog, zeroed := 0, scanZeroed := 0, zeroNext := 0, zeroRedo := [],
      zeroAt := hubBeam s }) s
  let s2 := bs.foldl (fun s b => clearBob b s) s1
  let dur := if k.st == .draining then s.tim.raw - k.drainRaw else 0
  slotReport 6 t (hubBeam s2) (pack [(0, 8, k.cause), (8, 8, k.gens.length), (16, 16, bs.length), (32, 32, min 0xFFFFFFFF k.refusedSince)])
    (pack [(0, 32, k.lateDrops), (32, 32, k.written), (64, 64, dur)]) s2

/-- DRAINING ends. -/
def slotDrainComplete (t : Nat) (s : State) : State :=
  if (kslot s t).st == .draining && slotDrained s t then eraseSlot t s else s

/-- A faulted bobbin holds a slot in DRAINING for 50 µs. -/
def drainOverdue (t : Nat) (s : State) : State :=
  let k := kslot s t
  if k.st == .draining && !k.overdue && k.drainRaw + 200000 ≤ s.tim.raw && (slotBobs s t).any fun b => (bob s b).fault then
    setErr pgKey 3 (updSlot t (fun k => { k with overdue := true }) s)
  else s

/-- An uncorrectable error in a live slot's storage (R310): fence and end at once; the records not committed are lost. -/
def keyEcc (t : Nat) (known : Bool) (s : State) : State :=
  if !(kslot s t).live then s
  else
    let lost := ((slotStrs s t).map fun e => e.2.recs.length - e.2.committed).sum
    let first := ((slotStrs s t).find? fun e => e.2.committed < e.2.recs.length).map fun e => (e.1, ((e.2.recs[e.2.committed]?).map (·.seq.toNat)).getD 0)
    let s0 := if (kslot s t).st == .active then beginRemoval t 3 s else updSlot t (fun k => { k with cause := 3 }) s
    let s1 := (slotStrs s0 t).foldl (fun s e => updStrm e.1 (fun x => { x with recs := [], committed := 0, taken := 0, runs := [] }) s) s0
    let s2 := setErr pgKey 2 (abandonScans t (eraseSlot t s1))
    if known && lost = 0 then s2
    else workLost 6 t ((first.map (·.1)).getD 0) 0 ((first.map (·.2)).getD 0) (if known then lost else 0xFFFFFFFF) s2

/-! ### Scrub (R309) -/

/-- A slot's next zero block: one to repeat, else the next in order. -/
def nextZero (s : State) (k : KSlot) : Option Nat :=
  if k.st == .erased && !k.scrubbed then
    (match k.zeroRedo with
     | n :: _ => some n
     | [] => if k.zeroNext < scrubRing s k + scrubScan k then some k.zeroNext else none)
  else none

/-- A zero block that firmware writes next: slot and block. -/
def zeroReady (s : State) : Option (Nat × Nat) :=
  if !fwRuns s then none else s.key.slots.findSome? fun e => (nextZero s e.2).map fun n => (e.1, n)

/-- Write a zero block through the service port, charged as exempt. -/
def issueZero (tag t n : Nat) (s : State) : State :=
  let s1 := updSlot t (fun k => match k.zeroRedo with
    | _ :: r => { k with zeroRedo := r }
    | [] => { k with zeroNext := k.zeroNext + 1 }) s
  sendBlock 256 tag (.zero t n) { s1 with exempt := s1.exempt + 15 }

/-- A zero block has completed; one not stored is repeated without limit. -/
def zeroDone (t n : Nat) (ok : Bool) (s : State) : State :=
  let ring := n < scrubRing s (kslot s t)
  if (kslot s t).st != .erased then s
  else if ok then
    updSlot t (fun k =>
      { k with zeroed := if ring then k.zeroed + 1 else k.zeroed, scanZeroed := if ring then k.scanZeroed else k.scanZeroed + 1,
               zeroAt := hubBeam s }) s
  else updSlot t (fun k => { k with zeroRedo := k.zeroRedo ++ [n], scrubRetries := min 0xFFFF (k.scrubRetries + 1) }) s

/-- A slot is scrubbed: the report and source 46. -/
def scrubbed (t stamp blocks scans retries : Nat) (s : State) : State :=
  let n := (kslot s t).scrubBobs.length
  raise 46 (slotReport 7 t stamp (pack [(16, 16, n), (32, 32, blocks)]) (pack [(0, 32, scans), (32, 32, retries)])
    (updSlot t (fun k => { k with scrubbed := true }) s))

/-- Firmware reports the scrub complete. -/
def scrubComplete (t : Nat) (s : State) : State :=
  let k := kslot s t
  if k.st == .erased && !k.scrubbed && fwRuns s && k.zeroed = scrubRing s k && k.scanZeroed = scrubScan k then
    scrubbed t k.zeroAt k.zeroed k.scanZeroed k.scrubRetries s
  else s

/-! ### Memory read port: asking (R35) -/

/-- Ask for a read of a block address. -/
def askRead (what : ReadFor) (addr : Nat) (s : State) : State :=
  { s with rport := { s.rport with waiting := s.rport.waiting ++ [(what, BitVec.ofNat 48 addr)] } }

/-- The block address of an index of a bobbin. -/
def bobAddr (x : Bob) (idx : BitVec 32) : Nat := fld x.base 56 9 + idx.toNat % x.slots

/-- Turn the scan reads that an adopter has to do into requests. -/
def askScans (a : Nat) (s : State) : State :=
  let l := (adopt s a).todo
  if l.isEmpty then s
  else
    l.foldl (fun s e => askRead (.scan a e.1 e.2.1 e.2.2) (bobAddr (bob s e.1) ((bob s e.1).shadow + BitVec.ofNat 32 e.2.1)) s)
      (updAdopt a (fun x => { x with todo := [] }) s)

/-- Give waiting reads their tags. -/
def startReads : Nat → State → State
  | 0, s => s
  | fuel + 1, s =>
    match s.rport.waiting, (List.range 16).find? fun t => (mfind s.rport.tags t).isNone with
    | (w, a) :: rest, some t =>
      startReads fuel { s with rport := { tags := mins s.rport.tags t ⟨w, a, s.tim.raw, [], false, false⟩, waiting := rest } }
    | _, _ => s

/-- What the read port has to do is asked for, and started while tags are free. -/
def settleReads (s : State) : State := startReads 16 ((s.adopts.map (·.1)).foldl (fun s a => askScans a s) s)

/-! ### Readback (R36, R37, R305) -/

/-- What a block address belongs to: a bobbin, or the scan area of a Heddle of a tenant with its block number. -/
inductive RbPlace where
  | bobbin (b : Nat) (slot : Nat)
  | scan (h : Nat) (blk : Nat)
  deriving DecidableEq, Repr

/-- The place of an address. -/
def rbPlace (s : State) (a : Nat) : Option RbPlace :=
  match s.bobs.find? fun e => e.2.latched && fld e.2.base 56 9 ≤ a && a < fld e.2.base 56 9 + e.2.slots with
  | some (b, x) => some (.bobbin b (a - fld x.base 56 9))
  | none =>
    let base := fld s.stop.scanBase 56 9
    let per := 2 ^ (s.stop.scanLog - 9)
    let h := (a - base) / per
    if base = 0 || a < base || s.inst.reeds * s.inst.hpr ≤ h || (hedSlot s h).isNone then none else some (.scan h ((a - base) % per))

/-- The slot that a place is confidential to. -/
def RbPlace.slot (s : State) : RbPlace → Option Nat
  | .bobbin b _ => bobSlot s b
  | .scan h _ => hedSlot s h

/-- Whether a requester is authorised for a place (R305). -/
def rbAllowed (s : State) (rid : BitVec 16) (p : RbPlace) : Bool :=
  (List.range 32).any fun e =>
    let w := regGet s pgKey (0x100 + 8 * e)
    bit w 63 && fld w 15 0 == rid.toNat && (match p.slot s with
      | some t => bit w 54 && fld w 53 48 == t
      | none => bit w 62)

/-- Change the readback port. -/
def updRb (f : RbPort → RbPort) (s : State) : State := updKey (fun k => { k with rb := f k.rb }) s

/-- Serve the request at the front: refuse it, or read its block. -/
def rbBegin (s : State) : State :=
  match s.key.rb.queue with
  | [] => s
  | q :: _ =>
    match rbPlace s q.addr.toNat with
    | none => updRb (fun r => { r with early := some 4, data := none }) s
    | some p =>
      if rbAllowed s q.rid p then askRead .readback q.addr.toNat (updRb (fun r => { r with early := none, data := none }) s)
      else updRb (fun r => { r with early := some 1, data := none }) s

/-- A readback request arrives. -/
def readbackRequest (rid : BitVec 16) (addr : BitVec 48) (s : State) : State :=
  let s1 := updRb (fun r => { r with queue := r.queue ++ [⟨rid, addr⟩] }) s
  if s.key.rb.queue.isEmpty then rbBegin s1 else s1

/-- The nonce of a stored block of a place, where one is known (R304). -/
def rbNonce (s : State) (p : RbPlace) (g : BitVec 8) (blk : Block) : Option Nat :=
  match p with
  | .bobbin b slot =>
    let x := bob s b
    let lap := fieldN blk.toNat 47 42
    let m := 64 * x.slots
    let w : Int := (x.wraps.toNat * 2 ^ 32 + x.write.toNat : Nat)
    let i := w - (w - ((lap * x.slots + slot : Nat) : Int)) % (m : Int)
    if i < 0 then none else (x.headOf x.tenant g).map fun e => bobNonce e.head i.toNat
  | .scan h n =>
    (hedSlot s h).bind fun t =>
      ((kslot s t).scanHeads.find? fun e => e.num.toNat == fieldN blk.toNat 63 48 && e.gen == g).map fun e => scanNonce e.head h n

/-- The status and block of a readback whose data is there (R305). -/
def rbResult (s : State) (p : RbPlace) (blk : Block) : BitVec 3 × Block :=
  match p.slot s with
  | none => (0, blk)
  | some t =>
    let k := kslot s t
    match k.st with
    | .free => (1, 0)
    | .draining | .erased => (2, 0)
    | _ =>
      match k.gen (blkGen blk), rbNonce s p (blkGen blk) blk with
      | some g, some n => (match openBlock g.enc n blk with
        | some d => (0, d)
        | none => (3, 0))
      | _, _ => (3, 0)

/-- The front readback is answered, and the next one served. -/
def readbackComplete (s : State) : State :=
  let done := fun (a : BitVec 3 × Block) => rbBegin (updRb (fun r => { r with queue := r.queue.drop 1, early := none, data := none, answer := some a }) s)
  match s.key.rb.queue with
  | [] => s
  | q :: _ =>
    match s.key.rb.early, s.key.rb.data with
    | some st, _ => done (st, 0)
    | none, some none => done (5, 0)
    | none, some (some blk) =>
      (match rbPlace s q.addr.toNat with
       | some p => done (rbResult s p blk)
       | none => done (4, 0))
    | none, none => s

/-! ### The KEY page (Table TK-9) -/

/-- The code of a slot's state. -/
def SlotSt.code : SlotSt → Nat
  | .free => 0
  | .active => 1
  | .fencing => 2
  | .draining => 3
  | .erased => 4

/-- The read-only words of the KEY page. -/
def keyView (s : State) (off : Nat) : Word :=
  let t := regFld s pgKey 0x70 5 0
  let k := kslot s t
  if off = 0x40 then
    packW [(56, 8, (s.key.slots.filter fun e => e.2.live).length), (48, 8, (s.key.slots.filter fun e => e.2.st == .active).length),
      (2, 1, bn (locked s)), (0, 2, s.key.tdi.toNat)]
  else if off = 0x78 then
    packW [(61, 3, k.st.code), (60, 1, bn k.scrubbed), (59, 1, bn (!k.scanHold.isEmpty)), (56, 3, k.cause), (48, 8, k.current.toNat),
      (40, 8, (((k.gens[1]?).map (·.g.toNat)).getD 0)), (0, 32, k.tenant.toNat)]
  else if off = 0x80 then BitVec.ofNat 64 k.tf
  else if off = 0x88 then packW [(32, 32, k.fenceRefused), (16, 16, k.lateDrops), (0, 16, k.scrubRetries)]
  else if off = 0x90 then packW [(48, 16, ((slotBobs s t).filter fun b => !(bob s b).passedOld).length)]
  else 0

/-- A read of KEY_SLOT_COUNTS clears the shown slot's fields (R316). -/
def keyReadClear (s : State) : State :=
  updSlot (regFld s pgKey 0x70 5 0) (fun k => { k with fenceRefused := 0, lateDrops := 0, scrubRetries := 0 }) s

end Sys2Proof.Machine
end

