-- ==== Sys2Proof/Machine/Fw.lean ====
section
/-! DEFINITION. The management core (spec/15_firmware_service.md): images and their checks, the cold load, the handover as far as it does
not fail the core, emission by firmware and host, and the block buffer. -/

namespace Sys2Proof.Machine

/-- Change the management core. -/
def updFw (f : Fw → Fw) (s : State) : State := { s with fw := f s.fw }

/-- The core with nothing loaded. -/
def Fw.none : Fw :=
  { loaded := false, version := 0, ckpt := 0, entry := 0, newVersion := 0, newCkpt := 0, newEntry := 0, newBase := 0, newWant := 0,
    loader := Option.none, phase := 0, hash := Option.none, phaseRaw := 0, readyRaw := 0, startKind := 0, freshLoad := false, stopReq := false,
    halted := false, kickRaw := 0, kickUs := 0, image := [], checkpoint := [], buf := 0, bufStatus := 1, bufOut := Option.none }

/-- Whether the core executes: ENABLED or QUIESCING and not halted (R325, R328). -/
def fwGoing (s : State) : Bool := isWorking s pgFw && !s.fw.halted

/-- Record a result in FW_LOAD_STATUS. -/
def fwResult (code : Nat) (s : State) : State := regSetFld s pgFw 0x58 55 48 code

/-- WDOG_US and HANDOVER_US. -/
def wdogUs (s : State) : Nat := regFld s pgFw 0x60 51 32
def handoverUs (s : State) : Nat := regFld s pgFw 0x60 31 16

/-! ### Images (R320, R321, Tables FS-3 and FS-4) -/

/-- Bytes [a, a + n) of a block. -/
def blkList (b : Block) (a n : Nat) : Bytes := bytesLE n (blkBytes b a n)

/-- The body length that a header gives. -/
def hdrLen (b : Block) : Nat := blkBytes b 8 4

/-- Checks 2 to 4 on a header: the code of the first that fails, or 0. -/
def hdrCode (b : Block) : Nat :=
  if !(blkBytes b 0 2 = 0xF31F && blkBytes b 2 1 = 1 && blkBytes b 3 1 = 0 && blkBytes b 24 8 = 0 && blkBytes b 272 240 = 0 &&
      hdrLen b % 512 = 0 && 512 ≤ hdrLen b && hdrLen b ≤ 458752) then 2
  else if Config.fwKeyDigest = 0 || sha384 (blkList b 80 96) != bytesLE 48 Config.fwKeyDigest.toNat then 3
  else if !ecdsaVerify (natBE (blkList b 80 48), natBE (blkList b 128 48)) (natBE (sha384 (blkList b 0 176))) (natBE (blkList b 176 48))
      (natBE (blkList b 224 48)) then 4
  else 0

/-- SHA-384 of a body whose blocks are given by number from 1. -/
def bodyHash (body : List (Nat × Block)) : Nat := natLE (sha384 (body.flatMap fun e => bytesLE 512 e.2.toNat))

/-- Checks 5 to 7: the code of the first that fails, or 0. -/
def bodyCode (s : State) (l : Loader) (b : Block) : Nat :=
  if bodyHash l.body != blkBytes b 32 48 then 5
  else if 3 < blkBytes b 22 1 || (blkBytes b 22 1 = 3 && 1 < blkBytes b 23 1) then 6
  else if l.kind = 1 && !(blkBytes b 18 2 ≤ s.fw.ckpt.toNat && s.fw.ckpt.toNat ≤ blkBytes b 20 2) then 7
  else 0

/-- The result code of a load, once its reads allow one (R321). -/
def loadCode (s : State) (l : Loader) : Option Nat :=
  if l.bad then some 1
  else
    match l.header with
    | none => none
    | some b =>
      let c := hdrCode b
      if c != 0 then some c else if l.body.length < l.want then none else some (bodyCode s l b)

/-- Whether a read is the loader's. -/
def ReadFor.ofLoader : ReadFor → Bool
  | .fwLoad _ | .fwReload _ => true
  | _ => false

/-- Drop the loader's work. -/
def dropLoader (s : State) : State := updFw (fun f => { f with loader := none }) (dropReads ReadFor.ofLoader s)

/-- Begin to read an image from its header. -/
def beginLoad (kind base : Nat) (s : State) : State :=
  askRead (.fwLoad 0) base (updFw (fun f => { f with loader := some ⟨kind, base, none, [], 0, false⟩ }) (dropLoader s))

/-- Ask for the body blocks 1 to n. -/
def askBody (mk : Nat → ReadFor) (base n : Nat) (s : State) : State :=
  (List.range n).foldl (fun s i => askRead (mk (i + 1)) (base + i + 1) s) s

/-- A read of the loader has ended: none is status ERROR. A cold load and a reload put the body into the image area as it comes. -/
def loaderRead (n : Nat) (blk : Option Block) (s : State) : State :=
  match s.fw.loader, blk with
  | none, _ => s
  | some l, none => updFw (fun f => { f with loader := some { l with bad := true } }) (dropReads ReadFor.ofLoader s)
  | some l, some b =>
    if n = 0 then
      let ok := hdrCode b = 0
      let want := if ok then hdrLen b / 512 else 0
      askBody .fwLoad l.base want (updFw (fun f => { f with loader := some { l with header := some b, want := want } }) s)
    else
      updFw (fun f =>
        { f with
          loader := some { l with body := mins l.body n b },
          image := if l.kind = 1 then f.image else mset 0 f.image (n - 1) b }) s

/-! ### Cold load (R322) -/

/-- Clear all core SRAM. -/
def clearSram (s : State) : State := updFw (fun f => { f with image := [], checkpoint := [], loaded := false, version := 0, ckpt := 0 }) s

/-- LOAD: none where it is refused (R334). -/
def fwLoad (s : State) : Option State :=
  let base := regFld s pgFw 0x40 56 9
  if pst s pgFw == .disabled && base != 0 then some (beginLoad 0 base (clearSram s)) else none

/-- The checks of a cold load are done. -/
def loadComplete (s : State) : State :=
  match s.fw.loader with
  | none => s
  | some l =>
    if l.kind != 0 then s
    else
      match loadCode s l with
      | none => s
      | some c =>
        let s1 := fwResult c (dropLoader s)
        if c = 0 then
          let b := l.header.getD 0
          updFw (fun f =>
            { f with
              loaded := true, version := BitVec.ofNat 32 (blkBytes b 4 4), ckpt := BitVec.ofNat 16 (blkBytes b 16 2),
              entry := blkBytes b 12 4, freshLoad := true }) s1
        else raise 49 (setErr pgFw 0 (clearSram s1))

/-! ### Handover (Table FS-5) -/

/-- HANDOVER: none where it is refused (R334). -/
def fwHandover (s : State) : Option State :=
  let base := regFld s pgFw 0x50 56 9
  if isEnabled s pgFw && s.fw.phase = 0 && base != 0 then
    some (beginLoad 1 base (updFw (fun f => { f with phase := 1, phaseRaw := s.tim.raw }) s))
  else none

/-- A handover ends with a code; the old image continues. -/
def handoverFails (code : Nat) (s : State) : State :=
  raise 49 (setErr pgFw 1 (fwResult code (updFw (fun f => { f with phase := 0 }) (dropLoader s))))

/-- The checks of VERIFY are done. -/
def verifyComplete (s : State) : State :=
  match s.fw.loader with
  | none => s
  | some l =>
    if s.fw.phase != 1 || l.kind != 1 then s
    else
      match loadCode s l with
      | none => s
      | some 0 =>
        let b := l.header.getD 0
        updFw (fun f =>
          { f with
            phase := 2, phaseRaw := s.tim.raw, newBase := l.base, newWant := l.want, newVersion := BitVec.ofNat 32 (blkBytes b 4 4),
            newCkpt := BitVec.ofNat 16 (blkBytes b 16 2), newEntry := blkBytes b 12 4, hash := some (bodyHash l.body) }) (dropLoader s)
      | some c => handoverFails c s

/-- HANDOVER_US passes in REQUEST. -/
def handoverTimeout (s : State) : State :=
  if s.fw.phase = 2 && s.fw.phaseRaw + handoverUs s * 4000 ≤ s.tim.raw then handoverFails 8 s else s

/-- Firmware halts by READY: the checkpoint area holds what firmware has left there, 128 blocks that the model leaves free (R322, R323; Table
FS-2; notes/assumptions 48). -/
def leaveCheckpoint (s : State) : State :=
  let (n, s1) := takeFree s
  updFw (fun f => { f with checkpoint := (List.range 128).foldl (fun l i => mset 0 l i (Config.freeBlock (128 * n + i))) [] }) s1

/-- READY in REQUEST: the core is halted and the new body read into the cleared image area. -/
def enterReload (s : State) : State :=
  let f := s.fw
  askBody .fwReload f.newBase f.newWant (updFw (fun f =>
    { f with
      phase := 3, phaseRaw := s.tim.raw, readyRaw := s.tim.raw, halted := true, image := [],
      loader := some ⟨2, f.newBase, none, [], f.newWant, false⟩ }) s)

/-- Whether the reload has come to an end, and whether its hash is the one verified. -/
def reloadResult (s : State) : Option Bool :=
  match s.fw.loader with
  | none => none
  | some l =>
    if l.kind != 2 then none
    else if l.bad then some false
    else if l.body.length < l.want then none
    else some (s.fw.hash == some (bodyHash l.body))

/-- The new image starts (START). -/
def enterStart (s : State) : State :=
  updFw (fun f => { f with phase := 4, phaseRaw := s.tim.raw, halted := false, startKind := 1 }) (dropLoader s)

/-- ACCEPT in START. -/
def fwAccept (s : State) : State :=
  if s.fw.phase = 4 && isEnabled s pgFw && pst s pgHub != .resetting then
    let f := s.fw
    let s1 := regSetFld s pgFw 0x40 56 9 f.newBase
    let s2 := updFw (fun f =>
      { f with
        phase := 0, version := f.newVersion, ckpt := f.newCkpt, entry := f.newEntry, kickRaw := s.tim.raw, kickUs := wdogUs s, hash := none }) s1
    let s3 := regSetFld (count s2 pgFw 0x58 47 32 1) pgFw 0x58 31 0 (min 0xFFFFFFFF ((s.tim.raw - f.readyRaw) / 4))
    raise 49 (fwResult 0 s3)
  else s

/-- The core leaves ENABLED during a handover, or the Hub is reset in VERIFY or REQUEST (R324, R344): it is abandoned. -/
def abandonHandover (s : State) : State :=
  if s.fw.phase = 0 then s else raise 49 (setErr pgFw 1 (fwResult 11 (updFw (fun f => { f with phase := 0 }) (dropLoader s))))

/-- The Hub is reset: VERIFY and REQUEST end, and in START the core is halted while the Hub is in RESETTING (R324). -/
def handoverHubReset (s : State) : State :=
  if s.fw.phase = 1 || s.fw.phase = 2 then abandonHandover s
  else if s.fw.phase = 4 then updFw (fun f => { f with halted := true }) s
  else s

/-- The Hub leaves RESETTING after a time: RELOAD and START resume (R324). -/
def handoverHubBack (stay : Nat) (s : State) : State :=
  if s.fw.phase = 3 || s.fw.phase = 4 then updFw (fun f => { f with phaseRaw := f.phaseRaw + stay, halted := f.phase = 3 }) s else s

/-! ### The running core -/

/-- The core enters ENABLED (R322, R328). -/
def fwEnters (s : State) : State :=
  updFw (fun f =>
    { f with
      startKind := if f.freshLoad then 0 else 2, freshLoad := false, stopReq := false, halted := false, kickRaw := s.tim.raw, kickUs := wdogUs s }) s

/-- The core is reset: its SRAM and the loaded image are cleared (Table PT-12); a block at the port goes its way (R29). -/
def fwReset (s : State) : State :=
  let p := fun (w : ReadFor) => w.ofLoader || w == .fwBuf
  { dropReads p s with fw := Fw.none }

/-- A kick (R328). -/
def watchdogKick (s : State) : State :=
  if fwGoing s then count (updFw (fun f => { f with kickRaw := s.tim.raw, kickUs := wdogUs s }) s) pgFw 0x68 31 0 1 else s

/-- Whether the watchdog has run out (R328); it stands in RELOAD and START. -/
def watchdogOut (s : State) : Bool :=
  fwGoing s && s.fw.phase != 3 && s.fw.phase != 4 && decide (s.fw.kickRaw + s.fw.kickUs * 4000 ≤ s.tim.raw)

/-- Firmware emits the n oldest notices (R318). -/
def fwEmit (n : Nat) (s : State) : State := if fwOwner s = 0 then emitNotices n s else s

/-- EMIT (R326): none where it is refused. -/
def hostEmit (s : State) : Option State := if fwOwner s = 1 then some (emitNotices (regFld s pgFw 0x78 10 0) s) else none

/-- HOST_SCRUBBED (R326): none where it is refused. -/
def hostScrubbed (s : State) : Option State :=
  let t := regFld s pgFw 0x78 21 16
  if fwOwner s = 1 && (kslot s t).st == .erased && !(kslot s t).scrubbed then some (scrubbed t (hubBeam s) 0xFFFFFFFF 0 0 s) else none

/-- CSR 0x7C4 is written: a transfer of the block buffer begins, unless one is under way. -/
def bufTransfer (w : Word) (b : Block) (s : State) : State :=
  if fwGoing s && s.fw.bufStatus != 0 then
    let a := fld w 56 9
    let s1 := updFw (fun f => { f with buf := b, bufStatus := 0 }) s
    if bit w 63 then updFw (fun f => { f with bufOut := some a }) s1 else askRead .fwBuf a s1
  else s

/-- The block buffer's write is given to the service port (R319). -/
def issueBuf (tag : Nat) (s : State) : State := updFw (fun f => { f with bufOut := none }) (sendBlock 256 tag .fw s)

/-- The block buffer's write has completed. -/
def bufDone (ok : Bool) (s : State) : State :=
  updFw (fun f => if f.bufStatus = 0 then { f with bufStatus := if ok then 1 else 2 } else f) s

/-- The block buffer's read has ended. -/
def bufRead (blk : Option Block) (s : State) : State :=
  updFw (fun f => match blk with
    | some b => { f with buf := b, bufStatus := 1 }
    | none => { f with bufStatus := 2 }) s

/-! ### The FW page (Table FS-10), and what the core reads -/

/-- The bytes of the oldest unemitted notice as the pick it will become, sequence zero (R326). -/
def nqView (s : State) : Nat :=
  match s.ver.queue with
  | [] => 0
  | n :: _ =>
    let n' := ((readyNotice true n s).map (·.1)).getD n
    recBytes 3 0x161 ⟨0, n'.pick, 0, false⟩

/-- What a read of a core-local CSR answers the core (Table FS-2): no command reads one, for what firmware computes is not modelled
(notes/assumptions 48). -/
def coreCsr (s : State) (n : Nat) : Word :=
  if n = 0x7C1 then packW [(3, 1, bn (s.fw.phase == 2)), (2, 1, bn s.fw.stopReq), (0, 2, s.fw.startKind)]
  else if n = 0x7C2 then BitVec.ofNat 64 s.ver.queue.length
  else if n = 0x7C3 then BitVec.ofNat 64 (beamOf s pgFw)
  else if n = 0x7C4 then BitVec.ofNat 64 s.fw.bufStatus
  else 0

/-- The read-only words of the FW page. -/
def fwView (s : State) (off : Nat) : Word :=
  if off = 0x48 then packW [(32, 32, s.fw.version.toNat), (16, 16, s.fw.ckpt.toNat), (0, 1, bn s.fw.loaded)]
  else if off = 0x58 then packW [(56, 8, s.fw.phase)]
  else if off = 0x70 then packW [(62, 2, fwOwner s), (32, 16, s.ver.queue.length), (16, 16, (strm s strMc).recs.length - (strm s strMc).committed)]
  else if 0x80 ≤ off && off < 0xC0 then BitVec.ofNat 64 (nqView s / 2 ^ (8 * (off - 0x80)) % 2 ^ 64)
  else if 0xC0 ≤ off && off < 0xF0 then BitVec.ofNat 64 (Config.fwKeyDigest.toNat / 2 ^ (8 * (off - 0xC0)) % 2 ^ 64)
  else 0

end Sys2Proof.Machine
end

