-- ==== Sys2Proof/Machine/Reads.lean ====
section
/-! DEFINITION. The memory read port (R35) and the completions of the memory write ports (R32, R34, R174): which part each end goes to. -/

namespace Sys2Proof.Machine

/-! ### Reads -/

/-- TEST_RELOAD (R240, R243): none where it is refused. Every test state is IDLE, and the manifest's first block is asked for. -/
def testReload (s : State) : State :=
  let base := regFld s pgHub 0x290 56 9
  let drop := fun (w : ReadFor) => match w with
    | .manifest _ => true
    | _ => false
  askRead (.manifest 0) base (updTests (fun x => { x with states := [], reading := some [] }) (dropReads drop s))

/-- A block of the manifest has been read; the header tells how many follow. -/
def manifestRead (n : Nat) (blk : Option Block) (s : State) : State :=
  match s.tests.reading with
  | none => s
  | some l =>
    let s1 := updTests (fun x => { x with reading := some (mins l n blk) }) s
    if n = 0 then
      let base := regFld s pgHub 0x290 56 9
      (List.range (manifestBlocks blk - 1)).foldl (fun s i => askRead (.manifest (i + 1)) (base + i + 1) s) s1
    else s1

/-- The core no longer reads a manifest. -/
def dropManifest (s : State) : State :=
  let drop := fun (w : ReadFor) => match w with
    | .manifest _ => true
    | _ => false
  updTests (fun x => { x with reading := none }) (dropReads drop s)

/-- A read has ended: with its block, or with status ERROR. -/
def readEnd (what : ReadFor) (blk : Option Block) (s : State) : State :=
  match what with
  | .scan a b off tries => scanRead a b off tries blk s
  | .readback => updRb (fun r => { r with data := some blk }) s
  | .fwLoad n => loaderRead n blk s
  | .fwReload n => loaderRead n blk s
  | .manifest n => manifestRead n blk s
  | .fwBuf => bufRead blk s
  | .dropped => s

/-- The block of eight beats, the first lowest. -/
def beatsBlock : List Beat → Nat
  | [] => 0
  | b :: bs => b.toNat + 2 ^ 512 * beatsBlock bs

/-- A read has all its beats, or the last of them: its tag is free, and it ends. -/
def endTag (t : Nat) (u : ReadUse) (blk : Option Block) (s : State) : State :=
  readEnd u.what blk { s with rport := { s.rport with tags := mdel s.rport.tags t } }

/-- A read ends with status ERROR before its last beat: its tag stays in use until that beat, and what still comes is dropped (R35;
notes/assumptions 81). -/
def endEarly (t : Nat) (u : ReadUse) (s : State) : State :=
  readEnd u.what none { s with rport := { s.rport with tags := mins s.rport.tags t { u with what := .dropped, ended := true } } }

/-- A beat on MD_REQ (R35): one of an unknown tag, or out of order, is a protocol error. -/
def readBeat (t : Nat) (beat : BitVec 3) (error : Bool) (d : Beat) (s : State) : State :=
  match mfind s.rport.tags t with
  | none => setPortErr pgHub 8 s
  | some u =>
    if u.ended then (if beat = 7 then { s with rport := { s.rport with tags := mdel s.rport.tags t } } else s)
    else if beat.toNat != u.beats.length then
      (if beat = 7 then endTag t u none else endEarly t u) (setPortErr pgHub 8 s)
    else
      let v := { u with beats := u.beats ++ [d], bad := u.bad || error }
      if v.beats.length < 8 then { s with rport := { s.rport with tags := mins s.rport.tags t v } }
      else endTag t v (if v.bad then none else some (BitVec.ofNat 4096 (beatsBlock v.beats))) s

/-- A read is not finished within 50 us of its request (R35). -/
def readTimeout (t : Nat) (s : State) : State :=
  match mfind s.rport.tags t with
  | none => s
  | some u => if !u.ended && u.asked + 200000 ≤ s.tim.raw then endEarly t u (setPortErr pgHub 8 s) else s

/-! ### Write completions -/

/-- The offset of the completion counters of a port, LATE [63:32] and STRAY [31:0] (R191, Table DL-8). -/
def complOff (w : Nat) : Nat := if w = 256 then 0x150 else 0x168

/-- A block has completed OK, or is not stored. -/
def writeEnd (w : Nat) (ref : BlkRef) (ok : Bool) (s : State) : State :=
  match ref with
  | .bob b idx => completeBob w b idx ok s
  | .past b n => completePast b n ok s
  | .scan h n => scanDoneBlock h n ok s
  | .snag n => snagBlockDone n ok s
  | .zero t n => zeroDone t n ok s
  | .fw => bufDone ok s

/-- An end of a block as its port takes it: a bobbin's block is only recorded while the part is in part reset, FAILED or RETIRED (R174). -/
def takeEnd (w : Nat) (ref : BlkRef) (ok : Bool) (s : State) : State :=
  match ref with
  | .bob _ _ | .past _ _ =>
    if portRecords s w then updPort w (fun p => { p with recorded := p.recorded ++ [(ref, ok)] }) s else writeEnd w ref ok s
  | _ => writeEnd w ref ok s

/-- What a port recorded is handed on when the reset of its part ends (R34). -/
def applyRecorded (w : Nat) (s : State) : State :=
  (wport s w).recorded.foldl (fun s e => writeEnd w e.1 e.2 s) (updPort w (fun p => { p with recorded := [] }) s)

/-- A late completion of a block of a slot that drains (R308). -/
def lateDrop (ref : BlkRef) (s : State) : State :=
  let slot := match ref with
    | .bob b _ => bobSlot s b
    | .scan h _ => hedSlot s h
    | _ => none
  match slot with
  | some t => if (kslot s t).st == .draining then updSlot t (fun k => { k with lateDrops := min 0xFFFF (k.lateDrops + 1) }) s else s
  | none => s

/-- A completion on MC_REQ (R34). -/
def memoryCompletion (w t : Nat) (error : Bool) (s : State) : State :=
  let pg := pgWriter w
  match mfind (wport s w).tags t with
  | none => setPortErr pg 0 (bump s pg (complOff w) 31 0 1)
  | some u =>
    let s1 := updPort w (fun p => { p with tags := mdel p.tags t }) s
    if u.late then lateDrop u.ref (bump s1 pg (complOff w) 63 32 1)
    else if error then
      takeEnd w u.ref false (setPortErr pg 0 (if w = 256 then s1 else bump s1 pg 0x158 63 48 1))
    else takeEnd w u.ref true s1

/-- The time from the issue of a block to its deadline: 50 us from the acknowledgement of its last beat, which comes 115 ns after its first at a
beat each 16 ns (R33, R34, Table PT-4; notes/assumptions 71). -/
def deadline : Nat := 200460

/-- The deadline of a block passes (R34): it is not completed, and its tag stays out of use. -/
def completionTimeout (w t : Nat) (s : State) : State :=
  let pg := pgWriter w
  match mfind (wport s w).tags t with
  | none => s
  | some u =>
    if u.late || s.tim.raw < u.issued + deadline then s
    else
      let s1 := updPort w (fun p => { p with tags := mins p.tags t { u with late := true } }) s
      takeEnd w u.ref false (setPortErr pg 1 (if w = 256 then s1 else bump s1 pg 0x158 47 32 1))

/-- The records that wait for the streams that a writer packs, and may be accepted now, are: those of the Heddles that it serves, its own and
its predecessor's, or those of the link ports. -/
def settleWriter (w : Nat) (s : State) : State :=
  if w = 256 then (s.links.map (·.1)).foldl (fun s n => settleLnk n s) s
  else
    witFlush (predReed s w) (witFlush w
      ((s.heds.map (·.1)).foldl (fun s h => if servingReed s h == some w then settleHed h s else s) s))

/-- A writer gives its next block to its port: a scan-out block that fits in its quota first; at the service port then the block buffer,
the snag report and the scrub; then the next block of a bobbin. -/
def blockIssue (w : Nat) (s0 : State) : State :=
  let s := settleWriter w s0
  if !portOpen s w then s
  else
    match freeTag s w with
    | none => s
    | some tag =>
      if w = 256 then
        match s.fw.bufOut with
        | some _ => issueBuf tag s
        | none =>
          if snagReady s && scanFits s 256 then issueSnag tag s
          else
            match zeroReady s with
            | some (t, n) => issueZero tag t n s
            | none => issueNext w s
      else
        match scanReady s w with
        | some h => if scanFits s w then issueScan w tag h s else issueNext w s
        | none => issueNext w s

/-- The originator releases the records of a stored block and acknowledges (R173): what waited for its retention follows. -/
def releaseAck (b : Nat) (s0 : State) : State :=
  let s := settleWriter ((bobWriter s0 (b / 8)).getD (b / 8)) s0
  let str := (releasing s b).bind (·.stream)
  let s1 := releaseBob b s
  match str with
  | some n =>
    if n = strMc then pump s1
    else if 0x10000 ≤ n && n < 0x10100 then witFlush (n - 0x10000) s1
    else if 0x10100 ≤ n && n < 0x10160 then settleLnk (n - 0x10100) s1
    else s1
  | none => s1

end Sys2Proof.Machine
end

