-- ==== Sys2Proof/Machine/Reports.lean ====
section
/-! DEFINITION. The reported state of the parts and the audit (R73 to R76). -/

namespace Sys2Proof.Machine

/-- Whether the Hub takes reports and audits: not in RESETTING, nor FAILED (R75). -/
def hubHears (s : State) : Bool := pst s pgHub != .resetting && pst s pgHub != .failed

/-- A Reed whose view leaves the states in which it works for FAILED, or for RETIRED where the report of FAILED was lost, is re-homed (R180). -/
def viewChanged (p : Nat) (was : PState) (s : State) : State :=
  let v := (part s p).view.st
  if 0x800 ≤ p && p < 0x900 && (was == .enabled || was == .quiescing) && (v == .failed || v == .retired) then
    startRehome (p - 0x800) false s
  else s

/-- The Hub writes a report into the view of a part: one that is not newer is ignored (R73). -/
def applyReport (p : Nat) (r : Report) (s : State) : State :=
  let v := (part s p).view
  if r.seq.toNat ≤ v.seq.toNat then s
  else viewChanged p v.st (updPart s p fun x => { x with view := { x.view with st := r.st, seq := r.seq, cause := r.cause } })

/-- Take the oldest report of a part off its channel. -/
def popReport (p : Nat) (s : State) : State := updPart s p fun x => { x with reports := x.reports.drop 1 }

/-- A report arrives: one that arrives corrupted is dropped and counted (R73); while the Hub does not hear, it waits in the part (R75). -/
def stateReport (p : Nat) (corrupted : Bool) (s : State) : State :=
  match (part s p).reports with
  | [] => s
  | r :: _ =>
    if !hubHears s then s
    else if corrupted then bump (popReport p s) pgHub 0x70 31 0 1
    else applyReport p r (popReport p s)

/-- Every report sent before an answer is applied before it (R74). -/
def drainReports (p : Nat) (s : State) : State :=
  (part s p).reports.foldl (fun s r => applyReport p r s) (updPart s p fun x => { x with reports := [] })

/-- The state-skew pick (Table RM-13a). -/
def skewPick (s : State) (p kind : Nat) : Pick :=
  let x := part s p
  let st := hubBeam s
  { typ := 0x0C, flags := BitVec.ofNat 8 (if undisciplined s pgHub then fUndisciplined else 0), stamp := BitVec.ofNat 64 st,
    payload := BitVec.ofNat 128 (pack [(0, 16, p), (16, 8, x.view.st.code), (24, 8, x.st.code), (32, 32, x.view.seq.toNat), (64, 32, x.seq.toNat),
      (96, 8, x.cause.toNat), (104, 8, kind)]), ext := 0 }

/-- The answer of a part is compared with its view; a disagreement is corrected and told (R74). -/
def compareView (p kind : Nat) (s : State) : Bool × State :=
  let x := part s p
  if x.view.st == x.st && x.view.seq == x.seq then (false, s)
  else
    let pick := skewPick s p kind
    let s1 := viewChanged p x.view.st (updPart s p fun x => { x with view := ⟨x.st, x.seq, x.cause, true⟩ })
    (true, bump (emitHub pick (setErr p 57 s1)) pgHub 0x48 31 0 1)

/-- Ask for a single audit of a part (R65, AUDIT_NOW); while audits do not run, a request is dropped (R75; notes/assumptions 60). -/
def askAudit (p kind : Nat) (s : State) : State :=
  if hubHears s then updPart s p fun x => { x with audits := x.audits ++ [kind] } else s

/-- The periodic audit begins at a multiple of 1 ms of Beam: every part is asked (R74). -/
def periodicAudit (s : State) : State :=
  match multipleAt s pgHub 4000000 with
  | none => s
  | some i =>
    if hubHears s && !s.audit.running && isNew s.audit.last i then
      { s with audit := { running := true, answered := [], skews := 0, last := some i } }
    else s

/-- The periodic audit has its last answer. -/
def auditDone (s : State) : State :=
  if s.audit.running && (homes s.inst).all fun p => s.audit.answered.contains p then
    let s1 := count { s with audit := { running := false, answered := [], skews := 0, last := s.audit.last } } pgHub 0x40 63 32 1
    regSetFld s1 pgHub 0x40 31 16 s.audit.skews
  else s

/-- A part answers an audit: a single one that was asked, or the periodic one. -/
def auditAnswer (p : Nat) (s : State) : State :=
  if !hubHears s then s
  else
    match (part s p).audits with
    | k :: rest => (compareView p k (drainReports p (updPart s p fun x => { x with audits := rest }))).2
    | [] =>
      if s.audit.running && !s.audit.answered.contains p then
        let (bad, s1) := compareView p 0 (drainReports p s)
        auditDone { s1 with audit := { s1.audit with answered := p :: s1.audit.answered, skews := s1.audit.skews + bn bad } }
      else s

/-- The Hub has been reset: audits under way end, single ones that were asked and not answered among them (notes/assumptions 60), and an
initial audit rebuilds every other view silently (R75). -/
def initialAudit (s : State) : State :=
  let s1 := { s with audit := { running := false, answered := [], skews := 0, last := some s.tim.raw } }
  (s1.parts.map (·.1)).foldl (fun s p =>
    let was := (part s p).view.st
    viewChanged p was (updPart s p fun (x : Part) =>
      { x with
        reports := [], audits := [],
        view := if x.view.st == x.st && x.view.seq == x.seq then x.view else { x.view with st := x.st, seq := x.seq, cause := x.cause } })) s1

end Sys2Proof.Machine
end

