-- ==== Sys2Proof/Machine/PartActions.lean ====
section
/-! DEFINITION. The part state machine (R68 to R72, Table RM-11) with what entering and leaving each state does to a part's work, and
the resets (R51, R343). -/

namespace Sys2Proof.Machine

/-- The kind of a home page. -/
def kindOf (s : State) (p : Nat) : PageKind := (pageKind s.inst p).getD .hub

/-! ### Facts (Table BU-1) -/

/-- The Ethernet tap's facts (R124). -/
def tapFacts (s : State) : Bool :=
  regGet s pgSync 0x60 != 0 && regGet s pgSync 0x70 != 0 && (!regBit s pgSync 0x58 8 || regGet s pgSync 0x68 != 0)

/-- Whether every fact that ENABLE requires is there (R336). -/
def factsPresent (s : State) (p : Nat) : Bool :=
  match kindOf s p with
  | .hed h => present s h
  | .reed _ => regFld s pgHub 0x100 15 0 != 0
  | .lnk n => regBit s (pgLnk n) 0x40 63 && regBit s pgSync 0x50 31
  | .sync => tapFacts s
  | .fw => s.fw.loaded
  | _ => true

/-- A refused ENABLE sets FACT_MISSING, and ETH_FACT at the tap. -/
def factMissing (p : Nat) (s : State) : State :=
  let s1 := setErr p 63 s
  if p = pgSync then setErr pgSync 4 s1 else s1

/-! ### Leaving and entering states -/

/-- The ways out of a state: by DISABLE, by reset, by fault. -/
inductive Exit where
  | disable | reset | fault
  deriving DecidableEq, Repr

/-- The successor of a Reed is told that it leaves (Table DL-3): by reset from any state in which there may be something to pass; a
disabled Reed without a successor to serve for it keeps its work. -/
def rehomeOnReset (r : Nat) (was : PState) (s : State) : State :=
  if was == .disabled && !isEnabled s (pgReed (succReed s r)) then s
  else startRehome r false s

/-- A Reed that fails loses the open-command slots of every Heddle that it serves (R141, Table DL-2). -/
def slotsFail (p : Nat) (how : Exit) (s : State) : State :=
  match kindOf s p with
  | .reed r =>
    if how == .fault then (s.heds.map (·.1)).foldl (fun t h => if servingReed s h == some r then loseIds h t else t) s else s
  | _ => s

/-- Every filter run is dropped: it is judged afresh later. -/
def dropRuns (s : State) : State :=
  let srcs := (s.trd.srcs.map fun (e : Nat × Src) => (e.1, { e.2 with runRaw := none })).filter fun (e : Nat × Src) => e.2 != Src.idle
  { s with trd := { s.trd with srcs := srcs } }

/-- A Reed is gone from its work: its adoption ends, its scan blocks wait again, its staging is lost (Table DL-3, R256, R216). -/
def reedGone (r : Nat) (s : State) : State := reedLost r (dropAdoption r (scanRedo r s))

/-- What follows when a part that is no Heddle has left a state, for each kind of part. -/
def afterLeaving (p : Nat) (how : Exit) (was : PState) (s : State) : State :=
  match kindOf s p with
  | .reed r =>
    match how with
    | .disable =>
      let s1 := beginDrain r s
      let s2 := if (adopt s1 r).phase == .returning then s1 else dropAdoption r s1
      if (adoptedBy s2 r).phase == .returning then startRehome r true s2 else s2
    | .reset => rehomeOnReset r was (reedGone r s)
    | .fault => reedGone r s
  | .wit n => if how == .disable then s else shareAbandon n s
  | .lnk n =>
    let s1 := if was == .enabled then timeDrop n (linkLeaves n s) else s
    if how == .fault then linkFails n s1 else s1
  | .sync => recheck (ethClear s)
  | .fw =>
    match how with
    | .disable => abandonHandover (updFw (fun f => { f with stopReq := true }) s)
    | .reset => fwReset (dropManifest (abandonHandover s))
    | .fault => dropManifest (abandonHandover s)
  | .trd _ => settle (dropRuns s)
  | .key => if how == .reset then clearSeed s else s
  | .hub =>
    match how with
    | .disable => beginDrain 256 s
    | .reset =>
      handoverHubReset (snagRestart (servoStop (updAdopt 256 (fun _ => Adopt.idle) (dropReads (scanOf 256 none) s))))
    | .fault => s
  | _ => s

/-- A part that is no longer ENABLED is not armed (R247). -/
def disarmPart (p : Nat) (s : State) : State := { s with stop := { s.stop with armed := s.stop.armed.filter (· != p) } }

/-- A part in reset is not locked to Beam (R91), and its points are lost to a calibration run (R97). -/
def resetPart (p : Nat) (s : State) : State := calPartReset p (updPart s p fun (x : Part) => { x with locked := false, asked := false })

/-- A Heddle leaves a state for another (Table CT-3, R235, R252): what one that leaves ENABLED by command accepts was accepted before. -/
def hedGone (h : Nat) (dst : PState) (cause : BitVec 8) (how : Exit) (s : State) : State :=
  let p := pgHed h
  let s1 := if isEnabled s p then disarmPart p (gateReleased h (if how == .fault then hedFails h s else s)) else s
  let s2 := transition p dst cause s1
  if how == .disable then s2 else lowerHold h (if how == .reset then resetPart p s2 else s2)

/-- Leave a state for another, at once. -/
def leaveNow (p : Nat) (dst : PState) (cause : BitVec 8) (how : Exit) (s : State) : State :=
  match kindOf s p with
  | .hed h => hedGone h dst cause how s
  | _ =>
    let was := pst s p
    let s1 := if was == .enabled then disarmPart p s else s
    let s2 := transition p dst cause (slotsFail p how s1)
    afterLeaving p how was (if how == .reset then resetPart p s2 else s2)

/-- A Heddle that is leaving ENABLED makes the transition once every record of the leaving is decided (R130). -/
def finishLeaving (h : Nat) (s : State) : State :=
  match (hed s h).leaving with
  | none => s
  | some (rst, cause) =>
    if isEnabled s (pgHed h) && hedSettled s h then
      hedGone h (if rst then .resetting else .quiescing) cause (if rst then .reset else .disable) (updHed h (fun x => { x with leaving := none }) s)
    else s

/-- What has come due in a Heddle before a command acts on it: its records are decided, the spans too while it is leaving ENABLED. -/
def hedFirst (h : Nat) (s : State) : State :=
  finishLeaving h (if (hed s h).leaving.isSome then settleSpans 32 h s else settleHed h s)

/-- A Heddle begins to leave ENABLED by DISABLE or PART_RESET: the transition waits for its records (R130). One that is leaving already only
changes to the reset. -/
def beginLeaving (h : Nat) (rst : Bool) (cause : BitVec 8) (s : State) : State :=
  match (hed s h).leaving with
  | some _ => if rst then updHed h (fun x => { x with leaving := some (true, cause) }) s else s
  | none => hedFirst h (updHed h (fun x => { x with leaving := some (rst, cause) }) (hedLeaves h s))

/-- Leave a state for another: a Heddle that is ENABLED takes its time. -/
def leave (p : Nat) (dst : PState) (cause : BitVec 8) (how : Exit) (s : State) : State :=
  match kindOf s p with
  | .hed h => if isEnabled s p && how != .fault then beginLeaving h (how == .reset) cause s else leaveNow p dst cause how s
  | _ => leaveNow p dst cause how s

/-- What has come due in the part of a page before an access or an event meets it: the records that waited. -/
def pageFirst (p : Nat) (s : State) : State :=
  match pageKind s.inst p with
  | some (.hed h) => hedFirst h s
  | some (.lnk n) => settleLnk n s
  | some (.reed r) => witFlush r s
  | _ => s

/-- A Reed that enters ENABLED serves what the loss of an adoption left unserved (notes/assumptions 79). -/
def serveAgain (r : Nat) (s : State) : State := updAdopt (succReed s r) (fun x => { x with unserved := false }) s

/-- Enter ENABLED. -/
def enterEnabled (p : Nat) (s : State) : State :=
  let was := pst s p
  let s1 := transition p .enabled 0x01 s
  match kindOf s p with
  | .hed h => testEnabled h (hedEnters h (stopEnters p s1))
  | .reed r => witRun r (stopEnters p (newVecKey r (copyShadow r (beginReturn r (serveAgain r s1)))))
  | .wit n => witRun (n / 4) s1
  | .lnk n => linkEnters n (stopEnters p s1)
  | .sync => recheck (ethClear s1)
  | .fw => if was == .quiescing then updFw (fun f => { f with stopReq := false }) s1 else fwEnters s1
  | .trd _ => reportLatches s1
  | _ => s1

/-! ### Actions of the host (Table RM-11) -/

/-- Whether a part accepts RETIRE (Table RM-4). -/
def retirable (s : State) (p : Nat) : Bool :=
  match kindOf s p with
  | .hed _ | .reed _ | .wit _ | .lnk _ | .sync => true
  | _ => false

/-- ENABLE: none where it is refused. -/
def actEnable (p : Nat) (s : State) : Option State :=
  match pst s p with
  | .disabled => if factsPresent s p then some (enterEnabled p s) else none
  | .enabled => some s
  | .quiescing => some (enterEnabled p s)
  | _ => none

/-- DISABLE; the Treadle holds no accepted work and is DISABLED at once (R278). -/
def actDisable (p : Nat) (s : State) : Option State :=
  match pst s p with
  | .disabled | .quiescing => some s
  | .enabled =>
    let s1 := leave p .quiescing 0x01 .disable s
    some (match kindOf s p with
      | .trd _ => transition p .disabled 0x03 s1
      | _ => s1)
  | _ => none

/-- PART_RESET, with the cause of its way in; the key store's is refused while a slot is live (R300). -/
def actReset (p : Nat) (cause : BitVec 8) (s : State) : Option State :=
  match pst s p with
  | .disabled | .enabled | .quiescing | .failed =>
    if p = pgKey && s.key.slots.any fun e => e.2.live then none else some (leave p .resetting cause .reset s)
  | _ => none

/-- RETIRE. -/
def actRetire (p : Nat) (s : State) : Option State :=
  match pst s p with
  | .disabled | .failed =>
    if retirable s p then
      let s1 := transition p .retired 0x01 s
      some (match kindOf s p with
        | .hed h => testRetired h s1
        | _ => s1)
    else none
  | _ => none

/-- REINSTATE. -/
def actReinstate (p : Nat) (s : State) : Option State :=
  match pst s p with
  | .retired =>
    if retirable s p then
      let s1 := resetPart p (transition p .resetting 0x01 s)
      some (match kindOf s p with
        | .hed h => updTests (fun x => { x with back := addOnce x.back h }) s1
        | _ => s1)
    else none
  | _ => none

/-- AUDIT_NOW: of this part, or of every part on the HUB page. -/
def actAudit (p : Nat) (s : State) : State :=
  if p = pgHub then (homes s.inst).foldl (fun s q => askAudit q 2 s) s else askAudit p 2 s

/-! ### Faults (R70, R20) -/

/-- A fatal fault of a part with its error bit and cause: a part that is FAILED or RETIRED only records it. -/
def fatal (p bit : Nat) (cause : BitVec 8) (s : State) : State :=
  let s1 := setErr p bit s
  match pst s p with
  | .failed | .retired => s1
  | _ => raise 31 (leave p .failed cause .fault s1)

/-- The records of a stream that are in no block yet are lost with their retention entries (R20): one report of them. -/
def retentionLost (p n : Nat) (known : Bool) (s : State) : State :=
  let x := strm s n
  let kept := x.committed + x.taken
  let lost := x.recs.drop kept
  let s1 := updStrm n (fun x => { x with recs := x.recs.take kept, runs := [] }) s
  if known && lost.isEmpty then s1
  else
    let typ := ((lost.head?).map (·.pick.typ.toNat)).getD 0
    let first := ((lost.head?).map (·.seq.toNat)).getD 0
    let unit := if 0x1000 ≤ p then 2 else if 0x800 ≤ p then 3 else if 0x100 ≤ p then 4 else 5
    let idx := if 0x1000 ≤ p then p - 0x1000 else if 0x800 ≤ p then p - 0x800 else if 0x100 ≤ p then p - 0x100 else if 0x10 ≤ p then p - 0x10 else 0
    workLost unit idx n typ first (if known then lost.length else 0xFFFFFFFF) s1

/-- FATAL_FAULT (R70): of a part's storage, of its handshakes, or of storage that holds accepted items, which are lost and reported (R20): a
stream's retention, or in the Hub the notice queue. During a block or fundamental reset there are none. -/
def fatalFault (p : Nat) (c : FaultCause) (s : State) : State :=
  match c with
  | .ecc => fatal p 60 0x04 s
  | .timeout => fatal p 59 0x05 s
  | .retention n known => retentionLost p n (known || s.booting) (fatal p 60 0x04 s)
  | .notices known =>
    let s1 := fatal p 60 0x04 s
    if p = pgHub then noticesLost (known || s.booting) s1 else s1

/-- The watchdog expires (R328). -/
def watchdogExpiry (s : State) : State :=
  if watchdogOut s then fatal pgFw 2 0x06 (bump s pgFw 0x68 63 48 1) else s

/-- A handover fails the core (Table FS-5, R344). -/
def handoverFatal (code : Nat) (cause : BitVec 8) (lose : Bool) (s : State) : State :=
  let s1 := fwResult code (updFw (fun f => { f with phase := 0, loaded := f.loaded && !lose }) (dropLoader s))
  raise 49 (raise 31 (leave pgFw .failed cause .fault (setErr pgFw 1 s1)))

/-- The reload of RELOAD is done (Table FS-5); it stands while the Hub is in RESETTING (R324). -/
def reloadComplete (s : State) : State :=
  if s.fw.phase = 3 && isEnabled s pgFw && pst s pgHub != .resetting then
    match reloadResult s with
    | none => s
    | some true => enterStart s
    | some false => handoverFatal 9 0x80 true s
  else s

/-- REJECT in START. -/
def fwReject (s : State) : State :=
  if s.fw.phase = 4 && isEnabled s pgFw && pst s pgHub != .resetting then handoverFatal 10 0x81 false s else s

/-- 1 ms passes in START without ACCEPT. -/
def acceptTimeout (s : State) : State := if s.fw.phaseRaw + 4000000 ≤ s.tim.raw then fwReject s else s

/-! ### QUIESCING ends -/

/-- Whether a part's outstanding work is finished (R71). -/
def quiet (s : State) (p : Nat) : Bool :=
  match kindOf s p with
  | .hed h => scanQuiet s h
  | .reed r => drained s r && witIdle s r && (adopt s r).phase == .idle && !portBusy s r
  | .wit n => (mfind (witReed s (n / 4)).busy n).isNone
  | .lnk n => (openThread (link s n)).isNone && listBuffered (link s n) = 0 && (link s n).held.isEmpty
  | .hub => drained s 256 && (adopt s 256).phase == .idle && !portBusy s 256
  | .key => s.key.rb.queue.isEmpty
  | .fw => false
  | _ => true

/-- QUIESCE_COMPLETE: the hand-off of a Reed's drain comes first (R180, R342). -/
def quiesceComplete (p : Nat) (s : State) : State :=
  if pst s p == .quiescing && quiet s p then
    let s1 := match kindOf s p with
      | .reed r => if workLeft s r then startRehome r true s else s
      | _ => s
    let s2 := transition p .disabled 0x03 s1
    match kindOf s p with
    | .hed h => lowerHold h s2
    | _ => s2
  else s

/-- HUB_QUIESCE_LIMIT passes (R72): once in a stay. -/
def quiesceOverdue (p : Nat) (s : State) : State :=
  let x := part s p
  if x.st == .quiescing && !x.overdue && x.quiesceAt + 4000 * regFld s pgHub 0x68 19 0 ≤ s.tim.raw then
    setErr p 58 (updPart s p fun x => { x with overdue := true })
  else s

/-- READY (CSR 0x7C1): in REQUEST the core is halted for the new image; in QUIESCING it is halted and the part is DISABLED (R323, R327). -/
def fwReady (s : State) : State :=
  if !fwGoing s then s
  else if pst s pgFw == .quiescing then
    transition pgFw .disabled 0x03 (updFw (fun f => { f with halted := true, stopReq := false }) (dropManifest (leaveCheckpoint s)))
  else if s.fw.phase = 2 then enterReload (leaveCheckpoint s)
  else s

/-! ### RESETTING ends (R68, R91) -/

/-- What a part's own reset has to do at its end. -/
def afterReset (p : Nat) (stay : Nat) (s : State) : State :=
  match kindOf s p with
  | .reed r => applyRecorded r s
  | .hub => handoverHubBack stay (payOwed (initialAudit (awaitPort 256 256 s)))
  | _ => s

/-- A part is initialised: a stamping part must be locked to Beam (R91). -/
def partInitialised (p : Nat) (s : State) : State :=
  let x := part s p
  if s.ready && x.st == .resetting && (x.locked || !isStamping p) then
    afterReset p (s.tim.raw - x.entered) (transition p .disabled 0x03 s)
  else s

/-! ### Block and fundamental reset (R51, Table PT-12) -/

/-- The state in a block or fundamental reset: everything as State.reset has it, but what Table PT-12 keeps; READY is low and every part
is in RESETTING. -/
def resetBlock (raw offset phase : Nat) (s : State) : State :=
  { State.reset with
    pending := s.pending, inst := s.inst, ready := false, booting := true, workHeld := s.workHeld,
    tim := { State.reset.tim with raw := raw, offset := offset, phase := phase },
    servo := { State.reset.servo with freshRaw := raw },
    cal := s.cal, free := s.free, salts := s.salts,
    tests := { State.reset.tests with frozen := some raw } }

/-- Block reset: the count goes on; an announced step whose AT has not passed is dropped, one whose AT has passed is in force (R85). -/
def blockReset (s : State) : State :=
  let offset := match s.tim.step with
    | some a => if a.raw ≤ s.tim.raw then a.newOff else s.tim.offset
    | none => s.tim.offset
  resetBlock s.tim.raw offset s.tim.phase s

/-- Fundamental reset: Beam starts from 0. -/
def fundamentalReset (s : State) : State := resetBlock 0 0 0 s

/-- VDD_FAL leaves its range (R330, R343): as a fundamental reset, with WORK_HELD lost and the words of the store alone kept. -/
def powerLoss (s : State) : State := { fundamentalReset s with workHeld := false, cal := calReload s.cal }

/-- Internal initialisation is complete: READY rises, every part is DISABLED, and the Hub leaves RESETTING (R51, R68, R224, R343, R84). -/
def blockInitialised (s : State) : State :=
  if !s.booting then s
  else
    let s1 := { s with ready := true, booting := false }
    let e := epochNow s1 - 1
    let s2 := updOwn (fun o => { o with cleared := e, confirm := e, lastClear := e }) { s1 with gov := { s1.gov with k := s1.tim.raw / govWindow s1 } }
    let s3 := if strapOk s2 then s2 else setErr pgBeam 0 s2
    if s.workHeld then workLost 5 0 0 0 0 0xFFFFFFFF s3 else s3

end Sys2Proof.Machine
end

