-- ==== Sys2Proof/Machine/Port.lean ====
section
/-! DEFINITION. The register port and the part-reset port: what the pages show, the order of the responses (Table RM-8), the effect of
every write and every action (R30, R31, R52, R57 to R71). -/

namespace Sys2Proof.Machine

/-! ### What the pages show -/

/-- PAGE_ID.TYPE (Table RM-3). -/
def PageKind.typeCode : PageKind → Nat
  | .hub => 1
  | .beam => 2
  | .sync => 3
  | .stop => 4
  | .key => 5
  | .fw => 6
  | .cal => 7
  | .trd _ => 8
  | .lnk _ => 0x10
  | .wit _ => 0x11
  | .reed _ => 0x12
  | .hed _ => 0x13

/-- PAGE_ID.INSTANCE (Table RM-3, R279). -/
def PageKind.number : PageKind → Nat
  | .lnk n | .wit n | .reed n | .hed n => n
  | _ => 0

/-- PAGE_ID.PARAM, as the owning chapters give it. -/
def PageKind.param (i : Inst) : PageKind → Nat
  | .sync => bn i.eth
  | .trd k => k
  | .lnk n => n / 24 * 64 + n % 24
  | .wit n => n / 4 * 256 + n % 4
  | .hed h => h / i.hpr * 256 + h % i.hpr * 16
  | _ => 0

/-- HUB_PAGE_CAPS bits [31:0] (Table RM-5). -/
def hubCaps (i : Inst) : Nat :=
  pack [(22, 7, i.sensors), (18, 4, i.targets - 1), (17, 1, bn i.eth), (12, 5, i.linksPerDir), (8, 4, i.hpr - 1), (0, 8, i.reeds - 1)]

/-- PAGE_CAPS.CAPS, as the owning chapters give it. -/
def PageKind.caps (i : Inst) : PageKind → Nat
  | .hub => hubCaps i
  | .beam => 1
  | .sync => if i.eth then 0x1F else 7
  | .stop => 7
  | .key => 7
  | .fw => 3
  | .cal => 0
  | .trd _ => 3
  | .lnk _ => 7
  | .wit _ => 0xF
  | .reed _ => 0
  | .hed _ => 3

/-- The read-only fields of the header (Tables RM-2 to RM-4, RM-9, RM-12). -/
def headerView (s : State) (k : PageKind) (p off : Nat) : Word :=
  let home := homeOf s.inst k p
  if off = 0 then packW [(48, 16, k.typeCode), (32, 16, k.number), (24, 8, 3), (16, 8, 1), (0, 16, k.param s.inst)]
  else if off = 8 then
    packW [(51, 13, home), (50, 1, bn (home == p)), (49, 1, bn (home == p && retirable s p)), (0, 32, k.caps s.inst)]
  else if off = 0x10 then packW [(56, 8, 3), (48, 8, 3), (0, 8, 1)]
  else if off = 0x20 then
    let v := (part s home).view
    packW [(32, 32, v.seq.toNat), (8, 8, v.cause.toNat), (7, 1, bn v.skewed), (0, 3, v.st.code)]
  else 0

/-- The read-only fields of the HUB page. -/
def hubView (s : State) (off : Nat) : Word :=
  if off = 0x120 then govStatus s
  else if off = 0x128 then packW [(48, 16, pwrEst s)]
  else if 0x240 ≤ off && off < 0x300 then verdictView s off
  else if 0x300 ≤ off && off < 0x500 then snsView s ((off - 0x300) / 8)
  else if 0xC00 ≤ off then bobView s (256 * 8 + (off - 0xC00) / 0x40) ((off - 0xC00) % 0x40)
  else 0

/-- The read-only fields of a REED page. -/
def reedView (s : State) (r off : Nat) : Word :=
  if off = 0x108 then reedGovStatus s r
  else if off = 0x148 then reedServe s r
  else if 0x800 ≤ off && off < 0xA00 then bobView s (r * 8 + (off - 0x800) / 0x40) ((off - 0x800) % 0x40)
  else witView s r off

/-- The read-only fields of a HED page. -/
def hedView (s : State) (h off : Nat) : Word :=
  if off = 0x178 then gatesView s h
  else if off = 0x180 then hedStopView s h
  else traceView s h off

/-- The fields that a page computes from the state. -/
def viewOf (s : State) (k : PageKind) (p off : Nat) : Word :=
  if off < 0x40 then headerView s k p off
  else
    match k with
    | .hub => hubView s off
    | .beam => beamView s off
    | .sync => syncView s off
    | .stop => stopView s off
    | .key => keyView s off
    | .fw => fwView s off
    | .cal => if off = 0x40 then calStatus s else 0
    | .trd 0 => trd0View s off
    | .trd j => if j = 1 || j = 7 then trdBitsView s j off else 0
    | .lnk n => linkView s n off
    | .wit _ => 0
    | .reed r => reedView s r off
    | .hed h => hedView s h off

/-- A word as Table TK-5 presents it: HED_LAST_MARK of a bound Heddle has its low 12 bits cleared. -/
def presented (s : State) (k : PageKind) (off : Nat) (w : Word) : Word :=
  match k with
  | .hed h => if off = 0x98 && (hedBound s h).isSome then BitVec.ofNat 64 (coarse12 w.toNat) else w
  | _ => w

/-- A register word as it reads, before anything that the read does. -/
def shown (s : State) (k : PageKind) (p off : Nat) : Word := presented s k off (regGet s p off ||| viewOf s k p off)

/-! ### Reads -/

/-- What a read clears (R12): the RC fields of the word, SKEWED of the part's view (R75), the counts of the slot shown (R316);
HIGH_WATER starts again at the entries in use. -/
def readClears (k : PageKind) (p off : Nat) (row : RegRow) (s : State) : State :=
  let s1 := if row.rc = 0 then s else regPut s p off (regGet s p off &&& ~~~row.rc)
  if off = 0x20 then updPart s1 (homeOf s.inst k p) fun (x : Part) => { x with view := { x.view with skewed := false } }
  else if k = .key && off = 0x88 then keyReadClear s1
  else
    match k with
    | .hed h => if off = 0x68 then highWater h s1 else s1
    | _ => s1

/-- A read that rules 1 and 2 let through: none where rule 5 refuses it (R331). -/
def readWord (k : PageKind) (p off : Nat) (row : RegRow) (s : State) : Option (Word × State) :=
  if k = .hub && off = 0x298 then some (testNext s)
  else if k = .trd 0 && 0x100 ≤ off && (off - 0x100) % 0x40 = 0 then
    let (n, s1) := claim ((off - 0x100) / 0x40) s
    some (BitVec.ofNat 64 n, s1)
  else if k = .cal && off = 0x50 then calAccess none s
  else some (shown s k p off, readClears k p off row s)

/-! ### Actions (Tables RM-11, BT-5, NT-5, DL-7, SS-12, TK-9, FS-11; R243, R297) -/

/-- UNBLIND (R228). -/
def unblindAction (s : State) : Option State :=
  if s.ver.blind then some { s with ver := { s.ver with blind := false } } else none

/-- TEST_RELOAD (R240, R243). -/
def testReloadAction (s : State) : Option State := if isEnabled s pgFw then some (testReload s) else none

/-- Whether a part takes its management actions: DISABLED or ENABLED. -/
def mayManage (s : State) (p : Nat) : Bool := pst s p == .disabled || pst s p == .enabled

/-- FLUSH on the page of writer w (Table DL-7). -/
def flushAction (w : Nat) (s : State) : Option State := if isEnabled s (pgWriter w) then some (flush w (settleWriter w s)) else none

/-- The page-specific actions of the HUB page. -/
def hubAction (code : Nat) (s : State) : Option State :=
  if code < 0x80 then none
  else if code ≤ 0x86 then
    if !mayManage s pgHub then none
    else if code = 0x80 then stepAction s
    else if code = 0x81 then setAction s
    else if code = 0x82 then rateAction s
    else if code = 0x83 then calTdcAction s
    else if code = 0x84 then servoStart sourcePresent s
    else if code = 0x85 then some (servoStop s)
    else servoRearm sourcePresent s
  else if code = 0xC0 then flushAction 256 s
  else if 0xC8 ≤ code && code < 0xD0 then if mayManage s pgHub then bobEnable (256 * 8 + (code - 0xC8)) s else none
  else if 0xD0 ≤ code && code < 0xD8 then if mayManage s pgHub then bobDisable (256 * 8 + (code - 0xD0)) s else none
  else if code = 0xE0 then unblindAction s
  else if code = 0xE1 then testReloadAction s
  else if code = 0xF0 then stopNow s
  else if code = 0xF1 then armStop s
  else if code = 0xF2 then disarmStop s
  else if code = 0xF3 then resumeStop s
  else none

/-- The page-specific actions of a REED page; BOB_ENABLE of an adopted slot in FAULT is performed by the alternate in every state of the
owner (R182, Table DL-7). -/
def reedAction (r code : Nat) (s : State) : Option State :=
  if code = 0x90 then flushAction r s
  else if 0x98 ≤ code && code < 0xA0 then
    let b := r * 8 + (code - 0x98)
    if mayManage s (pgReed r) || (bobAdopted s b && (bob s b).fault) then bobEnable b s else none
  else if 0xA0 ≤ code && code < 0xA8 then if mayManage s (pgReed r) then bobDisable (r * 8 + (code - 0xA0)) s else none
  else if code = 0xB0 then cardLoad r s
  else if code = 0xB1 then cardFetch r s
  else none

/-- The page-specific actions of the KEY page, while the key store is ENABLED. -/
def keyAction (code : Nat) (s : State) : Option State :=
  if !isEnabled s pgKey then none
  else if code = 0x80 then install s
  else if code = 0x81 then rotate s
  else if code = 0x82 then remove s
  else if code = 0x83 then release s
  else if code = 0x84 then scanRelease s
  else none

/-- The page-specific actions of the FW page. -/
def fwAction (code : Nat) (s : State) : Option State :=
  if code = 0x80 then fwLoad s
  else if code = 0x81 then fwHandover s
  else if code = 0x82 then hostEmit s
  else if code = 0x83 then hostScrubbed s
  else none

/-- An action on a home page: none where it is refused (Table RM-10); action 0x00 does nothing (notes/assumptions 59). -/
def doAction (k : PageKind) (p code : Nat) (cause : BitVec 8) (s : State) : Option State :=
  if code = 0 then some s
  else if code = 1 then actEnable p s
  else if code = 2 then actDisable p s
  else if code = 3 then actReset p cause s
  else if code = 4 then actRetire p s
  else if code = 5 then actReinstate p s
  else if code = 6 then some (actAudit p s)
  else
    match k with
    | .hub => hubAction code s
    | .reed r => reedAction r code s
    | .key => keyAction code s
    | .fw => fwAction code s
    | .lnk n => if code = 0x80 then ringRelease n s else none
    | _ => none

/-- Whether the condition of a PAGE_CTRL write holds (R69). -/
def condHolds (s : State) (p : Nat) (d : Word) : Bool := !bit d 31 || (part s p).seq.toNat == fld d 63 32

/-- A write of PAGE_CTRL: none where rule 6 refuses it (R69). -/
def ctrlWrite (k : PageKind) (p : Nat) (d : Word) (cause : BitVec 8) (s : State) : Option State :=
  if homeOf s.inst k p = p && condHolds s p d then doAction k p (fld d 7 0) cause s else none

/-- What a refused action does beyond R65: FACT_MISSING (R336), SEED_MISSING (R316), CONFIG (R114), also where SERVO_START is refused on another
ground as well (DESIGN CHOICE 61). -/
def ctrlRefused (k : PageKind) (p : Nat) (d : Word) (s : State) : State :=
  if !(homeOf s.inst k p = p && condHolds s p d) then s
  else
    let code := fld d 7 0
    if code = 1 then (if pst s p == .disabled && !factsPresent s p then factMissing p s else s)
    else if k = .key && isEnabled s pgKey && (code = 0x80 || code = 0x81) then noteSeed s
    else if k = .hub && code = 0x84 && mayManage s pgHub && startConfigBad s then setErr pgSync 0 s
    else s

/-! ### Writes -/

/-- The TDISP configuration lock (Table TK-2). -/
def tdiForbids (s : State) (k : PageKind) (p off : Nat) (d : Word) : Bool :=
  let live := fun t => (kslot s t).live
  let w := regGet s p off
  let bobLock := bit w 15 && live (fld w 21 16) && (bit d 15 != bit w 15 || fld d 21 16 != fld w 21 16)
  locked s &&
    match k with
    | .hed _ => off == 0x180 && bit w 6 && live (fld w 5 0) && fld d 6 0 != fld w 6 0
    | .hub => decide (0xC00 ≤ off) && off % 0x40 == 0 && bobLock
    | .reed r =>
      (decide (0x800 ≤ off) && decide (off < 0xA00) && off % 0x40 == 0 && bobLock) ||
        (off == 0x18 && fld d 7 0 == 0xB0 && condHolds s p d &&
          cardLocked s (mget CheckCard.zero s.cards (r * 64 + regFld s p 0x120 5 0)) (cardBuf s r))
    | .key => decide (0x100 ≤ off) && decide (off < 0x200) && ((bit w 54 && live (fld w 53 48)) || (bit d 54 && live (fld d 53 48)))
    | _ => false

/-- The Heddle ranges of a sensor map entry (R337). -/
def snsInRange (s : State) (d : Word) : Bool := fld d 43 32 ≤ fld d 55 44 && decide (fld d 55 44 < s.inst.reeds * s.inst.hpr)

/-- Rule 5: the ranges of the row, and the relations that a chapter states. -/
def inRange (s : State) (k : PageKind) (off : Nat) (row : RegRow) (d : Word) : Bool :=
  (row.checks.all fun (hi, lo, a, b) => a ≤ fld d hi lo && fld d hi lo ≤ b) &&
    match k with
    | .hub => !(decide (0x300 ≤ off) && decide (off < 0x500)) || snsInRange s d
    | .sync => off != 0x48 || fld d 7 0 < fld d 31 16
    | .stop => off != 0x90 || fld d 12 8 ≤ (if bit d 7 then 28 else 30)
    | .trd 0 => off != 0x40 || fld d 7 4 < s.inst.targets
    | _ => true

/-- The bits that a write of a word sets: no source has the number 0 or one beyond 2,040. -/
def rwBits (k : PageKind) (off : Nat) (row : RegRow) : Word :=
  if k = .trd 1 && (off = 0x48 || off = 0x50) then row.rw &&& ~~~1#64
  else if k = .trd 1 && (off = 0x40 + 0x18 * 31 + 8 || off = 0x40 + 0x18 * 31 + 16) then row.rw &&& 0x1FFFFFFFFFFFFFF#64
  else row.rw

/-- Store a write: whole, or as the set or clear address of a group (R10, R61). -/
def storeWord (k : PageKind) (p off : Nat) (row : RegRow) (d : Word) (s : State) : State :=
  let m := rwBits k off row
  if row.grp = 1 then regPut s p (off - 8) (regGet s p (off - 8) ||| (d &&& m))
  else if row.grp = 2 then regPut s p (off - 16) (regGet s p (off - 16) &&& ~~~(d &&& m))
  else if m = 0 then s
  else regPut s p off ((regGet s p off &&& ~~~m) ||| (d &&& m))

/-- A refused doorbell (R268). -/
def doorbellBad (s : State) : State := setErr pgTrd 1 (bump s pgTrd 0x48 15 0 1)

/-- A write to TRD 0 beyond its stored words: the rule that answers, and the state after. -/
def trd0Write (off : Nat) (row : RegRow) (d : Word) (s : State) : Nat × State :=
  if off = 0x50 then
    match doorbell (fld d 10 0) s with
    | some s1 => (7, s1)
    | none => (6, doorbellBad s)
  else if off = 0x58 then
    match dozeWrite (bit d 0) s with
    | some s1 => (7, s1)
    | none => (6, s)
  else if 0x100 ≤ off && (off - 0x100) % 0x40 = 8 then
    let t := (off - 0x100) / 0x40
    match complete t (fld d 10 0) s with
    | some s1 => (7, s1)
    | none => (6, completeRefused t (fld d 10 0) s)
  else (7, settle (storeWord (.trd 0) pgTrd off row d s))

/-- A write to TRD 1: the enable groups and the pending groups (R276, R280). -/
def trd1Write (off : Nat) (row : RegRow) (d : Word) (s : State) : State :=
  if 0x400 ≤ off && off < 0x700 && (off - 0x400) % 0x18 = 8 then pendingSet ((off - 0x400) / 0x18) d s
  else if 0x400 ≤ off && off < 0x700 && (off - 0x400) % 0x18 = 16 then pendingClr ((off - 0x400) / 0x18) d s
  else settle (storeWord (.trd 1) 9 off row d s)

/-- A write of a source word (R276, R281). -/
def trdSrcWrite (n : Nat) (d : Word) (s : State) : Nat × State :=
  match srcWriteWord s n d with
  | none => (5, s)
  | some w =>
    match srcWrite n w s with
    | some s1 => (7, s1)
    | none => (6, s)

/-- An access to the calibration set by a write of CAL_DATA (R331). -/
def calWrite (d : Word) (s : State) : Nat × State :=
  match calAccess (some d) s with
  | some (_, s1) => (7, s1)
  | none => (5, s)

/-- A write of BOB_TAIL (R177). -/
def tailRule (b : Nat) (d : Word) (s : State) : Nat × State :=
  match tailWrite b d s with
  | some s1 => (7, s1)
  | none => (5, s)

/-- A write to the HUB page beyond its stored words. -/
def hubWrite (off : Nat) (row : RegRow) (d : Word) (s : State) : Nat × State :=
  if off = 0x258 then
    match noticeIn (fld d 63 60) (fld d 45 32) (BitVec.ofNat 16 (fld d 15 0)) s with
    | some s1 => (7, s1)
    | none => (6, s)
  else if off = 0x240 then
    let s1 := settleEpochs s
    (7, carryEpochs s1 (storeWord .hub pgHub off row d s1))
  else if off = 0x110 then
    -- the window number is the raw count over W (R146), and the windows kept by their old numbers are forgotten (notes/assumptions 67)
    let s1 := storeWord .hub pgHub off row d s
    let s2 := (s1.hedGovs.map (·.1)).foldl (fun s h => updHedGov h (fun g => { g with past := [] }) s) s1
    (7, { s2 with gov := { s2.gov with k := s2.tim.raw / govWindow s2 } })
  else if 0xC00 ≤ off && (off - 0xC00) % 0x40 = 0x20 then tailRule (256 * 8 + (off - 0xC00) / 0x40) d s
  else (7, storeWord .hub pgHub off row d s)

/-- A write that rules 1 to 5 let through, PAGE_CTRL apart: the rule that answers, and the state after. -/
def writeWord (k : PageKind) (p off : Nat) (row : RegRow) (d : Word) (s : State) : Nat × State :=
  if off < 0x40 then (7, storeWord k p off row d s)
  else
    match k with
    | .hub => hubWrite off row d s
    | .key =>
      if 0x50 ≤ off && off < 0x70 then (7, updKey (fun y => { y with seed := mins y.seed ((off - 0x50) / 8) d }) s)
      else (7, storeWord k p off row d s)
    | .cal => if off = 0x50 then calWrite d s else (7, storeWord k p off row d s)
    | .trd 0 => trd0Write off row d s
    | .trd 1 => (7, trd1Write off row d s)
    | .trd j => if 2 ≤ j && j ≤ 6 then trdSrcWrite (504 * (j - 2) + (off - 0x40) / 8) d s else (7, s)
    | .reed r =>
      if 0x800 ≤ off && off < 0xA00 && (off - 0x800) % 0x40 = 0x20 then tailRule (r * 8 + (off - 0x800) / 0x40) d s
      else (7, storeWord k p off row d s)
    | .hed h =>
      if off = 0x118 then (7, cardMapWrite h false d s)
      else if off = 0x120 then (7, cardMapWrite h true d s)
      else (7, storeWord k p off row d s)
    | _ => (7, storeWord k p off row d s)

/-! ### The responses (Table RM-8) -/

/-- Rule 2: what a Hub in RESETTING or FAILED still answers. -/
def hubAnswers (s : State) (p off : Nat) (a : Access) : Bool :=
  !(pst s pgHub == .resetting || pst s pgHub == .failed) || (p == pgHub && (!a.wr || (off == 0x18 && fld a.data 7 0 == 3)))

/-- The rules of Table RM-8 on a write to a register that is there: the rule that answers, and the state after. -/
def writeRule (k : PageKind) (p off : Nat) (row : RegRow) (d : Word) (cause : BitVec 8) (s : State) : Nat × State :=
  if tdiForbids s k p off d then (3, s)
  else if row.held && pst s (homeOf s.inst k p) != .disabled then (4, s)
  else if !inRange s k off row d then (5, s)
  else if off = 0x18 then
    match ctrlWrite k p d cause s with
    | some s1 => (7, s1)
    | none => (6, ctrlRefused k p d s)
  else writeWord k p off row d s

/-- The page and the offset that an access names. -/
def Access.page (a : Access) : Nat := a.addr / 4096 % 8192

/-- The offset within the page, of a whole word. -/
def Access.off (a : Access) : Nat := a.addr % 4096 / 8 * 8

/-- An access against the rules of Table RM-8: the rule that answers, the data, and the state after. -/
def answer (a : Access) (cause : BitVec 8) (s : State) : Nat × Word × State :=
  match pageKind s.inst a.page with
  | none => (1, 0, s)
  | some k =>
    match regRow s.inst k a.off with
    | none => (1, 0, s)
    | some row =>
      if !hubAnswers s a.page a.off a then (2, 0, s)
      else if a.wr then
        let r := writeRule k a.page a.off row a.data cause s
        (r.1, 0, r.2)
      else
        match readWord k a.page a.off row s with
        | some (w, s1) => (7, w, s1)
        | none => (5, 0, s)

/-- The home page that a refusal under rule 6 is told to. -/
def Access.home (s : State) (a : Access) : Nat := ((pageKind s.inst a.page).map fun k => homeOf s.inst k a.page).getD pgHub

/-- What a response other than OK records: the counts, HUB_LAST_REJECT, and under rule 6 REFUSED_ACT and an audit (R65). -/
def reject (a : Access) (rule : Nat) (s : State) : State :=
  let s1 := bump s pgHub (if rule = 1 then 0x58 else 0x50) 31 0 1
  let s2 := regPut s1 pgHub 0x60 (packW [(62, 2, if rule = 1 then 2 else 1), (61, 1, bn a.wr), (57, 4, rule), (3, 22, a.addr / 8)])
  if rule = 6 then askAudit (a.home s) 1 (setErr (a.home s) 56 s2) else s2

/-- The response code of a rule (Table PT-2). -/
def rspOf (rule : Nat) : BitVec 2 := if rule = 7 then 0 else if rule = 1 then 2 else 1

/-- An access, answered, once what has come due in the part of its page is decided: the response, the data and the state after. -/
def answered (a : Access) (cause : BitVec 8) (s : State) : BitVec 2 × Word × State :=
  let r := answer a cause (pageFirst a.page s)
  (rspOf r.1, r.2.1, if r.1 = 7 then r.2.2 else reject a r.1 r.2.2)

/-- An access at the register port (R30, R64). -/
def serve (a : Access) (s : State) : State :=
  let r := answered a 0x01 s
  { r.2.2 with port := { r.2.2.port with rsp := r.1, rdata := r.2.1 } }

/-- An access arrives: it waits while READY is low; one that finds an access waiting is ignored (R31). -/
def portAccess (a : Access) (s : State) : State :=
  if s.ready then serve a s
  else
    match s.port.held with
    | none => { s with port := { s.port with held := some a } }
    | some _ => bump (setPortErr pgHub 7 s) pgHub 0x78 31 0 1

/-- The part-reset port serves a request: a PAGE_CTRL write of 0x03 (R52, R69). -/
def servePrst (p : Nat) (s : State) : State :=
  let r := answered ⟨true, p * 4096 + 0x18, 3⟩ 0x02 s
  { r.2.2 with port := { r.2.2.port with prst := r.1 } }

/-- A request at the part-reset port: as an access of the register port it waits while READY is low (R31, R52); one that finds a request waiting
is ignored (notes/assumptions 22). -/
def partResetPort (p : Nat) (s : State) : State :=
  if s.ready then servePrst p s
  else
    match s.port.prstHeld with
    | none => { s with port := { s.port with prstHeld := some p } }
    | some _ => s

/-- READY rises: what waited is served (R31, R52), the register access first (notes/assumptions 22). -/
def serveHeld (s : State) : State :=
  let s1 := match s.port.held with
    | none => s
    | some a => serve a { s with port := { s.port with held := none } }
  match s1.port.prstHeld with
  | none => s1
  | some p => servePrst p { s1 with port := { s1.port with prstHeld := none } }

/-- REG_OVERLAP (R31). -/
def regOverlap (s : State) : State := bump (setPortErr pgHub 7 s) pgHub 0x78 31 0 1

/-- The word that an action's PAGE_CTRL write carries (Table RM-10). -/
def ctrlWord (code : Nat) (cond : Option (BitVec 32)) : Word :=
  match cond with
  | none => BitVec.ofNat 64 code
  | some e => packW [(32, 32, e.toNat), (31, 1, 1), (0, 8, code)]

/-- The access of an action on a page. -/
def ctrlAccess (p code : Nat) (cond : Option (BitVec 32)) : Access := ⟨true, p * 4096 + 0x18, ctrlWord code cond⟩

/-- An action written to PAGE_CTRL. -/
def action (p code : Nat) (cond : Option (BitVec 32)) (s : State) : State := portAccess (ctrlAccess p code cond) s

/-- The access of a write to a register. -/
def writeAccess (p off : Nat) (d : Word) : Access := ⟨true, p * 4096 + off, d⟩

/-- The access of a read of a register. -/
def readAccess (p off : Nat) : Access := ⟨false, p * 4096 + off, 0⟩

end Sys2Proof.Machine
end

