-- ==== Sys2Proof/Machine/Operands.lean ====
section
/-! DEFINITION. The frame of every command: the raw count advances, the command acts, and what the state then implies follows. Which
operands name something that was instantiated (R5, R58). -/

namespace Sys2Proof.Machine

/-! ### What the operands name -/

/-- A Heddle that was instantiated. -/
def hedThere (i : Inst) (h : Nat) : Bool := decide (h < i.reeds * i.hpr)

/-- A Reed that was instantiated. -/
def reedThere (i : Inst) (r : Nat) : Bool := decide (r < i.reeds)

/-- A Reed, or 256 for the Hub and its service write port. -/
def writerThere (i : Inst) (w : Nat) : Bool := decide (w < i.reeds) || w == 256

/-- A witness array that was instantiated. -/
def witThere (i : Inst) (n : Nat) : Bool := decide (n < 4 * i.reeds)

/-- A link port that was instantiated. -/
def linkThere (i : Inst) (n : Nat) : Bool := decide (n < 96) && decide (n % 24 < i.linksPerDir)

/-- A bobbin slot, 8 times its owner plus the slot's number. -/
def bobThere (i : Inst) (b : Nat) : Bool := writerThere i (b / 8)

/-- An input of the Treadle (Table PT-1). -/
def inputThere (n : Nat) : Bool := decide (100 ≤ n) && decide (n ≤ 2040)

/-- A source of the Treadle. -/
def sourceThere (n : Nat) : Bool := decide (1 ≤ n) && decide (n ≤ 2040)

/-- The sources that Falcen's parts raise (Table BU-7). -/
def falcenSources : List Nat :=
  [10, 11, 12, 16, 17, 18, 19, 20, 21, 22, 24, 25, 26, 27, 30, 31, 35, 36, 37, 39, 40, 45, 46, 47, 48, 49, 50, 51, 60, 61]

/-! ### Time -/

/-- The raw count advances (R78); it stands at 0 under a bad strap (R84). -/
def newRaw (dt : Nat) (s : State) : Nat := if strapOk s then (s.tim.raw + dt) % two64 else s.tim.raw

/-- The time after dt bt: a rate asked for takes force at the next update of the Gray count (R81). -/
def newTime (dt : Nat) (s : State) : Time :=
  let raw := newRaw dt s
  let t := { s.tim with raw := raw, phase := newPhase dt s, line := newLine raw s }
  if raw / 16 = s.tim.raw / 16 then t else { t with rate := s.tim.ratePend.getD s.tim.rate, ratePend := none }

/-- The raw count advances, and with it OWN_CLEARED_THRU over the epochs that passed (R222). -/
def advance (dt : Nat) (s : State) : State :=
  let s1 := { s with tim := newTime dt s }
  if s.booting then s1
  else settleFrom (clearedBack s + ((s1.tim.raw / epochLen s : Nat) - (s.tim.raw / epochLen s : Nat) : Int)) s1

/-! ### What follows every command -/

/-- WORK_HELD (R343): a retention buffer, a check queue or the notice queue holds an item. -/
def holdsWork (s : State) : Bool :=
  (s.strs.any fun (e : Nat × Strm) => !e.2.recs.isEmpty) || (s.wits.any fun (e : Nat × WitReed) => !e.2.checks.isEmpty) || !s.ver.queue.isEmpty

/-- The owner of the emission has become the host: source 48 (R325). -/
def ownerChange (was : Nat) (s : State) : State :=
  if fwOwner s = 1 && was != 1 then raise 48 (updVer (fun v => { v with owed := min v.owed 1 }) s) else s

/-- An unserved interval ends where a Reed serves the Heddle again (R346). -/
def endLapses (s : State) : State := { s with lapsed := s.lapsed.filter fun (h : Nat) => (servingReed s h).isNone }

/-- What the state implies after a command: settled epochs, ended intervals, the owner of the emission, the tests' clock, the reads that
can start, and WORK_HELD. -/
def finish (was : Nat) (s : State) : State :=
  if s.booting then s
  else
    let s1 := settleReads (freezeTests (ownerChange was (endLapses (settleEpochs s))))
    { s1 with workHeld := holdsWork s1 }

/-- A command of dt and effect f. -/
def always (dt : Nat) (f : State → State) (s : State) : State :=
  let s1 := advance dt s
  finish (fwOwner s1) (f s1)

/-- A command that has no effect while the block initialises. -/
def act (dt : Nat) (f : State → State) (s : State) : State := if s.booting then advance dt s else always dt f s

/-! ### The forms of a meaning -/

/-- The outcome of a command of the model. -/
abbrev Out := Host.Outcome State Fault Refusal

/-- A command whose operand is there acts; where the operand was not instantiated (R5, R58) nothing is there to act, and only time passes
(DESIGN CHOICE 2). -/
def only (there : Bool) (dt : Nat) (f : State → State) (s : State) : Out := .next (act dt (fun t => if there then f t else t) s)

/-- The same for a command that acts while the block initialises, too. -/
def onlyEver (there : Bool) (dt : Nat) (f : State → State) (s : State) : Out := .next (always dt (fun t => if there then f t else t) s)

/-- A command of a page, once what has come due in its part is decided. -/
def onPage (p dt : Nat) (f : State → State) (s : State) : Out := only (isHome s.inst p) dt (fun t => f (pageFirst p t)) s

/-- A command of a Heddle, once what has come due in it is decided; a Heddle that is leaving ENABLED may be done with it. -/
def onHed (h dt : Nat) (f : State → State) (s : State) : Out :=
  only (hedThere s.inst h) dt (fun t => finishLeaving h (f (hedFirst h t))) s

/-- A command of a Reed, once what has come due in its stream is decided. -/
def onReed (r dt : Nat) (f : State → State) (s : State) : Out := only (reedThere s.inst r) dt (fun t => f (witFlush r t)) s

/-- A command of a link port, once what has come due in it is decided. -/
def onLink (n dt : Nat) (f : State → State) (s : State) : Out := only (linkThere s.inst n) dt (fun t => f (settleLnk n t)) s

/-- A write of a register, by its word of the window. -/
def write (dt p off : Nat) (d : Word) (s : State) : Out := .next (always dt (portAccess (writeAccess p off d)) s)

/-- A read of a register. -/
def read (dt p off : Nat) (s : State) : Out := .next (always dt (portAccess (readAccess p off)) s)

/-- An action, written to PAGE_CTRL of a page. -/
def command (dt p code : Nat) (cond : Option (BitVec 32)) (s : State) : Out := .next (always dt (action p code cond) s)

/-- The page of a thing with a number: a number past the last of its kind spells no page of it (R58, DESIGN CHOICE 16). -/
def pageOf (ok : Bool) (p : Nat) : Nat := if ok then p else pgNone

end Sys2Proof.Machine
end

