-- ==== Sys2Proof/Machine/ExecCore.lean ====
section
/-! DEFINITION. The management core, calibration, storage errors and power (R62, R105, R318 to R335, R343): what each command does. -/

namespace Sys2Proof.Machine

/-- LOAD (R322). The LOAD action clears core SRAM, checks and loads the image, and sets LOADED or LOAD_FAIL. -/
def execLoad (dt : Nat) (cond : Option (BitVec 32)) (s : State) : Out := command dt pgFw 0x80 cond s

/-- LOAD_COMPLETE (R322). The cold load's checks finish, and LOADED or LOAD_FAIL results. -/
def execLoadComplete (dt : Nat) (s : State) : Out := .next (act dt Machine.loadComplete s)

/-- HANDOVER (R323). The HANDOVER action starts verifying the image at FW_NEXT_BASE. -/
def execHandover (dt : Nat) (cond : Option (BitVec 32)) (s : State) : Out := command dt pgFw 0x81 cond s

/-- VERIFY_COMPLETE (R323). The handover image checks finish, so HANDOVER_REQ is set or the handover fails. -/
def execVerifyComplete (dt : Nat) (s : State) : Out := .next (act dt Machine.verifyComplete s)

/-- FW_READY (R323). Firmware writes READY, halting the core for a handover or ending a DISABLE. -/
def execFwReady (dt : Nat) (s : State) : Out := .next (act dt Machine.fwReady s)

/-- HANDOVER_TIMEOUT (R323). HANDOVER_US passes in REQUEST, so the handover fails with code 8. -/
def execHandoverTimeout (dt : Nat) (s : State) : Out := .next (act dt Machine.handoverTimeout s)

/-- RELOAD_COMPLETE (R323). The body is reloaded and its hash is compared, so the new image starts or the core fails. -/
def execReloadComplete (dt : Nat) (s : State) : Out := .next (act dt Machine.reloadComplete s)

/-- FW_ACCEPT (R323). New firmware writes ACCEPT, completing the handover. -/
def execFwAccept (dt : Nat) (s : State) : Out := .next (act dt Machine.fwAccept s)

/-- FW_REJECT (R323). New firmware writes REJECT, so the core fails with CHECKPOINT_REJECTED. -/
def execFwReject (dt : Nat) (s : State) : Out := .next (act dt Machine.fwReject s)

/-- ACCEPT_TIMEOUT (R323). 1 ms passes in START without ACCEPT, so the core fails with CHECKPOINT_REJECTED. -/
def execAcceptTimeout (dt : Nat) (s : State) : Out := .next (act dt Machine.acceptTimeout s)

/-- WATCHDOG_KICK (R328). A write to CSR 0x7C0 restarts the watchdog at WDOG_US. -/
def execWatchdogKick (dt : Nat) (s : State) : Out := .next (act dt Machine.watchdogKick s)

/-- WATCHDOG_EXPIRY (R328). The watchdog expires, causing a fatal fault of the core with CAUSE 0x06. -/
def execWatchdogExpiry (dt : Nat) (s : State) : Out := .next (act dt Machine.watchdogExpiry s)

/-- FW_EMIT (R318). Firmware writes CSR 0x7C2 to emit the n oldest notices into stream retention. -/
def execFwEmit (dt : Nat) (n : Word) (s : State) : Out := .next (act dt (Machine.fwEmit n.toNat) s)

/-- BLOCK_BUFFER_TRANSFER (R319). Firmware writes CSR 0x7C4 to transfer the block buffer to or from host memory. -/
def execBlockBufferTransfer (dt : Nat) (word : Word) (buffer : Block) (s : State) : Out := .next (act dt (bufTransfer word buffer) s)

/-- EMIT (R326). The EMIT action makes the host emit the oldest COUNT notices while it owns emission. -/
def execEmit (dt : Nat) (cond : Option (BitVec 32)) (s : State) : Out := command dt pgFw 0x82 cond s

/-- HOST_SCRUBBED (R326). The HOST_SCRUBBED action marks an ERASED slot scrubbed and places a SCRUB_COMPLETE report. -/
def execHostScrubbed (dt : Nat) (cond : Option (BitVec 32)) (s : State) : Out := command dt pgFw 0x83 cond s

/-- CAL_DATA (R331). An access to CAL_DATA reads or writes a calibration word and advances INDEX. -/
def execCalData (dt : Nat) (w : Option Word) (s : State) : Out :=
  match w with
  | some d => write dt pgCal 0x50 d s
  | none => read dt pgCal 0x50 s

/-- CAL_STORE_WRITE (R330). A pending calibration word is written to the non-volatile store and verified. -/
def execCalStoreWrite (dt : Nat) (verified : Bool) (s : State) : Out := .next (act dt (Machine.calStoreWrite verified) s)

/-- ECC_CORR (R62). A corrected single-bit ECC error in a part's storage sets ECC_CORR in its PAGE_ERR, is recorded in PAGE_EVENT and
raises source 60 unless masked. -/
def execEccCorr (dt page : Nat) (s : State) : Out := only (isHome s.inst page) dt (setErr page 61) s

/-- POWER_LOSS (R343). VDD_FAL leaves its range or is removed, losing WORK_HELD and leaving in the calibration store only the words
written so far. -/
def execPowerLoss (dt : Nat) (s : State) : Out := .next (always dt Machine.powerLoss s)

/-- FRAME_CRC (R105). A received mesh time frame that fails its CRC, or carries an unused kind, is taken, dropped and counted in
FRAMES_DROPPED, and a CRC failure sets FRAME_CRC. -/
def execFrameCrc (dt port : Nat) (frame : Beat) (s : State) : Out := only (linkThere s.inst port) dt (timeFrame port frame) s

end Sys2Proof.Machine
end

