-- ==== Sys2Proof/Machine/ExecDelivery.lean ====
section
/-! DEFINITION. The governor and delivery (R32 to R35, R154, R170 to R191): what each command does. -/

namespace Sys2Proof.Machine

/-- A governor window begins when the raw count has reached it (R146, R154); waiting blocks are demand, deferred tiles may be admitted, and the
records that waited for the window are decided. -/
def govStart (s : State) : State :=
  if (s.gov.k + 1) * govWindow s ≤ s.tim.raw then
    let s1 := (reedList s).foldl (fun s r => admitWaiting r s) (waitingDemand (windowStart s))
    (s1.heds.map (·.1)).foldl (fun s h => settleHed h s) s1
  else s

/-- The oldest record of the open run of a stream, if it has one. -/
def openRunRec (x : Strm) : Option (Rec × Run) :=
  match x.runs.getLast? with
  | none => none
  | some r => if r.closed.isSome then none else (x.recs[x.recs.length - r.n]?).map fun (e : Rec) => (e, r)

/-- The flush wait of an open run is over (R171). -/
def flushExpiry (n : Nat) (s0 : State) : State :=
  let s := settleWriter (strWriter s0 n) s0
  match openRunRec (strm s n) with
  | none => s
  | some (e, r) => if e.accepted + 2 ^ r.flush ≤ s.tim.raw then closeRun n s else s

/-- GOVERNOR_WINDOW_START (R154). At each window start, quotas, stretch and energy credits take force and deferred tiles may be
admitted. -/
def execGovernorWindowStart (dt : Nat) (s : State) : Out := .next (act dt govStart s)

/-- FLUSH_WAIT_EXPIRY (R171). The oldest record of an open run reaches 2^FLUSH_LOG bt, so the run is closed into a block. -/
def execFlushWaitExpiry (dt stream : Nat) (s : State) : Out := .next (act dt (flushExpiry stream) s)

/-- FLUSH (R171). The FLUSH action closes every open run of the Reed or service packer at once. -/
def execFlush (dt page : Nat) (cond : Option (BitVec 32)) (s : State) : Out := command dt page (if page = pgHub then 0xC0 else 0x90) cond s

/-- BLOCK_ISSUE (R171). A closed block whose conditions all hold is claimed, sealed if confidential, and its eight beats are sent. -/
def execBlockIssue (dt writer : Nat) (s : State) : Out := only (writerThere s.inst writer) dt (Machine.blockIssue writer) s

/-- MEMORY_COMPLETION (R34). A completion arrives on MC_REQ and is taken: OK commits the block, ERROR retries it, and late or stray
completions are counted. -/
def execMemoryCompletion (dt writer : Nat) (tag : BitVec 4) (error : Bool) (s : State) : Out :=
  only (writerThere s.inst writer) dt (Machine.memoryCompletion writer tag.toNat error) s

/-- COMPLETION_TIMEOUT (R34). A tag's 50 µs deadline passes without a completion, so the block counts as not stored and is retried or
faulted. -/
def execCompletionTimeout (dt writer : Nat) (tag : BitVec 4) (s : State) : Out :=
  only (writerThere s.inst writer) dt (Machine.completionTimeout writer tag.toNat) s

/-- RELEASE_ACKNOWLEDGE (R173). An originator acknowledges release of committed records, and the writer advances HEAD to deliver them. -/
def execReleaseAcknowledge (dt bob : Nat) (s : State) : Out := only (bobThere s.inst bob) dt (releaseAck bob) s

/-- SHADOW_ACKNOWLEDGE (R173). The successor acknowledges a new shadow HEAD of a bobbin. -/
def execShadowAcknowledge (dt bob : Nat) (s : State) : Out := only (bobThere s.inst bob) dt (shadowAck bob) s

/-- BOB_ENABLE (R190). The BOB_ENABLE action latches a bobbin slot's configuration and enables it, or clears its FAULT. -/
def execBobEnable (dt page : Nat) (slot : BitVec 3) (cond : Option (BitVec 32)) (s : State) : Out :=
  command dt page ((if page = pgHub then 0xC8 else 0x98) + slot.toNat) cond s

/-- BOB_DISABLE (R190). The BOB_DISABLE action stops new claims on a slot while outstanding blocks complete. -/
def execBobDisable (dt page : Nat) (slot : BitVec 3) (cond : Option (BitVec 32)) (s : State) : Out :=
  command dt page ((if page = pgHub then 0xD0 else 0xA0) + slot.toNat) cond s

/-- BOB_TAIL (R177). A consumer write of BOB_TAIL frees slots, clears FULL, or is REFUSED or ignored as R177 gives. -/
def execBobTail (dt page : Nat) (slot : BitVec 3) (tail : Word) (s : State) : Out :=
  write dt page ((if page = pgHub then 0xC20 else 0x820) + 0x40 * slot.toNat) tail s

/-- WRITE_PORT_IDLE (R181). The predecessor's write port has no block outstanding, so the alternate leaves WAIT_PORT and reads the scan
slots. -/
def execWritePortIdle (dt reed : Nat) (s : State) : Out := only (writerThere s.inst reed) dt (portIdle reed) s

/-- SCAN_COMPLETE (R183). Every scan read is done or faulted; the alternate sets WRITE, writes voids and enters SERVING. -/
def execScanComplete (dt reed : Nat) (s : State) : Out := only (writerThere s.inst reed) dt (scanDone reed) s

/-- RETAINED_RUN_REPORT (R184). An originator reports its retained run, and the alternate releases duplicates and replays the rest with
REPLAYED. -/
def execRetainedRunReport (dt reed stream : Nat) (s : State) : Out := only (writerThere s.inst reed) dt (runReport reed stream) s

/-- HAND_BACK (R185). In RETURNING, with nothing outstanding and HEAD at WRITE, the alternate hands indices, slots and routes back to
the predecessor. -/
def execHandBack (dt reed : Nat) (s : State) : Out := only (reedThere s.inst reed) dt (Machine.handBack reed) s

end Sys2Proof.Machine
end

