-- ==== Sys2Proof/Machine/ExecKeys.lean ====
section
/-! DEFINITION. Tenants, keys and the memory read port (R35 to R37, R298 to R317): what each command does. -/

namespace Sys2Proof.Machine

/-- INSTALL (R302). The INSTALL action derives generation 1 and K_tag, moving a FREE slot to ACTIVE. -/
def execInstall (dt : Nat) (cond : Option (BitVec 32)) (s : State) : Out := command dt pgKey 0x80 cond s

/-- ROTATE (R302). The ROTATE action derives a new generation and makes the current one old. -/
def execRotate (dt : Nat) (cond : Option (BitVec 32)) (s : State) : Out := command dt pgKey 0x81 cond s

/-- REMOVE (R307). The REMOVE action sets Tf, fences the slot's records, flushes its runs and enters FENCING. -/
def execRemove (dt : Nat) (cond : Option (BitVec 32)) (s : State) : Out := command dt pgKey 0x82 cond s

/-- RELEASE (R302). The RELEASE action returns a scrubbed ERASED slot to FREE. -/
def execRelease (dt : Nat) (cond : Option (BitVec 32)) (s : State) : Out := command dt pgKey 0x83 cond s

/-- SCAN_RELEASE (R306). The SCAN_RELEASE action ends SCAN_HOLD for the slot. -/
def execScanRelease (dt : Nat) (cond : Option (BitVec 32)) (s : State) : Out := command dt pgKey 0x84 cond s

/-- GEN_RETIRED (R306). The old generation's retirement conditions all hold, so it is zeroized and reported. -/
def execGenRetired (dt : Nat) (slot : BitVec 6) (s : State) : Out := .next (act dt (Machine.genRetired slot.toNat) s)

/-- FENCE_COMPLETE (R308). No record accepted for the slot is left unissued, so the slot enters DRAINING. -/
def execFenceComplete (dt : Nat) (slot : BitVec 6) (s : State) : Out := .next (act dt (Machine.fenceComplete slot.toNat) s)

/-- SLOT_DRAIN_COMPLETE (R308). No block of the slot is outstanding or faulted, so keys are zeroized, bobbins disabled and the slot
enters ERASED. -/
def execSlotDrainComplete (dt : Nat) (slot : BitVec 6) (s : State) : Out := .next (act dt (Machine.slotDrainComplete slot.toNat) s)

/-- DRAIN_OVERDUE (R308). A faulted bobbin holds the slot in DRAINING for 50 µs, so DRAIN_OVERDUE is set. -/
def execDrainOverdue (dt : Nat) (slot : BitVec 6) (s : State) : Out := .next (act dt (Machine.drainOverdue slot.toNat) s)

/-- SCRUB_COMPLETE (R309). Every zero write of the scrub completes OK, so SCRUBBED is set and source 46 is raised. -/
def execScrubComplete (dt : Nat) (slot : BitVec 6) (s : State) : Out := .next (act dt (Machine.scrubComplete slot.toNat) s)

/-- KEY_ECC (R310). An uncorrectable error in slot storage moves the slot to ERASED and reports WORK_LOST. -/
def execKeyEcc (dt : Nat) (slot : BitVec 6) (known : Bool) (s : State) : Out := .next (act dt (Machine.keyEcc slot.toNat known) s)

/-- READBACK_REQUEST (R36). A readback request is authorised and its block is read through the memory read port. -/
def execReadbackRequest (dt : Nat) (rid : BitVec 16) (addr : BitVec 48) (s : State) : Out :=
  .next (act dt (Machine.readbackRequest rid addr) s)

/-- READBACK_COMPLETE (R305). The readback's data is decrypted and verified, and the block or an error status is returned. -/
def execReadbackComplete (dt : Nat) (s : State) : Out := .next (act dt Machine.readbackComplete s)

/-- READ_BEAT (R35). A beat of a memory read returns on MD_REQ, or is dropped as a protocol error. -/
def execReadBeat (dt : Nat) (tag : BitVec 4) (beat : BitVec 3) (_last error : Bool) (data : Beat) (s : State) : Out :=
  .next (act dt (Machine.readBeat tag.toNat beat error data) s)

/-- READ_TIMEOUT (R35). A memory read is not finished within 50 µs, so it ends ERROR. -/
def execReadTimeout (dt : Nat) (tag : BitVec 4) (s : State) : Out := .next (act dt (Machine.readTimeout tag.toNat) s)

end Sys2Proof.Machine
end

