-- ==== Sys2Proof/Machine/ExecLinks.lean ====
section
/-! DEFINITION. Link ports (R284 to R297): what each command does. -/

namespace Sys2Proof.Machine

/-- LINK_STATE_CHANGE (R286). LP_STATE changes; the topology state moves, link events are accepted and time use may be dropped. -/
def execLinkStateChange (dt port : Nat) (state : BitVec 2) (tdc : Tdc) (s : State) : Out :=
  onLink port dt (Machine.linkStateChange port state tdc) s

/-- ABSENT_TIMER (R286). A planned port's absence timer expires in AWAITING, so it becomes ABSENT and raises source 51. -/
def execAbsentTimer (dt port : Nat) (s : State) : Out := onLink port dt (Machine.absentTimer port) s

/-- HEADER_CAPTURE (R289). A mirrored frame header is captured into the ring and passed to the ledger where it qualifies. -/
def execHeaderCapture (dt port : Nat) (item : Hdr) (s : State) : Out := onLink port dt (Machine.headerCapture port item) s

/-- UNACK_ENTRY (R292). The link layer offers one unacknowledged-list entry, which is buffered for the open thread. -/
def execUnackEntry (dt port : Nat) (coll chunk : BitVec 32) (s : State) : Out :=
  onLink port dt (Machine.unackEntry port coll chunk) s

/-- UNACK_END (R292). LP_UNACK_END closes the thread's list with an end pick. -/
def execUnackEnd (dt port : Nat) (s : State) : Out := onLink port dt (Machine.unackEnd port) s

/-- LIST_TIMEOUT (R292). UNACK_US passes before LP_UNACK_END, so the thread closes with TIMEOUT. -/
def execListTimeout (dt port : Nat) (s : State) : Out := onLink port dt (Machine.listTimeout port) s

/-- LIST_ENTRY_PICK (R292). Retention has room, so a buffered list entry becomes a broken-thread entry pick. -/
def execListEntryPick (dt port : Nat) (s : State) : Out := only (linkThere s.inst port) dt (settleLnk port) s

/-- RING_RELEASE (R290). The RING_RELEASE action ends a link-failure freeze and emits link event 0x07. -/
def execRingRelease (dt port : Nat) (cond : Option (BitVec 32)) (s : State) : Out :=
  command dt (pageOf (port < 96) (pgLnk port)) 0x80 cond s

end Sys2Proof.Machine
end

