-- ==== Sys2Proof/Machine/ExecMesh.lean ====
section
/-! DEFINITION. Pod time over mesh and Ethernet (R44, R105 to R124): what each command does. -/

namespace Sys2Proof.Machine

/-- HELLO_SEND (R106). At each interval multiple on an up planned port, a HELLO carrying the version range and selection is sent. -/
def execHelloSend (dt port : Nat) (s : State) : Out := only (linkThere s.inst port) dt (Machine.helloSend port) s

/-- HELLO (R106). A received HELLO updates negotiation, may adopt a version or find none, and is judged against the plan. -/
def execHello (dt port : Nat) (frame : Beat) (s : State) : Out := only (linkThere s.inst port) dt (timeFrame port frame) s

/-- PDREQ_SEND (R108). Half an interval after each multiple, a port in state 4 or 5 sends a PDREQ. -/
def execPdreqSend (dt port : Nat) (s : State) : Out := only (linkThere s.inst port) dt (Machine.pdreqSend port) s

/-- PDREQ (R108). A received PDREQ is answered with a PDRESP. -/
def execPdreq (dt port : Nat) (frame : Beat) (s : State) : Out := only (linkThere s.inst port) dt (timeFrame port frame) s

/-- PDRESP (R108). A received PDRESP provides t2 and t4 of a peer-delay exchange. -/
def execPdresp (dt port : Nat) (frame : Beat) (s : State) : Out := only (linkThere s.inst port) dt (timeFrame port frame) s

/-- PDFOLLOW_SEND (R108). Once the PDRESP egress stamp is known, the responder sends a PDFOLLOW. -/
def execPdfollowSend (dt port : Nat) (s : State) : Out := only (linkThere s.inst port) dt (Machine.pdfollowSend port) s

/-- PDFOLLOW (R108). A received PDFOLLOW completes an exchange, updating the link delay, the ratio and the port state. -/
def execPdfollow (dt port : Nat) (frame : Beat) (s : State) : Out := only (linkThere s.inst port) dt (timeFrame port frame) s

/-- PDELAY_TIMEOUT (R108). A PDRESP or PDFOLLOW does not arrive within one interval, so the exchange is discarded. -/
def execPdelayTimeout (dt port : Nat) (s : State) : Out := only (linkThere s.inst port) dt (Machine.pdelayTimeout port) s

/-- ROOT_SYNC_SEND (R110). At each interval multiple, the root sends a SYNC on every ready port. -/
def execRootSyncSend (dt : Nat) (s : State) : Out := .next (act dt Machine.rootSyncSend s)

/-- SYNC (R111). A SYNC received on the parent port is forwarded on every other ready port. -/
def execSync (dt port : Nat) (frame : Beat) (s : State) : Out := only (linkThere s.inst port) dt (timeFrame port frame) s

/-- FOLLOW (R113). A received FOLLOW updates candidacy and parent choice and yields a servo measurement. -/
def execFollow (dt port : Nat) (frame : Beat) (s : State) : Out := only (linkThere s.inst port) dt (timeFrame port frame) s

/-- FOLLOW_SEND (R111). Once the parent's FOLLOW and a port's egress stamp are known, the forwarded FOLLOW is sent with corrected
residence. -/
def execFollowSend (dt port : Nat) (s : State) : Out := only (linkThere s.inst port) dt (Machine.followSend port) s

/-- FOLLOW_TIMEOUT (R111). The parent FOLLOW does not arrive within one interval of the SYNC, so the forward is abandoned. -/
def execFollowTimeout (dt : Nat) (s : State) : Out := .next (act dt Machine.followTimeout s)

/-- ROOT_LOST (R112). No port has a fresh FOLLOW for 3 root intervals, so ROOT_LOST is set and the source is lost. -/
def execRootLost (dt : Nat) (s : State) : Out := .next (act dt Machine.rootLost s)

/-- TX_TIMESTAMP (R44). An LP_TXTS transition stamps the egress plane of the next time frame sent. -/
def execTxTimestamp (dt port : Nat) (tdc : Tdc) (s : State) : Out := only (linkThere s.inst port) dt (Machine.txTimestamp port tdc) s

/-- RX_TIMESTAMP (R44). An LP_RXTS transition stamps the ingress plane of a received time frame. -/
def execRxTimestamp (dt port : Nat) (tdc : Tdc) (s : State) : Out := only (linkThere s.inst port) dt (Machine.rxTimestamp port tdc) s

/-- SERVO_START (R115). The SERVO_START action gives the rate to the servo and enters ACQUIRING or LOCKED. -/
def execServoStart (dt : Nat) (cond : Option (BitVec 32)) (s : State) : Out := command dt pgHub 0x84 cond s

/-- SERVO_STOP (R115). The SERVO_STOP action returns the servo to IDLE and the rate to the host. -/
def execServoStop (dt : Nat) (cond : Option (BitVec 32)) (s : State) : Out := command dt pgHub 0x85 cond s

/-- SERVO_REARM (R115). The SERVO_REARM action restarts acquisition and clears ACQ_DONE. -/
def execServoRearm (dt : Nat) (cond : Option (BitVec 32)) (s : State) : Out := command dt pgHub 0x86 cond s

/-- ETH_TIMESTAMP (R121). An ETH_TS_REQ transition stamps a PTP event message for pairing. -/
def execEthTimestamp (dt : Nat) (sent : Bool) (msg : BitVec 4) (domain : BitVec 8) (seqId : BitVec 16) (seq : BitVec 2) (tdc : Tdc) (s : State) : Out :=
  only s.inst.eth dt (Machine.ethTimestamp sent msg domain seqId seq tdc) s

/-- PTP_SYNC (R121). A received Sync provides t1 (one-step) and t2. -/
def execPtpSync (dt : Nat) (hdr : PtpHdr) (origin : PtpTime) (s : State) : Out := only s.inst.eth dt (Machine.ptpSync hdr origin) s

/-- PTP_FOLLOW_UP (R121). A received Follow_Up provides t1 of a two-step Sync. -/
def execPtpFollowUp (dt : Nat) (hdr : PtpHdr) (origin : PtpTime) (s : State) : Out := only s.inst.eth dt (Machine.ptpFollowUp hdr origin) s

/-- PTP_DELAY_RESP (R121). A received Delay_Resp provides t4 and completes an Ethernet measurement. -/
def execPtpDelayResp (dt : Nat) (hdr : PtpHdr) (receive : PtpTime) (reqClock : BitVec 64) (reqPort : BitVec 16) (s : State) : Out :=
  only s.inst.eth dt (Machine.ptpDelayResp hdr receive reqClock reqPort) s

/-- PTP_ANNOUNCE (R120). A received Announce feeds the best-master comparison. -/
def execPtpAnnounce (dt : Nat) (hdr : PtpHdr) (master : PtpMaster) (s : State) : Out :=
  only s.inst.eth dt (Machine.ptpAnnounce hdr master) s

/-- PTP_IGNORED_MESSAGE (R120). An unsupported PTP message is received and counted in ETH_IGNORED. -/
def execPtpIgnoredMessage (dt len : Nat) (s : State) : Out := only s.inst.eth dt (ptpIgnored len) s

/-- PTP_DELAY_REQ_SEND (R120). At the randomised Delay_Req interval, the ordinary clock sends a Delay_Req. -/
def execPtpDelayReqSend (dt : Nat) (s : State) : Out := only s.inst.eth dt Machine.ptpDelayReqSend s

/-- ANNOUNCE_TIMEOUT (R118). The announce receipt timeout or 3 missing Syncs leaves no master, so the Ethernet source is lost. -/
def execAnnounceTimeout (dt : Nat) (s : State) : Out := only s.inst.eth dt Machine.announceTimeout s

end Sys2Proof.Machine
end

