-- ==== Sys2Proof/Machine/ExecParts.lean ====
section
/-! DEFINITION. Resets, the register port and part state (R31, R51, R52, R64 to R75): what each command does. -/

namespace Sys2Proof.Machine

/-- FUNDAMENTAL_RESET (R51). FND_RST_N is asserted: every part enters RESETTING, Beam, retention and tenant slots are cleared, and
boundary wires go to 0. -/
def execFundamentalReset (dt : Nat) (s : State) : Out := .next (always dt Machine.fundamentalReset s)

/-- BLOCK_RESET (R51). BLK_RST_N is asserted: every part enters RESETTING, retention and slots are cleared, and the raw count keeps
running undisciplined. -/
def execBlockReset (dt : Nat) (s : State) : Out := .next (always dt Machine.blockReset s)

/-- INITIALISATION_COMPLETE (R70). A part finishes initialisation, locks to Beam and moves from RESETTING to DISABLED; after resets
READY rises. -/
def execInitialisationComplete (dt : Nat) (who : Option Nat) (s : State) : Out :=
  match who with
  | none => .next (always dt (fun s => if s.booting then serveHeld (blockInitialised s) else s) s)
  | some p => onPage p dt (partInitialised p) s

/-- PART_RESET_PORT_REQUEST (R52). Licensee logic requests a part reset through PRST_REQ, which has the effect of a PART_RESET PAGE_CTRL
write. -/
def execPartResetPortRequest (dt page : Nat) (s : State) : Out := .next (always dt (partResetPort page) s)

/-- REG_OVERLAP (R31). REG_REQ changes while an access is outstanding: the earlier access completes and the change is ignored and
recorded as a port error. -/
def execRegOverlap (dt : Nat) (s : State) : Out := .next (always dt Machine.regOverlap s)

/-- REGISTER_WRITE (R64). A write to a register that has no row of its own is answered OK, REFUSED or UNMAPPED under the response order
and then applied. -/
def execRegisterWrite (dt addr : Nat) (data : Word) (s : State) : Out := .next (always dt (portAccess ⟨true, addr, data⟩) s)

/-- READ_CLEAR_REGISTER (R10). A read of an RC field returns the field and then clears it, including SKEWED for every page of the part. -/
def execReadClearRegister (dt addr : Nat) (s : State) : Out := .next (always dt (portAccess ⟨false, addr, 0⟩) s)

/-- ENABLE (R70). The PAGE_CTRL ENABLE action moves a part to ENABLED when its facts are present, or is REFUSED with FACT_MISSING. -/
def execEnable (dt page : Nat) (cond : Option (BitVec 32)) (s : State) : Out := command dt page 1 cond s

/-- DISABLE (R70). The PAGE_CTRL DISABLE action moves an ENABLED part to QUIESCING, where it refuses new work. -/
def execDisable (dt page : Nat) (cond : Option (BitVec 32)) (s : State) : Out := command dt page 2 cond s

/-- PART_RESET (R70). The PAGE_CTRL PART_RESET action moves a part to RESETTING while its retained records are kept. -/
def execPartReset (dt page : Nat) (cond : Option (BitVec 32)) (s : State) : Out := command dt page 3 cond s

/-- RETIRE (R70). The PAGE_CTRL RETIRE action moves a DISABLED or FAILED retirable part to RETIRED. -/
def execRetire (dt page : Nat) (cond : Option (BitVec 32)) (s : State) : Out := command dt page 4 cond s

/-- REINSTATE (R70). The PAGE_CTRL REINSTATE action moves a RETIRED part to RESETTING. -/
def execReinstate (dt page : Nat) (cond : Option (BitVec 32)) (s : State) : Out := command dt page 5 cond s

/-- AUDIT_NOW (R70). The PAGE_CTRL AUDIT_NOW action starts an audit of the part, or of every part when written on the HUB page. -/
def execAuditNow (dt page : Nat) (cond : Option (BitVec 32)) (s : State) : Out := command dt page 6 cond s

/-- FATAL_FAULT (R70). An uncorrectable ECC error, an internal timeout or another named fault moves a part to FAILED and raises source
31. -/
def execFatalFault (dt page : Nat) (cause : FaultCause) (s : State) : Out :=
  onlyEver (isHome s.inst page) dt (fun t => Machine.fatalFault page cause (pageFirst page t)) s

/-- QUIESCE_COMPLETE (R70). A QUIESCING part finishes its outstanding work, including drain and hand-off, and reaches DISABLED. -/
def execQuiesceComplete (dt page : Nat) (s : State) : Out := onPage page dt (Machine.quiesceComplete page) s

/-- QUIESCE_OVERDUE (R72). HUB_QUIESCE_LIMIT passes while a part is in QUIESCING, and QUIESCE_OVERDUE is set. -/
def execQuiesceOverdue (dt page : Nat) (s : State) : Out := onPage page dt (Machine.quiesceOverdue page) s

/-- STATE_REPORT (R73). A part's transition report reaches the Hub and updates the part's view, or is dropped when it is stale or
corrupted. -/
def execStateReport (dt page : Nat) (corrupted : Bool) (s : State) : Out :=
  onPage page dt (Machine.stateReport page corrupted) s

/-- PERIODIC_AUDIT (R74). At each 1 ms Beam multiple, the Hub asks every part for its state word and STATE_SEQ. -/
def execPeriodicAudit (dt : Nat) (s : State) : Out := .next (act dt Machine.periodicAudit s)

/-- AUDIT_ANSWER (R74). A part's audit answer arrives; if it differs from the view, the Hub corrects the view, sets SKEW, emits record
0x0C and raises source 30. -/
def execAuditAnswer (dt page : Nat) (s : State) : Out := onPage page dt (Machine.auditAnswer page) s

end Sys2Proof.Machine
end

