-- ==== Sys2Proof/Machine/ExecStop.lean ====
section
/-! DEFINITION. The stop (R245 to R263): what each command does. -/

namespace Sys2Proof.Machine

/-- STOP_NOW (R263). The STOP_NOW action launches a tree stop with Tc equal to its launch stamp, or is absorbed while armed. -/
def execStopNow (dt : Nat) (cond : Option (BitVec 32)) (s : State) : Out := command dt pgHub 0xF0 cond s

/-- ARM (R247). The ARM action arms a time-triggered stop at STOP_TT_AT in every ENABLED part. -/
def execArm (dt : Nat) (cond : Option (BitVec 32)) (s : State) : Out := command dt pgHub 0xF1 cond s

/-- DISARM (R263). The DISARM action disarms every part and returns the phase to IDLE. -/
def execDisarm (dt : Nat) (cond : Option (BitVec 32)) (s : State) : Out := command dt pgHub 0xF2 cond s

/-- RESUME (R259). The RESUME action stamps Tr, sends it on the tree and lowers STOP_OUT. -/
def execResume (dt : Nat) (cond : Option (BitVec 32)) (s : State) : Out := command dt pgHub 0xF3 cond s

/-- STOP_IN (R49). STOP_IN is recognised and launches a tree stop, is absorbed, or is counted as ignored. -/
def execStopIn (dt : Nat) (tdc : Tdc) (s : State) : Out := .next (act dt (stopInPin tdc) s)

/-- TT_COMPARE (R247). The Hub's Beam reaches the armed Tc, so it launches the tree carrying Tc and raises source 35. -/
def execTtCompare (dt : Nat) (s : State) : Out := .next (act dt Machine.ttCompare s)

/-- ARMED_PART_FIRE (R247). An armed part's own Beam reaches Tc, and the part cuts. -/
def execArmedPartFire (dt page : Nat) (s : State) : Out := onPage page dt (armedFire page) s

/-- STOP_TREE_ARRIVAL (R246). A stop pulse reaches a Heddle or link port; the part learns Tc, raises the hold, accepts markers and
starts its freeze grace. -/
def execStopTreeArrival (dt page : Nat) (s : State) : Out := onPage page dt (treeArrival page) s

/-- HOLD_ACK (R252). ET_HOLD_ACK rises, so the Heddle stamps it, shows HOLD 2 and starts scan-out where enabled. -/
def execHoldAck (dt hed : Nat) (tdc : Tdc) (s : State) : Out := onHed hed dt (Machine.holdAck hed tdc) s

/-- HOLD_TIMEOUT (R252). HOLD_LIMIT passes without ET_HOLD_ACK, so the Heddle shows HOLD 3 and raises source 36. -/
def execHoldTimeout (dt hed : Nat) (s : State) : Out := onHed hed dt (Machine.holdTimeout hed) s

/-- SCAN_WORD (R256). The engine supplies a scan word; it is buffered, and a full or last buffer is written as a scan block. -/
def execScanWord (dt hed : Nat) (word : BitVec 32) (last : Bool) (s : State) : Out :=
  onHed hed dt (Machine.scanWord hed word last) s

/-- SCAN_WORD_TIMEOUT (R256). A scan word is not supplied within HOLD_LIMIT, so the scan ends with code 3. -/
def execScanWordTimeout (dt hed : Nat) (s : State) : Out := onHed hed dt (Machine.scanWordTimeout hed) s

/-- GRACE_EXPIRY (R253). The link grace after Tc ends or the after-cut entries fill, so the ring freezes and a kind 2 marker is
accepted. -/
def execGraceExpiry (dt port : Nat) (s : State) : Out := onLink port dt (Machine.graceExpiry port) s

/-- CUT_COMPLETE (R250). Every hold and scan is resolved and every link port frozen, so Ts is set and the phase moves to SNAGGING or
STOPPED. -/
def execCutComplete (dt : Nat) (s : State) : Out := .next (act dt Machine.cutComplete s)

/-- SNAG_WRITTEN (R257). The snag report's blocks are written, so the phase moves to STOPPED and source 37 is raised. -/
def execSnagWritten (dt : Nat) (s : State) : Out := .next (act dt Machine.snagWritten s)

/-- RESUME_ARRIVAL (R259). Tr reaches a part; Heddles accept resume markers and lower the hold, Reeds restart gather timers and links
unfreeze. -/
def execResumeArrival (dt page : Nat) (s : State) : Out := onPage page dt (Machine.resumeArrival page) s

/-- RESUME_COMPLETE (R259). Every Heddle and link port has acted on the resume, so the phase returns to IDLE. -/
def execResumeComplete (dt : Nat) (s : State) : Out := .next (act dt Machine.resumeComplete s)

end Sys2Proof.Machine
end

