-- ==== Sys2Proof/Machine/ExecTaps.lean ====
section
/-! DEFINITION. The engine taps (R28, R99 to R102, R126 to R150, R195): what each command does. -/

namespace Sys2Proof.Machine

/-- An issue captured on the tap (R28): what was lost before it is counted; outside ENABLED nothing is opened (R126), and only the loss is
kept (DESIGN CHOICE 65); one that is leaving ENABLED takes nothing new (R130). A selvedge marker opens the windows of the tests that wait on the
Heddle (Table VT-9). -/
def issueCaptured (h : Nat) (it : Issue) (s : State) : State :=
  let s0 := updHed h (fun x => { x with seqIss := some it.seq }) s
  if !hedActive s h then s0
  else
    let s1 := issueItem h it (captureLost h (seqLost (hed s h).seqIss it.seq) s0)
    if it.mark = 1 && !it.addrOnly then testMarker h (beamAt s (pgHed h) (tapRaw s (ptIssue h) it.tdc)) s1 else s1

/-- A retire captured on the tap (R28); once the Heddle leaves ENABLED, it is as one on a disabled context (R130). -/
def retireCaptured (h : Nat) (it : Retire) (s : State) : State :=
  let s0 := updHed h (fun x => { x with seqRet := some it.seq }) s
  if !hedActive s h then s0
  else retireItem h it (captureLost h (seqLost (hed s h).seqRet it.seq) s0)

/-- COMMAND_ISSUE (R129). An issue is captured on the engine tap and opens a full or light entry, is counted as untracked, or closes a
reused tag. -/
def execCommandIssue (dt hed : Nat) (item : Issue) (s : State) : Out := onHed hed dt (issueCaptured hed item) s

/-- COMMAND_RETIRE (R130). A retire is captured and moves its open entry to RETIRED, or yields an end-only span as an unmatched retire. -/
def execCommandRetire (dt hed : Nat) (item : Retire) (s : State) : Out := onHed hed dt (retireCaptured hed item) s

/-- SPAN_ACCEPT (R132). At least 32 bt after the retire stamp, with identifiers returned by the Reed, the span is built, accepted and
the entry freed. -/
def execSpanAccept (dt hed : Nat) (s : State) : Out := onHed hed dt (Machine.spanAccept hed) s

/-- EVENT_LINE_TRANSITION (R147). A transition on an ET_EVT line advances its 48-bit event counter. -/
def execEventLineTransition (dt hed : Nat) (line : BitVec 5) (s : State) : Out := only (hedThere s.inst hed) dt (eventLine hed line) s

/-- STALL_REASON_CHANGE (R150). ET_STALL changes; the stall accumulators update and an on-change stall sample may be emitted. -/
def execStallReasonChange (dt hed : Nat) (reason : BitVec 8) (tdc : Tdc) (s : State) : Out :=
  onHed hed dt (stallChange hed reason tdc) s

/-- STALL_SAMPLE_PERIODIC (R150). At each periodic stall instant, a stall sample is emitted for each enabled context whose card sets
STL_LOG. -/
def execStallSamplePeriodic (dt hed : Nat) (s : State) : Out := onHed hed dt (stallPeriodic hed) s

/-- COUNTER_SAMPLE (R148). At each sampling instant, the Heddle latches its cycle count and counters and emits counter-sample picks. -/
def execCounterSample (dt hed edges : Nat) (s : State) : Out :=
  onHed hed dt (fun s => Machine.counterSample hed (addEdges hed edges s)) s

/-- CLOCK_STATE_CHANGE (R100). ET_CLKSTATE changes, opening or closing a clock gap and emitting a clock-gap pick when enabled. -/
def execClockStateChange (dt hed : Nat) (state : BitVec 2) (edges : Nat) (tdc : Tdc) (s : State) : Out :=
  onHed hed dt (fun s => clockState hed state tdc (addEdges hed edges s)) s

/-- GAP_LIMIT (R101). A gap's duration or cycle count reaches 0xFFFF_FFFF, so it closes with CONTINUES and a new gap opens. -/
def execGapLimit (dt hed edges : Nat) (s : State) : Out :=
  onHed hed dt (fun s => Machine.gapLimit hed (addEdges hed edges s)) s

/-- HED_CARD_MAP (R145). A write of a card-map byte brings a pattern card into force now or at the next marker, or sets BAD_CARD. -/
def execHedCardMap (dt hed : Nat) (high : Bool) (data : Word) (s : State) : Out :=
  write dt (pageOf (hed < 4096) (pgHed hed)) (if high then 0x120 else 0x118) data s

/-- OUTPUT_BEAT (R195). An output beat is captured and mirrored to the serving Reed, or counted as unmatched. -/
def execOutputBeat (dt hed : Nat) (item : OutBeat) (s : State) : Out := onHed hed dt (Machine.outputBeat hed item) s

end Sys2Proof.Machine
end

