-- ==== Sys2Proof/Machine/ExecTime.lean ====
section
/-! DEFINITION. Beam on the die, the sensors and the TDISP state (R47, R81 to R98, R298): what each command does. -/

namespace Sys2Proof.Machine

/-- STEP (R85). The Beam STEP action computes a new offset from BEAM_STEP_DELTA and announces a step instant AT. -/
def execStep (dt : Nat) (cond : Option (BitVec 32)) (s : State) : Out := command dt pgHub 0x80 cond s

/-- SET (R85). The Beam SET action computes an offset that makes Beam equal BEAM_SET_VALUE and announces AT. -/
def execSet (dt : Nat) (cond : Option (BitVec 32)) (s : State) : Out := command dt pgHub 0x81 cond s

/-- RATE (R81). The Beam RATE action sets the generator's rate offset from BEAM_RATE_REQ. -/
def execRate (dt : Nat) (cond : Option (BitVec 32)) (s : State) : Out := command dt pgHub 0x82 cond s

/-- CAL_TDC (R96). The CAL_TDC action starts self-calibration of every TDC stamping point. -/
def execCalTdc (dt : Nat) (cond : Option (BitVec 32)) (s : State) : Out := command dt pgHub 0x83 cond s

/-- CAL_RUN_COMPLETE (R96). The calibration run ends: new linearity values and conditions are stored, CAL_DUE clears and failures are
counted. -/
def execCalRunComplete (dt : Nat) (words : List (Nat × Word)) (failed : List Nat) (s : State) : Out :=
  .next (act dt (Machine.calRunComplete words failed) s)

/-- STEP_AT (R85). The raw-count update equal to AT arrives, stamping parts switch to the new offset and the Hub emits record 0x0E. -/
def execStepAt (dt : Nat) (s : State) : Out := .next (act dt Machine.stepAt s)

/-- REFERENCE_LOSS (R82). No REF_CLK edge arrives for 8 nominal periods: the generator enters holdover, clears DISC and emits record
kind 3. -/
def execReferenceLoss (dt : Nat) (s : State) : Out := .next (act dt (fun s => recheck (Machine.referenceLoss s)) s)

/-- REFERENCE_RETURN (R83). After 1,024 good reference periods, the generator re-bases without a jump, clears HOLDOVER and emits record
kind 4. -/
def execReferenceReturn (dt : Nat) (s : State) : Out := .next (act dt (fun s => recheck (Machine.referenceReturn s)) s)

/-- SERIAL_MESSAGE (R90). A serial refresh message reaches a stamping part, which at its AT compares, adopts or reports a mismatch or
CRC failure. -/
def execSerialMessage (dt page : Nat) (msg : BitVec 192) (s : State) : Out :=
  only (isHome s.inst page) dt (Machine.serialMessage page msg) s

/-- STATUS_REQUEST (R91). A part leaving RESETTING asks the Hub for a status message so that it can lock. -/
def execStatusRequest (dt page : Nat) (s : State) : Out := only (isHome s.inst page) dt (Machine.statusRequest page) s

/-- SENSOR_SAMPLE (R47). A sample arrives on SNS_REQ; it is stamped and trimmed, or dropped if unmapped, and it may raise CAL_DUE. -/
def execSensorSample (dt ch : Nat) (voltage : Bool) (val : BitVec 16) (tdc : Tdc) (s : State) : Out :=
  only (ch < 64) dt (Machine.sensorSample ch voltage val tdc) s

/-- TDISP_STATE_CHANGE (R298). TDI_STATE changes: the configuration lock follows it, source 47 is raised, and leaving RUN starts
removals and clears the seed. -/
def execTdispStateChange (dt : Nat) (state : BitVec 2) (s : State) : Out := .next (act dt (tdispChange state) s)

end Sys2Proof.Machine
end

