-- ==== Sys2Proof/Machine/ExecTreadle.lean ====
section
/-! DEFINITION. The Treadle (R265 to R282): what each command does. -/

namespace Sys2Proof.Machine

/-- An input has been stable for D (R267). -/
def filterElapsed (n : Nat) (s : State) : State :=
  match (trdSrc s n).runRaw with
  | none => s
  | some (r, _) => if trdOn s && r + srcFilter s n ≤ s.tim.raw then settle (acceptLevel n s) else s

/-- The first event of a coalesced source is COAL_US old (R269). -/
def coalesceElapsed (n : Nat) (s : State) : State :=
  let x := trdSrc s n
  if trdOn s && 0 < x.unrep && !x.pend && decide (x.first + 4000 * fld (srcWord s n) 27 12 ≤ beamOf s pgTrd) then settle (srcBatch n s) else s

/-- The caught transition of an enabled source wakes the dozing Treadle (R277). -/
def latchWakes (n : Nat) (s : State) : State :=
  match (trdSrc s n).latch with
  | none => s
  | some st => if s.trd.doze && isEnabled s pgTrd && srcEnabled s n then wakeUp n st s else s

/-- TREADLE_INPUT_EDGE (R267). A transition on TRD_IN starts or ends a run for the glitch filter. -/
def execTreadleInputEdge (dt src : Nat) (level : Bool) (s : State) : Out := only (inputThere src) dt (inputEdge src level) s

/-- FILTER_ACCEPT (R267). An input stays stable for D, so its new level is accepted, counting an edge event or pending or withdrawing a
level source. -/
def execFilterAccept (dt src : Nat) (s : State) : Out := only (inputThere src) dt (filterElapsed src) s

/-- FALCEN_SOURCE_EVENT (R265). A Falcen part raises one event on its source line. -/
def execFalcenSourceEvent (dt src : Nat) (s : State) : Out := only (falcenSources.contains src) dt (raise src) s

/-- COALESCE_TIMEOUT (R269). Beam reaches f + 4,000 × COAL_US bt, so the coalesced events become a pending batch. -/
def execCoalesceTimeout (dt src : Nat) (s : State) : Out := only (sourceThere src) dt (coalesceElapsed src) s

/-- TRD_DOORBELL (R268). A TRD_DOORBELL write rings a doorbell source as one event, or is REFUSED. -/
def execTrdDoorbell (dt : Nat) (data : Word) (s : State) : Out := write dt pgTrd 0x50 data s

/-- TRD_CLAIM (R273). A read of TRD_CLAIM returns and pushes the most urgent claimable source, or returns 2,047 or 0. -/
def execTrdClaim (dt target : Nat) (s : State) : Out := read dt (pageOf (target < 16) pgTrd) (0x100 + 0x40 * (target % 16)) s

/-- TRD_COMPLETE (R274). A completion write pops the top stack entry and re-evaluates the line, or is REFUSED. -/
def execTrdComplete (dt target : Nat) (data : Word) (s : State) : Out :=
  write dt (pageOf (target < 16) pgTrd) (0x108 + 0x40 * (target % 16)) data s

/-- TRD_PENDING_SET (R276). A write to the pending set address makes a source pending, stamped at the write. -/
def execTrdPendingSet (dt word : Nat) (bits : Word) (s : State) : Out :=
  write dt (pageOf (word < 32) 9) (0x408 + 0x18 * (word % 32)) bits s

/-- TRD_PENDING_CLR (R276). A write to the pending clear address discards a source's batch. -/
def execTrdPendingClr (dt word : Nat) (bits : Word) (s : State) : Out :=
  write dt (pageOf (word < 32) 9) (0x410 + 0x18 * (word % 32)) bits s

/-- TRD_DOZE (R277). A DOZE write stops the filters, timers and lines, or is REFUSED while a source is claimable. -/
def execTrdDoze (dt : Nat) (data : Word) (s : State) : Out := write dt pgTrd 0x58 data s

/-- ASYNC_WAKE (R277). A caught transition of an enabled source wakes the dozing Treadle and reports its latched events. -/
def execAsyncWake (dt src : Nat) (s : State) : Out := only (sourceThere src) dt (latchWakes src) s

end Sys2Proof.Machine
end

