-- ==== Sys2Proof/Machine/ExecVerdicts.lean ====
section
/-! DEFINITION. Verdicts, gates and in-field tests (R221 to R243): what each command does. -/

namespace Sys2Proof.Machine

/-- The word that a notice writes to HUB_NOTICE_IN (Table VT-10). -/
def noticeWord (kind : Nat) (die : BitVec 14) (epoch : BitVec 16) : Word := packW [(60, 4, kind), (32, 14, die.toNat), (0, 16, epoch.toNat)]

/-- EPOCH_SETTLED (R222). An epoch becomes settled, and OWN_CLEARED_THRU advances over epochs whose checks all passed. -/
def execEpochSettled (dt : Nat) (s : State) : Out := .next (act dt settleEpochs s)

/-- STALE_EPOCH (R223). The current epoch reaches 2^14 epochs after OWN_CLEARED_THRU, so the oldest unsettled epoch taints the die as
STALE. -/
def execStaleEpoch (dt : Nat) (s : State) : Out := .next (act dt Machine.staleEpoch s)

/-- EPOCH_QUERY (R225). The link layer queries the epoch for an outgoing chunk and receives it, or VALID 0. -/
def execEpochQuery (dt port hed : Nat) (s : State) : Out := only (linkThere s.inst port) dt (Machine.epochQuery port hed) s

/-- LEDGER_RECEIPT (R227). A received chunk header is passed to the ledger, which allocates an entry or records a pending receipt, or
goes blind. -/
def execLedgerReceipt (dt port : Nat) (s : State) : Out := only (linkThere s.inst port) dt (passReceipt port) s

/-- POISON (R229). An inbound POISON notice, written to HUB_NOTICE_IN, taints another die's entry or the own die. -/
def execPoison (dt : Nat) (die : BitVec 14) (epoch : BitVec 16) (s : State) : Out := write dt pgHub 0x258 (noticeWord 1 die epoch) s

/-- CLEAR (R229). An inbound CLEAR notice advances another die's CLEARED_THRU, capped while the entry is tainted. -/
def execClear (dt : Nat) (die : BitVec 14) (epoch : BitVec 16) (s : State) : Out := write dt pgHub 0x258 (noticeWord 2 die epoch) s

/-- ABSOLVE (R229). An inbound ABSOLVE notice clears taint for a die from the named epoch. -/
def execAbsolve (dt : Nat) (die : BitVec 14) (epoch : BitVec 16) (s : State) : Out := write dt pgHub 0x258 (noticeWord 3 die epoch) s

/-- CONFIRM (R229). An inbound CONFIRM notice advances OWN_CONFIRM_THRU. -/
def execConfirm (dt : Nat) (die : BitVec 14) (epoch : BitVec 16) (s : State) : Out := write dt pgHub 0x258 (noticeWord 4 die epoch) s

/-- CLEAR_BATCH (R231). At each 50 µs batch instant while the Hub is ENABLED, a CLEAR naming OWN_CLEARED_THRU is placed if it has moved. -/
def execClearBatch (dt : Nat) (s : State) : Out := .next (act dt Machine.clearBatch s)

/-- GATE_REQUEST (R235). ET_GATE_REQ is captured and stamped with its scope; a change while a gate is pending is a protocol error. -/
def execGateRequest (dt hed : Nat) (ctx : BitVec 4) (tdc : Tdc) (s : State) : Out :=
  onHed hed dt (Machine.gateRequest hed ctx tdc) s

/-- GATE_OPEN (R235). Every selected condition of a pending gate holds at one instant, so ET_GATE_ACK is matched. -/
def execGateOpen (dt hed : Nat) (s : State) : Out := onHed hed dt (Machine.gateOpen hed) s

/-- UNBLIND (R228). The UNBLIND action clears the ledger's BLIND state. -/
def execUnblind (dt : Nat) (cond : Option (BitVec 32)) (s : State) : Out := command dt pgHub 0xE0 cond s

/-- TEST_RELOAD (R240). The TEST_RELOAD action makes firmware read the test manifest and reset every test state to IDLE. -/
def execTestReload (dt : Nat) (cond : Option (BitVec 32)) (s : State) : Out := command dt pgHub 0xE1 cond s

/-- MANIFEST_LOAD_COMPLETE (R240). The manifest reads finish; the manifest takes force, or MANIFEST_BAD is set and the old manifest is
kept. -/
def execManifestLoadComplete (dt : Nat) (s : State) : Out := .next (act dt manifestDone s)

/-- TEST_DEADLINE (R241). A test state's deadline passes, so a preemption request is offered or the test ends TEST_NOT_RUN. -/
def execTestDeadline (dt entry hed : Nat) (s : State) : Out := only (hedThere s.inst hed) dt (Machine.testDeadline entry hed) s

/-- HUB_TEST_NEXT (R242). A read of HUB_TEST_NEXT pops one window or preemption request from the FIFO. -/
def execHubTestNext (dt : Nat) (s : State) : Out := read dt pgHub 0x298 s

/-- SENSOR_WAIT_EXPIRY (R239). No later sensor sample arrives within 1 ms, so the error report uses the earlier sample and sets EXTRAP. -/
def execSensorWaitExpiry (dt : Nat) (s : State) : Out := .next (act dt fillReports s)

end Sys2Proof.Machine
end

