-- ==== Sys2Proof/Machine/ExecWitness.lean ====
section
/-! DEFINITION. The witness (R195 to R219): what each command does. -/

namespace Sys2Proof.Machine

/-- MIRROR_INTAKE (R196). The Reed writes a queued mirrored beat into staging, forms or fills its tile and detects tile completion. -/
def execMirrorIntake (dt reed : Nat) (s : State) : Out := onReed reed dt (Machine.mirrorIntake reed) s

/-- GATHER_TIMEOUT (R202). A tile is not complete 2^GATHER_LOG bt after its first beat and ends UNCHECKED with reason INCOMPLETE. -/
def execGatherTimeout (dt reed : Nat) (check : BitVec 32) (s : State) : Out :=
  onReed reed dt (Machine.gatherTimeout reed check) s

/-- SHARE_COMPLETE (R205). A witness array completes a share of a check and takes the next share. -/
def execShareComplete (dt wit : Nat) (s : State) : Out := only (witThere s.inst wit) dt (Machine.shareComplete wit) s

/-- STAGING_ECC_ERROR (R216). An uncorrectable ECC error in a tile's staging ends its check UNCHECKED with reason STAGING_ECC. -/
def execStagingEccError (dt reed : Nat) (hit : StagingHit) (s : State) : Out := onReed reed dt (stagingEcc reed hit) s

/-- CARD_LOAD (R197). The CARD_LOAD action copies REED_CARD_BUF into a check card entry and its successor's shadow, or is REFUSED. -/
def execCardLoad (dt reed : Nat) (cond : Option (BitVec 32)) (s : State) : Out :=
  command dt (pageOf (reed < 256) (pgReed reed)) 0xB0 cond s

/-- CARD_FETCH (R197). The CARD_FETCH action copies a check card entry into REED_CARD_BUF. -/
def execCardFetch (dt reed : Nat) (cond : Option (BitVec 32)) (s : State) : Out :=
  command dt (pageOf (reed < 256) (pgReed reed)) 0xB1 cond s

end Sys2Proof.Machine
end

