-- ==== Sys2Proof/Machine/Dispatch.lean ====
section
/-! DEFINITION. The dispatch of the commands: one arm per constructor, one meaning per arm. -/

namespace Sys2Proof.Machine

def exec (i : Instr) (s : State) : Host.Outcome State Fault Refusal :=
  match i with
  | .fundamentalReset dt => Sys2Proof.Machine.execFundamentalReset dt s
  | .blockReset dt => Sys2Proof.Machine.execBlockReset dt s
  | .initialisationComplete dt who => Sys2Proof.Machine.execInitialisationComplete dt who s
  | .partResetPortRequest dt page => Sys2Proof.Machine.execPartResetPortRequest dt page s
  | .regOverlap dt => Sys2Proof.Machine.execRegOverlap dt s
  | .registerWrite dt addr data => Sys2Proof.Machine.execRegisterWrite dt addr data s
  | .readClearRegister dt addr => Sys2Proof.Machine.execReadClearRegister dt addr s
  | .enable dt page cond => Sys2Proof.Machine.execEnable dt page cond s
  | .disable dt page cond => Sys2Proof.Machine.execDisable dt page cond s
  | .partReset dt page cond => Sys2Proof.Machine.execPartReset dt page cond s
  | .retire dt page cond => Sys2Proof.Machine.execRetire dt page cond s
  | .reinstate dt page cond => Sys2Proof.Machine.execReinstate dt page cond s
  | .auditNow dt page cond => Sys2Proof.Machine.execAuditNow dt page cond s
  | .fatalFault dt page cause => Sys2Proof.Machine.execFatalFault dt page cause s
  | .quiesceComplete dt page => Sys2Proof.Machine.execQuiesceComplete dt page s
  | .quiesceOverdue dt page => Sys2Proof.Machine.execQuiesceOverdue dt page s
  | .stateReport dt page corrupted => Sys2Proof.Machine.execStateReport dt page corrupted s
  | .periodicAudit dt => Sys2Proof.Machine.execPeriodicAudit dt s
  | .auditAnswer dt page => Sys2Proof.Machine.execAuditAnswer dt page s
  | .step dt cond => Sys2Proof.Machine.execStep dt cond s
  | .set dt cond => Sys2Proof.Machine.execSet dt cond s
  | .rate dt cond => Sys2Proof.Machine.execRate dt cond s
  | .calTdc dt cond => Sys2Proof.Machine.execCalTdc dt cond s
  | .calRunComplete dt words failed => Sys2Proof.Machine.execCalRunComplete dt words failed s
  | .stepAt dt => Sys2Proof.Machine.execStepAt dt s
  | .referenceLoss dt => Sys2Proof.Machine.execReferenceLoss dt s
  | .referenceReturn dt => Sys2Proof.Machine.execReferenceReturn dt s
  | .serialMessage dt page msg => Sys2Proof.Machine.execSerialMessage dt page msg s
  | .statusRequest dt page => Sys2Proof.Machine.execStatusRequest dt page s
  | .sensorSample dt ch voltage val tdc => Sys2Proof.Machine.execSensorSample dt ch voltage val tdc s
  | .tdispStateChange dt state => Sys2Proof.Machine.execTdispStateChange dt state s
  | .commandIssue dt hed item => Sys2Proof.Machine.execCommandIssue dt hed item s
  | .commandRetire dt hed item => Sys2Proof.Machine.execCommandRetire dt hed item s
  | .spanAccept dt hed => Sys2Proof.Machine.execSpanAccept dt hed s
  | .eventLineTransition dt hed line => Sys2Proof.Machine.execEventLineTransition dt hed line s
  | .stallReasonChange dt hed reason tdc => Sys2Proof.Machine.execStallReasonChange dt hed reason tdc s
  | .stallSamplePeriodic dt hed => Sys2Proof.Machine.execStallSamplePeriodic dt hed s
  | .counterSample dt hed edges => Sys2Proof.Machine.execCounterSample dt hed edges s
  | .clockStateChange dt hed state edges tdc => Sys2Proof.Machine.execClockStateChange dt hed state edges tdc s
  | .gapLimit dt hed edges => Sys2Proof.Machine.execGapLimit dt hed edges s
  | .hedCardMap dt hed high data => Sys2Proof.Machine.execHedCardMap dt hed high data s
  | .outputBeat dt hed item => Sys2Proof.Machine.execOutputBeat dt hed item s
  | .mirrorIntake dt reed => Sys2Proof.Machine.execMirrorIntake dt reed s
  | .gatherTimeout dt reed check => Sys2Proof.Machine.execGatherTimeout dt reed check s
  | .shareComplete dt wit => Sys2Proof.Machine.execShareComplete dt wit s
  | .stagingEccError dt reed hit => Sys2Proof.Machine.execStagingEccError dt reed hit s
  | .cardLoad dt reed cond => Sys2Proof.Machine.execCardLoad dt reed cond s
  | .cardFetch dt reed cond => Sys2Proof.Machine.execCardFetch dt reed cond s
  | .governorWindowStart dt => Sys2Proof.Machine.execGovernorWindowStart dt s
  | .flushWaitExpiry dt stream => Sys2Proof.Machine.execFlushWaitExpiry dt stream s
  | .flush dt page cond => Sys2Proof.Machine.execFlush dt page cond s
  | .blockIssue dt writer => Sys2Proof.Machine.execBlockIssue dt writer s
  | .memoryCompletion dt writer tag error => Sys2Proof.Machine.execMemoryCompletion dt writer tag error s
  | .completionTimeout dt writer tag => Sys2Proof.Machine.execCompletionTimeout dt writer tag s
  | .releaseAcknowledge dt bob => Sys2Proof.Machine.execReleaseAcknowledge dt bob s
  | .shadowAcknowledge dt bob => Sys2Proof.Machine.execShadowAcknowledge dt bob s
  | .bobEnable dt page slot cond => Sys2Proof.Machine.execBobEnable dt page slot cond s
  | .bobDisable dt page slot cond => Sys2Proof.Machine.execBobDisable dt page slot cond s
  | .bobTail dt page slot tail => Sys2Proof.Machine.execBobTail dt page slot tail s
  | .writePortIdle dt reed => Sys2Proof.Machine.execWritePortIdle dt reed s
  | .scanComplete dt reed => Sys2Proof.Machine.execScanComplete dt reed s
  | .retainedRunReport dt reed stream => Sys2Proof.Machine.execRetainedRunReport dt reed stream s
  | .handBack dt reed => Sys2Proof.Machine.execHandBack dt reed s
  | .epochSettled dt => Sys2Proof.Machine.execEpochSettled dt s
  | .staleEpoch dt => Sys2Proof.Machine.execStaleEpoch dt s
  | .epochQuery dt port hed => Sys2Proof.Machine.execEpochQuery dt port hed s
  | .ledgerReceipt dt port => Sys2Proof.Machine.execLedgerReceipt dt port s
  | .poison dt die epoch => Sys2Proof.Machine.execPoison dt die epoch s
  | .clear dt die epoch => Sys2Proof.Machine.execClear dt die epoch s
  | .absolve dt die epoch => Sys2Proof.Machine.execAbsolve dt die epoch s
  | .confirm dt die epoch => Sys2Proof.Machine.execConfirm dt die epoch s
  | .clearBatch dt => Sys2Proof.Machine.execClearBatch dt s
  | .gateRequest dt hed ctx tdc => Sys2Proof.Machine.execGateRequest dt hed ctx tdc s
  | .gateOpen dt hed => Sys2Proof.Machine.execGateOpen dt hed s
  | .unblind dt cond => Sys2Proof.Machine.execUnblind dt cond s
  | .testReload dt cond => Sys2Proof.Machine.execTestReload dt cond s
  | .manifestLoadComplete dt => Sys2Proof.Machine.execManifestLoadComplete dt s
  | .testDeadline dt entry hed => Sys2Proof.Machine.execTestDeadline dt entry hed s
  | .hubTestNext dt => Sys2Proof.Machine.execHubTestNext dt s
  | .sensorWaitExpiry dt => Sys2Proof.Machine.execSensorWaitExpiry dt s
  | .stopNow dt cond => Sys2Proof.Machine.execStopNow dt cond s
  | .arm dt cond => Sys2Proof.Machine.execArm dt cond s
  | .disarm dt cond => Sys2Proof.Machine.execDisarm dt cond s
  | .resume dt cond => Sys2Proof.Machine.execResume dt cond s
  | .stopIn dt tdc => Sys2Proof.Machine.execStopIn dt tdc s
  | .ttCompare dt => Sys2Proof.Machine.execTtCompare dt s
  | .armedPartFire dt page => Sys2Proof.Machine.execArmedPartFire dt page s
  | .stopTreeArrival dt page => Sys2Proof.Machine.execStopTreeArrival dt page s
  | .holdAck dt hed tdc => Sys2Proof.Machine.execHoldAck dt hed tdc s
  | .holdTimeout dt hed => Sys2Proof.Machine.execHoldTimeout dt hed s
  | .scanWord dt hed word last => Sys2Proof.Machine.execScanWord dt hed word last s
  | .scanWordTimeout dt hed => Sys2Proof.Machine.execScanWordTimeout dt hed s
  | .graceExpiry dt port => Sys2Proof.Machine.execGraceExpiry dt port s
  | .cutComplete dt => Sys2Proof.Machine.execCutComplete dt s
  | .snagWritten dt => Sys2Proof.Machine.execSnagWritten dt s
  | .resumeArrival dt page => Sys2Proof.Machine.execResumeArrival dt page s
  | .resumeComplete dt => Sys2Proof.Machine.execResumeComplete dt s
  | .treadleInputEdge dt src level => Sys2Proof.Machine.execTreadleInputEdge dt src level s
  | .filterAccept dt src => Sys2Proof.Machine.execFilterAccept dt src s
  | .falcenSourceEvent dt src => Sys2Proof.Machine.execFalcenSourceEvent dt src s
  | .coalesceTimeout dt src => Sys2Proof.Machine.execCoalesceTimeout dt src s
  | .trdDoorbell dt data => Sys2Proof.Machine.execTrdDoorbell dt data s
  | .trdClaim dt target => Sys2Proof.Machine.execTrdClaim dt target s
  | .trdComplete dt target data => Sys2Proof.Machine.execTrdComplete dt target data s
  | .trdPendingSet dt word bits => Sys2Proof.Machine.execTrdPendingSet dt word bits s
  | .trdPendingClr dt word bits => Sys2Proof.Machine.execTrdPendingClr dt word bits s
  | .trdDoze dt data => Sys2Proof.Machine.execTrdDoze dt data s
  | .asyncWake dt src => Sys2Proof.Machine.execAsyncWake dt src s
  | .linkStateChange dt port state tdc => Sys2Proof.Machine.execLinkStateChange dt port state tdc s
  | .absentTimer dt port => Sys2Proof.Machine.execAbsentTimer dt port s
  | .headerCapture dt port item => Sys2Proof.Machine.execHeaderCapture dt port item s
  | .unackEntry dt port coll chunk => Sys2Proof.Machine.execUnackEntry dt port coll chunk s
  | .unackEnd dt port => Sys2Proof.Machine.execUnackEnd dt port s
  | .listTimeout dt port => Sys2Proof.Machine.execListTimeout dt port s
  | .listEntryPick dt port => Sys2Proof.Machine.execListEntryPick dt port s
  | .ringRelease dt port cond => Sys2Proof.Machine.execRingRelease dt port cond s
  | .helloSend dt port => Sys2Proof.Machine.execHelloSend dt port s
  | .hello dt port frame => Sys2Proof.Machine.execHello dt port frame s
  | .pdreqSend dt port => Sys2Proof.Machine.execPdreqSend dt port s
  | .pdreq dt port frame => Sys2Proof.Machine.execPdreq dt port frame s
  | .pdresp dt port frame => Sys2Proof.Machine.execPdresp dt port frame s
  | .pdfollowSend dt port => Sys2Proof.Machine.execPdfollowSend dt port s
  | .pdfollow dt port frame => Sys2Proof.Machine.execPdfollow dt port frame s
  | .pdelayTimeout dt port => Sys2Proof.Machine.execPdelayTimeout dt port s
  | .rootSyncSend dt => Sys2Proof.Machine.execRootSyncSend dt s
  | .sync dt port frame => Sys2Proof.Machine.execSync dt port frame s
  | .follow dt port frame => Sys2Proof.Machine.execFollow dt port frame s
  | .followSend dt port => Sys2Proof.Machine.execFollowSend dt port s
  | .followTimeout dt => Sys2Proof.Machine.execFollowTimeout dt s
  | .rootLost dt => Sys2Proof.Machine.execRootLost dt s
  | .txTimestamp dt port tdc => Sys2Proof.Machine.execTxTimestamp dt port tdc s
  | .rxTimestamp dt port tdc => Sys2Proof.Machine.execRxTimestamp dt port tdc s
  | .servoStart dt cond => Sys2Proof.Machine.execServoStart dt cond s
  | .servoStop dt cond => Sys2Proof.Machine.execServoStop dt cond s
  | .servoRearm dt cond => Sys2Proof.Machine.execServoRearm dt cond s
  | .ethTimestamp dt sent msg domain seqId seq tdc => Sys2Proof.Machine.execEthTimestamp dt sent msg domain seqId seq tdc s
  | .ptpSync dt hdr origin => Sys2Proof.Machine.execPtpSync dt hdr origin s
  | .ptpFollowUp dt hdr origin => Sys2Proof.Machine.execPtpFollowUp dt hdr origin s
  | .ptpDelayResp dt hdr receive reqClock reqPort => Sys2Proof.Machine.execPtpDelayResp dt hdr receive reqClock reqPort s
  | .ptpAnnounce dt hdr master => Sys2Proof.Machine.execPtpAnnounce dt hdr master s
  | .ptpIgnoredMessage dt len => Sys2Proof.Machine.execPtpIgnoredMessage dt len s
  | .ptpDelayReqSend dt => Sys2Proof.Machine.execPtpDelayReqSend dt s
  | .announceTimeout dt => Sys2Proof.Machine.execAnnounceTimeout dt s
  | .install dt cond => Sys2Proof.Machine.execInstall dt cond s
  | .rotate dt cond => Sys2Proof.Machine.execRotate dt cond s
  | .remove dt cond => Sys2Proof.Machine.execRemove dt cond s
  | .release dt cond => Sys2Proof.Machine.execRelease dt cond s
  | .scanRelease dt cond => Sys2Proof.Machine.execScanRelease dt cond s
  | .genRetired dt slot => Sys2Proof.Machine.execGenRetired dt slot s
  | .fenceComplete dt slot => Sys2Proof.Machine.execFenceComplete dt slot s
  | .slotDrainComplete dt slot => Sys2Proof.Machine.execSlotDrainComplete dt slot s
  | .drainOverdue dt slot => Sys2Proof.Machine.execDrainOverdue dt slot s
  | .scrubComplete dt slot => Sys2Proof.Machine.execScrubComplete dt slot s
  | .keyEcc dt slot known => Sys2Proof.Machine.execKeyEcc dt slot known s
  | .readbackRequest dt rid addr => Sys2Proof.Machine.execReadbackRequest dt rid addr s
  | .readbackComplete dt => Sys2Proof.Machine.execReadbackComplete dt s
  | .readBeat dt tag beat last error data => Sys2Proof.Machine.execReadBeat dt tag beat last error data s
  | .readTimeout dt tag => Sys2Proof.Machine.execReadTimeout dt tag s
  | .load dt cond => Sys2Proof.Machine.execLoad dt cond s
  | .loadComplete dt => Sys2Proof.Machine.execLoadComplete dt s
  | .handover dt cond => Sys2Proof.Machine.execHandover dt cond s
  | .verifyComplete dt => Sys2Proof.Machine.execVerifyComplete dt s
  | .fwReady dt => Sys2Proof.Machine.execFwReady dt s
  | .handoverTimeout dt => Sys2Proof.Machine.execHandoverTimeout dt s
  | .reloadComplete dt => Sys2Proof.Machine.execReloadComplete dt s
  | .fwAccept dt => Sys2Proof.Machine.execFwAccept dt s
  | .fwReject dt => Sys2Proof.Machine.execFwReject dt s
  | .acceptTimeout dt => Sys2Proof.Machine.execAcceptTimeout dt s
  | .watchdogKick dt => Sys2Proof.Machine.execWatchdogKick dt s
  | .watchdogExpiry dt => Sys2Proof.Machine.execWatchdogExpiry dt s
  | .fwEmit dt n => Sys2Proof.Machine.execFwEmit dt n s
  | .blockBufferTransfer dt word buffer => Sys2Proof.Machine.execBlockBufferTransfer dt word buffer s
  | .emit dt cond => Sys2Proof.Machine.execEmit dt cond s
  | .hostScrubbed dt cond => Sys2Proof.Machine.execHostScrubbed dt cond s
  | .calData dt write => Sys2Proof.Machine.execCalData dt write s
  | .calStoreWrite dt verified => Sys2Proof.Machine.execCalStoreWrite dt verified s
  | .eccCorr dt page => Sys2Proof.Machine.execEccCorr dt page s
  | .powerLoss dt => Sys2Proof.Machine.execPowerLoss dt s
  | .frameCrc dt port frame => Sys2Proof.Machine.execFrameCrc dt port frame s

end Sys2Proof.Machine
end

