-- ==== Sys2Proof/Safety.lean ====
section
/-! DEFINITION. The words that claims are stated in: the fields of State and what a command may touch of them, the canonical form of the
stores, the invariant of the machine, and the accesses that the register port lets through (Table RM-8). -/

namespace Sys2Proof.Safety

open Sys2Proof.Machine

/-! ### Footprints -/

/-- The fields of State, and the raw count by itself, the one part of the time that only the advance and the resets change. -/
inductive Fld where
  | pending | inst | ready | booting | workHeld | port | regs | parts | audit | tim | owed | strs | closes | bobs
  | wports | rport | adopts | exempt | refused | heds | counts | hedGovs | reedGovs | gov | trd | stop | hedStops | key | wits
  | cards | shadows | lapsed | ver | gates | tests | links | linkTimes | servo | eth | fw | cal | sens | snsOn
  | free | salts | raw
  deriving DecidableEq, Repr

/-- The type of a field. -/
@[reducible] def Fld.Ty : Fld → Type
  | .pending => List Instr
  | .inst => Inst
  | .ready => Bool
  | .booting => Bool
  | .workHeld => Bool
  | .port => Port
  | .regs => List (Nat × Word)
  | .parts => List (Nat × Part)
  | .audit => Audit
  | .tim => Time
  | .owed => List Pick
  | .strs => List (Nat × Strm)
  | .closes => Nat
  | .bobs => List (Nat × Bob)
  | .wports => List (Nat × WPort)
  | .rport => RPort
  | .adopts => List (Nat × Adopt)
  | .exempt => Nat
  | .refused => List (Nat × Nat)
  | .heds => List (Nat × HedTrace)
  | .counts => List (Nat × HedCount)
  | .hedGovs => List (Nat × HedGov)
  | .reedGovs => List (Nat × ReedGov)
  | .gov => Gov
  | .trd => Treadle
  | .stop => Stop
  | .hedStops => List (Nat × HedStop)
  | .key => KeyStore
  | .wits => List (Nat × WitReed)
  | .cards => List (Nat × CheckCard)
  | .shadows => List (Nat × CheckCard)
  | .lapsed => List Nat
  | .ver => Verdicts
  | .gates => List (Nat × HedGate)
  | .tests => Tests
  | .links => List (Nat × Link)
  | .linkTimes => List (Nat × LinkTime)
  | .servo => Servo
  | .eth => Eth
  | .fw => Fw
  | .cal => Cal
  | .sens => List (Nat × List (Nat × BitVec 16))
  | .snsOn => List (Nat × Word)
  | .free => Nat
  | .salts => Nat
  | .raw => Nat

/-- A field of a state. -/
@[reducible] def get (s : State) : (f : Fld) → f.Ty
  | .pending => s.pending
  | .inst => s.inst
  | .ready => s.ready
  | .booting => s.booting
  | .workHeld => s.workHeld
  | .port => s.port
  | .regs => s.regs
  | .parts => s.parts
  | .audit => s.audit
  | .tim => s.tim
  | .owed => s.owed
  | .strs => s.strs
  | .closes => s.closes
  | .bobs => s.bobs
  | .wports => s.wports
  | .rport => s.rport
  | .adopts => s.adopts
  | .exempt => s.exempt
  | .refused => s.refused
  | .heds => s.heds
  | .counts => s.counts
  | .hedGovs => s.hedGovs
  | .reedGovs => s.reedGovs
  | .gov => s.gov
  | .trd => s.trd
  | .stop => s.stop
  | .hedStops => s.hedStops
  | .key => s.key
  | .wits => s.wits
  | .cards => s.cards
  | .shadows => s.shadows
  | .lapsed => s.lapsed
  | .ver => s.ver
  | .gates => s.gates
  | .tests => s.tests
  | .links => s.links
  | .linkTimes => s.linkTimes
  | .servo => s.servo
  | .eth => s.eth
  | .fw => s.fw
  | .cal => s.cal
  | .sens => s.sens
  | .snsOn => s.snsOn
  | .free => s.free
  | .salts => s.salts
  | .raw => s.tim.raw

/-- Two states agree on every field outside a footprint. -/
def Same (F : Fld → Bool) (s t : State) : Prop := ∀ f, F f = false → get t f = get s f

/-- The register words outside some agree, a word being named by its page and its offset. -/
def SameRegs (P : Nat → Nat → Bool) (s t : State) : Prop :=
  ∀ p o, P p o = false → o < 4096 → o % 8 = 0 → regGet t p o = regGet s p o

/-- The words in which the Treadle counts what the depth limit of a target held back, whenever a source is raised (R271). -/
def fullWord (p o : Nat) : Bool := p == pgTrd && decide (0x138 ≤ o)

/-! ### The words that software alone writes -/

/-- The words of the HUB page that the block writes itself. -/
def hubDyn : List Nat := [0x40, 0x48, 0x50, 0x58, 0x60, 0x70, 0x78, 0x130, 0x138, 0x150, 0x158, 0x280, 0x288, 0x500]

/-- The words of a Reed page that the block writes itself. -/
def reedDyn : List Nat := [0x48, 0x50, 0x70, 0x78, 0x110, 0x118, 0x150, 0x158, 0x160, 0x168]

/-- The words of a Heddle page that the block writes itself. -/
def hedDyn : List Nat := [0x68, 0x70, 0x78, 0x80, 0x88, 0x98, 0x140, 0x148, 0x150, 0x158, 0x160, 0x178, 0x188]

/-- The words that the block writes itself: the errors and events of every page, its counts, and what it shows. -/
def dynWord (p o : Nat) : Bool :=
  fullWord p o || o == 0x28 || o == 0x38 || (p == pgHub && hubDyn.contains o) || (p == pgBeam && [0x98, 0xA0, 0xA8, 0xB0].contains o) ||
  (p == pgSync && o == 0xA8) || (p == pgStop && o == 0x98) || (p == pgFw && [0x40, 0x58, 0x68, 0x70].contains o) || (p == pgCal && o == 0x48) ||
  (p == pgTrd && o == 0x48) || (decide (pgLnk 0 ≤ p) && o == 0xB0) || (decide (pgWit 0 ≤ p) && decide (p < pgReed 0) && (o == 0x40 || o == 0x48)) ||
  (decide (pgReed 0 ≤ p) && reedDyn.contains o) || (decide (pgHed 0 ≤ p) && hedDyn.contains o) ||
  ((p == pgHub || decide (pgReed 0 ≤ p)) && (0xC30 ≤ o || (0x830 ≤ o && o < 0xA00)) && o % 0x40 == 0x30)

/-- The words that an access may change besides: its own, the word of the group that a set or a clear word acts on, and the buffer that
CARD_FETCH fills. -/
def accessWords (a : Access) (q o : Nat) : Bool :=
  q == a.page &&
  (if a.off = 0x18 then a.wr && fld a.data 7 0 == 0xB1 && decide (pgReed 0 ≤ q) && decide (0xA00 ≤ o) && decide (o ≤ 0xA38)
  else o == a.off || o == a.off - 8 || o == a.off - 16)

/-- The access of the register port that a command makes, where it may change a word by it. -/
def accessOf : Instr → Option Access
  | .registerWrite _ addr d => some ⟨true, addr, d⟩
  | .readClearRegister _ addr => some ⟨false, addr, 0⟩
  | .hedCardMap _ hed high d => some (writeAccess (pageOf (hed < 4096) (pgHed hed)) (if high then 0x120 else 0x118) d)
  | .cardFetch _ reed cond => some (ctrlAccess (pageOf (reed < 256) (pgReed reed)) 0xB1 cond)
  | .bobTail _ page slot tail => some (writeAccess page ((if page = pgHub then 0xC20 else 0x820) + 0x40 * slot.toNat) tail)
  | .poison _ die epoch => some (writeAccess pgHub 0x258 (noticeWord 1 die epoch))
  | .clear _ die epoch => some (writeAccess pgHub 0x258 (noticeWord 2 die epoch))
  | .absolve _ die epoch => some (writeAccess pgHub 0x258 (noticeWord 3 die epoch))
  | .confirm _ die epoch => some (writeAccess pgHub 0x258 (noticeWord 4 die epoch))
  | .hubTestNext _ => some (readAccess pgHub 0x298)
  | .trdDoorbell _ d => some (writeAccess pgTrd 0x50 d)
  | .trdClaim _ t => some (readAccess (pageOf (t < 16) pgTrd) (0x100 + 0x40 * (t % 16)))
  | .trdComplete _ t d => some (writeAccess (pageOf (t < 16) pgTrd) (0x108 + 0x40 * (t % 16)) d)
  | .trdPendingSet _ w bits => some (writeAccess (pageOf (w < 32) 9) (0x408 + 0x18 * (w % 32)) bits)
  | .trdPendingClr _ w bits => some (writeAccess (pageOf (w < 32) 9) (0x410 + 0x18 * (w % 32)) bits)
  | .trdDoze _ d => some (writeAccess pgTrd 0x58 d)
  | .calData _ (some d) => some (writeAccess pgCal 0x50 d)
  | .calData _ none => some (readAccess pgCal 0x50)
  | _ => none

/-- The words that a command changes besides those that the block writes itself: the resets begin every word again. -/
def wordsOf (c : Instr) (p o : Nat) : Bool :=
  match c with
  | .fundamentalReset _ | .blockReset _ | .powerLoss _ | .initialisationComplete _ none => true
  | c => match accessOf c with
    | none => false
    | some a => accessWords a p o

/-! ### Time, and what is heard before READY rises -/

/-- The ticks of the raw count by which a command moves the time on before it acts. -/
def dtOf : Instr → Nat
  | .fundamentalReset dt .. | .blockReset dt .. | .initialisationComplete dt .. | .partResetPortRequest dt .. | .regOverlap dt ..
  | .registerWrite dt .. | .readClearRegister dt .. | .enable dt .. | .disable dt .. | .partReset dt .. | .retire dt ..
  | .reinstate dt .. | .auditNow dt .. | .fatalFault dt .. | .quiesceComplete dt .. | .quiesceOverdue dt .. | .stateReport dt ..
  | .periodicAudit dt .. | .auditAnswer dt .. | .step dt .. | .set dt .. | .rate dt .. | .calTdc dt .. | .calRunComplete dt ..
  | .stepAt dt .. | .referenceLoss dt .. | .referenceReturn dt .. | .serialMessage dt .. | .statusRequest dt .. | .sensorSample dt ..
  | .tdispStateChange dt .. | .commandIssue dt .. | .commandRetire dt .. | .spanAccept dt .. | .eventLineTransition dt ..
  | .stallReasonChange dt .. | .stallSamplePeriodic dt .. | .counterSample dt .. | .clockStateChange dt .. | .gapLimit dt ..
  | .hedCardMap dt .. | .outputBeat dt .. | .mirrorIntake dt .. | .gatherTimeout dt .. | .shareComplete dt .. | .stagingEccError dt ..
  | .cardLoad dt .. | .cardFetch dt .. | .governorWindowStart dt .. | .flushWaitExpiry dt .. | .flush dt .. | .blockIssue dt ..
  | .memoryCompletion dt .. | .completionTimeout dt .. | .releaseAcknowledge dt .. | .shadowAcknowledge dt .. | .bobEnable dt ..
  | .bobDisable dt .. | .bobTail dt .. | .writePortIdle dt .. | .scanComplete dt .. | .retainedRunReport dt .. | .handBack dt ..
  | .epochSettled dt .. | .staleEpoch dt .. | .epochQuery dt .. | .ledgerReceipt dt .. | .poison dt .. | .clear dt .. | .absolve dt ..
  | .confirm dt .. | .clearBatch dt .. | .gateRequest dt .. | .gateOpen dt .. | .unblind dt .. | .testReload dt ..
  | .manifestLoadComplete dt .. | .testDeadline dt .. | .hubTestNext dt .. | .sensorWaitExpiry dt .. | .stopNow dt .. | .arm dt ..
  | .disarm dt .. | .resume dt .. | .stopIn dt .. | .ttCompare dt .. | .armedPartFire dt .. | .stopTreeArrival dt .. | .holdAck dt ..
  | .holdTimeout dt .. | .scanWord dt .. | .scanWordTimeout dt .. | .graceExpiry dt .. | .cutComplete dt .. | .snagWritten dt ..
  | .resumeArrival dt .. | .resumeComplete dt .. | .treadleInputEdge dt .. | .filterAccept dt .. | .falcenSourceEvent dt ..
  | .coalesceTimeout dt .. | .trdDoorbell dt .. | .trdClaim dt .. | .trdComplete dt .. | .trdPendingSet dt .. | .trdPendingClr dt ..
  | .trdDoze dt .. | .asyncWake dt .. | .linkStateChange dt .. | .absentTimer dt .. | .headerCapture dt .. | .unackEntry dt ..
  | .unackEnd dt .. | .listTimeout dt .. | .listEntryPick dt .. | .ringRelease dt .. | .helloSend dt .. | .hello dt .. | .pdreqSend dt ..
  | .pdreq dt .. | .pdresp dt .. | .pdfollowSend dt .. | .pdfollow dt .. | .pdelayTimeout dt .. | .rootSyncSend dt .. | .sync dt ..
  | .follow dt .. | .followSend dt .. | .followTimeout dt .. | .rootLost dt .. | .txTimestamp dt .. | .rxTimestamp dt ..
  | .servoStart dt .. | .servoStop dt .. | .servoRearm dt .. | .ethTimestamp dt .. | .ptpSync dt .. | .ptpFollowUp dt ..
  | .ptpDelayResp dt .. | .ptpAnnounce dt .. | .ptpIgnoredMessage dt .. | .ptpDelayReqSend dt .. | .announceTimeout dt ..
  | .install dt .. | .rotate dt .. | .remove dt .. | .release dt .. | .scanRelease dt .. | .genRetired dt .. | .fenceComplete dt ..
  | .slotDrainComplete dt .. | .drainOverdue dt .. | .scrubComplete dt .. | .keyEcc dt .. | .readbackRequest dt ..
  | .readbackComplete dt .. | .readBeat dt .. | .readTimeout dt .. | .load dt .. | .loadComplete dt .. | .handover dt ..
  | .verifyComplete dt .. | .fwReady dt .. | .handoverTimeout dt .. | .reloadComplete dt .. | .fwAccept dt .. | .fwReject dt ..
  | .acceptTimeout dt .. | .watchdogKick dt .. | .watchdogExpiry dt .. | .fwEmit dt .. | .blockBufferTransfer dt .. | .emit dt ..
  | .hostScrubbed dt .. | .calData dt .. | .calStoreWrite dt .. | .eccCorr dt .. | .powerLoss dt .. | .frameCrc dt .. => dt

/-- The commands that act while the block initialises: the resets, the end of the initialisation, a fatal fault of a part (R70), and what
reaches the register port or the part-reset port, which hold the first of their accesses (R31, R51, R52). -/
def actsLow : Instr → Bool
  | .fundamentalReset .. | .blockReset .. | .initialisationComplete _ none | .fatalFault .. | .partResetPortRequest ..
  | .regOverlap .. | .registerWrite .. | .readClearRegister ..
  | .enable .. | .disable .. | .partReset .. | .retire .. | .reinstate .. | .auditNow .. | .step .. | .set .. | .rate .. | .calTdc ..
  | .hedCardMap .. | .cardLoad .. | .cardFetch .. | .flush .. | .bobEnable .. | .bobDisable .. | .bobTail .. | .poison .. | .clear ..
  | .absolve .. | .confirm .. | .unblind .. | .testReload .. | .hubTestNext .. | .stopNow .. | .arm .. | .disarm .. | .resume ..
  | .trdDoorbell .. | .trdClaim .. | .trdComplete .. | .trdPendingSet .. | .trdPendingClr .. | .trdDoze .. | .ringRelease ..
  | .servoStart .. | .servoStop .. | .servoRearm .. | .install .. | .rotate .. | .remove .. | .release .. | .scanRelease .. | .load ..
  | .handover .. | .emit .. | .hostScrubbed .. | .calData .. | .powerLoss .. => true
  | _ => false

/-- Whether what a command names, besides a page of the register port, was instantiated (R5, R58). -/
def there (i : Inst) : Instr → Bool
  | .initialisationComplete _ (some p) | .fatalFault _ p .. | .quiesceComplete _ p | .quiesceOverdue _ p | .stateReport _ p ..
  | .auditAnswer _ p | .serialMessage _ p .. | .statusRequest _ p | .armedPartFire _ p | .stopTreeArrival _ p | .resumeArrival _ p
  | .eccCorr _ p =>
    isHome i p
  | .sensorSample _ n .. =>
    decide (n < 64)
  | .commandIssue _ h .. | .commandRetire _ h .. | .spanAccept _ h | .eventLineTransition _ h .. | .stallReasonChange _ h ..
  | .stallSamplePeriodic _ h | .counterSample _ h .. | .clockStateChange _ h .. | .gapLimit _ h .. | .outputBeat _ h ..
  | .gateRequest _ h .. | .gateOpen _ h | .testDeadline _ _ h | .holdAck _ h .. | .holdTimeout _ h | .scanWord _ h ..
  | .scanWordTimeout _ h =>
    hedThere i h
  | .mirrorIntake _ r | .gatherTimeout _ r .. | .stagingEccError _ r .. | .handBack _ r =>
    reedThere i r
  | .shareComplete _ w =>
    witThere i w
  | .blockIssue _ w | .memoryCompletion _ w .. | .completionTimeout _ w .. | .writePortIdle _ w | .scanComplete _ w
  | .retainedRunReport _ w .. =>
    writerThere i w
  | .releaseAcknowledge _ b | .shadowAcknowledge _ b =>
    bobThere i b
  | .epochQuery _ n .. | .ledgerReceipt _ n | .graceExpiry _ n | .linkStateChange _ n .. | .absentTimer _ n | .headerCapture _ n ..
  | .unackEntry _ n .. | .unackEnd _ n | .listTimeout _ n | .listEntryPick _ n | .helloSend _ n | .hello _ n .. | .pdreqSend _ n
  | .pdreq _ n .. | .pdresp _ n .. | .pdfollowSend _ n | .pdfollow _ n .. | .pdelayTimeout _ n | .sync _ n .. | .follow _ n ..
  | .followSend _ n | .txTimestamp _ n .. | .rxTimestamp _ n .. | .frameCrc _ n .. =>
    linkThere i n
  | .treadleInputEdge _ n .. | .filterAccept _ n =>
    inputThere n
  | .falcenSourceEvent _ n =>
    falcenSources.contains n
  | .coalesceTimeout _ n | .asyncWake _ n =>
    sourceThere n
  | .ethTimestamp .. | .ptpSync .. | .ptpFollowUp .. | .ptpDelayResp .. | .ptpAnnounce .. | .ptpIgnoredMessage .. | .ptpDelayReqSend ..
  | .announceTimeout .. =>
    i.eth
  | _ => true

/-! ### What a command may touch -/

/-- The fields that every command may touch: the time, and what follows a command (settled epochs, ended intervals, the owner of the emission
with its source 48 and the registers of the Treadle, the clock of the tests, the reads that can start, WORK_HELD). -/
def common : List Fld := [.workHeld, .regs, .tim, .rport, .adopts, .trd, .lapsed, .ver, .tests, .raw]

/-- The fields that a command may touch besides. -/
def touches : Instr → List Fld
  | .fundamentalReset .. | .blockReset .. | .powerLoss .. =>
    [.ready, .booting, .port, .parts, .audit, .owed, .strs, .closes, .bobs, .wports, .exempt, .refused, .heds, .counts, .hedGovs,
     .reedGovs, .gov, .stop, .hedStops, .key, .wits, .cards, .shadows, .gates, .links, .linkTimes, .servo, .eth, .fw, .cal, .sens, .snsOn]
  | .initialisationComplete _ (some _) =>
    [.parts, .audit, .owed, .strs, .closes, .bobs, .wports, .exempt, .refused, .heds, .counts, .hedGovs, .reedGovs, .stop, .hedStops,
     .key, .wits, .gates, .links, .fw, .free]
  | .initialisationComplete _ none =>
    [.ready, .booting, .port, .parts, .audit, .owed, .strs, .closes, .bobs, .wports, .exempt, .refused, .heds, .counts, .hedGovs,
     .reedGovs, .gov, .stop, .hedStops, .key, .wits, .cards, .shadows, .gates, .links, .linkTimes, .servo, .eth, .fw, .cal, .free, .salts]
  | .partResetPortRequest .. | .disable .. | .partReset .. =>
    [.port, .parts, .owed, .strs, .closes, .bobs, .wports, .exempt, .refused, .heds, .counts, .hedGovs, .reedGovs, .stop, .hedStops, .key,
     .wits, .gates, .links, .linkTimes, .servo, .eth, .fw, .free]
  | .regOverlap .. | .epochSettled .. | .manifestLoadComplete .. | .treadleInputEdge .. | .filterAccept .. | .falcenSourceEvent .. |
  .coalesceTimeout .. | .asyncWake .. | .ptpIgnoredMessage .. | .eccCorr .. =>
    []
  | .registerWrite .. | .readClearRegister .. =>
    [.port, .parts, .owed, .strs, .closes, .bobs, .wports, .exempt, .refused, .heds, .counts, .hedGovs, .reedGovs, .gov, .stop, .hedStops,
     .key, .wits, .cards, .shadows, .gates, .links, .linkTimes, .servo, .eth, .fw, .cal, .free, .salts]
  | .enable .. =>
    [.port, .parts, .owed, .strs, .closes, .exempt, .refused, .heds, .counts, .hedGovs, .reedGovs, .stop, .hedStops, .key, .wits,
     .shadows, .gates, .links, .linkTimes, .servo, .eth, .fw, .free, .salts]
  | .retire .. | .reinstate .. | .auditNow .. | .flush .. =>
    [.port, .parts, .strs, .closes, .exempt, .refused, .heds, .counts, .hedGovs, .reedGovs, .stop, .hedStops, .key, .wits, .gates, .links,
     .free]
  | .fatalFault .. | .reloadComplete .. | .fwReject .. | .acceptTimeout .. | .watchdogExpiry .. =>
    [.parts, .owed, .strs, .closes, .bobs, .wports, .exempt, .refused, .heds, .counts, .hedGovs, .reedGovs, .stop, .hedStops, .key, .wits,
     .gates, .links, .linkTimes, .servo, .eth, .fw, .free]
  | .quiesceComplete .. | .stateReport .. =>
    [.parts, .strs, .closes, .bobs, .exempt, .refused, .heds, .counts, .hedGovs, .reedGovs, .stop, .hedStops, .key, .wits, .gates, .links,
     .free]
  | .quiesceOverdue .. | .armedPartFire .. | .stopTreeArrival .. | .resumeArrival .. =>
    [.parts, .strs, .closes, .exempt, .refused, .heds, .counts, .hedGovs, .reedGovs, .stop, .hedStops, .key, .wits, .gates, .links, .free]
  | .periodicAudit .. =>
    [.audit]
  | .auditAnswer .. =>
    [.parts, .audit, .strs, .closes, .bobs, .exempt, .refused, .heds, .counts, .hedGovs, .reedGovs, .stop, .hedStops, .key, .wits, .gates,
     .links, .free]
  | .step .. | .set .. | .rate .. | .calTdc .. | .unblind .. | .testReload .. | .hubTestNext .. | .trdDoorbell .. | .trdClaim .. |
  .trdComplete .. | .trdPendingSet .. | .trdPendingClr .. | .trdDoze .. =>
    [.port, .parts]
  | .calRunComplete .. | .calStoreWrite .. =>
    [.cal, .free]
  | .stepAt .. =>
    [.parts, .owed, .strs, .closes, .exempt, .refused, .counts, .key, .servo]
  | .referenceLoss .. | .referenceReturn .. | .rootLost .. =>
    [.owed, .strs, .closes, .exempt, .refused, .key, .servo]
  | .serialMessage .. | .statusRequest .. =>
    [.parts]
  | .sensorSample .. =>
    [.strs, .closes, .exempt, .key, .sens, .snsOn, .free]
  | .tdispStateChange .. | .clearBatch .. | .testDeadline .. | .sensorWaitExpiry .. | .scrubComplete .. | .fwEmit .. =>
    [.strs, .closes, .exempt, .key, .free]
  | .commandIssue .. | .commandRetire .. | .spanAccept .. | .stallReasonChange .. | .stallSamplePeriodic .. | .counterSample .. |
  .clockStateChange .. | .gapLimit .. | .gateRequest .. | .gateOpen .. | .holdAck .. | .holdTimeout .. | .scanWord .. |
  .scanWordTimeout .. =>
    [.parts, .strs, .closes, .exempt, .heds, .counts, .hedGovs, .reedGovs, .stop, .hedStops, .key, .gates]
  | .eventLineTransition .. =>
    [.counts]
  | .hedCardMap .. =>
    [.port, .parts, .strs, .closes, .exempt, .heds, .counts, .hedGovs, .reedGovs, .stop, .hedStops, .key, .gates]
  | .outputBeat .. =>
    [.parts, .strs, .closes, .exempt, .refused, .heds, .counts, .hedGovs, .reedGovs, .gov, .stop, .hedStops, .key, .wits, .gates, .free]
  | .mirrorIntake .. =>
    [.strs, .closes, .exempt, .refused, .reedGovs, .gov, .stop, .key, .wits, .free]
  | .gatherTimeout .. | .shareComplete .. =>
    [.strs, .closes, .exempt, .refused, .stop, .key, .wits, .free]
  | .stagingEccError .. =>
    [.strs, .closes, .exempt, .refused, .heds, .stop, .key, .wits, .free]
  | .cardLoad .. =>
    [.port, .parts, .strs, .closes, .exempt, .refused, .stop, .key, .wits, .cards, .shadows, .free]
  | .cardFetch .. =>
    [.port, .parts, .strs, .closes, .exempt, .refused, .stop, .key, .wits, .free]
  | .governorWindowStart .. =>
    [.strs, .closes, .exempt, .refused, .heds, .counts, .hedGovs, .reedGovs, .gov, .stop, .key, .wits, .free]
  | .flushWaitExpiry .. =>
    [.strs, .closes, .exempt, .refused, .heds, .counts, .hedGovs, .reedGovs, .stop, .key, .wits, .links, .free]
  | .blockIssue .. =>
    [.strs, .closes, .bobs, .wports, .exempt, .refused, .heds, .counts, .hedGovs, .reedGovs, .stop, .hedStops, .key, .wits, .links, .fw,
     .free]
  | .memoryCompletion .. | .completionTimeout .. =>
    [.strs, .bobs, .wports, .stop, .hedStops, .key, .fw]
  | .releaseAcknowledge .. =>
    [.strs, .closes, .bobs, .exempt, .refused, .heds, .counts, .hedGovs, .reedGovs, .stop, .key, .wits, .links, .free]
  | .shadowAcknowledge .. =>
    [.bobs]
  | .bobEnable .. =>
    [.port, .parts, .strs, .closes, .bobs, .wports, .exempt, .refused, .heds, .counts, .hedGovs, .reedGovs, .stop, .hedStops, .key, .wits,
     .gates, .links, .free]
  | .bobDisable .. | .bobTail .. =>
    [.port, .parts, .strs, .closes, .bobs, .exempt, .refused, .heds, .counts, .hedGovs, .reedGovs, .stop, .hedStops, .key, .wits, .gates,
     .links, .free]
  | .writePortIdle .. =>
    [.strs, .bobs, .wports]
  | .scanComplete .. | .retainedRunReport .. | .handBack .. =>
    [.strs, .closes, .bobs]
  | .staleEpoch .. =>
    [.strs, .closes, .exempt, .stop, .key, .wits, .free]
  | .epochQuery .. =>
    [.links]
  | .ledgerReceipt .. =>
    [.gates, .links]
  | .poison .. | .clear .. | .absolve .. | .confirm .. =>
    [.port, .parts, .strs, .closes, .exempt, .stop, .key, .wits, .free]
  | .stopNow .. =>
    [.port, .parts, .strs, .closes, .stop, .wits]
  | .arm .. | .disarm .. | .resume .. =>
    [.port, .parts, .stop]
  | .stopIn .. | .ttCompare .. =>
    [.strs, .closes, .stop, .wits]
  | .graceExpiry .. | .absentTimer .. | .headerCapture .. | .unackEntry .. | .unackEnd .. | .listTimeout .. | .listEntryPick .. =>
    [.strs, .closes, .exempt, .refused, .key, .links]
  | .cutComplete .. =>
    [.strs, .closes, .exempt, .refused, .heds, .counts, .hedGovs, .reedGovs, .stop, .key, .links]
  | .snagWritten .. | .resumeComplete .. =>
    [.stop]
  | .linkStateChange .. =>
    [.owed, .strs, .closes, .exempt, .refused, .key, .links, .linkTimes, .servo]
  | .ringRelease .. =>
    [.port, .parts, .strs, .closes, .exempt, .refused, .key, .links]
  | .helloSend .. | .followTimeout .. | .txTimestamp .. | .rxTimestamp .. =>
    [.linkTimes]
  | .hello .. | .pdreq .. | .pdresp .. | .pdfollow .. | .sync .. | .follow .. | .frameCrc .. =>
    [.owed, .strs, .closes, .exempt, .refused, .key, .links, .linkTimes, .servo, .free]
  | .pdreqSend .. | .pdelayTimeout .. =>
    [.owed, .strs, .closes, .exempt, .refused, .key, .linkTimes, .servo]
  | .pdfollowSend .. | .followSend .. =>
    [.linkTimes, .free]
  | .rootSyncSend .. =>
    [.linkTimes, .servo]
  | .servoStart .. | .servoStop .. | .servoRearm .. =>
    [.port, .parts, .owed, .strs, .closes, .exempt, .refused, .key, .servo]
  | .ethTimestamp .. | .ptpFollowUp .. | .ptpDelayReqSend .. =>
    [.eth]
  | .ptpSync .. | .ptpAnnounce .. | .announceTimeout .. =>
    [.owed, .strs, .closes, .exempt, .refused, .key, .servo, .eth]
  | .ptpDelayResp .. =>
    [.owed, .strs, .closes, .exempt, .refused, .key, .servo, .eth, .free]
  | .install .. =>
    [.port, .parts, .key, .salts]
  | .rotate .. =>
    [.port, .parts, .bobs, .key, .salts]
  | .remove .. | .emit .. | .hostScrubbed .. =>
    [.port, .parts, .strs, .closes, .exempt, .key, .free]
  | .release .. | .scanRelease .. =>
    [.port, .parts, .key]
  | .genRetired .. | .slotDrainComplete .. =>
    [.strs, .closes, .bobs, .exempt, .key, .free]
  | .fenceComplete .. | .drainOverdue .. | .readbackRequest .. | .readbackComplete .. =>
    [.key]
  | .keyEcc .. =>
    [.strs, .closes, .bobs, .exempt, .hedStops, .key, .free]
  | .readBeat .. | .readTimeout .. =>
    [.bobs, .key, .fw]
  | .load .. | .handover .. =>
    [.port, .parts, .fw]
  | .loadComplete .. | .verifyComplete .. | .handoverTimeout .. | .fwAccept .. | .watchdogKick .. | .blockBufferTransfer .. =>
    [.fw]
  | .fwReady .. =>
    [.parts, .fw, .free]
  | .calData .. =>
    [.port, .parts, .cal]

/-! ### The invariant -/

/-- The canonical form of every store that is kept by key: keys strictly rising. -/
def canonical (s : State) : Bool :=
  msorted s.regs && msorted s.parts && msorted s.strs && msorted s.bobs && msorted s.wports && msorted s.adopts && msorted s.heds &&
  msorted s.counts && msorted s.hedGovs && msorted s.reedGovs && msorted s.hedStops && msorted s.wits && msorted s.cards &&
  msorted s.shadows && msorted s.gates && msorted s.links && msorted s.linkTimes && msorted s.sens && msorted s.snsOn && msorted s.refused &&
  msorted s.trd.srcs && msorted s.trd.tgts && msorted s.key.slots && msorted s.rport.tags && msorted s.tests.states && msorted s.ver.led &&
  msorted s.cal.lin && msorted s.cal.linOld && msorted s.cal.words && msorted s.cal.store && msorted s.fw.image

/-- The counts of an instantiation within the bounds that the window gives them (Table PT-12, R58): at most 256 Reeds of 16 Heddles, 24 ports
of a direction, 16 targets, 64 sensor channels. -/
def instOk (i : Inst) : Bool :=
  decide (i.reeds ≤ 256) && decide (i.hpr ≤ 16) && decide (i.linksPerDir ≤ 24) && decide (i.targets ≤ 16) && decide (i.sensors ≤ 64)

/-- What holds of the machine in every state that a command leaves: the stores are canonical, the raw count has 64 bits (R78), READY is
low exactly while the block initialises, when every part is in the RESETTING that the reset began or has failed in it (R51, R68, R70), and
otherwise WORK_HELD says whether something holds an item (R343) and the clock of the unit tests stands exactly while no firmware runs
(R325, R326). -/
structure Inv (s : State) : Prop where
  stores : canonical s = true
  inst : instOk s.inst = true
  raw : s.tim.raw < two64
  low : s.booting = true → s.ready = false ∧ ∀ e ∈ s.parts, e.2.st = .failed ∧ e.2.seq = 1
  high : s.booting = false → s.ready = true
  held : s.booting = false → s.workHeld = holdsWork s
  clock : s.booting = false → s.tests.frozen.isNone = fwRuns s

/-! ### What the register port lets through -/

/-- What an access or an event of a page meets: dt bt have passed, and what has come due in its part is decided. -/
abbrev due (p dt : Nat) (s : State) : State := pageFirst p (advance dt s)

/-- An action on a home page that rules 1 and 2 of Table RM-8 let through, with READY high and the condition of PAGE_CTRL met (R64, R69). -/
def actionHeard (s : State) (p code : Nat) (cond : Option (BitVec 32)) : Bool :=
  s.ready && isHome s.inst p && hubAnswers s p 0x18 (ctrlAccess p code cond) &&
  (match cond with
   | none => true
   | some e => e == (part s p).seq)

/-- A write of a word of a page that rules 1 to 5 of Table RM-8 let through, with READY high (R64). -/
def writeHeard (s : State) (k : PageKind) (p off : Nat) (d : Word) : Bool :=
  s.ready && decide (off < 4096) && decide (off % 8 = 0) && decide (off ≠ 0x18) && decide (pageKind s.inst p = some k) &&
  hubAnswers s p off (writeAccess p off d) && !tdiForbids s k p off d &&
  (match regRow s.inst k off with
   | none => false
   | some row => !(row.held && pst s (homeOf s.inst k p) != .disabled) && inRange s k off row d)

/-- A read of a word of a page that rules 1 and 2 of Table RM-8 let through, with READY high (R64). -/
def readHeard (s : State) (k : PageKind) (p off : Nat) : Bool :=
  s.ready && decide (off < 4096) && decide (off % 8 = 0) && decide (pageKind s.inst p = some k) && (regRow s.inst k off).isSome &&
  hubAnswers s p off (readAccess p off)

/-! ### What the block's tables allow from one command to the next -/

/-- The resets of the block (Table PT-12); power that is lost acts as a fundamental reset (notes/assumptions 13). -/
def isReset : Instr → Bool
  | .fundamentalReset .. | .blockReset .. | .powerLoss .. => true
  | _ => false

/-- What a part shows of its transitions: its state, STATE_SEQ and the cause (R68, R72). -/
def partCore (x : Part) : PState × BitVec 32 × BitVec 8 := (x.st, x.seq, x.cause)

/-- The transitions of a part other than those of a block or fundamental reset (Table RM-11). -/
def partArrow : PState → PState → Bool
  | .resetting, .disabled | .resetting, .failed => true
  | .disabled, .enabled | .disabled, .resetting | .disabled, .failed | .disabled, .retired => true
  | .enabled, .quiescing | .enabled, .resetting | .enabled, .failed => true
  | .quiescing, .disabled | .quiescing, .enabled | .quiescing, .resetting | .quiescing, .failed => true
  | .failed, .resetting | .failed, .retired => true
  | .retired, .resetting => true
  | _, _ => false

/-- The phases that one command leads the stop to (Table SS-2). -/
def stopArrow : StopPhase → StopPhase → Bool
  | .idle, .armed | .idle, .cutting | .armed, .idle | .armed, .cutting => true
  | .cutting, .snagging | .cutting, .stopped | .snagging, .stopped | .stopped, .resuming | .resuming, .idle => true
  | _, _ => false

/-- A slot goes on towards ERASED, or stays (Table TK-4). -/
def slotForward : SlotSt → SlotSt → Bool
  | .active, .fencing | .active, .draining | .active, .erased | .fencing, .draining | .fencing, .erased | .draining, .erased => true
  | a, b => a == b

/-- What one command does to a slot: it goes on for the same tenant, is installed, or is released after its scrub (Table TK-4). -/
def slotTurn (k k' : KSlot) : Prop :=
  (slotForward k.st k'.st = true ∧ k'.tenant = k.tenant) ∨ (k.st = .free ∧ k'.st = .active) ∨
  (k.st = .erased ∧ k.scrubbed = true ∧ k'.st = .free)

/-- A slot without a live tenant holds no keys. -/
def keysGone (k : KSlot) : Prop := k.live = false → k.gens = [] ∧ k.ktag = 0

/-- The rising edges of ET_CLK that a command reports for a Heddle (R99). -/
def edgesOf : Instr → Nat → Nat
  | .counterSample _ h e, n | .clockStateChange _ h _ e _, n | .gapLimit _ h e, n => if h = n then e else 0
  | _, _ => 0

/-- The transitions of an event line of a Heddle that a command reports (R147). -/
def linesOf : Instr → Nat → Nat → Nat
  | .eventLineTransition _ h l, n, k => if h = n ∧ l.toNat = k then 1 else 0
  | _, _, _ => 0

/-- The event counters of every Heddle are kept in canonical form. -/
def evtSorted (s : State) : Prop := ∀ n, msorted (hedC s n).evt = true

/-! ### Rounding -/

/-- A whole number next to k times a quotient: the direction of the rounding is free (notes/assumptions 10). -/
def RoundsTo (a : Q) (k c : Int) : Prop := 0 < a.d → (a.d : Int) * c - a.n * k < a.d ∧ a.n * k - a.d * c < a.d

end Sys2Proof.Safety
end

