-- ==== Sys2Proof/Certificates/Slice0/Obligations.lean ====
section
/-! DEFINITION. The statements about the block: what each command does where it completes, and what holds of every command. Each names
the rules of spec/ that it rests on. -/

open Sys2Proof Sys2Proof.Machine Sys2Proof.Safety

/-- A step takes the command at the front of the queue and is what that command does, with the rest of the queue left waiting. -/
def Obligations.StepRunsTheFrontCommand : Prop :=
  ∀ (c : Instr) (rest : List Instr) (s : State), Machine.step { s with pending := c :: rest } = Machine.exec c { s with pending := rest }

/-- On an empty queue the block idles: the model's choice (notes/assumptions 3). -/
def Obligations.AnEmptyQueueIdles : Prop :=
  ∀ s : State, s.pending = [] → Machine.step s = .next s

/-- A command changes neither the queue nor what was instantiated (R58). -/
def Obligations.CommandsTakeTurns : Prop :=
  ∀ (c : Instr) (s t : State), Machine.exec c s = .next t → t.pending = s.pending ∧ t.inst = s.inst

/-- Every command answers a next state, whatever the state: none faults and none is refused. One that names an instance that was not
instantiated (R5, R58) finds nothing to act on and only time passes, the model's choice (notes/assumptions 2). -/
def Obligations.NoCommandStops : Prop :=
  (∀ (c : Instr) (s : State), ∃ t, Machine.exec c s = .next t) ∧
  (∀ (c : Instr) (s : State), there s.inst c = false → Machine.exec c s = .next (act (dtOf c) id s))

/-- The frame of every command: it changes only the fields of State that it names, and those that follow every command. -/
def Obligations.OnlyTheFieldsNamedChange : Prop :=
  ∀ (c : Instr) (s t : State), Machine.exec c s = .next t → Same (fun f => (common ++ touches c).contains f) s t

/-- The frame of the registers: a word that software wrote is changed by the access that names it and by the resets alone; a command
changes besides only words that the block writes itself. -/
def Obligations.OnlyTheWordsNamedChange : Prop :=
  ∀ (c : Instr) (s t : State), instOk s.inst = true → Machine.exec c s = .next t → SameRegs (fun p o => dynWord p o || wordsOf c p o) s t

/-- R51, R31, R70: while the block initialises, a command that neither resets it, ends the initialisation, is a fatal fault nor reaches the
register port or the part-reset port moves the time and nothing else. -/
def Obligations.BeforeReadyOnlyTimePasses : Prop :=
  ∀ (c : Instr) (s t : State), s.booting = true → actsLow c = false → Machine.exec c s = .next t → t = { s with tim := newTime (dtOf c) s }

/-- R78: the raw count runs on by the time that passes, modulo 2^64, through every command but a fundamental reset and a loss of power,
which set raw count and offset to 0; under a bad strap it stands (R84). The offset changes where an announced step takes force, and
nowhere else. -/
def Obligations.TimeMovesOnAndTheOffsetStays : Prop :=
  ∀ (c : Instr) (s t : State), Inv s → Machine.exec c s = .next t →
    ((∃ dt, c = .fundamentalReset dt ∨ c = .powerLoss dt) → t.tim.raw = 0 ∧ t.tim.offset = 0) ∧
    ((∀ dt, c ≠ .fundamentalReset dt ∧ c ≠ .powerLoss dt) →
      (strapOk s = true → t.tim.raw = (s.tim.raw + dtOf c) % 2 ^ 64) ∧ (strapOk s = false → t.tim.raw = s.tim.raw) ∧
      (t.tim.offset = s.tim.offset ∨
        ∃ a, s.tim.step = some a ∧ a.raw ≤ t.tim.raw ∧ t.tim.offset = a.newOff ∧ ∃ dt, c = .stepAt dt ∨ c = .blockReset dt)) ∧
    beam t = (t.tim.raw + t.tim.offset) % 2 ^ 64

/-- R68: STATE_SEQ rises by one at every transition and at nothing else; no command but the resets moves more than one part, along Table
RM-11: by one transition, or by two where a Heddle that was leaving ENABLED leaves it before the command acts on it, or the Treadle passes
QUIESCING at once (R130, R278). The resets set STATE_SEQ to 0 on entry to RESETTING; until READY rises a part moves to FAILED alone (R70),
and the end of the initialisation leads every other part to DISABLED with STATE_SEQ 1; and the codes of the states. -/
def Obligations.PartsFollowTheirTable : Prop :=
  (∀ (c : Instr) (s t : State), Inv s → Machine.exec c s = .next t →
    (isReset c = true → t.booting = true ∧ ∀ p, pst t p = .resetting ∧ (part t p).seq = 0) ∧
    (isReset c = false → s.booting = false → t.booting = false ∧
      ∃ p, (∀ q, q ≠ p → partCore (part t q) = partCore (part s q)) ∧
        (partCore (part t p) = partCore (part s p) ∨
          (partArrow (pst s p) (pst t p) = true ∧ (part t p).seq = (part s p).seq + 1) ∨
          ((p = pgTrd ∨ pgHed 0 ≤ p) ∧ pst s p = .enabled ∧ (partArrow .quiescing (pst t p) = true ∨ partArrow .resetting (pst t p) = true) ∧
            (part t p).seq = (part s p).seq + 2))) ∧
    (isReset c = false → s.booting = true → (∀ dt, c ≠ .initialisationComplete dt none) → t.booting = true ∧
      ∃ p, (∀ q, q ≠ p → partCore (part t q) = partCore (part s q)) ∧
        (partCore (part t p) = partCore (part s p) ∨
          (pst s p = .resetting ∧ pst t p = .failed ∧ (part t p).seq = (part s p).seq + 1))) ∧
    (∀ dt, c = .initialisationComplete dt none → s.booting = true → s.port.held = none → s.port.prstHeld = none →
      t.booting = false ∧
      ∀ p, (pst s p = .failed → partCore (part t p) = partCore (part s p)) ∧ (pst s p ≠ .failed → pst t p = .disabled ∧ (part t p).seq = 1))) ∧
  [PState.resetting, .disabled, .enabled, .quiescing, .failed, .retired].map PState.code = [0, 1, 2, 3, 4, 5]

/-- R250, Table SS-2: the phase of the stop follows its table under every command, and the resets return it to IDLE. -/
def Obligations.TheStopFollowsItsTable : Prop :=
  ∀ (c : Instr) (s t : State), Inv s → Machine.exec c s = .next t →
    (isReset c = true → t.stop.phase = .idle) ∧
    (isReset c = false → t.stop.phase = s.stop.phase ∨ stopArrow s.stop.phase t.stop.phase = true)

/-- R302, Table TK-4: every tenant slot follows its table under every command; the resets free it; and no command gives keys to a slot
that is not live. -/
def Obligations.TenantSlotsFollowTheirTable : Prop :=
  ∀ (c : Instr) (s t : State), Inv s → Machine.exec c s = .next t →
    (isReset c = true → ∀ n, (kslot t n).st = .free ∧ keysGone (kslot t n)) ∧
    (isReset c = false → ∀ n, slotTurn (kslot s n) (kslot t n) ∧ (keysGone (kslot s n) → keysGone (kslot t n)))

/-- R99: the 48-bit cycle count of a Heddle advances by the edges of its clock whenever READY is high, whatever the state of the Heddle
(a Heddle that was not instantiated has no clock, notes/assumptions 2); only the resets of the block clear it, and no other command changes it. -/
def Obligations.CycleCountsRun : Prop :=
  ∀ (c : Instr) (s t : State) (n : Nat), Inv s → Machine.exec c s = .next t →
    (isReset c = true → (hed t n).cycles = 0) ∧
    (isReset c = false → s.ready = true → (hed t n).cycles = (hed s n).cycles + BitVec.ofNat 48 (if hedThere s.inst n then edgesOf c n else 0)) ∧
    (isReset c = false → s.ready = false → (hed t n).cycles = (hed s n).cycles)

/-- R147: each of the 32 event counters of a Heddle advances by one at a transition of its line while READY is high, whatever the state of
the Heddle, modulo 2^48; only the resets of the block clear it; it reads in HED_EVT[n], to a reader whom R311 gives the exact value. -/
def Obligations.EventCountersRun : Prop :=
  (∀ (c : Instr) (s t : State) (n k : Nat), Inv s → evtSorted s → Machine.exec c s = .next t →
    evtSorted t ∧
    (isReset c = true → mget (0 : BitVec 48) (hedC t n).evt k = 0) ∧
    (isReset c = false → s.ready = true →
      mget (0 : BitVec 48) (hedC t n).evt k = mget 0 (hedC s n).evt k + BitVec.ofNat 48 (if hedThere s.inst n then linesOf c n k else 0)) ∧
    (isReset c = false → s.ready = false → mget (0 : BitVec 48) (hedC t n).evt k = mget 0 (hedC s n).evt k)) ∧
  (∀ (s : State) (n k : Nat), k < 32 → hedBound s n = none →
    viewOf s (.hed n) (pgHed n) (0x200 + 8 * k) = BitVec.ofNat 64 (mget (0 : BitVec 48) (hedC s n).evt k).toNat)

/-- The invariant of the machine is kept by every step from every state that meets it, reached or not. -/
def Obligations.StepKeepsTheInvariant : Prop :=
  ∀ s t : State, Inv s → Machine.step s = .next t → Inv t

/-- The invariant holds of the machine after reset. -/
def Obligations.TheInvariantHoldsAtReset : Prop :=
  Inv State.reset

/-- R51, R68, Table PT-12: the machine after reset, at the instant READY has risen (notes/assumptions 1): every part DISABLED with
STATE_SEQ 1, raw count and offset 0, every register at its reset value, nothing captured, nothing live, the stop IDLE, no command waiting.
-/
def Obligations.TheMachineAfterReset : Prop :=
  State.reset.ready = true ∧ (∀ p, pst State.reset p = .disabled ∧ (part State.reset p).seq = 1) ∧ State.reset.tim.raw = 0 ∧
  State.reset.tim.offset = 0 ∧ State.reset.tim.rate = 0 ∧ State.reset.tim.disc = false ∧
  (∀ p o, regGet State.reset p o = resetWord State.reset.inst (regKey p o)) ∧ State.reset.strs = [] ∧ State.reset.bobs = [] ∧
  (∀ n, (kslot State.reset n).st = .free) ∧ State.reset.stop.phase = .idle ∧ (∀ n, (hed State.reset n).cycles = 0) ∧ State.reset.pending = []

/-- ENABLE, DISABLE, PART_RESET, RETIRE and REINSTATE that the port lets through complete and move the part (R70, Table RM-11). A Heddle that is ENABLED leaves once its records are decided (R130); the Treadle is DISABLED at
once (R278). -/
def Obligations.HostActionsMoveTheState : Prop :=
  ∀ (dt p : Nat) (cond : Option (BitVec 32)) (s : State), Inv s → s.booting = false →
    let u := due p dt s
    let goes := fun (t : State) (dst : PState) =>
      pst t p = dst ∧ (part t p).seq = (part u p).seq + 1 ∧ (part t p).cause = 0x01 ∧ t.port.rsp = 0
    (actionHeard u p 1 cond = true → (pst u p = .quiescing ∨ (pst u p = .disabled ∧ factsPresent u p = true)) →
      ∃ t, Machine.exec (.enable dt p cond) s = .next t ∧ goes t .enabled) ∧
    (actionHeard u p 2 cond = true → pst u p = .enabled → p ≠ pgTrd → (∀ h, p ≠ pgHed h) →
      ∃ t, Machine.exec (.disable dt p cond) s = .next t ∧ goes t .quiescing) ∧
    (actionHeard u p 2 cond = true → pst u p = .enabled → p = pgTrd →
      ∃ t, Machine.exec (.disable dt p cond) s = .next t ∧ pst t p = .disabled ∧ (part t p).seq = (part u p).seq + 2 ∧
        (part t p).cause = 0x03 ∧ t.port.rsp = 0) ∧
    (actionHeard u p 3 cond = true → pst u p ≠ .resetting → pst u p ≠ .retired → (p = pgKey → ∀ e ∈ s.key.slots, e.2.live = false) →
      (pst u p = .enabled → ∀ h, p ≠ pgHed h) →
      ∃ t, Machine.exec (.partReset dt p cond) s = .next t ∧ goes t .resetting ∧ (part t p).locked = false) ∧
    (∀ h rst, p = pgHed h → pst u p = .enabled → actionHeard u p (if rst then 3 else 2) cond = true →
      ∃ t, Machine.exec (if rst then .partReset dt p cond else .disable dt p cond) s = .next t ∧ t.port.rsp = 0 ∧
        ((hed u h).leaving = none →
          let v := settleSpans 32 h (updHed h (fun x => { x with leaving := some (rst, 0x01) }) (hedLeaves h u))
          (hedSettled v h = true → goes t (if rst then .resetting else .quiescing)) ∧
          (hedSettled v h = false → part t p = part u p ∧ (hed t h).leaving = some (rst, 0x01))) ∧
        (∀ w, (hed u h).leaving = some w → part t p = part u p ∧ (hed t h).leaving = some (if rst then (true, 0x01) else w))) ∧
    (∀ h rst cause, p = pgHed h → isHome s.inst p = true → pst s p = .enabled → (hed s h).leaving = some (rst, cause) →
      hedSettled (settleSpans 32 h (advance dt s)) h = true →
      ∃ t, Machine.exec (.spanAccept dt h) s = .next t ∧ pst t p = (if rst then .resetting else .quiescing) ∧
        (part t p).seq = (part s p).seq + 1 ∧ (part t p).cause = cause) ∧
    (actionHeard u p 4 cond = true → (pst u p = .disabled ∨ pst u p = .failed) → retirable u p = true →
      ∃ t, Machine.exec (.retire dt p cond) s = .next t ∧ goes t .retired) ∧
    (actionHeard u p 5 cond = true → pst u p = .retired → retirable u p = true →
      ∃ t, Machine.exec (.reinstate dt p cond) s = .next t ∧ goes t .resetting)

/-- Fatal faults, during a block reset too, the end and the overdue limit of quiescing, and corrected errors complete with their effect on the
part (R70, R62, R72). -/
def Obligations.FaultsAndQuiescingMoveTheState : Prop :=
  ∀ (dt p : Nat) (s : State), Inv s → isHome s.inst p = true →
    let u := due p dt s
    (∀ c : FaultCause, pst u p ≠ .failed → pst u p ≠ .retired →
      ∃ t, Machine.exec (.fatalFault dt p c) s = .next t ∧ pst t p = .failed ∧ (part t p).seq = (part u p).seq + 1 ∧
        (part t p).cause = (if c = .timeout then 0x05 else 0x04)) ∧
    (∀ c : FaultCause, pst u p = .failed ∨ pst u p = .retired →
      ∃ t, Machine.exec (.fatalFault dt p c) s = .next t ∧ part t p = part u p) ∧
    (s.booting = false →
      (pst u p = .quiescing → quiet u p = true →
        ∃ t, Machine.exec (.quiesceComplete dt p) s = .next t ∧ pst t p = .disabled ∧ (part t p).seq = (part u p).seq + 1 ∧
          (part t p).cause = 0x03) ∧
      (pst u p ≠ .quiescing ∨ quiet u p = false →
        ∃ t, Machine.exec (.quiesceComplete dt p) s = .next t ∧ part t p = part u p) ∧
      (pst u p = .quiescing → (part u p).overdue = false → (part u p).quiesceAt + 4000 * regFld u pgHub 0x68 19 0 ≤ newRaw dt s →
        ∃ t, Machine.exec (.quiesceOverdue dt p) s = .next t ∧ (part t p).overdue = true ∧ pst t p = .quiescing ∧
          regBit t p 0x28 58 = true) ∧
      (∃ t, Machine.exec (.eccCorr dt p) s = .next t ∧ regBit t p 0x28 61 = true ∧ part t p = part s p))

/-- State reports, audits and their answers complete and bring the Hub's view to the part's own state; the periodic audit is for the multiples
of 1 ms of Beam (R73 to R75). -/
def Obligations.ReportsAndAuditsCorrectTheView : Prop :=
  ∀ (dt p : Nat) (s : State), Inv s → s.booting = false → isHome s.inst p = true →
    let u := due p dt s
    (hubHears u = true →
      (∀ r rest, (part u p).reports = r :: rest →
        (∃ t, Machine.exec (.stateReport dt p true) s = .next t ∧ part t p = { part u p with reports := rest } ∧
          regGet t pgHub 0x70 = satFld (regGet u pgHub 0x70) 31 0 1) ∧
        ((part u p).view.seq.toNat < r.seq.toNat →
          ∃ t, Machine.exec (.stateReport dt p false) s = .next t ∧
            part t p = { part u p with reports := rest, view := { (part u p).view with st := r.st, seq := r.seq, cause := r.cause } }) ∧
        (r.seq.toNat ≤ (part u p).view.seq.toNat →
          ∃ t, Machine.exec (.stateReport dt p false) s = .next t ∧ part t p = { part u p with reports := rest })) ∧
      ((part u p).audits ≠ [] ∨ (u.audit.running = true ∧ p ∉ u.audit.answered) →
        ∃ t, Machine.exec (.auditAnswer dt p) s = .next t ∧ pst t p = pst u p ∧ (part t p).view.st = pst u p ∧
          (part t p).view.seq = (part u p).seq ∧ (part t p).reports = [] ∧ (part t p).audits = (part u p).audits.drop 1) ∧
      ((part u p).audits ≠ [] → (part u p).reports = [] → ¬((part u p).view.st = pst u p ∧ (part u p).view.seq = (part u p).seq) →
        ∃ t, Machine.exec (.auditAnswer dt p) s = .next t ∧ (part t p).view = ⟨pst u p, (part u p).seq, (part u p).cause, true⟩)) ∧
    (∀ cond, actionHeard u p 6 cond = true →
      ∃ t, Machine.exec (.auditNow dt p cond) s = .next t ∧ t.port.rsp = 0 ∧
        (hubHears u = true → p ≠ pgHub → (part t p).audits = (part u p).audits ++ [2]) ∧
        (hubHears u = true → p = pgHub → ∀ q, isHome s.inst q = true → 2 ∈ (part t q).audits) ∧
        (hubHears u = false → t.parts = u.parts)) ∧
    (hubHears u = false →
      (∀ bad, ∃ t, Machine.exec (.stateReport dt p bad) s = .next t ∧ t.parts = u.parts) ∧
      (∃ t, Machine.exec (.auditAnswer dt p) s = .next t ∧ t.parts = u.parts)) ∧
    (∃ t, Machine.exec (.periodicAudit dt) s = .next t ∧ t.parts = s.parts ∧
      (∀ i, multipleAt (advance dt s) pgHub 4000000 = some i → hubHears s = true → s.audit.running = false → isNew s.audit.last i = true →
        t.audit = { running := true, answered := [], skews := 0, last := some i }) ∧
      (multipleAt (advance dt s) pgHub 4000000 = none → t.audit = s.audit))

/-- Fundamental reset, block reset and loss of power complete and clear what Table PT-12 says (R51, Table PT-12). -/
def Obligations.ResetsClearTheBlock : Prop :=
  ∀ (dt : Nat) (s : State),
    (∃ t, Machine.exec (.fundamentalReset dt) s = .next t ∧ t.tim.raw = 0 ∧ t.tim.offset = 0 ∧ t.ready = false ∧
      (∀ p, pst t p = .resetting ∧ (part t p).seq = 0) ∧ (∀ p o, regGet t p o = resetWord t.inst (regKey p o)) ∧
      t.strs = [] ∧ t.key.slots = [] ∧ t.bobs = [] ∧ t.stop.phase = .idle ∧ t.cal = s.cal ∧ t.workHeld = s.workHeld) ∧
    (∃ t, Machine.exec (.blockReset dt) s = .next t ∧ t.tim.raw = newRaw dt s ∧
      t.tim.offset = (match s.tim.step with
        | some a => if a.raw ≤ newRaw dt s then a.newOff else s.tim.offset
        | none => s.tim.offset) ∧
      t.tim.disc = false ∧ t.tim.refOk = false ∧ t.tim.holdover = false ∧ t.tim.rate = 0 ∧ t.ready = false ∧
      (∀ p, pst t p = .resetting ∧ (part t p).seq = 0) ∧ (∀ p o, regGet t p o = resetWord t.inst (regKey p o)) ∧
      t.strs = [] ∧ t.key.slots = [] ∧ t.bobs = [] ∧ t.stop.phase = .idle ∧ t.cal = s.cal ∧ t.workHeld = s.workHeld) ∧
    (∃ t, Machine.exec (.powerLoss dt) s = .next t ∧ t.workHeld = false ∧ t.cal = calReload s.cal ∧ t.tim.raw = 0 ∧ t.ready = false ∧
      (∀ p, pst t p = .resetting) ∧ (∀ p o, regGet t p o = resetWord t.inst (regKey p o)) ∧ t.strs = [] ∧ t.key.slots = [])

/-- The end of an initialisation leads to DISABLED, of a stamping part only once it is locked; a part that failed during it stays FAILED (R68,
R70, R91). -/
def Obligations.InitialisationLeadsToDisabled : Prop :=
  ∀ (dt : Nat) (s : State), Inv s →
    (s.booting = true → s.port.held = none → s.port.prstHeld = none →
      ∃ t, Machine.exec (.initialisationComplete dt none) s = .next t ∧ t.ready = true ∧ t.booting = false ∧ t.parts = s.parts ∧
        ∀ p, (pst s p = .failed → pst t p = .failed ∧ (part t p).seq = 1) ∧
          (pst s p ≠ .failed → pst t p = .disabled ∧ (part t p).seq = 1)) ∧
    (∀ p, s.booting = false → isHome s.inst p = true →
      let u := due p dt s
      (pst u p = .resetting → ((part u p).locked = true ∨ isStamping p = false) →
        ∃ t, Machine.exec (.initialisationComplete dt (some p)) s = .next t ∧ pst t p = .disabled ∧ (part t p).seq = (part u p).seq + 1 ∧
          (part t p).cause = 0x03) ∧
      (pst u p = .resetting → (part u p).locked = false → isStamping p = true →
        ∃ t, Machine.exec (.initialisationComplete dt (some p)) s = .next t ∧ part t p = part u p))

/-- A heard write of a plain word stores its writable bits, and a heard read answers the word shown and clears its RC fields (R30, R64,
R10, R61). -/
def Obligations.RegisterAccessesActOnTheirWord : Prop :=
  ∀ (dt p off : Nat) (k : PageKind) (row : RegRow) (s : State), Inv s → s.booting = false → pageKind s.inst p = some k →
    regRow s.inst k off = some row → (off < 0x40 ∨ k ∈ [.beam, .sync, .stop, .fw] ∨ (∃ n, k = .lnk n) ∨ (∃ n, k = .wit n)) →
    let u := due p dt s
    (∀ d, writeHeard u k p off d = true → row.grp = 0 →
      ∃ t, Machine.exec (.registerWrite dt (p * 4096 + off) d) s = .next t ∧ t.port.rsp = 0 ∧
        regGet t p off = ((regGet u p off &&& ~~~row.rw) ||| (d &&& row.rw))) ∧
    (readHeard u k p off = true → off ≠ 0x20 →
      ∃ t, Machine.exec (.readClearRegister dt (p * 4096 + off)) s = .next t ∧ t.port.rsp = 0 ∧
        t.port.rdata = shown u k p off ∧ regGet t p off = (regGet u p off &&& ~~~row.rc)) ∧
    (readHeard u k p off = true → off = 0x20 →
      ∃ t, Machine.exec (.readClearRegister dt (p * 4096 + off)) s = .next t ∧ t.port.rsp = 0 ∧
        t.port.rdata = shown u k p off ∧ (part t (homeOf s.inst k p)).view.skewed = false)

/-- Unmapped, held and overlapping accesses and part-reset requests complete with their response and count; an access and a part-reset
request wait while READY is low (R64, R65, R31, R52). -/
def Obligations.OtherAccessesAreAnsweredAndCounted : Prop :=
  ∀ (dt : Nat) (s : State), Inv s →
    (s.booting = false → ∀ a : Access, (a.wr = true ∨ a.data = 0) →
      (pageKind s.inst a.page = none ∨ ∃ k, pageKind s.inst a.page = some k ∧ regRow s.inst k a.off = none) →
      ∃ t, (if a.wr then Machine.exec (.registerWrite dt a.addr a.data) s else Machine.exec (.readClearRegister dt a.addr) s) = .next t ∧
        t.port.rsp = 2 ∧ regGet t pgHub 0x58 = satFld (regGet (due a.page dt s) pgHub 0x58) 31 0 1 ∧ t.parts = (due a.page dt s).parts) ∧
    (s.booting = false → ∀ p off k row d, pageKind s.inst p = some k → off < 4096 → off % 8 = 0 → regRow s.inst k off = some row →
      row.held = true →
      let u := due p dt s
      hubAnswers u p off (writeAccess p off d) = true → tdiForbids u k p off d = false → pst u (homeOf s.inst k p) ≠ .disabled →
      fullWord p off = false → (p, off) ≠ (pgHub, 0x50) → (p, off) ≠ (pgHub, 0x60) →
      ∃ t, Machine.exec (.registerWrite dt (p * 4096 + off) d) s = .next t ∧ t.port.rsp = 1 ∧
        regGet t pgHub 0x50 = satFld (regGet u pgHub 0x50) 31 0 1 ∧ regGet t p off = regGet u p off ∧ t.parts = u.parts) ∧
    (∃ t, Machine.exec (.regOverlap dt) s = .next t ∧
      (s.booting = false → t.port = s.port ∧ regBit t pgHub 0x28 7 = true ∧ regBit t pgHub 0x28 62 = true ∧
        regGet t pgHub 0x78 = satFld (regGet s pgHub 0x78) 31 0 1)) ∧
    (s.booting = false → ∀ p, isHome s.inst p = true →
      let u := due p dt s
      hubAnswers u p 0x18 (ctrlAccess p 3 none) = true →
      (pst u p ≠ .resetting → pst u p ≠ .retired → (p = pgKey → ∀ e ∈ s.key.slots, e.2.live = false) →
        (pst u p = .enabled → ∀ h, p ≠ pgHed h) →
        ∃ t, Machine.exec (.partResetPortRequest dt p) s = .next t ∧ t.port.prst = 0 ∧ pst t p = .resetting ∧
          (part t p).seq = (part u p).seq + 1 ∧ (part t p).cause = 0x02) ∧
      (∀ h, p = pgHed h → pst u p = .enabled → (hed u h).leaving = none →
        ∃ t, Machine.exec (.partResetPortRequest dt p) s = .next t ∧ t.port.prst = 0 ∧
          let v := settleSpans 32 h (updHed h (fun x => { x with leaving := some (true, 0x02) }) (hedLeaves h u))
          (hedSettled v h = true → pst t p = .resetting ∧ (part t p).seq = (part u p).seq + 1 ∧ (part t p).cause = 0x02) ∧
          (hedSettled v h = false → part t p = part u p ∧ (hed t h).leaving = some (true, 0x02)))) ∧
    (s.booting = true →
      (∀ p, ∃ t, Machine.exec (.partResetPortRequest dt p) s = .next t ∧ t.parts = s.parts ∧
        (s.port.prstHeld = none → t.port = { s.port with prstHeld := some p })) ∧
      (∀ a : Access, a.wr = true → s.port.held = none →
        ∃ t, Machine.exec (.registerWrite dt a.addr a.data) s = .next t ∧ t.parts = s.parts ∧ t.port = { s.port with held := some a }))

/-- STEP, SET, RATE and CAL_TDC that the port lets through complete: a step is announced, a rate waits, a calibration starts (R81, R85,
R96, Table BT-5). -/
def Obligations.BeamActionsAnnounceAndStart : Prop :=
  ∀ (dt : Nat) (cond : Option (BitVec 32)) (s : State), Inv s → s.booting = false → mayManage s pgHub = true → strapOk s = true →
    let at' := (newRaw dt s + 8192 + 8191) / 8192 * 8192
    (8192 ∣ at' ∧ newRaw dt s + 8192 ≤ at' ∧ at' < newRaw dt s + 16384) ∧
    (s.tim.step = none → s.stop.phase ≠ .armed →
      (actionHeard s pgHub 0x80 cond = true →
        let b : Int := (((at' + s.tim.offset) % two64 : Nat) : Int) + signed64 (regGet s pgBeam 0x78).toNat
        0 ≤ b → b < two64 →
        ∃ t, Machine.exec (.step dt cond) s = .next t ∧ t.port.rsp = 0 ∧ t.tim.step = some ⟨at', wrap64 (b - at'), 0, 0⟩ ∧
          t.tim.offset = s.tim.offset ∧ t.tim.line = (newTime dt s).line ++ [serialMsg t 3 at']) ∧
      (actionHeard s pgHub 0x81 cond = true →
        let b : Int := ((regGet s pgBeam 0x80).toNat : Int) + ((at' - newRaw dt s : Nat) : Int)
        b < two64 →
        ∃ t, Machine.exec (.set dt cond) s = .next t ∧ t.port.rsp = 0 ∧ t.tim.step = some ⟨at', wrap64 (b - at'), 1, 0⟩ ∧
          t.tim.offset = s.tim.offset ∧ t.tim.line = (newTime dt s).line ++ [serialMsg t 3 at'])) ∧
    (actionHeard s pgHub 0x82 cond = true → s.servo.st = 0 →
      let r := signedN 32 (regFld s pgBeam 0x70 31 0);
      -200000000 ≤ r → r ≤ 200000000 →
      ∃ t, Machine.exec (.rate dt cond) s = .next t ∧ t.port.rsp = 0 ∧ t.tim.ratePend = some r) ∧
    (actionHeard s pgHub 0x83 cond = true → s.tim.calRunning = false →
      ∃ t, Machine.exec (.calTdc dt cond) s = .next t ∧ t.port.rsp = 0 ∧ t.tim.calRunning = true)

/-- STEP_AT, loss and return of the reference, serial messages and their requests complete and change the time (R82, R83, R85, R90, R91).
-/
def Obligations.TimeEventsChangeTheTime : Prop :=
  ∀ (dt : Nat) (s : State), Inv s → s.booting = false →
    (∀ a, s.tim.step = some a → a.raw ≤ newRaw dt s →
      ∃ t, Machine.exec (.stepAt dt) s = .next t ∧ t.tim.offset = a.newOff ∧ t.tim.step = none ∧ t.tim.stepCount = s.tim.stepCount + 1) ∧
    (s.tim.holdover = false → strapOk s = true →
      ∃ t, Machine.exec (.referenceLoss dt) s = .next t ∧ t.tim.refOk = false ∧ t.tim.holdover = true ∧ t.tim.disc = false ∧
        t.tim.line = (newTime dt s).line ++ [serialMsg t 2 ((newRaw dt s + serialLead + 15) / 16 * 16)]) ∧
    (s.tim.refOk = false → strapOk s = true →
      ∃ t, Machine.exec (.referenceReturn dt) s = .next t ∧ t.tim.refOk = true ∧ t.tim.holdover = false) ∧
    (∀ p, isHome s.inst p = true → isStamping p = true → pst s p = .resetting →
      ∃ t, Machine.exec (.statusRequest dt p) s = .next t ∧ (part t p).asked = true ∧ pst t p = .resetting) ∧
    (∀ p (m : BitVec 192), isHome s.inst p = true → isStamping p = true → pst s p ≠ .retired →
      (BitVec.ofNat 16 (fieldN m.toNat 31 16) = serialCrc m → 1 ≤ fieldN m.toNat 3 0 → fieldN m.toNat 3 0 ≤ 3 →
        ∃ t, Machine.exec (.serialMessage dt p m) s = .next t ∧ (newRaw dt s / 16 * 16 + (part t p).devRaw) % two64 = fieldN m.toNat 127 64 ∧
          (part t p).rxDisc = (fieldN m.toNat 4 4 == 1) ∧ (part t p).rxHoldover = (fieldN m.toNat 5 5 == 1) ∧ (part t p).rxSteps = BitVec.ofNat 8 (fieldN m.toNat 15 8) ∧
          (part t p).locked = ((part s p).locked || decide (fieldN m.toNat 3 0 ≤ 2)) ∧ pst t p = pst s p) ∧
      (BitVec.ofNat 16 (fieldN m.toNat 31 16) ≠ serialCrc m →
        ∃ t, Machine.exec (.serialMessage dt p m) s = .next t ∧ (part t p).devRaw = (part s p).devRaw ∧ (part t p).devOff = (part s p).devOff ∧
          regBit t pgBeam 0x28 2 = true ∧ regFld t pgBeam 0xA8 12 0 = p))

/-- The calibration run's end, CAL_DATA accesses and the store's writes complete with their effect (R96, R97, R330, R331). -/
def Obligations.CalibrationCommandsAct : Prop :=
  ∀ (dt : Nat) (s : State), Inv s → s.booting = false →
    let region := regFld s pgCal 0x48 34 32
    let index := regFld s pgCal 0x48 19 0
    (∀ words failed, s.tim.calRunning = true →
      let bad := ((List.range (pointCount s)).filter fun p => failed.contains p || (s.tim.calLost.flatMap (partPoints s)).contains p).length
      ∃ t, Machine.exec (.calRunComplete dt words failed) s = .next t ∧ t.tim.calRunning = false ∧ t.tim.calDue = false ∧
        regGet t pgBeam 0xA0 = packW [(0, 32, bad), (32, 32, pointCount s - bad)] ∧
        (failed.any (fun p => decide (p < pointCount s)) = true → regBit t pgBeam 0x28 3 = true)) ∧
    (readHeard s .cal pgCal 0x50 = true → calPresent s region index = true →
      ∃ t, Machine.exec (.calData dt none) s = .next t ∧ t.port.rsp = 0 ∧ t.port.rdata = calGet s region index ∧
        regFld t pgCal 0x48 19 0 = (index + 1) % 2 ^ 20 ∧ t.cal = s.cal) ∧
    (∀ d, writeHeard s .cal pgCal 0x50 d = true → calPresent s region index = true → (s.tim.calRunning = true → region ≠ 0 ∧ region ≠ 4) →
      ∃ t, Machine.exec (.calData dt (some d)) s = .next t ∧ t.port.rsp = 0 ∧ regFld t pgCal 0x48 19 0 = (index + 1) % 2 ^ 20 ∧
        t.cal.queue = s.cal.queue ++ [(calKey region index, BitVec.ofNat 64 (d.toNat % 2 ^ calBits region))] ∧
        (calGet t region index).toNat = d.toNat % 2 ^ calBits region) ∧
    (∀ k w rest, s.cal.queue = (k, w) :: rest →
      (∃ t, Machine.exec (.calStoreWrite dt true) s = .next t ∧ t.cal.queue = rest ∧ t.cal.writes = s.cal.writes + 1 ∧
        mget (calDflt (k / 2 ^ 20)) t.cal.store k = w) ∧
      (∃ t, Machine.exec (.calStoreWrite dt false) s = .next t ∧ t.cal.queue = rest ∧ t.cal.writes = s.cal.writes + 1 ∧
        regBit t pgCal 0x28 0 = true))

/-- Sensor samples complete: kept with their stamp and trims, or dropped and counted, by the channel's map as it takes force at the sample;
the change of the TDISP state completes (R47, R337, R298). An inexact trim and one outside the format are the model's free choice
(notes/assumptions 10, 32). -/
def Obligations.PinsOfSensorsAndTdispAct : Prop :=
  ∀ (dt : Nat) (s : State), Inv s → s.booting = false →
    (∀ ch voltage v tdc, ch < 64 →
      let u := mapChannel ch (advance dt s)
      let w := snsMap u ch
      let x := (trimSample ch voltage v u).1
      let trim := calGet s 3 ch
      let n : Int := sampleVal (bn voltage) v * (fld trim 31 16 : Nat) + signedN 16 (fld trim 15 0) * 32768
      (ch < s.inst.sensors → w = regGet s pgHub (0x300 + 8 * ch)) ∧
      samples u ch = (if ch < s.inst.sensors ∧ bit w 62 ≠ bit (snsMap s ch) 62 then [] else samples s ch) ∧
      (bit w 63 = true → bit w 62 = voltage →
        (∃ t, Machine.exec (.sensorSample dt ch voltage v tdc) s = .next t ∧
          samples t ch = samples u ch ++ [(beamAt (advance dt s) pgHub (tapRaw (advance dt s) (ptHub s 2) tdc), x)] ∧
          (∀ c, c ≠ ch → samples t c = samples s c)) ∧
        (∀ q : Int, n = q * 32768 → (if voltage then 0 else -32768) ≤ q → q ≤ (if voltage then 65535 else 32767) →
          x = BitVec.ofNat 16 (fieldOfInt 16 q))) ∧
      (bit w 63 = false ∨ bit w 62 ≠ voltage →
        ∃ t, Machine.exec (.sensorSample dt ch voltage v tdc) s = .next t ∧ t.sens = u.sens ∧ regBit t pgHub 0x28 9 = true ∧
          regGet t pgHub 0x500 = satFld (regGet s pgHub 0x500) 31 0 1)) ∧
    (∀ state : BitVec 2,
      ∃ t, Machine.exec (.tdispStateChange dt state) s = .next t ∧ t.key.tdi = state ∧
        t.key.seed = (if s.key.tdi = 2 ∧ state ≠ 2 then [] else s.key.seed) ∧ t.key.rb = s.key.rb)

/-- Captured issues and retires open and close entries of an ENABLED Heddle that is not leaving, an unmatched retire waits as a span with
NO_BEGIN, and spans are accepted at least 32 bt after their retire stamp (R28, R126, R128 to R133, R249; notes/assumptions 65). -/
def Obligations.CommandCapturesMoveEntries : Prop :=
  ∀ (dt h : Nat) (s : State), Inv s → s.booting = false → hedThere s.inst h = true →
    let u := hedFirst h (advance dt s)
    (∀ it i, hedActive u h = true → ctxOn u h it.ctx.toNat = true → it.mark = 0 → openEnt u h it.ctx it.tag = none →
      freeEntNum u h true = some i →
      ∃ t e, Machine.exec (.commandIssue dt h it) s = .next t ∧ (hed t h).ents = (hed u h).ents ++ [e] ∧ (hed t h).seqIss = some it.seq ∧
        e.full = true ∧ e.num = i ∧ e.st = .opened ∧ e.item = it ∧ e.issueRaw = tapRaw u (ptIssue h) it.tdc ∧
        e.issue = beamAt u (pgHed h) e.issueRaw ∧ e.selected = traces (cardAt u h it.ctx.toNat e.issueRaw) it.cls.toNat ∧
        e.noIds = (servingReed u h).isNone) ∧
    (∀ it, (hedActive u h = false ∨ (ctxOn u h it.ctx.toNat = false ∧ it.mark = 0)) →
      ∃ t, Machine.exec (.commandIssue dt h it) s = .next t ∧ (hed t h).ents = (hed u h).ents ∧ (hed t h).seqIss = some it.seq) ∧
    (∀ it, hedActive u h = true →
      let raw := tapRaw u (ptRetire h) it.tdc
      let stamp := beamAt u (pgHed h) raw
      ∃ t, Machine.exec (.commandRetire dt h it) s = .next t ∧ (hed t h).seqRet = some it.seq ∧
        (∀ e, openEnt u h it.ctx it.tag = some e →
          (hed t h).held = (hed u h).held ∧
          (hed t h).ents = (hed u h).ents.map fun y => if y.full == e.full && y.num == e.num then
            { y with st := .retired, retire := stamp, retireRaw := raw, status := it.status } else y) ∧
        (openEnt u h it.ctx it.tag = none → ctxOn u h it.ctx.toNat = true →
          (hed t h).ents = (hed u h).ents ∧ (hed t h).held = (hed u h).held ++
            [⟨it.ctx.toNat, stampAt u (pgHed h) stamp raw, raw, stamp, raw + 32, .endOnly it.tag it.status⟩])) ∧
    (∀ it, hedActive u h = false →
      ∃ t, Machine.exec (.commandRetire dt h it) s = .next t ∧ (hed t h).seqRet = some it.seq ∧ (hed t h).ents = (hed u h).ents ∧
        (hed t h).held = (hed u h).held) ∧
    (let v := settleHed h u
     let bare := fun (y : Ent) => { y with cutAcc := false, tfAcc := false }
     (∀ e, spanReady v h e = true → e.retireRaw + 32 ≤ newRaw dt s ∧ (servingReed v h).isSome = true) ∧
     (∀ e, (retiredEnts v h).find? (fun e => spanReady v h e) = some e →
       ∃ t, Machine.exec (.spanAccept dt h) s = .next t ∧
         (hed t h).ents.map bare = ((hed v h).ents.filter fun y => !(y.full == e.full && y.num == e.num)).map bare) ∧
     ((retiredEnts v h).find? (fun e => spanReady v h e) = none →
       ∃ t, Machine.exec (.spanAccept dt h) s = .next t ∧ (hed t h).ents = (hed v h).ents))

/-- Event lines, stall reasons, sampling instants and clock states move the counts, the records that wait and the clock gaps of a Heddle
(R99 to R102, R147 to R150). -/
def Obligations.TapEventsMoveCountsAndClocks : Prop :=
  ∀ (dt h : Nat) (s : State), Inv s → s.booting = false → hedThere s.inst h = true →
    let u := hedFirst h (advance dt s)
    let x := hedC u h
    let pg := pgHed h
    (∀ line : BitVec 5, ∃ t, Machine.exec (.eventLineTransition dt h line) s = .next t ∧
      (hedC t h).evt = mupd 0 (hedC s h).evt line.toNat (· + 1)) ∧
    (∀ r tdc, r ≠ x.reason →
      let raw := tapRaw u (ptOther h) tdc
      let stamp := beamAt u pg raw
      let stalled := x.stalled + (if x.reason = 0 then 0 else raw - x.reasonRaw)
      ∃ t, Machine.exec (.stallReasonChange dt h r tdc) s = .next t ∧ (hedC t h).reason = r ∧ (hedC t h).reasonAt = stamp ∧
        (hedC t h).reasonRaw = raw ∧ (hedC t h).changes = x.changes + 1 ∧ (hedC t h).stalled = stalled ∧
        (hed t h).held = (hed u h).held ++ (if hedActive u h then (ctxsOn u h).map fun c =>
          ⟨c, stampAt u pg stamp raw, raw, stamp, raw + 32, .stall 1 r x.reason (raw - x.reasonRaw) stalled (x.changes + 1)⟩ else [])) ∧
    (∀ i, hedActive u h = true → lastInstant u h 55 51 = some i → isNew x.lastStl i = true →
      let t0 := beamOf u pg - (u.tim.raw - i)
      let r := stallAt x i
      ∃ t, Machine.exec (.stallSamplePeriodic dt h) s = .next t ∧ (hedC t h).lastStl = some i ∧ (hedC t h).changes = x.changes ∧
        (hedC t h).reason = x.reason ∧
        (hed t h).held = (hed u h).held ++ (ctxsOn u h).map fun c =>
          ⟨c, stampAt u pg t0 i, i, t0, i + 32, .stall 0 r.1 0 (i - r.2.1) (stalledTo x i) r.2.2.2⟩) ∧
    (∀ edges, ∃ t, Machine.exec (.counterSample dt h edges) s = .next t ∧ (hed t h).cycles = (hed u h).cycles + BitVec.ofNat 48 edges ∧
      (∀ i, hedActive u h = true → lastInstant u h 60 56 = some i → isNew x.lastCnt i = true →
        let t0 := beamOf u pg - (u.tim.raw - i)
        (hedC t h).lastCnt = some i ∧
        (hed t h).held = (hed u h).held ++ (ctxsOn u h).map fun c =>
          ⟨c, stampAt u pg t0 i, i, t0, i + 32, .sample ((hed u h).cycles + BitVec.ofNat 48 edges) x.evt⟩)) ∧
    (∀ (st : BitVec 2) edges tdc, st ≠ (hed u h).clkState →
      let raw := tapRaw u (ptOther h) tdc
      ∃ t, Machine.exec (.clockStateChange dt h st edges tdc) s = .next t ∧ (hed t h).cycles = (hed u h).cycles + BitVec.ofNat 48 edges ∧
        (hed t h).clkState = st ∧
        (clkEff st = clkEff (hed u h).clkState → (hed t h).gap.isSome = (hed u h).gap.isSome ∧ (hed t h).held = (hed u h).held) ∧
        (clkEff st ≠ clkEff (hed u h).clkState → (hed t h).gap.isSome = (hedActive u h && st != 0) ∧
          (∀ g, (hed u h).gap = some g → ctxOn u h 0 = true →
            (hed t h).held = (hed u h).held ++ [⟨0, ⟨g.entry, g.entryRaw, g.und, g.wide⟩, raw, beamAt u pg raw, raw + 32,
              .gap g (beamAt u pg raw) (((hed u h).cycles + BitVec.ofNat 48 edges) - BitVec.ofNat 48 g.cycles).toNat 0⟩]))) ∧
    (∀ edges g, (hed u h).gap = some g → (hed u h).clkState ≠ 0 → g.entryRaw + 0xFFFFFFFF ≤ u.tim.raw →
      ∃ t, Machine.exec (.gapLimit dt h edges) s = .next t ∧
        ∃ g', (hed t h).gap = some g' ∧ g'.entryRaw = u.tim.raw ∧ g'.entry = beamOf u pg)

/-- Witness events move a Reed's checks, once what has come due in the Reed is decided. A mirrored beat taken from the queue fills the first
gathered tile of its key with a role open for it, is dropped with a dropped tile, ends a gathered tile that has had the role (shape), forms
and fills a tile of its check card where the tile is admitted or deferred, or is counted as stray (R196, R201 to R204; the instant of admission
and what ends a tile at which beat are log 37's reading). A gather timer or a staging error ends a check, an error in the staging of a
re-homed Heddle's slot marks its entry (R141, R202, R216), and the last share of a check ends it (R205). -/
def Obligations.WitnessEventsMoveChecks : Prop :=
  ∀ (dt r : Nat) (s : State), Inv s → s.booting = false → r < s.inst.reeds →
    let u := witFlush r (advance dt s)
    let x := witReed u r
    (∀ b rest, x.queue = b :: rest → isWorking u (pgReed r) = true →
      let v := updWit r (fun x => { x with queue := rest, tombs := x.tombs.filter fun t => gatherPaused u r || u.tim.raw < t.ends }) u
      let owner := primaryReed u b.hed
      let pos := hedPos u b.hed
      let ctx := b.ctx.toNat
      let mine := x.checks.filter fun c => c.keyed owner b.card b.tag && c.gathering
      let opens := fun c : Check => openRoles c.card c.roleDone pos ctx
      let fill := fun (c : Check) (l : List Nat) => l.map fun i => (i, roleBeat c.card i b ((c.roles[i]?).getD ⟨[], false, 0⟩))
      let put := fun (c : Check) (l : List (Nat × List Nat × Role)) => l.foldl (fun l e => l.set e.1 e.2.2) c.roles
      let k := cardFor u r owner b.card
      let first := openRoles k (fun _ => false) pos ctx
      let free := stagingSize - stagingUsed u r
      let served := (kslot u k.tenant).st == .active && (reedWits r).any (fun w => isEnabled u (pgWit w)) &&
        decide (k.footprint + 1024 * regFld u (pgReed r) 0x100 15 0 ≤ free) && decide (0 ≤ (reedGov u r).creditM) &&
        decide ((cardEnergy u k : Int) ≤ (reedGov u r).creditO)
      ∃ t, Machine.exec (.mirrorIntake dt r) s = .next t ∧ (witReed t r).queue = rest ∧
        (b.dead = true → (witReed t r).checks = x.checks) ∧
        (b.dead = false →
          (∀ c, mine.find? (fun c => !(opens c).isEmpty) = some c → c.id ∉ x.order → (∀ y ∈ x.checks, y.id = c.id → y = c) →
            match (fill c (opens c)).flatMap (·.2.1) with
            | m :: ms => ∀ y ∈ (witReed t r).checks, y.id = c.id → y.outcome.map (·.reason) = some (ms.foldl min m)
            | [] =>
              if c.card.roles.all { c with roles := put c (fill c (opens c)) }.roleDone then ∀ y ∈ (witReed t r).checks, y.id = c.id → y.complete = true
              else ∃ y ∈ (witReed t r).checks, y.id = c.id ∧ y.roles = put c (fill c (opens c)) ∧ y.gathering = true) ∧
          (mine.find? (fun c => !(opens c).isEmpty) = none →
            (∀ j, droppedTile v r owner pos ctx b.card b.tag = some j →
              witReed t r = { witReed v r with tombs := dropBeat j pos ctx b.last (witReed v r).tombs }) ∧
            (droppedTile v r owner pos ctx b.card b.tag = none →
              (∀ c, mine.find? (fun c => [0, 1, 2].any fun i => c.card.roleAt i pos ctx) = some c → c.id ∉ x.order →
                ∀ y ∈ (witReed t r).checks, y.id = c.id → y.outcome.map (·.reason) = some 0x14) ∧
              (mine.find? (fun c => [0, 1, 2].any fun i => c.card.roleAt i pos ctx) = none →
                (k.valid = false ∨ first = [] → (witReed t r).checks = x.checks ∧ (witReed t r).nextId = x.nextId) ∧
                (k.valid = true → first ≠ [] → k.must = false → served = false →
                  (witReed t r).checks = x.checks ∧ (witReed t r).nextId = x.nextId) ∧
                (k.valid = true → first ≠ [] → k.must = true ∨ served = true → (∀ y ∈ x.checks, y.id ≠ x.nextId) → x.nextId ∉ x.order →
                  let new := fun y : Check => y.owner = owner ∧ y.idx = b.card ∧ y.tag = b.tag ∧ y.card = k ∧ y.first = b.stamp ∧
                    y.firstRaw = b.raw ∧ y.gen = (kslot u k.tenant).current
                  let fresh : Check := ⟨x.nextId, owner, b.card, b.tag, k, 0, 0, 0, 0, 0, [⟨[], false, 0⟩, ⟨[], false, 0⟩, ⟨[], false, 0⟩], false, true,
                    false, none⟩
                  (witReed t r).nextId = x.nextId + 1 ∧ (∀ y ∈ (witReed t r).checks, y.id = x.nextId → new y) ∧
                  (k.must = true → free < k.footprint →
                    ∀ y ∈ (witReed t r).checks, y.id = x.nextId → y.outcome.map (·.reason) = some 0x12) ∧
                  (¬(k.must = true ∧ free < k.footprint) →
                    match (fill fresh first).flatMap (·.2.1) with
                    | m :: ms => ∀ y ∈ (witReed t r).checks, y.id = x.nextId → y.outcome.map (·.reason) = some (ms.foldl min m)
                    | [] =>
                      if k.roles.all { fresh with roles := put fresh (fill fresh first) }.roleDone then
                        ∀ y ∈ (witReed t r).checks, y.id = x.nextId → y.complete = true
                      else ∃ y ∈ (witReed t r).checks, y.id = x.nextId ∧ y.roles = put fresh (fill fresh first) ∧ y.gathering = true))))))) ∧
    (∀ id c, x.checks.find? (fun c => c.id == id) = some c → c.gathering = true → id ∉ x.order →
      2 ^ regFld u (pgReed r) 0x60 4 0 ≤ gatherTime u r c →
      ∃ t, Machine.exec (.gatherTimeout dt r id) s = .next t ∧ (witReed t r).queue = x.queue ∧
        ∀ y ∈ (witReed t r).checks, y.id = id → y.outcome.map (·.reason) = some 0x15) ∧
    (∀ id c, x.checks.find? (fun c => c.id == id) = some c → c.outcome = none →
      ∃ t, Machine.exec (.stagingEccError dt r (.tile id)) s = .next t ∧ (witReed t r).queue = x.queue ∧ id ∉ (witReed t r).order ∧
        ∀ y ∈ (witReed t r).checks, y.id = id → y.outcome.map (·.reason) = some 0x11) ∧
    (∀ h n, servingReed u h = some r → primaryReed u h ≠ r →
      ∃ t, Machine.exec (.stagingEccError dt r (.slot h n)) s = .next t ∧
        (hed t h).ents = (hed u h).ents.map fun e => if e.full && e.num == n then { e with noIds := true } else e) ∧
    (∀ w sh id c, w / 4 = r → witThere s.inst w = true → mfind (witReed s r).busy w = some sh → (witReed s r).todo = [] →
      (witReed s r).order.head? = some id → (witReed s r).started = true → (witReed s r).checks.find? (fun c => c.id == id) = some c →
      ∃ t, Machine.exec (.shareComplete dt w) s = .next t ∧
        (mdel (witReed s r).busy w = [] → ∀ y ∈ (witReed t r).checks, y.id = id → y.outcome.isSome = true) ∧
        (mdel (witReed s r).busy w ≠ [] → (witReed t r).busy = mdel (witReed s r).busy w))

/-- A card-map byte brings a valid counter card into force at once or puts it to wait for a marker, and CARD_LOAD and CARD_FETCH move check
cards between the buffer, the array and the successor's shadow, once what has come due in the page's part is decided (R145, R195, R197,
Table CS-9, Table WA-1). -/
def Obligations.CardsAreBroughtIntoForce : Prop :=
  ∀ (dt : Nat) (s : State), Inv s → s.booting = false →
    (∀ h high d i, h < 4096 → i < 8 →
      let u := due (pgHed h) dt s
      let c := (if high then 8 else 0) + i
      let b := fld d (8 * i + 7) (8 * i)
      let w0 := regGet u (pgHed h) (0x400 + 0x20 * (b % 32))
      let w1 := regGet u (pgHed h) (0x408 + 0x20 * (b % 32))
      writeHeard u (.hed h) (pgHed h) (if high then 0x120 else 0x118) d = true →
      ∃ t, Machine.exec (.hedCardMap dt h high d) s = .next t ∧ t.port.rsp = 0 ∧
        card t h c = (if fieldN b 6 6 = 1 ∧ fieldN b 7 7 = 0 ∧ bit w1 63 = true ∧ fld w1 62 61 = 1 then some ⟨b % 32, w0, w1⟩ else card u h c) ∧
        (fieldN b 6 6 = 1 → fieldN b 7 7 = 1 → mfind (hedC t h).waiting c = some (b % 32))) ∧
    (∀ r cond, r < 256 →
      let u := due (pgReed r) dt s
      let e := regFld u (pgReed r) 0x120 5 0
      actionHeard u (pgReed r) 0xB0 cond = true → tdiForbids u (.reed r) (pgReed r) 0x18 (ctrlWord 0xB0 cond) = false →
      (pst u (pgReed r) = .disabled ∨ pst u (pgReed r) = .enabled) → ((cardBuf u r).valid = true → (cardBuf u r).loadable = true) →
      ∃ t, Machine.exec (.cardLoad dt r cond) s = .next t ∧ t.port.rsp = 0 ∧
        mget CheckCard.zero t.cards (r * 64 + e) = cardBuf u r ∧ mget CheckCard.zero t.shadows (succReed u r * 64 + e) = cardBuf u r) ∧
    (∀ r cond, r < 256 →
      let u := due (pgReed r) dt s
      actionHeard u (pgReed r) 0xB1 cond = true → (pst u (pgReed r) = .disabled ∨ pst u (pgReed r) = .enabled) →
      ∃ t, Machine.exec (.cardFetch dt r cond) s = .next t ∧ t.port.rsp = 0 ∧
        cardBuf t r = mget CheckCard.zero s.cards (r * 64 + regFld u (pgReed r) 0x120 5 0) ∧ t.cards = s.cards)

/-- An output beat of an open command with a mirrored card goes to the queue of its Reed with its stamp, or is dropped with its dropped tile;
one of a Heddle that is not ENABLED, or that matches no open command, goes nowhere (R28, R195, R196, R203). -/
def Obligations.OutputBeatsAreMirrored : Prop :=
  ∀ (dt h : Nat) (it : OutBeat) (s : State), Inv s → s.booting = false → hedThere s.inst h = true →
    let u := hedFirst h (advance dt s)
    ((hedActive u h = false ∨ openEnt u h it.ctx it.tag = none) →
      ∃ t, Machine.exec (.outputBeat dt h it) s = .next t ∧ (hed t h).seqBeat = some it.seq ∧ t.wits = s.wits) ∧
    (∀ e, hedActive u h = true → openEnt u h it.ctx it.tag = some e → e.mirror = none →
      ∃ t, Machine.exec (.outputBeat dt h it) s = .next t ∧ (hed t h).seqBeat = some it.seq ∧ t.wits = s.wits) ∧
    (∀ e idx w, hedActive u h = true → openEnt u h it.ctx it.tag = some e → e.mirror = some idx → servingReed u h = some w →
      let r := mirrorReed u w h it.ctx.toNat idx it.tag
      let dropped := if keyWaits u r (primaryReed u h) idx it.tag then none
        else droppedTile u r (primaryReed u h) (hedPos u h) it.ctx.toNat idx it.tag
      (∀ j, dropped = some j → ∃ t, Machine.exec (.outputBeat dt h it) s = .next t ∧
        witReed t r = { witReed s r with tombs := dropBeat j (hedPos u h) it.ctx.toNat it.last (witReed s r).tombs }) ∧
      (dropped = none → ((witReed s r).queue.filter fun x => !x.lost).length < 64 →
        let raw := tapRaw u (ptOther h) it.tdc
        ∃ t, Machine.exec (.outputBeat dt h it) s = .next t ∧
          (witReed t r).queue = (witReed s r).queue ++ [⟨h, it.ctx, it.tag, idx, if e.item.addrOnly then none else some e.item.op, it.off, it.last,
            it.data, beamAt u (pgHed h) raw, raw, false, false⟩]))

/-- Completions, timeouts, releases and flushes move blocks: an unknown tag is a stray completion; a completion in time frees its tag and with
OK commits the block's records; the deadline makes a tag late (50 us from the acknowledgement of the last beat, log 71); a release takes the
oldest stored block's records, of before the indices were set to 0 first (log 78), and advances HEAD past what is released; a shadow
acknowledgement takes the HEAD sent while the successor has not taken its shadows; an open run whose oldest record has waited is closed (R34,
R170, R171, R173, R178). -/
def Obligations.CompletionsAndReleasesMoveBlocks : Prop :=
  ∀ (dt : Nat) (s : State), Inv s → s.booting = false →
    (∀ w (tag : BitVec 4) error, writerThere s.inst w = true → mfind (wport s w).tags tag.toNat = none →
      ∃ t, Machine.exec (.memoryCompletion dt w tag error) s = .next t ∧ wport t w = wport s w ∧ regBit t (pgWriter w) 0x28 0 = true ∧
        regGet t (pgWriter w) (complOff w) = satFld (regGet s (pgWriter w) (complOff w)) 31 0 1) ∧
    (∀ w (tag : BitVec 4) error x, writerThere s.inst w = true → mfind (wport s w).tags tag.toNat = some x →
      ∃ t, Machine.exec (.memoryCompletion dt w tag error) s = .next t ∧ (wport t w).tags = mdel (wport s w).tags tag.toNat ∧
        (error = false → x.late = false → portRecords s w = false →
          (∀ b idx e n, x.ref = .bob b idx → beingScanned s b = false →
            (bob s b).window.find? (fun e => e.idx == idx) = some e → e.st = .outstanding → e.stream = some n →
            strm t n = { strm s n with committed := (strm s n).committed + (strm s n).taken, taken := 0 }) ∧
          (∀ b n e, x.ref = .past b (some n) → (bob s b).past.find? (fun e => e.stream == some n && e.st == .outstanding) = some e →
            strm t n = { strm s n with committed := (strm s n).committed + (strm s n).taken, taken := 0 } ∧
            (bob t b).past = (bob s b).past.map fun y => if y == e then { y with st := .stored } else y))) ∧
    (∀ w (tag : BitVec 4) x, writerThere s.inst w = true → mfind (wport s w).tags tag.toNat = some x → x.late = false →
      x.issued + 200460 ≤ newRaw dt s →
      ∃ t, Machine.exec (.completionTimeout dt w tag) s = .next t ∧
        (wport t w).tags = mins (wport s w).tags tag.toNat { x with late := true }) ∧
    (∀ b, bobThere s.inst b = true →
      let a := advance dt s
      let u := settleWriter ((bobWriter a (b / 8)).getD (b / 8)) a
      ∃ t, Machine.exec (.releaseAcknowledge dt b) s = .next t ∧
        (releasing u b = none → bob t b = bob u b) ∧
        (∀ e n, releasing u b = some e → e.stream = some n →
          let old := (bob u b).past.contains e
          let marked := (bob u b).window.map fun y => if !old && y.idx == e.idx then { y with st := .released } else y
          let k := (marked.takeWhile fun y => y.st == .released).length
          (bob t b).past = (bob u b).past.filter (· != e) ∧ (bob t b).window = marked.drop k ∧
          (bob t b).head = (bob u b).head + BitVec.ofNat 32 k ∧
          (n < 0x10000 → strm t n = { strm u n with recs := (strm u n).recs.drop e.n, committed := (strm u n).committed - e.n }))) ∧
    (∀ b, bobThere s.inst b = true →
      ∃ t, Machine.exec (.shadowAcknowledge dt b) s = .next t ∧
        bob t b = (if b / 8 = 256 ∨ (adoptedBy s (b / 8)).phase = .idle then { bob s b with shadow := (bob s b).shadowSent } else bob s b)) ∧
    (∀ n e r,
      let a := advance dt s
      let u := settleWriter (strWriter a n) a
      openRunRec (strm u n) = some (e, r) → e.accepted + 2 ^ r.flush ≤ u.tim.raw →
      ∃ t, Machine.exec (.flushWaitExpiry dt n) s = .next t ∧ strm t n = { strm u n with runs := closeLast u.closes (strm u n).runs } ∧
        t.closes = u.closes + 1)

/-- FLUSH, BOB_ENABLE, BOB_DISABLE and a TAIL write that are let through complete with their effect on the bobbin, once what has come due in
the part is decided: a flush closes every open run of the packer; an enable latches the registers and, where the slot was never enabled or its
producer, base or size changed, sets the indices to 0; a TAIL is judged by the HEAD that is shown (R171, R175, R176, R177, R190, Table
DL-7). -/
def Obligations.BobbinCommandsAct : Prop :=
  ∀ (dt w : Nat) (slot : BitVec 3) (s : State), Inv s → s.booting = false → writerThere s.inst w = true →
    let pg := pgWriter w
    let u := due pg dt s
    let b := 8 * w + slot.toNat
    (∀ cond, actionHeard u pg (if w = 256 then 0xC0 else 0x90) cond = true → isEnabled u pg = true →
      let v := settleWriter w u
      ∃ t, Machine.exec (.flush dt pg cond) s = .next t ∧ t.port.rsp = 0 ∧
        ∀ n r, strBob v n ∈ writerBobs v w → (strm t n).runs.getLast? = some r → r.closed.isSome = true) ∧
    (∀ cond, actionHeard u pg ((if w = 256 then 0xC8 else 0x98) + slot.toNat) cond = true → mayManage u pg = true →
      bobAdopted u b = false → (bob u b).en = false →
      let cfg := regGet u pg (bobBase b)
      let base := regGet u pg (bobBase b + 8)
      let size := regGet u pg (bobBase b + 16)
      let fresh := !(bob u b).latched || fld cfg 41 32 != fld (bob u b).cfg 41 32 || base != (bob u b).base ||
        fld size 5 0 != fld (bob u b).size 5 0
      1 ≤ fld cfg 26 24 → fld cfg 26 24 ≤ 3 → 16 ≤ fld size 5 0 → fld size 5 0 ≤ 40 → 1 ≤ fld size 15 8 → fld size 15 8 ≤ 64 →
      (bit cfg 15 = true → fld cfg 26 24 ≠ 1 ∧ (kslot u (fld cfg 21 16)).st = .active) → (w = 256 → bit cfg 8 = true) →
      (∀ e ∈ u.key.slots, e.2.st = .erased → b ∉ e.2.scrubBobs) →
      ∃ t, Machine.exec (.bobEnable dt pg slot cond) s = .next t ∧ t.port.rsp = 0 ∧ (bob t b).en = true ∧ (bob t b).fault = false ∧
        (bob t b).cfg = cfg ∧ (bob t b).base = base ∧ (bob t b).size = size ∧
        (bob t b).head = (if fresh then 0 else (bob u b).head) ∧ (bob t b).write = (if fresh then 0 else (bob u b).write) ∧
        (bob t b).tail = (if fresh then 0 else (bob u b).tail) ∧ (bob t b).window = (if fresh then [] else (bob u b).window)) ∧
    (∀ cond, actionHeard u pg ((if w = 256 then 0xD0 else 0xA0) + slot.toNat) cond = true → mayManage u pg = true →
      bobAdopted u b = false →
      ∃ t, Machine.exec (.bobDisable dt pg slot cond) s = .next t ∧ t.port.rsp = 0 ∧ bob t b = { bob u b with en := false }) ∧
    (∀ tail, writeHeard u (if w = 256 then .hub else .reed w) pg ((if w = 256 then 0xC20 else 0x820) + 0x40 * slot.toNat) tail = true →
      let i := BitVec.ofNat 32 (fld tail 31 0)
      before32 (shownBob u b).head i = false → before32 i (bob u b).tail = false →
      ∃ t, Machine.exec (.bobTail dt pg slot tail) s = .next t ∧ t.port.rsp = 0 ∧ (bob t b).tail = i ∧ (bob t b).write = (bob u b).write ∧
        (bob t b).full = ((bob u b).full && decide ((bob u b).slots ≤ idxDist i (bob u b).write)))

/-- A window begins with its budget and allowance, and a block is issued from the first run in order, with its address, once the records that
wait for the writer are decided (R32, R153, R154, R159, R170, R171, R175). -/
def Obligations.WindowsBeginAndBlocksAreIssued : Prop :=
  ∀ (dt : Nat) (s : State), Inv s → s.booting = false →
    ((s.gov.k + 1) * govWindow s ≤ newRaw dt s →
      ∃ t, Machine.exec (.governorWindowStart dt) s = .next t ∧ t.gov.k = s.gov.k + 1 ∧ t.gov.budget = s.gov.budgetNext ∧
        t.gov.cap = s.gov.capNext ∧ t.gov.e2 = s.gov.e1 ∧ t.gov.e1 = s.exempt ∧
        t.gov.energies.head? = some (newRaw dt s, s.gov.energy, govWindow s) ∧
        t.gov.allow = s.gov.budgetNext * govWindow s / 64 * 15 / 512 - s.gov.e1) ∧
    (∀ w n tag r rest, writerThere s.inst w = true →
      let u := settleWriter w (advance dt s)
      let b := strBob u n
      portOpen u w = true → freeTag u w = some tag → (w = 256 → u.fw.bufOut = none ∧ snagReady u = false ∧ zeroReady u = none) →
      (w ≠ 256 → scanReady u w = none) → (∀ b' ∈ writerBobs u w, waitingSlot (bob u b') = none) →
      (runsInOrder u w).head? = some n → (strm u n).runs = r :: rest → claimOk u b = true → kindOk u b n = true →
      (ringFull u b = true → bobWraps u b = true) →
      ∃ t, Machine.exec (.blockIssue dt w) s = .next t ∧
        mfind (wport t w).tags tag = some ⟨.bob b (bob u b).write,
          (bob u b).base.toNat + 512 * ((bob u b).write.toNat % 2 ^ (fld (bob u b).size 5 0 - 9)), u.tim.raw, false⟩ ∧
        strm t n = { strm u n with taken := r.n, runs := rest } ∧ (bob t b).write = (bob u b).write + 1)

/-- The steps of a re-homing complete: the port falls idle and the bobbins that the shadows were taken for are read from their shadow HEADs, the
scan ends and the streams that need it await their retained runs, a retained run is reported and the blocks a rebuild found of its stream are
released, the bobbins are handed back (R180 to R187, Table DL-3). -/
def Obligations.ReHomingPasses : Prop :=
  ∀ (dt a : Nat) (s : State), Inv s → s.booting = false → writerThere s.inst a = true →
    let u := advance dt s
    let r := if a = 256 then 256 else predReed u a
    ((adopt u a).phase = .waitPort → portBusy u r = false →
      ∃ t, Machine.exec (.writePortIdle dt a) s = .next t ∧ (adopt t a).phase = .scan ∧
        ∀ b ∈ ownerBobs r, b ∈ (adopt u a).scanning →
          (bob t b).window = [] ∧ (bob t b).head = (bob u b).shadow ∧ (bob t b).write = (bob u b).shadow) ∧
    ((adopt u a).phase = .scan → (adopt u a).todo = [] → (u.rport.waiting.any fun e => scanOf a none e.1) = false →
      (u.rport.tags.any fun e => scanOf a none e.2.what) = false →
      let ns := rebuiltStreams u r ((adopt u a).results.map (·.bob)).eraseDups
      ∃ t, Machine.exec (.scanComplete dt a) s = .next t ∧ (adopt t a).results = [] ∧ (adopt t a).scanning = [] ∧
        (adopt t a).await = (adopt u a).await.filter (fun e => !ns.contains e.1) ++
          ns.map (fun n => (n, laterWord ((mfind (adopt u a).await n).getD none) (storedWord (adopt u a).results n))) ∧
        (adopt t a).phase = if a = 256 then .idle else if isEnabled u (pgReed r) then .returning else .serving) ∧
    (∀ n w, (adopt u a).await.find? (fun e => e.1 == n) = some (n, w) →
      let dup := fun (x : Rec) => match w with
        | some v => x.seq == v || before32 x.seq v
        | none => false
      ∃ t, Machine.exec (.retainedRunReport dt a n) s = .next t ∧ (adopt t a).await = (adopt u a).await.filter (fun e => e.1 != n) ∧
        (strm t n).committed = 0 ∧ (strm t n).recs = ((strm s n).recs.filter fun x => !dup x).map fun x =>
          if x.accepted < (adopt u a).began then { x with replay := true } else x) ∧
    (a ≠ 256 → returnReady u a = true →
      ∃ t, Machine.exec (.handBack dt a) s = .next t ∧ (adopt t a).phase = .idle ∧
        ∀ b ∈ ownerBobs r, bob t b = { bob s b with shadow := (bob s b).head, shadowSent := (bob s b).head })

/-- Read beats, read timeouts, readback requests and their answers complete (R35, R36, R305). A read that ends before its last beat keeps its tag
until that beat (the model's choice, notes/assumptions 81). -/
def Obligations.ReadsEndWithTheirBlock : Prop :=
  ∀ (dt : Nat) (tag : BitVec 4) (s : State), Inv s → s.booting = false →
    (∀ beat last error data, mfind s.rport.tags tag.toNat = none →
      ∃ t, Machine.exec (.readBeat dt tag beat last error data) s = .next t ∧ regBit t pgHub 0x28 8 = true ∧ t.key = s.key ∧ t.fw = s.fw) ∧
    (∀ x (beat : BitVec 3) last error data, mfind s.rport.tags tag.toNat = some x → x.ended = false →
      (beat.toNat = x.beats.length → beat.toNat < 7 →
        ∃ t, Machine.exec (.readBeat dt tag beat last error data) s = .next t ∧
          mfind t.rport.tags tag.toNat = some { x with beats := x.beats ++ [data], bad := x.bad || error }) ∧
      (beat.toNat = x.beats.length → beat.toNat = 7 →
        ∃ t, Machine.exec (.readBeat dt tag beat last error data) s = .next t ∧
          (∀ y, mfind t.rport.tags tag.toNat = some y → y.asked = newRaw dt s) ∧
          (x.what = .readback → t.key.rb = { s.key.rb with
            data := some (if x.bad || error then none else some (BitVec.ofNat 4096 (beatsBlock (x.beats ++ [data])))) })) ∧
      (beat.toNat ≠ x.beats.length →
        ∃ t, Machine.exec (.readBeat dt tag beat last error data) s = .next t ∧ regBit t pgHub 0x28 8 = true ∧
          (beat.toNat = 7 → ∀ y, mfind t.rport.tags tag.toNat = some y → y.asked = newRaw dt s) ∧
          (beat.toNat < 7 → mfind t.rport.tags tag.toNat = some { x with what := .dropped, ended := true }) ∧
          (x.what = .readback → t.key.rb = { s.key.rb with data := some none }))) ∧
    (∀ x (beat : BitVec 3) last error data, mfind s.rport.tags tag.toNat = some x → x.ended = true →
      ∃ t, Machine.exec (.readBeat dt tag beat last error data) s = .next t ∧ t.key = s.key ∧ t.fw = s.fw ∧
        (beat.toNat = 7 → ∀ y, mfind t.rport.tags tag.toNat = some y → y.asked = newRaw dt s) ∧
        (beat.toNat < 7 → mfind t.rport.tags tag.toNat = some x)) ∧
    (∀ x, mfind s.rport.tags tag.toNat = some x → x.ended = false → x.asked + 200000 ≤ newRaw dt s →
      ∃ t, Machine.exec (.readTimeout dt tag) s = .next t ∧ regBit t pgHub 0x28 8 = true ∧
        mfind t.rport.tags tag.toNat = some { x with what := .dropped, ended := true } ∧
        (x.what = .readback → t.key.rb = { s.key.rb with data := some none })) ∧
    (∀ rid addr, ∃ t, Machine.exec (.readbackRequest dt rid addr) s = .next t ∧ t.key.rb.queue = s.key.rb.queue ++ [⟨rid, addr⟩]) ∧
    (∀ q rest, s.key.rb.queue = q :: rest → (s.key.rb.early.isSome = true ∨ s.key.rb.data.isSome = true) →
      ∃ t, Machine.exec (.readbackComplete dt) s = .next t ∧ t.key.rb.queue = rest ∧
        (∀ st, s.key.rb.early = some st → t.key.rb.answer = some (st, 0)) ∧
        (s.key.rb.early = none → s.key.rb.data = some none → t.key.rb.answer = some (5, 0)) ∧
        (∀ blk p, s.key.rb.early = none → s.key.rb.data = some (some blk) → rbPlace (advance dt s) q.addr.toNat = some p →
          t.key.rb.answer = some (rbResult (advance dt s) p blk)))

/-- OWN_CLEARED_THRU follows the settled epochs, up to the oldest epoch that a check without PASS keeps back and never past OWN_TAINT_FROM, a
stale one taints, the CLEAR batches place their notice where the value has moved, TDISP and gate queries are answered with the epoch, and receipts
reach the ledger (R222 to R224, R226, R227, R231, R314). -/
def Obligations.EpochsSettleAndReceiptsEnterTheLedger : Prop :=
  ∀ (dt : Nat) (s : State), Inv s → s.booting = false →
    let u := advance dt s
    (∃ t, Machine.exec (.epochSettled dt) s = .next t ∧
      let m : Nat := min (oldestUnsettled t) (oldestBad t)
      let cur : Nat := t.tim.raw / epochLen t
      let below := fun (v : State) => signedN 16 (v.ver.own.taintFrom - 1 - v.ver.own.cleared).toNat
      (hubEvaluates t = true → t.ver.own.tainted = false → clearedBack t + m ≤ cur + 1) ∧
      (clearedBack s + ((newRaw dt s / epochLen s : Nat) - (s.tim.raw / epochLen s : Nat) : Int) < 2 ^ 15 →
        t.ver.own.cleared = s.ver.own.cleared ∨ (cur + 1 : Int) ≤ clearedBack t + m) ∧
      (s.ver.own.tainted = true → 0 ≤ below s → 0 ≤ below t)) ∧
    (hubEvaluates u = true → 2 ^ 14 ≤ clearedBack (settleEpochs u) → u.ver.own.tainted = false →
      ∃ t, Machine.exec (.staleEpoch dt) s = .next t ∧ t.ver.own.tainted = true ∧ t.ver.own.stale = true ∧
        t.ver.own.taintFrom = BitVec.ofNat 16 (oldestUnsettled u)) ∧
    (∀ i, lastMultiple u pgHub 200000 = some i → isNew s.ver.lastBatch i = true →
      let w := settleEpochs (updVer (fun v => { v with lastBatch := some i }) u)
      let o := w.ver.own
      ∃ t, Machine.exec (.clearBatch dt) s = .next t ∧ t.ver.lastBatch = some i ∧
        ((o.cleared = o.lastClear ∨ 1024 ≤ s.ver.queue.length) → t.ver.queue = s.ver.queue ∧ t.ver.own.lastClear = o.lastClear) ∧
        (o.cleared ≠ o.lastClear → s.ver.queue.length < 1024 → t.ver.own.lastClear = o.cleared ∧ t.ver.own.passes = 0 ∧
          (s.ver.owed = 0 → s.ver.eager = 0 →
            t.ver.queue = s.ver.queue ++ [.notice 2 0 (ownDie s) o.cleared 0 (BitVec.ofNat 32 (min o.passes 0xFFFFFFFF)) 0 0
              (recFlags w (stampNow w pgHub (hubBeam w)) [] 0) (hubBeam w)]))) ∧
    (∀ n h, linkThere s.inst n = true →
      let v := isEnabled s (pgLnk n) && planned s n && ((link s n).topo == 3 || (link s n).topo == 6) && regBit s (pgLnk n) 0x48 0 &&
        hedThere s.inst h && isEnabled s (pgHed h) && regBit s (pgHed h) 0x170 0
      ∃ t, Machine.exec (.epochQuery dt n h) s = .next t ∧
        link t n = { link s n with eqValid := v, eqEpoch := if v then epochNow u else 0 }) ∧
    (∀ n r rest, linkThere s.inst n = true → (link s n).toLedger = r :: rest → pst s pgHub ≠ .resetting →
      ∃ t, Machine.exec (.ledgerReceipt dt n) s = .next t ∧ (link t n).toLedger = rest ∧
        (∀ x, mfind s.ver.led r.die.toNat = some x → mfind t.ver.led r.die.toNat = some (x.receive r.epoch r.stamp)) ∧
        (mfind s.ver.led r.die.toNat = none → (ledgerAlloc r.die.toNat r.epoch none s.ver.led).isSome = true →
          mfind t.ver.led r.die.toNat = some (LedEnt.receive ⟨r.epoch - 1, 0, false, none, []⟩ r.epoch r.stamp)) ∧
        (mfind s.ver.led r.die.toNat = none → (ledgerAlloc r.die.toNat r.epoch none s.ver.led).isSome = false →
          t.ver.blind = true ∧ t.ver.led = s.ver.led))

/-- POISON, CLEAR, ABSOLVE, CONFIRM and UNBLIND complete with their effect on the die or its ledger entry: a POISON of the own die at or before
OWN_CLEARED_THRU takes that value back, one of a die without an entry makes one or blinds the ledger, the others leave such a die alone; a notice
that Table VT-1 does not allow is REFUSED and changes nothing (R227 to R230, Table VT-1). -/
def Obligations.NoticesActOnTheLedger : Prop :=
  ∀ (dt : Nat) (die : BitVec 14) (e : BitVec 16) (s : State), Inv s → s.booting = false → isEnabled s pgHub = true →
    regBit s pgSync 0x50 31 = true → (∀ k, 1 ≤ k → k ≤ 4 → writeHeard s .hub pgHub 0x258 (noticeWord k die e) = true) →
    let own := die.toNat = ownDie s
    let past := after16 e (epochNow (advance dt s) + 1)
    (own →
      ∃ t, Machine.exec (.poison dt die e) s = .next t ∧ t.port.rsp = 0 ∧ t.ver.own.tainted = true ∧
        t.ver.own.taintFrom = (if !s.ver.own.tainted || after16 s.ver.own.taintFrom e then e else s.ver.own.taintFrom) ∧
        (after16 e (settleEpochs (advance dt s)).ver.own.cleared = false → t.ver.own.cleared = e - 1)) ∧
    (∀ x, ¬own → mfind s.ver.led die.toNat = some x →
      ∃ t y, Machine.exec (.poison dt die e) s = .next t ∧ t.port.rsp = 0 ∧ mfind t.ver.led die.toNat = some y ∧ y.tainted = true ∧
        y.taintFrom = (if !x.tainted || after16 x.taintFrom e then e else x.taintFrom) ∧ y.cleared = if after16 e x.cleared then x.cleared else e - 1) ∧
    (¬own → mfind s.ver.led die.toNat = none →
      ∃ t, Machine.exec (.poison dt die e) s = .next t ∧ t.port.rsp = 0 ∧
        ((ledgerAlloc die.toNat e none s.ver.led).isSome = true → mfind t.ver.led die.toNat = some ⟨e - 1, e, true, none, []⟩) ∧
        ((ledgerAlloc die.toNat e none s.ver.led).isSome = false → t.ver.blind = true ∧ t.ver.led = s.ver.led)) ∧
    (¬own → ∃ t, Machine.exec (.clear dt die e) s = .next t ∧ t.port.rsp = 0 ∧
      (∀ x, mfind s.ver.led die.toNat = some x → mfind t.ver.led die.toNat = some (x.clear e)) ∧
      (mfind s.ver.led die.toNat = none → t.ver.led = s.ver.led)) ∧
    (¬own → ∃ t, Machine.exec (.absolve dt die e) s = .next t ∧ t.port.rsp = 0 ∧
      (∀ x, mfind s.ver.led die.toNat = some x → mfind t.ver.led die.toNat = some (x.absolve e)) ∧
      (mfind s.ver.led die.toNat = none → t.ver.led = s.ver.led)) ∧
    (own → past = false →
      ∃ t, Machine.exec (.absolve dt die e) s = .next t ∧ t.port.rsp = 0 ∧ t.ver.own.tainted = false ∧ t.ver.own.stale = false) ∧
    (own →
      ∃ t, Machine.exec (.confirm dt die e) s = .next t ∧ t.port.rsp = 0 ∧ t.ver.own.confirm = later16 s.ver.own.confirm e) ∧
    (∀ c, (c = Instr.clear dt die e ∧ own) ∨ (c = Instr.confirm dt die e ∧ ¬own) ∨ (c = Instr.absolve dt die e ∧ own ∧ past = true) →
      ∃ t, Machine.exec c s = .next t ∧ t.port.rsp = 1 ∧ t.ver.led = s.ver.led ∧ t.ver.own.tainted = s.ver.own.tainted ∧
        t.ver.own.confirm = s.ver.own.confirm) ∧
    (∀ cond, actionHeard s pgHub 0xE0 cond = true → s.ver.blind = true →
      ∃ t, Machine.exec (.unblind dt cond) s = .next t ∧ t.port.rsp = 0 ∧ t.ver.blind = false)

/-- A verdict gate request pends with its scope, or is answered at once with a scope of 0, on a Heddle that is not ENABLED or behind another; a
gate opens when every selected condition holds, and a request behind it begins then (R235, R42, Table VT-4). -/
def Obligations.GatesAreRequestedAndOpen : Prop :=
  ∀ (dt h : Nat) (s : State), Inv s → s.booting = false → hedThere s.inst h = true →
    let u := hedFirst h (advance dt s)
    let x := hedGate u h
    let scopeOf := fun (c : BitVec 4) => regFld u (pgHed h) 0x168 (3 * c.toNat + 2) (3 * c.toNat)
    (∀ (c : BitVec 4) tdc, x.gate = none → isEnabled u (pgHed h) = true → scopeOf c ≠ 0 →
      let raw := tapRaw u (ptOther h) tdc
      ∃ t g, Machine.exec (.gateRequest dt h c tdc) s = .next t ∧ hedGate t h = { x with req := !x.req, ctx := c, gate := some g } ∧
        g.ctx = c ∧ g.g = beamAt u (pgHed h) raw ∧ g.raw = raw ∧ g.scope = scopeOf c) ∧
    (∀ (c : BitVec 4) tdc, x.gate = none → isEnabled u (pgHed h) = true → scopeOf c = 0 →
      ∃ t, Machine.exec (.gateRequest dt h c tdc) s = .next t ∧ hedGate t h = ⟨!x.req, !x.req, c, none⟩ ∧
        (x.req = x.ack → regGet t (pgHed h) 0x178 = addFld (regGet u (pgHed h) 0x178) 63 32 1)) ∧
    (∀ (c : BitVec 4) tdc, x.gate = none → isEnabled u (pgHed h) = false →
      ∃ t, Machine.exec (.gateRequest dt h c tdc) s = .next t ∧ hedGate t h = { x with req := !x.req, ack := !x.req, ctx := c } ∧
        regGet t (pgHed h) 0x178 = satFld (regGet u (pgHed h) 0x178) 31 16 1) ∧
    (∀ (c : BitVec 4) tdc, x.gate.isSome = true →
      ∃ t, Machine.exec (.gateRequest dt h c tdc) s = .next t ∧ hedGate t h = { x with req := !x.req, ctx := c } ∧
        regBit t (pgHed h) 0x28 9 = true) ∧
    (∀ g, x.gate = some g →
      let opens := g.scope = 0 ∨ (hubEvaluates u = true ∧ gateHolds (settleEpochs u) g = true)
      ∃ t, Machine.exec (.gateOpen dt h) s = .next t ∧ (¬opens → hedGate t h = x) ∧
        (opens → x.req ≠ x.ack → hedGate t h = { x with ack := !x.ack, gate := none } ∧
          regGet t (pgHed h) 0x178 = addFld (regGet u (pgHed h) 0x178) 63 32 1) ∧
        (opens → x.req = x.ack → scopeOf x.ctx = 0 → hedGate t h = { x with gate := none }) ∧
        (opens → x.req = x.ack → scopeOf x.ctx ≠ 0 →
          ∃ g', hedGate t h = { x with ack := !x.ack, gate := some g' } ∧ g'.ctx = x.ctx ∧ g'.scope = scopeOf x.ctx ∧
            g'.raw = u.tim.raw ∧ g'.g = beamOf u (pgHed h)))

/-- The manifest loads, test deadlines pass, HUB_TEST_NEXT is read and reports wait no longer than their limit for sensors (R239 to R243,
Table VT-9). -/
def Obligations.TestsAndReportsAdvance : Prop :=
  ∀ (dt : Nat) (s : State), Inv s → s.booting = false →
    (∀ cond, actionHeard s pgHub 0xE1 cond = true → isEnabled s pgFw = true →
      ∃ t, Machine.exec (.testReload dt cond) s = .next t ∧ t.port.rsp = 0 ∧ t.tests.reading = some [] ∧ t.tests.states = [] ∧
        t.tests.ents = s.tests.ents) ∧
    (∀ ds mid es, s.tests.reading = some ds → ds ≠ [] → manifestBlocks ((ds.map (·.2)).head?.getD none) ≤ ds.length →
      manifest s (ds.map (·.2)) = some (mid, es) →
      ∃ t, Machine.exec (.manifestLoadComplete dt) s = .next t ∧ t.tests.mid = mid ∧ t.tests.ents = es ∧ t.tests.reading = none) ∧
    (∀ ds, s.tests.reading = some ds → ds ≠ [] → manifestBlocks ((ds.map (·.2)).head?.getD none) ≤ ds.length →
      manifest s (ds.map (·.2)) = none →
      ∃ t, Machine.exec (.manifestLoadComplete dt) s = .next t ∧ t.tests.mid = s.tests.mid ∧ t.tests.ents = s.tests.ents ∧
        t.tests.reading = none ∧ regBit t pgHub 0x28 6 = true) ∧
    (∀ i h x e, hedThere s.inst h = true → mfind s.tests.states (i * 4096 + h) = some x → s.tests.ents[i]? = some e → fwRuns s = true →
      x.st = 1 → x.fromRaw + e.limit * 4000 ≤ newRaw dt s →
      ∃ t y, Machine.exec (.testDeadline dt i h) s = .next t ∧ mfind t.tests.states (i * 4096 + h) = some y ∧ y.st = 3) ∧
    (∀ i h x e, hedThere s.inst h = true → mfind s.tests.states (i * 4096 + h) = some x → s.tests.ents[i]? = some e → fwRuns s = true →
      x.st ≠ 1 → x.entered + e.limit * 4000 ≤ newRaw dt s →
      ∃ t, Machine.exec (.testDeadline dt i h) s = .next t ∧ mfind t.tests.states (i * 4096 + h) = none) ∧
    (readHeard s .hub pgHub 0x298 = true →
      (∀ pre i h rest, s.tests.fifo = (pre, i, h) :: rest →
        ∃ t more, Machine.exec (.hubTestNext dt) s = .next t ∧ t.port.rsp = 0 ∧
          t.port.rdata = packW [(63, 1, 1), (62, 1, bn pre), (32, 6, i), (0, 12, h)] ∧ t.tests.fifo = rest ++ more) ∧
      (s.tests.fifo = [] → ∃ t, Machine.exec (.hubTestNext dt) s = .next t ∧ t.port.rsp = 0 ∧ t.port.rdata = 0 ∧ t.tests.fifo = [])) ∧
    (s.ver.owed = 0 → s.ver.eager = 0 →
      ∃ t, Machine.exec (.sensorWaitExpiry dt) s = .next t ∧ t.ver.queue.length = s.ver.queue.length ∧
        ∀ r, Notice.report r ∈ t.ver.queue → r.sensed = true → r.placedRaw + 4000000 ≤ newRaw dt s → r.filled = true)

/-- A stop moves through its phases: launched by the host or a pin, armed, disarmed, absorbed or replaced by an event while ARMED, compared with Tc,
cut once every hold, scan and earlier record is decided, snagged and resumed; an action that the phase does not allow is REFUSED and changes
nothing of the stop (R245 to R251, R258, R259, Table SS-2). -/
def Obligations.TheStopMovesThroughItsPhases : Prop :=
  ∀ (dt : Nat) (s : State), Inv s → s.booting = false →
    let u := advance dt s
    let ctl := regGet s pgStop 0x40
    let counts := regGet s pgStop 0x98
    let early := hubBeam u + s.stop.guard < s.stop.armedAt
    let pin := fun (tdc : Tdc) => beamAt u pgHub (tapRaw u (ptHub u 1) tdc)
    (∀ cond, actionHeard s pgHub 0xF0 cond = true → isEnabled s pgHub = true → (s.stop.phase = .idle ∨ (s.stop.phase = .armed ∧ early)) →
      ∃ t, Machine.exec (.stopNow dt cond) s = .next t ∧ t.port.rsp = 0 ∧ t.stop.phase = .cutting ∧ t.stop.num = s.stop.num + 1 ∧
        t.stop.source = 1 ∧ t.stop.tc = hubBeam u ∧ t.stop.armed = [] ∧ t.stop.out = (s.stop.out || ctlPinOut ctl) ∧
        t.stop.cutTodo = ((treePages s).filter fun p => !hasCut s p) ∧
        (s.stop.phase = .armed → regGet t pgStop 0x98 = satFld counts 47 32 1)) ∧
    (∀ cond, actionHeard s pgHub 0xF0 cond = true → isEnabled s pgHub = true → s.stop.phase = .armed → ¬early → hubBeam u < s.stop.armedAt →
      ∃ t, Machine.exec (.stopNow dt cond) s = .next t ∧ t.port.rsp = 0 ∧ t.stop = s.stop ∧ regGet t pgStop 0x98 = satFld counts 63 48 1) ∧
    (∀ tdc, ctlPinIn ctl = true → (s.stop.phase = .idle ∨ (s.stop.phase = .armed ∧ early)) →
      ∃ t, Machine.exec (.stopIn dt tdc) s = .next t ∧ t.stop.phase = .cutting ∧ t.stop.num = s.stop.num + 1 ∧ t.stop.source = 2 ∧
        t.stop.tc = pin tdc ∧ t.stop.armed = [] ∧ t.stop.out = (s.stop.out || ctlPinOut ctl) ∧
        (s.stop.phase = .armed → regGet t pgStop 0x98 = satFld counts 47 32 1)) ∧
    (∀ tdc, ctlPinIn ctl = true → s.stop.phase = .armed → ¬early → hubBeam u < s.stop.armedAt →
      ∃ t, Machine.exec (.stopIn dt tdc) s = .next t ∧ t.stop = s.stop ∧ regGet t pgStop 0x98 = satFld counts 63 48 1) ∧
    (∀ tdc, ctlPinIn ctl = true → s.stop.phase ≠ .idle → s.stop.phase ≠ .armed →
      ∃ t, Machine.exec (.stopIn dt tdc) s = .next t ∧ t.stop = s.stop ∧ regGet t pgStop 0x98 = satFld counts 31 16 1) ∧
    (∀ tdc, ctlPinIn ctl = false → ∃ t, Machine.exec (.stopIn dt tdc) s = .next t ∧ t.stop = s.stop ∧ regGet t pgStop 0x98 = counts) ∧
    (∀ cond, actionHeard s pgHub 0xF1 cond = true → isEnabled s pgHub = true → s.stop.phase = .idle → strapOk s = true →
      beam u + 80000 ≤ (regGet s pgStop 0x48).toNat →
      ∃ t, Machine.exec (.arm dt cond) s = .next t ∧ t.port.rsp = 0 ∧ t.stop.phase = .armed ∧ t.stop.armedAt = (regGet s pgStop 0x48).toNat ∧
        t.stop.guard = fld ctl 63 48 ∧
        ∀ p, p ∈ (linkList s).map pgLnk ++ (reedList s).map pgReed ++ (hedList s).map pgHed → isEnabled s p = true → p ∈ t.stop.armed) ∧
    (∀ cond, actionHeard s pgHub 0xF2 cond = true → isEnabled s pgHub = true → s.stop.phase = .armed →
      ∃ t, Machine.exec (.disarm dt cond) s = .next t ∧ t.port.rsp = 0 ∧ t.stop = { s.stop with phase := .idle, armed := [] }) ∧
    (s.stop.phase = .armed → s.stop.armedAt ≤ hubBeam u →
      ∃ t, Machine.exec (.ttCompare dt) s = .next t ∧ t.stop.phase = .cutting ∧ t.stop.num = s.stop.num + 1 ∧ t.stop.source = 3 ∧
        t.stop.tc = s.stop.armedAt) ∧
    (s.stop.phase = .cutting → cutReady (settleAll u) = true →
      ∃ t, Machine.exec (.cutComplete dt) s = .next t ∧ t.stop.ts = hubBeam u ∧
        t.stop.phase = (if ctlSnag s.stop.ctl && s.stop.snagBase != 0 then .snagging else .stopped)) ∧
    (s.stop.phase = .snagging → s.stop.snagDone = true →
      ∃ t, Machine.exec (.snagWritten dt) s = .next t ∧ t.stop = { s.stop with phase := .stopped }) ∧
    (∀ cond, actionHeard s pgHub 0xF3 cond = true → isEnabled s pgHub = true → s.stop.phase = .stopped →
      ∃ t, Machine.exec (.resume dt cond) s = .next t ∧ t.port.rsp = 0 ∧
        t.stop = { s.stop with phase := .resuming, tr := hubBeam u, out := false, resumeTodo := treePages s,
                               past := s.stop.past ++ [(s.stop.tc, hubBeam u)] }) ∧
    (s.stop.phase = .resuming → s.stop.resumeTodo = [] →
      ∃ t, Machine.exec (.resumeComplete dt) s = .next t ∧ t.stop = { s.stop with phase := .idle }) ∧
    (∀ c cond, (c = Instr.stopNow dt cond ∧ actionHeard s pgHub 0xF0 cond = true ∧ s.stop.phase ≠ .idle ∧ s.stop.phase ≠ .armed) ∨
        (c = Instr.arm dt cond ∧ actionHeard s pgHub 0xF1 cond = true ∧
          (s.stop.phase ≠ .idle ∨ strapOk s = false ∨ (regGet s pgStop 0x48).toNat < beam u + 80000)) ∨
        (c = Instr.disarm dt cond ∧ actionHeard s pgHub 0xF2 cond = true ∧ s.stop.phase ≠ .armed) ∨
        (c = Instr.resume dt cond ∧ actionHeard s pgHub 0xF3 cond = true ∧ s.stop.phase ≠ .stopped) →
      ∃ t, Machine.exec c s = .next t ∧ t.port.rsp = 1 ∧ t.stop = s.stop)

/-- A stop pulse reaches a Heddle or link port, which takes as Tc the latest value of its own Beam with the carried bits; an armed part fires at
its own Beam; the resume lowers the hold of a Heddle and thaws a ring that was frozen for the stop; a grace ends and its ring freezes (R246, R247,
R251 to R254, R259). -/
def Obligations.TheCutAndTheResumeReachTheParts : Prop :=
  ∀ (dt : Nat) (s : State), Inv s → s.booting = false →
    (∀ p, isHome s.inst p = true →
      let u := due p dt s
      let learns := fun (t : State) (tc : Nat) => ∀ h, p = pgHed h →
        (hedStop t h).learnt = true ∧ ((hedStop u h).learnt = false → (hedStop t h).tc = tc ∧ (isEnabled u p = true →
          (hedStop t h).atCut = true ∧ (hedStop t h).line = present u h ∧ (hedStop t h).hold = bn (present u h)))
      (u.stop.phase = .cutting → p ∈ u.stop.cutTodo →
        ∃ t, Machine.exec (.stopTreeArrival dt p) s = .next t ∧ learns t (carried u p u.stop.tc) ∧
          t.stop = { u.stop with armed := u.stop.armed.filter (· != p), cutTodo := u.stop.cutTodo.filter (· != p) } ∧
          ∀ n, n < 96 → p = pgLnk n → isEnabled u p = true → (link u n).cut.grace = false → (link u n).cut.frozen = false →
            (link t n).cut.tc = carried u p u.stop.tc ∧ (link t n).cut.grace = decide ((link u n).freeze ≠ 2) ∧
            (link t n).cut.frozen = decide ((link u n).freeze = 2)) ∧
      (p ∈ u.stop.armed → u.stop.armedAt ≤ beamOf u p →
        ∃ t, Machine.exec (.armedPartFire dt p) s = .next t ∧ p ∉ t.stop.armed ∧ p ∉ t.stop.cutTodo ∧ learns t u.stop.armedAt) ∧
      (u.stop.phase = .resuming → p ∈ u.stop.resumeTodo →
        ∃ t, Machine.exec (.resumeArrival dt p) s = .next t ∧ t.stop = { u.stop with resumeTodo := u.stop.resumeTodo.filter (· != p) } ∧
          (∀ h, p = pgHed h → (hedStop t h).learnt = false ∧ (hedStop t h).markers = [] ∧
            ((hedStop u h).line = true → ((hedStop u h).scanning = false ∨ isEnabled u p = false) →
              (hedStop t h).line = false ∧ (hedStop t h).hold = 0)) ∧
          (∀ n, n < 96 → p = pgLnk n → (link t n).cut.grace = false ∧ (link t n).cut.frozen = false ∧
            (link t n).freeze = if (link u n).freeze = 1 then 0 else (link u n).freeze))) ∧
    (∀ n, linkThere s.inst n = true →
      let u := settleLnk n (advance dt s)
      (link u n).cut.grace = true →
      ((link u n).cut.tc + 2 ^ fld (actCtl u) 23 20 ≤ beamOf u (pgLnk n) ∨ 64 ≤ afterCutUsed (link u n)) →
      ∃ t, Machine.exec (.graceExpiry dt n) s = .next t ∧ (link t n).cut.grace = false ∧ (link t n).cut.frozen = true ∧
        (link t n).freeze = if (link u n).freeze = 0 then 1 else (link u n).freeze)

/-- A hold is acknowledged, or times out; a scan word that was asked for is buffered, or withheld while the tenant's slot is not ACTIVE; a full or
last buffer waits for the Reed, which writes it as a scan block of Table SS-5; a word that does not come ends the scan (R41, R154, R252, R256). -/
def Obligations.HoldsAndScansAdvance : Prop :=
  ∀ (dt h : Nat) (s : State), Inv s → s.booting = false → hedThere s.inst h = true →
    let u := hedFirst h (advance dt s)
    let x := hedStop u h
    let withheld := ∃ t, hedSlot u h = some t ∧ (kslot u t).st ≠ .active
    (∀ tdc, x.line = true → x.ack = false →
      let start := u.stop.phase == .cutting && x.atCut && ctlScan u.stop.ctl && u.stop.scanBase != 0
      ∃ t, Machine.exec (.holdAck dt h tdc) s = .next t ∧
        hedStop t h = { x with
          ack := true, hold := 2, ackStamp := beamAt u (pgHed h) (tapRaw u (ptOther h) tdc), scan := if start then 6 else x.scan,
          wordAsked := if start then some u.tim.raw else x.wordAsked }) ∧
    (x.line = true → x.hold = 1 → x.learntRaw + ctlHoldLimit (actCtl u) ≤ u.tim.raw →
      ∃ t, Machine.exec (.holdTimeout dt h) s = .next t ∧ hedStop t h = { x with hold := 3 } ∧ regBit t pgStop 0x28 1 = true) ∧
    (∀ w last, x.wordAsked = none →
      ∃ t, Machine.exec (.scanWord dt h w last) s = .next t ∧ hedStop t h = x ∧ regBit t (pgHed h) 0x28 8 = true) ∧
    (∀ w last, x.wordAsked.isSome = true → x.scan = 6 → ¬withheld →
      let y := { x with words := x.words + 1, wordAsked := some u.tim.raw, buf := x.buf ++ [w] }
      ∃ t, Machine.exec (.scanWord dt h w last) s = .next t ∧
        (last = false → x.buf.length + 1 < 120 → hedStop t h = y) ∧
        (last = true ∨ 120 ≤ x.buf.length + 1 →
          hedStop t h = { y with wordAsked := none, out := some ⟨0, false, 0, last, false⟩ } ∧
          (reedGov t (countingReed u h)).scan0 = (reedGov u (countingReed u h)).scan0 + 15)) ∧
    (∀ w, x.wordAsked.isSome = true → x.scan = 6 → withheld →
      ∃ t, Machine.exec (.scanWord dt h w false) s = .next t ∧
        hedStop t h = { x with words := x.words + 1, wordAsked := some u.tim.raw, buf := [], scan := 5 } ∧ regBit t pgStop 0x28 2 = true) ∧
    (∀ r, x.wordAsked = some r → x.scan = 6 → r + ctlHoldLimit u.stop.ctl ≤ u.tim.raw →
      ∃ t, Machine.exec (.scanWordTimeout dt h) s = .next t ∧ hedStop t h = { x with scan := 3 } ∧ regBit t pgStop 0x28 2 = true) ∧
    (∀ w tag o, reedThere s.inst w = true →
      let v := settleWriter w (advance dt s)
      let y := hedStop v h
      portOpen v w = true → freeTag v w = some tag → scanReady v w = some h → scanFits v w = true → hedSlot v h = none →
      y.out = some o → o.sent = false →
      ∃ t, Machine.exec (.blockIssue dt w) s = .next t ∧
        (hedStop t h).out = some { o with
          atPort := true, sent := true,
          blk := BitVec.ofNat 4096 (pack [(0, 16, 0xF31C), (16, 8, 1), (24, 8, 0), (32, 12, h), (48, 16, v.stop.num.toNat), (64, 32, y.blkNo),
            (96, 8, y.buf.length), (104, 1, bn o.last), (105, 1, bn (!o.last && decide (scanBlocks v ≤ y.blkNo + 1)))] +
            layWords y.buf * 2 ^ 256) } ∧
        mfind (wport t w).tags tag = some ⟨.scan h y.blkNo, v.stop.scanBase.toNat + h * 2 ^ v.stop.scanLog + 512 * y.blkNo, v.tim.raw, false⟩ ∧
        (reedGov t w).scanUsed = (reedGov v w).scanUsed + 15)

/-- Input edges, filter acceptances, Falcen's own events, coalescing timeouts and wake-ups complete on their source (R265 to R269, R277,
R278). -/
def Obligations.SourcesAreFilteredCoalescedAndWake : Prop :=
  ∀ (dt n : Nat) (s : State), Inv s → s.booting = false →
    let u := advance dt s
    let x := trdSrc s n
    (∀ level, inputThere n = true → x.input ≠ level →
      ∃ t, Machine.exec (.treadleInputEdge dt n level) s = .next t ∧ (trdSrc t n).input = level ∧
        (trdOn s = true → srcSense s n ≤ 1 → x.runRaw = none →
          trdSrc t n = { x with input := level, runRaw := if x.level == level then none else some (newRaw dt s, trdStamp u) }) ∧
        (∀ r st, trdOn s = true → x.runRaw = some (r, st) → x.wake = none → newRaw dt s < r + srcFilter s n →
          regGet t pgTrd 0x48 = satFld (regGet s pgTrd 0x48) 63 48 1) ∧
        (trdOn s = false → pst s pgTrd ≠ .failed → pst s pgTrd ≠ .retired → x.latch = none → srcSense s n ≤ 1 →
          srcActiveLevel s n level = true → trdSrc t n = { x with input := level, runRaw := none, latch := some (trdStamp u) })) ∧
    (∀ r st, inputThere n = true → trdOn s = true → x.runRaw = some (r, st) → r + srcFilter s n ≤ newRaw dt s →
      ∃ t, Machine.exec (.filterAccept dt n) s = .next t ∧ (trdSrc t n).level = x.input ∧ (trdSrc t n).levelStamp = st ∧
        (trdSrc t n).runRaw = none ∧
        (srcSense s n = 1 → srcActiveLevel s n x.input = true → x.active = false → (trdSrc t n).pend = true) ∧
        (srcSense s n = 1 → srcActiveLevel s n x.input = false → x.pend = true →
          (trdSrc t n).pend = false ∧ regGet t pgTrd 0x48 = satFld (regGet s pgTrd 0x48) 47 32 1) ∧
        (srcSense s n = 0 → srcActiveLevel s n x.input = true → x.pend = false → fld (srcWord s n) 35 28 ≤ x.unrep + 1 →
          (trdSrc t n).pend = true ∧ (trdSrc t n).batch = min 255 (x.batch + x.unrep + 1) ∧
          (trdSrc t n).stamp = (if x.unrep = 0 then st else x.first))) ∧
    (falcenSources.contains n = true →
      ∃ t, Machine.exec (.falcenSourceEvent dt n) s = .next t ∧
        (trdOn s = true → x.pend = true → (trdSrc t n).pend = true ∧ (trdSrc t n).batch = min 255 (x.batch + 1)) ∧
        (trdOn s = true → x.pend = false → fld (srcWord s n) 35 28 ≤ x.unrep + 1 →
          (trdSrc t n).pend = true ∧ (trdSrc t n).batch = min 255 (x.batch + x.unrep + 1) ∧ (trdSrc t n).unrep = 0 ∧
          (trdSrc t n).stamp = (if x.unrep = 0 then trdStamp u else x.first)) ∧
        (trdOn s = true → x.pend = false → x.unrep + 1 < fld (srcWord s n) 35 28 →
          (trdSrc t n).pend = false ∧ (trdSrc t n).unrep = x.unrep + 1 ∧ (trdSrc t n).first = (if x.unrep = 0 then trdStamp u else x.first)) ∧
        (trdOn s = false → pst s pgTrd ≠ .failed → pst s pgTrd ≠ .retired → x.latch = none → trdSrc t n = { x with latch := some (trdStamp u) })) ∧
    (sourceThere n = true → trdOn s = true → 0 < x.unrep → x.pend = false → x.first + 4000 * fld (srcWord s n) 27 12 ≤ beamOf u pgTrd →
      ∃ t, Machine.exec (.coalesceTimeout dt n) s = .next t ∧
        trdSrc t n = { x with pend := true, batch := min 255 (x.batch + x.unrep), unrep := 0, stamp := x.first, first := 0 }) ∧
    (∀ st, sourceThere n = true → x.latch = some st → s.trd.doze = true → isEnabled s pgTrd = true → srcEnabled s n = true →
      ∃ t, Machine.exec (.asyncWake dt n) s = .next t ∧ t.trd.doze = false ∧ t.trd.wakeSrc = n ∧ t.trd.wakeAt = st ∧ (trdSrc t n).latch = none)

/-- Doorbells, claims, completes, pending sets and clears and doze writes that are let through complete with their response (R268, R270,
R271, R273, R274, R276, R277). -/
def Obligations.TheTreadleAnswersItsAccesses : Prop :=
  ∀ (dt : Nat) (s : State), Inv s → s.booting = false →
    let u := advance dt s
    (∀ d, writeHeard s (.trd 0) pgTrd 0x50 d = true →
      let n := fld d 10 0
      let rings := isEnabled s pgTrd && decide (100 ≤ n) && decide (n ≤ 2040) && srcSense s n == 2
      ∃ t, Machine.exec (.trdDoorbell dt d) s = .next t ∧ t.port.rsp = (if rings then 0 else 1) ∧
        (rings = true → s.trd.doze = false → (trdSrc s n).pend = true → (trdSrc t n).batch = min 255 ((trdSrc s n).batch + 1)) ∧
        (rings = true → s.trd.doze = false → (trdSrc s n).pend = false → fld (srcWord s n) 35 28 ≤ (trdSrc s n).unrep + 1 →
          (trdSrc t n).pend = true ∧ (trdSrc t n).batch = min 255 ((trdSrc s n).batch + (trdSrc s n).unrep + 1)) ∧
        (rings = true → t.trd.doze = false)) ∧
    (∀ T, T < 16 → readHeard s (.trd 0) pgTrd (0x100 + 0x40 * T) = true →
      ∃ t, Machine.exec (.trdClaim dt T) s = .next t ∧ t.port.rsp = 0 ∧
        (∀ n, trdOn s = true → mostUrgent u (claimable u T) = some n →
          t.port.rdata = BitVec.ofNat 64 n ∧
          trdSrc t n = { trdSrc s n with pend := false, active := true, batch := 0, asy := false, noBeam := false, repend := false } ∧
          (trdTgt t T).stack = (n, tierOf s (srcPrio s n)) :: (trdTgt s T).stack ∧ (trdTgt t T).stamp = (trdSrc s n).stamp ∧
          (trdTgt t T).claims = (trdTgt s T).claims + 1) ∧
        (trdOn s = true → mostUrgent u (claimable u T) = none → (trdTgt s T).offered = true → t.port.rdata = 2047 ∧ (trdTgt t T).offered = false) ∧
        (trdOn s = false ∨ (mostUrgent u (claimable u T) = none ∧ (trdTgt s T).offered = false) → t.port.rdata = 0 ∧ t.trd = s.trd)) ∧
    (∀ T d, T < 16 → writeHeard s (.trd 0) pgTrd (0x108 + 0x40 * T) d = true →
      ∃ t, Machine.exec (.trdComplete dt T d) s = .next t ∧
        (∀ k rest, isEnabled s pgTrd = true → (trdTgt s T).stack = (fld d 10 0, k) :: rest →
          t.port.rsp = 0 ∧ (trdTgt t T).stack = rest ∧ (trdSrc t (fld d 10 0)).active = false) ∧
        (isEnabled s pgTrd = false ∨ (∀ k rest, (trdTgt s T).stack ≠ (fld d 10 0, k) :: rest) →
          t.port.rsp = 1 ∧ (trdTgt t T).stack = (trdTgt s T).stack)) ∧
    (∀ w d, w < 32 → writeHeard s (.trd 1) 9 (0x408 + 0x18 * w) d = true →
      ∃ t, Machine.exec (.trdPendingSet dt w d) s = .next t ∧ t.port.rsp = 0 ∧
        ∀ n, trdSrc t n = if n ∈ wordSources w d ∧ (trdSrc s n).pend = false then { trdSrc s n with pend := true, stamp := trdStamp u } else trdSrc s n) ∧
    (∀ w d, w < 32 → writeHeard s (.trd 1) 9 (0x410 + 0x18 * w) d = true →
      ∃ t, Machine.exec (.trdPendingClr dt w d) s = .next t ∧ t.port.rsp = 0 ∧
        (∀ n, (n ∉ wordSources w d ∨ (trdSrc s n).pend = false) → trdSrc t n = trdSrc s n) ∧
        (∀ n, n ∈ wordSources w d → (trdSrc s n).pend = true → (trdSrc t n).batch = 0 ∧ (srcSense s n ≠ 1 → (trdSrc t n).pend = false))) ∧
    (∀ d, writeHeard s (.trd 0) pgTrd 0x58 d = true →
      ∃ t, Machine.exec (.trdDoze dt d) s = .next t ∧
        (bit d 0 = true → (∀ T, T < s.inst.targets → claimable u T = []) → t.port.rsp = 0 ∧ t.trd.doze = true) ∧
        (∀ T, bit d 0 = true → T < s.inst.targets → claimable u T ≠ [] → t.port.rsp = 1 ∧ t.trd.doze = s.trd.doze) ∧
        (bit d 0 = false → t.port.rsp = 0 ∧ t.trd.doze = false))

/-- Link state changes, absence, headers, unacknowledged lists and ring releases complete on their port, once the records of the port that had
come due are decided (R43, R226, R249, R286, R289 to R293, R297). -/
def Obligations.LinksFollowTheirStateAndTheirLists : Prop :=
  ∀ (dt n : Nat) (s : State), Inv s → s.booting = false → linkThere s.inst n = true →
    let u := settleLnk n (advance dt s)
    let x := link u n
    let p := pgLnk n
    let works := pst u p ≠ .failed ∧ pst u p ≠ .retired ∧ planned u n = true
    (∀ st tdc, st ≠ x.lp →
      let stamp := beamAt u p (tapRaw u (ptLnk u n 2) tdc)
      let falls := isEnabled u p = true ∧ (x.topo = 3 ∨ x.topo = 6)
      ∃ t, Machine.exec (.linkStateChange dt n st tdc) s = .next t ∧ (link t n).lp = st ∧ (link t n).lastChange = stamp ∧
        (link t n).topo = (if !isEnabled u p then x.topo else if x.topo = 0 ∧ st = 2 then 5 else if x.topo = 3 ∨ x.topo = 6 then 4
          else if x.topo ≠ 0 ∧ x.topo ≠ 5 ∧ st = 2 then 3 else x.topo) ∧
        (falls → (link t n).thread = x.thread + 1 ∧
          ∃ y, (link t n).threads.getLast? = some y ∧ y.num = x.thread + 1 ∧ y.td = stamp ∧ y.isOpen = true ∧ y.buf = []) ∧
        (¬falls → (link t n).thread = x.thread ∧ (link t n).threads = x.threads)) ∧
    (∀ r, x.absentFrom = some r → isEnabled u p = true → x.topo = 1 → r + x.absentMs * 4000000 ≤ u.tim.raw →
      ∃ t, Machine.exec (.absentTimer dt n) s = .next t ∧ (link t n).topo = 2 ∧ (link t n).absentFrom = none) ∧
    (∀ h, seqLost x.seq h.seq = 0 →
      ∃ t, Machine.exec (.headerCapture dt n h) s = .next t ∧ (link t n).seq = some h.seq ∧
        (isEnabled u p = true → planned u n = true → x.freeze = 0 → x.cut.grace = false →
          (link t n).next = x.next + 1 ∧
          mfind (link t n).ring (x.next.toNat % 256) = some ⟨h.data, beamAt u p (tapRaw u (ptLnk u n 2) h.tdc), x.next, h.sent, h.epv,
            if h.epv then h.die else 0, if h.epv then h.epoch else 0, 0⟩) ∧
        (isEnabled u p = true → planned u n = true → x.freeze ≠ 0 → (link t n).ring = x.ring ∧ (link t n).next = x.next ∧
          (link t n).lostSince = x.lostSince + 1)) ∧
    (∀ th coll chunk, works → x.lp ≠ 2 → x.threads = [th] → th.isOpen = true → th.done = false →
      ∃ t y, Machine.exec (.unackEntry dt n coll chunk) s = .next t ∧ (link t n).threads = [y] ∧ y.num = th.num ∧ y.isOpen = true ∧
        (listBuffered x < 4096 → y.listed = th.listed + 1 ∧ y.dropped = th.dropped ∧ y.picks + y.buf.length ≤ th.picks + th.buf.length + 1 ∧
          (fencedBob u (strLnk n) = none → y.picks + y.buf.length = th.picks + th.buf.length + 1)) ∧
        (4096 ≤ listBuffered x → y = { th with dropped := th.dropped + 1, flags := th.flags ||| 1 })) ∧
    (works → x.lp ≠ 2 → (openThread x).isSome = true →
      ∃ t, Machine.exec (.unackEnd dt n) s = .next t ∧ openThread (link t n) = none) ∧
    (∀ th, openThread x = some th → th.tdRaw + regFld u p 0x48 47 32 * 4000 ≤ u.tim.raw → pst u p ≠ .failed →
      ∃ t, Machine.exec (.listTimeout dt n) s = .next t ∧ openThread (link t n) = none) ∧
    (∀ th e, let v := advance dt s
      (link v n).held = [] → (link v n).threads = [th] → th.isOpen = true → th.done = false → th.buf = [e] →
      lnkReady v n th.td (th.tdRaw + waitHed) = true → hasRoom v (strLnk n) = true → fencedBob v (strLnk n) = none →
      ∃ t, Machine.exec (.listEntryPick dt n) s = .next t ∧ (link t n).threads = [{ th with picks := th.picks + 1, buf := [] }] ∧
        (strm t (strLnk n)).next = (strm v (strLnk n)).next + 1 ∧
        ((strm t (strLnk n)).recs.getLast?).map (·.pick) = some (pickAt v ⟨th.td, th.tdRaw, th.und, th.wide⟩ 0x0A 0 (pack
          [(32, 32, e.1.toNat), (64, 32, e.2.toNat), (96, 16, min 0xFFFF (th.picks + 1)), (16, 16, th.num.toNat), (112, 8, th.state.toNat)]))) ∧
    (∀ cond, actionHeard u p 0x80 cond = true → isEnabled u p = true → x.freeze = 2 →
      ∃ t, Machine.exec (.ringRelease dt n cond) s = .next t ∧ t.port.rsp = 0 ∧ (link t n).freeze = 0 ∧ (link t n).mark = 0)

/-- Mesh time frames are sent at their instants, stamped on both sides, and given up at their timeouts (R44, R106, R108, R110, R111). -/
def Obligations.TimeFramesAreSentAndStamped : Prop :=
  ∀ (dt n : Nat) (s : State), Inv s → s.booting = false → linkThere s.inst n = true →
    let u := advance dt s
    let x := linkTime s n
    (timeUp s n = true → intervalIdx u (beamOf u (pgLnk n)) ≠ x.helloIdx →
      ∃ t, Machine.exec (.helloSend dt n) s = .next t ∧
        linkTime t n = { x with
          helloIdx := intervalIdx u (beamOf u (pgLnk n)), helloSeq := x.helloSeq + 1, sent := x.sent ++ [⟨1, x.helloSeq⟩],
          txd := mkFrame s n 1 1 0 x.helloSeq 0 [(96, 8, 1), (104, 8, x.verMax), (112, 8, selectVer x)] }) ∧
    (portState s n = 4 ∨ portState s n = 5 → halfIdx u (beamOf u (pgLnk n)) ≠ x.pdIdx →
      let v := if x.pdRaw.isSome then discardPd n u else u
      ∃ t, Machine.exec (.pdreqSend dt n) s = .next t ∧
        linkTime t n = { x with
          pdIdx := halfIdx u (beamOf u (pgLnk n)), pdSeq := x.pdSeq + 1, pdRaw := some (newRaw dt s), cal := calGet s 1 n, t1 := none, t2 := none,
          t4 := none, discards := if x.pdRaw.isSome then (if x.discards = 2 then 0 else x.discards + 1) else x.discards,
          good := if x.pdRaw.isSome ∧ x.discards = 2 then 0 else x.good,
          sent := x.sent ++ [⟨4, x.pdSeq + 1⟩], txd := mkFrame v n 4 x.ver 0 (x.pdSeq + 1) 0 [] }) ∧
    (∀ seq e, x.reply = some (seq, some e) → timeUp s n = true → x.ver ≠ 0 →
      ∃ t q, Machine.exec (.pdfollowSend dt n) s = .next t ∧ 64 * q - e < 64 ∧ e - 64 * q < 64 ∧
        linkTime t n = { x with
          reply := none, sent := x.sent ++ [⟨6, seq⟩], txd := mkFrame s n 6 x.ver 0 seq 0 [(128, 64, wrap64 q)] }) ∧
    (∀ seq e, x.fwd = some (96, seq, some e) → portState s n = 5 →
      ∃ t q, Machine.exec (.followSend dt n) s = .next t ∧ 64 * q - e < 64 ∧ e - 64 * q < 64 ∧
        linkTime t n = { x with
          fwd := none, sent := x.sent ++ [⟨3, seq⟩],
          txd := mkFrame s n 3 x.ver (2 * bn s.tim.disc + 4 * bn (s.servo.st == 5)) seq 0
            [(96, 8, fld (syncCtl s) 19 16), (104, 8, s.tim.stepCount.toNat), (128, 64, wrap64 q)] }) ∧
    (∀ src seq e f tIn r, x.fwd = some (src, seq, some e) → portState s n = 5 → src ≠ 96 → (linkTime s src).follow = some f →
      (linkTime s src).syncIn = some (seq, tIn, r) → f.seq = seq → s.servo.parent = some src →
      let y := linkTime s src
      ∃ t, Machine.exec (.followSend dt n) s = .next t ∧
        (254 < f.hops + 1 → linkTime t n = { x with fwd := none }) ∧
        (f.hops + 1 ≤ 254 → ∃ c o : Int, RoundsTo (Q.mul (Q.add (Q.mean y.delays) (Q.div (e - tIn) 64)) (scaleOf y f)) 65536 c ∧
          (x.ver ≠ 3 → o = 0) ∧ (x.ver = 3 → y.ver = 3 → RoundsTo (rateVsRoot y f) 1000000000000 o) ∧
          (x.ver = 3 → y.ver ≠ 3 → o = (advance dt s).tim.rate - s.servo.freq) ∧
          linkTime t n = { x with
            fwd := none, sent := x.sent ++ [⟨3, seq⟩],
            txd := mkFrame s n 3 x.ver (bn (decide (16384 * 64 < e - tIn)) + 2 * bn (f.flags.getLsbD 1) + 4 * bn (f.flags.getLsbD 2)) seq (f.hops + 1)
              [(96, 8, f.n), (104, 8, f.steps.toNat), (128, 64, f.origin), (192, 64, fieldOfInt 64 (f.corr + c)), (256, 32, fieldOfInt 32 o)] })) ∧
    (isRoot s = true → intervalIdx u (hubBeam u) ≠ s.servo.rootIdx →
      ∃ t, Machine.exec (.rootSyncSend dt) s = .next t ∧ t.servo = { s.servo with rootSeq := s.servo.rootSeq + 1, rootIdx := intervalIdx u (hubBeam u) } ∧
        (portState s n = 5 → linkTime t n = { x with
          fwd := some (96, s.servo.rootSeq + 1, none), sent := x.sent ++ [⟨2, s.servo.rootSeq + 1⟩],
          txd := mkFrame s n 2 x.ver 0 (s.servo.rootSeq + 1) 0 [] }) ∧
        (portState s n ≠ 5 → linkTime t n = x)) ∧
    (∀ tdc q rest, x.sent = q :: rest →
      let e : Int := (beamAt u (pgLnk n) (tapRaw u (ptLnk u n 0) tdc) : Int) * 64 - (lnkCal s n 0 : Nat)
      ∃ t, Machine.exec (.txTimestamp dt n tdc) s = .next t ∧ (linkTime t n).sent = rest ∧
        (q.kind = 4 → q.seq = x.pdSeq → x.pdRaw.isSome = true → (linkTime t n).t1 = some e) ∧
        (∀ o, q.kind = 5 → x.reply = some (q.seq, o) → (linkTime t n).reply = some (q.seq, some e)) ∧
        (∀ src o, q.kind = 2 → x.fwd = some (src, q.seq, o) → (linkTime t n).fwd = some (src, q.seq, some e))) ∧
    (∀ tdc, ∃ t, Machine.exec (.rxTimestamp dt n tdc) s = .next t ∧
      linkTime t n = { x with rx := x.rx ++ [(beamAt u (pgLnk n) (tapRaw u (ptLnk u n 1) tdc) : Int) * 64 - (lnkCal s n 1 : Nat)] }) ∧
    (∀ r, x.pdRaw = some r → r + interval' s ≤ newRaw dt s →
      ∃ t, Machine.exec (.pdelayTimeout dt n) s = .next t ∧
        linkTime t n = { x with
          pdRaw := none, t1 := none, t2 := none, t4 := none, discards := if x.discards = 2 then 0 else x.discards + 1,
          good := if x.discards = 2 then 0 else x.good }) ∧
    (∀ src seq o, x.fwd = some (src, seq, o) → src ≠ 96 → (linkTime s src).follow.map (·.seq) ≠ some seq →
      (∀ e r, (linkTime s src).syncIn = some (seq, e, r) → r + interval' s ≤ newRaw dt s) →
      ∃ t, Machine.exec (.followTimeout dt) s = .next t ∧ linkTime t n = { x with fwd := none })

/-- Frames that an ENABLED port receives: a frame without its stamp is a protocol error, bad ones are dropped and counted, and good ones
act by their kind: HELLO negotiates, SYNC is kept and forwarded, FOLLOW tells of the root, the parent and the offset, and a completed
exchange gives the link delay (R44, R105, R106, R108, R111 to R113, R286). -/
def Obligations.TimeFramesAreTaken : Prop :=
  ∀ (dt n : Nat) (f : Beat) (s : State), Inv s → s.booting = false → linkThere s.inst n = true → isEnabled s (pgLnk n) = true →
    let u := advance dt s
    let x := linkTime s n
    let w := updTime n (fun z => { z with rx := z.rx.drop 1 }) u
    let seq := BitVec.ofNat 16 (fby f 8 2)
    let kind := fby f 0 1
    let good := BitVec.ofNat 32 (fby f 60 4) = frameCrc f
    let unfit := planned s n = false ∨ kind < 1 ∨ 6 < kind ∨ (kind ≠ 1 ∧ (x.ver = 0 ∨ fby f 1 1 ≠ x.ver))
    (¬good →
      ∃ t, Machine.exec (.frameCrc dt n f) s = .next t ∧ linkTime t n = { x with rx := x.rx.drop 1 } ∧
        regFld t pgSync 0xA8 31 16 = min (regFld s pgSync 0xA8 31 16 + 1) 65535 ∧ regBit t pgSync 0x28 2 = true ∧
        (x.rx = [] → regBit t (pgLnk n) 0x28 1 = true)) ∧
    (good → unfit →
      ∃ t, Machine.exec (.frameCrc dt n f) s = .next t ∧ linkTime t n = { x with rx := x.rx.drop 1 } ∧
        regFld t pgSync 0xA8 31 16 = min (regFld s pgSync 0xA8 31 16 + 1) 65535 ∧ (x.rx = [] → regBit t (pgLnk n) 0x28 1 = true)) ∧
    (∀ e rest, good → planned s n = true → (link s n).lp = 2 → x.rx = e :: rest →
      (kind = 1 → (link s n).topo = 3 →
        ∃ t, Machine.exec (.hello dt n f) s = .next t ∧
          (link t n).seen = some (BitVec.ofNat 14 (fby f 4 2), BitVec.ofNat 8 (fby f 3 1)) ∧
          (fby f 4 2 % 2 ^ 14 ≠ regFld s (pgLnk n) 0x40 45 32 ∨ fby f 3 1 ≠ regFld s (pgLnk n) 0x40 55 48 →
            (link t n).topo = 6 ∧ (linkTime t n).ver = 0) ∧
          (fby f 4 2 % 2 ^ 14 = regFld s (pgLnk n) 0x40 45 32 → fby f 3 1 = regFld s (pgLnk n) 0x40 55 48 → x.verMax ≠ 0 →
            let v := selectVer { x with nbr := some (fby f 12 1, fby f 13 1) }
            (linkTime t n).nbr = some (fby f 12 1, fby f 13 1) ∧
            (v = 0 → x.noCommon = false → (linkTime t n).noCommon = true ∧ (linkTime t n).ver = 0 ∧ (linkTime t n).good = 0) ∧
            (v ≠ 0 → fby f 14 1 ≠ v → (linkTime t n).noCommon = false ∧ (linkTime t n).agreed = none) ∧
            (v ≠ 0 → fby f 14 1 = v → x.agreed ≠ some v → (linkTime t n).noCommon = false ∧ (linkTime t n).agreed = some v) ∧
            (v ≠ 0 → fby f 14 1 = v → x.agreed = some v → (linkTime t n).ver = v))) ∧
      (x.ver ≠ 0 → fby f 1 1 = x.ver →
        (kind = 2 →
          ∃ t, Machine.exec (.sync dt n f) s = .next t ∧ (linkTime t n).syncIn = some (seq, e, newRaw dt s) ∧
            ∀ m, linkThere s.inst m = true → m ≠ n → portState s m = 5 → isRoot s = false → s.servo.parent = some n →
              (linkTime t m).fwd = some (n, seq, none) ∧ (linkTime t m).sent = (linkTime s m).sent ++ [⟨2, seq⟩]) ∧
        (kind = 3 → (x.ver = 1 → (readFollow u f).flags.getLsbD 0 = false) →
          let y := readFollow u f
          let v0 := freshNews y (updTime n (fun z => { z with follow := some y }) w)
          let v := reparent v0
          let p := v.servo.parent
          let best := fun (g : Follow) => ∀ c ∈ candidates v0, g.hops ≤ c.2.hops
          ∃ t, Machine.exec (.follow dt n f) s = .next t ∧ (linkTime t n).follow = some y ∧ t.servo.parent = p ∧
            (isRoot s = true ∨ candidates v0 = [] → p = none) ∧
            (isRoot s = false → ∀ c ∈ candidates v0, ∃ q g, p = some q ∧ (q, g) ∈ candidates v0 ∧ best g) ∧
            (isRoot s = false → ∀ q g, s.servo.parent = some q → (q, g) ∈ candidates v0 → best g → p = some q) ∧
            (∀ q, p = some q → s.servo.parent ≠ some q → ∀ c ∈ candidates v0, best c.2 → q ≤ c.1) ∧
            (p ≠ some n → t.servo = v.servo) ∧
            (∀ tIn r, p = some n → x.syncIn = some (seq, tIn, r) → srcOf (rootNews y v).servo.ctl = 1 →
              let z := measure (Q.sub (Q.div tIn 64) (Q.add (Q.add (Q.ofInt y.origin) (Q.div y.corr 65536)) (Q.mul (Q.mean x.delays) (scaleOf x y))))
                (rootNews y v)
              t.servo = z.servo ∧ t.tim = z.tim)) ∧
        (kind = 4 →
          ∃ t, Machine.exec (.pdreq dt n f) s = .next t ∧ (linkTime t n).reply = some (seq, none) ∧ (linkTime t n).sent = x.sent ++ [⟨5, seq⟩]) ∧
        (∀ r, kind = 5 → x.pdRaw = some r → x.pdSeq.toNat = fby f 8 2 → newRaw dt s < r + interval' s →
          ∃ t, Machine.exec (.pdresp dt n f) s = .next t ∧ (linkTime t n).t2 = some (fby f 16 8) ∧ (linkTime t n).t4 = some e) ∧
        (∀ r t1 t2 t4, kind = 6 → x.pdRaw = some r → x.pdSeq.toNat = fby f 8 2 → newRaw dt s < r + interval' s →
          x.t1 = some t1 → x.t2 = some t2 → x.t4 = some t4 →
          ∃ t ratio sh, Machine.exec (.pdfollow dt n f) s = .next t ∧ (x.ver = 1 → ratio = Q.ofInt 1) ∧
            (∀ u4 u3, x.ver ≠ 1 → x.last = some (u4, u3) → fby f 16 8 ≠ u3 → ratio = Q.div (t4 - u4) (64 * ((fby f 16 8 : Int) - u3))) ∧
            let d := Q.mul (Q.sub (Q.div (t4 - t1) 64) (Q.mul ratio (Q.ofInt ((fby f 16 8 : Int) - t2)))) ⟨1, 2⟩
            let l := x.delays ++ [Q.add d (Q.div (signedN 16 (lnkCal s n 2)) 128)]
            RoundsTo (Q.mean (l.drop (l.length - 8))) 256 sh ∧
            linkTime t n = { x with
              rx := x.rx.drop 1, pdRaw := none, t1 := none, t2 := none, t4 := none, last := some (t4, fby f 16 8), ratio := ratio,
              delays := l.drop (l.length - 8), good := x.good + 1, discards := 0, shown := sh })))

/-- SERVO_START, SERVO_STOP, SERVO_REARM and the loss of the root complete with the servo's next state (R112, R114 to R116, R118, Table NT-6): the
root is lost once no fresh FOLLOW came for 3 of its intervals, and not before; with the source lost the rate becomes the servo's frequency.
After the loss the root's sequence is looked for afresh (notes/assumptions 69). -/
def Obligations.TheServoStartsStopsAndLosesItsRoot : Prop :=
  ∀ (dt : Nat) (s : State), Inv s → s.booting = false →
    let u := advance dt s
    let ctl := regGet s pgSync 0x40
    (∀ cond, actionHeard s pgHub 0x84 cond = true → mayManage s pgHub = true → s.servo.st = 0 → strapOk s = true → startConfigBad s = false →
      ∃ t, Machine.exec (.servoStart dt cond) s = .next t ∧ t.port.rsp = 0 ∧ t.servo.ctl = ctl ∧
        t.servo.lock = regGet s pgSync 0x48 ∧ t.servo.die = regGet s pgSync 0x50 ∧
        (bit ctl 2 = true → srcOf ctl = 0 → s.tim.holdover = false → t.servo.st = 4 ∧ t.tim.disc = true) ∧
        (s.tim.holdover = true → t.servo.st = 5) ∧
        (srcOf ctl = 1 → s.tim.holdover = false → t.servo.st = if s.servo.parent.isSome then 1 else 5) ∧
        (srcOf ctl = 2 → s.tim.holdover = false → t.servo.st = if ethPresent u then 1 else 5)) ∧
    (∀ cond, actionHeard s pgHub 0x85 cond = true → mayManage s pgHub = true →
      ∃ t, Machine.exec (.servoStop dt cond) s = .next t ∧ t.port.rsp = 0 ∧ t.servo.st = 0 ∧ (s.servo.st ≠ 0 → t.tim.disc = false)) ∧
    (∀ cond, actionHeard s pgHub 0x86 cond = true → mayManage s pgHub = true → s.servo.st ≠ 0 → freeRoot s = false →
      ∃ t, Machine.exec (.servoRearm dt cond) s = .next t ∧ t.port.rsp = 0 ∧ t.servo.acqDone = false ∧ t.tim.disc = false ∧
        (s.tim.holdover = true → t.servo.st = 5) ∧
        (srcOf s.servo.ctl = 1 → s.tim.holdover = false → t.servo.st = if s.servo.parent.isSome then 1 else 5)) ∧
    (isRoot s = false → s.servo.rootLost = false →
      (newRaw dt s < s.servo.freshRaw + 3 * rootInterval s → ∃ t, Machine.exec (.rootLost dt) s = .next t ∧ t.servo = s.servo) ∧
      (s.servo.freshRaw + 3 * rootInterval s ≤ newRaw dt s →
        ∃ t, Machine.exec (.rootLost dt) s = .next t ∧ t.servo.rootLost = true ∧ t.servo.newest = none ∧ t.servo.parent = none ∧
          regBit t pgSync 0x28 3 = true ∧
          (1 ≤ s.servo.st → s.servo.st ≤ 4 → srcOf s.servo.ctl = 1 →
            t.servo.st = 5 ∧ (s.tim.holdover = false → t.tim.disc = false ∧ t.tim.ratePend = some s.servo.freq))))

/-- A measurement drives the servo (R115 to R117, Table NT-6): none is taken in IDLE or HOLDOVER, by a root without a source, or by a Hub that is
reset or failed; one above four times UNLOCK_BT in LOCKED is set aside and counted, and the third such is applied. ACQUIRING collects eight, whose
slope gives the frequency and whose mean decides on a step of −round(θ); WAIT_STEP, TRACKING and LOCKED apply the law of R117 with its clamps, and
the runs of LOCK_BT and UNLOCK_BT move between TRACKING and LOCKED. The time of a measurement is the Hub's Beam at which it is known
(notes/assumptions 63), and the direction of a rounding is free (notes/assumptions 10). -/
def Obligations.MeasurementsDriveTheServo : Prop :=
  ∀ (a : Q) (s : State),
    let v := s.servo
    let t := measure a s
    let now := hubBeam s
    let above := fun (k : Nat) => k * a.d < a.n.natAbs
    let live := v.st ≠ 0 ∧ v.st ≠ 5 ∧ freeRoot s = false ∧ pst s pgHub ≠ .resetting ∧ pst s pgHub ≠ .failed
    let aside := v.st = 4 ∧ above (4 * unlockBt s) ∧ v.aside < 2
    let step := fun (r : Int) =>
      let b : Int := ((stepInstant s + s.tim.offset) % two64 : Nat) - r
      (s.tim.step = none → s.stop.phase ≠ .armed → strapOk s = true → 0 ≤ b → b < two64 →
        t.tim.step = some ⟨stepInstant s, wrap64 (b - stepInstant s), 2, srcOf v.ctl⟩ ∧ t.servo.wantStep = false) ∧
      (s.tim.step.isSome = true → t.tim.step = s.tim.step ∧ t.servo.wantStep = true)
    (¬live → t = s) ∧
    (live → aside → t.servo = { v with aside := v.aside + 1 } ∧ t.tim = s.tim ∧
      (Inv s → regFld t pgSync 0xA8 47 32 = min (regFld s pgSync 0xA8 47 32 + 1) 65535)) ∧
    (live → ¬aside →
      RoundsTo a 256 t.servo.theta ∧ t.servo.lastAt = some now ∧
      (v.st = 1 → v.got.length ≠ 7 → t.servo.st = 1 ∧ t.servo.got = v.got ++ [(a, now)] ∧ t.servo.freq = v.freq ∧ t.tim = s.tim) ∧
      (v.st = 1 → v.got.length = 7 →
        let l := v.got ++ [(a, now)]
        let m := Q.mean (l.map (·.1))
        let far := v.acqDone = false ∧ unlockBt s * m.d < m.n.natAbs
        (∃ w, t.servo.freq = -(slopePpt l w).1) ∧
        (far → t.servo.st = 2 ∧ (0 < a.d → ∃ r : Int, 2 * ((a.d : Int) * r - a.n).natAbs ≤ a.d ∧ step r)) ∧
        (¬far → t.servo.st = 3 ∧ t.servo.acqDone = true)) ∧
      (2 ≤ v.st →
        ∃ df dr : Int,
          (∀ b, v.lastAt = some b → b < now →
            RoundsTo ⟨a.n, a.d * (now - b) * 2 ^ fld v.ctl 27 24⟩ (-1000000000000) df ∧
            RoundsTo ⟨a.n, a.d * (now - b) * 2 ^ fld v.ctl 23 20⟩ (-1000000000000) dr) ∧
          t.servo.freq = clampPpt (v.freq + df) ∧ t.tim.ratePend = some (clampPpt (t.servo.freq + dr)) ∧
          (t.servo.clamped = true ↔ t.servo.freq ≠ v.freq + df ∨ clampPpt (t.servo.freq + dr) ≠ t.servo.freq + dr)) ∧
      (v.st = 2 → t.servo.st = 2 ∧ (v.wantStep = true → 0 < a.d → ∃ r : Int, 2 * ((a.d : Int) * r - a.n).natAbs ≤ a.d ∧ step r)) ∧
      (v.st = 3 → ∃ n, (above (lockBt s) → n = 0) ∧ (¬above (lockBt s) → n = v.inLock + 1) ∧
        let locks := fld v.ctl 15 8 ≤ n ∧ (srcOf v.ctl = 1 → v.rootDisc = true) ∧ s.tim.holdover = false
        (locks → t.servo.st = 4 ∧ t.tim.disc = true) ∧ (¬locks → t.servo.st = 3 ∧ t.servo.inLock = n)) ∧
      (v.st = 4 → ∃ n, (above (unlockBt s) → n = v.outLock + 1) ∧ (¬above (unlockBt s) → n = 0) ∧
        (4 ≤ n → t.servo.st = 3 ∧ t.tim.disc = false) ∧ (n < 4 → t.servo.st = 4 ∧ t.servo.outLock = n)))

/-- Ethernet timestamps and PTP messages complete with their effect on the ordinary clock (R46, R55, R118, R120, R121, Tables NT-9,
NT-10). -/
def Obligations.TheOrdinaryClockActsOnItsMessages : Prop :=
  ∀ (dt : Nat) (s : State), Inv s → s.booting = false → s.inst.eth = true → isEnabled s pgSync = true →
    let u := advance dt s
    let raw := newRaw dt s
    let domain := regFld s pgSync 0x58 7 0
    (∀ sent msg dom seqId q tdc,
      let x : Int := ((beamAt u pgSync (tapRaw u (ptEth s) tdc) : Int) * 64 - (ethCal s (if sent then 0 else 1) : Nat)) * 256
      ∃ t, Machine.exec (.ethTimestamp dt sent msg dom seqId q tdc) s = .next t ∧ t.eth.seqTs = some q ∧
        (seqLost s.eth.seqTs q ≠ 0 → regBit t pgSync 0x28 6 = true) ∧
        (∀ r, sent = true → msg = 1 → dom.toNat = domain → seqId = s.eth.drSeq → s.eth.drRaw = some r → raw ≤ r + 4000000 → t.eth.t3 = some x) ∧
        (∀ y, sent = false → msg = 0 → dom.toNat = domain → s.eth.sync = some y → y.seqId = seqId → y.t2 = none → raw ≤ y.raw + 4000000 →
          (y.t1 = none → t.eth.sync = some { y with t2 := some x }) ∧
          (∀ a, y.t1 = some a → t.eth.ms = some (beamDiff x a) ∧ t.eth.sync = none)) ∧
        (sent = false → s.eth.sync = none → (⟨sent, msg, dom, seqId, x, raw⟩ : EthTs) ∈ t.eth.ts)) ∧
    (∀ h origin, fromMaster s h = true →
      ∃ t, Machine.exec (.ptpSync dt h origin) s = .next t ∧ t.eth.lastSync = raw ∧ t.eth.syncLog = h.logInterval ∧
        (h.twoStep = true → t.eth.sync = some ⟨h.seqId, true, h.corr.toInt, none, takeRxTs u h.domain h.seqId, raw⟩) ∧
        (∀ b, h.twoStep = false → takeRxTs u h.domain h.seqId = some b → t.eth.ms = some (beamDiff b (ptpBeam s origin h.corr.toInt)) ∧ t.eth.sync = none)) ∧
    (∀ h origin, fromMaster s h = false → ∃ t, Machine.exec (.ptpSync dt h origin) s = .next t ∧ t.eth = s.eth ∧ t.servo = s.servo) ∧
    (∀ h origin y, fromMaster s h = true → s.eth.sync = some y → y.twoStep = true → y.seqId = h.seqId → y.t1 = none →
      let a := ptpBeam s origin (y.corr + h.corr.toInt)
      ∃ t, Machine.exec (.ptpFollowUp dt h origin) s = .next t ∧ (y.t2 = none → t.eth.sync = some { y with t1 := some a }) ∧
        (∀ b, y.t2 = some b → t.eth.ms = some (beamDiff b a) ∧ t.eth.sync = none)) ∧
    (∀ h receive, fromMaster s h = true → s.eth.drRaw.isSome = true → h.seqId = s.eth.drSeq →
      ∃ t, Machine.exec (.ptpDelayResp dt h receive (regGet s pgSync 0x70) 1) s = .next t ∧ t.eth.drRaw = none ∧ t.eth.t3 = none ∧ t.eth.drLog = h.logInterval ∧
        (∀ t3 ms, s.eth.t3 = some t3 → s.eth.ms = some ms →
          let l := (s.eth.mpds ++ [ms + beamDiff (ptpBeam s receive h.corr.toInt) t3]).drop (s.eth.mpds.length + 1 - 8)
          let d : Int := (2 * l.length * 64 : Nat)
          t.eth.mpds = l ∧ d * t.eth.shown - l.sum < d ∧ l.sum - d * t.eth.shown < d ∧
          (srcOf s.servo.ctl = 2 →
            let k : Int := (2 * l.length : Nat)
            ∃ v, v.servo = (recheck u).servo ∧ hubBeam v = hubBeam u ∧ pst v pgHub = pst u pgHub ∧
              let z := measure (Q.norm (ms * k - l.sum - k * 128 * signedN 16 (ethCal s 2)) (2 * l.length * 16384)) v
              t.servo = z.servo ∧ t.tim = z.tim))) ∧
    (∀ h m, h.domain.toNat = domain → (h.ptpTimescale = true ∨ bit (syncCtl s) 3 = true) →
      let f : Foreign := ⟨h.srcClock, h.srcPort, m, h.logInterval, raw⟩
      let known := s.eth.foreign.any fun g => g.clock == f.clock && g.port == f.port
      ∃ t, Machine.exec (.ptpAnnounce dt h m) s = .next t ∧
        (known = false → s.eth.foreign.length < 4 → t.eth.foreign = s.eth.foreign ++ [f]) ∧
        (known = false → 4 ≤ s.eth.foreign.length → t.eth.foreign = s.eth.foreign) ∧
        (known = true → t.eth.foreign = s.eth.foreign.map fun g => if g.clock == f.clock && g.port == f.port then f else g) ∧
        t.eth.sel = (bestMaster t.eth.foreign).map (fun g => (g.clock, g.port)) ∧
        (t.eth.sel ≠ s.eth.sel → t.eth.mpds = [] ∧ t.eth.ms = none ∧ t.eth.sync = none) ∧
        (256 < h.len → regBit t pgSync 0x28 5 = true)) ∧
    (∃ t, Machine.exec (.announceTimeout dt) s = .next t ∧
      t.eth.foreign = s.eth.foreign.filter (fun f => decide (raw < f.raw + 3 * logInterval f.log)) ∧
      t.eth.sel = (bestMaster t.eth.foreign).map (fun g => (g.clock, g.port))) ∧
    (∀ len, ∃ t, Machine.exec (.ptpIgnoredMessage dt len) s = .next t ∧ regFld t pgSync 0xA8 15 0 = min (regFld s pgSync 0xA8 15 0 + 1) 65535 ∧ t.eth = s.eth) ∧
    (s.eth.sel.isSome = true →
      ∃ t, Machine.exec (.ptpDelayReqSend dt) s = .next t ∧ t.eth.drSeq = s.eth.drSeq + 1 ∧ t.eth.drRaw = some raw ∧ t.eth.t3 = none ∧
        t.eth.tx = delayReqFrame s (s.eth.drSeq + 1))

/-- INSTALL, ROTATE, REMOVE, RELEASE and SCAN_RELEASE that are let through complete on the slot KEY_ARG names; an INSTALL or ROTATE with no seed
written is refused and sets SEED_MISSING (R300 to R303, R306, R307, R316, Tables TK-3, TK-4, TK-9). What the fence of a removal refuses at once
counts in the slot (R307), so those two counts are left out of its clause. -/
def Obligations.TenantSlotsAreInstalledRotatedAndReleased : Prop :=
  ∀ (dt : Nat) (cond : Option (BitVec 32)) (s : State), Inv s → s.booting = false → isEnabled s pgKey = true →
    let n := argSlot s
    let tenant := BitVec.ofNat 32 (regFld s pgKey 0x48 63 32)
    let k := kslot s n
    let salt := Config.salt s.salts
    let id := fun (w : BitVec 32) (g : BitVec 8) => bytesLE 4 w.toNat ++ bytesLE 1 g.toNat
    let enc := fun (w : BitVec 32) (g : BitVec 8) (seed : BitVec 256) =>
      kdf Config.keyKM (ascii "FALCEN-ENC") (id w g ++ bytesLE 32 salt.toNat ++ bytesLE 32 seed.toNat)
    let dig := fun (w : BitVec 32) (g : BitVec 8) (seed : BitVec 256) => 1 + (kdf seed (ascii "FALCEN-DIG") (id w g)).toNat % 2 ^ 64 % (2 ^ 61 - 2)
    (∀ seed, actionHeard s pgKey 0x80 cond = true → s.key.tdi = 2 → tenant ≠ 0 → k.st = .free → seedOf s = some seed →
      ∃ t, Machine.exec (.install dt cond) s = .next t ∧ t.port.rsp = 0 ∧ t.key.seed = [] ∧
        (kslot t n).st = .active ∧ (kslot t n).tenant = tenant ∧ (kslot t n).gens = [⟨1, salt, enc tenant 1 seed, dig tenant 1 seed, 0, 0⟩] ∧
        (kslot t n).ktag = kdf seed (ascii "FALCEN-TAG") (bytesLE 4 tenant.toNat) ∧ (kslot t n).scrubbed = false ∧
        (∀ m, m ≠ n → kslot t m = kslot s m)) ∧
    (∀ seed old, actionHeard s pgKey 0x81 cond = true → s.key.tdi = 2 → k.st = .active → k.gens = [old] → seedOf s = some seed →
      let g := if old.g = 255 then 1 else old.g + 1
      ∃ t, Machine.exec (.rotate dt cond) s = .next t ∧ t.port.rsp = 0 ∧ t.key.seed = [] ∧
        kslot t n = { k with gens := [⟨g, salt, enc k.tenant g seed, dig k.tenant g seed, 0, 0⟩, { old with oldAt := hubBeam (advance dt s) }] } ∧
        (∀ b, b ∈ slotBobs s n → (bob t b).lastOld = some ((bob t b).write - 1)) ∧
        (∀ m, m ≠ n → kslot t m = kslot s m)) ∧
    (seedOf s = none →
      (actionHeard s pgKey 0x80 cond = true →
        ∃ t, Machine.exec (.install dt cond) s = .next t ∧ t.port.rsp = 1 ∧ regBit t pgKey 0x28 0 = true ∧ t.key = s.key) ∧
      (actionHeard s pgKey 0x81 cond = true →
        ∃ t, Machine.exec (.rotate dt cond) s = .next t ∧ t.port.rsp = 1 ∧ regBit t pgKey 0x28 0 = true ∧ t.key = s.key)) ∧
    (actionHeard s pgKey 0x82 cond = true → k.st = .active →
      ∃ t, Machine.exec (.remove dt cond) s = .next t ∧ t.port.rsp = 0 ∧
        { kslot t n with fenceRefused := 0, refusedSince := 0 } =
          { k with st := .fencing, tf := hubBeam (advance dt s), cause := 1, fenceRefused := 0, refusedSince := 0, written := 0, overdue := false }) ∧
    (actionHeard s pgKey 0x83 cond = true → k.st = .erased → k.scrubbed = true →
      ∃ t, Machine.exec (.release dt cond) s = .next t ∧ t.port.rsp = 0 ∧ (kslot t n).st = .free ∧ (kslot t n).tenant = 0 ∧
        (kslot t n).scrubbed = false ∧ (kslot t n).scanHold = []) ∧
    (actionHeard s pgKey 0x84 cond = true → k.scanHold ≠ [] →
      ∃ t, Machine.exec (.scanRelease dt cond) s = .next t ∧ t.port.rsp = 0 ∧ kslot t n = { k with scanHold := [] })

/-- Generations retire and slots fence, drain, scrub and are erased by a storage error (R306, R308 to R310, Tables TK-4, TK-5). Where the command
places a report, what the fence of this slot refuses of it counts in the slot (R307); `rest` is a slot apart from those two counts. -/
def Obligations.SlotsRetireFenceDrainAndScrub : Prop :=
  ∀ (dt : Nat) (n : BitVec 6) (s : State), Inv s → s.booting = false →
    let u := advance dt s
    let k := kslot s n.toNat
    let rest := fun (x : KSlot) => { x with fenceRefused := 0, refusedSince := 0 }
    (∀ new old, k.st = .active → k.gens = [new, old] → retireReady u n.toNat old.g = true →
      ∃ t, Machine.exec (.genRetired dt n) s = .next t ∧
        rest (kslot t n.toNat) = rest { k with gens := [new], scanHeads := k.scanHeads.filter fun e => e.gen != old.g } ∧
        (∀ b, b ∈ slotBobs s n.toNat → (bob t b).lastOld = none)) ∧
    (k.st = .fencing → fenced u n.toNat = true →
      ∃ t, Machine.exec (.fenceComplete dt n) s = .next t ∧ kslot t n.toNat = { k with st := .draining, drainRaw := newRaw dt s }) ∧
    (k.st = .draining → slotDrained u n.toNat = true →
      ∃ t, Machine.exec (.slotDrainComplete dt n) s = .next t ∧ (kslot t n.toNat).st = .erased ∧ (kslot t n.toNat).gens = [] ∧
        (kslot t n.toNat).ktag = 0 ∧ (kslot t n.toNat).scrubbed = false ∧ (kslot t n.toNat).scrubBobs = slotBobs s n.toNat ∧
        (kslot t n.toNat).tenant = k.tenant ∧ (kslot t n.toNat).cause = k.cause ∧ (kslot t n.toNat).scrubLog = s.stop.scanLog ∧
        (kslot t n.toNat).scrubBase = s.stop.scanBase.toNat ∧ (kslot t n.toNat).scrubHeds = (if s.stop.scanBase = 0 then [] else slotHeds s n.toNat) ∧
        (∀ b, b ∈ slotBobs s n.toNat →
          (bob t b).en = false ∧ (bob t b).head = 0 ∧ (bob t b).write = 0 ∧ (bob t b).tail = 0 ∧ (bob t b).window = [] ∧ (bob t b).latched = (bob s b).latched)) ∧
    (k.st = .draining → k.overdue = false → k.drainRaw + 200000 ≤ newRaw dt s → (∃ b ∈ slotBobs s n.toNat, (bob s b).fault = true) →
      ∃ t, Machine.exec (.drainOverdue dt n) s = .next t ∧ regBit t pgKey 0x28 3 = true ∧ kslot t n.toNat = { k with overdue := true }) ∧
    (k.st = .erased → k.scrubbed = false → fwRuns s = true → k.zeroed = scrubRing s k → k.scanZeroed = scrubScan k →
      ∃ t, Machine.exec (.scrubComplete dt n) s = .next t ∧ rest (kslot t n.toNat) = rest { k with scrubbed := true }) ∧
    (∀ known, k.live = true →
      ∃ t, Machine.exec (.keyEcc dt n known) s = .next t ∧ (kslot t n.toNat).st = .erased ∧ (kslot t n.toNat).gens = [] ∧
        (kslot t n.toNat).ktag = 0 ∧ (kslot t n.toNat).cause = 3 ∧ (kslot t n.toNat).tenant = k.tenant ∧
        (∀ b, b ∈ slotBobs s n.toNat → (bob t b).en = false ∧ (bob t b).head = 0) ∧
        (known = true → (∀ e ∈ slotStrs s n.toNat, e.2.recs.length ≤ e.2.committed) → regBit t pgKey 0x28 2 = true))

/-- LOAD and HANDOVER that are let through, the load's end, verification and FW_READY complete (R320 to R323, R327, Tables FS-3 to FS-5).
-/
def Obligations.TheCoreIsLoadedAndHandsOver : Prop :=
  ∀ (dt : Nat) (s : State), Inv s → s.booting = false →
    let raw := newRaw dt s
    let base := regFld s pgFw 0x40 56 9
    let next := regFld s pgFw 0x50 56 9
    (∀ cond, actionHeard s pgFw 0x80 cond = true → pst s pgFw = .disabled → base ≠ 0 →
      ∃ t, Machine.exec (.load dt cond) s = .next t ∧ t.port.rsp = 0 ∧ t.fw.loader = some ⟨0, base, none, [], 0, false⟩ ∧
        t.fw.image = [] ∧ t.fw.checkpoint = [] ∧ t.fw.loaded = false ∧ t.fw.version = 0 ∧ t.fw.ckpt = 0) ∧
    (∀ l, s.fw.loader = some l → l.kind = 0 → ∀ c, loadCode s l = some c →
      ∃ t, Machine.exec (.loadComplete dt) s = .next t ∧ t.fw.loader = none ∧ regFld t pgFw 0x58 55 48 = c % 256 ∧
        (c = 0 → t.fw.loaded = true ∧ t.fw.version = BitVec.ofNat 32 (blkBytes (l.header.getD 0) 4 4) ∧
          t.fw.ckpt = BitVec.ofNat 16 (blkBytes (l.header.getD 0) 16 2) ∧ t.fw.entry = blkBytes (l.header.getD 0) 12 4 ∧ t.fw.image = s.fw.image) ∧
        (c ≠ 0 → t.fw.loaded = false ∧ t.fw.image = [] ∧ regBit t pgFw 0x28 0 = true)) ∧
    (∀ cond, actionHeard s pgFw 0x81 cond = true → isEnabled s pgFw = true → s.fw.phase = 0 → next ≠ 0 →
      ∃ t, Machine.exec (.handover dt cond) s = .next t ∧ t.port.rsp = 0 ∧ t.fw = { s.fw with phase := 1, phaseRaw := raw, loader := some ⟨1, next, none, [], 0, false⟩ }) ∧
    (∀ l, s.fw.loader = some l → s.fw.phase = 1 → l.kind = 1 → ∀ c, loadCode s l = some c →
      ∃ t, Machine.exec (.verifyComplete dt) s = .next t ∧ t.fw.loader = none ∧ t.fw.loaded = s.fw.loaded ∧ t.fw.version = s.fw.version ∧
        (c = 0 → t.fw.phase = 2 ∧ t.fw.phaseRaw = raw ∧ t.fw.newBase = l.base ∧ t.fw.newWant = l.want ∧
          t.fw.newVersion = BitVec.ofNat 32 (blkBytes (l.header.getD 0) 4 4) ∧ t.fw.newEntry = blkBytes (l.header.getD 0) 12 4 ∧
          t.fw.hash = some (bodyHash l.body)) ∧
        (c ≠ 0 → t.fw.phase = 0 ∧ regFld t pgFw 0x58 55 48 = c % 256 ∧ regBit t pgFw 0x28 1 = true)) ∧
    (fwGoing s = true → s.fw.phase = 2 → pst s pgFw ≠ .quiescing →
      ∃ t, Machine.exec (.fwReady dt) s = .next t ∧ t.fw.phase = 3 ∧ t.fw.halted = true ∧ t.fw.image = [] ∧
        t.fw.loader = some ⟨2, s.fw.newBase, none, [], s.fw.newWant, false⟩ ∧ t.fw.readyRaw = raw) ∧
    (fwGoing s = true → pst s pgFw = .quiescing →
      ∃ t, Machine.exec (.fwReady dt) s = .next t ∧ pst t pgFw = .disabled ∧ t.fw.halted = true ∧ t.fw.stopReq = false)

/-- A handover ends by its timeouts, its reload, acceptance or rejection (R323, R324, Table FS-5). -/
def Obligations.TheHandoverEnds : Prop :=
  ∀ (dt : Nat) (s : State), Inv s → s.booting = false →
    let raw := newRaw dt s
    (s.fw.phase = 2 → s.fw.phaseRaw + handoverUs s * 4000 ≤ raw →
      ∃ t, Machine.exec (.handoverTimeout dt) s = .next t ∧ t.fw.phase = 0 ∧ t.fw.loader = none ∧ t.fw.version = s.fw.version ∧
        pst t pgFw = pst s pgFw ∧ regFld t pgFw 0x58 55 48 = 8 ∧ regBit t pgFw 0x28 1 = true) ∧
    (isEnabled s pgFw = true → pst s pgHub ≠ .resetting →
      (s.fw.phase = 3 → reloadResult s = some true →
        ∃ t, Machine.exec (.reloadComplete dt) s = .next t ∧ t.fw.phase = 4 ∧ t.fw.phaseRaw = raw ∧ t.fw.halted = false ∧ t.fw.startKind = 1 ∧
          t.fw.loader = none ∧ pst t pgFw = .enabled) ∧
      (s.fw.phase = 3 → reloadResult s = some false →
        ∃ t, Machine.exec (.reloadComplete dt) s = .next t ∧ pst t pgFw = .failed ∧ (part t pgFw).cause = 0x80 ∧ t.fw.phase = 0 ∧
          t.fw.loaded = false ∧ regFld t pgFw 0x58 55 48 = 9 ∧ regBit t pgFw 0x28 1 = true) ∧
      (s.fw.phase = 4 →
        ∃ t, Machine.exec (.fwAccept dt) s = .next t ∧ t.fw.phase = 0 ∧ t.fw.version = s.fw.newVersion ∧ t.fw.ckpt = s.fw.newCkpt ∧
          t.fw.entry = s.fw.newEntry ∧ regFld t pgFw 0x40 56 9 = s.fw.newBase % 2 ^ 48 ∧ regFld t pgFw 0x58 55 48 = 0 ∧
          regFld t pgFw 0x58 31 0 = min 0xFFFFFFFF ((raw - s.fw.readyRaw) / 4) ∧ pst t pgFw = .enabled) ∧
      (s.fw.phase = 4 →
        ∃ t, Machine.exec (.fwReject dt) s = .next t ∧ pst t pgFw = .failed ∧ (part t pgFw).cause = 0x81 ∧ t.fw.phase = 0 ∧
          t.fw.loaded = s.fw.loaded ∧ regFld t pgFw 0x58 55 48 = 10 ∧ regBit t pgFw 0x28 1 = true) ∧
      (s.fw.phase = 4 → s.fw.phaseRaw + 4000000 ≤ raw →
        ∃ t, Machine.exec (.acceptTimeout dt) s = .next t ∧ pst t pgFw = .failed ∧ (part t pgFw).cause = 0x81 ∧ t.fw.phase = 0 ∧
          t.fw.loaded = s.fw.loaded ∧ regFld t pgFw 0x58 55 48 = 10 ∧ regBit t pgFw 0x28 1 = true))

/-- Kicks, the watchdog, emission by firmware and by the host, HOST_SCRUBBED and the block buffer complete as the core's rules say (R318, R319,
R325, R326, R328; R307 for a fenced stream, of which notes/assumptions 77 keeps the notices in the queue): an emission takes the oldest notices
while retention has room and a report's sensor values are there (R239), and owes the rest. -/
def Obligations.TheCoreIsWatchedAndEmits : Prop :=
  ∀ (dt : Nat) (s : State), Inv s → s.booting = false →
    let u := advance dt s
    let raw := newRaw dt s
    let ready := fun (l : List Notice) => ∀ x, l.head? = some x → (readyNotice (fwOwner s != 0) x u).isSome = true
    (fwGoing s = true →
      ∃ t, Machine.exec (.watchdogKick dt) s = .next t ∧ t.fw = { s.fw with kickRaw := raw, kickUs := wdogUs s }) ∧
    (watchdogOut u = true →
      ∃ t, Machine.exec (.watchdogExpiry dt) s = .next t ∧ pst t pgFw = .failed ∧ (part t pgFw).cause = 0x06) ∧
    (∀ (n : Word), fwOwner s = 0 → s.ver.eager = 0 → s.ver.owed = 0 → s.ver.hold = none → s.ver.waiting = [] → fencedBob u strMc = none →
      let m := min s.ver.queue.length n.toNat
      ∃ t k, Machine.exec (.fwEmit dt n) s = .next t ∧ k ≤ m ∧ t.ver.queue = s.ver.queue.drop k ∧ t.ver.owed = m - k ∧
        (strm t strMc).next = (strm s strMc).next + BitVec.ofNat 32 k ∧ (hasRoom u strMc = false → k = 0) ∧
        (hasRoom u strMc = true → 1 ≤ m → ready s.ver.queue → 1 ≤ k)) ∧
    (∀ (n : Word) x, fwOwner s = 0 → fencedBob u strMc = some x →
      ∃ t, Machine.exec (.fwEmit dt n) s = .next t ∧ t.ver.queue = s.ver.queue ∧ t.ver.owed = 0 ∧
        (kslot t x).refusedSince = (kslot s x).refusedSince + min s.ver.queue.length (s.ver.owed + n.toNat)) ∧
    (∀ cond, actionHeard s pgFw 0x82 cond = true → fwOwner s = 1 → s.ver.eager = 0 → s.ver.owed = 0 → s.ver.hold = none → s.ver.waiting = [] →
      fencedBob u strMc = none →
      let m := min s.ver.queue.length (regFld s pgFw 0x78 10 0)
      ∃ t k, Machine.exec (.emit dt cond) s = .next t ∧ t.port.rsp = 0 ∧ k ≤ m ∧ t.ver.queue = s.ver.queue.drop k ∧ t.ver.owed = m - k ∧
        (strm t strMc).next = (strm s strMc).next + BitVec.ofNat 32 k ∧ (hasRoom u strMc = false → k = 0) ∧
        (hasRoom u strMc = true → 1 ≤ m → ready s.ver.queue → 1 ≤ k)) ∧
    (∀ cond, actionHeard s pgFw 0x83 cond = true → fwOwner s = 1 → (kslot s (regFld s pgFw 0x78 21 16)).st = .erased →
      (kslot s (regFld s pgFw 0x78 21 16)).scrubbed = false →
      ∃ t, Machine.exec (.hostScrubbed dt cond) s = .next t ∧ t.port.rsp = 0 ∧ (kslot t (regFld s pgFw 0x78 21 16)).scrubbed = true) ∧
    (∀ w b, fwGoing s = true → s.fw.bufStatus ≠ 0 →
      ∃ t, Machine.exec (.blockBufferTransfer dt w b) s = .next t ∧
        t.fw = { s.fw with buf := b, bufStatus := 0, bufOut := if bit w 63 then some (fld w 56 9) else s.fw.bufOut })
end

