-- ==== Sys2Proof/Laws/Keyed.lean ====
section
/-! SUPPORT. Keyed lists: what a write leaves at its key and at every other one, and that every operation keeps the canonical form
(keys strictly rising, no entry equal to what an unlisted key reads as). -/

namespace Sys2Proof.Laws

open Sys2Proof.Machine

variable {α : Type}

/-! ### Reading after a write -/

@[simp] theorem mget_mins_same (d : α) (m : List (Nat × α)) (i : Nat) (v : α) : mget d (mins m i v) i = v := by
  induction m with
  | nil => simp [mins, mget]
  | cons e m ih =>
    obtain ⟨k, w⟩ := e
    by_cases h : i < k
    · simp [mins, h, mget]
    · by_cases h' : k = i <;> simp [mins, h, h', mget, ih]

@[simp] theorem mfind_mins_same (m : List (Nat × α)) (i : Nat) (v : α) : mfind (mins m i v) i = some v := by
  induction m with
  | nil => simp [mins, mfind]
  | cons e m ih =>
    obtain ⟨k, w⟩ := e
    by_cases h : i < k
    · simp [mins, h, mfind]
    · by_cases h' : k = i <;> simp [mins, h, h', mfind, ih]

theorem mget_mins_other (d : α) (m : List (Nat × α)) {i j : Nat} (v : α) (hj : j ≠ i) : mget d (mins m i v) j = mget d m j := by
  induction m with
  | nil => simp [mins, mget, Ne.symm hj]
  | cons e m ih =>
    obtain ⟨k, w⟩ := e
    by_cases h : i < k
    · simp [mins, h, mget, Ne.symm hj]
    · by_cases h' : k = i
      · subst h'; simp [mins, mget, Ne.symm hj]
      · simp only [mins, h, h', if_false, mget, ih]

theorem mget_mdel_other (d : α) (m : List (Nat × α)) {i j : Nat} (hj : j ≠ i) : mget d (mdel m i) j = mget d m j := by
  induction m with
  | nil => rfl
  | cons e m ih =>
    obtain ⟨k, w⟩ := e
    by_cases h' : k = i
    · subst h'; simp [mdel, mget, Ne.symm hj]
    · simp only [mdel, h', if_false, mget, ih]

/-- The tail of a sorted list is sorted. -/
theorem msorted_tail {e : Nat × α} {m : List (Nat × α)} (h : msorted (e :: m) = true) : msorted m = true := by
  cases m with
  | nil => rfl
  | cons f m => simp [msorted] at h; exact h.2

/-- Every key after the first of a sorted list lies above it. -/
theorem msorted_lt {e : Nat × α} {m : List (Nat × α)} (h : msorted (e :: m) = true) : ∀ f ∈ m, e.1 < f.1 := by
  induction m generalizing e with
  | nil => simp
  | cons g m ih =>
    simp [msorted] at h
    intro f hf
    rcases List.mem_cons.mp hf with rfl | hf
    · exact h.1
    · exact Nat.lt_trans h.1 (ih h.2 f hf)

/-- A list with a first key below every other one is sorted if the rest is. -/
theorem msorted_cons {e : Nat × α} {m : List (Nat × α)} (hm : msorted m = true) (h : ∀ f ∈ m, e.1 < f.1) : msorted (e :: m) = true := by
  cases m with
  | nil => rfl
  | cons g m => simp [msorted, hm, h g (by simp)]

/-- A key below every key of a list reads as the default. -/
theorem mget_below (d : α) (m : List (Nat × α)) (i : Nat) (h : ∀ f ∈ m, i < f.1) : mget d m i = d := by
  induction m with
  | nil => rfl
  | cons e m ih =>
    obtain ⟨k, w⟩ := e
    have hk : i < k := h (k, w) (by simp)
    simp [mget, Nat.ne_of_gt hk, ih fun f hf => h f (List.mem_cons_of_mem _ hf)]

theorem mget_mdel_same (d : α) (m : List (Nat × α)) (i : Nat) (hm : msorted m = true) : mget d (mdel m i) i = d := by
  induction m with
  | nil => rfl
  | cons e m ih =>
    obtain ⟨k, w⟩ := e
    by_cases h' : k = i
    · subst h'; simpa [mdel] using mget_below d m k (msorted_lt hm)
    · simp [mdel, h', mget, ih (msorted_tail hm)]

section Write
variable [DecidableEq α]

/-- A write is read back from a list in canonical form. -/
theorem mget_mset_same (d : α) (m : List (Nat × α)) (i : Nat) (v : α) (hm : msorted m = true) : mget d (mset d m i v) i = v := by
  unfold mset
  split
  · next h => rw [mget_mdel_same d m i hm, h]
  · simp

/-- A write of what is no default is read back from any list. -/
theorem mget_mset_ne (d : α) (m : List (Nat × α)) (i : Nat) (v : α) (hv : v ≠ d) : mget d (mset d m i v) i = v := by
  simp [mset, hv]

theorem mget_mset_other (d : α) (m : List (Nat × α)) {i j : Nat} (v : α) (hj : j ≠ i) : mget d (mset d m i v) j = mget d m j := by
  unfold mset
  split
  · exact mget_mdel_other d m hj
  · exact mget_mins_other d m v hj

theorem mget_mset_apart (d e : α) (m : List (Nat × α)) {i j : Nat} (v : α) (hj : j ≠ i) :
    mget e (mset d m i v) j = mget e m j := by
  unfold mset; split
  · exact mget_mdel_other e m hj
  · exact mget_mins_other e m v hj

theorem mget_mupd_same (d : α) (m : List (Nat × α)) (i : Nat) (f : α → α) (hm : msorted m = true) : mget d (mupd d m i f) i = f (mget d m i) :=
  mget_mset_same d m i _ hm

theorem mget_mupd_ne (d : α) (m : List (Nat × α)) (i : Nat) (f : α → α) (hv : f (mget d m i) ≠ d) :
    mget d (mupd d m i f) i = f (mget d m i) := mget_mset_ne d m i _ hv

theorem mget_mupd_other (d : α) (m : List (Nat × α)) {i j : Nat} (f : α → α) (hj : j ≠ i) : mget d (mupd d m i f) j = mget d m j :=
  mget_mset_other d m _ hj

end Write

/-! ### The canonical form -/

theorem mem_mdel {m : List (Nat × α)} {i : Nat} {e : Nat × α} (h : e ∈ mdel m i) : e ∈ m := by
  induction m with
  | nil => simp [mdel] at h
  | cons f m ih =>
    obtain ⟨k, w⟩ := f
    by_cases h' : k = i
    · simp [mdel, h'] at h; exact List.mem_cons_of_mem _ h
    · simp [mdel, h'] at h
      rcases h with h | h
      · exact h ▸ List.mem_cons_self ..
      · exact List.mem_cons_of_mem _ (ih h)

theorem mem_mins {m : List (Nat × α)} {i : Nat} {v : α} {e : Nat × α} (h : e ∈ mins m i v) : e = (i, v) ∨ e ∈ m := by
  induction m with
  | nil => simp [mins] at h; exact .inl h
  | cons f m ih =>
    obtain ⟨k, w⟩ := f
    by_cases h1 : i < k
    · simp [mins, h1] at h
      rcases h with h | h | h
      · exact .inl h
      · exact .inr (h ▸ List.mem_cons_self ..)
      · exact .inr (List.mem_cons_of_mem _ h)
    · by_cases h2 : k = i
      · simp [mins, h2] at h
        rcases h with h | h
        · exact .inl h
        · exact .inr (List.mem_cons_of_mem _ h)
      · simp [mins, h1, h2] at h
        rcases h with h | h
        · exact .inr (h ▸ List.mem_cons_self ..)
        · rcases ih h with h | h
          · exact .inl h
          · exact .inr (List.mem_cons_of_mem _ h)

@[simp] theorem msorted_mdel (m : List (Nat × α)) (i : Nat) (h : msorted m = true) : msorted (mdel m i) = true := by
  induction m with
  | nil => rfl
  | cons e m ih =>
    obtain ⟨k, w⟩ := e
    by_cases h' : k = i
    · simpa [mdel, h'] using msorted_tail h
    · simp only [mdel, h', if_false]
      exact msorted_cons (ih (msorted_tail h)) fun f hf => msorted_lt h f (mem_mdel hf)

@[simp] theorem msorted_mins (m : List (Nat × α)) (i : Nat) (v : α) (h : msorted m = true) : msorted (mins m i v) = true := by
  induction m with
  | nil => rfl
  | cons e m ih =>
    obtain ⟨k, w⟩ := e
    by_cases h1 : i < k
    · simp only [mins, h1, if_true]
      exact msorted_cons h fun f hf => (List.mem_cons.mp hf).elim (fun hf => hf ▸ h1) fun hf => Nat.lt_trans h1 (msorted_lt h f hf)
    · by_cases h2 : k = i
      · subst h2
        simp only [mins, Nat.lt_irrefl, if_false, if_true]
        exact msorted_cons (msorted_tail h) fun f hf => msorted_lt h f hf
      · simp only [mins, h1, h2, if_false]
        refine msorted_cons (ih (msorted_tail h)) fun f hf => ?_
        rcases mem_mins hf with rfl | hf
        · show k < i; omega
        · exact msorted_lt h f hf

@[simp] theorem msorted_mset [DecidableEq α] (d : α) (m : List (Nat × α)) (i : Nat) (v : α) (h : msorted m = true) :
    msorted (mset d m i v) = true := by
  unfold mset
  split
  · exact msorted_mdel m i h
  · exact msorted_mins m i v h

@[simp] theorem msorted_mupd [DecidableEq α] (d : α) (m : List (Nat × α)) (i : Nat) (f : α → α) (h : msorted m = true) :
    msorted (mupd d m i f) = true := msorted_mset d m i _ h

/-- No entry equals what an unlisted key reads as: a write keeps it. -/
theorem mset_no_default [DecidableEq α] (d : α) (m : List (Nat × α)) (i : Nat) (v : α) (h : ∀ e ∈ m, e.2 ≠ d) :
    ∀ e ∈ mset d m i v, e.2 ≠ d := by
  unfold mset
  split
  · exact fun e he => h e (mem_mdel he)
  · next hv => exact fun e he => (mem_mins he).elim (fun he => he ▸ hv) (h e)

end Sys2Proof.Laws
end

