-- ==== Sys2Proof/Laws/State.lean ====
section
/-! SUPPORT. State: what each update leaves alone (one lemma per field per update), and what its own reader reads after it. -/

namespace Sys2Proof.Laws

open Sys2Proof.Machine

/-! ### regPut -/

@[simp] theorem regPut_pending (s : State) (n : Nat) (n2 : Nat) (w : Word) : (regPut s n n2 w).pending = s.pending := rfl
@[simp] theorem regPut_inst (s : State) (n : Nat) (n2 : Nat) (w : Word) : (regPut s n n2 w).inst = s.inst := rfl
@[simp] theorem regPut_ready (s : State) (n : Nat) (n2 : Nat) (w : Word) : (regPut s n n2 w).ready = s.ready := rfl
@[simp] theorem regPut_booting (s : State) (n : Nat) (n2 : Nat) (w : Word) : (regPut s n n2 w).booting = s.booting := rfl
@[simp] theorem regPut_workHeld (s : State) (n : Nat) (n2 : Nat) (w : Word) : (regPut s n n2 w).workHeld = s.workHeld := rfl
@[simp] theorem regPut_port (s : State) (n : Nat) (n2 : Nat) (w : Word) : (regPut s n n2 w).port = s.port := rfl
@[simp] theorem regPut_parts (s : State) (n : Nat) (n2 : Nat) (w : Word) : (regPut s n n2 w).parts = s.parts := rfl
@[simp] theorem regPut_audit (s : State) (n : Nat) (n2 : Nat) (w : Word) : (regPut s n n2 w).audit = s.audit := rfl
@[simp] theorem regPut_tim (s : State) (n : Nat) (n2 : Nat) (w : Word) : (regPut s n n2 w).tim = s.tim := rfl
@[simp] theorem regPut_owed (s : State) (n : Nat) (n2 : Nat) (w : Word) : (regPut s n n2 w).owed = s.owed := rfl
@[simp] theorem regPut_strs (s : State) (n : Nat) (n2 : Nat) (w : Word) : (regPut s n n2 w).strs = s.strs := rfl
@[simp] theorem regPut_closes (s : State) (n : Nat) (n2 : Nat) (w : Word) : (regPut s n n2 w).closes = s.closes := rfl
@[simp] theorem regPut_bobs (s : State) (n : Nat) (n2 : Nat) (w : Word) : (regPut s n n2 w).bobs = s.bobs := rfl
@[simp] theorem regPut_wports (s : State) (n : Nat) (n2 : Nat) (w : Word) : (regPut s n n2 w).wports = s.wports := rfl
@[simp] theorem regPut_rport (s : State) (n : Nat) (n2 : Nat) (w : Word) : (regPut s n n2 w).rport = s.rport := rfl
@[simp] theorem regPut_adopts (s : State) (n : Nat) (n2 : Nat) (w : Word) : (regPut s n n2 w).adopts = s.adopts := rfl
@[simp] theorem regPut_exempt (s : State) (n : Nat) (n2 : Nat) (w : Word) : (regPut s n n2 w).exempt = s.exempt := rfl
@[simp] theorem regPut_refused (s : State) (n : Nat) (n2 : Nat) (w : Word) : (regPut s n n2 w).refused = s.refused := rfl
@[simp] theorem regPut_heds (s : State) (n : Nat) (n2 : Nat) (w : Word) : (regPut s n n2 w).heds = s.heds := rfl
@[simp] theorem regPut_counts (s : State) (n : Nat) (n2 : Nat) (w : Word) : (regPut s n n2 w).counts = s.counts := rfl
@[simp] theorem regPut_hedGovs (s : State) (n : Nat) (n2 : Nat) (w : Word) : (regPut s n n2 w).hedGovs = s.hedGovs := rfl
@[simp] theorem regPut_reedGovs (s : State) (n : Nat) (n2 : Nat) (w : Word) : (regPut s n n2 w).reedGovs = s.reedGovs := rfl
@[simp] theorem regPut_gov (s : State) (n : Nat) (n2 : Nat) (w : Word) : (regPut s n n2 w).gov = s.gov := rfl
@[simp] theorem regPut_trd (s : State) (n : Nat) (n2 : Nat) (w : Word) : (regPut s n n2 w).trd = s.trd := rfl
@[simp] theorem regPut_stop (s : State) (n : Nat) (n2 : Nat) (w : Word) : (regPut s n n2 w).stop = s.stop := rfl
@[simp] theorem regPut_hedStops (s : State) (n : Nat) (n2 : Nat) (w : Word) : (regPut s n n2 w).hedStops = s.hedStops := rfl
@[simp] theorem regPut_key (s : State) (n : Nat) (n2 : Nat) (w : Word) : (regPut s n n2 w).key = s.key := rfl
@[simp] theorem regPut_wits (s : State) (n : Nat) (n2 : Nat) (w : Word) : (regPut s n n2 w).wits = s.wits := rfl
@[simp] theorem regPut_cards (s : State) (n : Nat) (n2 : Nat) (w : Word) : (regPut s n n2 w).cards = s.cards := rfl
@[simp] theorem regPut_shadows (s : State) (n : Nat) (n2 : Nat) (w : Word) : (regPut s n n2 w).shadows = s.shadows := rfl
@[simp] theorem regPut_lapsed (s : State) (n : Nat) (n2 : Nat) (w : Word) : (regPut s n n2 w).lapsed = s.lapsed := rfl
@[simp] theorem regPut_ver (s : State) (n : Nat) (n2 : Nat) (w : Word) : (regPut s n n2 w).ver = s.ver := rfl
@[simp] theorem regPut_gates (s : State) (n : Nat) (n2 : Nat) (w : Word) : (regPut s n n2 w).gates = s.gates := rfl
@[simp] theorem regPut_tests (s : State) (n : Nat) (n2 : Nat) (w : Word) : (regPut s n n2 w).tests = s.tests := rfl
@[simp] theorem regPut_links (s : State) (n : Nat) (n2 : Nat) (w : Word) : (regPut s n n2 w).links = s.links := rfl
@[simp] theorem regPut_linkTimes (s : State) (n : Nat) (n2 : Nat) (w : Word) : (regPut s n n2 w).linkTimes = s.linkTimes := rfl
@[simp] theorem regPut_servo (s : State) (n : Nat) (n2 : Nat) (w : Word) : (regPut s n n2 w).servo = s.servo := rfl
@[simp] theorem regPut_eth (s : State) (n : Nat) (n2 : Nat) (w : Word) : (regPut s n n2 w).eth = s.eth := rfl
@[simp] theorem regPut_fw (s : State) (n : Nat) (n2 : Nat) (w : Word) : (regPut s n n2 w).fw = s.fw := rfl
@[simp] theorem regPut_cal (s : State) (n : Nat) (n2 : Nat) (w : Word) : (regPut s n n2 w).cal = s.cal := rfl
@[simp] theorem regPut_sens (s : State) (n : Nat) (n2 : Nat) (w : Word) : (regPut s n n2 w).sens = s.sens := rfl
@[simp] theorem regPut_snsOn (s : State) (n : Nat) (n2 : Nat) (w : Word) : (regPut s n n2 w).snsOn = s.snsOn := rfl
@[simp] theorem regPut_free (s : State) (n : Nat) (n2 : Nat) (w : Word) : (regPut s n n2 w).free = s.free := rfl
@[simp] theorem regPut_salts (s : State) (n : Nat) (n2 : Nat) (w : Word) : (regPut s n n2 w).salts = s.salts := rfl

/-! ### updPart -/

@[simp] theorem updPart_pending (s : State) (n : Nat) (f : Part → Part) : (updPart s n f).pending = s.pending := rfl
@[simp] theorem updPart_inst (s : State) (n : Nat) (f : Part → Part) : (updPart s n f).inst = s.inst := rfl
@[simp] theorem updPart_ready (s : State) (n : Nat) (f : Part → Part) : (updPart s n f).ready = s.ready := rfl
@[simp] theorem updPart_booting (s : State) (n : Nat) (f : Part → Part) : (updPart s n f).booting = s.booting := rfl
@[simp] theorem updPart_workHeld (s : State) (n : Nat) (f : Part → Part) : (updPart s n f).workHeld = s.workHeld := rfl
@[simp] theorem updPart_port (s : State) (n : Nat) (f : Part → Part) : (updPart s n f).port = s.port := rfl
@[simp] theorem updPart_regs (s : State) (n : Nat) (f : Part → Part) : (updPart s n f).regs = s.regs := rfl
@[simp] theorem updPart_audit (s : State) (n : Nat) (f : Part → Part) : (updPart s n f).audit = s.audit := rfl
@[simp] theorem updPart_tim (s : State) (n : Nat) (f : Part → Part) : (updPart s n f).tim = s.tim := rfl
@[simp] theorem updPart_owed (s : State) (n : Nat) (f : Part → Part) : (updPart s n f).owed = s.owed := rfl
@[simp] theorem updPart_strs (s : State) (n : Nat) (f : Part → Part) : (updPart s n f).strs = s.strs := rfl
@[simp] theorem updPart_closes (s : State) (n : Nat) (f : Part → Part) : (updPart s n f).closes = s.closes := rfl
@[simp] theorem updPart_bobs (s : State) (n : Nat) (f : Part → Part) : (updPart s n f).bobs = s.bobs := rfl
@[simp] theorem updPart_wports (s : State) (n : Nat) (f : Part → Part) : (updPart s n f).wports = s.wports := rfl
@[simp] theorem updPart_rport (s : State) (n : Nat) (f : Part → Part) : (updPart s n f).rport = s.rport := rfl
@[simp] theorem updPart_adopts (s : State) (n : Nat) (f : Part → Part) : (updPart s n f).adopts = s.adopts := rfl
@[simp] theorem updPart_exempt (s : State) (n : Nat) (f : Part → Part) : (updPart s n f).exempt = s.exempt := rfl
@[simp] theorem updPart_refused (s : State) (n : Nat) (f : Part → Part) : (updPart s n f).refused = s.refused := rfl
@[simp] theorem updPart_heds (s : State) (n : Nat) (f : Part → Part) : (updPart s n f).heds = s.heds := rfl
@[simp] theorem updPart_counts (s : State) (n : Nat) (f : Part → Part) : (updPart s n f).counts = s.counts := rfl
@[simp] theorem updPart_hedGovs (s : State) (n : Nat) (f : Part → Part) : (updPart s n f).hedGovs = s.hedGovs := rfl
@[simp] theorem updPart_reedGovs (s : State) (n : Nat) (f : Part → Part) : (updPart s n f).reedGovs = s.reedGovs := rfl
@[simp] theorem updPart_gov (s : State) (n : Nat) (f : Part → Part) : (updPart s n f).gov = s.gov := rfl
@[simp] theorem updPart_trd (s : State) (n : Nat) (f : Part → Part) : (updPart s n f).trd = s.trd := rfl
@[simp] theorem updPart_stop (s : State) (n : Nat) (f : Part → Part) : (updPart s n f).stop = s.stop := rfl
@[simp] theorem updPart_hedStops (s : State) (n : Nat) (f : Part → Part) : (updPart s n f).hedStops = s.hedStops := rfl
@[simp] theorem updPart_key (s : State) (n : Nat) (f : Part → Part) : (updPart s n f).key = s.key := rfl
@[simp] theorem updPart_wits (s : State) (n : Nat) (f : Part → Part) : (updPart s n f).wits = s.wits := rfl
@[simp] theorem updPart_cards (s : State) (n : Nat) (f : Part → Part) : (updPart s n f).cards = s.cards := rfl
@[simp] theorem updPart_shadows (s : State) (n : Nat) (f : Part → Part) : (updPart s n f).shadows = s.shadows := rfl
@[simp] theorem updPart_lapsed (s : State) (n : Nat) (f : Part → Part) : (updPart s n f).lapsed = s.lapsed := rfl
@[simp] theorem updPart_ver (s : State) (n : Nat) (f : Part → Part) : (updPart s n f).ver = s.ver := rfl
@[simp] theorem updPart_gates (s : State) (n : Nat) (f : Part → Part) : (updPart s n f).gates = s.gates := rfl
@[simp] theorem updPart_tests (s : State) (n : Nat) (f : Part → Part) : (updPart s n f).tests = s.tests := rfl
@[simp] theorem updPart_links (s : State) (n : Nat) (f : Part → Part) : (updPart s n f).links = s.links := rfl
@[simp] theorem updPart_linkTimes (s : State) (n : Nat) (f : Part → Part) : (updPart s n f).linkTimes = s.linkTimes := rfl
@[simp] theorem updPart_servo (s : State) (n : Nat) (f : Part → Part) : (updPart s n f).servo = s.servo := rfl
@[simp] theorem updPart_eth (s : State) (n : Nat) (f : Part → Part) : (updPart s n f).eth = s.eth := rfl
@[simp] theorem updPart_fw (s : State) (n : Nat) (f : Part → Part) : (updPart s n f).fw = s.fw := rfl
@[simp] theorem updPart_cal (s : State) (n : Nat) (f : Part → Part) : (updPart s n f).cal = s.cal := rfl
@[simp] theorem updPart_sens (s : State) (n : Nat) (f : Part → Part) : (updPart s n f).sens = s.sens := rfl
@[simp] theorem updPart_snsOn (s : State) (n : Nat) (f : Part → Part) : (updPart s n f).snsOn = s.snsOn := rfl
@[simp] theorem updPart_free (s : State) (n : Nat) (f : Part → Part) : (updPart s n f).free = s.free := rfl
@[simp] theorem updPart_salts (s : State) (n : Nat) (f : Part → Part) : (updPart s n f).salts = s.salts := rfl

/-! ### updSrc -/

@[simp] theorem updSrc_pending (n : Nat) (f : Src → Src) (s : State) : (updSrc n f s).pending = s.pending := rfl
@[simp] theorem updSrc_inst (n : Nat) (f : Src → Src) (s : State) : (updSrc n f s).inst = s.inst := rfl
@[simp] theorem updSrc_ready (n : Nat) (f : Src → Src) (s : State) : (updSrc n f s).ready = s.ready := rfl
@[simp] theorem updSrc_booting (n : Nat) (f : Src → Src) (s : State) : (updSrc n f s).booting = s.booting := rfl
@[simp] theorem updSrc_workHeld (n : Nat) (f : Src → Src) (s : State) : (updSrc n f s).workHeld = s.workHeld := rfl
@[simp] theorem updSrc_port (n : Nat) (f : Src → Src) (s : State) : (updSrc n f s).port = s.port := rfl
@[simp] theorem updSrc_regs (n : Nat) (f : Src → Src) (s : State) : (updSrc n f s).regs = s.regs := rfl
@[simp] theorem updSrc_parts (n : Nat) (f : Src → Src) (s : State) : (updSrc n f s).parts = s.parts := rfl
@[simp] theorem updSrc_audit (n : Nat) (f : Src → Src) (s : State) : (updSrc n f s).audit = s.audit := rfl
@[simp] theorem updSrc_tim (n : Nat) (f : Src → Src) (s : State) : (updSrc n f s).tim = s.tim := rfl
@[simp] theorem updSrc_owed (n : Nat) (f : Src → Src) (s : State) : (updSrc n f s).owed = s.owed := rfl
@[simp] theorem updSrc_strs (n : Nat) (f : Src → Src) (s : State) : (updSrc n f s).strs = s.strs := rfl
@[simp] theorem updSrc_closes (n : Nat) (f : Src → Src) (s : State) : (updSrc n f s).closes = s.closes := rfl
@[simp] theorem updSrc_bobs (n : Nat) (f : Src → Src) (s : State) : (updSrc n f s).bobs = s.bobs := rfl
@[simp] theorem updSrc_wports (n : Nat) (f : Src → Src) (s : State) : (updSrc n f s).wports = s.wports := rfl
@[simp] theorem updSrc_rport (n : Nat) (f : Src → Src) (s : State) : (updSrc n f s).rport = s.rport := rfl
@[simp] theorem updSrc_adopts (n : Nat) (f : Src → Src) (s : State) : (updSrc n f s).adopts = s.adopts := rfl
@[simp] theorem updSrc_exempt (n : Nat) (f : Src → Src) (s : State) : (updSrc n f s).exempt = s.exempt := rfl
@[simp] theorem updSrc_refused (n : Nat) (f : Src → Src) (s : State) : (updSrc n f s).refused = s.refused := rfl
@[simp] theorem updSrc_heds (n : Nat) (f : Src → Src) (s : State) : (updSrc n f s).heds = s.heds := rfl
@[simp] theorem updSrc_counts (n : Nat) (f : Src → Src) (s : State) : (updSrc n f s).counts = s.counts := rfl
@[simp] theorem updSrc_hedGovs (n : Nat) (f : Src → Src) (s : State) : (updSrc n f s).hedGovs = s.hedGovs := rfl
@[simp] theorem updSrc_reedGovs (n : Nat) (f : Src → Src) (s : State) : (updSrc n f s).reedGovs = s.reedGovs := rfl
@[simp] theorem updSrc_gov (n : Nat) (f : Src → Src) (s : State) : (updSrc n f s).gov = s.gov := rfl
@[simp] theorem updSrc_stop (n : Nat) (f : Src → Src) (s : State) : (updSrc n f s).stop = s.stop := rfl
@[simp] theorem updSrc_hedStops (n : Nat) (f : Src → Src) (s : State) : (updSrc n f s).hedStops = s.hedStops := rfl
@[simp] theorem updSrc_key (n : Nat) (f : Src → Src) (s : State) : (updSrc n f s).key = s.key := rfl
@[simp] theorem updSrc_wits (n : Nat) (f : Src → Src) (s : State) : (updSrc n f s).wits = s.wits := rfl
@[simp] theorem updSrc_cards (n : Nat) (f : Src → Src) (s : State) : (updSrc n f s).cards = s.cards := rfl
@[simp] theorem updSrc_shadows (n : Nat) (f : Src → Src) (s : State) : (updSrc n f s).shadows = s.shadows := rfl
@[simp] theorem updSrc_lapsed (n : Nat) (f : Src → Src) (s : State) : (updSrc n f s).lapsed = s.lapsed := rfl
@[simp] theorem updSrc_ver (n : Nat) (f : Src → Src) (s : State) : (updSrc n f s).ver = s.ver := rfl
@[simp] theorem updSrc_gates (n : Nat) (f : Src → Src) (s : State) : (updSrc n f s).gates = s.gates := rfl
@[simp] theorem updSrc_tests (n : Nat) (f : Src → Src) (s : State) : (updSrc n f s).tests = s.tests := rfl
@[simp] theorem updSrc_links (n : Nat) (f : Src → Src) (s : State) : (updSrc n f s).links = s.links := rfl
@[simp] theorem updSrc_linkTimes (n : Nat) (f : Src → Src) (s : State) : (updSrc n f s).linkTimes = s.linkTimes := rfl
@[simp] theorem updSrc_servo (n : Nat) (f : Src → Src) (s : State) : (updSrc n f s).servo = s.servo := rfl
@[simp] theorem updSrc_eth (n : Nat) (f : Src → Src) (s : State) : (updSrc n f s).eth = s.eth := rfl
@[simp] theorem updSrc_fw (n : Nat) (f : Src → Src) (s : State) : (updSrc n f s).fw = s.fw := rfl
@[simp] theorem updSrc_cal (n : Nat) (f : Src → Src) (s : State) : (updSrc n f s).cal = s.cal := rfl
@[simp] theorem updSrc_sens (n : Nat) (f : Src → Src) (s : State) : (updSrc n f s).sens = s.sens := rfl
@[simp] theorem updSrc_snsOn (n : Nat) (f : Src → Src) (s : State) : (updSrc n f s).snsOn = s.snsOn := rfl
@[simp] theorem updSrc_free (n : Nat) (f : Src → Src) (s : State) : (updSrc n f s).free = s.free := rfl
@[simp] theorem updSrc_salts (n : Nat) (f : Src → Src) (s : State) : (updSrc n f s).salts = s.salts := rfl

/-! ### updTgt -/

@[simp] theorem updTgt_pending (n : Nat) (f : Tgt → Tgt) (s : State) : (updTgt n f s).pending = s.pending := rfl
@[simp] theorem updTgt_inst (n : Nat) (f : Tgt → Tgt) (s : State) : (updTgt n f s).inst = s.inst := rfl
@[simp] theorem updTgt_ready (n : Nat) (f : Tgt → Tgt) (s : State) : (updTgt n f s).ready = s.ready := rfl
@[simp] theorem updTgt_booting (n : Nat) (f : Tgt → Tgt) (s : State) : (updTgt n f s).booting = s.booting := rfl
@[simp] theorem updTgt_workHeld (n : Nat) (f : Tgt → Tgt) (s : State) : (updTgt n f s).workHeld = s.workHeld := rfl
@[simp] theorem updTgt_port (n : Nat) (f : Tgt → Tgt) (s : State) : (updTgt n f s).port = s.port := rfl
@[simp] theorem updTgt_regs (n : Nat) (f : Tgt → Tgt) (s : State) : (updTgt n f s).regs = s.regs := rfl
@[simp] theorem updTgt_parts (n : Nat) (f : Tgt → Tgt) (s : State) : (updTgt n f s).parts = s.parts := rfl
@[simp] theorem updTgt_audit (n : Nat) (f : Tgt → Tgt) (s : State) : (updTgt n f s).audit = s.audit := rfl
@[simp] theorem updTgt_tim (n : Nat) (f : Tgt → Tgt) (s : State) : (updTgt n f s).tim = s.tim := rfl
@[simp] theorem updTgt_owed (n : Nat) (f : Tgt → Tgt) (s : State) : (updTgt n f s).owed = s.owed := rfl
@[simp] theorem updTgt_strs (n : Nat) (f : Tgt → Tgt) (s : State) : (updTgt n f s).strs = s.strs := rfl
@[simp] theorem updTgt_closes (n : Nat) (f : Tgt → Tgt) (s : State) : (updTgt n f s).closes = s.closes := rfl
@[simp] theorem updTgt_bobs (n : Nat) (f : Tgt → Tgt) (s : State) : (updTgt n f s).bobs = s.bobs := rfl
@[simp] theorem updTgt_wports (n : Nat) (f : Tgt → Tgt) (s : State) : (updTgt n f s).wports = s.wports := rfl
@[simp] theorem updTgt_rport (n : Nat) (f : Tgt → Tgt) (s : State) : (updTgt n f s).rport = s.rport := rfl
@[simp] theorem updTgt_adopts (n : Nat) (f : Tgt → Tgt) (s : State) : (updTgt n f s).adopts = s.adopts := rfl
@[simp] theorem updTgt_exempt (n : Nat) (f : Tgt → Tgt) (s : State) : (updTgt n f s).exempt = s.exempt := rfl
@[simp] theorem updTgt_refused (n : Nat) (f : Tgt → Tgt) (s : State) : (updTgt n f s).refused = s.refused := rfl
@[simp] theorem updTgt_heds (n : Nat) (f : Tgt → Tgt) (s : State) : (updTgt n f s).heds = s.heds := rfl
@[simp] theorem updTgt_counts (n : Nat) (f : Tgt → Tgt) (s : State) : (updTgt n f s).counts = s.counts := rfl
@[simp] theorem updTgt_hedGovs (n : Nat) (f : Tgt → Tgt) (s : State) : (updTgt n f s).hedGovs = s.hedGovs := rfl
@[simp] theorem updTgt_reedGovs (n : Nat) (f : Tgt → Tgt) (s : State) : (updTgt n f s).reedGovs = s.reedGovs := rfl
@[simp] theorem updTgt_gov (n : Nat) (f : Tgt → Tgt) (s : State) : (updTgt n f s).gov = s.gov := rfl
@[simp] theorem updTgt_stop (n : Nat) (f : Tgt → Tgt) (s : State) : (updTgt n f s).stop = s.stop := rfl
@[simp] theorem updTgt_hedStops (n : Nat) (f : Tgt → Tgt) (s : State) : (updTgt n f s).hedStops = s.hedStops := rfl
@[simp] theorem updTgt_key (n : Nat) (f : Tgt → Tgt) (s : State) : (updTgt n f s).key = s.key := rfl
@[simp] theorem updTgt_wits (n : Nat) (f : Tgt → Tgt) (s : State) : (updTgt n f s).wits = s.wits := rfl
@[simp] theorem updTgt_cards (n : Nat) (f : Tgt → Tgt) (s : State) : (updTgt n f s).cards = s.cards := rfl
@[simp] theorem updTgt_shadows (n : Nat) (f : Tgt → Tgt) (s : State) : (updTgt n f s).shadows = s.shadows := rfl
@[simp] theorem updTgt_lapsed (n : Nat) (f : Tgt → Tgt) (s : State) : (updTgt n f s).lapsed = s.lapsed := rfl
@[simp] theorem updTgt_ver (n : Nat) (f : Tgt → Tgt) (s : State) : (updTgt n f s).ver = s.ver := rfl
@[simp] theorem updTgt_gates (n : Nat) (f : Tgt → Tgt) (s : State) : (updTgt n f s).gates = s.gates := rfl
@[simp] theorem updTgt_tests (n : Nat) (f : Tgt → Tgt) (s : State) : (updTgt n f s).tests = s.tests := rfl
@[simp] theorem updTgt_links (n : Nat) (f : Tgt → Tgt) (s : State) : (updTgt n f s).links = s.links := rfl
@[simp] theorem updTgt_linkTimes (n : Nat) (f : Tgt → Tgt) (s : State) : (updTgt n f s).linkTimes = s.linkTimes := rfl
@[simp] theorem updTgt_servo (n : Nat) (f : Tgt → Tgt) (s : State) : (updTgt n f s).servo = s.servo := rfl
@[simp] theorem updTgt_eth (n : Nat) (f : Tgt → Tgt) (s : State) : (updTgt n f s).eth = s.eth := rfl
@[simp] theorem updTgt_fw (n : Nat) (f : Tgt → Tgt) (s : State) : (updTgt n f s).fw = s.fw := rfl
@[simp] theorem updTgt_cal (n : Nat) (f : Tgt → Tgt) (s : State) : (updTgt n f s).cal = s.cal := rfl
@[simp] theorem updTgt_sens (n : Nat) (f : Tgt → Tgt) (s : State) : (updTgt n f s).sens = s.sens := rfl
@[simp] theorem updTgt_snsOn (n : Nat) (f : Tgt → Tgt) (s : State) : (updTgt n f s).snsOn = s.snsOn := rfl
@[simp] theorem updTgt_free (n : Nat) (f : Tgt → Tgt) (s : State) : (updTgt n f s).free = s.free := rfl
@[simp] theorem updTgt_salts (n : Nat) (f : Tgt → Tgt) (s : State) : (updTgt n f s).salts = s.salts := rfl

/-! ### updStrm -/

@[simp] theorem updStrm_pending (n : Nat) (f : Strm → Strm) (s : State) : (updStrm n f s).pending = s.pending := rfl
@[simp] theorem updStrm_inst (n : Nat) (f : Strm → Strm) (s : State) : (updStrm n f s).inst = s.inst := rfl
@[simp] theorem updStrm_ready (n : Nat) (f : Strm → Strm) (s : State) : (updStrm n f s).ready = s.ready := rfl
@[simp] theorem updStrm_booting (n : Nat) (f : Strm → Strm) (s : State) : (updStrm n f s).booting = s.booting := rfl
@[simp] theorem updStrm_workHeld (n : Nat) (f : Strm → Strm) (s : State) : (updStrm n f s).workHeld = s.workHeld := rfl
@[simp] theorem updStrm_port (n : Nat) (f : Strm → Strm) (s : State) : (updStrm n f s).port = s.port := rfl
@[simp] theorem updStrm_regs (n : Nat) (f : Strm → Strm) (s : State) : (updStrm n f s).regs = s.regs := rfl
@[simp] theorem updStrm_parts (n : Nat) (f : Strm → Strm) (s : State) : (updStrm n f s).parts = s.parts := rfl
@[simp] theorem updStrm_audit (n : Nat) (f : Strm → Strm) (s : State) : (updStrm n f s).audit = s.audit := rfl
@[simp] theorem updStrm_tim (n : Nat) (f : Strm → Strm) (s : State) : (updStrm n f s).tim = s.tim := rfl
@[simp] theorem updStrm_owed (n : Nat) (f : Strm → Strm) (s : State) : (updStrm n f s).owed = s.owed := rfl
@[simp] theorem updStrm_closes (n : Nat) (f : Strm → Strm) (s : State) : (updStrm n f s).closes = s.closes := rfl
@[simp] theorem updStrm_bobs (n : Nat) (f : Strm → Strm) (s : State) : (updStrm n f s).bobs = s.bobs := rfl
@[simp] theorem updStrm_wports (n : Nat) (f : Strm → Strm) (s : State) : (updStrm n f s).wports = s.wports := rfl
@[simp] theorem updStrm_rport (n : Nat) (f : Strm → Strm) (s : State) : (updStrm n f s).rport = s.rport := rfl
@[simp] theorem updStrm_adopts (n : Nat) (f : Strm → Strm) (s : State) : (updStrm n f s).adopts = s.adopts := rfl
@[simp] theorem updStrm_exempt (n : Nat) (f : Strm → Strm) (s : State) : (updStrm n f s).exempt = s.exempt := rfl
@[simp] theorem updStrm_refused (n : Nat) (f : Strm → Strm) (s : State) : (updStrm n f s).refused = s.refused := rfl
@[simp] theorem updStrm_heds (n : Nat) (f : Strm → Strm) (s : State) : (updStrm n f s).heds = s.heds := rfl
@[simp] theorem updStrm_counts (n : Nat) (f : Strm → Strm) (s : State) : (updStrm n f s).counts = s.counts := rfl
@[simp] theorem updStrm_hedGovs (n : Nat) (f : Strm → Strm) (s : State) : (updStrm n f s).hedGovs = s.hedGovs := rfl
@[simp] theorem updStrm_reedGovs (n : Nat) (f : Strm → Strm) (s : State) : (updStrm n f s).reedGovs = s.reedGovs := rfl
@[simp] theorem updStrm_gov (n : Nat) (f : Strm → Strm) (s : State) : (updStrm n f s).gov = s.gov := rfl
@[simp] theorem updStrm_trd (n : Nat) (f : Strm → Strm) (s : State) : (updStrm n f s).trd = s.trd := rfl
@[simp] theorem updStrm_stop (n : Nat) (f : Strm → Strm) (s : State) : (updStrm n f s).stop = s.stop := rfl
@[simp] theorem updStrm_hedStops (n : Nat) (f : Strm → Strm) (s : State) : (updStrm n f s).hedStops = s.hedStops := rfl
@[simp] theorem updStrm_key (n : Nat) (f : Strm → Strm) (s : State) : (updStrm n f s).key = s.key := rfl
@[simp] theorem updStrm_wits (n : Nat) (f : Strm → Strm) (s : State) : (updStrm n f s).wits = s.wits := rfl
@[simp] theorem updStrm_cards (n : Nat) (f : Strm → Strm) (s : State) : (updStrm n f s).cards = s.cards := rfl
@[simp] theorem updStrm_shadows (n : Nat) (f : Strm → Strm) (s : State) : (updStrm n f s).shadows = s.shadows := rfl
@[simp] theorem updStrm_lapsed (n : Nat) (f : Strm → Strm) (s : State) : (updStrm n f s).lapsed = s.lapsed := rfl
@[simp] theorem updStrm_ver (n : Nat) (f : Strm → Strm) (s : State) : (updStrm n f s).ver = s.ver := rfl
@[simp] theorem updStrm_gates (n : Nat) (f : Strm → Strm) (s : State) : (updStrm n f s).gates = s.gates := rfl
@[simp] theorem updStrm_tests (n : Nat) (f : Strm → Strm) (s : State) : (updStrm n f s).tests = s.tests := rfl
@[simp] theorem updStrm_links (n : Nat) (f : Strm → Strm) (s : State) : (updStrm n f s).links = s.links := rfl
@[simp] theorem updStrm_linkTimes (n : Nat) (f : Strm → Strm) (s : State) : (updStrm n f s).linkTimes = s.linkTimes := rfl
@[simp] theorem updStrm_servo (n : Nat) (f : Strm → Strm) (s : State) : (updStrm n f s).servo = s.servo := rfl
@[simp] theorem updStrm_eth (n : Nat) (f : Strm → Strm) (s : State) : (updStrm n f s).eth = s.eth := rfl
@[simp] theorem updStrm_fw (n : Nat) (f : Strm → Strm) (s : State) : (updStrm n f s).fw = s.fw := rfl
@[simp] theorem updStrm_cal (n : Nat) (f : Strm → Strm) (s : State) : (updStrm n f s).cal = s.cal := rfl
@[simp] theorem updStrm_sens (n : Nat) (f : Strm → Strm) (s : State) : (updStrm n f s).sens = s.sens := rfl
@[simp] theorem updStrm_snsOn (n : Nat) (f : Strm → Strm) (s : State) : (updStrm n f s).snsOn = s.snsOn := rfl
@[simp] theorem updStrm_free (n : Nat) (f : Strm → Strm) (s : State) : (updStrm n f s).free = s.free := rfl
@[simp] theorem updStrm_salts (n : Nat) (f : Strm → Strm) (s : State) : (updStrm n f s).salts = s.salts := rfl

/-! ### updAdopt -/

@[simp] theorem updAdopt_pending (n : Nat) (f : Adopt → Adopt) (s : State) : (updAdopt n f s).pending = s.pending := rfl
@[simp] theorem updAdopt_inst (n : Nat) (f : Adopt → Adopt) (s : State) : (updAdopt n f s).inst = s.inst := rfl
@[simp] theorem updAdopt_ready (n : Nat) (f : Adopt → Adopt) (s : State) : (updAdopt n f s).ready = s.ready := rfl
@[simp] theorem updAdopt_booting (n : Nat) (f : Adopt → Adopt) (s : State) : (updAdopt n f s).booting = s.booting := rfl
@[simp] theorem updAdopt_workHeld (n : Nat) (f : Adopt → Adopt) (s : State) : (updAdopt n f s).workHeld = s.workHeld := rfl
@[simp] theorem updAdopt_port (n : Nat) (f : Adopt → Adopt) (s : State) : (updAdopt n f s).port = s.port := rfl
@[simp] theorem updAdopt_regs (n : Nat) (f : Adopt → Adopt) (s : State) : (updAdopt n f s).regs = s.regs := rfl
@[simp] theorem updAdopt_parts (n : Nat) (f : Adopt → Adopt) (s : State) : (updAdopt n f s).parts = s.parts := rfl
@[simp] theorem updAdopt_audit (n : Nat) (f : Adopt → Adopt) (s : State) : (updAdopt n f s).audit = s.audit := rfl
@[simp] theorem updAdopt_tim (n : Nat) (f : Adopt → Adopt) (s : State) : (updAdopt n f s).tim = s.tim := rfl
@[simp] theorem updAdopt_owed (n : Nat) (f : Adopt → Adopt) (s : State) : (updAdopt n f s).owed = s.owed := rfl
@[simp] theorem updAdopt_strs (n : Nat) (f : Adopt → Adopt) (s : State) : (updAdopt n f s).strs = s.strs := rfl
@[simp] theorem updAdopt_closes (n : Nat) (f : Adopt → Adopt) (s : State) : (updAdopt n f s).closes = s.closes := rfl
@[simp] theorem updAdopt_bobs (n : Nat) (f : Adopt → Adopt) (s : State) : (updAdopt n f s).bobs = s.bobs := rfl
@[simp] theorem updAdopt_wports (n : Nat) (f : Adopt → Adopt) (s : State) : (updAdopt n f s).wports = s.wports := rfl
@[simp] theorem updAdopt_rport (n : Nat) (f : Adopt → Adopt) (s : State) : (updAdopt n f s).rport = s.rport := rfl
@[simp] theorem updAdopt_exempt (n : Nat) (f : Adopt → Adopt) (s : State) : (updAdopt n f s).exempt = s.exempt := rfl
@[simp] theorem updAdopt_refused (n : Nat) (f : Adopt → Adopt) (s : State) : (updAdopt n f s).refused = s.refused := rfl
@[simp] theorem updAdopt_heds (n : Nat) (f : Adopt → Adopt) (s : State) : (updAdopt n f s).heds = s.heds := rfl
@[simp] theorem updAdopt_counts (n : Nat) (f : Adopt → Adopt) (s : State) : (updAdopt n f s).counts = s.counts := rfl
@[simp] theorem updAdopt_hedGovs (n : Nat) (f : Adopt → Adopt) (s : State) : (updAdopt n f s).hedGovs = s.hedGovs := rfl
@[simp] theorem updAdopt_reedGovs (n : Nat) (f : Adopt → Adopt) (s : State) : (updAdopt n f s).reedGovs = s.reedGovs := rfl
@[simp] theorem updAdopt_gov (n : Nat) (f : Adopt → Adopt) (s : State) : (updAdopt n f s).gov = s.gov := rfl
@[simp] theorem updAdopt_trd (n : Nat) (f : Adopt → Adopt) (s : State) : (updAdopt n f s).trd = s.trd := rfl
@[simp] theorem updAdopt_stop (n : Nat) (f : Adopt → Adopt) (s : State) : (updAdopt n f s).stop = s.stop := rfl
@[simp] theorem updAdopt_hedStops (n : Nat) (f : Adopt → Adopt) (s : State) : (updAdopt n f s).hedStops = s.hedStops := rfl
@[simp] theorem updAdopt_key (n : Nat) (f : Adopt → Adopt) (s : State) : (updAdopt n f s).key = s.key := rfl
@[simp] theorem updAdopt_wits (n : Nat) (f : Adopt → Adopt) (s : State) : (updAdopt n f s).wits = s.wits := rfl
@[simp] theorem updAdopt_cards (n : Nat) (f : Adopt → Adopt) (s : State) : (updAdopt n f s).cards = s.cards := rfl
@[simp] theorem updAdopt_shadows (n : Nat) (f : Adopt → Adopt) (s : State) : (updAdopt n f s).shadows = s.shadows := rfl
@[simp] theorem updAdopt_lapsed (n : Nat) (f : Adopt → Adopt) (s : State) : (updAdopt n f s).lapsed = s.lapsed := rfl
@[simp] theorem updAdopt_ver (n : Nat) (f : Adopt → Adopt) (s : State) : (updAdopt n f s).ver = s.ver := rfl
@[simp] theorem updAdopt_gates (n : Nat) (f : Adopt → Adopt) (s : State) : (updAdopt n f s).gates = s.gates := rfl
@[simp] theorem updAdopt_tests (n : Nat) (f : Adopt → Adopt) (s : State) : (updAdopt n f s).tests = s.tests := rfl
@[simp] theorem updAdopt_links (n : Nat) (f : Adopt → Adopt) (s : State) : (updAdopt n f s).links = s.links := rfl
@[simp] theorem updAdopt_linkTimes (n : Nat) (f : Adopt → Adopt) (s : State) : (updAdopt n f s).linkTimes = s.linkTimes := rfl
@[simp] theorem updAdopt_servo (n : Nat) (f : Adopt → Adopt) (s : State) : (updAdopt n f s).servo = s.servo := rfl
@[simp] theorem updAdopt_eth (n : Nat) (f : Adopt → Adopt) (s : State) : (updAdopt n f s).eth = s.eth := rfl
@[simp] theorem updAdopt_fw (n : Nat) (f : Adopt → Adopt) (s : State) : (updAdopt n f s).fw = s.fw := rfl
@[simp] theorem updAdopt_cal (n : Nat) (f : Adopt → Adopt) (s : State) : (updAdopt n f s).cal = s.cal := rfl
@[simp] theorem updAdopt_sens (n : Nat) (f : Adopt → Adopt) (s : State) : (updAdopt n f s).sens = s.sens := rfl
@[simp] theorem updAdopt_snsOn (n : Nat) (f : Adopt → Adopt) (s : State) : (updAdopt n f s).snsOn = s.snsOn := rfl
@[simp] theorem updAdopt_free (n : Nat) (f : Adopt → Adopt) (s : State) : (updAdopt n f s).free = s.free := rfl
@[simp] theorem updAdopt_salts (n : Nat) (f : Adopt → Adopt) (s : State) : (updAdopt n f s).salts = s.salts := rfl

/-! ### updBob -/

@[simp] theorem updBob_pending (n : Nat) (f : Bob → Bob) (s : State) : (updBob n f s).pending = s.pending := rfl
@[simp] theorem updBob_inst (n : Nat) (f : Bob → Bob) (s : State) : (updBob n f s).inst = s.inst := rfl
@[simp] theorem updBob_ready (n : Nat) (f : Bob → Bob) (s : State) : (updBob n f s).ready = s.ready := rfl
@[simp] theorem updBob_booting (n : Nat) (f : Bob → Bob) (s : State) : (updBob n f s).booting = s.booting := rfl
@[simp] theorem updBob_workHeld (n : Nat) (f : Bob → Bob) (s : State) : (updBob n f s).workHeld = s.workHeld := rfl
@[simp] theorem updBob_port (n : Nat) (f : Bob → Bob) (s : State) : (updBob n f s).port = s.port := rfl
@[simp] theorem updBob_regs (n : Nat) (f : Bob → Bob) (s : State) : (updBob n f s).regs = s.regs := rfl
@[simp] theorem updBob_parts (n : Nat) (f : Bob → Bob) (s : State) : (updBob n f s).parts = s.parts := rfl
@[simp] theorem updBob_audit (n : Nat) (f : Bob → Bob) (s : State) : (updBob n f s).audit = s.audit := rfl
@[simp] theorem updBob_tim (n : Nat) (f : Bob → Bob) (s : State) : (updBob n f s).tim = s.tim := rfl
@[simp] theorem updBob_owed (n : Nat) (f : Bob → Bob) (s : State) : (updBob n f s).owed = s.owed := rfl
@[simp] theorem updBob_strs (n : Nat) (f : Bob → Bob) (s : State) : (updBob n f s).strs = s.strs := rfl
@[simp] theorem updBob_closes (n : Nat) (f : Bob → Bob) (s : State) : (updBob n f s).closes = s.closes := rfl
@[simp] theorem updBob_wports (n : Nat) (f : Bob → Bob) (s : State) : (updBob n f s).wports = s.wports := rfl
@[simp] theorem updBob_rport (n : Nat) (f : Bob → Bob) (s : State) : (updBob n f s).rport = s.rport := rfl
@[simp] theorem updBob_adopts (n : Nat) (f : Bob → Bob) (s : State) : (updBob n f s).adopts = s.adopts := rfl
@[simp] theorem updBob_exempt (n : Nat) (f : Bob → Bob) (s : State) : (updBob n f s).exempt = s.exempt := rfl
@[simp] theorem updBob_refused (n : Nat) (f : Bob → Bob) (s : State) : (updBob n f s).refused = s.refused := rfl
@[simp] theorem updBob_heds (n : Nat) (f : Bob → Bob) (s : State) : (updBob n f s).heds = s.heds := rfl
@[simp] theorem updBob_counts (n : Nat) (f : Bob → Bob) (s : State) : (updBob n f s).counts = s.counts := rfl
@[simp] theorem updBob_hedGovs (n : Nat) (f : Bob → Bob) (s : State) : (updBob n f s).hedGovs = s.hedGovs := rfl
@[simp] theorem updBob_reedGovs (n : Nat) (f : Bob → Bob) (s : State) : (updBob n f s).reedGovs = s.reedGovs := rfl
@[simp] theorem updBob_gov (n : Nat) (f : Bob → Bob) (s : State) : (updBob n f s).gov = s.gov := rfl
@[simp] theorem updBob_trd (n : Nat) (f : Bob → Bob) (s : State) : (updBob n f s).trd = s.trd := rfl
@[simp] theorem updBob_stop (n : Nat) (f : Bob → Bob) (s : State) : (updBob n f s).stop = s.stop := rfl
@[simp] theorem updBob_hedStops (n : Nat) (f : Bob → Bob) (s : State) : (updBob n f s).hedStops = s.hedStops := rfl
@[simp] theorem updBob_key (n : Nat) (f : Bob → Bob) (s : State) : (updBob n f s).key = s.key := rfl
@[simp] theorem updBob_wits (n : Nat) (f : Bob → Bob) (s : State) : (updBob n f s).wits = s.wits := rfl
@[simp] theorem updBob_cards (n : Nat) (f : Bob → Bob) (s : State) : (updBob n f s).cards = s.cards := rfl
@[simp] theorem updBob_shadows (n : Nat) (f : Bob → Bob) (s : State) : (updBob n f s).shadows = s.shadows := rfl
@[simp] theorem updBob_lapsed (n : Nat) (f : Bob → Bob) (s : State) : (updBob n f s).lapsed = s.lapsed := rfl
@[simp] theorem updBob_ver (n : Nat) (f : Bob → Bob) (s : State) : (updBob n f s).ver = s.ver := rfl
@[simp] theorem updBob_gates (n : Nat) (f : Bob → Bob) (s : State) : (updBob n f s).gates = s.gates := rfl
@[simp] theorem updBob_tests (n : Nat) (f : Bob → Bob) (s : State) : (updBob n f s).tests = s.tests := rfl
@[simp] theorem updBob_links (n : Nat) (f : Bob → Bob) (s : State) : (updBob n f s).links = s.links := rfl
@[simp] theorem updBob_linkTimes (n : Nat) (f : Bob → Bob) (s : State) : (updBob n f s).linkTimes = s.linkTimes := rfl
@[simp] theorem updBob_servo (n : Nat) (f : Bob → Bob) (s : State) : (updBob n f s).servo = s.servo := rfl
@[simp] theorem updBob_eth (n : Nat) (f : Bob → Bob) (s : State) : (updBob n f s).eth = s.eth := rfl
@[simp] theorem updBob_fw (n : Nat) (f : Bob → Bob) (s : State) : (updBob n f s).fw = s.fw := rfl
@[simp] theorem updBob_cal (n : Nat) (f : Bob → Bob) (s : State) : (updBob n f s).cal = s.cal := rfl
@[simp] theorem updBob_sens (n : Nat) (f : Bob → Bob) (s : State) : (updBob n f s).sens = s.sens := rfl
@[simp] theorem updBob_snsOn (n : Nat) (f : Bob → Bob) (s : State) : (updBob n f s).snsOn = s.snsOn := rfl
@[simp] theorem updBob_free (n : Nat) (f : Bob → Bob) (s : State) : (updBob n f s).free = s.free := rfl
@[simp] theorem updBob_salts (n : Nat) (f : Bob → Bob) (s : State) : (updBob n f s).salts = s.salts := rfl

/-! ### updSlot -/

@[simp] theorem updSlot_pending (n : Nat) (f : KSlot → KSlot) (s : State) : (updSlot n f s).pending = s.pending := rfl
@[simp] theorem updSlot_inst (n : Nat) (f : KSlot → KSlot) (s : State) : (updSlot n f s).inst = s.inst := rfl
@[simp] theorem updSlot_ready (n : Nat) (f : KSlot → KSlot) (s : State) : (updSlot n f s).ready = s.ready := rfl
@[simp] theorem updSlot_booting (n : Nat) (f : KSlot → KSlot) (s : State) : (updSlot n f s).booting = s.booting := rfl
@[simp] theorem updSlot_workHeld (n : Nat) (f : KSlot → KSlot) (s : State) : (updSlot n f s).workHeld = s.workHeld := rfl
@[simp] theorem updSlot_port (n : Nat) (f : KSlot → KSlot) (s : State) : (updSlot n f s).port = s.port := rfl
@[simp] theorem updSlot_regs (n : Nat) (f : KSlot → KSlot) (s : State) : (updSlot n f s).regs = s.regs := rfl
@[simp] theorem updSlot_parts (n : Nat) (f : KSlot → KSlot) (s : State) : (updSlot n f s).parts = s.parts := rfl
@[simp] theorem updSlot_audit (n : Nat) (f : KSlot → KSlot) (s : State) : (updSlot n f s).audit = s.audit := rfl
@[simp] theorem updSlot_tim (n : Nat) (f : KSlot → KSlot) (s : State) : (updSlot n f s).tim = s.tim := rfl
@[simp] theorem updSlot_owed (n : Nat) (f : KSlot → KSlot) (s : State) : (updSlot n f s).owed = s.owed := rfl
@[simp] theorem updSlot_strs (n : Nat) (f : KSlot → KSlot) (s : State) : (updSlot n f s).strs = s.strs := rfl
@[simp] theorem updSlot_closes (n : Nat) (f : KSlot → KSlot) (s : State) : (updSlot n f s).closes = s.closes := rfl
@[simp] theorem updSlot_bobs (n : Nat) (f : KSlot → KSlot) (s : State) : (updSlot n f s).bobs = s.bobs := rfl
@[simp] theorem updSlot_wports (n : Nat) (f : KSlot → KSlot) (s : State) : (updSlot n f s).wports = s.wports := rfl
@[simp] theorem updSlot_rport (n : Nat) (f : KSlot → KSlot) (s : State) : (updSlot n f s).rport = s.rport := rfl
@[simp] theorem updSlot_adopts (n : Nat) (f : KSlot → KSlot) (s : State) : (updSlot n f s).adopts = s.adopts := rfl
@[simp] theorem updSlot_exempt (n : Nat) (f : KSlot → KSlot) (s : State) : (updSlot n f s).exempt = s.exempt := rfl
@[simp] theorem updSlot_refused (n : Nat) (f : KSlot → KSlot) (s : State) : (updSlot n f s).refused = s.refused := rfl
@[simp] theorem updSlot_heds (n : Nat) (f : KSlot → KSlot) (s : State) : (updSlot n f s).heds = s.heds := rfl
@[simp] theorem updSlot_counts (n : Nat) (f : KSlot → KSlot) (s : State) : (updSlot n f s).counts = s.counts := rfl
@[simp] theorem updSlot_hedGovs (n : Nat) (f : KSlot → KSlot) (s : State) : (updSlot n f s).hedGovs = s.hedGovs := rfl
@[simp] theorem updSlot_reedGovs (n : Nat) (f : KSlot → KSlot) (s : State) : (updSlot n f s).reedGovs = s.reedGovs := rfl
@[simp] theorem updSlot_gov (n : Nat) (f : KSlot → KSlot) (s : State) : (updSlot n f s).gov = s.gov := rfl
@[simp] theorem updSlot_trd (n : Nat) (f : KSlot → KSlot) (s : State) : (updSlot n f s).trd = s.trd := rfl
@[simp] theorem updSlot_stop (n : Nat) (f : KSlot → KSlot) (s : State) : (updSlot n f s).stop = s.stop := rfl
@[simp] theorem updSlot_hedStops (n : Nat) (f : KSlot → KSlot) (s : State) : (updSlot n f s).hedStops = s.hedStops := rfl
@[simp] theorem updSlot_wits (n : Nat) (f : KSlot → KSlot) (s : State) : (updSlot n f s).wits = s.wits := rfl
@[simp] theorem updSlot_cards (n : Nat) (f : KSlot → KSlot) (s : State) : (updSlot n f s).cards = s.cards := rfl
@[simp] theorem updSlot_shadows (n : Nat) (f : KSlot → KSlot) (s : State) : (updSlot n f s).shadows = s.shadows := rfl
@[simp] theorem updSlot_lapsed (n : Nat) (f : KSlot → KSlot) (s : State) : (updSlot n f s).lapsed = s.lapsed := rfl
@[simp] theorem updSlot_ver (n : Nat) (f : KSlot → KSlot) (s : State) : (updSlot n f s).ver = s.ver := rfl
@[simp] theorem updSlot_gates (n : Nat) (f : KSlot → KSlot) (s : State) : (updSlot n f s).gates = s.gates := rfl
@[simp] theorem updSlot_tests (n : Nat) (f : KSlot → KSlot) (s : State) : (updSlot n f s).tests = s.tests := rfl
@[simp] theorem updSlot_links (n : Nat) (f : KSlot → KSlot) (s : State) : (updSlot n f s).links = s.links := rfl
@[simp] theorem updSlot_linkTimes (n : Nat) (f : KSlot → KSlot) (s : State) : (updSlot n f s).linkTimes = s.linkTimes := rfl
@[simp] theorem updSlot_servo (n : Nat) (f : KSlot → KSlot) (s : State) : (updSlot n f s).servo = s.servo := rfl
@[simp] theorem updSlot_eth (n : Nat) (f : KSlot → KSlot) (s : State) : (updSlot n f s).eth = s.eth := rfl
@[simp] theorem updSlot_fw (n : Nat) (f : KSlot → KSlot) (s : State) : (updSlot n f s).fw = s.fw := rfl
@[simp] theorem updSlot_cal (n : Nat) (f : KSlot → KSlot) (s : State) : (updSlot n f s).cal = s.cal := rfl
@[simp] theorem updSlot_sens (n : Nat) (f : KSlot → KSlot) (s : State) : (updSlot n f s).sens = s.sens := rfl
@[simp] theorem updSlot_snsOn (n : Nat) (f : KSlot → KSlot) (s : State) : (updSlot n f s).snsOn = s.snsOn := rfl
@[simp] theorem updSlot_free (n : Nat) (f : KSlot → KSlot) (s : State) : (updSlot n f s).free = s.free := rfl
@[simp] theorem updSlot_salts (n : Nat) (f : KSlot → KSlot) (s : State) : (updSlot n f s).salts = s.salts := rfl

/-! ### updPort -/

@[simp] theorem updPort_pending (n : Nat) (f : WPort → WPort) (s : State) : (updPort n f s).pending = s.pending := rfl
@[simp] theorem updPort_inst (n : Nat) (f : WPort → WPort) (s : State) : (updPort n f s).inst = s.inst := rfl
@[simp] theorem updPort_ready (n : Nat) (f : WPort → WPort) (s : State) : (updPort n f s).ready = s.ready := rfl
@[simp] theorem updPort_booting (n : Nat) (f : WPort → WPort) (s : State) : (updPort n f s).booting = s.booting := rfl
@[simp] theorem updPort_workHeld (n : Nat) (f : WPort → WPort) (s : State) : (updPort n f s).workHeld = s.workHeld := rfl
@[simp] theorem updPort_port (n : Nat) (f : WPort → WPort) (s : State) : (updPort n f s).port = s.port := rfl
@[simp] theorem updPort_regs (n : Nat) (f : WPort → WPort) (s : State) : (updPort n f s).regs = s.regs := rfl
@[simp] theorem updPort_parts (n : Nat) (f : WPort → WPort) (s : State) : (updPort n f s).parts = s.parts := rfl
@[simp] theorem updPort_audit (n : Nat) (f : WPort → WPort) (s : State) : (updPort n f s).audit = s.audit := rfl
@[simp] theorem updPort_tim (n : Nat) (f : WPort → WPort) (s : State) : (updPort n f s).tim = s.tim := rfl
@[simp] theorem updPort_owed (n : Nat) (f : WPort → WPort) (s : State) : (updPort n f s).owed = s.owed := rfl
@[simp] theorem updPort_strs (n : Nat) (f : WPort → WPort) (s : State) : (updPort n f s).strs = s.strs := rfl
@[simp] theorem updPort_closes (n : Nat) (f : WPort → WPort) (s : State) : (updPort n f s).closes = s.closes := rfl
@[simp] theorem updPort_bobs (n : Nat) (f : WPort → WPort) (s : State) : (updPort n f s).bobs = s.bobs := rfl
@[simp] theorem updPort_rport (n : Nat) (f : WPort → WPort) (s : State) : (updPort n f s).rport = s.rport := rfl
@[simp] theorem updPort_adopts (n : Nat) (f : WPort → WPort) (s : State) : (updPort n f s).adopts = s.adopts := rfl
@[simp] theorem updPort_exempt (n : Nat) (f : WPort → WPort) (s : State) : (updPort n f s).exempt = s.exempt := rfl
@[simp] theorem updPort_refused (n : Nat) (f : WPort → WPort) (s : State) : (updPort n f s).refused = s.refused := rfl
@[simp] theorem updPort_heds (n : Nat) (f : WPort → WPort) (s : State) : (updPort n f s).heds = s.heds := rfl
@[simp] theorem updPort_counts (n : Nat) (f : WPort → WPort) (s : State) : (updPort n f s).counts = s.counts := rfl
@[simp] theorem updPort_hedGovs (n : Nat) (f : WPort → WPort) (s : State) : (updPort n f s).hedGovs = s.hedGovs := rfl
@[simp] theorem updPort_reedGovs (n : Nat) (f : WPort → WPort) (s : State) : (updPort n f s).reedGovs = s.reedGovs := rfl
@[simp] theorem updPort_gov (n : Nat) (f : WPort → WPort) (s : State) : (updPort n f s).gov = s.gov := rfl
@[simp] theorem updPort_trd (n : Nat) (f : WPort → WPort) (s : State) : (updPort n f s).trd = s.trd := rfl
@[simp] theorem updPort_stop (n : Nat) (f : WPort → WPort) (s : State) : (updPort n f s).stop = s.stop := rfl
@[simp] theorem updPort_hedStops (n : Nat) (f : WPort → WPort) (s : State) : (updPort n f s).hedStops = s.hedStops := rfl
@[simp] theorem updPort_key (n : Nat) (f : WPort → WPort) (s : State) : (updPort n f s).key = s.key := rfl
@[simp] theorem updPort_wits (n : Nat) (f : WPort → WPort) (s : State) : (updPort n f s).wits = s.wits := rfl
@[simp] theorem updPort_cards (n : Nat) (f : WPort → WPort) (s : State) : (updPort n f s).cards = s.cards := rfl
@[simp] theorem updPort_shadows (n : Nat) (f : WPort → WPort) (s : State) : (updPort n f s).shadows = s.shadows := rfl
@[simp] theorem updPort_lapsed (n : Nat) (f : WPort → WPort) (s : State) : (updPort n f s).lapsed = s.lapsed := rfl
@[simp] theorem updPort_ver (n : Nat) (f : WPort → WPort) (s : State) : (updPort n f s).ver = s.ver := rfl
@[simp] theorem updPort_gates (n : Nat) (f : WPort → WPort) (s : State) : (updPort n f s).gates = s.gates := rfl
@[simp] theorem updPort_tests (n : Nat) (f : WPort → WPort) (s : State) : (updPort n f s).tests = s.tests := rfl
@[simp] theorem updPort_links (n : Nat) (f : WPort → WPort) (s : State) : (updPort n f s).links = s.links := rfl
@[simp] theorem updPort_linkTimes (n : Nat) (f : WPort → WPort) (s : State) : (updPort n f s).linkTimes = s.linkTimes := rfl
@[simp] theorem updPort_servo (n : Nat) (f : WPort → WPort) (s : State) : (updPort n f s).servo = s.servo := rfl
@[simp] theorem updPort_eth (n : Nat) (f : WPort → WPort) (s : State) : (updPort n f s).eth = s.eth := rfl
@[simp] theorem updPort_fw (n : Nat) (f : WPort → WPort) (s : State) : (updPort n f s).fw = s.fw := rfl
@[simp] theorem updPort_cal (n : Nat) (f : WPort → WPort) (s : State) : (updPort n f s).cal = s.cal := rfl
@[simp] theorem updPort_sens (n : Nat) (f : WPort → WPort) (s : State) : (updPort n f s).sens = s.sens := rfl
@[simp] theorem updPort_snsOn (n : Nat) (f : WPort → WPort) (s : State) : (updPort n f s).snsOn = s.snsOn := rfl
@[simp] theorem updPort_free (n : Nat) (f : WPort → WPort) (s : State) : (updPort n f s).free = s.free := rfl
@[simp] theorem updPort_salts (n : Nat) (f : WPort → WPort) (s : State) : (updPort n f s).salts = s.salts := rfl

/-! ### updHedGov -/

@[simp] theorem updHedGov_pending (n : Nat) (f : HedGov → HedGov) (s : State) : (updHedGov n f s).pending = s.pending := rfl
@[simp] theorem updHedGov_inst (n : Nat) (f : HedGov → HedGov) (s : State) : (updHedGov n f s).inst = s.inst := rfl
@[simp] theorem updHedGov_ready (n : Nat) (f : HedGov → HedGov) (s : State) : (updHedGov n f s).ready = s.ready := rfl
@[simp] theorem updHedGov_booting (n : Nat) (f : HedGov → HedGov) (s : State) : (updHedGov n f s).booting = s.booting := rfl
@[simp] theorem updHedGov_workHeld (n : Nat) (f : HedGov → HedGov) (s : State) : (updHedGov n f s).workHeld = s.workHeld := rfl
@[simp] theorem updHedGov_port (n : Nat) (f : HedGov → HedGov) (s : State) : (updHedGov n f s).port = s.port := rfl
@[simp] theorem updHedGov_regs (n : Nat) (f : HedGov → HedGov) (s : State) : (updHedGov n f s).regs = s.regs := rfl
@[simp] theorem updHedGov_parts (n : Nat) (f : HedGov → HedGov) (s : State) : (updHedGov n f s).parts = s.parts := rfl
@[simp] theorem updHedGov_audit (n : Nat) (f : HedGov → HedGov) (s : State) : (updHedGov n f s).audit = s.audit := rfl
@[simp] theorem updHedGov_tim (n : Nat) (f : HedGov → HedGov) (s : State) : (updHedGov n f s).tim = s.tim := rfl
@[simp] theorem updHedGov_owed (n : Nat) (f : HedGov → HedGov) (s : State) : (updHedGov n f s).owed = s.owed := rfl
@[simp] theorem updHedGov_strs (n : Nat) (f : HedGov → HedGov) (s : State) : (updHedGov n f s).strs = s.strs := rfl
@[simp] theorem updHedGov_closes (n : Nat) (f : HedGov → HedGov) (s : State) : (updHedGov n f s).closes = s.closes := rfl
@[simp] theorem updHedGov_bobs (n : Nat) (f : HedGov → HedGov) (s : State) : (updHedGov n f s).bobs = s.bobs := rfl
@[simp] theorem updHedGov_wports (n : Nat) (f : HedGov → HedGov) (s : State) : (updHedGov n f s).wports = s.wports := rfl
@[simp] theorem updHedGov_rport (n : Nat) (f : HedGov → HedGov) (s : State) : (updHedGov n f s).rport = s.rport := rfl
@[simp] theorem updHedGov_adopts (n : Nat) (f : HedGov → HedGov) (s : State) : (updHedGov n f s).adopts = s.adopts := rfl
@[simp] theorem updHedGov_exempt (n : Nat) (f : HedGov → HedGov) (s : State) : (updHedGov n f s).exempt = s.exempt := rfl
@[simp] theorem updHedGov_refused (n : Nat) (f : HedGov → HedGov) (s : State) : (updHedGov n f s).refused = s.refused := rfl
@[simp] theorem updHedGov_heds (n : Nat) (f : HedGov → HedGov) (s : State) : (updHedGov n f s).heds = s.heds := rfl
@[simp] theorem updHedGov_counts (n : Nat) (f : HedGov → HedGov) (s : State) : (updHedGov n f s).counts = s.counts := rfl
@[simp] theorem updHedGov_reedGovs (n : Nat) (f : HedGov → HedGov) (s : State) : (updHedGov n f s).reedGovs = s.reedGovs := rfl
@[simp] theorem updHedGov_gov (n : Nat) (f : HedGov → HedGov) (s : State) : (updHedGov n f s).gov = s.gov := rfl
@[simp] theorem updHedGov_trd (n : Nat) (f : HedGov → HedGov) (s : State) : (updHedGov n f s).trd = s.trd := rfl
@[simp] theorem updHedGov_stop (n : Nat) (f : HedGov → HedGov) (s : State) : (updHedGov n f s).stop = s.stop := rfl
@[simp] theorem updHedGov_hedStops (n : Nat) (f : HedGov → HedGov) (s : State) : (updHedGov n f s).hedStops = s.hedStops := rfl
@[simp] theorem updHedGov_key (n : Nat) (f : HedGov → HedGov) (s : State) : (updHedGov n f s).key = s.key := rfl
@[simp] theorem updHedGov_wits (n : Nat) (f : HedGov → HedGov) (s : State) : (updHedGov n f s).wits = s.wits := rfl
@[simp] theorem updHedGov_cards (n : Nat) (f : HedGov → HedGov) (s : State) : (updHedGov n f s).cards = s.cards := rfl
@[simp] theorem updHedGov_shadows (n : Nat) (f : HedGov → HedGov) (s : State) : (updHedGov n f s).shadows = s.shadows := rfl
@[simp] theorem updHedGov_lapsed (n : Nat) (f : HedGov → HedGov) (s : State) : (updHedGov n f s).lapsed = s.lapsed := rfl
@[simp] theorem updHedGov_ver (n : Nat) (f : HedGov → HedGov) (s : State) : (updHedGov n f s).ver = s.ver := rfl
@[simp] theorem updHedGov_gates (n : Nat) (f : HedGov → HedGov) (s : State) : (updHedGov n f s).gates = s.gates := rfl
@[simp] theorem updHedGov_tests (n : Nat) (f : HedGov → HedGov) (s : State) : (updHedGov n f s).tests = s.tests := rfl
@[simp] theorem updHedGov_links (n : Nat) (f : HedGov → HedGov) (s : State) : (updHedGov n f s).links = s.links := rfl
@[simp] theorem updHedGov_linkTimes (n : Nat) (f : HedGov → HedGov) (s : State) : (updHedGov n f s).linkTimes = s.linkTimes := rfl
@[simp] theorem updHedGov_servo (n : Nat) (f : HedGov → HedGov) (s : State) : (updHedGov n f s).servo = s.servo := rfl
@[simp] theorem updHedGov_eth (n : Nat) (f : HedGov → HedGov) (s : State) : (updHedGov n f s).eth = s.eth := rfl
@[simp] theorem updHedGov_fw (n : Nat) (f : HedGov → HedGov) (s : State) : (updHedGov n f s).fw = s.fw := rfl
@[simp] theorem updHedGov_cal (n : Nat) (f : HedGov → HedGov) (s : State) : (updHedGov n f s).cal = s.cal := rfl
@[simp] theorem updHedGov_sens (n : Nat) (f : HedGov → HedGov) (s : State) : (updHedGov n f s).sens = s.sens := rfl
@[simp] theorem updHedGov_snsOn (n : Nat) (f : HedGov → HedGov) (s : State) : (updHedGov n f s).snsOn = s.snsOn := rfl
@[simp] theorem updHedGov_free (n : Nat) (f : HedGov → HedGov) (s : State) : (updHedGov n f s).free = s.free := rfl
@[simp] theorem updHedGov_salts (n : Nat) (f : HedGov → HedGov) (s : State) : (updHedGov n f s).salts = s.salts := rfl

/-! ### updReedGov -/

@[simp] theorem updReedGov_pending (n : Nat) (f : ReedGov → ReedGov) (s : State) : (updReedGov n f s).pending = s.pending := rfl
@[simp] theorem updReedGov_inst (n : Nat) (f : ReedGov → ReedGov) (s : State) : (updReedGov n f s).inst = s.inst := rfl
@[simp] theorem updReedGov_ready (n : Nat) (f : ReedGov → ReedGov) (s : State) : (updReedGov n f s).ready = s.ready := rfl
@[simp] theorem updReedGov_booting (n : Nat) (f : ReedGov → ReedGov) (s : State) : (updReedGov n f s).booting = s.booting := rfl
@[simp] theorem updReedGov_workHeld (n : Nat) (f : ReedGov → ReedGov) (s : State) : (updReedGov n f s).workHeld = s.workHeld := rfl
@[simp] theorem updReedGov_port (n : Nat) (f : ReedGov → ReedGov) (s : State) : (updReedGov n f s).port = s.port := rfl
@[simp] theorem updReedGov_regs (n : Nat) (f : ReedGov → ReedGov) (s : State) : (updReedGov n f s).regs = s.regs := rfl
@[simp] theorem updReedGov_parts (n : Nat) (f : ReedGov → ReedGov) (s : State) : (updReedGov n f s).parts = s.parts := rfl
@[simp] theorem updReedGov_audit (n : Nat) (f : ReedGov → ReedGov) (s : State) : (updReedGov n f s).audit = s.audit := rfl
@[simp] theorem updReedGov_tim (n : Nat) (f : ReedGov → ReedGov) (s : State) : (updReedGov n f s).tim = s.tim := rfl
@[simp] theorem updReedGov_owed (n : Nat) (f : ReedGov → ReedGov) (s : State) : (updReedGov n f s).owed = s.owed := rfl
@[simp] theorem updReedGov_strs (n : Nat) (f : ReedGov → ReedGov) (s : State) : (updReedGov n f s).strs = s.strs := rfl
@[simp] theorem updReedGov_closes (n : Nat) (f : ReedGov → ReedGov) (s : State) : (updReedGov n f s).closes = s.closes := rfl
@[simp] theorem updReedGov_bobs (n : Nat) (f : ReedGov → ReedGov) (s : State) : (updReedGov n f s).bobs = s.bobs := rfl
@[simp] theorem updReedGov_wports (n : Nat) (f : ReedGov → ReedGov) (s : State) : (updReedGov n f s).wports = s.wports := rfl
@[simp] theorem updReedGov_rport (n : Nat) (f : ReedGov → ReedGov) (s : State) : (updReedGov n f s).rport = s.rport := rfl
@[simp] theorem updReedGov_adopts (n : Nat) (f : ReedGov → ReedGov) (s : State) : (updReedGov n f s).adopts = s.adopts := rfl
@[simp] theorem updReedGov_exempt (n : Nat) (f : ReedGov → ReedGov) (s : State) : (updReedGov n f s).exempt = s.exempt := rfl
@[simp] theorem updReedGov_refused (n : Nat) (f : ReedGov → ReedGov) (s : State) : (updReedGov n f s).refused = s.refused := rfl
@[simp] theorem updReedGov_heds (n : Nat) (f : ReedGov → ReedGov) (s : State) : (updReedGov n f s).heds = s.heds := rfl
@[simp] theorem updReedGov_counts (n : Nat) (f : ReedGov → ReedGov) (s : State) : (updReedGov n f s).counts = s.counts := rfl
@[simp] theorem updReedGov_hedGovs (n : Nat) (f : ReedGov → ReedGov) (s : State) : (updReedGov n f s).hedGovs = s.hedGovs := rfl
@[simp] theorem updReedGov_gov (n : Nat) (f : ReedGov → ReedGov) (s : State) : (updReedGov n f s).gov = s.gov := rfl
@[simp] theorem updReedGov_trd (n : Nat) (f : ReedGov → ReedGov) (s : State) : (updReedGov n f s).trd = s.trd := rfl
@[simp] theorem updReedGov_stop (n : Nat) (f : ReedGov → ReedGov) (s : State) : (updReedGov n f s).stop = s.stop := rfl
@[simp] theorem updReedGov_hedStops (n : Nat) (f : ReedGov → ReedGov) (s : State) : (updReedGov n f s).hedStops = s.hedStops := rfl
@[simp] theorem updReedGov_key (n : Nat) (f : ReedGov → ReedGov) (s : State) : (updReedGov n f s).key = s.key := rfl
@[simp] theorem updReedGov_wits (n : Nat) (f : ReedGov → ReedGov) (s : State) : (updReedGov n f s).wits = s.wits := rfl
@[simp] theorem updReedGov_cards (n : Nat) (f : ReedGov → ReedGov) (s : State) : (updReedGov n f s).cards = s.cards := rfl
@[simp] theorem updReedGov_shadows (n : Nat) (f : ReedGov → ReedGov) (s : State) : (updReedGov n f s).shadows = s.shadows := rfl
@[simp] theorem updReedGov_lapsed (n : Nat) (f : ReedGov → ReedGov) (s : State) : (updReedGov n f s).lapsed = s.lapsed := rfl
@[simp] theorem updReedGov_ver (n : Nat) (f : ReedGov → ReedGov) (s : State) : (updReedGov n f s).ver = s.ver := rfl
@[simp] theorem updReedGov_gates (n : Nat) (f : ReedGov → ReedGov) (s : State) : (updReedGov n f s).gates = s.gates := rfl
@[simp] theorem updReedGov_tests (n : Nat) (f : ReedGov → ReedGov) (s : State) : (updReedGov n f s).tests = s.tests := rfl
@[simp] theorem updReedGov_links (n : Nat) (f : ReedGov → ReedGov) (s : State) : (updReedGov n f s).links = s.links := rfl
@[simp] theorem updReedGov_linkTimes (n : Nat) (f : ReedGov → ReedGov) (s : State) : (updReedGov n f s).linkTimes = s.linkTimes := rfl
@[simp] theorem updReedGov_servo (n : Nat) (f : ReedGov → ReedGov) (s : State) : (updReedGov n f s).servo = s.servo := rfl
@[simp] theorem updReedGov_eth (n : Nat) (f : ReedGov → ReedGov) (s : State) : (updReedGov n f s).eth = s.eth := rfl
@[simp] theorem updReedGov_fw (n : Nat) (f : ReedGov → ReedGov) (s : State) : (updReedGov n f s).fw = s.fw := rfl
@[simp] theorem updReedGov_cal (n : Nat) (f : ReedGov → ReedGov) (s : State) : (updReedGov n f s).cal = s.cal := rfl
@[simp] theorem updReedGov_sens (n : Nat) (f : ReedGov → ReedGov) (s : State) : (updReedGov n f s).sens = s.sens := rfl
@[simp] theorem updReedGov_snsOn (n : Nat) (f : ReedGov → ReedGov) (s : State) : (updReedGov n f s).snsOn = s.snsOn := rfl
@[simp] theorem updReedGov_free (n : Nat) (f : ReedGov → ReedGov) (s : State) : (updReedGov n f s).free = s.free := rfl
@[simp] theorem updReedGov_salts (n : Nat) (f : ReedGov → ReedGov) (s : State) : (updReedGov n f s).salts = s.salts := rfl

/-! ### updHed -/

@[simp] theorem updHed_pending (n : Nat) (f : HedTrace → HedTrace) (s : State) : (updHed n f s).pending = s.pending := rfl
@[simp] theorem updHed_inst (n : Nat) (f : HedTrace → HedTrace) (s : State) : (updHed n f s).inst = s.inst := rfl
@[simp] theorem updHed_ready (n : Nat) (f : HedTrace → HedTrace) (s : State) : (updHed n f s).ready = s.ready := rfl
@[simp] theorem updHed_booting (n : Nat) (f : HedTrace → HedTrace) (s : State) : (updHed n f s).booting = s.booting := rfl
@[simp] theorem updHed_workHeld (n : Nat) (f : HedTrace → HedTrace) (s : State) : (updHed n f s).workHeld = s.workHeld := rfl
@[simp] theorem updHed_port (n : Nat) (f : HedTrace → HedTrace) (s : State) : (updHed n f s).port = s.port := rfl
@[simp] theorem updHed_regs (n : Nat) (f : HedTrace → HedTrace) (s : State) : (updHed n f s).regs = s.regs := rfl
@[simp] theorem updHed_parts (n : Nat) (f : HedTrace → HedTrace) (s : State) : (updHed n f s).parts = s.parts := rfl
@[simp] theorem updHed_audit (n : Nat) (f : HedTrace → HedTrace) (s : State) : (updHed n f s).audit = s.audit := rfl
@[simp] theorem updHed_tim (n : Nat) (f : HedTrace → HedTrace) (s : State) : (updHed n f s).tim = s.tim := rfl
@[simp] theorem updHed_owed (n : Nat) (f : HedTrace → HedTrace) (s : State) : (updHed n f s).owed = s.owed := rfl
@[simp] theorem updHed_strs (n : Nat) (f : HedTrace → HedTrace) (s : State) : (updHed n f s).strs = s.strs := rfl
@[simp] theorem updHed_closes (n : Nat) (f : HedTrace → HedTrace) (s : State) : (updHed n f s).closes = s.closes := rfl
@[simp] theorem updHed_bobs (n : Nat) (f : HedTrace → HedTrace) (s : State) : (updHed n f s).bobs = s.bobs := rfl
@[simp] theorem updHed_wports (n : Nat) (f : HedTrace → HedTrace) (s : State) : (updHed n f s).wports = s.wports := rfl
@[simp] theorem updHed_rport (n : Nat) (f : HedTrace → HedTrace) (s : State) : (updHed n f s).rport = s.rport := rfl
@[simp] theorem updHed_adopts (n : Nat) (f : HedTrace → HedTrace) (s : State) : (updHed n f s).adopts = s.adopts := rfl
@[simp] theorem updHed_exempt (n : Nat) (f : HedTrace → HedTrace) (s : State) : (updHed n f s).exempt = s.exempt := rfl
@[simp] theorem updHed_refused (n : Nat) (f : HedTrace → HedTrace) (s : State) : (updHed n f s).refused = s.refused := rfl
@[simp] theorem updHed_counts (n : Nat) (f : HedTrace → HedTrace) (s : State) : (updHed n f s).counts = s.counts := rfl
@[simp] theorem updHed_hedGovs (n : Nat) (f : HedTrace → HedTrace) (s : State) : (updHed n f s).hedGovs = s.hedGovs := rfl
@[simp] theorem updHed_reedGovs (n : Nat) (f : HedTrace → HedTrace) (s : State) : (updHed n f s).reedGovs = s.reedGovs := rfl
@[simp] theorem updHed_gov (n : Nat) (f : HedTrace → HedTrace) (s : State) : (updHed n f s).gov = s.gov := rfl
@[simp] theorem updHed_trd (n : Nat) (f : HedTrace → HedTrace) (s : State) : (updHed n f s).trd = s.trd := rfl
@[simp] theorem updHed_stop (n : Nat) (f : HedTrace → HedTrace) (s : State) : (updHed n f s).stop = s.stop := rfl
@[simp] theorem updHed_hedStops (n : Nat) (f : HedTrace → HedTrace) (s : State) : (updHed n f s).hedStops = s.hedStops := rfl
@[simp] theorem updHed_key (n : Nat) (f : HedTrace → HedTrace) (s : State) : (updHed n f s).key = s.key := rfl
@[simp] theorem updHed_wits (n : Nat) (f : HedTrace → HedTrace) (s : State) : (updHed n f s).wits = s.wits := rfl
@[simp] theorem updHed_cards (n : Nat) (f : HedTrace → HedTrace) (s : State) : (updHed n f s).cards = s.cards := rfl
@[simp] theorem updHed_shadows (n : Nat) (f : HedTrace → HedTrace) (s : State) : (updHed n f s).shadows = s.shadows := rfl
@[simp] theorem updHed_lapsed (n : Nat) (f : HedTrace → HedTrace) (s : State) : (updHed n f s).lapsed = s.lapsed := rfl
@[simp] theorem updHed_ver (n : Nat) (f : HedTrace → HedTrace) (s : State) : (updHed n f s).ver = s.ver := rfl
@[simp] theorem updHed_gates (n : Nat) (f : HedTrace → HedTrace) (s : State) : (updHed n f s).gates = s.gates := rfl
@[simp] theorem updHed_tests (n : Nat) (f : HedTrace → HedTrace) (s : State) : (updHed n f s).tests = s.tests := rfl
@[simp] theorem updHed_links (n : Nat) (f : HedTrace → HedTrace) (s : State) : (updHed n f s).links = s.links := rfl
@[simp] theorem updHed_linkTimes (n : Nat) (f : HedTrace → HedTrace) (s : State) : (updHed n f s).linkTimes = s.linkTimes := rfl
@[simp] theorem updHed_servo (n : Nat) (f : HedTrace → HedTrace) (s : State) : (updHed n f s).servo = s.servo := rfl
@[simp] theorem updHed_eth (n : Nat) (f : HedTrace → HedTrace) (s : State) : (updHed n f s).eth = s.eth := rfl
@[simp] theorem updHed_fw (n : Nat) (f : HedTrace → HedTrace) (s : State) : (updHed n f s).fw = s.fw := rfl
@[simp] theorem updHed_cal (n : Nat) (f : HedTrace → HedTrace) (s : State) : (updHed n f s).cal = s.cal := rfl
@[simp] theorem updHed_sens (n : Nat) (f : HedTrace → HedTrace) (s : State) : (updHed n f s).sens = s.sens := rfl
@[simp] theorem updHed_snsOn (n : Nat) (f : HedTrace → HedTrace) (s : State) : (updHed n f s).snsOn = s.snsOn := rfl
@[simp] theorem updHed_free (n : Nat) (f : HedTrace → HedTrace) (s : State) : (updHed n f s).free = s.free := rfl
@[simp] theorem updHed_salts (n : Nat) (f : HedTrace → HedTrace) (s : State) : (updHed n f s).salts = s.salts := rfl

/-! ### updHedC -/

@[simp] theorem updHedC_pending (n : Nat) (f : HedCount → HedCount) (s : State) : (updHedC n f s).pending = s.pending := rfl
@[simp] theorem updHedC_inst (n : Nat) (f : HedCount → HedCount) (s : State) : (updHedC n f s).inst = s.inst := rfl
@[simp] theorem updHedC_ready (n : Nat) (f : HedCount → HedCount) (s : State) : (updHedC n f s).ready = s.ready := rfl
@[simp] theorem updHedC_booting (n : Nat) (f : HedCount → HedCount) (s : State) : (updHedC n f s).booting = s.booting := rfl
@[simp] theorem updHedC_workHeld (n : Nat) (f : HedCount → HedCount) (s : State) : (updHedC n f s).workHeld = s.workHeld := rfl
@[simp] theorem updHedC_port (n : Nat) (f : HedCount → HedCount) (s : State) : (updHedC n f s).port = s.port := rfl
@[simp] theorem updHedC_regs (n : Nat) (f : HedCount → HedCount) (s : State) : (updHedC n f s).regs = s.regs := rfl
@[simp] theorem updHedC_parts (n : Nat) (f : HedCount → HedCount) (s : State) : (updHedC n f s).parts = s.parts := rfl
@[simp] theorem updHedC_audit (n : Nat) (f : HedCount → HedCount) (s : State) : (updHedC n f s).audit = s.audit := rfl
@[simp] theorem updHedC_tim (n : Nat) (f : HedCount → HedCount) (s : State) : (updHedC n f s).tim = s.tim := rfl
@[simp] theorem updHedC_owed (n : Nat) (f : HedCount → HedCount) (s : State) : (updHedC n f s).owed = s.owed := rfl
@[simp] theorem updHedC_strs (n : Nat) (f : HedCount → HedCount) (s : State) : (updHedC n f s).strs = s.strs := rfl
@[simp] theorem updHedC_closes (n : Nat) (f : HedCount → HedCount) (s : State) : (updHedC n f s).closes = s.closes := rfl
@[simp] theorem updHedC_bobs (n : Nat) (f : HedCount → HedCount) (s : State) : (updHedC n f s).bobs = s.bobs := rfl
@[simp] theorem updHedC_wports (n : Nat) (f : HedCount → HedCount) (s : State) : (updHedC n f s).wports = s.wports := rfl
@[simp] theorem updHedC_rport (n : Nat) (f : HedCount → HedCount) (s : State) : (updHedC n f s).rport = s.rport := rfl
@[simp] theorem updHedC_adopts (n : Nat) (f : HedCount → HedCount) (s : State) : (updHedC n f s).adopts = s.adopts := rfl
@[simp] theorem updHedC_exempt (n : Nat) (f : HedCount → HedCount) (s : State) : (updHedC n f s).exempt = s.exempt := rfl
@[simp] theorem updHedC_refused (n : Nat) (f : HedCount → HedCount) (s : State) : (updHedC n f s).refused = s.refused := rfl
@[simp] theorem updHedC_heds (n : Nat) (f : HedCount → HedCount) (s : State) : (updHedC n f s).heds = s.heds := rfl
@[simp] theorem updHedC_hedGovs (n : Nat) (f : HedCount → HedCount) (s : State) : (updHedC n f s).hedGovs = s.hedGovs := rfl
@[simp] theorem updHedC_reedGovs (n : Nat) (f : HedCount → HedCount) (s : State) : (updHedC n f s).reedGovs = s.reedGovs := rfl
@[simp] theorem updHedC_gov (n : Nat) (f : HedCount → HedCount) (s : State) : (updHedC n f s).gov = s.gov := rfl
@[simp] theorem updHedC_trd (n : Nat) (f : HedCount → HedCount) (s : State) : (updHedC n f s).trd = s.trd := rfl
@[simp] theorem updHedC_stop (n : Nat) (f : HedCount → HedCount) (s : State) : (updHedC n f s).stop = s.stop := rfl
@[simp] theorem updHedC_hedStops (n : Nat) (f : HedCount → HedCount) (s : State) : (updHedC n f s).hedStops = s.hedStops := rfl
@[simp] theorem updHedC_key (n : Nat) (f : HedCount → HedCount) (s : State) : (updHedC n f s).key = s.key := rfl
@[simp] theorem updHedC_wits (n : Nat) (f : HedCount → HedCount) (s : State) : (updHedC n f s).wits = s.wits := rfl
@[simp] theorem updHedC_cards (n : Nat) (f : HedCount → HedCount) (s : State) : (updHedC n f s).cards = s.cards := rfl
@[simp] theorem updHedC_shadows (n : Nat) (f : HedCount → HedCount) (s : State) : (updHedC n f s).shadows = s.shadows := rfl
@[simp] theorem updHedC_lapsed (n : Nat) (f : HedCount → HedCount) (s : State) : (updHedC n f s).lapsed = s.lapsed := rfl
@[simp] theorem updHedC_ver (n : Nat) (f : HedCount → HedCount) (s : State) : (updHedC n f s).ver = s.ver := rfl
@[simp] theorem updHedC_gates (n : Nat) (f : HedCount → HedCount) (s : State) : (updHedC n f s).gates = s.gates := rfl
@[simp] theorem updHedC_tests (n : Nat) (f : HedCount → HedCount) (s : State) : (updHedC n f s).tests = s.tests := rfl
@[simp] theorem updHedC_links (n : Nat) (f : HedCount → HedCount) (s : State) : (updHedC n f s).links = s.links := rfl
@[simp] theorem updHedC_linkTimes (n : Nat) (f : HedCount → HedCount) (s : State) : (updHedC n f s).linkTimes = s.linkTimes := rfl
@[simp] theorem updHedC_servo (n : Nat) (f : HedCount → HedCount) (s : State) : (updHedC n f s).servo = s.servo := rfl
@[simp] theorem updHedC_eth (n : Nat) (f : HedCount → HedCount) (s : State) : (updHedC n f s).eth = s.eth := rfl
@[simp] theorem updHedC_fw (n : Nat) (f : HedCount → HedCount) (s : State) : (updHedC n f s).fw = s.fw := rfl
@[simp] theorem updHedC_cal (n : Nat) (f : HedCount → HedCount) (s : State) : (updHedC n f s).cal = s.cal := rfl
@[simp] theorem updHedC_sens (n : Nat) (f : HedCount → HedCount) (s : State) : (updHedC n f s).sens = s.sens := rfl
@[simp] theorem updHedC_snsOn (n : Nat) (f : HedCount → HedCount) (s : State) : (updHedC n f s).snsOn = s.snsOn := rfl
@[simp] theorem updHedC_free (n : Nat) (f : HedCount → HedCount) (s : State) : (updHedC n f s).free = s.free := rfl
@[simp] theorem updHedC_salts (n : Nat) (f : HedCount → HedCount) (s : State) : (updHedC n f s).salts = s.salts := rfl

/-! ### updHedStop -/

@[simp] theorem updHedStop_pending (n : Nat) (f : HedStop → HedStop) (s : State) : (updHedStop n f s).pending = s.pending := rfl
@[simp] theorem updHedStop_inst (n : Nat) (f : HedStop → HedStop) (s : State) : (updHedStop n f s).inst = s.inst := rfl
@[simp] theorem updHedStop_ready (n : Nat) (f : HedStop → HedStop) (s : State) : (updHedStop n f s).ready = s.ready := rfl
@[simp] theorem updHedStop_booting (n : Nat) (f : HedStop → HedStop) (s : State) : (updHedStop n f s).booting = s.booting := rfl
@[simp] theorem updHedStop_workHeld (n : Nat) (f : HedStop → HedStop) (s : State) : (updHedStop n f s).workHeld = s.workHeld := rfl
@[simp] theorem updHedStop_port (n : Nat) (f : HedStop → HedStop) (s : State) : (updHedStop n f s).port = s.port := rfl
@[simp] theorem updHedStop_regs (n : Nat) (f : HedStop → HedStop) (s : State) : (updHedStop n f s).regs = s.regs := rfl
@[simp] theorem updHedStop_parts (n : Nat) (f : HedStop → HedStop) (s : State) : (updHedStop n f s).parts = s.parts := rfl
@[simp] theorem updHedStop_audit (n : Nat) (f : HedStop → HedStop) (s : State) : (updHedStop n f s).audit = s.audit := rfl
@[simp] theorem updHedStop_tim (n : Nat) (f : HedStop → HedStop) (s : State) : (updHedStop n f s).tim = s.tim := rfl
@[simp] theorem updHedStop_owed (n : Nat) (f : HedStop → HedStop) (s : State) : (updHedStop n f s).owed = s.owed := rfl
@[simp] theorem updHedStop_strs (n : Nat) (f : HedStop → HedStop) (s : State) : (updHedStop n f s).strs = s.strs := rfl
@[simp] theorem updHedStop_closes (n : Nat) (f : HedStop → HedStop) (s : State) : (updHedStop n f s).closes = s.closes := rfl
@[simp] theorem updHedStop_bobs (n : Nat) (f : HedStop → HedStop) (s : State) : (updHedStop n f s).bobs = s.bobs := rfl
@[simp] theorem updHedStop_wports (n : Nat) (f : HedStop → HedStop) (s : State) : (updHedStop n f s).wports = s.wports := rfl
@[simp] theorem updHedStop_rport (n : Nat) (f : HedStop → HedStop) (s : State) : (updHedStop n f s).rport = s.rport := rfl
@[simp] theorem updHedStop_adopts (n : Nat) (f : HedStop → HedStop) (s : State) : (updHedStop n f s).adopts = s.adopts := rfl
@[simp] theorem updHedStop_exempt (n : Nat) (f : HedStop → HedStop) (s : State) : (updHedStop n f s).exempt = s.exempt := rfl
@[simp] theorem updHedStop_refused (n : Nat) (f : HedStop → HedStop) (s : State) : (updHedStop n f s).refused = s.refused := rfl
@[simp] theorem updHedStop_heds (n : Nat) (f : HedStop → HedStop) (s : State) : (updHedStop n f s).heds = s.heds := rfl
@[simp] theorem updHedStop_counts (n : Nat) (f : HedStop → HedStop) (s : State) : (updHedStop n f s).counts = s.counts := rfl
@[simp] theorem updHedStop_hedGovs (n : Nat) (f : HedStop → HedStop) (s : State) : (updHedStop n f s).hedGovs = s.hedGovs := rfl
@[simp] theorem updHedStop_reedGovs (n : Nat) (f : HedStop → HedStop) (s : State) : (updHedStop n f s).reedGovs = s.reedGovs := rfl
@[simp] theorem updHedStop_gov (n : Nat) (f : HedStop → HedStop) (s : State) : (updHedStop n f s).gov = s.gov := rfl
@[simp] theorem updHedStop_trd (n : Nat) (f : HedStop → HedStop) (s : State) : (updHedStop n f s).trd = s.trd := rfl
@[simp] theorem updHedStop_stop (n : Nat) (f : HedStop → HedStop) (s : State) : (updHedStop n f s).stop = s.stop := rfl
@[simp] theorem updHedStop_key (n : Nat) (f : HedStop → HedStop) (s : State) : (updHedStop n f s).key = s.key := rfl
@[simp] theorem updHedStop_wits (n : Nat) (f : HedStop → HedStop) (s : State) : (updHedStop n f s).wits = s.wits := rfl
@[simp] theorem updHedStop_cards (n : Nat) (f : HedStop → HedStop) (s : State) : (updHedStop n f s).cards = s.cards := rfl
@[simp] theorem updHedStop_shadows (n : Nat) (f : HedStop → HedStop) (s : State) : (updHedStop n f s).shadows = s.shadows := rfl
@[simp] theorem updHedStop_lapsed (n : Nat) (f : HedStop → HedStop) (s : State) : (updHedStop n f s).lapsed = s.lapsed := rfl
@[simp] theorem updHedStop_ver (n : Nat) (f : HedStop → HedStop) (s : State) : (updHedStop n f s).ver = s.ver := rfl
@[simp] theorem updHedStop_gates (n : Nat) (f : HedStop → HedStop) (s : State) : (updHedStop n f s).gates = s.gates := rfl
@[simp] theorem updHedStop_tests (n : Nat) (f : HedStop → HedStop) (s : State) : (updHedStop n f s).tests = s.tests := rfl
@[simp] theorem updHedStop_links (n : Nat) (f : HedStop → HedStop) (s : State) : (updHedStop n f s).links = s.links := rfl
@[simp] theorem updHedStop_linkTimes (n : Nat) (f : HedStop → HedStop) (s : State) : (updHedStop n f s).linkTimes = s.linkTimes := rfl
@[simp] theorem updHedStop_servo (n : Nat) (f : HedStop → HedStop) (s : State) : (updHedStop n f s).servo = s.servo := rfl
@[simp] theorem updHedStop_eth (n : Nat) (f : HedStop → HedStop) (s : State) : (updHedStop n f s).eth = s.eth := rfl
@[simp] theorem updHedStop_fw (n : Nat) (f : HedStop → HedStop) (s : State) : (updHedStop n f s).fw = s.fw := rfl
@[simp] theorem updHedStop_cal (n : Nat) (f : HedStop → HedStop) (s : State) : (updHedStop n f s).cal = s.cal := rfl
@[simp] theorem updHedStop_sens (n : Nat) (f : HedStop → HedStop) (s : State) : (updHedStop n f s).sens = s.sens := rfl
@[simp] theorem updHedStop_snsOn (n : Nat) (f : HedStop → HedStop) (s : State) : (updHedStop n f s).snsOn = s.snsOn := rfl
@[simp] theorem updHedStop_free (n : Nat) (f : HedStop → HedStop) (s : State) : (updHedStop n f s).free = s.free := rfl
@[simp] theorem updHedStop_salts (n : Nat) (f : HedStop → HedStop) (s : State) : (updHedStop n f s).salts = s.salts := rfl

/-! ### updLink -/

@[simp] theorem updLink_pending (n : Nat) (f : Link → Link) (s : State) : (updLink n f s).pending = s.pending := rfl
@[simp] theorem updLink_inst (n : Nat) (f : Link → Link) (s : State) : (updLink n f s).inst = s.inst := rfl
@[simp] theorem updLink_ready (n : Nat) (f : Link → Link) (s : State) : (updLink n f s).ready = s.ready := rfl
@[simp] theorem updLink_booting (n : Nat) (f : Link → Link) (s : State) : (updLink n f s).booting = s.booting := rfl
@[simp] theorem updLink_workHeld (n : Nat) (f : Link → Link) (s : State) : (updLink n f s).workHeld = s.workHeld := rfl
@[simp] theorem updLink_port (n : Nat) (f : Link → Link) (s : State) : (updLink n f s).port = s.port := rfl
@[simp] theorem updLink_regs (n : Nat) (f : Link → Link) (s : State) : (updLink n f s).regs = s.regs := rfl
@[simp] theorem updLink_parts (n : Nat) (f : Link → Link) (s : State) : (updLink n f s).parts = s.parts := rfl
@[simp] theorem updLink_audit (n : Nat) (f : Link → Link) (s : State) : (updLink n f s).audit = s.audit := rfl
@[simp] theorem updLink_tim (n : Nat) (f : Link → Link) (s : State) : (updLink n f s).tim = s.tim := rfl
@[simp] theorem updLink_owed (n : Nat) (f : Link → Link) (s : State) : (updLink n f s).owed = s.owed := rfl
@[simp] theorem updLink_strs (n : Nat) (f : Link → Link) (s : State) : (updLink n f s).strs = s.strs := rfl
@[simp] theorem updLink_closes (n : Nat) (f : Link → Link) (s : State) : (updLink n f s).closes = s.closes := rfl
@[simp] theorem updLink_bobs (n : Nat) (f : Link → Link) (s : State) : (updLink n f s).bobs = s.bobs := rfl
@[simp] theorem updLink_wports (n : Nat) (f : Link → Link) (s : State) : (updLink n f s).wports = s.wports := rfl
@[simp] theorem updLink_rport (n : Nat) (f : Link → Link) (s : State) : (updLink n f s).rport = s.rport := rfl
@[simp] theorem updLink_adopts (n : Nat) (f : Link → Link) (s : State) : (updLink n f s).adopts = s.adopts := rfl
@[simp] theorem updLink_exempt (n : Nat) (f : Link → Link) (s : State) : (updLink n f s).exempt = s.exempt := rfl
@[simp] theorem updLink_refused (n : Nat) (f : Link → Link) (s : State) : (updLink n f s).refused = s.refused := rfl
@[simp] theorem updLink_heds (n : Nat) (f : Link → Link) (s : State) : (updLink n f s).heds = s.heds := rfl
@[simp] theorem updLink_counts (n : Nat) (f : Link → Link) (s : State) : (updLink n f s).counts = s.counts := rfl
@[simp] theorem updLink_hedGovs (n : Nat) (f : Link → Link) (s : State) : (updLink n f s).hedGovs = s.hedGovs := rfl
@[simp] theorem updLink_reedGovs (n : Nat) (f : Link → Link) (s : State) : (updLink n f s).reedGovs = s.reedGovs := rfl
@[simp] theorem updLink_gov (n : Nat) (f : Link → Link) (s : State) : (updLink n f s).gov = s.gov := rfl
@[simp] theorem updLink_trd (n : Nat) (f : Link → Link) (s : State) : (updLink n f s).trd = s.trd := rfl
@[simp] theorem updLink_stop (n : Nat) (f : Link → Link) (s : State) : (updLink n f s).stop = s.stop := rfl
@[simp] theorem updLink_hedStops (n : Nat) (f : Link → Link) (s : State) : (updLink n f s).hedStops = s.hedStops := rfl
@[simp] theorem updLink_key (n : Nat) (f : Link → Link) (s : State) : (updLink n f s).key = s.key := rfl
@[simp] theorem updLink_wits (n : Nat) (f : Link → Link) (s : State) : (updLink n f s).wits = s.wits := rfl
@[simp] theorem updLink_cards (n : Nat) (f : Link → Link) (s : State) : (updLink n f s).cards = s.cards := rfl
@[simp] theorem updLink_shadows (n : Nat) (f : Link → Link) (s : State) : (updLink n f s).shadows = s.shadows := rfl
@[simp] theorem updLink_lapsed (n : Nat) (f : Link → Link) (s : State) : (updLink n f s).lapsed = s.lapsed := rfl
@[simp] theorem updLink_ver (n : Nat) (f : Link → Link) (s : State) : (updLink n f s).ver = s.ver := rfl
@[simp] theorem updLink_gates (n : Nat) (f : Link → Link) (s : State) : (updLink n f s).gates = s.gates := rfl
@[simp] theorem updLink_tests (n : Nat) (f : Link → Link) (s : State) : (updLink n f s).tests = s.tests := rfl
@[simp] theorem updLink_linkTimes (n : Nat) (f : Link → Link) (s : State) : (updLink n f s).linkTimes = s.linkTimes := rfl
@[simp] theorem updLink_servo (n : Nat) (f : Link → Link) (s : State) : (updLink n f s).servo = s.servo := rfl
@[simp] theorem updLink_eth (n : Nat) (f : Link → Link) (s : State) : (updLink n f s).eth = s.eth := rfl
@[simp] theorem updLink_fw (n : Nat) (f : Link → Link) (s : State) : (updLink n f s).fw = s.fw := rfl
@[simp] theorem updLink_cal (n : Nat) (f : Link → Link) (s : State) : (updLink n f s).cal = s.cal := rfl
@[simp] theorem updLink_sens (n : Nat) (f : Link → Link) (s : State) : (updLink n f s).sens = s.sens := rfl
@[simp] theorem updLink_snsOn (n : Nat) (f : Link → Link) (s : State) : (updLink n f s).snsOn = s.snsOn := rfl
@[simp] theorem updLink_free (n : Nat) (f : Link → Link) (s : State) : (updLink n f s).free = s.free := rfl
@[simp] theorem updLink_salts (n : Nat) (f : Link → Link) (s : State) : (updLink n f s).salts = s.salts := rfl

/-! ### updWit -/

@[simp] theorem updWit_pending (n : Nat) (f : WitReed → WitReed) (s : State) : (updWit n f s).pending = s.pending := rfl
@[simp] theorem updWit_inst (n : Nat) (f : WitReed → WitReed) (s : State) : (updWit n f s).inst = s.inst := rfl
@[simp] theorem updWit_ready (n : Nat) (f : WitReed → WitReed) (s : State) : (updWit n f s).ready = s.ready := rfl
@[simp] theorem updWit_booting (n : Nat) (f : WitReed → WitReed) (s : State) : (updWit n f s).booting = s.booting := rfl
@[simp] theorem updWit_workHeld (n : Nat) (f : WitReed → WitReed) (s : State) : (updWit n f s).workHeld = s.workHeld := rfl
@[simp] theorem updWit_port (n : Nat) (f : WitReed → WitReed) (s : State) : (updWit n f s).port = s.port := rfl
@[simp] theorem updWit_regs (n : Nat) (f : WitReed → WitReed) (s : State) : (updWit n f s).regs = s.regs := rfl
@[simp] theorem updWit_parts (n : Nat) (f : WitReed → WitReed) (s : State) : (updWit n f s).parts = s.parts := rfl
@[simp] theorem updWit_audit (n : Nat) (f : WitReed → WitReed) (s : State) : (updWit n f s).audit = s.audit := rfl
@[simp] theorem updWit_tim (n : Nat) (f : WitReed → WitReed) (s : State) : (updWit n f s).tim = s.tim := rfl
@[simp] theorem updWit_owed (n : Nat) (f : WitReed → WitReed) (s : State) : (updWit n f s).owed = s.owed := rfl
@[simp] theorem updWit_strs (n : Nat) (f : WitReed → WitReed) (s : State) : (updWit n f s).strs = s.strs := rfl
@[simp] theorem updWit_closes (n : Nat) (f : WitReed → WitReed) (s : State) : (updWit n f s).closes = s.closes := rfl
@[simp] theorem updWit_bobs (n : Nat) (f : WitReed → WitReed) (s : State) : (updWit n f s).bobs = s.bobs := rfl
@[simp] theorem updWit_wports (n : Nat) (f : WitReed → WitReed) (s : State) : (updWit n f s).wports = s.wports := rfl
@[simp] theorem updWit_rport (n : Nat) (f : WitReed → WitReed) (s : State) : (updWit n f s).rport = s.rport := rfl
@[simp] theorem updWit_adopts (n : Nat) (f : WitReed → WitReed) (s : State) : (updWit n f s).adopts = s.adopts := rfl
@[simp] theorem updWit_exempt (n : Nat) (f : WitReed → WitReed) (s : State) : (updWit n f s).exempt = s.exempt := rfl
@[simp] theorem updWit_refused (n : Nat) (f : WitReed → WitReed) (s : State) : (updWit n f s).refused = s.refused := rfl
@[simp] theorem updWit_heds (n : Nat) (f : WitReed → WitReed) (s : State) : (updWit n f s).heds = s.heds := rfl
@[simp] theorem updWit_counts (n : Nat) (f : WitReed → WitReed) (s : State) : (updWit n f s).counts = s.counts := rfl
@[simp] theorem updWit_hedGovs (n : Nat) (f : WitReed → WitReed) (s : State) : (updWit n f s).hedGovs = s.hedGovs := rfl
@[simp] theorem updWit_reedGovs (n : Nat) (f : WitReed → WitReed) (s : State) : (updWit n f s).reedGovs = s.reedGovs := rfl
@[simp] theorem updWit_gov (n : Nat) (f : WitReed → WitReed) (s : State) : (updWit n f s).gov = s.gov := rfl
@[simp] theorem updWit_trd (n : Nat) (f : WitReed → WitReed) (s : State) : (updWit n f s).trd = s.trd := rfl
@[simp] theorem updWit_stop (n : Nat) (f : WitReed → WitReed) (s : State) : (updWit n f s).stop = s.stop := rfl
@[simp] theorem updWit_hedStops (n : Nat) (f : WitReed → WitReed) (s : State) : (updWit n f s).hedStops = s.hedStops := rfl
@[simp] theorem updWit_key (n : Nat) (f : WitReed → WitReed) (s : State) : (updWit n f s).key = s.key := rfl
@[simp] theorem updWit_cards (n : Nat) (f : WitReed → WitReed) (s : State) : (updWit n f s).cards = s.cards := rfl
@[simp] theorem updWit_shadows (n : Nat) (f : WitReed → WitReed) (s : State) : (updWit n f s).shadows = s.shadows := rfl
@[simp] theorem updWit_lapsed (n : Nat) (f : WitReed → WitReed) (s : State) : (updWit n f s).lapsed = s.lapsed := rfl
@[simp] theorem updWit_ver (n : Nat) (f : WitReed → WitReed) (s : State) : (updWit n f s).ver = s.ver := rfl
@[simp] theorem updWit_gates (n : Nat) (f : WitReed → WitReed) (s : State) : (updWit n f s).gates = s.gates := rfl
@[simp] theorem updWit_tests (n : Nat) (f : WitReed → WitReed) (s : State) : (updWit n f s).tests = s.tests := rfl
@[simp] theorem updWit_links (n : Nat) (f : WitReed → WitReed) (s : State) : (updWit n f s).links = s.links := rfl
@[simp] theorem updWit_linkTimes (n : Nat) (f : WitReed → WitReed) (s : State) : (updWit n f s).linkTimes = s.linkTimes := rfl
@[simp] theorem updWit_servo (n : Nat) (f : WitReed → WitReed) (s : State) : (updWit n f s).servo = s.servo := rfl
@[simp] theorem updWit_eth (n : Nat) (f : WitReed → WitReed) (s : State) : (updWit n f s).eth = s.eth := rfl
@[simp] theorem updWit_fw (n : Nat) (f : WitReed → WitReed) (s : State) : (updWit n f s).fw = s.fw := rfl
@[simp] theorem updWit_cal (n : Nat) (f : WitReed → WitReed) (s : State) : (updWit n f s).cal = s.cal := rfl
@[simp] theorem updWit_sens (n : Nat) (f : WitReed → WitReed) (s : State) : (updWit n f s).sens = s.sens := rfl
@[simp] theorem updWit_snsOn (n : Nat) (f : WitReed → WitReed) (s : State) : (updWit n f s).snsOn = s.snsOn := rfl
@[simp] theorem updWit_free (n : Nat) (f : WitReed → WitReed) (s : State) : (updWit n f s).free = s.free := rfl
@[simp] theorem updWit_salts (n : Nat) (f : WitReed → WitReed) (s : State) : (updWit n f s).salts = s.salts := rfl

/-! ### updOwn -/

@[simp] theorem updOwn_pending (f : Own → Own) (s : State) : (updOwn f s).pending = s.pending := rfl
@[simp] theorem updOwn_inst (f : Own → Own) (s : State) : (updOwn f s).inst = s.inst := rfl
@[simp] theorem updOwn_ready (f : Own → Own) (s : State) : (updOwn f s).ready = s.ready := rfl
@[simp] theorem updOwn_booting (f : Own → Own) (s : State) : (updOwn f s).booting = s.booting := rfl
@[simp] theorem updOwn_workHeld (f : Own → Own) (s : State) : (updOwn f s).workHeld = s.workHeld := rfl
@[simp] theorem updOwn_port (f : Own → Own) (s : State) : (updOwn f s).port = s.port := rfl
@[simp] theorem updOwn_regs (f : Own → Own) (s : State) : (updOwn f s).regs = s.regs := rfl
@[simp] theorem updOwn_parts (f : Own → Own) (s : State) : (updOwn f s).parts = s.parts := rfl
@[simp] theorem updOwn_audit (f : Own → Own) (s : State) : (updOwn f s).audit = s.audit := rfl
@[simp] theorem updOwn_tim (f : Own → Own) (s : State) : (updOwn f s).tim = s.tim := rfl
@[simp] theorem updOwn_owed (f : Own → Own) (s : State) : (updOwn f s).owed = s.owed := rfl
@[simp] theorem updOwn_strs (f : Own → Own) (s : State) : (updOwn f s).strs = s.strs := rfl
@[simp] theorem updOwn_closes (f : Own → Own) (s : State) : (updOwn f s).closes = s.closes := rfl
@[simp] theorem updOwn_bobs (f : Own → Own) (s : State) : (updOwn f s).bobs = s.bobs := rfl
@[simp] theorem updOwn_wports (f : Own → Own) (s : State) : (updOwn f s).wports = s.wports := rfl
@[simp] theorem updOwn_rport (f : Own → Own) (s : State) : (updOwn f s).rport = s.rport := rfl
@[simp] theorem updOwn_adopts (f : Own → Own) (s : State) : (updOwn f s).adopts = s.adopts := rfl
@[simp] theorem updOwn_exempt (f : Own → Own) (s : State) : (updOwn f s).exempt = s.exempt := rfl
@[simp] theorem updOwn_refused (f : Own → Own) (s : State) : (updOwn f s).refused = s.refused := rfl
@[simp] theorem updOwn_heds (f : Own → Own) (s : State) : (updOwn f s).heds = s.heds := rfl
@[simp] theorem updOwn_counts (f : Own → Own) (s : State) : (updOwn f s).counts = s.counts := rfl
@[simp] theorem updOwn_hedGovs (f : Own → Own) (s : State) : (updOwn f s).hedGovs = s.hedGovs := rfl
@[simp] theorem updOwn_reedGovs (f : Own → Own) (s : State) : (updOwn f s).reedGovs = s.reedGovs := rfl
@[simp] theorem updOwn_gov (f : Own → Own) (s : State) : (updOwn f s).gov = s.gov := rfl
@[simp] theorem updOwn_trd (f : Own → Own) (s : State) : (updOwn f s).trd = s.trd := rfl
@[simp] theorem updOwn_stop (f : Own → Own) (s : State) : (updOwn f s).stop = s.stop := rfl
@[simp] theorem updOwn_hedStops (f : Own → Own) (s : State) : (updOwn f s).hedStops = s.hedStops := rfl
@[simp] theorem updOwn_key (f : Own → Own) (s : State) : (updOwn f s).key = s.key := rfl
@[simp] theorem updOwn_wits (f : Own → Own) (s : State) : (updOwn f s).wits = s.wits := rfl
@[simp] theorem updOwn_cards (f : Own → Own) (s : State) : (updOwn f s).cards = s.cards := rfl
@[simp] theorem updOwn_shadows (f : Own → Own) (s : State) : (updOwn f s).shadows = s.shadows := rfl
@[simp] theorem updOwn_lapsed (f : Own → Own) (s : State) : (updOwn f s).lapsed = s.lapsed := rfl
@[simp] theorem updOwn_gates (f : Own → Own) (s : State) : (updOwn f s).gates = s.gates := rfl
@[simp] theorem updOwn_tests (f : Own → Own) (s : State) : (updOwn f s).tests = s.tests := rfl
@[simp] theorem updOwn_links (f : Own → Own) (s : State) : (updOwn f s).links = s.links := rfl
@[simp] theorem updOwn_linkTimes (f : Own → Own) (s : State) : (updOwn f s).linkTimes = s.linkTimes := rfl
@[simp] theorem updOwn_servo (f : Own → Own) (s : State) : (updOwn f s).servo = s.servo := rfl
@[simp] theorem updOwn_eth (f : Own → Own) (s : State) : (updOwn f s).eth = s.eth := rfl
@[simp] theorem updOwn_fw (f : Own → Own) (s : State) : (updOwn f s).fw = s.fw := rfl
@[simp] theorem updOwn_cal (f : Own → Own) (s : State) : (updOwn f s).cal = s.cal := rfl
@[simp] theorem updOwn_sens (f : Own → Own) (s : State) : (updOwn f s).sens = s.sens := rfl
@[simp] theorem updOwn_snsOn (f : Own → Own) (s : State) : (updOwn f s).snsOn = s.snsOn := rfl
@[simp] theorem updOwn_free (f : Own → Own) (s : State) : (updOwn f s).free = s.free := rfl
@[simp] theorem updOwn_salts (f : Own → Own) (s : State) : (updOwn f s).salts = s.salts := rfl

/-! ### updVer -/

@[simp] theorem updVer_pending (f : Verdicts → Verdicts) (s : State) : (updVer f s).pending = s.pending := rfl
@[simp] theorem updVer_inst (f : Verdicts → Verdicts) (s : State) : (updVer f s).inst = s.inst := rfl
@[simp] theorem updVer_ready (f : Verdicts → Verdicts) (s : State) : (updVer f s).ready = s.ready := rfl
@[simp] theorem updVer_booting (f : Verdicts → Verdicts) (s : State) : (updVer f s).booting = s.booting := rfl
@[simp] theorem updVer_workHeld (f : Verdicts → Verdicts) (s : State) : (updVer f s).workHeld = s.workHeld := rfl
@[simp] theorem updVer_port (f : Verdicts → Verdicts) (s : State) : (updVer f s).port = s.port := rfl
@[simp] theorem updVer_regs (f : Verdicts → Verdicts) (s : State) : (updVer f s).regs = s.regs := rfl
@[simp] theorem updVer_parts (f : Verdicts → Verdicts) (s : State) : (updVer f s).parts = s.parts := rfl
@[simp] theorem updVer_audit (f : Verdicts → Verdicts) (s : State) : (updVer f s).audit = s.audit := rfl
@[simp] theorem updVer_tim (f : Verdicts → Verdicts) (s : State) : (updVer f s).tim = s.tim := rfl
@[simp] theorem updVer_owed (f : Verdicts → Verdicts) (s : State) : (updVer f s).owed = s.owed := rfl
@[simp] theorem updVer_strs (f : Verdicts → Verdicts) (s : State) : (updVer f s).strs = s.strs := rfl
@[simp] theorem updVer_closes (f : Verdicts → Verdicts) (s : State) : (updVer f s).closes = s.closes := rfl
@[simp] theorem updVer_bobs (f : Verdicts → Verdicts) (s : State) : (updVer f s).bobs = s.bobs := rfl
@[simp] theorem updVer_wports (f : Verdicts → Verdicts) (s : State) : (updVer f s).wports = s.wports := rfl
@[simp] theorem updVer_rport (f : Verdicts → Verdicts) (s : State) : (updVer f s).rport = s.rport := rfl
@[simp] theorem updVer_adopts (f : Verdicts → Verdicts) (s : State) : (updVer f s).adopts = s.adopts := rfl
@[simp] theorem updVer_exempt (f : Verdicts → Verdicts) (s : State) : (updVer f s).exempt = s.exempt := rfl
@[simp] theorem updVer_refused (f : Verdicts → Verdicts) (s : State) : (updVer f s).refused = s.refused := rfl
@[simp] theorem updVer_heds (f : Verdicts → Verdicts) (s : State) : (updVer f s).heds = s.heds := rfl
@[simp] theorem updVer_counts (f : Verdicts → Verdicts) (s : State) : (updVer f s).counts = s.counts := rfl
@[simp] theorem updVer_hedGovs (f : Verdicts → Verdicts) (s : State) : (updVer f s).hedGovs = s.hedGovs := rfl
@[simp] theorem updVer_reedGovs (f : Verdicts → Verdicts) (s : State) : (updVer f s).reedGovs = s.reedGovs := rfl
@[simp] theorem updVer_gov (f : Verdicts → Verdicts) (s : State) : (updVer f s).gov = s.gov := rfl
@[simp] theorem updVer_trd (f : Verdicts → Verdicts) (s : State) : (updVer f s).trd = s.trd := rfl
@[simp] theorem updVer_stop (f : Verdicts → Verdicts) (s : State) : (updVer f s).stop = s.stop := rfl
@[simp] theorem updVer_hedStops (f : Verdicts → Verdicts) (s : State) : (updVer f s).hedStops = s.hedStops := rfl
@[simp] theorem updVer_key (f : Verdicts → Verdicts) (s : State) : (updVer f s).key = s.key := rfl
@[simp] theorem updVer_wits (f : Verdicts → Verdicts) (s : State) : (updVer f s).wits = s.wits := rfl
@[simp] theorem updVer_cards (f : Verdicts → Verdicts) (s : State) : (updVer f s).cards = s.cards := rfl
@[simp] theorem updVer_shadows (f : Verdicts → Verdicts) (s : State) : (updVer f s).shadows = s.shadows := rfl
@[simp] theorem updVer_lapsed (f : Verdicts → Verdicts) (s : State) : (updVer f s).lapsed = s.lapsed := rfl
@[simp] theorem updVer_gates (f : Verdicts → Verdicts) (s : State) : (updVer f s).gates = s.gates := rfl
@[simp] theorem updVer_tests (f : Verdicts → Verdicts) (s : State) : (updVer f s).tests = s.tests := rfl
@[simp] theorem updVer_links (f : Verdicts → Verdicts) (s : State) : (updVer f s).links = s.links := rfl
@[simp] theorem updVer_linkTimes (f : Verdicts → Verdicts) (s : State) : (updVer f s).linkTimes = s.linkTimes := rfl
@[simp] theorem updVer_servo (f : Verdicts → Verdicts) (s : State) : (updVer f s).servo = s.servo := rfl
@[simp] theorem updVer_eth (f : Verdicts → Verdicts) (s : State) : (updVer f s).eth = s.eth := rfl
@[simp] theorem updVer_fw (f : Verdicts → Verdicts) (s : State) : (updVer f s).fw = s.fw := rfl
@[simp] theorem updVer_cal (f : Verdicts → Verdicts) (s : State) : (updVer f s).cal = s.cal := rfl
@[simp] theorem updVer_sens (f : Verdicts → Verdicts) (s : State) : (updVer f s).sens = s.sens := rfl
@[simp] theorem updVer_snsOn (f : Verdicts → Verdicts) (s : State) : (updVer f s).snsOn = s.snsOn := rfl
@[simp] theorem updVer_free (f : Verdicts → Verdicts) (s : State) : (updVer f s).free = s.free := rfl
@[simp] theorem updVer_salts (f : Verdicts → Verdicts) (s : State) : (updVer f s).salts = s.salts := rfl

/-! ### updGate -/

@[simp] theorem updGate_pending (n : Nat) (f : HedGate → HedGate) (s : State) : (updGate n f s).pending = s.pending := rfl
@[simp] theorem updGate_inst (n : Nat) (f : HedGate → HedGate) (s : State) : (updGate n f s).inst = s.inst := rfl
@[simp] theorem updGate_ready (n : Nat) (f : HedGate → HedGate) (s : State) : (updGate n f s).ready = s.ready := rfl
@[simp] theorem updGate_booting (n : Nat) (f : HedGate → HedGate) (s : State) : (updGate n f s).booting = s.booting := rfl
@[simp] theorem updGate_workHeld (n : Nat) (f : HedGate → HedGate) (s : State) : (updGate n f s).workHeld = s.workHeld := rfl
@[simp] theorem updGate_port (n : Nat) (f : HedGate → HedGate) (s : State) : (updGate n f s).port = s.port := rfl
@[simp] theorem updGate_regs (n : Nat) (f : HedGate → HedGate) (s : State) : (updGate n f s).regs = s.regs := rfl
@[simp] theorem updGate_parts (n : Nat) (f : HedGate → HedGate) (s : State) : (updGate n f s).parts = s.parts := rfl
@[simp] theorem updGate_audit (n : Nat) (f : HedGate → HedGate) (s : State) : (updGate n f s).audit = s.audit := rfl
@[simp] theorem updGate_tim (n : Nat) (f : HedGate → HedGate) (s : State) : (updGate n f s).tim = s.tim := rfl
@[simp] theorem updGate_owed (n : Nat) (f : HedGate → HedGate) (s : State) : (updGate n f s).owed = s.owed := rfl
@[simp] theorem updGate_strs (n : Nat) (f : HedGate → HedGate) (s : State) : (updGate n f s).strs = s.strs := rfl
@[simp] theorem updGate_closes (n : Nat) (f : HedGate → HedGate) (s : State) : (updGate n f s).closes = s.closes := rfl
@[simp] theorem updGate_bobs (n : Nat) (f : HedGate → HedGate) (s : State) : (updGate n f s).bobs = s.bobs := rfl
@[simp] theorem updGate_wports (n : Nat) (f : HedGate → HedGate) (s : State) : (updGate n f s).wports = s.wports := rfl
@[simp] theorem updGate_rport (n : Nat) (f : HedGate → HedGate) (s : State) : (updGate n f s).rport = s.rport := rfl
@[simp] theorem updGate_adopts (n : Nat) (f : HedGate → HedGate) (s : State) : (updGate n f s).adopts = s.adopts := rfl
@[simp] theorem updGate_exempt (n : Nat) (f : HedGate → HedGate) (s : State) : (updGate n f s).exempt = s.exempt := rfl
@[simp] theorem updGate_refused (n : Nat) (f : HedGate → HedGate) (s : State) : (updGate n f s).refused = s.refused := rfl
@[simp] theorem updGate_heds (n : Nat) (f : HedGate → HedGate) (s : State) : (updGate n f s).heds = s.heds := rfl
@[simp] theorem updGate_counts (n : Nat) (f : HedGate → HedGate) (s : State) : (updGate n f s).counts = s.counts := rfl
@[simp] theorem updGate_hedGovs (n : Nat) (f : HedGate → HedGate) (s : State) : (updGate n f s).hedGovs = s.hedGovs := rfl
@[simp] theorem updGate_reedGovs (n : Nat) (f : HedGate → HedGate) (s : State) : (updGate n f s).reedGovs = s.reedGovs := rfl
@[simp] theorem updGate_gov (n : Nat) (f : HedGate → HedGate) (s : State) : (updGate n f s).gov = s.gov := rfl
@[simp] theorem updGate_trd (n : Nat) (f : HedGate → HedGate) (s : State) : (updGate n f s).trd = s.trd := rfl
@[simp] theorem updGate_stop (n : Nat) (f : HedGate → HedGate) (s : State) : (updGate n f s).stop = s.stop := rfl
@[simp] theorem updGate_hedStops (n : Nat) (f : HedGate → HedGate) (s : State) : (updGate n f s).hedStops = s.hedStops := rfl
@[simp] theorem updGate_key (n : Nat) (f : HedGate → HedGate) (s : State) : (updGate n f s).key = s.key := rfl
@[simp] theorem updGate_wits (n : Nat) (f : HedGate → HedGate) (s : State) : (updGate n f s).wits = s.wits := rfl
@[simp] theorem updGate_cards (n : Nat) (f : HedGate → HedGate) (s : State) : (updGate n f s).cards = s.cards := rfl
@[simp] theorem updGate_shadows (n : Nat) (f : HedGate → HedGate) (s : State) : (updGate n f s).shadows = s.shadows := rfl
@[simp] theorem updGate_lapsed (n : Nat) (f : HedGate → HedGate) (s : State) : (updGate n f s).lapsed = s.lapsed := rfl
@[simp] theorem updGate_ver (n : Nat) (f : HedGate → HedGate) (s : State) : (updGate n f s).ver = s.ver := rfl
@[simp] theorem updGate_tests (n : Nat) (f : HedGate → HedGate) (s : State) : (updGate n f s).tests = s.tests := rfl
@[simp] theorem updGate_links (n : Nat) (f : HedGate → HedGate) (s : State) : (updGate n f s).links = s.links := rfl
@[simp] theorem updGate_linkTimes (n : Nat) (f : HedGate → HedGate) (s : State) : (updGate n f s).linkTimes = s.linkTimes := rfl
@[simp] theorem updGate_servo (n : Nat) (f : HedGate → HedGate) (s : State) : (updGate n f s).servo = s.servo := rfl
@[simp] theorem updGate_eth (n : Nat) (f : HedGate → HedGate) (s : State) : (updGate n f s).eth = s.eth := rfl
@[simp] theorem updGate_fw (n : Nat) (f : HedGate → HedGate) (s : State) : (updGate n f s).fw = s.fw := rfl
@[simp] theorem updGate_cal (n : Nat) (f : HedGate → HedGate) (s : State) : (updGate n f s).cal = s.cal := rfl
@[simp] theorem updGate_sens (n : Nat) (f : HedGate → HedGate) (s : State) : (updGate n f s).sens = s.sens := rfl
@[simp] theorem updGate_snsOn (n : Nat) (f : HedGate → HedGate) (s : State) : (updGate n f s).snsOn = s.snsOn := rfl
@[simp] theorem updGate_free (n : Nat) (f : HedGate → HedGate) (s : State) : (updGate n f s).free = s.free := rfl
@[simp] theorem updGate_salts (n : Nat) (f : HedGate → HedGate) (s : State) : (updGate n f s).salts = s.salts := rfl

/-! ### updTests -/

@[simp] theorem updTests_pending (f : Tests → Tests) (s : State) : (updTests f s).pending = s.pending := rfl
@[simp] theorem updTests_inst (f : Tests → Tests) (s : State) : (updTests f s).inst = s.inst := rfl
@[simp] theorem updTests_ready (f : Tests → Tests) (s : State) : (updTests f s).ready = s.ready := rfl
@[simp] theorem updTests_booting (f : Tests → Tests) (s : State) : (updTests f s).booting = s.booting := rfl
@[simp] theorem updTests_workHeld (f : Tests → Tests) (s : State) : (updTests f s).workHeld = s.workHeld := rfl
@[simp] theorem updTests_port (f : Tests → Tests) (s : State) : (updTests f s).port = s.port := rfl
@[simp] theorem updTests_regs (f : Tests → Tests) (s : State) : (updTests f s).regs = s.regs := rfl
@[simp] theorem updTests_parts (f : Tests → Tests) (s : State) : (updTests f s).parts = s.parts := rfl
@[simp] theorem updTests_audit (f : Tests → Tests) (s : State) : (updTests f s).audit = s.audit := rfl
@[simp] theorem updTests_tim (f : Tests → Tests) (s : State) : (updTests f s).tim = s.tim := rfl
@[simp] theorem updTests_owed (f : Tests → Tests) (s : State) : (updTests f s).owed = s.owed := rfl
@[simp] theorem updTests_strs (f : Tests → Tests) (s : State) : (updTests f s).strs = s.strs := rfl
@[simp] theorem updTests_closes (f : Tests → Tests) (s : State) : (updTests f s).closes = s.closes := rfl
@[simp] theorem updTests_bobs (f : Tests → Tests) (s : State) : (updTests f s).bobs = s.bobs := rfl
@[simp] theorem updTests_wports (f : Tests → Tests) (s : State) : (updTests f s).wports = s.wports := rfl
@[simp] theorem updTests_rport (f : Tests → Tests) (s : State) : (updTests f s).rport = s.rport := rfl
@[simp] theorem updTests_adopts (f : Tests → Tests) (s : State) : (updTests f s).adopts = s.adopts := rfl
@[simp] theorem updTests_exempt (f : Tests → Tests) (s : State) : (updTests f s).exempt = s.exempt := rfl
@[simp] theorem updTests_refused (f : Tests → Tests) (s : State) : (updTests f s).refused = s.refused := rfl
@[simp] theorem updTests_heds (f : Tests → Tests) (s : State) : (updTests f s).heds = s.heds := rfl
@[simp] theorem updTests_counts (f : Tests → Tests) (s : State) : (updTests f s).counts = s.counts := rfl
@[simp] theorem updTests_hedGovs (f : Tests → Tests) (s : State) : (updTests f s).hedGovs = s.hedGovs := rfl
@[simp] theorem updTests_reedGovs (f : Tests → Tests) (s : State) : (updTests f s).reedGovs = s.reedGovs := rfl
@[simp] theorem updTests_gov (f : Tests → Tests) (s : State) : (updTests f s).gov = s.gov := rfl
@[simp] theorem updTests_trd (f : Tests → Tests) (s : State) : (updTests f s).trd = s.trd := rfl
@[simp] theorem updTests_stop (f : Tests → Tests) (s : State) : (updTests f s).stop = s.stop := rfl
@[simp] theorem updTests_hedStops (f : Tests → Tests) (s : State) : (updTests f s).hedStops = s.hedStops := rfl
@[simp] theorem updTests_key (f : Tests → Tests) (s : State) : (updTests f s).key = s.key := rfl
@[simp] theorem updTests_wits (f : Tests → Tests) (s : State) : (updTests f s).wits = s.wits := rfl
@[simp] theorem updTests_cards (f : Tests → Tests) (s : State) : (updTests f s).cards = s.cards := rfl
@[simp] theorem updTests_shadows (f : Tests → Tests) (s : State) : (updTests f s).shadows = s.shadows := rfl
@[simp] theorem updTests_lapsed (f : Tests → Tests) (s : State) : (updTests f s).lapsed = s.lapsed := rfl
@[simp] theorem updTests_ver (f : Tests → Tests) (s : State) : (updTests f s).ver = s.ver := rfl
@[simp] theorem updTests_gates (f : Tests → Tests) (s : State) : (updTests f s).gates = s.gates := rfl
@[simp] theorem updTests_links (f : Tests → Tests) (s : State) : (updTests f s).links = s.links := rfl
@[simp] theorem updTests_linkTimes (f : Tests → Tests) (s : State) : (updTests f s).linkTimes = s.linkTimes := rfl
@[simp] theorem updTests_servo (f : Tests → Tests) (s : State) : (updTests f s).servo = s.servo := rfl
@[simp] theorem updTests_eth (f : Tests → Tests) (s : State) : (updTests f s).eth = s.eth := rfl
@[simp] theorem updTests_fw (f : Tests → Tests) (s : State) : (updTests f s).fw = s.fw := rfl
@[simp] theorem updTests_cal (f : Tests → Tests) (s : State) : (updTests f s).cal = s.cal := rfl
@[simp] theorem updTests_sens (f : Tests → Tests) (s : State) : (updTests f s).sens = s.sens := rfl
@[simp] theorem updTests_snsOn (f : Tests → Tests) (s : State) : (updTests f s).snsOn = s.snsOn := rfl
@[simp] theorem updTests_free (f : Tests → Tests) (s : State) : (updTests f s).free = s.free := rfl
@[simp] theorem updTests_salts (f : Tests → Tests) (s : State) : (updTests f s).salts = s.salts := rfl

/-! ### updTime -/

@[simp] theorem updTime_pending (n : Nat) (f : LinkTime → LinkTime) (s : State) : (updTime n f s).pending = s.pending := rfl
@[simp] theorem updTime_inst (n : Nat) (f : LinkTime → LinkTime) (s : State) : (updTime n f s).inst = s.inst := rfl
@[simp] theorem updTime_ready (n : Nat) (f : LinkTime → LinkTime) (s : State) : (updTime n f s).ready = s.ready := rfl
@[simp] theorem updTime_booting (n : Nat) (f : LinkTime → LinkTime) (s : State) : (updTime n f s).booting = s.booting := rfl
@[simp] theorem updTime_workHeld (n : Nat) (f : LinkTime → LinkTime) (s : State) : (updTime n f s).workHeld = s.workHeld := rfl
@[simp] theorem updTime_port (n : Nat) (f : LinkTime → LinkTime) (s : State) : (updTime n f s).port = s.port := rfl
@[simp] theorem updTime_regs (n : Nat) (f : LinkTime → LinkTime) (s : State) : (updTime n f s).regs = s.regs := rfl
@[simp] theorem updTime_parts (n : Nat) (f : LinkTime → LinkTime) (s : State) : (updTime n f s).parts = s.parts := rfl
@[simp] theorem updTime_audit (n : Nat) (f : LinkTime → LinkTime) (s : State) : (updTime n f s).audit = s.audit := rfl
@[simp] theorem updTime_tim (n : Nat) (f : LinkTime → LinkTime) (s : State) : (updTime n f s).tim = s.tim := rfl
@[simp] theorem updTime_owed (n : Nat) (f : LinkTime → LinkTime) (s : State) : (updTime n f s).owed = s.owed := rfl
@[simp] theorem updTime_strs (n : Nat) (f : LinkTime → LinkTime) (s : State) : (updTime n f s).strs = s.strs := rfl
@[simp] theorem updTime_closes (n : Nat) (f : LinkTime → LinkTime) (s : State) : (updTime n f s).closes = s.closes := rfl
@[simp] theorem updTime_bobs (n : Nat) (f : LinkTime → LinkTime) (s : State) : (updTime n f s).bobs = s.bobs := rfl
@[simp] theorem updTime_wports (n : Nat) (f : LinkTime → LinkTime) (s : State) : (updTime n f s).wports = s.wports := rfl
@[simp] theorem updTime_rport (n : Nat) (f : LinkTime → LinkTime) (s : State) : (updTime n f s).rport = s.rport := rfl
@[simp] theorem updTime_adopts (n : Nat) (f : LinkTime → LinkTime) (s : State) : (updTime n f s).adopts = s.adopts := rfl
@[simp] theorem updTime_exempt (n : Nat) (f : LinkTime → LinkTime) (s : State) : (updTime n f s).exempt = s.exempt := rfl
@[simp] theorem updTime_refused (n : Nat) (f : LinkTime → LinkTime) (s : State) : (updTime n f s).refused = s.refused := rfl
@[simp] theorem updTime_heds (n : Nat) (f : LinkTime → LinkTime) (s : State) : (updTime n f s).heds = s.heds := rfl
@[simp] theorem updTime_counts (n : Nat) (f : LinkTime → LinkTime) (s : State) : (updTime n f s).counts = s.counts := rfl
@[simp] theorem updTime_hedGovs (n : Nat) (f : LinkTime → LinkTime) (s : State) : (updTime n f s).hedGovs = s.hedGovs := rfl
@[simp] theorem updTime_reedGovs (n : Nat) (f : LinkTime → LinkTime) (s : State) : (updTime n f s).reedGovs = s.reedGovs := rfl
@[simp] theorem updTime_gov (n : Nat) (f : LinkTime → LinkTime) (s : State) : (updTime n f s).gov = s.gov := rfl
@[simp] theorem updTime_trd (n : Nat) (f : LinkTime → LinkTime) (s : State) : (updTime n f s).trd = s.trd := rfl
@[simp] theorem updTime_stop (n : Nat) (f : LinkTime → LinkTime) (s : State) : (updTime n f s).stop = s.stop := rfl
@[simp] theorem updTime_hedStops (n : Nat) (f : LinkTime → LinkTime) (s : State) : (updTime n f s).hedStops = s.hedStops := rfl
@[simp] theorem updTime_key (n : Nat) (f : LinkTime → LinkTime) (s : State) : (updTime n f s).key = s.key := rfl
@[simp] theorem updTime_wits (n : Nat) (f : LinkTime → LinkTime) (s : State) : (updTime n f s).wits = s.wits := rfl
@[simp] theorem updTime_cards (n : Nat) (f : LinkTime → LinkTime) (s : State) : (updTime n f s).cards = s.cards := rfl
@[simp] theorem updTime_shadows (n : Nat) (f : LinkTime → LinkTime) (s : State) : (updTime n f s).shadows = s.shadows := rfl
@[simp] theorem updTime_lapsed (n : Nat) (f : LinkTime → LinkTime) (s : State) : (updTime n f s).lapsed = s.lapsed := rfl
@[simp] theorem updTime_ver (n : Nat) (f : LinkTime → LinkTime) (s : State) : (updTime n f s).ver = s.ver := rfl
@[simp] theorem updTime_gates (n : Nat) (f : LinkTime → LinkTime) (s : State) : (updTime n f s).gates = s.gates := rfl
@[simp] theorem updTime_tests (n : Nat) (f : LinkTime → LinkTime) (s : State) : (updTime n f s).tests = s.tests := rfl
@[simp] theorem updTime_links (n : Nat) (f : LinkTime → LinkTime) (s : State) : (updTime n f s).links = s.links := rfl
@[simp] theorem updTime_servo (n : Nat) (f : LinkTime → LinkTime) (s : State) : (updTime n f s).servo = s.servo := rfl
@[simp] theorem updTime_eth (n : Nat) (f : LinkTime → LinkTime) (s : State) : (updTime n f s).eth = s.eth := rfl
@[simp] theorem updTime_fw (n : Nat) (f : LinkTime → LinkTime) (s : State) : (updTime n f s).fw = s.fw := rfl
@[simp] theorem updTime_cal (n : Nat) (f : LinkTime → LinkTime) (s : State) : (updTime n f s).cal = s.cal := rfl
@[simp] theorem updTime_sens (n : Nat) (f : LinkTime → LinkTime) (s : State) : (updTime n f s).sens = s.sens := rfl
@[simp] theorem updTime_snsOn (n : Nat) (f : LinkTime → LinkTime) (s : State) : (updTime n f s).snsOn = s.snsOn := rfl
@[simp] theorem updTime_free (n : Nat) (f : LinkTime → LinkTime) (s : State) : (updTime n f s).free = s.free := rfl
@[simp] theorem updTime_salts (n : Nat) (f : LinkTime → LinkTime) (s : State) : (updTime n f s).salts = s.salts := rfl

/-! ### updCal -/

@[simp] theorem updCal_pending (f : Cal → Cal) (s : State) : (updCal f s).pending = s.pending := rfl
@[simp] theorem updCal_inst (f : Cal → Cal) (s : State) : (updCal f s).inst = s.inst := rfl
@[simp] theorem updCal_ready (f : Cal → Cal) (s : State) : (updCal f s).ready = s.ready := rfl
@[simp] theorem updCal_booting (f : Cal → Cal) (s : State) : (updCal f s).booting = s.booting := rfl
@[simp] theorem updCal_workHeld (f : Cal → Cal) (s : State) : (updCal f s).workHeld = s.workHeld := rfl
@[simp] theorem updCal_port (f : Cal → Cal) (s : State) : (updCal f s).port = s.port := rfl
@[simp] theorem updCal_regs (f : Cal → Cal) (s : State) : (updCal f s).regs = s.regs := rfl
@[simp] theorem updCal_parts (f : Cal → Cal) (s : State) : (updCal f s).parts = s.parts := rfl
@[simp] theorem updCal_audit (f : Cal → Cal) (s : State) : (updCal f s).audit = s.audit := rfl
@[simp] theorem updCal_tim (f : Cal → Cal) (s : State) : (updCal f s).tim = s.tim := rfl
@[simp] theorem updCal_owed (f : Cal → Cal) (s : State) : (updCal f s).owed = s.owed := rfl
@[simp] theorem updCal_strs (f : Cal → Cal) (s : State) : (updCal f s).strs = s.strs := rfl
@[simp] theorem updCal_closes (f : Cal → Cal) (s : State) : (updCal f s).closes = s.closes := rfl
@[simp] theorem updCal_bobs (f : Cal → Cal) (s : State) : (updCal f s).bobs = s.bobs := rfl
@[simp] theorem updCal_wports (f : Cal → Cal) (s : State) : (updCal f s).wports = s.wports := rfl
@[simp] theorem updCal_rport (f : Cal → Cal) (s : State) : (updCal f s).rport = s.rport := rfl
@[simp] theorem updCal_adopts (f : Cal → Cal) (s : State) : (updCal f s).adopts = s.adopts := rfl
@[simp] theorem updCal_exempt (f : Cal → Cal) (s : State) : (updCal f s).exempt = s.exempt := rfl
@[simp] theorem updCal_refused (f : Cal → Cal) (s : State) : (updCal f s).refused = s.refused := rfl
@[simp] theorem updCal_heds (f : Cal → Cal) (s : State) : (updCal f s).heds = s.heds := rfl
@[simp] theorem updCal_counts (f : Cal → Cal) (s : State) : (updCal f s).counts = s.counts := rfl
@[simp] theorem updCal_hedGovs (f : Cal → Cal) (s : State) : (updCal f s).hedGovs = s.hedGovs := rfl
@[simp] theorem updCal_reedGovs (f : Cal → Cal) (s : State) : (updCal f s).reedGovs = s.reedGovs := rfl
@[simp] theorem updCal_gov (f : Cal → Cal) (s : State) : (updCal f s).gov = s.gov := rfl
@[simp] theorem updCal_trd (f : Cal → Cal) (s : State) : (updCal f s).trd = s.trd := rfl
@[simp] theorem updCal_stop (f : Cal → Cal) (s : State) : (updCal f s).stop = s.stop := rfl
@[simp] theorem updCal_hedStops (f : Cal → Cal) (s : State) : (updCal f s).hedStops = s.hedStops := rfl
@[simp] theorem updCal_key (f : Cal → Cal) (s : State) : (updCal f s).key = s.key := rfl
@[simp] theorem updCal_wits (f : Cal → Cal) (s : State) : (updCal f s).wits = s.wits := rfl
@[simp] theorem updCal_cards (f : Cal → Cal) (s : State) : (updCal f s).cards = s.cards := rfl
@[simp] theorem updCal_shadows (f : Cal → Cal) (s : State) : (updCal f s).shadows = s.shadows := rfl
@[simp] theorem updCal_lapsed (f : Cal → Cal) (s : State) : (updCal f s).lapsed = s.lapsed := rfl
@[simp] theorem updCal_ver (f : Cal → Cal) (s : State) : (updCal f s).ver = s.ver := rfl
@[simp] theorem updCal_gates (f : Cal → Cal) (s : State) : (updCal f s).gates = s.gates := rfl
@[simp] theorem updCal_tests (f : Cal → Cal) (s : State) : (updCal f s).tests = s.tests := rfl
@[simp] theorem updCal_links (f : Cal → Cal) (s : State) : (updCal f s).links = s.links := rfl
@[simp] theorem updCal_linkTimes (f : Cal → Cal) (s : State) : (updCal f s).linkTimes = s.linkTimes := rfl
@[simp] theorem updCal_servo (f : Cal → Cal) (s : State) : (updCal f s).servo = s.servo := rfl
@[simp] theorem updCal_eth (f : Cal → Cal) (s : State) : (updCal f s).eth = s.eth := rfl
@[simp] theorem updCal_fw (f : Cal → Cal) (s : State) : (updCal f s).fw = s.fw := rfl
@[simp] theorem updCal_sens (f : Cal → Cal) (s : State) : (updCal f s).sens = s.sens := rfl
@[simp] theorem updCal_snsOn (f : Cal → Cal) (s : State) : (updCal f s).snsOn = s.snsOn := rfl
@[simp] theorem updCal_free (f : Cal → Cal) (s : State) : (updCal f s).free = s.free := rfl
@[simp] theorem updCal_salts (f : Cal → Cal) (s : State) : (updCal f s).salts = s.salts := rfl

/-! ### updServo -/

@[simp] theorem updServo_pending (f : Servo → Servo) (s : State) : (updServo f s).pending = s.pending := rfl
@[simp] theorem updServo_inst (f : Servo → Servo) (s : State) : (updServo f s).inst = s.inst := rfl
@[simp] theorem updServo_ready (f : Servo → Servo) (s : State) : (updServo f s).ready = s.ready := rfl
@[simp] theorem updServo_booting (f : Servo → Servo) (s : State) : (updServo f s).booting = s.booting := rfl
@[simp] theorem updServo_workHeld (f : Servo → Servo) (s : State) : (updServo f s).workHeld = s.workHeld := rfl
@[simp] theorem updServo_port (f : Servo → Servo) (s : State) : (updServo f s).port = s.port := rfl
@[simp] theorem updServo_regs (f : Servo → Servo) (s : State) : (updServo f s).regs = s.regs := rfl
@[simp] theorem updServo_parts (f : Servo → Servo) (s : State) : (updServo f s).parts = s.parts := rfl
@[simp] theorem updServo_audit (f : Servo → Servo) (s : State) : (updServo f s).audit = s.audit := rfl
@[simp] theorem updServo_tim (f : Servo → Servo) (s : State) : (updServo f s).tim = s.tim := rfl
@[simp] theorem updServo_owed (f : Servo → Servo) (s : State) : (updServo f s).owed = s.owed := rfl
@[simp] theorem updServo_strs (f : Servo → Servo) (s : State) : (updServo f s).strs = s.strs := rfl
@[simp] theorem updServo_closes (f : Servo → Servo) (s : State) : (updServo f s).closes = s.closes := rfl
@[simp] theorem updServo_bobs (f : Servo → Servo) (s : State) : (updServo f s).bobs = s.bobs := rfl
@[simp] theorem updServo_wports (f : Servo → Servo) (s : State) : (updServo f s).wports = s.wports := rfl
@[simp] theorem updServo_rport (f : Servo → Servo) (s : State) : (updServo f s).rport = s.rport := rfl
@[simp] theorem updServo_adopts (f : Servo → Servo) (s : State) : (updServo f s).adopts = s.adopts := rfl
@[simp] theorem updServo_exempt (f : Servo → Servo) (s : State) : (updServo f s).exempt = s.exempt := rfl
@[simp] theorem updServo_refused (f : Servo → Servo) (s : State) : (updServo f s).refused = s.refused := rfl
@[simp] theorem updServo_heds (f : Servo → Servo) (s : State) : (updServo f s).heds = s.heds := rfl
@[simp] theorem updServo_counts (f : Servo → Servo) (s : State) : (updServo f s).counts = s.counts := rfl
@[simp] theorem updServo_hedGovs (f : Servo → Servo) (s : State) : (updServo f s).hedGovs = s.hedGovs := rfl
@[simp] theorem updServo_reedGovs (f : Servo → Servo) (s : State) : (updServo f s).reedGovs = s.reedGovs := rfl
@[simp] theorem updServo_gov (f : Servo → Servo) (s : State) : (updServo f s).gov = s.gov := rfl
@[simp] theorem updServo_trd (f : Servo → Servo) (s : State) : (updServo f s).trd = s.trd := rfl
@[simp] theorem updServo_stop (f : Servo → Servo) (s : State) : (updServo f s).stop = s.stop := rfl
@[simp] theorem updServo_hedStops (f : Servo → Servo) (s : State) : (updServo f s).hedStops = s.hedStops := rfl
@[simp] theorem updServo_key (f : Servo → Servo) (s : State) : (updServo f s).key = s.key := rfl
@[simp] theorem updServo_wits (f : Servo → Servo) (s : State) : (updServo f s).wits = s.wits := rfl
@[simp] theorem updServo_cards (f : Servo → Servo) (s : State) : (updServo f s).cards = s.cards := rfl
@[simp] theorem updServo_shadows (f : Servo → Servo) (s : State) : (updServo f s).shadows = s.shadows := rfl
@[simp] theorem updServo_lapsed (f : Servo → Servo) (s : State) : (updServo f s).lapsed = s.lapsed := rfl
@[simp] theorem updServo_ver (f : Servo → Servo) (s : State) : (updServo f s).ver = s.ver := rfl
@[simp] theorem updServo_gates (f : Servo → Servo) (s : State) : (updServo f s).gates = s.gates := rfl
@[simp] theorem updServo_tests (f : Servo → Servo) (s : State) : (updServo f s).tests = s.tests := rfl
@[simp] theorem updServo_links (f : Servo → Servo) (s : State) : (updServo f s).links = s.links := rfl
@[simp] theorem updServo_linkTimes (f : Servo → Servo) (s : State) : (updServo f s).linkTimes = s.linkTimes := rfl
@[simp] theorem updServo_eth (f : Servo → Servo) (s : State) : (updServo f s).eth = s.eth := rfl
@[simp] theorem updServo_fw (f : Servo → Servo) (s : State) : (updServo f s).fw = s.fw := rfl
@[simp] theorem updServo_cal (f : Servo → Servo) (s : State) : (updServo f s).cal = s.cal := rfl
@[simp] theorem updServo_sens (f : Servo → Servo) (s : State) : (updServo f s).sens = s.sens := rfl
@[simp] theorem updServo_snsOn (f : Servo → Servo) (s : State) : (updServo f s).snsOn = s.snsOn := rfl
@[simp] theorem updServo_free (f : Servo → Servo) (s : State) : (updServo f s).free = s.free := rfl
@[simp] theorem updServo_salts (f : Servo → Servo) (s : State) : (updServo f s).salts = s.salts := rfl

/-! ### updEth -/

@[simp] theorem updEth_pending (f : Eth → Eth) (s : State) : (updEth f s).pending = s.pending := rfl
@[simp] theorem updEth_inst (f : Eth → Eth) (s : State) : (updEth f s).inst = s.inst := rfl
@[simp] theorem updEth_ready (f : Eth → Eth) (s : State) : (updEth f s).ready = s.ready := rfl
@[simp] theorem updEth_booting (f : Eth → Eth) (s : State) : (updEth f s).booting = s.booting := rfl
@[simp] theorem updEth_workHeld (f : Eth → Eth) (s : State) : (updEth f s).workHeld = s.workHeld := rfl
@[simp] theorem updEth_port (f : Eth → Eth) (s : State) : (updEth f s).port = s.port := rfl
@[simp] theorem updEth_regs (f : Eth → Eth) (s : State) : (updEth f s).regs = s.regs := rfl
@[simp] theorem updEth_parts (f : Eth → Eth) (s : State) : (updEth f s).parts = s.parts := rfl
@[simp] theorem updEth_audit (f : Eth → Eth) (s : State) : (updEth f s).audit = s.audit := rfl
@[simp] theorem updEth_tim (f : Eth → Eth) (s : State) : (updEth f s).tim = s.tim := rfl
@[simp] theorem updEth_owed (f : Eth → Eth) (s : State) : (updEth f s).owed = s.owed := rfl
@[simp] theorem updEth_strs (f : Eth → Eth) (s : State) : (updEth f s).strs = s.strs := rfl
@[simp] theorem updEth_closes (f : Eth → Eth) (s : State) : (updEth f s).closes = s.closes := rfl
@[simp] theorem updEth_bobs (f : Eth → Eth) (s : State) : (updEth f s).bobs = s.bobs := rfl
@[simp] theorem updEth_wports (f : Eth → Eth) (s : State) : (updEth f s).wports = s.wports := rfl
@[simp] theorem updEth_rport (f : Eth → Eth) (s : State) : (updEth f s).rport = s.rport := rfl
@[simp] theorem updEth_adopts (f : Eth → Eth) (s : State) : (updEth f s).adopts = s.adopts := rfl
@[simp] theorem updEth_exempt (f : Eth → Eth) (s : State) : (updEth f s).exempt = s.exempt := rfl
@[simp] theorem updEth_refused (f : Eth → Eth) (s : State) : (updEth f s).refused = s.refused := rfl
@[simp] theorem updEth_heds (f : Eth → Eth) (s : State) : (updEth f s).heds = s.heds := rfl
@[simp] theorem updEth_counts (f : Eth → Eth) (s : State) : (updEth f s).counts = s.counts := rfl
@[simp] theorem updEth_hedGovs (f : Eth → Eth) (s : State) : (updEth f s).hedGovs = s.hedGovs := rfl
@[simp] theorem updEth_reedGovs (f : Eth → Eth) (s : State) : (updEth f s).reedGovs = s.reedGovs := rfl
@[simp] theorem updEth_gov (f : Eth → Eth) (s : State) : (updEth f s).gov = s.gov := rfl
@[simp] theorem updEth_trd (f : Eth → Eth) (s : State) : (updEth f s).trd = s.trd := rfl
@[simp] theorem updEth_stop (f : Eth → Eth) (s : State) : (updEth f s).stop = s.stop := rfl
@[simp] theorem updEth_hedStops (f : Eth → Eth) (s : State) : (updEth f s).hedStops = s.hedStops := rfl
@[simp] theorem updEth_key (f : Eth → Eth) (s : State) : (updEth f s).key = s.key := rfl
@[simp] theorem updEth_wits (f : Eth → Eth) (s : State) : (updEth f s).wits = s.wits := rfl
@[simp] theorem updEth_cards (f : Eth → Eth) (s : State) : (updEth f s).cards = s.cards := rfl
@[simp] theorem updEth_shadows (f : Eth → Eth) (s : State) : (updEth f s).shadows = s.shadows := rfl
@[simp] theorem updEth_lapsed (f : Eth → Eth) (s : State) : (updEth f s).lapsed = s.lapsed := rfl
@[simp] theorem updEth_ver (f : Eth → Eth) (s : State) : (updEth f s).ver = s.ver := rfl
@[simp] theorem updEth_gates (f : Eth → Eth) (s : State) : (updEth f s).gates = s.gates := rfl
@[simp] theorem updEth_tests (f : Eth → Eth) (s : State) : (updEth f s).tests = s.tests := rfl
@[simp] theorem updEth_links (f : Eth → Eth) (s : State) : (updEth f s).links = s.links := rfl
@[simp] theorem updEth_linkTimes (f : Eth → Eth) (s : State) : (updEth f s).linkTimes = s.linkTimes := rfl
@[simp] theorem updEth_servo (f : Eth → Eth) (s : State) : (updEth f s).servo = s.servo := rfl
@[simp] theorem updEth_fw (f : Eth → Eth) (s : State) : (updEth f s).fw = s.fw := rfl
@[simp] theorem updEth_cal (f : Eth → Eth) (s : State) : (updEth f s).cal = s.cal := rfl
@[simp] theorem updEth_sens (f : Eth → Eth) (s : State) : (updEth f s).sens = s.sens := rfl
@[simp] theorem updEth_snsOn (f : Eth → Eth) (s : State) : (updEth f s).snsOn = s.snsOn := rfl
@[simp] theorem updEth_free (f : Eth → Eth) (s : State) : (updEth f s).free = s.free := rfl
@[simp] theorem updEth_salts (f : Eth → Eth) (s : State) : (updEth f s).salts = s.salts := rfl

/-! ### updStop -/

@[simp] theorem updStop_pending (f : Stop → Stop) (s : State) : (updStop f s).pending = s.pending := rfl
@[simp] theorem updStop_inst (f : Stop → Stop) (s : State) : (updStop f s).inst = s.inst := rfl
@[simp] theorem updStop_ready (f : Stop → Stop) (s : State) : (updStop f s).ready = s.ready := rfl
@[simp] theorem updStop_booting (f : Stop → Stop) (s : State) : (updStop f s).booting = s.booting := rfl
@[simp] theorem updStop_workHeld (f : Stop → Stop) (s : State) : (updStop f s).workHeld = s.workHeld := rfl
@[simp] theorem updStop_port (f : Stop → Stop) (s : State) : (updStop f s).port = s.port := rfl
@[simp] theorem updStop_regs (f : Stop → Stop) (s : State) : (updStop f s).regs = s.regs := rfl
@[simp] theorem updStop_parts (f : Stop → Stop) (s : State) : (updStop f s).parts = s.parts := rfl
@[simp] theorem updStop_audit (f : Stop → Stop) (s : State) : (updStop f s).audit = s.audit := rfl
@[simp] theorem updStop_tim (f : Stop → Stop) (s : State) : (updStop f s).tim = s.tim := rfl
@[simp] theorem updStop_owed (f : Stop → Stop) (s : State) : (updStop f s).owed = s.owed := rfl
@[simp] theorem updStop_strs (f : Stop → Stop) (s : State) : (updStop f s).strs = s.strs := rfl
@[simp] theorem updStop_closes (f : Stop → Stop) (s : State) : (updStop f s).closes = s.closes := rfl
@[simp] theorem updStop_bobs (f : Stop → Stop) (s : State) : (updStop f s).bobs = s.bobs := rfl
@[simp] theorem updStop_wports (f : Stop → Stop) (s : State) : (updStop f s).wports = s.wports := rfl
@[simp] theorem updStop_rport (f : Stop → Stop) (s : State) : (updStop f s).rport = s.rport := rfl
@[simp] theorem updStop_adopts (f : Stop → Stop) (s : State) : (updStop f s).adopts = s.adopts := rfl
@[simp] theorem updStop_exempt (f : Stop → Stop) (s : State) : (updStop f s).exempt = s.exempt := rfl
@[simp] theorem updStop_refused (f : Stop → Stop) (s : State) : (updStop f s).refused = s.refused := rfl
@[simp] theorem updStop_heds (f : Stop → Stop) (s : State) : (updStop f s).heds = s.heds := rfl
@[simp] theorem updStop_counts (f : Stop → Stop) (s : State) : (updStop f s).counts = s.counts := rfl
@[simp] theorem updStop_hedGovs (f : Stop → Stop) (s : State) : (updStop f s).hedGovs = s.hedGovs := rfl
@[simp] theorem updStop_reedGovs (f : Stop → Stop) (s : State) : (updStop f s).reedGovs = s.reedGovs := rfl
@[simp] theorem updStop_gov (f : Stop → Stop) (s : State) : (updStop f s).gov = s.gov := rfl
@[simp] theorem updStop_trd (f : Stop → Stop) (s : State) : (updStop f s).trd = s.trd := rfl
@[simp] theorem updStop_hedStops (f : Stop → Stop) (s : State) : (updStop f s).hedStops = s.hedStops := rfl
@[simp] theorem updStop_key (f : Stop → Stop) (s : State) : (updStop f s).key = s.key := rfl
@[simp] theorem updStop_wits (f : Stop → Stop) (s : State) : (updStop f s).wits = s.wits := rfl
@[simp] theorem updStop_cards (f : Stop → Stop) (s : State) : (updStop f s).cards = s.cards := rfl
@[simp] theorem updStop_shadows (f : Stop → Stop) (s : State) : (updStop f s).shadows = s.shadows := rfl
@[simp] theorem updStop_lapsed (f : Stop → Stop) (s : State) : (updStop f s).lapsed = s.lapsed := rfl
@[simp] theorem updStop_ver (f : Stop → Stop) (s : State) : (updStop f s).ver = s.ver := rfl
@[simp] theorem updStop_gates (f : Stop → Stop) (s : State) : (updStop f s).gates = s.gates := rfl
@[simp] theorem updStop_tests (f : Stop → Stop) (s : State) : (updStop f s).tests = s.tests := rfl
@[simp] theorem updStop_links (f : Stop → Stop) (s : State) : (updStop f s).links = s.links := rfl
@[simp] theorem updStop_linkTimes (f : Stop → Stop) (s : State) : (updStop f s).linkTimes = s.linkTimes := rfl
@[simp] theorem updStop_servo (f : Stop → Stop) (s : State) : (updStop f s).servo = s.servo := rfl
@[simp] theorem updStop_eth (f : Stop → Stop) (s : State) : (updStop f s).eth = s.eth := rfl
@[simp] theorem updStop_fw (f : Stop → Stop) (s : State) : (updStop f s).fw = s.fw := rfl
@[simp] theorem updStop_cal (f : Stop → Stop) (s : State) : (updStop f s).cal = s.cal := rfl
@[simp] theorem updStop_sens (f : Stop → Stop) (s : State) : (updStop f s).sens = s.sens := rfl
@[simp] theorem updStop_snsOn (f : Stop → Stop) (s : State) : (updStop f s).snsOn = s.snsOn := rfl
@[simp] theorem updStop_free (f : Stop → Stop) (s : State) : (updStop f s).free = s.free := rfl
@[simp] theorem updStop_salts (f : Stop → Stop) (s : State) : (updStop f s).salts = s.salts := rfl

/-! ### updKey -/

@[simp] theorem updKey_pending (f : KeyStore → KeyStore) (s : State) : (updKey f s).pending = s.pending := rfl
@[simp] theorem updKey_inst (f : KeyStore → KeyStore) (s : State) : (updKey f s).inst = s.inst := rfl
@[simp] theorem updKey_ready (f : KeyStore → KeyStore) (s : State) : (updKey f s).ready = s.ready := rfl
@[simp] theorem updKey_booting (f : KeyStore → KeyStore) (s : State) : (updKey f s).booting = s.booting := rfl
@[simp] theorem updKey_workHeld (f : KeyStore → KeyStore) (s : State) : (updKey f s).workHeld = s.workHeld := rfl
@[simp] theorem updKey_port (f : KeyStore → KeyStore) (s : State) : (updKey f s).port = s.port := rfl
@[simp] theorem updKey_regs (f : KeyStore → KeyStore) (s : State) : (updKey f s).regs = s.regs := rfl
@[simp] theorem updKey_parts (f : KeyStore → KeyStore) (s : State) : (updKey f s).parts = s.parts := rfl
@[simp] theorem updKey_audit (f : KeyStore → KeyStore) (s : State) : (updKey f s).audit = s.audit := rfl
@[simp] theorem updKey_tim (f : KeyStore → KeyStore) (s : State) : (updKey f s).tim = s.tim := rfl
@[simp] theorem updKey_owed (f : KeyStore → KeyStore) (s : State) : (updKey f s).owed = s.owed := rfl
@[simp] theorem updKey_strs (f : KeyStore → KeyStore) (s : State) : (updKey f s).strs = s.strs := rfl
@[simp] theorem updKey_closes (f : KeyStore → KeyStore) (s : State) : (updKey f s).closes = s.closes := rfl
@[simp] theorem updKey_bobs (f : KeyStore → KeyStore) (s : State) : (updKey f s).bobs = s.bobs := rfl
@[simp] theorem updKey_wports (f : KeyStore → KeyStore) (s : State) : (updKey f s).wports = s.wports := rfl
@[simp] theorem updKey_rport (f : KeyStore → KeyStore) (s : State) : (updKey f s).rport = s.rport := rfl
@[simp] theorem updKey_adopts (f : KeyStore → KeyStore) (s : State) : (updKey f s).adopts = s.adopts := rfl
@[simp] theorem updKey_exempt (f : KeyStore → KeyStore) (s : State) : (updKey f s).exempt = s.exempt := rfl
@[simp] theorem updKey_refused (f : KeyStore → KeyStore) (s : State) : (updKey f s).refused = s.refused := rfl
@[simp] theorem updKey_heds (f : KeyStore → KeyStore) (s : State) : (updKey f s).heds = s.heds := rfl
@[simp] theorem updKey_counts (f : KeyStore → KeyStore) (s : State) : (updKey f s).counts = s.counts := rfl
@[simp] theorem updKey_hedGovs (f : KeyStore → KeyStore) (s : State) : (updKey f s).hedGovs = s.hedGovs := rfl
@[simp] theorem updKey_reedGovs (f : KeyStore → KeyStore) (s : State) : (updKey f s).reedGovs = s.reedGovs := rfl
@[simp] theorem updKey_gov (f : KeyStore → KeyStore) (s : State) : (updKey f s).gov = s.gov := rfl
@[simp] theorem updKey_trd (f : KeyStore → KeyStore) (s : State) : (updKey f s).trd = s.trd := rfl
@[simp] theorem updKey_stop (f : KeyStore → KeyStore) (s : State) : (updKey f s).stop = s.stop := rfl
@[simp] theorem updKey_hedStops (f : KeyStore → KeyStore) (s : State) : (updKey f s).hedStops = s.hedStops := rfl
@[simp] theorem updKey_wits (f : KeyStore → KeyStore) (s : State) : (updKey f s).wits = s.wits := rfl
@[simp] theorem updKey_cards (f : KeyStore → KeyStore) (s : State) : (updKey f s).cards = s.cards := rfl
@[simp] theorem updKey_shadows (f : KeyStore → KeyStore) (s : State) : (updKey f s).shadows = s.shadows := rfl
@[simp] theorem updKey_lapsed (f : KeyStore → KeyStore) (s : State) : (updKey f s).lapsed = s.lapsed := rfl
@[simp] theorem updKey_ver (f : KeyStore → KeyStore) (s : State) : (updKey f s).ver = s.ver := rfl
@[simp] theorem updKey_gates (f : KeyStore → KeyStore) (s : State) : (updKey f s).gates = s.gates := rfl
@[simp] theorem updKey_tests (f : KeyStore → KeyStore) (s : State) : (updKey f s).tests = s.tests := rfl
@[simp] theorem updKey_links (f : KeyStore → KeyStore) (s : State) : (updKey f s).links = s.links := rfl
@[simp] theorem updKey_linkTimes (f : KeyStore → KeyStore) (s : State) : (updKey f s).linkTimes = s.linkTimes := rfl
@[simp] theorem updKey_servo (f : KeyStore → KeyStore) (s : State) : (updKey f s).servo = s.servo := rfl
@[simp] theorem updKey_eth (f : KeyStore → KeyStore) (s : State) : (updKey f s).eth = s.eth := rfl
@[simp] theorem updKey_fw (f : KeyStore → KeyStore) (s : State) : (updKey f s).fw = s.fw := rfl
@[simp] theorem updKey_cal (f : KeyStore → KeyStore) (s : State) : (updKey f s).cal = s.cal := rfl
@[simp] theorem updKey_sens (f : KeyStore → KeyStore) (s : State) : (updKey f s).sens = s.sens := rfl
@[simp] theorem updKey_snsOn (f : KeyStore → KeyStore) (s : State) : (updKey f s).snsOn = s.snsOn := rfl
@[simp] theorem updKey_free (f : KeyStore → KeyStore) (s : State) : (updKey f s).free = s.free := rfl
@[simp] theorem updKey_salts (f : KeyStore → KeyStore) (s : State) : (updKey f s).salts = s.salts := rfl

/-! ### updFw -/

@[simp] theorem updFw_pending (f : Fw → Fw) (s : State) : (updFw f s).pending = s.pending := rfl
@[simp] theorem updFw_inst (f : Fw → Fw) (s : State) : (updFw f s).inst = s.inst := rfl
@[simp] theorem updFw_ready (f : Fw → Fw) (s : State) : (updFw f s).ready = s.ready := rfl
@[simp] theorem updFw_booting (f : Fw → Fw) (s : State) : (updFw f s).booting = s.booting := rfl
@[simp] theorem updFw_workHeld (f : Fw → Fw) (s : State) : (updFw f s).workHeld = s.workHeld := rfl
@[simp] theorem updFw_port (f : Fw → Fw) (s : State) : (updFw f s).port = s.port := rfl
@[simp] theorem updFw_regs (f : Fw → Fw) (s : State) : (updFw f s).regs = s.regs := rfl
@[simp] theorem updFw_parts (f : Fw → Fw) (s : State) : (updFw f s).parts = s.parts := rfl
@[simp] theorem updFw_audit (f : Fw → Fw) (s : State) : (updFw f s).audit = s.audit := rfl
@[simp] theorem updFw_tim (f : Fw → Fw) (s : State) : (updFw f s).tim = s.tim := rfl
@[simp] theorem updFw_owed (f : Fw → Fw) (s : State) : (updFw f s).owed = s.owed := rfl
@[simp] theorem updFw_strs (f : Fw → Fw) (s : State) : (updFw f s).strs = s.strs := rfl
@[simp] theorem updFw_closes (f : Fw → Fw) (s : State) : (updFw f s).closes = s.closes := rfl
@[simp] theorem updFw_bobs (f : Fw → Fw) (s : State) : (updFw f s).bobs = s.bobs := rfl
@[simp] theorem updFw_wports (f : Fw → Fw) (s : State) : (updFw f s).wports = s.wports := rfl
@[simp] theorem updFw_rport (f : Fw → Fw) (s : State) : (updFw f s).rport = s.rport := rfl
@[simp] theorem updFw_adopts (f : Fw → Fw) (s : State) : (updFw f s).adopts = s.adopts := rfl
@[simp] theorem updFw_exempt (f : Fw → Fw) (s : State) : (updFw f s).exempt = s.exempt := rfl
@[simp] theorem updFw_refused (f : Fw → Fw) (s : State) : (updFw f s).refused = s.refused := rfl
@[simp] theorem updFw_heds (f : Fw → Fw) (s : State) : (updFw f s).heds = s.heds := rfl
@[simp] theorem updFw_counts (f : Fw → Fw) (s : State) : (updFw f s).counts = s.counts := rfl
@[simp] theorem updFw_hedGovs (f : Fw → Fw) (s : State) : (updFw f s).hedGovs = s.hedGovs := rfl
@[simp] theorem updFw_reedGovs (f : Fw → Fw) (s : State) : (updFw f s).reedGovs = s.reedGovs := rfl
@[simp] theorem updFw_gov (f : Fw → Fw) (s : State) : (updFw f s).gov = s.gov := rfl
@[simp] theorem updFw_trd (f : Fw → Fw) (s : State) : (updFw f s).trd = s.trd := rfl
@[simp] theorem updFw_stop (f : Fw → Fw) (s : State) : (updFw f s).stop = s.stop := rfl
@[simp] theorem updFw_hedStops (f : Fw → Fw) (s : State) : (updFw f s).hedStops = s.hedStops := rfl
@[simp] theorem updFw_key (f : Fw → Fw) (s : State) : (updFw f s).key = s.key := rfl
@[simp] theorem updFw_wits (f : Fw → Fw) (s : State) : (updFw f s).wits = s.wits := rfl
@[simp] theorem updFw_cards (f : Fw → Fw) (s : State) : (updFw f s).cards = s.cards := rfl
@[simp] theorem updFw_shadows (f : Fw → Fw) (s : State) : (updFw f s).shadows = s.shadows := rfl
@[simp] theorem updFw_lapsed (f : Fw → Fw) (s : State) : (updFw f s).lapsed = s.lapsed := rfl
@[simp] theorem updFw_ver (f : Fw → Fw) (s : State) : (updFw f s).ver = s.ver := rfl
@[simp] theorem updFw_gates (f : Fw → Fw) (s : State) : (updFw f s).gates = s.gates := rfl
@[simp] theorem updFw_tests (f : Fw → Fw) (s : State) : (updFw f s).tests = s.tests := rfl
@[simp] theorem updFw_links (f : Fw → Fw) (s : State) : (updFw f s).links = s.links := rfl
@[simp] theorem updFw_linkTimes (f : Fw → Fw) (s : State) : (updFw f s).linkTimes = s.linkTimes := rfl
@[simp] theorem updFw_servo (f : Fw → Fw) (s : State) : (updFw f s).servo = s.servo := rfl
@[simp] theorem updFw_eth (f : Fw → Fw) (s : State) : (updFw f s).eth = s.eth := rfl
@[simp] theorem updFw_cal (f : Fw → Fw) (s : State) : (updFw f s).cal = s.cal := rfl
@[simp] theorem updFw_sens (f : Fw → Fw) (s : State) : (updFw f s).sens = s.sens := rfl
@[simp] theorem updFw_snsOn (f : Fw → Fw) (s : State) : (updFw f s).snsOn = s.snsOn := rfl
@[simp] theorem updFw_free (f : Fw → Fw) (s : State) : (updFw f s).free = s.free := rfl
@[simp] theorem updFw_salts (f : Fw → Fw) (s : State) : (updFw f s).salts = s.salts := rfl

/-! ### setRate -/

@[simp] theorem setRate_pending (a : Int) (s : State) : (setRate a s).pending = s.pending := rfl
@[simp] theorem setRate_inst (a : Int) (s : State) : (setRate a s).inst = s.inst := rfl
@[simp] theorem setRate_ready (a : Int) (s : State) : (setRate a s).ready = s.ready := rfl
@[simp] theorem setRate_booting (a : Int) (s : State) : (setRate a s).booting = s.booting := rfl
@[simp] theorem setRate_workHeld (a : Int) (s : State) : (setRate a s).workHeld = s.workHeld := rfl
@[simp] theorem setRate_port (a : Int) (s : State) : (setRate a s).port = s.port := rfl
@[simp] theorem setRate_regs (a : Int) (s : State) : (setRate a s).regs = s.regs := rfl
@[simp] theorem setRate_parts (a : Int) (s : State) : (setRate a s).parts = s.parts := rfl
@[simp] theorem setRate_audit (a : Int) (s : State) : (setRate a s).audit = s.audit := rfl
@[simp] theorem setRate_owed (a : Int) (s : State) : (setRate a s).owed = s.owed := rfl
@[simp] theorem setRate_strs (a : Int) (s : State) : (setRate a s).strs = s.strs := rfl
@[simp] theorem setRate_closes (a : Int) (s : State) : (setRate a s).closes = s.closes := rfl
@[simp] theorem setRate_bobs (a : Int) (s : State) : (setRate a s).bobs = s.bobs := rfl
@[simp] theorem setRate_wports (a : Int) (s : State) : (setRate a s).wports = s.wports := rfl
@[simp] theorem setRate_rport (a : Int) (s : State) : (setRate a s).rport = s.rport := rfl
@[simp] theorem setRate_adopts (a : Int) (s : State) : (setRate a s).adopts = s.adopts := rfl
@[simp] theorem setRate_exempt (a : Int) (s : State) : (setRate a s).exempt = s.exempt := rfl
@[simp] theorem setRate_refused (a : Int) (s : State) : (setRate a s).refused = s.refused := rfl
@[simp] theorem setRate_heds (a : Int) (s : State) : (setRate a s).heds = s.heds := rfl
@[simp] theorem setRate_counts (a : Int) (s : State) : (setRate a s).counts = s.counts := rfl
@[simp] theorem setRate_hedGovs (a : Int) (s : State) : (setRate a s).hedGovs = s.hedGovs := rfl
@[simp] theorem setRate_reedGovs (a : Int) (s : State) : (setRate a s).reedGovs = s.reedGovs := rfl
@[simp] theorem setRate_gov (a : Int) (s : State) : (setRate a s).gov = s.gov := rfl
@[simp] theorem setRate_trd (a : Int) (s : State) : (setRate a s).trd = s.trd := rfl
@[simp] theorem setRate_stop (a : Int) (s : State) : (setRate a s).stop = s.stop := rfl
@[simp] theorem setRate_hedStops (a : Int) (s : State) : (setRate a s).hedStops = s.hedStops := rfl
@[simp] theorem setRate_key (a : Int) (s : State) : (setRate a s).key = s.key := rfl
@[simp] theorem setRate_wits (a : Int) (s : State) : (setRate a s).wits = s.wits := rfl
@[simp] theorem setRate_cards (a : Int) (s : State) : (setRate a s).cards = s.cards := rfl
@[simp] theorem setRate_shadows (a : Int) (s : State) : (setRate a s).shadows = s.shadows := rfl
@[simp] theorem setRate_lapsed (a : Int) (s : State) : (setRate a s).lapsed = s.lapsed := rfl
@[simp] theorem setRate_ver (a : Int) (s : State) : (setRate a s).ver = s.ver := rfl
@[simp] theorem setRate_gates (a : Int) (s : State) : (setRate a s).gates = s.gates := rfl
@[simp] theorem setRate_tests (a : Int) (s : State) : (setRate a s).tests = s.tests := rfl
@[simp] theorem setRate_links (a : Int) (s : State) : (setRate a s).links = s.links := rfl
@[simp] theorem setRate_linkTimes (a : Int) (s : State) : (setRate a s).linkTimes = s.linkTimes := rfl
@[simp] theorem setRate_servo (a : Int) (s : State) : (setRate a s).servo = s.servo := rfl
@[simp] theorem setRate_eth (a : Int) (s : State) : (setRate a s).eth = s.eth := rfl
@[simp] theorem setRate_fw (a : Int) (s : State) : (setRate a s).fw = s.fw := rfl
@[simp] theorem setRate_cal (a : Int) (s : State) : (setRate a s).cal = s.cal := rfl
@[simp] theorem setRate_sens (a : Int) (s : State) : (setRate a s).sens = s.sens := rfl
@[simp] theorem setRate_snsOn (a : Int) (s : State) : (setRate a s).snsOn = s.snsOn := rfl
@[simp] theorem setRate_free (a : Int) (s : State) : (setRate a s).free = s.free := rfl
@[simp] theorem setRate_salts (a : Int) (s : State) : (setRate a s).salts = s.salts := rfl

/-! ### Readers -/

theorem trdSrc_updSrc (n : Nat) (f : Src → Src) (s : State) (h : msorted s.trd.srcs = true) : trdSrc (updSrc n f s) n = f (trdSrc s n) :=
  mget_mupd_same _ _ _ _ h

theorem trdSrc_updSrc_ne (n : Nat) (f : Src → Src) (s : State) (h : f (trdSrc s n) ≠ Src.idle) : trdSrc (updSrc n f s) n = f (trdSrc s n) :=
  mget_mupd_ne _ _ _ _ h

theorem trdSrc_updSrc_other {n m : Nat} (f : Src → Src) (s : State) (h : m ≠ n) : trdSrc (updSrc n f s) m = trdSrc s m :=
  mget_mupd_other _ _ _ h

theorem trdTgt_updTgt (n : Nat) (f : Tgt → Tgt) (s : State) (h : msorted s.trd.tgts = true) : trdTgt (updTgt n f s) n = f (trdTgt s n) :=
  mget_mupd_same _ _ _ _ h

theorem trdTgt_updTgt_ne (n : Nat) (f : Tgt → Tgt) (s : State) (h : f (trdTgt s n) ≠ Tgt.idle) : trdTgt (updTgt n f s) n = f (trdTgt s n) :=
  mget_mupd_ne _ _ _ _ h

theorem trdTgt_updTgt_other {n m : Nat} (f : Tgt → Tgt) (s : State) (h : m ≠ n) : trdTgt (updTgt n f s) m = trdTgt s m :=
  mget_mupd_other _ _ _ h

theorem strm_updStrm (n : Nat) (f : Strm → Strm) (s : State) (h : msorted s.strs = true) : strm (updStrm n f s) n = f (strm s n) :=
  mget_mupd_same _ _ _ _ h

theorem strm_updStrm_ne (n : Nat) (f : Strm → Strm) (s : State) (h : f (strm s n) ≠ Strm.empty) : strm (updStrm n f s) n = f (strm s n) :=
  mget_mupd_ne _ _ _ _ h

theorem strm_updStrm_other {n m : Nat} (f : Strm → Strm) (s : State) (h : m ≠ n) : strm (updStrm n f s) m = strm s m :=
  mget_mupd_other _ _ _ h

theorem adopt_updAdopt (n : Nat) (f : Adopt → Adopt) (s : State) (h : msorted s.adopts = true) : adopt (updAdopt n f s) n = f (adopt s n) :=
  mget_mupd_same _ _ _ _ h

theorem adopt_updAdopt_ne (n : Nat) (f : Adopt → Adopt) (s : State) (h : f (adopt s n) ≠ Adopt.idle) : adopt (updAdopt n f s) n = f (adopt s n) :=
  mget_mupd_ne _ _ _ _ h

theorem adopt_updAdopt_other {n m : Nat} (f : Adopt → Adopt) (s : State) (h : m ≠ n) : adopt (updAdopt n f s) m = adopt s m :=
  mget_mupd_other _ _ _ h

theorem bob_updBob (n : Nat) (f : Bob → Bob) (s : State) (h : msorted s.bobs = true) : bob (updBob n f s) n = f (bob s n) :=
  mget_mupd_same _ _ _ _ h

theorem bob_updBob_ne (n : Nat) (f : Bob → Bob) (s : State) (h : f (bob s n) ≠ Bob.off) : bob (updBob n f s) n = f (bob s n) :=
  mget_mupd_ne _ _ _ _ h

theorem bob_updBob_other {n m : Nat} (f : Bob → Bob) (s : State) (h : m ≠ n) : bob (updBob n f s) m = bob s m :=
  mget_mupd_other _ _ _ h

theorem kslot_updSlot (n : Nat) (f : KSlot → KSlot) (s : State) (h : msorted s.key.slots = true) : kslot (updSlot n f s) n = f (kslot s n) :=
  mget_mupd_same _ _ _ _ h

theorem kslot_updSlot_ne (n : Nat) (f : KSlot → KSlot) (s : State) (h : f (kslot s n) ≠ KSlot.empty) : kslot (updSlot n f s) n = f (kslot s n) :=
  mget_mupd_ne _ _ _ _ h

theorem kslot_updSlot_other {n m : Nat} (f : KSlot → KSlot) (s : State) (h : m ≠ n) : kslot (updSlot n f s) m = kslot s m :=
  mget_mupd_other _ _ _ h

theorem wport_updPort (n : Nat) (f : WPort → WPort) (s : State) (h : msorted s.wports = true) : wport (updPort n f s) n = f (wport s n) :=
  mget_mupd_same _ _ _ _ h

theorem wport_updPort_ne (n : Nat) (f : WPort → WPort) (s : State) (h : f (wport s n) ≠ WPort.idle) : wport (updPort n f s) n = f (wport s n) :=
  mget_mupd_ne _ _ _ _ h

theorem wport_updPort_other {n m : Nat} (f : WPort → WPort) (s : State) (h : m ≠ n) : wport (updPort n f s) m = wport s m :=
  mget_mupd_other _ _ _ h

theorem hedGov_updHedGov (n : Nat) (f : HedGov → HedGov) (s : State) (h : msorted s.hedGovs = true) : hedGov (updHedGov n f s) n = f (hedGov s n) :=
  mget_mupd_same _ _ _ _ h

theorem hedGov_updHedGov_ne (n : Nat) (f : HedGov → HedGov) (s : State) (h : f (hedGov s n) ≠ HedGov.zero) : hedGov (updHedGov n f s) n = f (hedGov s n) :=
  mget_mupd_ne _ _ _ _ h

theorem hedGov_updHedGov_other {n m : Nat} (f : HedGov → HedGov) (s : State) (h : m ≠ n) : hedGov (updHedGov n f s) m = hedGov s m :=
  mget_mupd_other _ _ _ h

theorem reedGov_updReedGov (n : Nat) (f : ReedGov → ReedGov) (s : State) (h : msorted s.reedGovs = true) : reedGov (updReedGov n f s) n = f (reedGov s n) :=
  mget_mupd_same _ _ _ _ h

theorem reedGov_updReedGov_ne (n : Nat) (f : ReedGov → ReedGov) (s : State) (h : f (reedGov s n) ≠ ReedGov.zero) : reedGov (updReedGov n f s) n = f (reedGov s n) :=
  mget_mupd_ne _ _ _ _ h

theorem reedGov_updReedGov_other {n m : Nat} (f : ReedGov → ReedGov) (s : State) (h : m ≠ n) : reedGov (updReedGov n f s) m = reedGov s m :=
  mget_mupd_other _ _ _ h

theorem hed_updHed (n : Nat) (f : HedTrace → HedTrace) (s : State) (h : msorted s.heds = true) : hed (updHed n f s) n = f (hed s n) :=
  mget_mupd_same _ _ _ _ h

theorem hed_updHed_ne (n : Nat) (f : HedTrace → HedTrace) (s : State) (h : f (hed s n) ≠ HedTrace.zero) : hed (updHed n f s) n = f (hed s n) :=
  mget_mupd_ne _ _ _ _ h

theorem hed_updHed_other {n m : Nat} (f : HedTrace → HedTrace) (s : State) (h : m ≠ n) : hed (updHed n f s) m = hed s m :=
  mget_mupd_other _ _ _ h

theorem hedC_updHedC (n : Nat) (f : HedCount → HedCount) (s : State) (h : msorted s.counts = true) : hedC (updHedC n f s) n = f (hedC s n) :=
  mget_mupd_same _ _ _ _ h

theorem hedC_updHedC_ne (n : Nat) (f : HedCount → HedCount) (s : State) (h : f (hedC s n) ≠ HedCount.zero) : hedC (updHedC n f s) n = f (hedC s n) :=
  mget_mupd_ne _ _ _ _ h

theorem hedC_updHedC_other {n m : Nat} (f : HedCount → HedCount) (s : State) (h : m ≠ n) : hedC (updHedC n f s) m = hedC s m :=
  mget_mupd_other _ _ _ h

theorem hedStop_updHedStop (n : Nat) (f : HedStop → HedStop) (s : State) (h : msorted s.hedStops = true) : hedStop (updHedStop n f s) n = f (hedStop s n) :=
  mget_mupd_same _ _ _ _ h

theorem hedStop_updHedStop_ne (n : Nat) (f : HedStop → HedStop) (s : State) (h : f (hedStop s n) ≠ HedStop.zero) : hedStop (updHedStop n f s) n = f (hedStop s n) :=
  mget_mupd_ne _ _ _ _ h

theorem hedStop_updHedStop_other {n m : Nat} (f : HedStop → HedStop) (s : State) (h : m ≠ n) : hedStop (updHedStop n f s) m = hedStop s m :=
  mget_mupd_other _ _ _ h

theorem link_updLink (n : Nat) (f : Link → Link) (s : State) (h : msorted s.links = true) : link (updLink n f s) n = f (link s n) :=
  mget_mupd_same _ _ _ _ h

theorem link_updLink_ne (n : Nat) (f : Link → Link) (s : State) (h : f (link s n) ≠ Link.zero) : link (updLink n f s) n = f (link s n) :=
  mget_mupd_ne _ _ _ _ h

theorem link_updLink_other {n m : Nat} (f : Link → Link) (s : State) (h : m ≠ n) : link (updLink n f s) m = link s m :=
  mget_mupd_other _ _ _ h

theorem witReed_updWit (n : Nat) (f : WitReed → WitReed) (s : State) (h : msorted s.wits = true) : witReed (updWit n f s) n = f (witReed s n) :=
  mget_mupd_same _ _ _ _ h

theorem witReed_updWit_ne (n : Nat) (f : WitReed → WitReed) (s : State) (h : f (witReed s n) ≠ WitReed.zero) : witReed (updWit n f s) n = f (witReed s n) :=
  mget_mupd_ne _ _ _ _ h

theorem witReed_updWit_other {n m : Nat} (f : WitReed → WitReed) (s : State) (h : m ≠ n) : witReed (updWit n f s) m = witReed s m :=
  mget_mupd_other _ _ _ h

theorem hedGate_updGate (n : Nat) (f : HedGate → HedGate) (s : State) (h : msorted s.gates = true) : hedGate (updGate n f s) n = f (hedGate s n) :=
  mget_mupd_same _ _ _ _ h

theorem hedGate_updGate_ne (n : Nat) (f : HedGate → HedGate) (s : State) (h : f (hedGate s n) ≠ HedGate.zero) : hedGate (updGate n f s) n = f (hedGate s n) :=
  mget_mupd_ne _ _ _ _ h

theorem hedGate_updGate_other {n m : Nat} (f : HedGate → HedGate) (s : State) (h : m ≠ n) : hedGate (updGate n f s) m = hedGate s m :=
  mget_mupd_other _ _ _ h

theorem linkTime_updTime (n : Nat) (f : LinkTime → LinkTime) (s : State) (h : msorted s.linkTimes = true) : linkTime (updTime n f s) n = f (linkTime s n) :=
  mget_mupd_same _ _ _ _ h

theorem linkTime_updTime_ne (n : Nat) (f : LinkTime → LinkTime) (s : State) (h : f (linkTime s n) ≠ LinkTime.zero) : linkTime (updTime n f s) n = f (linkTime s n) :=
  mget_mupd_ne _ _ _ _ h

theorem linkTime_updTime_other {n m : Nat} (f : LinkTime → LinkTime) (s : State) (h : m ≠ n) : linkTime (updTime n f s) m = linkTime s m :=
  mget_mupd_other _ _ _ h

theorem part_updPart (s : State) (p : Nat) (f : Part → Part) (h : msorted s.parts = true) : part (updPart s p f) p = f (part s p) :=
  mget_mset_same _ _ _ _ h

theorem part_updPart_other (s : State) {p q : Nat} (f : Part → Part) (h : q ≠ p) : part (updPart s p f) q = part s q :=
  mget_mset_other _ _ _ h

theorem regGet_regPut (s : State) (p o : Nat) (w : Word) (h : msorted s.regs = true) : regGet (regPut s p o w) p o = w :=
  mget_mset_same _ _ _ _ h

end Sys2Proof.Laws
end

