-- ==== Sys2Proof/Laws/Footprint.lean ====
section
/-! SUPPORT. The footprint of every operation: the fields of State that it may change, and that it leaves every other one as it was. -/

namespace Sys2Proof.Laws

set_option Elab.async false

open Sys2Proof.Machine Sys2Proof.Safety

theorem Same.refl (F : Fld → Bool) (s : State) : Same F s s := fun _ _ => rfl

theorem Same.get {F : Fld → Bool} {s t : State} {f : Fld} (h : Same F s t) (hf : F f = false) : get t f = get s f := h f hf

theorem Same.trans {F : Fld → Bool} {s t u : State} (h : Same F s t) (h' : Same F t u) : Same F s u := fun f hf => (h' f hf).trans (h f hf)

/-- Every state that an option holds agrees with a state outside a footprint. -/
@[reducible] def SameO (F : Fld → Bool) (s : State) (o : Option State) : Prop := ∀ u, o = some u → Same F s u

theorem SameO.none {F : Fld → Bool} {s : State} : SameO F s none := by simp [SameO]

theorem SameO.some {F : Fld → Bool} {s t : State} (h : Same F s t) : SameO F s (some t) := fun _ e => Option.some.inj e ▸ h

/-- The same of a state with a value beside it. -/
@[reducible] def SameOP {α : Type} (F : Fld → Bool) (s : State) (o : Option (α × State)) : Prop := ∀ x u, o = some (x, u) → Same F s u

theorem SameOP.none {α : Type} {F : Fld → Bool} {s : State} : SameOP F s (none : Option (α × State)) := by simp [SameOP]

theorem SameOP.some {α : Type} {F : Fld → Bool} {s : State} {p : α × State} (h : Same F s p.2) : SameOP F s (some p) := by
  intro x u e; cases e; exact h

theorem Same.ite {F : Fld → Bool} {s t u : State} {c : Prop} [Decidable c] (h : Same F s t) (h' : Same F s u) : Same F s (if c then t else u) := by
  split <;> assumption

theorem SameO.ite {F : Fld → Bool} {s : State} {a b : Option State} {c : Prop} [Decidable c] (h : SameO F s a) (h' : SameO F s b) :
    SameO F s (if c then a else b) := by
  split <;> assumption

theorem foldl_same {α : Type} {F : Fld → Bool} {s : State} {f : State → α → State} {l : List α} {t : State}
    (hf : ∀ t x, Same F s t → Same F s (f t x)) (h : Same F s t) : Same F s (l.foldl f t) := by
  induction l generalizing t with
  | nil => exact h
  | cons x l ih => exact ih (hf t x h)

theorem foldl2_same {α β : Type} {F : Fld → Bool} {s : State} {f : β × State → α → β × State} {l : List α} {a : β × State}
    (hf : ∀ a x, Same F s a.2 → Same F s (f a x).2) (h : Same F s a.2) : Same F s (l.foldl f a).2 := by
  induction l generalizing a with
  | nil => exact h
  | cons x l ih => exact ih (hf a x h)

theorem foldl2_same_eq {α β : Type} {F : Fld → Bool} {s : State} {f : β × State → α → β × State} {l : List α} {a : β × State} {x : β} {u : State}
    (hf : ∀ a x, Same F s a.2 → Same F s (f a x).2) (e : l.foldl f a = (x, u)) (h : Same F s a.2) : Same F s u := by
  have := foldl2_same hf h (l := l)
  rw [e] at this; exact this

theorem Same.set_pending {F : Fld → Bool} {s t : State} {v : List Instr} (hF : F .pending = true) (h : Same F s t) : Same F s { t with pending := v } := by
  intro f hf; cases f <;> first | exact h _ hf | simp_all

theorem Same.set_inst {F : Fld → Bool} {s t : State} {v : Inst} (hF : F .inst = true) (h : Same F s t) : Same F s { t with inst := v } := by
  intro f hf; cases f <;> first | exact h _ hf | simp_all

theorem Same.set_ready {F : Fld → Bool} {s t : State} {v : Bool} (hF : F .ready = true) (h : Same F s t) : Same F s { t with ready := v } := by
  intro f hf; cases f <;> first | exact h _ hf | simp_all

theorem Same.set_booting {F : Fld → Bool} {s t : State} {v : Bool} (hF : F .booting = true) (h : Same F s t) : Same F s { t with booting := v } := by
  intro f hf; cases f <;> first | exact h _ hf | simp_all

theorem Same.set_workHeld {F : Fld → Bool} {s t : State} {v : Bool} (hF : F .workHeld = true) (h : Same F s t) : Same F s { t with workHeld := v } := by
  intro f hf; cases f <;> first | exact h _ hf | simp_all

theorem Same.set_port {F : Fld → Bool} {s t : State} {v : Port} (hF : F .port = true) (h : Same F s t) : Same F s { t with port := v } := by
  intro f hf; cases f <;> first | exact h _ hf | simp_all

theorem Same.set_regs {F : Fld → Bool} {s t : State} {v : List (Nat × Word)} (hF : F .regs = true) (h : Same F s t) : Same F s { t with regs := v } := by
  intro f hf; cases f <;> first | exact h _ hf | simp_all

theorem Same.set_parts {F : Fld → Bool} {s t : State} {v : List (Nat × Part)} (hF : F .parts = true) (h : Same F s t) : Same F s { t with parts := v } := by
  intro f hf; cases f <;> first | exact h _ hf | simp_all

theorem Same.set_audit {F : Fld → Bool} {s t : State} {v : Audit} (hF : F .audit = true) (h : Same F s t) : Same F s { t with audit := v } := by
  intro f hf; cases f <;> first | exact h _ hf | simp_all

theorem Same.set_tim {F : Fld → Bool} {s t : State} {v : Time} (hF : F .tim = true) (hr : v.raw = t.tim.raw) (h : Same F s t) : Same F s { t with tim := v } := by
  intro f hf; cases f <;> first | exact h _ hf | exact hr.trans (h _ hf) | simp_all

theorem Same.set_owed {F : Fld → Bool} {s t : State} {v : List Pick} (hF : F .owed = true) (h : Same F s t) : Same F s { t with owed := v } := by
  intro f hf; cases f <;> first | exact h _ hf | simp_all

theorem Same.set_strs {F : Fld → Bool} {s t : State} {v : List (Nat × Strm)} (hF : F .strs = true) (h : Same F s t) : Same F s { t with strs := v } := by
  intro f hf; cases f <;> first | exact h _ hf | simp_all

theorem Same.set_closes {F : Fld → Bool} {s t : State} {v : Nat} (hF : F .closes = true) (h : Same F s t) : Same F s { t with closes := v } := by
  intro f hf; cases f <;> first | exact h _ hf | simp_all

theorem Same.set_bobs {F : Fld → Bool} {s t : State} {v : List (Nat × Bob)} (hF : F .bobs = true) (h : Same F s t) : Same F s { t with bobs := v } := by
  intro f hf; cases f <;> first | exact h _ hf | simp_all

theorem Same.set_wports {F : Fld → Bool} {s t : State} {v : List (Nat × WPort)} (hF : F .wports = true) (h : Same F s t) : Same F s { t with wports := v } := by
  intro f hf; cases f <;> first | exact h _ hf | simp_all

theorem Same.set_rport {F : Fld → Bool} {s t : State} {v : RPort} (hF : F .rport = true) (h : Same F s t) : Same F s { t with rport := v } := by
  intro f hf; cases f <;> first | exact h _ hf | simp_all

theorem Same.set_adopts {F : Fld → Bool} {s t : State} {v : List (Nat × Adopt)} (hF : F .adopts = true) (h : Same F s t) : Same F s { t with adopts := v } := by
  intro f hf; cases f <;> first | exact h _ hf | simp_all

theorem Same.set_exempt {F : Fld → Bool} {s t : State} {v : Nat} (hF : F .exempt = true) (h : Same F s t) : Same F s { t with exempt := v } := by
  intro f hf; cases f <;> first | exact h _ hf | simp_all

theorem Same.set_refused {F : Fld → Bool} {s t : State} {v : List (Nat × Nat)} (hF : F .refused = true) (h : Same F s t) : Same F s { t with refused := v } := by
  intro f hf; cases f <;> first | exact h _ hf | simp_all

theorem Same.set_heds {F : Fld → Bool} {s t : State} {v : List (Nat × HedTrace)} (hF : F .heds = true) (h : Same F s t) : Same F s { t with heds := v } := by
  intro f hf; cases f <;> first | exact h _ hf | simp_all

theorem Same.set_counts {F : Fld → Bool} {s t : State} {v : List (Nat × HedCount)} (hF : F .counts = true) (h : Same F s t) : Same F s { t with counts := v } := by
  intro f hf; cases f <;> first | exact h _ hf | simp_all

theorem Same.set_hedGovs {F : Fld → Bool} {s t : State} {v : List (Nat × HedGov)} (hF : F .hedGovs = true) (h : Same F s t) : Same F s { t with hedGovs := v } := by
  intro f hf; cases f <;> first | exact h _ hf | simp_all

theorem Same.set_reedGovs {F : Fld → Bool} {s t : State} {v : List (Nat × ReedGov)} (hF : F .reedGovs = true) (h : Same F s t) : Same F s { t with reedGovs := v } := by
  intro f hf; cases f <;> first | exact h _ hf | simp_all

theorem Same.set_gov {F : Fld → Bool} {s t : State} {v : Gov} (hF : F .gov = true) (h : Same F s t) : Same F s { t with gov := v } := by
  intro f hf; cases f <;> first | exact h _ hf | simp_all

theorem Same.set_trd {F : Fld → Bool} {s t : State} {v : Treadle} (hF : F .trd = true) (h : Same F s t) : Same F s { t with trd := v } := by
  intro f hf; cases f <;> first | exact h _ hf | simp_all

theorem Same.set_stop {F : Fld → Bool} {s t : State} {v : Stop} (hF : F .stop = true) (h : Same F s t) : Same F s { t with stop := v } := by
  intro f hf; cases f <;> first | exact h _ hf | simp_all

theorem Same.set_hedStops {F : Fld → Bool} {s t : State} {v : List (Nat × HedStop)} (hF : F .hedStops = true) (h : Same F s t) : Same F s { t with hedStops := v } := by
  intro f hf; cases f <;> first | exact h _ hf | simp_all

theorem Same.set_key {F : Fld → Bool} {s t : State} {v : KeyStore} (hF : F .key = true) (h : Same F s t) : Same F s { t with key := v } := by
  intro f hf; cases f <;> first | exact h _ hf | simp_all

theorem Same.set_wits {F : Fld → Bool} {s t : State} {v : List (Nat × WitReed)} (hF : F .wits = true) (h : Same F s t) : Same F s { t with wits := v } := by
  intro f hf; cases f <;> first | exact h _ hf | simp_all

theorem Same.set_cards {F : Fld → Bool} {s t : State} {v : List (Nat × CheckCard)} (hF : F .cards = true) (h : Same F s t) : Same F s { t with cards := v } := by
  intro f hf; cases f <;> first | exact h _ hf | simp_all

theorem Same.set_shadows {F : Fld → Bool} {s t : State} {v : List (Nat × CheckCard)} (hF : F .shadows = true) (h : Same F s t) : Same F s { t with shadows := v } := by
  intro f hf; cases f <;> first | exact h _ hf | simp_all

theorem Same.set_lapsed {F : Fld → Bool} {s t : State} {v : List Nat} (hF : F .lapsed = true) (h : Same F s t) : Same F s { t with lapsed := v } := by
  intro f hf; cases f <;> first | exact h _ hf | simp_all

theorem Same.set_ver {F : Fld → Bool} {s t : State} {v : Verdicts} (hF : F .ver = true) (h : Same F s t) : Same F s { t with ver := v } := by
  intro f hf; cases f <;> first | exact h _ hf | simp_all

theorem Same.set_gates {F : Fld → Bool} {s t : State} {v : List (Nat × HedGate)} (hF : F .gates = true) (h : Same F s t) : Same F s { t with gates := v } := by
  intro f hf; cases f <;> first | exact h _ hf | simp_all

theorem Same.set_tests {F : Fld → Bool} {s t : State} {v : Tests} (hF : F .tests = true) (h : Same F s t) : Same F s { t with tests := v } := by
  intro f hf; cases f <;> first | exact h _ hf | simp_all

theorem Same.set_links {F : Fld → Bool} {s t : State} {v : List (Nat × Link)} (hF : F .links = true) (h : Same F s t) : Same F s { t with links := v } := by
  intro f hf; cases f <;> first | exact h _ hf | simp_all

theorem Same.set_linkTimes {F : Fld → Bool} {s t : State} {v : List (Nat × LinkTime)} (hF : F .linkTimes = true) (h : Same F s t) : Same F s { t with linkTimes := v } := by
  intro f hf; cases f <;> first | exact h _ hf | simp_all

theorem Same.set_servo {F : Fld → Bool} {s t : State} {v : Servo} (hF : F .servo = true) (h : Same F s t) : Same F s { t with servo := v } := by
  intro f hf; cases f <;> first | exact h _ hf | simp_all

theorem Same.set_eth {F : Fld → Bool} {s t : State} {v : Eth} (hF : F .eth = true) (h : Same F s t) : Same F s { t with eth := v } := by
  intro f hf; cases f <;> first | exact h _ hf | simp_all

theorem Same.set_fw {F : Fld → Bool} {s t : State} {v : Fw} (hF : F .fw = true) (h : Same F s t) : Same F s { t with fw := v } := by
  intro f hf; cases f <;> first | exact h _ hf | simp_all

theorem Same.set_cal {F : Fld → Bool} {s t : State} {v : Cal} (hF : F .cal = true) (h : Same F s t) : Same F s { t with cal := v } := by
  intro f hf; cases f <;> first | exact h _ hf | simp_all

theorem Same.set_sens {F : Fld → Bool} {s t : State} {v : List (Nat × List (Nat × BitVec 16))} (hF : F .sens = true) (h : Same F s t) : Same F s { t with sens := v } := by
  intro f hf; cases f <;> first | exact h _ hf | simp_all

theorem Same.set_snsOn {F : Fld → Bool} {s t : State} {v : List (Nat × Word)} (hF : F .snsOn = true) (h : Same F s t) : Same F s { t with snsOn := v } := by
  intro f hf; cases f <;> first | exact h _ hf | simp_all

theorem Same.set_free {F : Fld → Bool} {s t : State} {v : Nat} (hF : F .free = true) (h : Same F s t) : Same F s { t with free := v } := by
  intro f hf; cases f <;> first | exact h _ hf | simp_all

theorem Same.set_salts {F : Fld → Bool} {s t : State} {v : Nat} (hF : F .salts = true) (h : Same F s t) : Same F s { t with salts := v } := by
  intro f hf; cases f <;> first | exact h _ hf | simp_all

theorem takeFree_same {F : Fld → Bool} {s t : State}  (h_free : F .free = true) (h : Same F s t) : Same F s (takeFree t).2 := by
  unfold takeFree
  repeat' (first | with_reducible assumption | with_reducible refine Same.set_free h_free ?_)

theorem takeFree_same_eq {F : Fld → Bool} {s t : State}  (h_free : F .free = true) {x} {u : State} (e : takeFree t = (x, u)) (h : Same F s t) : Same F s u := by
  have := takeFree_same (F := F) (s := s) (t := t)  h_free h
  rw [e] at this; exact this

theorem takeSalt_same {F : Fld → Bool} {s t : State}  (h_salts : F .salts = true) (h : Same F s t) : Same F s (takeSalt t).2 := by
  unfold takeSalt
  repeat' (first | with_reducible assumption | with_reducible refine Same.set_salts h_salts ?_)

theorem takeSalt_same_eq {F : Fld → Bool} {s t : State}  (h_salts : F .salts = true) {x} {u : State} (e : takeSalt t = (x, u)) (h : Same F s t) : Same F s u := by
  have := takeSalt_same (F := F) (s := s) (t := t)  h_salts h
  rw [e] at this; exact this

theorem regPut_same {F : Fld → Bool} {s t : State} {a1 : Nat} {a2 : Nat} {a3 : Word} (h_regs : F .regs = true) (h : Same F s t) : Same F s (regPut t a1 a2 a3) := by
  unfold regPut
  repeat' (first | with_reducible assumption | with_reducible refine Same.set_regs h_regs ?_)

theorem bump_same {F : Fld → Bool} {s t : State} {a1 : Nat} {a2 : Nat} {a3 : Nat} {a4 : Nat} {a5 : Nat} (h_regs : F .regs = true) (h : Same F s t) : Same F s (bump t a1 a2 a3 a4 a5) := by
  unfold bump
  repeat' (first | with_reducible assumption | with_reducible refine regPut_same h_regs ?_)

theorem count_same {F : Fld → Bool} {s t : State} {a1 : Nat} {a2 : Nat} {a3 : Nat} {a4 : Nat} {a5 : Nat} (h_regs : F .regs = true) (h : Same F s t) : Same F s (count t a1 a2 a3 a4 a5) := by
  unfold count
  repeat' (first | with_reducible assumption | with_reducible refine regPut_same h_regs ?_)

theorem regSetFld_same {F : Fld → Bool} {s t : State} {a1 : Nat} {a2 : Nat} {a3 : Nat} {a4 : Nat} {a5 : Nat} (h_regs : F .regs = true) (h : Same F s t) : Same F s (regSetFld t a1 a2 a3 a4 a5) := by
  unfold regSetFld
  repeat' (first | with_reducible assumption | with_reducible refine regPut_same h_regs ?_)

theorem updPart_same {F : Fld → Bool} {s t : State} {a1 : Nat} {a2 : Part → Part} (h_parts : F .parts = true) (h : Same F s t) : Same F s (updPart t a1 a2) := by
  unfold updPart
  repeat' (first | with_reducible assumption | with_reducible refine Same.set_parts h_parts ?_)

theorem transition_same {F : Fld → Bool} {s t : State} {a0 : Nat} {a1 : PState} {a2 : BitVec 8} (h_parts : F .parts = true) (h : Same F s t) : Same F s (transition a0 a1 a2 t) := by
  unfold transition
  repeat' (first | with_reducible assumption | with_reducible refine updPart_same h_parts ?_)

theorem updSrc_same {F : Fld → Bool} {s t : State} {a0 : Nat} {a1 : Src → Src} (h_trd : F .trd = true) (h : Same F s t) : Same F s (updSrc a0 a1 t) := by
  unfold updSrc
  repeat' (first | with_reducible assumption | with_reducible refine Same.set_trd h_trd ?_)

theorem updTgt_same {F : Fld → Bool} {s t : State} {a0 : Nat} {a1 : Tgt → Tgt} (h_trd : F .trd = true) (h : Same F s t) : Same F s (updTgt a0 a1 t) := by
  unfold updTgt
  repeat' (first | with_reducible assumption | with_reducible refine Same.set_trd h_trd ?_)

theorem settleTgt_same {F : Fld → Bool} {s t : State} {a1 : Nat} (h_regs : F .regs = true) (h_trd : F .trd = true) (h : Same F s t) : Same F s (settleTgt t a1) := by
  unfold settleTgt
  repeat' (first | with_reducible assumption | with_reducible refine updTgt_same h_trd ?_ | with_reducible refine bump_same h_regs ?_ | with_reducible refine Same.ite ?_ ?_)

theorem settle_same {F : Fld → Bool} {s t : State}  (h_regs : F .regs = true) (h_trd : F .trd = true) (h : Same F s t) : Same F s (settle t) := by
  unfold settle
  repeat' (first | with_reducible assumption | with_reducible refine settleTgt_same h_regs h_trd ?_ | with_reducible refine foldl_same (fun _ _ _ => ?_) ?_)

theorem srcEvent_same {F : Fld → Bool} {s t : State} {a0 : Nat} {a1 : Nat} {a2 : Bool} (h_trd : F .trd = true) (h : Same F s t) : Same F s (srcEvent a0 a1 a2 t) := by
  unfold srcEvent
  repeat' (first | with_reducible assumption | with_reducible refine updSrc_same h_trd ?_)

theorem srcBatch_same {F : Fld → Bool} {s t : State} {a0 : Nat} (h_trd : F .trd = true) (h : Same F s t) : Same F s (srcBatch a0 t) := by
  unfold srcBatch
  repeat' (first | with_reducible assumption | with_reducible refine updSrc_same h_trd ?_)

theorem withdraw_same {F : Fld → Bool} {s t : State} {a0 : Nat} (h_regs : F .regs = true) (h_trd : F .trd = true) (h : Same F s t) : Same F s (withdraw a0 t) := by
  unfold withdraw
  repeat' (first | with_reducible assumption | with_reducible refine bump_same h_regs ?_ | with_reducible refine updSrc_same h_trd ?_)

theorem srcLevelPend_same {F : Fld → Bool} {s t : State} {a0 : Nat} (h_trd : F .trd = true) (h : Same F s t) : Same F s (srcLevelPend a0 t) := by
  unfold srcLevelPend
  repeat' (first | with_reducible assumption | with_reducible refine updSrc_same h_trd ?_ | with_reducible refine Same.ite ?_ ?_)

theorem raise_same {F : Fld → Bool} {s t : State} {a0 : Nat} (h_regs : F .regs = true) (h_trd : F .trd = true) (h : Same F s t) : Same F s (raise a0 t) := by
  unfold raise
  repeat' (first | with_reducible assumption | with_reducible refine settle_same h_regs h_trd ?_ | with_reducible refine srcEvent_same h_trd ?_ | with_reducible refine updSrc_same h_trd ?_ | with_reducible refine Same.ite ?_ ?_)

theorem recordErr_same {F : Fld → Bool} {s t : State} {a0 : Nat} {a1 : List Nat} (h_regs : F .regs = true) (h : Same F s t) : Same F s (recordErr a0 a1 t) := by
  unfold recordErr
  repeat' (first | with_reducible assumption | with_reducible refine regPut_same h_regs ?_)

theorem setErr_same {F : Fld → Bool} {s t : State} {a0 : Nat} {a1 : Nat} (h_regs : F .regs = true) (h_trd : F .trd = true) (h : Same F s t) : Same F s (setErr a0 a1 t) := by
  unfold setErr
  repeat' (first | with_reducible assumption | with_reducible refine recordErr_same h_regs ?_ | with_reducible refine raise_same h_regs h_trd ?_ | with_reducible refine Same.ite ?_ ?_)

theorem setPortErr_same {F : Fld → Bool} {s t : State} {a0 : Nat} {a1 : Nat} (h_regs : F .regs = true) (h_trd : F .trd = true) (h : Same F s t) : Same F s (setPortErr a0 a1 t) := by
  unfold setPortErr
  repeat' (first | with_reducible assumption | with_reducible refine recordErr_same h_regs ?_ | with_reducible refine raise_same h_regs h_trd ?_ | with_reducible refine Same.ite ?_ ?_)

theorem acceptLevel_same {F : Fld → Bool} {s t : State} {a0 : Nat} (h_regs : F .regs = true) (h_trd : F .trd = true) (h : Same F s t) : Same F s (acceptLevel a0 t) := by
  unfold acceptLevel
  repeat' (first | with_reducible assumption | with_reducible refine updSrc_same h_trd ?_ | with_reducible refine srcEvent_same h_trd ?_ | with_reducible refine srcLevelPend_same h_trd ?_ | with_reducible refine withdraw_same h_regs h_trd ?_ | dsimp only | split)

theorem endRun_same {F : Fld → Bool} {s t : State} {a0 : Nat} (h_regs : F .regs = true) (h_trd : F .trd = true) (h : Same F s t) : Same F s (endRun a0 t) := by
  unfold endRun
  repeat' (first | with_reducible assumption | with_reducible refine acceptLevel_same h_regs h_trd ?_ | with_reducible refine updSrc_same h_trd ?_ | with_reducible refine bump_same h_regs ?_ | dsimp only | split)

theorem inputEdge_same {F : Fld → Bool} {s t : State} {a0 : Nat} {a1 : Bool} (h_regs : F .regs = true) (h_trd : F .trd = true) (h : Same F s t) : Same F s (inputEdge a0 a1 t) := by
  unfold inputEdge
  repeat' (first | with_reducible assumption | with_reducible refine endRun_same h_regs h_trd ?_ | with_reducible refine updSrc_same h_trd ?_ | with_reducible refine settle_same h_regs h_trd ?_ | with_reducible refine Same.ite ?_ ?_)

theorem reportLatch_same {F : Fld → Bool} {s t : State} {a0 : Nat} (h_regs : F .regs = true) (h_trd : F .trd = true) (h : Same F s t) : Same F s (reportLatch a0 t) := by
  unfold reportLatch
  repeat' (first | with_reducible assumption | with_reducible refine bump_same h_regs ?_ | with_reducible refine updSrc_same h_trd ?_ | with_reducible refine srcEvent_same h_trd ?_ | dsimp only | split)

theorem restartRun_same {F : Fld → Bool} {s t : State} {a0 : Nat} (h_regs : F .regs = true) (h_trd : F .trd = true) (h : Same F s t) : Same F s (restartRun a0 t) := by
  unfold restartRun
  repeat' (first | with_reducible assumption | with_reducible refine updSrc_same h_trd ?_ | with_reducible refine bump_same h_regs ?_ | with_reducible refine Same.ite ?_ ?_)

theorem reportLatches_same {F : Fld → Bool} {s t : State}  (h_regs : F .regs = true) (h_trd : F .trd = true) (h : Same F s t) : Same F s (reportLatches t) := by
  unfold reportLatches
  repeat' (first | with_reducible assumption | with_reducible refine settle_same h_regs h_trd ?_ | with_reducible refine restartRun_same h_regs h_trd ?_ | with_reducible refine reportLatch_same h_regs h_trd ?_ | with_reducible refine foldl_same (fun _ _ _ => ?_) ?_)

theorem wakeUp_same {F : Fld → Bool} {s t : State} {a0 : Nat} {a1 : Nat} (h_regs : F .regs = true) (h_trd : F .trd = true) (h : Same F s t) : Same F s (wakeUp a0 a1 t) := by
  unfold wakeUp
  repeat' (first | with_reducible assumption | with_reducible refine reportLatches_same h_regs h_trd ?_ | with_reducible refine bump_same h_regs ?_ | with_reducible refine Same.set_trd h_trd ?_)

theorem claim_same {F : Fld → Bool} {s t : State} {a0 : Nat} (h_regs : F .regs = true) (h_trd : F .trd = true) (h : Same F s t) : Same F s (claim a0 t).2 := by
  unfold claim
  repeat' (first | with_reducible assumption | with_reducible refine updSrc_same h_trd ?_ | with_reducible refine updTgt_same h_trd ?_ | with_reducible refine settle_same h_regs h_trd ?_ | with_reducible refine bump_same h_regs ?_ | split)

theorem claim_same_eq {F : Fld → Bool} {s t : State} {a0 : Nat} (h_regs : F .regs = true) (h_trd : F .trd = true) {x} {u : State} (e : claim a0 t = (x, u)) (h : Same F s t) : Same F s u := by
  have := claim_same (F := F) (s := s) (t := t) (a0 := a0) h_regs h_trd h
  rw [e] at this; exact this

theorem complete_same {F : Fld → Bool} {s t : State} {a0 : Nat} {a1 : Nat} (h_regs : F .regs = true) (h_trd : F .trd = true) (h : Same F s t) : SameO F s (complete a0 a1 t) := by
  unfold complete
  split
  · exact SameO.none
  · split
    · exact SameO.none
    · split
      · exact SameO.none
      · extract_lets s1 s2 x s3
        have h1 : Same F s s1 := updTgt_same h_trd h
        have h2 : Same F s s2 := updSrc_same h_trd h1
        have h3 : Same F s s3 := by
          show Same F s (if _ then updSrc a1 _ s2 else s2)
          split
          · exact updSrc_same h_trd h2
          · exact h2
        exact SameO.some (settle_same h_regs h_trd h3)

theorem completeRefused_same {F : Fld → Bool} {s t : State} {a0 : Nat} {a1 : Nat} (h_regs : F .regs = true) (h_trd : F .trd = true) (h : Same F s t) : Same F s (completeRefused a0 a1 t) := by
  unfold completeRefused
  repeat' (first | with_reducible assumption | with_reducible refine bump_same h_regs ?_ | with_reducible refine setErr_same h_regs h_trd ?_ | with_reducible refine Same.ite ?_ ?_)

theorem doorbell_same {F : Fld → Bool} {s t : State} {a0 : Nat} (h_regs : F .regs = true) (h_trd : F .trd = true) (h : Same F s t) : SameO F s (doorbell a0 t) := by
  unfold doorbell
  repeat' (first | with_reducible assumption | with_reducible refine wakeUp_same h_regs h_trd ?_ | with_reducible refine settle_same h_regs h_trd ?_ | with_reducible refine srcEvent_same h_trd ?_ | with_reducible exact SameO.none | with_reducible refine SameO.some ?_ | split)

theorem pendingSet_same {F : Fld → Bool} {s t : State} {a0 : Nat} {a1 : Word} (h_regs : F .regs = true) (h_trd : F .trd = true) (h : Same F s t) : Same F s (pendingSet a0 a1 t) := by
  unfold pendingSet
  repeat' (first | with_reducible assumption | with_reducible refine settle_same h_regs h_trd ?_ | with_reducible refine updSrc_same h_trd ?_ | with_reducible refine foldl_same (fun _ _ _ => ?_) ?_ | with_reducible refine Same.ite ?_ ?_)

theorem pendingClr_same {F : Fld → Bool} {s t : State} {a0 : Nat} {a1 : Word} (h_regs : F .regs = true) (h_trd : F .trd = true) (h : Same F s t) : Same F s (pendingClr a0 a1 t) := by
  unfold pendingClr
  repeat' (first | with_reducible assumption | with_reducible refine settle_same h_regs h_trd ?_ | with_reducible refine srcLevelPend_same h_trd ?_ | with_reducible refine updSrc_same h_trd ?_ | with_reducible refine foldl_same (fun _ _ _ => ?_) ?_ | with_reducible refine Same.ite ?_ ?_)

theorem dozeWrite_same {F : Fld → Bool} {s t : State} {a0 : Bool} (h_regs : F .regs = true) (h_trd : F .trd = true) (h : Same F s t) : SameO F s (dozeWrite a0 t) := by
  unfold dozeWrite
  repeat' (first | with_reducible assumption | with_reducible refine settle_same h_regs h_trd ?_ | with_reducible refine reportLatches_same h_regs h_trd ?_ | with_reducible exact SameO.none | with_reducible refine SameO.some ?_ | with_reducible refine SameO.ite ?_ ?_ | with_reducible refine Same.set_trd h_trd ?_)

theorem srcWrite_same {F : Fld → Bool} {s t : State} {a0 : Nat} {a1 : Word} (h_regs : F .regs = true) (h_trd : F .trd = true) (h : Same F s t) : SameO F s (srcWrite a0 a1 t) := by
  unfold srcWrite
  repeat' (first | with_reducible assumption | with_reducible refine regPut_same h_regs ?_ | with_reducible refine updSrc_same h_trd ?_ | with_reducible refine withdraw_same h_regs h_trd ?_ | with_reducible refine settle_same h_regs h_trd ?_ | with_reducible refine srcLevelPend_same h_trd ?_ | with_reducible refine restartRun_same h_regs h_trd ?_ | with_reducible exact SameO.none | with_reducible refine SameO.some ?_ | with_reducible refine SameO.ite ?_ ?_ | split)

theorem updStrm_same {F : Fld → Bool} {s t : State} {a0 : Nat} {a1 : Strm → Strm} (h_strs : F .strs = true) (h : Same F s t) : Same F s (updStrm a0 a1 t) := by
  unfold updStrm
  repeat' (first | with_reducible assumption | with_reducible refine Same.set_strs h_strs ?_)

theorem updAdopt_same {F : Fld → Bool} {s t : State} {a0 : Nat} {a1 : Adopt → Adopt} (h_adopts : F .adopts = true) (h : Same F s t) : Same F s (updAdopt a0 a1 t) := by
  unfold updAdopt
  repeat' (first | with_reducible assumption | with_reducible refine Same.set_adopts h_adopts ?_)

theorem updBob_same {F : Fld → Bool} {s t : State} {a0 : Nat} {a1 : Bob → Bob} (h_bobs : F .bobs = true) (h : Same F s t) : Same F s (updBob a0 a1 t) := by
  unfold updBob
  repeat' (first | with_reducible assumption | with_reducible refine Same.set_bobs h_bobs ?_)

theorem closeRun_same {F : Fld → Bool} {s t : State} {a0 : Nat} (h_strs : F .strs = true) (h_closes : F .closes = true) (h : Same F s t) : Same F s (closeRun a0 t) := by
  unfold closeRun
  repeat' (first | with_reducible assumption | with_reducible refine updStrm_same h_strs ?_ | split | with_reducible refine Same.set_closes h_closes ?_)

theorem growRuns_same {F : Fld → Bool} {s t : State} {a0 : Nat} {a1 : Nat} {a2 : Nat} (h_strs : F .strs = true) (h_closes : F .closes = true) (h : Same F s t) : Same F s (growRuns a0 a1 a2 t) := by
  unfold growRuns
  repeat' (first | with_reducible assumption | with_reducible refine closeRun_same h_strs h_closes ?_ | with_reducible refine updStrm_same h_strs ?_ | (extract_lets +onlyGivenNames x; refine (fun (hx : Same F s x) => ?_) ?_; rotate_left; dsimp only [x]; clear x; rotate_right; clear_value x) | split)

theorem noteKind_same {F : Fld → Bool} {s t : State} {a0 : Nat} (h_regs : F .regs = true) (h_trd : F .trd = true) (h : Same F s t) : Same F s (noteKind a0 t) := by
  unfold noteKind
  repeat' (first | with_reducible assumption | with_reducible refine setErr_same h_regs h_trd ?_ | with_reducible refine Same.ite ?_ ?_)

theorem acceptRec_same {F : Fld → Bool} {s t : State} {a0 : Nat} {a1 : Pick} (h_regs : F .regs = true) (h_strs : F .strs = true) (h_closes : F .closes = true) (h_trd : F .trd = true) (h : Same F s t) : Same F s (acceptRec a0 a1 t) := by
  unfold acceptRec
  repeat' (first | with_reducible assumption | with_reducible refine growRuns_same h_strs h_closes ?_ | with_reducible refine updStrm_same h_strs ?_ | with_reducible refine noteKind_same h_regs h_trd ?_ | with_reducible refine Same.ite ?_ ?_)

theorem reformRuns_same {F : Fld → Bool} {s t : State} {a0 : Nat} (h_strs : F .strs = true) (h_closes : F .closes = true) (h : Same F s t) : Same F s (reformRuns a0 t) := by
  unfold reformRuns
  repeat' (first | with_reducible assumption | with_reducible refine updStrm_same h_strs ?_ | with_reducible refine growRuns_same h_strs h_closes ?_ | with_reducible refine foldl_same (fun _ _ _ => ?_) ?_)

theorem updSlot_same {F : Fld → Bool} {s t : State} {a0 : Nat} {a1 : KSlot → KSlot} (h_key : F .key = true) (h : Same F s t) : Same F s (updSlot a0 a1 t) := by
  unfold updSlot
  repeat' (first | with_reducible assumption | with_reducible refine Same.set_key h_key ?_)

theorem takeHead_same {F : Fld → Bool} {s t : State} {a0 : Nat} {a1 : BitVec 8} (h_key : F .key = true) (h : Same F s t) : Same F s (takeHead a0 a1 t).2 := by
  unfold takeHead
  repeat' (first | with_reducible assumption | with_reducible refine updSlot_same h_key ?_)

theorem takeHead_same_eq {F : Fld → Bool} {s t : State} {a0 : Nat} {a1 : BitVec 8} (h_key : F .key = true) {x} {u : State} (e : takeHead a0 a1 t = (x, u)) (h : Same F s t) : Same F s u := by
  have := takeHead_same (F := F) (s := s) (t := t) (a0 := a0) (a1 := a1) h_key h
  rw [e] at this; exact this

theorem bobBlock_same {F : Fld → Bool} {s t : State} {a0 : Nat} {a1 : BitVec 32} {a2 : Bool} {a3 : Nat} {a4 : Nat} {a5 : List Rec} (h_bobs : F .bobs = true) (h_key : F .key = true) (h : Same F s t) : Same F s (bobBlock a0 a1 a2 a3 a4 a5 t).2 := by
  unfold bobBlock
  repeat' (first | with_reducible assumption | with_reducible refine takeHead_same h_key ?_ | with_reducible refine updBob_same h_bobs ?_ | dsimp only | split)

theorem bobBlock_same_eq {F : Fld → Bool} {s t : State} {a0 : Nat} {a1 : BitVec 32} {a2 : Bool} {a3 : Nat} {a4 : Nat} {a5 : List Rec} (h_bobs : F .bobs = true) (h_key : F .key = true) {x} {u : State} (e : bobBlock a0 a1 a2 a3 a4 a5 t = (x, u)) (h : Same F s t) : Same F s u := by
  have := bobBlock_same (F := F) (s := s) (t := t) (a0 := a0) (a1 := a1) (a2 := a2) (a3 := a3) (a4 := a4) (a5 := a5) h_bobs h_key h
  rw [e] at this; exact this

theorem updPort_same {F : Fld → Bool} {s t : State} {a0 : Nat} {a1 : WPort → WPort} (h_wports : F .wports = true) (h : Same F s t) : Same F s (updPort a0 a1 t) := by
  unfold updPort
  repeat' (first | with_reducible assumption | with_reducible refine Same.set_wports h_wports ?_)

theorem sendBlock_same {F : Fld → Bool} {s t : State} {a0 : Nat} {a1 : Nat} {a2 : BlkRef} (h_wports : F .wports = true) (h : Same F s t) : Same F s (sendBlock a0 a1 a2 t) := by
  unfold sendBlock
  repeat' (first | with_reducible assumption | with_reducible refine updPort_same h_wports ?_)

theorem fillEvent_same {F : Fld → Bool} {s t : State} {a0 : Nat} (h_regs : F .regs = true) (h_trd : F .trd = true) (h : Same F s t) : Same F s (fillEvent a0 t) := by
  unfold fillEvent
  repeat' (first | with_reducible assumption | with_reducible refine raise_same h_regs h_trd ?_ | with_reducible refine Same.ite ?_ ?_)

theorem countFenced_same {F : Fld → Bool} {s t : State} {a0 : Nat} (h_key : F .key = true) (h : Same F s t) : Same F s (countFenced a0 t) := by
  unfold countFenced
  repeat' (first | with_reducible assumption | with_reducible refine updSlot_same h_key ?_ | split)

theorem claimIdx_same {F : Fld → Bool} {s t : State} {a0 : Nat} {a1 : BitVec 32 → Slot} (h_regs : F .regs = true) (h_bobs : F .bobs = true) (h_trd : F .trd = true) (h : Same F s t) : Same F s (claimIdx a0 a1 t) := by
  unfold claimIdx
  repeat' (first | with_reducible assumption | with_reducible refine bump_same h_regs ?_ | with_reducible refine updBob_same h_bobs ?_ | with_reducible refine fillEvent_same h_regs h_trd ?_ | with_reducible refine Same.ite ?_ ?_)

theorem issueRun_same {F : Fld → Bool} {s t : State} {a0 : Nat} {a1 : Nat} {a2 : Nat} (h_regs : F .regs = true) (h_strs : F .strs = true) (h_bobs : F .bobs = true) (h_wports : F .wports = true) (h_exempt : F .exempt = true) (h_trd : F .trd = true) (h_key : F .key = true) (h : Same F s t) : Same F s (issueRun a0 a1 a2 t) := by
  unfold issueRun
  repeat' (first | with_reducible assumption | with_reducible refine bobBlock_same h_bobs h_key ?_ | with_reducible refine claimIdx_same h_regs h_bobs h_trd ?_ | with_reducible refine updStrm_same h_strs ?_ | with_reducible refine sendBlock_same h_wports ?_ | with_reducible refine bump_same h_regs ?_ | with_reducible refine countFenced_same h_key ?_ | split | with_reducible refine Same.set_exempt h_exempt ?_)

theorem issueSlot_same {F : Fld → Bool} {s t : State} {a0 : Nat} {a1 : Nat} {a2 : Nat} {a3 : Slot} (h_regs : F .regs = true) (h_bobs : F .bobs = true) (h_wports : F .wports = true) (h_exempt : F .exempt = true) (h_key : F .key = true) (h : Same F s t) : Same F s (issueSlot a0 a1 a2 a3 t) := by
  unfold issueSlot
  repeat' (first | with_reducible assumption | with_reducible refine bobBlock_same h_bobs h_key ?_ | with_reducible refine updBob_same h_bobs ?_ | with_reducible refine sendBlock_same h_wports ?_ | with_reducible refine bump_same h_regs ?_ | with_reducible refine countFenced_same h_key ?_ | with_reducible refine Same.ite ?_ ?_ | split | with_reducible refine Same.set_exempt h_exempt ?_)

theorem noteFull_same {F : Fld → Bool} {s t : State} {a0 : Nat} (h_regs : F .regs = true) (h_bobs : F .bobs = true) (h : Same F s t) : Same F s (noteFull a0 t) := by
  unfold noteFull
  repeat' (first | with_reducible assumption | with_reducible refine bump_same h_regs ?_ | with_reducible refine updBob_same h_bobs ?_ | with_reducible refine Same.ite ?_ ?_)

theorem issueFirst_same {F : Fld → Bool} {s t : State} {a0 : Nat} {a1 : Nat} {a2 : List Nat} (h_regs : F .regs = true) (h_strs : F .strs = true) (h_bobs : F .bobs = true) (h_wports : F .wports = true) (h_exempt : F .exempt = true) (h_trd : F .trd = true) (h_key : F .key = true) (h : Same F s t) : Same F s (issueFirst a0 a1 a2 t) := by
  induction a2 generalizing t with
  | nil => exact h
  | cons n l ih =>
    unfold issueFirst
    repeat' (first | with_reducible assumption | (with_reducible refine ih ?_) | with_reducible refine issueRun_same h_regs h_strs h_bobs h_wports h_exempt h_trd h_key ?_ | with_reducible refine noteFull_same h_regs h_bobs ?_ | with_reducible refine noteKind_same h_regs h_trd ?_ | with_reducible refine Same.ite ?_ ?_)

theorem issueNext_same {F : Fld → Bool} {s t : State} {a0 : Nat} (h_regs : F .regs = true) (h_strs : F .strs = true) (h_bobs : F .bobs = true) (h_wports : F .wports = true) (h_exempt : F .exempt = true) (h_trd : F .trd = true) (h_key : F .key = true) (h : Same F s t) : Same F s (issueNext a0 t) := by
  unfold issueNext
  repeat' (first | with_reducible assumption | with_reducible refine issueSlot_same h_regs h_bobs h_wports h_exempt h_key ?_ | with_reducible refine issueFirst_same h_regs h_strs h_bobs h_wports h_exempt h_trd h_key ?_ | dsimp only | split)

theorem advanceHead_same {F : Fld → Bool} {s t : State} {a0 : Nat} (h_bobs : F .bobs = true) (h : Same F s t) : Same F s (advanceHead a0 t) := by
  unfold advanceHead
  repeat' (first | with_reducible assumption | with_reducible refine updBob_same h_bobs ?_ | with_reducible refine Same.ite ?_ ?_)

theorem faultBob_same {F : Fld → Bool} {s t : State} {a0 : Nat} {a1 : Nat} (h_regs : F .regs = true) (h_bobs : F .bobs = true) (h_trd : F .trd = true) (h : Same F s t) : Same F s (faultBob a0 a1 t) := by
  unfold faultBob
  repeat' (first | with_reducible assumption | with_reducible refine raise_same h_regs h_trd ?_ | with_reducible refine setErr_same h_regs h_trd ?_ | with_reducible refine bump_same h_regs ?_ | with_reducible refine updBob_same h_bobs ?_ | with_reducible refine Same.ite ?_ ?_)

theorem requeue_same {F : Fld → Bool} {s t : State} {a0 : Nat} (h_strs : F .strs = true) (h : Same F s t) : Same F s (requeue a0 t) := by
  unfold requeue
  repeat' (first | with_reducible assumption | with_reducible refine updStrm_same h_strs ?_)

theorem commitTaken_same {F : Fld → Bool} {s t : State} {a0 : Nat} (h_strs : F .strs = true) (h : Same F s t) : Same F s (commitTaken a0 t) := by
  unfold commitTaken
  repeat' (first | with_reducible assumption | with_reducible refine updStrm_same h_strs ?_)

theorem completePast_same {F : Fld → Bool} {s t : State} {a0 : Nat} {a1 : Option Nat} {a2 : Bool} (h_strs : F .strs = true) (h_bobs : F .bobs = true) (h : Same F s t) : Same F s (completePast a0 a1 a2 t) := by
  unfold completePast
  repeat' (first | with_reducible assumption | with_reducible refine updBob_same h_bobs ?_ | with_reducible refine commitTaken_same h_strs ?_ | with_reducible refine requeue_same h_strs ?_ | split)

theorem completeBob_same {F : Fld → Bool} {s t : State} {a0 : Nat} {a1 : Nat} {a2 : BitVec 32} {a3 : Bool} (h_regs : F .regs = true) (h_strs : F .strs = true) (h_bobs : F .bobs = true) (h_trd : F .trd = true) (h : Same F s t) : Same F s (completeBob a0 a1 a2 a3 t) := by
  dsimp only [completeBob]
  repeat' (first | with_reducible assumption | with_reducible refine updBob_same h_bobs ?_ | with_reducible refine advanceHead_same h_bobs ?_ | with_reducible refine commitTaken_same h_strs ?_ | with_reducible refine faultBob_same h_regs h_bobs h_trd ?_ | split)

theorem releaseBob_same {F : Fld → Bool} {s t : State} {a0 : Nat} (h_strs : F .strs = true) (h_bobs : F .bobs = true) (h : Same F s t) : Same F s (releaseBob a0 t) := by
  unfold releaseBob
  repeat' (first | with_reducible assumption | with_reducible refine updBob_same h_bobs ?_ | with_reducible refine updStrm_same h_strs ?_ | with_reducible refine advanceHead_same h_bobs ?_ | split)

theorem shadowAck_same {F : Fld → Bool} {s t : State} {a0 : Nat} (h_bobs : F .bobs = true) (h : Same F s t) : Same F s (shadowAck a0 t) := by
  unfold shadowAck
  repeat' (first | with_reducible assumption | with_reducible refine updBob_same h_bobs ?_ | with_reducible refine Same.ite ?_ ?_)

theorem closeBobs_same {F : Fld → Bool} {s t : State} {a0 : List Nat} (h_strs : F .strs = true) (h_closes : F .closes = true) (h : Same F s t) : Same F s (closeBobs a0 t) := by
  unfold closeBobs
  repeat' (first | with_reducible assumption | with_reducible refine closeRun_same h_strs h_closes ?_ | with_reducible refine foldl_same (fun _ _ _ => ?_) ?_)

theorem loseIds_same {F : Fld → Bool} {s t : State} {a0 : Nat} (h_regs : F .regs = true) (h_heds : F .heds = true) (h_trd : F .trd = true) (h : Same F s t) : Same F s (loseIds a0 t) := by
  unfold loseIds
  repeat' (first | with_reducible assumption | with_reducible refine setErr_same h_regs h_trd ?_ | with_reducible refine bump_same h_regs ?_ | split | with_reducible refine Same.set_heds h_heds ?_)

theorem enterServing_same {F : Fld → Bool} {s t : State} {a0 : Nat} (h_regs : F .regs = true) (h_trd : F .trd = true) (h : Same F s t) : Same F s (enterServing a0 t) := by
  unfold enterServing
  repeat' (first | with_reducible assumption | with_reducible refine count_same h_regs ?_ | with_reducible refine raise_same h_regs h_trd ?_ | with_reducible refine regSetFld_same h_regs ?_)

theorem dropReads_same {F : Fld → Bool} {s t : State} {a0 : ReadFor → Bool} (h_rport : F .rport = true) (h : Same F s t) : Same F s (dropReads a0 t) := by
  unfold dropReads
  repeat' (first | with_reducible assumption | with_reducible refine Same.set_rport h_rport ?_)

theorem beginScan_same {F : Fld → Bool} {s t : State} {a0 : Nat} {a1 : Nat} (h_bobs : F .bobs = true) (h_adopts : F .adopts = true) (h : Same F s t) : Same F s (beginScan a0 a1 t) := by
  unfold beginScan
  repeat' (first | with_reducible assumption | with_reducible refine updBob_same h_bobs ?_ | with_reducible refine updAdopt_same h_adopts ?_)

theorem dropAdoption_same {F : Fld → Bool} {s t : State} {a0 : Nat} (h_regs : F .regs = true) (h_bobs : F .bobs = true) (h_rport : F .rport = true) (h_adopts : F .adopts = true) (h_heds : F .heds = true) (h_trd : F .trd = true) (h : Same F s t) : Same F s (dropAdoption a0 t) := by
  unfold dropAdoption
  repeat' (first | with_reducible assumption | with_reducible refine bump_same h_regs ?_ | with_reducible refine updBob_same h_bobs ?_ | with_reducible refine loseIds_same h_regs h_heds h_trd ?_ | with_reducible refine setErr_same h_regs h_trd ?_ | with_reducible refine updAdopt_same h_adopts ?_ | with_reducible refine dropReads_same h_rport ?_ | with_reducible refine foldl_same (fun _ _ _ => ?_) ?_ | with_reducible refine Same.ite ?_ ?_)

theorem handOver_same {F : Fld → Bool} {s t : State} {a0 : Nat} (h_strs : F .strs = true) (h_closes : F .closes = true) (h : Same F s t) : Same F s (handOver a0 t) := by
  unfold handOver
  repeat' (first | with_reducible assumption | with_reducible refine reformRuns_same h_strs h_closes ?_ | with_reducible refine foldl_same (fun _ _ _ => ?_) ?_)

theorem awaitPort_same {F : Fld → Bool} {s t : State} {a0 : Nat} {a1 : Nat} (h_adopts : F .adopts = true) (h : Same F s t) : Same F s (awaitPort a0 a1 t) := by
  unfold awaitPort
  repeat' (first | with_reducible assumption | with_reducible refine updAdopt_same h_adopts ?_)

theorem startRehome_same {F : Fld → Bool} {s t : State} {a0 : Nat} {a1 : Bool} (h_regs : F .regs = true) (h_strs : F .strs = true) (h_closes : F .closes = true) (h_bobs : F .bobs = true) (h_adopts : F .adopts = true) (h_trd : F .trd = true) (h : Same F s t) : Same F s (startRehome a0 a1 t) := by
  unfold startRehome
  repeat' (first | with_reducible assumption | with_reducible refine updAdopt_same h_adopts ?_ | with_reducible refine setErr_same h_regs h_trd ?_ | with_reducible refine updBob_same h_bobs ?_ | with_reducible refine enterServing_same h_regs h_trd ?_ | with_reducible refine handOver_same h_strs h_closes ?_ | with_reducible refine awaitPort_same h_adopts ?_ | with_reducible refine foldl_same (fun _ _ _ => ?_) ?_ | dsimp only | split)

theorem portIdle_same {F : Fld → Bool} {s t : State} {a0 : Nat} (h_regs : F .regs = true) (h_strs : F .strs = true) (h_bobs : F .bobs = true) (h_wports : F .wports = true) (h_adopts : F .adopts = true) (h_trd : F .trd = true) (h : Same F s t) : Same F s (portIdle a0 t) := by
  unfold portIdle
  repeat' (first | with_reducible assumption | with_reducible refine updPort_same h_wports ?_ | with_reducible refine completeBob_same h_regs h_strs h_bobs h_trd ?_ | with_reducible refine completePast_same h_strs h_bobs ?_ | with_reducible refine updAdopt_same h_adopts ?_ | with_reducible refine beginScan_same h_bobs h_adopts ?_ | with_reducible refine foldl_same (fun _ _ _ => ?_) ?_ | with_reducible refine Same.ite ?_ ?_ | split)

theorem scanRead_same {F : Fld → Bool} {s t : State} {a0 : Nat} {a1 : Nat} {a2 : Nat} {a3 : Nat} {a4 : Option Block} (h_regs : F .regs = true) (h_bobs : F .bobs = true) (h_rport : F .rport = true) (h_adopts : F .adopts = true) (h_trd : F .trd = true) (h : Same F s t) : Same F s (scanRead a0 a1 a2 a3 a4 t) := by
  unfold scanRead
  repeat' (first | with_reducible assumption | with_reducible refine updAdopt_same h_adopts ?_ | with_reducible refine faultBob_same h_regs h_bobs h_trd ?_ | with_reducible refine setErr_same h_regs h_trd ?_ | with_reducible refine dropReads_same h_rport ?_ | split)

theorem rebuildSlot_same {F : Fld → Bool} {s t : State} {a0 : List Nat} {a1 : Nat} {a2 : Scanned} (h_bobs : F .bobs = true) (h : Same F s t) : Same F s (rebuildSlot a0 a1 a2 t) := by
  unfold rebuildSlot
  repeat' (first | with_reducible assumption | with_reducible refine updBob_same h_bobs ?_ | split)

theorem rebuildBob_same {F : Fld → Bool} {s t : State} {a0 : Nat} {a1 : List Nat} {a2 : Nat} (h_bobs : F .bobs = true) (h : Same F s t) : Same F s (rebuildBob a0 a1 a2 t) := by
  unfold rebuildBob
  repeat' (first | with_reducible assumption | with_reducible refine rebuildSlot_same h_bobs ?_ | with_reducible refine advanceHead_same h_bobs ?_ | with_reducible refine updBob_same h_bobs ?_ | with_reducible refine foldl_same (fun _ _ _ => ?_) ?_ | split)

theorem beginReturn_same {F : Fld → Bool} {s t : State} {a0 : Nat} (h_strs : F .strs = true) (h_closes : F .closes = true) (h_adopts : F .adopts = true) (h : Same F s t) : Same F s (beginReturn a0 t) := by
  unfold beginReturn
  repeat' (first | with_reducible assumption | with_reducible refine closeBobs_same h_strs h_closes ?_ | with_reducible refine updAdopt_same h_adopts ?_ | with_reducible refine Same.ite ?_ ?_)

theorem scanDone_same {F : Fld → Bool} {s t : State} {a0 : Nat} (h_regs : F .regs = true) (h_strs : F .strs = true) (h_closes : F .closes = true) (h_bobs : F .bobs = true) (h_adopts : F .adopts = true) (h_trd : F .trd = true) (h : Same F s t) : Same F s (scanDone a0 t) := by
  unfold scanDone
  repeat' (first | with_reducible assumption | with_reducible refine rebuildBob_same h_bobs ?_ | with_reducible refine updAdopt_same h_adopts ?_ | with_reducible refine beginReturn_same h_strs h_closes h_adopts ?_ | with_reducible refine enterServing_same h_regs h_trd ?_ | with_reducible refine foldl_same (fun _ _ _ => ?_) ?_ | with_reducible refine Same.ite ?_ ?_)

theorem releaseRebuilt_same {F : Fld → Bool} {s t : State} {a0 : Nat} {a1 : Nat} (h_bobs : F .bobs = true) (h : Same F s t) : Same F s (releaseRebuilt a0 a1 t) := by
  unfold releaseRebuilt
  repeat' (first | with_reducible assumption | with_reducible refine advanceHead_same h_bobs ?_ | with_reducible refine updBob_same h_bobs ?_)

theorem runReport_same {F : Fld → Bool} {s t : State} {a0 : Nat} {a1 : Nat} (h_regs : F .regs = true) (h_strs : F .strs = true) (h_closes : F .closes = true) (h_bobs : F .bobs = true) (h_adopts : F .adopts = true) (h : Same F s t) : Same F s (runReport a0 a1 t) := by
  unfold runReport
  repeat' (first | with_reducible assumption | with_reducible refine updStrm_same h_strs ?_ | with_reducible refine updAdopt_same h_adopts ?_ | with_reducible refine reformRuns_same h_strs h_closes ?_ | with_reducible refine releaseRebuilt_same h_bobs ?_ | with_reducible refine bump_same h_regs ?_ | with_reducible refine foldl_same (fun _ _ _ => ?_) ?_ | with_reducible refine Same.ite ?_ ?_ | split)

theorem handBack_same {F : Fld → Bool} {s t : State} {a0 : Nat} (h_regs : F .regs = true) (h_strs : F .strs = true) (h_closes : F .closes = true) (h_bobs : F .bobs = true) (h_adopts : F .adopts = true) (h_trd : F .trd = true) (h : Same F s t) : Same F s (handBack a0 t) := by
  unfold handBack
  repeat' (first | with_reducible assumption | with_reducible refine raise_same h_regs h_trd ?_ | with_reducible refine handOver_same h_strs h_closes ?_ | with_reducible refine updBob_same h_bobs ?_ | with_reducible refine updAdopt_same h_adopts ?_ | with_reducible refine foldl_same (fun _ _ _ => ?_) ?_ | with_reducible refine Same.ite ?_ ?_)

theorem beginDrain_same {F : Fld → Bool} {s t : State} {a0 : Nat} (h_strs : F .strs = true) (h_closes : F .closes = true) (h_wports : F .wports = true) (h : Same F s t) : Same F s (beginDrain a0 t) := by
  unfold beginDrain
  repeat' (first | with_reducible assumption | with_reducible refine closeBobs_same h_strs h_closes ?_ | with_reducible refine updPort_same h_wports ?_)

theorem restartRing_same {F : Fld → Bool} {s t : State} {a0 : Nat} (h_strs : F .strs = true) (h_bobs : F .bobs = true) (h_wports : F .wports = true) (h : Same F s t) : Same F s (restartRing a0 t) := by
  unfold restartRing
  repeat' (first | with_reducible assumption | with_reducible refine updPort_same h_wports ?_ | with_reducible refine requeue_same h_strs ?_ | with_reducible refine updBob_same h_bobs ?_ | with_reducible refine foldl_same (fun _ _ _ => ?_) ?_ | split)

theorem bobEnable_same {F : Fld → Bool} {s t : State} {a0 : Nat} (h_regs : F .regs = true) (h_strs : F .strs = true) (h_bobs : F .bobs = true) (h_wports : F .wports = true) (h_adopts : F .adopts = true) (h_trd : F .trd = true) (h_key : F .key = true) (h : Same F s t) : SameO F s (bobEnable a0 t) := by
  unfold bobEnable
  repeat' (first | with_reducible assumption | with_reducible refine updBob_same h_bobs ?_ | with_reducible refine beginScan_same h_bobs h_adopts ?_ | with_reducible refine restartRing_same h_strs h_bobs h_wports ?_ | with_reducible refine noteKind_same h_regs h_trd ?_ | with_reducible refine takeHead_same h_key ?_ | with_reducible exact SameO.none | with_reducible refine SameO.some ?_ | with_reducible refine foldl_same (fun _ _ _ => ?_) ?_ | with_reducible refine SameO.ite ?_ ?_ | split)

theorem bobDisable_same {F : Fld → Bool} {s t : State} {a0 : Nat} (h_bobs : F .bobs = true) (h : Same F s t) : SameO F s (bobDisable a0 t) := by
  unfold bobDisable
  repeat' (first | with_reducible assumption | with_reducible refine updBob_same h_bobs ?_ | with_reducible exact SameO.none | with_reducible refine SameO.some ?_ | with_reducible refine SameO.ite ?_ ?_)

theorem flush_same {F : Fld → Bool} {s t : State} {a0 : Nat} (h_strs : F .strs = true) (h_closes : F .closes = true) (h : Same F s t) : Same F s (flush a0 t) := by
  unfold flush
  repeat' (first | with_reducible assumption | with_reducible refine closeBobs_same h_strs h_closes ?_)

theorem tailWrite_same {F : Fld → Bool} {s t : State} {a0 : Nat} {a1 : Word} (h_bobs : F .bobs = true) (h : Same F s t) : SameO F s (tailWrite a0 a1 t) := by
  unfold tailWrite
  repeat' (first | with_reducible assumption | with_reducible refine updBob_same h_bobs ?_ | with_reducible exact SameO.none | with_reducible refine SameO.some ?_ | with_reducible refine SameO.ite ?_ ?_)

theorem fenceCount_same {F : Fld → Bool} {s t : State} {a0 : Nat} {a1 : Nat} (h_key : F .key = true) (h : Same F s t) : Same F s (fenceCount a0 a1 t) := by
  unfold fenceCount
  repeat' (first | with_reducible assumption | with_reducible refine updSlot_same h_key ?_)

theorem retain_same {F : Fld → Bool} {s t : State} {a0 : Nat} {a1 : Pick} (h_regs : F .regs = true) (h_strs : F .strs = true) (h_closes : F .closes = true) (h_exempt : F .exempt = true) (h_refused : F .refused = true) (h_trd : F .trd = true) (h : Same F s t) : Same F s (retain a0 a1 t).2 := by
  unfold retain
  repeat' (first | with_reducible assumption | with_reducible refine acceptRec_same h_regs h_strs h_closes h_trd ?_ | split | with_reducible refine Same.set_exempt h_exempt ?_ | with_reducible refine Same.set_refused h_refused ?_)

theorem retain_same_eq {F : Fld → Bool} {s t : State} {a0 : Nat} {a1 : Pick} (h_regs : F .regs = true) (h_strs : F .strs = true) (h_closes : F .closes = true) (h_exempt : F .exempt = true) (h_refused : F .refused = true) (h_trd : F .trd = true) {x} {u : State} (e : retain a0 a1 t = (x, u)) (h : Same F s t) : Same F s u := by
  have := retain_same (F := F) (s := s) (t := t) (a0 := a0) (a1 := a1) h_regs h_strs h_closes h_exempt h_refused h_trd h
  rw [e] at this; exact this

theorem emitExempt_same {F : Fld → Bool} {s t : State} {a0 : Nat} {a1 : Pick} (h_regs : F .regs = true) (h_strs : F .strs = true) (h_closes : F .closes = true) (h_exempt : F .exempt = true) (h_refused : F .refused = true) (h_trd : F .trd = true) (h_key : F .key = true) (h : Same F s t) : Same F s (emitExempt a0 a1 t).2 := by
  unfold emitExempt
  repeat' (first | with_reducible assumption | with_reducible refine fenceCount_same h_key ?_ | with_reducible refine retain_same h_regs h_strs h_closes h_exempt h_refused h_trd ?_ | dsimp only | split)

theorem emitExempt_same_eq {F : Fld → Bool} {s t : State} {a0 : Nat} {a1 : Pick} (h_regs : F .regs = true) (h_strs : F .strs = true) (h_closes : F .closes = true) (h_exempt : F .exempt = true) (h_refused : F .refused = true) (h_trd : F .trd = true) (h_key : F .key = true) {x} {u : State} (e : emitExempt a0 a1 t = (x, u)) (h : Same F s t) : Same F s u := by
  have := emitExempt_same (F := F) (s := s) (t := t) (a0 := a0) (a1 := a1) h_regs h_strs h_closes h_exempt h_refused h_trd h_key h
  rw [e] at this; exact this

theorem emitHub_same {F : Fld → Bool} {s t : State} {a0 : Pick} (h_regs : F .regs = true) (h_strs : F .strs = true) (h_closes : F .closes = true) (h_exempt : F .exempt = true) (h_refused : F .refused = true) (h_trd : F .trd = true) (h_key : F .key = true) (h : Same F s t) : Same F s (emitHub a0 t) := by
  unfold emitHub
  repeat' (first | with_reducible assumption | with_reducible refine emitExempt_same h_regs h_strs h_closes h_exempt h_refused h_trd h_key ?_ | dsimp only)

theorem updHedGov_same {F : Fld → Bool} {s t : State} {a0 : Nat} {a1 : HedGov → HedGov} (h_hedGovs : F .hedGovs = true) (h : Same F s t) : Same F s (updHedGov a0 a1 t) := by
  unfold updHedGov
  repeat' (first | with_reducible assumption | with_reducible refine Same.set_hedGovs h_hedGovs ?_)

theorem updReedGov_same {F : Fld → Bool} {s t : State} {a0 : Nat} {a1 : ReedGov → ReedGov} (h_reedGovs : F .reedGovs = true) (h : Same F s t) : Same F s (updReedGov a0 a1 t) := by
  unfold updReedGov
  repeat' (first | with_reducible assumption | with_reducible refine Same.set_reedGovs h_reedGovs ?_)

theorem putQuota_same {F : Fld → Bool} {s t : State} {a0 : Nat} {a1 : Bt} {a2 : Quota} (h_hedGovs : F .hedGovs = true) (h : Same F s t) : Same F s (putQuota a0 a1 a2 t) := by
  unfold putQuota
  repeat' (first | with_reducible assumption | with_reducible refine updHedGov_same h_hedGovs ?_)

theorem countDemand_same {F : Fld → Bool} {s t : State} {a0 : Nat} {a1 : Nat} {a2 : Bool} {a3 : Bt} (h_hedGovs : F .hedGovs = true) (h : Same F s t) : Same F s (countDemand a0 a1 a2 a3 t) := by
  unfold countDemand
  repeat' (first | with_reducible assumption | with_reducible refine updHedGov_same h_hedGovs ?_ | with_reducible refine Same.ite ?_ ?_)

theorem refuseGov_same {F : Fld → Bool} {s t : State} {a0 : Nat} {a1 : Nat} {a2 : Nat} {a3 : Bool} (h_regs : F .regs = true) (h_hedGovs : F .hedGovs = true) (h_reedGovs : F .reedGovs = true) (h_trd : F .trd = true) (h : Same F s t) : Same F s (refuseGov a0 a1 a2 a3 t) := by
  unfold refuseGov
  repeat' (first | with_reducible assumption | with_reducible refine updHedGov_same h_hedGovs ?_ | with_reducible refine bump_same h_regs ?_ | with_reducible refine updReedGov_same h_reedGovs ?_ | with_reducible refine raise_same h_regs h_trd ?_ | with_reducible refine Same.ite ?_ ?_)

theorem offerHed_same {F : Fld → Bool} {s t : State} {a0 : Nat} {a1 : Nat} {a2 : Cls} {a3 : Bt} {a4 : List Pick} (h_regs : F .regs = true) (h_strs : F .strs = true) (h_closes : F .closes = true) (h_exempt : F .exempt = true) (h_hedGovs : F .hedGovs = true) (h_reedGovs : F .reedGovs = true) (h_trd : F .trd = true) (h_key : F .key = true) (h : Same F s t) : Same F s (offerHed a0 a1 a2 a3 a4 t).2 := by
  unfold offerHed
  repeat' (first | with_reducible assumption | with_reducible refine fenceCount_same h_key ?_ | with_reducible refine bump_same h_regs ?_ | with_reducible refine countDemand_same h_hedGovs ?_ | with_reducible refine refuseGov_same h_regs h_hedGovs h_reedGovs h_trd ?_ | with_reducible refine updReedGov_same h_reedGovs ?_ | with_reducible refine putQuota_same h_hedGovs ?_ | with_reducible refine acceptRec_same h_regs h_strs h_closes h_trd ?_ | with_reducible refine foldl_same (fun _ _ _ => ?_) ?_ | dsimp only | split | with_reducible refine Same.set_exempt h_exempt ?_)

theorem offerHed_same_eq {F : Fld → Bool} {s t : State} {a0 : Nat} {a1 : Nat} {a2 : Cls} {a3 : Bt} {a4 : List Pick} (h_regs : F .regs = true) (h_strs : F .strs = true) (h_closes : F .closes = true) (h_exempt : F .exempt = true) (h_hedGovs : F .hedGovs = true) (h_reedGovs : F .reedGovs = true) (h_trd : F .trd = true) (h_key : F .key = true) {x} {u : State} (e : offerHed a0 a1 a2 a3 a4 t = (x, u)) (h : Same F s t) : Same F s u := by
  have := offerHed_same (F := F) (s := s) (t := t) (a0 := a0) (a1 := a1) (a2 := a2) (a3 := a3) (a4 := a4) h_regs h_strs h_closes h_exempt h_hedGovs h_reedGovs h_trd h_key h
  rw [e] at this; exact this

theorem updHed_same {F : Fld → Bool} {s t : State} {a0 : Nat} {a1 : HedTrace → HedTrace} (h_heds : F .heds = true) (h : Same F s t) : Same F s (updHed a0 a1 t) := by
  unfold updHed
  repeat' (first | with_reducible assumption | with_reducible refine Same.set_heds h_heds ?_)

theorem updHedC_same {F : Fld → Bool} {s t : State} {a0 : Nat} {a1 : HedCount → HedCount} (h_counts : F .counts = true) (h : Same F s t) : Same F s (updHedC a0 a1 t) := by
  unfold updHedC
  repeat' (first | with_reducible assumption | with_reducible refine Same.set_counts h_counts ?_)

theorem hold_same {F : Fld → Bool} {s t : State} {a0 : Nat} {a1 : Held} (h_heds : F .heds = true) (h : Same F s t) : Same F s (hold a0 a1 t) := by
  unfold hold
  repeat' (first | with_reducible assumption | with_reducible refine updHed_same h_heds ?_)

theorem throttle_same {F : Fld → Bool} {s t : State} {a0 : Nat} {a1 : Nat} (h_heds : F .heds = true) (h : Same F s t) : Same F s (throttle a0 a1 t) := by
  unfold throttle
  repeat' (first | with_reducible assumption | with_reducible refine hold_same h_heds ?_)

theorem refusalSummary_same {F : Fld → Bool} {s t : State} {a0 : Nat} (h_regs : F .regs = true) (h_strs : F .strs = true) (h_closes : F .closes = true) (h_exempt : F .exempt = true) (h_refused : F .refused = true) (h_trd : F .trd = true) (h_key : F .key = true) (h : Same F s t) : Same F s (refusalSummary a0 t) := by
  unfold refusalSummary
  repeat' (first | with_reducible assumption | with_reducible refine emitExempt_same h_regs h_strs h_closes h_exempt h_refused h_trd h_key ?_ | dsimp only | with_reducible refine Same.ite ?_ ?_)

theorem windowStart_same {F : Fld → Bool} {s t : State}  (h_regs : F .regs = true) (h_strs : F .strs = true) (h_closes : F .closes = true) (h_exempt : F .exempt = true) (h_refused : F .refused = true) (h_heds : F .heds = true) (h_hedGovs : F .hedGovs = true) (h_reedGovs : F .reedGovs = true) (h_gov : F .gov = true) (h_trd : F .trd = true) (h_key : F .key = true) (h : Same F s t) : Same F s (windowStart t) := by
  unfold windowStart
  extract_lets w next s1 s2 hs d2 rs p2 u2 budget allow qp left1 scanD qs qu hp hu cap g0 s3 en qm qo s4 s5 s6 g s7
  have h1 : Same F s s1 := foldl_same (fun _ _ h => foldl_same (fun _ _ h => throttle_same h_heds h) h) h
  have h2 : Same F s s2 := foldl_same (fun _ _ h => Same.ite (refusalSummary_same h_regs h_strs h_closes h_exempt h_refused h_trd h_key h) h) h1
  have h3 : Same F s s3 := Same.set_gov h_gov h2
  have h4 : Same F s s4 := foldl_same (fun _ _ h => updHedGov_same h_hedGovs h) h3
  have h5 : Same F s s5 := foldl_same (fun _ _ h => updReedGov_same h_reedGovs h) h4
  have h6 : Same F s s6 := updReedGov_same h_reedGovs h5
  have h7 : Same F s s7 := Same.set_gov (t := { s6 with exempt := s6.exempt - t.exempt }) h_gov (Same.set_exempt h_exempt h6)
  exact Same.ite (raise_same h_regs h_trd (bump_same h_regs h7)) h7

theorem captureLost_same {F : Fld → Bool} {s t : State} {a0 : Nat} {a1 : Nat} (h_regs : F .regs = true) (h_trd : F .trd = true) (h : Same F s t) : Same F s (captureLost a0 a1 t) := by
  unfold captureLost
  repeat' (first | with_reducible assumption | with_reducible refine setPortErr_same h_regs h_trd ?_ | with_reducible refine bump_same h_regs ?_ | with_reducible refine Same.ite ?_ ?_)

theorem applyCard_same {F : Fld → Bool} {s t : State} {a0 : Nat} {a1 : Nat} {a2 : Nat} {a3 : Bt} (h_regs : F .regs = true) (h_heds : F .heds = true) (h_counts : F .counts = true) (h_trd : F .trd = true) (h : Same F s t) : Same F s (applyCard a0 a1 a2 a3 t) := by
  unfold applyCard
  repeat' (first | with_reducible assumption | with_reducible refine updHedC_same h_counts ?_ | with_reducible refine updHed_same h_heds ?_ | with_reducible refine setErr_same h_regs h_trd ?_ | with_reducible refine Same.ite ?_ ?_)

theorem cardMapByte_same {F : Fld → Bool} {s t : State} {a0 : Nat} {a1 : Nat} {a2 : Nat} (h_regs : F .regs = true) (h_heds : F .heds = true) (h_counts : F .counts = true) (h_trd : F .trd = true) (h : Same F s t) : Same F s (cardMapByte a0 a1 a2 t) := by
  unfold cardMapByte
  repeat' (first | with_reducible assumption | with_reducible refine updHedC_same h_counts ?_ | with_reducible refine applyCard_same h_regs h_heds h_counts h_trd ?_ | with_reducible refine Same.ite ?_ ?_)

theorem cardMapWrite_same {F : Fld → Bool} {s t : State} {a0 : Nat} {a1 : Bool} {a2 : Word} (h_regs : F .regs = true) (h_heds : F .heds = true) (h_counts : F .counts = true) (h_trd : F .trd = true) (h : Same F s t) : Same F s (cardMapWrite a0 a1 a2 t) := by
  unfold cardMapWrite
  repeat' (first | with_reducible assumption | with_reducible refine cardMapByte_same h_regs h_heds h_counts h_trd ?_ | with_reducible refine foldl_same (fun _ _ _ => ?_) ?_)

theorem openGap_same {F : Fld → Bool} {s t : State} {a0 : Nat} {a1 : Nat} {a2 : Bt} {a3 : Bool} (h_heds : F .heds = true) (h : Same F s t) : Same F s (openGap a0 a1 a2 a3 t) := by
  unfold openGap
  repeat' (first | with_reducible assumption | with_reducible refine updHed_same h_heds ?_ | with_reducible refine Same.ite ?_ ?_)

theorem dropGap_same {F : Fld → Bool} {s t : State} {a0 : Nat} {a1 : Nat} (h_heds : F .heds = true) (h : Same F s t) : Same F s (dropGap a0 a1 t) := by
  unfold dropGap
  repeat' (first | with_reducible assumption | with_reducible refine updHed_same h_heds ?_)

theorem closeGap_same {F : Fld → Bool} {s t : State} {a0 : Nat} {a1 : Nat} {a2 : Bt} {a3 : Nat} (h_heds : F .heds = true) (h : Same F s t) : Same F s (closeGap a0 a1 a2 a3 t) := by
  unfold closeGap
  repeat' (first | with_reducible assumption | with_reducible refine dropGap_same h_heds ?_ | with_reducible refine hold_same h_heds ?_ | split)

theorem addEdges_same {F : Fld → Bool} {s t : State} {a0 : Nat} {a1 : Nat} (h_heds : F .heds = true) (h : Same F s t) : Same F s (addEdges a0 a1 t) := by
  unfold addEdges
  repeat' (first | with_reducible assumption | with_reducible refine updHed_same h_heds ?_)

theorem clockState_same {F : Fld → Bool} {s t : State} {a0 : Nat} {a1 : BitVec 2} {a2 : Tdc} (h_regs : F .regs = true) (h_heds : F .heds = true) (h_trd : F .trd = true) (h : Same F s t) : Same F s (clockState a0 a1 a2 t) := by
  unfold clockState
  repeat' (first | with_reducible assumption | with_reducible refine setPortErr_same h_regs h_trd ?_ | with_reducible refine updHed_same h_heds ?_ | with_reducible refine closeGap_same h_heds ?_ | with_reducible refine openGap_same h_heds ?_ | with_reducible refine Same.ite ?_ ?_)

theorem gapLimit_same {F : Fld → Bool} {s t : State} {a0 : Nat} (h_heds : F .heds = true) (h : Same F s t) : Same F s (gapLimit a0 t) := by
  unfold gapLimit
  repeat' (first | with_reducible assumption | with_reducible refine openGap_same h_heds ?_ | with_reducible refine closeGap_same h_heds ?_ | with_reducible refine Same.ite ?_ ?_ | split)

theorem holdBegin_same {F : Fld → Bool} {s t : State} {a0 : Nat} {a1 : Nat} {a2 : Ent} {a3 : Bt} (h_heds : F .heds = true) (h : Same F s t) : Same F s (holdBegin a0 a1 a2 a3 t) := by
  unfold holdBegin
  repeat' (first | with_reducible assumption | with_reducible refine hold_same h_heds ?_ | with_reducible refine Same.ite ?_ ?_)

theorem dropGaps_same {F : Fld → Bool} {s t : State} {a0 : Nat} (h_heds : F .heds = true) (h : Same F s t) : Same F s (dropGaps a0 t) := by
  unfold dropGaps
  repeat' (first | with_reducible assumption | with_reducible refine updHed_same h_heds ?_)

theorem freeEnt_same {F : Fld → Bool} {s t : State} {a0 : Nat} {a1 : Ent} (h_heds : F .heds = true) (h : Same F s t) : Same F s (freeEnt a0 a1 t) := by
  unfold freeEnt
  repeat' (first | with_reducible assumption | with_reducible refine dropGaps_same h_heds ?_ | with_reducible refine updHed_same h_heds ?_)

theorem updEnt_same {F : Fld → Bool} {s t : State} {a0 : Nat} {a1 : Ent} {a2 : Ent → Ent} (h_heds : F .heds = true) (h : Same F s t) : Same F s (updEnt a0 a1 a2 t) := by
  unfold updEnt
  repeat' (first | with_reducible assumption | with_reducible refine updHed_same h_heds ?_)

theorem highWater_same {F : Fld → Bool} {s t : State} {a0 : Nat} (h_regs : F .regs = true) (h : Same F s t) : Same F s (highWater a0 t) := by
  unfold highWater
  repeat' (first | with_reducible assumption | with_reducible refine regSetFld_same h_regs ?_ | with_reducible refine Same.ite ?_ ?_)

theorem openCommand_same {F : Fld → Bool} {s t : State} {a0 : Nat} {a1 : Issue} {a2 : Nat} {a3 : Bt} {a4 : Bool} (h_regs : F .regs = true) (h_heds : F .heds = true) (h_trd : F .trd = true) (h : Same F s t) : Same F s (openCommand a0 a1 a2 a3 a4 t) := by
  unfold openCommand
  repeat' (first | with_reducible assumption | with_reducible refine highWater_same h_regs ?_ | with_reducible refine updHed_same h_heds ?_ | with_reducible refine setErr_same h_regs h_trd ?_ | with_reducible refine bump_same h_regs ?_ | with_reducible refine holdBegin_same h_heds ?_ | with_reducible refine Same.ite ?_ ?_ | split)

theorem tagReused_same {F : Fld → Bool} {s t : State} {a0 : Nat} {a1 : Ent} {a2 : Bt} (h_regs : F .regs = true) (h_heds : F .heds = true) (h_trd : F .trd = true) (h : Same F s t) : Same F s (tagReused a0 a1 a2 t) := by
  unfold tagReused
  repeat' (first | with_reducible assumption | with_reducible refine setErr_same h_regs h_trd ?_ | with_reducible refine bump_same h_regs ?_ | with_reducible refine freeEnt_same h_heds ?_ | with_reducible refine holdBegin_same h_heds ?_ | with_reducible refine Same.ite ?_ ?_)

theorem issueItem_same {F : Fld → Bool} {s t : State} {a0 : Nat} {a1 : Issue} (h_regs : F .regs = true) (h_heds : F .heds = true) (h_counts : F .counts = true) (h_trd : F .trd = true) (h : Same F s t) : Same F s (issueItem a0 a1 t) := by
  unfold issueItem
  repeat' (first | with_reducible assumption | with_reducible refine setPortErr_same h_regs h_trd ?_ | with_reducible refine bump_same h_regs ?_ | with_reducible refine regPut_same h_regs ?_ | with_reducible refine applyCard_same h_regs h_heds h_counts h_trd ?_ | with_reducible refine tagReused_same h_regs h_heds h_trd ?_ | with_reducible refine openCommand_same h_regs h_heds h_trd ?_ | with_reducible refine Same.ite ?_ ?_ | split)

theorem retireItem_same {F : Fld → Bool} {s t : State} {a0 : Nat} {a1 : Retire} (h_regs : F .regs = true) (h_heds : F .heds = true) (h_trd : F .trd = true) (h : Same F s t) : Same F s (retireItem a0 a1 t) := by
  unfold retireItem
  repeat' (first | with_reducible assumption | with_reducible refine updEnt_same h_heds ?_ | with_reducible refine setPortErr_same h_regs h_trd ?_ | with_reducible refine bump_same h_regs ?_ | with_reducible refine hold_same h_heds ?_ | split)

theorem acceptSpan_same {F : Fld → Bool} {s t : State} {a0 : Nat} {a1 : Ent} (h_regs : F .regs = true) (h_strs : F .strs = true) (h_closes : F .closes = true) (h_exempt : F .exempt = true) (h_heds : F .heds = true) (h_hedGovs : F .hedGovs = true) (h_reedGovs : F .reedGovs = true) (h_trd : F .trd = true) (h_key : F .key = true) (h : Same F s t) : Same F s (acceptSpan a0 a1 t) := by
  unfold acceptSpan
  repeat' (first | with_reducible assumption | with_reducible refine offerHed_same h_regs h_strs h_closes h_exempt h_hedGovs h_reedGovs h_trd h_key ?_ | with_reducible refine count_same h_regs ?_ | with_reducible refine freeEnt_same h_heds ?_ | with_reducible refine foldl_same (fun _ _ _ => ?_) ?_ | with_reducible refine Same.ite ?_ ?_)

theorem eventLine_same {F : Fld → Bool} {s t : State} {a0 : Nat} {a1 : BitVec 5} (h_counts : F .counts = true) (h : Same F s t) : Same F s (eventLine a0 a1 t) := by
  unfold eventLine
  repeat' (first | with_reducible assumption | with_reducible refine updHedC_same h_counts ?_)

theorem counterSample_same {F : Fld → Bool} {s t : State} {a0 : Nat} (h_heds : F .heds = true) (h_counts : F .counts = true) (h : Same F s t) : Same F s (counterSample a0 t) := by
  unfold counterSample
  repeat' (first | with_reducible assumption | with_reducible refine hold_same h_heds ?_ | with_reducible refine updHedC_same h_counts ?_ | with_reducible refine foldl_same (fun _ _ _ => ?_) ?_ | dsimp only | split)

theorem stallChange_same {F : Fld → Bool} {s t : State} {a0 : Nat} {a1 : BitVec 8} {a2 : Tdc} (h_heds : F .heds = true) (h_counts : F .counts = true) (h : Same F s t) : Same F s (stallChange a0 a1 a2 t) := by
  unfold stallChange
  repeat' (first | with_reducible assumption | with_reducible refine updHedC_same h_counts ?_ | with_reducible refine hold_same h_heds ?_ | with_reducible refine foldl_same (fun _ _ _ => ?_) ?_ | with_reducible refine Same.ite ?_ ?_)

theorem stallPeriodic_same {F : Fld → Bool} {s t : State} {a0 : Nat} (h_heds : F .heds = true) (h_counts : F .counts = true) (h : Same F s t) : Same F s (stallPeriodic a0 t) := by
  unfold stallPeriodic
  repeat' (first | with_reducible assumption | with_reducible refine hold_same h_heds ?_ | with_reducible refine updHedC_same h_counts ?_ | with_reducible refine foldl_same (fun _ _ _ => ?_) ?_ | dsimp only | split)

theorem cutGroup_same {F : Fld → Bool} {s t : State} {a0 : Nat} {a1 : Held} {a2 : Option Pick} {a3 : List Ent} {a4 : Option (Gap × Nat)} (h_regs : F .regs = true) (h_strs : F .strs = true) (h_closes : F .closes = true) (h_exempt : F .exempt = true) (h_heds : F .heds = true) (h_hedGovs : F .hedGovs = true) (h_reedGovs : F .reedGovs = true) (h_trd : F .trd = true) (h_key : F .key = true) (h : Same F s t) : Same F s (cutGroup a0 a1 a2 a3 a4 t).2 := by
  unfold cutGroup
  repeat' (first | with_reducible assumption | with_reducible refine offerHed_same h_regs h_strs h_closes h_exempt h_hedGovs h_reedGovs h_trd h_key ?_ | with_reducible refine updHed_same h_heds ?_ | with_reducible refine count_same h_regs ?_ | (extract_lets +onlyGivenNames x; refine (fun (hx : Same F s x.2) => ?_) ?_; rotate_left; dsimp only [x]; clear x; rotate_right; clear_value x) | with_reducible refine foldl2_same (fun _ _ _ => ?_) ?_ | dsimp only | split)

theorem cutGroup_same_eq {F : Fld → Bool} {s t : State} {a0 : Nat} {a1 : Held} {a2 : Option Pick} {a3 : List Ent} {a4 : Option (Gap × Nat)} (h_regs : F .regs = true) (h_strs : F .strs = true) (h_closes : F .closes = true) (h_exempt : F .exempt = true) (h_heds : F .heds = true) (h_hedGovs : F .hedGovs = true) (h_reedGovs : F .reedGovs = true) (h_trd : F .trd = true) (h_key : F .key = true) {x} {u : State} (e : cutGroup a0 a1 a2 a3 a4 t = (x, u)) (h : Same F s t) : Same F s u := by
  have := cutGroup_same (F := F) (s := s) (t := t) (a0 := a0) (a1 := a1) (a2 := a2) (a3 := a3) (a4 := a4) h_regs h_strs h_closes h_exempt h_heds h_hedGovs h_reedGovs h_trd h_key h
  rw [e] at this; exact this

theorem Held_take_same {F : Fld → Bool} {s t : State} {a0 : Nat} {a1 : Held} (h_regs : F .regs = true) (h_strs : F .strs = true) (h_closes : F .closes = true) (h_exempt : F .exempt = true) (h_heds : F .heds = true) (h_counts : F .counts = true) (h_hedGovs : F .hedGovs = true) (h_reedGovs : F .reedGovs = true) (h_trd : F .trd = true) (h_key : F .key = true) (h : Same F s t) : Same F s (Held.take a0 a1 t) := by
  unfold Held.take
  repeat' (first | with_reducible assumption | with_reducible refine offerHed_same h_regs h_strs h_closes h_exempt h_hedGovs h_reedGovs h_trd h_key ?_ | with_reducible refine count_same h_regs ?_ | with_reducible refine updHed_same h_heds ?_ | with_reducible refine updHedC_same h_counts ?_ | with_reducible refine closeRun_same h_strs h_closes ?_ | with_reducible refine cutGroup_same h_regs h_strs h_closes h_exempt h_heds h_hedGovs h_reedGovs h_trd h_key ?_ | (extract_lets +onlyGivenNames x; refine (fun (hx : Same F s x.2) => ?_) ?_; rotate_left; dsimp only [x]; clear x; rotate_right; clear_value x) | with_reducible refine foldl_same (fun _ _ _ => ?_) ?_ | with_reducible refine Same.ite ?_ ?_ | split)

theorem offerHeld_same {F : Fld → Bool} {s t : State} {a0 : Nat} {a1 : Held} (h_regs : F .regs = true) (h_strs : F .strs = true) (h_closes : F .closes = true) (h_exempt : F .exempt = true) (h_heds : F .heds = true) (h_counts : F .counts = true) (h_hedGovs : F .hedGovs = true) (h_reedGovs : F .reedGovs = true) (h_trd : F .trd = true) (h_key : F .key = true) (h : Same F s t) : Same F s (offerHeld a0 a1 t) := by
  unfold offerHeld
  repeat' (first | with_reducible assumption | with_reducible refine hold_same h_heds ?_ | with_reducible refine Held_take_same h_regs h_strs h_closes h_exempt h_heds h_counts h_hedGovs h_reedGovs h_trd h_key ?_ | with_reducible refine Same.ite ?_ ?_)

theorem settleHed_same {F : Fld → Bool} {s t : State} {a0 : Nat} (h_regs : F .regs = true) (h_strs : F .strs = true) (h_closes : F .closes = true) (h_exempt : F .exempt = true) (h_heds : F .heds = true) (h_counts : F .counts = true) (h_hedGovs : F .hedGovs = true) (h_reedGovs : F .reedGovs = true) (h_trd : F .trd = true) (h_key : F .key = true) (h : Same F s t) : Same F s (settleHed a0 t) := by
  unfold settleHed
  repeat' (first | with_reducible assumption | with_reducible refine dropGaps_same h_heds ?_ | with_reducible refine offerHeld_same h_regs h_strs h_closes h_exempt h_heds h_counts h_hedGovs h_reedGovs h_trd h_key ?_ | with_reducible refine updHed_same h_heds ?_ | with_reducible refine foldl_same (fun _ _ _ => ?_) ?_ | with_reducible refine Same.ite ?_ ?_)

theorem spanAccept_same {F : Fld → Bool} {s t : State} {a0 : Nat} (h_regs : F .regs = true) (h_strs : F .strs = true) (h_closes : F .closes = true) (h_exempt : F .exempt = true) (h_heds : F .heds = true) (h_counts : F .counts = true) (h_hedGovs : F .hedGovs = true) (h_reedGovs : F .reedGovs = true) (h_trd : F .trd = true) (h_key : F .key = true) (h : Same F s t) : Same F s (spanAccept a0 t) := by
  unfold spanAccept
  repeat' (first | with_reducible assumption | with_reducible refine settleHed_same h_regs h_strs h_closes h_exempt h_heds h_counts h_hedGovs h_reedGovs h_trd h_key ?_ | with_reducible refine acceptSpan_same h_regs h_strs h_closes h_exempt h_heds h_hedGovs h_reedGovs h_trd h_key ?_ | (extract_lets +onlyGivenNames x; refine (fun (hx : Same F s x) => ?_) ?_; rotate_left; dsimp only [x]; clear x; rotate_right; clear_value x) | split)

theorem settleSpans_same {F : Fld → Bool} {s t : State} {a0 : Nat} {a1 : Nat} (h_regs : F .regs = true) (h_strs : F .strs = true) (h_closes : F .closes = true) (h_exempt : F .exempt = true) (h_heds : F .heds = true) (h_counts : F .counts = true) (h_hedGovs : F .hedGovs = true) (h_reedGovs : F .reedGovs = true) (h_trd : F .trd = true) (h_key : F .key = true) (h : Same F s t) : Same F s (settleSpans a0 a1 t) := by
  induction a0 generalizing t with
  | zero => exact settleHed_same h_regs h_strs h_closes h_exempt h_heds h_counts h_hedGovs h_reedGovs h_trd h_key h
  | succ n ih =>
    unfold settleSpans
    dsimp only
    split
    · exact ih (acceptSpan_same h_regs h_strs h_closes h_exempt h_heds h_hedGovs h_reedGovs h_trd h_key (settleHed_same h_regs h_strs h_closes h_exempt h_heds h_counts h_hedGovs h_reedGovs h_trd h_key h))
    · exact settleHed_same h_regs h_strs h_closes h_exempt h_heds h_counts h_hedGovs h_reedGovs h_trd h_key h

theorem hedLeaves_same {F : Fld → Bool} {s t : State} {a0 : Nat} (h_heds : F .heds = true) (h : Same F s t) : Same F s (hedLeaves a0 t) := by
  unfold hedLeaves
  repeat' (first | with_reducible assumption | with_reducible refine freeEnt_same h_heds ?_ | with_reducible refine holdBegin_same h_heds ?_ | with_reducible refine closeGap_same h_heds ?_ | with_reducible refine foldl_same (fun _ _ _ => ?_) ?_ | with_reducible refine Same.ite ?_ ?_)

theorem hedFails_same {F : Fld → Bool} {s t : State} {a0 : Nat} (h_regs : F .regs = true) (h_heds : F .heds = true) (h : Same F s t) : Same F s (hedFails a0 t) := by
  unfold hedFails
  repeat' (first | with_reducible assumption | with_reducible refine updHed_same h_heds ?_ | with_reducible refine bump_same h_regs ?_ | with_reducible refine dropGaps_same h_heds ?_ | with_reducible refine closeGap_same h_heds ?_ | with_reducible refine Same.ite ?_ ?_)

theorem hedEnters_same {F : Fld → Bool} {s t : State} {a0 : Nat} (h_heds : F .heds = true) (h : Same F s t) : Same F s (hedEnters a0 t) := by
  unfold hedEnters
  repeat' (first | with_reducible assumption | with_reducible refine openGap_same h_heds ?_)

theorem updHedStop_same {F : Fld → Bool} {s t : State} {a0 : Nat} {a1 : HedStop → HedStop} (h_hedStops : F .hedStops = true) (h : Same F s t) : Same F s (updHedStop a0 a1 t) := by
  unfold updHedStop
  repeat' (first | with_reducible assumption | with_reducible refine Same.set_hedStops h_hedStops ?_)

theorem updLink_same {F : Fld → Bool} {s t : State} {a0 : Nat} {a1 : Link → Link} (h_links : F .links = true) (h : Same F s t) : Same F s (updLink a0 a1 t) := by
  unfold updLink
  repeat' (first | with_reducible assumption | with_reducible refine Same.set_links h_links ?_)

theorem updWit_same {F : Fld → Bool} {s t : State} {a0 : Nat} {a1 : WitReed → WitReed} (h_wits : F .wits = true) (h : Same F s t) : Same F s (updWit a0 a1 t) := by
  unfold updWit
  repeat' (first | with_reducible assumption | with_reducible refine Same.set_wits h_wits ?_)

theorem pauseGather_same {F : Fld → Bool} {s t : State} {a0 : Bt} (h_wits : F .wits = true) (h : Same F s t) : Same F s (pauseGather a0 t) := by
  unfold pauseGather
  repeat' (first | with_reducible assumption | with_reducible refine updWit_same h_wits ?_ | with_reducible refine foldl_same (fun _ _ _ => ?_) ?_)

theorem restartGather_same {F : Fld → Bool} {s t : State} {a0 : Nat} (h_wits : F .wits = true) (h : Same F s t) : Same F s (restartGather a0 t) := by
  unfold restartGather
  repeat' (first | with_reducible assumption | with_reducible refine updWit_same h_wits ?_)

theorem launch_same {F : Fld → Bool} {s t : State} {a0 : Nat} {a1 : Nat} (h_regs : F .regs = true) (h_strs : F .strs = true) (h_closes : F .closes = true) (h_trd : F .trd = true) (h_stop : F .stop = true) (h_wits : F .wits = true) (h : Same F s t) : Same F s (launch a0 a1 t) := by
  unfold launch
  repeat' (first | with_reducible assumption | with_reducible refine pauseGather_same h_wits ?_ | with_reducible refine setErr_same h_regs h_trd ?_ | with_reducible refine raise_same h_regs h_trd ?_ | with_reducible refine closeBobs_same h_strs h_closes ?_ | with_reducible refine Same.ite ?_ ?_ | with_reducible refine Same.set_stop h_stop ?_)

theorem launchArmed_same {F : Fld → Bool} {s t : State}  (h_regs : F .regs = true) (h_strs : F .strs = true) (h_closes : F .closes = true) (h_trd : F .trd = true) (h_stop : F .stop = true) (h_wits : F .wits = true) (h : Same F s t) : Same F s (launchArmed t) := by
  unfold launchArmed
  repeat' (first | with_reducible assumption | with_reducible refine setErr_same h_regs h_trd ?_ | with_reducible refine launch_same h_regs h_strs h_closes h_trd h_stop h_wits ?_ | with_reducible refine Same.ite ?_ ?_)

theorem stopEvent_same {F : Fld → Bool} {s t : State} {a0 : Nat} {a1 : Nat} (h_regs : F .regs = true) (h_strs : F .strs = true) (h_closes : F .closes = true) (h_trd : F .trd = true) (h_stop : F .stop = true) (h_wits : F .wits = true) (h : Same F s t) : Same F s (stopEvent a0 a1 t) := by
  dsimp only [stopEvent]
  repeat' (first | with_reducible assumption | with_reducible refine bump_same h_regs ?_ | with_reducible refine launch_same h_regs h_strs h_closes h_trd h_stop h_wits ?_ | with_reducible refine launchArmed_same h_regs h_strs h_closes h_trd h_stop h_wits ?_ | split)

theorem updOwn_same {F : Fld → Bool} {s t : State} {a0 : Own → Own} (h_ver : F .ver = true) (h : Same F s t) : Same F s (updOwn a0 t) := by
  unfold updOwn
  repeat' (first | with_reducible assumption | with_reducible refine Same.set_ver h_ver ?_)

theorem settleFrom_same {F : Fld → Bool} {s t : State} {a0 : Int} (h_ver : F .ver = true) (h : Same F s t) : Same F s (settleFrom a0 t) := by
  unfold settleFrom
  repeat' (first | with_reducible assumption | with_reducible refine updOwn_same h_ver ?_ | with_reducible refine Same.ite ?_ ?_)

theorem settleEpochs_same {F : Fld → Bool} {s t : State}  (h_ver : F .ver = true) (h : Same F s t) : Same F s (settleEpochs t) := by
  unfold settleEpochs
  repeat' (first | with_reducible assumption | with_reducible refine settleFrom_same h_ver ?_)

theorem taintOwn_same {F : Fld → Bool} {s t : State} {a0 : BitVec 16} (h_ver : F .ver = true) (h : Same F s t) : Same F s (taintOwn a0 t).2 := by
  unfold taintOwn
  repeat' (first | with_reducible assumption | with_reducible refine updOwn_same h_ver ?_ | dsimp only | split)

theorem taintOwn_same_eq {F : Fld → Bool} {s t : State} {a0 : BitVec 16} (h_ver : F .ver = true) {x} {u : State} (e : taintOwn a0 t = (x, u)) (h : Same F s t) : Same F s u := by
  have := taintOwn_same (F := F) (s := s) (t := t) (a0 := a0) h_ver h
  rw [e] at this; exact this

theorem freeRound_same {F : Fld → Bool} {s t : State} {a0 : Int} {a1 : Nat} (h_free : F .free = true) (h : Same F s t) : Same F s (freeRound a0 a1 t).2 := by
  unfold freeRound
  repeat' (first | with_reducible assumption | with_reducible refine takeFree_same h_free ?_ | split)

theorem freeRound_same_eq {F : Fld → Bool} {s t : State} {a0 : Int} {a1 : Nat} (h_free : F .free = true) {x} {u : State} (e : freeRound a0 a1 t = (x, u)) (h : Same F s t) : Same F s u := by
  have := freeRound_same (F := F) (s := s) (t := t) (a0 := a0) (a1 := a1) h_free h
  rw [e] at this; exact this

theorem fillReport_same {F : Fld → Bool} {s t : State} {a0 : ErrReport} {a1 : Bool} (h_free : F .free = true) (h : Same F s t) : SameOP F s (fillReport a0 a1 t) := by
  unfold fillReport
  repeat' (first | with_reducible assumption | with_reducible refine freeRound_same h_free ?_ | with_reducible exact SameOP.none | with_reducible refine SameOP.some ?_ | dsimp only | split)

theorem updVer_same {F : Fld → Bool} {s t : State} {a0 : Verdicts → Verdicts} (h_ver : F .ver = true) (h : Same F s t) : Same F s (updVer a0 t) := by
  unfold updVer
  repeat' (first | with_reducible assumption | with_reducible refine Same.set_ver h_ver ?_)

theorem enqueue_same {F : Fld → Bool} {s t : State} {a0 : Notice} (h_regs : F .regs = true) (h_ver : F .ver = true) (h : Same F s t) : Same F s (enqueue a0 t) := by
  unfold enqueue
  repeat' (first | with_reducible assumption | with_reducible refine updVer_same h_ver ?_ | with_reducible refine bump_same h_regs ?_ | with_reducible refine Same.ite ?_ ?_)

theorem refill_same {F : Fld → Bool} {s t : State} {a0 : Nat} (h_regs : F .regs = true) (h_ver : F .ver = true) (h : Same F s t) : Same F s (refill a0 t) := by
  induction a0 generalizing t  with
  | zero => exact h
  | succ n ih =>
    unfold refill
    repeat' (first | with_reducible assumption | (with_reducible refine ih ?_) | with_reducible refine enqueue_same h_regs h_ver ?_ | with_reducible refine updVer_same h_ver ?_ | split)

theorem emitAt_same {F : Fld → Bool} {s t : State} {a0 : Nat} {a1 : Notice} (h_regs : F .regs = true) (h_strs : F .strs = true) (h_closes : F .closes = true) (h_exempt : F .exempt = true) (h_trd : F .trd = true) (h_ver : F .ver = true) (h : Same F s t) : Same F s (emitAt a0 a1 t) := by
  unfold emitAt
  repeat' (first | with_reducible assumption | with_reducible refine updVer_same h_ver ?_ | with_reducible refine acceptRec_same h_regs h_strs h_closes h_trd ?_ | with_reducible refine refill_same h_regs h_ver ?_ | with_reducible refine closeRun_same h_strs h_closes ?_ | with_reducible refine Same.ite ?_ ?_ | with_reducible refine Same.set_exempt h_exempt ?_)

theorem readyNotice_same {F : Fld → Bool} {s t : State} {a0 : Bool} {a1 : Notice} (h_free : F .free = true) (h : Same F s t) : SameOP F s (readyNotice a0 a1 t) := by
  unfold readyNotice
  split
  · intro x u e
    simp only [Option.map_eq_some_iff] at e
    obtain ⟨⟨r, v⟩, hr, e⟩ := e
    cases e
    exact fillReport_same h_free h _ _ hr
  · exact SameOP.some h

theorem pumpEmit_same {F : Fld → Bool} {s t : State} {a0 : Nat} (h_regs : F .regs = true) (h_strs : F .strs = true) (h_closes : F .closes = true) (h_exempt : F .exempt = true) (h_trd : F .trd = true) (h_ver : F .ver = true) (h_free : F .free = true) (h : Same F s t) : Same F s (pumpEmit a0 t) := by
  induction a0 generalizing t  with
  | zero => exact h
  | succ n ih =>
    unfold pumpEmit
    repeat' (first | with_reducible assumption | (with_reducible refine ih ?_) | with_reducible refine bump_same h_regs ?_ | with_reducible refine emitAt_same h_regs h_strs h_closes h_exempt h_trd h_ver ?_ | with_reducible refine updVer_same h_ver ?_ | with_reducible refine readyNotice_same h_free ?_ | with_reducible refine readyNotice_same h_free ?_ _ _ (by assumption) | split)

theorem pump_same {F : Fld → Bool} {s t : State}  (h_regs : F .regs = true) (h_strs : F .strs = true) (h_closes : F .closes = true) (h_exempt : F .exempt = true) (h_trd : F .trd = true) (h_key : F .key = true) (h_ver : F .ver = true) (h_free : F .free = true) (h : Same F s t) : Same F s (pump t) := by
  unfold pump
  repeat' (first | with_reducible assumption | with_reducible refine fenceCount_same h_key ?_ | with_reducible refine updVer_same h_ver ?_ | with_reducible refine pumpEmit_same h_regs h_strs h_closes h_exempt h_trd h_ver h_free ?_ | split)

theorem emitNotices_same {F : Fld → Bool} {s t : State} {a0 : Nat} (h_regs : F .regs = true) (h_strs : F .strs = true) (h_closes : F .closes = true) (h_exempt : F .exempt = true) (h_trd : F .trd = true) (h_key : F .key = true) (h_ver : F .ver = true) (h_free : F .free = true) (h : Same F s t) : Same F s (emitNotices a0 t) := by
  unfold emitNotices
  repeat' (first | with_reducible assumption | with_reducible refine pump_same h_regs h_strs h_closes h_exempt h_trd h_key h_ver h_free ?_ | with_reducible refine updVer_same h_ver ?_)

theorem placePoison_same {F : Fld → Bool} {s t : State} {a0 : Nat} {a1 : BitVec 32} {a2 : Nat} {a3 : Nat} (h_regs : F .regs = true) (h_strs : F .strs = true) (h_closes : F .closes = true) (h_exempt : F .exempt = true) (h_trd : F .trd = true) (h_stop : F .stop = true) (h_key : F .key = true) (h_wits : F .wits = true) (h_ver : F .ver = true) (h_free : F .free = true) (h : Same F s t) : Same F s (placePoison a0 a1 a2 a3 t) := by
  unfold placePoison
  repeat' (first | with_reducible assumption | with_reducible refine stopEvent_same h_regs h_strs h_closes h_trd h_stop h_wits ?_ | with_reducible refine bump_same h_regs ?_ | with_reducible refine pump_same h_regs h_strs h_closes h_exempt h_trd h_key h_ver h_free ?_ | with_reducible refine enqueue_same h_regs h_ver ?_ | with_reducible refine updVer_same h_ver ?_ | with_reducible refine raise_same h_regs h_trd ?_ | split)

theorem placeReport_same {F : Fld → Bool} {s t : State} {a0 : ErrReport} (h_regs : F .regs = true) (h_strs : F .strs = true) (h_closes : F .closes = true) (h_exempt : F .exempt = true) (h_trd : F .trd = true) (h_key : F .key = true) (h_ver : F .ver = true) (h_free : F .free = true) (h : Same F s t) : Same F s (placeReport a0 t) := by
  unfold placeReport
  repeat' (first | with_reducible assumption | with_reducible refine pump_same h_regs h_strs h_closes h_exempt h_trd h_key h_ver h_free ?_ | with_reducible refine enqueue_same h_regs h_ver ?_ | with_reducible refine updVer_same h_ver ?_ | with_reducible refine Same.ite ?_ ?_)

theorem workLost_same {F : Fld → Bool} {s t : State} {a0 : Nat} {a1 : Nat} {a2 : Nat} {a3 : Nat} {a4 : Nat} {a5 : Nat} (h_regs : F .regs = true) (h_strs : F .strs = true) (h_closes : F .closes = true) (h_exempt : F .exempt = true) (h_trd : F .trd = true) (h_key : F .key = true) (h_ver : F .ver = true) (h_free : F .free = true) (h : Same F s t) : Same F s (workLost a0 a1 a2 a3 a4 a5 t) := by
  unfold workLost
  repeat' (first | with_reducible assumption | with_reducible refine placeReport_same h_regs h_strs h_closes h_exempt h_trd h_key h_ver h_free ?_)

theorem noticesLost_same {F : Fld → Bool} {s t : State} {a0 : Bool} (h_regs : F .regs = true) (h_strs : F .strs = true) (h_closes : F .closes = true) (h_exempt : F .exempt = true) (h_trd : F .trd = true) (h_key : F .key = true) (h_ver : F .ver = true) (h_free : F .free = true) (h : Same F s t) : Same F s (noticesLost a0 t) := by
  unfold noticesLost
  repeat' (first | with_reducible assumption | with_reducible refine updVer_same h_ver ?_ | with_reducible refine workLost_same h_regs h_strs h_closes h_exempt h_trd h_key h_ver h_free ?_ | with_reducible refine refill_same h_regs h_ver ?_ | with_reducible refine Same.ite ?_ ?_)

theorem logNotice_same {F : Fld → Bool} {s t : State} {a0 : Nat} {a1 : Nat} {a2 : BitVec 16} (h_regs : F .regs = true) (h_ver : F .ver = true) (h : Same F s t) : Same F s (logNotice a0 a1 a2 t) := by
  unfold logNotice
  repeat' (first | with_reducible assumption | with_reducible refine bump_same h_regs ?_ | with_reducible refine enqueue_same h_regs h_ver ?_ | with_reducible refine Same.ite ?_ ?_)

theorem fillReports_same {F : Fld → Bool} {s t : State}  (h_regs : F .regs = true) (h_strs : F .strs = true) (h_closes : F .closes = true) (h_exempt : F .exempt = true) (h_trd : F .trd = true) (h_key : F .key = true) (h_ver : F .ver = true) (h_free : F .free = true) (h : Same F s t) : Same F s (fillReports t) := by
  unfold fillReports
  repeat' (first | with_reducible assumption | with_reducible refine fillReport_same h_free ?_ | with_reducible refine fillReport_same h_free ?_ _ _ (by assumption) | with_reducible refine pump_same h_regs h_strs h_closes h_exempt h_trd h_key h_ver h_free ?_ | with_reducible refine updVer_same h_ver ?_ | with_reducible refine foldl2_same (fun _ _ _ => ?_) ?_ | split)

theorem clearBatch_same {F : Fld → Bool} {s t : State}  (h_regs : F .regs = true) (h_strs : F .strs = true) (h_closes : F .closes = true) (h_exempt : F .exempt = true) (h_trd : F .trd = true) (h_key : F .key = true) (h_ver : F .ver = true) (h_free : F .free = true) (h : Same F s t) : Same F s (clearBatch t) := by
  unfold clearBatch
  repeat' (first | with_reducible assumption | with_reducible refine settleEpochs_same h_ver ?_ | with_reducible refine updVer_same h_ver ?_ | with_reducible refine pump_same h_regs h_strs h_closes h_exempt h_trd h_key h_ver h_free ?_ | with_reducible refine enqueue_same h_regs h_ver ?_ | with_reducible refine updOwn_same h_ver ?_ | with_reducible refine Same.ite ?_ ?_ | split)

theorem staleEpoch_same {F : Fld → Bool} {s t : State}  (h_regs : F .regs = true) (h_strs : F .strs = true) (h_closes : F .closes = true) (h_exempt : F .exempt = true) (h_trd : F .trd = true) (h_stop : F .stop = true) (h_key : F .key = true) (h_wits : F .wits = true) (h_ver : F .ver = true) (h_free : F .free = true) (h : Same F s t) : Same F s (staleEpoch t) := by
  unfold staleEpoch
  repeat' (first | with_reducible assumption | with_reducible refine settleEpochs_same h_ver ?_ | with_reducible refine taintOwn_same h_ver ?_ | with_reducible refine placePoison_same h_regs h_strs h_closes h_exempt h_trd h_stop h_key h_wits h_ver h_free ?_ | with_reducible refine updOwn_same h_ver ?_ | with_reducible refine Same.ite ?_ ?_)

theorem goBlind_same {F : Fld → Bool} {s t : State} {a0 : Nat} (h_regs : F .regs = true) (h_trd : F .trd = true) (h_ver : F .ver = true) (h : Same F s t) : Same F s (goBlind a0 t) := by
  unfold goBlind
  repeat' (first | with_reducible assumption | with_reducible refine raise_same h_regs h_trd ?_ | with_reducible refine updVer_same h_ver ?_ | with_reducible refine Same.ite ?_ ?_)

theorem receive_same {F : Fld → Bool} {s t : State} {a0 : Receipt} (h_regs : F .regs = true) (h_trd : F .trd = true) (h_ver : F .ver = true) (h_gates : F .gates = true) (h : Same F s t) : Same F s (receive a0 t) := by
  unfold receive
  repeat' (first | with_reducible assumption | with_reducible refine goBlind_same h_regs h_trd h_ver ?_ | with_reducible refine updVer_same h_ver ?_ | split | with_reducible refine Same.set_gates h_gates ?_)

theorem passReceipt_same {F : Fld → Bool} {s t : State} {a0 : Nat} (h_regs : F .regs = true) (h_trd : F .trd = true) (h_ver : F .ver = true) (h_gates : F .gates = true) (h_links : F .links = true) (h : Same F s t) : Same F s (passReceipt a0 t) := by
  unfold passReceipt
  repeat' (first | with_reducible assumption | with_reducible refine receive_same h_regs h_trd h_ver h_gates ?_ | with_reducible refine updLink_same h_links ?_ | split)

theorem queueReceipt_same {F : Fld → Bool} {s t : State} {a0 : Nat} {a1 : Receipt} (h_regs : F .regs = true) (h_trd : F .trd = true) (h_ver : F .ver = true) (h_links : F .links = true) (h : Same F s t) : Same F s (queueReceipt a0 a1 t) := by
  unfold queueReceipt
  repeat' (first | with_reducible assumption | with_reducible refine goBlind_same h_regs h_trd h_ver ?_ | with_reducible refine updLink_same h_links ?_ | with_reducible refine Same.ite ?_ ?_)

theorem absolveOwn_same {F : Fld → Bool} {s t : State} {a0 : BitVec 16} (h_ver : F .ver = true) (h : Same F s t) : Same F s (absolveOwn a0 t) := by
  unfold absolveOwn
  repeat' (first | with_reducible assumption | with_reducible refine updOwn_same h_ver ?_)

theorem carryEpochs_same {F : Fld → Bool} {s t : State} {a0 : State} (h_ver : F .ver = true) (h : Same F s t) : Same F s (carryEpochs a0 t) := by
  unfold carryEpochs
  repeat' (first | with_reducible assumption | with_reducible refine updOwn_same h_ver ?_)

theorem poisonOwn_same {F : Fld → Bool} {s t : State} {a0 : BitVec 16} (h_regs : F .regs = true) (h_strs : F .strs = true) (h_closes : F .closes = true) (h_exempt : F .exempt = true) (h_trd : F .trd = true) (h_stop : F .stop = true) (h_key : F .key = true) (h_wits : F .wits = true) (h_ver : F .ver = true) (h_free : F .free = true) (h : Same F s t) : Same F s (poisonOwn a0 t) := by
  unfold poisonOwn
  repeat' (first | with_reducible assumption | with_reducible refine settleEpochs_same h_ver ?_ | with_reducible refine raise_same h_regs h_trd ?_ | with_reducible refine bump_same h_regs ?_ | with_reducible refine updOwn_same h_ver ?_ | with_reducible refine placePoison_same h_regs h_strs h_closes h_exempt h_trd h_stop h_key h_wits h_ver h_free ?_ | with_reducible refine taintOwn_same h_ver ?_ | with_reducible refine Same.ite ?_ ?_)

theorem poisonOther_same {F : Fld → Bool} {s t : State} {a0 : Nat} {a1 : BitVec 16} (h_regs : F .regs = true) (h_trd : F .trd = true) (h_ver : F .ver = true) (h : Same F s t) : Same F s (poisonOther a0 a1 t) := by
  unfold poisonOther
  repeat' (first | with_reducible assumption | with_reducible refine goBlind_same h_regs h_trd h_ver ?_ | with_reducible refine updVer_same h_ver ?_ | with_reducible refine raise_same h_regs h_trd ?_ | with_reducible refine bump_same h_regs ?_ | dsimp only | split)

theorem updLed_same {F : Fld → Bool} {s t : State} {a0 : Nat} {a1 : LedEnt → LedEnt} (h_ver : F .ver = true) (h : Same F s t) : Same F s (updLed a0 a1 t) := by
  unfold updLed
  repeat' (first | with_reducible assumption | with_reducible refine updVer_same h_ver ?_ | split)

theorem noticeIn_same {F : Fld → Bool} {s t : State} {a0 : Nat} {a1 : Nat} {a2 : BitVec 16} (h_regs : F .regs = true) (h_strs : F .strs = true) (h_closes : F .closes = true) (h_exempt : F .exempt = true) (h_trd : F .trd = true) (h_stop : F .stop = true) (h_key : F .key = true) (h_wits : F .wits = true) (h_ver : F .ver = true) (h_free : F .free = true) (h : Same F s t) : SameO F s (noticeIn a0 a1 a2 t) := by
  unfold noticeIn
  repeat' (first | with_reducible assumption | with_reducible refine bump_same h_regs ?_ | with_reducible refine poisonOwn_same h_regs h_strs h_closes h_exempt h_trd h_stop h_key h_wits h_ver h_free ?_ | with_reducible refine poisonOther_same h_regs h_trd h_ver ?_ | with_reducible refine updLed_same h_ver ?_ | with_reducible refine absolveOwn_same h_ver ?_ | with_reducible refine settleEpochs_same h_ver ?_ | with_reducible refine updOwn_same h_ver ?_ | with_reducible refine pump_same h_regs h_strs h_closes h_exempt h_trd h_key h_ver h_free ?_ | with_reducible refine logNotice_same h_regs h_ver ?_ | with_reducible exact SameO.none | with_reducible refine SameO.some ?_ | with_reducible refine SameO.ite ?_ ?_ | split)

theorem updGate_same {F : Fld → Bool} {s t : State} {a0 : Nat} {a1 : HedGate → HedGate} (h_gates : F .gates = true) (h : Same F s t) : Same F s (updGate a0 a1 t) := by
  unfold updGate
  repeat' (first | with_reducible assumption | with_reducible refine Same.set_gates h_gates ?_)

theorem startGate_same {F : Fld → Bool} {s t : State} {a0 : Nat} {a1 : Nat} {a2 : Bt} (h_gates : F .gates = true) (h : Same F s t) : Same F s (startGate a0 a1 a2 t) := by
  unfold startGate
  repeat' (first | with_reducible assumption | with_reducible refine updGate_same h_gates ?_)

theorem gateAnswer_same {F : Fld → Bool} {s t : State} {a0 : Nat} (h_regs : F .regs = true) (h_gates : F .gates = true) (h : Same F s t) : Same F s (gateAnswer a0 t) := by
  unfold gateAnswer
  repeat' (first | with_reducible assumption | with_reducible refine count_same h_regs ?_ | with_reducible refine updGate_same h_gates ?_)

theorem gateOpen_same {F : Fld → Bool} {s t : State} {a0 : Nat} (h_regs : F .regs = true) (h_ver : F .ver = true) (h_gates : F .gates = true) (h : Same F s t) : Same F s (gateOpen a0 t) := by
  unfold gateOpen
  repeat' (first | with_reducible assumption | with_reducible refine settleEpochs_same h_ver ?_ | with_reducible refine gateAnswer_same h_regs h_gates ?_ | with_reducible refine startGate_same h_gates ?_ | with_reducible refine Same.ite ?_ ?_ | split)

theorem gateRequest_same {F : Fld → Bool} {s t : State} {a0 : Nat} {a1 : BitVec 4} {a2 : Tdc} (h_regs : F .regs = true) (h_trd : F .trd = true) (h_ver : F .ver = true) (h_gates : F .gates = true) (h : Same F s t) : Same F s (gateRequest a0 a1 a2 t) := by
  unfold gateRequest
  repeat' (first | with_reducible assumption | with_reducible refine updGate_same h_gates ?_ | with_reducible refine setPortErr_same h_regs h_trd ?_ | with_reducible refine bump_same h_regs ?_ | with_reducible refine startGate_same h_gates ?_ | with_reducible refine gateOpen_same h_regs h_ver h_gates ?_ | (extract_lets +onlyGivenNames x; refine (fun (hx : Same F s x) => ?_) ?_; rotate_left; dsimp only [x]; clear x; rotate_right; clear_value x) | with_reducible refine Same.ite ?_ ?_ | split)

theorem gateReleased_same {F : Fld → Bool} {s t : State} {a0 : Nat} (h_regs : F .regs = true) (h_trd : F .trd = true) (h_gates : F .gates = true) (h : Same F s t) : Same F s (gateReleased a0 t) := by
  unfold gateReleased
  repeat' (first | with_reducible assumption | with_reducible refine raise_same h_regs h_trd ?_ | with_reducible refine bump_same h_regs ?_ | with_reducible refine updGate_same h_gates ?_ | dsimp only | split)

theorem updTests_same {F : Fld → Bool} {s t : State} {a0 : Tests → Tests} (h_tests : F .tests = true) (h : Same F s t) : Same F s (updTests a0 t) := by
  unfold updTests
  repeat' (first | with_reducible assumption | with_reducible refine Same.set_tests h_tests ?_)

theorem offerTests_same {F : Fld → Bool} {s t : State}  (h_tests : F .tests = true) (h : Same F s t) : Same F s (offerTests t) := by
  unfold offerTests
  repeat' (first | with_reducible assumption | with_reducible refine updTests_same h_tests ?_ | with_reducible refine foldl_same (fun _ _ _ => ?_) ?_ | with_reducible refine Same.ite ?_ ?_)

theorem testTrigger_same {F : Fld → Bool} {s t : State} {a0 : Nat} {a1 : Nat} {a2 : Nat} (h_tests : F .tests = true) (h : Same F s t) : Same F s (testTrigger a0 a1 a2 t) := by
  unfold testTrigger
  repeat' (first | with_reducible assumption | with_reducible refine updTests_same h_tests ?_ | with_reducible refine foldl_same (fun _ _ _ => ?_) ?_ | with_reducible refine Same.ite ?_ ?_)

theorem testRequest_same {F : Fld → Bool} {s t : State} {a0 : Nat} {a1 : Nat} {a2 : Nat} {a3 : TestState} (h_regs : F .regs = true) (h_trd : F .trd = true) (h_tests : F .tests = true) (h : Same F s t) : Same F s (testRequest a0 a1 a2 a3 t) := by
  unfold testRequest
  repeat' (first | with_reducible assumption | with_reducible refine raise_same h_regs h_trd ?_ | with_reducible refine offerTests_same h_tests ?_ | with_reducible refine updTests_same h_tests ?_)

theorem testMarker_same {F : Fld → Bool} {s t : State} {a0 : Nat} {a1 : Nat} (h_regs : F .regs = true) (h_trd : F .trd = true) (h_tests : F .tests = true) (h : Same F s t) : Same F s (testMarker a0 a1 t) := by
  unfold testMarker
  repeat' (first | with_reducible assumption | with_reducible refine testRequest_same h_regs h_trd h_tests ?_ | with_reducible refine foldl_same (fun _ _ _ => ?_) ?_ | with_reducible refine Same.ite ?_ ?_)

theorem testReport_same {F : Fld → Bool} {s t : State} {a0 : Nat} {a1 : Nat} {a2 : BitVec 32} {a3 : Nat} {a4 : TestState} (h_regs : F .regs = true) (h_strs : F .strs = true) (h_closes : F .closes = true) (h_exempt : F .exempt = true) (h_trd : F .trd = true) (h_key : F .key = true) (h_ver : F .ver = true) (h_tests : F .tests = true) (h_free : F .free = true) (h : Same F s t) : Same F s (testReport a0 a1 a2 a3 a4 t) := by
  unfold testReport
  repeat' (first | with_reducible assumption | with_reducible refine updTests_same h_tests ?_ | with_reducible refine placeReport_same h_regs h_strs h_closes h_exempt h_trd h_key h_ver h_free ?_ | split)

theorem testDeadline_same {F : Fld → Bool} {s t : State} {a0 : Nat} {a1 : Nat} (h_regs : F .regs = true) (h_strs : F .strs = true) (h_closes : F .closes = true) (h_exempt : F .exempt = true) (h_trd : F .trd = true) (h_key : F .key = true) (h_ver : F .ver = true) (h_tests : F .tests = true) (h_free : F .free = true) (h : Same F s t) : Same F s (testDeadline a0 a1 t) := by
  unfold testDeadline
  repeat' (first | with_reducible assumption | with_reducible refine testRequest_same h_regs h_trd h_tests ?_ | with_reducible refine testReport_same h_regs h_strs h_closes h_exempt h_trd h_key h_ver h_tests h_free ?_ | dsimp only | split)

theorem testResult_same {F : Fld → Bool} {s t : State} {a0 : Nat} {a1 : Nat} {a2 : Nat} {a3 : Bt} {a4 : BitVec 32} {a5 : Nat} (h_regs : F .regs = true) (h_strs : F .strs = true) (h_closes : F .closes = true) (h_exempt : F .exempt = true) (h_trd : F .trd = true) (h_key : F .key = true) (h_ver : F .ver = true) (h_tests : F .tests = true) (h_free : F .free = true) (h : Same F s t) : Same F s (testResult a0 a1 a2 a3 a4 a5 t).2 := by
  unfold testResult
  repeat' (first | with_reducible assumption | with_reducible refine testReport_same h_regs h_strs h_closes h_exempt h_trd h_key h_ver h_tests h_free ?_ | with_reducible refine foldl2_same (fun _ _ _ => ?_) ?_ | split)

theorem testResult_same_eq {F : Fld → Bool} {s t : State} {a0 : Nat} {a1 : Nat} {a2 : Nat} {a3 : Bt} {a4 : BitVec 32} {a5 : Nat} (h_regs : F .regs = true) (h_strs : F .strs = true) (h_closes : F .closes = true) (h_exempt : F .exempt = true) (h_trd : F .trd = true) (h_key : F .key = true) (h_ver : F .ver = true) (h_tests : F .tests = true) (h_free : F .free = true) {x} {u : State} (e : testResult a0 a1 a2 a3 a4 a5 t = (x, u)) (h : Same F s t) : Same F s u := by
  have := testResult_same (F := F) (s := s) (t := t) (a0 := a0) (a1 := a1) (a2 := a2) (a3 := a3) (a4 := a4) (a5 := a5) h_regs h_strs h_closes h_exempt h_trd h_key h_ver h_tests h_free h
  rw [e] at this; exact this

theorem testRetired_same {F : Fld → Bool} {s t : State} {a0 : Nat} (h_regs : F .regs = true) (h_strs : F .strs = true) (h_closes : F .closes = true) (h_exempt : F .exempt = true) (h_trd : F .trd = true) (h_key : F .key = true) (h_ver : F .ver = true) (h_tests : F .tests = true) (h_free : F .free = true) (h : Same F s t) : Same F s (testRetired a0 t) := by
  unfold testRetired
  repeat' (first | with_reducible assumption | with_reducible refine testReport_same h_regs h_strs h_closes h_exempt h_trd h_key h_ver h_tests h_free ?_ | with_reducible refine foldl_same (fun _ _ _ => ?_) ?_ | with_reducible refine Same.ite ?_ ?_)

theorem testEnabled_same {F : Fld → Bool} {s t : State} {a0 : Nat} (h_tests : F .tests = true) (h : Same F s t) : Same F s (testEnabled a0 t) := by
  unfold testEnabled
  repeat' (first | with_reducible assumption | with_reducible refine updTests_same h_tests ?_ | with_reducible refine testTrigger_same h_tests ?_ | with_reducible refine Same.ite ?_ ?_)

theorem freezeTests_same {F : Fld → Bool} {s t : State}  (h_tests : F .tests = true) (h : Same F s t) : Same F s (freezeTests t) := by
  unfold freezeTests
  repeat' (first | with_reducible assumption | with_reducible refine updTests_same h_tests ?_ | split)

theorem testNext_same {F : Fld → Bool} {s t : State}  (h_tests : F .tests = true) (h : Same F s t) : Same F s (testNext t).2 := by
  unfold testNext
  repeat' (first | with_reducible assumption | with_reducible refine offerTests_same h_tests ?_ | with_reducible refine updTests_same h_tests ?_ | split)

theorem testNext_same_eq {F : Fld → Bool} {s t : State}  (h_tests : F .tests = true) {x} {u : State} (e : testNext t = (x, u)) (h : Same F s t) : Same F s u := by
  have := testNext_same (F := F) (s := s) (t := t)  h_tests h
  rw [e] at this; exact this

theorem manifestDone_same {F : Fld → Bool} {s t : State}  (h_regs : F .regs = true) (h_trd : F .trd = true) (h_tests : F .tests = true) (h : Same F s t) : Same F s (manifestDone t) := by
  unfold manifestDone
  repeat' (first | with_reducible assumption | with_reducible refine updTests_same h_tests ?_ | with_reducible refine setErr_same h_regs h_trd ?_ | with_reducible refine Same.ite ?_ ?_ | split)

theorem updTime_same {F : Fld → Bool} {s t : State} {a0 : Nat} {a1 : LinkTime → LinkTime} (h_linkTimes : F .linkTimes = true) (h : Same F s t) : Same F s (updTime a0 a1 t) := by
  unfold updTime
  repeat' (first | with_reducible assumption | with_reducible refine Same.set_linkTimes h_linkTimes ?_)

theorem holdLnk_same {F : Fld → Bool} {s t : State} {a0 : Nat} {a1 : LinkHeld} (h_links : F .links = true) (h : Same F s t) : Same F s (holdLnk a0 a1 t) := by
  unfold holdLnk
  repeat' (first | with_reducible assumption | with_reducible refine updLink_same h_links ?_)

theorem linkEvent_same {F : Fld → Bool} {s t : State} {a0 : Nat} {a1 : Nat} {a2 : At} {a3 : BitVec 2} {a4 : Nat} (h_links : F .links = true) (h : Same F s t) : Same F s (linkEvent a0 a1 a2 a3 a4 t) := by
  unfold linkEvent
  repeat' (first | with_reducible assumption | with_reducible refine holdLnk_same h_links ?_ | dsimp only | with_reducible refine Same.ite ?_ ?_)

theorem linkEventNow_same {F : Fld → Bool} {s t : State} {a0 : Nat} {a1 : Nat} (h_links : F .links = true) (h : Same F s t) : Same F s (linkEventNow a0 a1 t) := by
  unfold linkEventNow
  repeat' (first | with_reducible assumption | with_reducible refine linkEvent_same h_links ?_)

theorem freezeForStop_same {F : Fld → Bool} {s t : State} {a0 : Nat} {a1 : Bool} {a2 : Nat} (h_links : F .links = true) (h : Same F s t) : Same F s (freezeForStop a0 a1 a2 t) := by
  unfold freezeForStop
  repeat' (first | with_reducible assumption | with_reducible refine holdLnk_same h_links ?_ | with_reducible refine updLink_same h_links ?_ | dsimp only)

theorem linkCut_same {F : Fld → Bool} {s t : State} {a0 : Nat} {a1 : Nat} (h_links : F .links = true) (h : Same F s t) : Same F s (linkCut a0 a1 t) := by
  unfold linkCut
  repeat' (first | with_reducible assumption | with_reducible refine updLink_same h_links ?_ | with_reducible refine freezeForStop_same h_links ?_ | with_reducible refine Same.ite ?_ ?_)

theorem graceExpiry_same {F : Fld → Bool} {s t : State} {a0 : Nat} (h_links : F .links = true) (h : Same F s t) : Same F s (graceExpiry a0 t) := by
  unfold graceExpiry
  repeat' (first | with_reducible assumption | with_reducible refine freezeForStop_same h_links ?_ | with_reducible refine Same.ite ?_ ?_)

theorem linkResume_same {F : Fld → Bool} {s t : State} {a0 : Nat} (h_links : F .links = true) (h : Same F s t) : Same F s (linkResume a0 t) := by
  unfold linkResume
  repeat' (first | with_reducible assumption | with_reducible refine updLink_same h_links ?_)

theorem ringPut_same {F : Fld → Bool} {s t : State} {a0 : Nat} {a1 : Hdr} {a2 : Nat} (h_links : F .links = true) (h : Same F s t) : Same F s (ringPut a0 a1 a2 t) := by
  unfold ringPut
  repeat' (first | with_reducible assumption | with_reducible refine updLink_same h_links ?_)

theorem loseHeaders_same {F : Fld → Bool} {s t : State} {a0 : Nat} {a1 : Nat} (h_regs : F .regs = true) (h_links : F .links = true) (h : Same F s t) : Same F s (loseHeaders a0 a1 t) := by
  unfold loseHeaders
  repeat' (first | with_reducible assumption | with_reducible refine updLink_same h_links ?_ | with_reducible refine bump_same h_regs ?_ | with_reducible refine Same.ite ?_ ?_)

theorem headerCapture_same {F : Fld → Bool} {s t : State} {a0 : Nat} {a1 : Hdr} (h_regs : F .regs = true) (h_trd : F .trd = true) (h_ver : F .ver = true) (h_links : F .links = true) (h : Same F s t) : Same F s (headerCapture a0 a1 t) := by
  unfold headerCapture
  repeat' (first | with_reducible assumption | with_reducible refine updLink_same h_links ?_ | with_reducible refine setPortErr_same h_regs h_trd ?_ | with_reducible refine loseHeaders_same h_regs h_links ?_ | with_reducible refine goBlind_same h_regs h_trd h_ver ?_ | with_reducible refine queueReceipt_same h_regs h_trd h_ver h_links ?_ | with_reducible refine ringPut_same h_links ?_ | with_reducible refine bump_same h_regs ?_ | with_reducible refine setErr_same h_regs h_trd ?_ | with_reducible refine Same.ite ?_ ?_)

theorem ringRelease_same {F : Fld → Bool} {s t : State} {a0 : Nat} (h_links : F .links = true) (h : Same F s t) : SameO F s (ringRelease a0 t) := by
  unfold ringRelease
  repeat' (first | with_reducible assumption | with_reducible refine linkEventNow_same h_links ?_ | with_reducible refine updLink_same h_links ?_ | with_reducible exact SameO.none | with_reducible refine SameO.some ?_ | with_reducible refine SameO.ite ?_ ?_)

theorem updThreads_same {F : Fld → Bool} {s t : State} {a0 : Nat} {a1 : Thread → Bool} {a2 : Thread → Thread} (h_links : F .links = true) (h : Same F s t) : Same F s (updThreads a0 a1 a2 t) := by
  unfold updThreads
  repeat' (first | with_reducible assumption | with_reducible refine updLink_same h_links ?_)

theorem listStep_same {F : Fld → Bool} {s t : State} {a0 : Nat} (h_regs : F .regs = true) (h_strs : F .strs = true) (h_closes : F .closes = true) (h_exempt : F .exempt = true) (h_refused : F .refused = true) (h_trd : F .trd = true) (h_key : F .key = true) (h_links : F .links = true) (h : Same F s t) : Same F s (listStep a0 t).2 := by
  unfold listStep
  repeat' (first | with_reducible assumption | with_reducible refine emitExempt_same h_regs h_strs h_closes h_exempt h_refused h_trd h_key ?_ | with_reducible refine updThreads_same h_links ?_ | with_reducible refine updLink_same h_links ?_ | dsimp only | split)

theorem listStep_same_eq {F : Fld → Bool} {s t : State} {a0 : Nat} (h_regs : F .regs = true) (h_strs : F .strs = true) (h_closes : F .closes = true) (h_exempt : F .exempt = true) (h_refused : F .refused = true) (h_trd : F .trd = true) (h_key : F .key = true) (h_links : F .links = true) {x} {u : State} (e : listStep a0 t = (x, u)) (h : Same F s t) : Same F s u := by
  have := listStep_same (F := F) (s := s) (t := t) (a0 := a0) h_regs h_strs h_closes h_exempt h_refused h_trd h_key h_links h
  rw [e] at this; exact this

theorem listPump_same {F : Fld → Bool} {s t : State} {a0 : Nat} {a1 : Nat} (h_regs : F .regs = true) (h_strs : F .strs = true) (h_closes : F .closes = true) (h_exempt : F .exempt = true) (h_refused : F .refused = true) (h_trd : F .trd = true) (h_key : F .key = true) (h_links : F .links = true) (h : Same F s t) : Same F s (listPump a0 a1 t) := by
  induction a0 generalizing t a1 with
  | zero => exact h
  | succ n ih =>
    unfold listPump
    repeat' (first | with_reducible assumption | (with_reducible refine ih ?_) | with_reducible refine listStep_same h_regs h_strs h_closes h_exempt h_refused h_trd h_key h_links ?_ | (extract_lets +onlyGivenNames x; refine (fun (hx : Same F s x.2) => ?_) ?_; rotate_left; dsimp only [x]; clear x; rotate_right; clear_value x) | with_reducible refine Same.ite ?_ ?_)

theorem LinkHeld_take_same {F : Fld → Bool} {s t : State} {a0 : Nat} {a1 : LinkHeld} (h_regs : F .regs = true) (h_strs : F .strs = true) (h_closes : F .closes = true) (h_exempt : F .exempt = true) (h_refused : F .refused = true) (h_trd : F .trd = true) (h_key : F .key = true) (h_links : F .links = true) (h : Same F s t) : Same F s (LinkHeld.take a0 a1 t) := by
  unfold LinkHeld.take
  repeat' (first | with_reducible assumption | with_reducible refine emitExempt_same h_regs h_strs h_closes h_exempt h_refused h_trd h_key ?_ | with_reducible refine updLink_same h_links ?_ | (extract_lets +onlyGivenNames x; refine (fun (hx : Same F s x.2) => ?_) ?_; rotate_left; dsimp only [x]; clear x; rotate_right; clear_value x) | split)

theorem offerLnk_same {F : Fld → Bool} {s t : State} {a0 : Nat} {a2 : LinkHeld} (h_regs : F .regs = true) (h_strs : F .strs = true) (h_closes : F .closes = true) (h_exempt : F .exempt = true) (h_refused : F .refused = true) (h_trd : F .trd = true) (h_key : F .key = true) (h_links : F .links = true) (h : Same F s t) : Same F s (offerLnk a0 t a2) := by
  unfold offerLnk
  repeat' (first | with_reducible assumption | with_reducible refine holdLnk_same h_links ?_ | with_reducible refine LinkHeld_take_same h_regs h_strs h_closes h_exempt h_refused h_trd h_key h_links ?_ | with_reducible refine Same.ite ?_ ?_)

theorem settleEvents_same {F : Fld → Bool} {s t : State} {a0 : Nat} (h_regs : F .regs = true) (h_strs : F .strs = true) (h_closes : F .closes = true) (h_exempt : F .exempt = true) (h_refused : F .refused = true) (h_trd : F .trd = true) (h_key : F .key = true) (h_links : F .links = true) (h : Same F s t) : Same F s (settleEvents a0 t) := by
  unfold settleEvents
  repeat' (first | with_reducible assumption | with_reducible refine offerLnk_same h_regs h_strs h_closes h_exempt h_refused h_trd h_key h_links ?_ | with_reducible refine updLink_same h_links ?_ | with_reducible refine foldl_same (fun _ _ _ => ?_) ?_ | with_reducible refine Same.ite ?_ ?_)

theorem settleLnk_same {F : Fld → Bool} {s t : State} {a0 : Nat} (h_regs : F .regs = true) (h_strs : F .strs = true) (h_closes : F .closes = true) (h_exempt : F .exempt = true) (h_refused : F .refused = true) (h_trd : F .trd = true) (h_key : F .key = true) (h_links : F .links = true) (h : Same F s t) : Same F s (settleLnk a0 t) := by
  unfold settleLnk
  repeat' (first | with_reducible assumption | with_reducible refine settleEvents_same h_regs h_strs h_closes h_exempt h_refused h_trd h_key h_links ?_ | with_reducible refine listPump_same h_regs h_strs h_closes h_exempt h_refused h_trd h_key h_links ?_)

theorem closeList_same {F : Fld → Bool} {s t : State} {a0 : Nat} {a1 : Nat} {a2 : Bool} (h_links : F .links = true) (h : Same F s t) : Same F s (closeList a0 a1 a2 t) := by
  unfold closeList
  repeat' (first | with_reducible assumption | with_reducible refine updThreads_same h_links ?_)

theorem linkDown_same {F : Fld → Bool} {s t : State} {a0 : Nat} {a1 : Nat} {a2 : Bt} (h_regs : F .regs = true) (h_strs : F .strs = true) (h_closes : F .closes = true) (h_exempt : F .exempt = true) (h_refused : F .refused = true) (h_trd : F .trd = true) (h_key : F .key = true) (h_links : F .links = true) (h : Same F s t) : Same F s (linkDown a0 a1 a2 t) := by
  unfold linkDown
  repeat' (first | with_reducible assumption | with_reducible refine freezeForStop_same h_links ?_ | with_reducible refine updLink_same h_links ?_ | with_reducible refine settleLnk_same h_regs h_strs h_closes h_exempt h_refused h_trd h_key h_links ?_ | with_reducible refine closeList_same h_links ?_ | with_reducible refine Same.ite ?_ ?_)

theorem unackEntry_same {F : Fld → Bool} {s t : State} {a0 : Nat} {a1 : BitVec 32} {a2 : BitVec 32} (h_regs : F .regs = true) (h_strs : F .strs = true) (h_closes : F .closes = true) (h_exempt : F .exempt = true) (h_refused : F .refused = true) (h_trd : F .trd = true) (h_key : F .key = true) (h_links : F .links = true) (h : Same F s t) : Same F s (unackEntry a0 a1 a2 t) := by
  unfold unackEntry
  repeat' (first | with_reducible assumption | with_reducible refine bump_same h_regs ?_ | with_reducible refine setPortErr_same h_regs h_trd ?_ | with_reducible refine setErr_same h_regs h_trd ?_ | with_reducible refine updThreads_same h_links ?_ | with_reducible refine settleLnk_same h_regs h_strs h_closes h_exempt h_refused h_trd h_key h_links ?_ | with_reducible refine Same.ite ?_ ?_ | split)

theorem unackEnd_same {F : Fld → Bool} {s t : State} {a0 : Nat} (h_regs : F .regs = true) (h_strs : F .strs = true) (h_closes : F .closes = true) (h_exempt : F .exempt = true) (h_refused : F .refused = true) (h_trd : F .trd = true) (h_key : F .key = true) (h_links : F .links = true) (h : Same F s t) : Same F s (unackEnd a0 t) := by
  unfold unackEnd
  repeat' (first | with_reducible assumption | with_reducible refine setPortErr_same h_regs h_trd ?_ | with_reducible refine settleLnk_same h_regs h_strs h_closes h_exempt h_refused h_trd h_key h_links ?_ | with_reducible refine closeList_same h_links ?_ | with_reducible refine updThreads_same h_links ?_ | with_reducible refine Same.ite ?_ ?_)

theorem listTimeout_same {F : Fld → Bool} {s t : State} {a0 : Nat} (h_regs : F .regs = true) (h_strs : F .strs = true) (h_closes : F .closes = true) (h_exempt : F .exempt = true) (h_refused : F .refused = true) (h_trd : F .trd = true) (h_key : F .key = true) (h_links : F .links = true) (h : Same F s t) : Same F s (listTimeout a0 t) := by
  unfold listTimeout
  repeat' (first | with_reducible assumption | with_reducible refine settleLnk_same h_regs h_strs h_closes h_exempt h_refused h_trd h_key h_links ?_ | with_reducible refine setErr_same h_regs h_trd ?_ | with_reducible refine closeList_same h_links ?_ | split)

theorem linkFails_same {F : Fld → Bool} {s t : State} {a0 : Nat} (h_links : F .links = true) (h : Same F s t) : Same F s (linkFails a0 t) := by
  unfold linkFails
  repeat' (first | with_reducible assumption | with_reducible refine updLink_same h_links ?_)

theorem linkLeaves_same {F : Fld → Bool} {s t : State} {a0 : Nat} (h_regs : F .regs = true) (h_trd : F .trd = true) (h_ver : F .ver = true) (h_links : F .links = true) (h : Same F s t) : Same F s (linkLeaves a0 t) := by
  unfold linkLeaves
  repeat' (first | with_reducible assumption | with_reducible refine updLink_same h_links ?_ | with_reducible refine goBlind_same h_regs h_trd h_ver ?_ | with_reducible refine Same.ite ?_ ?_)

theorem epochQuery_same {F : Fld → Bool} {s t : State} {a0 : Nat} {a1 : Nat} (h_links : F .links = true) (h : Same F s t) : Same F s (epochQuery a0 a1 t) := by
  unfold epochQuery
  repeat' (first | with_reducible assumption | with_reducible refine updLink_same h_links ?_)

theorem updCal_same {F : Fld → Bool} {s t : State} {a0 : Cal → Cal} (h_cal : F .cal = true) (h : Same F s t) : Same F s (updCal a0 t) := by
  unfold updCal
  repeat' (first | with_reducible assumption | with_reducible refine Same.set_cal h_cal ?_)

theorem calPut_same {F : Fld → Bool} {s t : State} {a0 : Nat} {a1 : Nat} {a2 : Word} (h_cal : F .cal = true) (h : Same F s t) : Same F s (calPut a0 a1 a2 t) := by
  unfold calPut
  repeat' (first | with_reducible assumption | with_reducible refine updCal_same h_cal ?_)

theorem calAccess_same {F : Fld → Bool} {s t : State} {a0 : Option Word} (h_regs : F .regs = true) (h_cal : F .cal = true) (h : Same F s t) : SameOP F s (calAccess a0 t) := by
  unfold calAccess
  repeat' (first | with_reducible assumption | with_reducible refine calPut_same h_cal ?_ | with_reducible refine regSetFld_same h_regs ?_ | with_reducible exact SameOP.none | with_reducible refine SameOP.some ?_ | dsimp only | split)

theorem calStoreWrite_same {F : Fld → Bool} {s t : State} {a0 : Bool} (h_regs : F .regs = true) (h_trd : F .trd = true) (h_cal : F .cal = true) (h_free : F .free = true) (h : Same F s t) : Same F s (calStoreWrite a0 t) := by
  unfold calStoreWrite
  repeat' (first | with_reducible assumption | with_reducible refine updCal_same h_cal ?_ | with_reducible refine takeFree_same h_free ?_ | with_reducible refine setErr_same h_regs h_trd ?_ | split)

theorem calStart_same {F : Fld → Bool} {s t : State}  (h_tim : F .tim = true) (h : Same F s t) : Same F s (calStart t) := by
  unfold calStart
  repeat' (first | with_reducible assumption | with_reducible refine Same.set_tim h_tim rfl ?_)

theorem calPartReset_same {F : Fld → Bool} {s t : State} {a0 : Nat} (h_regs : F .regs = true) (h_tim : F .tim = true) (h_trd : F .trd = true) (h : Same F s t) : Same F s (calPartReset a0 t) := by
  unfold calPartReset
  repeat' (first | with_reducible assumption | with_reducible refine setErr_same h_regs h_trd ?_ | with_reducible refine Same.ite ?_ ?_ | with_reducible refine Same.set_tim h_tim rfl ?_)

theorem supplyByte_same {F : Fld → Bool} {s t : State} {a1 : Nat} {a2 : Nat} (h_free : F .free = true) (h : Same F s t) : Same F s (supplyByte t a1 a2).2 := by
  unfold supplyByte
  repeat' (first | with_reducible assumption | with_reducible refine freeRound_same h_free ?_ | split)

theorem supplyByte_same_eq {F : Fld → Bool} {s t : State} {a1 : Nat} {a2 : Nat} (h_free : F .free = true) {x} {u : State} (e : supplyByte t a1 a2 = (x, u)) (h : Same F s t) : Same F s u := by
  have := supplyByte_same (F := F) (s := s) (t := t) (a1 := a1) (a2 := a2) h_free h
  rw [e] at this; exact this

theorem storeLine_same {F : Fld → Bool} {s t : State} {a0 : List (Nat × Word)} {a1 : Nat} {a2 : Nat} (h_cal : F .cal = true) (h_free : F .free = true) (h : Same F s t) : Same F s (storeLine a0 a1 a2 t) := by
  unfold storeLine
  repeat' (first | with_reducible assumption | with_reducible refine supplyByte_same h_free ?_ | with_reducible refine calPut_same h_cal ?_)

theorem storePoint_same {F : Fld → Bool} {s t : State} {a0 : List (Nat × Word)} {a1 : Nat} (h_cal : F .cal = true) (h_free : F .free = true) (h : Same F s t) : Same F s (storePoint a0 a1 t) := by
  unfold storePoint
  repeat' (first | with_reducible assumption | with_reducible refine storeLine_same h_cal h_free ?_ | with_reducible refine updCal_same h_cal ?_)

theorem storeTemp_same {F : Fld → Bool} {s t : State} {a0 : Nat} (h_cal : F .cal = true) (h_free : F .free = true) (h : Same F s t) : Same F s (storeTemp a0 t) := by
  unfold storeTemp
  repeat' (first | with_reducible assumption | with_reducible refine freeRound_same h_free ?_ | with_reducible refine calPut_same h_cal ?_ | with_reducible refine Same.ite ?_ ?_ | split)

theorem calRunComplete_same {F : Fld → Bool} {s t : State} {a0 : List (Nat × Word)} {a1 : List Nat} (h_regs : F .regs = true) (h_tim : F .tim = true) (h_trd : F .trd = true) (h_cal : F .cal = true) (h_free : F .free = true) (h : Same F s t) : Same F s (calRunComplete a0 a1 t) := by
  unfold calRunComplete
  repeat' (first | with_reducible assumption | with_reducible refine storePoint_same h_cal h_free ?_ | with_reducible refine storeTemp_same h_cal h_free ?_ | with_reducible refine regPut_same h_regs ?_ | with_reducible refine setErr_same h_regs h_trd ?_ | with_reducible refine foldl_same (fun _ _ _ => ?_) ?_ | with_reducible refine Same.ite ?_ ?_ | with_reducible refine Same.set_tim h_tim rfl ?_)

theorem trimSample_same {F : Fld → Bool} {s t : State} {a0 : Nat} {a1 : Bool} {a2 : BitVec 16} (h_free : F .free = true) (h : Same F s t) : Same F s (trimSample a0 a1 a2 t).2 := by
  unfold trimSample
  repeat' (first | with_reducible assumption | with_reducible refine freeRound_same h_free ?_ | with_reducible refine takeFree_same h_free ?_ | dsimp only | split)

theorem trimSample_same_eq {F : Fld → Bool} {s t : State} {a0 : Nat} {a1 : Bool} {a2 : BitVec 16} (h_free : F .free = true) {x} {u : State} (e : trimSample a0 a1 a2 t = (x, u)) (h : Same F s t) : Same F s u := by
  have := trimSample_same (F := F) (s := s) (t := t) (a0 := a0) (a1 := a1) (a2 := a2) h_free h
  rw [e] at this; exact this

theorem calRises_same {F : Fld → Bool} {s t : State}  (h_regs : F .regs = true) (h_tim : F .tim = true) (h_trd : F .trd = true) (h : Same F s t) : Same F s (calRises t) := by
  unfold calRises
  repeat' (first | with_reducible assumption | with_reducible refine raise_same h_regs h_trd ?_ | with_reducible refine calStart_same h_tim ?_ | with_reducible refine Same.ite ?_ ?_ | with_reducible refine Same.set_tim h_tim rfl ?_)

theorem mapChannel_same {F : Fld → Bool} {s t : State} {a0 : Nat} (h_sens : F .sens = true) (h_snsOn : F .snsOn = true) (h : Same F s t) : Same F s (mapChannel a0 t) := by
  unfold mapChannel
  dsimp only
  split
  · exact h
  · intro f hf
    cases f <;> first
      | exact h _ hf
      | exact absurd (hf.symm.trans h_sens) Bool.false_ne_true
      | exact absurd (hf.symm.trans h_snsOn) Bool.false_ne_true

theorem sensorSample_same {F : Fld → Bool} {s t : State} {a0 : Nat} {a1 : Bool} {a2 : BitVec 16} {a3 : Tdc} (h_regs : F .regs = true) (h_tim : F .tim = true) (h_strs : F .strs = true) (h_closes : F .closes = true) (h_exempt : F .exempt = true) (h_trd : F .trd = true) (h_key : F .key = true) (h_ver : F .ver = true) (h_sens : F .sens = true) (h_snsOn : F .snsOn = true) (h_free : F .free = true) (h : Same F s t) : Same F s (sensorSample a0 a1 a2 a3 t) := by
  unfold sensorSample
  repeat' (first | with_reducible assumption | with_reducible refine mapChannel_same h_sens h_snsOn ?_ | with_reducible refine setPortErr_same h_regs h_trd ?_ | with_reducible refine bump_same h_regs ?_ | with_reducible refine trimSample_same h_free ?_ | with_reducible refine calRises_same h_regs h_tim h_trd ?_ | with_reducible refine fillReports_same h_regs h_strs h_closes h_exempt h_trd h_key h_ver h_free ?_ | with_reducible refine Same.ite ?_ ?_ | with_reducible refine Same.set_sens h_sens ?_)

theorem cardLoad_same {F : Fld → Bool} {s t : State} {a0 : Nat} (h_cards : F .cards = true) (h_shadows : F .shadows = true) (h : Same F s t) : SameO F s (cardLoad a0 t) := by
  unfold cardLoad
  dsimp only
  split
  · exact SameO.none
  · refine SameO.some ?_
    intro f hf
    cases f <;> first
      | exact h _ hf
      | exact absurd (hf.symm.trans h_cards) Bool.false_ne_true
      | exact absurd (hf.symm.trans h_shadows) Bool.false_ne_true

theorem cardFetch_same {F : Fld → Bool} {s t : State} {a0 : Nat} (h_regs : F .regs = true) (h : Same F s t) : SameO F s (cardFetch a0 t) := by
  unfold cardFetch
  repeat' (first | with_reducible assumption | with_reducible refine regPut_same h_regs ?_ | with_reducible exact SameO.none | with_reducible refine SameO.some ?_ | with_reducible refine foldl_same (fun _ _ _ => ?_) ?_ | with_reducible refine SameO.ite ?_ ?_)

theorem copyShadow_same {F : Fld → Bool} {s t : State} {a0 : Nat} (h_shadows : F .shadows = true) (h : Same F s t) : Same F s (copyShadow a0 t) := by
  unfold copyShadow
  repeat' (first | with_reducible assumption | with_reducible refine foldl_same (fun _ _ _ => ?_) ?_ | with_reducible refine Same.set_shadows h_shadows ?_)

theorem unserved_same {F : Fld → Bool} {s t : State} {a0 : Nat} {a1 : BitVec 4} {a2 : Bt} (h_regs : F .regs = true) (h_strs : F .strs = true) (h_closes : F .closes = true) (h_exempt : F .exempt = true) (h_trd : F .trd = true) (h_stop : F .stop = true) (h_key : F .key = true) (h_wits : F .wits = true) (h_lapsed : F .lapsed = true) (h_ver : F .ver = true) (h_free : F .free = true) (h : Same F s t) : Same F s (unserved a0 a1 a2 t) := by
  unfold unserved
  repeat' (first | with_reducible assumption | with_reducible refine bump_same h_regs ?_ | with_reducible refine taintOwn_same h_ver ?_ | with_reducible refine settleEpochs_same h_ver ?_ | with_reducible refine placePoison_same h_regs h_strs h_closes h_exempt h_trd h_stop h_key h_wits h_ver h_free ?_ | with_reducible refine Same.ite ?_ ?_ | with_reducible refine Same.set_lapsed h_lapsed ?_)

theorem drainOut_same {F : Fld → Bool} {s t : State} {a0 : Nat} {a1 : Nat} (h_regs : F .regs = true) (h_strs : F .strs = true) (h_closes : F .closes = true) (h_exempt : F .exempt = true) (h_refused : F .refused = true) (h_trd : F .trd = true) (h_wits : F .wits = true) (h : Same F s t) : Same F s (drainOut a0 a1 t) := by
  induction a0 generalizing t a1 with
  | zero => exact h
  | succ n ih =>
    unfold drainOut
    repeat' (first | with_reducible assumption | (with_reducible refine ih ?_) | with_reducible refine retain_same h_regs h_strs h_closes h_exempt h_refused h_trd ?_ | with_reducible refine updWit_same h_wits ?_ | dsimp only | split)

theorem witEmit_same {F : Fld → Bool} {s t : State} {a0 : Nat} {a1 : List (Bt × Pick)} (h_regs : F .regs = true) (h_strs : F .strs = true) (h_closes : F .closes = true) (h_exempt : F .exempt = true) (h_refused : F .refused = true) (h_trd : F .trd = true) (h_wits : F .wits = true) (h : Same F s t) : Same F s (witEmit a0 a1 t) := by
  unfold witEmit
  repeat' (first | with_reducible assumption | with_reducible refine drainOut_same h_regs h_strs h_closes h_exempt h_refused h_trd h_wits ?_ | with_reducible refine updWit_same h_wits ?_)

theorem updCheck_same {F : Fld → Bool} {s t : State} {a0 : Nat} {a1 : BitVec 32} {a2 : Check → Check} (h_wits : F .wits = true) (h : Same F s t) : Same F s (updCheck a0 a1 a2 t) := by
  unfold updCheck
  repeat' (first | with_reducible assumption | with_reducible refine updWit_same h_wits ?_)

theorem endCheck_same {F : Fld → Bool} {s t : State} {a0 : Nat} {a1 : Check} {a2 : Nat} {a3 : Nat} {a4 : Nat} (h_regs : F .regs = true) (h_wits : F .wits = true) (h : Same F s t) : Same F s (endCheck a0 a1 a2 a3 a4 t) := by
  unfold endCheck
  repeat' (first | with_reducible assumption | with_reducible refine updWit_same h_wits ?_ | with_reducible refine updCheck_same h_wits ?_ | with_reducible refine bump_same h_regs ?_ | with_reducible refine Same.ite ?_ ?_)

theorem acceptResult_same {F : Fld → Bool} {s t : State} {a0 : Nat} {a1 : Check} {a2 : Verdict} (h_regs : F .regs = true) (h_strs : F .strs = true) (h_closes : F .closes = true) (h_exempt : F .exempt = true) (h_refused : F .refused = true) (h_trd : F .trd = true) (h_stop : F .stop = true) (h_key : F .key = true) (h_wits : F .wits = true) (h_ver : F .ver = true) (h_tests : F .tests = true) (h_free : F .free = true) (h : Same F s t) : Same F s (acceptResult a0 a1 a2 t) := by
  unfold acceptResult
  repeat' (first | with_reducible assumption | with_reducible refine retain_same h_regs h_strs h_closes h_exempt h_refused h_trd ?_ | with_reducible refine updWit_same h_wits ?_ | with_reducible refine updOwn_same h_ver ?_ | with_reducible refine bump_same h_regs ?_ | with_reducible refine raise_same h_regs h_trd ?_ | with_reducible refine setErr_same h_regs h_trd ?_ | with_reducible refine settleEpochs_same h_ver ?_ | with_reducible refine placePoison_same h_regs h_strs h_closes h_exempt h_trd h_stop h_key h_wits h_ver h_free ?_ | with_reducible refine taintOwn_same h_ver ?_ | with_reducible refine testResult_same h_regs h_strs h_closes h_exempt h_trd h_key h_ver h_tests h_free ?_ | with_reducible refine testTrigger_same h_tests ?_ | dsimp only | with_reducible refine Same.ite ?_ ?_)

theorem flushResults_same {F : Fld → Bool} {s t : State} {a0 : Nat} {a1 : Nat} (h_regs : F .regs = true) (h_strs : F .strs = true) (h_closes : F .closes = true) (h_exempt : F .exempt = true) (h_refused : F .refused = true) (h_trd : F .trd = true) (h_stop : F .stop = true) (h_key : F .key = true) (h_wits : F .wits = true) (h_ver : F .ver = true) (h_tests : F .tests = true) (h_free : F .free = true) (h : Same F s t) : Same F s (flushResults a0 a1 t) := by
  induction a0 generalizing t a1 with
  | zero => exact h
  | succ n ih =>
    unfold flushResults
    repeat' (first | with_reducible assumption | (with_reducible refine ih ?_) | with_reducible refine drainOut_same h_regs h_strs h_closes h_exempt h_refused h_trd h_wits ?_ | with_reducible refine acceptResult_same h_regs h_strs h_closes h_exempt h_refused h_trd h_stop h_key h_wits h_ver h_tests h_free ?_ | with_reducible refine Same.ite ?_ ?_ | split)

theorem witFlush_same {F : Fld → Bool} {s t : State} {a0 : Nat} (h_regs : F .regs = true) (h_strs : F .strs = true) (h_closes : F .closes = true) (h_exempt : F .exempt = true) (h_refused : F .refused = true) (h_trd : F .trd = true) (h_stop : F .stop = true) (h_key : F .key = true) (h_wits : F .wits = true) (h_ver : F .ver = true) (h_tests : F .tests = true) (h_free : F .free = true) (h : Same F s t) : Same F s (witFlush a0 t) := by
  unfold witFlush
  repeat' (first | with_reducible assumption | with_reducible refine flushResults_same h_regs h_strs h_closes h_exempt h_refused h_trd h_stop h_key h_wits h_ver h_tests h_free ?_)

theorem concludeCheck_same {F : Fld → Bool} {s t : State} {a0 : Nat} {a1 : Check} (h_regs : F .regs = true) (h_strs : F .strs = true) (h_closes : F .closes = true) (h_exempt : F .exempt = true) (h_refused : F .refused = true) (h_trd : F .trd = true) (h_wits : F .wits = true) (h_free : F .free = true) (h : Same F s t) : Same F s (concludeCheck a0 a1 t) := by
  unfold concludeCheck
  repeat' (first | with_reducible assumption | with_reducible refine witEmit_same h_regs h_strs h_closes h_exempt h_refused h_trd h_wits ?_ | with_reducible refine bump_same h_regs ?_ | with_reducible refine endCheck_same h_regs h_wits ?_ | with_reducible refine Same.ite ?_ ?_ | with_reducible refine Same.set_free h_free ?_)

theorem giveShares_same {F : Fld → Bool} {s t : State} {a0 : Nat} (h_wits : F .wits = true) (h : Same F s t) : Same F s (giveShares a0 t) := by
  unfold giveShares
  repeat' (first | with_reducible assumption | with_reducible refine updWit_same h_wits ?_ | with_reducible refine foldl_same (fun _ _ _ => ?_) ?_ | dsimp only | split)

theorem pumpChecks_same {F : Fld → Bool} {s t : State} {a0 : Nat} {a1 : Nat} (h_regs : F .regs = true) (h_strs : F .strs = true) (h_closes : F .closes = true) (h_exempt : F .exempt = true) (h_refused : F .refused = true) (h_trd : F .trd = true) (h_wits : F .wits = true) (h_free : F .free = true) (h : Same F s t) : Same F s (pumpChecks a0 a1 t) := by
  induction a0 generalizing t a1 with
  | zero => exact h
  | succ n ih =>
    unfold pumpChecks
    repeat' (first | with_reducible assumption | (with_reducible refine ih ?_) | with_reducible refine endCheck_same h_regs h_wits ?_ | with_reducible refine updWit_same h_wits ?_ | with_reducible refine concludeCheck_same h_regs h_strs h_closes h_exempt h_refused h_trd h_wits h_free ?_ | with_reducible refine giveShares_same h_wits ?_ | dsimp only | split)

theorem witRun_same {F : Fld → Bool} {s t : State} {a0 : Nat} (h_regs : F .regs = true) (h_strs : F .strs = true) (h_closes : F .closes = true) (h_exempt : F .exempt = true) (h_refused : F .refused = true) (h_trd : F .trd = true) (h_stop : F .stop = true) (h_key : F .key = true) (h_wits : F .wits = true) (h_ver : F .ver = true) (h_tests : F .tests = true) (h_free : F .free = true) (h : Same F s t) : Same F s (witRun a0 t) := by
  unfold witRun
  repeat' (first | with_reducible assumption | with_reducible refine witFlush_same h_regs h_strs h_closes h_exempt h_refused h_trd h_stop h_key h_wits h_ver h_tests h_free ?_ | with_reducible refine pumpChecks_same h_regs h_strs h_closes h_exempt h_refused h_trd h_wits h_free ?_)

theorem shareComplete_same {F : Fld → Bool} {s t : State} {a0 : Nat} (h_regs : F .regs = true) (h_strs : F .strs = true) (h_closes : F .closes = true) (h_exempt : F .exempt = true) (h_refused : F .refused = true) (h_trd : F .trd = true) (h_stop : F .stop = true) (h_key : F .key = true) (h_wits : F .wits = true) (h_ver : F .ver = true) (h_tests : F .tests = true) (h_free : F .free = true) (h : Same F s t) : Same F s (shareComplete a0 t) := by
  unfold shareComplete
  repeat' (first | with_reducible assumption | with_reducible refine count_same h_regs ?_ | with_reducible refine regPut_same h_regs ?_ | with_reducible refine witRun_same h_regs h_strs h_closes h_exempt h_refused h_trd h_stop h_key h_wits h_ver h_tests h_free ?_ | with_reducible refine updWit_same h_wits ?_ | dsimp only | split)

theorem shareAbandon_same {F : Fld → Bool} {s t : State} {a0 : Nat} (h_regs : F .regs = true) (h_strs : F .strs = true) (h_closes : F .closes = true) (h_exempt : F .exempt = true) (h_refused : F .refused = true) (h_trd : F .trd = true) (h_stop : F .stop = true) (h_key : F .key = true) (h_wits : F .wits = true) (h_ver : F .ver = true) (h_tests : F .tests = true) (h_free : F .free = true) (h : Same F s t) : Same F s (shareAbandon a0 t) := by
  unfold shareAbandon
  repeat' (first | with_reducible assumption | with_reducible refine witRun_same h_regs h_strs h_closes h_exempt h_refused h_trd h_stop h_key h_wits h_ver h_tests h_free ?_ | with_reducible refine bump_same h_regs ?_ | with_reducible refine updWit_same h_wits ?_ | dsimp only | split)

theorem drawMust_same {F : Fld → Bool} {s t : State} {a0 : Nat} {a1 : Nat} (h_reedGovs : F .reedGovs = true) (h_gov : F .gov = true) (h : Same F s t) : SameO F s (drawMust a0 a1 t) := by
  dsimp only [drawMust]
  repeat' (first | with_reducible assumption | with_reducible refine updReedGov_same h_reedGovs ?_ | with_reducible exact SameO.none | with_reducible refine SameO.some ?_ | with_reducible refine SameO.ite ?_ ?_ | with_reducible refine Same.set_gov h_gov ?_)

theorem drawOther_same {F : Fld → Bool} {s t : State} {a0 : Nat} {a1 : Nat} (h_reedGovs : F .reedGovs = true) (h_gov : F .gov = true) (h : Same F s t) : SameO F s (drawOther a0 a1 t) := by
  unfold drawOther
  repeat' (first | with_reducible assumption | with_reducible refine updReedGov_same h_reedGovs ?_ | with_reducible exact SameO.none | with_reducible refine SameO.some ?_ | with_reducible refine SameO.ite ?_ ?_ | with_reducible refine Same.set_gov h_gov ?_)

theorem acceptCheck_same {F : Fld → Bool} {s t : State} {a0 : Nat} {a1 : Nat} {a2 : QBeat} {a3 : CheckCard} {a4 : Bool} {a5 : Bool} (h_regs : F .regs = true) (h_wits : F .wits = true) (h : Same F s t) : Same F s (acceptCheck a0 a1 a2 a3 a4 a5 t).2 := by
  unfold acceptCheck
  repeat' (first | with_reducible assumption | with_reducible refine count_same h_regs ?_ | with_reducible refine updWit_same h_wits ?_)

theorem acceptCheck_same_eq {F : Fld → Bool} {s t : State} {a0 : Nat} {a1 : Nat} {a2 : QBeat} {a3 : CheckCard} {a4 : Bool} {a5 : Bool} (h_regs : F .regs = true) (h_wits : F .wits = true) {x} {u : State} (e : acceptCheck a0 a1 a2 a3 a4 a5 t = (x, u)) (h : Same F s t) : Same F s u := by
  have := acceptCheck_same (F := F) (s := s) (t := t) (a0 := a0) (a1 := a1) (a2 := a2) (a3 := a3) (a4 := a4) (a5 := a5) h_regs h_wits h
  rw [e] at this; exact this

theorem deferTile_same {F : Fld → Bool} {s t : State} {a0 : Nat} {a1 : QBeat} {a2 : CheckCard} {a3 : BitVec 32} {a4 : Nat} (h_regs : F .regs = true) (h_strs : F .strs = true) (h_closes : F .closes = true) (h_exempt : F .exempt = true) (h_refused : F .refused = true) (h_reedGovs : F .reedGovs = true) (h_trd : F .trd = true) (h_wits : F .wits = true) (h : Same F s t) : Same F s (deferTile a0 a1 a2 a3 a4 t) := by
  unfold deferTile
  repeat' (first | with_reducible assumption | with_reducible refine updReedGov_same h_reedGovs ?_ | with_reducible refine bump_same h_regs ?_ | with_reducible refine raise_same h_regs h_trd ?_ | with_reducible refine witEmit_same h_regs h_strs h_closes h_exempt h_refused h_trd h_wits ?_)

theorem refuseTile_same {F : Fld → Bool} {s t : State} {a0 : Nat} {a1 : Nat} {a2 : Nat} {a3 : Nat} {a4 : QBeat} {a5 : CheckCard} (h_regs : F .regs = true) (h_reedGovs : F .reedGovs = true) (h_wits : F .wits = true) (h : Same F s t) : Same F s (refuseTile a0 a1 a2 a3 a4 a5 t) := by
  unfold refuseTile
  repeat' (first | with_reducible assumption | with_reducible refine bump_same h_regs ?_ | with_reducible refine updReedGov_same h_reedGovs ?_ | with_reducible refine updWit_same h_wits ?_ | with_reducible refine Same.ite ?_ ?_)

theorem admitTile_same {F : Fld → Bool} {s t : State} {a0 : Nat} {a1 : Nat} {a2 : Nat} {a3 : Nat} {a4 : QBeat} {a5 : CheckCard} (h_regs : F .regs = true) (h_strs : F .strs = true) (h_closes : F .closes = true) (h_exempt : F .exempt = true) (h_refused : F .refused = true) (h_reedGovs : F .reedGovs = true) (h_gov : F .gov = true) (h_trd : F .trd = true) (h_wits : F .wits = true) (h : Same F s t) : Same F s (admitTile a0 a1 a2 a3 a4 a5 t).2 := by
  unfold admitTile
  repeat' (first | with_reducible assumption | with_reducible refine updReedGov_same h_reedGovs ?_ | with_reducible refine acceptCheck_same h_regs h_wits ?_ | with_reducible refine deferTile_same h_regs h_strs h_closes h_exempt h_refused h_reedGovs h_trd h_wits ?_ | with_reducible refine drawMust_same h_reedGovs h_gov ?_ | with_reducible refine drawOther_same h_reedGovs h_gov ?_ | with_reducible refine refuseTile_same h_regs h_reedGovs h_wits ?_ | with_reducible exact SameO.none | dsimp only | split | with_reducible refine (show SameO F s _ from ?_) _ (by assumption))

theorem admitTile_same_eq {F : Fld → Bool} {s t : State} {a0 : Nat} {a1 : Nat} {a2 : Nat} {a3 : Nat} {a4 : QBeat} {a5 : CheckCard} (h_regs : F .regs = true) (h_strs : F .strs = true) (h_closes : F .closes = true) (h_exempt : F .exempt = true) (h_refused : F .refused = true) (h_reedGovs : F .reedGovs = true) (h_gov : F .gov = true) (h_trd : F .trd = true) (h_wits : F .wits = true) {x} {u : State} (e : admitTile a0 a1 a2 a3 a4 a5 t = (x, u)) (h : Same F s t) : Same F s u := by
  have := admitTile_same (F := F) (s := s) (t := t) (a0 := a0) (a1 := a1) (a2 := a2) (a3 := a3) (a4 := a4) (a5 := a5) h_regs h_strs h_closes h_exempt h_refused h_reedGovs h_gov h_trd h_wits h
  rw [e] at this; exact this

theorem admitWaiting_same {F : Fld → Bool} {s t : State} {a0 : Nat} (h_regs : F .regs = true) (h_strs : F .strs = true) (h_closes : F .closes = true) (h_exempt : F .exempt = true) (h_refused : F .refused = true) (h_reedGovs : F .reedGovs = true) (h_gov : F .gov = true) (h_trd : F .trd = true) (h_stop : F .stop = true) (h_key : F .key = true) (h_wits : F .wits = true) (h_ver : F .ver = true) (h_tests : F .tests = true) (h_free : F .free = true) (h : Same F s t) : Same F s (admitWaiting a0 t) := by
  dsimp only [admitWaiting]
  repeat' (first | with_reducible assumption | with_reducible refine updReedGov_same h_reedGovs ?_ | with_reducible refine drawMust_same h_reedGovs h_gov ?_ | with_reducible refine drawMust_same h_reedGovs h_gov ?_ _ (by assumption) | with_reducible refine updCheck_same h_wits ?_ | with_reducible refine updWit_same h_wits ?_ | with_reducible refine witRun_same h_regs h_strs h_closes h_exempt h_refused h_trd h_stop h_key h_wits h_ver h_tests h_free ?_ | with_reducible refine foldl_same (fun _ _ _ => ?_) ?_ | split)

theorem fillTile_same {F : Fld → Bool} {s t : State} {a0 : Nat} {a1 : Check} {a2 : List Nat} {a3 : QBeat} (h_regs : F .regs = true) (h_wits : F .wits = true) (h : Same F s t) : Same F s (fillTile a0 a1 a2 a3 t) := by
  unfold fillTile
  repeat' (first | with_reducible assumption | with_reducible refine count_same h_regs ?_ | with_reducible refine updCheck_same h_wits ?_ | with_reducible refine endCheck_same h_regs h_wits ?_ | with_reducible refine updWit_same h_wits ?_ | dsimp only | split)

theorem tileBeat_same {F : Fld → Bool} {s t : State} {a0 : Nat} {a1 : QBeat} (h_regs : F .regs = true) (h_strs : F .strs = true) (h_closes : F .closes = true) (h_exempt : F .exempt = true) (h_refused : F .refused = true) (h_reedGovs : F .reedGovs = true) (h_gov : F .gov = true) (h_trd : F .trd = true) (h_stop : F .stop = true) (h_key : F .key = true) (h_wits : F .wits = true) (h_ver : F .ver = true) (h_tests : F .tests = true) (h_free : F .free = true) (h : Same F s t) : Same F s (tileBeat a0 a1 t) := by
  unfold tileBeat
  repeat' (first | with_reducible assumption | with_reducible refine witRun_same h_regs h_strs h_closes h_exempt h_refused h_trd h_stop h_key h_wits h_ver h_tests h_free ?_ | with_reducible refine fillTile_same h_regs h_wits ?_ | with_reducible refine updWit_same h_wits ?_ | with_reducible refine endCheck_same h_regs h_wits ?_ | with_reducible refine bump_same h_regs ?_ | with_reducible refine admitTile_same h_regs h_strs h_closes h_exempt h_refused h_reedGovs h_gov h_trd h_wits ?_ | with_reducible refine admitTile_same_eq h_regs h_strs h_closes h_exempt h_refused h_reedGovs h_gov h_trd h_wits (by assumption) ?_ | with_reducible refine count_same h_regs ?_ | dsimp only | split)

theorem mirrorIntake_same {F : Fld → Bool} {s t : State} {a0 : Nat} (h_regs : F .regs = true) (h_strs : F .strs = true) (h_closes : F .closes = true) (h_exempt : F .exempt = true) (h_refused : F .refused = true) (h_reedGovs : F .reedGovs = true) (h_gov : F .gov = true) (h_trd : F .trd = true) (h_stop : F .stop = true) (h_key : F .key = true) (h_wits : F .wits = true) (h_ver : F .ver = true) (h_tests : F .tests = true) (h_free : F .free = true) (h : Same F s t) : Same F s (mirrorIntake a0 t) := by
  unfold mirrorIntake
  repeat' (first | with_reducible assumption | with_reducible refine updWit_same h_wits ?_ | with_reducible refine tileBeat_same h_regs h_strs h_closes h_exempt h_refused h_reedGovs h_gov h_trd h_stop h_key h_wits h_ver h_tests h_free ?_ | split)

theorem beatLost_same {F : Fld → Bool} {s t : State} {a0 : Nat} {a1 : QBeat} (h_regs : F .regs = true) (h_strs : F .strs = true) (h_closes : F .closes = true) (h_exempt : F .exempt = true) (h_refused : F .refused = true) (h_reedGovs : F .reedGovs = true) (h_gov : F .gov = true) (h_trd : F .trd = true) (h_stop : F .stop = true) (h_key : F .key = true) (h_wits : F .wits = true) (h_ver : F .ver = true) (h_tests : F .tests = true) (h_free : F .free = true) (h : Same F s t) : Same F s (beatLost a0 a1 t) := by
  unfold beatLost
  repeat' (first | with_reducible assumption | with_reducible refine setErr_same h_regs h_trd ?_ | with_reducible refine bump_same h_regs ?_ | with_reducible refine tileBeat_same h_regs h_strs h_closes h_exempt h_refused h_reedGovs h_gov h_trd h_stop h_key h_wits h_ver h_tests h_free ?_ | with_reducible refine updWit_same h_wits ?_ | with_reducible refine Same.ite ?_ ?_)

theorem outputBeat_same {F : Fld → Bool} {s t : State} {a0 : Nat} {a1 : OutBeat} (h_regs : F .regs = true) (h_strs : F .strs = true) (h_closes : F .closes = true) (h_exempt : F .exempt = true) (h_refused : F .refused = true) (h_heds : F .heds = true) (h_reedGovs : F .reedGovs = true) (h_gov : F .gov = true) (h_trd : F .trd = true) (h_stop : F .stop = true) (h_key : F .key = true) (h_wits : F .wits = true) (h_lapsed : F .lapsed = true) (h_ver : F .ver = true) (h_tests : F .tests = true) (h_free : F .free = true) (h : Same F s t) : Same F s (outputBeat a0 a1 t) := by
  unfold outputBeat
  repeat' (first | with_reducible assumption | with_reducible refine updHed_same h_heds ?_ | with_reducible refine bump_same h_regs ?_ | with_reducible refine captureLost_same h_regs h_trd ?_ | with_reducible refine unserved_same h_regs h_strs h_closes h_exempt h_trd h_stop h_key h_wits h_lapsed h_ver h_free ?_ | with_reducible refine updWit_same h_wits ?_ | with_reducible refine beatLost_same h_regs h_strs h_closes h_exempt h_refused h_reedGovs h_gov h_trd h_stop h_key h_wits h_ver h_tests h_free ?_ | dsimp only | split)

theorem gatherTimeout_same {F : Fld → Bool} {s t : State} {a0 : Nat} {a1 : BitVec 32} (h_regs : F .regs = true) (h_strs : F .strs = true) (h_closes : F .closes = true) (h_exempt : F .exempt = true) (h_refused : F .refused = true) (h_trd : F .trd = true) (h_stop : F .stop = true) (h_key : F .key = true) (h_wits : F .wits = true) (h_ver : F .ver = true) (h_tests : F .tests = true) (h_free : F .free = true) (h : Same F s t) : Same F s (gatherTimeout a0 a1 t) := by
  unfold gatherTimeout
  repeat' (first | with_reducible assumption | with_reducible refine witRun_same h_regs h_strs h_closes h_exempt h_refused h_trd h_stop h_key h_wits h_ver h_tests h_free ?_ | with_reducible refine endCheck_same h_regs h_wits ?_ | split)

theorem loseSlot_same {F : Fld → Bool} {s t : State} {a0 : Nat} {a1 : Nat} (h_regs : F .regs = true) (h_heds : F .heds = true) (h_trd : F .trd = true) (h : Same F s t) : Same F s (loseSlot a0 a1 t) := by
  unfold loseSlot
  repeat' (first | with_reducible assumption | with_reducible refine setErr_same h_regs h_trd ?_ | with_reducible refine bump_same h_regs ?_ | with_reducible refine updHed_same h_heds ?_ | with_reducible refine Same.ite ?_ ?_)

theorem stagingEcc_same {F : Fld → Bool} {s t : State} {a0 : Nat} {a1 : StagingHit} (h_regs : F .regs = true) (h_strs : F .strs = true) (h_closes : F .closes = true) (h_exempt : F .exempt = true) (h_refused : F .refused = true) (h_heds : F .heds = true) (h_trd : F .trd = true) (h_stop : F .stop = true) (h_key : F .key = true) (h_wits : F .wits = true) (h_ver : F .ver = true) (h_tests : F .tests = true) (h_free : F .free = true) (h : Same F s t) : Same F s (stagingEcc a0 a1 t) := by
  unfold stagingEcc
  repeat' (first | with_reducible assumption | with_reducible refine witRun_same h_regs h_strs h_closes h_exempt h_refused h_trd h_stop h_key h_wits h_ver h_tests h_free ?_ | with_reducible refine endCheck_same h_regs h_wits ?_ | with_reducible refine loseSlot_same h_regs h_heds h_trd ?_ | split)

theorem reedLost_same {F : Fld → Bool} {s t : State} {a0 : Nat} (h_regs : F .regs = true) (h_strs : F .strs = true) (h_closes : F .closes = true) (h_exempt : F .exempt = true) (h_refused : F .refused = true) (h_trd : F .trd = true) (h_stop : F .stop = true) (h_key : F .key = true) (h_wits : F .wits = true) (h_ver : F .ver = true) (h_tests : F .tests = true) (h_free : F .free = true) (h : Same F s t) : Same F s (reedLost a0 t) := by
  unfold reedLost
  repeat' (first | with_reducible assumption | with_reducible refine updWit_same h_wits ?_ | with_reducible refine witFlush_same h_regs h_strs h_closes h_exempt h_refused h_trd h_stop h_key h_wits h_ver h_tests h_free ?_)

theorem newVecKey_same {F : Fld → Bool} {s t : State} {a0 : Nat} (h_wits : F .wits = true) (h_salts : F .salts = true) (h : Same F s t) : Same F s (newVecKey a0 t) := by
  unfold newVecKey
  repeat' (first | with_reducible assumption | with_reducible refine takeSalt_same h_salts ?_ | with_reducible refine updWit_same h_wits ?_)

theorem cutContext_same {F : Fld → Bool} {s t : State} {a0 : Nat} {a1 : Nat} {a2 : Bt} {a3 : Bool} {a5 : Nat} (h_heds : F .heds = true) (h : Same F s t) : Same F s (cutContext a0 a1 a2 a3 t a5) := by
  unfold cutContext
  repeat' (first | with_reducible assumption | with_reducible refine hold_same h_heds ?_ | with_reducible refine Same.ite ?_ ?_)

theorem hedCut_same {F : Fld → Bool} {s t : State} {a0 : Nat} {a1 : Nat} (h_heds : F .heds = true) (h_hedStops : F .hedStops = true) (h : Same F s t) : Same F s (hedCut a0 a1 t) := by
  unfold hedCut
  repeat' (first | with_reducible assumption | with_reducible refine updHedStop_same h_hedStops ?_ | with_reducible refine cutContext_same h_heds ?_ | with_reducible refine updHed_same h_heds ?_ | with_reducible refine dropGap_same h_heds ?_ | with_reducible refine foldl_same (fun _ _ _ => ?_) ?_ | with_reducible refine Same.ite ?_ ?_)

theorem passCut_same {F : Fld → Bool} {s t : State} {a0 : Nat} (h_strs : F .strs = true) (h_closes : F .closes = true) (h : Same F s t) : Same F s (passCut a0 t) := by
  unfold passCut
  repeat' (first | with_reducible assumption | with_reducible refine closeBobs_same h_strs h_closes ?_ | (extract_lets +onlyGivenNames x; refine (fun (hx : Same F s x) => ?_) ?_; rotate_left; dsimp only [x]; clear x; rotate_right; clear_value x) | split)

theorem partCut_same {F : Fld → Bool} {s t : State} {a0 : Nat} {a1 : Nat} (h_strs : F .strs = true) (h_closes : F .closes = true) (h_heds : F .heds = true) (h_stop : F .stop = true) (h_hedStops : F .hedStops = true) (h_links : F .links = true) (h : Same F s t) : Same F s (partCut a0 a1 t) := by
  unfold partCut
  repeat' (first | with_reducible assumption | with_reducible refine passCut_same h_strs h_closes ?_ | with_reducible refine hedCut_same h_heds h_hedStops ?_ | with_reducible refine closeBobs_same h_strs h_closes ?_ | with_reducible refine linkCut_same h_links ?_ | with_reducible refine Same.ite ?_ ?_ | with_reducible refine Same.set_stop h_stop ?_)

theorem treeArrival_same {F : Fld → Bool} {s t : State} {a0 : Nat} (h_strs : F .strs = true) (h_closes : F .closes = true) (h_heds : F .heds = true) (h_stop : F .stop = true) (h_hedStops : F .hedStops = true) (h_links : F .links = true) (h : Same F s t) : Same F s (treeArrival a0 t) := by
  unfold treeArrival
  repeat' (first | with_reducible assumption | with_reducible refine partCut_same h_strs h_closes h_heds h_stop h_hedStops h_links ?_ | with_reducible refine Same.ite ?_ ?_)

theorem armedFire_same {F : Fld → Bool} {s t : State} {a0 : Nat} (h_regs : F .regs = true) (h_strs : F .strs = true) (h_closes : F .closes = true) (h_heds : F .heds = true) (h_trd : F .trd = true) (h_stop : F .stop = true) (h_hedStops : F .hedStops = true) (h_wits : F .wits = true) (h_links : F .links = true) (h : Same F s t) : Same F s (armedFire a0 t) := by
  unfold armedFire
  repeat' (first | with_reducible assumption | with_reducible refine partCut_same h_strs h_closes h_heds h_stop h_hedStops h_links ?_ | with_reducible refine launchArmed_same h_regs h_strs h_closes h_trd h_stop h_wits ?_ | with_reducible refine Same.ite ?_ ?_)

theorem ttCompare_same {F : Fld → Bool} {s t : State}  (h_regs : F .regs = true) (h_strs : F .strs = true) (h_closes : F .closes = true) (h_trd : F .trd = true) (h_stop : F .stop = true) (h_wits : F .wits = true) (h : Same F s t) : Same F s (ttCompare t) := by
  unfold ttCompare
  repeat' (first | with_reducible assumption | with_reducible refine launchArmed_same h_regs h_strs h_closes h_trd h_stop h_wits ?_ | with_reducible refine Same.ite ?_ ?_)

theorem armStop_same {F : Fld → Bool} {s t : State}  (h_stop : F .stop = true) (h : Same F s t) : SameO F s (armStop t) := by
  unfold armStop
  repeat' (first | with_reducible assumption | with_reducible exact SameO.none | with_reducible refine SameO.some ?_ | with_reducible refine SameO.ite ?_ ?_ | with_reducible refine Same.set_stop h_stop ?_)

theorem disarmStop_same {F : Fld → Bool} {s t : State}  (h_stop : F .stop = true) (h : Same F s t) : SameO F s (disarmStop t) := by
  unfold disarmStop
  repeat' (first | with_reducible assumption | with_reducible exact SameO.none | with_reducible refine SameO.some ?_ | with_reducible refine SameO.ite ?_ ?_ | with_reducible refine Same.set_stop h_stop ?_)

theorem stopNow_same {F : Fld → Bool} {s t : State}  (h_regs : F .regs = true) (h_strs : F .strs = true) (h_closes : F .closes = true) (h_trd : F .trd = true) (h_stop : F .stop = true) (h_wits : F .wits = true) (h : Same F s t) : SameO F s (stopNow t) := by
  unfold stopNow
  repeat' (first | with_reducible assumption | with_reducible refine launchArmed_same h_regs h_strs h_closes h_trd h_stop h_wits ?_ | with_reducible refine stopEvent_same h_regs h_strs h_closes h_trd h_stop h_wits ?_ | with_reducible exact SameO.none | with_reducible refine SameO.some ?_ | with_reducible refine SameO.ite ?_ ?_ | split)

theorem resumeStop_same {F : Fld → Bool} {s t : State}  (h_stop : F .stop = true) (h : Same F s t) : SameO F s (resumeStop t) := by
  unfold resumeStop
  repeat' (first | with_reducible assumption | with_reducible exact SameO.none | with_reducible refine SameO.some ?_ | with_reducible refine SameO.ite ?_ ?_ | with_reducible refine Same.set_stop h_stop ?_)

theorem stopInPin_same {F : Fld → Bool} {s t : State} {a0 : Tdc} (h_regs : F .regs = true) (h_strs : F .strs = true) (h_closes : F .closes = true) (h_trd : F .trd = true) (h_stop : F .stop = true) (h_wits : F .wits = true) (h : Same F s t) : Same F s (stopInPin a0 t) := by
  unfold stopInPin
  repeat' (first | with_reducible assumption | with_reducible refine stopEvent_same h_regs h_strs h_closes h_trd h_stop h_wits ?_ | with_reducible refine Same.ite ?_ ?_)

theorem stopEnters_same {F : Fld → Bool} {s t : State} {a0 : Nat} (h_stop : F .stop = true) (h_hedStops : F .hedStops = true) (h : Same F s t) : Same F s (stopEnters a0 t) := by
  unfold stopEnters
  repeat' (first | with_reducible assumption | with_reducible refine updHedStop_same h_hedStops ?_ | with_reducible refine Same.ite ?_ ?_ | with_reducible refine Same.set_stop h_stop ?_)

theorem lowerHold_same {F : Fld → Bool} {s t : State} {a0 : Nat} (h_hedStops : F .hedStops = true) (h : Same F s t) : Same F s (lowerHold a0 t) := by
  unfold lowerHold
  repeat' (first | with_reducible assumption | with_reducible refine updHedStop_same h_hedStops ?_)

theorem holdAck_same {F : Fld → Bool} {s t : State} {a0 : Nat} {a1 : Tdc} (h_hedStops : F .hedStops = true) (h : Same F s t) : Same F s (holdAck a0 a1 t) := by
  unfold holdAck
  repeat' (first | with_reducible assumption | with_reducible refine updHedStop_same h_hedStops ?_ | with_reducible refine Same.ite ?_ ?_)

theorem holdTimeout_same {F : Fld → Bool} {s t : State} {a0 : Nat} (h_regs : F .regs = true) (h_trd : F .trd = true) (h_hedStops : F .hedStops = true) (h : Same F s t) : Same F s (holdTimeout a0 t) := by
  unfold holdTimeout
  repeat' (first | with_reducible assumption | with_reducible refine raise_same h_regs h_trd ?_ | with_reducible refine setErr_same h_regs h_trd ?_ | with_reducible refine updHedStop_same h_hedStops ?_ | with_reducible refine Same.ite ?_ ?_)

theorem scanFail_same {F : Fld → Bool} {s t : State} {a0 : Nat} {a1 : Nat} (h_regs : F .regs = true) (h_trd : F .trd = true) (h_hedStops : F .hedStops = true) (h : Same F s t) : Same F s (scanFail a0 a1 t) := by
  unfold scanFail
  repeat' (first | with_reducible assumption | with_reducible refine setErr_same h_regs h_trd ?_ | with_reducible refine bump_same h_regs ?_ | with_reducible refine updHedStop_same h_hedStops ?_ | with_reducible refine Same.ite ?_ ?_)

theorem scanHeadOf_same {F : Fld → Bool} {s t : State} {a0 : Nat} (h_key : F .key = true) (h : Same F s t) : Same F s (scanHeadOf a0 t).2.2 := by
  unfold scanHeadOf
  repeat' (first | with_reducible assumption | with_reducible refine takeHead_same h_key ?_ | with_reducible refine updSlot_same h_key ?_ | dsimp only | split)

theorem scanHeadOf_same_eq {F : Fld → Bool} {s t : State} {a0 : Nat} (h_key : F .key = true) {x y} {u : State} (e : scanHeadOf a0 t = (x, y, u)) (h : Same F s t) : Same F s u := by
  have := scanHeadOf_same (F := F) (s := s) (t := t) (a0 := a0) h_key h
  rw [e] at this; exact this

theorem scanBlock_same {F : Fld → Bool} {s t : State} {a0 : Nat} {a1 : Bool} (h_key : F .key = true) (h : Same F s t) : Same F s (scanBlock a0 a1 t).2 := by
  unfold scanBlock
  repeat' (first | with_reducible assumption | with_reducible refine scanHeadOf_same h_key ?_ | dsimp only | split)

theorem scanBlock_same_eq {F : Fld → Bool} {s t : State} {a0 : Nat} {a1 : Bool} (h_key : F .key = true) {x} {u : State} (e : scanBlock a0 a1 t = (x, u)) (h : Same F s t) : Same F s u := by
  have := scanBlock_same (F := F) (s := s) (t := t) (a0 := a0) (a1 := a1) h_key h
  rw [e] at this; exact this

theorem handBlock_same {F : Fld → Bool} {s t : State} {a0 : Nat} {a1 : Bool} (h_reedGovs : F .reedGovs = true) (h_hedStops : F .hedStops = true) (h : Same F s t) : Same F s (handBlock a0 a1 t) := by
  unfold handBlock
  repeat' (first | with_reducible assumption | with_reducible refine updReedGov_same h_reedGovs ?_ | with_reducible refine updHedStop_same h_hedStops ?_)

theorem scanLast_same {F : Fld → Bool} {s t : State} {a0 : Nat} (h_hedStops : F .hedStops = true) (h : Same F s t) : Same F s (scanLast a0 t) := by
  unfold scanLast
  repeat' (first | with_reducible assumption | with_reducible refine updHedStop_same h_hedStops ?_ | with_reducible refine lowerHold_same h_hedStops ?_ | with_reducible refine Same.ite ?_ ?_)

theorem scanWord_same {F : Fld → Bool} {s t : State} {a0 : Nat} {a1 : BitVec 32} {a2 : Bool} (h_regs : F .regs = true) (h_reedGovs : F .reedGovs = true) (h_trd : F .trd = true) (h_hedStops : F .hedStops = true) (h : Same F s t) : Same F s (scanWord a0 a1 a2 t) := by
  unfold scanWord
  repeat' (first | with_reducible assumption | with_reducible refine setPortErr_same h_regs h_trd ?_ | with_reducible refine updHedStop_same h_hedStops ?_ | with_reducible refine handBlock_same h_reedGovs h_hedStops ?_ | with_reducible refine scanFail_same h_regs h_trd h_hedStops ?_ | with_reducible refine scanLast_same h_hedStops ?_ | with_reducible refine Same.ite ?_ ?_)

theorem scanWordTimeout_same {F : Fld → Bool} {s t : State} {a0 : Nat} (h_regs : F .regs = true) (h_trd : F .trd = true) (h_hedStops : F .hedStops = true) (h : Same F s t) : Same F s (scanWordTimeout a0 t) := by
  unfold scanWordTimeout
  repeat' (first | with_reducible assumption | with_reducible refine scanFail_same h_regs h_trd h_hedStops ?_ | dsimp only | split)

theorem scanDoneBlock_same {F : Fld → Bool} {s t : State} {a0 : Nat} {a1 : Nat} {a2 : Bool} (h_regs : F .regs = true) (h_trd : F .trd = true) (h_hedStops : F .hedStops = true) (h : Same F s t) : Same F s (scanDoneBlock a0 a1 a2 t) := by
  unfold scanDoneBlock
  repeat' (first | with_reducible assumption | with_reducible refine updHedStop_same h_hedStops ?_ | with_reducible refine scanLast_same h_hedStops ?_ | with_reducible refine scanFail_same h_regs h_trd h_hedStops ?_ | dsimp only | split)

theorem issueScan_same {F : Fld → Bool} {s t : State} {a0 : Nat} {a1 : Nat} {a2 : Nat} (h_regs : F .regs = true) (h_wports : F .wports = true) (h_exempt : F .exempt = true) (h_reedGovs : F .reedGovs = true) (h_hedStops : F .hedStops = true) (h_key : F .key = true) (h : Same F s t) : Same F s (issueScan a0 a1 a2 t) := by
  unfold issueScan
  repeat' (first | with_reducible assumption | with_reducible refine scanBlock_same h_key ?_ | with_reducible refine updHedStop_same h_hedStops ?_ | with_reducible refine updReedGov_same h_reedGovs ?_ | with_reducible refine bump_same h_regs ?_ | with_reducible refine sendBlock_same h_wports ?_ | split | with_reducible refine Same.set_exempt h_exempt ?_)

theorem scanRedo_same {F : Fld → Bool} {s t : State} {a0 : Nat} (h_regs : F .regs = true) (h_trd : F .trd = true) (h_hedStops : F .hedStops = true) (h : Same F s t) : Same F s (scanRedo a0 t) := by
  unfold scanRedo
  repeat' (first | with_reducible assumption | with_reducible refine scanDoneBlock_same h_regs h_trd h_hedStops ?_ | with_reducible refine updHedStop_same h_hedStops ?_ | with_reducible refine foldl_same (fun _ _ _ => ?_) ?_ | split)

theorem dropScan_same {F : Fld → Bool} {s t : State} {a0 : Nat} {a1 : Nat} (h_regs : F .regs = true) (h_trd : F .trd = true) (h_hedStops : F .hedStops = true) (h : Same F s t) : Same F s (dropScan a0 a1 t) := by
  unfold dropScan
  repeat' (first | with_reducible assumption | with_reducible refine scanFail_same h_regs h_trd h_hedStops ?_ | with_reducible refine updHedStop_same h_hedStops ?_ | with_reducible refine scanLast_same h_hedStops ?_ | dsimp only | split)

theorem abandonScans_same {F : Fld → Bool} {s t : State} {a0 : Nat} (h_regs : F .regs = true) (h_trd : F .trd = true) (h_hedStops : F .hedStops = true) (h : Same F s t) : Same F s (abandonScans a0 t) := by
  unfold abandonScans
  repeat' (first | with_reducible assumption | with_reducible refine updHedStop_same h_hedStops ?_ | with_reducible refine dropScan_same h_regs h_trd h_hedStops ?_ | with_reducible refine foldl_same (fun _ _ _ => ?_) ?_ | split)

theorem settleAll_same {F : Fld → Bool} {s t : State}  (h_regs : F .regs = true) (h_strs : F .strs = true) (h_closes : F .closes = true) (h_exempt : F .exempt = true) (h_refused : F .refused = true) (h_heds : F .heds = true) (h_counts : F .counts = true) (h_hedGovs : F .hedGovs = true) (h_reedGovs : F .reedGovs = true) (h_trd : F .trd = true) (h_key : F .key = true) (h_links : F .links = true) (h : Same F s t) : Same F s (settleAll t) := by
  unfold settleAll
  repeat' (first | with_reducible assumption | with_reducible refine settleLnk_same h_regs h_strs h_closes h_exempt h_refused h_trd h_key h_links ?_ | with_reducible refine settleSpans_same h_regs h_strs h_closes h_exempt h_heds h_counts h_hedGovs h_reedGovs h_trd h_key ?_ | with_reducible refine foldl_same (fun _ _ _ => ?_) ?_)

theorem cutComplete_same {F : Fld → Bool} {s t : State}  (h_regs : F .regs = true) (h_strs : F .strs = true) (h_closes : F .closes = true) (h_exempt : F .exempt = true) (h_refused : F .refused = true) (h_heds : F .heds = true) (h_counts : F .counts = true) (h_hedGovs : F .hedGovs = true) (h_reedGovs : F .reedGovs = true) (h_trd : F .trd = true) (h_stop : F .stop = true) (h_key : F .key = true) (h_links : F .links = true) (h : Same F s t) : Same F s (cutComplete t) := by
  unfold cutComplete
  repeat' (first | with_reducible assumption | with_reducible refine settleAll_same h_regs h_strs h_closes h_exempt h_refused h_heds h_counts h_hedGovs h_reedGovs h_trd h_key h_links ?_ | with_reducible refine Same.ite ?_ ?_ | with_reducible refine Same.set_stop h_stop ?_)

theorem hedResume_same {F : Fld → Bool} {s t : State} {a0 : Nat} (h_heds : F .heds = true) (h_hedStops : F .hedStops = true) (h : Same F s t) : Same F s (hedResume a0 t) := by
  unfold hedResume
  repeat' (first | with_reducible assumption | with_reducible refine hold_same h_heds ?_ | with_reducible refine openGap_same h_heds ?_ | with_reducible refine updHedStop_same h_hedStops ?_ | with_reducible refine lowerHold_same h_hedStops ?_ | with_reducible refine foldl_same (fun _ _ _ => ?_) ?_ | with_reducible refine Same.ite ?_ ?_)

theorem resumeArrival_same {F : Fld → Bool} {s t : State} {a0 : Nat} (h_heds : F .heds = true) (h_stop : F .stop = true) (h_hedStops : F .hedStops = true) (h_wits : F .wits = true) (h_links : F .links = true) (h : Same F s t) : Same F s (resumeArrival a0 t) := by
  unfold resumeArrival
  repeat' (first | with_reducible assumption | with_reducible refine restartGather_same h_wits ?_ | with_reducible refine hedResume_same h_heds h_hedStops ?_ | with_reducible refine linkResume_same h_links ?_ | with_reducible refine Same.ite ?_ ?_ | with_reducible refine Same.set_stop h_stop ?_)

theorem resumeComplete_same {F : Fld → Bool} {s t : State}  (h_stop : F .stop = true) (h : Same F s t) : Same F s (resumeComplete t) := by
  unfold resumeComplete
  repeat' (first | with_reducible assumption | with_reducible refine Same.ite ?_ ?_ | with_reducible refine Same.set_stop h_stop ?_)

theorem sendMsg_same {F : Fld → Bool} {s t : State} {a0 : Nat} {a1 : Nat} (h_tim : F .tim = true) (h : Same F s t) : Same F s (sendMsg a0 a1 t) := by
  unfold sendMsg
  exact Same.set_tim h_tim rfl h

theorem statusMsg_same {F : Fld → Bool} {s t : State}  (h_tim : F .tim = true) (h : Same F s t) : Same F s (statusMsg t) := by
  unfold statusMsg
  repeat' (first | with_reducible assumption | with_reducible refine sendMsg_same h_tim ?_ | with_reducible refine Same.ite ?_ ?_)

theorem timeRecord_same {F : Fld → Bool} {s t : State} {a0 : Nat} {a1 : Nat} {a2 : At} {a3 : Int} (h_regs : F .regs = true) (h_owed : F .owed = true) (h_strs : F .strs = true) (h_closes : F .closes = true) (h_exempt : F .exempt = true) (h_refused : F .refused = true) (h_trd : F .trd = true) (h_key : F .key = true) (h : Same F s t) : Same F s (timeRecord a0 a1 a2 a3 t) := by
  unfold timeRecord
  repeat' (first | with_reducible assumption | with_reducible refine emitHub_same h_regs h_strs h_closes h_exempt h_refused h_trd h_key ?_ | with_reducible refine Same.ite ?_ ?_ | with_reducible refine Same.set_owed h_owed ?_)

theorem timeEvent_same {F : Fld → Bool} {s t : State} {a0 : Nat} {a1 : Nat} (h_regs : F .regs = true) (h_owed : F .owed = true) (h_strs : F .strs = true) (h_closes : F .closes = true) (h_exempt : F .exempt = true) (h_refused : F .refused = true) (h_trd : F .trd = true) (h_key : F .key = true) (h : Same F s t) : Same F s (timeEvent a0 a1 t) := by
  unfold timeEvent
  repeat' (first | with_reducible assumption | with_reducible refine timeRecord_same h_regs h_owed h_strs h_closes h_exempt h_refused h_trd h_key ?_)

theorem payOwed_same {F : Fld → Bool} {s t : State}  (h_regs : F .regs = true) (h_owed : F .owed = true) (h_strs : F .strs = true) (h_closes : F .closes = true) (h_exempt : F .exempt = true) (h_refused : F .refused = true) (h_trd : F .trd = true) (h_key : F .key = true) (h : Same F s t) : Same F s (payOwed t) := by
  unfold payOwed
  repeat' (first | with_reducible assumption | with_reducible refine emitHub_same h_regs h_strs h_closes h_exempt h_refused h_trd h_key ?_ | with_reducible refine foldl_same (fun _ _ _ => ?_) ?_ | with_reducible refine Same.set_owed h_owed ?_)

theorem announce_same {F : Fld → Bool} {s t : State} {a0 : Nat} {a1 : Nat} {a2 : Int} (h_tim : F .tim = true) (h : Same F s t) : SameO F s (announce a0 a1 a2 t) := by
  unfold announce
  repeat' (first | with_reducible assumption | with_reducible refine sendMsg_same h_tim ?_ | with_reducible exact SameO.none | with_reducible refine SameO.some ?_ | with_reducible refine SameO.ite ?_ ?_ | with_reducible refine Same.set_tim h_tim rfl ?_)

theorem announceDelta_same {F : Fld → Bool} {s t : State} {a0 : Nat} {a1 : Nat} {a2 : Int} (h_tim : F .tim = true) (h : Same F s t) : SameO F s (announceDelta a0 a1 a2 t) := by
  unfold announceDelta
  repeat' (first | with_reducible assumption | with_reducible refine announce_same h_tim ?_ | with_reducible exact SameO.none | with_reducible refine SameO.some ?_)

theorem stepAction_same {F : Fld → Bool} {s t : State}  (h_tim : F .tim = true) (h : Same F s t) : SameO F s (stepAction t) := by
  unfold stepAction
  repeat' (first | with_reducible assumption | with_reducible refine announceDelta_same h_tim ?_ | with_reducible exact SameO.none | with_reducible refine SameO.some ?_)

theorem setAction_same {F : Fld → Bool} {s t : State}  (h_tim : F .tim = true) (h : Same F s t) : SameO F s (setAction t) := by
  unfold setAction
  repeat' (first | with_reducible assumption | with_reducible refine announce_same h_tim ?_ | with_reducible exact SameO.none | with_reducible refine SameO.some ?_)

theorem stepTakesForce_same {F : Fld → Bool} {s t : State}  (h_regs : F .regs = true) (h_parts : F .parts = true) (h_tim : F .tim = true) (h_owed : F .owed = true) (h_strs : F .strs = true) (h_closes : F .closes = true) (h_exempt : F .exempt = true) (h_refused : F .refused = true) (h_counts : F .counts = true) (h_trd : F .trd = true) (h_key : F .key = true) (h : Same F s t) : Same F s (stepTakesForce t) := by
  unfold stepTakesForce
  repeat' (first | with_reducible assumption | with_reducible refine updPart_same h_parts ?_ | with_reducible refine timeRecord_same h_regs h_owed h_strs h_closes h_exempt h_refused h_trd h_key ?_ | with_reducible refine foldl_same (fun _ _ _ => ?_) ?_ | split | with_reducible refine Same.set_tim h_tim rfl ?_ | with_reducible refine Same.set_counts h_counts ?_)

theorem setRate_same {F : Fld → Bool} {s t : State} {a0 : Int} (h_tim : F .tim = true) (h : Same F s t) : Same F s (setRate a0 t) := by
  unfold setRate
  repeat' (first | with_reducible assumption | with_reducible refine Same.set_tim h_tim rfl ?_)

theorem rateAction_same {F : Fld → Bool} {s t : State}  (h_tim : F .tim = true) (h : Same F s t) : SameO F s (rateAction t) := by
  unfold rateAction
  repeat' (first | with_reducible assumption | with_reducible refine setRate_same h_tim ?_ | with_reducible exact SameO.none | with_reducible refine SameO.some ?_ | with_reducible refine SameO.ite ?_ ?_)

theorem calTdcAction_same {F : Fld → Bool} {s t : State}  (h_tim : F .tim = true) (h : Same F s t) : SameO F s (calTdcAction t) := by
  unfold calTdcAction
  repeat' (first | with_reducible assumption | with_reducible refine calStart_same h_tim ?_ | with_reducible exact SameO.none | with_reducible refine SameO.some ?_ | with_reducible refine SameO.ite ?_ ?_)

theorem referenceLoss_same {F : Fld → Bool} {s t : State}  (h_regs : F .regs = true) (h_tim : F .tim = true) (h_owed : F .owed = true) (h_strs : F .strs = true) (h_closes : F .closes = true) (h_exempt : F .exempt = true) (h_refused : F .refused = true) (h_trd : F .trd = true) (h_key : F .key = true) (h : Same F s t) : Same F s (referenceLoss t) := by
  unfold referenceLoss
  repeat' (first | with_reducible assumption | with_reducible refine timeEvent_same h_regs h_owed h_strs h_closes h_exempt h_refused h_trd h_key ?_ | with_reducible refine statusMsg_same h_tim ?_ | with_reducible refine setErr_same h_regs h_trd ?_ | with_reducible refine bump_same h_regs ?_ | with_reducible refine Same.ite ?_ ?_ | with_reducible refine Same.set_tim h_tim rfl ?_)

theorem referenceReturn_same {F : Fld → Bool} {s t : State}  (h_regs : F .regs = true) (h_tim : F .tim = true) (h_owed : F .owed = true) (h_strs : F .strs = true) (h_closes : F .closes = true) (h_exempt : F .exempt = true) (h_refused : F .refused = true) (h_trd : F .trd = true) (h_key : F .key = true) (h : Same F s t) : Same F s (referenceReturn t) := by
  unfold referenceReturn
  repeat' (first | with_reducible assumption | with_reducible refine timeEvent_same h_regs h_owed h_strs h_closes h_exempt h_refused h_trd h_key ?_ | with_reducible refine statusMsg_same h_tim ?_ | with_reducible refine Same.ite ?_ ?_ | with_reducible refine Same.set_tim h_tim rfl ?_)

theorem refreshError_same {F : Fld → Bool} {s t : State} {a0 : Nat} (h_regs : F .regs = true) (h_trd : F .trd = true) (h : Same F s t) : Same F s (refreshError a0 t) := by
  unfold refreshError
  repeat' (first | with_reducible assumption | with_reducible refine setErr_same h_regs h_trd ?_ | with_reducible refine regSetFld_same h_regs ?_ | with_reducible refine bump_same h_regs ?_)

theorem serialMessage_same {F : Fld → Bool} {s t : State} {a0 : Nat} {a1 : BitVec 192} (h_regs : F .regs = true) (h_parts : F .parts = true) (h_trd : F .trd = true) (h : Same F s t) : Same F s (serialMessage a0 a1 t) := by
  unfold serialMessage
  repeat' (first | with_reducible assumption | with_reducible refine refreshError_same h_regs h_trd ?_ | with_reducible refine updPart_same h_parts ?_ | with_reducible refine Same.ite ?_ ?_)

theorem statusRequest_same {F : Fld → Bool} {s t : State} {a0 : Nat} (h_parts : F .parts = true) (h_tim : F .tim = true) (h : Same F s t) : Same F s (statusRequest a0 t) := by
  unfold statusRequest
  repeat' (first | with_reducible assumption | with_reducible refine statusMsg_same h_tim ?_ | with_reducible refine updPart_same h_parts ?_ | with_reducible refine Same.ite ?_ ?_)

theorem Q_scaled_same {F : Fld → Bool} {s t : State} {a0 : Q} {a1 : Int} (h_free : F .free = true) (h : Same F s t) : Same F s (Q.scaled a0 a1 t).2 := by
  unfold Q.scaled
  repeat' (first | with_reducible assumption | with_reducible refine freeRound_same h_free ?_)

theorem Q_scaled_same_eq {F : Fld → Bool} {s t : State} {a0 : Q} {a1 : Int} (h_free : F .free = true) {x} {u : State} (e : Q.scaled a0 a1 t = (x, u)) (h : Same F s t) : Same F s u := by
  have := Q_scaled_same (F := F) (s := s) (t := t) (a0 := a0) (a1 := a1) h_free h
  rw [e] at this; exact this

theorem Q_nearest_same {F : Fld → Bool} {s t : State} {a0 : Q} (h_free : F .free = true) (h : Same F s t) : Same F s (Q.nearest a0 t).2 := by
  unfold Q.nearest
  repeat' (first | with_reducible assumption | with_reducible refine freeRound_same h_free ?_ | split)

theorem Q_nearest_same_eq {F : Fld → Bool} {s t : State} {a0 : Q} (h_free : F .free = true) {x} {u : State} (e : Q.nearest a0 t = (x, u)) (h : Same F s t) : Same F s u := by
  have := Q_nearest_same (F := F) (s := s) (t := t) (a0 := a0) h_free h
  rw [e] at this; exact this

theorem updServo_same {F : Fld → Bool} {s t : State} {a0 : Servo → Servo} (h_servo : F .servo = true) (h : Same F s t) : Same F s (updServo a0 t) := by
  unfold updServo
  repeat' (first | with_reducible assumption | with_reducible refine Same.set_servo h_servo ?_)

theorem gainDisc_same {F : Fld → Bool} {s t : State} {a0 : Nat} (h_regs : F .regs = true) (h_tim : F .tim = true) (h_owed : F .owed = true) (h_strs : F .strs = true) (h_closes : F .closes = true) (h_exempt : F .exempt = true) (h_refused : F .refused = true) (h_trd : F .trd = true) (h_key : F .key = true) (h : Same F s t) : Same F s (gainDisc a0 t) := by
  unfold gainDisc
  repeat' (first | with_reducible assumption | with_reducible refine timeEvent_same h_regs h_owed h_strs h_closes h_exempt h_refused h_trd h_key ?_ | with_reducible refine statusMsg_same h_tim ?_ | with_reducible refine Same.set_tim h_tim rfl ?_)

theorem loseDisc_same {F : Fld → Bool} {s t : State} {a0 : Nat} {a1 : Bool} (h_regs : F .regs = true) (h_tim : F .tim = true) (h_owed : F .owed = true) (h_strs : F .strs = true) (h_closes : F .closes = true) (h_exempt : F .exempt = true) (h_refused : F .refused = true) (h_trd : F .trd = true) (h_key : F .key = true) (h : Same F s t) : Same F s (loseDisc a0 a1 t) := by
  unfold loseDisc
  repeat' (first | with_reducible assumption | with_reducible refine timeEvent_same h_regs h_owed h_strs h_closes h_exempt h_refused h_trd h_key ?_ | with_reducible refine statusMsg_same h_tim ?_ | with_reducible refine raise_same h_regs h_trd ?_ | with_reducible refine Same.ite ?_ ?_ | with_reducible refine Same.set_tim h_tim rfl ?_)

theorem servoTo_same {F : Fld → Bool} {s t : State} {a0 : Nat} (h_servo : F .servo = true) (h : Same F s t) : Same F s (servoTo a0 t) := by
  unfold servoTo
  repeat' (first | with_reducible assumption | with_reducible refine updServo_same h_servo ?_)

theorem servoLost_same {F : Fld → Bool} {s t : State}  (h_regs : F .regs = true) (h_tim : F .tim = true) (h_owed : F .owed = true) (h_strs : F .strs = true) (h_closes : F .closes = true) (h_exempt : F .exempt = true) (h_refused : F .refused = true) (h_trd : F .trd = true) (h_key : F .key = true) (h_servo : F .servo = true) (h : Same F s t) : Same F s (servoLost t) := by
  unfold servoLost
  repeat' (first | with_reducible assumption | with_reducible refine servoTo_same h_servo ?_ | with_reducible refine loseDisc_same h_regs h_tim h_owed h_strs h_closes h_exempt h_refused h_trd h_key ?_ | with_reducible refine setRate_same h_tim ?_)

theorem servoCheck_same {F : Fld → Bool} {s t : State} {a0 : Bool} (h_regs : F .regs = true) (h_tim : F .tim = true) (h_owed : F .owed = true) (h_strs : F .strs = true) (h_closes : F .closes = true) (h_exempt : F .exempt = true) (h_refused : F .refused = true) (h_trd : F .trd = true) (h_key : F .key = true) (h_servo : F .servo = true) (h : Same F s t) : Same F s (servoCheck a0 t) := by
  unfold servoCheck
  repeat' (first | with_reducible assumption | with_reducible refine gainDisc_same h_regs h_tim h_owed h_strs h_closes h_exempt h_refused h_trd h_key ?_ | with_reducible refine servoTo_same h_servo ?_ | with_reducible refine servoLost_same h_regs h_tim h_owed h_strs h_closes h_exempt h_refused h_trd h_key h_servo ?_ | with_reducible refine Same.ite ?_ ?_)

theorem servoStart_same {F : Fld → Bool} {s t : State} {a0 : State → Bool} (h_regs : F .regs = true) (h_tim : F .tim = true) (h_owed : F .owed = true) (h_strs : F .strs = true) (h_closes : F .closes = true) (h_exempt : F .exempt = true) (h_refused : F .refused = true) (h_trd : F .trd = true) (h_key : F .key = true) (h_servo : F .servo = true) (h : Same F s t) : SameO F s (servoStart a0 t) := by
  unfold servoStart
  repeat' (first | with_reducible assumption | with_reducible refine updServo_same h_servo ?_ | with_reducible refine servoTo_same h_servo ?_ | with_reducible refine gainDisc_same h_regs h_tim h_owed h_strs h_closes h_exempt h_refused h_trd h_key ?_ | with_reducible refine servoCheck_same h_regs h_tim h_owed h_strs h_closes h_exempt h_refused h_trd h_key h_servo ?_ | with_reducible exact SameO.none | with_reducible refine SameO.some ?_ | split)

theorem servoStop_same {F : Fld → Bool} {s t : State}  (h_regs : F .regs = true) (h_tim : F .tim = true) (h_owed : F .owed = true) (h_strs : F .strs = true) (h_closes : F .closes = true) (h_exempt : F .exempt = true) (h_refused : F .refused = true) (h_trd : F .trd = true) (h_key : F .key = true) (h_servo : F .servo = true) (h : Same F s t) : Same F s (servoStop t) := by
  unfold servoStop
  repeat' (first | with_reducible assumption | with_reducible refine servoTo_same h_servo ?_ | with_reducible refine loseDisc_same h_regs h_tim h_owed h_strs h_closes h_exempt h_refused h_trd h_key ?_ | with_reducible refine Same.ite ?_ ?_)

theorem rearm_same {F : Fld → Bool} {s t : State} {a0 : Nat} (h_regs : F .regs = true) (h_tim : F .tim = true) (h_owed : F .owed = true) (h_strs : F .strs = true) (h_closes : F .closes = true) (h_exempt : F .exempt = true) (h_refused : F .refused = true) (h_trd : F .trd = true) (h_key : F .key = true) (h_servo : F .servo = true) (h : Same F s t) : Same F s (rearm a0 t) := by
  unfold rearm
  repeat' (first | with_reducible assumption | with_reducible refine updServo_same h_servo ?_ | with_reducible refine servoTo_same h_servo ?_ | with_reducible refine loseDisc_same h_regs h_tim h_owed h_strs h_closes h_exempt h_refused h_trd h_key ?_)

theorem servoRearm_same {F : Fld → Bool} {s t : State} {a0 : State → Bool} (h_regs : F .regs = true) (h_tim : F .tim = true) (h_owed : F .owed = true) (h_strs : F .strs = true) (h_closes : F .closes = true) (h_exempt : F .exempt = true) (h_refused : F .refused = true) (h_trd : F .trd = true) (h_key : F .key = true) (h_servo : F .servo = true) (h : Same F s t) : SameO F s (servoRearm a0 t) := by
  unfold servoRearm
  repeat' (first | with_reducible assumption | with_reducible refine rearm_same h_regs h_tim h_owed h_strs h_closes h_exempt h_refused h_trd h_key h_servo ?_ | with_reducible refine servoCheck_same h_regs h_tim h_owed h_strs h_closes h_exempt h_refused h_trd h_key h_servo ?_ | with_reducible exact SameO.none | with_reducible refine SameO.some ?_ | with_reducible refine SameO.ite ?_ ?_)

theorem freePpt_same {F : Fld → Bool} {s t : State}  (h_free : F .free = true) (h : Same F s t) : Same F s (freePpt t).2 := by
  unfold freePpt
  repeat' (first | with_reducible assumption | with_reducible refine takeFree_same h_free ?_)

theorem freePpt_same_eq {F : Fld → Bool} {s t : State}  (h_free : F .free = true) {x} {u : State} (e : freePpt t = (x, u)) (h : Same F s t) : Same F s u := by
  have := freePpt_same (F := F) (s := s) (t := t)  h_free h
  rw [e] at this; exact this

theorem servoLaw_same {F : Fld → Bool} {s t : State} {a0 : Q} {a1 : Nat} (h_regs : F .regs = true) (h_tim : F .tim = true) (h_owed : F .owed = true) (h_strs : F .strs = true) (h_closes : F .closes = true) (h_exempt : F .exempt = true) (h_refused : F .refused = true) (h_trd : F .trd = true) (h_key : F .key = true) (h_servo : F .servo = true) (h_free : F .free = true) (h : Same F s t) : Same F s (servoLaw a0 a1 t) := by
  unfold servoLaw
  repeat' (first | with_reducible assumption | with_reducible refine freePpt_same h_free ?_ | with_reducible refine freeRound_same h_free ?_ | with_reducible refine setRate_same h_tim ?_ | with_reducible refine updServo_same h_servo ?_ | with_reducible refine timeEvent_same h_regs h_owed h_strs h_closes h_exempt h_refused h_trd h_key ?_ | with_reducible refine Same.ite ?_ ?_ | split)

theorem requestStep_same {F : Fld → Bool} {s t : State} {a0 : Q} (h_tim : F .tim = true) (h_servo : F .servo = true) (h_free : F .free = true) (h : Same F s t) : Same F s (requestStep a0 t) := by
  unfold requestStep
  repeat' (first | with_reducible assumption | with_reducible refine Q_nearest_same h_free ?_ | with_reducible refine announceDelta_same h_tim ?_ | with_reducible refine announceDelta_same h_tim ?_ _ (by assumption) | with_reducible refine updServo_same h_servo ?_ | dsimp only | split)

theorem slopePpt_same {F : Fld → Bool} {s t : State} {a0 : List (Q × Nat)} (h_free : F .free = true) (h : Same F s t) : Same F s (slopePpt a0 t).2 := by
  unfold slopePpt
  repeat' (first | with_reducible assumption | with_reducible refine freePpt_same h_free ?_ | with_reducible refine freeRound_same h_free ?_ | dsimp only | split)

theorem slopePpt_same_eq {F : Fld → Bool} {s t : State} {a0 : List (Q × Nat)} (h_free : F .free = true) {x} {u : State} (e : slopePpt a0 t = (x, u)) (h : Same F s t) : Same F s u := by
  have := slopePpt_same (F := F) (s := s) (t := t) (a0 := a0) h_free h
  rw [e] at this; exact this

theorem acquired_same {F : Fld → Bool} {s t : State} {a0 : Q} (h_tim : F .tim = true) (h_servo : F .servo = true) (h_free : F .free = true) (h : Same F s t) : Same F s (acquired a0 t) := by
  unfold acquired
  repeat' (first | with_reducible assumption | with_reducible refine slopePpt_same h_free ?_ | with_reducible refine updServo_same h_servo ?_ | with_reducible refine requestStep_same h_tim h_servo h_free ?_ | with_reducible refine servoTo_same h_servo ?_ | with_reducible refine Same.ite ?_ ?_)

theorem judge_same {F : Fld → Bool} {s t : State} {a0 : Q} (h_regs : F .regs = true) (h_tim : F .tim = true) (h_owed : F .owed = true) (h_strs : F .strs = true) (h_closes : F .closes = true) (h_exempt : F .exempt = true) (h_refused : F .refused = true) (h_trd : F .trd = true) (h_key : F .key = true) (h_servo : F .servo = true) (h : Same F s t) : Same F s (judge a0 t) := by
  unfold judge
  repeat' (first | with_reducible assumption | with_reducible refine updServo_same h_servo ?_ | with_reducible refine gainDisc_same h_regs h_tim h_owed h_strs h_closes h_exempt h_refused h_trd h_key ?_ | with_reducible refine servoTo_same h_servo ?_ | with_reducible refine loseDisc_same h_regs h_tim h_owed h_strs h_closes h_exempt h_refused h_trd h_key ?_ | with_reducible refine Same.ite ?_ ?_)

theorem measure_same {F : Fld → Bool} {s t : State} {a0 : Q} (h_regs : F .regs = true) (h_tim : F .tim = true) (h_owed : F .owed = true) (h_strs : F .strs = true) (h_closes : F .closes = true) (h_exempt : F .exempt = true) (h_refused : F .refused = true) (h_trd : F .trd = true) (h_key : F .key = true) (h_servo : F .servo = true) (h_free : F .free = true) (h : Same F s t) : Same F s (Machine.measure a0 t) := by
  unfold Machine.measure
  repeat' (first | with_reducible assumption | with_reducible refine bump_same h_regs ?_ | with_reducible refine updServo_same h_servo ?_ | with_reducible refine Q_scaled_same h_free ?_ | with_reducible refine acquired_same h_tim h_servo h_free ?_ | with_reducible refine servoLaw_same h_regs h_tim h_owed h_strs h_closes h_exempt h_refused h_trd h_key h_servo h_free ?_ | with_reducible refine judge_same h_regs h_tim h_owed h_strs h_closes h_exempt h_refused h_trd h_key h_servo ?_ | with_reducible refine requestStep_same h_tim h_servo h_free ?_ | with_reducible refine Same.ite ?_ ?_)

theorem rootDiscLost_same {F : Fld → Bool} {s t : State}  (h_regs : F .regs = true) (h_tim : F .tim = true) (h_owed : F .owed = true) (h_strs : F .strs = true) (h_closes : F .closes = true) (h_exempt : F .exempt = true) (h_refused : F .refused = true) (h_trd : F .trd = true) (h_key : F .key = true) (h_servo : F .servo = true) (h : Same F s t) : Same F s (rootDiscLost t) := by
  unfold rootDiscLost
  repeat' (first | with_reducible assumption | with_reducible refine servoTo_same h_servo ?_ | with_reducible refine loseDisc_same h_regs h_tim h_owed h_strs h_closes h_exempt h_refused h_trd h_key ?_ | with_reducible refine Same.ite ?_ ?_)

theorem servoStepped_same {F : Fld → Bool} {s t : State}  (h_servo : F .servo = true) (h : Same F s t) : Same F s (servoStepped t) := by
  unfold servoStepped
  repeat' (first | with_reducible assumption | with_reducible refine updServo_same h_servo ?_ | with_reducible refine servoTo_same h_servo ?_ | with_reducible refine Same.ite ?_ ?_)

theorem stepAt_same {F : Fld → Bool} {s t : State}  (h_regs : F .regs = true) (h_parts : F .parts = true) (h_tim : F .tim = true) (h_owed : F .owed = true) (h_strs : F .strs = true) (h_closes : F .closes = true) (h_exempt : F .exempt = true) (h_refused : F .refused = true) (h_counts : F .counts = true) (h_trd : F .trd = true) (h_key : F .key = true) (h_servo : F .servo = true) (h : Same F s t) : Same F s (stepAt t) := by
  unfold stepAt
  repeat' (first | with_reducible assumption | with_reducible refine stepTakesForce_same h_regs h_parts h_tim h_owed h_strs h_closes h_exempt h_refused h_counts h_trd h_key ?_ | with_reducible refine servoStepped_same h_servo ?_ | split)

theorem updEth_same {F : Fld → Bool} {s t : State} {a0 : Eth → Eth} (h_eth : F .eth = true) (h : Same F s t) : Same F s (updEth a0 t) := by
  unfold updEth
  repeat' (first | with_reducible assumption | with_reducible refine Same.set_eth h_eth ?_)

theorem recheck_same {F : Fld → Bool} {s t : State}  (h_regs : F .regs = true) (h_tim : F .tim = true) (h_owed : F .owed = true) (h_strs : F .strs = true) (h_closes : F .closes = true) (h_exempt : F .exempt = true) (h_refused : F .refused = true) (h_trd : F .trd = true) (h_key : F .key = true) (h_servo : F .servo = true) (h : Same F s t) : Same F s (recheck t) := by
  unfold recheck
  repeat' (first | with_reducible assumption | with_reducible refine servoCheck_same h_regs h_tim h_owed h_strs h_closes h_exempt h_refused h_trd h_key h_servo ?_)

theorem selectMaster_same {F : Fld → Bool} {s t : State}  (h_regs : F .regs = true) (h_tim : F .tim = true) (h_owed : F .owed = true) (h_strs : F .strs = true) (h_closes : F .closes = true) (h_exempt : F .exempt = true) (h_refused : F .refused = true) (h_trd : F .trd = true) (h_key : F .key = true) (h_servo : F .servo = true) (h_eth : F .eth = true) (h : Same F s t) : Same F s (selectMaster t) := by
  unfold selectMaster
  repeat' (first | with_reducible assumption | with_reducible refine recheck_same h_regs h_tim h_owed h_strs h_closes h_exempt h_refused h_trd h_key h_servo ?_ | with_reducible refine updEth_same h_eth ?_ | with_reducible refine Same.ite ?_ ?_)

theorem ethClear_same {F : Fld → Bool} {s t : State}  (h_regs : F .regs = true) (h_tim : F .tim = true) (h_owed : F .owed = true) (h_strs : F .strs = true) (h_closes : F .closes = true) (h_exempt : F .exempt = true) (h_refused : F .refused = true) (h_trd : F .trd = true) (h_key : F .key = true) (h_servo : F .servo = true) (h_eth : F .eth = true) (h : Same F s t) : Same F s (ethClear t) := by
  unfold ethClear
  repeat' (first | with_reducible assumption | with_reducible refine recheck_same h_regs h_tim h_owed h_strs h_closes h_exempt h_refused h_trd h_key h_servo ?_ | with_reducible refine updEth_same h_eth ?_)

theorem frameSize_same {F : Fld → Bool} {s t : State} {a0 : Nat} (h_regs : F .regs = true) (h_trd : F .trd = true) (h : Same F s t) : Same F s (frameSize a0 t) := by
  unfold frameSize
  repeat' (first | with_reducible assumption | with_reducible refine setPortErr_same h_regs h_trd ?_ | with_reducible refine Same.ite ?_ ?_)

theorem ptpAnnounce_same {F : Fld → Bool} {s t : State} {a0 : PtpHdr} {a1 : PtpMaster} (h_regs : F .regs = true) (h_tim : F .tim = true) (h_owed : F .owed = true) (h_strs : F .strs = true) (h_closes : F .closes = true) (h_exempt : F .exempt = true) (h_refused : F .refused = true) (h_trd : F .trd = true) (h_key : F .key = true) (h_servo : F .servo = true) (h_eth : F .eth = true) (h : Same F s t) : Same F s (ptpAnnounce a0 a1 t) := by
  unfold ptpAnnounce
  repeat' (first | with_reducible assumption | with_reducible refine frameSize_same h_regs h_trd ?_ | with_reducible refine selectMaster_same h_regs h_tim h_owed h_strs h_closes h_exempt h_refused h_trd h_key h_servo h_eth ?_ | with_reducible refine updEth_same h_eth ?_ | with_reducible refine Same.ite ?_ ?_)

theorem announceTimeout_same {F : Fld → Bool} {s t : State}  (h_regs : F .regs = true) (h_tim : F .tim = true) (h_owed : F .owed = true) (h_strs : F .strs = true) (h_closes : F .closes = true) (h_exempt : F .exempt = true) (h_refused : F .refused = true) (h_trd : F .trd = true) (h_key : F .key = true) (h_servo : F .servo = true) (h_eth : F .eth = true) (h : Same F s t) : Same F s (announceTimeout t) := by
  unfold announceTimeout
  repeat' (first | with_reducible assumption | with_reducible refine selectMaster_same h_regs h_tim h_owed h_strs h_closes h_exempt h_refused h_trd h_key h_servo h_eth ?_ | with_reducible refine updEth_same h_eth ?_ | with_reducible refine Same.ite ?_ ?_)

theorem tryMs_same {F : Fld → Bool} {s t : State}  (h_eth : F .eth = true) (h : Same F s t) : Same F s (tryMs t) := by
  unfold tryMs
  repeat' (first | with_reducible assumption | with_reducible refine updEth_same h_eth ?_ | split)

theorem ethTimestamp_same {F : Fld → Bool} {s t : State} {a0 : Bool} {a1 : BitVec 4} {a2 : BitVec 8} {a3 : BitVec 16} {a4 : BitVec 2} {a5 : Tdc} (h_regs : F .regs = true) (h_trd : F .trd = true) (h_eth : F .eth = true) (h : Same F s t) : Same F s (ethTimestamp a0 a1 a2 a3 a4 a5 t) := by
  unfold ethTimestamp
  repeat' (first | with_reducible assumption | with_reducible refine updEth_same h_eth ?_ | with_reducible refine setPortErr_same h_regs h_trd ?_ | with_reducible refine tryMs_same h_eth ?_ | with_reducible refine Same.ite ?_ ?_ | split)

theorem ptpSync_same {F : Fld → Bool} {s t : State} {a0 : PtpHdr} {a1 : PtpTime} (h_regs : F .regs = true) (h_tim : F .tim = true) (h_owed : F .owed = true) (h_strs : F .strs = true) (h_closes : F .closes = true) (h_exempt : F .exempt = true) (h_refused : F .refused = true) (h_trd : F .trd = true) (h_key : F .key = true) (h_servo : F .servo = true) (h_eth : F .eth = true) (h : Same F s t) : Same F s (ptpSync a0 a1 t) := by
  unfold ptpSync
  repeat' (first | with_reducible assumption | with_reducible refine frameSize_same h_regs h_trd ?_ | with_reducible refine recheck_same h_regs h_tim h_owed h_strs h_closes h_exempt h_refused h_trd h_key h_servo ?_ | with_reducible refine tryMs_same h_eth ?_ | with_reducible refine updEth_same h_eth ?_ | with_reducible refine Same.ite ?_ ?_)

theorem ptpFollowUp_same {F : Fld → Bool} {s t : State} {a0 : PtpHdr} {a1 : PtpTime} (h_regs : F .regs = true) (h_trd : F .trd = true) (h_eth : F .eth = true) (h : Same F s t) : Same F s (ptpFollowUp a0 a1 t) := by
  unfold ptpFollowUp
  repeat' (first | with_reducible assumption | with_reducible refine frameSize_same h_regs h_trd ?_ | with_reducible refine tryMs_same h_eth ?_ | with_reducible refine updEth_same h_eth ?_ | split)

theorem ptpDelayResp_same {F : Fld → Bool} {s t : State} {a0 : PtpHdr} {a1 : PtpTime} {a2 : BitVec 64} {a3 : BitVec 16} (h_regs : F .regs = true) (h_tim : F .tim = true) (h_owed : F .owed = true) (h_strs : F .strs = true) (h_closes : F .closes = true) (h_exempt : F .exempt = true) (h_refused : F .refused = true) (h_trd : F .trd = true) (h_key : F .key = true) (h_servo : F .servo = true) (h_eth : F .eth = true) (h_free : F .free = true) (h : Same F s t) : Same F s (ptpDelayResp a0 a1 a2 a3 t) := by
  unfold ptpDelayResp
  repeat' (first | with_reducible assumption | with_reducible refine frameSize_same h_regs h_trd ?_ | with_reducible refine updEth_same h_eth ?_ | with_reducible refine freeRound_same h_free ?_ | with_reducible refine recheck_same h_regs h_tim h_owed h_strs h_closes h_exempt h_refused h_trd h_key h_servo ?_ | with_reducible refine measure_same h_regs h_tim h_owed h_strs h_closes h_exempt h_refused h_trd h_key h_servo h_free ?_ | with_reducible refine Same.ite ?_ ?_ | split)

theorem ptpIgnored_same {F : Fld → Bool} {s t : State} {a0 : Nat} (h_regs : F .regs = true) (h_trd : F .trd = true) (h : Same F s t) : Same F s (ptpIgnored a0 t) := by
  unfold ptpIgnored
  repeat' (first | with_reducible assumption | with_reducible refine frameSize_same h_regs h_trd ?_ | with_reducible refine bump_same h_regs ?_ | with_reducible refine Same.ite ?_ ?_)

theorem ptpDelayReqSend_same {F : Fld → Bool} {s t : State}  (h_eth : F .eth = true) (h : Same F s t) : Same F s (ptpDelayReqSend t) := by
  unfold ptpDelayReqSend
  repeat' (first | with_reducible assumption | with_reducible refine updEth_same h_eth ?_ | with_reducible refine Same.ite ?_ ?_)

theorem sendFrame_same {F : Fld → Bool} {s t : State} {a0 : Nat} {a1 : Nat} {a2 : BitVec 16} {a3 : Beat} (h_linkTimes : F .linkTimes = true) (h : Same F s t) : Same F s (sendFrame a0 a1 a2 a3 t) := by
  unfold sendFrame
  repeat' (first | with_reducible assumption | with_reducible refine updTime_same h_linkTimes ?_)

theorem timeClear_same {F : Fld → Bool} {s t : State} {a0 : Nat} (h_linkTimes : F .linkTimes = true) (h : Same F s t) : Same F s (timeClear a0 t) := by
  unfold timeClear
  repeat' (first | with_reducible assumption | with_reducible refine updTime_same h_linkTimes ?_)

theorem timeStart_same {F : Fld → Bool} {s t : State} {a0 : Nat} (h_linkTimes : F .linkTimes = true) (h : Same F s t) : Same F s (timeStart a0 t) := by
  unfold timeStart
  repeat' (first | with_reducible assumption | with_reducible refine updTime_same h_linkTimes ?_ | with_reducible refine timeClear_same h_linkTimes ?_)

theorem reparent_same {F : Fld → Bool} {s t : State}  (h_regs : F .regs = true) (h_tim : F .tim = true) (h_owed : F .owed = true) (h_strs : F .strs = true) (h_closes : F .closes = true) (h_exempt : F .exempt = true) (h_refused : F .refused = true) (h_trd : F .trd = true) (h_key : F .key = true) (h_servo : F .servo = true) (h : Same F s t) : Same F s (reparent t) := by
  unfold reparent
  repeat' (first | with_reducible assumption | with_reducible refine updServo_same h_servo ?_ | with_reducible refine recheck_same h_regs h_tim h_owed h_strs h_closes h_exempt h_refused h_trd h_key h_servo ?_ | with_reducible refine raise_same h_regs h_trd ?_ | with_reducible refine bump_same h_regs ?_ | with_reducible refine Same.ite ?_ ?_)

theorem timeDrop_same {F : Fld → Bool} {s t : State} {a0 : Nat} (h_regs : F .regs = true) (h_tim : F .tim = true) (h_owed : F .owed = true) (h_strs : F .strs = true) (h_closes : F .closes = true) (h_exempt : F .exempt = true) (h_refused : F .refused = true) (h_trd : F .trd = true) (h_key : F .key = true) (h_linkTimes : F .linkTimes = true) (h_servo : F .servo = true) (h : Same F s t) : Same F s (timeDrop a0 t) := by
  unfold timeDrop
  repeat' (first | with_reducible assumption | with_reducible refine reparent_same h_regs h_tim h_owed h_strs h_closes h_exempt h_refused h_trd h_key h_servo ?_ | with_reducible refine timeClear_same h_linkTimes ?_)

theorem rxTimestamp_same {F : Fld → Bool} {s t : State} {a0 : Nat} {a1 : Tdc} (h_linkTimes : F .linkTimes = true) (h : Same F s t) : Same F s (rxTimestamp a0 a1 t) := by
  unfold rxTimestamp
  repeat' (first | with_reducible assumption | with_reducible refine updTime_same h_linkTimes ?_)

theorem txTimestamp_same {F : Fld → Bool} {s t : State} {a0 : Nat} {a1 : Tdc} (h_linkTimes : F .linkTimes = true) (h : Same F s t) : Same F s (txTimestamp a0 a1 t) := by
  unfold txTimestamp
  repeat' (first | with_reducible assumption | with_reducible refine updTime_same h_linkTimes ?_ | split)

theorem takeFrame_same {F : Fld → Bool} {s t : State} {a0 : Nat} {a1 : Beat} (h_regs : F .regs = true) (h_trd : F .trd = true) (h_linkTimes : F .linkTimes = true) (h : Same F s t) : Same F s (takeFrame a0 a1 t).2 := by
  dsimp only [takeFrame]
  repeat' (first | with_reducible assumption | with_reducible refine updTime_same h_linkTimes ?_ | with_reducible refine bump_same h_regs ?_ | with_reducible refine setPortErr_same h_regs h_trd ?_ | with_reducible refine setErr_same h_regs h_trd ?_ | split)

theorem takeFrame_same_eq {F : Fld → Bool} {s t : State} {a0 : Nat} {a1 : Beat} (h_regs : F .regs = true) (h_trd : F .trd = true) (h_linkTimes : F .linkTimes = true) {x} {u : State} (e : takeFrame a0 a1 t = (x, u)) (h : Same F s t) : Same F s u := by
  have := takeFrame_same (F := F) (s := s) (t := t) (a0 := a0) (a1 := a1) h_regs h_trd h_linkTimes h
  rw [e] at this; exact this

theorem helloSend_same {F : Fld → Bool} {s t : State} {a0 : Nat} (h_linkTimes : F .linkTimes = true) (h : Same F s t) : Same F s (helloSend a0 t) := by
  unfold helloSend
  repeat' (first | with_reducible assumption | with_reducible refine sendFrame_same h_linkTimes ?_ | with_reducible refine updTime_same h_linkTimes ?_ | with_reducible refine Same.ite ?_ ?_)

theorem planeStamp_same {F : Fld → Bool} {s t : State} {a1 : Nat} {a2 : Option Int} (h_free : F .free = true) (h : Same F s t) : Same F s (planeStamp t a1 a2).2 := by
  unfold planeStamp
  repeat' (first | with_reducible assumption | with_reducible refine freeRound_same h_free ?_ | split)

theorem planeStamp_same_eq {F : Fld → Bool} {s t : State} {a1 : Nat} {a2 : Option Int} (h_free : F .free = true) {x} {u : State} (e : planeStamp t a1 a2 = (x, u)) (h : Same F s t) : Same F s u := by
  have := planeStamp_same (F := F) (s := s) (t := t) (a1 := a1) (a2 := a2) h_free h
  rw [e] at this; exact this

theorem negotiate_same {F : Fld → Bool} {s t : State} {a0 : Nat} {a1 : Nat} {a2 : Nat} (h_regs : F .regs = true) (h_tim : F .tim = true) (h_owed : F .owed = true) (h_strs : F .strs = true) (h_closes : F .closes = true) (h_exempt : F .exempt = true) (h_refused : F .refused = true) (h_trd : F .trd = true) (h_key : F .key = true) (h_links : F .links = true) (h_linkTimes : F .linkTimes = true) (h_servo : F .servo = true) (h : Same F s t) : Same F s (negotiate a0 a1 a2 t) := by
  unfold negotiate
  repeat' (first | with_reducible assumption | with_reducible refine linkEvent_same h_links ?_ | with_reducible refine setErr_same h_regs h_trd ?_ | with_reducible refine reparent_same h_regs h_tim h_owed h_strs h_closes h_exempt h_refused h_trd h_key h_servo ?_ | with_reducible refine updTime_same h_linkTimes ?_ | with_reducible refine Same.ite ?_ ?_)

theorem hello_same {F : Fld → Bool} {s t : State} {a0 : Nat} {a1 : Beat} {a2 : Option Int} (h_regs : F .regs = true) (h_tim : F .tim = true) (h_owed : F .owed = true) (h_strs : F .strs = true) (h_closes : F .closes = true) (h_exempt : F .exempt = true) (h_refused : F .refused = true) (h_trd : F .trd = true) (h_key : F .key = true) (h_links : F .links = true) (h_linkTimes : F .linkTimes = true) (h_servo : F .servo = true) (h_free : F .free = true) (h : Same F s t) : Same F s (hello a0 a1 a2 t) := by
  unfold hello
  repeat' (first | with_reducible assumption | with_reducible refine planeStamp_same h_free ?_ | with_reducible refine updLink_same h_links ?_ | with_reducible refine timeDrop_same h_regs h_tim h_owed h_strs h_closes h_exempt h_refused h_trd h_key h_linkTimes h_servo ?_ | with_reducible refine raise_same h_regs h_trd ?_ | with_reducible refine linkEvent_same h_links ?_ | with_reducible refine setErr_same h_regs h_trd ?_ | with_reducible refine timeStart_same h_linkTimes ?_ | with_reducible refine updTime_same h_linkTimes ?_ | with_reducible refine negotiate_same h_regs h_tim h_owed h_strs h_closes h_exempt h_refused h_trd h_key h_links h_linkTimes h_servo ?_ | with_reducible refine Same.ite ?_ ?_)

theorem discardPd_same {F : Fld → Bool} {s t : State} {a0 : Nat} (h_regs : F .regs = true) (h_tim : F .tim = true) (h_owed : F .owed = true) (h_strs : F .strs = true) (h_closes : F .closes = true) (h_exempt : F .exempt = true) (h_refused : F .refused = true) (h_trd : F .trd = true) (h_key : F .key = true) (h_linkTimes : F .linkTimes = true) (h_servo : F .servo = true) (h : Same F s t) : Same F s (discardPd a0 t) := by
  unfold discardPd
  repeat' (first | with_reducible assumption | with_reducible refine reparent_same h_regs h_tim h_owed h_strs h_closes h_exempt h_refused h_trd h_key h_servo ?_ | with_reducible refine updTime_same h_linkTimes ?_)

theorem pdreqSend_same {F : Fld → Bool} {s t : State} {a0 : Nat} (h_regs : F .regs = true) (h_tim : F .tim = true) (h_owed : F .owed = true) (h_strs : F .strs = true) (h_closes : F .closes = true) (h_exempt : F .exempt = true) (h_refused : F .refused = true) (h_trd : F .trd = true) (h_key : F .key = true) (h_linkTimes : F .linkTimes = true) (h_servo : F .servo = true) (h : Same F s t) : Same F s (pdreqSend a0 t) := by
  unfold pdreqSend
  repeat' (first | with_reducible assumption | with_reducible refine discardPd_same h_regs h_tim h_owed h_strs h_closes h_exempt h_refused h_trd h_key h_linkTimes h_servo ?_ | with_reducible refine sendFrame_same h_linkTimes ?_ | with_reducible refine updTime_same h_linkTimes ?_ | with_reducible refine Same.ite ?_ ?_)

theorem pdreq_same {F : Fld → Bool} {s t : State} {a0 : Nat} {a1 : Beat} {a2 : Option Int} (h_linkTimes : F .linkTimes = true) (h_free : F .free = true) (h : Same F s t) : Same F s (pdreq a0 a1 a2 t) := by
  unfold pdreq
  repeat' (first | with_reducible assumption | with_reducible refine freeRound_same h_free ?_ | with_reducible refine sendFrame_same h_linkTimes ?_ | with_reducible refine updTime_same h_linkTimes ?_ | split)

theorem pdfollowSend_same {F : Fld → Bool} {s t : State} {a0 : Nat} (h_linkTimes : F .linkTimes = true) (h_free : F .free = true) (h : Same F s t) : Same F s (pdfollowSend a0 t) := by
  unfold pdfollowSend
  repeat' (first | with_reducible assumption | with_reducible refine freeRound_same h_free ?_ | with_reducible refine sendFrame_same h_linkTimes ?_ | with_reducible refine updTime_same h_linkTimes ?_ | split)

theorem pdresp_same {F : Fld → Bool} {s t : State} {a0 : Nat} {a1 : Beat} {a2 : Option Int} (h_linkTimes : F .linkTimes = true) (h : Same F s t) : Same F s (pdresp a0 a1 a2 t) := by
  unfold pdresp
  repeat' (first | with_reducible assumption | with_reducible refine updTime_same h_linkTimes ?_ | with_reducible refine Same.ite ?_ ?_ | split)

theorem ratioOf_same {F : Fld → Bool} {s t : State} {a0 : LinkTime} {a1 : Int} {a2 : Nat} (h_free : F .free = true) (h : Same F s t) : Same F s (ratioOf a0 a1 a2 t).2 := by
  dsimp only [ratioOf]
  repeat' (first | with_reducible assumption | with_reducible refine takeFree_same h_free ?_ | split)

theorem ratioOf_same_eq {F : Fld → Bool} {s t : State} {a0 : LinkTime} {a1 : Int} {a2 : Nat} (h_free : F .free = true) {x} {u : State} (e : ratioOf a0 a1 a2 t = (x, u)) (h : Same F s t) : Same F s u := by
  have := ratioOf_same (F := F) (s := s) (t := t) (a0 := a0) (a1 := a1) (a2 := a2) h_free h
  rw [e] at this; exact this

theorem pdfollow_same {F : Fld → Bool} {s t : State} {a0 : Nat} {a1 : Beat} {a2 : Option Int} (h_regs : F .regs = true) (h_tim : F .tim = true) (h_owed : F .owed = true) (h_strs : F .strs = true) (h_closes : F .closes = true) (h_exempt : F .exempt = true) (h_refused : F .refused = true) (h_trd : F .trd = true) (h_key : F .key = true) (h_linkTimes : F .linkTimes = true) (h_servo : F .servo = true) (h_free : F .free = true) (h : Same F s t) : Same F s (pdfollow a0 a1 a2 t) := by
  unfold pdfollow
  repeat' (first | with_reducible assumption | with_reducible refine ratioOf_same h_free ?_ | with_reducible refine Q_scaled_same h_free ?_ | with_reducible refine reparent_same h_regs h_tim h_owed h_strs h_closes h_exempt h_refused h_trd h_key h_servo ?_ | with_reducible refine updTime_same h_linkTimes ?_ | with_reducible refine Same.ite ?_ ?_ | split)

theorem pdelayTimeout_same {F : Fld → Bool} {s t : State} {a0 : Nat} (h_regs : F .regs = true) (h_tim : F .tim = true) (h_owed : F .owed = true) (h_strs : F .strs = true) (h_closes : F .closes = true) (h_exempt : F .exempt = true) (h_refused : F .refused = true) (h_trd : F .trd = true) (h_key : F .key = true) (h_linkTimes : F .linkTimes = true) (h_servo : F .servo = true) (h : Same F s t) : Same F s (pdelayTimeout a0 t) := by
  unfold pdelayTimeout
  repeat' (first | with_reducible assumption | with_reducible refine discardPd_same h_regs h_tim h_owed h_strs h_closes h_exempt h_refused h_trd h_key h_linkTimes h_servo ?_ | split)

theorem sendSync_same {F : Fld → Bool} {s t : State} {a0 : Nat} {a1 : BitVec 16} {a2 : Nat} {a3 : Nat} (h_linkTimes : F .linkTimes = true) (h : Same F s t) : Same F s (sendSync a0 a1 a2 a3 t) := by
  unfold sendSync
  repeat' (first | with_reducible assumption | with_reducible refine sendFrame_same h_linkTimes ?_ | with_reducible refine updTime_same h_linkTimes ?_)

theorem rootSyncSend_same {F : Fld → Bool} {s t : State}  (h_linkTimes : F .linkTimes = true) (h_servo : F .servo = true) (h : Same F s t) : Same F s (rootSyncSend t) := by
  unfold rootSyncSend
  repeat' (first | with_reducible assumption | with_reducible refine sendSync_same h_linkTimes ?_ | with_reducible refine updServo_same h_servo ?_ | with_reducible refine foldl_same (fun _ _ _ => ?_) ?_ | with_reducible refine Same.ite ?_ ?_)

theorem sync_same {F : Fld → Bool} {s t : State} {a0 : Nat} {a1 : Beat} {a2 : Option Int} (h_linkTimes : F .linkTimes = true) (h : Same F s t) : Same F s (sync a0 a1 a2 t) := by
  unfold sync
  repeat' (first | with_reducible assumption | with_reducible refine updTime_same h_linkTimes ?_ | with_reducible refine sendSync_same h_linkTimes ?_ | with_reducible refine foldl_same (fun _ _ _ => ?_) ?_ | with_reducible refine Same.ite ?_ ?_ | split)

theorem rootNews_same {F : Fld → Bool} {s t : State} {a0 : Follow} (h_regs : F .regs = true) (h_tim : F .tim = true) (h_owed : F .owed = true) (h_strs : F .strs = true) (h_closes : F .closes = true) (h_exempt : F .exempt = true) (h_refused : F .refused = true) (h_trd : F .trd = true) (h_key : F .key = true) (h_servo : F .servo = true) (h : Same F s t) : Same F s (rootNews a0 t) := by
  unfold rootNews
  repeat' (first | with_reducible assumption | with_reducible refine updServo_same h_servo ?_ | with_reducible refine recheck_same h_regs h_tim h_owed h_strs h_closes h_exempt h_refused h_trd h_key h_servo ?_ | with_reducible refine rearm_same h_regs h_tim h_owed h_strs h_closes h_exempt h_refused h_trd h_key h_servo ?_ | with_reducible refine rootDiscLost_same h_regs h_tim h_owed h_strs h_closes h_exempt h_refused h_trd h_key h_servo ?_ | with_reducible refine Same.ite ?_ ?_)

theorem freshNews_same {F : Fld → Bool} {s t : State} {a0 : Follow} (h_servo : F .servo = true) (h : Same F s t) : Same F s (freshNews a0 t) := by
  unfold freshNews
  repeat' (first | with_reducible assumption | with_reducible refine updServo_same h_servo ?_ | with_reducible refine Same.ite ?_ ?_)

theorem follow_same {F : Fld → Bool} {s t : State} {a0 : Nat} {a1 : Beat} {a2 : Option Int} (h_regs : F .regs = true) (h_tim : F .tim = true) (h_owed : F .owed = true) (h_strs : F .strs = true) (h_closes : F .closes = true) (h_exempt : F .exempt = true) (h_refused : F .refused = true) (h_trd : F .trd = true) (h_key : F .key = true) (h_linkTimes : F .linkTimes = true) (h_servo : F .servo = true) (h_free : F .free = true) (h : Same F s t) : Same F s (follow a0 a1 a2 t) := by
  unfold follow
  repeat' (first | with_reducible assumption | with_reducible refine reparent_same h_regs h_tim h_owed h_strs h_closes h_exempt h_refused h_trd h_key h_servo ?_ | with_reducible refine freshNews_same h_servo ?_ | with_reducible refine updTime_same h_linkTimes ?_ | with_reducible refine rootNews_same h_regs h_tim h_owed h_strs h_closes h_exempt h_refused h_trd h_key h_servo ?_ | with_reducible refine measure_same h_regs h_tim h_owed h_strs h_closes h_exempt h_refused h_trd h_key h_servo h_free ?_ | with_reducible refine Same.ite ?_ ?_ | split)

theorem followSend_same {F : Fld → Bool} {s t : State} {a0 : Nat} (h_linkTimes : F .linkTimes = true) (h_free : F .free = true) (h : Same F s t) : Same F s (followSend a0 t) := by
  dsimp only [followSend]
  repeat' (first | with_reducible assumption | with_reducible refine updTime_same h_linkTimes ?_ | with_reducible refine freeRound_same h_free ?_ | with_reducible refine sendFrame_same h_linkTimes ?_ | with_reducible refine Q_scaled_same h_free ?_ | split)

theorem followTimeout_same {F : Fld → Bool} {s t : State}  (h_linkTimes : F .linkTimes = true) (h : Same F s t) : Same F s (followTimeout t) := by
  unfold followTimeout
  repeat' (first | with_reducible assumption | with_reducible refine updTime_same h_linkTimes ?_ | with_reducible refine foldl_same (fun _ _ _ => ?_) ?_ | with_reducible refine Same.ite ?_ ?_ | split)

theorem rootLost_same {F : Fld → Bool} {s t : State}  (h_regs : F .regs = true) (h_tim : F .tim = true) (h_owed : F .owed = true) (h_strs : F .strs = true) (h_closes : F .closes = true) (h_exempt : F .exempt = true) (h_refused : F .refused = true) (h_trd : F .trd = true) (h_key : F .key = true) (h_servo : F .servo = true) (h : Same F s t) : Same F s (rootLost t) := by
  unfold rootLost
  repeat' (first | with_reducible assumption | with_reducible refine reparent_same h_regs h_tim h_owed h_strs h_closes h_exempt h_refused h_trd h_key h_servo ?_ | with_reducible refine setErr_same h_regs h_trd ?_ | with_reducible refine updServo_same h_servo ?_ | with_reducible refine Same.ite ?_ ?_)

theorem timeFrame_same {F : Fld → Bool} {s t : State} {a0 : Nat} {a1 : Beat} (h_regs : F .regs = true) (h_tim : F .tim = true) (h_owed : F .owed = true) (h_strs : F .strs = true) (h_closes : F .closes = true) (h_exempt : F .exempt = true) (h_refused : F .refused = true) (h_trd : F .trd = true) (h_key : F .key = true) (h_links : F .links = true) (h_linkTimes : F .linkTimes = true) (h_servo : F .servo = true) (h_free : F .free = true) (h : Same F s t) : Same F s (timeFrame a0 a1 t) := by
  unfold timeFrame
  repeat' (first | with_reducible assumption | with_reducible refine takeFrame_same h_regs h_trd h_linkTimes ?_ | with_reducible refine hello_same h_regs h_tim h_owed h_strs h_closes h_exempt h_refused h_trd h_key h_links h_linkTimes h_servo h_free ?_ | with_reducible refine sync_same h_linkTimes ?_ | with_reducible refine follow_same h_regs h_tim h_owed h_strs h_closes h_exempt h_refused h_trd h_key h_linkTimes h_servo h_free ?_ | with_reducible refine pdreq_same h_linkTimes h_free ?_ | with_reducible refine pdresp_same h_linkTimes ?_ | with_reducible refine pdfollow_same h_regs h_tim h_owed h_strs h_closes h_exempt h_refused h_trd h_key h_linkTimes h_servo h_free ?_ | dsimp only | split)

theorem linkEnters_same {F : Fld → Bool} {s t : State} {a0 : Nat} (h_regs : F .regs = true) (h_strs : F .strs = true) (h_closes : F .closes = true) (h_exempt : F .exempt = true) (h_refused : F .refused = true) (h_trd : F .trd = true) (h_key : F .key = true) (h_links : F .links = true) (h_linkTimes : F .linkTimes = true) (h : Same F s t) : Same F s (linkEnters a0 t) := by
  unfold linkEnters
  repeat' (first | with_reducible assumption | with_reducible refine updLink_same h_links ?_ | with_reducible refine raise_same h_regs h_trd ?_ | with_reducible refine linkEventNow_same h_links ?_ | with_reducible refine timeStart_same h_linkTimes ?_ | with_reducible refine settleLnk_same h_regs h_strs h_closes h_exempt h_refused h_trd h_key h_links ?_ | with_reducible refine Same.ite ?_ ?_)

theorem linkStateChange_same {F : Fld → Bool} {s t : State} {a0 : Nat} {a1 : BitVec 2} {a2 : Tdc} (h_regs : F .regs = true) (h_tim : F .tim = true) (h_owed : F .owed = true) (h_strs : F .strs = true) (h_closes : F .closes = true) (h_exempt : F .exempt = true) (h_refused : F .refused = true) (h_trd : F .trd = true) (h_key : F .key = true) (h_links : F .links = true) (h_linkTimes : F .linkTimes = true) (h_servo : F .servo = true) (h : Same F s t) : Same F s (linkStateChange a0 a1 a2 t) := by
  unfold linkStateChange
  repeat' (first | with_reducible assumption | with_reducible refine updLink_same h_links ?_ | with_reducible refine bump_same h_regs ?_ | with_reducible refine linkEvent_same h_links ?_ | with_reducible refine raise_same h_regs h_trd ?_ | with_reducible refine linkDown_same h_regs h_strs h_closes h_exempt h_refused h_trd h_key h_links ?_ | with_reducible refine timeDrop_same h_regs h_tim h_owed h_strs h_closes h_exempt h_refused h_trd h_key h_linkTimes h_servo ?_ | with_reducible refine timeStart_same h_linkTimes ?_ | with_reducible refine Same.ite ?_ ?_)

theorem absentTimer_same {F : Fld → Bool} {s t : State} {a0 : Nat} (h_regs : F .regs = true) (h_trd : F .trd = true) (h_links : F .links = true) (h : Same F s t) : Same F s (absentTimer a0 t) := by
  unfold absentTimer
  repeat' (first | with_reducible assumption | with_reducible refine raise_same h_regs h_trd ?_ | with_reducible refine linkEvent_same h_links ?_ | with_reducible refine setErr_same h_regs h_trd ?_ | with_reducible refine updLink_same h_links ?_ | dsimp only | split)

theorem updStop_same {F : Fld → Bool} {s t : State} {a0 : Stop → Stop} (h_stop : F .stop = true) (h : Same F s t) : Same F s (updStop a0 t) := by
  unfold updStop
  repeat' (first | with_reducible assumption | with_reducible refine Same.set_stop h_stop ?_)

theorem snagFill_same {F : Fld → Bool} {s t : State}  (h_regs : F .regs = true) (h_trd : F .trd = true) (h_stop : F .stop = true) (h : Same F s t) : Same F s (snagFill t) := by
  unfold snagFill
  repeat' (first | with_reducible assumption | with_reducible refine updStop_same h_stop ?_ | with_reducible refine setErr_same h_regs h_trd ?_ | with_reducible refine Same.ite ?_ ?_ | split)

theorem issueSnag_same {F : Fld → Bool} {s t : State} {a0 : Nat} (h_regs : F .regs = true) (h_wports : F .wports = true) (h_exempt : F .exempt = true) (h_reedGovs : F .reedGovs = true) (h_trd : F .trd = true) (h_stop : F .stop = true) (h : Same F s t) : Same F s (issueSnag a0 t) := by
  unfold issueSnag
  repeat' (first | with_reducible assumption | with_reducible refine snagFill_same h_regs h_trd h_stop ?_ | with_reducible refine updReedGov_same h_reedGovs ?_ | with_reducible refine updStop_same h_stop ?_ | with_reducible refine sendBlock_same h_wports ?_ | split | with_reducible refine Same.set_exempt h_exempt ?_)

theorem snagBlockDone_same {F : Fld → Bool} {s t : State} {a0 : Nat} {a1 : Bool} (h_stop : F .stop = true) (h : Same F s t) : Same F s (snagBlockDone a0 a1 t) := by
  unfold snagBlockDone
  repeat' (first | with_reducible assumption | with_reducible refine updStop_same h_stop ?_ | split)

theorem snagWritten_same {F : Fld → Bool} {s t : State}  (h_regs : F .regs = true) (h_trd : F .trd = true) (h_stop : F .stop = true) (h : Same F s t) : Same F s (snagWritten t) := by
  unfold snagWritten
  repeat' (first | with_reducible assumption | with_reducible refine raise_same h_regs h_trd ?_ | with_reducible refine updStop_same h_stop ?_ | with_reducible refine Same.ite ?_ ?_)

theorem snagRestart_same {F : Fld → Bool} {s t : State}  (h_stop : F .stop = true) (h : Same F s t) : Same F s (snagRestart t) := by
  unfold snagRestart
  repeat' (first | with_reducible assumption | with_reducible refine updStop_same h_stop ?_ | with_reducible refine Same.ite ?_ ?_)

theorem waitingDemand_same {F : Fld → Bool} {s t : State}  (h_reedGovs : F .reedGovs = true) (h : Same F s t) : Same F s (waitingDemand t) := by
  unfold waitingDemand
  repeat' (first | with_reducible assumption | with_reducible refine updReedGov_same h_reedGovs ?_ | with_reducible refine foldl_same (fun _ _ _ => ?_) ?_ | with_reducible refine Same.ite ?_ ?_ | split)

theorem updKey_same {F : Fld → Bool} {s t : State} {a0 : KeyStore → KeyStore} (h_key : F .key = true) (h : Same F s t) : Same F s (updKey a0 t) := by
  unfold updKey
  repeat' (first | with_reducible assumption | with_reducible refine Same.set_key h_key ?_)

theorem deriveGen_same {F : Fld → Bool} {s t : State} {a0 : BitVec 32} {a1 : BitVec 8} {a2 : BitVec 256} (h_salts : F .salts = true) (h : Same F s t) : Same F s (deriveGen a0 a1 a2 t).2 := by
  unfold deriveGen
  repeat' (first | with_reducible assumption | with_reducible refine takeSalt_same h_salts ?_)

theorem deriveGen_same_eq {F : Fld → Bool} {s t : State} {a0 : BitVec 32} {a1 : BitVec 8} {a2 : BitVec 256} (h_salts : F .salts = true) {x} {u : State} (e : deriveGen a0 a1 a2 t = (x, u)) (h : Same F s t) : Same F s u := by
  have := deriveGen_same (F := F) (s := s) (t := t) (a0 := a0) (a1 := a1) (a2 := a2) h_salts h
  rw [e] at this; exact this

theorem clearSeed_same {F : Fld → Bool} {s t : State}  (h_key : F .key = true) (h : Same F s t) : Same F s (clearSeed t) := by
  unfold clearSeed
  repeat' (first | with_reducible assumption | with_reducible refine updKey_same h_key ?_)

theorem install_same {F : Fld → Bool} {s t : State}  (h_key : F .key = true) (h_salts : F .salts = true) (h : Same F s t) : SameO F s (install t) := by
  unfold install
  repeat' (first | with_reducible assumption | with_reducible refine deriveGen_same h_salts ?_ | with_reducible refine clearSeed_same h_key ?_ | with_reducible refine updSlot_same h_key ?_ | with_reducible exact SameO.none | with_reducible refine SameO.some ?_ | with_reducible refine SameO.ite ?_ ?_ | split)

theorem rotate_same {F : Fld → Bool} {s t : State}  (h_bobs : F .bobs = true) (h_key : F .key = true) (h_salts : F .salts = true) (h : Same F s t) : SameO F s (rotate t) := by
  unfold rotate
  repeat' (first | with_reducible assumption | with_reducible refine deriveGen_same h_salts ?_ | with_reducible refine updSlot_same h_key ?_ | with_reducible refine clearSeed_same h_key ?_ | with_reducible refine updBob_same h_bobs ?_ | with_reducible exact SameO.none | with_reducible refine SameO.some ?_ | with_reducible refine foldl_same (fun _ _ _ => ?_) ?_ | dsimp only | split)

theorem slotReport_same {F : Fld → Bool} {s t : State} {a0 : Nat} {a1 : Nat} {a2 : Nat} {a3 : Nat} {a4 : Nat} (h_regs : F .regs = true) (h_strs : F .strs = true) (h_closes : F .closes = true) (h_exempt : F .exempt = true) (h_trd : F .trd = true) (h_key : F .key = true) (h_ver : F .ver = true) (h_free : F .free = true) (h : Same F s t) : Same F s (slotReport a0 a1 a2 a3 a4 t) := by
  unfold slotReport
  repeat' (first | with_reducible assumption | with_reducible refine placeReport_same h_regs h_strs h_closes h_exempt h_trd h_key h_ver h_free ?_)

theorem beginRemoval_same {F : Fld → Bool} {s t : State} {a0 : Nat} {a1 : Nat} (h_regs : F .regs = true) (h_strs : F .strs = true) (h_closes : F .closes = true) (h_exempt : F .exempt = true) (h_trd : F .trd = true) (h_key : F .key = true) (h_ver : F .ver = true) (h_free : F .free = true) (h : Same F s t) : Same F s (beginRemoval a0 a1 t) := by
  unfold beginRemoval
  repeat' (first | with_reducible assumption | with_reducible refine updSlot_same h_key ?_ | with_reducible refine closeBobs_same h_strs h_closes ?_ | with_reducible refine raise_same h_regs h_trd ?_ | with_reducible refine slotReport_same h_regs h_strs h_closes h_exempt h_trd h_key h_ver h_free ?_)

theorem remove_same {F : Fld → Bool} {s t : State}  (h_regs : F .regs = true) (h_strs : F .strs = true) (h_closes : F .closes = true) (h_exempt : F .exempt = true) (h_trd : F .trd = true) (h_key : F .key = true) (h_ver : F .ver = true) (h_free : F .free = true) (h : Same F s t) : SameO F s (remove t) := by
  unfold remove
  repeat' (first | with_reducible assumption | with_reducible refine beginRemoval_same h_regs h_strs h_closes h_exempt h_trd h_key h_ver h_free ?_ | with_reducible exact SameO.none | with_reducible refine SameO.some ?_ | with_reducible refine SameO.ite ?_ ?_)

theorem release_same {F : Fld → Bool} {s t : State}  (h_key : F .key = true) (h : Same F s t) : SameO F s (release t) := by
  unfold release
  repeat' (first | with_reducible assumption | with_reducible refine updSlot_same h_key ?_ | with_reducible exact SameO.none | with_reducible refine SameO.some ?_ | with_reducible refine SameO.ite ?_ ?_)

theorem scanRelease_same {F : Fld → Bool} {s t : State}  (h_key : F .key = true) (h : Same F s t) : SameO F s (scanRelease t) := by
  unfold scanRelease
  repeat' (first | with_reducible assumption | with_reducible refine updSlot_same h_key ?_ | with_reducible exact SameO.none | with_reducible refine SameO.some ?_ | with_reducible refine SameO.ite ?_ ?_)

theorem noteSeed_same {F : Fld → Bool} {s t : State}  (h_regs : F .regs = true) (h_trd : F .trd = true) (h : Same F s t) : Same F s (noteSeed t) := by
  unfold noteSeed
  repeat' (first | with_reducible assumption | with_reducible refine setErr_same h_regs h_trd ?_ | with_reducible refine Same.ite ?_ ?_)

theorem tdispChange_same {F : Fld → Bool} {s t : State} {a0 : BitVec 2} (h_regs : F .regs = true) (h_strs : F .strs = true) (h_closes : F .closes = true) (h_exempt : F .exempt = true) (h_trd : F .trd = true) (h_key : F .key = true) (h_ver : F .ver = true) (h_free : F .free = true) (h : Same F s t) : Same F s (tdispChange a0 t) := by
  unfold tdispChange
  repeat' (first | with_reducible assumption | with_reducible refine raise_same h_regs h_trd ?_ | with_reducible refine updKey_same h_key ?_ | with_reducible refine setErr_same h_regs h_trd ?_ | with_reducible refine clearSeed_same h_key ?_ | with_reducible refine beginRemoval_same h_regs h_strs h_closes h_exempt h_trd h_key h_ver h_free ?_ | with_reducible refine foldl_same (fun _ _ _ => ?_) ?_ | with_reducible refine Same.ite ?_ ?_)

theorem genRetired_same {F : Fld → Bool} {s t : State} {a0 : Nat} (h_regs : F .regs = true) (h_strs : F .strs = true) (h_closes : F .closes = true) (h_bobs : F .bobs = true) (h_exempt : F .exempt = true) (h_trd : F .trd = true) (h_key : F .key = true) (h_ver : F .ver = true) (h_free : F .free = true) (h : Same F s t) : Same F s (genRetired a0 t) := by
  unfold genRetired
  repeat' (first | with_reducible assumption | with_reducible refine updSlot_same h_key ?_ | with_reducible refine updBob_same h_bobs ?_ | with_reducible refine slotReport_same h_regs h_strs h_closes h_exempt h_trd h_key h_ver h_free ?_ | with_reducible refine foldl_same (fun _ _ _ => ?_) ?_ | dsimp only | split)

theorem fenceComplete_same {F : Fld → Bool} {s t : State} {a0 : Nat} (h_key : F .key = true) (h : Same F s t) : Same F s (fenceComplete a0 t) := by
  unfold fenceComplete
  repeat' (first | with_reducible assumption | with_reducible refine updSlot_same h_key ?_ | with_reducible refine Same.ite ?_ ?_)

theorem clearBob_same {F : Fld → Bool} {s t : State} {a0 : Nat} (h_bobs : F .bobs = true) (h : Same F s t) : Same F s (clearBob a0 t) := by
  unfold clearBob
  repeat' (first | with_reducible assumption | with_reducible refine updBob_same h_bobs ?_)

theorem eraseSlot_same {F : Fld → Bool} {s t : State} {a0 : Nat} (h_regs : F .regs = true) (h_strs : F .strs = true) (h_closes : F .closes = true) (h_bobs : F .bobs = true) (h_exempt : F .exempt = true) (h_trd : F .trd = true) (h_key : F .key = true) (h_ver : F .ver = true) (h_free : F .free = true) (h : Same F s t) : Same F s (eraseSlot a0 t) := by
  unfold eraseSlot
  repeat' (first | with_reducible assumption | with_reducible refine updSlot_same h_key ?_ | with_reducible refine clearBob_same h_bobs ?_ | with_reducible refine slotReport_same h_regs h_strs h_closes h_exempt h_trd h_key h_ver h_free ?_ | with_reducible refine foldl_same (fun _ _ _ => ?_) ?_)

theorem slotDrainComplete_same {F : Fld → Bool} {s t : State} {a0 : Nat} (h_regs : F .regs = true) (h_strs : F .strs = true) (h_closes : F .closes = true) (h_bobs : F .bobs = true) (h_exempt : F .exempt = true) (h_trd : F .trd = true) (h_key : F .key = true) (h_ver : F .ver = true) (h_free : F .free = true) (h : Same F s t) : Same F s (slotDrainComplete a0 t) := by
  unfold slotDrainComplete
  repeat' (first | with_reducible assumption | with_reducible refine eraseSlot_same h_regs h_strs h_closes h_bobs h_exempt h_trd h_key h_ver h_free ?_ | with_reducible refine Same.ite ?_ ?_)

theorem drainOverdue_same {F : Fld → Bool} {s t : State} {a0 : Nat} (h_regs : F .regs = true) (h_trd : F .trd = true) (h_key : F .key = true) (h : Same F s t) : Same F s (drainOverdue a0 t) := by
  unfold drainOverdue
  repeat' (first | with_reducible assumption | with_reducible refine setErr_same h_regs h_trd ?_ | with_reducible refine updSlot_same h_key ?_ | with_reducible refine Same.ite ?_ ?_)

theorem keyEcc_same {F : Fld → Bool} {s t : State} {a0 : Nat} {a1 : Bool} (h_regs : F .regs = true) (h_strs : F .strs = true) (h_closes : F .closes = true) (h_bobs : F .bobs = true) (h_exempt : F .exempt = true) (h_trd : F .trd = true) (h_hedStops : F .hedStops = true) (h_key : F .key = true) (h_ver : F .ver = true) (h_free : F .free = true) (h : Same F s t) : Same F s (keyEcc a0 a1 t) := by
  unfold keyEcc
  repeat' (first | with_reducible assumption | with_reducible refine beginRemoval_same h_regs h_strs h_closes h_exempt h_trd h_key h_ver h_free ?_ | with_reducible refine updSlot_same h_key ?_ | with_reducible refine updStrm_same h_strs ?_ | with_reducible refine setErr_same h_regs h_trd ?_ | with_reducible refine abandonScans_same h_regs h_trd h_hedStops ?_ | with_reducible refine eraseSlot_same h_regs h_strs h_closes h_bobs h_exempt h_trd h_key h_ver h_free ?_ | with_reducible refine workLost_same h_regs h_strs h_closes h_exempt h_trd h_key h_ver h_free ?_ | with_reducible refine foldl_same (fun _ _ _ => ?_) ?_ | with_reducible refine Same.ite ?_ ?_)

theorem issueZero_same {F : Fld → Bool} {s t : State} {a0 : Nat} {a1 : Nat} {a2 : Nat} (h_wports : F .wports = true) (h_exempt : F .exempt = true) (h_key : F .key = true) (h : Same F s t) : Same F s (issueZero a0 a1 a2 t) := by
  unfold issueZero
  repeat' (first | with_reducible assumption | with_reducible refine updSlot_same h_key ?_ | with_reducible refine sendBlock_same h_wports ?_ | with_reducible refine Same.set_exempt h_exempt ?_)

theorem zeroDone_same {F : Fld → Bool} {s t : State} {a0 : Nat} {a1 : Nat} {a2 : Bool} (h_key : F .key = true) (h : Same F s t) : Same F s (zeroDone a0 a1 a2 t) := by
  unfold zeroDone
  repeat' (first | with_reducible assumption | with_reducible refine updSlot_same h_key ?_ | with_reducible refine Same.ite ?_ ?_)

theorem scrubbed_same {F : Fld → Bool} {s t : State} {a0 : Nat} {a1 : Nat} {a2 : Nat} {a3 : Nat} {a4 : Nat} (h_regs : F .regs = true) (h_strs : F .strs = true) (h_closes : F .closes = true) (h_exempt : F .exempt = true) (h_trd : F .trd = true) (h_key : F .key = true) (h_ver : F .ver = true) (h_free : F .free = true) (h : Same F s t) : Same F s (scrubbed a0 a1 a2 a3 a4 t) := by
  unfold scrubbed
  repeat' (first | with_reducible assumption | with_reducible refine raise_same h_regs h_trd ?_ | with_reducible refine slotReport_same h_regs h_strs h_closes h_exempt h_trd h_key h_ver h_free ?_ | with_reducible refine updSlot_same h_key ?_)

theorem scrubComplete_same {F : Fld → Bool} {s t : State} {a0 : Nat} (h_regs : F .regs = true) (h_strs : F .strs = true) (h_closes : F .closes = true) (h_exempt : F .exempt = true) (h_trd : F .trd = true) (h_key : F .key = true) (h_ver : F .ver = true) (h_free : F .free = true) (h : Same F s t) : Same F s (scrubComplete a0 t) := by
  unfold scrubComplete
  repeat' (first | with_reducible assumption | with_reducible refine scrubbed_same h_regs h_strs h_closes h_exempt h_trd h_key h_ver h_free ?_ | with_reducible refine Same.ite ?_ ?_)

theorem askRead_same {F : Fld → Bool} {s t : State} {a0 : ReadFor} {a1 : Nat} (h_rport : F .rport = true) (h : Same F s t) : Same F s (askRead a0 a1 t) := by
  unfold askRead
  repeat' (first | with_reducible assumption | with_reducible refine Same.set_rport h_rport ?_)

theorem askScans_same {F : Fld → Bool} {s t : State} {a0 : Nat} (h_rport : F .rport = true) (h_adopts : F .adopts = true) (h : Same F s t) : Same F s (askScans a0 t) := by
  unfold askScans
  repeat' (first | with_reducible assumption | with_reducible refine askRead_same h_rport ?_ | with_reducible refine updAdopt_same h_adopts ?_ | with_reducible refine foldl_same (fun _ _ _ => ?_) ?_ | with_reducible refine Same.ite ?_ ?_)

theorem startReads_same {F : Fld → Bool} {s t : State} {a0 : Nat} (h_rport : F .rport = true) (h : Same F s t) : Same F s (startReads a0 t) := by
  induction a0 generalizing t  with
  | zero => exact h
  | succ n ih =>
    unfold startReads
    repeat' (first | with_reducible assumption | (with_reducible refine ih ?_) | split | with_reducible refine Same.set_rport h_rport ?_)

theorem settleReads_same {F : Fld → Bool} {s t : State}  (h_rport : F .rport = true) (h_adopts : F .adopts = true) (h : Same F s t) : Same F s (settleReads t) := by
  unfold settleReads
  repeat' (first | with_reducible assumption | with_reducible refine startReads_same h_rport ?_ | with_reducible refine askScans_same h_rport h_adopts ?_ | with_reducible refine foldl_same (fun _ _ _ => ?_) ?_)

theorem updRb_same {F : Fld → Bool} {s t : State} {a0 : RbPort → RbPort} (h_key : F .key = true) (h : Same F s t) : Same F s (updRb a0 t) := by
  unfold updRb
  repeat' (first | with_reducible assumption | with_reducible refine updKey_same h_key ?_)

theorem rbBegin_same {F : Fld → Bool} {s t : State}  (h_rport : F .rport = true) (h_key : F .key = true) (h : Same F s t) : Same F s (rbBegin t) := by
  unfold rbBegin
  repeat' (first | with_reducible assumption | with_reducible refine updRb_same h_key ?_ | with_reducible refine askRead_same h_rport ?_ | split)

theorem readbackRequest_same {F : Fld → Bool} {s t : State} {a0 : BitVec 16} {a1 : BitVec 48} (h_rport : F .rport = true) (h_key : F .key = true) (h : Same F s t) : Same F s (readbackRequest a0 a1 t) := by
  unfold readbackRequest
  repeat' (first | with_reducible assumption | with_reducible refine updRb_same h_key ?_ | with_reducible refine rbBegin_same h_rport h_key ?_ | with_reducible refine Same.ite ?_ ?_)

theorem readbackComplete_same {F : Fld → Bool} {s t : State}  (h_rport : F .rport = true) (h_key : F .key = true) (h : Same F s t) : Same F s (readbackComplete t) := by
  dsimp only [readbackComplete]
  repeat' (first | with_reducible assumption | with_reducible refine rbBegin_same h_rport h_key ?_ | with_reducible refine updRb_same h_key ?_ | split)

theorem keyReadClear_same {F : Fld → Bool} {s t : State}  (h_key : F .key = true) (h : Same F s t) : Same F s (keyReadClear t) := by
  unfold keyReadClear
  repeat' (first | with_reducible assumption | with_reducible refine updSlot_same h_key ?_)

theorem updFw_same {F : Fld → Bool} {s t : State} {a0 : Fw → Fw} (h_fw : F .fw = true) (h : Same F s t) : Same F s (updFw a0 t) := by
  unfold updFw
  repeat' (first | with_reducible assumption | with_reducible refine Same.set_fw h_fw ?_)

theorem fwResult_same {F : Fld → Bool} {s t : State} {a0 : Nat} (h_regs : F .regs = true) (h : Same F s t) : Same F s (fwResult a0 t) := by
  unfold fwResult
  repeat' (first | with_reducible assumption | with_reducible refine regSetFld_same h_regs ?_)

theorem dropLoader_same {F : Fld → Bool} {s t : State}  (h_rport : F .rport = true) (h_fw : F .fw = true) (h : Same F s t) : Same F s (dropLoader t) := by
  unfold dropLoader
  repeat' (first | with_reducible assumption | with_reducible refine updFw_same h_fw ?_ | with_reducible refine dropReads_same h_rport ?_)

theorem beginLoad_same {F : Fld → Bool} {s t : State} {a0 : Nat} {a1 : Nat} (h_rport : F .rport = true) (h_fw : F .fw = true) (h : Same F s t) : Same F s (beginLoad a0 a1 t) := by
  unfold beginLoad
  repeat' (first | with_reducible assumption | with_reducible refine askRead_same h_rport ?_ | with_reducible refine updFw_same h_fw ?_ | with_reducible refine dropLoader_same h_rport h_fw ?_)

theorem askBody_same {F : Fld → Bool} {s t : State} {a0 : Nat → ReadFor} {a1 : Nat} {a2 : Nat} (h_rport : F .rport = true) (h : Same F s t) : Same F s (askBody a0 a1 a2 t) := by
  unfold askBody
  repeat' (first | with_reducible assumption | with_reducible refine askRead_same h_rport ?_ | with_reducible refine foldl_same (fun _ _ _ => ?_) ?_)

theorem loaderRead_same {F : Fld → Bool} {s t : State} {a0 : Nat} {a1 : Option Block} (h_rport : F .rport = true) (h_fw : F .fw = true) (h : Same F s t) : Same F s (loaderRead a0 a1 t) := by
  unfold loaderRead
  repeat' (first | with_reducible assumption | with_reducible refine updFw_same h_fw ?_ | with_reducible refine dropReads_same h_rport ?_ | with_reducible refine askBody_same h_rport ?_ | split)

theorem clearSram_same {F : Fld → Bool} {s t : State}  (h_fw : F .fw = true) (h : Same F s t) : Same F s (clearSram t) := by
  unfold clearSram
  repeat' (first | with_reducible assumption | with_reducible refine updFw_same h_fw ?_)

theorem fwLoad_same {F : Fld → Bool} {s t : State}  (h_rport : F .rport = true) (h_fw : F .fw = true) (h : Same F s t) : SameO F s (fwLoad t) := by
  unfold fwLoad
  repeat' (first | with_reducible assumption | with_reducible refine beginLoad_same h_rport h_fw ?_ | with_reducible refine clearSram_same h_fw ?_ | with_reducible exact SameO.none | with_reducible refine SameO.some ?_ | with_reducible refine SameO.ite ?_ ?_)

theorem loadComplete_same {F : Fld → Bool} {s t : State}  (h_regs : F .regs = true) (h_rport : F .rport = true) (h_trd : F .trd = true) (h_fw : F .fw = true) (h : Same F s t) : Same F s (loadComplete t) := by
  unfold loadComplete
  repeat' (first | with_reducible assumption | with_reducible refine fwResult_same h_regs ?_ | with_reducible refine dropLoader_same h_rport h_fw ?_ | with_reducible refine updFw_same h_fw ?_ | with_reducible refine raise_same h_regs h_trd ?_ | with_reducible refine setErr_same h_regs h_trd ?_ | with_reducible refine clearSram_same h_fw ?_ | split)

theorem fwHandover_same {F : Fld → Bool} {s t : State}  (h_rport : F .rport = true) (h_fw : F .fw = true) (h : Same F s t) : SameO F s (fwHandover t) := by
  unfold fwHandover
  repeat' (first | with_reducible assumption | with_reducible refine beginLoad_same h_rport h_fw ?_ | with_reducible refine updFw_same h_fw ?_ | with_reducible exact SameO.none | with_reducible refine SameO.some ?_ | with_reducible refine SameO.ite ?_ ?_)

theorem handoverFails_same {F : Fld → Bool} {s t : State} {a0 : Nat} (h_regs : F .regs = true) (h_rport : F .rport = true) (h_trd : F .trd = true) (h_fw : F .fw = true) (h : Same F s t) : Same F s (handoverFails a0 t) := by
  unfold handoverFails
  repeat' (first | with_reducible assumption | with_reducible refine raise_same h_regs h_trd ?_ | with_reducible refine setErr_same h_regs h_trd ?_ | with_reducible refine fwResult_same h_regs ?_ | with_reducible refine updFw_same h_fw ?_ | with_reducible refine dropLoader_same h_rport h_fw ?_)

theorem verifyComplete_same {F : Fld → Bool} {s t : State}  (h_regs : F .regs = true) (h_rport : F .rport = true) (h_trd : F .trd = true) (h_fw : F .fw = true) (h : Same F s t) : Same F s (verifyComplete t) := by
  unfold verifyComplete
  repeat' (first | with_reducible assumption | with_reducible refine updFw_same h_fw ?_ | with_reducible refine dropLoader_same h_rport h_fw ?_ | with_reducible refine handoverFails_same h_regs h_rport h_trd h_fw ?_ | split)

theorem handoverTimeout_same {F : Fld → Bool} {s t : State}  (h_regs : F .regs = true) (h_rport : F .rport = true) (h_trd : F .trd = true) (h_fw : F .fw = true) (h : Same F s t) : Same F s (handoverTimeout t) := by
  unfold handoverTimeout
  repeat' (first | with_reducible assumption | with_reducible refine handoverFails_same h_regs h_rport h_trd h_fw ?_ | with_reducible refine Same.ite ?_ ?_)

theorem leaveCheckpoint_same {F : Fld → Bool} {s t : State}  (h_fw : F .fw = true) (h_free : F .free = true) (h : Same F s t) : Same F s (leaveCheckpoint t) := by
  unfold leaveCheckpoint
  repeat' (first | with_reducible assumption | with_reducible refine takeFree_same h_free ?_ | with_reducible refine updFw_same h_fw ?_)

theorem enterReload_same {F : Fld → Bool} {s t : State}  (h_rport : F .rport = true) (h_fw : F .fw = true) (h : Same F s t) : Same F s (enterReload t) := by
  unfold enterReload
  repeat' (first | with_reducible assumption | with_reducible refine askBody_same h_rport ?_ | with_reducible refine updFw_same h_fw ?_)

theorem enterStart_same {F : Fld → Bool} {s t : State}  (h_rport : F .rport = true) (h_fw : F .fw = true) (h : Same F s t) : Same F s (enterStart t) := by
  unfold enterStart
  repeat' (first | with_reducible assumption | with_reducible refine updFw_same h_fw ?_ | with_reducible refine dropLoader_same h_rport h_fw ?_)

theorem fwAccept_same {F : Fld → Bool} {s t : State}  (h_regs : F .regs = true) (h_trd : F .trd = true) (h_fw : F .fw = true) (h : Same F s t) : Same F s (fwAccept t) := by
  unfold fwAccept
  repeat' (first | with_reducible assumption | with_reducible refine regSetFld_same h_regs ?_ | with_reducible refine updFw_same h_fw ?_ | with_reducible refine count_same h_regs ?_ | with_reducible refine raise_same h_regs h_trd ?_ | with_reducible refine fwResult_same h_regs ?_ | with_reducible refine Same.ite ?_ ?_)

theorem abandonHandover_same {F : Fld → Bool} {s t : State}  (h_regs : F .regs = true) (h_rport : F .rport = true) (h_trd : F .trd = true) (h_fw : F .fw = true) (h : Same F s t) : Same F s (abandonHandover t) := by
  unfold abandonHandover
  repeat' (first | with_reducible assumption | with_reducible refine raise_same h_regs h_trd ?_ | with_reducible refine setErr_same h_regs h_trd ?_ | with_reducible refine fwResult_same h_regs ?_ | with_reducible refine updFw_same h_fw ?_ | with_reducible refine dropLoader_same h_rport h_fw ?_ | with_reducible refine Same.ite ?_ ?_)

theorem handoverHubReset_same {F : Fld → Bool} {s t : State}  (h_regs : F .regs = true) (h_rport : F .rport = true) (h_trd : F .trd = true) (h_fw : F .fw = true) (h : Same F s t) : Same F s (handoverHubReset t) := by
  unfold handoverHubReset
  repeat' (first | with_reducible assumption | with_reducible refine abandonHandover_same h_regs h_rport h_trd h_fw ?_ | with_reducible refine updFw_same h_fw ?_ | with_reducible refine Same.ite ?_ ?_)

theorem handoverHubBack_same {F : Fld → Bool} {s t : State} {a0 : Nat} (h_fw : F .fw = true) (h : Same F s t) : Same F s (handoverHubBack a0 t) := by
  unfold handoverHubBack
  repeat' (first | with_reducible assumption | with_reducible refine updFw_same h_fw ?_ | with_reducible refine Same.ite ?_ ?_)

theorem fwEnters_same {F : Fld → Bool} {s t : State}  (h_fw : F .fw = true) (h : Same F s t) : Same F s (fwEnters t) := by
  unfold fwEnters
  repeat' (first | with_reducible assumption | with_reducible refine updFw_same h_fw ?_)

theorem fwReset_same {F : Fld → Bool} {s t : State}  (h_rport : F .rport = true) (h_fw : F .fw = true) (h : Same F s t) : Same F s (fwReset t) := by
  unfold fwReset
  repeat' (first | with_reducible assumption | with_reducible refine dropReads_same h_rport ?_ | with_reducible refine Same.set_fw h_fw ?_)

theorem watchdogKick_same {F : Fld → Bool} {s t : State}  (h_regs : F .regs = true) (h_fw : F .fw = true) (h : Same F s t) : Same F s (watchdogKick t) := by
  unfold watchdogKick
  repeat' (first | with_reducible assumption | with_reducible refine count_same h_regs ?_ | with_reducible refine updFw_same h_fw ?_ | with_reducible refine Same.ite ?_ ?_)

theorem fwEmit_same {F : Fld → Bool} {s t : State} {a0 : Nat} (h_regs : F .regs = true) (h_strs : F .strs = true) (h_closes : F .closes = true) (h_exempt : F .exempt = true) (h_trd : F .trd = true) (h_key : F .key = true) (h_ver : F .ver = true) (h_free : F .free = true) (h : Same F s t) : Same F s (fwEmit a0 t) := by
  unfold fwEmit
  repeat' (first | with_reducible assumption | with_reducible refine emitNotices_same h_regs h_strs h_closes h_exempt h_trd h_key h_ver h_free ?_ | with_reducible refine Same.ite ?_ ?_)

theorem hostEmit_same {F : Fld → Bool} {s t : State}  (h_regs : F .regs = true) (h_strs : F .strs = true) (h_closes : F .closes = true) (h_exempt : F .exempt = true) (h_trd : F .trd = true) (h_key : F .key = true) (h_ver : F .ver = true) (h_free : F .free = true) (h : Same F s t) : SameO F s (hostEmit t) := by
  unfold hostEmit
  repeat' (first | with_reducible assumption | with_reducible refine emitNotices_same h_regs h_strs h_closes h_exempt h_trd h_key h_ver h_free ?_ | with_reducible exact SameO.none | with_reducible refine SameO.some ?_ | with_reducible refine SameO.ite ?_ ?_)

theorem hostScrubbed_same {F : Fld → Bool} {s t : State}  (h_regs : F .regs = true) (h_strs : F .strs = true) (h_closes : F .closes = true) (h_exempt : F .exempt = true) (h_trd : F .trd = true) (h_key : F .key = true) (h_ver : F .ver = true) (h_free : F .free = true) (h : Same F s t) : SameO F s (hostScrubbed t) := by
  unfold hostScrubbed
  repeat' (first | with_reducible assumption | with_reducible refine scrubbed_same h_regs h_strs h_closes h_exempt h_trd h_key h_ver h_free ?_ | with_reducible exact SameO.none | with_reducible refine SameO.some ?_ | with_reducible refine SameO.ite ?_ ?_)

theorem bufTransfer_same {F : Fld → Bool} {s t : State} {a0 : Word} {a1 : Block} (h_rport : F .rport = true) (h_fw : F .fw = true) (h : Same F s t) : Same F s (bufTransfer a0 a1 t) := by
  unfold bufTransfer
  repeat' (first | with_reducible assumption | with_reducible refine updFw_same h_fw ?_ | with_reducible refine askRead_same h_rport ?_ | with_reducible refine Same.ite ?_ ?_)

theorem issueBuf_same {F : Fld → Bool} {s t : State} {a0 : Nat} (h_wports : F .wports = true) (h_fw : F .fw = true) (h : Same F s t) : Same F s (issueBuf a0 t) := by
  unfold issueBuf
  repeat' (first | with_reducible assumption | with_reducible refine updFw_same h_fw ?_ | with_reducible refine sendBlock_same h_wports ?_)

theorem bufDone_same {F : Fld → Bool} {s t : State} {a0 : Bool} (h_fw : F .fw = true) (h : Same F s t) : Same F s (bufDone a0 t) := by
  unfold bufDone
  repeat' (first | with_reducible assumption | with_reducible refine updFw_same h_fw ?_)

theorem bufRead_same {F : Fld → Bool} {s t : State} {a0 : Option Block} (h_fw : F .fw = true) (h : Same F s t) : Same F s (bufRead a0 t) := by
  unfold bufRead
  repeat' (first | with_reducible assumption | with_reducible refine updFw_same h_fw ?_)

theorem testReload_same {F : Fld → Bool} {s t : State}  (h_rport : F .rport = true) (h_tests : F .tests = true) (h : Same F s t) : Same F s (testReload t) := by
  unfold testReload
  repeat' (first | with_reducible assumption | with_reducible refine askRead_same h_rport ?_ | with_reducible refine updTests_same h_tests ?_ | with_reducible refine dropReads_same h_rport ?_)

theorem manifestRead_same {F : Fld → Bool} {s t : State} {a0 : Nat} {a1 : Option Block} (h_rport : F .rport = true) (h_tests : F .tests = true) (h : Same F s t) : Same F s (manifestRead a0 a1 t) := by
  unfold manifestRead
  repeat' (first | with_reducible assumption | with_reducible refine updTests_same h_tests ?_ | with_reducible refine askRead_same h_rport ?_ | with_reducible refine foldl_same (fun _ _ _ => ?_) ?_ | split)

theorem dropManifest_same {F : Fld → Bool} {s t : State}  (h_rport : F .rport = true) (h_tests : F .tests = true) (h : Same F s t) : Same F s (dropManifest t) := by
  unfold dropManifest
  repeat' (first | with_reducible assumption | with_reducible refine updTests_same h_tests ?_ | with_reducible refine dropReads_same h_rport ?_)

theorem readEnd_same {F : Fld → Bool} {s t : State} {a0 : ReadFor} {a1 : Option Block} (h_regs : F .regs = true) (h_bobs : F .bobs = true) (h_rport : F .rport = true) (h_adopts : F .adopts = true) (h_trd : F .trd = true) (h_key : F .key = true) (h_tests : F .tests = true) (h_fw : F .fw = true) (h : Same F s t) : Same F s (readEnd a0 a1 t) := by
  unfold readEnd
  repeat' (first | with_reducible assumption | with_reducible refine scanRead_same h_regs h_bobs h_rport h_adopts h_trd ?_ | with_reducible refine updRb_same h_key ?_ | with_reducible refine loaderRead_same h_rport h_fw ?_ | with_reducible refine manifestRead_same h_rport h_tests ?_ | with_reducible refine bufRead_same h_fw ?_ | split)

theorem endTag_same {F : Fld → Bool} {s t : State} {a0 : Nat} {a1 : ReadUse} {a2 : Option Block} (h_regs : F .regs = true) (h_bobs : F .bobs = true) (h_rport : F .rport = true) (h_adopts : F .adopts = true) (h_trd : F .trd = true) (h_key : F .key = true) (h_tests : F .tests = true) (h_fw : F .fw = true) (h : Same F s t) : Same F s (endTag a0 a1 a2 t) := by
  unfold endTag
  repeat' (first | with_reducible assumption | with_reducible refine readEnd_same h_regs h_bobs h_rport h_adopts h_trd h_key h_tests h_fw ?_ | with_reducible refine Same.set_rport h_rport ?_)

theorem endEarly_same {F : Fld → Bool} {s t : State} {a0 : Nat} {a1 : ReadUse} (h_regs : F .regs = true) (h_bobs : F .bobs = true) (h_rport : F .rport = true) (h_adopts : F .adopts = true) (h_trd : F .trd = true) (h_key : F .key = true) (h_tests : F .tests = true) (h_fw : F .fw = true) (h : Same F s t) : Same F s (endEarly a0 a1 t) := by
  unfold endEarly
  repeat' (first | with_reducible assumption | with_reducible refine readEnd_same h_regs h_bobs h_rport h_adopts h_trd h_key h_tests h_fw ?_ | with_reducible refine Same.set_rport h_rport ?_)

theorem readBeat_same {F : Fld → Bool} {s t : State} {a0 : Nat} {a1 : BitVec 3} {a2 : Bool} {a3 : Beat} (h_regs : F .regs = true) (h_bobs : F .bobs = true) (h_rport : F .rport = true) (h_adopts : F .adopts = true) (h_trd : F .trd = true) (h_key : F .key = true) (h_tests : F .tests = true) (h_fw : F .fw = true) (h : Same F s t) : Same F s (readBeat a0 a1 a2 a3 t) := by
  unfold readBeat
  repeat' (first | with_reducible assumption | with_reducible refine setPortErr_same h_regs h_trd ?_ | with_reducible refine endTag_same h_regs h_bobs h_rport h_adopts h_trd h_key h_tests h_fw ?_ | with_reducible refine endEarly_same h_regs h_bobs h_rport h_adopts h_trd h_key h_tests h_fw ?_ | split | with_reducible refine Same.set_rport h_rport ?_)

theorem readTimeout_same {F : Fld → Bool} {s t : State} {a0 : Nat} (h_regs : F .regs = true) (h_bobs : F .bobs = true) (h_rport : F .rport = true) (h_adopts : F .adopts = true) (h_trd : F .trd = true) (h_key : F .key = true) (h_tests : F .tests = true) (h_fw : F .fw = true) (h : Same F s t) : Same F s (readTimeout a0 t) := by
  unfold readTimeout
  repeat' (first | with_reducible assumption | with_reducible refine endEarly_same h_regs h_bobs h_rport h_adopts h_trd h_key h_tests h_fw ?_ | with_reducible refine setPortErr_same h_regs h_trd ?_ | split)

theorem writeEnd_same {F : Fld → Bool} {s t : State} {a0 : Nat} {a1 : BlkRef} {a2 : Bool} (h_regs : F .regs = true) (h_strs : F .strs = true) (h_bobs : F .bobs = true) (h_trd : F .trd = true) (h_stop : F .stop = true) (h_hedStops : F .hedStops = true) (h_key : F .key = true) (h_fw : F .fw = true) (h : Same F s t) : Same F s (writeEnd a0 a1 a2 t) := by
  unfold writeEnd
  repeat' (first | with_reducible assumption | with_reducible refine completeBob_same h_regs h_strs h_bobs h_trd ?_ | with_reducible refine completePast_same h_strs h_bobs ?_ | with_reducible refine scanDoneBlock_same h_regs h_trd h_hedStops ?_ | with_reducible refine snagBlockDone_same h_stop ?_ | with_reducible refine zeroDone_same h_key ?_ | with_reducible refine bufDone_same h_fw ?_ | split)

theorem takeEnd_same {F : Fld → Bool} {s t : State} {a0 : Nat} {a1 : BlkRef} {a2 : Bool} (h_regs : F .regs = true) (h_strs : F .strs = true) (h_bobs : F .bobs = true) (h_wports : F .wports = true) (h_trd : F .trd = true) (h_stop : F .stop = true) (h_hedStops : F .hedStops = true) (h_key : F .key = true) (h_fw : F .fw = true) (h : Same F s t) : Same F s (takeEnd a0 a1 a2 t) := by
  unfold takeEnd
  repeat' (first | with_reducible assumption | with_reducible refine updPort_same h_wports ?_ | with_reducible refine writeEnd_same h_regs h_strs h_bobs h_trd h_stop h_hedStops h_key h_fw ?_ | split)

theorem applyRecorded_same {F : Fld → Bool} {s t : State} {a0 : Nat} (h_regs : F .regs = true) (h_strs : F .strs = true) (h_bobs : F .bobs = true) (h_wports : F .wports = true) (h_trd : F .trd = true) (h_stop : F .stop = true) (h_hedStops : F .hedStops = true) (h_key : F .key = true) (h_fw : F .fw = true) (h : Same F s t) : Same F s (applyRecorded a0 t) := by
  unfold applyRecorded
  repeat' (first | with_reducible assumption | with_reducible refine writeEnd_same h_regs h_strs h_bobs h_trd h_stop h_hedStops h_key h_fw ?_ | with_reducible refine updPort_same h_wports ?_ | with_reducible refine foldl_same (fun _ _ _ => ?_) ?_)

theorem lateDrop_same {F : Fld → Bool} {s t : State} {a0 : BlkRef} (h_key : F .key = true) (h : Same F s t) : Same F s (lateDrop a0 t) := by
  unfold lateDrop
  repeat' (first | with_reducible assumption | with_reducible refine updSlot_same h_key ?_ | dsimp only | split)

theorem memoryCompletion_same {F : Fld → Bool} {s t : State} {a0 : Nat} {a1 : Nat} {a2 : Bool} (h_regs : F .regs = true) (h_strs : F .strs = true) (h_bobs : F .bobs = true) (h_wports : F .wports = true) (h_trd : F .trd = true) (h_stop : F .stop = true) (h_hedStops : F .hedStops = true) (h_key : F .key = true) (h_fw : F .fw = true) (h : Same F s t) : Same F s (memoryCompletion a0 a1 a2 t) := by
  unfold memoryCompletion
  repeat' (first | with_reducible assumption | with_reducible refine setPortErr_same h_regs h_trd ?_ | with_reducible refine bump_same h_regs ?_ | with_reducible refine updPort_same h_wports ?_ | with_reducible refine lateDrop_same h_key ?_ | with_reducible refine takeEnd_same h_regs h_strs h_bobs h_wports h_trd h_stop h_hedStops h_key h_fw ?_ | split)

theorem completionTimeout_same {F : Fld → Bool} {s t : State} {a0 : Nat} {a1 : Nat} (h_regs : F .regs = true) (h_strs : F .strs = true) (h_bobs : F .bobs = true) (h_wports : F .wports = true) (h_trd : F .trd = true) (h_stop : F .stop = true) (h_hedStops : F .hedStops = true) (h_key : F .key = true) (h_fw : F .fw = true) (h : Same F s t) : Same F s (completionTimeout a0 a1 t) := by
  unfold completionTimeout
  repeat' (first | with_reducible assumption | with_reducible refine updPort_same h_wports ?_ | with_reducible refine takeEnd_same h_regs h_strs h_bobs h_wports h_trd h_stop h_hedStops h_key h_fw ?_ | with_reducible refine setPortErr_same h_regs h_trd ?_ | with_reducible refine bump_same h_regs ?_ | split)

theorem settleWriter_same {F : Fld → Bool} {s t : State} {a0 : Nat} (h_regs : F .regs = true) (h_strs : F .strs = true) (h_closes : F .closes = true) (h_exempt : F .exempt = true) (h_refused : F .refused = true) (h_heds : F .heds = true) (h_counts : F .counts = true) (h_hedGovs : F .hedGovs = true) (h_reedGovs : F .reedGovs = true) (h_trd : F .trd = true) (h_stop : F .stop = true) (h_key : F .key = true) (h_wits : F .wits = true) (h_ver : F .ver = true) (h_tests : F .tests = true) (h_links : F .links = true) (h_free : F .free = true) (h : Same F s t) : Same F s (settleWriter a0 t) := by
  unfold settleWriter
  repeat' (first | with_reducible assumption | with_reducible refine settleLnk_same h_regs h_strs h_closes h_exempt h_refused h_trd h_key h_links ?_ | with_reducible refine witFlush_same h_regs h_strs h_closes h_exempt h_refused h_trd h_stop h_key h_wits h_ver h_tests h_free ?_ | with_reducible refine settleHed_same h_regs h_strs h_closes h_exempt h_heds h_counts h_hedGovs h_reedGovs h_trd h_key ?_ | with_reducible refine foldl_same (fun _ _ _ => ?_) ?_ | with_reducible refine Same.ite ?_ ?_)

theorem blockIssue_same {F : Fld → Bool} {s t : State} {a0 : Nat} (h_regs : F .regs = true) (h_strs : F .strs = true) (h_closes : F .closes = true) (h_bobs : F .bobs = true) (h_wports : F .wports = true) (h_exempt : F .exempt = true) (h_refused : F .refused = true) (h_heds : F .heds = true) (h_counts : F .counts = true) (h_hedGovs : F .hedGovs = true) (h_reedGovs : F .reedGovs = true) (h_trd : F .trd = true) (h_stop : F .stop = true) (h_hedStops : F .hedStops = true) (h_key : F .key = true) (h_wits : F .wits = true) (h_ver : F .ver = true) (h_tests : F .tests = true) (h_links : F .links = true) (h_fw : F .fw = true) (h_free : F .free = true) (h : Same F s t) : Same F s (blockIssue a0 t) := by
  unfold blockIssue
  repeat' (first | with_reducible assumption | with_reducible refine settleWriter_same h_regs h_strs h_closes h_exempt h_refused h_heds h_counts h_hedGovs h_reedGovs h_trd h_stop h_key h_wits h_ver h_tests h_links h_free ?_ | with_reducible refine issueBuf_same h_wports h_fw ?_ | with_reducible refine issueSnag_same h_regs h_wports h_exempt h_reedGovs h_trd h_stop ?_ | with_reducible refine issueZero_same h_wports h_exempt h_key ?_ | with_reducible refine issueNext_same h_regs h_strs h_bobs h_wports h_exempt h_trd h_key ?_ | with_reducible refine issueScan_same h_regs h_wports h_exempt h_reedGovs h_hedStops h_key ?_ | with_reducible refine Same.ite ?_ ?_ | split)

theorem releaseAck_same {F : Fld → Bool} {s t : State} {a0 : Nat} (h_regs : F .regs = true) (h_strs : F .strs = true) (h_closes : F .closes = true) (h_bobs : F .bobs = true) (h_exempt : F .exempt = true) (h_refused : F .refused = true) (h_heds : F .heds = true) (h_counts : F .counts = true) (h_hedGovs : F .hedGovs = true) (h_reedGovs : F .reedGovs = true) (h_trd : F .trd = true) (h_stop : F .stop = true) (h_key : F .key = true) (h_wits : F .wits = true) (h_ver : F .ver = true) (h_tests : F .tests = true) (h_links : F .links = true) (h_free : F .free = true) (h : Same F s t) : Same F s (releaseAck a0 t) := by
  unfold releaseAck
  repeat' (first | with_reducible assumption | with_reducible refine settleWriter_same h_regs h_strs h_closes h_exempt h_refused h_heds h_counts h_hedGovs h_reedGovs h_trd h_stop h_key h_wits h_ver h_tests h_links h_free ?_ | with_reducible refine releaseBob_same h_strs h_bobs ?_ | with_reducible refine pump_same h_regs h_strs h_closes h_exempt h_trd h_key h_ver h_free ?_ | with_reducible refine witFlush_same h_regs h_strs h_closes h_exempt h_refused h_trd h_stop h_key h_wits h_ver h_tests h_free ?_ | with_reducible refine settleLnk_same h_regs h_strs h_closes h_exempt h_refused h_trd h_key h_links ?_ | dsimp only | split)

theorem viewChanged_same {F : Fld → Bool} {s t : State} {a0 : Nat} {a1 : PState} (h_regs : F .regs = true) (h_strs : F .strs = true) (h_closes : F .closes = true) (h_bobs : F .bobs = true) (h_adopts : F .adopts = true) (h_trd : F .trd = true) (h : Same F s t) : Same F s (viewChanged a0 a1 t) := by
  induction a0 generalizing t a1 with
  | zero => exact h
  | succ n ih =>
    unfold viewChanged
    repeat' (first | with_reducible assumption | (with_reducible refine ih ?_) | with_reducible refine startRehome_same h_regs h_strs h_closes h_bobs h_adopts h_trd ?_ | with_reducible refine Same.ite ?_ ?_)

theorem applyReport_same {F : Fld → Bool} {s t : State} {a0 : Nat} {a1 : Report} (h_regs : F .regs = true) (h_parts : F .parts = true) (h_strs : F .strs = true) (h_closes : F .closes = true) (h_bobs : F .bobs = true) (h_adopts : F .adopts = true) (h_trd : F .trd = true) (h : Same F s t) : Same F s (applyReport a0 a1 t) := by
  unfold applyReport
  repeat' (first | with_reducible assumption | with_reducible refine viewChanged_same h_regs h_strs h_closes h_bobs h_adopts h_trd ?_ | with_reducible refine updPart_same h_parts ?_ | with_reducible refine Same.ite ?_ ?_)

theorem popReport_same {F : Fld → Bool} {s t : State} {a0 : Nat} (h_parts : F .parts = true) (h : Same F s t) : Same F s (popReport a0 t) := by
  unfold popReport
  repeat' (first | with_reducible assumption | with_reducible refine updPart_same h_parts ?_)

theorem stateReport_same {F : Fld → Bool} {s t : State} {a0 : Nat} {a1 : Bool} (h_regs : F .regs = true) (h_parts : F .parts = true) (h_strs : F .strs = true) (h_closes : F .closes = true) (h_bobs : F .bobs = true) (h_adopts : F .adopts = true) (h_trd : F .trd = true) (h : Same F s t) : Same F s (stateReport a0 a1 t) := by
  unfold stateReport
  repeat' (first | with_reducible assumption | with_reducible refine bump_same h_regs ?_ | with_reducible refine popReport_same h_parts ?_ | with_reducible refine applyReport_same h_regs h_parts h_strs h_closes h_bobs h_adopts h_trd ?_ | split)

theorem drainReports_same {F : Fld → Bool} {s t : State} {a0 : Nat} (h_regs : F .regs = true) (h_parts : F .parts = true) (h_strs : F .strs = true) (h_closes : F .closes = true) (h_bobs : F .bobs = true) (h_adopts : F .adopts = true) (h_trd : F .trd = true) (h : Same F s t) : Same F s (drainReports a0 t) := by
  unfold drainReports
  repeat' (first | with_reducible assumption | with_reducible refine applyReport_same h_regs h_parts h_strs h_closes h_bobs h_adopts h_trd ?_ | with_reducible refine updPart_same h_parts ?_ | with_reducible refine foldl_same (fun _ _ _ => ?_) ?_)

theorem compareView_same {F : Fld → Bool} {s t : State} {a0 : Nat} {a1 : Nat} (h_regs : F .regs = true) (h_parts : F .parts = true) (h_strs : F .strs = true) (h_closes : F .closes = true) (h_bobs : F .bobs = true) (h_adopts : F .adopts = true) (h_exempt : F .exempt = true) (h_refused : F .refused = true) (h_trd : F .trd = true) (h_key : F .key = true) (h : Same F s t) : Same F s (compareView a0 a1 t).2 := by
  unfold compareView
  repeat' (first | with_reducible assumption | with_reducible refine viewChanged_same h_regs h_strs h_closes h_bobs h_adopts h_trd ?_ | with_reducible refine updPart_same h_parts ?_ | with_reducible refine bump_same h_regs ?_ | with_reducible refine emitHub_same h_regs h_strs h_closes h_exempt h_refused h_trd h_key ?_ | with_reducible refine setErr_same h_regs h_trd ?_ | dsimp only | split)

theorem compareView_same_eq {F : Fld → Bool} {s t : State} {a0 : Nat} {a1 : Nat} (h_regs : F .regs = true) (h_parts : F .parts = true) (h_strs : F .strs = true) (h_closes : F .closes = true) (h_bobs : F .bobs = true) (h_adopts : F .adopts = true) (h_exempt : F .exempt = true) (h_refused : F .refused = true) (h_trd : F .trd = true) (h_key : F .key = true) {x} {u : State} (e : compareView a0 a1 t = (x, u)) (h : Same F s t) : Same F s u := by
  have := compareView_same (F := F) (s := s) (t := t) (a0 := a0) (a1 := a1) h_regs h_parts h_strs h_closes h_bobs h_adopts h_exempt h_refused h_trd h_key h
  rw [e] at this; exact this

theorem askAudit_same {F : Fld → Bool} {s t : State} {a0 : Nat} {a1 : Nat} (h_parts : F .parts = true) (h : Same F s t) : Same F s (askAudit a0 a1 t) := by
  unfold askAudit
  repeat' (first | with_reducible assumption | with_reducible refine updPart_same h_parts ?_ | with_reducible refine Same.ite ?_ ?_)

theorem periodicAudit_same {F : Fld → Bool} {s t : State}  (h_audit : F .audit = true) (h : Same F s t) : Same F s (periodicAudit t) := by
  unfold periodicAudit
  repeat' (first | with_reducible assumption | split | with_reducible refine Same.set_audit h_audit ?_)

theorem auditDone_same {F : Fld → Bool} {s t : State}  (h_regs : F .regs = true) (h_audit : F .audit = true) (h : Same F s t) : Same F s (auditDone t) := by
  unfold auditDone
  repeat' (first | with_reducible assumption | with_reducible refine count_same h_regs ?_ | with_reducible refine regSetFld_same h_regs ?_ | with_reducible refine Same.ite ?_ ?_ | with_reducible refine Same.set_audit h_audit ?_)

theorem auditAnswer_same {F : Fld → Bool} {s t : State} {a0 : Nat} (h_regs : F .regs = true) (h_parts : F .parts = true) (h_audit : F .audit = true) (h_strs : F .strs = true) (h_closes : F .closes = true) (h_bobs : F .bobs = true) (h_adopts : F .adopts = true) (h_exempt : F .exempt = true) (h_refused : F .refused = true) (h_trd : F .trd = true) (h_key : F .key = true) (h : Same F s t) : Same F s (auditAnswer a0 t) := by
  unfold auditAnswer
  repeat' (first | with_reducible assumption | with_reducible refine compareView_same h_regs h_parts h_strs h_closes h_bobs h_adopts h_exempt h_refused h_trd h_key ?_ | with_reducible refine drainReports_same h_regs h_parts h_strs h_closes h_bobs h_adopts h_trd ?_ | with_reducible refine updPart_same h_parts ?_ | with_reducible refine auditDone_same h_regs h_audit ?_ | split | with_reducible refine Same.set_audit h_audit ?_)

theorem initialAudit_same {F : Fld → Bool} {s t : State}  (h_regs : F .regs = true) (h_parts : F .parts = true) (h_audit : F .audit = true) (h_strs : F .strs = true) (h_closes : F .closes = true) (h_bobs : F .bobs = true) (h_adopts : F .adopts = true) (h_trd : F .trd = true) (h : Same F s t) : Same F s (initialAudit t) := by
  unfold initialAudit
  repeat' (first | with_reducible assumption | with_reducible refine viewChanged_same h_regs h_strs h_closes h_bobs h_adopts h_trd ?_ | with_reducible refine updPart_same h_parts ?_ | with_reducible refine foldl_same (fun _ _ _ => ?_) ?_ | with_reducible refine Same.set_audit h_audit ?_)

theorem factMissing_same {F : Fld → Bool} {s t : State} {a0 : Nat} (h_regs : F .regs = true) (h_trd : F .trd = true) (h : Same F s t) : Same F s (factMissing a0 t) := by
  unfold factMissing
  repeat' (first | with_reducible assumption | with_reducible refine setErr_same h_regs h_trd ?_ | with_reducible refine Same.ite ?_ ?_)

theorem rehomeOnReset_same {F : Fld → Bool} {s t : State} {a0 : Nat} {a1 : PState} (h_regs : F .regs = true) (h_strs : F .strs = true) (h_closes : F .closes = true) (h_bobs : F .bobs = true) (h_adopts : F .adopts = true) (h_trd : F .trd = true) (h : Same F s t) : Same F s (rehomeOnReset a0 a1 t) := by
  unfold rehomeOnReset
  repeat' (first | with_reducible assumption | with_reducible refine startRehome_same h_regs h_strs h_closes h_bobs h_adopts h_trd ?_ | with_reducible refine Same.ite ?_ ?_)

theorem slotsFail_same {F : Fld → Bool} {s t : State} {a0 : Nat} {a1 : Exit} (h_regs : F .regs = true) (h_heds : F .heds = true) (h_trd : F .trd = true) (h : Same F s t) : Same F s (slotsFail a0 a1 t) := by
  unfold slotsFail
  repeat' (first | with_reducible assumption | with_reducible refine loseIds_same h_regs h_heds h_trd ?_ | with_reducible refine foldl_same (fun _ _ _ => ?_) ?_ | split)

theorem dropRuns_same {F : Fld → Bool} {s t : State}  (h_trd : F .trd = true) (h : Same F s t) : Same F s (dropRuns t) := by
  unfold dropRuns
  repeat' (first | with_reducible assumption | with_reducible refine Same.set_trd h_trd ?_)

theorem reedGone_same {F : Fld → Bool} {s t : State} {a0 : Nat} (h_regs : F .regs = true) (h_strs : F .strs = true) (h_closes : F .closes = true) (h_bobs : F .bobs = true) (h_rport : F .rport = true) (h_adopts : F .adopts = true) (h_exempt : F .exempt = true) (h_refused : F .refused = true) (h_heds : F .heds = true) (h_trd : F .trd = true) (h_stop : F .stop = true) (h_hedStops : F .hedStops = true) (h_key : F .key = true) (h_wits : F .wits = true) (h_ver : F .ver = true) (h_tests : F .tests = true) (h_free : F .free = true) (h : Same F s t) : Same F s (reedGone a0 t) := by
  unfold reedGone
  repeat' (first | with_reducible assumption | with_reducible refine reedLost_same h_regs h_strs h_closes h_exempt h_refused h_trd h_stop h_key h_wits h_ver h_tests h_free ?_ | with_reducible refine dropAdoption_same h_regs h_bobs h_rport h_adopts h_heds h_trd ?_ | with_reducible refine scanRedo_same h_regs h_trd h_hedStops ?_)

theorem afterLeaving_same {F : Fld → Bool} {s t : State} {a0 : Nat} {a1 : Exit} {a2 : PState} (h_regs : F .regs = true) (h_tim : F .tim = true) (h_owed : F .owed = true) (h_strs : F .strs = true) (h_closes : F .closes = true) (h_bobs : F .bobs = true) (h_wports : F .wports = true) (h_rport : F .rport = true) (h_adopts : F .adopts = true) (h_exempt : F .exempt = true) (h_refused : F .refused = true) (h_heds : F .heds = true) (h_trd : F .trd = true) (h_stop : F .stop = true) (h_hedStops : F .hedStops = true) (h_key : F .key = true) (h_wits : F .wits = true) (h_ver : F .ver = true) (h_tests : F .tests = true) (h_links : F .links = true) (h_linkTimes : F .linkTimes = true) (h_servo : F .servo = true) (h_eth : F .eth = true) (h_fw : F .fw = true) (h_free : F .free = true) (h : Same F s t) : Same F s (afterLeaving a0 a1 a2 t) := by
  unfold afterLeaving
  repeat' (first | with_reducible assumption | with_reducible refine beginDrain_same h_strs h_closes h_wports ?_ | with_reducible refine dropAdoption_same h_regs h_bobs h_rport h_adopts h_heds h_trd ?_ | with_reducible refine startRehome_same h_regs h_strs h_closes h_bobs h_adopts h_trd ?_ | with_reducible refine rehomeOnReset_same h_regs h_strs h_closes h_bobs h_adopts h_trd ?_ | with_reducible refine reedGone_same h_regs h_strs h_closes h_bobs h_rport h_adopts h_exempt h_refused h_heds h_trd h_stop h_hedStops h_key h_wits h_ver h_tests h_free ?_ | with_reducible refine shareAbandon_same h_regs h_strs h_closes h_exempt h_refused h_trd h_stop h_key h_wits h_ver h_tests h_free ?_ | with_reducible refine timeDrop_same h_regs h_tim h_owed h_strs h_closes h_exempt h_refused h_trd h_key h_linkTimes h_servo ?_ | with_reducible refine linkLeaves_same h_regs h_trd h_ver h_links ?_ | with_reducible refine linkFails_same h_links ?_ | with_reducible refine recheck_same h_regs h_tim h_owed h_strs h_closes h_exempt h_refused h_trd h_key h_servo ?_ | with_reducible refine ethClear_same h_regs h_tim h_owed h_strs h_closes h_exempt h_refused h_trd h_key h_servo h_eth ?_ | with_reducible refine abandonHandover_same h_regs h_rport h_trd h_fw ?_ | with_reducible refine updFw_same h_fw ?_ | with_reducible refine fwReset_same h_rport h_fw ?_ | with_reducible refine dropManifest_same h_rport h_tests ?_ | with_reducible refine settle_same h_regs h_trd ?_ | with_reducible refine dropRuns_same h_trd ?_ | with_reducible refine clearSeed_same h_key ?_ | with_reducible refine handoverHubReset_same h_regs h_rport h_trd h_fw ?_ | with_reducible refine snagRestart_same h_stop ?_ | with_reducible refine servoStop_same h_regs h_tim h_owed h_strs h_closes h_exempt h_refused h_trd h_key h_servo ?_ | with_reducible refine updAdopt_same h_adopts ?_ | with_reducible refine dropReads_same h_rport ?_ | with_reducible exact SameO.none | (extract_lets +onlyGivenNames x; refine (fun (hx : Same F s x) => ?_) ?_; rotate_left; dsimp only [x]; clear x; rotate_right; clear_value x) | (extract_lets +onlyGivenNames x; refine (fun (hx : Same F s x.2) => ?_) ?_; rotate_left; dsimp only [x]; clear x; rotate_right; clear_value x) | (extract_lets +onlyGivenNames x; refine (fun (hx : Same F s x.2.2) => ?_) ?_; rotate_left; dsimp only [x]; clear x; rotate_right; clear_value x) | (extract_lets +onlyGivenNames x; clear_value x) | with_reducible refine foldl_same (fun _ _ _ => ?_) ?_ | with_reducible refine foldl2_same (fun _ _ _ => ?_) ?_ | with_reducible refine foldl2_same_eq (fun _ _ _ => ?_) (by assumption) ?_ | dsimp only | with_reducible refine Same.ite ?_ ?_ | split | (with_reducible show Same F s _; intro f hf; cases f <;> first | with_reducible rfl | exact h _ hf | exact hx _ hf) | with_reducible refine (show SameO F s _ from ?_) _ (by assumption))

theorem disarmPart_same {F : Fld → Bool} {s t : State} {a0 : Nat} (h_stop : F .stop = true) (h : Same F s t) : Same F s (disarmPart a0 t) := by
  unfold disarmPart
  repeat' (first | with_reducible assumption | with_reducible refine Same.set_stop h_stop ?_)

theorem resetPart_same {F : Fld → Bool} {s t : State} {a0 : Nat} (h_regs : F .regs = true) (h_parts : F .parts = true) (h_tim : F .tim = true) (h_trd : F .trd = true) (h : Same F s t) : Same F s (resetPart a0 t) := by
  unfold resetPart
  repeat' (first | with_reducible assumption | with_reducible refine calPartReset_same h_regs h_tim h_trd ?_ | with_reducible refine updPart_same h_parts ?_)

theorem hedGone_same {F : Fld → Bool} {s t : State} {a0 : Nat} {a1 : PState} {a2 : BitVec 8} {a3 : Exit} (h_regs : F .regs = true) (h_parts : F .parts = true) (h_tim : F .tim = true) (h_heds : F .heds = true) (h_trd : F .trd = true) (h_stop : F .stop = true) (h_hedStops : F .hedStops = true) (h_gates : F .gates = true) (h : Same F s t) : Same F s (hedGone a0 a1 a2 a3 t) := by
  unfold hedGone
  repeat' (first | with_reducible assumption | with_reducible refine disarmPart_same h_stop ?_ | with_reducible refine gateReleased_same h_regs h_trd h_gates ?_ | with_reducible refine hedFails_same h_regs h_heds ?_ | with_reducible refine transition_same h_parts ?_ | with_reducible refine lowerHold_same h_hedStops ?_ | with_reducible refine resetPart_same h_regs h_parts h_tim h_trd ?_ | with_reducible exact SameO.none | (extract_lets +onlyGivenNames x; refine (fun (hx : Same F s x) => ?_) ?_; rotate_left; dsimp only [x]; clear x; rotate_right; clear_value x) | (extract_lets +onlyGivenNames x; refine (fun (hx : Same F s x.2) => ?_) ?_; rotate_left; dsimp only [x]; clear x; rotate_right; clear_value x) | (extract_lets +onlyGivenNames x; refine (fun (hx : Same F s x.2.2) => ?_) ?_; rotate_left; dsimp only [x]; clear x; rotate_right; clear_value x) | (extract_lets +onlyGivenNames x; clear_value x) | with_reducible refine foldl_same (fun _ _ _ => ?_) ?_ | with_reducible refine foldl2_same (fun _ _ _ => ?_) ?_ | with_reducible refine foldl2_same_eq (fun _ _ _ => ?_) (by assumption) ?_ | dsimp only | with_reducible refine Same.ite ?_ ?_ | split | (with_reducible show Same F s _; intro f hf; cases f <;> first | with_reducible rfl | exact h _ hf | exact hx _ hf) | with_reducible refine (show SameO F s _ from ?_) _ (by assumption))

theorem leaveNow_same {F : Fld → Bool} {s t : State} {a0 : Nat} {a1 : PState} {a2 : BitVec 8} {a3 : Exit} (h_regs : F .regs = true) (h_parts : F .parts = true) (h_tim : F .tim = true) (h_owed : F .owed = true) (h_strs : F .strs = true) (h_closes : F .closes = true) (h_bobs : F .bobs = true) (h_wports : F .wports = true) (h_rport : F .rport = true) (h_adopts : F .adopts = true) (h_exempt : F .exempt = true) (h_refused : F .refused = true) (h_heds : F .heds = true) (h_trd : F .trd = true) (h_stop : F .stop = true) (h_hedStops : F .hedStops = true) (h_key : F .key = true) (h_wits : F .wits = true) (h_ver : F .ver = true) (h_gates : F .gates = true) (h_tests : F .tests = true) (h_links : F .links = true) (h_linkTimes : F .linkTimes = true) (h_servo : F .servo = true) (h_eth : F .eth = true) (h_fw : F .fw = true) (h_free : F .free = true) (h : Same F s t) : Same F s (leaveNow a0 a1 a2 a3 t) := by
  unfold leaveNow
  repeat' (first | with_reducible assumption | with_reducible refine hedGone_same h_regs h_parts h_tim h_heds h_trd h_stop h_hedStops h_gates ?_ | with_reducible refine disarmPart_same h_stop ?_ | with_reducible refine transition_same h_parts ?_ | with_reducible refine slotsFail_same h_regs h_heds h_trd ?_ | with_reducible refine afterLeaving_same h_regs h_tim h_owed h_strs h_closes h_bobs h_wports h_rport h_adopts h_exempt h_refused h_heds h_trd h_stop h_hedStops h_key h_wits h_ver h_tests h_links h_linkTimes h_servo h_eth h_fw h_free ?_ | with_reducible refine resetPart_same h_regs h_parts h_tim h_trd ?_ | with_reducible exact SameO.none | (extract_lets +onlyGivenNames x; refine (fun (hx : Same F s x) => ?_) ?_; rotate_left; dsimp only [x]; clear x; rotate_right; clear_value x) | (extract_lets +onlyGivenNames x; refine (fun (hx : Same F s x.2) => ?_) ?_; rotate_left; dsimp only [x]; clear x; rotate_right; clear_value x) | (extract_lets +onlyGivenNames x; refine (fun (hx : Same F s x.2.2) => ?_) ?_; rotate_left; dsimp only [x]; clear x; rotate_right; clear_value x) | (extract_lets +onlyGivenNames x; clear_value x) | with_reducible refine foldl_same (fun _ _ _ => ?_) ?_ | with_reducible refine foldl2_same (fun _ _ _ => ?_) ?_ | with_reducible refine foldl2_same_eq (fun _ _ _ => ?_) (by assumption) ?_ | dsimp only | with_reducible refine Same.ite ?_ ?_ | split | (with_reducible show Same F s _; intro f hf; cases f <;> first | with_reducible rfl | exact h _ hf | exact hx _ hf) | with_reducible refine (show SameO F s _ from ?_) _ (by assumption))

theorem finishLeaving_same {F : Fld → Bool} {s t : State} {a0 : Nat} (h_regs : F .regs = true) (h_parts : F .parts = true) (h_tim : F .tim = true) (h_heds : F .heds = true) (h_trd : F .trd = true) (h_stop : F .stop = true) (h_hedStops : F .hedStops = true) (h_gates : F .gates = true) (h : Same F s t) : Same F s (finishLeaving a0 t) := by
  unfold finishLeaving
  repeat' (first | with_reducible assumption | with_reducible refine hedGone_same h_regs h_parts h_tim h_heds h_trd h_stop h_hedStops h_gates ?_ | with_reducible refine updHed_same h_heds ?_ | with_reducible exact SameO.none | (extract_lets +onlyGivenNames x; refine (fun (hx : Same F s x) => ?_) ?_; rotate_left; dsimp only [x]; clear x; rotate_right; clear_value x) | (extract_lets +onlyGivenNames x; refine (fun (hx : Same F s x.2) => ?_) ?_; rotate_left; dsimp only [x]; clear x; rotate_right; clear_value x) | (extract_lets +onlyGivenNames x; refine (fun (hx : Same F s x.2.2) => ?_) ?_; rotate_left; dsimp only [x]; clear x; rotate_right; clear_value x) | (extract_lets +onlyGivenNames x; clear_value x) | with_reducible refine foldl_same (fun _ _ _ => ?_) ?_ | with_reducible refine foldl2_same (fun _ _ _ => ?_) ?_ | with_reducible refine foldl2_same_eq (fun _ _ _ => ?_) (by assumption) ?_ | dsimp only | with_reducible refine Same.ite ?_ ?_ | split | (with_reducible show Same F s _; intro f hf; cases f <;> first | with_reducible rfl | exact h _ hf | exact hx _ hf) | with_reducible refine (show SameO F s _ from ?_) _ (by assumption))

theorem hedFirst_same {F : Fld → Bool} {s t : State} {a0 : Nat} (h_regs : F .regs = true) (h_parts : F .parts = true) (h_tim : F .tim = true) (h_strs : F .strs = true) (h_closes : F .closes = true) (h_exempt : F .exempt = true) (h_heds : F .heds = true) (h_counts : F .counts = true) (h_hedGovs : F .hedGovs = true) (h_reedGovs : F .reedGovs = true) (h_trd : F .trd = true) (h_stop : F .stop = true) (h_hedStops : F .hedStops = true) (h_key : F .key = true) (h_gates : F .gates = true) (h : Same F s t) : Same F s (hedFirst a0 t) := by
  unfold hedFirst
  repeat' (first | with_reducible assumption | with_reducible refine finishLeaving_same h_regs h_parts h_tim h_heds h_trd h_stop h_hedStops h_gates ?_ | with_reducible refine settleSpans_same h_regs h_strs h_closes h_exempt h_heds h_counts h_hedGovs h_reedGovs h_trd h_key ?_ | with_reducible refine settleHed_same h_regs h_strs h_closes h_exempt h_heds h_counts h_hedGovs h_reedGovs h_trd h_key ?_ | with_reducible refine Same.ite ?_ ?_)

theorem beginLeaving_same {F : Fld → Bool} {s t : State} {a0 : Nat} {a1 : Bool} {a2 : BitVec 8} (h_regs : F .regs = true) (h_parts : F .parts = true) (h_tim : F .tim = true) (h_strs : F .strs = true) (h_closes : F .closes = true) (h_exempt : F .exempt = true) (h_heds : F .heds = true) (h_counts : F .counts = true) (h_hedGovs : F .hedGovs = true) (h_reedGovs : F .reedGovs = true) (h_trd : F .trd = true) (h_stop : F .stop = true) (h_hedStops : F .hedStops = true) (h_key : F .key = true) (h_gates : F .gates = true) (h : Same F s t) : Same F s (beginLeaving a0 a1 a2 t) := by
  unfold beginLeaving
  repeat' (first | with_reducible assumption | with_reducible refine updHed_same h_heds ?_ | with_reducible refine hedFirst_same h_regs h_parts h_tim h_strs h_closes h_exempt h_heds h_counts h_hedGovs h_reedGovs h_trd h_stop h_hedStops h_key h_gates ?_ | with_reducible refine hedLeaves_same h_heds ?_ | split)

theorem leave_same {F : Fld → Bool} {s t : State} {a0 : Nat} {a1 : PState} {a2 : BitVec 8} {a3 : Exit} (h_regs : F .regs = true) (h_parts : F .parts = true) (h_tim : F .tim = true) (h_owed : F .owed = true) (h_strs : F .strs = true) (h_closes : F .closes = true) (h_bobs : F .bobs = true) (h_wports : F .wports = true) (h_rport : F .rport = true) (h_adopts : F .adopts = true) (h_exempt : F .exempt = true) (h_refused : F .refused = true) (h_heds : F .heds = true) (h_counts : F .counts = true) (h_hedGovs : F .hedGovs = true) (h_reedGovs : F .reedGovs = true) (h_trd : F .trd = true) (h_stop : F .stop = true) (h_hedStops : F .hedStops = true) (h_key : F .key = true) (h_wits : F .wits = true) (h_ver : F .ver = true) (h_gates : F .gates = true) (h_tests : F .tests = true) (h_links : F .links = true) (h_linkTimes : F .linkTimes = true) (h_servo : F .servo = true) (h_eth : F .eth = true) (h_fw : F .fw = true) (h_free : F .free = true) (h : Same F s t) : Same F s (leave a0 a1 a2 a3 t) := by
  unfold leave
  repeat' (first | with_reducible assumption | with_reducible refine beginLeaving_same h_regs h_parts h_tim h_strs h_closes h_exempt h_heds h_counts h_hedGovs h_reedGovs h_trd h_stop h_hedStops h_key h_gates ?_ | with_reducible refine leaveNow_same h_regs h_parts h_tim h_owed h_strs h_closes h_bobs h_wports h_rport h_adopts h_exempt h_refused h_heds h_trd h_stop h_hedStops h_key h_wits h_ver h_gates h_tests h_links h_linkTimes h_servo h_eth h_fw h_free ?_ | split)

theorem pageFirst_same {F : Fld → Bool} {s t : State} {a0 : Nat} (h_regs : F .regs = true) (h_parts : F .parts = true) (h_tim : F .tim = true) (h_strs : F .strs = true) (h_closes : F .closes = true) (h_exempt : F .exempt = true) (h_refused : F .refused = true) (h_heds : F .heds = true) (h_counts : F .counts = true) (h_hedGovs : F .hedGovs = true) (h_reedGovs : F .reedGovs = true) (h_trd : F .trd = true) (h_stop : F .stop = true) (h_hedStops : F .hedStops = true) (h_key : F .key = true) (h_wits : F .wits = true) (h_ver : F .ver = true) (h_gates : F .gates = true) (h_tests : F .tests = true) (h_links : F .links = true) (h_free : F .free = true) (h : Same F s t) : Same F s (pageFirst a0 t) := by
  unfold pageFirst
  repeat' (first | with_reducible assumption | with_reducible refine hedFirst_same h_regs h_parts h_tim h_strs h_closes h_exempt h_heds h_counts h_hedGovs h_reedGovs h_trd h_stop h_hedStops h_key h_gates ?_ | with_reducible refine settleLnk_same h_regs h_strs h_closes h_exempt h_refused h_trd h_key h_links ?_ | with_reducible refine witFlush_same h_regs h_strs h_closes h_exempt h_refused h_trd h_stop h_key h_wits h_ver h_tests h_free ?_ | split)

theorem serveAgain_same {F : Fld → Bool} {s t : State} {a0 : Nat} (h_adopts : F .adopts = true) (h : Same F s t) : Same F s (serveAgain a0 t) := by
  unfold serveAgain
  repeat' (first | with_reducible assumption | with_reducible refine updAdopt_same h_adopts ?_)

theorem enterEnabled_same {F : Fld → Bool} {s t : State} {a0 : Nat} (h_regs : F .regs = true) (h_parts : F .parts = true) (h_tim : F .tim = true) (h_owed : F .owed = true) (h_strs : F .strs = true) (h_closes : F .closes = true) (h_adopts : F .adopts = true) (h_exempt : F .exempt = true) (h_refused : F .refused = true) (h_heds : F .heds = true) (h_trd : F .trd = true) (h_stop : F .stop = true) (h_hedStops : F .hedStops = true) (h_key : F .key = true) (h_wits : F .wits = true) (h_shadows : F .shadows = true) (h_ver : F .ver = true) (h_tests : F .tests = true) (h_links : F .links = true) (h_linkTimes : F .linkTimes = true) (h_servo : F .servo = true) (h_eth : F .eth = true) (h_fw : F .fw = true) (h_free : F .free = true) (h_salts : F .salts = true) (h : Same F s t) : Same F s (enterEnabled a0 t) := by
  unfold enterEnabled
  repeat' (first | with_reducible assumption | with_reducible refine transition_same h_parts ?_ | with_reducible refine testEnabled_same h_tests ?_ | with_reducible refine hedEnters_same h_heds ?_ | with_reducible refine stopEnters_same h_stop h_hedStops ?_ | with_reducible refine witRun_same h_regs h_strs h_closes h_exempt h_refused h_trd h_stop h_key h_wits h_ver h_tests h_free ?_ | with_reducible refine newVecKey_same h_wits h_salts ?_ | with_reducible refine copyShadow_same h_shadows ?_ | with_reducible refine beginReturn_same h_strs h_closes h_adopts ?_ | with_reducible refine serveAgain_same h_adopts ?_ | with_reducible refine linkEnters_same h_regs h_strs h_closes h_exempt h_refused h_trd h_key h_links h_linkTimes ?_ | with_reducible refine recheck_same h_regs h_tim h_owed h_strs h_closes h_exempt h_refused h_trd h_key h_servo ?_ | with_reducible refine ethClear_same h_regs h_tim h_owed h_strs h_closes h_exempt h_refused h_trd h_key h_servo h_eth ?_ | with_reducible refine updFw_same h_fw ?_ | with_reducible refine fwEnters_same h_fw ?_ | with_reducible refine reportLatches_same h_regs h_trd ?_ | with_reducible refine Same.ite ?_ ?_ | split)

theorem actEnable_same {F : Fld → Bool} {s t : State} {a0 : Nat} (h_regs : F .regs = true) (h_parts : F .parts = true) (h_tim : F .tim = true) (h_owed : F .owed = true) (h_strs : F .strs = true) (h_closes : F .closes = true) (h_adopts : F .adopts = true) (h_exempt : F .exempt = true) (h_refused : F .refused = true) (h_heds : F .heds = true) (h_trd : F .trd = true) (h_stop : F .stop = true) (h_hedStops : F .hedStops = true) (h_key : F .key = true) (h_wits : F .wits = true) (h_shadows : F .shadows = true) (h_ver : F .ver = true) (h_tests : F .tests = true) (h_links : F .links = true) (h_linkTimes : F .linkTimes = true) (h_servo : F .servo = true) (h_eth : F .eth = true) (h_fw : F .fw = true) (h_free : F .free = true) (h_salts : F .salts = true) (h : Same F s t) : SameO F s (actEnable a0 t) := by
  unfold actEnable
  repeat' (first | with_reducible assumption | with_reducible refine enterEnabled_same h_regs h_parts h_tim h_owed h_strs h_closes h_adopts h_exempt h_refused h_heds h_trd h_stop h_hedStops h_key h_wits h_shadows h_ver h_tests h_links h_linkTimes h_servo h_eth h_fw h_free h_salts ?_ | with_reducible exact SameO.none | with_reducible refine SameO.some ?_ | split)

theorem actDisable_same {F : Fld → Bool} {s t : State} {a0 : Nat} (h_regs : F .regs = true) (h_parts : F .parts = true) (h_tim : F .tim = true) (h_owed : F .owed = true) (h_strs : F .strs = true) (h_closes : F .closes = true) (h_bobs : F .bobs = true) (h_wports : F .wports = true) (h_rport : F .rport = true) (h_adopts : F .adopts = true) (h_exempt : F .exempt = true) (h_refused : F .refused = true) (h_heds : F .heds = true) (h_counts : F .counts = true) (h_hedGovs : F .hedGovs = true) (h_reedGovs : F .reedGovs = true) (h_trd : F .trd = true) (h_stop : F .stop = true) (h_hedStops : F .hedStops = true) (h_key : F .key = true) (h_wits : F .wits = true) (h_ver : F .ver = true) (h_gates : F .gates = true) (h_tests : F .tests = true) (h_links : F .links = true) (h_linkTimes : F .linkTimes = true) (h_servo : F .servo = true) (h_eth : F .eth = true) (h_fw : F .fw = true) (h_free : F .free = true) (h : Same F s t) : SameO F s (actDisable a0 t) := by
  unfold actDisable
  repeat' (first | with_reducible assumption | with_reducible refine leave_same h_regs h_parts h_tim h_owed h_strs h_closes h_bobs h_wports h_rport h_adopts h_exempt h_refused h_heds h_counts h_hedGovs h_reedGovs h_trd h_stop h_hedStops h_key h_wits h_ver h_gates h_tests h_links h_linkTimes h_servo h_eth h_fw h_free ?_ | with_reducible refine transition_same h_parts ?_ | with_reducible exact SameO.none | with_reducible refine SameO.some ?_ | split)

theorem actReset_same {F : Fld → Bool} {s t : State} {a0 : Nat} {a1 : BitVec 8} (h_regs : F .regs = true) (h_parts : F .parts = true) (h_tim : F .tim = true) (h_owed : F .owed = true) (h_strs : F .strs = true) (h_closes : F .closes = true) (h_bobs : F .bobs = true) (h_wports : F .wports = true) (h_rport : F .rport = true) (h_adopts : F .adopts = true) (h_exempt : F .exempt = true) (h_refused : F .refused = true) (h_heds : F .heds = true) (h_counts : F .counts = true) (h_hedGovs : F .hedGovs = true) (h_reedGovs : F .reedGovs = true) (h_trd : F .trd = true) (h_stop : F .stop = true) (h_hedStops : F .hedStops = true) (h_key : F .key = true) (h_wits : F .wits = true) (h_ver : F .ver = true) (h_gates : F .gates = true) (h_tests : F .tests = true) (h_links : F .links = true) (h_linkTimes : F .linkTimes = true) (h_servo : F .servo = true) (h_eth : F .eth = true) (h_fw : F .fw = true) (h_free : F .free = true) (h : Same F s t) : SameO F s (actReset a0 a1 t) := by
  unfold actReset
  repeat' (first | with_reducible assumption | with_reducible refine leave_same h_regs h_parts h_tim h_owed h_strs h_closes h_bobs h_wports h_rport h_adopts h_exempt h_refused h_heds h_counts h_hedGovs h_reedGovs h_trd h_stop h_hedStops h_key h_wits h_ver h_gates h_tests h_links h_linkTimes h_servo h_eth h_fw h_free ?_ | with_reducible exact SameO.none | with_reducible refine SameO.some ?_ | split)

theorem actRetire_same {F : Fld → Bool} {s t : State} {a0 : Nat} (h_regs : F .regs = true) (h_parts : F .parts = true) (h_strs : F .strs = true) (h_closes : F .closes = true) (h_exempt : F .exempt = true) (h_trd : F .trd = true) (h_key : F .key = true) (h_ver : F .ver = true) (h_tests : F .tests = true) (h_free : F .free = true) (h : Same F s t) : SameO F s (actRetire a0 t) := by
  unfold actRetire
  repeat' (first | with_reducible assumption | with_reducible refine transition_same h_parts ?_ | with_reducible refine testRetired_same h_regs h_strs h_closes h_exempt h_trd h_key h_ver h_tests h_free ?_ | with_reducible exact SameO.none | with_reducible refine SameO.some ?_ | split)

theorem actReinstate_same {F : Fld → Bool} {s t : State} {a0 : Nat} (h_regs : F .regs = true) (h_parts : F .parts = true) (h_tim : F .tim = true) (h_trd : F .trd = true) (h_tests : F .tests = true) (h : Same F s t) : SameO F s (actReinstate a0 t) := by
  unfold actReinstate
  repeat' (first | with_reducible assumption | with_reducible refine resetPart_same h_regs h_parts h_tim h_trd ?_ | with_reducible refine transition_same h_parts ?_ | with_reducible refine updTests_same h_tests ?_ | with_reducible exact SameO.none | with_reducible refine SameO.some ?_ | split)

theorem actAudit_same {F : Fld → Bool} {s t : State} {a0 : Nat} (h_parts : F .parts = true) (h : Same F s t) : Same F s (actAudit a0 t) := by
  unfold actAudit
  repeat' (first | with_reducible assumption | with_reducible refine askAudit_same h_parts ?_ | with_reducible refine foldl_same (fun _ _ _ => ?_) ?_ | with_reducible refine Same.ite ?_ ?_)

theorem fatal_same {F : Fld → Bool} {s t : State} {a0 : Nat} {a1 : Nat} {a2 : BitVec 8} (h_regs : F .regs = true) (h_parts : F .parts = true) (h_tim : F .tim = true) (h_owed : F .owed = true) (h_strs : F .strs = true) (h_closes : F .closes = true) (h_bobs : F .bobs = true) (h_wports : F .wports = true) (h_rport : F .rport = true) (h_adopts : F .adopts = true) (h_exempt : F .exempt = true) (h_refused : F .refused = true) (h_heds : F .heds = true) (h_counts : F .counts = true) (h_hedGovs : F .hedGovs = true) (h_reedGovs : F .reedGovs = true) (h_trd : F .trd = true) (h_stop : F .stop = true) (h_hedStops : F .hedStops = true) (h_key : F .key = true) (h_wits : F .wits = true) (h_ver : F .ver = true) (h_gates : F .gates = true) (h_tests : F .tests = true) (h_links : F .links = true) (h_linkTimes : F .linkTimes = true) (h_servo : F .servo = true) (h_eth : F .eth = true) (h_fw : F .fw = true) (h_free : F .free = true) (h : Same F s t) : Same F s (fatal a0 a1 a2 t) := by
  unfold fatal
  repeat' (first | with_reducible assumption | with_reducible refine setErr_same h_regs h_trd ?_ | with_reducible refine raise_same h_regs h_trd ?_ | with_reducible refine leave_same h_regs h_parts h_tim h_owed h_strs h_closes h_bobs h_wports h_rport h_adopts h_exempt h_refused h_heds h_counts h_hedGovs h_reedGovs h_trd h_stop h_hedStops h_key h_wits h_ver h_gates h_tests h_links h_linkTimes h_servo h_eth h_fw h_free ?_ | split)

theorem retentionLost_same {F : Fld → Bool} {s t : State} {a0 : Nat} {a1 : Nat} {a2 : Bool} (h_regs : F .regs = true) (h_strs : F .strs = true) (h_closes : F .closes = true) (h_exempt : F .exempt = true) (h_trd : F .trd = true) (h_key : F .key = true) (h_ver : F .ver = true) (h_free : F .free = true) (h : Same F s t) : Same F s (retentionLost a0 a1 a2 t) := by
  unfold retentionLost
  repeat' (first | with_reducible assumption | with_reducible refine updStrm_same h_strs ?_ | with_reducible refine workLost_same h_regs h_strs h_closes h_exempt h_trd h_key h_ver h_free ?_ | with_reducible refine Same.ite ?_ ?_)

theorem fatalFault_same {F : Fld → Bool} {s t : State} {a0 : Nat} {a1 : FaultCause} (h_regs : F .regs = true) (h_parts : F .parts = true) (h_tim : F .tim = true) (h_owed : F .owed = true) (h_strs : F .strs = true) (h_closes : F .closes = true) (h_bobs : F .bobs = true) (h_wports : F .wports = true) (h_rport : F .rport = true) (h_adopts : F .adopts = true) (h_exempt : F .exempt = true) (h_refused : F .refused = true) (h_heds : F .heds = true) (h_counts : F .counts = true) (h_hedGovs : F .hedGovs = true) (h_reedGovs : F .reedGovs = true) (h_trd : F .trd = true) (h_stop : F .stop = true) (h_hedStops : F .hedStops = true) (h_key : F .key = true) (h_wits : F .wits = true) (h_ver : F .ver = true) (h_gates : F .gates = true) (h_tests : F .tests = true) (h_links : F .links = true) (h_linkTimes : F .linkTimes = true) (h_servo : F .servo = true) (h_eth : F .eth = true) (h_fw : F .fw = true) (h_free : F .free = true) (h : Same F s t) : Same F s (fatalFault a0 a1 t) := by
  unfold fatalFault
  repeat' (first | with_reducible assumption | with_reducible refine fatal_same h_regs h_parts h_tim h_owed h_strs h_closes h_bobs h_wports h_rport h_adopts h_exempt h_refused h_heds h_counts h_hedGovs h_reedGovs h_trd h_stop h_hedStops h_key h_wits h_ver h_gates h_tests h_links h_linkTimes h_servo h_eth h_fw h_free ?_ | with_reducible refine retentionLost_same h_regs h_strs h_closes h_exempt h_trd h_key h_ver h_free ?_ | with_reducible refine noticesLost_same h_regs h_strs h_closes h_exempt h_trd h_key h_ver h_free ?_ | split)

theorem watchdogExpiry_same {F : Fld → Bool} {s t : State}  (h_regs : F .regs = true) (h_parts : F .parts = true) (h_tim : F .tim = true) (h_owed : F .owed = true) (h_strs : F .strs = true) (h_closes : F .closes = true) (h_bobs : F .bobs = true) (h_wports : F .wports = true) (h_rport : F .rport = true) (h_adopts : F .adopts = true) (h_exempt : F .exempt = true) (h_refused : F .refused = true) (h_heds : F .heds = true) (h_counts : F .counts = true) (h_hedGovs : F .hedGovs = true) (h_reedGovs : F .reedGovs = true) (h_trd : F .trd = true) (h_stop : F .stop = true) (h_hedStops : F .hedStops = true) (h_key : F .key = true) (h_wits : F .wits = true) (h_ver : F .ver = true) (h_gates : F .gates = true) (h_tests : F .tests = true) (h_links : F .links = true) (h_linkTimes : F .linkTimes = true) (h_servo : F .servo = true) (h_eth : F .eth = true) (h_fw : F .fw = true) (h_free : F .free = true) (h : Same F s t) : Same F s (watchdogExpiry t) := by
  unfold watchdogExpiry
  repeat' (first | with_reducible assumption | with_reducible refine fatal_same h_regs h_parts h_tim h_owed h_strs h_closes h_bobs h_wports h_rport h_adopts h_exempt h_refused h_heds h_counts h_hedGovs h_reedGovs h_trd h_stop h_hedStops h_key h_wits h_ver h_gates h_tests h_links h_linkTimes h_servo h_eth h_fw h_free ?_ | with_reducible refine bump_same h_regs ?_ | with_reducible refine Same.ite ?_ ?_)

theorem handoverFatal_same {F : Fld → Bool} {s t : State} {a0 : Nat} {a1 : BitVec 8} {a2 : Bool} (h_regs : F .regs = true) (h_parts : F .parts = true) (h_tim : F .tim = true) (h_owed : F .owed = true) (h_strs : F .strs = true) (h_closes : F .closes = true) (h_bobs : F .bobs = true) (h_wports : F .wports = true) (h_rport : F .rport = true) (h_adopts : F .adopts = true) (h_exempt : F .exempt = true) (h_refused : F .refused = true) (h_heds : F .heds = true) (h_counts : F .counts = true) (h_hedGovs : F .hedGovs = true) (h_reedGovs : F .reedGovs = true) (h_trd : F .trd = true) (h_stop : F .stop = true) (h_hedStops : F .hedStops = true) (h_key : F .key = true) (h_wits : F .wits = true) (h_ver : F .ver = true) (h_gates : F .gates = true) (h_tests : F .tests = true) (h_links : F .links = true) (h_linkTimes : F .linkTimes = true) (h_servo : F .servo = true) (h_eth : F .eth = true) (h_fw : F .fw = true) (h_free : F .free = true) (h : Same F s t) : Same F s (handoverFatal a0 a1 a2 t) := by
  unfold handoverFatal
  repeat' (first | with_reducible assumption | with_reducible refine fwResult_same h_regs ?_ | with_reducible refine updFw_same h_fw ?_ | with_reducible refine dropLoader_same h_rport h_fw ?_ | with_reducible refine raise_same h_regs h_trd ?_ | with_reducible refine leave_same h_regs h_parts h_tim h_owed h_strs h_closes h_bobs h_wports h_rport h_adopts h_exempt h_refused h_heds h_counts h_hedGovs h_reedGovs h_trd h_stop h_hedStops h_key h_wits h_ver h_gates h_tests h_links h_linkTimes h_servo h_eth h_fw h_free ?_ | with_reducible refine setErr_same h_regs h_trd ?_)

theorem reloadComplete_same {F : Fld → Bool} {s t : State}  (h_regs : F .regs = true) (h_parts : F .parts = true) (h_tim : F .tim = true) (h_owed : F .owed = true) (h_strs : F .strs = true) (h_closes : F .closes = true) (h_bobs : F .bobs = true) (h_wports : F .wports = true) (h_rport : F .rport = true) (h_adopts : F .adopts = true) (h_exempt : F .exempt = true) (h_refused : F .refused = true) (h_heds : F .heds = true) (h_counts : F .counts = true) (h_hedGovs : F .hedGovs = true) (h_reedGovs : F .reedGovs = true) (h_trd : F .trd = true) (h_stop : F .stop = true) (h_hedStops : F .hedStops = true) (h_key : F .key = true) (h_wits : F .wits = true) (h_ver : F .ver = true) (h_gates : F .gates = true) (h_tests : F .tests = true) (h_links : F .links = true) (h_linkTimes : F .linkTimes = true) (h_servo : F .servo = true) (h_eth : F .eth = true) (h_fw : F .fw = true) (h_free : F .free = true) (h : Same F s t) : Same F s (reloadComplete t) := by
  unfold reloadComplete
  repeat' (first | with_reducible assumption | with_reducible refine enterStart_same h_rport h_fw ?_ | with_reducible refine handoverFatal_same h_regs h_parts h_tim h_owed h_strs h_closes h_bobs h_wports h_rport h_adopts h_exempt h_refused h_heds h_counts h_hedGovs h_reedGovs h_trd h_stop h_hedStops h_key h_wits h_ver h_gates h_tests h_links h_linkTimes h_servo h_eth h_fw h_free ?_ | split)

theorem fwReject_same {F : Fld → Bool} {s t : State}  (h_regs : F .regs = true) (h_parts : F .parts = true) (h_tim : F .tim = true) (h_owed : F .owed = true) (h_strs : F .strs = true) (h_closes : F .closes = true) (h_bobs : F .bobs = true) (h_wports : F .wports = true) (h_rport : F .rport = true) (h_adopts : F .adopts = true) (h_exempt : F .exempt = true) (h_refused : F .refused = true) (h_heds : F .heds = true) (h_counts : F .counts = true) (h_hedGovs : F .hedGovs = true) (h_reedGovs : F .reedGovs = true) (h_trd : F .trd = true) (h_stop : F .stop = true) (h_hedStops : F .hedStops = true) (h_key : F .key = true) (h_wits : F .wits = true) (h_ver : F .ver = true) (h_gates : F .gates = true) (h_tests : F .tests = true) (h_links : F .links = true) (h_linkTimes : F .linkTimes = true) (h_servo : F .servo = true) (h_eth : F .eth = true) (h_fw : F .fw = true) (h_free : F .free = true) (h : Same F s t) : Same F s (fwReject t) := by
  unfold fwReject
  repeat' (first | with_reducible assumption | with_reducible refine handoverFatal_same h_regs h_parts h_tim h_owed h_strs h_closes h_bobs h_wports h_rport h_adopts h_exempt h_refused h_heds h_counts h_hedGovs h_reedGovs h_trd h_stop h_hedStops h_key h_wits h_ver h_gates h_tests h_links h_linkTimes h_servo h_eth h_fw h_free ?_ | with_reducible refine Same.ite ?_ ?_)

theorem acceptTimeout_same {F : Fld → Bool} {s t : State}  (h_regs : F .regs = true) (h_parts : F .parts = true) (h_tim : F .tim = true) (h_owed : F .owed = true) (h_strs : F .strs = true) (h_closes : F .closes = true) (h_bobs : F .bobs = true) (h_wports : F .wports = true) (h_rport : F .rport = true) (h_adopts : F .adopts = true) (h_exempt : F .exempt = true) (h_refused : F .refused = true) (h_heds : F .heds = true) (h_counts : F .counts = true) (h_hedGovs : F .hedGovs = true) (h_reedGovs : F .reedGovs = true) (h_trd : F .trd = true) (h_stop : F .stop = true) (h_hedStops : F .hedStops = true) (h_key : F .key = true) (h_wits : F .wits = true) (h_ver : F .ver = true) (h_gates : F .gates = true) (h_tests : F .tests = true) (h_links : F .links = true) (h_linkTimes : F .linkTimes = true) (h_servo : F .servo = true) (h_eth : F .eth = true) (h_fw : F .fw = true) (h_free : F .free = true) (h : Same F s t) : Same F s (acceptTimeout t) := by
  unfold acceptTimeout
  repeat' (first | with_reducible assumption | with_reducible refine fwReject_same h_regs h_parts h_tim h_owed h_strs h_closes h_bobs h_wports h_rport h_adopts h_exempt h_refused h_heds h_counts h_hedGovs h_reedGovs h_trd h_stop h_hedStops h_key h_wits h_ver h_gates h_tests h_links h_linkTimes h_servo h_eth h_fw h_free ?_ | with_reducible refine Same.ite ?_ ?_)

theorem quiesceComplete_same {F : Fld → Bool} {s t : State} {a0 : Nat} (h_regs : F .regs = true) (h_parts : F .parts = true) (h_strs : F .strs = true) (h_closes : F .closes = true) (h_bobs : F .bobs = true) (h_adopts : F .adopts = true) (h_trd : F .trd = true) (h_hedStops : F .hedStops = true) (h : Same F s t) : Same F s (quiesceComplete a0 t) := by
  unfold quiesceComplete
  repeat' (first | with_reducible assumption | with_reducible refine startRehome_same h_regs h_strs h_closes h_bobs h_adopts h_trd ?_ | with_reducible refine transition_same h_parts ?_ | with_reducible refine lowerHold_same h_hedStops ?_ | split)

theorem quiesceOverdue_same {F : Fld → Bool} {s t : State} {a0 : Nat} (h_regs : F .regs = true) (h_parts : F .parts = true) (h_trd : F .trd = true) (h : Same F s t) : Same F s (quiesceOverdue a0 t) := by
  unfold quiesceOverdue
  repeat' (first | with_reducible assumption | with_reducible refine setErr_same h_regs h_trd ?_ | with_reducible refine updPart_same h_parts ?_ | with_reducible refine Same.ite ?_ ?_)

theorem fwReady_same {F : Fld → Bool} {s t : State}  (h_parts : F .parts = true) (h_rport : F .rport = true) (h_tests : F .tests = true) (h_fw : F .fw = true) (h_free : F .free = true) (h : Same F s t) : Same F s (fwReady t) := by
  unfold fwReady
  repeat' (first | with_reducible assumption | with_reducible refine transition_same h_parts ?_ | with_reducible refine updFw_same h_fw ?_ | with_reducible refine dropManifest_same h_rport h_tests ?_ | with_reducible refine leaveCheckpoint_same h_fw h_free ?_ | with_reducible refine enterReload_same h_rport h_fw ?_ | with_reducible refine Same.ite ?_ ?_)

theorem afterReset_same {F : Fld → Bool} {s t : State} {a0 : Nat} {a1 : Nat} (h_regs : F .regs = true) (h_parts : F .parts = true) (h_audit : F .audit = true) (h_owed : F .owed = true) (h_strs : F .strs = true) (h_closes : F .closes = true) (h_bobs : F .bobs = true) (h_wports : F .wports = true) (h_adopts : F .adopts = true) (h_exempt : F .exempt = true) (h_refused : F .refused = true) (h_trd : F .trd = true) (h_stop : F .stop = true) (h_hedStops : F .hedStops = true) (h_key : F .key = true) (h_fw : F .fw = true) (h : Same F s t) : Same F s (afterReset a0 a1 t) := by
  unfold afterReset
  repeat' (first | with_reducible assumption | with_reducible refine applyRecorded_same h_regs h_strs h_bobs h_wports h_trd h_stop h_hedStops h_key h_fw ?_ | with_reducible refine handoverHubBack_same h_fw ?_ | with_reducible refine payOwed_same h_regs h_owed h_strs h_closes h_exempt h_refused h_trd h_key ?_ | with_reducible refine initialAudit_same h_regs h_parts h_audit h_strs h_closes h_bobs h_adopts h_trd ?_ | with_reducible refine awaitPort_same h_adopts ?_ | with_reducible refine foldl_same (fun _ _ _ => ?_) ?_ | split)

theorem partInitialised_same {F : Fld → Bool} {s t : State} {a0 : Nat} (h_regs : F .regs = true) (h_parts : F .parts = true) (h_audit : F .audit = true) (h_owed : F .owed = true) (h_strs : F .strs = true) (h_closes : F .closes = true) (h_bobs : F .bobs = true) (h_wports : F .wports = true) (h_adopts : F .adopts = true) (h_exempt : F .exempt = true) (h_refused : F .refused = true) (h_trd : F .trd = true) (h_stop : F .stop = true) (h_hedStops : F .hedStops = true) (h_key : F .key = true) (h_fw : F .fw = true) (h : Same F s t) : Same F s (partInitialised a0 t) := by
  unfold partInitialised
  repeat' (first | with_reducible assumption | with_reducible refine afterReset_same h_regs h_parts h_audit h_owed h_strs h_closes h_bobs h_wports h_adopts h_exempt h_refused h_trd h_stop h_hedStops h_key h_fw ?_ | with_reducible refine transition_same h_parts ?_ | with_reducible refine Same.ite ?_ ?_)

theorem blockInitialised_same {F : Fld → Bool} {s t : State}  (h_ready : F .ready = true) (h_booting : F .booting = true) (h_regs : F .regs = true) (h_strs : F .strs = true) (h_closes : F .closes = true) (h_exempt : F .exempt = true) (h_gov : F .gov = true) (h_trd : F .trd = true) (h_key : F .key = true) (h_ver : F .ver = true) (h_free : F .free = true) (h : Same F s t) : Same F s (blockInitialised t) := by
  unfold blockInitialised
  split
  · exact h
  have h1 : Same F s { t with ready := true, booting := false } := by
    intro f hf
    cases f <;> first
      | exact h _ hf
      | exact absurd (hf.symm.trans h_ready) Bool.false_ne_true
      | exact absurd (hf.symm.trans h_booting) Bool.false_ne_true
  have h2 := updOwn_same (a0 := fun o => { o with cleared := epochNow { t with ready := true, booting := false } - 1, confirm := epochNow { t with ready := true, booting := false } - 1, lastClear := epochNow { t with ready := true, booting := false } - 1 }) h_ver (Same.set_gov (v := { t.gov with k := t.tim.raw / govWindow { t with ready := true, booting := false } }) h_gov h1)
  dsimp only
  split <;> split
  · exact workLost_same h_regs h_strs h_closes h_exempt h_trd h_key h_ver h_free h2
  · exact workLost_same h_regs h_strs h_closes h_exempt h_trd h_key h_ver h_free (setErr_same h_regs h_trd h2)
  · exact h2
  · exact setErr_same h_regs h_trd h2

theorem readClears_same {F : Fld → Bool} {s t : State} {a0 : PageKind} {a1 : Nat} {a2 : Nat} {a3 : RegRow} (h_regs : F .regs = true) (h_parts : F .parts = true) (h_key : F .key = true) (h : Same F s t) : Same F s (readClears a0 a1 a2 a3 t) := by
  unfold readClears
  repeat' (first | with_reducible assumption | with_reducible refine regPut_same h_regs ?_ | with_reducible refine updPart_same h_parts ?_ | with_reducible refine keyReadClear_same h_key ?_ | with_reducible refine highWater_same h_regs ?_ | split)

theorem readWord_same {F : Fld → Bool} {s t : State} {a0 : PageKind} {a1 : Nat} {a2 : Nat} {a3 : RegRow} (h_regs : F .regs = true) (h_parts : F .parts = true) (h_trd : F .trd = true) (h_key : F .key = true) (h_tests : F .tests = true) (h_cal : F .cal = true) (h : Same F s t) : SameOP F s (readWord a0 a1 a2 a3 t) := by
  unfold readWord
  repeat' (first | with_reducible assumption | with_reducible refine testNext_same h_tests ?_ | with_reducible refine claim_same h_regs h_trd ?_ | with_reducible refine calAccess_same h_regs h_cal ?_ | with_reducible refine readClears_same h_regs h_parts h_key ?_ | with_reducible exact SameOP.none | with_reducible refine SameOP.some ?_ | split)

theorem unblindAction_same {F : Fld → Bool} {s t : State}  (h_ver : F .ver = true) (h : Same F s t) : SameO F s (unblindAction t) := by
  unfold unblindAction
  repeat' (first | with_reducible assumption | with_reducible exact SameO.none | with_reducible refine SameO.some ?_ | with_reducible refine SameO.ite ?_ ?_ | with_reducible refine Same.set_ver h_ver ?_)

theorem testReloadAction_same {F : Fld → Bool} {s t : State}  (h_rport : F .rport = true) (h_tests : F .tests = true) (h : Same F s t) : SameO F s (testReloadAction t) := by
  unfold testReloadAction
  repeat' (first | with_reducible assumption | with_reducible refine testReload_same h_rport h_tests ?_ | with_reducible exact SameO.none | with_reducible refine SameO.some ?_ | with_reducible refine SameO.ite ?_ ?_)

theorem flushAction_same {F : Fld → Bool} {s t : State} {a0 : Nat} (h_regs : F .regs = true) (h_strs : F .strs = true) (h_closes : F .closes = true) (h_exempt : F .exempt = true) (h_refused : F .refused = true) (h_heds : F .heds = true) (h_counts : F .counts = true) (h_hedGovs : F .hedGovs = true) (h_reedGovs : F .reedGovs = true) (h_trd : F .trd = true) (h_stop : F .stop = true) (h_key : F .key = true) (h_wits : F .wits = true) (h_ver : F .ver = true) (h_tests : F .tests = true) (h_links : F .links = true) (h_free : F .free = true) (h : Same F s t) : SameO F s (flushAction a0 t) := by
  unfold flushAction
  repeat' (first | with_reducible assumption | with_reducible refine flush_same h_strs h_closes ?_ | with_reducible refine settleWriter_same h_regs h_strs h_closes h_exempt h_refused h_heds h_counts h_hedGovs h_reedGovs h_trd h_stop h_key h_wits h_ver h_tests h_links h_free ?_ | with_reducible exact SameO.none | with_reducible refine SameO.some ?_ | with_reducible refine SameO.ite ?_ ?_)

theorem hubAction_same {F : Fld → Bool} {s t : State} {a0 : Nat} (h_regs : F .regs = true) (h_tim : F .tim = true) (h_owed : F .owed = true) (h_strs : F .strs = true) (h_closes : F .closes = true) (h_bobs : F .bobs = true) (h_wports : F .wports = true) (h_rport : F .rport = true) (h_adopts : F .adopts = true) (h_exempt : F .exempt = true) (h_refused : F .refused = true) (h_heds : F .heds = true) (h_counts : F .counts = true) (h_hedGovs : F .hedGovs = true) (h_reedGovs : F .reedGovs = true) (h_trd : F .trd = true) (h_stop : F .stop = true) (h_key : F .key = true) (h_wits : F .wits = true) (h_ver : F .ver = true) (h_tests : F .tests = true) (h_links : F .links = true) (h_servo : F .servo = true) (h_free : F .free = true) (h : Same F s t) : SameO F s (hubAction a0 t) := by
  unfold hubAction
  repeat' (first | with_reducible assumption | with_reducible refine stepAction_same h_tim ?_ | with_reducible refine setAction_same h_tim ?_ | with_reducible refine rateAction_same h_tim ?_ | with_reducible refine calTdcAction_same h_tim ?_ | with_reducible refine servoStart_same h_regs h_tim h_owed h_strs h_closes h_exempt h_refused h_trd h_key h_servo ?_ | with_reducible refine servoStop_same h_regs h_tim h_owed h_strs h_closes h_exempt h_refused h_trd h_key h_servo ?_ | with_reducible refine servoRearm_same h_regs h_tim h_owed h_strs h_closes h_exempt h_refused h_trd h_key h_servo ?_ | with_reducible refine flushAction_same h_regs h_strs h_closes h_exempt h_refused h_heds h_counts h_hedGovs h_reedGovs h_trd h_stop h_key h_wits h_ver h_tests h_links h_free ?_ | with_reducible refine bobEnable_same h_regs h_strs h_bobs h_wports h_adopts h_trd h_key ?_ | with_reducible refine bobDisable_same h_bobs ?_ | with_reducible refine unblindAction_same h_ver ?_ | with_reducible refine testReloadAction_same h_rport h_tests ?_ | with_reducible refine stopNow_same h_regs h_strs h_closes h_trd h_stop h_wits ?_ | with_reducible refine armStop_same h_stop ?_ | with_reducible refine disarmStop_same h_stop ?_ | with_reducible refine resumeStop_same h_stop ?_ | with_reducible exact SameO.none | with_reducible refine SameO.some ?_ | with_reducible refine SameO.ite ?_ ?_)

theorem reedAction_same {F : Fld → Bool} {s t : State} {a0 : Nat} {a1 : Nat} (h_regs : F .regs = true) (h_strs : F .strs = true) (h_closes : F .closes = true) (h_bobs : F .bobs = true) (h_wports : F .wports = true) (h_adopts : F .adopts = true) (h_exempt : F .exempt = true) (h_refused : F .refused = true) (h_heds : F .heds = true) (h_counts : F .counts = true) (h_hedGovs : F .hedGovs = true) (h_reedGovs : F .reedGovs = true) (h_trd : F .trd = true) (h_stop : F .stop = true) (h_key : F .key = true) (h_wits : F .wits = true) (h_cards : F .cards = true) (h_shadows : F .shadows = true) (h_ver : F .ver = true) (h_tests : F .tests = true) (h_links : F .links = true) (h_free : F .free = true) (h : Same F s t) : SameO F s (reedAction a0 a1 t) := by
  unfold reedAction
  repeat' (first | with_reducible assumption | with_reducible refine flushAction_same h_regs h_strs h_closes h_exempt h_refused h_heds h_counts h_hedGovs h_reedGovs h_trd h_stop h_key h_wits h_ver h_tests h_links h_free ?_ | with_reducible refine bobEnable_same h_regs h_strs h_bobs h_wports h_adopts h_trd h_key ?_ | with_reducible refine bobDisable_same h_bobs ?_ | with_reducible refine cardLoad_same h_cards h_shadows ?_ | with_reducible refine cardFetch_same h_regs ?_ | with_reducible exact SameO.none | with_reducible refine SameO.some ?_ | with_reducible refine SameO.ite ?_ ?_)

theorem keyAction_same {F : Fld → Bool} {s t : State} {a0 : Nat} (h_regs : F .regs = true) (h_strs : F .strs = true) (h_closes : F .closes = true) (h_bobs : F .bobs = true) (h_exempt : F .exempt = true) (h_trd : F .trd = true) (h_key : F .key = true) (h_ver : F .ver = true) (h_free : F .free = true) (h_salts : F .salts = true) (h : Same F s t) : SameO F s (keyAction a0 t) := by
  unfold keyAction
  repeat' (first | with_reducible assumption | with_reducible refine install_same h_key h_salts ?_ | with_reducible refine rotate_same h_bobs h_key h_salts ?_ | with_reducible refine remove_same h_regs h_strs h_closes h_exempt h_trd h_key h_ver h_free ?_ | with_reducible refine release_same h_key ?_ | with_reducible refine scanRelease_same h_key ?_ | with_reducible exact SameO.none | with_reducible refine SameO.some ?_ | with_reducible refine SameO.ite ?_ ?_)

theorem fwAction_same {F : Fld → Bool} {s t : State} {a0 : Nat} (h_regs : F .regs = true) (h_strs : F .strs = true) (h_closes : F .closes = true) (h_rport : F .rport = true) (h_exempt : F .exempt = true) (h_trd : F .trd = true) (h_key : F .key = true) (h_ver : F .ver = true) (h_fw : F .fw = true) (h_free : F .free = true) (h : Same F s t) : SameO F s (fwAction a0 t) := by
  unfold fwAction
  repeat' (first | with_reducible assumption | with_reducible refine fwLoad_same h_rport h_fw ?_ | with_reducible refine fwHandover_same h_rport h_fw ?_ | with_reducible refine hostEmit_same h_regs h_strs h_closes h_exempt h_trd h_key h_ver h_free ?_ | with_reducible refine hostScrubbed_same h_regs h_strs h_closes h_exempt h_trd h_key h_ver h_free ?_ | with_reducible exact SameO.none | with_reducible refine SameO.some ?_ | with_reducible refine SameO.ite ?_ ?_)

theorem doAction_same {F : Fld → Bool} {s t : State} {a0 : PageKind} {a1 : Nat} {a2 : Nat} {a3 : BitVec 8} (h_regs : F .regs = true) (h_parts : F .parts = true) (h_tim : F .tim = true) (h_owed : F .owed = true) (h_strs : F .strs = true) (h_closes : F .closes = true) (h_bobs : F .bobs = true) (h_wports : F .wports = true) (h_rport : F .rport = true) (h_adopts : F .adopts = true) (h_exempt : F .exempt = true) (h_refused : F .refused = true) (h_heds : F .heds = true) (h_counts : F .counts = true) (h_hedGovs : F .hedGovs = true) (h_reedGovs : F .reedGovs = true) (h_trd : F .trd = true) (h_stop : F .stop = true) (h_hedStops : F .hedStops = true) (h_key : F .key = true) (h_wits : F .wits = true) (h_cards : F .cards = true) (h_shadows : F .shadows = true) (h_ver : F .ver = true) (h_gates : F .gates = true) (h_tests : F .tests = true) (h_links : F .links = true) (h_linkTimes : F .linkTimes = true) (h_servo : F .servo = true) (h_eth : F .eth = true) (h_fw : F .fw = true) (h_free : F .free = true) (h_salts : F .salts = true) (h : Same F s t) : SameO F s (doAction a0 a1 a2 a3 t) := by
  unfold doAction
  repeat' (first | with_reducible assumption | with_reducible refine actEnable_same h_regs h_parts h_tim h_owed h_strs h_closes h_adopts h_exempt h_refused h_heds h_trd h_stop h_hedStops h_key h_wits h_shadows h_ver h_tests h_links h_linkTimes h_servo h_eth h_fw h_free h_salts ?_ | with_reducible refine actDisable_same h_regs h_parts h_tim h_owed h_strs h_closes h_bobs h_wports h_rport h_adopts h_exempt h_refused h_heds h_counts h_hedGovs h_reedGovs h_trd h_stop h_hedStops h_key h_wits h_ver h_gates h_tests h_links h_linkTimes h_servo h_eth h_fw h_free ?_ | with_reducible refine actReset_same h_regs h_parts h_tim h_owed h_strs h_closes h_bobs h_wports h_rport h_adopts h_exempt h_refused h_heds h_counts h_hedGovs h_reedGovs h_trd h_stop h_hedStops h_key h_wits h_ver h_gates h_tests h_links h_linkTimes h_servo h_eth h_fw h_free ?_ | with_reducible refine actRetire_same h_regs h_parts h_strs h_closes h_exempt h_trd h_key h_ver h_tests h_free ?_ | with_reducible refine actReinstate_same h_regs h_parts h_tim h_trd h_tests ?_ | with_reducible refine actAudit_same h_parts ?_ | with_reducible refine hubAction_same h_regs h_tim h_owed h_strs h_closes h_bobs h_wports h_rport h_adopts h_exempt h_refused h_heds h_counts h_hedGovs h_reedGovs h_trd h_stop h_key h_wits h_ver h_tests h_links h_servo h_free ?_ | with_reducible refine reedAction_same h_regs h_strs h_closes h_bobs h_wports h_adopts h_exempt h_refused h_heds h_counts h_hedGovs h_reedGovs h_trd h_stop h_key h_wits h_cards h_shadows h_ver h_tests h_links h_free ?_ | with_reducible refine keyAction_same h_regs h_strs h_closes h_bobs h_exempt h_trd h_key h_ver h_free h_salts ?_ | with_reducible refine fwAction_same h_regs h_strs h_closes h_rport h_exempt h_trd h_key h_ver h_fw h_free ?_ | with_reducible refine ringRelease_same h_links ?_ | with_reducible exact SameO.none | with_reducible refine SameO.some ?_ | split)

theorem ctrlWrite_same {F : Fld → Bool} {s t : State} {a0 : PageKind} {a1 : Nat} {a2 : Word} {a3 : BitVec 8} (h_regs : F .regs = true) (h_parts : F .parts = true) (h_tim : F .tim = true) (h_owed : F .owed = true) (h_strs : F .strs = true) (h_closes : F .closes = true) (h_bobs : F .bobs = true) (h_wports : F .wports = true) (h_rport : F .rport = true) (h_adopts : F .adopts = true) (h_exempt : F .exempt = true) (h_refused : F .refused = true) (h_heds : F .heds = true) (h_counts : F .counts = true) (h_hedGovs : F .hedGovs = true) (h_reedGovs : F .reedGovs = true) (h_trd : F .trd = true) (h_stop : F .stop = true) (h_hedStops : F .hedStops = true) (h_key : F .key = true) (h_wits : F .wits = true) (h_cards : F .cards = true) (h_shadows : F .shadows = true) (h_ver : F .ver = true) (h_gates : F .gates = true) (h_tests : F .tests = true) (h_links : F .links = true) (h_linkTimes : F .linkTimes = true) (h_servo : F .servo = true) (h_eth : F .eth = true) (h_fw : F .fw = true) (h_free : F .free = true) (h_salts : F .salts = true) (h : Same F s t) : SameO F s (ctrlWrite a0 a1 a2 a3 t) := by
  unfold ctrlWrite
  repeat' (first | with_reducible assumption | with_reducible refine doAction_same h_regs h_parts h_tim h_owed h_strs h_closes h_bobs h_wports h_rport h_adopts h_exempt h_refused h_heds h_counts h_hedGovs h_reedGovs h_trd h_stop h_hedStops h_key h_wits h_cards h_shadows h_ver h_gates h_tests h_links h_linkTimes h_servo h_eth h_fw h_free h_salts ?_ | with_reducible exact SameO.none | with_reducible refine SameO.some ?_ | with_reducible refine SameO.ite ?_ ?_)

theorem ctrlRefused_same {F : Fld → Bool} {s t : State} {a0 : PageKind} {a1 : Nat} {a2 : Word} (h_regs : F .regs = true) (h_trd : F .trd = true) (h : Same F s t) : Same F s (ctrlRefused a0 a1 a2 t) := by
  unfold ctrlRefused
  repeat' (first | with_reducible assumption | with_reducible refine factMissing_same h_regs h_trd ?_ | with_reducible refine noteSeed_same h_regs h_trd ?_ | with_reducible refine setErr_same h_regs h_trd ?_ | with_reducible refine Same.ite ?_ ?_)

theorem storeWord_same {F : Fld → Bool} {s t : State} {a0 : PageKind} {a1 : Nat} {a2 : Nat} {a3 : RegRow} {a4 : Word} (h_regs : F .regs = true) (h : Same F s t) : Same F s (storeWord a0 a1 a2 a3 a4 t) := by
  unfold storeWord
  repeat' (first | with_reducible assumption | with_reducible refine regPut_same h_regs ?_ | with_reducible refine Same.ite ?_ ?_)

theorem doorbellBad_same {F : Fld → Bool} {s t : State}  (h_regs : F .regs = true) (h_trd : F .trd = true) (h : Same F s t) : Same F s (doorbellBad t) := by
  unfold doorbellBad
  repeat' (first | with_reducible assumption | with_reducible refine setErr_same h_regs h_trd ?_ | with_reducible refine bump_same h_regs ?_)

theorem trd0Write_same {F : Fld → Bool} {s t : State} {a0 : Nat} {a1 : RegRow} {a2 : Word} (h_regs : F .regs = true) (h_trd : F .trd = true) (h : Same F s t) : Same F s (trd0Write a0 a1 a2 t).2 := by
  unfold trd0Write
  repeat' (first | with_reducible assumption | with_reducible refine doorbell_same h_regs h_trd ?_ | with_reducible refine doorbell_same h_regs h_trd ?_ _ (by assumption) | with_reducible refine doorbellBad_same h_regs h_trd ?_ | with_reducible refine dozeWrite_same h_regs h_trd ?_ | with_reducible refine dozeWrite_same h_regs h_trd ?_ _ (by assumption) | with_reducible refine complete_same h_regs h_trd ?_ | with_reducible refine complete_same h_regs h_trd ?_ _ (by assumption) | with_reducible refine completeRefused_same h_regs h_trd ?_ | with_reducible refine settle_same h_regs h_trd ?_ | with_reducible refine storeWord_same h_regs ?_ | dsimp only | split)

theorem trd0Write_same_eq {F : Fld → Bool} {s t : State} {a0 : Nat} {a1 : RegRow} {a2 : Word} (h_regs : F .regs = true) (h_trd : F .trd = true) {x} {u : State} (e : trd0Write a0 a1 a2 t = (x, u)) (h : Same F s t) : Same F s u := by
  have := trd0Write_same (F := F) (s := s) (t := t) (a0 := a0) (a1 := a1) (a2 := a2) h_regs h_trd h
  rw [e] at this; exact this

theorem trd1Write_same {F : Fld → Bool} {s t : State} {a0 : Nat} {a1 : RegRow} {a2 : Word} (h_regs : F .regs = true) (h_trd : F .trd = true) (h : Same F s t) : Same F s (trd1Write a0 a1 a2 t) := by
  unfold trd1Write
  repeat' (first | with_reducible assumption | with_reducible refine pendingSet_same h_regs h_trd ?_ | with_reducible refine pendingClr_same h_regs h_trd ?_ | with_reducible refine settle_same h_regs h_trd ?_ | with_reducible refine storeWord_same h_regs ?_ | with_reducible refine Same.ite ?_ ?_)

theorem trdSrcWrite_same {F : Fld → Bool} {s t : State} {a0 : Nat} {a1 : Word} (h_regs : F .regs = true) (h_trd : F .trd = true) (h : Same F s t) : Same F s (trdSrcWrite a0 a1 t).2 := by
  unfold trdSrcWrite
  repeat' (first | with_reducible assumption | with_reducible refine srcWrite_same h_regs h_trd ?_ | with_reducible refine srcWrite_same h_regs h_trd ?_ _ (by assumption) | split)

theorem trdSrcWrite_same_eq {F : Fld → Bool} {s t : State} {a0 : Nat} {a1 : Word} (h_regs : F .regs = true) (h_trd : F .trd = true) {x} {u : State} (e : trdSrcWrite a0 a1 t = (x, u)) (h : Same F s t) : Same F s u := by
  have := trdSrcWrite_same (F := F) (s := s) (t := t) (a0 := a0) (a1 := a1) h_regs h_trd h
  rw [e] at this; exact this

theorem calWrite_same {F : Fld → Bool} {s t : State} {a0 : Word} (h_regs : F .regs = true) (h_cal : F .cal = true) (h : Same F s t) : Same F s (calWrite a0 t).2 := by
  unfold calWrite
  repeat' (first | with_reducible assumption | with_reducible refine calAccess_same h_regs h_cal ?_ | with_reducible refine calAccess_same h_regs h_cal ?_ _ _ (by assumption) | split)

theorem calWrite_same_eq {F : Fld → Bool} {s t : State} {a0 : Word} (h_regs : F .regs = true) (h_cal : F .cal = true) {x} {u : State} (e : calWrite a0 t = (x, u)) (h : Same F s t) : Same F s u := by
  have := calWrite_same (F := F) (s := s) (t := t) (a0 := a0) h_regs h_cal h
  rw [e] at this; exact this

theorem tailRule_same {F : Fld → Bool} {s t : State} {a0 : Nat} {a1 : Word} (h_bobs : F .bobs = true) (h : Same F s t) : Same F s (tailRule a0 a1 t).2 := by
  unfold tailRule
  repeat' (first | with_reducible assumption | with_reducible refine tailWrite_same h_bobs ?_ | with_reducible refine tailWrite_same h_bobs ?_ _ (by assumption) | split)

theorem tailRule_same_eq {F : Fld → Bool} {s t : State} {a0 : Nat} {a1 : Word} (h_bobs : F .bobs = true) {x} {u : State} (e : tailRule a0 a1 t = (x, u)) (h : Same F s t) : Same F s u := by
  have := tailRule_same (F := F) (s := s) (t := t) (a0 := a0) (a1 := a1) h_bobs h
  rw [e] at this; exact this

theorem hubWrite_same {F : Fld → Bool} {s t : State} {a0 : Nat} {a1 : RegRow} {a2 : Word} (h_regs : F .regs = true) (h_strs : F .strs = true) (h_closes : F .closes = true) (h_bobs : F .bobs = true) (h_exempt : F .exempt = true) (h_hedGovs : F .hedGovs = true) (h_gov : F .gov = true) (h_trd : F .trd = true) (h_stop : F .stop = true) (h_key : F .key = true) (h_wits : F .wits = true) (h_ver : F .ver = true) (h_free : F .free = true) (h : Same F s t) : Same F s (hubWrite a0 a1 a2 t).2 := by
  unfold hubWrite
  repeat' (first | with_reducible assumption | with_reducible refine noticeIn_same h_regs h_strs h_closes h_exempt h_trd h_stop h_key h_wits h_ver h_free ?_ | with_reducible refine noticeIn_same h_regs h_strs h_closes h_exempt h_trd h_stop h_key h_wits h_ver h_free ?_ _ (by assumption) | with_reducible refine settleEpochs_same h_ver ?_ | with_reducible refine carryEpochs_same h_ver ?_ | with_reducible refine storeWord_same h_regs ?_ | with_reducible refine updHedGov_same h_hedGovs ?_ | with_reducible refine tailRule_same h_bobs ?_ | with_reducible refine foldl_same (fun _ _ _ => ?_) ?_ | split | with_reducible refine Same.set_gov h_gov ?_)

theorem hubWrite_same_eq {F : Fld → Bool} {s t : State} {a0 : Nat} {a1 : RegRow} {a2 : Word} (h_regs : F .regs = true) (h_strs : F .strs = true) (h_closes : F .closes = true) (h_bobs : F .bobs = true) (h_exempt : F .exempt = true) (h_hedGovs : F .hedGovs = true) (h_gov : F .gov = true) (h_trd : F .trd = true) (h_stop : F .stop = true) (h_key : F .key = true) (h_wits : F .wits = true) (h_ver : F .ver = true) (h_free : F .free = true) {x} {u : State} (e : hubWrite a0 a1 a2 t = (x, u)) (h : Same F s t) : Same F s u := by
  have := hubWrite_same (F := F) (s := s) (t := t) (a0 := a0) (a1 := a1) (a2 := a2) h_regs h_strs h_closes h_bobs h_exempt h_hedGovs h_gov h_trd h_stop h_key h_wits h_ver h_free h
  rw [e] at this; exact this

theorem writeWord_same {F : Fld → Bool} {s t : State} {a0 : PageKind} {a1 : Nat} {a2 : Nat} {a3 : RegRow} {a4 : Word} (h_regs : F .regs = true) (h_strs : F .strs = true) (h_closes : F .closes = true) (h_bobs : F .bobs = true) (h_exempt : F .exempt = true) (h_heds : F .heds = true) (h_counts : F .counts = true) (h_hedGovs : F .hedGovs = true) (h_gov : F .gov = true) (h_trd : F .trd = true) (h_stop : F .stop = true) (h_key : F .key = true) (h_wits : F .wits = true) (h_ver : F .ver = true) (h_cal : F .cal = true) (h_free : F .free = true) (h : Same F s t) : Same F s (writeWord a0 a1 a2 a3 a4 t).2 := by
  unfold writeWord
  repeat' (first | with_reducible assumption | with_reducible refine storeWord_same h_regs ?_ | with_reducible refine hubWrite_same h_regs h_strs h_closes h_bobs h_exempt h_hedGovs h_gov h_trd h_stop h_key h_wits h_ver h_free ?_ | with_reducible refine updKey_same h_key ?_ | with_reducible refine calWrite_same h_regs h_cal ?_ | with_reducible refine trd0Write_same h_regs h_trd ?_ | with_reducible refine trd1Write_same h_regs h_trd ?_ | with_reducible refine trdSrcWrite_same h_regs h_trd ?_ | with_reducible refine tailRule_same h_bobs ?_ | with_reducible refine cardMapWrite_same h_regs h_heds h_counts h_trd ?_ | with_reducible refine foldl_same (fun _ _ _ => ?_) ?_ | split)

theorem writeWord_same_eq {F : Fld → Bool} {s t : State} {a0 : PageKind} {a1 : Nat} {a2 : Nat} {a3 : RegRow} {a4 : Word} (h_regs : F .regs = true) (h_strs : F .strs = true) (h_closes : F .closes = true) (h_bobs : F .bobs = true) (h_exempt : F .exempt = true) (h_heds : F .heds = true) (h_counts : F .counts = true) (h_hedGovs : F .hedGovs = true) (h_gov : F .gov = true) (h_trd : F .trd = true) (h_stop : F .stop = true) (h_key : F .key = true) (h_wits : F .wits = true) (h_ver : F .ver = true) (h_cal : F .cal = true) (h_free : F .free = true) {x} {u : State} (e : writeWord a0 a1 a2 a3 a4 t = (x, u)) (h : Same F s t) : Same F s u := by
  have := writeWord_same (F := F) (s := s) (t := t) (a0 := a0) (a1 := a1) (a2 := a2) (a3 := a3) (a4 := a4) h_regs h_strs h_closes h_bobs h_exempt h_heds h_counts h_hedGovs h_gov h_trd h_stop h_key h_wits h_ver h_cal h_free h
  rw [e] at this; exact this

theorem writeRule_same {F : Fld → Bool} {s t : State} {a0 : PageKind} {a1 : Nat} {a2 : Nat} {a3 : RegRow} {a4 : Word} {a5 : BitVec 8} (h_regs : F .regs = true) (h_parts : F .parts = true) (h_tim : F .tim = true) (h_owed : F .owed = true) (h_strs : F .strs = true) (h_closes : F .closes = true) (h_bobs : F .bobs = true) (h_wports : F .wports = true) (h_rport : F .rport = true) (h_adopts : F .adopts = true) (h_exempt : F .exempt = true) (h_refused : F .refused = true) (h_heds : F .heds = true) (h_counts : F .counts = true) (h_hedGovs : F .hedGovs = true) (h_reedGovs : F .reedGovs = true) (h_gov : F .gov = true) (h_trd : F .trd = true) (h_stop : F .stop = true) (h_hedStops : F .hedStops = true) (h_key : F .key = true) (h_wits : F .wits = true) (h_cards : F .cards = true) (h_shadows : F .shadows = true) (h_ver : F .ver = true) (h_gates : F .gates = true) (h_tests : F .tests = true) (h_links : F .links = true) (h_linkTimes : F .linkTimes = true) (h_servo : F .servo = true) (h_eth : F .eth = true) (h_fw : F .fw = true) (h_cal : F .cal = true) (h_free : F .free = true) (h_salts : F .salts = true) (h : Same F s t) : Same F s (writeRule a0 a1 a2 a3 a4 a5 t).2 := by
  unfold writeRule
  repeat' (first | with_reducible assumption | with_reducible refine ctrlWrite_same h_regs h_parts h_tim h_owed h_strs h_closes h_bobs h_wports h_rport h_adopts h_exempt h_refused h_heds h_counts h_hedGovs h_reedGovs h_trd h_stop h_hedStops h_key h_wits h_cards h_shadows h_ver h_gates h_tests h_links h_linkTimes h_servo h_eth h_fw h_free h_salts ?_ | with_reducible refine ctrlWrite_same h_regs h_parts h_tim h_owed h_strs h_closes h_bobs h_wports h_rport h_adopts h_exempt h_refused h_heds h_counts h_hedGovs h_reedGovs h_trd h_stop h_hedStops h_key h_wits h_cards h_shadows h_ver h_gates h_tests h_links h_linkTimes h_servo h_eth h_fw h_free h_salts ?_ _ (by assumption) | with_reducible refine ctrlRefused_same h_regs h_trd ?_ | with_reducible refine writeWord_same h_regs h_strs h_closes h_bobs h_exempt h_heds h_counts h_hedGovs h_gov h_trd h_stop h_key h_wits h_ver h_cal h_free ?_ | split)

theorem writeRule_same_eq {F : Fld → Bool} {s t : State} {a0 : PageKind} {a1 : Nat} {a2 : Nat} {a3 : RegRow} {a4 : Word} {a5 : BitVec 8} (h_regs : F .regs = true) (h_parts : F .parts = true) (h_tim : F .tim = true) (h_owed : F .owed = true) (h_strs : F .strs = true) (h_closes : F .closes = true) (h_bobs : F .bobs = true) (h_wports : F .wports = true) (h_rport : F .rport = true) (h_adopts : F .adopts = true) (h_exempt : F .exempt = true) (h_refused : F .refused = true) (h_heds : F .heds = true) (h_counts : F .counts = true) (h_hedGovs : F .hedGovs = true) (h_reedGovs : F .reedGovs = true) (h_gov : F .gov = true) (h_trd : F .trd = true) (h_stop : F .stop = true) (h_hedStops : F .hedStops = true) (h_key : F .key = true) (h_wits : F .wits = true) (h_cards : F .cards = true) (h_shadows : F .shadows = true) (h_ver : F .ver = true) (h_gates : F .gates = true) (h_tests : F .tests = true) (h_links : F .links = true) (h_linkTimes : F .linkTimes = true) (h_servo : F .servo = true) (h_eth : F .eth = true) (h_fw : F .fw = true) (h_cal : F .cal = true) (h_free : F .free = true) (h_salts : F .salts = true) {x} {u : State} (e : writeRule a0 a1 a2 a3 a4 a5 t = (x, u)) (h : Same F s t) : Same F s u := by
  have := writeRule_same (F := F) (s := s) (t := t) (a0 := a0) (a1 := a1) (a2 := a2) (a3 := a3) (a4 := a4) (a5 := a5) h_regs h_parts h_tim h_owed h_strs h_closes h_bobs h_wports h_rport h_adopts h_exempt h_refused h_heds h_counts h_hedGovs h_reedGovs h_gov h_trd h_stop h_hedStops h_key h_wits h_cards h_shadows h_ver h_gates h_tests h_links h_linkTimes h_servo h_eth h_fw h_cal h_free h_salts h
  rw [e] at this; exact this

theorem answer_same {F : Fld → Bool} {s t : State} {a0 : Access} {a1 : BitVec 8} (h_regs : F .regs = true) (h_parts : F .parts = true) (h_tim : F .tim = true) (h_owed : F .owed = true) (h_strs : F .strs = true) (h_closes : F .closes = true) (h_bobs : F .bobs = true) (h_wports : F .wports = true) (h_rport : F .rport = true) (h_adopts : F .adopts = true) (h_exempt : F .exempt = true) (h_refused : F .refused = true) (h_heds : F .heds = true) (h_counts : F .counts = true) (h_hedGovs : F .hedGovs = true) (h_reedGovs : F .reedGovs = true) (h_gov : F .gov = true) (h_trd : F .trd = true) (h_stop : F .stop = true) (h_hedStops : F .hedStops = true) (h_key : F .key = true) (h_wits : F .wits = true) (h_cards : F .cards = true) (h_shadows : F .shadows = true) (h_ver : F .ver = true) (h_gates : F .gates = true) (h_tests : F .tests = true) (h_links : F .links = true) (h_linkTimes : F .linkTimes = true) (h_servo : F .servo = true) (h_eth : F .eth = true) (h_fw : F .fw = true) (h_cal : F .cal = true) (h_free : F .free = true) (h_salts : F .salts = true) (h : Same F s t) : Same F s (answer a0 a1 t).2.2 := by
  unfold answer
  repeat' (first | with_reducible assumption | with_reducible refine writeRule_same h_regs h_parts h_tim h_owed h_strs h_closes h_bobs h_wports h_rport h_adopts h_exempt h_refused h_heds h_counts h_hedGovs h_reedGovs h_gov h_trd h_stop h_hedStops h_key h_wits h_cards h_shadows h_ver h_gates h_tests h_links h_linkTimes h_servo h_eth h_fw h_cal h_free h_salts ?_ | with_reducible refine readWord_same h_regs h_parts h_trd h_key h_tests h_cal ?_ | with_reducible refine readWord_same h_regs h_parts h_trd h_key h_tests h_cal ?_ _ _ (by assumption) | split)

theorem answer_same_eq {F : Fld → Bool} {s t : State} {a0 : Access} {a1 : BitVec 8} (h_regs : F .regs = true) (h_parts : F .parts = true) (h_tim : F .tim = true) (h_owed : F .owed = true) (h_strs : F .strs = true) (h_closes : F .closes = true) (h_bobs : F .bobs = true) (h_wports : F .wports = true) (h_rport : F .rport = true) (h_adopts : F .adopts = true) (h_exempt : F .exempt = true) (h_refused : F .refused = true) (h_heds : F .heds = true) (h_counts : F .counts = true) (h_hedGovs : F .hedGovs = true) (h_reedGovs : F .reedGovs = true) (h_gov : F .gov = true) (h_trd : F .trd = true) (h_stop : F .stop = true) (h_hedStops : F .hedStops = true) (h_key : F .key = true) (h_wits : F .wits = true) (h_cards : F .cards = true) (h_shadows : F .shadows = true) (h_ver : F .ver = true) (h_gates : F .gates = true) (h_tests : F .tests = true) (h_links : F .links = true) (h_linkTimes : F .linkTimes = true) (h_servo : F .servo = true) (h_eth : F .eth = true) (h_fw : F .fw = true) (h_cal : F .cal = true) (h_free : F .free = true) (h_salts : F .salts = true) {x y} {u : State} (e : answer a0 a1 t = (x, y, u)) (h : Same F s t) : Same F s u := by
  have := answer_same (F := F) (s := s) (t := t) (a0 := a0) (a1 := a1) h_regs h_parts h_tim h_owed h_strs h_closes h_bobs h_wports h_rport h_adopts h_exempt h_refused h_heds h_counts h_hedGovs h_reedGovs h_gov h_trd h_stop h_hedStops h_key h_wits h_cards h_shadows h_ver h_gates h_tests h_links h_linkTimes h_servo h_eth h_fw h_cal h_free h_salts h
  rw [e] at this; exact this

theorem reject_same {F : Fld → Bool} {s t : State} {a0 : Access} {a1 : Nat} (h_regs : F .regs = true) (h_parts : F .parts = true) (h_trd : F .trd = true) (h : Same F s t) : Same F s (reject a0 a1 t) := by
  unfold reject
  repeat' (first | with_reducible assumption | with_reducible refine bump_same h_regs ?_ | with_reducible refine regPut_same h_regs ?_ | with_reducible refine askAudit_same h_parts ?_ | with_reducible refine setErr_same h_regs h_trd ?_ | with_reducible refine Same.ite ?_ ?_)

theorem answered_same {F : Fld → Bool} {s t : State} {a0 : Access} {a1 : BitVec 8} (h_regs : F .regs = true) (h_parts : F .parts = true) (h_tim : F .tim = true) (h_owed : F .owed = true) (h_strs : F .strs = true) (h_closes : F .closes = true) (h_bobs : F .bobs = true) (h_wports : F .wports = true) (h_rport : F .rport = true) (h_adopts : F .adopts = true) (h_exempt : F .exempt = true) (h_refused : F .refused = true) (h_heds : F .heds = true) (h_counts : F .counts = true) (h_hedGovs : F .hedGovs = true) (h_reedGovs : F .reedGovs = true) (h_gov : F .gov = true) (h_trd : F .trd = true) (h_stop : F .stop = true) (h_hedStops : F .hedStops = true) (h_key : F .key = true) (h_wits : F .wits = true) (h_cards : F .cards = true) (h_shadows : F .shadows = true) (h_ver : F .ver = true) (h_gates : F .gates = true) (h_tests : F .tests = true) (h_links : F .links = true) (h_linkTimes : F .linkTimes = true) (h_servo : F .servo = true) (h_eth : F .eth = true) (h_fw : F .fw = true) (h_cal : F .cal = true) (h_free : F .free = true) (h_salts : F .salts = true) (h : Same F s t) : Same F s (answered a0 a1 t).2.2 := by
  dsimp only [answered]
  repeat' (first | with_reducible assumption | with_reducible refine answer_same h_regs h_parts h_tim h_owed h_strs h_closes h_bobs h_wports h_rport h_adopts h_exempt h_refused h_heds h_counts h_hedGovs h_reedGovs h_gov h_trd h_stop h_hedStops h_key h_wits h_cards h_shadows h_ver h_gates h_tests h_links h_linkTimes h_servo h_eth h_fw h_cal h_free h_salts ?_ | with_reducible refine pageFirst_same h_regs h_parts h_tim h_strs h_closes h_exempt h_refused h_heds h_counts h_hedGovs h_reedGovs h_trd h_stop h_hedStops h_key h_wits h_ver h_gates h_tests h_links h_free ?_ | with_reducible refine reject_same h_regs h_parts h_trd ?_ | with_reducible refine Same.ite ?_ ?_)

theorem answered_same_eq {F : Fld → Bool} {s t : State} {a0 : Access} {a1 : BitVec 8} (h_regs : F .regs = true) (h_parts : F .parts = true) (h_tim : F .tim = true) (h_owed : F .owed = true) (h_strs : F .strs = true) (h_closes : F .closes = true) (h_bobs : F .bobs = true) (h_wports : F .wports = true) (h_rport : F .rport = true) (h_adopts : F .adopts = true) (h_exempt : F .exempt = true) (h_refused : F .refused = true) (h_heds : F .heds = true) (h_counts : F .counts = true) (h_hedGovs : F .hedGovs = true) (h_reedGovs : F .reedGovs = true) (h_gov : F .gov = true) (h_trd : F .trd = true) (h_stop : F .stop = true) (h_hedStops : F .hedStops = true) (h_key : F .key = true) (h_wits : F .wits = true) (h_cards : F .cards = true) (h_shadows : F .shadows = true) (h_ver : F .ver = true) (h_gates : F .gates = true) (h_tests : F .tests = true) (h_links : F .links = true) (h_linkTimes : F .linkTimes = true) (h_servo : F .servo = true) (h_eth : F .eth = true) (h_fw : F .fw = true) (h_cal : F .cal = true) (h_free : F .free = true) (h_salts : F .salts = true) {x y} {u : State} (e : answered a0 a1 t = (x, y, u)) (h : Same F s t) : Same F s u := by
  have := answered_same (F := F) (s := s) (t := t) (a0 := a0) (a1 := a1) h_regs h_parts h_tim h_owed h_strs h_closes h_bobs h_wports h_rport h_adopts h_exempt h_refused h_heds h_counts h_hedGovs h_reedGovs h_gov h_trd h_stop h_hedStops h_key h_wits h_cards h_shadows h_ver h_gates h_tests h_links h_linkTimes h_servo h_eth h_fw h_cal h_free h_salts h
  rw [e] at this; exact this

theorem serve_same {F : Fld → Bool} {s t : State} {a0 : Access} (h_port : F .port = true) (h_regs : F .regs = true) (h_parts : F .parts = true) (h_tim : F .tim = true) (h_owed : F .owed = true) (h_strs : F .strs = true) (h_closes : F .closes = true) (h_bobs : F .bobs = true) (h_wports : F .wports = true) (h_rport : F .rport = true) (h_adopts : F .adopts = true) (h_exempt : F .exempt = true) (h_refused : F .refused = true) (h_heds : F .heds = true) (h_counts : F .counts = true) (h_hedGovs : F .hedGovs = true) (h_reedGovs : F .reedGovs = true) (h_gov : F .gov = true) (h_trd : F .trd = true) (h_stop : F .stop = true) (h_hedStops : F .hedStops = true) (h_key : F .key = true) (h_wits : F .wits = true) (h_cards : F .cards = true) (h_shadows : F .shadows = true) (h_ver : F .ver = true) (h_gates : F .gates = true) (h_tests : F .tests = true) (h_links : F .links = true) (h_linkTimes : F .linkTimes = true) (h_servo : F .servo = true) (h_eth : F .eth = true) (h_fw : F .fw = true) (h_cal : F .cal = true) (h_free : F .free = true) (h_salts : F .salts = true) (h : Same F s t) : Same F s (serve a0 t) := by
  dsimp only [serve]
  repeat' (first | with_reducible assumption | with_reducible refine answered_same h_regs h_parts h_tim h_owed h_strs h_closes h_bobs h_wports h_rport h_adopts h_exempt h_refused h_heds h_counts h_hedGovs h_reedGovs h_gov h_trd h_stop h_hedStops h_key h_wits h_cards h_shadows h_ver h_gates h_tests h_links h_linkTimes h_servo h_eth h_fw h_cal h_free h_salts ?_ | with_reducible refine Same.set_port h_port ?_)

theorem portAccess_same {F : Fld → Bool} {s t : State} {a0 : Access} (h_port : F .port = true) (h_regs : F .regs = true) (h_parts : F .parts = true) (h_tim : F .tim = true) (h_owed : F .owed = true) (h_strs : F .strs = true) (h_closes : F .closes = true) (h_bobs : F .bobs = true) (h_wports : F .wports = true) (h_rport : F .rport = true) (h_adopts : F .adopts = true) (h_exempt : F .exempt = true) (h_refused : F .refused = true) (h_heds : F .heds = true) (h_counts : F .counts = true) (h_hedGovs : F .hedGovs = true) (h_reedGovs : F .reedGovs = true) (h_gov : F .gov = true) (h_trd : F .trd = true) (h_stop : F .stop = true) (h_hedStops : F .hedStops = true) (h_key : F .key = true) (h_wits : F .wits = true) (h_cards : F .cards = true) (h_shadows : F .shadows = true) (h_ver : F .ver = true) (h_gates : F .gates = true) (h_tests : F .tests = true) (h_links : F .links = true) (h_linkTimes : F .linkTimes = true) (h_servo : F .servo = true) (h_eth : F .eth = true) (h_fw : F .fw = true) (h_cal : F .cal = true) (h_free : F .free = true) (h_salts : F .salts = true) (h : Same F s t) : Same F s (portAccess a0 t) := by
  unfold portAccess
  repeat' (first | with_reducible assumption | with_reducible refine serve_same h_port h_regs h_parts h_tim h_owed h_strs h_closes h_bobs h_wports h_rport h_adopts h_exempt h_refused h_heds h_counts h_hedGovs h_reedGovs h_gov h_trd h_stop h_hedStops h_key h_wits h_cards h_shadows h_ver h_gates h_tests h_links h_linkTimes h_servo h_eth h_fw h_cal h_free h_salts ?_ | with_reducible refine bump_same h_regs ?_ | with_reducible refine setPortErr_same h_regs h_trd ?_ | split | with_reducible refine Same.set_port h_port ?_)

theorem servePrst_same {F : Fld → Bool} {s t : State} {a0 : Nat} (h_port : F .port = true) (h_regs : F .regs = true) (h_parts : F .parts = true) (h_tim : F .tim = true) (h_owed : F .owed = true) (h_strs : F .strs = true) (h_closes : F .closes = true) (h_bobs : F .bobs = true) (h_wports : F .wports = true) (h_rport : F .rport = true) (h_adopts : F .adopts = true) (h_exempt : F .exempt = true) (h_refused : F .refused = true) (h_heds : F .heds = true) (h_counts : F .counts = true) (h_hedGovs : F .hedGovs = true) (h_reedGovs : F .reedGovs = true) (h_gov : F .gov = true) (h_trd : F .trd = true) (h_stop : F .stop = true) (h_hedStops : F .hedStops = true) (h_key : F .key = true) (h_wits : F .wits = true) (h_cards : F .cards = true) (h_shadows : F .shadows = true) (h_ver : F .ver = true) (h_gates : F .gates = true) (h_tests : F .tests = true) (h_links : F .links = true) (h_linkTimes : F .linkTimes = true) (h_servo : F .servo = true) (h_eth : F .eth = true) (h_fw : F .fw = true) (h_cal : F .cal = true) (h_free : F .free = true) (h_salts : F .salts = true) (h : Same F s t) : Same F s (servePrst a0 t) := by
  unfold servePrst
  repeat' (first | with_reducible assumption | with_reducible refine answered_same h_regs h_parts h_tim h_owed h_strs h_closes h_bobs h_wports h_rport h_adopts h_exempt h_refused h_heds h_counts h_hedGovs h_reedGovs h_gov h_trd h_stop h_hedStops h_key h_wits h_cards h_shadows h_ver h_gates h_tests h_links h_linkTimes h_servo h_eth h_fw h_cal h_free h_salts ?_ | (extract_lets +onlyGivenNames x; refine (fun (hx : Same F s x.2.2) => ?_) ?_; rotate_left; dsimp only [x]; clear x; rotate_right; clear_value x) | with_reducible refine Same.set_port h_port ?_)

theorem partResetPort_same {F : Fld → Bool} {s t : State} {a0 : Nat} (h_port : F .port = true) (h_regs : F .regs = true) (h_parts : F .parts = true) (h_tim : F .tim = true) (h_owed : F .owed = true) (h_strs : F .strs = true) (h_closes : F .closes = true) (h_bobs : F .bobs = true) (h_wports : F .wports = true) (h_rport : F .rport = true) (h_adopts : F .adopts = true) (h_exempt : F .exempt = true) (h_refused : F .refused = true) (h_heds : F .heds = true) (h_counts : F .counts = true) (h_hedGovs : F .hedGovs = true) (h_reedGovs : F .reedGovs = true) (h_gov : F .gov = true) (h_trd : F .trd = true) (h_stop : F .stop = true) (h_hedStops : F .hedStops = true) (h_key : F .key = true) (h_wits : F .wits = true) (h_cards : F .cards = true) (h_shadows : F .shadows = true) (h_ver : F .ver = true) (h_gates : F .gates = true) (h_tests : F .tests = true) (h_links : F .links = true) (h_linkTimes : F .linkTimes = true) (h_servo : F .servo = true) (h_eth : F .eth = true) (h_fw : F .fw = true) (h_cal : F .cal = true) (h_free : F .free = true) (h_salts : F .salts = true) (h : Same F s t) : Same F s (partResetPort a0 t) := by
  dsimp only [partResetPort]
  repeat' (first | with_reducible assumption | with_reducible refine servePrst_same h_port h_regs h_parts h_tim h_owed h_strs h_closes h_bobs h_wports h_rport h_adopts h_exempt h_refused h_heds h_counts h_hedGovs h_reedGovs h_gov h_trd h_stop h_hedStops h_key h_wits h_cards h_shadows h_ver h_gates h_tests h_links h_linkTimes h_servo h_eth h_fw h_cal h_free h_salts ?_ | split | with_reducible refine Same.set_port h_port ?_)

theorem regOverlap_same {F : Fld → Bool} {s t : State}  (h_regs : F .regs = true) (h_trd : F .trd = true) (h : Same F s t) : Same F s (regOverlap t) := by
  unfold regOverlap
  repeat' (first | with_reducible assumption | with_reducible refine bump_same h_regs ?_ | with_reducible refine setPortErr_same h_regs h_trd ?_)

theorem action_same {F : Fld → Bool} {s t : State} {a0 : Nat} {a1 : Nat} {a2 : Option (BitVec 32)} (h_port : F .port = true) (h_regs : F .regs = true) (h_parts : F .parts = true) (h_tim : F .tim = true) (h_owed : F .owed = true) (h_strs : F .strs = true) (h_closes : F .closes = true) (h_bobs : F .bobs = true) (h_wports : F .wports = true) (h_rport : F .rport = true) (h_adopts : F .adopts = true) (h_exempt : F .exempt = true) (h_refused : F .refused = true) (h_heds : F .heds = true) (h_counts : F .counts = true) (h_hedGovs : F .hedGovs = true) (h_reedGovs : F .reedGovs = true) (h_gov : F .gov = true) (h_trd : F .trd = true) (h_stop : F .stop = true) (h_hedStops : F .hedStops = true) (h_key : F .key = true) (h_wits : F .wits = true) (h_cards : F .cards = true) (h_shadows : F .shadows = true) (h_ver : F .ver = true) (h_gates : F .gates = true) (h_tests : F .tests = true) (h_links : F .links = true) (h_linkTimes : F .linkTimes = true) (h_servo : F .servo = true) (h_eth : F .eth = true) (h_fw : F .fw = true) (h_cal : F .cal = true) (h_free : F .free = true) (h_salts : F .salts = true) (h : Same F s t) : Same F s (action a0 a1 a2 t) := by
  unfold action
  repeat' (first | with_reducible assumption | with_reducible refine portAccess_same h_port h_regs h_parts h_tim h_owed h_strs h_closes h_bobs h_wports h_rport h_adopts h_exempt h_refused h_heds h_counts h_hedGovs h_reedGovs h_gov h_trd h_stop h_hedStops h_key h_wits h_cards h_shadows h_ver h_gates h_tests h_links h_linkTimes h_servo h_eth h_fw h_cal h_free h_salts ?_)

theorem advance_same {F : Fld → Bool} {s t : State} {a0 : Nat} (h_tim : F .tim = true) (h_ver : F .ver = true) (h_raw : F .raw = true) (h : Same F s t) : Same F s (advance a0 t) := by
  unfold advance
  have h1 : Same F s { t with tim := newTime a0 t } := by
    intro f hf; cases f <;> first | exact h _ hf | simp_all
  dsimp only
  split
  · exact h1
  · exact settleFrom_same h_ver h1

theorem ownerChange_same {F : Fld → Bool} {s t : State} {a0 : Nat} (h_regs : F .regs = true) (h_trd : F .trd = true) (h_ver : F .ver = true) (h : Same F s t) : Same F s (ownerChange a0 t) := by
  unfold ownerChange
  repeat' (first | with_reducible assumption | with_reducible refine raise_same h_regs h_trd ?_ | with_reducible refine updVer_same h_ver ?_ | with_reducible refine Same.ite ?_ ?_)

theorem endLapses_same {F : Fld → Bool} {s t : State}  (h_lapsed : F .lapsed = true) (h : Same F s t) : Same F s (endLapses t) := by
  unfold endLapses
  repeat' (first | with_reducible assumption | with_reducible refine Same.set_lapsed h_lapsed ?_)

theorem finish_same {F : Fld → Bool} {s t : State} {a0 : Nat} (h_workHeld : F .workHeld = true) (h_regs : F .regs = true) (h_rport : F .rport = true) (h_adopts : F .adopts = true) (h_trd : F .trd = true) (h_lapsed : F .lapsed = true) (h_ver : F .ver = true) (h_tests : F .tests = true) (h : Same F s t) : Same F s (finish a0 t) := by
  unfold finish
  repeat' (first | with_reducible assumption | with_reducible refine settleReads_same h_rport h_adopts ?_ | with_reducible refine freezeTests_same h_tests ?_ | with_reducible refine ownerChange_same h_regs h_trd h_ver ?_ | with_reducible refine endLapses_same h_lapsed ?_ | with_reducible refine settleEpochs_same h_ver ?_ | with_reducible refine Same.ite ?_ ?_ | with_reducible refine Same.set_workHeld h_workHeld ?_)

theorem issueCaptured_same {F : Fld → Bool} {s t : State} {a0 : Nat} {a1 : Issue} (h_regs : F .regs = true) (h_heds : F .heds = true) (h_counts : F .counts = true) (h_trd : F .trd = true) (h_tests : F .tests = true) (h : Same F s t) : Same F s (issueCaptured a0 a1 t) := by
  unfold issueCaptured
  repeat' (first | with_reducible assumption | with_reducible refine updHed_same h_heds ?_ | with_reducible refine issueItem_same h_regs h_heds h_counts h_trd ?_ | with_reducible refine captureLost_same h_regs h_trd ?_ | with_reducible refine testMarker_same h_regs h_trd h_tests ?_ | with_reducible refine Same.ite ?_ ?_)

theorem retireCaptured_same {F : Fld → Bool} {s t : State} {a0 : Nat} {a1 : Retire} (h_regs : F .regs = true) (h_heds : F .heds = true) (h_trd : F .trd = true) (h : Same F s t) : Same F s (retireCaptured a0 a1 t) := by
  unfold retireCaptured
  repeat' (first | with_reducible assumption | with_reducible refine updHed_same h_heds ?_ | with_reducible refine retireItem_same h_regs h_heds h_trd ?_ | with_reducible refine captureLost_same h_regs h_trd ?_ | with_reducible refine Same.ite ?_ ?_)

theorem govStart_same {F : Fld → Bool} {s t : State}  (h_regs : F .regs = true) (h_strs : F .strs = true) (h_closes : F .closes = true) (h_exempt : F .exempt = true) (h_refused : F .refused = true) (h_heds : F .heds = true) (h_counts : F .counts = true) (h_hedGovs : F .hedGovs = true) (h_reedGovs : F .reedGovs = true) (h_gov : F .gov = true) (h_trd : F .trd = true) (h_stop : F .stop = true) (h_key : F .key = true) (h_wits : F .wits = true) (h_ver : F .ver = true) (h_tests : F .tests = true) (h_free : F .free = true) (h : Same F s t) : Same F s (govStart t) := by
  unfold govStart
  repeat' (first | with_reducible assumption | with_reducible refine admitWaiting_same h_regs h_strs h_closes h_exempt h_refused h_reedGovs h_gov h_trd h_stop h_key h_wits h_ver h_tests h_free ?_ | with_reducible refine waitingDemand_same h_reedGovs ?_ | with_reducible refine windowStart_same h_regs h_strs h_closes h_exempt h_refused h_heds h_hedGovs h_reedGovs h_gov h_trd h_key ?_ | with_reducible refine settleHed_same h_regs h_strs h_closes h_exempt h_heds h_counts h_hedGovs h_reedGovs h_trd h_key ?_ | with_reducible refine foldl_same (fun _ _ _ => ?_) ?_ | with_reducible refine Same.ite ?_ ?_)

theorem flushExpiry_same {F : Fld → Bool} {s t : State} {a0 : Nat} (h_regs : F .regs = true) (h_strs : F .strs = true) (h_closes : F .closes = true) (h_exempt : F .exempt = true) (h_refused : F .refused = true) (h_heds : F .heds = true) (h_counts : F .counts = true) (h_hedGovs : F .hedGovs = true) (h_reedGovs : F .reedGovs = true) (h_trd : F .trd = true) (h_stop : F .stop = true) (h_key : F .key = true) (h_wits : F .wits = true) (h_ver : F .ver = true) (h_tests : F .tests = true) (h_links : F .links = true) (h_free : F .free = true) (h : Same F s t) : Same F s (flushExpiry a0 t) := by
  unfold flushExpiry
  repeat' (first | with_reducible assumption | with_reducible refine settleWriter_same h_regs h_strs h_closes h_exempt h_refused h_heds h_counts h_hedGovs h_reedGovs h_trd h_stop h_key h_wits h_ver h_tests h_links h_free ?_ | with_reducible refine closeRun_same h_strs h_closes ?_ | (extract_lets +onlyGivenNames x; refine (fun (hx : Same F s x) => ?_) ?_; rotate_left; dsimp only [x]; clear x; rotate_right; clear_value x) | split)

theorem filterElapsed_same {F : Fld → Bool} {s t : State} {a0 : Nat} (h_regs : F .regs = true) (h_trd : F .trd = true) (h : Same F s t) : Same F s (filterElapsed a0 t) := by
  unfold filterElapsed
  repeat' (first | with_reducible assumption | with_reducible refine settle_same h_regs h_trd ?_ | with_reducible refine acceptLevel_same h_regs h_trd ?_ | split)

theorem coalesceElapsed_same {F : Fld → Bool} {s t : State} {a0 : Nat} (h_regs : F .regs = true) (h_trd : F .trd = true) (h : Same F s t) : Same F s (coalesceElapsed a0 t) := by
  unfold coalesceElapsed
  repeat' (first | with_reducible assumption | with_reducible refine settle_same h_regs h_trd ?_ | with_reducible refine srcBatch_same h_trd ?_ | with_reducible refine Same.ite ?_ ?_)

theorem latchWakes_same {F : Fld → Bool} {s t : State} {a0 : Nat} (h_regs : F .regs = true) (h_trd : F .trd = true) (h : Same F s t) : Same F s (latchWakes a0 t) := by
  unfold latchWakes
  repeat' (first | with_reducible assumption | with_reducible refine wakeUp_same h_regs h_trd ?_ | split)

end Sys2Proof.Laws
end

