-- ==== Sys2Proof/Laws/Frames.lean ====
section
/-! SUPPORT. The fields that the shared operations leave alone, as rewriting rules: each follows from the footprint of the operation. -/

namespace Sys2Proof.Laws

open Sys2Proof.Machine Sys2Proof.Safety

/-! ### bump -/

theorem bump_foot (s : State) (a1 : Nat) (a2 : Nat) (a3 : Nat) (a4 : Nat) (a5 : Nat) : Same (fun f => [Fld.regs].contains f) s (bump s a1 a2 a3 a4 a5) :=
  bump_same rfl (Same.refl _ _)

@[simp] theorem bump_pending (s : State) (a1 : Nat) (a2 : Nat) (a3 : Nat) (a4 : Nat) (a5 : Nat) : (bump s a1 a2 a3 a4 a5).pending = s.pending := Same.get (f := .pending) (bump_foot s a1 a2 a3 a4 a5) rfl
@[simp] theorem bump_inst (s : State) (a1 : Nat) (a2 : Nat) (a3 : Nat) (a4 : Nat) (a5 : Nat) : (bump s a1 a2 a3 a4 a5).inst = s.inst := Same.get (f := .inst) (bump_foot s a1 a2 a3 a4 a5) rfl
@[simp] theorem bump_ready (s : State) (a1 : Nat) (a2 : Nat) (a3 : Nat) (a4 : Nat) (a5 : Nat) : (bump s a1 a2 a3 a4 a5).ready = s.ready := Same.get (f := .ready) (bump_foot s a1 a2 a3 a4 a5) rfl
@[simp] theorem bump_booting (s : State) (a1 : Nat) (a2 : Nat) (a3 : Nat) (a4 : Nat) (a5 : Nat) : (bump s a1 a2 a3 a4 a5).booting = s.booting := Same.get (f := .booting) (bump_foot s a1 a2 a3 a4 a5) rfl
@[simp] theorem bump_workHeld (s : State) (a1 : Nat) (a2 : Nat) (a3 : Nat) (a4 : Nat) (a5 : Nat) : (bump s a1 a2 a3 a4 a5).workHeld = s.workHeld := Same.get (f := .workHeld) (bump_foot s a1 a2 a3 a4 a5) rfl
@[simp] theorem bump_port (s : State) (a1 : Nat) (a2 : Nat) (a3 : Nat) (a4 : Nat) (a5 : Nat) : (bump s a1 a2 a3 a4 a5).port = s.port := Same.get (f := .port) (bump_foot s a1 a2 a3 a4 a5) rfl
@[simp] theorem bump_parts (s : State) (a1 : Nat) (a2 : Nat) (a3 : Nat) (a4 : Nat) (a5 : Nat) : (bump s a1 a2 a3 a4 a5).parts = s.parts := Same.get (f := .parts) (bump_foot s a1 a2 a3 a4 a5) rfl
@[simp] theorem bump_audit (s : State) (a1 : Nat) (a2 : Nat) (a3 : Nat) (a4 : Nat) (a5 : Nat) : (bump s a1 a2 a3 a4 a5).audit = s.audit := Same.get (f := .audit) (bump_foot s a1 a2 a3 a4 a5) rfl
@[simp] theorem bump_tim (s : State) (a1 : Nat) (a2 : Nat) (a3 : Nat) (a4 : Nat) (a5 : Nat) : (bump s a1 a2 a3 a4 a5).tim = s.tim := Same.get (f := .tim) (bump_foot s a1 a2 a3 a4 a5) rfl
@[simp] theorem bump_owed (s : State) (a1 : Nat) (a2 : Nat) (a3 : Nat) (a4 : Nat) (a5 : Nat) : (bump s a1 a2 a3 a4 a5).owed = s.owed := Same.get (f := .owed) (bump_foot s a1 a2 a3 a4 a5) rfl
@[simp] theorem bump_strs (s : State) (a1 : Nat) (a2 : Nat) (a3 : Nat) (a4 : Nat) (a5 : Nat) : (bump s a1 a2 a3 a4 a5).strs = s.strs := Same.get (f := .strs) (bump_foot s a1 a2 a3 a4 a5) rfl
@[simp] theorem bump_closes (s : State) (a1 : Nat) (a2 : Nat) (a3 : Nat) (a4 : Nat) (a5 : Nat) : (bump s a1 a2 a3 a4 a5).closes = s.closes := Same.get (f := .closes) (bump_foot s a1 a2 a3 a4 a5) rfl
@[simp] theorem bump_bobs (s : State) (a1 : Nat) (a2 : Nat) (a3 : Nat) (a4 : Nat) (a5 : Nat) : (bump s a1 a2 a3 a4 a5).bobs = s.bobs := Same.get (f := .bobs) (bump_foot s a1 a2 a3 a4 a5) rfl
@[simp] theorem bump_wports (s : State) (a1 : Nat) (a2 : Nat) (a3 : Nat) (a4 : Nat) (a5 : Nat) : (bump s a1 a2 a3 a4 a5).wports = s.wports := Same.get (f := .wports) (bump_foot s a1 a2 a3 a4 a5) rfl
@[simp] theorem bump_rport (s : State) (a1 : Nat) (a2 : Nat) (a3 : Nat) (a4 : Nat) (a5 : Nat) : (bump s a1 a2 a3 a4 a5).rport = s.rport := Same.get (f := .rport) (bump_foot s a1 a2 a3 a4 a5) rfl
@[simp] theorem bump_adopts (s : State) (a1 : Nat) (a2 : Nat) (a3 : Nat) (a4 : Nat) (a5 : Nat) : (bump s a1 a2 a3 a4 a5).adopts = s.adopts := Same.get (f := .adopts) (bump_foot s a1 a2 a3 a4 a5) rfl
@[simp] theorem bump_exempt (s : State) (a1 : Nat) (a2 : Nat) (a3 : Nat) (a4 : Nat) (a5 : Nat) : (bump s a1 a2 a3 a4 a5).exempt = s.exempt := Same.get (f := .exempt) (bump_foot s a1 a2 a3 a4 a5) rfl
@[simp] theorem bump_refused (s : State) (a1 : Nat) (a2 : Nat) (a3 : Nat) (a4 : Nat) (a5 : Nat) : (bump s a1 a2 a3 a4 a5).refused = s.refused := Same.get (f := .refused) (bump_foot s a1 a2 a3 a4 a5) rfl
@[simp] theorem bump_heds (s : State) (a1 : Nat) (a2 : Nat) (a3 : Nat) (a4 : Nat) (a5 : Nat) : (bump s a1 a2 a3 a4 a5).heds = s.heds := Same.get (f := .heds) (bump_foot s a1 a2 a3 a4 a5) rfl
@[simp] theorem bump_counts (s : State) (a1 : Nat) (a2 : Nat) (a3 : Nat) (a4 : Nat) (a5 : Nat) : (bump s a1 a2 a3 a4 a5).counts = s.counts := Same.get (f := .counts) (bump_foot s a1 a2 a3 a4 a5) rfl
@[simp] theorem bump_hedGovs (s : State) (a1 : Nat) (a2 : Nat) (a3 : Nat) (a4 : Nat) (a5 : Nat) : (bump s a1 a2 a3 a4 a5).hedGovs = s.hedGovs := Same.get (f := .hedGovs) (bump_foot s a1 a2 a3 a4 a5) rfl
@[simp] theorem bump_reedGovs (s : State) (a1 : Nat) (a2 : Nat) (a3 : Nat) (a4 : Nat) (a5 : Nat) : (bump s a1 a2 a3 a4 a5).reedGovs = s.reedGovs := Same.get (f := .reedGovs) (bump_foot s a1 a2 a3 a4 a5) rfl
@[simp] theorem bump_gov (s : State) (a1 : Nat) (a2 : Nat) (a3 : Nat) (a4 : Nat) (a5 : Nat) : (bump s a1 a2 a3 a4 a5).gov = s.gov := Same.get (f := .gov) (bump_foot s a1 a2 a3 a4 a5) rfl
@[simp] theorem bump_trd (s : State) (a1 : Nat) (a2 : Nat) (a3 : Nat) (a4 : Nat) (a5 : Nat) : (bump s a1 a2 a3 a4 a5).trd = s.trd := Same.get (f := .trd) (bump_foot s a1 a2 a3 a4 a5) rfl
@[simp] theorem bump_stop (s : State) (a1 : Nat) (a2 : Nat) (a3 : Nat) (a4 : Nat) (a5 : Nat) : (bump s a1 a2 a3 a4 a5).stop = s.stop := Same.get (f := .stop) (bump_foot s a1 a2 a3 a4 a5) rfl
@[simp] theorem bump_hedStops (s : State) (a1 : Nat) (a2 : Nat) (a3 : Nat) (a4 : Nat) (a5 : Nat) : (bump s a1 a2 a3 a4 a5).hedStops = s.hedStops := Same.get (f := .hedStops) (bump_foot s a1 a2 a3 a4 a5) rfl
@[simp] theorem bump_key (s : State) (a1 : Nat) (a2 : Nat) (a3 : Nat) (a4 : Nat) (a5 : Nat) : (bump s a1 a2 a3 a4 a5).key = s.key := Same.get (f := .key) (bump_foot s a1 a2 a3 a4 a5) rfl
@[simp] theorem bump_wits (s : State) (a1 : Nat) (a2 : Nat) (a3 : Nat) (a4 : Nat) (a5 : Nat) : (bump s a1 a2 a3 a4 a5).wits = s.wits := Same.get (f := .wits) (bump_foot s a1 a2 a3 a4 a5) rfl
@[simp] theorem bump_cards (s : State) (a1 : Nat) (a2 : Nat) (a3 : Nat) (a4 : Nat) (a5 : Nat) : (bump s a1 a2 a3 a4 a5).cards = s.cards := Same.get (f := .cards) (bump_foot s a1 a2 a3 a4 a5) rfl
@[simp] theorem bump_shadows (s : State) (a1 : Nat) (a2 : Nat) (a3 : Nat) (a4 : Nat) (a5 : Nat) : (bump s a1 a2 a3 a4 a5).shadows = s.shadows := Same.get (f := .shadows) (bump_foot s a1 a2 a3 a4 a5) rfl
@[simp] theorem bump_lapsed (s : State) (a1 : Nat) (a2 : Nat) (a3 : Nat) (a4 : Nat) (a5 : Nat) : (bump s a1 a2 a3 a4 a5).lapsed = s.lapsed := Same.get (f := .lapsed) (bump_foot s a1 a2 a3 a4 a5) rfl
@[simp] theorem bump_ver (s : State) (a1 : Nat) (a2 : Nat) (a3 : Nat) (a4 : Nat) (a5 : Nat) : (bump s a1 a2 a3 a4 a5).ver = s.ver := Same.get (f := .ver) (bump_foot s a1 a2 a3 a4 a5) rfl
@[simp] theorem bump_gates (s : State) (a1 : Nat) (a2 : Nat) (a3 : Nat) (a4 : Nat) (a5 : Nat) : (bump s a1 a2 a3 a4 a5).gates = s.gates := Same.get (f := .gates) (bump_foot s a1 a2 a3 a4 a5) rfl
@[simp] theorem bump_tests (s : State) (a1 : Nat) (a2 : Nat) (a3 : Nat) (a4 : Nat) (a5 : Nat) : (bump s a1 a2 a3 a4 a5).tests = s.tests := Same.get (f := .tests) (bump_foot s a1 a2 a3 a4 a5) rfl
@[simp] theorem bump_links (s : State) (a1 : Nat) (a2 : Nat) (a3 : Nat) (a4 : Nat) (a5 : Nat) : (bump s a1 a2 a3 a4 a5).links = s.links := Same.get (f := .links) (bump_foot s a1 a2 a3 a4 a5) rfl
@[simp] theorem bump_linkTimes (s : State) (a1 : Nat) (a2 : Nat) (a3 : Nat) (a4 : Nat) (a5 : Nat) : (bump s a1 a2 a3 a4 a5).linkTimes = s.linkTimes := Same.get (f := .linkTimes) (bump_foot s a1 a2 a3 a4 a5) rfl
@[simp] theorem bump_servo (s : State) (a1 : Nat) (a2 : Nat) (a3 : Nat) (a4 : Nat) (a5 : Nat) : (bump s a1 a2 a3 a4 a5).servo = s.servo := Same.get (f := .servo) (bump_foot s a1 a2 a3 a4 a5) rfl
@[simp] theorem bump_eth (s : State) (a1 : Nat) (a2 : Nat) (a3 : Nat) (a4 : Nat) (a5 : Nat) : (bump s a1 a2 a3 a4 a5).eth = s.eth := Same.get (f := .eth) (bump_foot s a1 a2 a3 a4 a5) rfl
@[simp] theorem bump_fw (s : State) (a1 : Nat) (a2 : Nat) (a3 : Nat) (a4 : Nat) (a5 : Nat) : (bump s a1 a2 a3 a4 a5).fw = s.fw := Same.get (f := .fw) (bump_foot s a1 a2 a3 a4 a5) rfl
@[simp] theorem bump_cal (s : State) (a1 : Nat) (a2 : Nat) (a3 : Nat) (a4 : Nat) (a5 : Nat) : (bump s a1 a2 a3 a4 a5).cal = s.cal := Same.get (f := .cal) (bump_foot s a1 a2 a3 a4 a5) rfl
@[simp] theorem bump_sens (s : State) (a1 : Nat) (a2 : Nat) (a3 : Nat) (a4 : Nat) (a5 : Nat) : (bump s a1 a2 a3 a4 a5).sens = s.sens := Same.get (f := .sens) (bump_foot s a1 a2 a3 a4 a5) rfl
@[simp] theorem bump_snsOn (s : State) (a1 : Nat) (a2 : Nat) (a3 : Nat) (a4 : Nat) (a5 : Nat) : (bump s a1 a2 a3 a4 a5).snsOn = s.snsOn := Same.get (f := .snsOn) (bump_foot s a1 a2 a3 a4 a5) rfl
@[simp] theorem bump_free (s : State) (a1 : Nat) (a2 : Nat) (a3 : Nat) (a4 : Nat) (a5 : Nat) : (bump s a1 a2 a3 a4 a5).free = s.free := Same.get (f := .free) (bump_foot s a1 a2 a3 a4 a5) rfl
@[simp] theorem bump_salts (s : State) (a1 : Nat) (a2 : Nat) (a3 : Nat) (a4 : Nat) (a5 : Nat) : (bump s a1 a2 a3 a4 a5).salts = s.salts := Same.get (f := .salts) (bump_foot s a1 a2 a3 a4 a5) rfl

/-! ### count -/

theorem count_foot (s : State) (a1 : Nat) (a2 : Nat) (a3 : Nat) (a4 : Nat) (a5 : Nat) : Same (fun f => [Fld.regs].contains f) s (count s a1 a2 a3 a4 a5) :=
  count_same rfl (Same.refl _ _)

@[simp] theorem count_pending (s : State) (a1 : Nat) (a2 : Nat) (a3 : Nat) (a4 : Nat) (a5 : Nat) : (count s a1 a2 a3 a4 a5).pending = s.pending := Same.get (f := .pending) (count_foot s a1 a2 a3 a4 a5) rfl
@[simp] theorem count_inst (s : State) (a1 : Nat) (a2 : Nat) (a3 : Nat) (a4 : Nat) (a5 : Nat) : (count s a1 a2 a3 a4 a5).inst = s.inst := Same.get (f := .inst) (count_foot s a1 a2 a3 a4 a5) rfl
@[simp] theorem count_ready (s : State) (a1 : Nat) (a2 : Nat) (a3 : Nat) (a4 : Nat) (a5 : Nat) : (count s a1 a2 a3 a4 a5).ready = s.ready := Same.get (f := .ready) (count_foot s a1 a2 a3 a4 a5) rfl
@[simp] theorem count_booting (s : State) (a1 : Nat) (a2 : Nat) (a3 : Nat) (a4 : Nat) (a5 : Nat) : (count s a1 a2 a3 a4 a5).booting = s.booting := Same.get (f := .booting) (count_foot s a1 a2 a3 a4 a5) rfl
@[simp] theorem count_workHeld (s : State) (a1 : Nat) (a2 : Nat) (a3 : Nat) (a4 : Nat) (a5 : Nat) : (count s a1 a2 a3 a4 a5).workHeld = s.workHeld := Same.get (f := .workHeld) (count_foot s a1 a2 a3 a4 a5) rfl
@[simp] theorem count_port (s : State) (a1 : Nat) (a2 : Nat) (a3 : Nat) (a4 : Nat) (a5 : Nat) : (count s a1 a2 a3 a4 a5).port = s.port := Same.get (f := .port) (count_foot s a1 a2 a3 a4 a5) rfl
@[simp] theorem count_parts (s : State) (a1 : Nat) (a2 : Nat) (a3 : Nat) (a4 : Nat) (a5 : Nat) : (count s a1 a2 a3 a4 a5).parts = s.parts := Same.get (f := .parts) (count_foot s a1 a2 a3 a4 a5) rfl
@[simp] theorem count_audit (s : State) (a1 : Nat) (a2 : Nat) (a3 : Nat) (a4 : Nat) (a5 : Nat) : (count s a1 a2 a3 a4 a5).audit = s.audit := Same.get (f := .audit) (count_foot s a1 a2 a3 a4 a5) rfl
@[simp] theorem count_tim (s : State) (a1 : Nat) (a2 : Nat) (a3 : Nat) (a4 : Nat) (a5 : Nat) : (count s a1 a2 a3 a4 a5).tim = s.tim := Same.get (f := .tim) (count_foot s a1 a2 a3 a4 a5) rfl
@[simp] theorem count_owed (s : State) (a1 : Nat) (a2 : Nat) (a3 : Nat) (a4 : Nat) (a5 : Nat) : (count s a1 a2 a3 a4 a5).owed = s.owed := Same.get (f := .owed) (count_foot s a1 a2 a3 a4 a5) rfl
@[simp] theorem count_strs (s : State) (a1 : Nat) (a2 : Nat) (a3 : Nat) (a4 : Nat) (a5 : Nat) : (count s a1 a2 a3 a4 a5).strs = s.strs := Same.get (f := .strs) (count_foot s a1 a2 a3 a4 a5) rfl
@[simp] theorem count_closes (s : State) (a1 : Nat) (a2 : Nat) (a3 : Nat) (a4 : Nat) (a5 : Nat) : (count s a1 a2 a3 a4 a5).closes = s.closes := Same.get (f := .closes) (count_foot s a1 a2 a3 a4 a5) rfl
@[simp] theorem count_bobs (s : State) (a1 : Nat) (a2 : Nat) (a3 : Nat) (a4 : Nat) (a5 : Nat) : (count s a1 a2 a3 a4 a5).bobs = s.bobs := Same.get (f := .bobs) (count_foot s a1 a2 a3 a4 a5) rfl
@[simp] theorem count_wports (s : State) (a1 : Nat) (a2 : Nat) (a3 : Nat) (a4 : Nat) (a5 : Nat) : (count s a1 a2 a3 a4 a5).wports = s.wports := Same.get (f := .wports) (count_foot s a1 a2 a3 a4 a5) rfl
@[simp] theorem count_rport (s : State) (a1 : Nat) (a2 : Nat) (a3 : Nat) (a4 : Nat) (a5 : Nat) : (count s a1 a2 a3 a4 a5).rport = s.rport := Same.get (f := .rport) (count_foot s a1 a2 a3 a4 a5) rfl
@[simp] theorem count_adopts (s : State) (a1 : Nat) (a2 : Nat) (a3 : Nat) (a4 : Nat) (a5 : Nat) : (count s a1 a2 a3 a4 a5).adopts = s.adopts := Same.get (f := .adopts) (count_foot s a1 a2 a3 a4 a5) rfl
@[simp] theorem count_exempt (s : State) (a1 : Nat) (a2 : Nat) (a3 : Nat) (a4 : Nat) (a5 : Nat) : (count s a1 a2 a3 a4 a5).exempt = s.exempt := Same.get (f := .exempt) (count_foot s a1 a2 a3 a4 a5) rfl
@[simp] theorem count_refused (s : State) (a1 : Nat) (a2 : Nat) (a3 : Nat) (a4 : Nat) (a5 : Nat) : (count s a1 a2 a3 a4 a5).refused = s.refused := Same.get (f := .refused) (count_foot s a1 a2 a3 a4 a5) rfl
@[simp] theorem count_heds (s : State) (a1 : Nat) (a2 : Nat) (a3 : Nat) (a4 : Nat) (a5 : Nat) : (count s a1 a2 a3 a4 a5).heds = s.heds := Same.get (f := .heds) (count_foot s a1 a2 a3 a4 a5) rfl
@[simp] theorem count_counts (s : State) (a1 : Nat) (a2 : Nat) (a3 : Nat) (a4 : Nat) (a5 : Nat) : (count s a1 a2 a3 a4 a5).counts = s.counts := Same.get (f := .counts) (count_foot s a1 a2 a3 a4 a5) rfl
@[simp] theorem count_hedGovs (s : State) (a1 : Nat) (a2 : Nat) (a3 : Nat) (a4 : Nat) (a5 : Nat) : (count s a1 a2 a3 a4 a5).hedGovs = s.hedGovs := Same.get (f := .hedGovs) (count_foot s a1 a2 a3 a4 a5) rfl
@[simp] theorem count_reedGovs (s : State) (a1 : Nat) (a2 : Nat) (a3 : Nat) (a4 : Nat) (a5 : Nat) : (count s a1 a2 a3 a4 a5).reedGovs = s.reedGovs := Same.get (f := .reedGovs) (count_foot s a1 a2 a3 a4 a5) rfl
@[simp] theorem count_gov (s : State) (a1 : Nat) (a2 : Nat) (a3 : Nat) (a4 : Nat) (a5 : Nat) : (count s a1 a2 a3 a4 a5).gov = s.gov := Same.get (f := .gov) (count_foot s a1 a2 a3 a4 a5) rfl
@[simp] theorem count_trd (s : State) (a1 : Nat) (a2 : Nat) (a3 : Nat) (a4 : Nat) (a5 : Nat) : (count s a1 a2 a3 a4 a5).trd = s.trd := Same.get (f := .trd) (count_foot s a1 a2 a3 a4 a5) rfl
@[simp] theorem count_stop (s : State) (a1 : Nat) (a2 : Nat) (a3 : Nat) (a4 : Nat) (a5 : Nat) : (count s a1 a2 a3 a4 a5).stop = s.stop := Same.get (f := .stop) (count_foot s a1 a2 a3 a4 a5) rfl
@[simp] theorem count_hedStops (s : State) (a1 : Nat) (a2 : Nat) (a3 : Nat) (a4 : Nat) (a5 : Nat) : (count s a1 a2 a3 a4 a5).hedStops = s.hedStops := Same.get (f := .hedStops) (count_foot s a1 a2 a3 a4 a5) rfl
@[simp] theorem count_key (s : State) (a1 : Nat) (a2 : Nat) (a3 : Nat) (a4 : Nat) (a5 : Nat) : (count s a1 a2 a3 a4 a5).key = s.key := Same.get (f := .key) (count_foot s a1 a2 a3 a4 a5) rfl
@[simp] theorem count_wits (s : State) (a1 : Nat) (a2 : Nat) (a3 : Nat) (a4 : Nat) (a5 : Nat) : (count s a1 a2 a3 a4 a5).wits = s.wits := Same.get (f := .wits) (count_foot s a1 a2 a3 a4 a5) rfl
@[simp] theorem count_cards (s : State) (a1 : Nat) (a2 : Nat) (a3 : Nat) (a4 : Nat) (a5 : Nat) : (count s a1 a2 a3 a4 a5).cards = s.cards := Same.get (f := .cards) (count_foot s a1 a2 a3 a4 a5) rfl
@[simp] theorem count_shadows (s : State) (a1 : Nat) (a2 : Nat) (a3 : Nat) (a4 : Nat) (a5 : Nat) : (count s a1 a2 a3 a4 a5).shadows = s.shadows := Same.get (f := .shadows) (count_foot s a1 a2 a3 a4 a5) rfl
@[simp] theorem count_lapsed (s : State) (a1 : Nat) (a2 : Nat) (a3 : Nat) (a4 : Nat) (a5 : Nat) : (count s a1 a2 a3 a4 a5).lapsed = s.lapsed := Same.get (f := .lapsed) (count_foot s a1 a2 a3 a4 a5) rfl
@[simp] theorem count_ver (s : State) (a1 : Nat) (a2 : Nat) (a3 : Nat) (a4 : Nat) (a5 : Nat) : (count s a1 a2 a3 a4 a5).ver = s.ver := Same.get (f := .ver) (count_foot s a1 a2 a3 a4 a5) rfl
@[simp] theorem count_gates (s : State) (a1 : Nat) (a2 : Nat) (a3 : Nat) (a4 : Nat) (a5 : Nat) : (count s a1 a2 a3 a4 a5).gates = s.gates := Same.get (f := .gates) (count_foot s a1 a2 a3 a4 a5) rfl
@[simp] theorem count_tests (s : State) (a1 : Nat) (a2 : Nat) (a3 : Nat) (a4 : Nat) (a5 : Nat) : (count s a1 a2 a3 a4 a5).tests = s.tests := Same.get (f := .tests) (count_foot s a1 a2 a3 a4 a5) rfl
@[simp] theorem count_links (s : State) (a1 : Nat) (a2 : Nat) (a3 : Nat) (a4 : Nat) (a5 : Nat) : (count s a1 a2 a3 a4 a5).links = s.links := Same.get (f := .links) (count_foot s a1 a2 a3 a4 a5) rfl
@[simp] theorem count_linkTimes (s : State) (a1 : Nat) (a2 : Nat) (a3 : Nat) (a4 : Nat) (a5 : Nat) : (count s a1 a2 a3 a4 a5).linkTimes = s.linkTimes := Same.get (f := .linkTimes) (count_foot s a1 a2 a3 a4 a5) rfl
@[simp] theorem count_servo (s : State) (a1 : Nat) (a2 : Nat) (a3 : Nat) (a4 : Nat) (a5 : Nat) : (count s a1 a2 a3 a4 a5).servo = s.servo := Same.get (f := .servo) (count_foot s a1 a2 a3 a4 a5) rfl
@[simp] theorem count_eth (s : State) (a1 : Nat) (a2 : Nat) (a3 : Nat) (a4 : Nat) (a5 : Nat) : (count s a1 a2 a3 a4 a5).eth = s.eth := Same.get (f := .eth) (count_foot s a1 a2 a3 a4 a5) rfl
@[simp] theorem count_fw (s : State) (a1 : Nat) (a2 : Nat) (a3 : Nat) (a4 : Nat) (a5 : Nat) : (count s a1 a2 a3 a4 a5).fw = s.fw := Same.get (f := .fw) (count_foot s a1 a2 a3 a4 a5) rfl
@[simp] theorem count_cal (s : State) (a1 : Nat) (a2 : Nat) (a3 : Nat) (a4 : Nat) (a5 : Nat) : (count s a1 a2 a3 a4 a5).cal = s.cal := Same.get (f := .cal) (count_foot s a1 a2 a3 a4 a5) rfl
@[simp] theorem count_sens (s : State) (a1 : Nat) (a2 : Nat) (a3 : Nat) (a4 : Nat) (a5 : Nat) : (count s a1 a2 a3 a4 a5).sens = s.sens := Same.get (f := .sens) (count_foot s a1 a2 a3 a4 a5) rfl
@[simp] theorem count_snsOn (s : State) (a1 : Nat) (a2 : Nat) (a3 : Nat) (a4 : Nat) (a5 : Nat) : (count s a1 a2 a3 a4 a5).snsOn = s.snsOn := Same.get (f := .snsOn) (count_foot s a1 a2 a3 a4 a5) rfl
@[simp] theorem count_free (s : State) (a1 : Nat) (a2 : Nat) (a3 : Nat) (a4 : Nat) (a5 : Nat) : (count s a1 a2 a3 a4 a5).free = s.free := Same.get (f := .free) (count_foot s a1 a2 a3 a4 a5) rfl
@[simp] theorem count_salts (s : State) (a1 : Nat) (a2 : Nat) (a3 : Nat) (a4 : Nat) (a5 : Nat) : (count s a1 a2 a3 a4 a5).salts = s.salts := Same.get (f := .salts) (count_foot s a1 a2 a3 a4 a5) rfl

/-! ### regSetFld -/

theorem regSetFld_foot (s : State) (a1 : Nat) (a2 : Nat) (a3 : Nat) (a4 : Nat) (a5 : Nat) : Same (fun f => [Fld.regs].contains f) s (regSetFld s a1 a2 a3 a4 a5) :=
  regSetFld_same rfl (Same.refl _ _)

@[simp] theorem regSetFld_pending (s : State) (a1 : Nat) (a2 : Nat) (a3 : Nat) (a4 : Nat) (a5 : Nat) : (regSetFld s a1 a2 a3 a4 a5).pending = s.pending := Same.get (f := .pending) (regSetFld_foot s a1 a2 a3 a4 a5) rfl
@[simp] theorem regSetFld_inst (s : State) (a1 : Nat) (a2 : Nat) (a3 : Nat) (a4 : Nat) (a5 : Nat) : (regSetFld s a1 a2 a3 a4 a5).inst = s.inst := Same.get (f := .inst) (regSetFld_foot s a1 a2 a3 a4 a5) rfl
@[simp] theorem regSetFld_ready (s : State) (a1 : Nat) (a2 : Nat) (a3 : Nat) (a4 : Nat) (a5 : Nat) : (regSetFld s a1 a2 a3 a4 a5).ready = s.ready := Same.get (f := .ready) (regSetFld_foot s a1 a2 a3 a4 a5) rfl
@[simp] theorem regSetFld_booting (s : State) (a1 : Nat) (a2 : Nat) (a3 : Nat) (a4 : Nat) (a5 : Nat) : (regSetFld s a1 a2 a3 a4 a5).booting = s.booting := Same.get (f := .booting) (regSetFld_foot s a1 a2 a3 a4 a5) rfl
@[simp] theorem regSetFld_workHeld (s : State) (a1 : Nat) (a2 : Nat) (a3 : Nat) (a4 : Nat) (a5 : Nat) : (regSetFld s a1 a2 a3 a4 a5).workHeld = s.workHeld := Same.get (f := .workHeld) (regSetFld_foot s a1 a2 a3 a4 a5) rfl
@[simp] theorem regSetFld_port (s : State) (a1 : Nat) (a2 : Nat) (a3 : Nat) (a4 : Nat) (a5 : Nat) : (regSetFld s a1 a2 a3 a4 a5).port = s.port := Same.get (f := .port) (regSetFld_foot s a1 a2 a3 a4 a5) rfl
@[simp] theorem regSetFld_parts (s : State) (a1 : Nat) (a2 : Nat) (a3 : Nat) (a4 : Nat) (a5 : Nat) : (regSetFld s a1 a2 a3 a4 a5).parts = s.parts := Same.get (f := .parts) (regSetFld_foot s a1 a2 a3 a4 a5) rfl
@[simp] theorem regSetFld_audit (s : State) (a1 : Nat) (a2 : Nat) (a3 : Nat) (a4 : Nat) (a5 : Nat) : (regSetFld s a1 a2 a3 a4 a5).audit = s.audit := Same.get (f := .audit) (regSetFld_foot s a1 a2 a3 a4 a5) rfl
@[simp] theorem regSetFld_tim (s : State) (a1 : Nat) (a2 : Nat) (a3 : Nat) (a4 : Nat) (a5 : Nat) : (regSetFld s a1 a2 a3 a4 a5).tim = s.tim := Same.get (f := .tim) (regSetFld_foot s a1 a2 a3 a4 a5) rfl
@[simp] theorem regSetFld_owed (s : State) (a1 : Nat) (a2 : Nat) (a3 : Nat) (a4 : Nat) (a5 : Nat) : (regSetFld s a1 a2 a3 a4 a5).owed = s.owed := Same.get (f := .owed) (regSetFld_foot s a1 a2 a3 a4 a5) rfl
@[simp] theorem regSetFld_strs (s : State) (a1 : Nat) (a2 : Nat) (a3 : Nat) (a4 : Nat) (a5 : Nat) : (regSetFld s a1 a2 a3 a4 a5).strs = s.strs := Same.get (f := .strs) (regSetFld_foot s a1 a2 a3 a4 a5) rfl
@[simp] theorem regSetFld_closes (s : State) (a1 : Nat) (a2 : Nat) (a3 : Nat) (a4 : Nat) (a5 : Nat) : (regSetFld s a1 a2 a3 a4 a5).closes = s.closes := Same.get (f := .closes) (regSetFld_foot s a1 a2 a3 a4 a5) rfl
@[simp] theorem regSetFld_bobs (s : State) (a1 : Nat) (a2 : Nat) (a3 : Nat) (a4 : Nat) (a5 : Nat) : (regSetFld s a1 a2 a3 a4 a5).bobs = s.bobs := Same.get (f := .bobs) (regSetFld_foot s a1 a2 a3 a4 a5) rfl
@[simp] theorem regSetFld_wports (s : State) (a1 : Nat) (a2 : Nat) (a3 : Nat) (a4 : Nat) (a5 : Nat) : (regSetFld s a1 a2 a3 a4 a5).wports = s.wports := Same.get (f := .wports) (regSetFld_foot s a1 a2 a3 a4 a5) rfl
@[simp] theorem regSetFld_rport (s : State) (a1 : Nat) (a2 : Nat) (a3 : Nat) (a4 : Nat) (a5 : Nat) : (regSetFld s a1 a2 a3 a4 a5).rport = s.rport := Same.get (f := .rport) (regSetFld_foot s a1 a2 a3 a4 a5) rfl
@[simp] theorem regSetFld_adopts (s : State) (a1 : Nat) (a2 : Nat) (a3 : Nat) (a4 : Nat) (a5 : Nat) : (regSetFld s a1 a2 a3 a4 a5).adopts = s.adopts := Same.get (f := .adopts) (regSetFld_foot s a1 a2 a3 a4 a5) rfl
@[simp] theorem regSetFld_exempt (s : State) (a1 : Nat) (a2 : Nat) (a3 : Nat) (a4 : Nat) (a5 : Nat) : (regSetFld s a1 a2 a3 a4 a5).exempt = s.exempt := Same.get (f := .exempt) (regSetFld_foot s a1 a2 a3 a4 a5) rfl
@[simp] theorem regSetFld_refused (s : State) (a1 : Nat) (a2 : Nat) (a3 : Nat) (a4 : Nat) (a5 : Nat) : (regSetFld s a1 a2 a3 a4 a5).refused = s.refused := Same.get (f := .refused) (regSetFld_foot s a1 a2 a3 a4 a5) rfl
@[simp] theorem regSetFld_heds (s : State) (a1 : Nat) (a2 : Nat) (a3 : Nat) (a4 : Nat) (a5 : Nat) : (regSetFld s a1 a2 a3 a4 a5).heds = s.heds := Same.get (f := .heds) (regSetFld_foot s a1 a2 a3 a4 a5) rfl
@[simp] theorem regSetFld_counts (s : State) (a1 : Nat) (a2 : Nat) (a3 : Nat) (a4 : Nat) (a5 : Nat) : (regSetFld s a1 a2 a3 a4 a5).counts = s.counts := Same.get (f := .counts) (regSetFld_foot s a1 a2 a3 a4 a5) rfl
@[simp] theorem regSetFld_hedGovs (s : State) (a1 : Nat) (a2 : Nat) (a3 : Nat) (a4 : Nat) (a5 : Nat) : (regSetFld s a1 a2 a3 a4 a5).hedGovs = s.hedGovs := Same.get (f := .hedGovs) (regSetFld_foot s a1 a2 a3 a4 a5) rfl
@[simp] theorem regSetFld_reedGovs (s : State) (a1 : Nat) (a2 : Nat) (a3 : Nat) (a4 : Nat) (a5 : Nat) : (regSetFld s a1 a2 a3 a4 a5).reedGovs = s.reedGovs := Same.get (f := .reedGovs) (regSetFld_foot s a1 a2 a3 a4 a5) rfl
@[simp] theorem regSetFld_gov (s : State) (a1 : Nat) (a2 : Nat) (a3 : Nat) (a4 : Nat) (a5 : Nat) : (regSetFld s a1 a2 a3 a4 a5).gov = s.gov := Same.get (f := .gov) (regSetFld_foot s a1 a2 a3 a4 a5) rfl
@[simp] theorem regSetFld_trd (s : State) (a1 : Nat) (a2 : Nat) (a3 : Nat) (a4 : Nat) (a5 : Nat) : (regSetFld s a1 a2 a3 a4 a5).trd = s.trd := Same.get (f := .trd) (regSetFld_foot s a1 a2 a3 a4 a5) rfl
@[simp] theorem regSetFld_stop (s : State) (a1 : Nat) (a2 : Nat) (a3 : Nat) (a4 : Nat) (a5 : Nat) : (regSetFld s a1 a2 a3 a4 a5).stop = s.stop := Same.get (f := .stop) (regSetFld_foot s a1 a2 a3 a4 a5) rfl
@[simp] theorem regSetFld_hedStops (s : State) (a1 : Nat) (a2 : Nat) (a3 : Nat) (a4 : Nat) (a5 : Nat) : (regSetFld s a1 a2 a3 a4 a5).hedStops = s.hedStops := Same.get (f := .hedStops) (regSetFld_foot s a1 a2 a3 a4 a5) rfl
@[simp] theorem regSetFld_key (s : State) (a1 : Nat) (a2 : Nat) (a3 : Nat) (a4 : Nat) (a5 : Nat) : (regSetFld s a1 a2 a3 a4 a5).key = s.key := Same.get (f := .key) (regSetFld_foot s a1 a2 a3 a4 a5) rfl
@[simp] theorem regSetFld_wits (s : State) (a1 : Nat) (a2 : Nat) (a3 : Nat) (a4 : Nat) (a5 : Nat) : (regSetFld s a1 a2 a3 a4 a5).wits = s.wits := Same.get (f := .wits) (regSetFld_foot s a1 a2 a3 a4 a5) rfl
@[simp] theorem regSetFld_cards (s : State) (a1 : Nat) (a2 : Nat) (a3 : Nat) (a4 : Nat) (a5 : Nat) : (regSetFld s a1 a2 a3 a4 a5).cards = s.cards := Same.get (f := .cards) (regSetFld_foot s a1 a2 a3 a4 a5) rfl
@[simp] theorem regSetFld_shadows (s : State) (a1 : Nat) (a2 : Nat) (a3 : Nat) (a4 : Nat) (a5 : Nat) : (regSetFld s a1 a2 a3 a4 a5).shadows = s.shadows := Same.get (f := .shadows) (regSetFld_foot s a1 a2 a3 a4 a5) rfl
@[simp] theorem regSetFld_lapsed (s : State) (a1 : Nat) (a2 : Nat) (a3 : Nat) (a4 : Nat) (a5 : Nat) : (regSetFld s a1 a2 a3 a4 a5).lapsed = s.lapsed := Same.get (f := .lapsed) (regSetFld_foot s a1 a2 a3 a4 a5) rfl
@[simp] theorem regSetFld_ver (s : State) (a1 : Nat) (a2 : Nat) (a3 : Nat) (a4 : Nat) (a5 : Nat) : (regSetFld s a1 a2 a3 a4 a5).ver = s.ver := Same.get (f := .ver) (regSetFld_foot s a1 a2 a3 a4 a5) rfl
@[simp] theorem regSetFld_gates (s : State) (a1 : Nat) (a2 : Nat) (a3 : Nat) (a4 : Nat) (a5 : Nat) : (regSetFld s a1 a2 a3 a4 a5).gates = s.gates := Same.get (f := .gates) (regSetFld_foot s a1 a2 a3 a4 a5) rfl
@[simp] theorem regSetFld_tests (s : State) (a1 : Nat) (a2 : Nat) (a3 : Nat) (a4 : Nat) (a5 : Nat) : (regSetFld s a1 a2 a3 a4 a5).tests = s.tests := Same.get (f := .tests) (regSetFld_foot s a1 a2 a3 a4 a5) rfl
@[simp] theorem regSetFld_links (s : State) (a1 : Nat) (a2 : Nat) (a3 : Nat) (a4 : Nat) (a5 : Nat) : (regSetFld s a1 a2 a3 a4 a5).links = s.links := Same.get (f := .links) (regSetFld_foot s a1 a2 a3 a4 a5) rfl
@[simp] theorem regSetFld_linkTimes (s : State) (a1 : Nat) (a2 : Nat) (a3 : Nat) (a4 : Nat) (a5 : Nat) : (regSetFld s a1 a2 a3 a4 a5).linkTimes = s.linkTimes := Same.get (f := .linkTimes) (regSetFld_foot s a1 a2 a3 a4 a5) rfl
@[simp] theorem regSetFld_servo (s : State) (a1 : Nat) (a2 : Nat) (a3 : Nat) (a4 : Nat) (a5 : Nat) : (regSetFld s a1 a2 a3 a4 a5).servo = s.servo := Same.get (f := .servo) (regSetFld_foot s a1 a2 a3 a4 a5) rfl
@[simp] theorem regSetFld_eth (s : State) (a1 : Nat) (a2 : Nat) (a3 : Nat) (a4 : Nat) (a5 : Nat) : (regSetFld s a1 a2 a3 a4 a5).eth = s.eth := Same.get (f := .eth) (regSetFld_foot s a1 a2 a3 a4 a5) rfl
@[simp] theorem regSetFld_fw (s : State) (a1 : Nat) (a2 : Nat) (a3 : Nat) (a4 : Nat) (a5 : Nat) : (regSetFld s a1 a2 a3 a4 a5).fw = s.fw := Same.get (f := .fw) (regSetFld_foot s a1 a2 a3 a4 a5) rfl
@[simp] theorem regSetFld_cal (s : State) (a1 : Nat) (a2 : Nat) (a3 : Nat) (a4 : Nat) (a5 : Nat) : (regSetFld s a1 a2 a3 a4 a5).cal = s.cal := Same.get (f := .cal) (regSetFld_foot s a1 a2 a3 a4 a5) rfl
@[simp] theorem regSetFld_sens (s : State) (a1 : Nat) (a2 : Nat) (a3 : Nat) (a4 : Nat) (a5 : Nat) : (regSetFld s a1 a2 a3 a4 a5).sens = s.sens := Same.get (f := .sens) (regSetFld_foot s a1 a2 a3 a4 a5) rfl
@[simp] theorem regSetFld_snsOn (s : State) (a1 : Nat) (a2 : Nat) (a3 : Nat) (a4 : Nat) (a5 : Nat) : (regSetFld s a1 a2 a3 a4 a5).snsOn = s.snsOn := Same.get (f := .snsOn) (regSetFld_foot s a1 a2 a3 a4 a5) rfl
@[simp] theorem regSetFld_free (s : State) (a1 : Nat) (a2 : Nat) (a3 : Nat) (a4 : Nat) (a5 : Nat) : (regSetFld s a1 a2 a3 a4 a5).free = s.free := Same.get (f := .free) (regSetFld_foot s a1 a2 a3 a4 a5) rfl
@[simp] theorem regSetFld_salts (s : State) (a1 : Nat) (a2 : Nat) (a3 : Nat) (a4 : Nat) (a5 : Nat) : (regSetFld s a1 a2 a3 a4 a5).salts = s.salts := Same.get (f := .salts) (regSetFld_foot s a1 a2 a3 a4 a5) rfl

/-! ### recordErr -/

theorem recordErr_foot (a0 : Nat) (a1 : List Nat) (s : State) : Same (fun f => [Fld.regs].contains f) s (recordErr a0 a1 s) :=
  recordErr_same rfl (Same.refl _ _)

@[simp] theorem recordErr_pending (a0 : Nat) (a1 : List Nat) (s : State) : (recordErr a0 a1 s).pending = s.pending := Same.get (f := .pending) (recordErr_foot a0 a1 s) rfl
@[simp] theorem recordErr_inst (a0 : Nat) (a1 : List Nat) (s : State) : (recordErr a0 a1 s).inst = s.inst := Same.get (f := .inst) (recordErr_foot a0 a1 s) rfl
@[simp] theorem recordErr_ready (a0 : Nat) (a1 : List Nat) (s : State) : (recordErr a0 a1 s).ready = s.ready := Same.get (f := .ready) (recordErr_foot a0 a1 s) rfl
@[simp] theorem recordErr_booting (a0 : Nat) (a1 : List Nat) (s : State) : (recordErr a0 a1 s).booting = s.booting := Same.get (f := .booting) (recordErr_foot a0 a1 s) rfl
@[simp] theorem recordErr_workHeld (a0 : Nat) (a1 : List Nat) (s : State) : (recordErr a0 a1 s).workHeld = s.workHeld := Same.get (f := .workHeld) (recordErr_foot a0 a1 s) rfl
@[simp] theorem recordErr_port (a0 : Nat) (a1 : List Nat) (s : State) : (recordErr a0 a1 s).port = s.port := Same.get (f := .port) (recordErr_foot a0 a1 s) rfl
@[simp] theorem recordErr_parts (a0 : Nat) (a1 : List Nat) (s : State) : (recordErr a0 a1 s).parts = s.parts := Same.get (f := .parts) (recordErr_foot a0 a1 s) rfl
@[simp] theorem recordErr_audit (a0 : Nat) (a1 : List Nat) (s : State) : (recordErr a0 a1 s).audit = s.audit := Same.get (f := .audit) (recordErr_foot a0 a1 s) rfl
@[simp] theorem recordErr_tim (a0 : Nat) (a1 : List Nat) (s : State) : (recordErr a0 a1 s).tim = s.tim := Same.get (f := .tim) (recordErr_foot a0 a1 s) rfl
@[simp] theorem recordErr_owed (a0 : Nat) (a1 : List Nat) (s : State) : (recordErr a0 a1 s).owed = s.owed := Same.get (f := .owed) (recordErr_foot a0 a1 s) rfl
@[simp] theorem recordErr_strs (a0 : Nat) (a1 : List Nat) (s : State) : (recordErr a0 a1 s).strs = s.strs := Same.get (f := .strs) (recordErr_foot a0 a1 s) rfl
@[simp] theorem recordErr_closes (a0 : Nat) (a1 : List Nat) (s : State) : (recordErr a0 a1 s).closes = s.closes := Same.get (f := .closes) (recordErr_foot a0 a1 s) rfl
@[simp] theorem recordErr_bobs (a0 : Nat) (a1 : List Nat) (s : State) : (recordErr a0 a1 s).bobs = s.bobs := Same.get (f := .bobs) (recordErr_foot a0 a1 s) rfl
@[simp] theorem recordErr_wports (a0 : Nat) (a1 : List Nat) (s : State) : (recordErr a0 a1 s).wports = s.wports := Same.get (f := .wports) (recordErr_foot a0 a1 s) rfl
@[simp] theorem recordErr_rport (a0 : Nat) (a1 : List Nat) (s : State) : (recordErr a0 a1 s).rport = s.rport := Same.get (f := .rport) (recordErr_foot a0 a1 s) rfl
@[simp] theorem recordErr_adopts (a0 : Nat) (a1 : List Nat) (s : State) : (recordErr a0 a1 s).adopts = s.adopts := Same.get (f := .adopts) (recordErr_foot a0 a1 s) rfl
@[simp] theorem recordErr_exempt (a0 : Nat) (a1 : List Nat) (s : State) : (recordErr a0 a1 s).exempt = s.exempt := Same.get (f := .exempt) (recordErr_foot a0 a1 s) rfl
@[simp] theorem recordErr_refused (a0 : Nat) (a1 : List Nat) (s : State) : (recordErr a0 a1 s).refused = s.refused := Same.get (f := .refused) (recordErr_foot a0 a1 s) rfl
@[simp] theorem recordErr_heds (a0 : Nat) (a1 : List Nat) (s : State) : (recordErr a0 a1 s).heds = s.heds := Same.get (f := .heds) (recordErr_foot a0 a1 s) rfl
@[simp] theorem recordErr_counts (a0 : Nat) (a1 : List Nat) (s : State) : (recordErr a0 a1 s).counts = s.counts := Same.get (f := .counts) (recordErr_foot a0 a1 s) rfl
@[simp] theorem recordErr_hedGovs (a0 : Nat) (a1 : List Nat) (s : State) : (recordErr a0 a1 s).hedGovs = s.hedGovs := Same.get (f := .hedGovs) (recordErr_foot a0 a1 s) rfl
@[simp] theorem recordErr_reedGovs (a0 : Nat) (a1 : List Nat) (s : State) : (recordErr a0 a1 s).reedGovs = s.reedGovs := Same.get (f := .reedGovs) (recordErr_foot a0 a1 s) rfl
@[simp] theorem recordErr_gov (a0 : Nat) (a1 : List Nat) (s : State) : (recordErr a0 a1 s).gov = s.gov := Same.get (f := .gov) (recordErr_foot a0 a1 s) rfl
@[simp] theorem recordErr_trd (a0 : Nat) (a1 : List Nat) (s : State) : (recordErr a0 a1 s).trd = s.trd := Same.get (f := .trd) (recordErr_foot a0 a1 s) rfl
@[simp] theorem recordErr_stop (a0 : Nat) (a1 : List Nat) (s : State) : (recordErr a0 a1 s).stop = s.stop := Same.get (f := .stop) (recordErr_foot a0 a1 s) rfl
@[simp] theorem recordErr_hedStops (a0 : Nat) (a1 : List Nat) (s : State) : (recordErr a0 a1 s).hedStops = s.hedStops := Same.get (f := .hedStops) (recordErr_foot a0 a1 s) rfl
@[simp] theorem recordErr_key (a0 : Nat) (a1 : List Nat) (s : State) : (recordErr a0 a1 s).key = s.key := Same.get (f := .key) (recordErr_foot a0 a1 s) rfl
@[simp] theorem recordErr_wits (a0 : Nat) (a1 : List Nat) (s : State) : (recordErr a0 a1 s).wits = s.wits := Same.get (f := .wits) (recordErr_foot a0 a1 s) rfl
@[simp] theorem recordErr_cards (a0 : Nat) (a1 : List Nat) (s : State) : (recordErr a0 a1 s).cards = s.cards := Same.get (f := .cards) (recordErr_foot a0 a1 s) rfl
@[simp] theorem recordErr_shadows (a0 : Nat) (a1 : List Nat) (s : State) : (recordErr a0 a1 s).shadows = s.shadows := Same.get (f := .shadows) (recordErr_foot a0 a1 s) rfl
@[simp] theorem recordErr_lapsed (a0 : Nat) (a1 : List Nat) (s : State) : (recordErr a0 a1 s).lapsed = s.lapsed := Same.get (f := .lapsed) (recordErr_foot a0 a1 s) rfl
@[simp] theorem recordErr_ver (a0 : Nat) (a1 : List Nat) (s : State) : (recordErr a0 a1 s).ver = s.ver := Same.get (f := .ver) (recordErr_foot a0 a1 s) rfl
@[simp] theorem recordErr_gates (a0 : Nat) (a1 : List Nat) (s : State) : (recordErr a0 a1 s).gates = s.gates := Same.get (f := .gates) (recordErr_foot a0 a1 s) rfl
@[simp] theorem recordErr_tests (a0 : Nat) (a1 : List Nat) (s : State) : (recordErr a0 a1 s).tests = s.tests := Same.get (f := .tests) (recordErr_foot a0 a1 s) rfl
@[simp] theorem recordErr_links (a0 : Nat) (a1 : List Nat) (s : State) : (recordErr a0 a1 s).links = s.links := Same.get (f := .links) (recordErr_foot a0 a1 s) rfl
@[simp] theorem recordErr_linkTimes (a0 : Nat) (a1 : List Nat) (s : State) : (recordErr a0 a1 s).linkTimes = s.linkTimes := Same.get (f := .linkTimes) (recordErr_foot a0 a1 s) rfl
@[simp] theorem recordErr_servo (a0 : Nat) (a1 : List Nat) (s : State) : (recordErr a0 a1 s).servo = s.servo := Same.get (f := .servo) (recordErr_foot a0 a1 s) rfl
@[simp] theorem recordErr_eth (a0 : Nat) (a1 : List Nat) (s : State) : (recordErr a0 a1 s).eth = s.eth := Same.get (f := .eth) (recordErr_foot a0 a1 s) rfl
@[simp] theorem recordErr_fw (a0 : Nat) (a1 : List Nat) (s : State) : (recordErr a0 a1 s).fw = s.fw := Same.get (f := .fw) (recordErr_foot a0 a1 s) rfl
@[simp] theorem recordErr_cal (a0 : Nat) (a1 : List Nat) (s : State) : (recordErr a0 a1 s).cal = s.cal := Same.get (f := .cal) (recordErr_foot a0 a1 s) rfl
@[simp] theorem recordErr_sens (a0 : Nat) (a1 : List Nat) (s : State) : (recordErr a0 a1 s).sens = s.sens := Same.get (f := .sens) (recordErr_foot a0 a1 s) rfl
@[simp] theorem recordErr_snsOn (a0 : Nat) (a1 : List Nat) (s : State) : (recordErr a0 a1 s).snsOn = s.snsOn := Same.get (f := .snsOn) (recordErr_foot a0 a1 s) rfl
@[simp] theorem recordErr_free (a0 : Nat) (a1 : List Nat) (s : State) : (recordErr a0 a1 s).free = s.free := Same.get (f := .free) (recordErr_foot a0 a1 s) rfl
@[simp] theorem recordErr_salts (a0 : Nat) (a1 : List Nat) (s : State) : (recordErr a0 a1 s).salts = s.salts := Same.get (f := .salts) (recordErr_foot a0 a1 s) rfl

/-! ### setErr -/

theorem setErr_foot (a0 : Nat) (a1 : Nat) (s : State) : Same (fun f => [Fld.regs, Fld.trd].contains f) s (setErr a0 a1 s) :=
  setErr_same rfl rfl (Same.refl _ _)

@[simp] theorem setErr_pending (a0 : Nat) (a1 : Nat) (s : State) : (setErr a0 a1 s).pending = s.pending := Same.get (f := .pending) (setErr_foot a0 a1 s) rfl
@[simp] theorem setErr_inst (a0 : Nat) (a1 : Nat) (s : State) : (setErr a0 a1 s).inst = s.inst := Same.get (f := .inst) (setErr_foot a0 a1 s) rfl
@[simp] theorem setErr_ready (a0 : Nat) (a1 : Nat) (s : State) : (setErr a0 a1 s).ready = s.ready := Same.get (f := .ready) (setErr_foot a0 a1 s) rfl
@[simp] theorem setErr_booting (a0 : Nat) (a1 : Nat) (s : State) : (setErr a0 a1 s).booting = s.booting := Same.get (f := .booting) (setErr_foot a0 a1 s) rfl
@[simp] theorem setErr_workHeld (a0 : Nat) (a1 : Nat) (s : State) : (setErr a0 a1 s).workHeld = s.workHeld := Same.get (f := .workHeld) (setErr_foot a0 a1 s) rfl
@[simp] theorem setErr_port (a0 : Nat) (a1 : Nat) (s : State) : (setErr a0 a1 s).port = s.port := Same.get (f := .port) (setErr_foot a0 a1 s) rfl
@[simp] theorem setErr_parts (a0 : Nat) (a1 : Nat) (s : State) : (setErr a0 a1 s).parts = s.parts := Same.get (f := .parts) (setErr_foot a0 a1 s) rfl
@[simp] theorem setErr_audit (a0 : Nat) (a1 : Nat) (s : State) : (setErr a0 a1 s).audit = s.audit := Same.get (f := .audit) (setErr_foot a0 a1 s) rfl
@[simp] theorem setErr_tim (a0 : Nat) (a1 : Nat) (s : State) : (setErr a0 a1 s).tim = s.tim := Same.get (f := .tim) (setErr_foot a0 a1 s) rfl
@[simp] theorem setErr_owed (a0 : Nat) (a1 : Nat) (s : State) : (setErr a0 a1 s).owed = s.owed := Same.get (f := .owed) (setErr_foot a0 a1 s) rfl
@[simp] theorem setErr_strs (a0 : Nat) (a1 : Nat) (s : State) : (setErr a0 a1 s).strs = s.strs := Same.get (f := .strs) (setErr_foot a0 a1 s) rfl
@[simp] theorem setErr_closes (a0 : Nat) (a1 : Nat) (s : State) : (setErr a0 a1 s).closes = s.closes := Same.get (f := .closes) (setErr_foot a0 a1 s) rfl
@[simp] theorem setErr_bobs (a0 : Nat) (a1 : Nat) (s : State) : (setErr a0 a1 s).bobs = s.bobs := Same.get (f := .bobs) (setErr_foot a0 a1 s) rfl
@[simp] theorem setErr_wports (a0 : Nat) (a1 : Nat) (s : State) : (setErr a0 a1 s).wports = s.wports := Same.get (f := .wports) (setErr_foot a0 a1 s) rfl
@[simp] theorem setErr_rport (a0 : Nat) (a1 : Nat) (s : State) : (setErr a0 a1 s).rport = s.rport := Same.get (f := .rport) (setErr_foot a0 a1 s) rfl
@[simp] theorem setErr_adopts (a0 : Nat) (a1 : Nat) (s : State) : (setErr a0 a1 s).adopts = s.adopts := Same.get (f := .adopts) (setErr_foot a0 a1 s) rfl
@[simp] theorem setErr_exempt (a0 : Nat) (a1 : Nat) (s : State) : (setErr a0 a1 s).exempt = s.exempt := Same.get (f := .exempt) (setErr_foot a0 a1 s) rfl
@[simp] theorem setErr_refused (a0 : Nat) (a1 : Nat) (s : State) : (setErr a0 a1 s).refused = s.refused := Same.get (f := .refused) (setErr_foot a0 a1 s) rfl
@[simp] theorem setErr_heds (a0 : Nat) (a1 : Nat) (s : State) : (setErr a0 a1 s).heds = s.heds := Same.get (f := .heds) (setErr_foot a0 a1 s) rfl
@[simp] theorem setErr_counts (a0 : Nat) (a1 : Nat) (s : State) : (setErr a0 a1 s).counts = s.counts := Same.get (f := .counts) (setErr_foot a0 a1 s) rfl
@[simp] theorem setErr_hedGovs (a0 : Nat) (a1 : Nat) (s : State) : (setErr a0 a1 s).hedGovs = s.hedGovs := Same.get (f := .hedGovs) (setErr_foot a0 a1 s) rfl
@[simp] theorem setErr_reedGovs (a0 : Nat) (a1 : Nat) (s : State) : (setErr a0 a1 s).reedGovs = s.reedGovs := Same.get (f := .reedGovs) (setErr_foot a0 a1 s) rfl
@[simp] theorem setErr_gov (a0 : Nat) (a1 : Nat) (s : State) : (setErr a0 a1 s).gov = s.gov := Same.get (f := .gov) (setErr_foot a0 a1 s) rfl
@[simp] theorem setErr_stop (a0 : Nat) (a1 : Nat) (s : State) : (setErr a0 a1 s).stop = s.stop := Same.get (f := .stop) (setErr_foot a0 a1 s) rfl
@[simp] theorem setErr_hedStops (a0 : Nat) (a1 : Nat) (s : State) : (setErr a0 a1 s).hedStops = s.hedStops := Same.get (f := .hedStops) (setErr_foot a0 a1 s) rfl
@[simp] theorem setErr_key (a0 : Nat) (a1 : Nat) (s : State) : (setErr a0 a1 s).key = s.key := Same.get (f := .key) (setErr_foot a0 a1 s) rfl
@[simp] theorem setErr_wits (a0 : Nat) (a1 : Nat) (s : State) : (setErr a0 a1 s).wits = s.wits := Same.get (f := .wits) (setErr_foot a0 a1 s) rfl
@[simp] theorem setErr_cards (a0 : Nat) (a1 : Nat) (s : State) : (setErr a0 a1 s).cards = s.cards := Same.get (f := .cards) (setErr_foot a0 a1 s) rfl
@[simp] theorem setErr_shadows (a0 : Nat) (a1 : Nat) (s : State) : (setErr a0 a1 s).shadows = s.shadows := Same.get (f := .shadows) (setErr_foot a0 a1 s) rfl
@[simp] theorem setErr_lapsed (a0 : Nat) (a1 : Nat) (s : State) : (setErr a0 a1 s).lapsed = s.lapsed := Same.get (f := .lapsed) (setErr_foot a0 a1 s) rfl
@[simp] theorem setErr_ver (a0 : Nat) (a1 : Nat) (s : State) : (setErr a0 a1 s).ver = s.ver := Same.get (f := .ver) (setErr_foot a0 a1 s) rfl
@[simp] theorem setErr_gates (a0 : Nat) (a1 : Nat) (s : State) : (setErr a0 a1 s).gates = s.gates := Same.get (f := .gates) (setErr_foot a0 a1 s) rfl
@[simp] theorem setErr_tests (a0 : Nat) (a1 : Nat) (s : State) : (setErr a0 a1 s).tests = s.tests := Same.get (f := .tests) (setErr_foot a0 a1 s) rfl
@[simp] theorem setErr_links (a0 : Nat) (a1 : Nat) (s : State) : (setErr a0 a1 s).links = s.links := Same.get (f := .links) (setErr_foot a0 a1 s) rfl
@[simp] theorem setErr_linkTimes (a0 : Nat) (a1 : Nat) (s : State) : (setErr a0 a1 s).linkTimes = s.linkTimes := Same.get (f := .linkTimes) (setErr_foot a0 a1 s) rfl
@[simp] theorem setErr_servo (a0 : Nat) (a1 : Nat) (s : State) : (setErr a0 a1 s).servo = s.servo := Same.get (f := .servo) (setErr_foot a0 a1 s) rfl
@[simp] theorem setErr_eth (a0 : Nat) (a1 : Nat) (s : State) : (setErr a0 a1 s).eth = s.eth := Same.get (f := .eth) (setErr_foot a0 a1 s) rfl
@[simp] theorem setErr_fw (a0 : Nat) (a1 : Nat) (s : State) : (setErr a0 a1 s).fw = s.fw := Same.get (f := .fw) (setErr_foot a0 a1 s) rfl
@[simp] theorem setErr_cal (a0 : Nat) (a1 : Nat) (s : State) : (setErr a0 a1 s).cal = s.cal := Same.get (f := .cal) (setErr_foot a0 a1 s) rfl
@[simp] theorem setErr_sens (a0 : Nat) (a1 : Nat) (s : State) : (setErr a0 a1 s).sens = s.sens := Same.get (f := .sens) (setErr_foot a0 a1 s) rfl
@[simp] theorem setErr_snsOn (a0 : Nat) (a1 : Nat) (s : State) : (setErr a0 a1 s).snsOn = s.snsOn := Same.get (f := .snsOn) (setErr_foot a0 a1 s) rfl
@[simp] theorem setErr_free (a0 : Nat) (a1 : Nat) (s : State) : (setErr a0 a1 s).free = s.free := Same.get (f := .free) (setErr_foot a0 a1 s) rfl
@[simp] theorem setErr_salts (a0 : Nat) (a1 : Nat) (s : State) : (setErr a0 a1 s).salts = s.salts := Same.get (f := .salts) (setErr_foot a0 a1 s) rfl

/-! ### setPortErr -/

theorem setPortErr_foot (a0 : Nat) (a1 : Nat) (s : State) : Same (fun f => [Fld.regs, Fld.trd].contains f) s (setPortErr a0 a1 s) :=
  setPortErr_same rfl rfl (Same.refl _ _)

@[simp] theorem setPortErr_pending (a0 : Nat) (a1 : Nat) (s : State) : (setPortErr a0 a1 s).pending = s.pending := Same.get (f := .pending) (setPortErr_foot a0 a1 s) rfl
@[simp] theorem setPortErr_inst (a0 : Nat) (a1 : Nat) (s : State) : (setPortErr a0 a1 s).inst = s.inst := Same.get (f := .inst) (setPortErr_foot a0 a1 s) rfl
@[simp] theorem setPortErr_ready (a0 : Nat) (a1 : Nat) (s : State) : (setPortErr a0 a1 s).ready = s.ready := Same.get (f := .ready) (setPortErr_foot a0 a1 s) rfl
@[simp] theorem setPortErr_booting (a0 : Nat) (a1 : Nat) (s : State) : (setPortErr a0 a1 s).booting = s.booting := Same.get (f := .booting) (setPortErr_foot a0 a1 s) rfl
@[simp] theorem setPortErr_workHeld (a0 : Nat) (a1 : Nat) (s : State) : (setPortErr a0 a1 s).workHeld = s.workHeld := Same.get (f := .workHeld) (setPortErr_foot a0 a1 s) rfl
@[simp] theorem setPortErr_port (a0 : Nat) (a1 : Nat) (s : State) : (setPortErr a0 a1 s).port = s.port := Same.get (f := .port) (setPortErr_foot a0 a1 s) rfl
@[simp] theorem setPortErr_parts (a0 : Nat) (a1 : Nat) (s : State) : (setPortErr a0 a1 s).parts = s.parts := Same.get (f := .parts) (setPortErr_foot a0 a1 s) rfl
@[simp] theorem setPortErr_audit (a0 : Nat) (a1 : Nat) (s : State) : (setPortErr a0 a1 s).audit = s.audit := Same.get (f := .audit) (setPortErr_foot a0 a1 s) rfl
@[simp] theorem setPortErr_tim (a0 : Nat) (a1 : Nat) (s : State) : (setPortErr a0 a1 s).tim = s.tim := Same.get (f := .tim) (setPortErr_foot a0 a1 s) rfl
@[simp] theorem setPortErr_owed (a0 : Nat) (a1 : Nat) (s : State) : (setPortErr a0 a1 s).owed = s.owed := Same.get (f := .owed) (setPortErr_foot a0 a1 s) rfl
@[simp] theorem setPortErr_strs (a0 : Nat) (a1 : Nat) (s : State) : (setPortErr a0 a1 s).strs = s.strs := Same.get (f := .strs) (setPortErr_foot a0 a1 s) rfl
@[simp] theorem setPortErr_closes (a0 : Nat) (a1 : Nat) (s : State) : (setPortErr a0 a1 s).closes = s.closes := Same.get (f := .closes) (setPortErr_foot a0 a1 s) rfl
@[simp] theorem setPortErr_bobs (a0 : Nat) (a1 : Nat) (s : State) : (setPortErr a0 a1 s).bobs = s.bobs := Same.get (f := .bobs) (setPortErr_foot a0 a1 s) rfl
@[simp] theorem setPortErr_wports (a0 : Nat) (a1 : Nat) (s : State) : (setPortErr a0 a1 s).wports = s.wports := Same.get (f := .wports) (setPortErr_foot a0 a1 s) rfl
@[simp] theorem setPortErr_rport (a0 : Nat) (a1 : Nat) (s : State) : (setPortErr a0 a1 s).rport = s.rport := Same.get (f := .rport) (setPortErr_foot a0 a1 s) rfl
@[simp] theorem setPortErr_adopts (a0 : Nat) (a1 : Nat) (s : State) : (setPortErr a0 a1 s).adopts = s.adopts := Same.get (f := .adopts) (setPortErr_foot a0 a1 s) rfl
@[simp] theorem setPortErr_exempt (a0 : Nat) (a1 : Nat) (s : State) : (setPortErr a0 a1 s).exempt = s.exempt := Same.get (f := .exempt) (setPortErr_foot a0 a1 s) rfl
@[simp] theorem setPortErr_refused (a0 : Nat) (a1 : Nat) (s : State) : (setPortErr a0 a1 s).refused = s.refused := Same.get (f := .refused) (setPortErr_foot a0 a1 s) rfl
@[simp] theorem setPortErr_heds (a0 : Nat) (a1 : Nat) (s : State) : (setPortErr a0 a1 s).heds = s.heds := Same.get (f := .heds) (setPortErr_foot a0 a1 s) rfl
@[simp] theorem setPortErr_counts (a0 : Nat) (a1 : Nat) (s : State) : (setPortErr a0 a1 s).counts = s.counts := Same.get (f := .counts) (setPortErr_foot a0 a1 s) rfl
@[simp] theorem setPortErr_hedGovs (a0 : Nat) (a1 : Nat) (s : State) : (setPortErr a0 a1 s).hedGovs = s.hedGovs := Same.get (f := .hedGovs) (setPortErr_foot a0 a1 s) rfl
@[simp] theorem setPortErr_reedGovs (a0 : Nat) (a1 : Nat) (s : State) : (setPortErr a0 a1 s).reedGovs = s.reedGovs := Same.get (f := .reedGovs) (setPortErr_foot a0 a1 s) rfl
@[simp] theorem setPortErr_gov (a0 : Nat) (a1 : Nat) (s : State) : (setPortErr a0 a1 s).gov = s.gov := Same.get (f := .gov) (setPortErr_foot a0 a1 s) rfl
@[simp] theorem setPortErr_stop (a0 : Nat) (a1 : Nat) (s : State) : (setPortErr a0 a1 s).stop = s.stop := Same.get (f := .stop) (setPortErr_foot a0 a1 s) rfl
@[simp] theorem setPortErr_hedStops (a0 : Nat) (a1 : Nat) (s : State) : (setPortErr a0 a1 s).hedStops = s.hedStops := Same.get (f := .hedStops) (setPortErr_foot a0 a1 s) rfl
@[simp] theorem setPortErr_key (a0 : Nat) (a1 : Nat) (s : State) : (setPortErr a0 a1 s).key = s.key := Same.get (f := .key) (setPortErr_foot a0 a1 s) rfl
@[simp] theorem setPortErr_wits (a0 : Nat) (a1 : Nat) (s : State) : (setPortErr a0 a1 s).wits = s.wits := Same.get (f := .wits) (setPortErr_foot a0 a1 s) rfl
@[simp] theorem setPortErr_cards (a0 : Nat) (a1 : Nat) (s : State) : (setPortErr a0 a1 s).cards = s.cards := Same.get (f := .cards) (setPortErr_foot a0 a1 s) rfl
@[simp] theorem setPortErr_shadows (a0 : Nat) (a1 : Nat) (s : State) : (setPortErr a0 a1 s).shadows = s.shadows := Same.get (f := .shadows) (setPortErr_foot a0 a1 s) rfl
@[simp] theorem setPortErr_lapsed (a0 : Nat) (a1 : Nat) (s : State) : (setPortErr a0 a1 s).lapsed = s.lapsed := Same.get (f := .lapsed) (setPortErr_foot a0 a1 s) rfl
@[simp] theorem setPortErr_ver (a0 : Nat) (a1 : Nat) (s : State) : (setPortErr a0 a1 s).ver = s.ver := Same.get (f := .ver) (setPortErr_foot a0 a1 s) rfl
@[simp] theorem setPortErr_gates (a0 : Nat) (a1 : Nat) (s : State) : (setPortErr a0 a1 s).gates = s.gates := Same.get (f := .gates) (setPortErr_foot a0 a1 s) rfl
@[simp] theorem setPortErr_tests (a0 : Nat) (a1 : Nat) (s : State) : (setPortErr a0 a1 s).tests = s.tests := Same.get (f := .tests) (setPortErr_foot a0 a1 s) rfl
@[simp] theorem setPortErr_links (a0 : Nat) (a1 : Nat) (s : State) : (setPortErr a0 a1 s).links = s.links := Same.get (f := .links) (setPortErr_foot a0 a1 s) rfl
@[simp] theorem setPortErr_linkTimes (a0 : Nat) (a1 : Nat) (s : State) : (setPortErr a0 a1 s).linkTimes = s.linkTimes := Same.get (f := .linkTimes) (setPortErr_foot a0 a1 s) rfl
@[simp] theorem setPortErr_servo (a0 : Nat) (a1 : Nat) (s : State) : (setPortErr a0 a1 s).servo = s.servo := Same.get (f := .servo) (setPortErr_foot a0 a1 s) rfl
@[simp] theorem setPortErr_eth (a0 : Nat) (a1 : Nat) (s : State) : (setPortErr a0 a1 s).eth = s.eth := Same.get (f := .eth) (setPortErr_foot a0 a1 s) rfl
@[simp] theorem setPortErr_fw (a0 : Nat) (a1 : Nat) (s : State) : (setPortErr a0 a1 s).fw = s.fw := Same.get (f := .fw) (setPortErr_foot a0 a1 s) rfl
@[simp] theorem setPortErr_cal (a0 : Nat) (a1 : Nat) (s : State) : (setPortErr a0 a1 s).cal = s.cal := Same.get (f := .cal) (setPortErr_foot a0 a1 s) rfl
@[simp] theorem setPortErr_sens (a0 : Nat) (a1 : Nat) (s : State) : (setPortErr a0 a1 s).sens = s.sens := Same.get (f := .sens) (setPortErr_foot a0 a1 s) rfl
@[simp] theorem setPortErr_snsOn (a0 : Nat) (a1 : Nat) (s : State) : (setPortErr a0 a1 s).snsOn = s.snsOn := Same.get (f := .snsOn) (setPortErr_foot a0 a1 s) rfl
@[simp] theorem setPortErr_free (a0 : Nat) (a1 : Nat) (s : State) : (setPortErr a0 a1 s).free = s.free := Same.get (f := .free) (setPortErr_foot a0 a1 s) rfl
@[simp] theorem setPortErr_salts (a0 : Nat) (a1 : Nat) (s : State) : (setPortErr a0 a1 s).salts = s.salts := Same.get (f := .salts) (setPortErr_foot a0 a1 s) rfl

/-! ### settle -/

theorem settle_foot (s : State) : Same (fun f => [Fld.regs, Fld.trd].contains f) s (settle s) :=
  settle_same rfl rfl (Same.refl _ _)

@[simp] theorem settle_pending (s : State) : (settle s).pending = s.pending := Same.get (f := .pending) (settle_foot s) rfl
@[simp] theorem settle_inst (s : State) : (settle s).inst = s.inst := Same.get (f := .inst) (settle_foot s) rfl
@[simp] theorem settle_ready (s : State) : (settle s).ready = s.ready := Same.get (f := .ready) (settle_foot s) rfl
@[simp] theorem settle_booting (s : State) : (settle s).booting = s.booting := Same.get (f := .booting) (settle_foot s) rfl
@[simp] theorem settle_workHeld (s : State) : (settle s).workHeld = s.workHeld := Same.get (f := .workHeld) (settle_foot s) rfl
@[simp] theorem settle_port (s : State) : (settle s).port = s.port := Same.get (f := .port) (settle_foot s) rfl
@[simp] theorem settle_parts (s : State) : (settle s).parts = s.parts := Same.get (f := .parts) (settle_foot s) rfl
@[simp] theorem settle_audit (s : State) : (settle s).audit = s.audit := Same.get (f := .audit) (settle_foot s) rfl
@[simp] theorem settle_tim (s : State) : (settle s).tim = s.tim := Same.get (f := .tim) (settle_foot s) rfl
@[simp] theorem settle_owed (s : State) : (settle s).owed = s.owed := Same.get (f := .owed) (settle_foot s) rfl
@[simp] theorem settle_strs (s : State) : (settle s).strs = s.strs := Same.get (f := .strs) (settle_foot s) rfl
@[simp] theorem settle_closes (s : State) : (settle s).closes = s.closes := Same.get (f := .closes) (settle_foot s) rfl
@[simp] theorem settle_bobs (s : State) : (settle s).bobs = s.bobs := Same.get (f := .bobs) (settle_foot s) rfl
@[simp] theorem settle_wports (s : State) : (settle s).wports = s.wports := Same.get (f := .wports) (settle_foot s) rfl
@[simp] theorem settle_rport (s : State) : (settle s).rport = s.rport := Same.get (f := .rport) (settle_foot s) rfl
@[simp] theorem settle_adopts (s : State) : (settle s).adopts = s.adopts := Same.get (f := .adopts) (settle_foot s) rfl
@[simp] theorem settle_exempt (s : State) : (settle s).exempt = s.exempt := Same.get (f := .exempt) (settle_foot s) rfl
@[simp] theorem settle_refused (s : State) : (settle s).refused = s.refused := Same.get (f := .refused) (settle_foot s) rfl
@[simp] theorem settle_heds (s : State) : (settle s).heds = s.heds := Same.get (f := .heds) (settle_foot s) rfl
@[simp] theorem settle_counts (s : State) : (settle s).counts = s.counts := Same.get (f := .counts) (settle_foot s) rfl
@[simp] theorem settle_hedGovs (s : State) : (settle s).hedGovs = s.hedGovs := Same.get (f := .hedGovs) (settle_foot s) rfl
@[simp] theorem settle_reedGovs (s : State) : (settle s).reedGovs = s.reedGovs := Same.get (f := .reedGovs) (settle_foot s) rfl
@[simp] theorem settle_gov (s : State) : (settle s).gov = s.gov := Same.get (f := .gov) (settle_foot s) rfl
@[simp] theorem settle_stop (s : State) : (settle s).stop = s.stop := Same.get (f := .stop) (settle_foot s) rfl
@[simp] theorem settle_hedStops (s : State) : (settle s).hedStops = s.hedStops := Same.get (f := .hedStops) (settle_foot s) rfl
@[simp] theorem settle_key (s : State) : (settle s).key = s.key := Same.get (f := .key) (settle_foot s) rfl
@[simp] theorem settle_wits (s : State) : (settle s).wits = s.wits := Same.get (f := .wits) (settle_foot s) rfl
@[simp] theorem settle_cards (s : State) : (settle s).cards = s.cards := Same.get (f := .cards) (settle_foot s) rfl
@[simp] theorem settle_shadows (s : State) : (settle s).shadows = s.shadows := Same.get (f := .shadows) (settle_foot s) rfl
@[simp] theorem settle_lapsed (s : State) : (settle s).lapsed = s.lapsed := Same.get (f := .lapsed) (settle_foot s) rfl
@[simp] theorem settle_ver (s : State) : (settle s).ver = s.ver := Same.get (f := .ver) (settle_foot s) rfl
@[simp] theorem settle_gates (s : State) : (settle s).gates = s.gates := Same.get (f := .gates) (settle_foot s) rfl
@[simp] theorem settle_tests (s : State) : (settle s).tests = s.tests := Same.get (f := .tests) (settle_foot s) rfl
@[simp] theorem settle_links (s : State) : (settle s).links = s.links := Same.get (f := .links) (settle_foot s) rfl
@[simp] theorem settle_linkTimes (s : State) : (settle s).linkTimes = s.linkTimes := Same.get (f := .linkTimes) (settle_foot s) rfl
@[simp] theorem settle_servo (s : State) : (settle s).servo = s.servo := Same.get (f := .servo) (settle_foot s) rfl
@[simp] theorem settle_eth (s : State) : (settle s).eth = s.eth := Same.get (f := .eth) (settle_foot s) rfl
@[simp] theorem settle_fw (s : State) : (settle s).fw = s.fw := Same.get (f := .fw) (settle_foot s) rfl
@[simp] theorem settle_cal (s : State) : (settle s).cal = s.cal := Same.get (f := .cal) (settle_foot s) rfl
@[simp] theorem settle_sens (s : State) : (settle s).sens = s.sens := Same.get (f := .sens) (settle_foot s) rfl
@[simp] theorem settle_snsOn (s : State) : (settle s).snsOn = s.snsOn := Same.get (f := .snsOn) (settle_foot s) rfl
@[simp] theorem settle_free (s : State) : (settle s).free = s.free := Same.get (f := .free) (settle_foot s) rfl
@[simp] theorem settle_salts (s : State) : (settle s).salts = s.salts := Same.get (f := .salts) (settle_foot s) rfl

/-! ### raise -/

theorem raise_foot (a0 : Nat) (s : State) : Same (fun f => [Fld.regs, Fld.trd].contains f) s (raise a0 s) :=
  raise_same rfl rfl (Same.refl _ _)

@[simp] theorem raise_pending (a0 : Nat) (s : State) : (raise a0 s).pending = s.pending := Same.get (f := .pending) (raise_foot a0 s) rfl
@[simp] theorem raise_inst (a0 : Nat) (s : State) : (raise a0 s).inst = s.inst := Same.get (f := .inst) (raise_foot a0 s) rfl
@[simp] theorem raise_ready (a0 : Nat) (s : State) : (raise a0 s).ready = s.ready := Same.get (f := .ready) (raise_foot a0 s) rfl
@[simp] theorem raise_booting (a0 : Nat) (s : State) : (raise a0 s).booting = s.booting := Same.get (f := .booting) (raise_foot a0 s) rfl
@[simp] theorem raise_workHeld (a0 : Nat) (s : State) : (raise a0 s).workHeld = s.workHeld := Same.get (f := .workHeld) (raise_foot a0 s) rfl
@[simp] theorem raise_port (a0 : Nat) (s : State) : (raise a0 s).port = s.port := Same.get (f := .port) (raise_foot a0 s) rfl
@[simp] theorem raise_parts (a0 : Nat) (s : State) : (raise a0 s).parts = s.parts := Same.get (f := .parts) (raise_foot a0 s) rfl
@[simp] theorem raise_audit (a0 : Nat) (s : State) : (raise a0 s).audit = s.audit := Same.get (f := .audit) (raise_foot a0 s) rfl
@[simp] theorem raise_tim (a0 : Nat) (s : State) : (raise a0 s).tim = s.tim := Same.get (f := .tim) (raise_foot a0 s) rfl
@[simp] theorem raise_owed (a0 : Nat) (s : State) : (raise a0 s).owed = s.owed := Same.get (f := .owed) (raise_foot a0 s) rfl
@[simp] theorem raise_strs (a0 : Nat) (s : State) : (raise a0 s).strs = s.strs := Same.get (f := .strs) (raise_foot a0 s) rfl
@[simp] theorem raise_closes (a0 : Nat) (s : State) : (raise a0 s).closes = s.closes := Same.get (f := .closes) (raise_foot a0 s) rfl
@[simp] theorem raise_bobs (a0 : Nat) (s : State) : (raise a0 s).bobs = s.bobs := Same.get (f := .bobs) (raise_foot a0 s) rfl
@[simp] theorem raise_wports (a0 : Nat) (s : State) : (raise a0 s).wports = s.wports := Same.get (f := .wports) (raise_foot a0 s) rfl
@[simp] theorem raise_rport (a0 : Nat) (s : State) : (raise a0 s).rport = s.rport := Same.get (f := .rport) (raise_foot a0 s) rfl
@[simp] theorem raise_adopts (a0 : Nat) (s : State) : (raise a0 s).adopts = s.adopts := Same.get (f := .adopts) (raise_foot a0 s) rfl
@[simp] theorem raise_exempt (a0 : Nat) (s : State) : (raise a0 s).exempt = s.exempt := Same.get (f := .exempt) (raise_foot a0 s) rfl
@[simp] theorem raise_refused (a0 : Nat) (s : State) : (raise a0 s).refused = s.refused := Same.get (f := .refused) (raise_foot a0 s) rfl
@[simp] theorem raise_heds (a0 : Nat) (s : State) : (raise a0 s).heds = s.heds := Same.get (f := .heds) (raise_foot a0 s) rfl
@[simp] theorem raise_counts (a0 : Nat) (s : State) : (raise a0 s).counts = s.counts := Same.get (f := .counts) (raise_foot a0 s) rfl
@[simp] theorem raise_hedGovs (a0 : Nat) (s : State) : (raise a0 s).hedGovs = s.hedGovs := Same.get (f := .hedGovs) (raise_foot a0 s) rfl
@[simp] theorem raise_reedGovs (a0 : Nat) (s : State) : (raise a0 s).reedGovs = s.reedGovs := Same.get (f := .reedGovs) (raise_foot a0 s) rfl
@[simp] theorem raise_gov (a0 : Nat) (s : State) : (raise a0 s).gov = s.gov := Same.get (f := .gov) (raise_foot a0 s) rfl
@[simp] theorem raise_stop (a0 : Nat) (s : State) : (raise a0 s).stop = s.stop := Same.get (f := .stop) (raise_foot a0 s) rfl
@[simp] theorem raise_hedStops (a0 : Nat) (s : State) : (raise a0 s).hedStops = s.hedStops := Same.get (f := .hedStops) (raise_foot a0 s) rfl
@[simp] theorem raise_key (a0 : Nat) (s : State) : (raise a0 s).key = s.key := Same.get (f := .key) (raise_foot a0 s) rfl
@[simp] theorem raise_wits (a0 : Nat) (s : State) : (raise a0 s).wits = s.wits := Same.get (f := .wits) (raise_foot a0 s) rfl
@[simp] theorem raise_cards (a0 : Nat) (s : State) : (raise a0 s).cards = s.cards := Same.get (f := .cards) (raise_foot a0 s) rfl
@[simp] theorem raise_shadows (a0 : Nat) (s : State) : (raise a0 s).shadows = s.shadows := Same.get (f := .shadows) (raise_foot a0 s) rfl
@[simp] theorem raise_lapsed (a0 : Nat) (s : State) : (raise a0 s).lapsed = s.lapsed := Same.get (f := .lapsed) (raise_foot a0 s) rfl
@[simp] theorem raise_ver (a0 : Nat) (s : State) : (raise a0 s).ver = s.ver := Same.get (f := .ver) (raise_foot a0 s) rfl
@[simp] theorem raise_gates (a0 : Nat) (s : State) : (raise a0 s).gates = s.gates := Same.get (f := .gates) (raise_foot a0 s) rfl
@[simp] theorem raise_tests (a0 : Nat) (s : State) : (raise a0 s).tests = s.tests := Same.get (f := .tests) (raise_foot a0 s) rfl
@[simp] theorem raise_links (a0 : Nat) (s : State) : (raise a0 s).links = s.links := Same.get (f := .links) (raise_foot a0 s) rfl
@[simp] theorem raise_linkTimes (a0 : Nat) (s : State) : (raise a0 s).linkTimes = s.linkTimes := Same.get (f := .linkTimes) (raise_foot a0 s) rfl
@[simp] theorem raise_servo (a0 : Nat) (s : State) : (raise a0 s).servo = s.servo := Same.get (f := .servo) (raise_foot a0 s) rfl
@[simp] theorem raise_eth (a0 : Nat) (s : State) : (raise a0 s).eth = s.eth := Same.get (f := .eth) (raise_foot a0 s) rfl
@[simp] theorem raise_fw (a0 : Nat) (s : State) : (raise a0 s).fw = s.fw := Same.get (f := .fw) (raise_foot a0 s) rfl
@[simp] theorem raise_cal (a0 : Nat) (s : State) : (raise a0 s).cal = s.cal := Same.get (f := .cal) (raise_foot a0 s) rfl
@[simp] theorem raise_sens (a0 : Nat) (s : State) : (raise a0 s).sens = s.sens := Same.get (f := .sens) (raise_foot a0 s) rfl
@[simp] theorem raise_snsOn (a0 : Nat) (s : State) : (raise a0 s).snsOn = s.snsOn := Same.get (f := .snsOn) (raise_foot a0 s) rfl
@[simp] theorem raise_free (a0 : Nat) (s : State) : (raise a0 s).free = s.free := Same.get (f := .free) (raise_foot a0 s) rfl
@[simp] theorem raise_salts (a0 : Nat) (s : State) : (raise a0 s).salts = s.salts := Same.get (f := .salts) (raise_foot a0 s) rfl

/-! ### acceptRec -/

theorem acceptRec_foot (a0 : Nat) (a1 : Pick) (s : State) : Same (fun f => [Fld.regs, Fld.strs, Fld.closes, Fld.trd].contains f) s (acceptRec a0 a1 s) :=
  acceptRec_same rfl rfl rfl rfl (Same.refl _ _)

@[simp] theorem acceptRec_pending (a0 : Nat) (a1 : Pick) (s : State) : (acceptRec a0 a1 s).pending = s.pending := Same.get (f := .pending) (acceptRec_foot a0 a1 s) rfl
@[simp] theorem acceptRec_inst (a0 : Nat) (a1 : Pick) (s : State) : (acceptRec a0 a1 s).inst = s.inst := Same.get (f := .inst) (acceptRec_foot a0 a1 s) rfl
@[simp] theorem acceptRec_ready (a0 : Nat) (a1 : Pick) (s : State) : (acceptRec a0 a1 s).ready = s.ready := Same.get (f := .ready) (acceptRec_foot a0 a1 s) rfl
@[simp] theorem acceptRec_booting (a0 : Nat) (a1 : Pick) (s : State) : (acceptRec a0 a1 s).booting = s.booting := Same.get (f := .booting) (acceptRec_foot a0 a1 s) rfl
@[simp] theorem acceptRec_workHeld (a0 : Nat) (a1 : Pick) (s : State) : (acceptRec a0 a1 s).workHeld = s.workHeld := Same.get (f := .workHeld) (acceptRec_foot a0 a1 s) rfl
@[simp] theorem acceptRec_port (a0 : Nat) (a1 : Pick) (s : State) : (acceptRec a0 a1 s).port = s.port := Same.get (f := .port) (acceptRec_foot a0 a1 s) rfl
@[simp] theorem acceptRec_parts (a0 : Nat) (a1 : Pick) (s : State) : (acceptRec a0 a1 s).parts = s.parts := Same.get (f := .parts) (acceptRec_foot a0 a1 s) rfl
@[simp] theorem acceptRec_audit (a0 : Nat) (a1 : Pick) (s : State) : (acceptRec a0 a1 s).audit = s.audit := Same.get (f := .audit) (acceptRec_foot a0 a1 s) rfl
@[simp] theorem acceptRec_tim (a0 : Nat) (a1 : Pick) (s : State) : (acceptRec a0 a1 s).tim = s.tim := Same.get (f := .tim) (acceptRec_foot a0 a1 s) rfl
@[simp] theorem acceptRec_owed (a0 : Nat) (a1 : Pick) (s : State) : (acceptRec a0 a1 s).owed = s.owed := Same.get (f := .owed) (acceptRec_foot a0 a1 s) rfl
@[simp] theorem acceptRec_bobs (a0 : Nat) (a1 : Pick) (s : State) : (acceptRec a0 a1 s).bobs = s.bobs := Same.get (f := .bobs) (acceptRec_foot a0 a1 s) rfl
@[simp] theorem acceptRec_wports (a0 : Nat) (a1 : Pick) (s : State) : (acceptRec a0 a1 s).wports = s.wports := Same.get (f := .wports) (acceptRec_foot a0 a1 s) rfl
@[simp] theorem acceptRec_rport (a0 : Nat) (a1 : Pick) (s : State) : (acceptRec a0 a1 s).rport = s.rport := Same.get (f := .rport) (acceptRec_foot a0 a1 s) rfl
@[simp] theorem acceptRec_adopts (a0 : Nat) (a1 : Pick) (s : State) : (acceptRec a0 a1 s).adopts = s.adopts := Same.get (f := .adopts) (acceptRec_foot a0 a1 s) rfl
@[simp] theorem acceptRec_exempt (a0 : Nat) (a1 : Pick) (s : State) : (acceptRec a0 a1 s).exempt = s.exempt := Same.get (f := .exempt) (acceptRec_foot a0 a1 s) rfl
@[simp] theorem acceptRec_refused (a0 : Nat) (a1 : Pick) (s : State) : (acceptRec a0 a1 s).refused = s.refused := Same.get (f := .refused) (acceptRec_foot a0 a1 s) rfl
@[simp] theorem acceptRec_heds (a0 : Nat) (a1 : Pick) (s : State) : (acceptRec a0 a1 s).heds = s.heds := Same.get (f := .heds) (acceptRec_foot a0 a1 s) rfl
@[simp] theorem acceptRec_counts (a0 : Nat) (a1 : Pick) (s : State) : (acceptRec a0 a1 s).counts = s.counts := Same.get (f := .counts) (acceptRec_foot a0 a1 s) rfl
@[simp] theorem acceptRec_hedGovs (a0 : Nat) (a1 : Pick) (s : State) : (acceptRec a0 a1 s).hedGovs = s.hedGovs := Same.get (f := .hedGovs) (acceptRec_foot a0 a1 s) rfl
@[simp] theorem acceptRec_reedGovs (a0 : Nat) (a1 : Pick) (s : State) : (acceptRec a0 a1 s).reedGovs = s.reedGovs := Same.get (f := .reedGovs) (acceptRec_foot a0 a1 s) rfl
@[simp] theorem acceptRec_gov (a0 : Nat) (a1 : Pick) (s : State) : (acceptRec a0 a1 s).gov = s.gov := Same.get (f := .gov) (acceptRec_foot a0 a1 s) rfl
@[simp] theorem acceptRec_stop (a0 : Nat) (a1 : Pick) (s : State) : (acceptRec a0 a1 s).stop = s.stop := Same.get (f := .stop) (acceptRec_foot a0 a1 s) rfl
@[simp] theorem acceptRec_hedStops (a0 : Nat) (a1 : Pick) (s : State) : (acceptRec a0 a1 s).hedStops = s.hedStops := Same.get (f := .hedStops) (acceptRec_foot a0 a1 s) rfl
@[simp] theorem acceptRec_key (a0 : Nat) (a1 : Pick) (s : State) : (acceptRec a0 a1 s).key = s.key := Same.get (f := .key) (acceptRec_foot a0 a1 s) rfl
@[simp] theorem acceptRec_wits (a0 : Nat) (a1 : Pick) (s : State) : (acceptRec a0 a1 s).wits = s.wits := Same.get (f := .wits) (acceptRec_foot a0 a1 s) rfl
@[simp] theorem acceptRec_cards (a0 : Nat) (a1 : Pick) (s : State) : (acceptRec a0 a1 s).cards = s.cards := Same.get (f := .cards) (acceptRec_foot a0 a1 s) rfl
@[simp] theorem acceptRec_shadows (a0 : Nat) (a1 : Pick) (s : State) : (acceptRec a0 a1 s).shadows = s.shadows := Same.get (f := .shadows) (acceptRec_foot a0 a1 s) rfl
@[simp] theorem acceptRec_lapsed (a0 : Nat) (a1 : Pick) (s : State) : (acceptRec a0 a1 s).lapsed = s.lapsed := Same.get (f := .lapsed) (acceptRec_foot a0 a1 s) rfl
@[simp] theorem acceptRec_ver (a0 : Nat) (a1 : Pick) (s : State) : (acceptRec a0 a1 s).ver = s.ver := Same.get (f := .ver) (acceptRec_foot a0 a1 s) rfl
@[simp] theorem acceptRec_gates (a0 : Nat) (a1 : Pick) (s : State) : (acceptRec a0 a1 s).gates = s.gates := Same.get (f := .gates) (acceptRec_foot a0 a1 s) rfl
@[simp] theorem acceptRec_tests (a0 : Nat) (a1 : Pick) (s : State) : (acceptRec a0 a1 s).tests = s.tests := Same.get (f := .tests) (acceptRec_foot a0 a1 s) rfl
@[simp] theorem acceptRec_links (a0 : Nat) (a1 : Pick) (s : State) : (acceptRec a0 a1 s).links = s.links := Same.get (f := .links) (acceptRec_foot a0 a1 s) rfl
@[simp] theorem acceptRec_linkTimes (a0 : Nat) (a1 : Pick) (s : State) : (acceptRec a0 a1 s).linkTimes = s.linkTimes := Same.get (f := .linkTimes) (acceptRec_foot a0 a1 s) rfl
@[simp] theorem acceptRec_servo (a0 : Nat) (a1 : Pick) (s : State) : (acceptRec a0 a1 s).servo = s.servo := Same.get (f := .servo) (acceptRec_foot a0 a1 s) rfl
@[simp] theorem acceptRec_eth (a0 : Nat) (a1 : Pick) (s : State) : (acceptRec a0 a1 s).eth = s.eth := Same.get (f := .eth) (acceptRec_foot a0 a1 s) rfl
@[simp] theorem acceptRec_fw (a0 : Nat) (a1 : Pick) (s : State) : (acceptRec a0 a1 s).fw = s.fw := Same.get (f := .fw) (acceptRec_foot a0 a1 s) rfl
@[simp] theorem acceptRec_cal (a0 : Nat) (a1 : Pick) (s : State) : (acceptRec a0 a1 s).cal = s.cal := Same.get (f := .cal) (acceptRec_foot a0 a1 s) rfl
@[simp] theorem acceptRec_sens (a0 : Nat) (a1 : Pick) (s : State) : (acceptRec a0 a1 s).sens = s.sens := Same.get (f := .sens) (acceptRec_foot a0 a1 s) rfl
@[simp] theorem acceptRec_snsOn (a0 : Nat) (a1 : Pick) (s : State) : (acceptRec a0 a1 s).snsOn = s.snsOn := Same.get (f := .snsOn) (acceptRec_foot a0 a1 s) rfl
@[simp] theorem acceptRec_free (a0 : Nat) (a1 : Pick) (s : State) : (acceptRec a0 a1 s).free = s.free := Same.get (f := .free) (acceptRec_foot a0 a1 s) rfl
@[simp] theorem acceptRec_salts (a0 : Nat) (a1 : Pick) (s : State) : (acceptRec a0 a1 s).salts = s.salts := Same.get (f := .salts) (acceptRec_foot a0 a1 s) rfl

/-! ### emitExempt -/

theorem emitExempt_foot (a0 : Nat) (a1 : Pick) (s : State) : Same (fun f => [Fld.regs, Fld.strs, Fld.closes, Fld.exempt, Fld.refused, Fld.trd, Fld.key].contains f) s (emitExempt a0 a1 s).2 :=
  emitExempt_same rfl rfl rfl rfl rfl rfl rfl (Same.refl _ _)

@[simp] theorem emitExempt_pending (a0 : Nat) (a1 : Pick) (s : State) : (emitExempt a0 a1 s).2.pending = s.pending := Same.get (f := .pending) (emitExempt_foot a0 a1 s) rfl
@[simp] theorem emitExempt_inst (a0 : Nat) (a1 : Pick) (s : State) : (emitExempt a0 a1 s).2.inst = s.inst := Same.get (f := .inst) (emitExempt_foot a0 a1 s) rfl
@[simp] theorem emitExempt_ready (a0 : Nat) (a1 : Pick) (s : State) : (emitExempt a0 a1 s).2.ready = s.ready := Same.get (f := .ready) (emitExempt_foot a0 a1 s) rfl
@[simp] theorem emitExempt_booting (a0 : Nat) (a1 : Pick) (s : State) : (emitExempt a0 a1 s).2.booting = s.booting := Same.get (f := .booting) (emitExempt_foot a0 a1 s) rfl
@[simp] theorem emitExempt_workHeld (a0 : Nat) (a1 : Pick) (s : State) : (emitExempt a0 a1 s).2.workHeld = s.workHeld := Same.get (f := .workHeld) (emitExempt_foot a0 a1 s) rfl
@[simp] theorem emitExempt_port (a0 : Nat) (a1 : Pick) (s : State) : (emitExempt a0 a1 s).2.port = s.port := Same.get (f := .port) (emitExempt_foot a0 a1 s) rfl
@[simp] theorem emitExempt_parts (a0 : Nat) (a1 : Pick) (s : State) : (emitExempt a0 a1 s).2.parts = s.parts := Same.get (f := .parts) (emitExempt_foot a0 a1 s) rfl
@[simp] theorem emitExempt_audit (a0 : Nat) (a1 : Pick) (s : State) : (emitExempt a0 a1 s).2.audit = s.audit := Same.get (f := .audit) (emitExempt_foot a0 a1 s) rfl
@[simp] theorem emitExempt_tim (a0 : Nat) (a1 : Pick) (s : State) : (emitExempt a0 a1 s).2.tim = s.tim := Same.get (f := .tim) (emitExempt_foot a0 a1 s) rfl
@[simp] theorem emitExempt_owed (a0 : Nat) (a1 : Pick) (s : State) : (emitExempt a0 a1 s).2.owed = s.owed := Same.get (f := .owed) (emitExempt_foot a0 a1 s) rfl
@[simp] theorem emitExempt_bobs (a0 : Nat) (a1 : Pick) (s : State) : (emitExempt a0 a1 s).2.bobs = s.bobs := Same.get (f := .bobs) (emitExempt_foot a0 a1 s) rfl
@[simp] theorem emitExempt_wports (a0 : Nat) (a1 : Pick) (s : State) : (emitExempt a0 a1 s).2.wports = s.wports := Same.get (f := .wports) (emitExempt_foot a0 a1 s) rfl
@[simp] theorem emitExempt_rport (a0 : Nat) (a1 : Pick) (s : State) : (emitExempt a0 a1 s).2.rport = s.rport := Same.get (f := .rport) (emitExempt_foot a0 a1 s) rfl
@[simp] theorem emitExempt_adopts (a0 : Nat) (a1 : Pick) (s : State) : (emitExempt a0 a1 s).2.adopts = s.adopts := Same.get (f := .adopts) (emitExempt_foot a0 a1 s) rfl
@[simp] theorem emitExempt_heds (a0 : Nat) (a1 : Pick) (s : State) : (emitExempt a0 a1 s).2.heds = s.heds := Same.get (f := .heds) (emitExempt_foot a0 a1 s) rfl
@[simp] theorem emitExempt_counts (a0 : Nat) (a1 : Pick) (s : State) : (emitExempt a0 a1 s).2.counts = s.counts := Same.get (f := .counts) (emitExempt_foot a0 a1 s) rfl
@[simp] theorem emitExempt_hedGovs (a0 : Nat) (a1 : Pick) (s : State) : (emitExempt a0 a1 s).2.hedGovs = s.hedGovs := Same.get (f := .hedGovs) (emitExempt_foot a0 a1 s) rfl
@[simp] theorem emitExempt_reedGovs (a0 : Nat) (a1 : Pick) (s : State) : (emitExempt a0 a1 s).2.reedGovs = s.reedGovs := Same.get (f := .reedGovs) (emitExempt_foot a0 a1 s) rfl
@[simp] theorem emitExempt_gov (a0 : Nat) (a1 : Pick) (s : State) : (emitExempt a0 a1 s).2.gov = s.gov := Same.get (f := .gov) (emitExempt_foot a0 a1 s) rfl
@[simp] theorem emitExempt_stop (a0 : Nat) (a1 : Pick) (s : State) : (emitExempt a0 a1 s).2.stop = s.stop := Same.get (f := .stop) (emitExempt_foot a0 a1 s) rfl
@[simp] theorem emitExempt_hedStops (a0 : Nat) (a1 : Pick) (s : State) : (emitExempt a0 a1 s).2.hedStops = s.hedStops := Same.get (f := .hedStops) (emitExempt_foot a0 a1 s) rfl
@[simp] theorem emitExempt_wits (a0 : Nat) (a1 : Pick) (s : State) : (emitExempt a0 a1 s).2.wits = s.wits := Same.get (f := .wits) (emitExempt_foot a0 a1 s) rfl
@[simp] theorem emitExempt_cards (a0 : Nat) (a1 : Pick) (s : State) : (emitExempt a0 a1 s).2.cards = s.cards := Same.get (f := .cards) (emitExempt_foot a0 a1 s) rfl
@[simp] theorem emitExempt_shadows (a0 : Nat) (a1 : Pick) (s : State) : (emitExempt a0 a1 s).2.shadows = s.shadows := Same.get (f := .shadows) (emitExempt_foot a0 a1 s) rfl
@[simp] theorem emitExempt_lapsed (a0 : Nat) (a1 : Pick) (s : State) : (emitExempt a0 a1 s).2.lapsed = s.lapsed := Same.get (f := .lapsed) (emitExempt_foot a0 a1 s) rfl
@[simp] theorem emitExempt_ver (a0 : Nat) (a1 : Pick) (s : State) : (emitExempt a0 a1 s).2.ver = s.ver := Same.get (f := .ver) (emitExempt_foot a0 a1 s) rfl
@[simp] theorem emitExempt_gates (a0 : Nat) (a1 : Pick) (s : State) : (emitExempt a0 a1 s).2.gates = s.gates := Same.get (f := .gates) (emitExempt_foot a0 a1 s) rfl
@[simp] theorem emitExempt_tests (a0 : Nat) (a1 : Pick) (s : State) : (emitExempt a0 a1 s).2.tests = s.tests := Same.get (f := .tests) (emitExempt_foot a0 a1 s) rfl
@[simp] theorem emitExempt_links (a0 : Nat) (a1 : Pick) (s : State) : (emitExempt a0 a1 s).2.links = s.links := Same.get (f := .links) (emitExempt_foot a0 a1 s) rfl
@[simp] theorem emitExempt_linkTimes (a0 : Nat) (a1 : Pick) (s : State) : (emitExempt a0 a1 s).2.linkTimes = s.linkTimes := Same.get (f := .linkTimes) (emitExempt_foot a0 a1 s) rfl
@[simp] theorem emitExempt_servo (a0 : Nat) (a1 : Pick) (s : State) : (emitExempt a0 a1 s).2.servo = s.servo := Same.get (f := .servo) (emitExempt_foot a0 a1 s) rfl
@[simp] theorem emitExempt_eth (a0 : Nat) (a1 : Pick) (s : State) : (emitExempt a0 a1 s).2.eth = s.eth := Same.get (f := .eth) (emitExempt_foot a0 a1 s) rfl
@[simp] theorem emitExempt_fw (a0 : Nat) (a1 : Pick) (s : State) : (emitExempt a0 a1 s).2.fw = s.fw := Same.get (f := .fw) (emitExempt_foot a0 a1 s) rfl
@[simp] theorem emitExempt_cal (a0 : Nat) (a1 : Pick) (s : State) : (emitExempt a0 a1 s).2.cal = s.cal := Same.get (f := .cal) (emitExempt_foot a0 a1 s) rfl
@[simp] theorem emitExempt_sens (a0 : Nat) (a1 : Pick) (s : State) : (emitExempt a0 a1 s).2.sens = s.sens := Same.get (f := .sens) (emitExempt_foot a0 a1 s) rfl
@[simp] theorem emitExempt_snsOn (a0 : Nat) (a1 : Pick) (s : State) : (emitExempt a0 a1 s).2.snsOn = s.snsOn := Same.get (f := .snsOn) (emitExempt_foot a0 a1 s) rfl
@[simp] theorem emitExempt_free (a0 : Nat) (a1 : Pick) (s : State) : (emitExempt a0 a1 s).2.free = s.free := Same.get (f := .free) (emitExempt_foot a0 a1 s) rfl
@[simp] theorem emitExempt_salts (a0 : Nat) (a1 : Pick) (s : State) : (emitExempt a0 a1 s).2.salts = s.salts := Same.get (f := .salts) (emitExempt_foot a0 a1 s) rfl

/-! ### emitHub -/

theorem emitHub_foot (a0 : Pick) (s : State) : Same (fun f => [Fld.regs, Fld.strs, Fld.closes, Fld.exempt, Fld.refused, Fld.trd, Fld.key].contains f) s (emitHub a0 s) :=
  emitHub_same rfl rfl rfl rfl rfl rfl rfl (Same.refl _ _)

@[simp] theorem emitHub_pending (a0 : Pick) (s : State) : (emitHub a0 s).pending = s.pending := Same.get (f := .pending) (emitHub_foot a0 s) rfl
@[simp] theorem emitHub_inst (a0 : Pick) (s : State) : (emitHub a0 s).inst = s.inst := Same.get (f := .inst) (emitHub_foot a0 s) rfl
@[simp] theorem emitHub_ready (a0 : Pick) (s : State) : (emitHub a0 s).ready = s.ready := Same.get (f := .ready) (emitHub_foot a0 s) rfl
@[simp] theorem emitHub_booting (a0 : Pick) (s : State) : (emitHub a0 s).booting = s.booting := Same.get (f := .booting) (emitHub_foot a0 s) rfl
@[simp] theorem emitHub_workHeld (a0 : Pick) (s : State) : (emitHub a0 s).workHeld = s.workHeld := Same.get (f := .workHeld) (emitHub_foot a0 s) rfl
@[simp] theorem emitHub_port (a0 : Pick) (s : State) : (emitHub a0 s).port = s.port := Same.get (f := .port) (emitHub_foot a0 s) rfl
@[simp] theorem emitHub_parts (a0 : Pick) (s : State) : (emitHub a0 s).parts = s.parts := Same.get (f := .parts) (emitHub_foot a0 s) rfl
@[simp] theorem emitHub_audit (a0 : Pick) (s : State) : (emitHub a0 s).audit = s.audit := Same.get (f := .audit) (emitHub_foot a0 s) rfl
@[simp] theorem emitHub_tim (a0 : Pick) (s : State) : (emitHub a0 s).tim = s.tim := Same.get (f := .tim) (emitHub_foot a0 s) rfl
@[simp] theorem emitHub_owed (a0 : Pick) (s : State) : (emitHub a0 s).owed = s.owed := Same.get (f := .owed) (emitHub_foot a0 s) rfl
@[simp] theorem emitHub_bobs (a0 : Pick) (s : State) : (emitHub a0 s).bobs = s.bobs := Same.get (f := .bobs) (emitHub_foot a0 s) rfl
@[simp] theorem emitHub_wports (a0 : Pick) (s : State) : (emitHub a0 s).wports = s.wports := Same.get (f := .wports) (emitHub_foot a0 s) rfl
@[simp] theorem emitHub_rport (a0 : Pick) (s : State) : (emitHub a0 s).rport = s.rport := Same.get (f := .rport) (emitHub_foot a0 s) rfl
@[simp] theorem emitHub_adopts (a0 : Pick) (s : State) : (emitHub a0 s).adopts = s.adopts := Same.get (f := .adopts) (emitHub_foot a0 s) rfl
@[simp] theorem emitHub_heds (a0 : Pick) (s : State) : (emitHub a0 s).heds = s.heds := Same.get (f := .heds) (emitHub_foot a0 s) rfl
@[simp] theorem emitHub_counts (a0 : Pick) (s : State) : (emitHub a0 s).counts = s.counts := Same.get (f := .counts) (emitHub_foot a0 s) rfl
@[simp] theorem emitHub_hedGovs (a0 : Pick) (s : State) : (emitHub a0 s).hedGovs = s.hedGovs := Same.get (f := .hedGovs) (emitHub_foot a0 s) rfl
@[simp] theorem emitHub_reedGovs (a0 : Pick) (s : State) : (emitHub a0 s).reedGovs = s.reedGovs := Same.get (f := .reedGovs) (emitHub_foot a0 s) rfl
@[simp] theorem emitHub_gov (a0 : Pick) (s : State) : (emitHub a0 s).gov = s.gov := Same.get (f := .gov) (emitHub_foot a0 s) rfl
@[simp] theorem emitHub_stop (a0 : Pick) (s : State) : (emitHub a0 s).stop = s.stop := Same.get (f := .stop) (emitHub_foot a0 s) rfl
@[simp] theorem emitHub_hedStops (a0 : Pick) (s : State) : (emitHub a0 s).hedStops = s.hedStops := Same.get (f := .hedStops) (emitHub_foot a0 s) rfl
@[simp] theorem emitHub_wits (a0 : Pick) (s : State) : (emitHub a0 s).wits = s.wits := Same.get (f := .wits) (emitHub_foot a0 s) rfl
@[simp] theorem emitHub_cards (a0 : Pick) (s : State) : (emitHub a0 s).cards = s.cards := Same.get (f := .cards) (emitHub_foot a0 s) rfl
@[simp] theorem emitHub_shadows (a0 : Pick) (s : State) : (emitHub a0 s).shadows = s.shadows := Same.get (f := .shadows) (emitHub_foot a0 s) rfl
@[simp] theorem emitHub_lapsed (a0 : Pick) (s : State) : (emitHub a0 s).lapsed = s.lapsed := Same.get (f := .lapsed) (emitHub_foot a0 s) rfl
@[simp] theorem emitHub_ver (a0 : Pick) (s : State) : (emitHub a0 s).ver = s.ver := Same.get (f := .ver) (emitHub_foot a0 s) rfl
@[simp] theorem emitHub_gates (a0 : Pick) (s : State) : (emitHub a0 s).gates = s.gates := Same.get (f := .gates) (emitHub_foot a0 s) rfl
@[simp] theorem emitHub_tests (a0 : Pick) (s : State) : (emitHub a0 s).tests = s.tests := Same.get (f := .tests) (emitHub_foot a0 s) rfl
@[simp] theorem emitHub_links (a0 : Pick) (s : State) : (emitHub a0 s).links = s.links := Same.get (f := .links) (emitHub_foot a0 s) rfl
@[simp] theorem emitHub_linkTimes (a0 : Pick) (s : State) : (emitHub a0 s).linkTimes = s.linkTimes := Same.get (f := .linkTimes) (emitHub_foot a0 s) rfl
@[simp] theorem emitHub_servo (a0 : Pick) (s : State) : (emitHub a0 s).servo = s.servo := Same.get (f := .servo) (emitHub_foot a0 s) rfl
@[simp] theorem emitHub_eth (a0 : Pick) (s : State) : (emitHub a0 s).eth = s.eth := Same.get (f := .eth) (emitHub_foot a0 s) rfl
@[simp] theorem emitHub_fw (a0 : Pick) (s : State) : (emitHub a0 s).fw = s.fw := Same.get (f := .fw) (emitHub_foot a0 s) rfl
@[simp] theorem emitHub_cal (a0 : Pick) (s : State) : (emitHub a0 s).cal = s.cal := Same.get (f := .cal) (emitHub_foot a0 s) rfl
@[simp] theorem emitHub_sens (a0 : Pick) (s : State) : (emitHub a0 s).sens = s.sens := Same.get (f := .sens) (emitHub_foot a0 s) rfl
@[simp] theorem emitHub_snsOn (a0 : Pick) (s : State) : (emitHub a0 s).snsOn = s.snsOn := Same.get (f := .snsOn) (emitHub_foot a0 s) rfl
@[simp] theorem emitHub_free (a0 : Pick) (s : State) : (emitHub a0 s).free = s.free := Same.get (f := .free) (emitHub_foot a0 s) rfl
@[simp] theorem emitHub_salts (a0 : Pick) (s : State) : (emitHub a0 s).salts = s.salts := Same.get (f := .salts) (emitHub_foot a0 s) rfl

/-! ### closeRun -/

theorem closeRun_foot (a0 : Nat) (s : State) : Same (fun f => [Fld.strs, Fld.closes].contains f) s (closeRun a0 s) :=
  closeRun_same rfl rfl (Same.refl _ _)

@[simp] theorem closeRun_pending (a0 : Nat) (s : State) : (closeRun a0 s).pending = s.pending := Same.get (f := .pending) (closeRun_foot a0 s) rfl
@[simp] theorem closeRun_inst (a0 : Nat) (s : State) : (closeRun a0 s).inst = s.inst := Same.get (f := .inst) (closeRun_foot a0 s) rfl
@[simp] theorem closeRun_ready (a0 : Nat) (s : State) : (closeRun a0 s).ready = s.ready := Same.get (f := .ready) (closeRun_foot a0 s) rfl
@[simp] theorem closeRun_booting (a0 : Nat) (s : State) : (closeRun a0 s).booting = s.booting := Same.get (f := .booting) (closeRun_foot a0 s) rfl
@[simp] theorem closeRun_workHeld (a0 : Nat) (s : State) : (closeRun a0 s).workHeld = s.workHeld := Same.get (f := .workHeld) (closeRun_foot a0 s) rfl
@[simp] theorem closeRun_port (a0 : Nat) (s : State) : (closeRun a0 s).port = s.port := Same.get (f := .port) (closeRun_foot a0 s) rfl
@[simp] theorem closeRun_regs (a0 : Nat) (s : State) : (closeRun a0 s).regs = s.regs := Same.get (f := .regs) (closeRun_foot a0 s) rfl
@[simp] theorem closeRun_parts (a0 : Nat) (s : State) : (closeRun a0 s).parts = s.parts := Same.get (f := .parts) (closeRun_foot a0 s) rfl
@[simp] theorem closeRun_audit (a0 : Nat) (s : State) : (closeRun a0 s).audit = s.audit := Same.get (f := .audit) (closeRun_foot a0 s) rfl
@[simp] theorem closeRun_tim (a0 : Nat) (s : State) : (closeRun a0 s).tim = s.tim := Same.get (f := .tim) (closeRun_foot a0 s) rfl
@[simp] theorem closeRun_owed (a0 : Nat) (s : State) : (closeRun a0 s).owed = s.owed := Same.get (f := .owed) (closeRun_foot a0 s) rfl
@[simp] theorem closeRun_bobs (a0 : Nat) (s : State) : (closeRun a0 s).bobs = s.bobs := Same.get (f := .bobs) (closeRun_foot a0 s) rfl
@[simp] theorem closeRun_wports (a0 : Nat) (s : State) : (closeRun a0 s).wports = s.wports := Same.get (f := .wports) (closeRun_foot a0 s) rfl
@[simp] theorem closeRun_rport (a0 : Nat) (s : State) : (closeRun a0 s).rport = s.rport := Same.get (f := .rport) (closeRun_foot a0 s) rfl
@[simp] theorem closeRun_adopts (a0 : Nat) (s : State) : (closeRun a0 s).adopts = s.adopts := Same.get (f := .adopts) (closeRun_foot a0 s) rfl
@[simp] theorem closeRun_exempt (a0 : Nat) (s : State) : (closeRun a0 s).exempt = s.exempt := Same.get (f := .exempt) (closeRun_foot a0 s) rfl
@[simp] theorem closeRun_refused (a0 : Nat) (s : State) : (closeRun a0 s).refused = s.refused := Same.get (f := .refused) (closeRun_foot a0 s) rfl
@[simp] theorem closeRun_heds (a0 : Nat) (s : State) : (closeRun a0 s).heds = s.heds := Same.get (f := .heds) (closeRun_foot a0 s) rfl
@[simp] theorem closeRun_counts (a0 : Nat) (s : State) : (closeRun a0 s).counts = s.counts := Same.get (f := .counts) (closeRun_foot a0 s) rfl
@[simp] theorem closeRun_hedGovs (a0 : Nat) (s : State) : (closeRun a0 s).hedGovs = s.hedGovs := Same.get (f := .hedGovs) (closeRun_foot a0 s) rfl
@[simp] theorem closeRun_reedGovs (a0 : Nat) (s : State) : (closeRun a0 s).reedGovs = s.reedGovs := Same.get (f := .reedGovs) (closeRun_foot a0 s) rfl
@[simp] theorem closeRun_gov (a0 : Nat) (s : State) : (closeRun a0 s).gov = s.gov := Same.get (f := .gov) (closeRun_foot a0 s) rfl
@[simp] theorem closeRun_trd (a0 : Nat) (s : State) : (closeRun a0 s).trd = s.trd := Same.get (f := .trd) (closeRun_foot a0 s) rfl
@[simp] theorem closeRun_stop (a0 : Nat) (s : State) : (closeRun a0 s).stop = s.stop := Same.get (f := .stop) (closeRun_foot a0 s) rfl
@[simp] theorem closeRun_hedStops (a0 : Nat) (s : State) : (closeRun a0 s).hedStops = s.hedStops := Same.get (f := .hedStops) (closeRun_foot a0 s) rfl
@[simp] theorem closeRun_key (a0 : Nat) (s : State) : (closeRun a0 s).key = s.key := Same.get (f := .key) (closeRun_foot a0 s) rfl
@[simp] theorem closeRun_wits (a0 : Nat) (s : State) : (closeRun a0 s).wits = s.wits := Same.get (f := .wits) (closeRun_foot a0 s) rfl
@[simp] theorem closeRun_cards (a0 : Nat) (s : State) : (closeRun a0 s).cards = s.cards := Same.get (f := .cards) (closeRun_foot a0 s) rfl
@[simp] theorem closeRun_shadows (a0 : Nat) (s : State) : (closeRun a0 s).shadows = s.shadows := Same.get (f := .shadows) (closeRun_foot a0 s) rfl
@[simp] theorem closeRun_lapsed (a0 : Nat) (s : State) : (closeRun a0 s).lapsed = s.lapsed := Same.get (f := .lapsed) (closeRun_foot a0 s) rfl
@[simp] theorem closeRun_ver (a0 : Nat) (s : State) : (closeRun a0 s).ver = s.ver := Same.get (f := .ver) (closeRun_foot a0 s) rfl
@[simp] theorem closeRun_gates (a0 : Nat) (s : State) : (closeRun a0 s).gates = s.gates := Same.get (f := .gates) (closeRun_foot a0 s) rfl
@[simp] theorem closeRun_tests (a0 : Nat) (s : State) : (closeRun a0 s).tests = s.tests := Same.get (f := .tests) (closeRun_foot a0 s) rfl
@[simp] theorem closeRun_links (a0 : Nat) (s : State) : (closeRun a0 s).links = s.links := Same.get (f := .links) (closeRun_foot a0 s) rfl
@[simp] theorem closeRun_linkTimes (a0 : Nat) (s : State) : (closeRun a0 s).linkTimes = s.linkTimes := Same.get (f := .linkTimes) (closeRun_foot a0 s) rfl
@[simp] theorem closeRun_servo (a0 : Nat) (s : State) : (closeRun a0 s).servo = s.servo := Same.get (f := .servo) (closeRun_foot a0 s) rfl
@[simp] theorem closeRun_eth (a0 : Nat) (s : State) : (closeRun a0 s).eth = s.eth := Same.get (f := .eth) (closeRun_foot a0 s) rfl
@[simp] theorem closeRun_fw (a0 : Nat) (s : State) : (closeRun a0 s).fw = s.fw := Same.get (f := .fw) (closeRun_foot a0 s) rfl
@[simp] theorem closeRun_cal (a0 : Nat) (s : State) : (closeRun a0 s).cal = s.cal := Same.get (f := .cal) (closeRun_foot a0 s) rfl
@[simp] theorem closeRun_sens (a0 : Nat) (s : State) : (closeRun a0 s).sens = s.sens := Same.get (f := .sens) (closeRun_foot a0 s) rfl
@[simp] theorem closeRun_snsOn (a0 : Nat) (s : State) : (closeRun a0 s).snsOn = s.snsOn := Same.get (f := .snsOn) (closeRun_foot a0 s) rfl
@[simp] theorem closeRun_free (a0 : Nat) (s : State) : (closeRun a0 s).free = s.free := Same.get (f := .free) (closeRun_foot a0 s) rfl
@[simp] theorem closeRun_salts (a0 : Nat) (s : State) : (closeRun a0 s).salts = s.salts := Same.get (f := .salts) (closeRun_foot a0 s) rfl

/-! ### closeBobs -/

theorem closeBobs_foot (a0 : List Nat) (s : State) : Same (fun f => [Fld.strs, Fld.closes].contains f) s (closeBobs a0 s) :=
  closeBobs_same rfl rfl (Same.refl _ _)

@[simp] theorem closeBobs_pending (a0 : List Nat) (s : State) : (closeBobs a0 s).pending = s.pending := Same.get (f := .pending) (closeBobs_foot a0 s) rfl
@[simp] theorem closeBobs_inst (a0 : List Nat) (s : State) : (closeBobs a0 s).inst = s.inst := Same.get (f := .inst) (closeBobs_foot a0 s) rfl
@[simp] theorem closeBobs_ready (a0 : List Nat) (s : State) : (closeBobs a0 s).ready = s.ready := Same.get (f := .ready) (closeBobs_foot a0 s) rfl
@[simp] theorem closeBobs_booting (a0 : List Nat) (s : State) : (closeBobs a0 s).booting = s.booting := Same.get (f := .booting) (closeBobs_foot a0 s) rfl
@[simp] theorem closeBobs_workHeld (a0 : List Nat) (s : State) : (closeBobs a0 s).workHeld = s.workHeld := Same.get (f := .workHeld) (closeBobs_foot a0 s) rfl
@[simp] theorem closeBobs_port (a0 : List Nat) (s : State) : (closeBobs a0 s).port = s.port := Same.get (f := .port) (closeBobs_foot a0 s) rfl
@[simp] theorem closeBobs_regs (a0 : List Nat) (s : State) : (closeBobs a0 s).regs = s.regs := Same.get (f := .regs) (closeBobs_foot a0 s) rfl
@[simp] theorem closeBobs_parts (a0 : List Nat) (s : State) : (closeBobs a0 s).parts = s.parts := Same.get (f := .parts) (closeBobs_foot a0 s) rfl
@[simp] theorem closeBobs_audit (a0 : List Nat) (s : State) : (closeBobs a0 s).audit = s.audit := Same.get (f := .audit) (closeBobs_foot a0 s) rfl
@[simp] theorem closeBobs_tim (a0 : List Nat) (s : State) : (closeBobs a0 s).tim = s.tim := Same.get (f := .tim) (closeBobs_foot a0 s) rfl
@[simp] theorem closeBobs_owed (a0 : List Nat) (s : State) : (closeBobs a0 s).owed = s.owed := Same.get (f := .owed) (closeBobs_foot a0 s) rfl
@[simp] theorem closeBobs_bobs (a0 : List Nat) (s : State) : (closeBobs a0 s).bobs = s.bobs := Same.get (f := .bobs) (closeBobs_foot a0 s) rfl
@[simp] theorem closeBobs_wports (a0 : List Nat) (s : State) : (closeBobs a0 s).wports = s.wports := Same.get (f := .wports) (closeBobs_foot a0 s) rfl
@[simp] theorem closeBobs_rport (a0 : List Nat) (s : State) : (closeBobs a0 s).rport = s.rport := Same.get (f := .rport) (closeBobs_foot a0 s) rfl
@[simp] theorem closeBobs_adopts (a0 : List Nat) (s : State) : (closeBobs a0 s).adopts = s.adopts := Same.get (f := .adopts) (closeBobs_foot a0 s) rfl
@[simp] theorem closeBobs_exempt (a0 : List Nat) (s : State) : (closeBobs a0 s).exempt = s.exempt := Same.get (f := .exempt) (closeBobs_foot a0 s) rfl
@[simp] theorem closeBobs_refused (a0 : List Nat) (s : State) : (closeBobs a0 s).refused = s.refused := Same.get (f := .refused) (closeBobs_foot a0 s) rfl
@[simp] theorem closeBobs_heds (a0 : List Nat) (s : State) : (closeBobs a0 s).heds = s.heds := Same.get (f := .heds) (closeBobs_foot a0 s) rfl
@[simp] theorem closeBobs_counts (a0 : List Nat) (s : State) : (closeBobs a0 s).counts = s.counts := Same.get (f := .counts) (closeBobs_foot a0 s) rfl
@[simp] theorem closeBobs_hedGovs (a0 : List Nat) (s : State) : (closeBobs a0 s).hedGovs = s.hedGovs := Same.get (f := .hedGovs) (closeBobs_foot a0 s) rfl
@[simp] theorem closeBobs_reedGovs (a0 : List Nat) (s : State) : (closeBobs a0 s).reedGovs = s.reedGovs := Same.get (f := .reedGovs) (closeBobs_foot a0 s) rfl
@[simp] theorem closeBobs_gov (a0 : List Nat) (s : State) : (closeBobs a0 s).gov = s.gov := Same.get (f := .gov) (closeBobs_foot a0 s) rfl
@[simp] theorem closeBobs_trd (a0 : List Nat) (s : State) : (closeBobs a0 s).trd = s.trd := Same.get (f := .trd) (closeBobs_foot a0 s) rfl
@[simp] theorem closeBobs_stop (a0 : List Nat) (s : State) : (closeBobs a0 s).stop = s.stop := Same.get (f := .stop) (closeBobs_foot a0 s) rfl
@[simp] theorem closeBobs_hedStops (a0 : List Nat) (s : State) : (closeBobs a0 s).hedStops = s.hedStops := Same.get (f := .hedStops) (closeBobs_foot a0 s) rfl
@[simp] theorem closeBobs_key (a0 : List Nat) (s : State) : (closeBobs a0 s).key = s.key := Same.get (f := .key) (closeBobs_foot a0 s) rfl
@[simp] theorem closeBobs_wits (a0 : List Nat) (s : State) : (closeBobs a0 s).wits = s.wits := Same.get (f := .wits) (closeBobs_foot a0 s) rfl
@[simp] theorem closeBobs_cards (a0 : List Nat) (s : State) : (closeBobs a0 s).cards = s.cards := Same.get (f := .cards) (closeBobs_foot a0 s) rfl
@[simp] theorem closeBobs_shadows (a0 : List Nat) (s : State) : (closeBobs a0 s).shadows = s.shadows := Same.get (f := .shadows) (closeBobs_foot a0 s) rfl
@[simp] theorem closeBobs_lapsed (a0 : List Nat) (s : State) : (closeBobs a0 s).lapsed = s.lapsed := Same.get (f := .lapsed) (closeBobs_foot a0 s) rfl
@[simp] theorem closeBobs_ver (a0 : List Nat) (s : State) : (closeBobs a0 s).ver = s.ver := Same.get (f := .ver) (closeBobs_foot a0 s) rfl
@[simp] theorem closeBobs_gates (a0 : List Nat) (s : State) : (closeBobs a0 s).gates = s.gates := Same.get (f := .gates) (closeBobs_foot a0 s) rfl
@[simp] theorem closeBobs_tests (a0 : List Nat) (s : State) : (closeBobs a0 s).tests = s.tests := Same.get (f := .tests) (closeBobs_foot a0 s) rfl
@[simp] theorem closeBobs_links (a0 : List Nat) (s : State) : (closeBobs a0 s).links = s.links := Same.get (f := .links) (closeBobs_foot a0 s) rfl
@[simp] theorem closeBobs_linkTimes (a0 : List Nat) (s : State) : (closeBobs a0 s).linkTimes = s.linkTimes := Same.get (f := .linkTimes) (closeBobs_foot a0 s) rfl
@[simp] theorem closeBobs_servo (a0 : List Nat) (s : State) : (closeBobs a0 s).servo = s.servo := Same.get (f := .servo) (closeBobs_foot a0 s) rfl
@[simp] theorem closeBobs_eth (a0 : List Nat) (s : State) : (closeBobs a0 s).eth = s.eth := Same.get (f := .eth) (closeBobs_foot a0 s) rfl
@[simp] theorem closeBobs_fw (a0 : List Nat) (s : State) : (closeBobs a0 s).fw = s.fw := Same.get (f := .fw) (closeBobs_foot a0 s) rfl
@[simp] theorem closeBobs_cal (a0 : List Nat) (s : State) : (closeBobs a0 s).cal = s.cal := Same.get (f := .cal) (closeBobs_foot a0 s) rfl
@[simp] theorem closeBobs_sens (a0 : List Nat) (s : State) : (closeBobs a0 s).sens = s.sens := Same.get (f := .sens) (closeBobs_foot a0 s) rfl
@[simp] theorem closeBobs_snsOn (a0 : List Nat) (s : State) : (closeBobs a0 s).snsOn = s.snsOn := Same.get (f := .snsOn) (closeBobs_foot a0 s) rfl
@[simp] theorem closeBobs_free (a0 : List Nat) (s : State) : (closeBobs a0 s).free = s.free := Same.get (f := .free) (closeBobs_foot a0 s) rfl
@[simp] theorem closeBobs_salts (a0 : List Nat) (s : State) : (closeBobs a0 s).salts = s.salts := Same.get (f := .salts) (closeBobs_foot a0 s) rfl

/-! ### pump -/

theorem pump_foot (s : State) : Same (fun f => [Fld.regs, Fld.strs, Fld.closes, Fld.exempt, Fld.trd, Fld.key, Fld.ver, Fld.free].contains f) s (pump s) :=
  pump_same rfl rfl rfl rfl rfl rfl rfl rfl (Same.refl _ _)

@[simp] theorem pump_pending (s : State) : (pump s).pending = s.pending := Same.get (f := .pending) (pump_foot s) rfl
@[simp] theorem pump_inst (s : State) : (pump s).inst = s.inst := Same.get (f := .inst) (pump_foot s) rfl
@[simp] theorem pump_ready (s : State) : (pump s).ready = s.ready := Same.get (f := .ready) (pump_foot s) rfl
@[simp] theorem pump_booting (s : State) : (pump s).booting = s.booting := Same.get (f := .booting) (pump_foot s) rfl
@[simp] theorem pump_workHeld (s : State) : (pump s).workHeld = s.workHeld := Same.get (f := .workHeld) (pump_foot s) rfl
@[simp] theorem pump_port (s : State) : (pump s).port = s.port := Same.get (f := .port) (pump_foot s) rfl
@[simp] theorem pump_parts (s : State) : (pump s).parts = s.parts := Same.get (f := .parts) (pump_foot s) rfl
@[simp] theorem pump_audit (s : State) : (pump s).audit = s.audit := Same.get (f := .audit) (pump_foot s) rfl
@[simp] theorem pump_tim (s : State) : (pump s).tim = s.tim := Same.get (f := .tim) (pump_foot s) rfl
@[simp] theorem pump_owed (s : State) : (pump s).owed = s.owed := Same.get (f := .owed) (pump_foot s) rfl
@[simp] theorem pump_bobs (s : State) : (pump s).bobs = s.bobs := Same.get (f := .bobs) (pump_foot s) rfl
@[simp] theorem pump_wports (s : State) : (pump s).wports = s.wports := Same.get (f := .wports) (pump_foot s) rfl
@[simp] theorem pump_rport (s : State) : (pump s).rport = s.rport := Same.get (f := .rport) (pump_foot s) rfl
@[simp] theorem pump_adopts (s : State) : (pump s).adopts = s.adopts := Same.get (f := .adopts) (pump_foot s) rfl
@[simp] theorem pump_refused (s : State) : (pump s).refused = s.refused := Same.get (f := .refused) (pump_foot s) rfl
@[simp] theorem pump_heds (s : State) : (pump s).heds = s.heds := Same.get (f := .heds) (pump_foot s) rfl
@[simp] theorem pump_counts (s : State) : (pump s).counts = s.counts := Same.get (f := .counts) (pump_foot s) rfl
@[simp] theorem pump_hedGovs (s : State) : (pump s).hedGovs = s.hedGovs := Same.get (f := .hedGovs) (pump_foot s) rfl
@[simp] theorem pump_reedGovs (s : State) : (pump s).reedGovs = s.reedGovs := Same.get (f := .reedGovs) (pump_foot s) rfl
@[simp] theorem pump_gov (s : State) : (pump s).gov = s.gov := Same.get (f := .gov) (pump_foot s) rfl
@[simp] theorem pump_stop (s : State) : (pump s).stop = s.stop := Same.get (f := .stop) (pump_foot s) rfl
@[simp] theorem pump_hedStops (s : State) : (pump s).hedStops = s.hedStops := Same.get (f := .hedStops) (pump_foot s) rfl
@[simp] theorem pump_wits (s : State) : (pump s).wits = s.wits := Same.get (f := .wits) (pump_foot s) rfl
@[simp] theorem pump_cards (s : State) : (pump s).cards = s.cards := Same.get (f := .cards) (pump_foot s) rfl
@[simp] theorem pump_shadows (s : State) : (pump s).shadows = s.shadows := Same.get (f := .shadows) (pump_foot s) rfl
@[simp] theorem pump_lapsed (s : State) : (pump s).lapsed = s.lapsed := Same.get (f := .lapsed) (pump_foot s) rfl
@[simp] theorem pump_gates (s : State) : (pump s).gates = s.gates := Same.get (f := .gates) (pump_foot s) rfl
@[simp] theorem pump_tests (s : State) : (pump s).tests = s.tests := Same.get (f := .tests) (pump_foot s) rfl
@[simp] theorem pump_links (s : State) : (pump s).links = s.links := Same.get (f := .links) (pump_foot s) rfl
@[simp] theorem pump_linkTimes (s : State) : (pump s).linkTimes = s.linkTimes := Same.get (f := .linkTimes) (pump_foot s) rfl
@[simp] theorem pump_servo (s : State) : (pump s).servo = s.servo := Same.get (f := .servo) (pump_foot s) rfl
@[simp] theorem pump_eth (s : State) : (pump s).eth = s.eth := Same.get (f := .eth) (pump_foot s) rfl
@[simp] theorem pump_fw (s : State) : (pump s).fw = s.fw := Same.get (f := .fw) (pump_foot s) rfl
@[simp] theorem pump_cal (s : State) : (pump s).cal = s.cal := Same.get (f := .cal) (pump_foot s) rfl
@[simp] theorem pump_sens (s : State) : (pump s).sens = s.sens := Same.get (f := .sens) (pump_foot s) rfl
@[simp] theorem pump_snsOn (s : State) : (pump s).snsOn = s.snsOn := Same.get (f := .snsOn) (pump_foot s) rfl
@[simp] theorem pump_salts (s : State) : (pump s).salts = s.salts := Same.get (f := .salts) (pump_foot s) rfl

/-! ### placeReport -/

theorem placeReport_foot (a0 : ErrReport) (s : State) : Same (fun f => [Fld.regs, Fld.strs, Fld.closes, Fld.exempt, Fld.trd, Fld.key, Fld.ver, Fld.free].contains f) s (placeReport a0 s) :=
  placeReport_same rfl rfl rfl rfl rfl rfl rfl rfl (Same.refl _ _)

@[simp] theorem placeReport_pending (a0 : ErrReport) (s : State) : (placeReport a0 s).pending = s.pending := Same.get (f := .pending) (placeReport_foot a0 s) rfl
@[simp] theorem placeReport_inst (a0 : ErrReport) (s : State) : (placeReport a0 s).inst = s.inst := Same.get (f := .inst) (placeReport_foot a0 s) rfl
@[simp] theorem placeReport_ready (a0 : ErrReport) (s : State) : (placeReport a0 s).ready = s.ready := Same.get (f := .ready) (placeReport_foot a0 s) rfl
@[simp] theorem placeReport_booting (a0 : ErrReport) (s : State) : (placeReport a0 s).booting = s.booting := Same.get (f := .booting) (placeReport_foot a0 s) rfl
@[simp] theorem placeReport_workHeld (a0 : ErrReport) (s : State) : (placeReport a0 s).workHeld = s.workHeld := Same.get (f := .workHeld) (placeReport_foot a0 s) rfl
@[simp] theorem placeReport_port (a0 : ErrReport) (s : State) : (placeReport a0 s).port = s.port := Same.get (f := .port) (placeReport_foot a0 s) rfl
@[simp] theorem placeReport_parts (a0 : ErrReport) (s : State) : (placeReport a0 s).parts = s.parts := Same.get (f := .parts) (placeReport_foot a0 s) rfl
@[simp] theorem placeReport_audit (a0 : ErrReport) (s : State) : (placeReport a0 s).audit = s.audit := Same.get (f := .audit) (placeReport_foot a0 s) rfl
@[simp] theorem placeReport_tim (a0 : ErrReport) (s : State) : (placeReport a0 s).tim = s.tim := Same.get (f := .tim) (placeReport_foot a0 s) rfl
@[simp] theorem placeReport_owed (a0 : ErrReport) (s : State) : (placeReport a0 s).owed = s.owed := Same.get (f := .owed) (placeReport_foot a0 s) rfl
@[simp] theorem placeReport_bobs (a0 : ErrReport) (s : State) : (placeReport a0 s).bobs = s.bobs := Same.get (f := .bobs) (placeReport_foot a0 s) rfl
@[simp] theorem placeReport_wports (a0 : ErrReport) (s : State) : (placeReport a0 s).wports = s.wports := Same.get (f := .wports) (placeReport_foot a0 s) rfl
@[simp] theorem placeReport_rport (a0 : ErrReport) (s : State) : (placeReport a0 s).rport = s.rport := Same.get (f := .rport) (placeReport_foot a0 s) rfl
@[simp] theorem placeReport_adopts (a0 : ErrReport) (s : State) : (placeReport a0 s).adopts = s.adopts := Same.get (f := .adopts) (placeReport_foot a0 s) rfl
@[simp] theorem placeReport_refused (a0 : ErrReport) (s : State) : (placeReport a0 s).refused = s.refused := Same.get (f := .refused) (placeReport_foot a0 s) rfl
@[simp] theorem placeReport_heds (a0 : ErrReport) (s : State) : (placeReport a0 s).heds = s.heds := Same.get (f := .heds) (placeReport_foot a0 s) rfl
@[simp] theorem placeReport_counts (a0 : ErrReport) (s : State) : (placeReport a0 s).counts = s.counts := Same.get (f := .counts) (placeReport_foot a0 s) rfl
@[simp] theorem placeReport_hedGovs (a0 : ErrReport) (s : State) : (placeReport a0 s).hedGovs = s.hedGovs := Same.get (f := .hedGovs) (placeReport_foot a0 s) rfl
@[simp] theorem placeReport_reedGovs (a0 : ErrReport) (s : State) : (placeReport a0 s).reedGovs = s.reedGovs := Same.get (f := .reedGovs) (placeReport_foot a0 s) rfl
@[simp] theorem placeReport_gov (a0 : ErrReport) (s : State) : (placeReport a0 s).gov = s.gov := Same.get (f := .gov) (placeReport_foot a0 s) rfl
@[simp] theorem placeReport_stop (a0 : ErrReport) (s : State) : (placeReport a0 s).stop = s.stop := Same.get (f := .stop) (placeReport_foot a0 s) rfl
@[simp] theorem placeReport_hedStops (a0 : ErrReport) (s : State) : (placeReport a0 s).hedStops = s.hedStops := Same.get (f := .hedStops) (placeReport_foot a0 s) rfl
@[simp] theorem placeReport_wits (a0 : ErrReport) (s : State) : (placeReport a0 s).wits = s.wits := Same.get (f := .wits) (placeReport_foot a0 s) rfl
@[simp] theorem placeReport_cards (a0 : ErrReport) (s : State) : (placeReport a0 s).cards = s.cards := Same.get (f := .cards) (placeReport_foot a0 s) rfl
@[simp] theorem placeReport_shadows (a0 : ErrReport) (s : State) : (placeReport a0 s).shadows = s.shadows := Same.get (f := .shadows) (placeReport_foot a0 s) rfl
@[simp] theorem placeReport_lapsed (a0 : ErrReport) (s : State) : (placeReport a0 s).lapsed = s.lapsed := Same.get (f := .lapsed) (placeReport_foot a0 s) rfl
@[simp] theorem placeReport_gates (a0 : ErrReport) (s : State) : (placeReport a0 s).gates = s.gates := Same.get (f := .gates) (placeReport_foot a0 s) rfl
@[simp] theorem placeReport_tests (a0 : ErrReport) (s : State) : (placeReport a0 s).tests = s.tests := Same.get (f := .tests) (placeReport_foot a0 s) rfl
@[simp] theorem placeReport_links (a0 : ErrReport) (s : State) : (placeReport a0 s).links = s.links := Same.get (f := .links) (placeReport_foot a0 s) rfl
@[simp] theorem placeReport_linkTimes (a0 : ErrReport) (s : State) : (placeReport a0 s).linkTimes = s.linkTimes := Same.get (f := .linkTimes) (placeReport_foot a0 s) rfl
@[simp] theorem placeReport_servo (a0 : ErrReport) (s : State) : (placeReport a0 s).servo = s.servo := Same.get (f := .servo) (placeReport_foot a0 s) rfl
@[simp] theorem placeReport_eth (a0 : ErrReport) (s : State) : (placeReport a0 s).eth = s.eth := Same.get (f := .eth) (placeReport_foot a0 s) rfl
@[simp] theorem placeReport_fw (a0 : ErrReport) (s : State) : (placeReport a0 s).fw = s.fw := Same.get (f := .fw) (placeReport_foot a0 s) rfl
@[simp] theorem placeReport_cal (a0 : ErrReport) (s : State) : (placeReport a0 s).cal = s.cal := Same.get (f := .cal) (placeReport_foot a0 s) rfl
@[simp] theorem placeReport_sens (a0 : ErrReport) (s : State) : (placeReport a0 s).sens = s.sens := Same.get (f := .sens) (placeReport_foot a0 s) rfl
@[simp] theorem placeReport_snsOn (a0 : ErrReport) (s : State) : (placeReport a0 s).snsOn = s.snsOn := Same.get (f := .snsOn) (placeReport_foot a0 s) rfl
@[simp] theorem placeReport_salts (a0 : ErrReport) (s : State) : (placeReport a0 s).salts = s.salts := Same.get (f := .salts) (placeReport_foot a0 s) rfl

/-! ### workLost -/

theorem workLost_foot (a0 : Nat) (a1 : Nat) (a2 : Nat) (a3 : Nat) (a4 : Nat) (a5 : Nat) (s : State) : Same (fun f => [Fld.regs, Fld.strs, Fld.closes, Fld.exempt, Fld.trd, Fld.key, Fld.ver, Fld.free].contains f) s (workLost a0 a1 a2 a3 a4 a5 s) :=
  workLost_same rfl rfl rfl rfl rfl rfl rfl rfl (Same.refl _ _)

@[simp] theorem workLost_pending (a0 : Nat) (a1 : Nat) (a2 : Nat) (a3 : Nat) (a4 : Nat) (a5 : Nat) (s : State) : (workLost a0 a1 a2 a3 a4 a5 s).pending = s.pending := Same.get (f := .pending) (workLost_foot a0 a1 a2 a3 a4 a5 s) rfl
@[simp] theorem workLost_inst (a0 : Nat) (a1 : Nat) (a2 : Nat) (a3 : Nat) (a4 : Nat) (a5 : Nat) (s : State) : (workLost a0 a1 a2 a3 a4 a5 s).inst = s.inst := Same.get (f := .inst) (workLost_foot a0 a1 a2 a3 a4 a5 s) rfl
@[simp] theorem workLost_ready (a0 : Nat) (a1 : Nat) (a2 : Nat) (a3 : Nat) (a4 : Nat) (a5 : Nat) (s : State) : (workLost a0 a1 a2 a3 a4 a5 s).ready = s.ready := Same.get (f := .ready) (workLost_foot a0 a1 a2 a3 a4 a5 s) rfl
@[simp] theorem workLost_booting (a0 : Nat) (a1 : Nat) (a2 : Nat) (a3 : Nat) (a4 : Nat) (a5 : Nat) (s : State) : (workLost a0 a1 a2 a3 a4 a5 s).booting = s.booting := Same.get (f := .booting) (workLost_foot a0 a1 a2 a3 a4 a5 s) rfl
@[simp] theorem workLost_workHeld (a0 : Nat) (a1 : Nat) (a2 : Nat) (a3 : Nat) (a4 : Nat) (a5 : Nat) (s : State) : (workLost a0 a1 a2 a3 a4 a5 s).workHeld = s.workHeld := Same.get (f := .workHeld) (workLost_foot a0 a1 a2 a3 a4 a5 s) rfl
@[simp] theorem workLost_port (a0 : Nat) (a1 : Nat) (a2 : Nat) (a3 : Nat) (a4 : Nat) (a5 : Nat) (s : State) : (workLost a0 a1 a2 a3 a4 a5 s).port = s.port := Same.get (f := .port) (workLost_foot a0 a1 a2 a3 a4 a5 s) rfl
@[simp] theorem workLost_parts (a0 : Nat) (a1 : Nat) (a2 : Nat) (a3 : Nat) (a4 : Nat) (a5 : Nat) (s : State) : (workLost a0 a1 a2 a3 a4 a5 s).parts = s.parts := Same.get (f := .parts) (workLost_foot a0 a1 a2 a3 a4 a5 s) rfl
@[simp] theorem workLost_audit (a0 : Nat) (a1 : Nat) (a2 : Nat) (a3 : Nat) (a4 : Nat) (a5 : Nat) (s : State) : (workLost a0 a1 a2 a3 a4 a5 s).audit = s.audit := Same.get (f := .audit) (workLost_foot a0 a1 a2 a3 a4 a5 s) rfl
@[simp] theorem workLost_tim (a0 : Nat) (a1 : Nat) (a2 : Nat) (a3 : Nat) (a4 : Nat) (a5 : Nat) (s : State) : (workLost a0 a1 a2 a3 a4 a5 s).tim = s.tim := Same.get (f := .tim) (workLost_foot a0 a1 a2 a3 a4 a5 s) rfl
@[simp] theorem workLost_owed (a0 : Nat) (a1 : Nat) (a2 : Nat) (a3 : Nat) (a4 : Nat) (a5 : Nat) (s : State) : (workLost a0 a1 a2 a3 a4 a5 s).owed = s.owed := Same.get (f := .owed) (workLost_foot a0 a1 a2 a3 a4 a5 s) rfl
@[simp] theorem workLost_bobs (a0 : Nat) (a1 : Nat) (a2 : Nat) (a3 : Nat) (a4 : Nat) (a5 : Nat) (s : State) : (workLost a0 a1 a2 a3 a4 a5 s).bobs = s.bobs := Same.get (f := .bobs) (workLost_foot a0 a1 a2 a3 a4 a5 s) rfl
@[simp] theorem workLost_wports (a0 : Nat) (a1 : Nat) (a2 : Nat) (a3 : Nat) (a4 : Nat) (a5 : Nat) (s : State) : (workLost a0 a1 a2 a3 a4 a5 s).wports = s.wports := Same.get (f := .wports) (workLost_foot a0 a1 a2 a3 a4 a5 s) rfl
@[simp] theorem workLost_rport (a0 : Nat) (a1 : Nat) (a2 : Nat) (a3 : Nat) (a4 : Nat) (a5 : Nat) (s : State) : (workLost a0 a1 a2 a3 a4 a5 s).rport = s.rport := Same.get (f := .rport) (workLost_foot a0 a1 a2 a3 a4 a5 s) rfl
@[simp] theorem workLost_adopts (a0 : Nat) (a1 : Nat) (a2 : Nat) (a3 : Nat) (a4 : Nat) (a5 : Nat) (s : State) : (workLost a0 a1 a2 a3 a4 a5 s).adopts = s.adopts := Same.get (f := .adopts) (workLost_foot a0 a1 a2 a3 a4 a5 s) rfl
@[simp] theorem workLost_refused (a0 : Nat) (a1 : Nat) (a2 : Nat) (a3 : Nat) (a4 : Nat) (a5 : Nat) (s : State) : (workLost a0 a1 a2 a3 a4 a5 s).refused = s.refused := Same.get (f := .refused) (workLost_foot a0 a1 a2 a3 a4 a5 s) rfl
@[simp] theorem workLost_heds (a0 : Nat) (a1 : Nat) (a2 : Nat) (a3 : Nat) (a4 : Nat) (a5 : Nat) (s : State) : (workLost a0 a1 a2 a3 a4 a5 s).heds = s.heds := Same.get (f := .heds) (workLost_foot a0 a1 a2 a3 a4 a5 s) rfl
@[simp] theorem workLost_counts (a0 : Nat) (a1 : Nat) (a2 : Nat) (a3 : Nat) (a4 : Nat) (a5 : Nat) (s : State) : (workLost a0 a1 a2 a3 a4 a5 s).counts = s.counts := Same.get (f := .counts) (workLost_foot a0 a1 a2 a3 a4 a5 s) rfl
@[simp] theorem workLost_hedGovs (a0 : Nat) (a1 : Nat) (a2 : Nat) (a3 : Nat) (a4 : Nat) (a5 : Nat) (s : State) : (workLost a0 a1 a2 a3 a4 a5 s).hedGovs = s.hedGovs := Same.get (f := .hedGovs) (workLost_foot a0 a1 a2 a3 a4 a5 s) rfl
@[simp] theorem workLost_reedGovs (a0 : Nat) (a1 : Nat) (a2 : Nat) (a3 : Nat) (a4 : Nat) (a5 : Nat) (s : State) : (workLost a0 a1 a2 a3 a4 a5 s).reedGovs = s.reedGovs := Same.get (f := .reedGovs) (workLost_foot a0 a1 a2 a3 a4 a5 s) rfl
@[simp] theorem workLost_gov (a0 : Nat) (a1 : Nat) (a2 : Nat) (a3 : Nat) (a4 : Nat) (a5 : Nat) (s : State) : (workLost a0 a1 a2 a3 a4 a5 s).gov = s.gov := Same.get (f := .gov) (workLost_foot a0 a1 a2 a3 a4 a5 s) rfl
@[simp] theorem workLost_stop (a0 : Nat) (a1 : Nat) (a2 : Nat) (a3 : Nat) (a4 : Nat) (a5 : Nat) (s : State) : (workLost a0 a1 a2 a3 a4 a5 s).stop = s.stop := Same.get (f := .stop) (workLost_foot a0 a1 a2 a3 a4 a5 s) rfl
@[simp] theorem workLost_hedStops (a0 : Nat) (a1 : Nat) (a2 : Nat) (a3 : Nat) (a4 : Nat) (a5 : Nat) (s : State) : (workLost a0 a1 a2 a3 a4 a5 s).hedStops = s.hedStops := Same.get (f := .hedStops) (workLost_foot a0 a1 a2 a3 a4 a5 s) rfl
@[simp] theorem workLost_wits (a0 : Nat) (a1 : Nat) (a2 : Nat) (a3 : Nat) (a4 : Nat) (a5 : Nat) (s : State) : (workLost a0 a1 a2 a3 a4 a5 s).wits = s.wits := Same.get (f := .wits) (workLost_foot a0 a1 a2 a3 a4 a5 s) rfl
@[simp] theorem workLost_cards (a0 : Nat) (a1 : Nat) (a2 : Nat) (a3 : Nat) (a4 : Nat) (a5 : Nat) (s : State) : (workLost a0 a1 a2 a3 a4 a5 s).cards = s.cards := Same.get (f := .cards) (workLost_foot a0 a1 a2 a3 a4 a5 s) rfl
@[simp] theorem workLost_shadows (a0 : Nat) (a1 : Nat) (a2 : Nat) (a3 : Nat) (a4 : Nat) (a5 : Nat) (s : State) : (workLost a0 a1 a2 a3 a4 a5 s).shadows = s.shadows := Same.get (f := .shadows) (workLost_foot a0 a1 a2 a3 a4 a5 s) rfl
@[simp] theorem workLost_lapsed (a0 : Nat) (a1 : Nat) (a2 : Nat) (a3 : Nat) (a4 : Nat) (a5 : Nat) (s : State) : (workLost a0 a1 a2 a3 a4 a5 s).lapsed = s.lapsed := Same.get (f := .lapsed) (workLost_foot a0 a1 a2 a3 a4 a5 s) rfl
@[simp] theorem workLost_gates (a0 : Nat) (a1 : Nat) (a2 : Nat) (a3 : Nat) (a4 : Nat) (a5 : Nat) (s : State) : (workLost a0 a1 a2 a3 a4 a5 s).gates = s.gates := Same.get (f := .gates) (workLost_foot a0 a1 a2 a3 a4 a5 s) rfl
@[simp] theorem workLost_tests (a0 : Nat) (a1 : Nat) (a2 : Nat) (a3 : Nat) (a4 : Nat) (a5 : Nat) (s : State) : (workLost a0 a1 a2 a3 a4 a5 s).tests = s.tests := Same.get (f := .tests) (workLost_foot a0 a1 a2 a3 a4 a5 s) rfl
@[simp] theorem workLost_links (a0 : Nat) (a1 : Nat) (a2 : Nat) (a3 : Nat) (a4 : Nat) (a5 : Nat) (s : State) : (workLost a0 a1 a2 a3 a4 a5 s).links = s.links := Same.get (f := .links) (workLost_foot a0 a1 a2 a3 a4 a5 s) rfl
@[simp] theorem workLost_linkTimes (a0 : Nat) (a1 : Nat) (a2 : Nat) (a3 : Nat) (a4 : Nat) (a5 : Nat) (s : State) : (workLost a0 a1 a2 a3 a4 a5 s).linkTimes = s.linkTimes := Same.get (f := .linkTimes) (workLost_foot a0 a1 a2 a3 a4 a5 s) rfl
@[simp] theorem workLost_servo (a0 : Nat) (a1 : Nat) (a2 : Nat) (a3 : Nat) (a4 : Nat) (a5 : Nat) (s : State) : (workLost a0 a1 a2 a3 a4 a5 s).servo = s.servo := Same.get (f := .servo) (workLost_foot a0 a1 a2 a3 a4 a5 s) rfl
@[simp] theorem workLost_eth (a0 : Nat) (a1 : Nat) (a2 : Nat) (a3 : Nat) (a4 : Nat) (a5 : Nat) (s : State) : (workLost a0 a1 a2 a3 a4 a5 s).eth = s.eth := Same.get (f := .eth) (workLost_foot a0 a1 a2 a3 a4 a5 s) rfl
@[simp] theorem workLost_fw (a0 : Nat) (a1 : Nat) (a2 : Nat) (a3 : Nat) (a4 : Nat) (a5 : Nat) (s : State) : (workLost a0 a1 a2 a3 a4 a5 s).fw = s.fw := Same.get (f := .fw) (workLost_foot a0 a1 a2 a3 a4 a5 s) rfl
@[simp] theorem workLost_cal (a0 : Nat) (a1 : Nat) (a2 : Nat) (a3 : Nat) (a4 : Nat) (a5 : Nat) (s : State) : (workLost a0 a1 a2 a3 a4 a5 s).cal = s.cal := Same.get (f := .cal) (workLost_foot a0 a1 a2 a3 a4 a5 s) rfl
@[simp] theorem workLost_sens (a0 : Nat) (a1 : Nat) (a2 : Nat) (a3 : Nat) (a4 : Nat) (a5 : Nat) (s : State) : (workLost a0 a1 a2 a3 a4 a5 s).sens = s.sens := Same.get (f := .sens) (workLost_foot a0 a1 a2 a3 a4 a5 s) rfl
@[simp] theorem workLost_snsOn (a0 : Nat) (a1 : Nat) (a2 : Nat) (a3 : Nat) (a4 : Nat) (a5 : Nat) (s : State) : (workLost a0 a1 a2 a3 a4 a5 s).snsOn = s.snsOn := Same.get (f := .snsOn) (workLost_foot a0 a1 a2 a3 a4 a5 s) rfl
@[simp] theorem workLost_salts (a0 : Nat) (a1 : Nat) (a2 : Nat) (a3 : Nat) (a4 : Nat) (a5 : Nat) (s : State) : (workLost a0 a1 a2 a3 a4 a5 s).salts = s.salts := Same.get (f := .salts) (workLost_foot a0 a1 a2 a3 a4 a5 s) rfl

/-! ### placePoison -/

theorem placePoison_foot (a0 : Nat) (a1 : BitVec 32) (a2 : Nat) (a3 : Nat) (s : State) : Same (fun f => [Fld.regs, Fld.strs, Fld.closes, Fld.exempt, Fld.trd, Fld.stop, Fld.key, Fld.wits, Fld.ver, Fld.free].contains f) s (placePoison a0 a1 a2 a3 s) :=
  placePoison_same rfl rfl rfl rfl rfl rfl rfl rfl rfl rfl (Same.refl _ _)

@[simp] theorem placePoison_pending (a0 : Nat) (a1 : BitVec 32) (a2 : Nat) (a3 : Nat) (s : State) : (placePoison a0 a1 a2 a3 s).pending = s.pending := Same.get (f := .pending) (placePoison_foot a0 a1 a2 a3 s) rfl
@[simp] theorem placePoison_inst (a0 : Nat) (a1 : BitVec 32) (a2 : Nat) (a3 : Nat) (s : State) : (placePoison a0 a1 a2 a3 s).inst = s.inst := Same.get (f := .inst) (placePoison_foot a0 a1 a2 a3 s) rfl
@[simp] theorem placePoison_ready (a0 : Nat) (a1 : BitVec 32) (a2 : Nat) (a3 : Nat) (s : State) : (placePoison a0 a1 a2 a3 s).ready = s.ready := Same.get (f := .ready) (placePoison_foot a0 a1 a2 a3 s) rfl
@[simp] theorem placePoison_booting (a0 : Nat) (a1 : BitVec 32) (a2 : Nat) (a3 : Nat) (s : State) : (placePoison a0 a1 a2 a3 s).booting = s.booting := Same.get (f := .booting) (placePoison_foot a0 a1 a2 a3 s) rfl
@[simp] theorem placePoison_workHeld (a0 : Nat) (a1 : BitVec 32) (a2 : Nat) (a3 : Nat) (s : State) : (placePoison a0 a1 a2 a3 s).workHeld = s.workHeld := Same.get (f := .workHeld) (placePoison_foot a0 a1 a2 a3 s) rfl
@[simp] theorem placePoison_port (a0 : Nat) (a1 : BitVec 32) (a2 : Nat) (a3 : Nat) (s : State) : (placePoison a0 a1 a2 a3 s).port = s.port := Same.get (f := .port) (placePoison_foot a0 a1 a2 a3 s) rfl
@[simp] theorem placePoison_parts (a0 : Nat) (a1 : BitVec 32) (a2 : Nat) (a3 : Nat) (s : State) : (placePoison a0 a1 a2 a3 s).parts = s.parts := Same.get (f := .parts) (placePoison_foot a0 a1 a2 a3 s) rfl
@[simp] theorem placePoison_audit (a0 : Nat) (a1 : BitVec 32) (a2 : Nat) (a3 : Nat) (s : State) : (placePoison a0 a1 a2 a3 s).audit = s.audit := Same.get (f := .audit) (placePoison_foot a0 a1 a2 a3 s) rfl
@[simp] theorem placePoison_tim (a0 : Nat) (a1 : BitVec 32) (a2 : Nat) (a3 : Nat) (s : State) : (placePoison a0 a1 a2 a3 s).tim = s.tim := Same.get (f := .tim) (placePoison_foot a0 a1 a2 a3 s) rfl
@[simp] theorem placePoison_owed (a0 : Nat) (a1 : BitVec 32) (a2 : Nat) (a3 : Nat) (s : State) : (placePoison a0 a1 a2 a3 s).owed = s.owed := Same.get (f := .owed) (placePoison_foot a0 a1 a2 a3 s) rfl
@[simp] theorem placePoison_bobs (a0 : Nat) (a1 : BitVec 32) (a2 : Nat) (a3 : Nat) (s : State) : (placePoison a0 a1 a2 a3 s).bobs = s.bobs := Same.get (f := .bobs) (placePoison_foot a0 a1 a2 a3 s) rfl
@[simp] theorem placePoison_wports (a0 : Nat) (a1 : BitVec 32) (a2 : Nat) (a3 : Nat) (s : State) : (placePoison a0 a1 a2 a3 s).wports = s.wports := Same.get (f := .wports) (placePoison_foot a0 a1 a2 a3 s) rfl
@[simp] theorem placePoison_rport (a0 : Nat) (a1 : BitVec 32) (a2 : Nat) (a3 : Nat) (s : State) : (placePoison a0 a1 a2 a3 s).rport = s.rport := Same.get (f := .rport) (placePoison_foot a0 a1 a2 a3 s) rfl
@[simp] theorem placePoison_adopts (a0 : Nat) (a1 : BitVec 32) (a2 : Nat) (a3 : Nat) (s : State) : (placePoison a0 a1 a2 a3 s).adopts = s.adopts := Same.get (f := .adopts) (placePoison_foot a0 a1 a2 a3 s) rfl
@[simp] theorem placePoison_refused (a0 : Nat) (a1 : BitVec 32) (a2 : Nat) (a3 : Nat) (s : State) : (placePoison a0 a1 a2 a3 s).refused = s.refused := Same.get (f := .refused) (placePoison_foot a0 a1 a2 a3 s) rfl
@[simp] theorem placePoison_heds (a0 : Nat) (a1 : BitVec 32) (a2 : Nat) (a3 : Nat) (s : State) : (placePoison a0 a1 a2 a3 s).heds = s.heds := Same.get (f := .heds) (placePoison_foot a0 a1 a2 a3 s) rfl
@[simp] theorem placePoison_counts (a0 : Nat) (a1 : BitVec 32) (a2 : Nat) (a3 : Nat) (s : State) : (placePoison a0 a1 a2 a3 s).counts = s.counts := Same.get (f := .counts) (placePoison_foot a0 a1 a2 a3 s) rfl
@[simp] theorem placePoison_hedGovs (a0 : Nat) (a1 : BitVec 32) (a2 : Nat) (a3 : Nat) (s : State) : (placePoison a0 a1 a2 a3 s).hedGovs = s.hedGovs := Same.get (f := .hedGovs) (placePoison_foot a0 a1 a2 a3 s) rfl
@[simp] theorem placePoison_reedGovs (a0 : Nat) (a1 : BitVec 32) (a2 : Nat) (a3 : Nat) (s : State) : (placePoison a0 a1 a2 a3 s).reedGovs = s.reedGovs := Same.get (f := .reedGovs) (placePoison_foot a0 a1 a2 a3 s) rfl
@[simp] theorem placePoison_gov (a0 : Nat) (a1 : BitVec 32) (a2 : Nat) (a3 : Nat) (s : State) : (placePoison a0 a1 a2 a3 s).gov = s.gov := Same.get (f := .gov) (placePoison_foot a0 a1 a2 a3 s) rfl
@[simp] theorem placePoison_hedStops (a0 : Nat) (a1 : BitVec 32) (a2 : Nat) (a3 : Nat) (s : State) : (placePoison a0 a1 a2 a3 s).hedStops = s.hedStops := Same.get (f := .hedStops) (placePoison_foot a0 a1 a2 a3 s) rfl
@[simp] theorem placePoison_cards (a0 : Nat) (a1 : BitVec 32) (a2 : Nat) (a3 : Nat) (s : State) : (placePoison a0 a1 a2 a3 s).cards = s.cards := Same.get (f := .cards) (placePoison_foot a0 a1 a2 a3 s) rfl
@[simp] theorem placePoison_shadows (a0 : Nat) (a1 : BitVec 32) (a2 : Nat) (a3 : Nat) (s : State) : (placePoison a0 a1 a2 a3 s).shadows = s.shadows := Same.get (f := .shadows) (placePoison_foot a0 a1 a2 a3 s) rfl
@[simp] theorem placePoison_lapsed (a0 : Nat) (a1 : BitVec 32) (a2 : Nat) (a3 : Nat) (s : State) : (placePoison a0 a1 a2 a3 s).lapsed = s.lapsed := Same.get (f := .lapsed) (placePoison_foot a0 a1 a2 a3 s) rfl
@[simp] theorem placePoison_gates (a0 : Nat) (a1 : BitVec 32) (a2 : Nat) (a3 : Nat) (s : State) : (placePoison a0 a1 a2 a3 s).gates = s.gates := Same.get (f := .gates) (placePoison_foot a0 a1 a2 a3 s) rfl
@[simp] theorem placePoison_tests (a0 : Nat) (a1 : BitVec 32) (a2 : Nat) (a3 : Nat) (s : State) : (placePoison a0 a1 a2 a3 s).tests = s.tests := Same.get (f := .tests) (placePoison_foot a0 a1 a2 a3 s) rfl
@[simp] theorem placePoison_links (a0 : Nat) (a1 : BitVec 32) (a2 : Nat) (a3 : Nat) (s : State) : (placePoison a0 a1 a2 a3 s).links = s.links := Same.get (f := .links) (placePoison_foot a0 a1 a2 a3 s) rfl
@[simp] theorem placePoison_linkTimes (a0 : Nat) (a1 : BitVec 32) (a2 : Nat) (a3 : Nat) (s : State) : (placePoison a0 a1 a2 a3 s).linkTimes = s.linkTimes := Same.get (f := .linkTimes) (placePoison_foot a0 a1 a2 a3 s) rfl
@[simp] theorem placePoison_servo (a0 : Nat) (a1 : BitVec 32) (a2 : Nat) (a3 : Nat) (s : State) : (placePoison a0 a1 a2 a3 s).servo = s.servo := Same.get (f := .servo) (placePoison_foot a0 a1 a2 a3 s) rfl
@[simp] theorem placePoison_eth (a0 : Nat) (a1 : BitVec 32) (a2 : Nat) (a3 : Nat) (s : State) : (placePoison a0 a1 a2 a3 s).eth = s.eth := Same.get (f := .eth) (placePoison_foot a0 a1 a2 a3 s) rfl
@[simp] theorem placePoison_fw (a0 : Nat) (a1 : BitVec 32) (a2 : Nat) (a3 : Nat) (s : State) : (placePoison a0 a1 a2 a3 s).fw = s.fw := Same.get (f := .fw) (placePoison_foot a0 a1 a2 a3 s) rfl
@[simp] theorem placePoison_cal (a0 : Nat) (a1 : BitVec 32) (a2 : Nat) (a3 : Nat) (s : State) : (placePoison a0 a1 a2 a3 s).cal = s.cal := Same.get (f := .cal) (placePoison_foot a0 a1 a2 a3 s) rfl
@[simp] theorem placePoison_sens (a0 : Nat) (a1 : BitVec 32) (a2 : Nat) (a3 : Nat) (s : State) : (placePoison a0 a1 a2 a3 s).sens = s.sens := Same.get (f := .sens) (placePoison_foot a0 a1 a2 a3 s) rfl
@[simp] theorem placePoison_snsOn (a0 : Nat) (a1 : BitVec 32) (a2 : Nat) (a3 : Nat) (s : State) : (placePoison a0 a1 a2 a3 s).snsOn = s.snsOn := Same.get (f := .snsOn) (placePoison_foot a0 a1 a2 a3 s) rfl
@[simp] theorem placePoison_salts (a0 : Nat) (a1 : BitVec 32) (a2 : Nat) (a3 : Nat) (s : State) : (placePoison a0 a1 a2 a3 s).salts = s.salts := Same.get (f := .salts) (placePoison_foot a0 a1 a2 a3 s) rfl

/-! ### slotReport -/

theorem slotReport_foot (a0 : Nat) (a1 : Nat) (a2 : Nat) (a3 : Nat) (a4 : Nat) (s : State) : Same (fun f => [Fld.regs, Fld.strs, Fld.closes, Fld.exempt, Fld.trd, Fld.key, Fld.ver, Fld.free].contains f) s (slotReport a0 a1 a2 a3 a4 s) :=
  slotReport_same rfl rfl rfl rfl rfl rfl rfl rfl (Same.refl _ _)

@[simp] theorem slotReport_pending (a0 : Nat) (a1 : Nat) (a2 : Nat) (a3 : Nat) (a4 : Nat) (s : State) : (slotReport a0 a1 a2 a3 a4 s).pending = s.pending := Same.get (f := .pending) (slotReport_foot a0 a1 a2 a3 a4 s) rfl
@[simp] theorem slotReport_inst (a0 : Nat) (a1 : Nat) (a2 : Nat) (a3 : Nat) (a4 : Nat) (s : State) : (slotReport a0 a1 a2 a3 a4 s).inst = s.inst := Same.get (f := .inst) (slotReport_foot a0 a1 a2 a3 a4 s) rfl
@[simp] theorem slotReport_ready (a0 : Nat) (a1 : Nat) (a2 : Nat) (a3 : Nat) (a4 : Nat) (s : State) : (slotReport a0 a1 a2 a3 a4 s).ready = s.ready := Same.get (f := .ready) (slotReport_foot a0 a1 a2 a3 a4 s) rfl
@[simp] theorem slotReport_booting (a0 : Nat) (a1 : Nat) (a2 : Nat) (a3 : Nat) (a4 : Nat) (s : State) : (slotReport a0 a1 a2 a3 a4 s).booting = s.booting := Same.get (f := .booting) (slotReport_foot a0 a1 a2 a3 a4 s) rfl
@[simp] theorem slotReport_workHeld (a0 : Nat) (a1 : Nat) (a2 : Nat) (a3 : Nat) (a4 : Nat) (s : State) : (slotReport a0 a1 a2 a3 a4 s).workHeld = s.workHeld := Same.get (f := .workHeld) (slotReport_foot a0 a1 a2 a3 a4 s) rfl
@[simp] theorem slotReport_port (a0 : Nat) (a1 : Nat) (a2 : Nat) (a3 : Nat) (a4 : Nat) (s : State) : (slotReport a0 a1 a2 a3 a4 s).port = s.port := Same.get (f := .port) (slotReport_foot a0 a1 a2 a3 a4 s) rfl
@[simp] theorem slotReport_parts (a0 : Nat) (a1 : Nat) (a2 : Nat) (a3 : Nat) (a4 : Nat) (s : State) : (slotReport a0 a1 a2 a3 a4 s).parts = s.parts := Same.get (f := .parts) (slotReport_foot a0 a1 a2 a3 a4 s) rfl
@[simp] theorem slotReport_audit (a0 : Nat) (a1 : Nat) (a2 : Nat) (a3 : Nat) (a4 : Nat) (s : State) : (slotReport a0 a1 a2 a3 a4 s).audit = s.audit := Same.get (f := .audit) (slotReport_foot a0 a1 a2 a3 a4 s) rfl
@[simp] theorem slotReport_tim (a0 : Nat) (a1 : Nat) (a2 : Nat) (a3 : Nat) (a4 : Nat) (s : State) : (slotReport a0 a1 a2 a3 a4 s).tim = s.tim := Same.get (f := .tim) (slotReport_foot a0 a1 a2 a3 a4 s) rfl
@[simp] theorem slotReport_owed (a0 : Nat) (a1 : Nat) (a2 : Nat) (a3 : Nat) (a4 : Nat) (s : State) : (slotReport a0 a1 a2 a3 a4 s).owed = s.owed := Same.get (f := .owed) (slotReport_foot a0 a1 a2 a3 a4 s) rfl
@[simp] theorem slotReport_bobs (a0 : Nat) (a1 : Nat) (a2 : Nat) (a3 : Nat) (a4 : Nat) (s : State) : (slotReport a0 a1 a2 a3 a4 s).bobs = s.bobs := Same.get (f := .bobs) (slotReport_foot a0 a1 a2 a3 a4 s) rfl
@[simp] theorem slotReport_wports (a0 : Nat) (a1 : Nat) (a2 : Nat) (a3 : Nat) (a4 : Nat) (s : State) : (slotReport a0 a1 a2 a3 a4 s).wports = s.wports := Same.get (f := .wports) (slotReport_foot a0 a1 a2 a3 a4 s) rfl
@[simp] theorem slotReport_rport (a0 : Nat) (a1 : Nat) (a2 : Nat) (a3 : Nat) (a4 : Nat) (s : State) : (slotReport a0 a1 a2 a3 a4 s).rport = s.rport := Same.get (f := .rport) (slotReport_foot a0 a1 a2 a3 a4 s) rfl
@[simp] theorem slotReport_adopts (a0 : Nat) (a1 : Nat) (a2 : Nat) (a3 : Nat) (a4 : Nat) (s : State) : (slotReport a0 a1 a2 a3 a4 s).adopts = s.adopts := Same.get (f := .adopts) (slotReport_foot a0 a1 a2 a3 a4 s) rfl
@[simp] theorem slotReport_refused (a0 : Nat) (a1 : Nat) (a2 : Nat) (a3 : Nat) (a4 : Nat) (s : State) : (slotReport a0 a1 a2 a3 a4 s).refused = s.refused := Same.get (f := .refused) (slotReport_foot a0 a1 a2 a3 a4 s) rfl
@[simp] theorem slotReport_heds (a0 : Nat) (a1 : Nat) (a2 : Nat) (a3 : Nat) (a4 : Nat) (s : State) : (slotReport a0 a1 a2 a3 a4 s).heds = s.heds := Same.get (f := .heds) (slotReport_foot a0 a1 a2 a3 a4 s) rfl
@[simp] theorem slotReport_counts (a0 : Nat) (a1 : Nat) (a2 : Nat) (a3 : Nat) (a4 : Nat) (s : State) : (slotReport a0 a1 a2 a3 a4 s).counts = s.counts := Same.get (f := .counts) (slotReport_foot a0 a1 a2 a3 a4 s) rfl
@[simp] theorem slotReport_hedGovs (a0 : Nat) (a1 : Nat) (a2 : Nat) (a3 : Nat) (a4 : Nat) (s : State) : (slotReport a0 a1 a2 a3 a4 s).hedGovs = s.hedGovs := Same.get (f := .hedGovs) (slotReport_foot a0 a1 a2 a3 a4 s) rfl
@[simp] theorem slotReport_reedGovs (a0 : Nat) (a1 : Nat) (a2 : Nat) (a3 : Nat) (a4 : Nat) (s : State) : (slotReport a0 a1 a2 a3 a4 s).reedGovs = s.reedGovs := Same.get (f := .reedGovs) (slotReport_foot a0 a1 a2 a3 a4 s) rfl
@[simp] theorem slotReport_gov (a0 : Nat) (a1 : Nat) (a2 : Nat) (a3 : Nat) (a4 : Nat) (s : State) : (slotReport a0 a1 a2 a3 a4 s).gov = s.gov := Same.get (f := .gov) (slotReport_foot a0 a1 a2 a3 a4 s) rfl
@[simp] theorem slotReport_stop (a0 : Nat) (a1 : Nat) (a2 : Nat) (a3 : Nat) (a4 : Nat) (s : State) : (slotReport a0 a1 a2 a3 a4 s).stop = s.stop := Same.get (f := .stop) (slotReport_foot a0 a1 a2 a3 a4 s) rfl
@[simp] theorem slotReport_hedStops (a0 : Nat) (a1 : Nat) (a2 : Nat) (a3 : Nat) (a4 : Nat) (s : State) : (slotReport a0 a1 a2 a3 a4 s).hedStops = s.hedStops := Same.get (f := .hedStops) (slotReport_foot a0 a1 a2 a3 a4 s) rfl
@[simp] theorem slotReport_wits (a0 : Nat) (a1 : Nat) (a2 : Nat) (a3 : Nat) (a4 : Nat) (s : State) : (slotReport a0 a1 a2 a3 a4 s).wits = s.wits := Same.get (f := .wits) (slotReport_foot a0 a1 a2 a3 a4 s) rfl
@[simp] theorem slotReport_cards (a0 : Nat) (a1 : Nat) (a2 : Nat) (a3 : Nat) (a4 : Nat) (s : State) : (slotReport a0 a1 a2 a3 a4 s).cards = s.cards := Same.get (f := .cards) (slotReport_foot a0 a1 a2 a3 a4 s) rfl
@[simp] theorem slotReport_shadows (a0 : Nat) (a1 : Nat) (a2 : Nat) (a3 : Nat) (a4 : Nat) (s : State) : (slotReport a0 a1 a2 a3 a4 s).shadows = s.shadows := Same.get (f := .shadows) (slotReport_foot a0 a1 a2 a3 a4 s) rfl
@[simp] theorem slotReport_lapsed (a0 : Nat) (a1 : Nat) (a2 : Nat) (a3 : Nat) (a4 : Nat) (s : State) : (slotReport a0 a1 a2 a3 a4 s).lapsed = s.lapsed := Same.get (f := .lapsed) (slotReport_foot a0 a1 a2 a3 a4 s) rfl
@[simp] theorem slotReport_gates (a0 : Nat) (a1 : Nat) (a2 : Nat) (a3 : Nat) (a4 : Nat) (s : State) : (slotReport a0 a1 a2 a3 a4 s).gates = s.gates := Same.get (f := .gates) (slotReport_foot a0 a1 a2 a3 a4 s) rfl
@[simp] theorem slotReport_tests (a0 : Nat) (a1 : Nat) (a2 : Nat) (a3 : Nat) (a4 : Nat) (s : State) : (slotReport a0 a1 a2 a3 a4 s).tests = s.tests := Same.get (f := .tests) (slotReport_foot a0 a1 a2 a3 a4 s) rfl
@[simp] theorem slotReport_links (a0 : Nat) (a1 : Nat) (a2 : Nat) (a3 : Nat) (a4 : Nat) (s : State) : (slotReport a0 a1 a2 a3 a4 s).links = s.links := Same.get (f := .links) (slotReport_foot a0 a1 a2 a3 a4 s) rfl
@[simp] theorem slotReport_linkTimes (a0 : Nat) (a1 : Nat) (a2 : Nat) (a3 : Nat) (a4 : Nat) (s : State) : (slotReport a0 a1 a2 a3 a4 s).linkTimes = s.linkTimes := Same.get (f := .linkTimes) (slotReport_foot a0 a1 a2 a3 a4 s) rfl
@[simp] theorem slotReport_servo (a0 : Nat) (a1 : Nat) (a2 : Nat) (a3 : Nat) (a4 : Nat) (s : State) : (slotReport a0 a1 a2 a3 a4 s).servo = s.servo := Same.get (f := .servo) (slotReport_foot a0 a1 a2 a3 a4 s) rfl
@[simp] theorem slotReport_eth (a0 : Nat) (a1 : Nat) (a2 : Nat) (a3 : Nat) (a4 : Nat) (s : State) : (slotReport a0 a1 a2 a3 a4 s).eth = s.eth := Same.get (f := .eth) (slotReport_foot a0 a1 a2 a3 a4 s) rfl
@[simp] theorem slotReport_fw (a0 : Nat) (a1 : Nat) (a2 : Nat) (a3 : Nat) (a4 : Nat) (s : State) : (slotReport a0 a1 a2 a3 a4 s).fw = s.fw := Same.get (f := .fw) (slotReport_foot a0 a1 a2 a3 a4 s) rfl
@[simp] theorem slotReport_cal (a0 : Nat) (a1 : Nat) (a2 : Nat) (a3 : Nat) (a4 : Nat) (s : State) : (slotReport a0 a1 a2 a3 a4 s).cal = s.cal := Same.get (f := .cal) (slotReport_foot a0 a1 a2 a3 a4 s) rfl
@[simp] theorem slotReport_sens (a0 : Nat) (a1 : Nat) (a2 : Nat) (a3 : Nat) (a4 : Nat) (s : State) : (slotReport a0 a1 a2 a3 a4 s).sens = s.sens := Same.get (f := .sens) (slotReport_foot a0 a1 a2 a3 a4 s) rfl
@[simp] theorem slotReport_snsOn (a0 : Nat) (a1 : Nat) (a2 : Nat) (a3 : Nat) (a4 : Nat) (s : State) : (slotReport a0 a1 a2 a3 a4 s).snsOn = s.snsOn := Same.get (f := .snsOn) (slotReport_foot a0 a1 a2 a3 a4 s) rfl
@[simp] theorem slotReport_salts (a0 : Nat) (a1 : Nat) (a2 : Nat) (a3 : Nat) (a4 : Nat) (s : State) : (slotReport a0 a1 a2 a3 a4 s).salts = s.salts := Same.get (f := .salts) (slotReport_foot a0 a1 a2 a3 a4 s) rfl

/-! ### timeRecord -/

theorem timeRecord_foot (a0 : Nat) (a1 : Nat) (a2 : At) (a3 : Int) (s : State) : Same (fun f => [Fld.regs, Fld.owed, Fld.strs, Fld.closes, Fld.exempt, Fld.refused, Fld.trd, Fld.key].contains f) s (timeRecord a0 a1 a2 a3 s) :=
  timeRecord_same rfl rfl rfl rfl rfl rfl rfl rfl (Same.refl _ _)

@[simp] theorem timeRecord_pending (a0 : Nat) (a1 : Nat) (a2 : At) (a3 : Int) (s : State) : (timeRecord a0 a1 a2 a3 s).pending = s.pending := Same.get (f := .pending) (timeRecord_foot a0 a1 a2 a3 s) rfl
@[simp] theorem timeRecord_inst (a0 : Nat) (a1 : Nat) (a2 : At) (a3 : Int) (s : State) : (timeRecord a0 a1 a2 a3 s).inst = s.inst := Same.get (f := .inst) (timeRecord_foot a0 a1 a2 a3 s) rfl
@[simp] theorem timeRecord_ready (a0 : Nat) (a1 : Nat) (a2 : At) (a3 : Int) (s : State) : (timeRecord a0 a1 a2 a3 s).ready = s.ready := Same.get (f := .ready) (timeRecord_foot a0 a1 a2 a3 s) rfl
@[simp] theorem timeRecord_booting (a0 : Nat) (a1 : Nat) (a2 : At) (a3 : Int) (s : State) : (timeRecord a0 a1 a2 a3 s).booting = s.booting := Same.get (f := .booting) (timeRecord_foot a0 a1 a2 a3 s) rfl
@[simp] theorem timeRecord_workHeld (a0 : Nat) (a1 : Nat) (a2 : At) (a3 : Int) (s : State) : (timeRecord a0 a1 a2 a3 s).workHeld = s.workHeld := Same.get (f := .workHeld) (timeRecord_foot a0 a1 a2 a3 s) rfl
@[simp] theorem timeRecord_port (a0 : Nat) (a1 : Nat) (a2 : At) (a3 : Int) (s : State) : (timeRecord a0 a1 a2 a3 s).port = s.port := Same.get (f := .port) (timeRecord_foot a0 a1 a2 a3 s) rfl
@[simp] theorem timeRecord_parts (a0 : Nat) (a1 : Nat) (a2 : At) (a3 : Int) (s : State) : (timeRecord a0 a1 a2 a3 s).parts = s.parts := Same.get (f := .parts) (timeRecord_foot a0 a1 a2 a3 s) rfl
@[simp] theorem timeRecord_audit (a0 : Nat) (a1 : Nat) (a2 : At) (a3 : Int) (s : State) : (timeRecord a0 a1 a2 a3 s).audit = s.audit := Same.get (f := .audit) (timeRecord_foot a0 a1 a2 a3 s) rfl
@[simp] theorem timeRecord_tim (a0 : Nat) (a1 : Nat) (a2 : At) (a3 : Int) (s : State) : (timeRecord a0 a1 a2 a3 s).tim = s.tim := Same.get (f := .tim) (timeRecord_foot a0 a1 a2 a3 s) rfl
@[simp] theorem timeRecord_bobs (a0 : Nat) (a1 : Nat) (a2 : At) (a3 : Int) (s : State) : (timeRecord a0 a1 a2 a3 s).bobs = s.bobs := Same.get (f := .bobs) (timeRecord_foot a0 a1 a2 a3 s) rfl
@[simp] theorem timeRecord_wports (a0 : Nat) (a1 : Nat) (a2 : At) (a3 : Int) (s : State) : (timeRecord a0 a1 a2 a3 s).wports = s.wports := Same.get (f := .wports) (timeRecord_foot a0 a1 a2 a3 s) rfl
@[simp] theorem timeRecord_rport (a0 : Nat) (a1 : Nat) (a2 : At) (a3 : Int) (s : State) : (timeRecord a0 a1 a2 a3 s).rport = s.rport := Same.get (f := .rport) (timeRecord_foot a0 a1 a2 a3 s) rfl
@[simp] theorem timeRecord_adopts (a0 : Nat) (a1 : Nat) (a2 : At) (a3 : Int) (s : State) : (timeRecord a0 a1 a2 a3 s).adopts = s.adopts := Same.get (f := .adopts) (timeRecord_foot a0 a1 a2 a3 s) rfl
@[simp] theorem timeRecord_heds (a0 : Nat) (a1 : Nat) (a2 : At) (a3 : Int) (s : State) : (timeRecord a0 a1 a2 a3 s).heds = s.heds := Same.get (f := .heds) (timeRecord_foot a0 a1 a2 a3 s) rfl
@[simp] theorem timeRecord_counts (a0 : Nat) (a1 : Nat) (a2 : At) (a3 : Int) (s : State) : (timeRecord a0 a1 a2 a3 s).counts = s.counts := Same.get (f := .counts) (timeRecord_foot a0 a1 a2 a3 s) rfl
@[simp] theorem timeRecord_hedGovs (a0 : Nat) (a1 : Nat) (a2 : At) (a3 : Int) (s : State) : (timeRecord a0 a1 a2 a3 s).hedGovs = s.hedGovs := Same.get (f := .hedGovs) (timeRecord_foot a0 a1 a2 a3 s) rfl
@[simp] theorem timeRecord_reedGovs (a0 : Nat) (a1 : Nat) (a2 : At) (a3 : Int) (s : State) : (timeRecord a0 a1 a2 a3 s).reedGovs = s.reedGovs := Same.get (f := .reedGovs) (timeRecord_foot a0 a1 a2 a3 s) rfl
@[simp] theorem timeRecord_gov (a0 : Nat) (a1 : Nat) (a2 : At) (a3 : Int) (s : State) : (timeRecord a0 a1 a2 a3 s).gov = s.gov := Same.get (f := .gov) (timeRecord_foot a0 a1 a2 a3 s) rfl
@[simp] theorem timeRecord_stop (a0 : Nat) (a1 : Nat) (a2 : At) (a3 : Int) (s : State) : (timeRecord a0 a1 a2 a3 s).stop = s.stop := Same.get (f := .stop) (timeRecord_foot a0 a1 a2 a3 s) rfl
@[simp] theorem timeRecord_hedStops (a0 : Nat) (a1 : Nat) (a2 : At) (a3 : Int) (s : State) : (timeRecord a0 a1 a2 a3 s).hedStops = s.hedStops := Same.get (f := .hedStops) (timeRecord_foot a0 a1 a2 a3 s) rfl
@[simp] theorem timeRecord_wits (a0 : Nat) (a1 : Nat) (a2 : At) (a3 : Int) (s : State) : (timeRecord a0 a1 a2 a3 s).wits = s.wits := Same.get (f := .wits) (timeRecord_foot a0 a1 a2 a3 s) rfl
@[simp] theorem timeRecord_cards (a0 : Nat) (a1 : Nat) (a2 : At) (a3 : Int) (s : State) : (timeRecord a0 a1 a2 a3 s).cards = s.cards := Same.get (f := .cards) (timeRecord_foot a0 a1 a2 a3 s) rfl
@[simp] theorem timeRecord_shadows (a0 : Nat) (a1 : Nat) (a2 : At) (a3 : Int) (s : State) : (timeRecord a0 a1 a2 a3 s).shadows = s.shadows := Same.get (f := .shadows) (timeRecord_foot a0 a1 a2 a3 s) rfl
@[simp] theorem timeRecord_lapsed (a0 : Nat) (a1 : Nat) (a2 : At) (a3 : Int) (s : State) : (timeRecord a0 a1 a2 a3 s).lapsed = s.lapsed := Same.get (f := .lapsed) (timeRecord_foot a0 a1 a2 a3 s) rfl
@[simp] theorem timeRecord_ver (a0 : Nat) (a1 : Nat) (a2 : At) (a3 : Int) (s : State) : (timeRecord a0 a1 a2 a3 s).ver = s.ver := Same.get (f := .ver) (timeRecord_foot a0 a1 a2 a3 s) rfl
@[simp] theorem timeRecord_gates (a0 : Nat) (a1 : Nat) (a2 : At) (a3 : Int) (s : State) : (timeRecord a0 a1 a2 a3 s).gates = s.gates := Same.get (f := .gates) (timeRecord_foot a0 a1 a2 a3 s) rfl
@[simp] theorem timeRecord_tests (a0 : Nat) (a1 : Nat) (a2 : At) (a3 : Int) (s : State) : (timeRecord a0 a1 a2 a3 s).tests = s.tests := Same.get (f := .tests) (timeRecord_foot a0 a1 a2 a3 s) rfl
@[simp] theorem timeRecord_links (a0 : Nat) (a1 : Nat) (a2 : At) (a3 : Int) (s : State) : (timeRecord a0 a1 a2 a3 s).links = s.links := Same.get (f := .links) (timeRecord_foot a0 a1 a2 a3 s) rfl
@[simp] theorem timeRecord_linkTimes (a0 : Nat) (a1 : Nat) (a2 : At) (a3 : Int) (s : State) : (timeRecord a0 a1 a2 a3 s).linkTimes = s.linkTimes := Same.get (f := .linkTimes) (timeRecord_foot a0 a1 a2 a3 s) rfl
@[simp] theorem timeRecord_servo (a0 : Nat) (a1 : Nat) (a2 : At) (a3 : Int) (s : State) : (timeRecord a0 a1 a2 a3 s).servo = s.servo := Same.get (f := .servo) (timeRecord_foot a0 a1 a2 a3 s) rfl
@[simp] theorem timeRecord_eth (a0 : Nat) (a1 : Nat) (a2 : At) (a3 : Int) (s : State) : (timeRecord a0 a1 a2 a3 s).eth = s.eth := Same.get (f := .eth) (timeRecord_foot a0 a1 a2 a3 s) rfl
@[simp] theorem timeRecord_fw (a0 : Nat) (a1 : Nat) (a2 : At) (a3 : Int) (s : State) : (timeRecord a0 a1 a2 a3 s).fw = s.fw := Same.get (f := .fw) (timeRecord_foot a0 a1 a2 a3 s) rfl
@[simp] theorem timeRecord_cal (a0 : Nat) (a1 : Nat) (a2 : At) (a3 : Int) (s : State) : (timeRecord a0 a1 a2 a3 s).cal = s.cal := Same.get (f := .cal) (timeRecord_foot a0 a1 a2 a3 s) rfl
@[simp] theorem timeRecord_sens (a0 : Nat) (a1 : Nat) (a2 : At) (a3 : Int) (s : State) : (timeRecord a0 a1 a2 a3 s).sens = s.sens := Same.get (f := .sens) (timeRecord_foot a0 a1 a2 a3 s) rfl
@[simp] theorem timeRecord_snsOn (a0 : Nat) (a1 : Nat) (a2 : At) (a3 : Int) (s : State) : (timeRecord a0 a1 a2 a3 s).snsOn = s.snsOn := Same.get (f := .snsOn) (timeRecord_foot a0 a1 a2 a3 s) rfl
@[simp] theorem timeRecord_free (a0 : Nat) (a1 : Nat) (a2 : At) (a3 : Int) (s : State) : (timeRecord a0 a1 a2 a3 s).free = s.free := Same.get (f := .free) (timeRecord_foot a0 a1 a2 a3 s) rfl
@[simp] theorem timeRecord_salts (a0 : Nat) (a1 : Nat) (a2 : At) (a3 : Int) (s : State) : (timeRecord a0 a1 a2 a3 s).salts = s.salts := Same.get (f := .salts) (timeRecord_foot a0 a1 a2 a3 s) rfl

/-! ### linkEvent -/

theorem linkEvent_foot (a0 : Nat) (a1 : Nat) (a2 : At) (a3 : BitVec 2) (a4 : Nat) (s : State) : Same (fun f => [Fld.links].contains f) s (linkEvent a0 a1 a2 a3 a4 s) :=
  linkEvent_same rfl (Same.refl _ _)

@[simp] theorem linkEvent_pending (a0 : Nat) (a1 : Nat) (a2 : At) (a3 : BitVec 2) (a4 : Nat) (s : State) : (linkEvent a0 a1 a2 a3 a4 s).pending = s.pending := Same.get (f := .pending) (linkEvent_foot a0 a1 a2 a3 a4 s) rfl
@[simp] theorem linkEvent_inst (a0 : Nat) (a1 : Nat) (a2 : At) (a3 : BitVec 2) (a4 : Nat) (s : State) : (linkEvent a0 a1 a2 a3 a4 s).inst = s.inst := Same.get (f := .inst) (linkEvent_foot a0 a1 a2 a3 a4 s) rfl
@[simp] theorem linkEvent_ready (a0 : Nat) (a1 : Nat) (a2 : At) (a3 : BitVec 2) (a4 : Nat) (s : State) : (linkEvent a0 a1 a2 a3 a4 s).ready = s.ready := Same.get (f := .ready) (linkEvent_foot a0 a1 a2 a3 a4 s) rfl
@[simp] theorem linkEvent_booting (a0 : Nat) (a1 : Nat) (a2 : At) (a3 : BitVec 2) (a4 : Nat) (s : State) : (linkEvent a0 a1 a2 a3 a4 s).booting = s.booting := Same.get (f := .booting) (linkEvent_foot a0 a1 a2 a3 a4 s) rfl
@[simp] theorem linkEvent_workHeld (a0 : Nat) (a1 : Nat) (a2 : At) (a3 : BitVec 2) (a4 : Nat) (s : State) : (linkEvent a0 a1 a2 a3 a4 s).workHeld = s.workHeld := Same.get (f := .workHeld) (linkEvent_foot a0 a1 a2 a3 a4 s) rfl
@[simp] theorem linkEvent_port (a0 : Nat) (a1 : Nat) (a2 : At) (a3 : BitVec 2) (a4 : Nat) (s : State) : (linkEvent a0 a1 a2 a3 a4 s).port = s.port := Same.get (f := .port) (linkEvent_foot a0 a1 a2 a3 a4 s) rfl
@[simp] theorem linkEvent_regs (a0 : Nat) (a1 : Nat) (a2 : At) (a3 : BitVec 2) (a4 : Nat) (s : State) : (linkEvent a0 a1 a2 a3 a4 s).regs = s.regs := Same.get (f := .regs) (linkEvent_foot a0 a1 a2 a3 a4 s) rfl
@[simp] theorem linkEvent_parts (a0 : Nat) (a1 : Nat) (a2 : At) (a3 : BitVec 2) (a4 : Nat) (s : State) : (linkEvent a0 a1 a2 a3 a4 s).parts = s.parts := Same.get (f := .parts) (linkEvent_foot a0 a1 a2 a3 a4 s) rfl
@[simp] theorem linkEvent_audit (a0 : Nat) (a1 : Nat) (a2 : At) (a3 : BitVec 2) (a4 : Nat) (s : State) : (linkEvent a0 a1 a2 a3 a4 s).audit = s.audit := Same.get (f := .audit) (linkEvent_foot a0 a1 a2 a3 a4 s) rfl
@[simp] theorem linkEvent_tim (a0 : Nat) (a1 : Nat) (a2 : At) (a3 : BitVec 2) (a4 : Nat) (s : State) : (linkEvent a0 a1 a2 a3 a4 s).tim = s.tim := Same.get (f := .tim) (linkEvent_foot a0 a1 a2 a3 a4 s) rfl
@[simp] theorem linkEvent_owed (a0 : Nat) (a1 : Nat) (a2 : At) (a3 : BitVec 2) (a4 : Nat) (s : State) : (linkEvent a0 a1 a2 a3 a4 s).owed = s.owed := Same.get (f := .owed) (linkEvent_foot a0 a1 a2 a3 a4 s) rfl
@[simp] theorem linkEvent_strs (a0 : Nat) (a1 : Nat) (a2 : At) (a3 : BitVec 2) (a4 : Nat) (s : State) : (linkEvent a0 a1 a2 a3 a4 s).strs = s.strs := Same.get (f := .strs) (linkEvent_foot a0 a1 a2 a3 a4 s) rfl
@[simp] theorem linkEvent_closes (a0 : Nat) (a1 : Nat) (a2 : At) (a3 : BitVec 2) (a4 : Nat) (s : State) : (linkEvent a0 a1 a2 a3 a4 s).closes = s.closes := Same.get (f := .closes) (linkEvent_foot a0 a1 a2 a3 a4 s) rfl
@[simp] theorem linkEvent_bobs (a0 : Nat) (a1 : Nat) (a2 : At) (a3 : BitVec 2) (a4 : Nat) (s : State) : (linkEvent a0 a1 a2 a3 a4 s).bobs = s.bobs := Same.get (f := .bobs) (linkEvent_foot a0 a1 a2 a3 a4 s) rfl
@[simp] theorem linkEvent_wports (a0 : Nat) (a1 : Nat) (a2 : At) (a3 : BitVec 2) (a4 : Nat) (s : State) : (linkEvent a0 a1 a2 a3 a4 s).wports = s.wports := Same.get (f := .wports) (linkEvent_foot a0 a1 a2 a3 a4 s) rfl
@[simp] theorem linkEvent_rport (a0 : Nat) (a1 : Nat) (a2 : At) (a3 : BitVec 2) (a4 : Nat) (s : State) : (linkEvent a0 a1 a2 a3 a4 s).rport = s.rport := Same.get (f := .rport) (linkEvent_foot a0 a1 a2 a3 a4 s) rfl
@[simp] theorem linkEvent_adopts (a0 : Nat) (a1 : Nat) (a2 : At) (a3 : BitVec 2) (a4 : Nat) (s : State) : (linkEvent a0 a1 a2 a3 a4 s).adopts = s.adopts := Same.get (f := .adopts) (linkEvent_foot a0 a1 a2 a3 a4 s) rfl
@[simp] theorem linkEvent_exempt (a0 : Nat) (a1 : Nat) (a2 : At) (a3 : BitVec 2) (a4 : Nat) (s : State) : (linkEvent a0 a1 a2 a3 a4 s).exempt = s.exempt := Same.get (f := .exempt) (linkEvent_foot a0 a1 a2 a3 a4 s) rfl
@[simp] theorem linkEvent_refused (a0 : Nat) (a1 : Nat) (a2 : At) (a3 : BitVec 2) (a4 : Nat) (s : State) : (linkEvent a0 a1 a2 a3 a4 s).refused = s.refused := Same.get (f := .refused) (linkEvent_foot a0 a1 a2 a3 a4 s) rfl
@[simp] theorem linkEvent_heds (a0 : Nat) (a1 : Nat) (a2 : At) (a3 : BitVec 2) (a4 : Nat) (s : State) : (linkEvent a0 a1 a2 a3 a4 s).heds = s.heds := Same.get (f := .heds) (linkEvent_foot a0 a1 a2 a3 a4 s) rfl
@[simp] theorem linkEvent_counts (a0 : Nat) (a1 : Nat) (a2 : At) (a3 : BitVec 2) (a4 : Nat) (s : State) : (linkEvent a0 a1 a2 a3 a4 s).counts = s.counts := Same.get (f := .counts) (linkEvent_foot a0 a1 a2 a3 a4 s) rfl
@[simp] theorem linkEvent_hedGovs (a0 : Nat) (a1 : Nat) (a2 : At) (a3 : BitVec 2) (a4 : Nat) (s : State) : (linkEvent a0 a1 a2 a3 a4 s).hedGovs = s.hedGovs := Same.get (f := .hedGovs) (linkEvent_foot a0 a1 a2 a3 a4 s) rfl
@[simp] theorem linkEvent_reedGovs (a0 : Nat) (a1 : Nat) (a2 : At) (a3 : BitVec 2) (a4 : Nat) (s : State) : (linkEvent a0 a1 a2 a3 a4 s).reedGovs = s.reedGovs := Same.get (f := .reedGovs) (linkEvent_foot a0 a1 a2 a3 a4 s) rfl
@[simp] theorem linkEvent_gov (a0 : Nat) (a1 : Nat) (a2 : At) (a3 : BitVec 2) (a4 : Nat) (s : State) : (linkEvent a0 a1 a2 a3 a4 s).gov = s.gov := Same.get (f := .gov) (linkEvent_foot a0 a1 a2 a3 a4 s) rfl
@[simp] theorem linkEvent_trd (a0 : Nat) (a1 : Nat) (a2 : At) (a3 : BitVec 2) (a4 : Nat) (s : State) : (linkEvent a0 a1 a2 a3 a4 s).trd = s.trd := Same.get (f := .trd) (linkEvent_foot a0 a1 a2 a3 a4 s) rfl
@[simp] theorem linkEvent_stop (a0 : Nat) (a1 : Nat) (a2 : At) (a3 : BitVec 2) (a4 : Nat) (s : State) : (linkEvent a0 a1 a2 a3 a4 s).stop = s.stop := Same.get (f := .stop) (linkEvent_foot a0 a1 a2 a3 a4 s) rfl
@[simp] theorem linkEvent_hedStops (a0 : Nat) (a1 : Nat) (a2 : At) (a3 : BitVec 2) (a4 : Nat) (s : State) : (linkEvent a0 a1 a2 a3 a4 s).hedStops = s.hedStops := Same.get (f := .hedStops) (linkEvent_foot a0 a1 a2 a3 a4 s) rfl
@[simp] theorem linkEvent_key (a0 : Nat) (a1 : Nat) (a2 : At) (a3 : BitVec 2) (a4 : Nat) (s : State) : (linkEvent a0 a1 a2 a3 a4 s).key = s.key := Same.get (f := .key) (linkEvent_foot a0 a1 a2 a3 a4 s) rfl
@[simp] theorem linkEvent_wits (a0 : Nat) (a1 : Nat) (a2 : At) (a3 : BitVec 2) (a4 : Nat) (s : State) : (linkEvent a0 a1 a2 a3 a4 s).wits = s.wits := Same.get (f := .wits) (linkEvent_foot a0 a1 a2 a3 a4 s) rfl
@[simp] theorem linkEvent_cards (a0 : Nat) (a1 : Nat) (a2 : At) (a3 : BitVec 2) (a4 : Nat) (s : State) : (linkEvent a0 a1 a2 a3 a4 s).cards = s.cards := Same.get (f := .cards) (linkEvent_foot a0 a1 a2 a3 a4 s) rfl
@[simp] theorem linkEvent_shadows (a0 : Nat) (a1 : Nat) (a2 : At) (a3 : BitVec 2) (a4 : Nat) (s : State) : (linkEvent a0 a1 a2 a3 a4 s).shadows = s.shadows := Same.get (f := .shadows) (linkEvent_foot a0 a1 a2 a3 a4 s) rfl
@[simp] theorem linkEvent_lapsed (a0 : Nat) (a1 : Nat) (a2 : At) (a3 : BitVec 2) (a4 : Nat) (s : State) : (linkEvent a0 a1 a2 a3 a4 s).lapsed = s.lapsed := Same.get (f := .lapsed) (linkEvent_foot a0 a1 a2 a3 a4 s) rfl
@[simp] theorem linkEvent_ver (a0 : Nat) (a1 : Nat) (a2 : At) (a3 : BitVec 2) (a4 : Nat) (s : State) : (linkEvent a0 a1 a2 a3 a4 s).ver = s.ver := Same.get (f := .ver) (linkEvent_foot a0 a1 a2 a3 a4 s) rfl
@[simp] theorem linkEvent_gates (a0 : Nat) (a1 : Nat) (a2 : At) (a3 : BitVec 2) (a4 : Nat) (s : State) : (linkEvent a0 a1 a2 a3 a4 s).gates = s.gates := Same.get (f := .gates) (linkEvent_foot a0 a1 a2 a3 a4 s) rfl
@[simp] theorem linkEvent_tests (a0 : Nat) (a1 : Nat) (a2 : At) (a3 : BitVec 2) (a4 : Nat) (s : State) : (linkEvent a0 a1 a2 a3 a4 s).tests = s.tests := Same.get (f := .tests) (linkEvent_foot a0 a1 a2 a3 a4 s) rfl
@[simp] theorem linkEvent_linkTimes (a0 : Nat) (a1 : Nat) (a2 : At) (a3 : BitVec 2) (a4 : Nat) (s : State) : (linkEvent a0 a1 a2 a3 a4 s).linkTimes = s.linkTimes := Same.get (f := .linkTimes) (linkEvent_foot a0 a1 a2 a3 a4 s) rfl
@[simp] theorem linkEvent_servo (a0 : Nat) (a1 : Nat) (a2 : At) (a3 : BitVec 2) (a4 : Nat) (s : State) : (linkEvent a0 a1 a2 a3 a4 s).servo = s.servo := Same.get (f := .servo) (linkEvent_foot a0 a1 a2 a3 a4 s) rfl
@[simp] theorem linkEvent_eth (a0 : Nat) (a1 : Nat) (a2 : At) (a3 : BitVec 2) (a4 : Nat) (s : State) : (linkEvent a0 a1 a2 a3 a4 s).eth = s.eth := Same.get (f := .eth) (linkEvent_foot a0 a1 a2 a3 a4 s) rfl
@[simp] theorem linkEvent_fw (a0 : Nat) (a1 : Nat) (a2 : At) (a3 : BitVec 2) (a4 : Nat) (s : State) : (linkEvent a0 a1 a2 a3 a4 s).fw = s.fw := Same.get (f := .fw) (linkEvent_foot a0 a1 a2 a3 a4 s) rfl
@[simp] theorem linkEvent_cal (a0 : Nat) (a1 : Nat) (a2 : At) (a3 : BitVec 2) (a4 : Nat) (s : State) : (linkEvent a0 a1 a2 a3 a4 s).cal = s.cal := Same.get (f := .cal) (linkEvent_foot a0 a1 a2 a3 a4 s) rfl
@[simp] theorem linkEvent_sens (a0 : Nat) (a1 : Nat) (a2 : At) (a3 : BitVec 2) (a4 : Nat) (s : State) : (linkEvent a0 a1 a2 a3 a4 s).sens = s.sens := Same.get (f := .sens) (linkEvent_foot a0 a1 a2 a3 a4 s) rfl
@[simp] theorem linkEvent_snsOn (a0 : Nat) (a1 : Nat) (a2 : At) (a3 : BitVec 2) (a4 : Nat) (s : State) : (linkEvent a0 a1 a2 a3 a4 s).snsOn = s.snsOn := Same.get (f := .snsOn) (linkEvent_foot a0 a1 a2 a3 a4 s) rfl
@[simp] theorem linkEvent_free (a0 : Nat) (a1 : Nat) (a2 : At) (a3 : BitVec 2) (a4 : Nat) (s : State) : (linkEvent a0 a1 a2 a3 a4 s).free = s.free := Same.get (f := .free) (linkEvent_foot a0 a1 a2 a3 a4 s) rfl
@[simp] theorem linkEvent_salts (a0 : Nat) (a1 : Nat) (a2 : At) (a3 : BitVec 2) (a4 : Nat) (s : State) : (linkEvent a0 a1 a2 a3 a4 s).salts = s.salts := Same.get (f := .salts) (linkEvent_foot a0 a1 a2 a3 a4 s) rfl

/-! ### transition -/

theorem transition_foot (a0 : Nat) (a1 : PState) (a2 : BitVec 8) (s : State) : Same (fun f => [Fld.parts].contains f) s (transition a0 a1 a2 s) :=
  transition_same rfl (Same.refl _ _)

@[simp] theorem transition_pending (a0 : Nat) (a1 : PState) (a2 : BitVec 8) (s : State) : (transition a0 a1 a2 s).pending = s.pending := Same.get (f := .pending) (transition_foot a0 a1 a2 s) rfl
@[simp] theorem transition_inst (a0 : Nat) (a1 : PState) (a2 : BitVec 8) (s : State) : (transition a0 a1 a2 s).inst = s.inst := Same.get (f := .inst) (transition_foot a0 a1 a2 s) rfl
@[simp] theorem transition_ready (a0 : Nat) (a1 : PState) (a2 : BitVec 8) (s : State) : (transition a0 a1 a2 s).ready = s.ready := Same.get (f := .ready) (transition_foot a0 a1 a2 s) rfl
@[simp] theorem transition_booting (a0 : Nat) (a1 : PState) (a2 : BitVec 8) (s : State) : (transition a0 a1 a2 s).booting = s.booting := Same.get (f := .booting) (transition_foot a0 a1 a2 s) rfl
@[simp] theorem transition_workHeld (a0 : Nat) (a1 : PState) (a2 : BitVec 8) (s : State) : (transition a0 a1 a2 s).workHeld = s.workHeld := Same.get (f := .workHeld) (transition_foot a0 a1 a2 s) rfl
@[simp] theorem transition_port (a0 : Nat) (a1 : PState) (a2 : BitVec 8) (s : State) : (transition a0 a1 a2 s).port = s.port := Same.get (f := .port) (transition_foot a0 a1 a2 s) rfl
@[simp] theorem transition_regs (a0 : Nat) (a1 : PState) (a2 : BitVec 8) (s : State) : (transition a0 a1 a2 s).regs = s.regs := Same.get (f := .regs) (transition_foot a0 a1 a2 s) rfl
@[simp] theorem transition_audit (a0 : Nat) (a1 : PState) (a2 : BitVec 8) (s : State) : (transition a0 a1 a2 s).audit = s.audit := Same.get (f := .audit) (transition_foot a0 a1 a2 s) rfl
@[simp] theorem transition_tim (a0 : Nat) (a1 : PState) (a2 : BitVec 8) (s : State) : (transition a0 a1 a2 s).tim = s.tim := Same.get (f := .tim) (transition_foot a0 a1 a2 s) rfl
@[simp] theorem transition_owed (a0 : Nat) (a1 : PState) (a2 : BitVec 8) (s : State) : (transition a0 a1 a2 s).owed = s.owed := Same.get (f := .owed) (transition_foot a0 a1 a2 s) rfl
@[simp] theorem transition_strs (a0 : Nat) (a1 : PState) (a2 : BitVec 8) (s : State) : (transition a0 a1 a2 s).strs = s.strs := Same.get (f := .strs) (transition_foot a0 a1 a2 s) rfl
@[simp] theorem transition_closes (a0 : Nat) (a1 : PState) (a2 : BitVec 8) (s : State) : (transition a0 a1 a2 s).closes = s.closes := Same.get (f := .closes) (transition_foot a0 a1 a2 s) rfl
@[simp] theorem transition_bobs (a0 : Nat) (a1 : PState) (a2 : BitVec 8) (s : State) : (transition a0 a1 a2 s).bobs = s.bobs := Same.get (f := .bobs) (transition_foot a0 a1 a2 s) rfl
@[simp] theorem transition_wports (a0 : Nat) (a1 : PState) (a2 : BitVec 8) (s : State) : (transition a0 a1 a2 s).wports = s.wports := Same.get (f := .wports) (transition_foot a0 a1 a2 s) rfl
@[simp] theorem transition_rport (a0 : Nat) (a1 : PState) (a2 : BitVec 8) (s : State) : (transition a0 a1 a2 s).rport = s.rport := Same.get (f := .rport) (transition_foot a0 a1 a2 s) rfl
@[simp] theorem transition_adopts (a0 : Nat) (a1 : PState) (a2 : BitVec 8) (s : State) : (transition a0 a1 a2 s).adopts = s.adopts := Same.get (f := .adopts) (transition_foot a0 a1 a2 s) rfl
@[simp] theorem transition_exempt (a0 : Nat) (a1 : PState) (a2 : BitVec 8) (s : State) : (transition a0 a1 a2 s).exempt = s.exempt := Same.get (f := .exempt) (transition_foot a0 a1 a2 s) rfl
@[simp] theorem transition_refused (a0 : Nat) (a1 : PState) (a2 : BitVec 8) (s : State) : (transition a0 a1 a2 s).refused = s.refused := Same.get (f := .refused) (transition_foot a0 a1 a2 s) rfl
@[simp] theorem transition_heds (a0 : Nat) (a1 : PState) (a2 : BitVec 8) (s : State) : (transition a0 a1 a2 s).heds = s.heds := Same.get (f := .heds) (transition_foot a0 a1 a2 s) rfl
@[simp] theorem transition_counts (a0 : Nat) (a1 : PState) (a2 : BitVec 8) (s : State) : (transition a0 a1 a2 s).counts = s.counts := Same.get (f := .counts) (transition_foot a0 a1 a2 s) rfl
@[simp] theorem transition_hedGovs (a0 : Nat) (a1 : PState) (a2 : BitVec 8) (s : State) : (transition a0 a1 a2 s).hedGovs = s.hedGovs := Same.get (f := .hedGovs) (transition_foot a0 a1 a2 s) rfl
@[simp] theorem transition_reedGovs (a0 : Nat) (a1 : PState) (a2 : BitVec 8) (s : State) : (transition a0 a1 a2 s).reedGovs = s.reedGovs := Same.get (f := .reedGovs) (transition_foot a0 a1 a2 s) rfl
@[simp] theorem transition_gov (a0 : Nat) (a1 : PState) (a2 : BitVec 8) (s : State) : (transition a0 a1 a2 s).gov = s.gov := Same.get (f := .gov) (transition_foot a0 a1 a2 s) rfl
@[simp] theorem transition_trd (a0 : Nat) (a1 : PState) (a2 : BitVec 8) (s : State) : (transition a0 a1 a2 s).trd = s.trd := Same.get (f := .trd) (transition_foot a0 a1 a2 s) rfl
@[simp] theorem transition_stop (a0 : Nat) (a1 : PState) (a2 : BitVec 8) (s : State) : (transition a0 a1 a2 s).stop = s.stop := Same.get (f := .stop) (transition_foot a0 a1 a2 s) rfl
@[simp] theorem transition_hedStops (a0 : Nat) (a1 : PState) (a2 : BitVec 8) (s : State) : (transition a0 a1 a2 s).hedStops = s.hedStops := Same.get (f := .hedStops) (transition_foot a0 a1 a2 s) rfl
@[simp] theorem transition_key (a0 : Nat) (a1 : PState) (a2 : BitVec 8) (s : State) : (transition a0 a1 a2 s).key = s.key := Same.get (f := .key) (transition_foot a0 a1 a2 s) rfl
@[simp] theorem transition_wits (a0 : Nat) (a1 : PState) (a2 : BitVec 8) (s : State) : (transition a0 a1 a2 s).wits = s.wits := Same.get (f := .wits) (transition_foot a0 a1 a2 s) rfl
@[simp] theorem transition_cards (a0 : Nat) (a1 : PState) (a2 : BitVec 8) (s : State) : (transition a0 a1 a2 s).cards = s.cards := Same.get (f := .cards) (transition_foot a0 a1 a2 s) rfl
@[simp] theorem transition_shadows (a0 : Nat) (a1 : PState) (a2 : BitVec 8) (s : State) : (transition a0 a1 a2 s).shadows = s.shadows := Same.get (f := .shadows) (transition_foot a0 a1 a2 s) rfl
@[simp] theorem transition_lapsed (a0 : Nat) (a1 : PState) (a2 : BitVec 8) (s : State) : (transition a0 a1 a2 s).lapsed = s.lapsed := Same.get (f := .lapsed) (transition_foot a0 a1 a2 s) rfl
@[simp] theorem transition_ver (a0 : Nat) (a1 : PState) (a2 : BitVec 8) (s : State) : (transition a0 a1 a2 s).ver = s.ver := Same.get (f := .ver) (transition_foot a0 a1 a2 s) rfl
@[simp] theorem transition_gates (a0 : Nat) (a1 : PState) (a2 : BitVec 8) (s : State) : (transition a0 a1 a2 s).gates = s.gates := Same.get (f := .gates) (transition_foot a0 a1 a2 s) rfl
@[simp] theorem transition_tests (a0 : Nat) (a1 : PState) (a2 : BitVec 8) (s : State) : (transition a0 a1 a2 s).tests = s.tests := Same.get (f := .tests) (transition_foot a0 a1 a2 s) rfl
@[simp] theorem transition_links (a0 : Nat) (a1 : PState) (a2 : BitVec 8) (s : State) : (transition a0 a1 a2 s).links = s.links := Same.get (f := .links) (transition_foot a0 a1 a2 s) rfl
@[simp] theorem transition_linkTimes (a0 : Nat) (a1 : PState) (a2 : BitVec 8) (s : State) : (transition a0 a1 a2 s).linkTimes = s.linkTimes := Same.get (f := .linkTimes) (transition_foot a0 a1 a2 s) rfl
@[simp] theorem transition_servo (a0 : Nat) (a1 : PState) (a2 : BitVec 8) (s : State) : (transition a0 a1 a2 s).servo = s.servo := Same.get (f := .servo) (transition_foot a0 a1 a2 s) rfl
@[simp] theorem transition_eth (a0 : Nat) (a1 : PState) (a2 : BitVec 8) (s : State) : (transition a0 a1 a2 s).eth = s.eth := Same.get (f := .eth) (transition_foot a0 a1 a2 s) rfl
@[simp] theorem transition_fw (a0 : Nat) (a1 : PState) (a2 : BitVec 8) (s : State) : (transition a0 a1 a2 s).fw = s.fw := Same.get (f := .fw) (transition_foot a0 a1 a2 s) rfl
@[simp] theorem transition_cal (a0 : Nat) (a1 : PState) (a2 : BitVec 8) (s : State) : (transition a0 a1 a2 s).cal = s.cal := Same.get (f := .cal) (transition_foot a0 a1 a2 s) rfl
@[simp] theorem transition_sens (a0 : Nat) (a1 : PState) (a2 : BitVec 8) (s : State) : (transition a0 a1 a2 s).sens = s.sens := Same.get (f := .sens) (transition_foot a0 a1 a2 s) rfl
@[simp] theorem transition_snsOn (a0 : Nat) (a1 : PState) (a2 : BitVec 8) (s : State) : (transition a0 a1 a2 s).snsOn = s.snsOn := Same.get (f := .snsOn) (transition_foot a0 a1 a2 s) rfl
@[simp] theorem transition_free (a0 : Nat) (a1 : PState) (a2 : BitVec 8) (s : State) : (transition a0 a1 a2 s).free = s.free := Same.get (f := .free) (transition_foot a0 a1 a2 s) rfl
@[simp] theorem transition_salts (a0 : Nat) (a1 : PState) (a2 : BitVec 8) (s : State) : (transition a0 a1 a2 s).salts = s.salts := Same.get (f := .salts) (transition_foot a0 a1 a2 s) rfl

/-! ### askAudit -/

theorem askAudit_foot (a0 : Nat) (a1 : Nat) (s : State) : Same (fun f => [Fld.parts].contains f) s (askAudit a0 a1 s) :=
  askAudit_same rfl (Same.refl _ _)

@[simp] theorem askAudit_pending (a0 : Nat) (a1 : Nat) (s : State) : (askAudit a0 a1 s).pending = s.pending := Same.get (f := .pending) (askAudit_foot a0 a1 s) rfl
@[simp] theorem askAudit_inst (a0 : Nat) (a1 : Nat) (s : State) : (askAudit a0 a1 s).inst = s.inst := Same.get (f := .inst) (askAudit_foot a0 a1 s) rfl
@[simp] theorem askAudit_ready (a0 : Nat) (a1 : Nat) (s : State) : (askAudit a0 a1 s).ready = s.ready := Same.get (f := .ready) (askAudit_foot a0 a1 s) rfl
@[simp] theorem askAudit_booting (a0 : Nat) (a1 : Nat) (s : State) : (askAudit a0 a1 s).booting = s.booting := Same.get (f := .booting) (askAudit_foot a0 a1 s) rfl
@[simp] theorem askAudit_workHeld (a0 : Nat) (a1 : Nat) (s : State) : (askAudit a0 a1 s).workHeld = s.workHeld := Same.get (f := .workHeld) (askAudit_foot a0 a1 s) rfl
@[simp] theorem askAudit_port (a0 : Nat) (a1 : Nat) (s : State) : (askAudit a0 a1 s).port = s.port := Same.get (f := .port) (askAudit_foot a0 a1 s) rfl
@[simp] theorem askAudit_regs (a0 : Nat) (a1 : Nat) (s : State) : (askAudit a0 a1 s).regs = s.regs := Same.get (f := .regs) (askAudit_foot a0 a1 s) rfl
@[simp] theorem askAudit_audit (a0 : Nat) (a1 : Nat) (s : State) : (askAudit a0 a1 s).audit = s.audit := Same.get (f := .audit) (askAudit_foot a0 a1 s) rfl
@[simp] theorem askAudit_tim (a0 : Nat) (a1 : Nat) (s : State) : (askAudit a0 a1 s).tim = s.tim := Same.get (f := .tim) (askAudit_foot a0 a1 s) rfl
@[simp] theorem askAudit_owed (a0 : Nat) (a1 : Nat) (s : State) : (askAudit a0 a1 s).owed = s.owed := Same.get (f := .owed) (askAudit_foot a0 a1 s) rfl
@[simp] theorem askAudit_strs (a0 : Nat) (a1 : Nat) (s : State) : (askAudit a0 a1 s).strs = s.strs := Same.get (f := .strs) (askAudit_foot a0 a1 s) rfl
@[simp] theorem askAudit_closes (a0 : Nat) (a1 : Nat) (s : State) : (askAudit a0 a1 s).closes = s.closes := Same.get (f := .closes) (askAudit_foot a0 a1 s) rfl
@[simp] theorem askAudit_bobs (a0 : Nat) (a1 : Nat) (s : State) : (askAudit a0 a1 s).bobs = s.bobs := Same.get (f := .bobs) (askAudit_foot a0 a1 s) rfl
@[simp] theorem askAudit_wports (a0 : Nat) (a1 : Nat) (s : State) : (askAudit a0 a1 s).wports = s.wports := Same.get (f := .wports) (askAudit_foot a0 a1 s) rfl
@[simp] theorem askAudit_rport (a0 : Nat) (a1 : Nat) (s : State) : (askAudit a0 a1 s).rport = s.rport := Same.get (f := .rport) (askAudit_foot a0 a1 s) rfl
@[simp] theorem askAudit_adopts (a0 : Nat) (a1 : Nat) (s : State) : (askAudit a0 a1 s).adopts = s.adopts := Same.get (f := .adopts) (askAudit_foot a0 a1 s) rfl
@[simp] theorem askAudit_exempt (a0 : Nat) (a1 : Nat) (s : State) : (askAudit a0 a1 s).exempt = s.exempt := Same.get (f := .exempt) (askAudit_foot a0 a1 s) rfl
@[simp] theorem askAudit_refused (a0 : Nat) (a1 : Nat) (s : State) : (askAudit a0 a1 s).refused = s.refused := Same.get (f := .refused) (askAudit_foot a0 a1 s) rfl
@[simp] theorem askAudit_heds (a0 : Nat) (a1 : Nat) (s : State) : (askAudit a0 a1 s).heds = s.heds := Same.get (f := .heds) (askAudit_foot a0 a1 s) rfl
@[simp] theorem askAudit_counts (a0 : Nat) (a1 : Nat) (s : State) : (askAudit a0 a1 s).counts = s.counts := Same.get (f := .counts) (askAudit_foot a0 a1 s) rfl
@[simp] theorem askAudit_hedGovs (a0 : Nat) (a1 : Nat) (s : State) : (askAudit a0 a1 s).hedGovs = s.hedGovs := Same.get (f := .hedGovs) (askAudit_foot a0 a1 s) rfl
@[simp] theorem askAudit_reedGovs (a0 : Nat) (a1 : Nat) (s : State) : (askAudit a0 a1 s).reedGovs = s.reedGovs := Same.get (f := .reedGovs) (askAudit_foot a0 a1 s) rfl
@[simp] theorem askAudit_gov (a0 : Nat) (a1 : Nat) (s : State) : (askAudit a0 a1 s).gov = s.gov := Same.get (f := .gov) (askAudit_foot a0 a1 s) rfl
@[simp] theorem askAudit_trd (a0 : Nat) (a1 : Nat) (s : State) : (askAudit a0 a1 s).trd = s.trd := Same.get (f := .trd) (askAudit_foot a0 a1 s) rfl
@[simp] theorem askAudit_stop (a0 : Nat) (a1 : Nat) (s : State) : (askAudit a0 a1 s).stop = s.stop := Same.get (f := .stop) (askAudit_foot a0 a1 s) rfl
@[simp] theorem askAudit_hedStops (a0 : Nat) (a1 : Nat) (s : State) : (askAudit a0 a1 s).hedStops = s.hedStops := Same.get (f := .hedStops) (askAudit_foot a0 a1 s) rfl
@[simp] theorem askAudit_key (a0 : Nat) (a1 : Nat) (s : State) : (askAudit a0 a1 s).key = s.key := Same.get (f := .key) (askAudit_foot a0 a1 s) rfl
@[simp] theorem askAudit_wits (a0 : Nat) (a1 : Nat) (s : State) : (askAudit a0 a1 s).wits = s.wits := Same.get (f := .wits) (askAudit_foot a0 a1 s) rfl
@[simp] theorem askAudit_cards (a0 : Nat) (a1 : Nat) (s : State) : (askAudit a0 a1 s).cards = s.cards := Same.get (f := .cards) (askAudit_foot a0 a1 s) rfl
@[simp] theorem askAudit_shadows (a0 : Nat) (a1 : Nat) (s : State) : (askAudit a0 a1 s).shadows = s.shadows := Same.get (f := .shadows) (askAudit_foot a0 a1 s) rfl
@[simp] theorem askAudit_lapsed (a0 : Nat) (a1 : Nat) (s : State) : (askAudit a0 a1 s).lapsed = s.lapsed := Same.get (f := .lapsed) (askAudit_foot a0 a1 s) rfl
@[simp] theorem askAudit_ver (a0 : Nat) (a1 : Nat) (s : State) : (askAudit a0 a1 s).ver = s.ver := Same.get (f := .ver) (askAudit_foot a0 a1 s) rfl
@[simp] theorem askAudit_gates (a0 : Nat) (a1 : Nat) (s : State) : (askAudit a0 a1 s).gates = s.gates := Same.get (f := .gates) (askAudit_foot a0 a1 s) rfl
@[simp] theorem askAudit_tests (a0 : Nat) (a1 : Nat) (s : State) : (askAudit a0 a1 s).tests = s.tests := Same.get (f := .tests) (askAudit_foot a0 a1 s) rfl
@[simp] theorem askAudit_links (a0 : Nat) (a1 : Nat) (s : State) : (askAudit a0 a1 s).links = s.links := Same.get (f := .links) (askAudit_foot a0 a1 s) rfl
@[simp] theorem askAudit_linkTimes (a0 : Nat) (a1 : Nat) (s : State) : (askAudit a0 a1 s).linkTimes = s.linkTimes := Same.get (f := .linkTimes) (askAudit_foot a0 a1 s) rfl
@[simp] theorem askAudit_servo (a0 : Nat) (a1 : Nat) (s : State) : (askAudit a0 a1 s).servo = s.servo := Same.get (f := .servo) (askAudit_foot a0 a1 s) rfl
@[simp] theorem askAudit_eth (a0 : Nat) (a1 : Nat) (s : State) : (askAudit a0 a1 s).eth = s.eth := Same.get (f := .eth) (askAudit_foot a0 a1 s) rfl
@[simp] theorem askAudit_fw (a0 : Nat) (a1 : Nat) (s : State) : (askAudit a0 a1 s).fw = s.fw := Same.get (f := .fw) (askAudit_foot a0 a1 s) rfl
@[simp] theorem askAudit_cal (a0 : Nat) (a1 : Nat) (s : State) : (askAudit a0 a1 s).cal = s.cal := Same.get (f := .cal) (askAudit_foot a0 a1 s) rfl
@[simp] theorem askAudit_sens (a0 : Nat) (a1 : Nat) (s : State) : (askAudit a0 a1 s).sens = s.sens := Same.get (f := .sens) (askAudit_foot a0 a1 s) rfl
@[simp] theorem askAudit_snsOn (a0 : Nat) (a1 : Nat) (s : State) : (askAudit a0 a1 s).snsOn = s.snsOn := Same.get (f := .snsOn) (askAudit_foot a0 a1 s) rfl
@[simp] theorem askAudit_free (a0 : Nat) (a1 : Nat) (s : State) : (askAudit a0 a1 s).free = s.free := Same.get (f := .free) (askAudit_foot a0 a1 s) rfl
@[simp] theorem askAudit_salts (a0 : Nat) (a1 : Nat) (s : State) : (askAudit a0 a1 s).salts = s.salts := Same.get (f := .salts) (askAudit_foot a0 a1 s) rfl

/-! ### askRead -/

theorem askRead_foot (a0 : ReadFor) (a1 : Nat) (s : State) : Same (fun f => [Fld.rport].contains f) s (askRead a0 a1 s) :=
  askRead_same rfl (Same.refl _ _)

@[simp] theorem askRead_pending (a0 : ReadFor) (a1 : Nat) (s : State) : (askRead a0 a1 s).pending = s.pending := Same.get (f := .pending) (askRead_foot a0 a1 s) rfl
@[simp] theorem askRead_inst (a0 : ReadFor) (a1 : Nat) (s : State) : (askRead a0 a1 s).inst = s.inst := Same.get (f := .inst) (askRead_foot a0 a1 s) rfl
@[simp] theorem askRead_ready (a0 : ReadFor) (a1 : Nat) (s : State) : (askRead a0 a1 s).ready = s.ready := Same.get (f := .ready) (askRead_foot a0 a1 s) rfl
@[simp] theorem askRead_booting (a0 : ReadFor) (a1 : Nat) (s : State) : (askRead a0 a1 s).booting = s.booting := Same.get (f := .booting) (askRead_foot a0 a1 s) rfl
@[simp] theorem askRead_workHeld (a0 : ReadFor) (a1 : Nat) (s : State) : (askRead a0 a1 s).workHeld = s.workHeld := Same.get (f := .workHeld) (askRead_foot a0 a1 s) rfl
@[simp] theorem askRead_port (a0 : ReadFor) (a1 : Nat) (s : State) : (askRead a0 a1 s).port = s.port := Same.get (f := .port) (askRead_foot a0 a1 s) rfl
@[simp] theorem askRead_regs (a0 : ReadFor) (a1 : Nat) (s : State) : (askRead a0 a1 s).regs = s.regs := Same.get (f := .regs) (askRead_foot a0 a1 s) rfl
@[simp] theorem askRead_parts (a0 : ReadFor) (a1 : Nat) (s : State) : (askRead a0 a1 s).parts = s.parts := Same.get (f := .parts) (askRead_foot a0 a1 s) rfl
@[simp] theorem askRead_audit (a0 : ReadFor) (a1 : Nat) (s : State) : (askRead a0 a1 s).audit = s.audit := Same.get (f := .audit) (askRead_foot a0 a1 s) rfl
@[simp] theorem askRead_tim (a0 : ReadFor) (a1 : Nat) (s : State) : (askRead a0 a1 s).tim = s.tim := Same.get (f := .tim) (askRead_foot a0 a1 s) rfl
@[simp] theorem askRead_owed (a0 : ReadFor) (a1 : Nat) (s : State) : (askRead a0 a1 s).owed = s.owed := Same.get (f := .owed) (askRead_foot a0 a1 s) rfl
@[simp] theorem askRead_strs (a0 : ReadFor) (a1 : Nat) (s : State) : (askRead a0 a1 s).strs = s.strs := Same.get (f := .strs) (askRead_foot a0 a1 s) rfl
@[simp] theorem askRead_closes (a0 : ReadFor) (a1 : Nat) (s : State) : (askRead a0 a1 s).closes = s.closes := Same.get (f := .closes) (askRead_foot a0 a1 s) rfl
@[simp] theorem askRead_bobs (a0 : ReadFor) (a1 : Nat) (s : State) : (askRead a0 a1 s).bobs = s.bobs := Same.get (f := .bobs) (askRead_foot a0 a1 s) rfl
@[simp] theorem askRead_wports (a0 : ReadFor) (a1 : Nat) (s : State) : (askRead a0 a1 s).wports = s.wports := Same.get (f := .wports) (askRead_foot a0 a1 s) rfl
@[simp] theorem askRead_adopts (a0 : ReadFor) (a1 : Nat) (s : State) : (askRead a0 a1 s).adopts = s.adopts := Same.get (f := .adopts) (askRead_foot a0 a1 s) rfl
@[simp] theorem askRead_exempt (a0 : ReadFor) (a1 : Nat) (s : State) : (askRead a0 a1 s).exempt = s.exempt := Same.get (f := .exempt) (askRead_foot a0 a1 s) rfl
@[simp] theorem askRead_refused (a0 : ReadFor) (a1 : Nat) (s : State) : (askRead a0 a1 s).refused = s.refused := Same.get (f := .refused) (askRead_foot a0 a1 s) rfl
@[simp] theorem askRead_heds (a0 : ReadFor) (a1 : Nat) (s : State) : (askRead a0 a1 s).heds = s.heds := Same.get (f := .heds) (askRead_foot a0 a1 s) rfl
@[simp] theorem askRead_counts (a0 : ReadFor) (a1 : Nat) (s : State) : (askRead a0 a1 s).counts = s.counts := Same.get (f := .counts) (askRead_foot a0 a1 s) rfl
@[simp] theorem askRead_hedGovs (a0 : ReadFor) (a1 : Nat) (s : State) : (askRead a0 a1 s).hedGovs = s.hedGovs := Same.get (f := .hedGovs) (askRead_foot a0 a1 s) rfl
@[simp] theorem askRead_reedGovs (a0 : ReadFor) (a1 : Nat) (s : State) : (askRead a0 a1 s).reedGovs = s.reedGovs := Same.get (f := .reedGovs) (askRead_foot a0 a1 s) rfl
@[simp] theorem askRead_gov (a0 : ReadFor) (a1 : Nat) (s : State) : (askRead a0 a1 s).gov = s.gov := Same.get (f := .gov) (askRead_foot a0 a1 s) rfl
@[simp] theorem askRead_trd (a0 : ReadFor) (a1 : Nat) (s : State) : (askRead a0 a1 s).trd = s.trd := Same.get (f := .trd) (askRead_foot a0 a1 s) rfl
@[simp] theorem askRead_stop (a0 : ReadFor) (a1 : Nat) (s : State) : (askRead a0 a1 s).stop = s.stop := Same.get (f := .stop) (askRead_foot a0 a1 s) rfl
@[simp] theorem askRead_hedStops (a0 : ReadFor) (a1 : Nat) (s : State) : (askRead a0 a1 s).hedStops = s.hedStops := Same.get (f := .hedStops) (askRead_foot a0 a1 s) rfl
@[simp] theorem askRead_key (a0 : ReadFor) (a1 : Nat) (s : State) : (askRead a0 a1 s).key = s.key := Same.get (f := .key) (askRead_foot a0 a1 s) rfl
@[simp] theorem askRead_wits (a0 : ReadFor) (a1 : Nat) (s : State) : (askRead a0 a1 s).wits = s.wits := Same.get (f := .wits) (askRead_foot a0 a1 s) rfl
@[simp] theorem askRead_cards (a0 : ReadFor) (a1 : Nat) (s : State) : (askRead a0 a1 s).cards = s.cards := Same.get (f := .cards) (askRead_foot a0 a1 s) rfl
@[simp] theorem askRead_shadows (a0 : ReadFor) (a1 : Nat) (s : State) : (askRead a0 a1 s).shadows = s.shadows := Same.get (f := .shadows) (askRead_foot a0 a1 s) rfl
@[simp] theorem askRead_lapsed (a0 : ReadFor) (a1 : Nat) (s : State) : (askRead a0 a1 s).lapsed = s.lapsed := Same.get (f := .lapsed) (askRead_foot a0 a1 s) rfl
@[simp] theorem askRead_ver (a0 : ReadFor) (a1 : Nat) (s : State) : (askRead a0 a1 s).ver = s.ver := Same.get (f := .ver) (askRead_foot a0 a1 s) rfl
@[simp] theorem askRead_gates (a0 : ReadFor) (a1 : Nat) (s : State) : (askRead a0 a1 s).gates = s.gates := Same.get (f := .gates) (askRead_foot a0 a1 s) rfl
@[simp] theorem askRead_tests (a0 : ReadFor) (a1 : Nat) (s : State) : (askRead a0 a1 s).tests = s.tests := Same.get (f := .tests) (askRead_foot a0 a1 s) rfl
@[simp] theorem askRead_links (a0 : ReadFor) (a1 : Nat) (s : State) : (askRead a0 a1 s).links = s.links := Same.get (f := .links) (askRead_foot a0 a1 s) rfl
@[simp] theorem askRead_linkTimes (a0 : ReadFor) (a1 : Nat) (s : State) : (askRead a0 a1 s).linkTimes = s.linkTimes := Same.get (f := .linkTimes) (askRead_foot a0 a1 s) rfl
@[simp] theorem askRead_servo (a0 : ReadFor) (a1 : Nat) (s : State) : (askRead a0 a1 s).servo = s.servo := Same.get (f := .servo) (askRead_foot a0 a1 s) rfl
@[simp] theorem askRead_eth (a0 : ReadFor) (a1 : Nat) (s : State) : (askRead a0 a1 s).eth = s.eth := Same.get (f := .eth) (askRead_foot a0 a1 s) rfl
@[simp] theorem askRead_fw (a0 : ReadFor) (a1 : Nat) (s : State) : (askRead a0 a1 s).fw = s.fw := Same.get (f := .fw) (askRead_foot a0 a1 s) rfl
@[simp] theorem askRead_cal (a0 : ReadFor) (a1 : Nat) (s : State) : (askRead a0 a1 s).cal = s.cal := Same.get (f := .cal) (askRead_foot a0 a1 s) rfl
@[simp] theorem askRead_sens (a0 : ReadFor) (a1 : Nat) (s : State) : (askRead a0 a1 s).sens = s.sens := Same.get (f := .sens) (askRead_foot a0 a1 s) rfl
@[simp] theorem askRead_snsOn (a0 : ReadFor) (a1 : Nat) (s : State) : (askRead a0 a1 s).snsOn = s.snsOn := Same.get (f := .snsOn) (askRead_foot a0 a1 s) rfl
@[simp] theorem askRead_free (a0 : ReadFor) (a1 : Nat) (s : State) : (askRead a0 a1 s).free = s.free := Same.get (f := .free) (askRead_foot a0 a1 s) rfl
@[simp] theorem askRead_salts (a0 : ReadFor) (a1 : Nat) (s : State) : (askRead a0 a1 s).salts = s.salts := Same.get (f := .salts) (askRead_foot a0 a1 s) rfl

/-! ### freeRound -/

theorem freeRound_foot (a0 : Int) (a1 : Nat) (s : State) : Same (fun f => [Fld.free].contains f) s (freeRound a0 a1 s).2 :=
  freeRound_same rfl (Same.refl _ _)

@[simp] theorem freeRound_pending (a0 : Int) (a1 : Nat) (s : State) : (freeRound a0 a1 s).2.pending = s.pending := Same.get (f := .pending) (freeRound_foot a0 a1 s) rfl
@[simp] theorem freeRound_inst (a0 : Int) (a1 : Nat) (s : State) : (freeRound a0 a1 s).2.inst = s.inst := Same.get (f := .inst) (freeRound_foot a0 a1 s) rfl
@[simp] theorem freeRound_ready (a0 : Int) (a1 : Nat) (s : State) : (freeRound a0 a1 s).2.ready = s.ready := Same.get (f := .ready) (freeRound_foot a0 a1 s) rfl
@[simp] theorem freeRound_booting (a0 : Int) (a1 : Nat) (s : State) : (freeRound a0 a1 s).2.booting = s.booting := Same.get (f := .booting) (freeRound_foot a0 a1 s) rfl
@[simp] theorem freeRound_workHeld (a0 : Int) (a1 : Nat) (s : State) : (freeRound a0 a1 s).2.workHeld = s.workHeld := Same.get (f := .workHeld) (freeRound_foot a0 a1 s) rfl
@[simp] theorem freeRound_port (a0 : Int) (a1 : Nat) (s : State) : (freeRound a0 a1 s).2.port = s.port := Same.get (f := .port) (freeRound_foot a0 a1 s) rfl
@[simp] theorem freeRound_regs (a0 : Int) (a1 : Nat) (s : State) : (freeRound a0 a1 s).2.regs = s.regs := Same.get (f := .regs) (freeRound_foot a0 a1 s) rfl
@[simp] theorem freeRound_parts (a0 : Int) (a1 : Nat) (s : State) : (freeRound a0 a1 s).2.parts = s.parts := Same.get (f := .parts) (freeRound_foot a0 a1 s) rfl
@[simp] theorem freeRound_audit (a0 : Int) (a1 : Nat) (s : State) : (freeRound a0 a1 s).2.audit = s.audit := Same.get (f := .audit) (freeRound_foot a0 a1 s) rfl
@[simp] theorem freeRound_tim (a0 : Int) (a1 : Nat) (s : State) : (freeRound a0 a1 s).2.tim = s.tim := Same.get (f := .tim) (freeRound_foot a0 a1 s) rfl
@[simp] theorem freeRound_owed (a0 : Int) (a1 : Nat) (s : State) : (freeRound a0 a1 s).2.owed = s.owed := Same.get (f := .owed) (freeRound_foot a0 a1 s) rfl
@[simp] theorem freeRound_strs (a0 : Int) (a1 : Nat) (s : State) : (freeRound a0 a1 s).2.strs = s.strs := Same.get (f := .strs) (freeRound_foot a0 a1 s) rfl
@[simp] theorem freeRound_closes (a0 : Int) (a1 : Nat) (s : State) : (freeRound a0 a1 s).2.closes = s.closes := Same.get (f := .closes) (freeRound_foot a0 a1 s) rfl
@[simp] theorem freeRound_bobs (a0 : Int) (a1 : Nat) (s : State) : (freeRound a0 a1 s).2.bobs = s.bobs := Same.get (f := .bobs) (freeRound_foot a0 a1 s) rfl
@[simp] theorem freeRound_wports (a0 : Int) (a1 : Nat) (s : State) : (freeRound a0 a1 s).2.wports = s.wports := Same.get (f := .wports) (freeRound_foot a0 a1 s) rfl
@[simp] theorem freeRound_rport (a0 : Int) (a1 : Nat) (s : State) : (freeRound a0 a1 s).2.rport = s.rport := Same.get (f := .rport) (freeRound_foot a0 a1 s) rfl
@[simp] theorem freeRound_adopts (a0 : Int) (a1 : Nat) (s : State) : (freeRound a0 a1 s).2.adopts = s.adopts := Same.get (f := .adopts) (freeRound_foot a0 a1 s) rfl
@[simp] theorem freeRound_exempt (a0 : Int) (a1 : Nat) (s : State) : (freeRound a0 a1 s).2.exempt = s.exempt := Same.get (f := .exempt) (freeRound_foot a0 a1 s) rfl
@[simp] theorem freeRound_refused (a0 : Int) (a1 : Nat) (s : State) : (freeRound a0 a1 s).2.refused = s.refused := Same.get (f := .refused) (freeRound_foot a0 a1 s) rfl
@[simp] theorem freeRound_heds (a0 : Int) (a1 : Nat) (s : State) : (freeRound a0 a1 s).2.heds = s.heds := Same.get (f := .heds) (freeRound_foot a0 a1 s) rfl
@[simp] theorem freeRound_counts (a0 : Int) (a1 : Nat) (s : State) : (freeRound a0 a1 s).2.counts = s.counts := Same.get (f := .counts) (freeRound_foot a0 a1 s) rfl
@[simp] theorem freeRound_hedGovs (a0 : Int) (a1 : Nat) (s : State) : (freeRound a0 a1 s).2.hedGovs = s.hedGovs := Same.get (f := .hedGovs) (freeRound_foot a0 a1 s) rfl
@[simp] theorem freeRound_reedGovs (a0 : Int) (a1 : Nat) (s : State) : (freeRound a0 a1 s).2.reedGovs = s.reedGovs := Same.get (f := .reedGovs) (freeRound_foot a0 a1 s) rfl
@[simp] theorem freeRound_gov (a0 : Int) (a1 : Nat) (s : State) : (freeRound a0 a1 s).2.gov = s.gov := Same.get (f := .gov) (freeRound_foot a0 a1 s) rfl
@[simp] theorem freeRound_trd (a0 : Int) (a1 : Nat) (s : State) : (freeRound a0 a1 s).2.trd = s.trd := Same.get (f := .trd) (freeRound_foot a0 a1 s) rfl
@[simp] theorem freeRound_stop (a0 : Int) (a1 : Nat) (s : State) : (freeRound a0 a1 s).2.stop = s.stop := Same.get (f := .stop) (freeRound_foot a0 a1 s) rfl
@[simp] theorem freeRound_hedStops (a0 : Int) (a1 : Nat) (s : State) : (freeRound a0 a1 s).2.hedStops = s.hedStops := Same.get (f := .hedStops) (freeRound_foot a0 a1 s) rfl
@[simp] theorem freeRound_key (a0 : Int) (a1 : Nat) (s : State) : (freeRound a0 a1 s).2.key = s.key := Same.get (f := .key) (freeRound_foot a0 a1 s) rfl
@[simp] theorem freeRound_wits (a0 : Int) (a1 : Nat) (s : State) : (freeRound a0 a1 s).2.wits = s.wits := Same.get (f := .wits) (freeRound_foot a0 a1 s) rfl
@[simp] theorem freeRound_cards (a0 : Int) (a1 : Nat) (s : State) : (freeRound a0 a1 s).2.cards = s.cards := Same.get (f := .cards) (freeRound_foot a0 a1 s) rfl
@[simp] theorem freeRound_shadows (a0 : Int) (a1 : Nat) (s : State) : (freeRound a0 a1 s).2.shadows = s.shadows := Same.get (f := .shadows) (freeRound_foot a0 a1 s) rfl
@[simp] theorem freeRound_lapsed (a0 : Int) (a1 : Nat) (s : State) : (freeRound a0 a1 s).2.lapsed = s.lapsed := Same.get (f := .lapsed) (freeRound_foot a0 a1 s) rfl
@[simp] theorem freeRound_ver (a0 : Int) (a1 : Nat) (s : State) : (freeRound a0 a1 s).2.ver = s.ver := Same.get (f := .ver) (freeRound_foot a0 a1 s) rfl
@[simp] theorem freeRound_gates (a0 : Int) (a1 : Nat) (s : State) : (freeRound a0 a1 s).2.gates = s.gates := Same.get (f := .gates) (freeRound_foot a0 a1 s) rfl
@[simp] theorem freeRound_tests (a0 : Int) (a1 : Nat) (s : State) : (freeRound a0 a1 s).2.tests = s.tests := Same.get (f := .tests) (freeRound_foot a0 a1 s) rfl
@[simp] theorem freeRound_links (a0 : Int) (a1 : Nat) (s : State) : (freeRound a0 a1 s).2.links = s.links := Same.get (f := .links) (freeRound_foot a0 a1 s) rfl
@[simp] theorem freeRound_linkTimes (a0 : Int) (a1 : Nat) (s : State) : (freeRound a0 a1 s).2.linkTimes = s.linkTimes := Same.get (f := .linkTimes) (freeRound_foot a0 a1 s) rfl
@[simp] theorem freeRound_servo (a0 : Int) (a1 : Nat) (s : State) : (freeRound a0 a1 s).2.servo = s.servo := Same.get (f := .servo) (freeRound_foot a0 a1 s) rfl
@[simp] theorem freeRound_eth (a0 : Int) (a1 : Nat) (s : State) : (freeRound a0 a1 s).2.eth = s.eth := Same.get (f := .eth) (freeRound_foot a0 a1 s) rfl
@[simp] theorem freeRound_fw (a0 : Int) (a1 : Nat) (s : State) : (freeRound a0 a1 s).2.fw = s.fw := Same.get (f := .fw) (freeRound_foot a0 a1 s) rfl
@[simp] theorem freeRound_cal (a0 : Int) (a1 : Nat) (s : State) : (freeRound a0 a1 s).2.cal = s.cal := Same.get (f := .cal) (freeRound_foot a0 a1 s) rfl
@[simp] theorem freeRound_sens (a0 : Int) (a1 : Nat) (s : State) : (freeRound a0 a1 s).2.sens = s.sens := Same.get (f := .sens) (freeRound_foot a0 a1 s) rfl
@[simp] theorem freeRound_snsOn (a0 : Int) (a1 : Nat) (s : State) : (freeRound a0 a1 s).2.snsOn = s.snsOn := Same.get (f := .snsOn) (freeRound_foot a0 a1 s) rfl
@[simp] theorem freeRound_salts (a0 : Int) (a1 : Nat) (s : State) : (freeRound a0 a1 s).2.salts = s.salts := Same.get (f := .salts) (freeRound_foot a0 a1 s) rfl

/-! ### testMarker -/

theorem testMarker_foot (a0 : Nat) (a1 : Nat) (s : State) : Same (fun f => [Fld.regs, Fld.trd, Fld.tests].contains f) s (testMarker a0 a1 s) :=
  testMarker_same rfl rfl rfl (Same.refl _ _)

@[simp] theorem testMarker_pending (a0 : Nat) (a1 : Nat) (s : State) : (testMarker a0 a1 s).pending = s.pending := Same.get (f := .pending) (testMarker_foot a0 a1 s) rfl
@[simp] theorem testMarker_inst (a0 : Nat) (a1 : Nat) (s : State) : (testMarker a0 a1 s).inst = s.inst := Same.get (f := .inst) (testMarker_foot a0 a1 s) rfl
@[simp] theorem testMarker_ready (a0 : Nat) (a1 : Nat) (s : State) : (testMarker a0 a1 s).ready = s.ready := Same.get (f := .ready) (testMarker_foot a0 a1 s) rfl
@[simp] theorem testMarker_booting (a0 : Nat) (a1 : Nat) (s : State) : (testMarker a0 a1 s).booting = s.booting := Same.get (f := .booting) (testMarker_foot a0 a1 s) rfl
@[simp] theorem testMarker_workHeld (a0 : Nat) (a1 : Nat) (s : State) : (testMarker a0 a1 s).workHeld = s.workHeld := Same.get (f := .workHeld) (testMarker_foot a0 a1 s) rfl
@[simp] theorem testMarker_port (a0 : Nat) (a1 : Nat) (s : State) : (testMarker a0 a1 s).port = s.port := Same.get (f := .port) (testMarker_foot a0 a1 s) rfl
@[simp] theorem testMarker_parts (a0 : Nat) (a1 : Nat) (s : State) : (testMarker a0 a1 s).parts = s.parts := Same.get (f := .parts) (testMarker_foot a0 a1 s) rfl
@[simp] theorem testMarker_audit (a0 : Nat) (a1 : Nat) (s : State) : (testMarker a0 a1 s).audit = s.audit := Same.get (f := .audit) (testMarker_foot a0 a1 s) rfl
@[simp] theorem testMarker_tim (a0 : Nat) (a1 : Nat) (s : State) : (testMarker a0 a1 s).tim = s.tim := Same.get (f := .tim) (testMarker_foot a0 a1 s) rfl
@[simp] theorem testMarker_owed (a0 : Nat) (a1 : Nat) (s : State) : (testMarker a0 a1 s).owed = s.owed := Same.get (f := .owed) (testMarker_foot a0 a1 s) rfl
@[simp] theorem testMarker_strs (a0 : Nat) (a1 : Nat) (s : State) : (testMarker a0 a1 s).strs = s.strs := Same.get (f := .strs) (testMarker_foot a0 a1 s) rfl
@[simp] theorem testMarker_closes (a0 : Nat) (a1 : Nat) (s : State) : (testMarker a0 a1 s).closes = s.closes := Same.get (f := .closes) (testMarker_foot a0 a1 s) rfl
@[simp] theorem testMarker_bobs (a0 : Nat) (a1 : Nat) (s : State) : (testMarker a0 a1 s).bobs = s.bobs := Same.get (f := .bobs) (testMarker_foot a0 a1 s) rfl
@[simp] theorem testMarker_wports (a0 : Nat) (a1 : Nat) (s : State) : (testMarker a0 a1 s).wports = s.wports := Same.get (f := .wports) (testMarker_foot a0 a1 s) rfl
@[simp] theorem testMarker_rport (a0 : Nat) (a1 : Nat) (s : State) : (testMarker a0 a1 s).rport = s.rport := Same.get (f := .rport) (testMarker_foot a0 a1 s) rfl
@[simp] theorem testMarker_adopts (a0 : Nat) (a1 : Nat) (s : State) : (testMarker a0 a1 s).adopts = s.adopts := Same.get (f := .adopts) (testMarker_foot a0 a1 s) rfl
@[simp] theorem testMarker_exempt (a0 : Nat) (a1 : Nat) (s : State) : (testMarker a0 a1 s).exempt = s.exempt := Same.get (f := .exempt) (testMarker_foot a0 a1 s) rfl
@[simp] theorem testMarker_refused (a0 : Nat) (a1 : Nat) (s : State) : (testMarker a0 a1 s).refused = s.refused := Same.get (f := .refused) (testMarker_foot a0 a1 s) rfl
@[simp] theorem testMarker_heds (a0 : Nat) (a1 : Nat) (s : State) : (testMarker a0 a1 s).heds = s.heds := Same.get (f := .heds) (testMarker_foot a0 a1 s) rfl
@[simp] theorem testMarker_counts (a0 : Nat) (a1 : Nat) (s : State) : (testMarker a0 a1 s).counts = s.counts := Same.get (f := .counts) (testMarker_foot a0 a1 s) rfl
@[simp] theorem testMarker_hedGovs (a0 : Nat) (a1 : Nat) (s : State) : (testMarker a0 a1 s).hedGovs = s.hedGovs := Same.get (f := .hedGovs) (testMarker_foot a0 a1 s) rfl
@[simp] theorem testMarker_reedGovs (a0 : Nat) (a1 : Nat) (s : State) : (testMarker a0 a1 s).reedGovs = s.reedGovs := Same.get (f := .reedGovs) (testMarker_foot a0 a1 s) rfl
@[simp] theorem testMarker_gov (a0 : Nat) (a1 : Nat) (s : State) : (testMarker a0 a1 s).gov = s.gov := Same.get (f := .gov) (testMarker_foot a0 a1 s) rfl
@[simp] theorem testMarker_stop (a0 : Nat) (a1 : Nat) (s : State) : (testMarker a0 a1 s).stop = s.stop := Same.get (f := .stop) (testMarker_foot a0 a1 s) rfl
@[simp] theorem testMarker_hedStops (a0 : Nat) (a1 : Nat) (s : State) : (testMarker a0 a1 s).hedStops = s.hedStops := Same.get (f := .hedStops) (testMarker_foot a0 a1 s) rfl
@[simp] theorem testMarker_key (a0 : Nat) (a1 : Nat) (s : State) : (testMarker a0 a1 s).key = s.key := Same.get (f := .key) (testMarker_foot a0 a1 s) rfl
@[simp] theorem testMarker_wits (a0 : Nat) (a1 : Nat) (s : State) : (testMarker a0 a1 s).wits = s.wits := Same.get (f := .wits) (testMarker_foot a0 a1 s) rfl
@[simp] theorem testMarker_cards (a0 : Nat) (a1 : Nat) (s : State) : (testMarker a0 a1 s).cards = s.cards := Same.get (f := .cards) (testMarker_foot a0 a1 s) rfl
@[simp] theorem testMarker_shadows (a0 : Nat) (a1 : Nat) (s : State) : (testMarker a0 a1 s).shadows = s.shadows := Same.get (f := .shadows) (testMarker_foot a0 a1 s) rfl
@[simp] theorem testMarker_lapsed (a0 : Nat) (a1 : Nat) (s : State) : (testMarker a0 a1 s).lapsed = s.lapsed := Same.get (f := .lapsed) (testMarker_foot a0 a1 s) rfl
@[simp] theorem testMarker_ver (a0 : Nat) (a1 : Nat) (s : State) : (testMarker a0 a1 s).ver = s.ver := Same.get (f := .ver) (testMarker_foot a0 a1 s) rfl
@[simp] theorem testMarker_gates (a0 : Nat) (a1 : Nat) (s : State) : (testMarker a0 a1 s).gates = s.gates := Same.get (f := .gates) (testMarker_foot a0 a1 s) rfl
@[simp] theorem testMarker_links (a0 : Nat) (a1 : Nat) (s : State) : (testMarker a0 a1 s).links = s.links := Same.get (f := .links) (testMarker_foot a0 a1 s) rfl
@[simp] theorem testMarker_linkTimes (a0 : Nat) (a1 : Nat) (s : State) : (testMarker a0 a1 s).linkTimes = s.linkTimes := Same.get (f := .linkTimes) (testMarker_foot a0 a1 s) rfl
@[simp] theorem testMarker_servo (a0 : Nat) (a1 : Nat) (s : State) : (testMarker a0 a1 s).servo = s.servo := Same.get (f := .servo) (testMarker_foot a0 a1 s) rfl
@[simp] theorem testMarker_eth (a0 : Nat) (a1 : Nat) (s : State) : (testMarker a0 a1 s).eth = s.eth := Same.get (f := .eth) (testMarker_foot a0 a1 s) rfl
@[simp] theorem testMarker_fw (a0 : Nat) (a1 : Nat) (s : State) : (testMarker a0 a1 s).fw = s.fw := Same.get (f := .fw) (testMarker_foot a0 a1 s) rfl
@[simp] theorem testMarker_cal (a0 : Nat) (a1 : Nat) (s : State) : (testMarker a0 a1 s).cal = s.cal := Same.get (f := .cal) (testMarker_foot a0 a1 s) rfl
@[simp] theorem testMarker_sens (a0 : Nat) (a1 : Nat) (s : State) : (testMarker a0 a1 s).sens = s.sens := Same.get (f := .sens) (testMarker_foot a0 a1 s) rfl
@[simp] theorem testMarker_snsOn (a0 : Nat) (a1 : Nat) (s : State) : (testMarker a0 a1 s).snsOn = s.snsOn := Same.get (f := .snsOn) (testMarker_foot a0 a1 s) rfl
@[simp] theorem testMarker_free (a0 : Nat) (a1 : Nat) (s : State) : (testMarker a0 a1 s).free = s.free := Same.get (f := .free) (testMarker_foot a0 a1 s) rfl
@[simp] theorem testMarker_salts (a0 : Nat) (a1 : Nat) (s : State) : (testMarker a0 a1 s).salts = s.salts := Same.get (f := .salts) (testMarker_foot a0 a1 s) rfl

/-! ### offerHed -/

theorem offerHed_foot (a0 : Nat) (a1 : Nat) (a2 : Cls) (a3 : Bt) (a4 : List Pick) (s : State) : Same (fun f => [Fld.regs, Fld.strs, Fld.closes, Fld.exempt, Fld.hedGovs, Fld.reedGovs, Fld.trd, Fld.key].contains f) s (offerHed a0 a1 a2 a3 a4 s).2 :=
  offerHed_same rfl rfl rfl rfl rfl rfl rfl rfl (Same.refl _ _)

@[simp] theorem offerHed_pending (a0 : Nat) (a1 : Nat) (a2 : Cls) (a3 : Bt) (a4 : List Pick) (s : State) : (offerHed a0 a1 a2 a3 a4 s).2.pending = s.pending := Same.get (f := .pending) (offerHed_foot a0 a1 a2 a3 a4 s) rfl
@[simp] theorem offerHed_inst (a0 : Nat) (a1 : Nat) (a2 : Cls) (a3 : Bt) (a4 : List Pick) (s : State) : (offerHed a0 a1 a2 a3 a4 s).2.inst = s.inst := Same.get (f := .inst) (offerHed_foot a0 a1 a2 a3 a4 s) rfl
@[simp] theorem offerHed_ready (a0 : Nat) (a1 : Nat) (a2 : Cls) (a3 : Bt) (a4 : List Pick) (s : State) : (offerHed a0 a1 a2 a3 a4 s).2.ready = s.ready := Same.get (f := .ready) (offerHed_foot a0 a1 a2 a3 a4 s) rfl
@[simp] theorem offerHed_booting (a0 : Nat) (a1 : Nat) (a2 : Cls) (a3 : Bt) (a4 : List Pick) (s : State) : (offerHed a0 a1 a2 a3 a4 s).2.booting = s.booting := Same.get (f := .booting) (offerHed_foot a0 a1 a2 a3 a4 s) rfl
@[simp] theorem offerHed_workHeld (a0 : Nat) (a1 : Nat) (a2 : Cls) (a3 : Bt) (a4 : List Pick) (s : State) : (offerHed a0 a1 a2 a3 a4 s).2.workHeld = s.workHeld := Same.get (f := .workHeld) (offerHed_foot a0 a1 a2 a3 a4 s) rfl
@[simp] theorem offerHed_port (a0 : Nat) (a1 : Nat) (a2 : Cls) (a3 : Bt) (a4 : List Pick) (s : State) : (offerHed a0 a1 a2 a3 a4 s).2.port = s.port := Same.get (f := .port) (offerHed_foot a0 a1 a2 a3 a4 s) rfl
@[simp] theorem offerHed_parts (a0 : Nat) (a1 : Nat) (a2 : Cls) (a3 : Bt) (a4 : List Pick) (s : State) : (offerHed a0 a1 a2 a3 a4 s).2.parts = s.parts := Same.get (f := .parts) (offerHed_foot a0 a1 a2 a3 a4 s) rfl
@[simp] theorem offerHed_audit (a0 : Nat) (a1 : Nat) (a2 : Cls) (a3 : Bt) (a4 : List Pick) (s : State) : (offerHed a0 a1 a2 a3 a4 s).2.audit = s.audit := Same.get (f := .audit) (offerHed_foot a0 a1 a2 a3 a4 s) rfl
@[simp] theorem offerHed_tim (a0 : Nat) (a1 : Nat) (a2 : Cls) (a3 : Bt) (a4 : List Pick) (s : State) : (offerHed a0 a1 a2 a3 a4 s).2.tim = s.tim := Same.get (f := .tim) (offerHed_foot a0 a1 a2 a3 a4 s) rfl
@[simp] theorem offerHed_owed (a0 : Nat) (a1 : Nat) (a2 : Cls) (a3 : Bt) (a4 : List Pick) (s : State) : (offerHed a0 a1 a2 a3 a4 s).2.owed = s.owed := Same.get (f := .owed) (offerHed_foot a0 a1 a2 a3 a4 s) rfl
@[simp] theorem offerHed_bobs (a0 : Nat) (a1 : Nat) (a2 : Cls) (a3 : Bt) (a4 : List Pick) (s : State) : (offerHed a0 a1 a2 a3 a4 s).2.bobs = s.bobs := Same.get (f := .bobs) (offerHed_foot a0 a1 a2 a3 a4 s) rfl
@[simp] theorem offerHed_wports (a0 : Nat) (a1 : Nat) (a2 : Cls) (a3 : Bt) (a4 : List Pick) (s : State) : (offerHed a0 a1 a2 a3 a4 s).2.wports = s.wports := Same.get (f := .wports) (offerHed_foot a0 a1 a2 a3 a4 s) rfl
@[simp] theorem offerHed_rport (a0 : Nat) (a1 : Nat) (a2 : Cls) (a3 : Bt) (a4 : List Pick) (s : State) : (offerHed a0 a1 a2 a3 a4 s).2.rport = s.rport := Same.get (f := .rport) (offerHed_foot a0 a1 a2 a3 a4 s) rfl
@[simp] theorem offerHed_adopts (a0 : Nat) (a1 : Nat) (a2 : Cls) (a3 : Bt) (a4 : List Pick) (s : State) : (offerHed a0 a1 a2 a3 a4 s).2.adopts = s.adopts := Same.get (f := .adopts) (offerHed_foot a0 a1 a2 a3 a4 s) rfl
@[simp] theorem offerHed_refused (a0 : Nat) (a1 : Nat) (a2 : Cls) (a3 : Bt) (a4 : List Pick) (s : State) : (offerHed a0 a1 a2 a3 a4 s).2.refused = s.refused := Same.get (f := .refused) (offerHed_foot a0 a1 a2 a3 a4 s) rfl
@[simp] theorem offerHed_heds (a0 : Nat) (a1 : Nat) (a2 : Cls) (a3 : Bt) (a4 : List Pick) (s : State) : (offerHed a0 a1 a2 a3 a4 s).2.heds = s.heds := Same.get (f := .heds) (offerHed_foot a0 a1 a2 a3 a4 s) rfl
@[simp] theorem offerHed_counts (a0 : Nat) (a1 : Nat) (a2 : Cls) (a3 : Bt) (a4 : List Pick) (s : State) : (offerHed a0 a1 a2 a3 a4 s).2.counts = s.counts := Same.get (f := .counts) (offerHed_foot a0 a1 a2 a3 a4 s) rfl
@[simp] theorem offerHed_gov (a0 : Nat) (a1 : Nat) (a2 : Cls) (a3 : Bt) (a4 : List Pick) (s : State) : (offerHed a0 a1 a2 a3 a4 s).2.gov = s.gov := Same.get (f := .gov) (offerHed_foot a0 a1 a2 a3 a4 s) rfl
@[simp] theorem offerHed_stop (a0 : Nat) (a1 : Nat) (a2 : Cls) (a3 : Bt) (a4 : List Pick) (s : State) : (offerHed a0 a1 a2 a3 a4 s).2.stop = s.stop := Same.get (f := .stop) (offerHed_foot a0 a1 a2 a3 a4 s) rfl
@[simp] theorem offerHed_hedStops (a0 : Nat) (a1 : Nat) (a2 : Cls) (a3 : Bt) (a4 : List Pick) (s : State) : (offerHed a0 a1 a2 a3 a4 s).2.hedStops = s.hedStops := Same.get (f := .hedStops) (offerHed_foot a0 a1 a2 a3 a4 s) rfl
@[simp] theorem offerHed_wits (a0 : Nat) (a1 : Nat) (a2 : Cls) (a3 : Bt) (a4 : List Pick) (s : State) : (offerHed a0 a1 a2 a3 a4 s).2.wits = s.wits := Same.get (f := .wits) (offerHed_foot a0 a1 a2 a3 a4 s) rfl
@[simp] theorem offerHed_cards (a0 : Nat) (a1 : Nat) (a2 : Cls) (a3 : Bt) (a4 : List Pick) (s : State) : (offerHed a0 a1 a2 a3 a4 s).2.cards = s.cards := Same.get (f := .cards) (offerHed_foot a0 a1 a2 a3 a4 s) rfl
@[simp] theorem offerHed_shadows (a0 : Nat) (a1 : Nat) (a2 : Cls) (a3 : Bt) (a4 : List Pick) (s : State) : (offerHed a0 a1 a2 a3 a4 s).2.shadows = s.shadows := Same.get (f := .shadows) (offerHed_foot a0 a1 a2 a3 a4 s) rfl
@[simp] theorem offerHed_lapsed (a0 : Nat) (a1 : Nat) (a2 : Cls) (a3 : Bt) (a4 : List Pick) (s : State) : (offerHed a0 a1 a2 a3 a4 s).2.lapsed = s.lapsed := Same.get (f := .lapsed) (offerHed_foot a0 a1 a2 a3 a4 s) rfl
@[simp] theorem offerHed_ver (a0 : Nat) (a1 : Nat) (a2 : Cls) (a3 : Bt) (a4 : List Pick) (s : State) : (offerHed a0 a1 a2 a3 a4 s).2.ver = s.ver := Same.get (f := .ver) (offerHed_foot a0 a1 a2 a3 a4 s) rfl
@[simp] theorem offerHed_gates (a0 : Nat) (a1 : Nat) (a2 : Cls) (a3 : Bt) (a4 : List Pick) (s : State) : (offerHed a0 a1 a2 a3 a4 s).2.gates = s.gates := Same.get (f := .gates) (offerHed_foot a0 a1 a2 a3 a4 s) rfl
@[simp] theorem offerHed_tests (a0 : Nat) (a1 : Nat) (a2 : Cls) (a3 : Bt) (a4 : List Pick) (s : State) : (offerHed a0 a1 a2 a3 a4 s).2.tests = s.tests := Same.get (f := .tests) (offerHed_foot a0 a1 a2 a3 a4 s) rfl
@[simp] theorem offerHed_links (a0 : Nat) (a1 : Nat) (a2 : Cls) (a3 : Bt) (a4 : List Pick) (s : State) : (offerHed a0 a1 a2 a3 a4 s).2.links = s.links := Same.get (f := .links) (offerHed_foot a0 a1 a2 a3 a4 s) rfl
@[simp] theorem offerHed_linkTimes (a0 : Nat) (a1 : Nat) (a2 : Cls) (a3 : Bt) (a4 : List Pick) (s : State) : (offerHed a0 a1 a2 a3 a4 s).2.linkTimes = s.linkTimes := Same.get (f := .linkTimes) (offerHed_foot a0 a1 a2 a3 a4 s) rfl
@[simp] theorem offerHed_servo (a0 : Nat) (a1 : Nat) (a2 : Cls) (a3 : Bt) (a4 : List Pick) (s : State) : (offerHed a0 a1 a2 a3 a4 s).2.servo = s.servo := Same.get (f := .servo) (offerHed_foot a0 a1 a2 a3 a4 s) rfl
@[simp] theorem offerHed_eth (a0 : Nat) (a1 : Nat) (a2 : Cls) (a3 : Bt) (a4 : List Pick) (s : State) : (offerHed a0 a1 a2 a3 a4 s).2.eth = s.eth := Same.get (f := .eth) (offerHed_foot a0 a1 a2 a3 a4 s) rfl
@[simp] theorem offerHed_fw (a0 : Nat) (a1 : Nat) (a2 : Cls) (a3 : Bt) (a4 : List Pick) (s : State) : (offerHed a0 a1 a2 a3 a4 s).2.fw = s.fw := Same.get (f := .fw) (offerHed_foot a0 a1 a2 a3 a4 s) rfl
@[simp] theorem offerHed_cal (a0 : Nat) (a1 : Nat) (a2 : Cls) (a3 : Bt) (a4 : List Pick) (s : State) : (offerHed a0 a1 a2 a3 a4 s).2.cal = s.cal := Same.get (f := .cal) (offerHed_foot a0 a1 a2 a3 a4 s) rfl
@[simp] theorem offerHed_sens (a0 : Nat) (a1 : Nat) (a2 : Cls) (a3 : Bt) (a4 : List Pick) (s : State) : (offerHed a0 a1 a2 a3 a4 s).2.sens = s.sens := Same.get (f := .sens) (offerHed_foot a0 a1 a2 a3 a4 s) rfl
@[simp] theorem offerHed_snsOn (a0 : Nat) (a1 : Nat) (a2 : Cls) (a3 : Bt) (a4 : List Pick) (s : State) : (offerHed a0 a1 a2 a3 a4 s).2.snsOn = s.snsOn := Same.get (f := .snsOn) (offerHed_foot a0 a1 a2 a3 a4 s) rfl
@[simp] theorem offerHed_free (a0 : Nat) (a1 : Nat) (a2 : Cls) (a3 : Bt) (a4 : List Pick) (s : State) : (offerHed a0 a1 a2 a3 a4 s).2.free = s.free := Same.get (f := .free) (offerHed_foot a0 a1 a2 a3 a4 s) rfl
@[simp] theorem offerHed_salts (a0 : Nat) (a1 : Nat) (a2 : Cls) (a3 : Bt) (a4 : List Pick) (s : State) : (offerHed a0 a1 a2 a3 a4 s).2.salts = s.salts := Same.get (f := .salts) (offerHed_foot a0 a1 a2 a3 a4 s) rfl

/-! ### openGap -/

theorem openGap_foot (a0 : Nat) (a1 : Nat) (a2 : Bt) (a3 : Bool) (s : State) : Same (fun f => [Fld.heds].contains f) s (openGap a0 a1 a2 a3 s) :=
  openGap_same rfl (Same.refl _ _)

@[simp] theorem openGap_pending (a0 : Nat) (a1 : Nat) (a2 : Bt) (a3 : Bool) (s : State) : (openGap a0 a1 a2 a3 s).pending = s.pending := Same.get (f := .pending) (openGap_foot a0 a1 a2 a3 s) rfl
@[simp] theorem openGap_inst (a0 : Nat) (a1 : Nat) (a2 : Bt) (a3 : Bool) (s : State) : (openGap a0 a1 a2 a3 s).inst = s.inst := Same.get (f := .inst) (openGap_foot a0 a1 a2 a3 s) rfl
@[simp] theorem openGap_ready (a0 : Nat) (a1 : Nat) (a2 : Bt) (a3 : Bool) (s : State) : (openGap a0 a1 a2 a3 s).ready = s.ready := Same.get (f := .ready) (openGap_foot a0 a1 a2 a3 s) rfl
@[simp] theorem openGap_booting (a0 : Nat) (a1 : Nat) (a2 : Bt) (a3 : Bool) (s : State) : (openGap a0 a1 a2 a3 s).booting = s.booting := Same.get (f := .booting) (openGap_foot a0 a1 a2 a3 s) rfl
@[simp] theorem openGap_workHeld (a0 : Nat) (a1 : Nat) (a2 : Bt) (a3 : Bool) (s : State) : (openGap a0 a1 a2 a3 s).workHeld = s.workHeld := Same.get (f := .workHeld) (openGap_foot a0 a1 a2 a3 s) rfl
@[simp] theorem openGap_port (a0 : Nat) (a1 : Nat) (a2 : Bt) (a3 : Bool) (s : State) : (openGap a0 a1 a2 a3 s).port = s.port := Same.get (f := .port) (openGap_foot a0 a1 a2 a3 s) rfl
@[simp] theorem openGap_regs (a0 : Nat) (a1 : Nat) (a2 : Bt) (a3 : Bool) (s : State) : (openGap a0 a1 a2 a3 s).regs = s.regs := Same.get (f := .regs) (openGap_foot a0 a1 a2 a3 s) rfl
@[simp] theorem openGap_parts (a0 : Nat) (a1 : Nat) (a2 : Bt) (a3 : Bool) (s : State) : (openGap a0 a1 a2 a3 s).parts = s.parts := Same.get (f := .parts) (openGap_foot a0 a1 a2 a3 s) rfl
@[simp] theorem openGap_audit (a0 : Nat) (a1 : Nat) (a2 : Bt) (a3 : Bool) (s : State) : (openGap a0 a1 a2 a3 s).audit = s.audit := Same.get (f := .audit) (openGap_foot a0 a1 a2 a3 s) rfl
@[simp] theorem openGap_tim (a0 : Nat) (a1 : Nat) (a2 : Bt) (a3 : Bool) (s : State) : (openGap a0 a1 a2 a3 s).tim = s.tim := Same.get (f := .tim) (openGap_foot a0 a1 a2 a3 s) rfl
@[simp] theorem openGap_owed (a0 : Nat) (a1 : Nat) (a2 : Bt) (a3 : Bool) (s : State) : (openGap a0 a1 a2 a3 s).owed = s.owed := Same.get (f := .owed) (openGap_foot a0 a1 a2 a3 s) rfl
@[simp] theorem openGap_strs (a0 : Nat) (a1 : Nat) (a2 : Bt) (a3 : Bool) (s : State) : (openGap a0 a1 a2 a3 s).strs = s.strs := Same.get (f := .strs) (openGap_foot a0 a1 a2 a3 s) rfl
@[simp] theorem openGap_closes (a0 : Nat) (a1 : Nat) (a2 : Bt) (a3 : Bool) (s : State) : (openGap a0 a1 a2 a3 s).closes = s.closes := Same.get (f := .closes) (openGap_foot a0 a1 a2 a3 s) rfl
@[simp] theorem openGap_bobs (a0 : Nat) (a1 : Nat) (a2 : Bt) (a3 : Bool) (s : State) : (openGap a0 a1 a2 a3 s).bobs = s.bobs := Same.get (f := .bobs) (openGap_foot a0 a1 a2 a3 s) rfl
@[simp] theorem openGap_wports (a0 : Nat) (a1 : Nat) (a2 : Bt) (a3 : Bool) (s : State) : (openGap a0 a1 a2 a3 s).wports = s.wports := Same.get (f := .wports) (openGap_foot a0 a1 a2 a3 s) rfl
@[simp] theorem openGap_rport (a0 : Nat) (a1 : Nat) (a2 : Bt) (a3 : Bool) (s : State) : (openGap a0 a1 a2 a3 s).rport = s.rport := Same.get (f := .rport) (openGap_foot a0 a1 a2 a3 s) rfl
@[simp] theorem openGap_adopts (a0 : Nat) (a1 : Nat) (a2 : Bt) (a3 : Bool) (s : State) : (openGap a0 a1 a2 a3 s).adopts = s.adopts := Same.get (f := .adopts) (openGap_foot a0 a1 a2 a3 s) rfl
@[simp] theorem openGap_exempt (a0 : Nat) (a1 : Nat) (a2 : Bt) (a3 : Bool) (s : State) : (openGap a0 a1 a2 a3 s).exempt = s.exempt := Same.get (f := .exempt) (openGap_foot a0 a1 a2 a3 s) rfl
@[simp] theorem openGap_refused (a0 : Nat) (a1 : Nat) (a2 : Bt) (a3 : Bool) (s : State) : (openGap a0 a1 a2 a3 s).refused = s.refused := Same.get (f := .refused) (openGap_foot a0 a1 a2 a3 s) rfl
@[simp] theorem openGap_counts (a0 : Nat) (a1 : Nat) (a2 : Bt) (a3 : Bool) (s : State) : (openGap a0 a1 a2 a3 s).counts = s.counts := Same.get (f := .counts) (openGap_foot a0 a1 a2 a3 s) rfl
@[simp] theorem openGap_hedGovs (a0 : Nat) (a1 : Nat) (a2 : Bt) (a3 : Bool) (s : State) : (openGap a0 a1 a2 a3 s).hedGovs = s.hedGovs := Same.get (f := .hedGovs) (openGap_foot a0 a1 a2 a3 s) rfl
@[simp] theorem openGap_reedGovs (a0 : Nat) (a1 : Nat) (a2 : Bt) (a3 : Bool) (s : State) : (openGap a0 a1 a2 a3 s).reedGovs = s.reedGovs := Same.get (f := .reedGovs) (openGap_foot a0 a1 a2 a3 s) rfl
@[simp] theorem openGap_gov (a0 : Nat) (a1 : Nat) (a2 : Bt) (a3 : Bool) (s : State) : (openGap a0 a1 a2 a3 s).gov = s.gov := Same.get (f := .gov) (openGap_foot a0 a1 a2 a3 s) rfl
@[simp] theorem openGap_trd (a0 : Nat) (a1 : Nat) (a2 : Bt) (a3 : Bool) (s : State) : (openGap a0 a1 a2 a3 s).trd = s.trd := Same.get (f := .trd) (openGap_foot a0 a1 a2 a3 s) rfl
@[simp] theorem openGap_stop (a0 : Nat) (a1 : Nat) (a2 : Bt) (a3 : Bool) (s : State) : (openGap a0 a1 a2 a3 s).stop = s.stop := Same.get (f := .stop) (openGap_foot a0 a1 a2 a3 s) rfl
@[simp] theorem openGap_hedStops (a0 : Nat) (a1 : Nat) (a2 : Bt) (a3 : Bool) (s : State) : (openGap a0 a1 a2 a3 s).hedStops = s.hedStops := Same.get (f := .hedStops) (openGap_foot a0 a1 a2 a3 s) rfl
@[simp] theorem openGap_key (a0 : Nat) (a1 : Nat) (a2 : Bt) (a3 : Bool) (s : State) : (openGap a0 a1 a2 a3 s).key = s.key := Same.get (f := .key) (openGap_foot a0 a1 a2 a3 s) rfl
@[simp] theorem openGap_wits (a0 : Nat) (a1 : Nat) (a2 : Bt) (a3 : Bool) (s : State) : (openGap a0 a1 a2 a3 s).wits = s.wits := Same.get (f := .wits) (openGap_foot a0 a1 a2 a3 s) rfl
@[simp] theorem openGap_cards (a0 : Nat) (a1 : Nat) (a2 : Bt) (a3 : Bool) (s : State) : (openGap a0 a1 a2 a3 s).cards = s.cards := Same.get (f := .cards) (openGap_foot a0 a1 a2 a3 s) rfl
@[simp] theorem openGap_shadows (a0 : Nat) (a1 : Nat) (a2 : Bt) (a3 : Bool) (s : State) : (openGap a0 a1 a2 a3 s).shadows = s.shadows := Same.get (f := .shadows) (openGap_foot a0 a1 a2 a3 s) rfl
@[simp] theorem openGap_lapsed (a0 : Nat) (a1 : Nat) (a2 : Bt) (a3 : Bool) (s : State) : (openGap a0 a1 a2 a3 s).lapsed = s.lapsed := Same.get (f := .lapsed) (openGap_foot a0 a1 a2 a3 s) rfl
@[simp] theorem openGap_ver (a0 : Nat) (a1 : Nat) (a2 : Bt) (a3 : Bool) (s : State) : (openGap a0 a1 a2 a3 s).ver = s.ver := Same.get (f := .ver) (openGap_foot a0 a1 a2 a3 s) rfl
@[simp] theorem openGap_gates (a0 : Nat) (a1 : Nat) (a2 : Bt) (a3 : Bool) (s : State) : (openGap a0 a1 a2 a3 s).gates = s.gates := Same.get (f := .gates) (openGap_foot a0 a1 a2 a3 s) rfl
@[simp] theorem openGap_tests (a0 : Nat) (a1 : Nat) (a2 : Bt) (a3 : Bool) (s : State) : (openGap a0 a1 a2 a3 s).tests = s.tests := Same.get (f := .tests) (openGap_foot a0 a1 a2 a3 s) rfl
@[simp] theorem openGap_links (a0 : Nat) (a1 : Nat) (a2 : Bt) (a3 : Bool) (s : State) : (openGap a0 a1 a2 a3 s).links = s.links := Same.get (f := .links) (openGap_foot a0 a1 a2 a3 s) rfl
@[simp] theorem openGap_linkTimes (a0 : Nat) (a1 : Nat) (a2 : Bt) (a3 : Bool) (s : State) : (openGap a0 a1 a2 a3 s).linkTimes = s.linkTimes := Same.get (f := .linkTimes) (openGap_foot a0 a1 a2 a3 s) rfl
@[simp] theorem openGap_servo (a0 : Nat) (a1 : Nat) (a2 : Bt) (a3 : Bool) (s : State) : (openGap a0 a1 a2 a3 s).servo = s.servo := Same.get (f := .servo) (openGap_foot a0 a1 a2 a3 s) rfl
@[simp] theorem openGap_eth (a0 : Nat) (a1 : Nat) (a2 : Bt) (a3 : Bool) (s : State) : (openGap a0 a1 a2 a3 s).eth = s.eth := Same.get (f := .eth) (openGap_foot a0 a1 a2 a3 s) rfl
@[simp] theorem openGap_fw (a0 : Nat) (a1 : Nat) (a2 : Bt) (a3 : Bool) (s : State) : (openGap a0 a1 a2 a3 s).fw = s.fw := Same.get (f := .fw) (openGap_foot a0 a1 a2 a3 s) rfl
@[simp] theorem openGap_cal (a0 : Nat) (a1 : Nat) (a2 : Bt) (a3 : Bool) (s : State) : (openGap a0 a1 a2 a3 s).cal = s.cal := Same.get (f := .cal) (openGap_foot a0 a1 a2 a3 s) rfl
@[simp] theorem openGap_sens (a0 : Nat) (a1 : Nat) (a2 : Bt) (a3 : Bool) (s : State) : (openGap a0 a1 a2 a3 s).sens = s.sens := Same.get (f := .sens) (openGap_foot a0 a1 a2 a3 s) rfl
@[simp] theorem openGap_snsOn (a0 : Nat) (a1 : Nat) (a2 : Bt) (a3 : Bool) (s : State) : (openGap a0 a1 a2 a3 s).snsOn = s.snsOn := Same.get (f := .snsOn) (openGap_foot a0 a1 a2 a3 s) rfl
@[simp] theorem openGap_free (a0 : Nat) (a1 : Nat) (a2 : Bt) (a3 : Bool) (s : State) : (openGap a0 a1 a2 a3 s).free = s.free := Same.get (f := .free) (openGap_foot a0 a1 a2 a3 s) rfl
@[simp] theorem openGap_salts (a0 : Nat) (a1 : Nat) (a2 : Bt) (a3 : Bool) (s : State) : (openGap a0 a1 a2 a3 s).salts = s.salts := Same.get (f := .salts) (openGap_foot a0 a1 a2 a3 s) rfl

/-! ### highWater -/

theorem highWater_foot (a0 : Nat) (s : State) : Same (fun f => [Fld.regs].contains f) s (highWater a0 s) :=
  highWater_same rfl (Same.refl _ _)

@[simp] theorem highWater_pending (a0 : Nat) (s : State) : (highWater a0 s).pending = s.pending := Same.get (f := .pending) (highWater_foot a0 s) rfl
@[simp] theorem highWater_inst (a0 : Nat) (s : State) : (highWater a0 s).inst = s.inst := Same.get (f := .inst) (highWater_foot a0 s) rfl
@[simp] theorem highWater_ready (a0 : Nat) (s : State) : (highWater a0 s).ready = s.ready := Same.get (f := .ready) (highWater_foot a0 s) rfl
@[simp] theorem highWater_booting (a0 : Nat) (s : State) : (highWater a0 s).booting = s.booting := Same.get (f := .booting) (highWater_foot a0 s) rfl
@[simp] theorem highWater_workHeld (a0 : Nat) (s : State) : (highWater a0 s).workHeld = s.workHeld := Same.get (f := .workHeld) (highWater_foot a0 s) rfl
@[simp] theorem highWater_port (a0 : Nat) (s : State) : (highWater a0 s).port = s.port := Same.get (f := .port) (highWater_foot a0 s) rfl
@[simp] theorem highWater_parts (a0 : Nat) (s : State) : (highWater a0 s).parts = s.parts := Same.get (f := .parts) (highWater_foot a0 s) rfl
@[simp] theorem highWater_audit (a0 : Nat) (s : State) : (highWater a0 s).audit = s.audit := Same.get (f := .audit) (highWater_foot a0 s) rfl
@[simp] theorem highWater_tim (a0 : Nat) (s : State) : (highWater a0 s).tim = s.tim := Same.get (f := .tim) (highWater_foot a0 s) rfl
@[simp] theorem highWater_owed (a0 : Nat) (s : State) : (highWater a0 s).owed = s.owed := Same.get (f := .owed) (highWater_foot a0 s) rfl
@[simp] theorem highWater_strs (a0 : Nat) (s : State) : (highWater a0 s).strs = s.strs := Same.get (f := .strs) (highWater_foot a0 s) rfl
@[simp] theorem highWater_closes (a0 : Nat) (s : State) : (highWater a0 s).closes = s.closes := Same.get (f := .closes) (highWater_foot a0 s) rfl
@[simp] theorem highWater_bobs (a0 : Nat) (s : State) : (highWater a0 s).bobs = s.bobs := Same.get (f := .bobs) (highWater_foot a0 s) rfl
@[simp] theorem highWater_wports (a0 : Nat) (s : State) : (highWater a0 s).wports = s.wports := Same.get (f := .wports) (highWater_foot a0 s) rfl
@[simp] theorem highWater_rport (a0 : Nat) (s : State) : (highWater a0 s).rport = s.rport := Same.get (f := .rport) (highWater_foot a0 s) rfl
@[simp] theorem highWater_adopts (a0 : Nat) (s : State) : (highWater a0 s).adopts = s.adopts := Same.get (f := .adopts) (highWater_foot a0 s) rfl
@[simp] theorem highWater_exempt (a0 : Nat) (s : State) : (highWater a0 s).exempt = s.exempt := Same.get (f := .exempt) (highWater_foot a0 s) rfl
@[simp] theorem highWater_refused (a0 : Nat) (s : State) : (highWater a0 s).refused = s.refused := Same.get (f := .refused) (highWater_foot a0 s) rfl
@[simp] theorem highWater_heds (a0 : Nat) (s : State) : (highWater a0 s).heds = s.heds := Same.get (f := .heds) (highWater_foot a0 s) rfl
@[simp] theorem highWater_counts (a0 : Nat) (s : State) : (highWater a0 s).counts = s.counts := Same.get (f := .counts) (highWater_foot a0 s) rfl
@[simp] theorem highWater_hedGovs (a0 : Nat) (s : State) : (highWater a0 s).hedGovs = s.hedGovs := Same.get (f := .hedGovs) (highWater_foot a0 s) rfl
@[simp] theorem highWater_reedGovs (a0 : Nat) (s : State) : (highWater a0 s).reedGovs = s.reedGovs := Same.get (f := .reedGovs) (highWater_foot a0 s) rfl
@[simp] theorem highWater_gov (a0 : Nat) (s : State) : (highWater a0 s).gov = s.gov := Same.get (f := .gov) (highWater_foot a0 s) rfl
@[simp] theorem highWater_trd (a0 : Nat) (s : State) : (highWater a0 s).trd = s.trd := Same.get (f := .trd) (highWater_foot a0 s) rfl
@[simp] theorem highWater_stop (a0 : Nat) (s : State) : (highWater a0 s).stop = s.stop := Same.get (f := .stop) (highWater_foot a0 s) rfl
@[simp] theorem highWater_hedStops (a0 : Nat) (s : State) : (highWater a0 s).hedStops = s.hedStops := Same.get (f := .hedStops) (highWater_foot a0 s) rfl
@[simp] theorem highWater_key (a0 : Nat) (s : State) : (highWater a0 s).key = s.key := Same.get (f := .key) (highWater_foot a0 s) rfl
@[simp] theorem highWater_wits (a0 : Nat) (s : State) : (highWater a0 s).wits = s.wits := Same.get (f := .wits) (highWater_foot a0 s) rfl
@[simp] theorem highWater_cards (a0 : Nat) (s : State) : (highWater a0 s).cards = s.cards := Same.get (f := .cards) (highWater_foot a0 s) rfl
@[simp] theorem highWater_shadows (a0 : Nat) (s : State) : (highWater a0 s).shadows = s.shadows := Same.get (f := .shadows) (highWater_foot a0 s) rfl
@[simp] theorem highWater_lapsed (a0 : Nat) (s : State) : (highWater a0 s).lapsed = s.lapsed := Same.get (f := .lapsed) (highWater_foot a0 s) rfl
@[simp] theorem highWater_ver (a0 : Nat) (s : State) : (highWater a0 s).ver = s.ver := Same.get (f := .ver) (highWater_foot a0 s) rfl
@[simp] theorem highWater_gates (a0 : Nat) (s : State) : (highWater a0 s).gates = s.gates := Same.get (f := .gates) (highWater_foot a0 s) rfl
@[simp] theorem highWater_tests (a0 : Nat) (s : State) : (highWater a0 s).tests = s.tests := Same.get (f := .tests) (highWater_foot a0 s) rfl
@[simp] theorem highWater_links (a0 : Nat) (s : State) : (highWater a0 s).links = s.links := Same.get (f := .links) (highWater_foot a0 s) rfl
@[simp] theorem highWater_linkTimes (a0 : Nat) (s : State) : (highWater a0 s).linkTimes = s.linkTimes := Same.get (f := .linkTimes) (highWater_foot a0 s) rfl
@[simp] theorem highWater_servo (a0 : Nat) (s : State) : (highWater a0 s).servo = s.servo := Same.get (f := .servo) (highWater_foot a0 s) rfl
@[simp] theorem highWater_eth (a0 : Nat) (s : State) : (highWater a0 s).eth = s.eth := Same.get (f := .eth) (highWater_foot a0 s) rfl
@[simp] theorem highWater_fw (a0 : Nat) (s : State) : (highWater a0 s).fw = s.fw := Same.get (f := .fw) (highWater_foot a0 s) rfl
@[simp] theorem highWater_cal (a0 : Nat) (s : State) : (highWater a0 s).cal = s.cal := Same.get (f := .cal) (highWater_foot a0 s) rfl
@[simp] theorem highWater_sens (a0 : Nat) (s : State) : (highWater a0 s).sens = s.sens := Same.get (f := .sens) (highWater_foot a0 s) rfl
@[simp] theorem highWater_snsOn (a0 : Nat) (s : State) : (highWater a0 s).snsOn = s.snsOn := Same.get (f := .snsOn) (highWater_foot a0 s) rfl
@[simp] theorem highWater_free (a0 : Nat) (s : State) : (highWater a0 s).free = s.free := Same.get (f := .free) (highWater_foot a0 s) rfl
@[simp] theorem highWater_salts (a0 : Nat) (s : State) : (highWater a0 s).salts = s.salts := Same.get (f := .salts) (highWater_foot a0 s) rfl

/-! ### goBlind -/

theorem goBlind_foot (a0 : Nat) (s : State) : Same (fun f => [Fld.regs, Fld.trd, Fld.ver].contains f) s (goBlind a0 s) :=
  goBlind_same rfl rfl rfl (Same.refl _ _)

@[simp] theorem goBlind_pending (a0 : Nat) (s : State) : (goBlind a0 s).pending = s.pending := Same.get (f := .pending) (goBlind_foot a0 s) rfl
@[simp] theorem goBlind_inst (a0 : Nat) (s : State) : (goBlind a0 s).inst = s.inst := Same.get (f := .inst) (goBlind_foot a0 s) rfl
@[simp] theorem goBlind_ready (a0 : Nat) (s : State) : (goBlind a0 s).ready = s.ready := Same.get (f := .ready) (goBlind_foot a0 s) rfl
@[simp] theorem goBlind_booting (a0 : Nat) (s : State) : (goBlind a0 s).booting = s.booting := Same.get (f := .booting) (goBlind_foot a0 s) rfl
@[simp] theorem goBlind_workHeld (a0 : Nat) (s : State) : (goBlind a0 s).workHeld = s.workHeld := Same.get (f := .workHeld) (goBlind_foot a0 s) rfl
@[simp] theorem goBlind_port (a0 : Nat) (s : State) : (goBlind a0 s).port = s.port := Same.get (f := .port) (goBlind_foot a0 s) rfl
@[simp] theorem goBlind_parts (a0 : Nat) (s : State) : (goBlind a0 s).parts = s.parts := Same.get (f := .parts) (goBlind_foot a0 s) rfl
@[simp] theorem goBlind_audit (a0 : Nat) (s : State) : (goBlind a0 s).audit = s.audit := Same.get (f := .audit) (goBlind_foot a0 s) rfl
@[simp] theorem goBlind_tim (a0 : Nat) (s : State) : (goBlind a0 s).tim = s.tim := Same.get (f := .tim) (goBlind_foot a0 s) rfl
@[simp] theorem goBlind_owed (a0 : Nat) (s : State) : (goBlind a0 s).owed = s.owed := Same.get (f := .owed) (goBlind_foot a0 s) rfl
@[simp] theorem goBlind_strs (a0 : Nat) (s : State) : (goBlind a0 s).strs = s.strs := Same.get (f := .strs) (goBlind_foot a0 s) rfl
@[simp] theorem goBlind_closes (a0 : Nat) (s : State) : (goBlind a0 s).closes = s.closes := Same.get (f := .closes) (goBlind_foot a0 s) rfl
@[simp] theorem goBlind_bobs (a0 : Nat) (s : State) : (goBlind a0 s).bobs = s.bobs := Same.get (f := .bobs) (goBlind_foot a0 s) rfl
@[simp] theorem goBlind_wports (a0 : Nat) (s : State) : (goBlind a0 s).wports = s.wports := Same.get (f := .wports) (goBlind_foot a0 s) rfl
@[simp] theorem goBlind_rport (a0 : Nat) (s : State) : (goBlind a0 s).rport = s.rport := Same.get (f := .rport) (goBlind_foot a0 s) rfl
@[simp] theorem goBlind_adopts (a0 : Nat) (s : State) : (goBlind a0 s).adopts = s.adopts := Same.get (f := .adopts) (goBlind_foot a0 s) rfl
@[simp] theorem goBlind_exempt (a0 : Nat) (s : State) : (goBlind a0 s).exempt = s.exempt := Same.get (f := .exempt) (goBlind_foot a0 s) rfl
@[simp] theorem goBlind_refused (a0 : Nat) (s : State) : (goBlind a0 s).refused = s.refused := Same.get (f := .refused) (goBlind_foot a0 s) rfl
@[simp] theorem goBlind_heds (a0 : Nat) (s : State) : (goBlind a0 s).heds = s.heds := Same.get (f := .heds) (goBlind_foot a0 s) rfl
@[simp] theorem goBlind_counts (a0 : Nat) (s : State) : (goBlind a0 s).counts = s.counts := Same.get (f := .counts) (goBlind_foot a0 s) rfl
@[simp] theorem goBlind_hedGovs (a0 : Nat) (s : State) : (goBlind a0 s).hedGovs = s.hedGovs := Same.get (f := .hedGovs) (goBlind_foot a0 s) rfl
@[simp] theorem goBlind_reedGovs (a0 : Nat) (s : State) : (goBlind a0 s).reedGovs = s.reedGovs := Same.get (f := .reedGovs) (goBlind_foot a0 s) rfl
@[simp] theorem goBlind_gov (a0 : Nat) (s : State) : (goBlind a0 s).gov = s.gov := Same.get (f := .gov) (goBlind_foot a0 s) rfl
@[simp] theorem goBlind_stop (a0 : Nat) (s : State) : (goBlind a0 s).stop = s.stop := Same.get (f := .stop) (goBlind_foot a0 s) rfl
@[simp] theorem goBlind_hedStops (a0 : Nat) (s : State) : (goBlind a0 s).hedStops = s.hedStops := Same.get (f := .hedStops) (goBlind_foot a0 s) rfl
@[simp] theorem goBlind_key (a0 : Nat) (s : State) : (goBlind a0 s).key = s.key := Same.get (f := .key) (goBlind_foot a0 s) rfl
@[simp] theorem goBlind_wits (a0 : Nat) (s : State) : (goBlind a0 s).wits = s.wits := Same.get (f := .wits) (goBlind_foot a0 s) rfl
@[simp] theorem goBlind_cards (a0 : Nat) (s : State) : (goBlind a0 s).cards = s.cards := Same.get (f := .cards) (goBlind_foot a0 s) rfl
@[simp] theorem goBlind_shadows (a0 : Nat) (s : State) : (goBlind a0 s).shadows = s.shadows := Same.get (f := .shadows) (goBlind_foot a0 s) rfl
@[simp] theorem goBlind_lapsed (a0 : Nat) (s : State) : (goBlind a0 s).lapsed = s.lapsed := Same.get (f := .lapsed) (goBlind_foot a0 s) rfl
@[simp] theorem goBlind_gates (a0 : Nat) (s : State) : (goBlind a0 s).gates = s.gates := Same.get (f := .gates) (goBlind_foot a0 s) rfl
@[simp] theorem goBlind_tests (a0 : Nat) (s : State) : (goBlind a0 s).tests = s.tests := Same.get (f := .tests) (goBlind_foot a0 s) rfl
@[simp] theorem goBlind_links (a0 : Nat) (s : State) : (goBlind a0 s).links = s.links := Same.get (f := .links) (goBlind_foot a0 s) rfl
@[simp] theorem goBlind_linkTimes (a0 : Nat) (s : State) : (goBlind a0 s).linkTimes = s.linkTimes := Same.get (f := .linkTimes) (goBlind_foot a0 s) rfl
@[simp] theorem goBlind_servo (a0 : Nat) (s : State) : (goBlind a0 s).servo = s.servo := Same.get (f := .servo) (goBlind_foot a0 s) rfl
@[simp] theorem goBlind_eth (a0 : Nat) (s : State) : (goBlind a0 s).eth = s.eth := Same.get (f := .eth) (goBlind_foot a0 s) rfl
@[simp] theorem goBlind_fw (a0 : Nat) (s : State) : (goBlind a0 s).fw = s.fw := Same.get (f := .fw) (goBlind_foot a0 s) rfl
@[simp] theorem goBlind_cal (a0 : Nat) (s : State) : (goBlind a0 s).cal = s.cal := Same.get (f := .cal) (goBlind_foot a0 s) rfl
@[simp] theorem goBlind_sens (a0 : Nat) (s : State) : (goBlind a0 s).sens = s.sens := Same.get (f := .sens) (goBlind_foot a0 s) rfl
@[simp] theorem goBlind_snsOn (a0 : Nat) (s : State) : (goBlind a0 s).snsOn = s.snsOn := Same.get (f := .snsOn) (goBlind_foot a0 s) rfl
@[simp] theorem goBlind_free (a0 : Nat) (s : State) : (goBlind a0 s).free = s.free := Same.get (f := .free) (goBlind_foot a0 s) rfl
@[simp] theorem goBlind_salts (a0 : Nat) (s : State) : (goBlind a0 s).salts = s.salts := Same.get (f := .salts) (goBlind_foot a0 s) rfl

/-! ### acceptSpan -/

theorem acceptSpan_foot (a0 : Nat) (a1 : Ent) (s : State) : Same (fun f => [Fld.regs, Fld.strs, Fld.closes, Fld.exempt, Fld.heds, Fld.hedGovs, Fld.reedGovs, Fld.trd, Fld.key].contains f) s (acceptSpan a0 a1 s) :=
  acceptSpan_same rfl rfl rfl rfl rfl rfl rfl rfl rfl (Same.refl _ _)

@[simp] theorem acceptSpan_pending (a0 : Nat) (a1 : Ent) (s : State) : (acceptSpan a0 a1 s).pending = s.pending := Same.get (f := .pending) (acceptSpan_foot a0 a1 s) rfl
@[simp] theorem acceptSpan_inst (a0 : Nat) (a1 : Ent) (s : State) : (acceptSpan a0 a1 s).inst = s.inst := Same.get (f := .inst) (acceptSpan_foot a0 a1 s) rfl
@[simp] theorem acceptSpan_ready (a0 : Nat) (a1 : Ent) (s : State) : (acceptSpan a0 a1 s).ready = s.ready := Same.get (f := .ready) (acceptSpan_foot a0 a1 s) rfl
@[simp] theorem acceptSpan_booting (a0 : Nat) (a1 : Ent) (s : State) : (acceptSpan a0 a1 s).booting = s.booting := Same.get (f := .booting) (acceptSpan_foot a0 a1 s) rfl
@[simp] theorem acceptSpan_workHeld (a0 : Nat) (a1 : Ent) (s : State) : (acceptSpan a0 a1 s).workHeld = s.workHeld := Same.get (f := .workHeld) (acceptSpan_foot a0 a1 s) rfl
@[simp] theorem acceptSpan_port (a0 : Nat) (a1 : Ent) (s : State) : (acceptSpan a0 a1 s).port = s.port := Same.get (f := .port) (acceptSpan_foot a0 a1 s) rfl
@[simp] theorem acceptSpan_parts (a0 : Nat) (a1 : Ent) (s : State) : (acceptSpan a0 a1 s).parts = s.parts := Same.get (f := .parts) (acceptSpan_foot a0 a1 s) rfl
@[simp] theorem acceptSpan_audit (a0 : Nat) (a1 : Ent) (s : State) : (acceptSpan a0 a1 s).audit = s.audit := Same.get (f := .audit) (acceptSpan_foot a0 a1 s) rfl
@[simp] theorem acceptSpan_tim (a0 : Nat) (a1 : Ent) (s : State) : (acceptSpan a0 a1 s).tim = s.tim := Same.get (f := .tim) (acceptSpan_foot a0 a1 s) rfl
@[simp] theorem acceptSpan_owed (a0 : Nat) (a1 : Ent) (s : State) : (acceptSpan a0 a1 s).owed = s.owed := Same.get (f := .owed) (acceptSpan_foot a0 a1 s) rfl
@[simp] theorem acceptSpan_bobs (a0 : Nat) (a1 : Ent) (s : State) : (acceptSpan a0 a1 s).bobs = s.bobs := Same.get (f := .bobs) (acceptSpan_foot a0 a1 s) rfl
@[simp] theorem acceptSpan_wports (a0 : Nat) (a1 : Ent) (s : State) : (acceptSpan a0 a1 s).wports = s.wports := Same.get (f := .wports) (acceptSpan_foot a0 a1 s) rfl
@[simp] theorem acceptSpan_rport (a0 : Nat) (a1 : Ent) (s : State) : (acceptSpan a0 a1 s).rport = s.rport := Same.get (f := .rport) (acceptSpan_foot a0 a1 s) rfl
@[simp] theorem acceptSpan_adopts (a0 : Nat) (a1 : Ent) (s : State) : (acceptSpan a0 a1 s).adopts = s.adopts := Same.get (f := .adopts) (acceptSpan_foot a0 a1 s) rfl
@[simp] theorem acceptSpan_refused (a0 : Nat) (a1 : Ent) (s : State) : (acceptSpan a0 a1 s).refused = s.refused := Same.get (f := .refused) (acceptSpan_foot a0 a1 s) rfl
@[simp] theorem acceptSpan_counts (a0 : Nat) (a1 : Ent) (s : State) : (acceptSpan a0 a1 s).counts = s.counts := Same.get (f := .counts) (acceptSpan_foot a0 a1 s) rfl
@[simp] theorem acceptSpan_gov (a0 : Nat) (a1 : Ent) (s : State) : (acceptSpan a0 a1 s).gov = s.gov := Same.get (f := .gov) (acceptSpan_foot a0 a1 s) rfl
@[simp] theorem acceptSpan_stop (a0 : Nat) (a1 : Ent) (s : State) : (acceptSpan a0 a1 s).stop = s.stop := Same.get (f := .stop) (acceptSpan_foot a0 a1 s) rfl
@[simp] theorem acceptSpan_hedStops (a0 : Nat) (a1 : Ent) (s : State) : (acceptSpan a0 a1 s).hedStops = s.hedStops := Same.get (f := .hedStops) (acceptSpan_foot a0 a1 s) rfl
@[simp] theorem acceptSpan_wits (a0 : Nat) (a1 : Ent) (s : State) : (acceptSpan a0 a1 s).wits = s.wits := Same.get (f := .wits) (acceptSpan_foot a0 a1 s) rfl
@[simp] theorem acceptSpan_cards (a0 : Nat) (a1 : Ent) (s : State) : (acceptSpan a0 a1 s).cards = s.cards := Same.get (f := .cards) (acceptSpan_foot a0 a1 s) rfl
@[simp] theorem acceptSpan_shadows (a0 : Nat) (a1 : Ent) (s : State) : (acceptSpan a0 a1 s).shadows = s.shadows := Same.get (f := .shadows) (acceptSpan_foot a0 a1 s) rfl
@[simp] theorem acceptSpan_lapsed (a0 : Nat) (a1 : Ent) (s : State) : (acceptSpan a0 a1 s).lapsed = s.lapsed := Same.get (f := .lapsed) (acceptSpan_foot a0 a1 s) rfl
@[simp] theorem acceptSpan_ver (a0 : Nat) (a1 : Ent) (s : State) : (acceptSpan a0 a1 s).ver = s.ver := Same.get (f := .ver) (acceptSpan_foot a0 a1 s) rfl
@[simp] theorem acceptSpan_gates (a0 : Nat) (a1 : Ent) (s : State) : (acceptSpan a0 a1 s).gates = s.gates := Same.get (f := .gates) (acceptSpan_foot a0 a1 s) rfl
@[simp] theorem acceptSpan_tests (a0 : Nat) (a1 : Ent) (s : State) : (acceptSpan a0 a1 s).tests = s.tests := Same.get (f := .tests) (acceptSpan_foot a0 a1 s) rfl
@[simp] theorem acceptSpan_links (a0 : Nat) (a1 : Ent) (s : State) : (acceptSpan a0 a1 s).links = s.links := Same.get (f := .links) (acceptSpan_foot a0 a1 s) rfl
@[simp] theorem acceptSpan_linkTimes (a0 : Nat) (a1 : Ent) (s : State) : (acceptSpan a0 a1 s).linkTimes = s.linkTimes := Same.get (f := .linkTimes) (acceptSpan_foot a0 a1 s) rfl
@[simp] theorem acceptSpan_servo (a0 : Nat) (a1 : Ent) (s : State) : (acceptSpan a0 a1 s).servo = s.servo := Same.get (f := .servo) (acceptSpan_foot a0 a1 s) rfl
@[simp] theorem acceptSpan_eth (a0 : Nat) (a1 : Ent) (s : State) : (acceptSpan a0 a1 s).eth = s.eth := Same.get (f := .eth) (acceptSpan_foot a0 a1 s) rfl
@[simp] theorem acceptSpan_fw (a0 : Nat) (a1 : Ent) (s : State) : (acceptSpan a0 a1 s).fw = s.fw := Same.get (f := .fw) (acceptSpan_foot a0 a1 s) rfl
@[simp] theorem acceptSpan_cal (a0 : Nat) (a1 : Ent) (s : State) : (acceptSpan a0 a1 s).cal = s.cal := Same.get (f := .cal) (acceptSpan_foot a0 a1 s) rfl
@[simp] theorem acceptSpan_sens (a0 : Nat) (a1 : Ent) (s : State) : (acceptSpan a0 a1 s).sens = s.sens := Same.get (f := .sens) (acceptSpan_foot a0 a1 s) rfl
@[simp] theorem acceptSpan_snsOn (a0 : Nat) (a1 : Ent) (s : State) : (acceptSpan a0 a1 s).snsOn = s.snsOn := Same.get (f := .snsOn) (acceptSpan_foot a0 a1 s) rfl
@[simp] theorem acceptSpan_free (a0 : Nat) (a1 : Ent) (s : State) : (acceptSpan a0 a1 s).free = s.free := Same.get (f := .free) (acceptSpan_foot a0 a1 s) rfl
@[simp] theorem acceptSpan_salts (a0 : Nat) (a1 : Ent) (s : State) : (acceptSpan a0 a1 s).salts = s.salts := Same.get (f := .salts) (acceptSpan_foot a0 a1 s) rfl

/-! ### retain -/

theorem retain_foot (a0 : Nat) (a1 : Pick) (s : State) : Same (fun f => [Fld.regs, Fld.strs, Fld.closes, Fld.exempt, Fld.refused, Fld.trd].contains f) s (retain a0 a1 s).2 :=
  retain_same rfl rfl rfl rfl rfl rfl (Same.refl _ _)

@[simp] theorem retain_pending (a0 : Nat) (a1 : Pick) (s : State) : (retain a0 a1 s).2.pending = s.pending := Same.get (f := .pending) (retain_foot a0 a1 s) rfl
@[simp] theorem retain_inst (a0 : Nat) (a1 : Pick) (s : State) : (retain a0 a1 s).2.inst = s.inst := Same.get (f := .inst) (retain_foot a0 a1 s) rfl
@[simp] theorem retain_ready (a0 : Nat) (a1 : Pick) (s : State) : (retain a0 a1 s).2.ready = s.ready := Same.get (f := .ready) (retain_foot a0 a1 s) rfl
@[simp] theorem retain_booting (a0 : Nat) (a1 : Pick) (s : State) : (retain a0 a1 s).2.booting = s.booting := Same.get (f := .booting) (retain_foot a0 a1 s) rfl
@[simp] theorem retain_workHeld (a0 : Nat) (a1 : Pick) (s : State) : (retain a0 a1 s).2.workHeld = s.workHeld := Same.get (f := .workHeld) (retain_foot a0 a1 s) rfl
@[simp] theorem retain_port (a0 : Nat) (a1 : Pick) (s : State) : (retain a0 a1 s).2.port = s.port := Same.get (f := .port) (retain_foot a0 a1 s) rfl
@[simp] theorem retain_parts (a0 : Nat) (a1 : Pick) (s : State) : (retain a0 a1 s).2.parts = s.parts := Same.get (f := .parts) (retain_foot a0 a1 s) rfl
@[simp] theorem retain_audit (a0 : Nat) (a1 : Pick) (s : State) : (retain a0 a1 s).2.audit = s.audit := Same.get (f := .audit) (retain_foot a0 a1 s) rfl
@[simp] theorem retain_tim (a0 : Nat) (a1 : Pick) (s : State) : (retain a0 a1 s).2.tim = s.tim := Same.get (f := .tim) (retain_foot a0 a1 s) rfl
@[simp] theorem retain_owed (a0 : Nat) (a1 : Pick) (s : State) : (retain a0 a1 s).2.owed = s.owed := Same.get (f := .owed) (retain_foot a0 a1 s) rfl
@[simp] theorem retain_bobs (a0 : Nat) (a1 : Pick) (s : State) : (retain a0 a1 s).2.bobs = s.bobs := Same.get (f := .bobs) (retain_foot a0 a1 s) rfl
@[simp] theorem retain_wports (a0 : Nat) (a1 : Pick) (s : State) : (retain a0 a1 s).2.wports = s.wports := Same.get (f := .wports) (retain_foot a0 a1 s) rfl
@[simp] theorem retain_rport (a0 : Nat) (a1 : Pick) (s : State) : (retain a0 a1 s).2.rport = s.rport := Same.get (f := .rport) (retain_foot a0 a1 s) rfl
@[simp] theorem retain_adopts (a0 : Nat) (a1 : Pick) (s : State) : (retain a0 a1 s).2.adopts = s.adopts := Same.get (f := .adopts) (retain_foot a0 a1 s) rfl
@[simp] theorem retain_heds (a0 : Nat) (a1 : Pick) (s : State) : (retain a0 a1 s).2.heds = s.heds := Same.get (f := .heds) (retain_foot a0 a1 s) rfl
@[simp] theorem retain_counts (a0 : Nat) (a1 : Pick) (s : State) : (retain a0 a1 s).2.counts = s.counts := Same.get (f := .counts) (retain_foot a0 a1 s) rfl
@[simp] theorem retain_hedGovs (a0 : Nat) (a1 : Pick) (s : State) : (retain a0 a1 s).2.hedGovs = s.hedGovs := Same.get (f := .hedGovs) (retain_foot a0 a1 s) rfl
@[simp] theorem retain_reedGovs (a0 : Nat) (a1 : Pick) (s : State) : (retain a0 a1 s).2.reedGovs = s.reedGovs := Same.get (f := .reedGovs) (retain_foot a0 a1 s) rfl
@[simp] theorem retain_gov (a0 : Nat) (a1 : Pick) (s : State) : (retain a0 a1 s).2.gov = s.gov := Same.get (f := .gov) (retain_foot a0 a1 s) rfl
@[simp] theorem retain_stop (a0 : Nat) (a1 : Pick) (s : State) : (retain a0 a1 s).2.stop = s.stop := Same.get (f := .stop) (retain_foot a0 a1 s) rfl
@[simp] theorem retain_hedStops (a0 : Nat) (a1 : Pick) (s : State) : (retain a0 a1 s).2.hedStops = s.hedStops := Same.get (f := .hedStops) (retain_foot a0 a1 s) rfl
@[simp] theorem retain_key (a0 : Nat) (a1 : Pick) (s : State) : (retain a0 a1 s).2.key = s.key := Same.get (f := .key) (retain_foot a0 a1 s) rfl
@[simp] theorem retain_wits (a0 : Nat) (a1 : Pick) (s : State) : (retain a0 a1 s).2.wits = s.wits := Same.get (f := .wits) (retain_foot a0 a1 s) rfl
@[simp] theorem retain_cards (a0 : Nat) (a1 : Pick) (s : State) : (retain a0 a1 s).2.cards = s.cards := Same.get (f := .cards) (retain_foot a0 a1 s) rfl
@[simp] theorem retain_shadows (a0 : Nat) (a1 : Pick) (s : State) : (retain a0 a1 s).2.shadows = s.shadows := Same.get (f := .shadows) (retain_foot a0 a1 s) rfl
@[simp] theorem retain_lapsed (a0 : Nat) (a1 : Pick) (s : State) : (retain a0 a1 s).2.lapsed = s.lapsed := Same.get (f := .lapsed) (retain_foot a0 a1 s) rfl
@[simp] theorem retain_ver (a0 : Nat) (a1 : Pick) (s : State) : (retain a0 a1 s).2.ver = s.ver := Same.get (f := .ver) (retain_foot a0 a1 s) rfl
@[simp] theorem retain_gates (a0 : Nat) (a1 : Pick) (s : State) : (retain a0 a1 s).2.gates = s.gates := Same.get (f := .gates) (retain_foot a0 a1 s) rfl
@[simp] theorem retain_tests (a0 : Nat) (a1 : Pick) (s : State) : (retain a0 a1 s).2.tests = s.tests := Same.get (f := .tests) (retain_foot a0 a1 s) rfl
@[simp] theorem retain_links (a0 : Nat) (a1 : Pick) (s : State) : (retain a0 a1 s).2.links = s.links := Same.get (f := .links) (retain_foot a0 a1 s) rfl
@[simp] theorem retain_linkTimes (a0 : Nat) (a1 : Pick) (s : State) : (retain a0 a1 s).2.linkTimes = s.linkTimes := Same.get (f := .linkTimes) (retain_foot a0 a1 s) rfl
@[simp] theorem retain_servo (a0 : Nat) (a1 : Pick) (s : State) : (retain a0 a1 s).2.servo = s.servo := Same.get (f := .servo) (retain_foot a0 a1 s) rfl
@[simp] theorem retain_eth (a0 : Nat) (a1 : Pick) (s : State) : (retain a0 a1 s).2.eth = s.eth := Same.get (f := .eth) (retain_foot a0 a1 s) rfl
@[simp] theorem retain_fw (a0 : Nat) (a1 : Pick) (s : State) : (retain a0 a1 s).2.fw = s.fw := Same.get (f := .fw) (retain_foot a0 a1 s) rfl
@[simp] theorem retain_cal (a0 : Nat) (a1 : Pick) (s : State) : (retain a0 a1 s).2.cal = s.cal := Same.get (f := .cal) (retain_foot a0 a1 s) rfl
@[simp] theorem retain_sens (a0 : Nat) (a1 : Pick) (s : State) : (retain a0 a1 s).2.sens = s.sens := Same.get (f := .sens) (retain_foot a0 a1 s) rfl
@[simp] theorem retain_snsOn (a0 : Nat) (a1 : Pick) (s : State) : (retain a0 a1 s).2.snsOn = s.snsOn := Same.get (f := .snsOn) (retain_foot a0 a1 s) rfl
@[simp] theorem retain_free (a0 : Nat) (a1 : Pick) (s : State) : (retain a0 a1 s).2.free = s.free := Same.get (f := .free) (retain_foot a0 a1 s) rfl
@[simp] theorem retain_salts (a0 : Nat) (a1 : Pick) (s : State) : (retain a0 a1 s).2.salts = s.salts := Same.get (f := .salts) (retain_foot a0 a1 s) rfl

/-! ### hold -/

theorem hold_foot (a0 : Nat) (a1 : Held) (s : State) : Same (fun f => [Fld.heds].contains f) s (hold a0 a1 s) :=
  hold_same rfl (Same.refl _ _)

@[simp] theorem hold_pending (a0 : Nat) (a1 : Held) (s : State) : (hold a0 a1 s).pending = s.pending := Same.get (f := .pending) (hold_foot a0 a1 s) rfl
@[simp] theorem hold_inst (a0 : Nat) (a1 : Held) (s : State) : (hold a0 a1 s).inst = s.inst := Same.get (f := .inst) (hold_foot a0 a1 s) rfl
@[simp] theorem hold_ready (a0 : Nat) (a1 : Held) (s : State) : (hold a0 a1 s).ready = s.ready := Same.get (f := .ready) (hold_foot a0 a1 s) rfl
@[simp] theorem hold_booting (a0 : Nat) (a1 : Held) (s : State) : (hold a0 a1 s).booting = s.booting := Same.get (f := .booting) (hold_foot a0 a1 s) rfl
@[simp] theorem hold_workHeld (a0 : Nat) (a1 : Held) (s : State) : (hold a0 a1 s).workHeld = s.workHeld := Same.get (f := .workHeld) (hold_foot a0 a1 s) rfl
@[simp] theorem hold_port (a0 : Nat) (a1 : Held) (s : State) : (hold a0 a1 s).port = s.port := Same.get (f := .port) (hold_foot a0 a1 s) rfl
@[simp] theorem hold_regs (a0 : Nat) (a1 : Held) (s : State) : (hold a0 a1 s).regs = s.regs := Same.get (f := .regs) (hold_foot a0 a1 s) rfl
@[simp] theorem hold_parts (a0 : Nat) (a1 : Held) (s : State) : (hold a0 a1 s).parts = s.parts := Same.get (f := .parts) (hold_foot a0 a1 s) rfl
@[simp] theorem hold_audit (a0 : Nat) (a1 : Held) (s : State) : (hold a0 a1 s).audit = s.audit := Same.get (f := .audit) (hold_foot a0 a1 s) rfl
@[simp] theorem hold_tim (a0 : Nat) (a1 : Held) (s : State) : (hold a0 a1 s).tim = s.tim := Same.get (f := .tim) (hold_foot a0 a1 s) rfl
@[simp] theorem hold_owed (a0 : Nat) (a1 : Held) (s : State) : (hold a0 a1 s).owed = s.owed := Same.get (f := .owed) (hold_foot a0 a1 s) rfl
@[simp] theorem hold_strs (a0 : Nat) (a1 : Held) (s : State) : (hold a0 a1 s).strs = s.strs := Same.get (f := .strs) (hold_foot a0 a1 s) rfl
@[simp] theorem hold_closes (a0 : Nat) (a1 : Held) (s : State) : (hold a0 a1 s).closes = s.closes := Same.get (f := .closes) (hold_foot a0 a1 s) rfl
@[simp] theorem hold_bobs (a0 : Nat) (a1 : Held) (s : State) : (hold a0 a1 s).bobs = s.bobs := Same.get (f := .bobs) (hold_foot a0 a1 s) rfl
@[simp] theorem hold_wports (a0 : Nat) (a1 : Held) (s : State) : (hold a0 a1 s).wports = s.wports := Same.get (f := .wports) (hold_foot a0 a1 s) rfl
@[simp] theorem hold_rport (a0 : Nat) (a1 : Held) (s : State) : (hold a0 a1 s).rport = s.rport := Same.get (f := .rport) (hold_foot a0 a1 s) rfl
@[simp] theorem hold_adopts (a0 : Nat) (a1 : Held) (s : State) : (hold a0 a1 s).adopts = s.adopts := Same.get (f := .adopts) (hold_foot a0 a1 s) rfl
@[simp] theorem hold_exempt (a0 : Nat) (a1 : Held) (s : State) : (hold a0 a1 s).exempt = s.exempt := Same.get (f := .exempt) (hold_foot a0 a1 s) rfl
@[simp] theorem hold_refused (a0 : Nat) (a1 : Held) (s : State) : (hold a0 a1 s).refused = s.refused := Same.get (f := .refused) (hold_foot a0 a1 s) rfl
@[simp] theorem hold_counts (a0 : Nat) (a1 : Held) (s : State) : (hold a0 a1 s).counts = s.counts := Same.get (f := .counts) (hold_foot a0 a1 s) rfl
@[simp] theorem hold_hedGovs (a0 : Nat) (a1 : Held) (s : State) : (hold a0 a1 s).hedGovs = s.hedGovs := Same.get (f := .hedGovs) (hold_foot a0 a1 s) rfl
@[simp] theorem hold_reedGovs (a0 : Nat) (a1 : Held) (s : State) : (hold a0 a1 s).reedGovs = s.reedGovs := Same.get (f := .reedGovs) (hold_foot a0 a1 s) rfl
@[simp] theorem hold_gov (a0 : Nat) (a1 : Held) (s : State) : (hold a0 a1 s).gov = s.gov := Same.get (f := .gov) (hold_foot a0 a1 s) rfl
@[simp] theorem hold_trd (a0 : Nat) (a1 : Held) (s : State) : (hold a0 a1 s).trd = s.trd := Same.get (f := .trd) (hold_foot a0 a1 s) rfl
@[simp] theorem hold_stop (a0 : Nat) (a1 : Held) (s : State) : (hold a0 a1 s).stop = s.stop := Same.get (f := .stop) (hold_foot a0 a1 s) rfl
@[simp] theorem hold_hedStops (a0 : Nat) (a1 : Held) (s : State) : (hold a0 a1 s).hedStops = s.hedStops := Same.get (f := .hedStops) (hold_foot a0 a1 s) rfl
@[simp] theorem hold_key (a0 : Nat) (a1 : Held) (s : State) : (hold a0 a1 s).key = s.key := Same.get (f := .key) (hold_foot a0 a1 s) rfl
@[simp] theorem hold_wits (a0 : Nat) (a1 : Held) (s : State) : (hold a0 a1 s).wits = s.wits := Same.get (f := .wits) (hold_foot a0 a1 s) rfl
@[simp] theorem hold_cards (a0 : Nat) (a1 : Held) (s : State) : (hold a0 a1 s).cards = s.cards := Same.get (f := .cards) (hold_foot a0 a1 s) rfl
@[simp] theorem hold_shadows (a0 : Nat) (a1 : Held) (s : State) : (hold a0 a1 s).shadows = s.shadows := Same.get (f := .shadows) (hold_foot a0 a1 s) rfl
@[simp] theorem hold_lapsed (a0 : Nat) (a1 : Held) (s : State) : (hold a0 a1 s).lapsed = s.lapsed := Same.get (f := .lapsed) (hold_foot a0 a1 s) rfl
@[simp] theorem hold_ver (a0 : Nat) (a1 : Held) (s : State) : (hold a0 a1 s).ver = s.ver := Same.get (f := .ver) (hold_foot a0 a1 s) rfl
@[simp] theorem hold_gates (a0 : Nat) (a1 : Held) (s : State) : (hold a0 a1 s).gates = s.gates := Same.get (f := .gates) (hold_foot a0 a1 s) rfl
@[simp] theorem hold_tests (a0 : Nat) (a1 : Held) (s : State) : (hold a0 a1 s).tests = s.tests := Same.get (f := .tests) (hold_foot a0 a1 s) rfl
@[simp] theorem hold_links (a0 : Nat) (a1 : Held) (s : State) : (hold a0 a1 s).links = s.links := Same.get (f := .links) (hold_foot a0 a1 s) rfl
@[simp] theorem hold_linkTimes (a0 : Nat) (a1 : Held) (s : State) : (hold a0 a1 s).linkTimes = s.linkTimes := Same.get (f := .linkTimes) (hold_foot a0 a1 s) rfl
@[simp] theorem hold_servo (a0 : Nat) (a1 : Held) (s : State) : (hold a0 a1 s).servo = s.servo := Same.get (f := .servo) (hold_foot a0 a1 s) rfl
@[simp] theorem hold_eth (a0 : Nat) (a1 : Held) (s : State) : (hold a0 a1 s).eth = s.eth := Same.get (f := .eth) (hold_foot a0 a1 s) rfl
@[simp] theorem hold_fw (a0 : Nat) (a1 : Held) (s : State) : (hold a0 a1 s).fw = s.fw := Same.get (f := .fw) (hold_foot a0 a1 s) rfl
@[simp] theorem hold_cal (a0 : Nat) (a1 : Held) (s : State) : (hold a0 a1 s).cal = s.cal := Same.get (f := .cal) (hold_foot a0 a1 s) rfl
@[simp] theorem hold_sens (a0 : Nat) (a1 : Held) (s : State) : (hold a0 a1 s).sens = s.sens := Same.get (f := .sens) (hold_foot a0 a1 s) rfl
@[simp] theorem hold_snsOn (a0 : Nat) (a1 : Held) (s : State) : (hold a0 a1 s).snsOn = s.snsOn := Same.get (f := .snsOn) (hold_foot a0 a1 s) rfl
@[simp] theorem hold_free (a0 : Nat) (a1 : Held) (s : State) : (hold a0 a1 s).free = s.free := Same.get (f := .free) (hold_foot a0 a1 s) rfl
@[simp] theorem hold_salts (a0 : Nat) (a1 : Held) (s : State) : (hold a0 a1 s).salts = s.salts := Same.get (f := .salts) (hold_foot a0 a1 s) rfl

/-! ### holdBegin -/

theorem holdBegin_foot (a0 : Nat) (a1 : Nat) (a2 : Ent) (a3 : Bt) (s : State) : Same (fun f => [Fld.heds].contains f) s (holdBegin a0 a1 a2 a3 s) :=
  holdBegin_same rfl (Same.refl _ _)

@[simp] theorem holdBegin_pending (a0 : Nat) (a1 : Nat) (a2 : Ent) (a3 : Bt) (s : State) : (holdBegin a0 a1 a2 a3 s).pending = s.pending := Same.get (f := .pending) (holdBegin_foot a0 a1 a2 a3 s) rfl
@[simp] theorem holdBegin_inst (a0 : Nat) (a1 : Nat) (a2 : Ent) (a3 : Bt) (s : State) : (holdBegin a0 a1 a2 a3 s).inst = s.inst := Same.get (f := .inst) (holdBegin_foot a0 a1 a2 a3 s) rfl
@[simp] theorem holdBegin_ready (a0 : Nat) (a1 : Nat) (a2 : Ent) (a3 : Bt) (s : State) : (holdBegin a0 a1 a2 a3 s).ready = s.ready := Same.get (f := .ready) (holdBegin_foot a0 a1 a2 a3 s) rfl
@[simp] theorem holdBegin_booting (a0 : Nat) (a1 : Nat) (a2 : Ent) (a3 : Bt) (s : State) : (holdBegin a0 a1 a2 a3 s).booting = s.booting := Same.get (f := .booting) (holdBegin_foot a0 a1 a2 a3 s) rfl
@[simp] theorem holdBegin_workHeld (a0 : Nat) (a1 : Nat) (a2 : Ent) (a3 : Bt) (s : State) : (holdBegin a0 a1 a2 a3 s).workHeld = s.workHeld := Same.get (f := .workHeld) (holdBegin_foot a0 a1 a2 a3 s) rfl
@[simp] theorem holdBegin_port (a0 : Nat) (a1 : Nat) (a2 : Ent) (a3 : Bt) (s : State) : (holdBegin a0 a1 a2 a3 s).port = s.port := Same.get (f := .port) (holdBegin_foot a0 a1 a2 a3 s) rfl
@[simp] theorem holdBegin_regs (a0 : Nat) (a1 : Nat) (a2 : Ent) (a3 : Bt) (s : State) : (holdBegin a0 a1 a2 a3 s).regs = s.regs := Same.get (f := .regs) (holdBegin_foot a0 a1 a2 a3 s) rfl
@[simp] theorem holdBegin_parts (a0 : Nat) (a1 : Nat) (a2 : Ent) (a3 : Bt) (s : State) : (holdBegin a0 a1 a2 a3 s).parts = s.parts := Same.get (f := .parts) (holdBegin_foot a0 a1 a2 a3 s) rfl
@[simp] theorem holdBegin_audit (a0 : Nat) (a1 : Nat) (a2 : Ent) (a3 : Bt) (s : State) : (holdBegin a0 a1 a2 a3 s).audit = s.audit := Same.get (f := .audit) (holdBegin_foot a0 a1 a2 a3 s) rfl
@[simp] theorem holdBegin_tim (a0 : Nat) (a1 : Nat) (a2 : Ent) (a3 : Bt) (s : State) : (holdBegin a0 a1 a2 a3 s).tim = s.tim := Same.get (f := .tim) (holdBegin_foot a0 a1 a2 a3 s) rfl
@[simp] theorem holdBegin_owed (a0 : Nat) (a1 : Nat) (a2 : Ent) (a3 : Bt) (s : State) : (holdBegin a0 a1 a2 a3 s).owed = s.owed := Same.get (f := .owed) (holdBegin_foot a0 a1 a2 a3 s) rfl
@[simp] theorem holdBegin_strs (a0 : Nat) (a1 : Nat) (a2 : Ent) (a3 : Bt) (s : State) : (holdBegin a0 a1 a2 a3 s).strs = s.strs := Same.get (f := .strs) (holdBegin_foot a0 a1 a2 a3 s) rfl
@[simp] theorem holdBegin_closes (a0 : Nat) (a1 : Nat) (a2 : Ent) (a3 : Bt) (s : State) : (holdBegin a0 a1 a2 a3 s).closes = s.closes := Same.get (f := .closes) (holdBegin_foot a0 a1 a2 a3 s) rfl
@[simp] theorem holdBegin_bobs (a0 : Nat) (a1 : Nat) (a2 : Ent) (a3 : Bt) (s : State) : (holdBegin a0 a1 a2 a3 s).bobs = s.bobs := Same.get (f := .bobs) (holdBegin_foot a0 a1 a2 a3 s) rfl
@[simp] theorem holdBegin_wports (a0 : Nat) (a1 : Nat) (a2 : Ent) (a3 : Bt) (s : State) : (holdBegin a0 a1 a2 a3 s).wports = s.wports := Same.get (f := .wports) (holdBegin_foot a0 a1 a2 a3 s) rfl
@[simp] theorem holdBegin_rport (a0 : Nat) (a1 : Nat) (a2 : Ent) (a3 : Bt) (s : State) : (holdBegin a0 a1 a2 a3 s).rport = s.rport := Same.get (f := .rport) (holdBegin_foot a0 a1 a2 a3 s) rfl
@[simp] theorem holdBegin_adopts (a0 : Nat) (a1 : Nat) (a2 : Ent) (a3 : Bt) (s : State) : (holdBegin a0 a1 a2 a3 s).adopts = s.adopts := Same.get (f := .adopts) (holdBegin_foot a0 a1 a2 a3 s) rfl
@[simp] theorem holdBegin_exempt (a0 : Nat) (a1 : Nat) (a2 : Ent) (a3 : Bt) (s : State) : (holdBegin a0 a1 a2 a3 s).exempt = s.exempt := Same.get (f := .exempt) (holdBegin_foot a0 a1 a2 a3 s) rfl
@[simp] theorem holdBegin_refused (a0 : Nat) (a1 : Nat) (a2 : Ent) (a3 : Bt) (s : State) : (holdBegin a0 a1 a2 a3 s).refused = s.refused := Same.get (f := .refused) (holdBegin_foot a0 a1 a2 a3 s) rfl
@[simp] theorem holdBegin_counts (a0 : Nat) (a1 : Nat) (a2 : Ent) (a3 : Bt) (s : State) : (holdBegin a0 a1 a2 a3 s).counts = s.counts := Same.get (f := .counts) (holdBegin_foot a0 a1 a2 a3 s) rfl
@[simp] theorem holdBegin_hedGovs (a0 : Nat) (a1 : Nat) (a2 : Ent) (a3 : Bt) (s : State) : (holdBegin a0 a1 a2 a3 s).hedGovs = s.hedGovs := Same.get (f := .hedGovs) (holdBegin_foot a0 a1 a2 a3 s) rfl
@[simp] theorem holdBegin_reedGovs (a0 : Nat) (a1 : Nat) (a2 : Ent) (a3 : Bt) (s : State) : (holdBegin a0 a1 a2 a3 s).reedGovs = s.reedGovs := Same.get (f := .reedGovs) (holdBegin_foot a0 a1 a2 a3 s) rfl
@[simp] theorem holdBegin_gov (a0 : Nat) (a1 : Nat) (a2 : Ent) (a3 : Bt) (s : State) : (holdBegin a0 a1 a2 a3 s).gov = s.gov := Same.get (f := .gov) (holdBegin_foot a0 a1 a2 a3 s) rfl
@[simp] theorem holdBegin_trd (a0 : Nat) (a1 : Nat) (a2 : Ent) (a3 : Bt) (s : State) : (holdBegin a0 a1 a2 a3 s).trd = s.trd := Same.get (f := .trd) (holdBegin_foot a0 a1 a2 a3 s) rfl
@[simp] theorem holdBegin_stop (a0 : Nat) (a1 : Nat) (a2 : Ent) (a3 : Bt) (s : State) : (holdBegin a0 a1 a2 a3 s).stop = s.stop := Same.get (f := .stop) (holdBegin_foot a0 a1 a2 a3 s) rfl
@[simp] theorem holdBegin_hedStops (a0 : Nat) (a1 : Nat) (a2 : Ent) (a3 : Bt) (s : State) : (holdBegin a0 a1 a2 a3 s).hedStops = s.hedStops := Same.get (f := .hedStops) (holdBegin_foot a0 a1 a2 a3 s) rfl
@[simp] theorem holdBegin_key (a0 : Nat) (a1 : Nat) (a2 : Ent) (a3 : Bt) (s : State) : (holdBegin a0 a1 a2 a3 s).key = s.key := Same.get (f := .key) (holdBegin_foot a0 a1 a2 a3 s) rfl
@[simp] theorem holdBegin_wits (a0 : Nat) (a1 : Nat) (a2 : Ent) (a3 : Bt) (s : State) : (holdBegin a0 a1 a2 a3 s).wits = s.wits := Same.get (f := .wits) (holdBegin_foot a0 a1 a2 a3 s) rfl
@[simp] theorem holdBegin_cards (a0 : Nat) (a1 : Nat) (a2 : Ent) (a3 : Bt) (s : State) : (holdBegin a0 a1 a2 a3 s).cards = s.cards := Same.get (f := .cards) (holdBegin_foot a0 a1 a2 a3 s) rfl
@[simp] theorem holdBegin_shadows (a0 : Nat) (a1 : Nat) (a2 : Ent) (a3 : Bt) (s : State) : (holdBegin a0 a1 a2 a3 s).shadows = s.shadows := Same.get (f := .shadows) (holdBegin_foot a0 a1 a2 a3 s) rfl
@[simp] theorem holdBegin_lapsed (a0 : Nat) (a1 : Nat) (a2 : Ent) (a3 : Bt) (s : State) : (holdBegin a0 a1 a2 a3 s).lapsed = s.lapsed := Same.get (f := .lapsed) (holdBegin_foot a0 a1 a2 a3 s) rfl
@[simp] theorem holdBegin_ver (a0 : Nat) (a1 : Nat) (a2 : Ent) (a3 : Bt) (s : State) : (holdBegin a0 a1 a2 a3 s).ver = s.ver := Same.get (f := .ver) (holdBegin_foot a0 a1 a2 a3 s) rfl
@[simp] theorem holdBegin_gates (a0 : Nat) (a1 : Nat) (a2 : Ent) (a3 : Bt) (s : State) : (holdBegin a0 a1 a2 a3 s).gates = s.gates := Same.get (f := .gates) (holdBegin_foot a0 a1 a2 a3 s) rfl
@[simp] theorem holdBegin_tests (a0 : Nat) (a1 : Nat) (a2 : Ent) (a3 : Bt) (s : State) : (holdBegin a0 a1 a2 a3 s).tests = s.tests := Same.get (f := .tests) (holdBegin_foot a0 a1 a2 a3 s) rfl
@[simp] theorem holdBegin_links (a0 : Nat) (a1 : Nat) (a2 : Ent) (a3 : Bt) (s : State) : (holdBegin a0 a1 a2 a3 s).links = s.links := Same.get (f := .links) (holdBegin_foot a0 a1 a2 a3 s) rfl
@[simp] theorem holdBegin_linkTimes (a0 : Nat) (a1 : Nat) (a2 : Ent) (a3 : Bt) (s : State) : (holdBegin a0 a1 a2 a3 s).linkTimes = s.linkTimes := Same.get (f := .linkTimes) (holdBegin_foot a0 a1 a2 a3 s) rfl
@[simp] theorem holdBegin_servo (a0 : Nat) (a1 : Nat) (a2 : Ent) (a3 : Bt) (s : State) : (holdBegin a0 a1 a2 a3 s).servo = s.servo := Same.get (f := .servo) (holdBegin_foot a0 a1 a2 a3 s) rfl
@[simp] theorem holdBegin_eth (a0 : Nat) (a1 : Nat) (a2 : Ent) (a3 : Bt) (s : State) : (holdBegin a0 a1 a2 a3 s).eth = s.eth := Same.get (f := .eth) (holdBegin_foot a0 a1 a2 a3 s) rfl
@[simp] theorem holdBegin_fw (a0 : Nat) (a1 : Nat) (a2 : Ent) (a3 : Bt) (s : State) : (holdBegin a0 a1 a2 a3 s).fw = s.fw := Same.get (f := .fw) (holdBegin_foot a0 a1 a2 a3 s) rfl
@[simp] theorem holdBegin_cal (a0 : Nat) (a1 : Nat) (a2 : Ent) (a3 : Bt) (s : State) : (holdBegin a0 a1 a2 a3 s).cal = s.cal := Same.get (f := .cal) (holdBegin_foot a0 a1 a2 a3 s) rfl
@[simp] theorem holdBegin_sens (a0 : Nat) (a1 : Nat) (a2 : Ent) (a3 : Bt) (s : State) : (holdBegin a0 a1 a2 a3 s).sens = s.sens := Same.get (f := .sens) (holdBegin_foot a0 a1 a2 a3 s) rfl
@[simp] theorem holdBegin_snsOn (a0 : Nat) (a1 : Nat) (a2 : Ent) (a3 : Bt) (s : State) : (holdBegin a0 a1 a2 a3 s).snsOn = s.snsOn := Same.get (f := .snsOn) (holdBegin_foot a0 a1 a2 a3 s) rfl
@[simp] theorem holdBegin_free (a0 : Nat) (a1 : Nat) (a2 : Ent) (a3 : Bt) (s : State) : (holdBegin a0 a1 a2 a3 s).free = s.free := Same.get (f := .free) (holdBegin_foot a0 a1 a2 a3 s) rfl
@[simp] theorem holdBegin_salts (a0 : Nat) (a1 : Nat) (a2 : Ent) (a3 : Bt) (s : State) : (holdBegin a0 a1 a2 a3 s).salts = s.salts := Same.get (f := .salts) (holdBegin_foot a0 a1 a2 a3 s) rfl

/-! ### offerHeld -/

theorem offerHeld_foot (a0 : Nat) (a1 : Held) (s : State) : Same (fun f => [Fld.regs, Fld.strs, Fld.closes, Fld.exempt, Fld.heds, Fld.counts, Fld.hedGovs, Fld.reedGovs, Fld.trd, Fld.key].contains f) s (offerHeld a0 a1 s) :=
  offerHeld_same rfl rfl rfl rfl rfl rfl rfl rfl rfl rfl (Same.refl _ _)

@[simp] theorem offerHeld_pending (a0 : Nat) (a1 : Held) (s : State) : (offerHeld a0 a1 s).pending = s.pending := Same.get (f := .pending) (offerHeld_foot a0 a1 s) rfl
@[simp] theorem offerHeld_inst (a0 : Nat) (a1 : Held) (s : State) : (offerHeld a0 a1 s).inst = s.inst := Same.get (f := .inst) (offerHeld_foot a0 a1 s) rfl
@[simp] theorem offerHeld_ready (a0 : Nat) (a1 : Held) (s : State) : (offerHeld a0 a1 s).ready = s.ready := Same.get (f := .ready) (offerHeld_foot a0 a1 s) rfl
@[simp] theorem offerHeld_booting (a0 : Nat) (a1 : Held) (s : State) : (offerHeld a0 a1 s).booting = s.booting := Same.get (f := .booting) (offerHeld_foot a0 a1 s) rfl
@[simp] theorem offerHeld_workHeld (a0 : Nat) (a1 : Held) (s : State) : (offerHeld a0 a1 s).workHeld = s.workHeld := Same.get (f := .workHeld) (offerHeld_foot a0 a1 s) rfl
@[simp] theorem offerHeld_port (a0 : Nat) (a1 : Held) (s : State) : (offerHeld a0 a1 s).port = s.port := Same.get (f := .port) (offerHeld_foot a0 a1 s) rfl
@[simp] theorem offerHeld_parts (a0 : Nat) (a1 : Held) (s : State) : (offerHeld a0 a1 s).parts = s.parts := Same.get (f := .parts) (offerHeld_foot a0 a1 s) rfl
@[simp] theorem offerHeld_audit (a0 : Nat) (a1 : Held) (s : State) : (offerHeld a0 a1 s).audit = s.audit := Same.get (f := .audit) (offerHeld_foot a0 a1 s) rfl
@[simp] theorem offerHeld_tim (a0 : Nat) (a1 : Held) (s : State) : (offerHeld a0 a1 s).tim = s.tim := Same.get (f := .tim) (offerHeld_foot a0 a1 s) rfl
@[simp] theorem offerHeld_owed (a0 : Nat) (a1 : Held) (s : State) : (offerHeld a0 a1 s).owed = s.owed := Same.get (f := .owed) (offerHeld_foot a0 a1 s) rfl
@[simp] theorem offerHeld_bobs (a0 : Nat) (a1 : Held) (s : State) : (offerHeld a0 a1 s).bobs = s.bobs := Same.get (f := .bobs) (offerHeld_foot a0 a1 s) rfl
@[simp] theorem offerHeld_wports (a0 : Nat) (a1 : Held) (s : State) : (offerHeld a0 a1 s).wports = s.wports := Same.get (f := .wports) (offerHeld_foot a0 a1 s) rfl
@[simp] theorem offerHeld_rport (a0 : Nat) (a1 : Held) (s : State) : (offerHeld a0 a1 s).rport = s.rport := Same.get (f := .rport) (offerHeld_foot a0 a1 s) rfl
@[simp] theorem offerHeld_adopts (a0 : Nat) (a1 : Held) (s : State) : (offerHeld a0 a1 s).adopts = s.adopts := Same.get (f := .adopts) (offerHeld_foot a0 a1 s) rfl
@[simp] theorem offerHeld_refused (a0 : Nat) (a1 : Held) (s : State) : (offerHeld a0 a1 s).refused = s.refused := Same.get (f := .refused) (offerHeld_foot a0 a1 s) rfl
@[simp] theorem offerHeld_gov (a0 : Nat) (a1 : Held) (s : State) : (offerHeld a0 a1 s).gov = s.gov := Same.get (f := .gov) (offerHeld_foot a0 a1 s) rfl
@[simp] theorem offerHeld_stop (a0 : Nat) (a1 : Held) (s : State) : (offerHeld a0 a1 s).stop = s.stop := Same.get (f := .stop) (offerHeld_foot a0 a1 s) rfl
@[simp] theorem offerHeld_hedStops (a0 : Nat) (a1 : Held) (s : State) : (offerHeld a0 a1 s).hedStops = s.hedStops := Same.get (f := .hedStops) (offerHeld_foot a0 a1 s) rfl
@[simp] theorem offerHeld_wits (a0 : Nat) (a1 : Held) (s : State) : (offerHeld a0 a1 s).wits = s.wits := Same.get (f := .wits) (offerHeld_foot a0 a1 s) rfl
@[simp] theorem offerHeld_cards (a0 : Nat) (a1 : Held) (s : State) : (offerHeld a0 a1 s).cards = s.cards := Same.get (f := .cards) (offerHeld_foot a0 a1 s) rfl
@[simp] theorem offerHeld_shadows (a0 : Nat) (a1 : Held) (s : State) : (offerHeld a0 a1 s).shadows = s.shadows := Same.get (f := .shadows) (offerHeld_foot a0 a1 s) rfl
@[simp] theorem offerHeld_lapsed (a0 : Nat) (a1 : Held) (s : State) : (offerHeld a0 a1 s).lapsed = s.lapsed := Same.get (f := .lapsed) (offerHeld_foot a0 a1 s) rfl
@[simp] theorem offerHeld_ver (a0 : Nat) (a1 : Held) (s : State) : (offerHeld a0 a1 s).ver = s.ver := Same.get (f := .ver) (offerHeld_foot a0 a1 s) rfl
@[simp] theorem offerHeld_gates (a0 : Nat) (a1 : Held) (s : State) : (offerHeld a0 a1 s).gates = s.gates := Same.get (f := .gates) (offerHeld_foot a0 a1 s) rfl
@[simp] theorem offerHeld_tests (a0 : Nat) (a1 : Held) (s : State) : (offerHeld a0 a1 s).tests = s.tests := Same.get (f := .tests) (offerHeld_foot a0 a1 s) rfl
@[simp] theorem offerHeld_links (a0 : Nat) (a1 : Held) (s : State) : (offerHeld a0 a1 s).links = s.links := Same.get (f := .links) (offerHeld_foot a0 a1 s) rfl
@[simp] theorem offerHeld_linkTimes (a0 : Nat) (a1 : Held) (s : State) : (offerHeld a0 a1 s).linkTimes = s.linkTimes := Same.get (f := .linkTimes) (offerHeld_foot a0 a1 s) rfl
@[simp] theorem offerHeld_servo (a0 : Nat) (a1 : Held) (s : State) : (offerHeld a0 a1 s).servo = s.servo := Same.get (f := .servo) (offerHeld_foot a0 a1 s) rfl
@[simp] theorem offerHeld_eth (a0 : Nat) (a1 : Held) (s : State) : (offerHeld a0 a1 s).eth = s.eth := Same.get (f := .eth) (offerHeld_foot a0 a1 s) rfl
@[simp] theorem offerHeld_fw (a0 : Nat) (a1 : Held) (s : State) : (offerHeld a0 a1 s).fw = s.fw := Same.get (f := .fw) (offerHeld_foot a0 a1 s) rfl
@[simp] theorem offerHeld_cal (a0 : Nat) (a1 : Held) (s : State) : (offerHeld a0 a1 s).cal = s.cal := Same.get (f := .cal) (offerHeld_foot a0 a1 s) rfl
@[simp] theorem offerHeld_sens (a0 : Nat) (a1 : Held) (s : State) : (offerHeld a0 a1 s).sens = s.sens := Same.get (f := .sens) (offerHeld_foot a0 a1 s) rfl
@[simp] theorem offerHeld_snsOn (a0 : Nat) (a1 : Held) (s : State) : (offerHeld a0 a1 s).snsOn = s.snsOn := Same.get (f := .snsOn) (offerHeld_foot a0 a1 s) rfl
@[simp] theorem offerHeld_free (a0 : Nat) (a1 : Held) (s : State) : (offerHeld a0 a1 s).free = s.free := Same.get (f := .free) (offerHeld_foot a0 a1 s) rfl
@[simp] theorem offerHeld_salts (a0 : Nat) (a1 : Held) (s : State) : (offerHeld a0 a1 s).salts = s.salts := Same.get (f := .salts) (offerHeld_foot a0 a1 s) rfl

/-! ### settleHed -/

theorem settleHed_foot (a0 : Nat) (s : State) : Same (fun f => [Fld.regs, Fld.strs, Fld.closes, Fld.exempt, Fld.heds, Fld.counts, Fld.hedGovs, Fld.reedGovs, Fld.trd, Fld.key].contains f) s (settleHed a0 s) :=
  settleHed_same rfl rfl rfl rfl rfl rfl rfl rfl rfl rfl (Same.refl _ _)

@[simp] theorem settleHed_pending (a0 : Nat) (s : State) : (settleHed a0 s).pending = s.pending := Same.get (f := .pending) (settleHed_foot a0 s) rfl
@[simp] theorem settleHed_inst (a0 : Nat) (s : State) : (settleHed a0 s).inst = s.inst := Same.get (f := .inst) (settleHed_foot a0 s) rfl
@[simp] theorem settleHed_ready (a0 : Nat) (s : State) : (settleHed a0 s).ready = s.ready := Same.get (f := .ready) (settleHed_foot a0 s) rfl
@[simp] theorem settleHed_booting (a0 : Nat) (s : State) : (settleHed a0 s).booting = s.booting := Same.get (f := .booting) (settleHed_foot a0 s) rfl
@[simp] theorem settleHed_workHeld (a0 : Nat) (s : State) : (settleHed a0 s).workHeld = s.workHeld := Same.get (f := .workHeld) (settleHed_foot a0 s) rfl
@[simp] theorem settleHed_port (a0 : Nat) (s : State) : (settleHed a0 s).port = s.port := Same.get (f := .port) (settleHed_foot a0 s) rfl
@[simp] theorem settleHed_parts (a0 : Nat) (s : State) : (settleHed a0 s).parts = s.parts := Same.get (f := .parts) (settleHed_foot a0 s) rfl
@[simp] theorem settleHed_audit (a0 : Nat) (s : State) : (settleHed a0 s).audit = s.audit := Same.get (f := .audit) (settleHed_foot a0 s) rfl
@[simp] theorem settleHed_tim (a0 : Nat) (s : State) : (settleHed a0 s).tim = s.tim := Same.get (f := .tim) (settleHed_foot a0 s) rfl
@[simp] theorem settleHed_owed (a0 : Nat) (s : State) : (settleHed a0 s).owed = s.owed := Same.get (f := .owed) (settleHed_foot a0 s) rfl
@[simp] theorem settleHed_bobs (a0 : Nat) (s : State) : (settleHed a0 s).bobs = s.bobs := Same.get (f := .bobs) (settleHed_foot a0 s) rfl
@[simp] theorem settleHed_wports (a0 : Nat) (s : State) : (settleHed a0 s).wports = s.wports := Same.get (f := .wports) (settleHed_foot a0 s) rfl
@[simp] theorem settleHed_rport (a0 : Nat) (s : State) : (settleHed a0 s).rport = s.rport := Same.get (f := .rport) (settleHed_foot a0 s) rfl
@[simp] theorem settleHed_adopts (a0 : Nat) (s : State) : (settleHed a0 s).adopts = s.adopts := Same.get (f := .adopts) (settleHed_foot a0 s) rfl
@[simp] theorem settleHed_refused (a0 : Nat) (s : State) : (settleHed a0 s).refused = s.refused := Same.get (f := .refused) (settleHed_foot a0 s) rfl
@[simp] theorem settleHed_gov (a0 : Nat) (s : State) : (settleHed a0 s).gov = s.gov := Same.get (f := .gov) (settleHed_foot a0 s) rfl
@[simp] theorem settleHed_stop (a0 : Nat) (s : State) : (settleHed a0 s).stop = s.stop := Same.get (f := .stop) (settleHed_foot a0 s) rfl
@[simp] theorem settleHed_hedStops (a0 : Nat) (s : State) : (settleHed a0 s).hedStops = s.hedStops := Same.get (f := .hedStops) (settleHed_foot a0 s) rfl
@[simp] theorem settleHed_wits (a0 : Nat) (s : State) : (settleHed a0 s).wits = s.wits := Same.get (f := .wits) (settleHed_foot a0 s) rfl
@[simp] theorem settleHed_cards (a0 : Nat) (s : State) : (settleHed a0 s).cards = s.cards := Same.get (f := .cards) (settleHed_foot a0 s) rfl
@[simp] theorem settleHed_shadows (a0 : Nat) (s : State) : (settleHed a0 s).shadows = s.shadows := Same.get (f := .shadows) (settleHed_foot a0 s) rfl
@[simp] theorem settleHed_lapsed (a0 : Nat) (s : State) : (settleHed a0 s).lapsed = s.lapsed := Same.get (f := .lapsed) (settleHed_foot a0 s) rfl
@[simp] theorem settleHed_ver (a0 : Nat) (s : State) : (settleHed a0 s).ver = s.ver := Same.get (f := .ver) (settleHed_foot a0 s) rfl
@[simp] theorem settleHed_gates (a0 : Nat) (s : State) : (settleHed a0 s).gates = s.gates := Same.get (f := .gates) (settleHed_foot a0 s) rfl
@[simp] theorem settleHed_tests (a0 : Nat) (s : State) : (settleHed a0 s).tests = s.tests := Same.get (f := .tests) (settleHed_foot a0 s) rfl
@[simp] theorem settleHed_links (a0 : Nat) (s : State) : (settleHed a0 s).links = s.links := Same.get (f := .links) (settleHed_foot a0 s) rfl
@[simp] theorem settleHed_linkTimes (a0 : Nat) (s : State) : (settleHed a0 s).linkTimes = s.linkTimes := Same.get (f := .linkTimes) (settleHed_foot a0 s) rfl
@[simp] theorem settleHed_servo (a0 : Nat) (s : State) : (settleHed a0 s).servo = s.servo := Same.get (f := .servo) (settleHed_foot a0 s) rfl
@[simp] theorem settleHed_eth (a0 : Nat) (s : State) : (settleHed a0 s).eth = s.eth := Same.get (f := .eth) (settleHed_foot a0 s) rfl
@[simp] theorem settleHed_fw (a0 : Nat) (s : State) : (settleHed a0 s).fw = s.fw := Same.get (f := .fw) (settleHed_foot a0 s) rfl
@[simp] theorem settleHed_cal (a0 : Nat) (s : State) : (settleHed a0 s).cal = s.cal := Same.get (f := .cal) (settleHed_foot a0 s) rfl
@[simp] theorem settleHed_sens (a0 : Nat) (s : State) : (settleHed a0 s).sens = s.sens := Same.get (f := .sens) (settleHed_foot a0 s) rfl
@[simp] theorem settleHed_snsOn (a0 : Nat) (s : State) : (settleHed a0 s).snsOn = s.snsOn := Same.get (f := .snsOn) (settleHed_foot a0 s) rfl
@[simp] theorem settleHed_free (a0 : Nat) (s : State) : (settleHed a0 s).free = s.free := Same.get (f := .free) (settleHed_foot a0 s) rfl
@[simp] theorem settleHed_salts (a0 : Nat) (s : State) : (settleHed a0 s).salts = s.salts := Same.get (f := .salts) (settleHed_foot a0 s) rfl

/-! ### settleSpans -/

theorem settleSpans_foot (a0 : Nat) (a1 : Nat) (s : State) : Same (fun f => [Fld.regs, Fld.strs, Fld.closes, Fld.exempt, Fld.heds, Fld.counts, Fld.hedGovs, Fld.reedGovs, Fld.trd, Fld.key].contains f) s (settleSpans a0 a1 s) :=
  settleSpans_same rfl rfl rfl rfl rfl rfl rfl rfl rfl rfl (Same.refl _ _)

@[simp] theorem settleSpans_pending (a0 : Nat) (a1 : Nat) (s : State) : (settleSpans a0 a1 s).pending = s.pending := Same.get (f := .pending) (settleSpans_foot a0 a1 s) rfl
@[simp] theorem settleSpans_inst (a0 : Nat) (a1 : Nat) (s : State) : (settleSpans a0 a1 s).inst = s.inst := Same.get (f := .inst) (settleSpans_foot a0 a1 s) rfl
@[simp] theorem settleSpans_ready (a0 : Nat) (a1 : Nat) (s : State) : (settleSpans a0 a1 s).ready = s.ready := Same.get (f := .ready) (settleSpans_foot a0 a1 s) rfl
@[simp] theorem settleSpans_booting (a0 : Nat) (a1 : Nat) (s : State) : (settleSpans a0 a1 s).booting = s.booting := Same.get (f := .booting) (settleSpans_foot a0 a1 s) rfl
@[simp] theorem settleSpans_workHeld (a0 : Nat) (a1 : Nat) (s : State) : (settleSpans a0 a1 s).workHeld = s.workHeld := Same.get (f := .workHeld) (settleSpans_foot a0 a1 s) rfl
@[simp] theorem settleSpans_port (a0 : Nat) (a1 : Nat) (s : State) : (settleSpans a0 a1 s).port = s.port := Same.get (f := .port) (settleSpans_foot a0 a1 s) rfl
@[simp] theorem settleSpans_parts (a0 : Nat) (a1 : Nat) (s : State) : (settleSpans a0 a1 s).parts = s.parts := Same.get (f := .parts) (settleSpans_foot a0 a1 s) rfl
@[simp] theorem settleSpans_audit (a0 : Nat) (a1 : Nat) (s : State) : (settleSpans a0 a1 s).audit = s.audit := Same.get (f := .audit) (settleSpans_foot a0 a1 s) rfl
@[simp] theorem settleSpans_tim (a0 : Nat) (a1 : Nat) (s : State) : (settleSpans a0 a1 s).tim = s.tim := Same.get (f := .tim) (settleSpans_foot a0 a1 s) rfl
@[simp] theorem settleSpans_owed (a0 : Nat) (a1 : Nat) (s : State) : (settleSpans a0 a1 s).owed = s.owed := Same.get (f := .owed) (settleSpans_foot a0 a1 s) rfl
@[simp] theorem settleSpans_bobs (a0 : Nat) (a1 : Nat) (s : State) : (settleSpans a0 a1 s).bobs = s.bobs := Same.get (f := .bobs) (settleSpans_foot a0 a1 s) rfl
@[simp] theorem settleSpans_wports (a0 : Nat) (a1 : Nat) (s : State) : (settleSpans a0 a1 s).wports = s.wports := Same.get (f := .wports) (settleSpans_foot a0 a1 s) rfl
@[simp] theorem settleSpans_rport (a0 : Nat) (a1 : Nat) (s : State) : (settleSpans a0 a1 s).rport = s.rport := Same.get (f := .rport) (settleSpans_foot a0 a1 s) rfl
@[simp] theorem settleSpans_adopts (a0 : Nat) (a1 : Nat) (s : State) : (settleSpans a0 a1 s).adopts = s.adopts := Same.get (f := .adopts) (settleSpans_foot a0 a1 s) rfl
@[simp] theorem settleSpans_refused (a0 : Nat) (a1 : Nat) (s : State) : (settleSpans a0 a1 s).refused = s.refused := Same.get (f := .refused) (settleSpans_foot a0 a1 s) rfl
@[simp] theorem settleSpans_gov (a0 : Nat) (a1 : Nat) (s : State) : (settleSpans a0 a1 s).gov = s.gov := Same.get (f := .gov) (settleSpans_foot a0 a1 s) rfl
@[simp] theorem settleSpans_stop (a0 : Nat) (a1 : Nat) (s : State) : (settleSpans a0 a1 s).stop = s.stop := Same.get (f := .stop) (settleSpans_foot a0 a1 s) rfl
@[simp] theorem settleSpans_hedStops (a0 : Nat) (a1 : Nat) (s : State) : (settleSpans a0 a1 s).hedStops = s.hedStops := Same.get (f := .hedStops) (settleSpans_foot a0 a1 s) rfl
@[simp] theorem settleSpans_wits (a0 : Nat) (a1 : Nat) (s : State) : (settleSpans a0 a1 s).wits = s.wits := Same.get (f := .wits) (settleSpans_foot a0 a1 s) rfl
@[simp] theorem settleSpans_cards (a0 : Nat) (a1 : Nat) (s : State) : (settleSpans a0 a1 s).cards = s.cards := Same.get (f := .cards) (settleSpans_foot a0 a1 s) rfl
@[simp] theorem settleSpans_shadows (a0 : Nat) (a1 : Nat) (s : State) : (settleSpans a0 a1 s).shadows = s.shadows := Same.get (f := .shadows) (settleSpans_foot a0 a1 s) rfl
@[simp] theorem settleSpans_lapsed (a0 : Nat) (a1 : Nat) (s : State) : (settleSpans a0 a1 s).lapsed = s.lapsed := Same.get (f := .lapsed) (settleSpans_foot a0 a1 s) rfl
@[simp] theorem settleSpans_ver (a0 : Nat) (a1 : Nat) (s : State) : (settleSpans a0 a1 s).ver = s.ver := Same.get (f := .ver) (settleSpans_foot a0 a1 s) rfl
@[simp] theorem settleSpans_gates (a0 : Nat) (a1 : Nat) (s : State) : (settleSpans a0 a1 s).gates = s.gates := Same.get (f := .gates) (settleSpans_foot a0 a1 s) rfl
@[simp] theorem settleSpans_tests (a0 : Nat) (a1 : Nat) (s : State) : (settleSpans a0 a1 s).tests = s.tests := Same.get (f := .tests) (settleSpans_foot a0 a1 s) rfl
@[simp] theorem settleSpans_links (a0 : Nat) (a1 : Nat) (s : State) : (settleSpans a0 a1 s).links = s.links := Same.get (f := .links) (settleSpans_foot a0 a1 s) rfl
@[simp] theorem settleSpans_linkTimes (a0 : Nat) (a1 : Nat) (s : State) : (settleSpans a0 a1 s).linkTimes = s.linkTimes := Same.get (f := .linkTimes) (settleSpans_foot a0 a1 s) rfl
@[simp] theorem settleSpans_servo (a0 : Nat) (a1 : Nat) (s : State) : (settleSpans a0 a1 s).servo = s.servo := Same.get (f := .servo) (settleSpans_foot a0 a1 s) rfl
@[simp] theorem settleSpans_eth (a0 : Nat) (a1 : Nat) (s : State) : (settleSpans a0 a1 s).eth = s.eth := Same.get (f := .eth) (settleSpans_foot a0 a1 s) rfl
@[simp] theorem settleSpans_fw (a0 : Nat) (a1 : Nat) (s : State) : (settleSpans a0 a1 s).fw = s.fw := Same.get (f := .fw) (settleSpans_foot a0 a1 s) rfl
@[simp] theorem settleSpans_cal (a0 : Nat) (a1 : Nat) (s : State) : (settleSpans a0 a1 s).cal = s.cal := Same.get (f := .cal) (settleSpans_foot a0 a1 s) rfl
@[simp] theorem settleSpans_sens (a0 : Nat) (a1 : Nat) (s : State) : (settleSpans a0 a1 s).sens = s.sens := Same.get (f := .sens) (settleSpans_foot a0 a1 s) rfl
@[simp] theorem settleSpans_snsOn (a0 : Nat) (a1 : Nat) (s : State) : (settleSpans a0 a1 s).snsOn = s.snsOn := Same.get (f := .snsOn) (settleSpans_foot a0 a1 s) rfl
@[simp] theorem settleSpans_free (a0 : Nat) (a1 : Nat) (s : State) : (settleSpans a0 a1 s).free = s.free := Same.get (f := .free) (settleSpans_foot a0 a1 s) rfl
@[simp] theorem settleSpans_salts (a0 : Nat) (a1 : Nat) (s : State) : (settleSpans a0 a1 s).salts = s.salts := Same.get (f := .salts) (settleSpans_foot a0 a1 s) rfl

/-! ### offerLnk -/

theorem offerLnk_foot (a0 : Nat) (s : State) (a2 : LinkHeld) : Same (fun f => [Fld.regs, Fld.strs, Fld.closes, Fld.exempt, Fld.refused, Fld.trd, Fld.key, Fld.links].contains f) s (offerLnk a0 s a2) :=
  offerLnk_same rfl rfl rfl rfl rfl rfl rfl rfl (Same.refl _ _)

@[simp] theorem offerLnk_pending (a0 : Nat) (s : State) (a2 : LinkHeld) : (offerLnk a0 s a2).pending = s.pending := Same.get (f := .pending) (offerLnk_foot a0 s a2) rfl
@[simp] theorem offerLnk_inst (a0 : Nat) (s : State) (a2 : LinkHeld) : (offerLnk a0 s a2).inst = s.inst := Same.get (f := .inst) (offerLnk_foot a0 s a2) rfl
@[simp] theorem offerLnk_ready (a0 : Nat) (s : State) (a2 : LinkHeld) : (offerLnk a0 s a2).ready = s.ready := Same.get (f := .ready) (offerLnk_foot a0 s a2) rfl
@[simp] theorem offerLnk_booting (a0 : Nat) (s : State) (a2 : LinkHeld) : (offerLnk a0 s a2).booting = s.booting := Same.get (f := .booting) (offerLnk_foot a0 s a2) rfl
@[simp] theorem offerLnk_workHeld (a0 : Nat) (s : State) (a2 : LinkHeld) : (offerLnk a0 s a2).workHeld = s.workHeld := Same.get (f := .workHeld) (offerLnk_foot a0 s a2) rfl
@[simp] theorem offerLnk_port (a0 : Nat) (s : State) (a2 : LinkHeld) : (offerLnk a0 s a2).port = s.port := Same.get (f := .port) (offerLnk_foot a0 s a2) rfl
@[simp] theorem offerLnk_parts (a0 : Nat) (s : State) (a2 : LinkHeld) : (offerLnk a0 s a2).parts = s.parts := Same.get (f := .parts) (offerLnk_foot a0 s a2) rfl
@[simp] theorem offerLnk_audit (a0 : Nat) (s : State) (a2 : LinkHeld) : (offerLnk a0 s a2).audit = s.audit := Same.get (f := .audit) (offerLnk_foot a0 s a2) rfl
@[simp] theorem offerLnk_tim (a0 : Nat) (s : State) (a2 : LinkHeld) : (offerLnk a0 s a2).tim = s.tim := Same.get (f := .tim) (offerLnk_foot a0 s a2) rfl
@[simp] theorem offerLnk_owed (a0 : Nat) (s : State) (a2 : LinkHeld) : (offerLnk a0 s a2).owed = s.owed := Same.get (f := .owed) (offerLnk_foot a0 s a2) rfl
@[simp] theorem offerLnk_bobs (a0 : Nat) (s : State) (a2 : LinkHeld) : (offerLnk a0 s a2).bobs = s.bobs := Same.get (f := .bobs) (offerLnk_foot a0 s a2) rfl
@[simp] theorem offerLnk_wports (a0 : Nat) (s : State) (a2 : LinkHeld) : (offerLnk a0 s a2).wports = s.wports := Same.get (f := .wports) (offerLnk_foot a0 s a2) rfl
@[simp] theorem offerLnk_rport (a0 : Nat) (s : State) (a2 : LinkHeld) : (offerLnk a0 s a2).rport = s.rport := Same.get (f := .rport) (offerLnk_foot a0 s a2) rfl
@[simp] theorem offerLnk_adopts (a0 : Nat) (s : State) (a2 : LinkHeld) : (offerLnk a0 s a2).adopts = s.adopts := Same.get (f := .adopts) (offerLnk_foot a0 s a2) rfl
@[simp] theorem offerLnk_heds (a0 : Nat) (s : State) (a2 : LinkHeld) : (offerLnk a0 s a2).heds = s.heds := Same.get (f := .heds) (offerLnk_foot a0 s a2) rfl
@[simp] theorem offerLnk_counts (a0 : Nat) (s : State) (a2 : LinkHeld) : (offerLnk a0 s a2).counts = s.counts := Same.get (f := .counts) (offerLnk_foot a0 s a2) rfl
@[simp] theorem offerLnk_hedGovs (a0 : Nat) (s : State) (a2 : LinkHeld) : (offerLnk a0 s a2).hedGovs = s.hedGovs := Same.get (f := .hedGovs) (offerLnk_foot a0 s a2) rfl
@[simp] theorem offerLnk_reedGovs (a0 : Nat) (s : State) (a2 : LinkHeld) : (offerLnk a0 s a2).reedGovs = s.reedGovs := Same.get (f := .reedGovs) (offerLnk_foot a0 s a2) rfl
@[simp] theorem offerLnk_gov (a0 : Nat) (s : State) (a2 : LinkHeld) : (offerLnk a0 s a2).gov = s.gov := Same.get (f := .gov) (offerLnk_foot a0 s a2) rfl
@[simp] theorem offerLnk_stop (a0 : Nat) (s : State) (a2 : LinkHeld) : (offerLnk a0 s a2).stop = s.stop := Same.get (f := .stop) (offerLnk_foot a0 s a2) rfl
@[simp] theorem offerLnk_hedStops (a0 : Nat) (s : State) (a2 : LinkHeld) : (offerLnk a0 s a2).hedStops = s.hedStops := Same.get (f := .hedStops) (offerLnk_foot a0 s a2) rfl
@[simp] theorem offerLnk_wits (a0 : Nat) (s : State) (a2 : LinkHeld) : (offerLnk a0 s a2).wits = s.wits := Same.get (f := .wits) (offerLnk_foot a0 s a2) rfl
@[simp] theorem offerLnk_cards (a0 : Nat) (s : State) (a2 : LinkHeld) : (offerLnk a0 s a2).cards = s.cards := Same.get (f := .cards) (offerLnk_foot a0 s a2) rfl
@[simp] theorem offerLnk_shadows (a0 : Nat) (s : State) (a2 : LinkHeld) : (offerLnk a0 s a2).shadows = s.shadows := Same.get (f := .shadows) (offerLnk_foot a0 s a2) rfl
@[simp] theorem offerLnk_lapsed (a0 : Nat) (s : State) (a2 : LinkHeld) : (offerLnk a0 s a2).lapsed = s.lapsed := Same.get (f := .lapsed) (offerLnk_foot a0 s a2) rfl
@[simp] theorem offerLnk_ver (a0 : Nat) (s : State) (a2 : LinkHeld) : (offerLnk a0 s a2).ver = s.ver := Same.get (f := .ver) (offerLnk_foot a0 s a2) rfl
@[simp] theorem offerLnk_gates (a0 : Nat) (s : State) (a2 : LinkHeld) : (offerLnk a0 s a2).gates = s.gates := Same.get (f := .gates) (offerLnk_foot a0 s a2) rfl
@[simp] theorem offerLnk_tests (a0 : Nat) (s : State) (a2 : LinkHeld) : (offerLnk a0 s a2).tests = s.tests := Same.get (f := .tests) (offerLnk_foot a0 s a2) rfl
@[simp] theorem offerLnk_linkTimes (a0 : Nat) (s : State) (a2 : LinkHeld) : (offerLnk a0 s a2).linkTimes = s.linkTimes := Same.get (f := .linkTimes) (offerLnk_foot a0 s a2) rfl
@[simp] theorem offerLnk_servo (a0 : Nat) (s : State) (a2 : LinkHeld) : (offerLnk a0 s a2).servo = s.servo := Same.get (f := .servo) (offerLnk_foot a0 s a2) rfl
@[simp] theorem offerLnk_eth (a0 : Nat) (s : State) (a2 : LinkHeld) : (offerLnk a0 s a2).eth = s.eth := Same.get (f := .eth) (offerLnk_foot a0 s a2) rfl
@[simp] theorem offerLnk_fw (a0 : Nat) (s : State) (a2 : LinkHeld) : (offerLnk a0 s a2).fw = s.fw := Same.get (f := .fw) (offerLnk_foot a0 s a2) rfl
@[simp] theorem offerLnk_cal (a0 : Nat) (s : State) (a2 : LinkHeld) : (offerLnk a0 s a2).cal = s.cal := Same.get (f := .cal) (offerLnk_foot a0 s a2) rfl
@[simp] theorem offerLnk_sens (a0 : Nat) (s : State) (a2 : LinkHeld) : (offerLnk a0 s a2).sens = s.sens := Same.get (f := .sens) (offerLnk_foot a0 s a2) rfl
@[simp] theorem offerLnk_snsOn (a0 : Nat) (s : State) (a2 : LinkHeld) : (offerLnk a0 s a2).snsOn = s.snsOn := Same.get (f := .snsOn) (offerLnk_foot a0 s a2) rfl
@[simp] theorem offerLnk_free (a0 : Nat) (s : State) (a2 : LinkHeld) : (offerLnk a0 s a2).free = s.free := Same.get (f := .free) (offerLnk_foot a0 s a2) rfl
@[simp] theorem offerLnk_salts (a0 : Nat) (s : State) (a2 : LinkHeld) : (offerLnk a0 s a2).salts = s.salts := Same.get (f := .salts) (offerLnk_foot a0 s a2) rfl

/-! ### settleLnk -/

theorem settleLnk_foot (a0 : Nat) (s : State) : Same (fun f => [Fld.regs, Fld.strs, Fld.closes, Fld.exempt, Fld.refused, Fld.trd, Fld.key, Fld.links].contains f) s (settleLnk a0 s) :=
  settleLnk_same rfl rfl rfl rfl rfl rfl rfl rfl (Same.refl _ _)

@[simp] theorem settleLnk_pending (a0 : Nat) (s : State) : (settleLnk a0 s).pending = s.pending := Same.get (f := .pending) (settleLnk_foot a0 s) rfl
@[simp] theorem settleLnk_inst (a0 : Nat) (s : State) : (settleLnk a0 s).inst = s.inst := Same.get (f := .inst) (settleLnk_foot a0 s) rfl
@[simp] theorem settleLnk_ready (a0 : Nat) (s : State) : (settleLnk a0 s).ready = s.ready := Same.get (f := .ready) (settleLnk_foot a0 s) rfl
@[simp] theorem settleLnk_booting (a0 : Nat) (s : State) : (settleLnk a0 s).booting = s.booting := Same.get (f := .booting) (settleLnk_foot a0 s) rfl
@[simp] theorem settleLnk_workHeld (a0 : Nat) (s : State) : (settleLnk a0 s).workHeld = s.workHeld := Same.get (f := .workHeld) (settleLnk_foot a0 s) rfl
@[simp] theorem settleLnk_port (a0 : Nat) (s : State) : (settleLnk a0 s).port = s.port := Same.get (f := .port) (settleLnk_foot a0 s) rfl
@[simp] theorem settleLnk_parts (a0 : Nat) (s : State) : (settleLnk a0 s).parts = s.parts := Same.get (f := .parts) (settleLnk_foot a0 s) rfl
@[simp] theorem settleLnk_audit (a0 : Nat) (s : State) : (settleLnk a0 s).audit = s.audit := Same.get (f := .audit) (settleLnk_foot a0 s) rfl
@[simp] theorem settleLnk_tim (a0 : Nat) (s : State) : (settleLnk a0 s).tim = s.tim := Same.get (f := .tim) (settleLnk_foot a0 s) rfl
@[simp] theorem settleLnk_owed (a0 : Nat) (s : State) : (settleLnk a0 s).owed = s.owed := Same.get (f := .owed) (settleLnk_foot a0 s) rfl
@[simp] theorem settleLnk_bobs (a0 : Nat) (s : State) : (settleLnk a0 s).bobs = s.bobs := Same.get (f := .bobs) (settleLnk_foot a0 s) rfl
@[simp] theorem settleLnk_wports (a0 : Nat) (s : State) : (settleLnk a0 s).wports = s.wports := Same.get (f := .wports) (settleLnk_foot a0 s) rfl
@[simp] theorem settleLnk_rport (a0 : Nat) (s : State) : (settleLnk a0 s).rport = s.rport := Same.get (f := .rport) (settleLnk_foot a0 s) rfl
@[simp] theorem settleLnk_adopts (a0 : Nat) (s : State) : (settleLnk a0 s).adopts = s.adopts := Same.get (f := .adopts) (settleLnk_foot a0 s) rfl
@[simp] theorem settleLnk_heds (a0 : Nat) (s : State) : (settleLnk a0 s).heds = s.heds := Same.get (f := .heds) (settleLnk_foot a0 s) rfl
@[simp] theorem settleLnk_counts (a0 : Nat) (s : State) : (settleLnk a0 s).counts = s.counts := Same.get (f := .counts) (settleLnk_foot a0 s) rfl
@[simp] theorem settleLnk_hedGovs (a0 : Nat) (s : State) : (settleLnk a0 s).hedGovs = s.hedGovs := Same.get (f := .hedGovs) (settleLnk_foot a0 s) rfl
@[simp] theorem settleLnk_reedGovs (a0 : Nat) (s : State) : (settleLnk a0 s).reedGovs = s.reedGovs := Same.get (f := .reedGovs) (settleLnk_foot a0 s) rfl
@[simp] theorem settleLnk_gov (a0 : Nat) (s : State) : (settleLnk a0 s).gov = s.gov := Same.get (f := .gov) (settleLnk_foot a0 s) rfl
@[simp] theorem settleLnk_stop (a0 : Nat) (s : State) : (settleLnk a0 s).stop = s.stop := Same.get (f := .stop) (settleLnk_foot a0 s) rfl
@[simp] theorem settleLnk_hedStops (a0 : Nat) (s : State) : (settleLnk a0 s).hedStops = s.hedStops := Same.get (f := .hedStops) (settleLnk_foot a0 s) rfl
@[simp] theorem settleLnk_wits (a0 : Nat) (s : State) : (settleLnk a0 s).wits = s.wits := Same.get (f := .wits) (settleLnk_foot a0 s) rfl
@[simp] theorem settleLnk_cards (a0 : Nat) (s : State) : (settleLnk a0 s).cards = s.cards := Same.get (f := .cards) (settleLnk_foot a0 s) rfl
@[simp] theorem settleLnk_shadows (a0 : Nat) (s : State) : (settleLnk a0 s).shadows = s.shadows := Same.get (f := .shadows) (settleLnk_foot a0 s) rfl
@[simp] theorem settleLnk_lapsed (a0 : Nat) (s : State) : (settleLnk a0 s).lapsed = s.lapsed := Same.get (f := .lapsed) (settleLnk_foot a0 s) rfl
@[simp] theorem settleLnk_ver (a0 : Nat) (s : State) : (settleLnk a0 s).ver = s.ver := Same.get (f := .ver) (settleLnk_foot a0 s) rfl
@[simp] theorem settleLnk_gates (a0 : Nat) (s : State) : (settleLnk a0 s).gates = s.gates := Same.get (f := .gates) (settleLnk_foot a0 s) rfl
@[simp] theorem settleLnk_tests (a0 : Nat) (s : State) : (settleLnk a0 s).tests = s.tests := Same.get (f := .tests) (settleLnk_foot a0 s) rfl
@[simp] theorem settleLnk_linkTimes (a0 : Nat) (s : State) : (settleLnk a0 s).linkTimes = s.linkTimes := Same.get (f := .linkTimes) (settleLnk_foot a0 s) rfl
@[simp] theorem settleLnk_servo (a0 : Nat) (s : State) : (settleLnk a0 s).servo = s.servo := Same.get (f := .servo) (settleLnk_foot a0 s) rfl
@[simp] theorem settleLnk_eth (a0 : Nat) (s : State) : (settleLnk a0 s).eth = s.eth := Same.get (f := .eth) (settleLnk_foot a0 s) rfl
@[simp] theorem settleLnk_fw (a0 : Nat) (s : State) : (settleLnk a0 s).fw = s.fw := Same.get (f := .fw) (settleLnk_foot a0 s) rfl
@[simp] theorem settleLnk_cal (a0 : Nat) (s : State) : (settleLnk a0 s).cal = s.cal := Same.get (f := .cal) (settleLnk_foot a0 s) rfl
@[simp] theorem settleLnk_sens (a0 : Nat) (s : State) : (settleLnk a0 s).sens = s.sens := Same.get (f := .sens) (settleLnk_foot a0 s) rfl
@[simp] theorem settleLnk_snsOn (a0 : Nat) (s : State) : (settleLnk a0 s).snsOn = s.snsOn := Same.get (f := .snsOn) (settleLnk_foot a0 s) rfl
@[simp] theorem settleLnk_free (a0 : Nat) (s : State) : (settleLnk a0 s).free = s.free := Same.get (f := .free) (settleLnk_foot a0 s) rfl
@[simp] theorem settleLnk_salts (a0 : Nat) (s : State) : (settleLnk a0 s).salts = s.salts := Same.get (f := .salts) (settleLnk_foot a0 s) rfl

/-! ### settleWriter -/

theorem settleWriter_foot (a0 : Nat) (s : State) : Same (fun f => [Fld.regs, Fld.strs, Fld.closes, Fld.exempt, Fld.refused, Fld.heds, Fld.counts, Fld.hedGovs, Fld.reedGovs, Fld.trd, Fld.stop, Fld.key, Fld.wits, Fld.ver, Fld.tests, Fld.links, Fld.free].contains f) s (settleWriter a0 s) :=
  settleWriter_same rfl rfl rfl rfl rfl rfl rfl rfl rfl rfl rfl rfl rfl rfl rfl rfl rfl (Same.refl _ _)

@[simp] theorem settleWriter_pending (a0 : Nat) (s : State) : (settleWriter a0 s).pending = s.pending := Same.get (f := .pending) (settleWriter_foot a0 s) rfl
@[simp] theorem settleWriter_inst (a0 : Nat) (s : State) : (settleWriter a0 s).inst = s.inst := Same.get (f := .inst) (settleWriter_foot a0 s) rfl
@[simp] theorem settleWriter_ready (a0 : Nat) (s : State) : (settleWriter a0 s).ready = s.ready := Same.get (f := .ready) (settleWriter_foot a0 s) rfl
@[simp] theorem settleWriter_booting (a0 : Nat) (s : State) : (settleWriter a0 s).booting = s.booting := Same.get (f := .booting) (settleWriter_foot a0 s) rfl
@[simp] theorem settleWriter_workHeld (a0 : Nat) (s : State) : (settleWriter a0 s).workHeld = s.workHeld := Same.get (f := .workHeld) (settleWriter_foot a0 s) rfl
@[simp] theorem settleWriter_port (a0 : Nat) (s : State) : (settleWriter a0 s).port = s.port := Same.get (f := .port) (settleWriter_foot a0 s) rfl
@[simp] theorem settleWriter_parts (a0 : Nat) (s : State) : (settleWriter a0 s).parts = s.parts := Same.get (f := .parts) (settleWriter_foot a0 s) rfl
@[simp] theorem settleWriter_audit (a0 : Nat) (s : State) : (settleWriter a0 s).audit = s.audit := Same.get (f := .audit) (settleWriter_foot a0 s) rfl
@[simp] theorem settleWriter_tim (a0 : Nat) (s : State) : (settleWriter a0 s).tim = s.tim := Same.get (f := .tim) (settleWriter_foot a0 s) rfl
@[simp] theorem settleWriter_owed (a0 : Nat) (s : State) : (settleWriter a0 s).owed = s.owed := Same.get (f := .owed) (settleWriter_foot a0 s) rfl
@[simp] theorem settleWriter_bobs (a0 : Nat) (s : State) : (settleWriter a0 s).bobs = s.bobs := Same.get (f := .bobs) (settleWriter_foot a0 s) rfl
@[simp] theorem settleWriter_wports (a0 : Nat) (s : State) : (settleWriter a0 s).wports = s.wports := Same.get (f := .wports) (settleWriter_foot a0 s) rfl
@[simp] theorem settleWriter_rport (a0 : Nat) (s : State) : (settleWriter a0 s).rport = s.rport := Same.get (f := .rport) (settleWriter_foot a0 s) rfl
@[simp] theorem settleWriter_adopts (a0 : Nat) (s : State) : (settleWriter a0 s).adopts = s.adopts := Same.get (f := .adopts) (settleWriter_foot a0 s) rfl
@[simp] theorem settleWriter_gov (a0 : Nat) (s : State) : (settleWriter a0 s).gov = s.gov := Same.get (f := .gov) (settleWriter_foot a0 s) rfl
@[simp] theorem settleWriter_hedStops (a0 : Nat) (s : State) : (settleWriter a0 s).hedStops = s.hedStops := Same.get (f := .hedStops) (settleWriter_foot a0 s) rfl
@[simp] theorem settleWriter_cards (a0 : Nat) (s : State) : (settleWriter a0 s).cards = s.cards := Same.get (f := .cards) (settleWriter_foot a0 s) rfl
@[simp] theorem settleWriter_shadows (a0 : Nat) (s : State) : (settleWriter a0 s).shadows = s.shadows := Same.get (f := .shadows) (settleWriter_foot a0 s) rfl
@[simp] theorem settleWriter_lapsed (a0 : Nat) (s : State) : (settleWriter a0 s).lapsed = s.lapsed := Same.get (f := .lapsed) (settleWriter_foot a0 s) rfl
@[simp] theorem settleWriter_gates (a0 : Nat) (s : State) : (settleWriter a0 s).gates = s.gates := Same.get (f := .gates) (settleWriter_foot a0 s) rfl
@[simp] theorem settleWriter_linkTimes (a0 : Nat) (s : State) : (settleWriter a0 s).linkTimes = s.linkTimes := Same.get (f := .linkTimes) (settleWriter_foot a0 s) rfl
@[simp] theorem settleWriter_servo (a0 : Nat) (s : State) : (settleWriter a0 s).servo = s.servo := Same.get (f := .servo) (settleWriter_foot a0 s) rfl
@[simp] theorem settleWriter_eth (a0 : Nat) (s : State) : (settleWriter a0 s).eth = s.eth := Same.get (f := .eth) (settleWriter_foot a0 s) rfl
@[simp] theorem settleWriter_fw (a0 : Nat) (s : State) : (settleWriter a0 s).fw = s.fw := Same.get (f := .fw) (settleWriter_foot a0 s) rfl
@[simp] theorem settleWriter_cal (a0 : Nat) (s : State) : (settleWriter a0 s).cal = s.cal := Same.get (f := .cal) (settleWriter_foot a0 s) rfl
@[simp] theorem settleWriter_sens (a0 : Nat) (s : State) : (settleWriter a0 s).sens = s.sens := Same.get (f := .sens) (settleWriter_foot a0 s) rfl
@[simp] theorem settleWriter_snsOn (a0 : Nat) (s : State) : (settleWriter a0 s).snsOn = s.snsOn := Same.get (f := .snsOn) (settleWriter_foot a0 s) rfl
@[simp] theorem settleWriter_salts (a0 : Nat) (s : State) : (settleWriter a0 s).salts = s.salts := Same.get (f := .salts) (settleWriter_foot a0 s) rfl

/-! ### pageFirst -/

theorem pageFirst_foot (a0 : Nat) (s : State) : Same (fun f => [Fld.regs, Fld.parts, Fld.tim, Fld.strs, Fld.closes, Fld.exempt, Fld.refused, Fld.heds, Fld.counts, Fld.hedGovs, Fld.reedGovs, Fld.trd, Fld.stop, Fld.hedStops, Fld.key, Fld.wits, Fld.ver, Fld.gates, Fld.tests, Fld.links, Fld.free].contains f) s (pageFirst a0 s) :=
  pageFirst_same rfl rfl rfl rfl rfl rfl rfl rfl rfl rfl rfl rfl rfl rfl rfl rfl rfl rfl rfl rfl rfl (Same.refl _ _)

@[simp] theorem pageFirst_pending (a0 : Nat) (s : State) : (pageFirst a0 s).pending = s.pending := Same.get (f := .pending) (pageFirst_foot a0 s) rfl
@[simp] theorem pageFirst_inst (a0 : Nat) (s : State) : (pageFirst a0 s).inst = s.inst := Same.get (f := .inst) (pageFirst_foot a0 s) rfl
@[simp] theorem pageFirst_ready (a0 : Nat) (s : State) : (pageFirst a0 s).ready = s.ready := Same.get (f := .ready) (pageFirst_foot a0 s) rfl
@[simp] theorem pageFirst_booting (a0 : Nat) (s : State) : (pageFirst a0 s).booting = s.booting := Same.get (f := .booting) (pageFirst_foot a0 s) rfl
@[simp] theorem pageFirst_workHeld (a0 : Nat) (s : State) : (pageFirst a0 s).workHeld = s.workHeld := Same.get (f := .workHeld) (pageFirst_foot a0 s) rfl
@[simp] theorem pageFirst_port (a0 : Nat) (s : State) : (pageFirst a0 s).port = s.port := Same.get (f := .port) (pageFirst_foot a0 s) rfl
@[simp] theorem pageFirst_audit (a0 : Nat) (s : State) : (pageFirst a0 s).audit = s.audit := Same.get (f := .audit) (pageFirst_foot a0 s) rfl
@[simp] theorem pageFirst_owed (a0 : Nat) (s : State) : (pageFirst a0 s).owed = s.owed := Same.get (f := .owed) (pageFirst_foot a0 s) rfl
@[simp] theorem pageFirst_bobs (a0 : Nat) (s : State) : (pageFirst a0 s).bobs = s.bobs := Same.get (f := .bobs) (pageFirst_foot a0 s) rfl
@[simp] theorem pageFirst_wports (a0 : Nat) (s : State) : (pageFirst a0 s).wports = s.wports := Same.get (f := .wports) (pageFirst_foot a0 s) rfl
@[simp] theorem pageFirst_rport (a0 : Nat) (s : State) : (pageFirst a0 s).rport = s.rport := Same.get (f := .rport) (pageFirst_foot a0 s) rfl
@[simp] theorem pageFirst_adopts (a0 : Nat) (s : State) : (pageFirst a0 s).adopts = s.adopts := Same.get (f := .adopts) (pageFirst_foot a0 s) rfl
@[simp] theorem pageFirst_gov (a0 : Nat) (s : State) : (pageFirst a0 s).gov = s.gov := Same.get (f := .gov) (pageFirst_foot a0 s) rfl
@[simp] theorem pageFirst_cards (a0 : Nat) (s : State) : (pageFirst a0 s).cards = s.cards := Same.get (f := .cards) (pageFirst_foot a0 s) rfl
@[simp] theorem pageFirst_shadows (a0 : Nat) (s : State) : (pageFirst a0 s).shadows = s.shadows := Same.get (f := .shadows) (pageFirst_foot a0 s) rfl
@[simp] theorem pageFirst_lapsed (a0 : Nat) (s : State) : (pageFirst a0 s).lapsed = s.lapsed := Same.get (f := .lapsed) (pageFirst_foot a0 s) rfl
@[simp] theorem pageFirst_linkTimes (a0 : Nat) (s : State) : (pageFirst a0 s).linkTimes = s.linkTimes := Same.get (f := .linkTimes) (pageFirst_foot a0 s) rfl
@[simp] theorem pageFirst_servo (a0 : Nat) (s : State) : (pageFirst a0 s).servo = s.servo := Same.get (f := .servo) (pageFirst_foot a0 s) rfl
@[simp] theorem pageFirst_eth (a0 : Nat) (s : State) : (pageFirst a0 s).eth = s.eth := Same.get (f := .eth) (pageFirst_foot a0 s) rfl
@[simp] theorem pageFirst_fw (a0 : Nat) (s : State) : (pageFirst a0 s).fw = s.fw := Same.get (f := .fw) (pageFirst_foot a0 s) rfl
@[simp] theorem pageFirst_cal (a0 : Nat) (s : State) : (pageFirst a0 s).cal = s.cal := Same.get (f := .cal) (pageFirst_foot a0 s) rfl
@[simp] theorem pageFirst_sens (a0 : Nat) (s : State) : (pageFirst a0 s).sens = s.sens := Same.get (f := .sens) (pageFirst_foot a0 s) rfl
@[simp] theorem pageFirst_snsOn (a0 : Nat) (s : State) : (pageFirst a0 s).snsOn = s.snsOn := Same.get (f := .snsOn) (pageFirst_foot a0 s) rfl
@[simp] theorem pageFirst_salts (a0 : Nat) (s : State) : (pageFirst a0 s).salts = s.salts := Same.get (f := .salts) (pageFirst_foot a0 s) rfl

/-! ### finishLeaving -/

theorem finishLeaving_foot (a0 : Nat) (s : State) : Same (fun f => [Fld.regs, Fld.parts, Fld.tim, Fld.heds, Fld.trd, Fld.stop, Fld.hedStops, Fld.gates].contains f) s (finishLeaving a0 s) :=
  finishLeaving_same rfl rfl rfl rfl rfl rfl rfl rfl (Same.refl _ _)

@[simp] theorem finishLeaving_pending (a0 : Nat) (s : State) : (finishLeaving a0 s).pending = s.pending := Same.get (f := .pending) (finishLeaving_foot a0 s) rfl
@[simp] theorem finishLeaving_inst (a0 : Nat) (s : State) : (finishLeaving a0 s).inst = s.inst := Same.get (f := .inst) (finishLeaving_foot a0 s) rfl
@[simp] theorem finishLeaving_ready (a0 : Nat) (s : State) : (finishLeaving a0 s).ready = s.ready := Same.get (f := .ready) (finishLeaving_foot a0 s) rfl
@[simp] theorem finishLeaving_booting (a0 : Nat) (s : State) : (finishLeaving a0 s).booting = s.booting := Same.get (f := .booting) (finishLeaving_foot a0 s) rfl
@[simp] theorem finishLeaving_workHeld (a0 : Nat) (s : State) : (finishLeaving a0 s).workHeld = s.workHeld := Same.get (f := .workHeld) (finishLeaving_foot a0 s) rfl
@[simp] theorem finishLeaving_port (a0 : Nat) (s : State) : (finishLeaving a0 s).port = s.port := Same.get (f := .port) (finishLeaving_foot a0 s) rfl
@[simp] theorem finishLeaving_audit (a0 : Nat) (s : State) : (finishLeaving a0 s).audit = s.audit := Same.get (f := .audit) (finishLeaving_foot a0 s) rfl
@[simp] theorem finishLeaving_owed (a0 : Nat) (s : State) : (finishLeaving a0 s).owed = s.owed := Same.get (f := .owed) (finishLeaving_foot a0 s) rfl
@[simp] theorem finishLeaving_strs (a0 : Nat) (s : State) : (finishLeaving a0 s).strs = s.strs := Same.get (f := .strs) (finishLeaving_foot a0 s) rfl
@[simp] theorem finishLeaving_closes (a0 : Nat) (s : State) : (finishLeaving a0 s).closes = s.closes := Same.get (f := .closes) (finishLeaving_foot a0 s) rfl
@[simp] theorem finishLeaving_bobs (a0 : Nat) (s : State) : (finishLeaving a0 s).bobs = s.bobs := Same.get (f := .bobs) (finishLeaving_foot a0 s) rfl
@[simp] theorem finishLeaving_wports (a0 : Nat) (s : State) : (finishLeaving a0 s).wports = s.wports := Same.get (f := .wports) (finishLeaving_foot a0 s) rfl
@[simp] theorem finishLeaving_rport (a0 : Nat) (s : State) : (finishLeaving a0 s).rport = s.rport := Same.get (f := .rport) (finishLeaving_foot a0 s) rfl
@[simp] theorem finishLeaving_adopts (a0 : Nat) (s : State) : (finishLeaving a0 s).adopts = s.adopts := Same.get (f := .adopts) (finishLeaving_foot a0 s) rfl
@[simp] theorem finishLeaving_exempt (a0 : Nat) (s : State) : (finishLeaving a0 s).exempt = s.exempt := Same.get (f := .exempt) (finishLeaving_foot a0 s) rfl
@[simp] theorem finishLeaving_refused (a0 : Nat) (s : State) : (finishLeaving a0 s).refused = s.refused := Same.get (f := .refused) (finishLeaving_foot a0 s) rfl
@[simp] theorem finishLeaving_counts (a0 : Nat) (s : State) : (finishLeaving a0 s).counts = s.counts := Same.get (f := .counts) (finishLeaving_foot a0 s) rfl
@[simp] theorem finishLeaving_hedGovs (a0 : Nat) (s : State) : (finishLeaving a0 s).hedGovs = s.hedGovs := Same.get (f := .hedGovs) (finishLeaving_foot a0 s) rfl
@[simp] theorem finishLeaving_reedGovs (a0 : Nat) (s : State) : (finishLeaving a0 s).reedGovs = s.reedGovs := Same.get (f := .reedGovs) (finishLeaving_foot a0 s) rfl
@[simp] theorem finishLeaving_gov (a0 : Nat) (s : State) : (finishLeaving a0 s).gov = s.gov := Same.get (f := .gov) (finishLeaving_foot a0 s) rfl
@[simp] theorem finishLeaving_key (a0 : Nat) (s : State) : (finishLeaving a0 s).key = s.key := Same.get (f := .key) (finishLeaving_foot a0 s) rfl
@[simp] theorem finishLeaving_wits (a0 : Nat) (s : State) : (finishLeaving a0 s).wits = s.wits := Same.get (f := .wits) (finishLeaving_foot a0 s) rfl
@[simp] theorem finishLeaving_cards (a0 : Nat) (s : State) : (finishLeaving a0 s).cards = s.cards := Same.get (f := .cards) (finishLeaving_foot a0 s) rfl
@[simp] theorem finishLeaving_shadows (a0 : Nat) (s : State) : (finishLeaving a0 s).shadows = s.shadows := Same.get (f := .shadows) (finishLeaving_foot a0 s) rfl
@[simp] theorem finishLeaving_lapsed (a0 : Nat) (s : State) : (finishLeaving a0 s).lapsed = s.lapsed := Same.get (f := .lapsed) (finishLeaving_foot a0 s) rfl
@[simp] theorem finishLeaving_ver (a0 : Nat) (s : State) : (finishLeaving a0 s).ver = s.ver := Same.get (f := .ver) (finishLeaving_foot a0 s) rfl
@[simp] theorem finishLeaving_tests (a0 : Nat) (s : State) : (finishLeaving a0 s).tests = s.tests := Same.get (f := .tests) (finishLeaving_foot a0 s) rfl
@[simp] theorem finishLeaving_links (a0 : Nat) (s : State) : (finishLeaving a0 s).links = s.links := Same.get (f := .links) (finishLeaving_foot a0 s) rfl
@[simp] theorem finishLeaving_linkTimes (a0 : Nat) (s : State) : (finishLeaving a0 s).linkTimes = s.linkTimes := Same.get (f := .linkTimes) (finishLeaving_foot a0 s) rfl
@[simp] theorem finishLeaving_servo (a0 : Nat) (s : State) : (finishLeaving a0 s).servo = s.servo := Same.get (f := .servo) (finishLeaving_foot a0 s) rfl
@[simp] theorem finishLeaving_eth (a0 : Nat) (s : State) : (finishLeaving a0 s).eth = s.eth := Same.get (f := .eth) (finishLeaving_foot a0 s) rfl
@[simp] theorem finishLeaving_fw (a0 : Nat) (s : State) : (finishLeaving a0 s).fw = s.fw := Same.get (f := .fw) (finishLeaving_foot a0 s) rfl
@[simp] theorem finishLeaving_cal (a0 : Nat) (s : State) : (finishLeaving a0 s).cal = s.cal := Same.get (f := .cal) (finishLeaving_foot a0 s) rfl
@[simp] theorem finishLeaving_sens (a0 : Nat) (s : State) : (finishLeaving a0 s).sens = s.sens := Same.get (f := .sens) (finishLeaving_foot a0 s) rfl
@[simp] theorem finishLeaving_snsOn (a0 : Nat) (s : State) : (finishLeaving a0 s).snsOn = s.snsOn := Same.get (f := .snsOn) (finishLeaving_foot a0 s) rfl
@[simp] theorem finishLeaving_free (a0 : Nat) (s : State) : (finishLeaving a0 s).free = s.free := Same.get (f := .free) (finishLeaving_foot a0 s) rfl
@[simp] theorem finishLeaving_salts (a0 : Nat) (s : State) : (finishLeaving a0 s).salts = s.salts := Same.get (f := .salts) (finishLeaving_foot a0 s) rfl

/-! ### advance -/

theorem advance_foot (a0 : Nat) (s : State) : Same (fun f => [Fld.tim, Fld.ver, Fld.raw].contains f) s (advance a0 s) :=
  advance_same rfl rfl rfl (Same.refl _ _)

@[simp] theorem advance_pending (a0 : Nat) (s : State) : (advance a0 s).pending = s.pending := Same.get (f := .pending) (advance_foot a0 s) rfl
@[simp] theorem advance_inst (a0 : Nat) (s : State) : (advance a0 s).inst = s.inst := Same.get (f := .inst) (advance_foot a0 s) rfl
@[simp] theorem advance_ready (a0 : Nat) (s : State) : (advance a0 s).ready = s.ready := Same.get (f := .ready) (advance_foot a0 s) rfl
@[simp] theorem advance_booting (a0 : Nat) (s : State) : (advance a0 s).booting = s.booting := Same.get (f := .booting) (advance_foot a0 s) rfl
@[simp] theorem advance_workHeld (a0 : Nat) (s : State) : (advance a0 s).workHeld = s.workHeld := Same.get (f := .workHeld) (advance_foot a0 s) rfl
@[simp] theorem advance_port (a0 : Nat) (s : State) : (advance a0 s).port = s.port := Same.get (f := .port) (advance_foot a0 s) rfl
@[simp] theorem advance_regs (a0 : Nat) (s : State) : (advance a0 s).regs = s.regs := Same.get (f := .regs) (advance_foot a0 s) rfl
@[simp] theorem advance_parts (a0 : Nat) (s : State) : (advance a0 s).parts = s.parts := Same.get (f := .parts) (advance_foot a0 s) rfl
@[simp] theorem advance_audit (a0 : Nat) (s : State) : (advance a0 s).audit = s.audit := Same.get (f := .audit) (advance_foot a0 s) rfl
@[simp] theorem advance_owed (a0 : Nat) (s : State) : (advance a0 s).owed = s.owed := Same.get (f := .owed) (advance_foot a0 s) rfl
@[simp] theorem advance_strs (a0 : Nat) (s : State) : (advance a0 s).strs = s.strs := Same.get (f := .strs) (advance_foot a0 s) rfl
@[simp] theorem advance_closes (a0 : Nat) (s : State) : (advance a0 s).closes = s.closes := Same.get (f := .closes) (advance_foot a0 s) rfl
@[simp] theorem advance_bobs (a0 : Nat) (s : State) : (advance a0 s).bobs = s.bobs := Same.get (f := .bobs) (advance_foot a0 s) rfl
@[simp] theorem advance_wports (a0 : Nat) (s : State) : (advance a0 s).wports = s.wports := Same.get (f := .wports) (advance_foot a0 s) rfl
@[simp] theorem advance_rport (a0 : Nat) (s : State) : (advance a0 s).rport = s.rport := Same.get (f := .rport) (advance_foot a0 s) rfl
@[simp] theorem advance_adopts (a0 : Nat) (s : State) : (advance a0 s).adopts = s.adopts := Same.get (f := .adopts) (advance_foot a0 s) rfl
@[simp] theorem advance_exempt (a0 : Nat) (s : State) : (advance a0 s).exempt = s.exempt := Same.get (f := .exempt) (advance_foot a0 s) rfl
@[simp] theorem advance_refused (a0 : Nat) (s : State) : (advance a0 s).refused = s.refused := Same.get (f := .refused) (advance_foot a0 s) rfl
@[simp] theorem advance_heds (a0 : Nat) (s : State) : (advance a0 s).heds = s.heds := Same.get (f := .heds) (advance_foot a0 s) rfl
@[simp] theorem advance_counts (a0 : Nat) (s : State) : (advance a0 s).counts = s.counts := Same.get (f := .counts) (advance_foot a0 s) rfl
@[simp] theorem advance_hedGovs (a0 : Nat) (s : State) : (advance a0 s).hedGovs = s.hedGovs := Same.get (f := .hedGovs) (advance_foot a0 s) rfl
@[simp] theorem advance_reedGovs (a0 : Nat) (s : State) : (advance a0 s).reedGovs = s.reedGovs := Same.get (f := .reedGovs) (advance_foot a0 s) rfl
@[simp] theorem advance_gov (a0 : Nat) (s : State) : (advance a0 s).gov = s.gov := Same.get (f := .gov) (advance_foot a0 s) rfl
@[simp] theorem advance_trd (a0 : Nat) (s : State) : (advance a0 s).trd = s.trd := Same.get (f := .trd) (advance_foot a0 s) rfl
@[simp] theorem advance_stop (a0 : Nat) (s : State) : (advance a0 s).stop = s.stop := Same.get (f := .stop) (advance_foot a0 s) rfl
@[simp] theorem advance_hedStops (a0 : Nat) (s : State) : (advance a0 s).hedStops = s.hedStops := Same.get (f := .hedStops) (advance_foot a0 s) rfl
@[simp] theorem advance_key (a0 : Nat) (s : State) : (advance a0 s).key = s.key := Same.get (f := .key) (advance_foot a0 s) rfl
@[simp] theorem advance_wits (a0 : Nat) (s : State) : (advance a0 s).wits = s.wits := Same.get (f := .wits) (advance_foot a0 s) rfl
@[simp] theorem advance_cards (a0 : Nat) (s : State) : (advance a0 s).cards = s.cards := Same.get (f := .cards) (advance_foot a0 s) rfl
@[simp] theorem advance_shadows (a0 : Nat) (s : State) : (advance a0 s).shadows = s.shadows := Same.get (f := .shadows) (advance_foot a0 s) rfl
@[simp] theorem advance_lapsed (a0 : Nat) (s : State) : (advance a0 s).lapsed = s.lapsed := Same.get (f := .lapsed) (advance_foot a0 s) rfl
@[simp] theorem advance_gates (a0 : Nat) (s : State) : (advance a0 s).gates = s.gates := Same.get (f := .gates) (advance_foot a0 s) rfl
@[simp] theorem advance_tests (a0 : Nat) (s : State) : (advance a0 s).tests = s.tests := Same.get (f := .tests) (advance_foot a0 s) rfl
@[simp] theorem advance_links (a0 : Nat) (s : State) : (advance a0 s).links = s.links := Same.get (f := .links) (advance_foot a0 s) rfl
@[simp] theorem advance_linkTimes (a0 : Nat) (s : State) : (advance a0 s).linkTimes = s.linkTimes := Same.get (f := .linkTimes) (advance_foot a0 s) rfl
@[simp] theorem advance_servo (a0 : Nat) (s : State) : (advance a0 s).servo = s.servo := Same.get (f := .servo) (advance_foot a0 s) rfl
@[simp] theorem advance_eth (a0 : Nat) (s : State) : (advance a0 s).eth = s.eth := Same.get (f := .eth) (advance_foot a0 s) rfl
@[simp] theorem advance_fw (a0 : Nat) (s : State) : (advance a0 s).fw = s.fw := Same.get (f := .fw) (advance_foot a0 s) rfl
@[simp] theorem advance_cal (a0 : Nat) (s : State) : (advance a0 s).cal = s.cal := Same.get (f := .cal) (advance_foot a0 s) rfl
@[simp] theorem advance_sens (a0 : Nat) (s : State) : (advance a0 s).sens = s.sens := Same.get (f := .sens) (advance_foot a0 s) rfl
@[simp] theorem advance_snsOn (a0 : Nat) (s : State) : (advance a0 s).snsOn = s.snsOn := Same.get (f := .snsOn) (advance_foot a0 s) rfl
@[simp] theorem advance_free (a0 : Nat) (s : State) : (advance a0 s).free = s.free := Same.get (f := .free) (advance_foot a0 s) rfl
@[simp] theorem advance_salts (a0 : Nat) (s : State) : (advance a0 s).salts = s.salts := Same.get (f := .salts) (advance_foot a0 s) rfl

/-! ### finish -/

theorem finish_foot (a0 : Nat) (s : State) : Same (fun f => [Fld.workHeld, Fld.regs, Fld.rport, Fld.adopts, Fld.trd, Fld.lapsed, Fld.ver, Fld.tests].contains f) s (finish a0 s) :=
  finish_same rfl rfl rfl rfl rfl rfl rfl rfl (Same.refl _ _)

@[simp] theorem finish_pending (a0 : Nat) (s : State) : (finish a0 s).pending = s.pending := Same.get (f := .pending) (finish_foot a0 s) rfl
@[simp] theorem finish_inst (a0 : Nat) (s : State) : (finish a0 s).inst = s.inst := Same.get (f := .inst) (finish_foot a0 s) rfl
@[simp] theorem finish_ready (a0 : Nat) (s : State) : (finish a0 s).ready = s.ready := Same.get (f := .ready) (finish_foot a0 s) rfl
@[simp] theorem finish_booting (a0 : Nat) (s : State) : (finish a0 s).booting = s.booting := Same.get (f := .booting) (finish_foot a0 s) rfl
@[simp] theorem finish_port (a0 : Nat) (s : State) : (finish a0 s).port = s.port := Same.get (f := .port) (finish_foot a0 s) rfl
@[simp] theorem finish_parts (a0 : Nat) (s : State) : (finish a0 s).parts = s.parts := Same.get (f := .parts) (finish_foot a0 s) rfl
@[simp] theorem finish_audit (a0 : Nat) (s : State) : (finish a0 s).audit = s.audit := Same.get (f := .audit) (finish_foot a0 s) rfl
@[simp] theorem finish_tim (a0 : Nat) (s : State) : (finish a0 s).tim = s.tim := Same.get (f := .tim) (finish_foot a0 s) rfl
@[simp] theorem finish_owed (a0 : Nat) (s : State) : (finish a0 s).owed = s.owed := Same.get (f := .owed) (finish_foot a0 s) rfl
@[simp] theorem finish_strs (a0 : Nat) (s : State) : (finish a0 s).strs = s.strs := Same.get (f := .strs) (finish_foot a0 s) rfl
@[simp] theorem finish_closes (a0 : Nat) (s : State) : (finish a0 s).closes = s.closes := Same.get (f := .closes) (finish_foot a0 s) rfl
@[simp] theorem finish_bobs (a0 : Nat) (s : State) : (finish a0 s).bobs = s.bobs := Same.get (f := .bobs) (finish_foot a0 s) rfl
@[simp] theorem finish_wports (a0 : Nat) (s : State) : (finish a0 s).wports = s.wports := Same.get (f := .wports) (finish_foot a0 s) rfl
@[simp] theorem finish_exempt (a0 : Nat) (s : State) : (finish a0 s).exempt = s.exempt := Same.get (f := .exempt) (finish_foot a0 s) rfl
@[simp] theorem finish_refused (a0 : Nat) (s : State) : (finish a0 s).refused = s.refused := Same.get (f := .refused) (finish_foot a0 s) rfl
@[simp] theorem finish_heds (a0 : Nat) (s : State) : (finish a0 s).heds = s.heds := Same.get (f := .heds) (finish_foot a0 s) rfl
@[simp] theorem finish_counts (a0 : Nat) (s : State) : (finish a0 s).counts = s.counts := Same.get (f := .counts) (finish_foot a0 s) rfl
@[simp] theorem finish_hedGovs (a0 : Nat) (s : State) : (finish a0 s).hedGovs = s.hedGovs := Same.get (f := .hedGovs) (finish_foot a0 s) rfl
@[simp] theorem finish_reedGovs (a0 : Nat) (s : State) : (finish a0 s).reedGovs = s.reedGovs := Same.get (f := .reedGovs) (finish_foot a0 s) rfl
@[simp] theorem finish_gov (a0 : Nat) (s : State) : (finish a0 s).gov = s.gov := Same.get (f := .gov) (finish_foot a0 s) rfl
@[simp] theorem finish_stop (a0 : Nat) (s : State) : (finish a0 s).stop = s.stop := Same.get (f := .stop) (finish_foot a0 s) rfl
@[simp] theorem finish_hedStops (a0 : Nat) (s : State) : (finish a0 s).hedStops = s.hedStops := Same.get (f := .hedStops) (finish_foot a0 s) rfl
@[simp] theorem finish_key (a0 : Nat) (s : State) : (finish a0 s).key = s.key := Same.get (f := .key) (finish_foot a0 s) rfl
@[simp] theorem finish_wits (a0 : Nat) (s : State) : (finish a0 s).wits = s.wits := Same.get (f := .wits) (finish_foot a0 s) rfl
@[simp] theorem finish_cards (a0 : Nat) (s : State) : (finish a0 s).cards = s.cards := Same.get (f := .cards) (finish_foot a0 s) rfl
@[simp] theorem finish_shadows (a0 : Nat) (s : State) : (finish a0 s).shadows = s.shadows := Same.get (f := .shadows) (finish_foot a0 s) rfl
@[simp] theorem finish_gates (a0 : Nat) (s : State) : (finish a0 s).gates = s.gates := Same.get (f := .gates) (finish_foot a0 s) rfl
@[simp] theorem finish_links (a0 : Nat) (s : State) : (finish a0 s).links = s.links := Same.get (f := .links) (finish_foot a0 s) rfl
@[simp] theorem finish_linkTimes (a0 : Nat) (s : State) : (finish a0 s).linkTimes = s.linkTimes := Same.get (f := .linkTimes) (finish_foot a0 s) rfl
@[simp] theorem finish_servo (a0 : Nat) (s : State) : (finish a0 s).servo = s.servo := Same.get (f := .servo) (finish_foot a0 s) rfl
@[simp] theorem finish_eth (a0 : Nat) (s : State) : (finish a0 s).eth = s.eth := Same.get (f := .eth) (finish_foot a0 s) rfl
@[simp] theorem finish_fw (a0 : Nat) (s : State) : (finish a0 s).fw = s.fw := Same.get (f := .fw) (finish_foot a0 s) rfl
@[simp] theorem finish_cal (a0 : Nat) (s : State) : (finish a0 s).cal = s.cal := Same.get (f := .cal) (finish_foot a0 s) rfl
@[simp] theorem finish_sens (a0 : Nat) (s : State) : (finish a0 s).sens = s.sens := Same.get (f := .sens) (finish_foot a0 s) rfl
@[simp] theorem finish_snsOn (a0 : Nat) (s : State) : (finish a0 s).snsOn = s.snsOn := Same.get (f := .snsOn) (finish_foot a0 s) rfl
@[simp] theorem finish_free (a0 : Nat) (s : State) : (finish a0 s).free = s.free := Same.get (f := .free) (finish_foot a0 s) rfl
@[simp] theorem finish_salts (a0 : Nat) (s : State) : (finish a0 s).salts = s.salts := Same.get (f := .salts) (finish_foot a0 s) rfl

end Sys2Proof.Laws
end

