-- ==== Sys2Proof/Laws/Command.lean ====
section
/-! SUPPORT. The frame of every command: what the advance of the raw count and what follows a command leave alone, so that a claim about a
command is a claim about its effect. -/

namespace Sys2Proof.Laws

open Sys2Proof.Machine Sys2Proof.Safety

/-! ### Readers that rest on the registers and the parts alone -/

theorem regGet_congr {s t : State} (hi : t.inst = s.inst) (hr : t.regs = s.regs) (p o : Nat) : regGet t p o = regGet s p o := by
  simp [regGet, hi, hr]

theorem part_congr {s t : State} (hb : t.booting = s.booting) (hp : t.parts = s.parts) (p : Nat) : part t p = part s p := by
  simp [part, partDflt, hb, hp]

@[simp] theorem regGet_advance (dt : Nat) (s : State) (p o : Nat) : regGet (advance dt s) p o = regGet s p o :=
  regGet_congr (by simp) (by simp) p o

@[simp] theorem regFld_advance (dt : Nat) (s : State) (p o hi lo : Nat) : regFld (advance dt s) p o hi lo = regFld s p o hi lo := by
  simp [regFld]

@[simp] theorem regBit_advance (dt : Nat) (s : State) (p o i : Nat) : regBit (advance dt s) p o i = regBit s p o i := by simp [regBit]

@[simp] theorem part_advance (dt : Nat) (s : State) (p : Nat) : part (advance dt s) p = part s p := part_congr (by simp) (by simp) p

@[simp] theorem pst_advance (dt : Nat) (s : State) (p : Nat) : pst (advance dt s) p = pst s p := by simp [pst]

@[simp] theorem isEnabled_advance (dt : Nat) (s : State) (p : Nat) : isEnabled (advance dt s) p = isEnabled s p := by simp [isEnabled]

@[simp] theorem isWorking_advance (dt : Nat) (s : State) (p : Nat) : isWorking (advance dt s) p = isWorking s p := by simp [isWorking]

@[simp] theorem strapOk_advance (dt : Nat) (s : State) : strapOk (advance dt s) = strapOk s := by simp [strapOk]

@[simp] theorem settleFrom_tim (b : Int) (s : State) : (settleFrom b s).tim = s.tim := by
  exact Same.get (f := .tim) (F := fun f => f == .ver) (settleFrom_same rfl (Same.refl _ _)) rfl

@[simp] theorem advance_tim (dt : Nat) (s : State) : (advance dt s).tim = newTime dt s := by
  unfold advance; dsimp only; split; rfl; simp

theorem newTime_raw (dt : Nat) (s : State) : (newTime dt s).raw = newRaw dt s := by
  unfold newTime; dsimp only; split <;> rfl

@[simp] theorem advance_raw (dt : Nat) (s : State) : (advance dt s).tim.raw = newRaw dt s := by rw [advance_tim, newTime_raw]

/-! ### A command that acts -/

theorem act_of_running {dt : Nat} {f : State → State} {s : State} (h : s.booting = false) : act dt f s = always dt f s := by
  simp [act, h]

theorem only_there {there : Bool} {dt : Nat} {f : State → State} {s : State} (ht : there = true) (h : s.booting = false) :
    only there dt f s = .next (always dt f s) := by
  simp [only, ht, act, h]

@[simp] theorem always_pending (dt : Nat) (f : State → State) (s : State) : (always dt f s).pending = (f (advance dt s)).pending := by
  unfold always; simp

@[simp] theorem always_inst (dt : Nat) (f : State → State) (s : State) : (always dt f s).inst = (f (advance dt s)).inst := by
  unfold always; simp

@[simp] theorem always_ready (dt : Nat) (f : State → State) (s : State) : (always dt f s).ready = (f (advance dt s)).ready := by
  unfold always; simp

@[simp] theorem always_booting (dt : Nat) (f : State → State) (s : State) : (always dt f s).booting = (f (advance dt s)).booting := by
  unfold always; simp

@[simp] theorem always_port (dt : Nat) (f : State → State) (s : State) : (always dt f s).port = (f (advance dt s)).port := by
  unfold always; simp

@[simp] theorem always_parts (dt : Nat) (f : State → State) (s : State) : (always dt f s).parts = (f (advance dt s)).parts := by
  unfold always; simp

@[simp] theorem always_audit (dt : Nat) (f : State → State) (s : State) : (always dt f s).audit = (f (advance dt s)).audit := by
  unfold always; simp

@[simp] theorem always_tim (dt : Nat) (f : State → State) (s : State) : (always dt f s).tim = (f (advance dt s)).tim := by
  unfold always; simp

@[simp] theorem always_owed (dt : Nat) (f : State → State) (s : State) : (always dt f s).owed = (f (advance dt s)).owed := by
  unfold always; simp

@[simp] theorem always_strs (dt : Nat) (f : State → State) (s : State) : (always dt f s).strs = (f (advance dt s)).strs := by
  unfold always; simp

@[simp] theorem always_closes (dt : Nat) (f : State → State) (s : State) : (always dt f s).closes = (f (advance dt s)).closes := by
  unfold always; simp

@[simp] theorem always_bobs (dt : Nat) (f : State → State) (s : State) : (always dt f s).bobs = (f (advance dt s)).bobs := by
  unfold always; simp

@[simp] theorem always_wports (dt : Nat) (f : State → State) (s : State) : (always dt f s).wports = (f (advance dt s)).wports := by
  unfold always; simp

@[simp] theorem always_exempt (dt : Nat) (f : State → State) (s : State) : (always dt f s).exempt = (f (advance dt s)).exempt := by
  unfold always; simp

@[simp] theorem always_refused (dt : Nat) (f : State → State) (s : State) : (always dt f s).refused = (f (advance dt s)).refused := by
  unfold always; simp

@[simp] theorem always_heds (dt : Nat) (f : State → State) (s : State) : (always dt f s).heds = (f (advance dt s)).heds := by
  unfold always; simp

@[simp] theorem always_counts (dt : Nat) (f : State → State) (s : State) : (always dt f s).counts = (f (advance dt s)).counts := by
  unfold always; simp

@[simp] theorem always_hedGovs (dt : Nat) (f : State → State) (s : State) : (always dt f s).hedGovs = (f (advance dt s)).hedGovs := by
  unfold always; simp

@[simp] theorem always_reedGovs (dt : Nat) (f : State → State) (s : State) : (always dt f s).reedGovs = (f (advance dt s)).reedGovs := by
  unfold always; simp

@[simp] theorem always_gov (dt : Nat) (f : State → State) (s : State) : (always dt f s).gov = (f (advance dt s)).gov := by
  unfold always; simp

@[simp] theorem always_stop (dt : Nat) (f : State → State) (s : State) : (always dt f s).stop = (f (advance dt s)).stop := by
  unfold always; simp

@[simp] theorem always_hedStops (dt : Nat) (f : State → State) (s : State) : (always dt f s).hedStops = (f (advance dt s)).hedStops := by
  unfold always; simp

@[simp] theorem always_key (dt : Nat) (f : State → State) (s : State) : (always dt f s).key = (f (advance dt s)).key := by
  unfold always; simp

@[simp] theorem always_wits (dt : Nat) (f : State → State) (s : State) : (always dt f s).wits = (f (advance dt s)).wits := by
  unfold always; simp

@[simp] theorem always_cards (dt : Nat) (f : State → State) (s : State) : (always dt f s).cards = (f (advance dt s)).cards := by
  unfold always; simp

@[simp] theorem always_shadows (dt : Nat) (f : State → State) (s : State) : (always dt f s).shadows = (f (advance dt s)).shadows := by
  unfold always; simp

@[simp] theorem always_gates (dt : Nat) (f : State → State) (s : State) : (always dt f s).gates = (f (advance dt s)).gates := by
  unfold always; simp

@[simp] theorem always_links (dt : Nat) (f : State → State) (s : State) : (always dt f s).links = (f (advance dt s)).links := by
  unfold always; simp

@[simp] theorem always_linkTimes (dt : Nat) (f : State → State) (s : State) : (always dt f s).linkTimes = (f (advance dt s)).linkTimes := by
  unfold always; simp

@[simp] theorem always_servo (dt : Nat) (f : State → State) (s : State) : (always dt f s).servo = (f (advance dt s)).servo := by
  unfold always; simp

@[simp] theorem always_eth (dt : Nat) (f : State → State) (s : State) : (always dt f s).eth = (f (advance dt s)).eth := by
  unfold always; simp

@[simp] theorem always_fw (dt : Nat) (f : State → State) (s : State) : (always dt f s).fw = (f (advance dt s)).fw := by
  unfold always; simp

@[simp] theorem always_cal (dt : Nat) (f : State → State) (s : State) : (always dt f s).cal = (f (advance dt s)).cal := by
  unfold always; simp

@[simp] theorem always_sens (dt : Nat) (f : State → State) (s : State) : (always dt f s).sens = (f (advance dt s)).sens := by
  unfold always; simp

@[simp] theorem always_snsOn (dt : Nat) (f : State → State) (s : State) : (always dt f s).snsOn = (f (advance dt s)).snsOn := by
  unfold always; simp

@[simp] theorem always_free (dt : Nat) (f : State → State) (s : State) : (always dt f s).free = (f (advance dt s)).free := by
  unfold always; simp

@[simp] theorem always_salts (dt : Nat) (f : State → State) (s : State) : (always dt f s).salts = (f (advance dt s)).salts := by
  unfold always; simp


@[simp] theorem part_always (dt : Nat) (f : State → State) (s : State) (p : Nat) : part (always dt f s) p = part (f (advance dt s)) p :=
  part_congr (by simp) (by simp) p

@[simp] theorem pst_always (dt : Nat) (f : State → State) (s : State) (p : Nat) : pst (always dt f s) p = pst (f (advance dt s)) p := by
  simp [pst]

@[simp] theorem isEnabled_always (dt : Nat) (f : State → State) (s : State) (p : Nat) :
    isEnabled (always dt f s) p = isEnabled (f (advance dt s)) p := by simp [isEnabled]

end Sys2Proof.Laws
end

