-- ==== Sys2Proof/Laws/Fields.lean ====
section
/-! SUPPORT. Bit fields of register words: a field that was written reads back, and the other fields stay. -/

namespace Sys2Proof.Laws

open Sys2Proof.Machine

/-- A word as what lies above a field, the field, and what lies below it. -/
theorem word_split (a lo n : Nat) : a = a / 2 ^ (lo + n) * 2 ^ (lo + n) + a / 2 ^ lo % 2 ^ n * 2 ^ lo + a % 2 ^ lo := by
  have h1 : a / 2 ^ lo = a / 2 ^ (lo + n) * 2 ^ n + a / 2 ^ lo % 2 ^ n := by
    rw [Nat.pow_add, ← Nat.div_div_eq_div_mul, Nat.mul_comm]
    exact (Nat.div_add_mod _ _).symm
  have h2 : a = a / 2 ^ lo * 2 ^ lo + a % 2 ^ lo := by rw [Nat.mul_comm]; exact (Nat.div_add_mod _ _).symm
  have h3 : a / 2 ^ lo * 2 ^ lo = (a / 2 ^ (lo + n) * 2 ^ n + a / 2 ^ lo % 2 ^ n) * 2 ^ lo := by rw [← h1]
  have h4 : a / 2 ^ (lo + n) * 2 ^ (lo + n) = a / 2 ^ (lo + n) * 2 ^ n * 2 ^ lo := by
    rw [Nat.pow_add, Nat.mul_assoc, Nat.mul_comm (2 ^ n) (2 ^ lo)]
  rw [Nat.add_mul, ← h4] at h3
  omega

theorem field_of_parts (q f r lo n : Nat) (hf : f < 2 ^ n) (hr : r < 2 ^ lo) : (q * 2 ^ (lo + n) + f * 2 ^ lo + r) / 2 ^ lo % 2 ^ n = f := by
  have e : q * 2 ^ (lo + n) + f * 2 ^ lo + r = (q * 2 ^ n + f) * 2 ^ lo + r := by
    rw [Nat.add_mul, Nat.pow_add, Nat.mul_assoc, Nat.mul_comm (2 ^ lo) (2 ^ n)]
  rw [e, Nat.add_comm, Nat.add_mul_div_right _ _ (Nat.two_pow_pos lo), Nat.div_eq_of_lt hr, Nat.zero_add, Nat.add_comm, Nat.add_mul_mod_self_right,
    Nat.mod_eq_of_lt hf]

/-- The number that a word with a field replaced has. -/
theorem setFld_toNat (w : Word) {hi lo v : Nat} (h : lo ≤ hi) (hh : hi < 64) :
    (setFld w hi lo v).toNat = w.toNat / 2 ^ (hi + 1) * 2 ^ (hi + 1) + v % 2 ^ (hi + 1 - lo) * 2 ^ lo + w.toNat % 2 ^ lo := by
  obtain ⟨n, hn⟩ : ∃ n, hi + 1 = lo + n := ⟨hi + 1 - lo, by omega⟩
  have hn2 : hi + 1 - lo = n := by omega
  unfold setFld fld fieldN
  rw [hn2, hn, BitVec.toNat_ofNat]
  have hs := word_split w.toNat lo n
  have hv : v % 2 ^ n < 2 ^ n := Nat.mod_lt _ (Nat.two_pow_pos n)
  have hr : w.toNat % 2 ^ lo < 2 ^ lo := Nat.mod_lt _ (Nat.two_pow_pos lo)
  have hq : w.toNat / 2 ^ (lo + n) < 2 ^ (64 - (lo + n)) := by
    apply Nat.div_lt_of_lt_mul
    rw [← Nat.pow_add, Nat.add_sub_cancel' (by omega)]
    exact w.isLt
  have hb : w.toNat / 2 ^ (lo + n) * 2 ^ (lo + n) + v % 2 ^ n * 2 ^ lo + w.toNat % 2 ^ lo < 2 ^ 64 := by
    have h1 : (v % 2 ^ n + 1) * 2 ^ lo ≤ 2 ^ n * 2 ^ lo := Nat.mul_le_mul_right _ hv
    have h2 : (w.toNat / 2 ^ (lo + n) + 1) * 2 ^ (lo + n) ≤ 2 ^ (64 - (lo + n)) * 2 ^ (lo + n) := Nat.mul_le_mul_right _ hq
    rw [← Nat.pow_add, Nat.sub_add_cancel (by omega : lo + n ≤ 64)] at h2
    rw [← Nat.pow_add, Nat.add_comm n lo] at h1
    rw [Nat.add_mul] at h1 h2
    omega
  have e : w.toNat - w.toNat / 2 ^ lo % 2 ^ n * 2 ^ lo + v % 2 ^ n * 2 ^ lo =
      w.toNat / 2 ^ (lo + n) * 2 ^ (lo + n) + v % 2 ^ n * 2 ^ lo + w.toNat % 2 ^ lo := by omega
  rw [e, Nat.mod_eq_of_lt hb]

/-- A field that was written reads back. -/
theorem fld_setFld (w : Word) {hi lo : Nat} (v : Nat) (h : lo ≤ hi) (hh : hi < 64) : fld (setFld w hi lo v) hi lo = v % 2 ^ (hi + 1 - lo) := by
  obtain ⟨n, hn⟩ : ∃ n, hi + 1 = lo + n := ⟨hi + 1 - lo, by omega⟩
  have hn2 : hi + 1 - lo = n := by omega
  unfold fld fieldN
  rw [setFld_toNat w h hh, hn2, hn]
  exact field_of_parts _ _ _ _ _ (Nat.mod_lt _ (Nat.two_pow_pos n)) (Nat.mod_lt _ (Nat.two_pow_pos lo))

/-- A field above the one written stays. -/
theorem fld_setFld_above (w : Word) {hi lo a b : Nat} (v : Nat) (h : lo ≤ hi) (hh : hi < 64) (hb : hi < b) :
    fld (setFld w hi lo v) a b = fld w a b := by
  unfold fld fieldN
  rw [setFld_toNat w h hh]
  have e : b = hi + 1 + (b - (hi + 1)) := by omega
  have hlow : v % 2 ^ (hi + 1 - lo) * 2 ^ lo + w.toNat % 2 ^ lo < 2 ^ (hi + 1) := by
    have h1 : (v % 2 ^ (hi + 1 - lo) + 1) * 2 ^ lo ≤ 2 ^ (hi + 1 - lo) * 2 ^ lo :=
      Nat.mul_le_mul_right _ (Nat.mod_lt _ (Nat.two_pow_pos _))
    rw [← Nat.pow_add, Nat.sub_add_cancel (by omega : lo ≤ hi + 1), Nat.add_mul] at h1
    have := Nat.mod_lt w.toNat (Nat.two_pow_pos lo)
    omega
  have d : (w.toNat / 2 ^ (hi + 1) * 2 ^ (hi + 1) + v % 2 ^ (hi + 1 - lo) * 2 ^ lo + w.toNat % 2 ^ lo) / 2 ^ (hi + 1) = w.toNat / 2 ^ (hi + 1) := by
    rw [Nat.add_assoc, Nat.add_comm, Nat.add_mul_div_right _ _ (Nat.two_pow_pos _), Nat.div_eq_of_lt hlow, Nat.zero_add]
  have hx : ∀ m : Nat, m / 2 ^ b = m / 2 ^ (hi + 1) / 2 ^ (b - (hi + 1)) := by
    intro m; rw [Nat.div_div_eq_div_mul, ← Nat.pow_add, ← e]
  rw [hx, hx w.toNat, d]

/-- A saturating count reads one more, up to the greatest number its field holds. -/
theorem fld_satFld (w : Word) {hi lo : Nat} (n : Nat) (h : lo ≤ hi) (hh : hi < 64) :
    fld (satFld w hi lo n) hi lo = min (fld w hi lo + n) (2 ^ (hi + 1 - lo) - 1) := by
  unfold satFld
  rw [fld_setFld w _ h hh]
  have := Nat.two_pow_pos (hi + 1 - lo)
  exact Nat.mod_eq_of_lt (by omega)

end Sys2Proof.Laws
end

