-- ==== Sys2Proof/Laws/Finish.lean ====
section
/-! SUPPORT. What follows a command, field by field: of the verdicts it touches the block's own epochs and what is owed, of the tests
their clock, of the registers the Treadle's page, and of the Treadle nothing unless the emission has come to the host. -/

namespace Sys2Proof.Laws

open Sys2Proof.Machine Sys2Proof.Safety

/-! ### The register words -/

theorem regKey_inj {p o q u : Nat} (ho : o < 4096) (hu : u < 4096) (hm : o % 8 = 0) (hn : u % 8 = 0) (h : ¬(q = p ∧ u = o)) :
    regKey q u ≠ regKey p o := by
  unfold regKey; omega

theorem regGet_regPut_other (s : State) {p o q u : Nat} (w : Word) (ho : o < 4096) (hu : u < 4096) (hm : o % 8 = 0) (hn : u % 8 = 0)
    (h : ¬(q = p ∧ u = o)) : regGet (regPut s p o w) q u = regGet s q u :=
  mget_mset_apart _ _ _ _ (regKey_inj ho hu hm hn h)

theorem SameRegs.refl (P : Nat → Nat → Bool) (s : State) : SameRegs P s s := fun _ _ _ _ _ => rfl

theorem SameRegs.trans {P : Nat → Nat → Bool} {s t u : State} (h : SameRegs P s t) (h' : SameRegs P t u) : SameRegs P s u :=
  fun p o hp ho hm => (h' p o hp ho hm).trans (h p o hp ho hm)

theorem SameRegs.of_eq {P : Nat → Nat → Bool} {s t u : State} (hi : u.inst = t.inst) (hr : u.regs = t.regs) (h : SameRegs P s t) :
    SameRegs P s u :=
  fun p o hp ho hm => (regGet_congr hi hr p o).trans (h p o hp ho hm)

theorem regPut_sameRegs {P : Nat → Nat → Bool} {s t : State} {p o : Nat} {w : Word} (hp : P p o = true) (ho : o < 4096) (hm : o % 8 = 0)
    (h : SameRegs P s t) : SameRegs P s (regPut t p o w) := fun q u hq hu hn => by
  rw [regGet_regPut_other _ _ ho hu hm hn (by rintro ⟨rfl, rfl⟩; simp [hp] at hq)]
  exact h q u hq hu hn

theorem settleTgt_sameRegs {P : Nat → Nat → Bool} {s t : State} {n : Nat} (hp : ∀ p o, fullWord p o = true → P p o = true) (hn : n < 16)
    (h : SameRegs P s t) : SameRegs P s (settleTgt t n) := by
  unfold settleTgt; dsimp only
  split
  · exact SameRegs.of_eq (by simp) (by simp) h
  · exact regPut_sameRegs (hp _ _ (by simp [fullWord])) (by omega) (by omega) (SameRegs.of_eq (by simp) (by simp) h)

theorem foldl_settleTgt_sameRegs {P : Nat → Nat → Bool} {s : State} (hp : ∀ p o, fullWord p o = true → P p o = true) :
    ∀ (l : List Nat) (t : State), (∀ n ∈ l, n < 16) → SameRegs P s t → SameRegs P s (l.foldl settleTgt t)
  | [], _, _, h => h
  | n :: l, t, hl, h =>
    foldl_settleTgt_sameRegs hp l _ (fun m hm => hl m (by simp [hm])) (settleTgt_sameRegs hp (hl n (by simp)) h)

theorem settle_sameRegs {P : Nat → Nat → Bool} {s t : State} (hp : ∀ p o, fullWord p o = true → P p o = true) (hn : t.inst.targets ≤ 16)
    (h : SameRegs P s t) : SameRegs P s (settle t) :=
  foldl_settleTgt_sameRegs hp _ _ (fun n hm => by have := List.mem_range.mp hm; omega) h

theorem srcEvent_regs (n st : Nat) (l : Bool) (s : State) : (srcEvent n st l s).regs = s.regs := by simp [srcEvent]

theorem srcEvent_inst (n st : Nat) (l : Bool) (s : State) : (srcEvent n st l s).inst = s.inst := by simp [srcEvent]

theorem raise_sameRegs {P : Nat → Nat → Bool} {s t : State} {n : Nat} (hp : ∀ p o, fullWord p o = true → P p o = true)
    (hn : t.inst.targets ≤ 16) (h : SameRegs P s t) : SameRegs P s (raise n t) := by
  unfold raise
  split
  · exact settle_sameRegs hp (by simpa [srcEvent_inst] using hn) (SameRegs.of_eq (srcEvent_inst ..) (srcEvent_regs ..) h)
  · split
    · exact h
    · split
      · exact h
      · exact SameRegs.of_eq (by simp) (by simp) h

theorem raise_regGet (n : Nat) (s : State) (ht : s.inst.targets ≤ 16) {p o : Nat} (hp : fullWord p o = false) (ho : o < 4096)
    (hm : o % 8 = 0) : regGet (raise n s) p o = regGet s p o :=
  raise_sameRegs (P := fullWord) (fun _ _ h => h) ht (SameRegs.refl _ _) p o hp ho hm

/-- What recording an error in a page changes: its PAGE_ERR and PAGE_EVENT. -/
theorem recordErr_sameRegs {P : Nat → Nat → Bool} {s t : State} {p : Nat} {l : List Nat} (h1 : P p 0x28 = true) (h2 : P p 0x38 = true)
    (h : SameRegs P s t) : SameRegs P s (recordErr p l t) :=
  regPut_sameRegs h2 (by decide) (by decide) (regPut_sameRegs h1 (by decide) (by decide) h)

theorem setErr_sameRegs {P : Nat → Nat → Bool} {s t : State} {p b : Nat} (hp : ∀ p o, fullWord p o = true → P p o = true)
    (hn : t.inst.targets ≤ 16) (h1 : P p 0x28 = true) (h2 : P p 0x38 = true) (h : SameRegs P s t) : SameRegs P s (setErr p b t) := by
  unfold setErr; dsimp only
  split
  · exact recordErr_sameRegs h1 h2 h
  · exact raise_sameRegs hp (by simpa using hn) (recordErr_sameRegs h1 h2 h)

theorem setPortErr_sameRegs {P : Nat → Nat → Bool} {s t : State} {p b : Nat} (hp : ∀ p o, fullWord p o = true → P p o = true)
    (hn : t.inst.targets ≤ 16) (h1 : P p 0x28 = true) (h2 : P p 0x38 = true) (h : SameRegs P s t) : SameRegs P s (setPortErr p b t) := by
  unfold setPortErr; dsimp only
  split
  · exact recordErr_sameRegs h1 h2 h
  · exact raise_sameRegs hp (by simpa using hn) (recordErr_sameRegs h1 h2 h)

/-- Recording an error sets its bits in PAGE_ERR, beside those that were set. -/
theorem recordErr_word (p : Nat) (l : List Nat) (s : State) (hm : msorted s.regs = true) :
    regGet (recordErr p l s) p 0x28 = l.foldl (fun w b => w ||| (1#64 <<< b)) (regGet s p 0x28) := by
  unfold recordErr; dsimp only
  rw [regGet_regPut_other _ _ (by decide) (by decide) (by decide) (by decide) (by omega), regGet_regPut _ _ _ _ hm]

theorem setErr_word (p b : Nat) (s : State) (hm : msorted s.regs = true) (ht : s.inst.targets ≤ 16) :
    regGet (setErr p b s) p 0x28 = regGet s p 0x28 ||| (1#64 <<< b) := by
  unfold setErr; dsimp only
  split
  · rw [recordErr_word _ _ _ hm]; rfl
  · rw [raise_regGet _ _ (by simpa using ht) (by simp [fullWord]) (by decide) (by decide), recordErr_word _ _ _ hm]; rfl

theorem setPortErr_word (p b : Nat) (s : State) (hm : msorted s.regs = true) (ht : s.inst.targets ≤ 16) :
    regGet (setPortErr p b s) p 0x28 = regGet s p 0x28 ||| (1#64 <<< b) ||| (1#64 <<< 62) := by
  unfold setPortErr; dsimp only
  split
  · rw [recordErr_word _ _ _ hm]; rfl
  · rw [raise_regGet _ _ (by simpa using ht) (by simp [fullWord]) (by decide) (by decide), recordErr_word _ _ _ hm]; rfl

/-! ### What follows a command -/

/-- The fields that settled epochs and ended intervals touch. -/
theorem settled_same (s : State) : Same (fun f => [Fld.lapsed, .ver].contains f) s (endLapses (settleEpochs s)) :=
  endLapses_same rfl (settleEpochs_same rfl (Same.refl _ _))

@[simp] theorem fwOwner_settled (s : State) : fwOwner (endLapses (settleEpochs s)) = fwOwner s := by
  have h := settled_same s
  have e1 : (endLapses (settleEpochs s)).fw = s.fw := Same.get (f := .fw) h rfl
  have e2 : (endLapses (settleEpochs s)).parts = s.parts := Same.get (f := .parts) h rfl
  have e3 : (endLapses (settleEpochs s)).booting = s.booting := Same.get (f := .booting) h rfl
  simp [fwOwner, isWorking, pst, part_congr e3 e2, e1]

theorem ownerChange_of (was : Nat) (s : State) (h : fwOwner s = 1 → was = 1) : ownerChange was s = s := by
  unfold ownerChange
  split
  · rename_i c; simp at c; exact absurd (h c.1) c.2
  · rfl

theorem rest_same (s : State) : Same (fun f => [Fld.rport, .adopts, .tests].contains f) s (settleReads (freezeTests s)) :=
  settleReads_same rfl rfl (freezeTests_same rfl (Same.refl _ _))

theorem finish_sameRegs {P : Nat → Nat → Bool} {s t : State} (was : Nat) (hp : ∀ p o, fullWord p o = true → P p o = true)
    (ht : t.inst.targets ≤ 16) (h : SameRegs P s t) : SameRegs P s (finish was t) := by
  unfold finish; split
  · exact h
  · have h1 := settled_same t
    have e1 : (endLapses (settleEpochs t)).inst = t.inst := Same.get (f := .inst) h1 rfl
    have e2 : (endLapses (settleEpochs t)).regs = t.regs := Same.get (f := .regs) h1 rfl
    have h0 : SameRegs P s (endLapses (settleEpochs t)) := SameRegs.of_eq e1 e2 h
    have h2 : SameRegs P s (ownerChange was (endLapses (settleEpochs t))) := by
      unfold ownerChange
      split
      · exact raise_sameRegs hp (by simpa [e1] using ht) (SameRegs.of_eq (by simp) (by simp) h0)
      · exact h0
    have h3 := rest_same (ownerChange was (endLapses (settleEpochs t)))
    have e3 := Same.get (f := .inst) h3 rfl
    have e4 := Same.get (f := .regs) h3 rfl
    exact SameRegs.of_eq e3 e4 h2

theorem finish_regGet (was : Nat) (s : State) (ht : s.inst.targets ≤ 16) {p o : Nat} (hp : fullWord p o = false) (ho : o < 4096)
    (hm : o % 8 = 0) : regGet (finish was s) p o = regGet s p o :=
  finish_sameRegs (P := fullWord) was (fun _ _ h => h) ht (SameRegs.refl _ _) p o hp ho hm

theorem finish_trd (was : Nat) (s : State) (h : fwOwner s = was) : (finish was s).trd = s.trd := by
  unfold finish; split
  · rfl
  · show (settleReads (freezeTests (ownerChange was (endLapses (settleEpochs s))))).trd = _
    rw [ownerChange_of _ _ (by simp [h])]
    exact (Same.get (f := .trd) (rest_same _) rfl).trans (Same.get (f := .trd) (settled_same s) rfl)

/-- The verdicts apart from the block's own epochs and what is owed. -/
def verRest (v : Verdicts) : Verdicts := { v with own := State.reset.ver.own, owed := 0 }

theorem verRest_updOwn (f : Own → Own) (s : State) : verRest (updOwn f s).ver = verRest s.ver := rfl

theorem verRest_settleEpochs (s : State) : verRest (settleEpochs s).ver = verRest s.ver := by
  unfold settleEpochs settleFrom
  split
  · rfl
  · have : ∀ (c : Prop) [Decidable c] (f : Own → Own), verRest (if c then updOwn f s else s).ver = verRest s.ver := by
      intro c _ f; split <;> rfl
    exact this _ _

theorem verRest_settleFrom (b : Int) (s : State) : verRest (settleFrom b s).ver = verRest s.ver := by
  unfold settleFrom
  split
  · rfl
  · have : ∀ (c : Prop) [Decidable c] (f : Own → Own), verRest (if c then updOwn f s else s).ver = verRest s.ver := by
      intro c _ f; split <;> rfl
    exact this _ _

theorem advance_verRest (dt : Nat) (s : State) : verRest (advance dt s).ver = verRest s.ver := by
  unfold advance; dsimp only; split
  · rfl
  · exact verRest_settleFrom _ _

theorem finish_verRest (was : Nat) (s : State) : verRest (finish was s).ver = verRest s.ver := by
  unfold finish; split
  · rfl
  · show verRest (settleReads (freezeTests (ownerChange was (endLapses (settleEpochs s))))).ver = _
    rw [show (settleReads (freezeTests (ownerChange was (endLapses (settleEpochs s))))).ver = _ from Same.get (f := .ver) (rest_same _) rfl]
    have h : verRest (ownerChange was (endLapses (settleEpochs s))).ver = verRest (endLapses (settleEpochs s)).ver := by
      unfold ownerChange
      split
      · simp; rfl
      · rfl
    exact h.trans (verRest_settleEpochs s)

theorem finish_ver (was : Nat) (s : State) (hb : s.booting = false) (h : fwOwner s = was) : (finish was s).ver = (settleEpochs s).ver := by
  unfold finish; rw [if_neg (by simp [hb])]
  show (settleReads (freezeTests (ownerChange was (endLapses (settleEpochs s))))).ver = _
  rw [show (settleReads (freezeTests (ownerChange was (endLapses (settleEpochs s))))).ver = _ from Same.get (f := .ver) (rest_same _) rfl,
    ownerChange_of _ _ (by simp [h])]
  rfl

/-- The tests apart from their clock. -/
def testsRest (t : Tests) : Tests := { t with frozen := none, states := [] }

theorem testsRest_freezeTests (s : State) : testsRest (freezeTests s).tests = testsRest s.tests := by
  unfold freezeTests; split
  · split <;> rfl
  · split <;> rfl

theorem settleReads_same' (s : State) : Same (fun f => [Fld.rport, .adopts].contains f) s (settleReads s) :=
  settleReads_same rfl rfl (Same.refl _ _)

theorem finish_testsRest (was : Nat) (s : State) : testsRest (finish was s).tests = testsRest s.tests := by
  unfold finish; split
  · rfl
  · show testsRest (settleReads (freezeTests (ownerChange was (endLapses (settleEpochs s))))).tests = _
    rw [show (settleReads (freezeTests (ownerChange was (endLapses (settleEpochs s))))).tests = _ from
      Same.get (f := .tests) (settleReads_same' _) rfl, testsRest_freezeTests]
    have h : (ownerChange was (endLapses (settleEpochs s))).tests = (endLapses (settleEpochs s)).tests := by
      unfold ownerChange; split <;> simp
    rw [h]
    exact congrArg testsRest (Same.get (f := .tests) (settled_same s) rfl)

theorem always_regGet (dt : Nat) (f : State → State) (s : State) (ht : (f (advance dt s)).inst.targets ≤ 16) {p o : Nat}
    (hp : fullWord p o = false) (ho : o < 4096) (hm : o % 8 = 0) : regGet (always dt f s) p o = regGet (f (advance dt s)) p o :=
  finish_regGet _ _ ht hp ho hm

theorem always_trd (dt : Nat) (f : State → State) (s : State) (h : fwOwner (f (advance dt s)) = fwOwner (advance dt s)) :
    (always dt f s).trd = (f (advance dt s)).trd := finish_trd _ _ h

theorem always_verRest (dt : Nat) (f : State → State) (s : State) : verRest (always dt f s).ver = verRest (f (advance dt s)).ver :=
  finish_verRest _ _

theorem always_testsRest (dt : Nat) (f : State → State) (s : State) : testsRest (always dt f s).tests = testsRest (f (advance dt s)).tests :=
  finish_testsRest _ _

end Sys2Proof.Laws
end

