-- ==== Sys2Proof/Laws/Port.lean ====
section
/-! SUPPORT. What the register port does with an access that Table RM-8 lets through: an action, a write, a read. -/

namespace Sys2Proof.Laws

open Sys2Proof.Machine Sys2Proof.Safety

theorem isHome_kind {i : Inst} {p : Nat} (h : isHome i p = true) : ∃ k, pageKind i p = some k ∧ homeOf i k p = p := by
  unfold isHome at h
  split at h
  · exact ⟨_, by assumption, by simpa using h⟩
  · simp at h

theorem pageKind_lt {i : Inst} {p : Nat} {k : PageKind} (h : pageKind i p = some k) : p < 8192 := by
  rcases Nat.lt_or_ge p 8192 with hp | hp
  · exact hp
  · simp (disch := omega) only [pageKind, if_neg, reduceCtorEq] at h

theorem pageKind_lnk (i : Inst) {n : Nat} (h : n < 96) :
    pageKind i (pgLnk n) = if n % 24 < i.linksPerDir then some (.lnk n) else none := by
  generalize e : pgLnk n = p
  simp only [pgLnk] at e
  simp (disch := omega) only [pageKind, if_neg]
  rw [if_pos (by omega), ← e, Nat.add_sub_cancel_left]

theorem pageKind_wit (i : Inst) {n : Nat} (h : n < 1024) :
    pageKind i (pgWit n) = if n < 4 * i.reeds then some (.wit n) else none := by
  generalize e : pgWit n = p
  simp only [pgWit] at e
  simp (disch := omega) only [pageKind, if_neg]
  rw [if_pos (by omega), ← e, Nat.add_sub_cancel_left]

theorem pageKind_reed (i : Inst) {r : Nat} (h : r < 256) :
    pageKind i (pgReed r) = if r < i.reeds then some (.reed r) else none := by
  generalize e : pgReed r = p
  simp only [pgReed] at e
  simp (disch := omega) only [pageKind, if_neg]
  rw [if_pos (by omega), ← e, Nat.add_sub_cancel_left]

theorem pageKind_hed (i : Inst) {h : Nat} (hh : h < 4096) :
    pageKind i (pgHed h) = if h < i.reeds * i.hpr then some (.hed h) else none := by
  generalize e : pgHed h = p
  simp only [pgHed] at e
  simp (disch := omega) only [pageKind, if_neg]
  rw [if_pos (by omega), ← e, Nat.add_sub_cancel_left]

theorem kindOf_eq {s : State} {p : Nat} {k : PageKind} (h : pageKind s.inst p = some k) : kindOf s p = k := by simp [kindOf, h]

/-- The row of PAGE_CTRL, the same on every page. -/
theorem regRow_ctrl (i : Inst) (k : PageKind) : regRow i k 0x18 = some ⟨0x18, 8, 1, 0, 0, false, 0, [], 0⟩ := rfl

theorem ctrlWord_code (code : Nat) (cond : Option (BitVec 32)) (h : code < 256) : fld (ctrlWord code cond) 7 0 = code := by
  unfold ctrlWord fld fieldN
  cases cond with
  | none => simp; omega
  | some e => simp [packW, pack]; omega

theorem ctrlWord_exp (code : Nat) (e : BitVec 32) : fld (ctrlWord code (some e)) 63 32 = e.toNat := by
  unfold ctrlWord fld fieldN
  have := e.isLt
  simp [packW, pack]; omega

theorem ctrlWord_bit (code : Nat) (h : code < 256) : bit (ctrlWord code none) 31 = false := by
  have : code / 2 ^ 31 = 0 := Nat.div_eq_of_lt (by omega)
  simp only [ctrlWord, bit, BitVec.getLsbD_ofNat, Nat.testBit_eq_decide_div_mod_eq, this]; decide

theorem condHolds_ctrlWord (s : State) (p code : Nat) (cond : Option (BitVec 32)) (hc : code < 256)
    (h : (match cond with
      | none => true
      | some e => e == (part s p).seq) = true) : condHolds s p (ctrlWord code cond) = true := by
  cases cond with
  | none => simp [condHolds, ctrlWord_bit code hc]
  | some e =>
    have he : e = (part s p).seq := by simpa using h
    subst he; simp [condHolds, ctrlWord_exp]

theorem tdiForbids_ctrl (s : State) (k : PageKind) (p : Nat) (d : Word) (h : ∀ r, k = .reed r → fld d 7 0 ≠ 0xB0) :
    tdiForbids s k p 0x18 d = false := by
  unfold tdiForbids
  cases k with
  | reed r => have := h r rfl; simp [this]
  | _ => simp

theorem inRange_ctrl (s : State) (k : PageKind) (d : Word) : inRange s k 0x18 ⟨0x18, 8, 1, 0, 0, false, 0, [], 0⟩ d = true := by
  unfold inRange
  cases k with
  | trd n => cases n <;> simp
  | _ => simp

theorem answer_ctrl {s : State} {p code : Nat} {cond : Option (BitVec 32)} (h : actionHeard s p code cond = true) (hc : code < 256)
    (hr : ∀ r, kindOf s p = .reed r → tdiForbids s (.reed r) p 0x18 (ctrlWord code cond) = false) {b : State} {cause : BitVec 8}
    (hd : doAction (kindOf s p) p code cause s = some b) :
    answer (ctrlAccess p code cond) cause s = (7, 0, b) := by
  simp only [actionHeard, Bool.and_eq_true] at h
  obtain ⟨⟨⟨_, hh⟩, ha⟩, hcond⟩ := h
  obtain ⟨k, hk, hhome⟩ := isHome_kind hh
  have hp := pageKind_lt hk
  have e := kindOf_eq hk
  subst e
  have hpage : (ctrlAccess p code cond).page = p := by simp only [Access.page, ctrlAccess]; omega
  have hoff : (ctrlAccess p code cond).off = 0x18 := by simp only [Access.off, ctrlAccess]; omega
  have htdi : tdiForbids s (kindOf s p) p 0x18 (ctrlWord code cond) = false := by
    cases hq : kindOf s p with
    | reed r => exact hr r hq
    | _ => exact tdiForbids_ctrl _ _ _ _ (by intro r he; cases he)
  have hw : writeRule (kindOf s p) p 0x18 ⟨0x18, 8, 1, 0, 0, false, 0, [], 0⟩ (ctrlWord code cond) cause s = (7, b) := by
    unfold writeRule
    rw [htdi, inRange_ctrl]
    simp [ctrlWrite, hhome, condHolds_ctrlWord s p code cond hc hcond, ctrlWord_code code cond hc, hd]
  have hwr : (ctrlAccess p code cond).wr = true := rfl
  have hdata : (ctrlAccess p code cond).data = ctrlWord code cond := rfl
  unfold answer
  rw [hpage, hoff, hk]
  simp only [regRow_ctrl, ha, hwr, hdata, hw]
  simp

/-- An action that is performed, once what had come due in the part is decided: the state after it, and OK at the port. -/
theorem action_performed {s u : State} {p code : Nat} {cond : Option (BitVec 32)} (hu : pageFirst p s = u) (h : actionHeard u p code cond = true)
    (hc : code < 256) (hr : ∀ r, kindOf u p = .reed r → tdiForbids u (.reed r) p 0x18 (ctrlWord code cond) = false) {b : State}
    (hd : doAction (kindOf u p) p code 0x01 u = some b) :
    action p code cond s = { b with port := { b.port with rsp := 0, rdata := 0 } } := by
  have hh := h
  simp only [actionHeard, Bool.and_eq_true] at hh
  have hready : s.ready = true := by simpa [← hu] using hh.1.1.1
  obtain ⟨k, hk, _⟩ := isHome_kind hh.1.1.2
  have hp := pageKind_lt hk
  have hpage : (ctrlAccess p code cond).page = p := by simp only [Access.page, ctrlAccess]; omega
  unfold action portAccess
  rw [if_pos hready]
  unfold serve answered
  rw [hpage, hu, answer_ctrl h hc hr hd]
  rfl

theorem actionHeard_advance (dt : Nat) (s : State) (p code : Nat) (cond : Option (BitVec 32)) :
    actionHeard (advance dt s) p code cond = actionHeard s p code cond := by
  simp [actionHeard, hubAnswers]

/-- A write that rules 1 to 5 let through, with its row. -/
theorem portAccess_write {s u : State} {k : PageKind} {p off : Nat} {d : Word} (hu : pageFirst p s = u) (h : writeHeard u k p off d = true)
    {row : RegRow} (hrow : regRow u.inst k off = some row) {b : State} (hw : writeWord k p off row d u = (7, b)) :
    portAccess (writeAccess p off d) s = { b with port := { b.port with rsp := 0, rdata := 0 } } := by
  simp only [writeHeard, Bool.and_eq_true, decide_eq_true_eq, Bool.not_eq_true'] at h
  obtain ⟨⟨⟨⟨⟨⟨⟨hready, ho⟩, hm⟩, hne⟩, hk⟩, ha⟩, htdi⟩, hr⟩ := h
  rw [hrow] at hr
  simp only [Bool.and_eq_true, Bool.not_eq_true'] at hr
  have hp := pageKind_lt hk
  have hpage : (writeAccess p off d).page = p := by simp only [Access.page, writeAccess]; omega
  have hoff : (writeAccess p off d).off = off := by simp only [Access.off, writeAccess]; omega
  have hwr : (writeAccess p off d).wr = true := rfl
  have hdata : (writeAccess p off d).data = d := rfl
  have hready : s.ready = true := by simpa [← hu] using hready
  have hrule : writeRule k p off row d 0x01 u = (7, b) := by
    unfold writeRule
    rw [htdi, hr.1, hr.2]
    simp [hne, hw]
  have hans : answer (writeAccess p off d) 0x01 u = (7, 0, b) := by
    unfold answer
    rw [hpage, hoff, hk]
    simp only [hrow, ha, hwr, hdata, hrule]
    simp
  unfold portAccess
  rw [if_pos hready]
  unfold serve answered
  rw [hpage, hu, hans]
  rfl

/-- A read that rules 1 and 2 let through. -/
theorem portAccess_read {s u : State} {k : PageKind} {p off : Nat} (hu : pageFirst p s = u) (h : readHeard u k p off = true) {row : RegRow}
    (hrow : regRow u.inst k off = some row) {w : Word} {b : State} (hw : readWord k p off row u = some (w, b)) :
    portAccess (readAccess p off) s = { b with port := { b.port with rsp := 0, rdata := w } } := by
  simp only [readHeard, Bool.and_eq_true, decide_eq_true_eq] at h
  obtain ⟨⟨⟨⟨⟨hready, ho⟩, hm⟩, hk⟩, _⟩, ha⟩ := h
  have hp := pageKind_lt hk
  have hpage : (readAccess p off).page = p := by simp only [Access.page, readAccess]; omega
  have hoff : (readAccess p off).off = off := by simp only [Access.off, readAccess]; omega
  have hwr : (readAccess p off).wr = false := rfl
  have hready : s.ready = true := by simpa [← hu] using hready
  have hans : answer (readAccess p off) 0x01 u = (7, w, b) := by
    unfold answer
    rw [hpage, hoff, hk]
    simp only [hrow, ha, hwr, hw]
    simp
  unfold portAccess
  rw [if_pos hready]
  unfold serve answered
  rw [hpage, hu, hans]
  rfl

/-! ### An access that Table RM-8 turns away under a rule other than 6 -/

/-- The count that a response of a rule adds to. -/
def rejectWord (rule : Nat) : Nat := if rule = 1 then 0x58 else 0x50

theorem rejectWord_cases (rule : Nat) : rejectWord rule = 0x58 ∨ rejectWord rule = 0x50 := by
  unfold rejectWord; split
  · exact .inl rfl
  · exact .inr rfl

theorem reject_eq (a : Access) {rule : Nat} (s : State) (h : rule ≠ 6) :
    ∃ w, reject a rule s = regPut (bump s pgHub (rejectWord rule) 31 0 1) pgHub 0x60 w := by
  unfold reject rejectWord; dsimp only; rw [if_neg h]; exact ⟨_, rfl⟩

theorem portAccess_refused {a : Access} {rule : Nat} {s u : State} (hu : pageFirst a.page s = u) (hr : s.ready = true) (h7 : rule ≠ 7)
    (ha : answer a 0x01 u = (rule, 0, u)) :
    portAccess a s = { (reject a rule u) with port := { (reject a rule u).port with rsp := rspOf rule, rdata := 0 } } := by
  unfold portAccess; rw [if_pos hr]; unfold serve answered; rw [hu, ha]; simp only [if_neg h7]

theorem reject_count {a : Access} {rule : Nat} {s : State} (h6 : rule ≠ 6) (hm : msorted s.regs = true) :
    regGet (reject a rule s) pgHub (rejectWord rule) = satFld (regGet s pgHub (rejectWord rule)) 31 0 1 := by
  obtain ⟨w, e⟩ := reject_eq a s h6
  have hc := rejectWord_cases rule
  rw [e, regGet_regPut_other _ _ (by decide) (by omega) (by decide) (by omega) (by omega)]
  exact regGet_regPut _ _ _ _ hm

theorem reject_sameRegs {P : Nat → Nat → Bool} {a : Access} {rule : Nat} {s : State} (h6 : rule ≠ 6) (h1 : P pgHub (rejectWord rule) = true)
    (h2 : P pgHub 0x60 = true) : SameRegs P s (reject a rule s) := by
  obtain ⟨w, e⟩ := reject_eq a s h6
  have hc := rejectWord_cases rule
  rw [e]
  exact regPut_sameRegs h2 (by decide) (by decide) (regPut_sameRegs h1 (by omega) (by omega) (SameRegs.refl _ _))

/-! ### The footprint of an access -/

/-- An access touches what its answer touches, and what a response other than OK records. -/
theorem portAccess_foot {F : Fld → Bool} {s t : State} {a : Access} (h_port : F .port = true) (h_regs : F .regs = true)
    (h_parts : F .parts = true) (h_trd : F .trd = true) (h : Same F s t) (ha : Same F s (answer a 0x01 (pageFirst a.page t)).2.2) :
    Same F s (portAccess a t) := by
  unfold portAccess
  split
  · unfold serve answered
    apply Same.set_port h_port
    dsimp only
    split
    · exact ha
    · exact reject_same h_regs h_parts h_trd ha
  · split
    · exact Same.set_port h_port h
    · exact bump_same h_regs (setPortErr_same h_regs h_trd h)

/-- The footprint of an action on a page: its own, and what a refusal notes. -/
theorem action_foot {F : Fld → Bool} {s t u : State} {p code : Nat} {cond : Option (BitVec 32)} (h_port : F .port = true)
    (h_regs : F .regs = true) (h_parts : F .parts = true) (h_trd : F .trd = true) (hc : code < 256) (h : Same F s t)
    (hu : pageFirst (p % 8192) t = u) (hs : Same F s u)
    (hd : ∀ k, pageKind u.inst (p % 8192) = some k → SameO F s (doAction k (p % 8192) code 0x01 u)) : Same F s (action p code cond t) := by
  refine portAccess_foot h_port h_regs h_parts h_trd h ?_
  have hpage : (ctrlAccess p code cond).page = p % 8192 := by simp only [Access.page, ctrlAccess]; omega
  have hoff : (ctrlAccess p code cond).off = 0x18 := by simp only [Access.off, ctrlAccess]; omega
  have hwr : (ctrlAccess p code cond).wr = true := rfl
  have hdata : (ctrlAccess p code cond).data = ctrlWord code cond := rfl
  unfold answer
  rw [hpage, hoff, hu]
  cases hk : pageKind u.inst (p % 8192) with
  | none => exact hs
  | some k =>
    simp only [regRow_ctrl, hwr, hdata]
    split
    · exact hs
    · have h0 : Same F s (ctrlRefused k (p % 8192) (ctrlWord code cond) u) := ctrlRefused_same h_regs h_trd hs
      simp only [if_pos]
      unfold writeRule
      split
      · exact hs
      · split
        · exact hs
        · split
          · exact hs
          · rw [if_pos rfl]
            unfold ctrlWrite
            split
            · rename_i v hv
              split at hv
              · rw [ctrlWord_code code cond hc] at hv; exact hd k hk _ hv
              · cases hv
            · exact h0

/-- The footprint of a write of a word that is not PAGE_CTRL. -/
theorem write_foot {F : Fld → Bool} {s t u : State} {p off : Nat} {d : Word} (h_port : F .port = true)
    (h_regs : F .regs = true) (h_parts : F .parts = true) (h_trd : F .trd = true) (ho : off < 4096) (hm : off % 8 = 0)
    (hne : off ≠ 0x18) (h : Same F s t) (hu : pageFirst (p % 8192) t = u) (hs : Same F s u)
    (hd : ∀ k row, pageKind u.inst (p % 8192) = some k → Same F s (writeWord k (p % 8192) off row d u).2) : Same F s (portAccess (writeAccess p off d) t) := by
  refine portAccess_foot h_port h_regs h_parts h_trd h ?_
  have hpage : (writeAccess p off d).page = p % 8192 := by simp only [Access.page, writeAccess]; omega
  have hoff : (writeAccess p off d).off = off := by simp only [Access.off, writeAccess]; omega
  have hwr : (writeAccess p off d).wr = true := rfl
  have hdata : (writeAccess p off d).data = d := rfl
  unfold answer
  rw [hpage, hoff, hu]
  cases hk : pageKind u.inst (p % 8192) with
  | none => exact hs
  | some k =>
    cases hrow : regRow u.inst k off with
    | none => simp only [hrow]; exact hs
    | some row =>
      simp only [hrow, hwr, hdata]
      split
      · exact hs
      · simp only [if_pos]
        unfold writeRule
        split
        · exact hs
        · split
          · exact hs
          · split
            · exact hs
            · try rw [if_neg hne]
              exact hd k row hk

/-- The footprint of a read. -/
theorem read_foot {F : Fld → Bool} {s t u : State} {p off : Nat} (h_port : F .port = true)
    (h_regs : F .regs = true) (h_parts : F .parts = true) (h_trd : F .trd = true) (ho : off < 4096) (hm : off % 8 = 0)
    (h : Same F s t) (hu : pageFirst (p % 8192) t = u) (hs : Same F s u) (hd : ∀ k row, pageKind u.inst (p % 8192) = some k → SameOP F s (readWord k (p % 8192) off row u)) :
    Same F s (portAccess (readAccess p off) t) := by
  refine portAccess_foot h_port h_regs h_parts h_trd h ?_
  have hpage : (readAccess p off).page = p % 8192 := by simp only [Access.page, readAccess]; omega
  have hoff : (readAccess p off).off = off := by simp only [Access.off, readAccess]; omega
  have hwr : (readAccess p off).wr = false := rfl
  unfold answer
  rw [hpage, hoff, hu]
  cases hk : pageKind u.inst (p % 8192) with
  | none => exact hs
  | some k =>
    cases hrow : regRow u.inst k off with
    | none => simp only [hrow]; exact hs
    | some row =>
      simp only [hrow, hwr]
      split
      · exact hs
      · simp only [Bool.false_eq_true, if_false]
        split
        · rename_i w v hv; exact hd k row hk w v hv
        · exact hs

end Sys2Proof.Laws
end

