-- ==== Sys2Proof/Laws/Sorted.lean ====
section
/-! SUPPORT. Every operation keeps the keyed stores of State in canonical form (keys strictly rising). -/

namespace Sys2Proof.Laws

set_option Elab.async false

open Sys2Proof.Machine

/-- The keyed stores of a state are in canonical form. -/
structure Sorted (s : State) : Prop where
  regs : msorted s.regs = true
  parts : msorted s.parts = true
  strs : msorted s.strs = true
  bobs : msorted s.bobs = true
  wports : msorted s.wports = true
  adopts : msorted s.adopts = true
  heds : msorted s.heds = true
  counts : msorted s.counts = true
  hedGovs : msorted s.hedGovs = true
  reedGovs : msorted s.reedGovs = true
  hedStops : msorted s.hedStops = true
  wits : msorted s.wits = true
  cards : msorted s.cards = true
  shadows : msorted s.shadows = true
  gates : msorted s.gates = true
  links : msorted s.links = true
  linkTimes : msorted s.linkTimes = true
  sens : msorted s.sens = true
  snsOn : msorted s.snsOn = true
  refused : msorted s.refused = true
  trd_srcs : msorted s.trd.srcs = true
  trd_tgts : msorted s.trd.tgts = true
  key_slots : msorted s.key.slots = true
  rport_tags : msorted s.rport.tags = true
  tests_states : msorted s.tests.states = true
  ver_led : msorted s.ver.led = true
  cal_lin : msorted s.cal.lin = true
  cal_linOld : msorted s.cal.linOld = true
  cal_words : msorted s.cal.words = true
  cal_store : msorted s.cal.store = true
  fw_image : msorted s.fw.image = true

@[reducible] def SortedO (o : Option State) : Prop := ∀ u, o = some u → Sorted u

theorem SortedO.none : SortedO none := by simp [SortedO]

theorem SortedO.some {t : State} (h : Sorted t) : SortedO (some t) := fun _ e => Option.some.inj e ▸ h

@[reducible] def SortedOP {α : Type} (o : Option (α × State)) : Prop := ∀ x u, o = some (x, u) → Sorted u

theorem SortedOP.none {α : Type} : SortedOP (none : Option (α × State)) := by simp [SortedOP]

theorem SortedOP.some {α : Type} {p : α × State} (h : Sorted p.2) : SortedOP (some p) := by
  intro x u e; cases e; exact h

theorem Sorted.ite {t u : State} {c : Prop} [Decidable c] (h : Sorted t) (h' : Sorted u) : Sorted (if c then t else u) := by
  split <;> assumption

theorem SortedO.ite {a b : Option State} {c : Prop} [Decidable c] (h : SortedO a) (h' : SortedO b) : SortedO (if c then a else b) := by
  split <;> assumption

theorem foldl_sorted {α : Type} {f : State → α → State} {l : List α} {t : State} (hf : ∀ t x, Sorted t → Sorted (f t x)) (h : Sorted t) :
    Sorted (l.foldl f t) := by
  induction l generalizing t with
  | nil => exact h
  | cons x l ih => exact ih (hf t x h)

theorem foldl2_sorted {α β : Type} {f : β × State → α → β × State} {l : List α} {a : β × State}
    (hf : ∀ a x, Sorted a.2 → Sorted (f a x).2) (h : Sorted a.2) : Sorted (l.foldl f a).2 := by
  induction l generalizing a with
  | nil => exact h
  | cons x l ih => exact ih (hf a x h)

theorem foldl2_sorted_eq {α β : Type} {f : β × State → α → β × State} {l : List α} {a : β × State} {x : β} {u : State}
    (hf : ∀ a x, Sorted a.2 → Sorted (f a x).2) (e : l.foldl f a = (x, u)) (h : Sorted a.2) : Sorted u := by
  have := foldl2_sorted hf h (l := l)
  rw [e] at this; exact this

theorem msorted_nil {α : Type} : msorted ([] : List (Nat × α)) = true := rfl

/-- A list with the same keys is as sorted. -/
theorem msorted_map {α β : Type} (f : Nat × α → Nat × β) (hf : ∀ e, (f e).1 = e.1) (m : List (Nat × α)) (h : msorted m = true) :
    msorted (m.map f) = true := by
  induction m with
  | nil => rfl
  | cons e m ih =>
    refine msorted_cons (ih (msorted_tail h)) fun g hg => ?_
    obtain ⟨k, hk, rfl⟩ := List.mem_map.mp hg
    rw [hf, hf]; exact msorted_lt h k hk

/-- A part of a sorted list is sorted. -/
theorem msorted_filter {α : Type} (f : Nat × α → Bool) (m : List (Nat × α)) (h : msorted m = true) : msorted (m.filter f) = true := by
  induction m with
  | nil => rfl
  | cons e m ih =>
    rw [List.filter_cons]
    split
    · exact msorted_cons (ih (msorted_tail h)) fun g hg => msorted_lt h g (List.mem_filter.mp hg).1
    · exact ih (msorted_tail h)

/-- An allocation keeps the ledger in canonical form. -/
theorem ledgerAlloc_sorted {d : Nat} {e : BitVec 16} {seen : Option (BitVec 16)} {led l : List (Nat × LedEnt)}
    (e' : ledgerAlloc d e seen led = some l) (h : msorted led = true) : msorted l = true := by
  unfold ledgerAlloc at e'
  dsimp only at e'
  split at e'
  · cases e'; exact msorted_mins _ _ _ h
  · split at e'
    · cases e'; exact msorted_mins _ _ _ (msorted_mdel _ _ h)
    · cases e'

/-- The ledger, with an entry for a die. -/
theorem ledgerFor_sorted {d : Nat} {e : BitVec 16} {led l : List (Nat × LedEnt)}
    (e' : (match mfind led d with
      | some _ => some led
      | none => ledgerAlloc d e none led) = some l) (h : msorted led = true) : msorted l = true := by
  split at e'
  · cases e'; exact h
  · exact ledgerAlloc_sorted e' h

theorem Sorted.set_pending {t : State} {v : List Instr} (h : Sorted t) : Sorted { t with pending := v } :=
  ⟨h.regs, h.parts, h.strs, h.bobs, h.wports, h.adopts, h.heds, h.counts, h.hedGovs, h.reedGovs, h.hedStops, h.wits, h.cards, h.shadows, h.gates, h.links, h.linkTimes, h.sens, h.snsOn, h.refused, h.trd_srcs, h.trd_tgts, h.key_slots, h.rport_tags, h.tests_states, h.ver_led, h.cal_lin, h.cal_linOld, h.cal_words, h.cal_store, h.fw_image⟩

theorem Sorted.set_inst {t : State} {v : Inst} (h : Sorted t) : Sorted { t with inst := v } :=
  ⟨h.regs, h.parts, h.strs, h.bobs, h.wports, h.adopts, h.heds, h.counts, h.hedGovs, h.reedGovs, h.hedStops, h.wits, h.cards, h.shadows, h.gates, h.links, h.linkTimes, h.sens, h.snsOn, h.refused, h.trd_srcs, h.trd_tgts, h.key_slots, h.rport_tags, h.tests_states, h.ver_led, h.cal_lin, h.cal_linOld, h.cal_words, h.cal_store, h.fw_image⟩

theorem Sorted.set_ready {t : State} {v : Bool} (h : Sorted t) : Sorted { t with ready := v } :=
  ⟨h.regs, h.parts, h.strs, h.bobs, h.wports, h.adopts, h.heds, h.counts, h.hedGovs, h.reedGovs, h.hedStops, h.wits, h.cards, h.shadows, h.gates, h.links, h.linkTimes, h.sens, h.snsOn, h.refused, h.trd_srcs, h.trd_tgts, h.key_slots, h.rport_tags, h.tests_states, h.ver_led, h.cal_lin, h.cal_linOld, h.cal_words, h.cal_store, h.fw_image⟩

theorem Sorted.set_booting {t : State} {v : Bool} (h : Sorted t) : Sorted { t with booting := v } :=
  ⟨h.regs, h.parts, h.strs, h.bobs, h.wports, h.adopts, h.heds, h.counts, h.hedGovs, h.reedGovs, h.hedStops, h.wits, h.cards, h.shadows, h.gates, h.links, h.linkTimes, h.sens, h.snsOn, h.refused, h.trd_srcs, h.trd_tgts, h.key_slots, h.rport_tags, h.tests_states, h.ver_led, h.cal_lin, h.cal_linOld, h.cal_words, h.cal_store, h.fw_image⟩

theorem Sorted.set_workHeld {t : State} {v : Bool} (h : Sorted t) : Sorted { t with workHeld := v } :=
  ⟨h.regs, h.parts, h.strs, h.bobs, h.wports, h.adopts, h.heds, h.counts, h.hedGovs, h.reedGovs, h.hedStops, h.wits, h.cards, h.shadows, h.gates, h.links, h.linkTimes, h.sens, h.snsOn, h.refused, h.trd_srcs, h.trd_tgts, h.key_slots, h.rport_tags, h.tests_states, h.ver_led, h.cal_lin, h.cal_linOld, h.cal_words, h.cal_store, h.fw_image⟩

theorem Sorted.set_port {t : State} {v : Port} (h : Sorted t) : Sorted { t with port := v } :=
  ⟨h.regs, h.parts, h.strs, h.bobs, h.wports, h.adopts, h.heds, h.counts, h.hedGovs, h.reedGovs, h.hedStops, h.wits, h.cards, h.shadows, h.gates, h.links, h.linkTimes, h.sens, h.snsOn, h.refused, h.trd_srcs, h.trd_tgts, h.key_slots, h.rport_tags, h.tests_states, h.ver_led, h.cal_lin, h.cal_linOld, h.cal_words, h.cal_store, h.fw_image⟩

theorem Sorted.set_regs {t : State} {v : List (Nat × Word)} (hv : msorted v = true) (h : Sorted t) : Sorted { t with regs := v } :=
  ⟨hv, h.parts, h.strs, h.bobs, h.wports, h.adopts, h.heds, h.counts, h.hedGovs, h.reedGovs, h.hedStops, h.wits, h.cards, h.shadows, h.gates, h.links, h.linkTimes, h.sens, h.snsOn, h.refused, h.trd_srcs, h.trd_tgts, h.key_slots, h.rport_tags, h.tests_states, h.ver_led, h.cal_lin, h.cal_linOld, h.cal_words, h.cal_store, h.fw_image⟩

theorem Sorted.set_parts {t : State} {v : List (Nat × Part)} (hv : msorted v = true) (h : Sorted t) : Sorted { t with parts := v } :=
  ⟨h.regs, hv, h.strs, h.bobs, h.wports, h.adopts, h.heds, h.counts, h.hedGovs, h.reedGovs, h.hedStops, h.wits, h.cards, h.shadows, h.gates, h.links, h.linkTimes, h.sens, h.snsOn, h.refused, h.trd_srcs, h.trd_tgts, h.key_slots, h.rport_tags, h.tests_states, h.ver_led, h.cal_lin, h.cal_linOld, h.cal_words, h.cal_store, h.fw_image⟩

theorem Sorted.set_audit {t : State} {v : Audit} (h : Sorted t) : Sorted { t with audit := v } :=
  ⟨h.regs, h.parts, h.strs, h.bobs, h.wports, h.adopts, h.heds, h.counts, h.hedGovs, h.reedGovs, h.hedStops, h.wits, h.cards, h.shadows, h.gates, h.links, h.linkTimes, h.sens, h.snsOn, h.refused, h.trd_srcs, h.trd_tgts, h.key_slots, h.rport_tags, h.tests_states, h.ver_led, h.cal_lin, h.cal_linOld, h.cal_words, h.cal_store, h.fw_image⟩

theorem Sorted.set_tim {t : State} {v : Time} (h : Sorted t) : Sorted { t with tim := v } :=
  ⟨h.regs, h.parts, h.strs, h.bobs, h.wports, h.adopts, h.heds, h.counts, h.hedGovs, h.reedGovs, h.hedStops, h.wits, h.cards, h.shadows, h.gates, h.links, h.linkTimes, h.sens, h.snsOn, h.refused, h.trd_srcs, h.trd_tgts, h.key_slots, h.rport_tags, h.tests_states, h.ver_led, h.cal_lin, h.cal_linOld, h.cal_words, h.cal_store, h.fw_image⟩

theorem Sorted.set_owed {t : State} {v : List Pick} (h : Sorted t) : Sorted { t with owed := v } :=
  ⟨h.regs, h.parts, h.strs, h.bobs, h.wports, h.adopts, h.heds, h.counts, h.hedGovs, h.reedGovs, h.hedStops, h.wits, h.cards, h.shadows, h.gates, h.links, h.linkTimes, h.sens, h.snsOn, h.refused, h.trd_srcs, h.trd_tgts, h.key_slots, h.rport_tags, h.tests_states, h.ver_led, h.cal_lin, h.cal_linOld, h.cal_words, h.cal_store, h.fw_image⟩

theorem Sorted.set_strs {t : State} {v : List (Nat × Strm)} (hv : msorted v = true) (h : Sorted t) : Sorted { t with strs := v } :=
  ⟨h.regs, h.parts, hv, h.bobs, h.wports, h.adopts, h.heds, h.counts, h.hedGovs, h.reedGovs, h.hedStops, h.wits, h.cards, h.shadows, h.gates, h.links, h.linkTimes, h.sens, h.snsOn, h.refused, h.trd_srcs, h.trd_tgts, h.key_slots, h.rport_tags, h.tests_states, h.ver_led, h.cal_lin, h.cal_linOld, h.cal_words, h.cal_store, h.fw_image⟩

theorem Sorted.set_closes {t : State} {v : Nat} (h : Sorted t) : Sorted { t with closes := v } :=
  ⟨h.regs, h.parts, h.strs, h.bobs, h.wports, h.adopts, h.heds, h.counts, h.hedGovs, h.reedGovs, h.hedStops, h.wits, h.cards, h.shadows, h.gates, h.links, h.linkTimes, h.sens, h.snsOn, h.refused, h.trd_srcs, h.trd_tgts, h.key_slots, h.rport_tags, h.tests_states, h.ver_led, h.cal_lin, h.cal_linOld, h.cal_words, h.cal_store, h.fw_image⟩

theorem Sorted.set_bobs {t : State} {v : List (Nat × Bob)} (hv : msorted v = true) (h : Sorted t) : Sorted { t with bobs := v } :=
  ⟨h.regs, h.parts, h.strs, hv, h.wports, h.adopts, h.heds, h.counts, h.hedGovs, h.reedGovs, h.hedStops, h.wits, h.cards, h.shadows, h.gates, h.links, h.linkTimes, h.sens, h.snsOn, h.refused, h.trd_srcs, h.trd_tgts, h.key_slots, h.rport_tags, h.tests_states, h.ver_led, h.cal_lin, h.cal_linOld, h.cal_words, h.cal_store, h.fw_image⟩

theorem Sorted.set_wports {t : State} {v : List (Nat × WPort)} (hv : msorted v = true) (h : Sorted t) : Sorted { t with wports := v } :=
  ⟨h.regs, h.parts, h.strs, h.bobs, hv, h.adopts, h.heds, h.counts, h.hedGovs, h.reedGovs, h.hedStops, h.wits, h.cards, h.shadows, h.gates, h.links, h.linkTimes, h.sens, h.snsOn, h.refused, h.trd_srcs, h.trd_tgts, h.key_slots, h.rport_tags, h.tests_states, h.ver_led, h.cal_lin, h.cal_linOld, h.cal_words, h.cal_store, h.fw_image⟩

theorem Sorted.set_rport {t : State} {v : RPort} (h_tags : msorted v.tags = true) (h : Sorted t) : Sorted { t with rport := v } :=
  ⟨h.regs, h.parts, h.strs, h.bobs, h.wports, h.adopts, h.heds, h.counts, h.hedGovs, h.reedGovs, h.hedStops, h.wits, h.cards, h.shadows, h.gates, h.links, h.linkTimes, h.sens, h.snsOn, h.refused, h.trd_srcs, h.trd_tgts, h.key_slots, h_tags, h.tests_states, h.ver_led, h.cal_lin, h.cal_linOld, h.cal_words, h.cal_store, h.fw_image⟩

theorem Sorted.set_adopts {t : State} {v : List (Nat × Adopt)} (hv : msorted v = true) (h : Sorted t) : Sorted { t with adopts := v } :=
  ⟨h.regs, h.parts, h.strs, h.bobs, h.wports, hv, h.heds, h.counts, h.hedGovs, h.reedGovs, h.hedStops, h.wits, h.cards, h.shadows, h.gates, h.links, h.linkTimes, h.sens, h.snsOn, h.refused, h.trd_srcs, h.trd_tgts, h.key_slots, h.rport_tags, h.tests_states, h.ver_led, h.cal_lin, h.cal_linOld, h.cal_words, h.cal_store, h.fw_image⟩

theorem Sorted.set_exempt {t : State} {v : Nat} (h : Sorted t) : Sorted { t with exempt := v } :=
  ⟨h.regs, h.parts, h.strs, h.bobs, h.wports, h.adopts, h.heds, h.counts, h.hedGovs, h.reedGovs, h.hedStops, h.wits, h.cards, h.shadows, h.gates, h.links, h.linkTimes, h.sens, h.snsOn, h.refused, h.trd_srcs, h.trd_tgts, h.key_slots, h.rport_tags, h.tests_states, h.ver_led, h.cal_lin, h.cal_linOld, h.cal_words, h.cal_store, h.fw_image⟩

theorem Sorted.set_refused {t : State} {v : List (Nat × Nat)} (hv : msorted v = true) (h : Sorted t) : Sorted { t with refused := v } :=
  ⟨h.regs, h.parts, h.strs, h.bobs, h.wports, h.adopts, h.heds, h.counts, h.hedGovs, h.reedGovs, h.hedStops, h.wits, h.cards, h.shadows, h.gates, h.links, h.linkTimes, h.sens, h.snsOn, hv, h.trd_srcs, h.trd_tgts, h.key_slots, h.rport_tags, h.tests_states, h.ver_led, h.cal_lin, h.cal_linOld, h.cal_words, h.cal_store, h.fw_image⟩

theorem Sorted.set_heds {t : State} {v : List (Nat × HedTrace)} (hv : msorted v = true) (h : Sorted t) : Sorted { t with heds := v } :=
  ⟨h.regs, h.parts, h.strs, h.bobs, h.wports, h.adopts, hv, h.counts, h.hedGovs, h.reedGovs, h.hedStops, h.wits, h.cards, h.shadows, h.gates, h.links, h.linkTimes, h.sens, h.snsOn, h.refused, h.trd_srcs, h.trd_tgts, h.key_slots, h.rport_tags, h.tests_states, h.ver_led, h.cal_lin, h.cal_linOld, h.cal_words, h.cal_store, h.fw_image⟩

theorem Sorted.set_counts {t : State} {v : List (Nat × HedCount)} (hv : msorted v = true) (h : Sorted t) : Sorted { t with counts := v } :=
  ⟨h.regs, h.parts, h.strs, h.bobs, h.wports, h.adopts, h.heds, hv, h.hedGovs, h.reedGovs, h.hedStops, h.wits, h.cards, h.shadows, h.gates, h.links, h.linkTimes, h.sens, h.snsOn, h.refused, h.trd_srcs, h.trd_tgts, h.key_slots, h.rport_tags, h.tests_states, h.ver_led, h.cal_lin, h.cal_linOld, h.cal_words, h.cal_store, h.fw_image⟩

theorem Sorted.set_hedGovs {t : State} {v : List (Nat × HedGov)} (hv : msorted v = true) (h : Sorted t) : Sorted { t with hedGovs := v } :=
  ⟨h.regs, h.parts, h.strs, h.bobs, h.wports, h.adopts, h.heds, h.counts, hv, h.reedGovs, h.hedStops, h.wits, h.cards, h.shadows, h.gates, h.links, h.linkTimes, h.sens, h.snsOn, h.refused, h.trd_srcs, h.trd_tgts, h.key_slots, h.rport_tags, h.tests_states, h.ver_led, h.cal_lin, h.cal_linOld, h.cal_words, h.cal_store, h.fw_image⟩

theorem Sorted.set_reedGovs {t : State} {v : List (Nat × ReedGov)} (hv : msorted v = true) (h : Sorted t) : Sorted { t with reedGovs := v } :=
  ⟨h.regs, h.parts, h.strs, h.bobs, h.wports, h.adopts, h.heds, h.counts, h.hedGovs, hv, h.hedStops, h.wits, h.cards, h.shadows, h.gates, h.links, h.linkTimes, h.sens, h.snsOn, h.refused, h.trd_srcs, h.trd_tgts, h.key_slots, h.rport_tags, h.tests_states, h.ver_led, h.cal_lin, h.cal_linOld, h.cal_words, h.cal_store, h.fw_image⟩

theorem Sorted.set_gov {t : State} {v : Gov} (h : Sorted t) : Sorted { t with gov := v } :=
  ⟨h.regs, h.parts, h.strs, h.bobs, h.wports, h.adopts, h.heds, h.counts, h.hedGovs, h.reedGovs, h.hedStops, h.wits, h.cards, h.shadows, h.gates, h.links, h.linkTimes, h.sens, h.snsOn, h.refused, h.trd_srcs, h.trd_tgts, h.key_slots, h.rport_tags, h.tests_states, h.ver_led, h.cal_lin, h.cal_linOld, h.cal_words, h.cal_store, h.fw_image⟩

theorem Sorted.set_trd {t : State} {v : Treadle} (h_srcs : msorted v.srcs = true) (h_tgts : msorted v.tgts = true) (h : Sorted t) : Sorted { t with trd := v } :=
  ⟨h.regs, h.parts, h.strs, h.bobs, h.wports, h.adopts, h.heds, h.counts, h.hedGovs, h.reedGovs, h.hedStops, h.wits, h.cards, h.shadows, h.gates, h.links, h.linkTimes, h.sens, h.snsOn, h.refused, h_srcs, h_tgts, h.key_slots, h.rport_tags, h.tests_states, h.ver_led, h.cal_lin, h.cal_linOld, h.cal_words, h.cal_store, h.fw_image⟩

theorem Sorted.set_stop {t : State} {v : Stop} (h : Sorted t) : Sorted { t with stop := v } :=
  ⟨h.regs, h.parts, h.strs, h.bobs, h.wports, h.adopts, h.heds, h.counts, h.hedGovs, h.reedGovs, h.hedStops, h.wits, h.cards, h.shadows, h.gates, h.links, h.linkTimes, h.sens, h.snsOn, h.refused, h.trd_srcs, h.trd_tgts, h.key_slots, h.rport_tags, h.tests_states, h.ver_led, h.cal_lin, h.cal_linOld, h.cal_words, h.cal_store, h.fw_image⟩

theorem Sorted.set_hedStops {t : State} {v : List (Nat × HedStop)} (hv : msorted v = true) (h : Sorted t) : Sorted { t with hedStops := v } :=
  ⟨h.regs, h.parts, h.strs, h.bobs, h.wports, h.adopts, h.heds, h.counts, h.hedGovs, h.reedGovs, hv, h.wits, h.cards, h.shadows, h.gates, h.links, h.linkTimes, h.sens, h.snsOn, h.refused, h.trd_srcs, h.trd_tgts, h.key_slots, h.rport_tags, h.tests_states, h.ver_led, h.cal_lin, h.cal_linOld, h.cal_words, h.cal_store, h.fw_image⟩

theorem Sorted.set_key {t : State} {v : KeyStore} (h_slots : msorted v.slots = true) (h : Sorted t) : Sorted { t with key := v } :=
  ⟨h.regs, h.parts, h.strs, h.bobs, h.wports, h.adopts, h.heds, h.counts, h.hedGovs, h.reedGovs, h.hedStops, h.wits, h.cards, h.shadows, h.gates, h.links, h.linkTimes, h.sens, h.snsOn, h.refused, h.trd_srcs, h.trd_tgts, h_slots, h.rport_tags, h.tests_states, h.ver_led, h.cal_lin, h.cal_linOld, h.cal_words, h.cal_store, h.fw_image⟩

theorem Sorted.set_wits {t : State} {v : List (Nat × WitReed)} (hv : msorted v = true) (h : Sorted t) : Sorted { t with wits := v } :=
  ⟨h.regs, h.parts, h.strs, h.bobs, h.wports, h.adopts, h.heds, h.counts, h.hedGovs, h.reedGovs, h.hedStops, hv, h.cards, h.shadows, h.gates, h.links, h.linkTimes, h.sens, h.snsOn, h.refused, h.trd_srcs, h.trd_tgts, h.key_slots, h.rport_tags, h.tests_states, h.ver_led, h.cal_lin, h.cal_linOld, h.cal_words, h.cal_store, h.fw_image⟩

theorem Sorted.set_cards {t : State} {v : List (Nat × CheckCard)} (hv : msorted v = true) (h : Sorted t) : Sorted { t with cards := v } :=
  ⟨h.regs, h.parts, h.strs, h.bobs, h.wports, h.adopts, h.heds, h.counts, h.hedGovs, h.reedGovs, h.hedStops, h.wits, hv, h.shadows, h.gates, h.links, h.linkTimes, h.sens, h.snsOn, h.refused, h.trd_srcs, h.trd_tgts, h.key_slots, h.rport_tags, h.tests_states, h.ver_led, h.cal_lin, h.cal_linOld, h.cal_words, h.cal_store, h.fw_image⟩

theorem Sorted.set_shadows {t : State} {v : List (Nat × CheckCard)} (hv : msorted v = true) (h : Sorted t) : Sorted { t with shadows := v } :=
  ⟨h.regs, h.parts, h.strs, h.bobs, h.wports, h.adopts, h.heds, h.counts, h.hedGovs, h.reedGovs, h.hedStops, h.wits, h.cards, hv, h.gates, h.links, h.linkTimes, h.sens, h.snsOn, h.refused, h.trd_srcs, h.trd_tgts, h.key_slots, h.rport_tags, h.tests_states, h.ver_led, h.cal_lin, h.cal_linOld, h.cal_words, h.cal_store, h.fw_image⟩

theorem Sorted.set_lapsed {t : State} {v : List Nat} (h : Sorted t) : Sorted { t with lapsed := v } :=
  ⟨h.regs, h.parts, h.strs, h.bobs, h.wports, h.adopts, h.heds, h.counts, h.hedGovs, h.reedGovs, h.hedStops, h.wits, h.cards, h.shadows, h.gates, h.links, h.linkTimes, h.sens, h.snsOn, h.refused, h.trd_srcs, h.trd_tgts, h.key_slots, h.rport_tags, h.tests_states, h.ver_led, h.cal_lin, h.cal_linOld, h.cal_words, h.cal_store, h.fw_image⟩

theorem Sorted.set_ver {t : State} {v : Verdicts} (h_led : msorted v.led = true) (h : Sorted t) : Sorted { t with ver := v } :=
  ⟨h.regs, h.parts, h.strs, h.bobs, h.wports, h.adopts, h.heds, h.counts, h.hedGovs, h.reedGovs, h.hedStops, h.wits, h.cards, h.shadows, h.gates, h.links, h.linkTimes, h.sens, h.snsOn, h.refused, h.trd_srcs, h.trd_tgts, h.key_slots, h.rport_tags, h.tests_states, h_led, h.cal_lin, h.cal_linOld, h.cal_words, h.cal_store, h.fw_image⟩

theorem Sorted.set_gates {t : State} {v : List (Nat × HedGate)} (hv : msorted v = true) (h : Sorted t) : Sorted { t with gates := v } :=
  ⟨h.regs, h.parts, h.strs, h.bobs, h.wports, h.adopts, h.heds, h.counts, h.hedGovs, h.reedGovs, h.hedStops, h.wits, h.cards, h.shadows, hv, h.links, h.linkTimes, h.sens, h.snsOn, h.refused, h.trd_srcs, h.trd_tgts, h.key_slots, h.rport_tags, h.tests_states, h.ver_led, h.cal_lin, h.cal_linOld, h.cal_words, h.cal_store, h.fw_image⟩

theorem Sorted.set_tests {t : State} {v : Tests} (h_states : msorted v.states = true) (h : Sorted t) : Sorted { t with tests := v } :=
  ⟨h.regs, h.parts, h.strs, h.bobs, h.wports, h.adopts, h.heds, h.counts, h.hedGovs, h.reedGovs, h.hedStops, h.wits, h.cards, h.shadows, h.gates, h.links, h.linkTimes, h.sens, h.snsOn, h.refused, h.trd_srcs, h.trd_tgts, h.key_slots, h.rport_tags, h_states, h.ver_led, h.cal_lin, h.cal_linOld, h.cal_words, h.cal_store, h.fw_image⟩

theorem Sorted.set_links {t : State} {v : List (Nat × Link)} (hv : msorted v = true) (h : Sorted t) : Sorted { t with links := v } :=
  ⟨h.regs, h.parts, h.strs, h.bobs, h.wports, h.adopts, h.heds, h.counts, h.hedGovs, h.reedGovs, h.hedStops, h.wits, h.cards, h.shadows, h.gates, hv, h.linkTimes, h.sens, h.snsOn, h.refused, h.trd_srcs, h.trd_tgts, h.key_slots, h.rport_tags, h.tests_states, h.ver_led, h.cal_lin, h.cal_linOld, h.cal_words, h.cal_store, h.fw_image⟩

theorem Sorted.set_linkTimes {t : State} {v : List (Nat × LinkTime)} (hv : msorted v = true) (h : Sorted t) : Sorted { t with linkTimes := v } :=
  ⟨h.regs, h.parts, h.strs, h.bobs, h.wports, h.adopts, h.heds, h.counts, h.hedGovs, h.reedGovs, h.hedStops, h.wits, h.cards, h.shadows, h.gates, h.links, hv, h.sens, h.snsOn, h.refused, h.trd_srcs, h.trd_tgts, h.key_slots, h.rport_tags, h.tests_states, h.ver_led, h.cal_lin, h.cal_linOld, h.cal_words, h.cal_store, h.fw_image⟩

theorem Sorted.set_servo {t : State} {v : Servo} (h : Sorted t) : Sorted { t with servo := v } :=
  ⟨h.regs, h.parts, h.strs, h.bobs, h.wports, h.adopts, h.heds, h.counts, h.hedGovs, h.reedGovs, h.hedStops, h.wits, h.cards, h.shadows, h.gates, h.links, h.linkTimes, h.sens, h.snsOn, h.refused, h.trd_srcs, h.trd_tgts, h.key_slots, h.rport_tags, h.tests_states, h.ver_led, h.cal_lin, h.cal_linOld, h.cal_words, h.cal_store, h.fw_image⟩

theorem Sorted.set_eth {t : State} {v : Eth} (h : Sorted t) : Sorted { t with eth := v } :=
  ⟨h.regs, h.parts, h.strs, h.bobs, h.wports, h.adopts, h.heds, h.counts, h.hedGovs, h.reedGovs, h.hedStops, h.wits, h.cards, h.shadows, h.gates, h.links, h.linkTimes, h.sens, h.snsOn, h.refused, h.trd_srcs, h.trd_tgts, h.key_slots, h.rport_tags, h.tests_states, h.ver_led, h.cal_lin, h.cal_linOld, h.cal_words, h.cal_store, h.fw_image⟩

theorem Sorted.set_fw {t : State} {v : Fw} (h_image : msorted v.image = true) (h : Sorted t) : Sorted { t with fw := v } :=
  ⟨h.regs, h.parts, h.strs, h.bobs, h.wports, h.adopts, h.heds, h.counts, h.hedGovs, h.reedGovs, h.hedStops, h.wits, h.cards, h.shadows, h.gates, h.links, h.linkTimes, h.sens, h.snsOn, h.refused, h.trd_srcs, h.trd_tgts, h.key_slots, h.rport_tags, h.tests_states, h.ver_led, h.cal_lin, h.cal_linOld, h.cal_words, h.cal_store, h_image⟩

theorem Sorted.set_cal {t : State} {v : Cal} (h_lin : msorted v.lin = true) (h_linOld : msorted v.linOld = true) (h_words : msorted v.words = true) (h_store : msorted v.store = true) (h : Sorted t) : Sorted { t with cal := v } :=
  ⟨h.regs, h.parts, h.strs, h.bobs, h.wports, h.adopts, h.heds, h.counts, h.hedGovs, h.reedGovs, h.hedStops, h.wits, h.cards, h.shadows, h.gates, h.links, h.linkTimes, h.sens, h.snsOn, h.refused, h.trd_srcs, h.trd_tgts, h.key_slots, h.rport_tags, h.tests_states, h.ver_led, h_lin, h_linOld, h_words, h_store, h.fw_image⟩

theorem Sorted.set_sens {t : State} {v : List (Nat × List (Nat × BitVec 16))} (hv : msorted v = true) (h : Sorted t) : Sorted { t with sens := v } :=
  ⟨h.regs, h.parts, h.strs, h.bobs, h.wports, h.adopts, h.heds, h.counts, h.hedGovs, h.reedGovs, h.hedStops, h.wits, h.cards, h.shadows, h.gates, h.links, h.linkTimes, hv, h.snsOn, h.refused, h.trd_srcs, h.trd_tgts, h.key_slots, h.rport_tags, h.tests_states, h.ver_led, h.cal_lin, h.cal_linOld, h.cal_words, h.cal_store, h.fw_image⟩

theorem Sorted.set_snsOn {t : State} {v : List (Nat × Word)} (hv : msorted v = true) (h : Sorted t) : Sorted { t with snsOn := v } :=
  ⟨h.regs, h.parts, h.strs, h.bobs, h.wports, h.adopts, h.heds, h.counts, h.hedGovs, h.reedGovs, h.hedStops, h.wits, h.cards, h.shadows, h.gates, h.links, h.linkTimes, h.sens, hv, h.refused, h.trd_srcs, h.trd_tgts, h.key_slots, h.rport_tags, h.tests_states, h.ver_led, h.cal_lin, h.cal_linOld, h.cal_words, h.cal_store, h.fw_image⟩

theorem Sorted.set_free {t : State} {v : Nat} (h : Sorted t) : Sorted { t with free := v } :=
  ⟨h.regs, h.parts, h.strs, h.bobs, h.wports, h.adopts, h.heds, h.counts, h.hedGovs, h.reedGovs, h.hedStops, h.wits, h.cards, h.shadows, h.gates, h.links, h.linkTimes, h.sens, h.snsOn, h.refused, h.trd_srcs, h.trd_tgts, h.key_slots, h.rport_tags, h.tests_states, h.ver_led, h.cal_lin, h.cal_linOld, h.cal_words, h.cal_store, h.fw_image⟩

theorem Sorted.set_salts {t : State} {v : Nat} (h : Sorted t) : Sorted { t with salts := v } :=
  ⟨h.regs, h.parts, h.strs, h.bobs, h.wports, h.adopts, h.heds, h.counts, h.hedGovs, h.reedGovs, h.hedStops, h.wits, h.cards, h.shadows, h.gates, h.links, h.linkTimes, h.sens, h.snsOn, h.refused, h.trd_srcs, h.trd_tgts, h.key_slots, h.rport_tags, h.tests_states, h.ver_led, h.cal_lin, h.cal_linOld, h.cal_words, h.cal_store, h.fw_image⟩

theorem takeFree_sorted {t : State}   (h : Sorted t) : Sorted (takeFree t).2 := by
  unfold takeFree
  repeat' (first | with_reducible assumption | with_reducible refine Sorted.ite ?_ ?_ | with_reducible refine Sorted.set_free ?_)

theorem takeFree_sorted_eq {t : State}   {x} {u : State} (e : takeFree t = (x, u)) (h : Sorted t) : Sorted u := by
  have := takeFree_sorted (t := t)  h
  rw [e] at this; exact this

theorem takeSalt_sorted {t : State}   (h : Sorted t) : Sorted (takeSalt t).2 := by
  unfold takeSalt
  repeat' (first | with_reducible assumption | with_reducible refine Sorted.ite ?_ ?_ | with_reducible refine Sorted.set_salts ?_)

theorem takeSalt_sorted_eq {t : State}   {x} {u : State} (e : takeSalt t = (x, u)) (h : Sorted t) : Sorted u := by
  have := takeSalt_sorted (t := t)  h
  rw [e] at this; exact this

theorem regPut_sorted {t : State} {a1 : Nat} {a2 : Nat} {a3 : Word}  (h : Sorted t) : Sorted (regPut t a1 a2 a3) := by
  unfold regPut
  repeat' (first | with_reducible assumption | with_reducible refine Sorted.ite ?_ ?_ | with_reducible refine Sorted.set_regs ?_ ?_ | with_reducible refine Sorted.regs ?_ | with_reducible refine msorted_mset _ _ _ _ ?_ | with_reducible refine msorted_mupd _ _ _ _ ?_ | with_reducible refine msorted_mins _ _ _ ?_ | with_reducible refine msorted_mdel _ _ ?_ | with_reducible refine msorted_filter _ _ ?_ | refine msorted_map _ (fun e => by first | rfl | (dsimp only; split <;> rfl)) _ ?_ | with_reducible exact msorted_nil)

theorem bump_sorted {t : State} {a1 : Nat} {a2 : Nat} {a3 : Nat} {a4 : Nat} {a5 : Nat}  (h : Sorted t) : Sorted (bump t a1 a2 a3 a4 a5) := by
  unfold bump
  repeat' (first | with_reducible assumption | with_reducible refine regPut_sorted ?_ | with_reducible refine Sorted.ite ?_ ?_)

theorem count_sorted {t : State} {a1 : Nat} {a2 : Nat} {a3 : Nat} {a4 : Nat} {a5 : Nat}  (h : Sorted t) : Sorted (count t a1 a2 a3 a4 a5) := by
  unfold count
  repeat' (first | with_reducible assumption | with_reducible refine regPut_sorted ?_ | with_reducible refine Sorted.ite ?_ ?_)

theorem regSetFld_sorted {t : State} {a1 : Nat} {a2 : Nat} {a3 : Nat} {a4 : Nat} {a5 : Nat}  (h : Sorted t) : Sorted (regSetFld t a1 a2 a3 a4 a5) := by
  unfold regSetFld
  repeat' (first | with_reducible assumption | with_reducible refine regPut_sorted ?_ | with_reducible refine Sorted.ite ?_ ?_)

theorem updPart_sorted {t : State} {a1 : Nat} {a2 : Part → Part}  (h : Sorted t) : Sorted (updPart t a1 a2) := by
  unfold updPart
  repeat' (first | with_reducible assumption | with_reducible refine Sorted.ite ?_ ?_ | with_reducible refine Sorted.set_parts ?_ ?_ | with_reducible refine Sorted.parts ?_ | with_reducible refine msorted_mset _ _ _ _ ?_ | with_reducible refine msorted_mupd _ _ _ _ ?_ | with_reducible refine msorted_mins _ _ _ ?_ | with_reducible refine msorted_mdel _ _ ?_ | with_reducible refine msorted_filter _ _ ?_ | refine msorted_map _ (fun e => by first | rfl | (dsimp only; split <;> rfl)) _ ?_ | with_reducible exact msorted_nil)

theorem transition_sorted {t : State} {a0 : Nat} {a1 : PState} {a2 : BitVec 8}  (h : Sorted t) : Sorted (transition a0 a1 a2 t) := by
  unfold transition
  repeat' (first | with_reducible assumption | with_reducible refine updPart_sorted ?_ | with_reducible refine Sorted.ite ?_ ?_)

theorem updSrc_sorted {t : State} {a0 : Nat} {a1 : Src → Src}  (h : Sorted t) : Sorted (updSrc a0 a1 t) := by
  unfold updSrc
  repeat' (first | with_reducible assumption | with_reducible refine Sorted.ite ?_ ?_ | with_reducible refine Sorted.set_trd ?_ ?_ ?_ | with_reducible refine Sorted.trd_srcs ?_ | with_reducible refine Sorted.trd_tgts ?_ | with_reducible refine msorted_mset _ _ _ _ ?_ | with_reducible refine msorted_mupd _ _ _ _ ?_ | with_reducible refine msorted_mins _ _ _ ?_ | with_reducible refine msorted_mdel _ _ ?_ | with_reducible refine msorted_filter _ _ ?_ | refine msorted_map _ (fun e => by first | rfl | (dsimp only; split <;> rfl)) _ ?_ | with_reducible exact msorted_nil)

theorem updTgt_sorted {t : State} {a0 : Nat} {a1 : Tgt → Tgt}  (h : Sorted t) : Sorted (updTgt a0 a1 t) := by
  unfold updTgt
  repeat' (first | with_reducible assumption | with_reducible refine Sorted.ite ?_ ?_ | with_reducible refine Sorted.set_trd ?_ ?_ ?_ | with_reducible refine Sorted.trd_srcs ?_ | with_reducible refine Sorted.trd_tgts ?_ | with_reducible refine msorted_mset _ _ _ _ ?_ | with_reducible refine msorted_mupd _ _ _ _ ?_ | with_reducible refine msorted_mins _ _ _ ?_ | with_reducible refine msorted_mdel _ _ ?_ | with_reducible refine msorted_filter _ _ ?_ | refine msorted_map _ (fun e => by first | rfl | (dsimp only; split <;> rfl)) _ ?_ | with_reducible exact msorted_nil)

theorem settleTgt_sorted {t : State} {a1 : Nat}  (h : Sorted t) : Sorted (settleTgt t a1) := by
  unfold settleTgt
  repeat' (first | with_reducible assumption | with_reducible refine updTgt_sorted ?_ | with_reducible refine bump_sorted ?_ | with_reducible refine Sorted.ite ?_ ?_)

theorem settle_sorted {t : State}   (h : Sorted t) : Sorted (settle t) := by
  unfold settle
  repeat' (first | with_reducible assumption | with_reducible refine settleTgt_sorted ?_ | with_reducible refine foldl_sorted (fun _ _ _ => ?_) ?_ | with_reducible refine Sorted.ite ?_ ?_)

theorem srcEvent_sorted {t : State} {a0 : Nat} {a1 : Nat} {a2 : Bool}  (h : Sorted t) : Sorted (srcEvent a0 a1 a2 t) := by
  unfold srcEvent
  repeat' (first | with_reducible assumption | with_reducible refine updSrc_sorted ?_ | with_reducible refine Sorted.ite ?_ ?_)

theorem srcBatch_sorted {t : State} {a0 : Nat}  (h : Sorted t) : Sorted (srcBatch a0 t) := by
  unfold srcBatch
  repeat' (first | with_reducible assumption | with_reducible refine updSrc_sorted ?_ | with_reducible refine Sorted.ite ?_ ?_)

theorem withdraw_sorted {t : State} {a0 : Nat}  (h : Sorted t) : Sorted (withdraw a0 t) := by
  unfold withdraw
  repeat' (first | with_reducible assumption | with_reducible refine bump_sorted ?_ | with_reducible refine updSrc_sorted ?_)

theorem srcLevelPend_sorted {t : State} {a0 : Nat}  (h : Sorted t) : Sorted (srcLevelPend a0 t) := by
  unfold srcLevelPend
  repeat' (first | with_reducible assumption | with_reducible refine updSrc_sorted ?_ | with_reducible refine Sorted.ite ?_ ?_)

theorem raise_sorted {t : State} {a0 : Nat}  (h : Sorted t) : Sorted (raise a0 t) := by
  unfold raise
  repeat' (first | with_reducible assumption | with_reducible refine settle_sorted ?_ | with_reducible refine srcEvent_sorted ?_ | with_reducible refine updSrc_sorted ?_ | with_reducible refine Sorted.ite ?_ ?_)

theorem recordErr_sorted {t : State} {a0 : Nat} {a1 : List Nat}  (h : Sorted t) : Sorted (recordErr a0 a1 t) := by
  unfold recordErr
  repeat' (first | with_reducible assumption | with_reducible refine regPut_sorted ?_ | with_reducible refine Sorted.ite ?_ ?_)

theorem setErr_sorted {t : State} {a0 : Nat} {a1 : Nat}  (h : Sorted t) : Sorted (setErr a0 a1 t) := by
  unfold setErr
  repeat' (first | with_reducible assumption | with_reducible refine recordErr_sorted ?_ | with_reducible refine raise_sorted ?_ | with_reducible refine Sorted.ite ?_ ?_)

theorem setPortErr_sorted {t : State} {a0 : Nat} {a1 : Nat}  (h : Sorted t) : Sorted (setPortErr a0 a1 t) := by
  unfold setPortErr
  repeat' (first | with_reducible assumption | with_reducible refine recordErr_sorted ?_ | with_reducible refine raise_sorted ?_ | with_reducible refine Sorted.ite ?_ ?_)

theorem acceptLevel_sorted {t : State} {a0 : Nat}  (h : Sorted t) : Sorted (acceptLevel a0 t) := by
  unfold acceptLevel
  repeat' (first | with_reducible assumption | with_reducible refine updSrc_sorted ?_ | with_reducible refine srcEvent_sorted ?_ | with_reducible refine srcLevelPend_sorted ?_ | with_reducible refine withdraw_sorted ?_ | dsimp only | with_reducible refine Sorted.ite ?_ ?_ | split)

theorem endRun_sorted {t : State} {a0 : Nat}  (h : Sorted t) : Sorted (endRun a0 t) := by
  unfold endRun
  repeat' (first | with_reducible assumption | with_reducible refine acceptLevel_sorted ?_ | with_reducible refine updSrc_sorted ?_ | with_reducible refine bump_sorted ?_ | dsimp only | with_reducible refine Sorted.ite ?_ ?_ | split)

theorem inputEdge_sorted {t : State} {a0 : Nat} {a1 : Bool}  (h : Sorted t) : Sorted (inputEdge a0 a1 t) := by
  unfold inputEdge
  repeat' (first | with_reducible assumption | with_reducible refine endRun_sorted ?_ | with_reducible refine updSrc_sorted ?_ | with_reducible refine settle_sorted ?_ | with_reducible refine Sorted.ite ?_ ?_)

theorem reportLatch_sorted {t : State} {a0 : Nat}  (h : Sorted t) : Sorted (reportLatch a0 t) := by
  unfold reportLatch
  repeat' (first | with_reducible assumption | with_reducible refine bump_sorted ?_ | with_reducible refine updSrc_sorted ?_ | with_reducible refine srcEvent_sorted ?_ | dsimp only | with_reducible refine Sorted.ite ?_ ?_ | split)

theorem restartRun_sorted {t : State} {a0 : Nat}  (h : Sorted t) : Sorted (restartRun a0 t) := by
  unfold restartRun
  repeat' (first | with_reducible assumption | with_reducible refine updSrc_sorted ?_ | with_reducible refine bump_sorted ?_ | with_reducible refine Sorted.ite ?_ ?_)

theorem reportLatches_sorted {t : State}   (h : Sorted t) : Sorted (reportLatches t) := by
  unfold reportLatches
  repeat' (first | with_reducible assumption | with_reducible refine settle_sorted ?_ | with_reducible refine restartRun_sorted ?_ | with_reducible refine reportLatch_sorted ?_ | with_reducible refine foldl_sorted (fun _ _ _ => ?_) ?_ | with_reducible refine Sorted.ite ?_ ?_)

theorem wakeUp_sorted {t : State} {a0 : Nat} {a1 : Nat}  (h : Sorted t) : Sorted (wakeUp a0 a1 t) := by
  unfold wakeUp
  repeat' (first | with_reducible assumption | with_reducible refine reportLatches_sorted ?_ | with_reducible refine bump_sorted ?_ | with_reducible refine Sorted.ite ?_ ?_ | with_reducible refine Sorted.set_trd ?_ ?_ ?_ | with_reducible refine Sorted.trd_srcs ?_ | with_reducible refine Sorted.trd_tgts ?_ | with_reducible refine msorted_mset _ _ _ _ ?_ | with_reducible refine msorted_mupd _ _ _ _ ?_ | with_reducible refine msorted_mins _ _ _ ?_ | with_reducible refine msorted_mdel _ _ ?_ | with_reducible refine msorted_filter _ _ ?_ | refine msorted_map _ (fun e => by first | rfl | (dsimp only; split <;> rfl)) _ ?_ | with_reducible exact msorted_nil)

theorem claim_sorted {t : State} {a0 : Nat}  (h : Sorted t) : Sorted (claim a0 t).2 := by
  unfold claim
  repeat' (first | with_reducible assumption | with_reducible refine updSrc_sorted ?_ | with_reducible refine updTgt_sorted ?_ | with_reducible refine settle_sorted ?_ | with_reducible refine bump_sorted ?_ | with_reducible refine Sorted.ite ?_ ?_ | split)

theorem claim_sorted_eq {t : State} {a0 : Nat}  {x} {u : State} (e : claim a0 t = (x, u)) (h : Sorted t) : Sorted u := by
  have := claim_sorted (t := t) (a0 := a0) h
  rw [e] at this; exact this

theorem complete_sorted {t : State} {a0 : Nat} {a1 : Nat}  (h : Sorted t) : SortedO (complete a0 a1 t) := by
  unfold complete
  repeat' (first | with_reducible assumption | with_reducible refine updTgt_sorted ?_ | with_reducible refine updSrc_sorted ?_ | with_reducible refine settle_sorted ?_ | with_reducible exact SortedO.none | with_reducible refine SortedO.some ?_ | with_reducible refine SortedO.ite ?_ ?_ | split)

theorem completeRefused_sorted {t : State} {a0 : Nat} {a1 : Nat}  (h : Sorted t) : Sorted (completeRefused a0 a1 t) := by
  unfold completeRefused
  repeat' (first | with_reducible assumption | with_reducible refine bump_sorted ?_ | with_reducible refine setErr_sorted ?_ | with_reducible refine Sorted.ite ?_ ?_)

theorem doorbell_sorted {t : State} {a0 : Nat}  (h : Sorted t) : SortedO (doorbell a0 t) := by
  unfold doorbell
  repeat' (first | with_reducible assumption | with_reducible refine wakeUp_sorted ?_ | with_reducible refine settle_sorted ?_ | with_reducible refine srcEvent_sorted ?_ | with_reducible exact SortedO.none | with_reducible refine SortedO.some ?_ | with_reducible refine SortedO.ite ?_ ?_ | split)

theorem pendingSet_sorted {t : State} {a0 : Nat} {a1 : Word}  (h : Sorted t) : Sorted (pendingSet a0 a1 t) := by
  unfold pendingSet
  repeat' (first | with_reducible assumption | with_reducible refine settle_sorted ?_ | with_reducible refine updSrc_sorted ?_ | with_reducible refine foldl_sorted (fun _ _ _ => ?_) ?_ | with_reducible refine Sorted.ite ?_ ?_)

theorem pendingClr_sorted {t : State} {a0 : Nat} {a1 : Word}  (h : Sorted t) : Sorted (pendingClr a0 a1 t) := by
  unfold pendingClr
  repeat' (first | with_reducible assumption | with_reducible refine settle_sorted ?_ | with_reducible refine srcLevelPend_sorted ?_ | with_reducible refine updSrc_sorted ?_ | with_reducible refine foldl_sorted (fun _ _ _ => ?_) ?_ | with_reducible refine Sorted.ite ?_ ?_)

theorem dozeWrite_sorted {t : State} {a0 : Bool}  (h : Sorted t) : SortedO (dozeWrite a0 t) := by
  unfold dozeWrite
  repeat' (first | with_reducible assumption | with_reducible refine settle_sorted ?_ | with_reducible refine reportLatches_sorted ?_ | with_reducible exact SortedO.none | with_reducible refine SortedO.some ?_ | with_reducible refine SortedO.ite ?_ ?_ | with_reducible refine Sorted.set_trd ?_ ?_ ?_ | with_reducible refine Sorted.trd_srcs ?_ | with_reducible refine Sorted.trd_tgts ?_ | with_reducible refine msorted_mset _ _ _ _ ?_ | with_reducible refine msorted_mupd _ _ _ _ ?_ | with_reducible refine msorted_mins _ _ _ ?_ | with_reducible refine msorted_mdel _ _ ?_ | with_reducible refine msorted_filter _ _ ?_ | refine msorted_map _ (fun e => by first | rfl | (dsimp only; split <;> rfl)) _ ?_ | with_reducible exact msorted_nil)

theorem srcWrite_sorted {t : State} {a0 : Nat} {a1 : Word}  (h : Sorted t) : SortedO (srcWrite a0 a1 t) := by
  unfold srcWrite
  repeat' (first | with_reducible assumption | with_reducible refine regPut_sorted ?_ | with_reducible refine updSrc_sorted ?_ | with_reducible refine withdraw_sorted ?_ | with_reducible refine settle_sorted ?_ | with_reducible refine srcLevelPend_sorted ?_ | with_reducible refine restartRun_sorted ?_ | with_reducible exact SortedO.none | with_reducible refine SortedO.some ?_ | with_reducible refine SortedO.ite ?_ ?_ | split)

theorem updStrm_sorted {t : State} {a0 : Nat} {a1 : Strm → Strm}  (h : Sorted t) : Sorted (updStrm a0 a1 t) := by
  unfold updStrm
  repeat' (first | with_reducible assumption | with_reducible refine Sorted.ite ?_ ?_ | with_reducible refine Sorted.set_strs ?_ ?_ | with_reducible refine Sorted.strs ?_ | with_reducible refine msorted_mset _ _ _ _ ?_ | with_reducible refine msorted_mupd _ _ _ _ ?_ | with_reducible refine msorted_mins _ _ _ ?_ | with_reducible refine msorted_mdel _ _ ?_ | with_reducible refine msorted_filter _ _ ?_ | refine msorted_map _ (fun e => by first | rfl | (dsimp only; split <;> rfl)) _ ?_ | with_reducible exact msorted_nil)

theorem updAdopt_sorted {t : State} {a0 : Nat} {a1 : Adopt → Adopt}  (h : Sorted t) : Sorted (updAdopt a0 a1 t) := by
  unfold updAdopt
  repeat' (first | with_reducible assumption | with_reducible refine Sorted.ite ?_ ?_ | with_reducible refine Sorted.set_adopts ?_ ?_ | with_reducible refine Sorted.adopts ?_ | with_reducible refine msorted_mset _ _ _ _ ?_ | with_reducible refine msorted_mupd _ _ _ _ ?_ | with_reducible refine msorted_mins _ _ _ ?_ | with_reducible refine msorted_mdel _ _ ?_ | with_reducible refine msorted_filter _ _ ?_ | refine msorted_map _ (fun e => by first | rfl | (dsimp only; split <;> rfl)) _ ?_ | with_reducible exact msorted_nil)

theorem updBob_sorted {t : State} {a0 : Nat} {a1 : Bob → Bob}  (h : Sorted t) : Sorted (updBob a0 a1 t) := by
  unfold updBob
  repeat' (first | with_reducible assumption | with_reducible refine Sorted.ite ?_ ?_ | with_reducible refine Sorted.set_bobs ?_ ?_ | with_reducible refine Sorted.bobs ?_ | with_reducible refine msorted_mset _ _ _ _ ?_ | with_reducible refine msorted_mupd _ _ _ _ ?_ | with_reducible refine msorted_mins _ _ _ ?_ | with_reducible refine msorted_mdel _ _ ?_ | with_reducible refine msorted_filter _ _ ?_ | refine msorted_map _ (fun e => by first | rfl | (dsimp only; split <;> rfl)) _ ?_ | with_reducible exact msorted_nil)

theorem closeRun_sorted {t : State} {a0 : Nat}  (h : Sorted t) : Sorted (closeRun a0 t) := by
  unfold closeRun
  repeat' (first | with_reducible assumption | with_reducible refine updStrm_sorted ?_ | with_reducible refine Sorted.ite ?_ ?_ | split | with_reducible refine Sorted.set_closes ?_)

theorem growRuns_sorted {t : State} {a0 : Nat} {a1 : Nat} {a2 : Nat}  (h : Sorted t) : Sorted (growRuns a0 a1 a2 t) := by
  unfold growRuns
  repeat' (first | with_reducible assumption | with_reducible refine closeRun_sorted ?_ | with_reducible refine updStrm_sorted ?_ | (extract_lets +onlyGivenNames x; refine (fun (hx : Sorted x) => ?_) ?_; rotate_left; dsimp only [x]; clear x; rotate_right; clear_value x) | with_reducible refine Sorted.ite ?_ ?_ | split)

theorem noteKind_sorted {t : State} {a0 : Nat}  (h : Sorted t) : Sorted (noteKind a0 t) := by
  unfold noteKind
  repeat' (first | with_reducible assumption | with_reducible refine setErr_sorted ?_ | with_reducible refine Sorted.ite ?_ ?_)

theorem acceptRec_sorted {t : State} {a0 : Nat} {a1 : Pick}  (h : Sorted t) : Sorted (acceptRec a0 a1 t) := by
  unfold acceptRec
  repeat' (first | with_reducible assumption | with_reducible refine growRuns_sorted ?_ | with_reducible refine updStrm_sorted ?_ | with_reducible refine noteKind_sorted ?_ | with_reducible refine Sorted.ite ?_ ?_)

theorem reformRuns_sorted {t : State} {a0 : Nat}  (h : Sorted t) : Sorted (reformRuns a0 t) := by
  unfold reformRuns
  repeat' (first | with_reducible assumption | with_reducible refine updStrm_sorted ?_ | with_reducible refine growRuns_sorted ?_ | with_reducible refine foldl_sorted (fun _ _ _ => ?_) ?_ | with_reducible refine Sorted.ite ?_ ?_)

theorem updSlot_sorted {t : State} {a0 : Nat} {a1 : KSlot → KSlot}  (h : Sorted t) : Sorted (updSlot a0 a1 t) := by
  unfold updSlot
  repeat' (first | with_reducible assumption | with_reducible refine Sorted.ite ?_ ?_ | with_reducible refine Sorted.set_key ?_ ?_ | with_reducible refine Sorted.key_slots ?_ | with_reducible refine msorted_mset _ _ _ _ ?_ | with_reducible refine msorted_mupd _ _ _ _ ?_ | with_reducible refine msorted_mins _ _ _ ?_ | with_reducible refine msorted_mdel _ _ ?_ | with_reducible refine msorted_filter _ _ ?_ | refine msorted_map _ (fun e => by first | rfl | (dsimp only; split <;> rfl)) _ ?_ | with_reducible exact msorted_nil)

theorem takeHead_sorted {t : State} {a0 : Nat} {a1 : BitVec 8}  (h : Sorted t) : Sorted (takeHead a0 a1 t).2 := by
  unfold takeHead
  repeat' (first | with_reducible assumption | with_reducible refine updSlot_sorted ?_ | with_reducible refine Sorted.ite ?_ ?_)

theorem takeHead_sorted_eq {t : State} {a0 : Nat} {a1 : BitVec 8}  {x} {u : State} (e : takeHead a0 a1 t = (x, u)) (h : Sorted t) : Sorted u := by
  have := takeHead_sorted (t := t) (a0 := a0) (a1 := a1) h
  rw [e] at this; exact this

theorem bobBlock_sorted {t : State} {a0 : Nat} {a1 : BitVec 32} {a2 : Bool} {a3 : Nat} {a4 : Nat} {a5 : List Rec}  (h : Sorted t) : Sorted (bobBlock a0 a1 a2 a3 a4 a5 t).2 := by
  unfold bobBlock
  repeat' (first | with_reducible assumption | with_reducible refine takeHead_sorted ?_ | with_reducible refine updBob_sorted ?_ | dsimp only | with_reducible refine Sorted.ite ?_ ?_ | split)

theorem bobBlock_sorted_eq {t : State} {a0 : Nat} {a1 : BitVec 32} {a2 : Bool} {a3 : Nat} {a4 : Nat} {a5 : List Rec}  {x} {u : State} (e : bobBlock a0 a1 a2 a3 a4 a5 t = (x, u)) (h : Sorted t) : Sorted u := by
  have := bobBlock_sorted (t := t) (a0 := a0) (a1 := a1) (a2 := a2) (a3 := a3) (a4 := a4) (a5 := a5) h
  rw [e] at this; exact this

theorem updPort_sorted {t : State} {a0 : Nat} {a1 : WPort → WPort}  (h : Sorted t) : Sorted (updPort a0 a1 t) := by
  unfold updPort
  repeat' (first | with_reducible assumption | with_reducible refine Sorted.ite ?_ ?_ | with_reducible refine Sorted.set_wports ?_ ?_ | with_reducible refine Sorted.wports ?_ | with_reducible refine msorted_mset _ _ _ _ ?_ | with_reducible refine msorted_mupd _ _ _ _ ?_ | with_reducible refine msorted_mins _ _ _ ?_ | with_reducible refine msorted_mdel _ _ ?_ | with_reducible refine msorted_filter _ _ ?_ | refine msorted_map _ (fun e => by first | rfl | (dsimp only; split <;> rfl)) _ ?_ | with_reducible exact msorted_nil)

theorem sendBlock_sorted {t : State} {a0 : Nat} {a1 : Nat} {a2 : BlkRef}  (h : Sorted t) : Sorted (sendBlock a0 a1 a2 t) := by
  unfold sendBlock
  repeat' (first | with_reducible assumption | with_reducible refine updPort_sorted ?_ | with_reducible refine Sorted.ite ?_ ?_)

theorem fillEvent_sorted {t : State} {a0 : Nat}  (h : Sorted t) : Sorted (fillEvent a0 t) := by
  unfold fillEvent
  repeat' (first | with_reducible assumption | with_reducible refine raise_sorted ?_ | with_reducible refine Sorted.ite ?_ ?_)

theorem countFenced_sorted {t : State} {a0 : Nat}  (h : Sorted t) : Sorted (countFenced a0 t) := by
  unfold countFenced
  repeat' (first | with_reducible assumption | with_reducible refine updSlot_sorted ?_ | with_reducible refine Sorted.ite ?_ ?_ | split)

theorem claimIdx_sorted {t : State} {a0 : Nat} {a1 : BitVec 32 → Slot}  (h : Sorted t) : Sorted (claimIdx a0 a1 t) := by
  unfold claimIdx
  repeat' (first | with_reducible assumption | with_reducible refine bump_sorted ?_ | with_reducible refine updBob_sorted ?_ | with_reducible refine fillEvent_sorted ?_ | with_reducible refine Sorted.ite ?_ ?_)

theorem issueRun_sorted {t : State} {a0 : Nat} {a1 : Nat} {a2 : Nat}  (h : Sorted t) : Sorted (issueRun a0 a1 a2 t) := by
  unfold issueRun
  repeat' (first | with_reducible assumption | with_reducible refine bobBlock_sorted ?_ | with_reducible refine claimIdx_sorted ?_ | with_reducible refine updStrm_sorted ?_ | with_reducible refine sendBlock_sorted ?_ | with_reducible refine bump_sorted ?_ | with_reducible refine countFenced_sorted ?_ | with_reducible refine Sorted.ite ?_ ?_ | split | with_reducible refine Sorted.set_exempt ?_)

theorem issueSlot_sorted {t : State} {a0 : Nat} {a1 : Nat} {a2 : Nat} {a3 : Slot}  (h : Sorted t) : Sorted (issueSlot a0 a1 a2 a3 t) := by
  unfold issueSlot
  repeat' (first | with_reducible assumption | with_reducible refine bobBlock_sorted ?_ | with_reducible refine updBob_sorted ?_ | with_reducible refine sendBlock_sorted ?_ | with_reducible refine bump_sorted ?_ | with_reducible refine countFenced_sorted ?_ | with_reducible refine Sorted.ite ?_ ?_ | split | with_reducible refine Sorted.set_exempt ?_)

theorem noteFull_sorted {t : State} {a0 : Nat}  (h : Sorted t) : Sorted (noteFull a0 t) := by
  unfold noteFull
  repeat' (first | with_reducible assumption | with_reducible refine bump_sorted ?_ | with_reducible refine updBob_sorted ?_ | with_reducible refine Sorted.ite ?_ ?_)

theorem issueFirst_sorted {t : State} {a0 : Nat} {a1 : Nat} {a2 : List Nat}  (h : Sorted t) : Sorted (issueFirst a0 a1 a2 t) := by
  induction a2 generalizing t with
  | nil => exact h
  | cons n l ih =>
    unfold issueFirst
    repeat' (first | with_reducible assumption | (with_reducible refine ih ?_) | with_reducible refine issueRun_sorted ?_ | with_reducible refine noteFull_sorted ?_ | with_reducible refine noteKind_sorted ?_ | with_reducible refine Sorted.ite ?_ ?_)

theorem issueNext_sorted {t : State} {a0 : Nat}  (h : Sorted t) : Sorted (issueNext a0 t) := by
  unfold issueNext
  repeat' (first | with_reducible assumption | with_reducible refine issueSlot_sorted ?_ | with_reducible refine issueFirst_sorted ?_ | dsimp only | with_reducible refine Sorted.ite ?_ ?_ | split)

theorem advanceHead_sorted {t : State} {a0 : Nat}  (h : Sorted t) : Sorted (advanceHead a0 t) := by
  unfold advanceHead
  repeat' (first | with_reducible assumption | with_reducible refine updBob_sorted ?_ | with_reducible refine Sorted.ite ?_ ?_)

theorem faultBob_sorted {t : State} {a0 : Nat} {a1 : Nat}  (h : Sorted t) : Sorted (faultBob a0 a1 t) := by
  unfold faultBob
  repeat' (first | with_reducible assumption | with_reducible refine raise_sorted ?_ | with_reducible refine setErr_sorted ?_ | with_reducible refine bump_sorted ?_ | with_reducible refine updBob_sorted ?_ | with_reducible refine Sorted.ite ?_ ?_)

theorem requeue_sorted {t : State} {a0 : Nat}  (h : Sorted t) : Sorted (requeue a0 t) := by
  unfold requeue
  repeat' (first | with_reducible assumption | with_reducible refine updStrm_sorted ?_)

theorem commitTaken_sorted {t : State} {a0 : Nat}  (h : Sorted t) : Sorted (commitTaken a0 t) := by
  unfold commitTaken
  repeat' (first | with_reducible assumption | with_reducible refine updStrm_sorted ?_)

theorem completePast_sorted {t : State} {a0 : Nat} {a1 : Option Nat} {a2 : Bool}  (h : Sorted t) : Sorted (completePast a0 a1 a2 t) := by
  unfold completePast
  repeat' (first | with_reducible assumption | with_reducible refine updBob_sorted ?_ | with_reducible refine commitTaken_sorted ?_ | with_reducible refine requeue_sorted ?_ | split)

theorem completeBob_sorted {t : State} {a0 : Nat} {a1 : Nat} {a2 : BitVec 32} {a3 : Bool}  (h : Sorted t) : Sorted (completeBob a0 a1 a2 a3 t) := by
  dsimp only [completeBob]
  repeat' (first | with_reducible assumption | with_reducible refine updBob_sorted ?_ | with_reducible refine advanceHead_sorted ?_ | with_reducible refine commitTaken_sorted ?_ | with_reducible refine faultBob_sorted ?_ | with_reducible refine Sorted.ite ?_ ?_ | split)

theorem releaseBob_sorted {t : State} {a0 : Nat}  (h : Sorted t) : Sorted (releaseBob a0 t) := by
  unfold releaseBob
  repeat' (first | with_reducible assumption | with_reducible refine updBob_sorted ?_ | with_reducible refine updStrm_sorted ?_ | with_reducible refine advanceHead_sorted ?_ | with_reducible refine Sorted.ite ?_ ?_ | split)

theorem shadowAck_sorted {t : State} {a0 : Nat}  (h : Sorted t) : Sorted (shadowAck a0 t) := by
  unfold shadowAck
  repeat' (first | with_reducible assumption | with_reducible refine updBob_sorted ?_ | with_reducible refine Sorted.ite ?_ ?_)

theorem closeBobs_sorted {t : State} {a0 : List Nat}  (h : Sorted t) : Sorted (closeBobs a0 t) := by
  unfold closeBobs
  repeat' (first | with_reducible assumption | with_reducible refine closeRun_sorted ?_ | with_reducible refine foldl_sorted (fun _ _ _ => ?_) ?_ | with_reducible refine Sorted.ite ?_ ?_)

theorem loseIds_sorted {t : State} {a0 : Nat}  (h : Sorted t) : Sorted (loseIds a0 t) := by
  unfold loseIds
  repeat' (first | with_reducible assumption | with_reducible refine setErr_sorted ?_ | with_reducible refine bump_sorted ?_ | with_reducible refine Sorted.ite ?_ ?_ | split | with_reducible refine Sorted.set_heds ?_ ?_ | with_reducible refine Sorted.heds ?_ | with_reducible refine msorted_mset _ _ _ _ ?_ | with_reducible refine msorted_mupd _ _ _ _ ?_ | with_reducible refine msorted_mins _ _ _ ?_ | with_reducible refine msorted_mdel _ _ ?_ | with_reducible refine msorted_filter _ _ ?_ | refine msorted_map _ (fun e => by first | rfl | (dsimp only; split <;> rfl)) _ ?_ | with_reducible exact msorted_nil)

theorem enterServing_sorted {t : State} {a0 : Nat}  (h : Sorted t) : Sorted (enterServing a0 t) := by
  unfold enterServing
  repeat' (first | with_reducible assumption | with_reducible refine count_sorted ?_ | with_reducible refine raise_sorted ?_ | with_reducible refine regSetFld_sorted ?_ | with_reducible refine Sorted.ite ?_ ?_)

theorem dropReads_sorted {t : State} {a0 : ReadFor → Bool}  (h : Sorted t) : Sorted (dropReads a0 t) := by
  unfold dropReads
  refine Sorted.set_rport (msorted_map _ (fun e => ?_) _ h.rport_tags) h
  split <;> rfl

theorem beginScan_sorted {t : State} {a0 : Nat} {a1 : Nat}  (h : Sorted t) : Sorted (beginScan a0 a1 t) := by
  unfold beginScan
  repeat' (first | with_reducible assumption | with_reducible refine updBob_sorted ?_ | with_reducible refine updAdopt_sorted ?_ | with_reducible refine Sorted.ite ?_ ?_)

theorem dropAdoption_sorted {t : State} {a0 : Nat}  (h : Sorted t) : Sorted (dropAdoption a0 t) := by
  unfold dropAdoption
  repeat' (first | with_reducible assumption | with_reducible refine bump_sorted ?_ | with_reducible refine updBob_sorted ?_ | with_reducible refine loseIds_sorted ?_ | with_reducible refine setErr_sorted ?_ | with_reducible refine updAdopt_sorted ?_ | with_reducible refine dropReads_sorted ?_ | with_reducible refine foldl_sorted (fun _ _ _ => ?_) ?_ | with_reducible refine Sorted.ite ?_ ?_)

theorem handOver_sorted {t : State} {a0 : Nat}  (h : Sorted t) : Sorted (handOver a0 t) := by
  unfold handOver
  repeat' (first | with_reducible assumption | with_reducible refine reformRuns_sorted ?_ | with_reducible refine foldl_sorted (fun _ _ _ => ?_) ?_ | with_reducible refine Sorted.ite ?_ ?_)

theorem awaitPort_sorted {t : State} {a0 : Nat} {a1 : Nat}  (h : Sorted t) : Sorted (awaitPort a0 a1 t) := by
  unfold awaitPort
  repeat' (first | with_reducible assumption | with_reducible refine updAdopt_sorted ?_)

theorem startRehome_sorted {t : State} {a0 : Nat} {a1 : Bool}  (h : Sorted t) : Sorted (startRehome a0 a1 t) := by
  unfold startRehome
  repeat' (first | with_reducible assumption | with_reducible refine updAdopt_sorted ?_ | with_reducible refine setErr_sorted ?_ | with_reducible refine updBob_sorted ?_ | with_reducible refine enterServing_sorted ?_ | with_reducible refine handOver_sorted ?_ | with_reducible refine awaitPort_sorted ?_ | with_reducible refine foldl_sorted (fun _ _ _ => ?_) ?_ | dsimp only | with_reducible refine Sorted.ite ?_ ?_ | split)

theorem portIdle_sorted {t : State} {a0 : Nat}  (h : Sorted t) : Sorted (portIdle a0 t) := by
  unfold portIdle
  repeat' (first | with_reducible assumption | with_reducible refine updPort_sorted ?_ | with_reducible refine completeBob_sorted ?_ | with_reducible refine completePast_sorted ?_ | with_reducible refine updAdopt_sorted ?_ | with_reducible refine beginScan_sorted ?_ | with_reducible refine foldl_sorted (fun _ _ _ => ?_) ?_ | with_reducible refine Sorted.ite ?_ ?_ | split)

theorem scanRead_sorted {t : State} {a0 : Nat} {a1 : Nat} {a2 : Nat} {a3 : Nat} {a4 : Option Block}  (h : Sorted t) : Sorted (scanRead a0 a1 a2 a3 a4 t) := by
  unfold scanRead
  repeat' (first | with_reducible assumption | with_reducible refine updAdopt_sorted ?_ | with_reducible refine faultBob_sorted ?_ | with_reducible refine setErr_sorted ?_ | with_reducible refine dropReads_sorted ?_ | with_reducible refine Sorted.ite ?_ ?_ | split)

theorem rebuildSlot_sorted {t : State} {a0 : List Nat} {a1 : Nat} {a2 : Scanned}  (h : Sorted t) : Sorted (rebuildSlot a0 a1 a2 t) := by
  unfold rebuildSlot
  repeat' (first | with_reducible assumption | with_reducible refine updBob_sorted ?_ | with_reducible refine Sorted.ite ?_ ?_ | split)

theorem rebuildBob_sorted {t : State} {a0 : Nat} {a1 : List Nat} {a2 : Nat}  (h : Sorted t) : Sorted (rebuildBob a0 a1 a2 t) := by
  unfold rebuildBob
  repeat' (first | with_reducible assumption | with_reducible refine rebuildSlot_sorted ?_ | with_reducible refine advanceHead_sorted ?_ | with_reducible refine updBob_sorted ?_ | with_reducible refine foldl_sorted (fun _ _ _ => ?_) ?_ | with_reducible refine Sorted.ite ?_ ?_ | split)

theorem beginReturn_sorted {t : State} {a0 : Nat}  (h : Sorted t) : Sorted (beginReturn a0 t) := by
  unfold beginReturn
  repeat' (first | with_reducible assumption | with_reducible refine closeBobs_sorted ?_ | with_reducible refine updAdopt_sorted ?_ | with_reducible refine Sorted.ite ?_ ?_)

theorem scanDone_sorted {t : State} {a0 : Nat}  (h : Sorted t) : Sorted (scanDone a0 t) := by
  unfold scanDone
  repeat' (first | with_reducible assumption | with_reducible refine rebuildBob_sorted ?_ | with_reducible refine updAdopt_sorted ?_ | with_reducible refine beginReturn_sorted ?_ | with_reducible refine enterServing_sorted ?_ | with_reducible refine foldl_sorted (fun _ _ _ => ?_) ?_ | with_reducible refine Sorted.ite ?_ ?_)

theorem releaseRebuilt_sorted {t : State} {a0 : Nat} {a1 : Nat}  (h : Sorted t) : Sorted (releaseRebuilt a0 a1 t) := by
  unfold releaseRebuilt
  repeat' (first | with_reducible assumption | with_reducible refine advanceHead_sorted ?_ | with_reducible refine updBob_sorted ?_)

theorem runReport_sorted {t : State} {a0 : Nat} {a1 : Nat}  (h : Sorted t) : Sorted (runReport a0 a1 t) := by
  unfold runReport
  repeat' (first | with_reducible assumption | with_reducible refine updStrm_sorted ?_ | with_reducible refine updAdopt_sorted ?_ | with_reducible refine reformRuns_sorted ?_ | with_reducible refine releaseRebuilt_sorted ?_ | with_reducible refine bump_sorted ?_ | with_reducible refine foldl_sorted (fun _ _ _ => ?_) ?_ | with_reducible refine Sorted.ite ?_ ?_ | split)

theorem handBack_sorted {t : State} {a0 : Nat}  (h : Sorted t) : Sorted (handBack a0 t) := by
  unfold handBack
  repeat' (first | with_reducible assumption | with_reducible refine raise_sorted ?_ | with_reducible refine handOver_sorted ?_ | with_reducible refine updBob_sorted ?_ | with_reducible refine updAdopt_sorted ?_ | with_reducible refine foldl_sorted (fun _ _ _ => ?_) ?_ | with_reducible refine Sorted.ite ?_ ?_)

theorem beginDrain_sorted {t : State} {a0 : Nat}  (h : Sorted t) : Sorted (beginDrain a0 t) := by
  unfold beginDrain
  repeat' (first | with_reducible assumption | with_reducible refine closeBobs_sorted ?_ | with_reducible refine updPort_sorted ?_ | with_reducible refine Sorted.ite ?_ ?_)

theorem restartRing_sorted {t : State} {a0 : Nat}  (h : Sorted t) : Sorted (restartRing a0 t) := by
  unfold restartRing
  repeat' (first | with_reducible assumption | with_reducible refine updPort_sorted ?_ | with_reducible refine requeue_sorted ?_ | with_reducible refine updBob_sorted ?_ | with_reducible refine foldl_sorted (fun _ _ _ => ?_) ?_ | split)

theorem bobEnable_sorted {t : State} {a0 : Nat}  (h : Sorted t) : SortedO (bobEnable a0 t) := by
  unfold bobEnable
  repeat' (first | with_reducible assumption | with_reducible refine updBob_sorted ?_ | with_reducible refine beginScan_sorted ?_ | with_reducible refine restartRing_sorted ?_ | with_reducible refine noteKind_sorted ?_ | with_reducible refine takeHead_sorted ?_ | with_reducible exact SortedO.none | with_reducible refine SortedO.some ?_ | with_reducible refine foldl_sorted (fun _ _ _ => ?_) ?_ | with_reducible refine SortedO.ite ?_ ?_ | split)

theorem bobDisable_sorted {t : State} {a0 : Nat}  (h : Sorted t) : SortedO (bobDisable a0 t) := by
  unfold bobDisable
  repeat' (first | with_reducible assumption | with_reducible refine updBob_sorted ?_ | with_reducible exact SortedO.none | with_reducible refine SortedO.some ?_ | with_reducible refine SortedO.ite ?_ ?_)

theorem flush_sorted {t : State} {a0 : Nat}  (h : Sorted t) : Sorted (flush a0 t) := by
  unfold flush
  repeat' (first | with_reducible assumption | with_reducible refine closeBobs_sorted ?_ | with_reducible refine Sorted.ite ?_ ?_)

theorem tailWrite_sorted {t : State} {a0 : Nat} {a1 : Word}  (h : Sorted t) : SortedO (tailWrite a0 a1 t) := by
  unfold tailWrite
  repeat' (first | with_reducible assumption | with_reducible refine updBob_sorted ?_ | with_reducible exact SortedO.none | with_reducible refine SortedO.some ?_ | with_reducible refine SortedO.ite ?_ ?_)

theorem fenceCount_sorted {t : State} {a0 : Nat} {a1 : Nat}  (h : Sorted t) : Sorted (fenceCount a0 a1 t) := by
  unfold fenceCount
  repeat' (first | with_reducible assumption | with_reducible refine updSlot_sorted ?_)

theorem retain_sorted {t : State} {a0 : Nat} {a1 : Pick}  (h : Sorted t) : Sorted (retain a0 a1 t).2 := by
  unfold retain
  repeat' (first | with_reducible assumption | with_reducible refine acceptRec_sorted ?_ | split | with_reducible refine Sorted.set_exempt ?_ | with_reducible refine Sorted.set_refused ?_ ?_ | with_reducible refine Sorted.refused ?_ | with_reducible refine msorted_mset _ _ _ _ ?_ | with_reducible refine msorted_mupd _ _ _ _ ?_ | with_reducible refine msorted_mins _ _ _ ?_ | with_reducible refine msorted_mdel _ _ ?_ | with_reducible refine msorted_filter _ _ ?_ | refine msorted_map _ (fun e => by first | rfl | (dsimp only; split <;> rfl)) _ ?_ | with_reducible exact msorted_nil)

theorem retain_sorted_eq {t : State} {a0 : Nat} {a1 : Pick}  {x} {u : State} (e : retain a0 a1 t = (x, u)) (h : Sorted t) : Sorted u := by
  have := retain_sorted (t := t) (a0 := a0) (a1 := a1) h
  rw [e] at this; exact this

theorem emitExempt_sorted {t : State} {a0 : Nat} {a1 : Pick}  (h : Sorted t) : Sorted (emitExempt a0 a1 t).2 := by
  unfold emitExempt
  repeat' (first | with_reducible assumption | with_reducible refine fenceCount_sorted ?_ | with_reducible refine retain_sorted ?_ | dsimp only | with_reducible refine Sorted.ite ?_ ?_ | split)

theorem emitExempt_sorted_eq {t : State} {a0 : Nat} {a1 : Pick}  {x} {u : State} (e : emitExempt a0 a1 t = (x, u)) (h : Sorted t) : Sorted u := by
  have := emitExempt_sorted (t := t) (a0 := a0) (a1 := a1) h
  rw [e] at this; exact this

theorem emitHub_sorted {t : State} {a0 : Pick}  (h : Sorted t) : Sorted (emitHub a0 t) := by
  unfold emitHub
  repeat' (first | with_reducible assumption | with_reducible refine emitExempt_sorted ?_ | dsimp only | with_reducible refine Sorted.ite ?_ ?_)

theorem updHedGov_sorted {t : State} {a0 : Nat} {a1 : HedGov → HedGov}  (h : Sorted t) : Sorted (updHedGov a0 a1 t) := by
  unfold updHedGov
  repeat' (first | with_reducible assumption | with_reducible refine Sorted.ite ?_ ?_ | with_reducible refine Sorted.set_hedGovs ?_ ?_ | with_reducible refine Sorted.hedGovs ?_ | with_reducible refine msorted_mset _ _ _ _ ?_ | with_reducible refine msorted_mupd _ _ _ _ ?_ | with_reducible refine msorted_mins _ _ _ ?_ | with_reducible refine msorted_mdel _ _ ?_ | with_reducible refine msorted_filter _ _ ?_ | refine msorted_map _ (fun e => by first | rfl | (dsimp only; split <;> rfl)) _ ?_ | with_reducible exact msorted_nil)

theorem updReedGov_sorted {t : State} {a0 : Nat} {a1 : ReedGov → ReedGov}  (h : Sorted t) : Sorted (updReedGov a0 a1 t) := by
  unfold updReedGov
  repeat' (first | with_reducible assumption | with_reducible refine Sorted.ite ?_ ?_ | with_reducible refine Sorted.set_reedGovs ?_ ?_ | with_reducible refine Sorted.reedGovs ?_ | with_reducible refine msorted_mset _ _ _ _ ?_ | with_reducible refine msorted_mupd _ _ _ _ ?_ | with_reducible refine msorted_mins _ _ _ ?_ | with_reducible refine msorted_mdel _ _ ?_ | with_reducible refine msorted_filter _ _ ?_ | refine msorted_map _ (fun e => by first | rfl | (dsimp only; split <;> rfl)) _ ?_ | with_reducible exact msorted_nil)

theorem putQuota_sorted {t : State} {a0 : Nat} {a1 : Bt} {a2 : Quota}  (h : Sorted t) : Sorted (putQuota a0 a1 a2 t) := by
  unfold putQuota
  repeat' (first | with_reducible assumption | with_reducible refine updHedGov_sorted ?_)

theorem countDemand_sorted {t : State} {a0 : Nat} {a1 : Nat} {a2 : Bool} {a3 : Bt}  (h : Sorted t) : Sorted (countDemand a0 a1 a2 a3 t) := by
  unfold countDemand
  repeat' (first | with_reducible assumption | with_reducible refine updHedGov_sorted ?_ | with_reducible refine Sorted.ite ?_ ?_)

theorem refuseGov_sorted {t : State} {a0 : Nat} {a1 : Nat} {a2 : Nat} {a3 : Bool}  (h : Sorted t) : Sorted (refuseGov a0 a1 a2 a3 t) := by
  unfold refuseGov
  repeat' (first | with_reducible assumption | with_reducible refine updHedGov_sorted ?_ | with_reducible refine bump_sorted ?_ | with_reducible refine updReedGov_sorted ?_ | with_reducible refine raise_sorted ?_ | with_reducible refine Sorted.ite ?_ ?_)

theorem offerHed_sorted {t : State} {a0 : Nat} {a1 : Nat} {a2 : Cls} {a3 : Bt} {a4 : List Pick}  (h : Sorted t) : Sorted (offerHed a0 a1 a2 a3 a4 t).2 := by
  unfold offerHed
  repeat' (first | with_reducible assumption | with_reducible refine fenceCount_sorted ?_ | with_reducible refine bump_sorted ?_ | with_reducible refine countDemand_sorted ?_ | with_reducible refine refuseGov_sorted ?_ | with_reducible refine updReedGov_sorted ?_ | with_reducible refine putQuota_sorted ?_ | with_reducible refine acceptRec_sorted ?_ | with_reducible refine foldl_sorted (fun _ _ _ => ?_) ?_ | dsimp only | with_reducible refine Sorted.ite ?_ ?_ | split | with_reducible refine Sorted.set_exempt ?_)

theorem offerHed_sorted_eq {t : State} {a0 : Nat} {a1 : Nat} {a2 : Cls} {a3 : Bt} {a4 : List Pick}  {x} {u : State} (e : offerHed a0 a1 a2 a3 a4 t = (x, u)) (h : Sorted t) : Sorted u := by
  have := offerHed_sorted (t := t) (a0 := a0) (a1 := a1) (a2 := a2) (a3 := a3) (a4 := a4) h
  rw [e] at this; exact this

theorem updHed_sorted {t : State} {a0 : Nat} {a1 : HedTrace → HedTrace}  (h : Sorted t) : Sorted (updHed a0 a1 t) := by
  unfold updHed
  repeat' (first | with_reducible assumption | with_reducible refine Sorted.ite ?_ ?_ | with_reducible refine Sorted.set_heds ?_ ?_ | with_reducible refine Sorted.heds ?_ | with_reducible refine msorted_mset _ _ _ _ ?_ | with_reducible refine msorted_mupd _ _ _ _ ?_ | with_reducible refine msorted_mins _ _ _ ?_ | with_reducible refine msorted_mdel _ _ ?_ | with_reducible refine msorted_filter _ _ ?_ | refine msorted_map _ (fun e => by first | rfl | (dsimp only; split <;> rfl)) _ ?_ | with_reducible exact msorted_nil)

theorem updHedC_sorted {t : State} {a0 : Nat} {a1 : HedCount → HedCount}  (h : Sorted t) : Sorted (updHedC a0 a1 t) := by
  unfold updHedC
  repeat' (first | with_reducible assumption | with_reducible refine Sorted.ite ?_ ?_ | with_reducible refine Sorted.set_counts ?_ ?_ | with_reducible refine Sorted.counts ?_ | with_reducible refine msorted_mset _ _ _ _ ?_ | with_reducible refine msorted_mupd _ _ _ _ ?_ | with_reducible refine msorted_mins _ _ _ ?_ | with_reducible refine msorted_mdel _ _ ?_ | with_reducible refine msorted_filter _ _ ?_ | refine msorted_map _ (fun e => by first | rfl | (dsimp only; split <;> rfl)) _ ?_ | with_reducible exact msorted_nil)

theorem hold_sorted {t : State} {a0 : Nat} {a1 : Held}  (h : Sorted t) : Sorted (hold a0 a1 t) := by
  unfold hold
  repeat' (first | with_reducible assumption | with_reducible refine updHed_sorted ?_)

theorem throttle_sorted {t : State} {a0 : Nat} {a1 : Nat}  (h : Sorted t) : Sorted (throttle a0 a1 t) := by
  unfold throttle
  repeat' (first | with_reducible assumption | with_reducible refine hold_sorted ?_ | with_reducible refine Sorted.ite ?_ ?_)

theorem refusalSummary_sorted {t : State} {a0 : Nat}  (h : Sorted t) : Sorted (refusalSummary a0 t) := by
  unfold refusalSummary
  repeat' (first | with_reducible assumption | with_reducible refine emitExempt_sorted ?_ | dsimp only | with_reducible refine Sorted.ite ?_ ?_)

theorem windowStart_sorted {t : State}   (h : Sorted t) : Sorted (windowStart t) := by
  unfold windowStart
  extract_lets w next s1 s2 hs d2 rs p2 u2 budget allow qp left1 scanD qs qu hp hu cap g0 s3 en qm qo s4 s5 s6 g s7
  have h1 : Sorted s1 := foldl_sorted (fun _ _ h => foldl_sorted (fun _ _ h => throttle_sorted h) h) h
  have h2 : Sorted s2 := foldl_sorted (fun _ _ h => Sorted.ite (refusalSummary_sorted h) h) h1
  have h3 : Sorted s3 := Sorted.set_gov h2
  have h4 : Sorted s4 := foldl_sorted (fun _ _ h => updHedGov_sorted h) h3
  have h5 : Sorted s5 := foldl_sorted (fun _ _ h => updReedGov_sorted h) h4
  have h6 : Sorted s6 := updReedGov_sorted h5
  have h7 : Sorted s7 := Sorted.set_gov (t := { s6 with exempt := s6.exempt - t.exempt }) (Sorted.set_exempt h6)
  exact Sorted.ite (raise_sorted (bump_sorted h7)) h7

theorem captureLost_sorted {t : State} {a0 : Nat} {a1 : Nat}  (h : Sorted t) : Sorted (captureLost a0 a1 t) := by
  unfold captureLost
  repeat' (first | with_reducible assumption | with_reducible refine setPortErr_sorted ?_ | with_reducible refine bump_sorted ?_ | with_reducible refine Sorted.ite ?_ ?_)

theorem applyCard_sorted {t : State} {a0 : Nat} {a1 : Nat} {a2 : Nat} {a3 : Bt}  (h : Sorted t) : Sorted (applyCard a0 a1 a2 a3 t) := by
  unfold applyCard
  repeat' (first | with_reducible assumption | with_reducible refine updHedC_sorted ?_ | with_reducible refine updHed_sorted ?_ | with_reducible refine setErr_sorted ?_ | with_reducible refine Sorted.ite ?_ ?_)

theorem cardMapByte_sorted {t : State} {a0 : Nat} {a1 : Nat} {a2 : Nat}  (h : Sorted t) : Sorted (cardMapByte a0 a1 a2 t) := by
  unfold cardMapByte
  repeat' (first | with_reducible assumption | with_reducible refine updHedC_sorted ?_ | with_reducible refine applyCard_sorted ?_ | with_reducible refine Sorted.ite ?_ ?_)

theorem cardMapWrite_sorted {t : State} {a0 : Nat} {a1 : Bool} {a2 : Word}  (h : Sorted t) : Sorted (cardMapWrite a0 a1 a2 t) := by
  unfold cardMapWrite
  repeat' (first | with_reducible assumption | with_reducible refine cardMapByte_sorted ?_ | with_reducible refine foldl_sorted (fun _ _ _ => ?_) ?_ | with_reducible refine Sorted.ite ?_ ?_)

theorem openGap_sorted {t : State} {a0 : Nat} {a1 : Nat} {a2 : Bt} {a3 : Bool}  (h : Sorted t) : Sorted (openGap a0 a1 a2 a3 t) := by
  unfold openGap
  repeat' (first | with_reducible assumption | with_reducible refine updHed_sorted ?_ | with_reducible refine Sorted.ite ?_ ?_)

theorem dropGap_sorted {t : State} {a0 : Nat} {a1 : Nat}  (h : Sorted t) : Sorted (dropGap a0 a1 t) := by
  unfold dropGap
  repeat' (first | with_reducible assumption | with_reducible refine updHed_sorted ?_)

theorem closeGap_sorted {t : State} {a0 : Nat} {a1 : Nat} {a2 : Bt} {a3 : Nat}  (h : Sorted t) : Sorted (closeGap a0 a1 a2 a3 t) := by
  unfold closeGap
  repeat' (first | with_reducible assumption | with_reducible refine dropGap_sorted ?_ | with_reducible refine hold_sorted ?_ | with_reducible refine Sorted.ite ?_ ?_ | split)

theorem addEdges_sorted {t : State} {a0 : Nat} {a1 : Nat}  (h : Sorted t) : Sorted (addEdges a0 a1 t) := by
  unfold addEdges
  repeat' (first | with_reducible assumption | with_reducible refine updHed_sorted ?_ | with_reducible refine Sorted.ite ?_ ?_)

theorem clockState_sorted {t : State} {a0 : Nat} {a1 : BitVec 2} {a2 : Tdc}  (h : Sorted t) : Sorted (clockState a0 a1 a2 t) := by
  unfold clockState
  repeat' (first | with_reducible assumption | with_reducible refine setPortErr_sorted ?_ | with_reducible refine updHed_sorted ?_ | with_reducible refine closeGap_sorted ?_ | with_reducible refine openGap_sorted ?_ | with_reducible refine Sorted.ite ?_ ?_)

theorem gapLimit_sorted {t : State} {a0 : Nat}  (h : Sorted t) : Sorted (gapLimit a0 t) := by
  unfold gapLimit
  repeat' (first | with_reducible assumption | with_reducible refine openGap_sorted ?_ | with_reducible refine closeGap_sorted ?_ | with_reducible refine Sorted.ite ?_ ?_ | split)

theorem holdBegin_sorted {t : State} {a0 : Nat} {a1 : Nat} {a2 : Ent} {a3 : Bt}  (h : Sorted t) : Sorted (holdBegin a0 a1 a2 a3 t) := by
  unfold holdBegin
  repeat' (first | with_reducible assumption | with_reducible refine hold_sorted ?_ | with_reducible refine Sorted.ite ?_ ?_)

theorem dropGaps_sorted {t : State} {a0 : Nat}  (h : Sorted t) : Sorted (dropGaps a0 t) := by
  unfold dropGaps
  repeat' (first | with_reducible assumption | with_reducible refine updHed_sorted ?_)

theorem freeEnt_sorted {t : State} {a0 : Nat} {a1 : Ent}  (h : Sorted t) : Sorted (freeEnt a0 a1 t) := by
  unfold freeEnt
  repeat' (first | with_reducible assumption | with_reducible refine dropGaps_sorted ?_ | with_reducible refine updHed_sorted ?_ | with_reducible refine Sorted.ite ?_ ?_)

theorem updEnt_sorted {t : State} {a0 : Nat} {a1 : Ent} {a2 : Ent → Ent}  (h : Sorted t) : Sorted (updEnt a0 a1 a2 t) := by
  unfold updEnt
  repeat' (first | with_reducible assumption | with_reducible refine updHed_sorted ?_ | with_reducible refine Sorted.ite ?_ ?_)

theorem highWater_sorted {t : State} {a0 : Nat}  (h : Sorted t) : Sorted (highWater a0 t) := by
  unfold highWater
  repeat' (first | with_reducible assumption | with_reducible refine regSetFld_sorted ?_ | with_reducible refine Sorted.ite ?_ ?_)

theorem openCommand_sorted {t : State} {a0 : Nat} {a1 : Issue} {a2 : Nat} {a3 : Bt} {a4 : Bool}  (h : Sorted t) : Sorted (openCommand a0 a1 a2 a3 a4 t) := by
  unfold openCommand
  repeat' (first | with_reducible assumption | with_reducible refine highWater_sorted ?_ | with_reducible refine updHed_sorted ?_ | with_reducible refine setErr_sorted ?_ | with_reducible refine bump_sorted ?_ | with_reducible refine holdBegin_sorted ?_ | with_reducible refine Sorted.ite ?_ ?_ | split)

theorem tagReused_sorted {t : State} {a0 : Nat} {a1 : Ent} {a2 : Bt}  (h : Sorted t) : Sorted (tagReused a0 a1 a2 t) := by
  unfold tagReused
  repeat' (first | with_reducible assumption | with_reducible refine setErr_sorted ?_ | with_reducible refine bump_sorted ?_ | with_reducible refine freeEnt_sorted ?_ | with_reducible refine holdBegin_sorted ?_ | with_reducible refine Sorted.ite ?_ ?_)

theorem issueItem_sorted {t : State} {a0 : Nat} {a1 : Issue}  (h : Sorted t) : Sorted (issueItem a0 a1 t) := by
  unfold issueItem
  repeat' (first | with_reducible assumption | with_reducible refine setPortErr_sorted ?_ | with_reducible refine bump_sorted ?_ | with_reducible refine regPut_sorted ?_ | with_reducible refine applyCard_sorted ?_ | with_reducible refine tagReused_sorted ?_ | with_reducible refine openCommand_sorted ?_ | with_reducible refine Sorted.ite ?_ ?_ | split)

theorem retireItem_sorted {t : State} {a0 : Nat} {a1 : Retire}  (h : Sorted t) : Sorted (retireItem a0 a1 t) := by
  unfold retireItem
  repeat' (first | with_reducible assumption | with_reducible refine updEnt_sorted ?_ | with_reducible refine setPortErr_sorted ?_ | with_reducible refine bump_sorted ?_ | with_reducible refine hold_sorted ?_ | with_reducible refine Sorted.ite ?_ ?_ | split)

theorem acceptSpan_sorted {t : State} {a0 : Nat} {a1 : Ent}  (h : Sorted t) : Sorted (acceptSpan a0 a1 t) := by
  unfold acceptSpan
  repeat' (first | with_reducible assumption | with_reducible refine offerHed_sorted ?_ | with_reducible refine count_sorted ?_ | with_reducible refine freeEnt_sorted ?_ | with_reducible refine foldl_sorted (fun _ _ _ => ?_) ?_ | with_reducible refine Sorted.ite ?_ ?_)

theorem eventLine_sorted {t : State} {a0 : Nat} {a1 : BitVec 5}  (h : Sorted t) : Sorted (eventLine a0 a1 t) := by
  unfold eventLine
  repeat' (first | with_reducible assumption | with_reducible refine updHedC_sorted ?_ | with_reducible refine Sorted.ite ?_ ?_)

theorem counterSample_sorted {t : State} {a0 : Nat}  (h : Sorted t) : Sorted (counterSample a0 t) := by
  unfold counterSample
  repeat' (first | with_reducible assumption | with_reducible refine hold_sorted ?_ | with_reducible refine updHedC_sorted ?_ | with_reducible refine foldl_sorted (fun _ _ _ => ?_) ?_ | dsimp only | with_reducible refine Sorted.ite ?_ ?_ | split)

theorem stallChange_sorted {t : State} {a0 : Nat} {a1 : BitVec 8} {a2 : Tdc}  (h : Sorted t) : Sorted (stallChange a0 a1 a2 t) := by
  unfold stallChange
  repeat' (first | with_reducible assumption | with_reducible refine updHedC_sorted ?_ | with_reducible refine hold_sorted ?_ | with_reducible refine foldl_sorted (fun _ _ _ => ?_) ?_ | with_reducible refine Sorted.ite ?_ ?_)

theorem stallPeriodic_sorted {t : State} {a0 : Nat}  (h : Sorted t) : Sorted (stallPeriodic a0 t) := by
  unfold stallPeriodic
  repeat' (first | with_reducible assumption | with_reducible refine hold_sorted ?_ | with_reducible refine updHedC_sorted ?_ | with_reducible refine foldl_sorted (fun _ _ _ => ?_) ?_ | dsimp only | with_reducible refine Sorted.ite ?_ ?_ | split)

theorem cutGroup_sorted {t : State} {a0 : Nat} {a1 : Held} {a2 : Option Pick} {a3 : List Ent} {a4 : Option (Gap × Nat)}  (h : Sorted t) : Sorted (cutGroup a0 a1 a2 a3 a4 t).2 := by
  unfold cutGroup
  repeat' (first | with_reducible assumption | with_reducible refine offerHed_sorted ?_ | with_reducible refine updHed_sorted ?_ | with_reducible refine count_sorted ?_ | with_reducible refine foldl2_sorted (fun _ _ _ => ?_) ?_ | dsimp only | split)

theorem cutGroup_sorted_eq {t : State} {a0 : Nat} {a1 : Held} {a2 : Option Pick} {a3 : List Ent} {a4 : Option (Gap × Nat)}  {x} {u : State} (e : cutGroup a0 a1 a2 a3 a4 t = (x, u)) (h : Sorted t) : Sorted u := by
  have := cutGroup_sorted (t := t) (a0 := a0) (a1 := a1) (a2 := a2) (a3 := a3) (a4 := a4) h
  rw [e] at this; exact this

theorem Held_take_sorted {t : State} {a0 : Nat} {a1 : Held}  (h : Sorted t) : Sorted (Held.take a0 a1 t) := by
  unfold Held.take
  repeat' (first | with_reducible assumption | with_reducible refine offerHed_sorted ?_ | with_reducible refine count_sorted ?_ | with_reducible refine updHed_sorted ?_ | with_reducible refine updHedC_sorted ?_ | with_reducible refine closeRun_sorted ?_ | with_reducible refine cutGroup_sorted ?_ | with_reducible refine foldl_sorted (fun _ _ _ => ?_) ?_ | with_reducible refine Sorted.ite ?_ ?_ | split)

theorem offerHeld_sorted {t : State} {a0 : Nat} {a1 : Held}  (h : Sorted t) : Sorted (offerHeld a0 a1 t) := by
  unfold offerHeld
  repeat' (first | with_reducible assumption | with_reducible refine hold_sorted ?_ | with_reducible refine Held_take_sorted ?_ | with_reducible refine Sorted.ite ?_ ?_)

theorem settleHed_sorted {t : State} {a0 : Nat}  (h : Sorted t) : Sorted (settleHed a0 t) := by
  unfold settleHed
  repeat' (first | with_reducible assumption | with_reducible refine dropGaps_sorted ?_ | with_reducible refine offerHeld_sorted ?_ | with_reducible refine updHed_sorted ?_ | with_reducible refine foldl_sorted (fun _ _ _ => ?_) ?_ | with_reducible refine Sorted.ite ?_ ?_)

theorem spanAccept_sorted {t : State} {a0 : Nat}  (h : Sorted t) : Sorted (spanAccept a0 t) := by
  unfold spanAccept
  repeat' (first | with_reducible assumption | with_reducible refine settleHed_sorted ?_ | with_reducible refine acceptSpan_sorted ?_ | (extract_lets +onlyGivenNames x; refine (fun (hx : Sorted x) => ?_) ?_; rotate_left; dsimp only [x]; clear x; rotate_right; clear_value x) | split)

theorem settleSpans_sorted {t : State} {a0 : Nat} {a1 : Nat}  (h : Sorted t) : Sorted (settleSpans a0 a1 t) := by
  induction a0 generalizing t with
  | zero => exact settleHed_sorted h
  | succ n ih =>
    unfold settleSpans
    dsimp only
    split
    · exact ih (acceptSpan_sorted (settleHed_sorted h))
    · exact settleHed_sorted h

theorem hedLeaves_sorted {t : State} {a0 : Nat}  (h : Sorted t) : Sorted (hedLeaves a0 t) := by
  unfold hedLeaves
  repeat' (first | with_reducible assumption | with_reducible refine freeEnt_sorted ?_ | with_reducible refine holdBegin_sorted ?_ | with_reducible refine closeGap_sorted ?_ | with_reducible refine foldl_sorted (fun _ _ _ => ?_) ?_ | with_reducible refine Sorted.ite ?_ ?_)

theorem hedFails_sorted {t : State} {a0 : Nat}  (h : Sorted t) : Sorted (hedFails a0 t) := by
  unfold hedFails
  repeat' (first | with_reducible assumption | with_reducible refine updHed_sorted ?_ | with_reducible refine bump_sorted ?_ | with_reducible refine dropGaps_sorted ?_ | with_reducible refine closeGap_sorted ?_ | with_reducible refine Sorted.ite ?_ ?_)

theorem hedEnters_sorted {t : State} {a0 : Nat}  (h : Sorted t) : Sorted (hedEnters a0 t) := by
  unfold hedEnters
  repeat' (first | with_reducible assumption | with_reducible refine openGap_sorted ?_ | with_reducible refine Sorted.ite ?_ ?_)

theorem updHedStop_sorted {t : State} {a0 : Nat} {a1 : HedStop → HedStop}  (h : Sorted t) : Sorted (updHedStop a0 a1 t) := by
  unfold updHedStop
  repeat' (first | with_reducible assumption | with_reducible refine Sorted.ite ?_ ?_ | with_reducible refine Sorted.set_hedStops ?_ ?_ | with_reducible refine Sorted.hedStops ?_ | with_reducible refine msorted_mset _ _ _ _ ?_ | with_reducible refine msorted_mupd _ _ _ _ ?_ | with_reducible refine msorted_mins _ _ _ ?_ | with_reducible refine msorted_mdel _ _ ?_ | with_reducible refine msorted_filter _ _ ?_ | refine msorted_map _ (fun e => by first | rfl | (dsimp only; split <;> rfl)) _ ?_ | with_reducible exact msorted_nil)

theorem updLink_sorted {t : State} {a0 : Nat} {a1 : Link → Link}  (h : Sorted t) : Sorted (updLink a0 a1 t) := by
  unfold updLink
  repeat' (first | with_reducible assumption | with_reducible refine Sorted.ite ?_ ?_ | with_reducible refine Sorted.set_links ?_ ?_ | with_reducible refine Sorted.links ?_ | with_reducible refine msorted_mset _ _ _ _ ?_ | with_reducible refine msorted_mupd _ _ _ _ ?_ | with_reducible refine msorted_mins _ _ _ ?_ | with_reducible refine msorted_mdel _ _ ?_ | with_reducible refine msorted_filter _ _ ?_ | refine msorted_map _ (fun e => by first | rfl | (dsimp only; split <;> rfl)) _ ?_ | with_reducible exact msorted_nil)

theorem updWit_sorted {t : State} {a0 : Nat} {a1 : WitReed → WitReed}  (h : Sorted t) : Sorted (updWit a0 a1 t) := by
  unfold updWit
  repeat' (first | with_reducible assumption | with_reducible refine Sorted.ite ?_ ?_ | with_reducible refine Sorted.set_wits ?_ ?_ | with_reducible refine Sorted.wits ?_ | with_reducible refine msorted_mset _ _ _ _ ?_ | with_reducible refine msorted_mupd _ _ _ _ ?_ | with_reducible refine msorted_mins _ _ _ ?_ | with_reducible refine msorted_mdel _ _ ?_ | with_reducible refine msorted_filter _ _ ?_ | refine msorted_map _ (fun e => by first | rfl | (dsimp only; split <;> rfl)) _ ?_ | with_reducible exact msorted_nil)

theorem pauseGather_sorted {t : State} {a0 : Bt}  (h : Sorted t) : Sorted (pauseGather a0 t) := by
  unfold pauseGather
  repeat' (first | with_reducible assumption | with_reducible refine updWit_sorted ?_ | with_reducible refine foldl_sorted (fun _ _ _ => ?_) ?_ | with_reducible refine Sorted.ite ?_ ?_)

theorem restartGather_sorted {t : State} {a0 : Nat}  (h : Sorted t) : Sorted (restartGather a0 t) := by
  unfold restartGather
  repeat' (first | with_reducible assumption | with_reducible refine updWit_sorted ?_ | with_reducible refine Sorted.ite ?_ ?_)

theorem launch_sorted {t : State} {a0 : Nat} {a1 : Nat}  (h : Sorted t) : Sorted (launch a0 a1 t) := by
  unfold launch
  repeat' (first | with_reducible assumption | with_reducible refine pauseGather_sorted ?_ | with_reducible refine setErr_sorted ?_ | with_reducible refine raise_sorted ?_ | with_reducible refine closeBobs_sorted ?_ | with_reducible refine Sorted.ite ?_ ?_ | with_reducible refine Sorted.set_stop ?_)

theorem launchArmed_sorted {t : State}   (h : Sorted t) : Sorted (launchArmed t) := by
  unfold launchArmed
  repeat' (first | with_reducible assumption | with_reducible refine setErr_sorted ?_ | with_reducible refine launch_sorted ?_ | with_reducible refine Sorted.ite ?_ ?_)

theorem stopEvent_sorted {t : State} {a0 : Nat} {a1 : Nat}  (h : Sorted t) : Sorted (stopEvent a0 a1 t) := by
  dsimp only [stopEvent]
  repeat' (first | with_reducible assumption | with_reducible refine bump_sorted ?_ | with_reducible refine launch_sorted ?_ | with_reducible refine launchArmed_sorted ?_ | with_reducible refine Sorted.ite ?_ ?_ | split)

theorem updOwn_sorted {t : State} {a0 : Own → Own}  (h : Sorted t) : Sorted (updOwn a0 t) := by
  unfold updOwn
  repeat' (first | with_reducible assumption | with_reducible refine Sorted.ite ?_ ?_ | with_reducible refine Sorted.set_ver ?_ ?_ | with_reducible refine Sorted.ver_led ?_ | with_reducible refine msorted_mset _ _ _ _ ?_ | with_reducible refine msorted_mupd _ _ _ _ ?_ | with_reducible refine msorted_mins _ _ _ ?_ | with_reducible refine msorted_mdel _ _ ?_ | with_reducible refine msorted_filter _ _ ?_ | refine msorted_map _ (fun e => by first | rfl | (dsimp only; split <;> rfl)) _ ?_ | with_reducible exact msorted_nil)

theorem settleFrom_sorted {t : State} {a0 : Int}  (h : Sorted t) : Sorted (settleFrom a0 t) := by
  unfold settleFrom
  repeat' (first | with_reducible assumption | with_reducible refine updOwn_sorted ?_ | with_reducible refine Sorted.ite ?_ ?_)

theorem settleEpochs_sorted {t : State}   (h : Sorted t) : Sorted (settleEpochs t) := by
  unfold settleEpochs
  repeat' (first | with_reducible assumption | with_reducible refine settleFrom_sorted ?_ | with_reducible refine Sorted.ite ?_ ?_)

theorem taintOwn_sorted {t : State} {a0 : BitVec 16}  (h : Sorted t) : Sorted (taintOwn a0 t).2 := by
  unfold taintOwn
  repeat' (first | with_reducible assumption | with_reducible refine updOwn_sorted ?_ | dsimp only | with_reducible refine Sorted.ite ?_ ?_ | split)

theorem taintOwn_sorted_eq {t : State} {a0 : BitVec 16}  {x} {u : State} (e : taintOwn a0 t = (x, u)) (h : Sorted t) : Sorted u := by
  have := taintOwn_sorted (t := t) (a0 := a0) h
  rw [e] at this; exact this

theorem freeRound_sorted {t : State} {a0 : Int} {a1 : Nat}  (h : Sorted t) : Sorted (freeRound a0 a1 t).2 := by
  unfold freeRound
  repeat' (first | with_reducible assumption | with_reducible refine takeFree_sorted ?_ | with_reducible refine Sorted.ite ?_ ?_ | split)

theorem freeRound_sorted_eq {t : State} {a0 : Int} {a1 : Nat}  {x} {u : State} (e : freeRound a0 a1 t = (x, u)) (h : Sorted t) : Sorted u := by
  have := freeRound_sorted (t := t) (a0 := a0) (a1 := a1) h
  rw [e] at this; exact this

theorem fillReport_sorted {t : State} {a0 : ErrReport} {a1 : Bool}  (h : Sorted t) : SortedOP (fillReport a0 a1 t) := by
  unfold fillReport
  repeat' (first | with_reducible assumption | with_reducible refine freeRound_sorted ?_ | with_reducible exact SortedOP.none | with_reducible refine SortedOP.some ?_ | dsimp only | with_reducible refine Sorted.ite ?_ ?_ | split)

theorem updVer_sorted {t : State} {a0 : Verdicts → Verdicts} (h_led : msorted (a0 t.ver).led = true) (h : Sorted t) : Sorted (updVer a0 t) := by
  unfold updVer
  repeat' (first | with_reducible assumption | with_reducible refine Sorted.ite ?_ ?_ | with_reducible refine Sorted.set_ver ?_ ?_)

theorem enqueue_sorted {t : State} {a0 : Notice}  (h : Sorted t) : Sorted (enqueue a0 t) := by
  unfold enqueue
  repeat' (first | with_reducible assumption | with_reducible refine updVer_sorted ?_ ?_ | with_reducible refine bump_sorted ?_ | with_reducible refine Sorted.ite ?_ ?_ | with_reducible refine Sorted.ver_led ?_ | with_reducible refine msorted_mset _ _ _ _ ?_ | with_reducible refine msorted_mupd _ _ _ _ ?_ | with_reducible refine msorted_mins _ _ _ ?_ | with_reducible refine msorted_mdel _ _ ?_ | with_reducible refine msorted_filter _ _ ?_ | refine msorted_map _ (fun e => by first | rfl | (dsimp only; split <;> rfl)) _ ?_ | with_reducible exact msorted_nil)

theorem refill_sorted {t : State} {a0 : Nat}  (h : Sorted t) : Sorted (refill a0 t) := by
  induction a0 generalizing t  with
  | zero => exact h
  | succ n ih =>
    unfold refill
    repeat' (first | with_reducible assumption | (with_reducible refine ih ?_) | with_reducible refine enqueue_sorted ?_ | with_reducible refine updVer_sorted ?_ ?_ | with_reducible refine Sorted.ite ?_ ?_ | split | with_reducible refine Sorted.ver_led ?_ | with_reducible refine msorted_mset _ _ _ _ ?_ | with_reducible refine msorted_mupd _ _ _ _ ?_ | with_reducible refine msorted_mins _ _ _ ?_ | with_reducible refine msorted_mdel _ _ ?_ | with_reducible refine msorted_filter _ _ ?_ | refine msorted_map _ (fun e => by first | rfl | (dsimp only; split <;> rfl)) _ ?_ | with_reducible exact msorted_nil)

theorem emitAt_sorted {t : State} {a0 : Nat} {a1 : Notice}  (h : Sorted t) : Sorted (emitAt a0 a1 t) := by
  unfold emitAt
  repeat' (first | with_reducible assumption | with_reducible refine updVer_sorted ?_ ?_ | with_reducible refine acceptRec_sorted ?_ | with_reducible refine refill_sorted ?_ | with_reducible refine closeRun_sorted ?_ | with_reducible refine Sorted.ite ?_ ?_ | with_reducible refine Sorted.set_exempt ?_ | with_reducible refine Sorted.ver_led ?_ | with_reducible refine msorted_mset _ _ _ _ ?_ | with_reducible refine msorted_mupd _ _ _ _ ?_ | with_reducible refine msorted_mins _ _ _ ?_ | with_reducible refine msorted_mdel _ _ ?_ | with_reducible refine msorted_filter _ _ ?_ | refine msorted_map _ (fun e => by first | rfl | (dsimp only; split <;> rfl)) _ ?_ | with_reducible exact msorted_nil)

theorem readyNotice_sorted {t : State} {a0 : Bool} {a1 : Notice}  (h : Sorted t) : SortedOP (readyNotice a0 a1 t) := by
  unfold readyNotice
  split
  · intro x u e
    simp only [Option.map_eq_some_iff] at e
    obtain ⟨⟨r, v⟩, hr, e⟩ := e
    cases e
    exact fillReport_sorted h _ _ hr
  · exact SortedOP.some h

theorem pumpEmit_sorted {t : State} {a0 : Nat}  (h : Sorted t) : Sorted (pumpEmit a0 t) := by
  induction a0 generalizing t  with
  | zero => exact h
  | succ n ih =>
    unfold pumpEmit
    repeat' (first | with_reducible assumption | (with_reducible refine ih ?_) | with_reducible refine bump_sorted ?_ | with_reducible refine emitAt_sorted ?_ | with_reducible refine updVer_sorted ?_ ?_ | with_reducible refine readyNotice_sorted ?_ | with_reducible refine readyNotice_sorted ?_ _ _ (by assumption) | with_reducible refine Sorted.ite ?_ ?_ | split | with_reducible refine Sorted.ver_led ?_ | with_reducible refine msorted_mset _ _ _ _ ?_ | with_reducible refine msorted_mupd _ _ _ _ ?_ | with_reducible refine msorted_mins _ _ _ ?_ | with_reducible refine msorted_mdel _ _ ?_ | with_reducible refine msorted_filter _ _ ?_ | refine msorted_map _ (fun e => by first | rfl | (dsimp only; split <;> rfl)) _ ?_ | with_reducible exact msorted_nil)

theorem pump_sorted {t : State}   (h : Sorted t) : Sorted (pump t) := by
  unfold pump
  repeat' (first | with_reducible assumption | with_reducible refine fenceCount_sorted ?_ | with_reducible refine updVer_sorted ?_ ?_ | with_reducible refine pumpEmit_sorted ?_ | split | with_reducible refine Sorted.ver_led ?_ | with_reducible refine msorted_mset _ _ _ _ ?_ | with_reducible refine msorted_mupd _ _ _ _ ?_ | with_reducible refine msorted_mins _ _ _ ?_ | with_reducible refine msorted_mdel _ _ ?_ | with_reducible refine msorted_filter _ _ ?_ | refine msorted_map _ (fun e => by first | rfl | (dsimp only; split <;> rfl)) _ ?_ | with_reducible exact msorted_nil)

theorem emitNotices_sorted {t : State} {a0 : Nat}  (h : Sorted t) : Sorted (emitNotices a0 t) := by
  unfold emitNotices
  repeat' (first | with_reducible assumption | with_reducible refine pump_sorted ?_ | with_reducible refine updVer_sorted ?_ ?_ | with_reducible refine Sorted.ite ?_ ?_ | with_reducible refine Sorted.ver_led ?_ | with_reducible refine msorted_mset _ _ _ _ ?_ | with_reducible refine msorted_mupd _ _ _ _ ?_ | with_reducible refine msorted_mins _ _ _ ?_ | with_reducible refine msorted_mdel _ _ ?_ | with_reducible refine msorted_filter _ _ ?_ | refine msorted_map _ (fun e => by first | rfl | (dsimp only; split <;> rfl)) _ ?_ | with_reducible exact msorted_nil)

theorem placePoison_sorted {t : State} {a0 : Nat} {a1 : BitVec 32} {a2 : Nat} {a3 : Nat}  (h : Sorted t) : Sorted (placePoison a0 a1 a2 a3 t) := by
  unfold placePoison
  repeat' (first | with_reducible assumption | with_reducible refine stopEvent_sorted ?_ | with_reducible refine bump_sorted ?_ | with_reducible refine pump_sorted ?_ | with_reducible refine enqueue_sorted ?_ | with_reducible refine updVer_sorted ?_ ?_ | with_reducible refine raise_sorted ?_ | with_reducible refine Sorted.ite ?_ ?_ | split | with_reducible refine Sorted.ver_led ?_ | with_reducible refine msorted_mset _ _ _ _ ?_ | with_reducible refine msorted_mupd _ _ _ _ ?_ | with_reducible refine msorted_mins _ _ _ ?_ | with_reducible refine msorted_mdel _ _ ?_ | with_reducible refine msorted_filter _ _ ?_ | refine msorted_map _ (fun e => by first | rfl | (dsimp only; split <;> rfl)) _ ?_ | with_reducible exact msorted_nil)

theorem placeReport_sorted {t : State} {a0 : ErrReport}  (h : Sorted t) : Sorted (placeReport a0 t) := by
  unfold placeReport
  repeat' (first | with_reducible assumption | with_reducible refine pump_sorted ?_ | with_reducible refine enqueue_sorted ?_ | with_reducible refine updVer_sorted ?_ ?_ | with_reducible refine Sorted.ite ?_ ?_ | with_reducible refine Sorted.ver_led ?_ | with_reducible refine msorted_mset _ _ _ _ ?_ | with_reducible refine msorted_mupd _ _ _ _ ?_ | with_reducible refine msorted_mins _ _ _ ?_ | with_reducible refine msorted_mdel _ _ ?_ | with_reducible refine msorted_filter _ _ ?_ | refine msorted_map _ (fun e => by first | rfl | (dsimp only; split <;> rfl)) _ ?_ | with_reducible exact msorted_nil)

theorem workLost_sorted {t : State} {a0 : Nat} {a1 : Nat} {a2 : Nat} {a3 : Nat} {a4 : Nat} {a5 : Nat}  (h : Sorted t) : Sorted (workLost a0 a1 a2 a3 a4 a5 t) := by
  unfold workLost
  repeat' (first | with_reducible assumption | with_reducible refine placeReport_sorted ?_ | with_reducible refine Sorted.ite ?_ ?_)

theorem noticesLost_sorted {t : State} {a0 : Bool}  (h : Sorted t) : Sorted (noticesLost a0 t) := by
  unfold noticesLost
  repeat' (first | with_reducible assumption | with_reducible refine updVer_sorted ?_ ?_ | with_reducible refine workLost_sorted ?_ | with_reducible refine refill_sorted ?_ | with_reducible refine Sorted.ite ?_ ?_ | with_reducible refine Sorted.ver_led ?_ | with_reducible refine msorted_mset _ _ _ _ ?_ | with_reducible refine msorted_mupd _ _ _ _ ?_ | with_reducible refine msorted_mins _ _ _ ?_ | with_reducible refine msorted_mdel _ _ ?_ | with_reducible refine msorted_filter _ _ ?_ | refine msorted_map _ (fun e => by first | rfl | (dsimp only; split <;> rfl)) _ ?_ | with_reducible exact msorted_nil)

theorem logNotice_sorted {t : State} {a0 : Nat} {a1 : Nat} {a2 : BitVec 16}  (h : Sorted t) : Sorted (logNotice a0 a1 a2 t) := by
  unfold logNotice
  repeat' (first | with_reducible assumption | with_reducible refine bump_sorted ?_ | with_reducible refine enqueue_sorted ?_ | with_reducible refine Sorted.ite ?_ ?_)

theorem fillReports_sorted {t : State}   (h : Sorted t) : Sorted (fillReports t) := by
  unfold fillReports
  repeat' (first | with_reducible assumption | with_reducible refine fillReport_sorted ?_ | with_reducible refine fillReport_sorted ?_ _ _ (by assumption) | with_reducible refine pump_sorted ?_ | with_reducible refine updVer_sorted ?_ ?_ | with_reducible refine foldl2_sorted (fun _ _ _ => ?_) ?_ | with_reducible refine Sorted.ite ?_ ?_ | split | with_reducible refine Sorted.ver_led ?_ | with_reducible refine msorted_mset _ _ _ _ ?_ | with_reducible refine msorted_mupd _ _ _ _ ?_ | with_reducible refine msorted_mins _ _ _ ?_ | with_reducible refine msorted_mdel _ _ ?_ | with_reducible refine msorted_filter _ _ ?_ | refine msorted_map _ (fun e => by first | rfl | (dsimp only; split <;> rfl)) _ ?_ | with_reducible exact msorted_nil)

theorem clearBatch_sorted {t : State}   (h : Sorted t) : Sorted (clearBatch t) := by
  unfold clearBatch
  repeat' (first | with_reducible assumption | with_reducible refine settleEpochs_sorted ?_ | with_reducible refine updVer_sorted ?_ ?_ | with_reducible refine pump_sorted ?_ | with_reducible refine enqueue_sorted ?_ | with_reducible refine updOwn_sorted ?_ | with_reducible refine Sorted.ite ?_ ?_ | split | with_reducible refine Sorted.ver_led ?_ | with_reducible refine msorted_mset _ _ _ _ ?_ | with_reducible refine msorted_mupd _ _ _ _ ?_ | with_reducible refine msorted_mins _ _ _ ?_ | with_reducible refine msorted_mdel _ _ ?_ | with_reducible refine msorted_filter _ _ ?_ | refine msorted_map _ (fun e => by first | rfl | (dsimp only; split <;> rfl)) _ ?_ | with_reducible exact msorted_nil)

theorem staleEpoch_sorted {t : State}   (h : Sorted t) : Sorted (staleEpoch t) := by
  unfold staleEpoch
  repeat' (first | with_reducible assumption | with_reducible refine settleEpochs_sorted ?_ | with_reducible refine taintOwn_sorted ?_ | with_reducible refine placePoison_sorted ?_ | with_reducible refine updOwn_sorted ?_ | with_reducible refine Sorted.ite ?_ ?_)

theorem goBlind_sorted {t : State} {a0 : Nat}  (h : Sorted t) : Sorted (goBlind a0 t) := by
  unfold goBlind
  repeat' (first | with_reducible assumption | with_reducible refine raise_sorted ?_ | with_reducible refine updVer_sorted ?_ ?_ | with_reducible refine Sorted.ite ?_ ?_ | with_reducible refine Sorted.ver_led ?_ | with_reducible refine msorted_mset _ _ _ _ ?_ | with_reducible refine msorted_mupd _ _ _ _ ?_ | with_reducible refine msorted_mins _ _ _ ?_ | with_reducible refine msorted_mdel _ _ ?_ | with_reducible refine msorted_filter _ _ ?_ | refine msorted_map _ (fun e => by first | rfl | (dsimp only; split <;> rfl)) _ ?_ | with_reducible exact msorted_nil)

theorem receive_sorted {t : State} {a0 : Receipt}  (h : Sorted t) : Sorted (receive a0 t) := by
  unfold receive
  dsimp only
  split
  · exact goBlind_sorted h
  · next l hl =>
    have hs : msorted l = true := ledgerFor_sorted (d := a0.die.toNat) (e := a0.epoch) hl h.ver_led
    refine Sorted.set_gates (msorted_map _ ?_ _ h.gates) (updVer_sorted ?_ h)
    · exact fun e => rfl
    dsimp only
    split
    · exact msorted_mins _ _ _ hs
    · exact hs

theorem passReceipt_sorted {t : State} {a0 : Nat}  (h : Sorted t) : Sorted (passReceipt a0 t) := by
  unfold passReceipt
  repeat' (first | with_reducible assumption | with_reducible refine receive_sorted ?_ | with_reducible refine updLink_sorted ?_ | with_reducible refine Sorted.ite ?_ ?_ | split)

theorem queueReceipt_sorted {t : State} {a0 : Nat} {a1 : Receipt}  (h : Sorted t) : Sorted (queueReceipt a0 a1 t) := by
  unfold queueReceipt
  repeat' (first | with_reducible assumption | with_reducible refine goBlind_sorted ?_ | with_reducible refine updLink_sorted ?_ | with_reducible refine Sorted.ite ?_ ?_)

theorem absolveOwn_sorted {t : State} {a0 : BitVec 16}  (h : Sorted t) : Sorted (absolveOwn a0 t) := by
  unfold absolveOwn
  repeat' (first | with_reducible assumption | with_reducible refine updOwn_sorted ?_ | with_reducible refine Sorted.ite ?_ ?_)

theorem carryEpochs_sorted {t : State} {a0 : State}  (h : Sorted t) : Sorted (carryEpochs a0 t) := by
  unfold carryEpochs
  repeat' (first | with_reducible assumption | with_reducible refine updOwn_sorted ?_ | with_reducible refine Sorted.ite ?_ ?_)

theorem poisonOwn_sorted {t : State} {a0 : BitVec 16}  (h : Sorted t) : Sorted (poisonOwn a0 t) := by
  unfold poisonOwn
  repeat' (first | with_reducible assumption | with_reducible refine settleEpochs_sorted ?_ | with_reducible refine raise_sorted ?_ | with_reducible refine bump_sorted ?_ | with_reducible refine updOwn_sorted ?_ | with_reducible refine placePoison_sorted ?_ | with_reducible refine taintOwn_sorted ?_ | with_reducible refine Sorted.ite ?_ ?_)

theorem poisonOther_sorted {t : State} {a0 : Nat} {a1 : BitVec 16}  (h : Sorted t) : Sorted (poisonOther a0 a1 t) := by
  unfold poisonOther
  dsimp only
  split
  · exact goBlind_sorted h
  · next l hl =>
    have hs := ledgerFor_sorted hl h.ver_led
    split
    · exact h
    · exact Sorted.ite (raise_sorted (bump_sorted (updVer_sorted (msorted_mins _ _ _ hs) h))) (updVer_sorted (msorted_mins _ _ _ hs) h)

theorem updLed_sorted {t : State} {a0 : Nat} {a1 : LedEnt → LedEnt}  (h : Sorted t) : Sorted (updLed a0 a1 t) := by
  unfold updLed
  repeat' (first | with_reducible assumption | with_reducible refine updVer_sorted ?_ ?_ | with_reducible refine Sorted.ite ?_ ?_ | split | with_reducible refine Sorted.ver_led ?_ | with_reducible refine msorted_mset _ _ _ _ ?_ | with_reducible refine msorted_mupd _ _ _ _ ?_ | with_reducible refine msorted_mins _ _ _ ?_ | with_reducible refine msorted_mdel _ _ ?_ | with_reducible refine msorted_filter _ _ ?_ | refine msorted_map _ (fun e => by first | rfl | (dsimp only; split <;> rfl)) _ ?_ | with_reducible exact msorted_nil)

theorem noticeIn_sorted {t : State} {a0 : Nat} {a1 : Nat} {a2 : BitVec 16}  (h : Sorted t) : SortedO (noticeIn a0 a1 a2 t) := by
  unfold noticeIn
  repeat' (first | with_reducible assumption | with_reducible refine bump_sorted ?_ | with_reducible refine poisonOwn_sorted ?_ | with_reducible refine poisonOther_sorted ?_ | with_reducible refine updLed_sorted ?_ | with_reducible refine absolveOwn_sorted ?_ | with_reducible refine settleEpochs_sorted ?_ | with_reducible refine updOwn_sorted ?_ | with_reducible refine pump_sorted ?_ | with_reducible refine logNotice_sorted ?_ | with_reducible exact SortedO.none | with_reducible refine SortedO.some ?_ | with_reducible refine SortedO.ite ?_ ?_ | split)

theorem updGate_sorted {t : State} {a0 : Nat} {a1 : HedGate → HedGate}  (h : Sorted t) : Sorted (updGate a0 a1 t) := by
  unfold updGate
  repeat' (first | with_reducible assumption | with_reducible refine Sorted.ite ?_ ?_ | with_reducible refine Sorted.set_gates ?_ ?_ | with_reducible refine Sorted.gates ?_ | with_reducible refine msorted_mset _ _ _ _ ?_ | with_reducible refine msorted_mupd _ _ _ _ ?_ | with_reducible refine msorted_mins _ _ _ ?_ | with_reducible refine msorted_mdel _ _ ?_ | with_reducible refine msorted_filter _ _ ?_ | refine msorted_map _ (fun e => by first | rfl | (dsimp only; split <;> rfl)) _ ?_ | with_reducible exact msorted_nil)

theorem startGate_sorted {t : State} {a0 : Nat} {a1 : Nat} {a2 : Bt}  (h : Sorted t) : Sorted (startGate a0 a1 a2 t) := by
  unfold startGate
  repeat' (first | with_reducible assumption | with_reducible refine updGate_sorted ?_ | with_reducible refine Sorted.ite ?_ ?_)

theorem gateAnswer_sorted {t : State} {a0 : Nat}  (h : Sorted t) : Sorted (gateAnswer a0 t) := by
  unfold gateAnswer
  repeat' (first | with_reducible assumption | with_reducible refine count_sorted ?_ | with_reducible refine updGate_sorted ?_)

theorem gateOpen_sorted {t : State} {a0 : Nat}  (h : Sorted t) : Sorted (gateOpen a0 t) := by
  unfold gateOpen
  repeat' (first | with_reducible assumption | with_reducible refine settleEpochs_sorted ?_ | with_reducible refine gateAnswer_sorted ?_ | with_reducible refine startGate_sorted ?_ | with_reducible refine Sorted.ite ?_ ?_ | split)

theorem gateRequest_sorted {t : State} {a0 : Nat} {a1 : BitVec 4} {a2 : Tdc}  (h : Sorted t) : Sorted (gateRequest a0 a1 a2 t) := by
  unfold gateRequest
  repeat' (first | with_reducible assumption | with_reducible refine updGate_sorted ?_ | with_reducible refine setPortErr_sorted ?_ | with_reducible refine bump_sorted ?_ | with_reducible refine startGate_sorted ?_ | with_reducible refine gateOpen_sorted ?_ | (extract_lets +onlyGivenNames x; refine (fun (hx : Sorted x) => ?_) ?_; rotate_left; dsimp only [x]; clear x; rotate_right; clear_value x) | with_reducible refine Sorted.ite ?_ ?_ | split)

theorem gateReleased_sorted {t : State} {a0 : Nat}  (h : Sorted t) : Sorted (gateReleased a0 t) := by
  unfold gateReleased
  repeat' (first | with_reducible assumption | with_reducible refine raise_sorted ?_ | with_reducible refine bump_sorted ?_ | with_reducible refine updGate_sorted ?_ | dsimp only | with_reducible refine Sorted.ite ?_ ?_ | split)

theorem updTests_sorted {t : State} {a0 : Tests → Tests} (h_states : msorted (a0 t.tests).states = true) (h : Sorted t) : Sorted (updTests a0 t) := by
  unfold updTests
  repeat' (first | with_reducible assumption | with_reducible refine Sorted.ite ?_ ?_ | with_reducible refine Sorted.set_tests ?_ ?_)

theorem offerTests_sorted {t : State}   (h : Sorted t) : Sorted (offerTests t) := by
  unfold offerTests
  repeat' (first | with_reducible assumption | with_reducible refine updTests_sorted ?_ ?_ | with_reducible refine foldl_sorted (fun _ _ _ => ?_) ?_ | with_reducible refine Sorted.ite ?_ ?_ | with_reducible refine Sorted.tests_states ?_ | with_reducible refine msorted_mset _ _ _ _ ?_ | with_reducible refine msorted_mupd _ _ _ _ ?_ | with_reducible refine msorted_mins _ _ _ ?_ | with_reducible refine msorted_mdel _ _ ?_ | with_reducible refine msorted_filter _ _ ?_ | refine msorted_map _ (fun e => by first | rfl | (dsimp only; split <;> rfl)) _ ?_ | with_reducible exact msorted_nil)

theorem testTrigger_sorted {t : State} {a0 : Nat} {a1 : Nat} {a2 : Nat}  (h : Sorted t) : Sorted (testTrigger a0 a1 a2 t) := by
  unfold testTrigger
  repeat' (first | with_reducible assumption | with_reducible refine updTests_sorted ?_ ?_ | with_reducible refine foldl_sorted (fun _ _ _ => ?_) ?_ | with_reducible refine Sorted.ite ?_ ?_ | with_reducible refine Sorted.tests_states ?_ | with_reducible refine msorted_mset _ _ _ _ ?_ | with_reducible refine msorted_mupd _ _ _ _ ?_ | with_reducible refine msorted_mins _ _ _ ?_ | with_reducible refine msorted_mdel _ _ ?_ | with_reducible refine msorted_filter _ _ ?_ | refine msorted_map _ (fun e => by first | rfl | (dsimp only; split <;> rfl)) _ ?_ | with_reducible exact msorted_nil)

theorem testRequest_sorted {t : State} {a0 : Nat} {a1 : Nat} {a2 : Nat} {a3 : TestState}  (h : Sorted t) : Sorted (testRequest a0 a1 a2 a3 t) := by
  unfold testRequest
  repeat' (first | with_reducible assumption | with_reducible refine raise_sorted ?_ | with_reducible refine offerTests_sorted ?_ | with_reducible refine updTests_sorted ?_ ?_ | with_reducible refine Sorted.ite ?_ ?_ | with_reducible refine Sorted.tests_states ?_ | with_reducible refine msorted_mset _ _ _ _ ?_ | with_reducible refine msorted_mupd _ _ _ _ ?_ | with_reducible refine msorted_mins _ _ _ ?_ | with_reducible refine msorted_mdel _ _ ?_ | with_reducible refine msorted_filter _ _ ?_ | refine msorted_map _ (fun e => by first | rfl | (dsimp only; split <;> rfl)) _ ?_ | with_reducible exact msorted_nil)

theorem testMarker_sorted {t : State} {a0 : Nat} {a1 : Nat}  (h : Sorted t) : Sorted (testMarker a0 a1 t) := by
  unfold testMarker
  repeat' (first | with_reducible assumption | with_reducible refine testRequest_sorted ?_ | with_reducible refine foldl_sorted (fun _ _ _ => ?_) ?_ | with_reducible refine Sorted.ite ?_ ?_)

theorem testReport_sorted {t : State} {a0 : Nat} {a1 : Nat} {a2 : BitVec 32} {a3 : Nat} {a4 : TestState}  (h : Sorted t) : Sorted (testReport a0 a1 a2 a3 a4 t) := by
  unfold testReport
  repeat' (first | with_reducible assumption | with_reducible refine updTests_sorted ?_ ?_ | with_reducible refine placeReport_sorted ?_ | with_reducible refine Sorted.ite ?_ ?_ | split | with_reducible refine Sorted.tests_states ?_ | with_reducible refine msorted_mset _ _ _ _ ?_ | with_reducible refine msorted_mupd _ _ _ _ ?_ | with_reducible refine msorted_mins _ _ _ ?_ | with_reducible refine msorted_mdel _ _ ?_ | with_reducible refine msorted_filter _ _ ?_ | refine msorted_map _ (fun e => by first | rfl | (dsimp only; split <;> rfl)) _ ?_ | with_reducible exact msorted_nil)

theorem testDeadline_sorted {t : State} {a0 : Nat} {a1 : Nat}  (h : Sorted t) : Sorted (testDeadline a0 a1 t) := by
  unfold testDeadline
  repeat' (first | with_reducible assumption | with_reducible refine testRequest_sorted ?_ | with_reducible refine testReport_sorted ?_ | dsimp only | with_reducible refine Sorted.ite ?_ ?_ | split)

theorem testResult_sorted {t : State} {a0 : Nat} {a1 : Nat} {a2 : Nat} {a3 : Bt} {a4 : BitVec 32} {a5 : Nat}  (h : Sorted t) : Sorted (testResult a0 a1 a2 a3 a4 a5 t).2 := by
  unfold testResult
  repeat' (first | with_reducible assumption | with_reducible refine testReport_sorted ?_ | with_reducible refine foldl2_sorted (fun _ _ _ => ?_) ?_ | with_reducible refine Sorted.ite ?_ ?_ | split)

theorem testResult_sorted_eq {t : State} {a0 : Nat} {a1 : Nat} {a2 : Nat} {a3 : Bt} {a4 : BitVec 32} {a5 : Nat}  {x} {u : State} (e : testResult a0 a1 a2 a3 a4 a5 t = (x, u)) (h : Sorted t) : Sorted u := by
  have := testResult_sorted (t := t) (a0 := a0) (a1 := a1) (a2 := a2) (a3 := a3) (a4 := a4) (a5 := a5) h
  rw [e] at this; exact this

theorem testRetired_sorted {t : State} {a0 : Nat}  (h : Sorted t) : Sorted (testRetired a0 t) := by
  unfold testRetired
  repeat' (first | with_reducible assumption | with_reducible refine testReport_sorted ?_ | with_reducible refine foldl_sorted (fun _ _ _ => ?_) ?_ | with_reducible refine Sorted.ite ?_ ?_)

theorem testEnabled_sorted {t : State} {a0 : Nat}  (h : Sorted t) : Sorted (testEnabled a0 t) := by
  unfold testEnabled
  repeat' (first | with_reducible assumption | with_reducible refine updTests_sorted ?_ ?_ | with_reducible refine testTrigger_sorted ?_ | with_reducible refine Sorted.ite ?_ ?_ | with_reducible refine Sorted.tests_states ?_ | with_reducible refine msorted_mset _ _ _ _ ?_ | with_reducible refine msorted_mupd _ _ _ _ ?_ | with_reducible refine msorted_mins _ _ _ ?_ | with_reducible refine msorted_mdel _ _ ?_ | with_reducible refine msorted_filter _ _ ?_ | refine msorted_map _ (fun e => by first | rfl | (dsimp only; split <;> rfl)) _ ?_ | with_reducible exact msorted_nil)

theorem freezeTests_sorted {t : State}   (h : Sorted t) : Sorted (freezeTests t) := by
  unfold freezeTests
  repeat' (first | with_reducible assumption | with_reducible refine updTests_sorted ?_ ?_ | with_reducible refine Sorted.ite ?_ ?_ | split | with_reducible refine Sorted.tests_states ?_ | with_reducible refine msorted_mset _ _ _ _ ?_ | with_reducible refine msorted_mupd _ _ _ _ ?_ | with_reducible refine msorted_mins _ _ _ ?_ | with_reducible refine msorted_mdel _ _ ?_ | with_reducible refine msorted_filter _ _ ?_ | refine msorted_map _ (fun e => by first | rfl | (dsimp only; split <;> rfl)) _ ?_ | with_reducible exact msorted_nil)

theorem testNext_sorted {t : State}   (h : Sorted t) : Sorted (testNext t).2 := by
  unfold testNext
  repeat' (first | with_reducible assumption | with_reducible refine offerTests_sorted ?_ | with_reducible refine updTests_sorted ?_ ?_ | with_reducible refine Sorted.ite ?_ ?_ | split | with_reducible refine Sorted.tests_states ?_ | with_reducible refine msorted_mset _ _ _ _ ?_ | with_reducible refine msorted_mupd _ _ _ _ ?_ | with_reducible refine msorted_mins _ _ _ ?_ | with_reducible refine msorted_mdel _ _ ?_ | with_reducible refine msorted_filter _ _ ?_ | refine msorted_map _ (fun e => by first | rfl | (dsimp only; split <;> rfl)) _ ?_ | with_reducible exact msorted_nil)

theorem testNext_sorted_eq {t : State}   {x} {u : State} (e : testNext t = (x, u)) (h : Sorted t) : Sorted u := by
  have := testNext_sorted (t := t)  h
  rw [e] at this; exact this

theorem manifestDone_sorted {t : State}   (h : Sorted t) : Sorted (manifestDone t) := by
  unfold manifestDone
  repeat' (first | with_reducible assumption | with_reducible refine updTests_sorted ?_ ?_ | with_reducible refine setErr_sorted ?_ | with_reducible refine Sorted.ite ?_ ?_ | split | with_reducible refine Sorted.tests_states ?_ | with_reducible refine msorted_mset _ _ _ _ ?_ | with_reducible refine msorted_mupd _ _ _ _ ?_ | with_reducible refine msorted_mins _ _ _ ?_ | with_reducible refine msorted_mdel _ _ ?_ | with_reducible refine msorted_filter _ _ ?_ | refine msorted_map _ (fun e => by first | rfl | (dsimp only; split <;> rfl)) _ ?_ | with_reducible exact msorted_nil)

theorem updTime_sorted {t : State} {a0 : Nat} {a1 : LinkTime → LinkTime}  (h : Sorted t) : Sorted (updTime a0 a1 t) := by
  unfold updTime
  repeat' (first | with_reducible assumption | with_reducible refine Sorted.ite ?_ ?_ | with_reducible refine Sorted.set_linkTimes ?_ ?_ | with_reducible refine Sorted.linkTimes ?_ | with_reducible refine msorted_mset _ _ _ _ ?_ | with_reducible refine msorted_mupd _ _ _ _ ?_ | with_reducible refine msorted_mins _ _ _ ?_ | with_reducible refine msorted_mdel _ _ ?_ | with_reducible refine msorted_filter _ _ ?_ | refine msorted_map _ (fun e => by first | rfl | (dsimp only; split <;> rfl)) _ ?_ | with_reducible exact msorted_nil)

theorem holdLnk_sorted {t : State} {a0 : Nat} {a1 : LinkHeld}  (h : Sorted t) : Sorted (holdLnk a0 a1 t) := by
  unfold holdLnk
  repeat' (first | with_reducible assumption | with_reducible refine updLink_sorted ?_)

theorem linkEvent_sorted {t : State} {a0 : Nat} {a1 : Nat} {a2 : At} {a3 : BitVec 2} {a4 : Nat}  (h : Sorted t) : Sorted (linkEvent a0 a1 a2 a3 a4 t) := by
  unfold linkEvent
  repeat' (first | with_reducible assumption | with_reducible refine holdLnk_sorted ?_ | dsimp only | with_reducible refine Sorted.ite ?_ ?_)

theorem linkEventNow_sorted {t : State} {a0 : Nat} {a1 : Nat}  (h : Sorted t) : Sorted (linkEventNow a0 a1 t) := by
  unfold linkEventNow
  repeat' (first | with_reducible assumption | with_reducible refine linkEvent_sorted ?_)

theorem freezeForStop_sorted {t : State} {a0 : Nat} {a1 : Bool} {a2 : Nat}  (h : Sorted t) : Sorted (freezeForStop a0 a1 a2 t) := by
  unfold freezeForStop
  repeat' (first | with_reducible assumption | with_reducible refine holdLnk_sorted ?_ | with_reducible refine updLink_sorted ?_ | dsimp only | with_reducible refine Sorted.ite ?_ ?_)

theorem linkCut_sorted {t : State} {a0 : Nat} {a1 : Nat}  (h : Sorted t) : Sorted (linkCut a0 a1 t) := by
  unfold linkCut
  repeat' (first | with_reducible assumption | with_reducible refine updLink_sorted ?_ | with_reducible refine freezeForStop_sorted ?_ | with_reducible refine Sorted.ite ?_ ?_)

theorem graceExpiry_sorted {t : State} {a0 : Nat}  (h : Sorted t) : Sorted (graceExpiry a0 t) := by
  unfold graceExpiry
  repeat' (first | with_reducible assumption | with_reducible refine freezeForStop_sorted ?_ | with_reducible refine Sorted.ite ?_ ?_)

theorem linkResume_sorted {t : State} {a0 : Nat}  (h : Sorted t) : Sorted (linkResume a0 t) := by
  unfold linkResume
  repeat' (first | with_reducible assumption | with_reducible refine updLink_sorted ?_ | with_reducible refine Sorted.ite ?_ ?_)

theorem ringPut_sorted {t : State} {a0 : Nat} {a1 : Hdr} {a2 : Nat}  (h : Sorted t) : Sorted (ringPut a0 a1 a2 t) := by
  unfold ringPut
  repeat' (first | with_reducible assumption | with_reducible refine updLink_sorted ?_ | with_reducible refine Sorted.ite ?_ ?_)

theorem loseHeaders_sorted {t : State} {a0 : Nat} {a1 : Nat}  (h : Sorted t) : Sorted (loseHeaders a0 a1 t) := by
  unfold loseHeaders
  repeat' (first | with_reducible assumption | with_reducible refine updLink_sorted ?_ | with_reducible refine bump_sorted ?_ | with_reducible refine Sorted.ite ?_ ?_)

theorem headerCapture_sorted {t : State} {a0 : Nat} {a1 : Hdr}  (h : Sorted t) : Sorted (headerCapture a0 a1 t) := by
  unfold headerCapture
  repeat' (first | with_reducible assumption | with_reducible refine updLink_sorted ?_ | with_reducible refine setPortErr_sorted ?_ | with_reducible refine loseHeaders_sorted ?_ | with_reducible refine goBlind_sorted ?_ | with_reducible refine queueReceipt_sorted ?_ | with_reducible refine ringPut_sorted ?_ | with_reducible refine bump_sorted ?_ | with_reducible refine setErr_sorted ?_ | with_reducible refine Sorted.ite ?_ ?_)

theorem ringRelease_sorted {t : State} {a0 : Nat}  (h : Sorted t) : SortedO (ringRelease a0 t) := by
  unfold ringRelease
  repeat' (first | with_reducible assumption | with_reducible refine linkEventNow_sorted ?_ | with_reducible refine updLink_sorted ?_ | with_reducible exact SortedO.none | with_reducible refine SortedO.some ?_ | with_reducible refine SortedO.ite ?_ ?_)

theorem updThreads_sorted {t : State} {a0 : Nat} {a1 : Thread → Bool} {a2 : Thread → Thread}  (h : Sorted t) : Sorted (updThreads a0 a1 a2 t) := by
  unfold updThreads
  repeat' (first | with_reducible assumption | with_reducible refine updLink_sorted ?_ | with_reducible refine Sorted.ite ?_ ?_)

theorem listStep_sorted {t : State} {a0 : Nat}  (h : Sorted t) : Sorted (listStep a0 t).2 := by
  unfold listStep
  repeat' (first | with_reducible assumption | with_reducible refine emitExempt_sorted ?_ | with_reducible refine updThreads_sorted ?_ | with_reducible refine updLink_sorted ?_ | dsimp only | with_reducible refine Sorted.ite ?_ ?_ | split)

theorem listStep_sorted_eq {t : State} {a0 : Nat}  {x} {u : State} (e : listStep a0 t = (x, u)) (h : Sorted t) : Sorted u := by
  have := listStep_sorted (t := t) (a0 := a0) h
  rw [e] at this; exact this

theorem listPump_sorted {t : State} {a0 : Nat} {a1 : Nat}  (h : Sorted t) : Sorted (listPump a0 a1 t) := by
  induction a0 generalizing t a1 with
  | zero => exact h
  | succ n ih =>
    unfold listPump
    repeat' (first | with_reducible assumption | (with_reducible refine ih ?_) | with_reducible refine listStep_sorted ?_ | with_reducible refine Sorted.ite ?_ ?_)

theorem LinkHeld_take_sorted {t : State} {a0 : Nat} {a1 : LinkHeld}  (h : Sorted t) : Sorted (LinkHeld.take a0 a1 t) := by
  unfold LinkHeld.take
  repeat' (first | with_reducible assumption | with_reducible refine emitExempt_sorted ?_ | with_reducible refine updLink_sorted ?_ | with_reducible refine Sorted.ite ?_ ?_ | split)

theorem offerLnk_sorted {t : State} {a0 : Nat} {a2 : LinkHeld}  (h : Sorted t) : Sorted (offerLnk a0 t a2) := by
  unfold offerLnk
  repeat' (first | with_reducible assumption | with_reducible refine holdLnk_sorted ?_ | with_reducible refine LinkHeld_take_sorted ?_ | with_reducible refine Sorted.ite ?_ ?_)

theorem settleEvents_sorted {t : State} {a0 : Nat}  (h : Sorted t) : Sorted (settleEvents a0 t) := by
  unfold settleEvents
  repeat' (first | with_reducible assumption | with_reducible refine offerLnk_sorted ?_ | with_reducible refine updLink_sorted ?_ | with_reducible refine foldl_sorted (fun _ _ _ => ?_) ?_ | with_reducible refine Sorted.ite ?_ ?_)

theorem settleLnk_sorted {t : State} {a0 : Nat}  (h : Sorted t) : Sorted (settleLnk a0 t) := by
  unfold settleLnk
  repeat' (first | with_reducible assumption | with_reducible refine settleEvents_sorted ?_ | with_reducible refine listPump_sorted ?_)

theorem closeList_sorted {t : State} {a0 : Nat} {a1 : Nat} {a2 : Bool}  (h : Sorted t) : Sorted (closeList a0 a1 a2 t) := by
  unfold closeList
  repeat' (first | with_reducible assumption | with_reducible refine updThreads_sorted ?_ | with_reducible refine Sorted.ite ?_ ?_)

theorem linkDown_sorted {t : State} {a0 : Nat} {a1 : Nat} {a2 : Bt}  (h : Sorted t) : Sorted (linkDown a0 a1 a2 t) := by
  unfold linkDown
  repeat' (first | with_reducible assumption | with_reducible refine freezeForStop_sorted ?_ | with_reducible refine updLink_sorted ?_ | with_reducible refine settleLnk_sorted ?_ | with_reducible refine closeList_sorted ?_ | with_reducible refine Sorted.ite ?_ ?_)

theorem unackEntry_sorted {t : State} {a0 : Nat} {a1 : BitVec 32} {a2 : BitVec 32}  (h : Sorted t) : Sorted (unackEntry a0 a1 a2 t) := by
  unfold unackEntry
  repeat' (first | with_reducible assumption | with_reducible refine bump_sorted ?_ | with_reducible refine setPortErr_sorted ?_ | with_reducible refine setErr_sorted ?_ | with_reducible refine updThreads_sorted ?_ | with_reducible refine settleLnk_sorted ?_ | with_reducible refine Sorted.ite ?_ ?_ | split)

theorem unackEnd_sorted {t : State} {a0 : Nat}  (h : Sorted t) : Sorted (unackEnd a0 t) := by
  unfold unackEnd
  repeat' (first | with_reducible assumption | with_reducible refine setPortErr_sorted ?_ | with_reducible refine settleLnk_sorted ?_ | with_reducible refine closeList_sorted ?_ | with_reducible refine updThreads_sorted ?_ | with_reducible refine Sorted.ite ?_ ?_)

theorem listTimeout_sorted {t : State} {a0 : Nat}  (h : Sorted t) : Sorted (listTimeout a0 t) := by
  unfold listTimeout
  repeat' (first | with_reducible assumption | with_reducible refine settleLnk_sorted ?_ | with_reducible refine setErr_sorted ?_ | with_reducible refine closeList_sorted ?_ | with_reducible refine Sorted.ite ?_ ?_ | split)

theorem linkFails_sorted {t : State} {a0 : Nat}  (h : Sorted t) : Sorted (linkFails a0 t) := by
  unfold linkFails
  repeat' (first | with_reducible assumption | with_reducible refine updLink_sorted ?_ | with_reducible refine Sorted.ite ?_ ?_)

theorem linkLeaves_sorted {t : State} {a0 : Nat}  (h : Sorted t) : Sorted (linkLeaves a0 t) := by
  unfold linkLeaves
  repeat' (first | with_reducible assumption | with_reducible refine updLink_sorted ?_ | with_reducible refine goBlind_sorted ?_ | with_reducible refine Sorted.ite ?_ ?_)

theorem epochQuery_sorted {t : State} {a0 : Nat} {a1 : Nat}  (h : Sorted t) : Sorted (epochQuery a0 a1 t) := by
  unfold epochQuery
  repeat' (first | with_reducible assumption | with_reducible refine updLink_sorted ?_ | with_reducible refine Sorted.ite ?_ ?_)

theorem updCal_sorted {t : State} {a0 : Cal → Cal} (h_lin : msorted (a0 t.cal).lin = true) (h_linOld : msorted (a0 t.cal).linOld = true) (h_words : msorted (a0 t.cal).words = true) (h_store : msorted (a0 t.cal).store = true) (h : Sorted t) : Sorted (updCal a0 t) := by
  unfold updCal
  repeat' (first | with_reducible assumption | with_reducible refine Sorted.ite ?_ ?_ | with_reducible refine Sorted.set_cal ?_ ?_ ?_ ?_ ?_)

theorem calPut_sorted {t : State} {a0 : Nat} {a1 : Nat} {a2 : Word}  (h : Sorted t) : Sorted (calPut a0 a1 a2 t) := by
  unfold calPut
  repeat' (first | with_reducible assumption | with_reducible refine updCal_sorted ?_ ?_ ?_ ?_ ?_ | with_reducible refine Sorted.ite ?_ ?_ | split | with_reducible refine Sorted.cal_lin ?_ | with_reducible refine Sorted.cal_linOld ?_ | with_reducible refine Sorted.cal_words ?_ | with_reducible refine Sorted.cal_store ?_ | with_reducible refine msorted_mset _ _ _ _ ?_ | with_reducible refine msorted_mupd _ _ _ _ ?_ | with_reducible refine msorted_mins _ _ _ ?_ | with_reducible refine msorted_mdel _ _ ?_ | with_reducible refine msorted_filter _ _ ?_ | refine msorted_map _ (fun e => by first | rfl | (dsimp only; split <;> rfl)) _ ?_ | with_reducible exact msorted_nil)

theorem calAccess_sorted {t : State} {a0 : Option Word}  (h : Sorted t) : SortedOP (calAccess a0 t) := by
  unfold calAccess
  repeat' (first | with_reducible assumption | with_reducible refine calPut_sorted ?_ | with_reducible refine regSetFld_sorted ?_ | with_reducible exact SortedOP.none | with_reducible refine SortedOP.some ?_ | dsimp only | with_reducible refine Sorted.ite ?_ ?_ | split)

theorem calStoreWrite_sorted {t : State} {a0 : Bool}  (h : Sorted t) : Sorted (calStoreWrite a0 t) := by
  unfold calStoreWrite
  repeat' (first | with_reducible assumption | with_reducible refine updCal_sorted ?_ ?_ ?_ ?_ ?_ | with_reducible refine takeFree_sorted ?_ | with_reducible refine setErr_sorted ?_ | with_reducible refine Sorted.ite ?_ ?_ | split | with_reducible refine Sorted.cal_lin ?_ | with_reducible refine Sorted.cal_linOld ?_ | with_reducible refine Sorted.cal_words ?_ | with_reducible refine Sorted.cal_store ?_ | with_reducible refine msorted_mset _ _ _ _ ?_ | with_reducible refine msorted_mupd _ _ _ _ ?_ | with_reducible refine msorted_mins _ _ _ ?_ | with_reducible refine msorted_mdel _ _ ?_ | with_reducible refine msorted_filter _ _ ?_ | refine msorted_map _ (fun e => by first | rfl | (dsimp only; split <;> rfl)) _ ?_ | with_reducible exact msorted_nil)

theorem calStart_sorted {t : State}   (h : Sorted t) : Sorted (calStart t) := by
  unfold calStart
  repeat' (first | with_reducible assumption | with_reducible refine Sorted.ite ?_ ?_ | with_reducible refine Sorted.set_tim ?_)

theorem calPartReset_sorted {t : State} {a0 : Nat}  (h : Sorted t) : Sorted (calPartReset a0 t) := by
  unfold calPartReset
  repeat' (first | with_reducible assumption | with_reducible refine setErr_sorted ?_ | with_reducible refine Sorted.ite ?_ ?_ | with_reducible refine Sorted.set_tim ?_)

theorem supplyByte_sorted {t : State} {a1 : Nat} {a2 : Nat}  (h : Sorted t) : Sorted (supplyByte t a1 a2).2 := by
  unfold supplyByte
  repeat' (first | with_reducible assumption | with_reducible refine freeRound_sorted ?_ | with_reducible refine Sorted.ite ?_ ?_ | split)

theorem supplyByte_sorted_eq {t : State} {a1 : Nat} {a2 : Nat}  {x} {u : State} (e : supplyByte t a1 a2 = (x, u)) (h : Sorted t) : Sorted u := by
  have := supplyByte_sorted (t := t) (a1 := a1) (a2 := a2) h
  rw [e] at this; exact this

theorem storeLine_sorted {t : State} {a0 : List (Nat × Word)} {a1 : Nat} {a2 : Nat}  (h : Sorted t) : Sorted (storeLine a0 a1 a2 t) := by
  unfold storeLine
  repeat' (first | with_reducible assumption | with_reducible refine supplyByte_sorted ?_ | with_reducible refine calPut_sorted ?_ | with_reducible refine Sorted.ite ?_ ?_)

theorem storePoint_sorted {t : State} {a0 : List (Nat × Word)} {a1 : Nat}  (h : Sorted t) : Sorted (storePoint a0 a1 t) := by
  unfold storePoint
  repeat' (first | with_reducible assumption | with_reducible refine storeLine_sorted ?_ | with_reducible refine updCal_sorted ?_ ?_ ?_ ?_ ?_ | with_reducible refine Sorted.ite ?_ ?_ | with_reducible refine Sorted.cal_lin ?_ | with_reducible refine Sorted.cal_linOld ?_ | with_reducible refine Sorted.cal_words ?_ | with_reducible refine Sorted.cal_store ?_ | with_reducible refine msorted_mset _ _ _ _ ?_ | with_reducible refine msorted_mupd _ _ _ _ ?_ | with_reducible refine msorted_mins _ _ _ ?_ | with_reducible refine msorted_mdel _ _ ?_ | with_reducible refine msorted_filter _ _ ?_ | refine msorted_map _ (fun e => by first | rfl | (dsimp only; split <;> rfl)) _ ?_ | with_reducible exact msorted_nil)

theorem storeTemp_sorted {t : State} {a0 : Nat}  (h : Sorted t) : Sorted (storeTemp a0 t) := by
  unfold storeTemp
  repeat' (first | with_reducible assumption | with_reducible refine freeRound_sorted ?_ | with_reducible refine calPut_sorted ?_ | with_reducible refine Sorted.ite ?_ ?_ | split)

theorem calRunComplete_sorted {t : State} {a0 : List (Nat × Word)} {a1 : List Nat}  (h : Sorted t) : Sorted (calRunComplete a0 a1 t) := by
  unfold calRunComplete
  repeat' (first | with_reducible assumption | with_reducible refine storePoint_sorted ?_ | with_reducible refine storeTemp_sorted ?_ | with_reducible refine regPut_sorted ?_ | with_reducible refine setErr_sorted ?_ | with_reducible refine foldl_sorted (fun _ _ _ => ?_) ?_ | with_reducible refine Sorted.ite ?_ ?_ | with_reducible refine Sorted.set_tim ?_)

theorem trimSample_sorted {t : State} {a0 : Nat} {a1 : Bool} {a2 : BitVec 16}  (h : Sorted t) : Sorted (trimSample a0 a1 a2 t).2 := by
  unfold trimSample
  repeat' (first | with_reducible assumption | with_reducible refine freeRound_sorted ?_ | with_reducible refine takeFree_sorted ?_ | dsimp only | with_reducible refine Sorted.ite ?_ ?_ | split)

theorem trimSample_sorted_eq {t : State} {a0 : Nat} {a1 : Bool} {a2 : BitVec 16}  {x} {u : State} (e : trimSample a0 a1 a2 t = (x, u)) (h : Sorted t) : Sorted u := by
  have := trimSample_sorted (t := t) (a0 := a0) (a1 := a1) (a2 := a2) h
  rw [e] at this; exact this

theorem calRises_sorted {t : State}   (h : Sorted t) : Sorted (calRises t) := by
  unfold calRises
  repeat' (first | with_reducible assumption | with_reducible refine raise_sorted ?_ | with_reducible refine calStart_sorted ?_ | with_reducible refine Sorted.ite ?_ ?_ | with_reducible refine Sorted.set_tim ?_)

theorem mapChannel_sorted {t : State} {a0 : Nat}  (h : Sorted t) : Sorted (mapChannel a0 t) := by
  unfold mapChannel
  dsimp only
  refine Sorted.ite h ?_
  have e : msorted (if bit (regGet t pgHub (768 + 8 * a0)) 62 = bit (snsMap t a0) 62 then t.sens else mset [] t.sens a0 []) = true := by
    split
    · exact h.sens
    · exact msorted_mset _ _ _ _ h.sens
  exact Sorted.set_snsOn (t := { t with sens := _ }) (msorted_mset _ _ _ _ h.snsOn) (Sorted.set_sens e h)

theorem sensorSample_sorted {t : State} {a0 : Nat} {a1 : Bool} {a2 : BitVec 16} {a3 : Tdc}  (h : Sorted t) : Sorted (sensorSample a0 a1 a2 a3 t) := by
  unfold sensorSample
  repeat' (first | with_reducible assumption | with_reducible refine mapChannel_sorted ?_ | with_reducible refine setPortErr_sorted ?_ | with_reducible refine bump_sorted ?_ | with_reducible refine trimSample_sorted ?_ | with_reducible refine calRises_sorted ?_ | with_reducible refine fillReports_sorted ?_ | with_reducible refine Sorted.ite ?_ ?_ | with_reducible refine Sorted.set_sens ?_ ?_ | with_reducible refine Sorted.sens ?_ | with_reducible refine msorted_mset _ _ _ _ ?_ | with_reducible refine msorted_mupd _ _ _ _ ?_ | with_reducible refine msorted_mins _ _ _ ?_ | with_reducible refine msorted_mdel _ _ ?_ | with_reducible refine msorted_filter _ _ ?_ | refine msorted_map _ (fun e => by first | rfl | (dsimp only; split <;> rfl)) _ ?_ | with_reducible exact msorted_nil)

theorem cardLoad_sorted {t : State} {a0 : Nat}  (h : Sorted t) : SortedO (cardLoad a0 t) := by
  unfold cardLoad
  dsimp only
  refine SortedO.ite SortedO.none (SortedO.some ?_)
  exact Sorted.set_shadows (t := { t with cards := _ }) (msorted_mset _ _ _ _ h.shadows) (Sorted.set_cards (msorted_mset _ _ _ _ h.cards) h)

theorem cardFetch_sorted {t : State} {a0 : Nat}  (h : Sorted t) : SortedO (cardFetch a0 t) := by
  unfold cardFetch
  repeat' (first | with_reducible assumption | with_reducible refine regPut_sorted ?_ | with_reducible exact SortedO.none | with_reducible refine SortedO.some ?_ | with_reducible refine foldl_sorted (fun _ _ _ => ?_) ?_ | with_reducible refine SortedO.ite ?_ ?_)

theorem copyShadow_sorted {t : State} {a0 : Nat}  (h : Sorted t) : Sorted (copyShadow a0 t) := by
  unfold copyShadow
  repeat' (first | with_reducible assumption | with_reducible refine foldl_sorted (fun _ _ _ => ?_) ?_ | with_reducible refine Sorted.ite ?_ ?_ | with_reducible refine Sorted.set_shadows ?_ ?_ | with_reducible refine Sorted.shadows ?_ | with_reducible refine msorted_mset _ _ _ _ ?_ | with_reducible refine msorted_mupd _ _ _ _ ?_ | with_reducible refine msorted_mins _ _ _ ?_ | with_reducible refine msorted_mdel _ _ ?_ | with_reducible refine msorted_filter _ _ ?_ | refine msorted_map _ (fun e => by first | rfl | (dsimp only; split <;> rfl)) _ ?_ | with_reducible exact msorted_nil)

theorem unserved_sorted {t : State} {a0 : Nat} {a1 : BitVec 4} {a2 : Bt}  (h : Sorted t) : Sorted (unserved a0 a1 a2 t) := by
  unfold unserved
  repeat' (first | with_reducible assumption | with_reducible refine bump_sorted ?_ | with_reducible refine taintOwn_sorted ?_ | with_reducible refine settleEpochs_sorted ?_ | with_reducible refine placePoison_sorted ?_ | with_reducible refine Sorted.ite ?_ ?_ | with_reducible refine Sorted.set_lapsed ?_)

theorem drainOut_sorted {t : State} {a0 : Nat} {a1 : Nat}  (h : Sorted t) : Sorted (drainOut a0 a1 t) := by
  induction a0 generalizing t a1 with
  | zero => exact h
  | succ n ih =>
    unfold drainOut
    repeat' (first | with_reducible assumption | (with_reducible refine ih ?_) | with_reducible refine retain_sorted ?_ | with_reducible refine updWit_sorted ?_ | dsimp only | with_reducible refine Sorted.ite ?_ ?_ | split)

theorem witEmit_sorted {t : State} {a0 : Nat} {a1 : List (Bt × Pick)}  (h : Sorted t) : Sorted (witEmit a0 a1 t) := by
  unfold witEmit
  repeat' (first | with_reducible assumption | with_reducible refine drainOut_sorted ?_ | with_reducible refine updWit_sorted ?_ | with_reducible refine Sorted.ite ?_ ?_)

theorem updCheck_sorted {t : State} {a0 : Nat} {a1 : BitVec 32} {a2 : Check → Check}  (h : Sorted t) : Sorted (updCheck a0 a1 a2 t) := by
  unfold updCheck
  repeat' (first | with_reducible assumption | with_reducible refine updWit_sorted ?_ | with_reducible refine Sorted.ite ?_ ?_)

theorem endCheck_sorted {t : State} {a0 : Nat} {a1 : Check} {a2 : Nat} {a3 : Nat} {a4 : Nat}  (h : Sorted t) : Sorted (endCheck a0 a1 a2 a3 a4 t) := by
  unfold endCheck
  repeat' (first | with_reducible assumption | with_reducible refine updWit_sorted ?_ | with_reducible refine updCheck_sorted ?_ | with_reducible refine bump_sorted ?_ | with_reducible refine Sorted.ite ?_ ?_)

theorem acceptResult_sorted {t : State} {a0 : Nat} {a1 : Check} {a2 : Verdict}  (h : Sorted t) : Sorted (acceptResult a0 a1 a2 t) := by
  unfold acceptResult
  repeat' (first | with_reducible assumption | with_reducible refine retain_sorted ?_ | with_reducible refine updWit_sorted ?_ | with_reducible refine updOwn_sorted ?_ | with_reducible refine bump_sorted ?_ | with_reducible refine raise_sorted ?_ | with_reducible refine setErr_sorted ?_ | with_reducible refine settleEpochs_sorted ?_ | with_reducible refine placePoison_sorted ?_ | with_reducible refine taintOwn_sorted ?_ | with_reducible refine testResult_sorted ?_ | with_reducible refine testTrigger_sorted ?_ | dsimp only | with_reducible refine Sorted.ite ?_ ?_)

theorem flushResults_sorted {t : State} {a0 : Nat} {a1 : Nat}  (h : Sorted t) : Sorted (flushResults a0 a1 t) := by
  induction a0 generalizing t a1 with
  | zero => exact h
  | succ n ih =>
    unfold flushResults
    repeat' (first | with_reducible assumption | (with_reducible refine ih ?_) | with_reducible refine drainOut_sorted ?_ | with_reducible refine acceptResult_sorted ?_ | with_reducible refine Sorted.ite ?_ ?_ | split)

theorem witFlush_sorted {t : State} {a0 : Nat}  (h : Sorted t) : Sorted (witFlush a0 t) := by
  unfold witFlush
  repeat' (first | with_reducible assumption | with_reducible refine flushResults_sorted ?_ | with_reducible refine Sorted.ite ?_ ?_)

theorem concludeCheck_sorted {t : State} {a0 : Nat} {a1 : Check}  (h : Sorted t) : Sorted (concludeCheck a0 a1 t) := by
  unfold concludeCheck
  repeat' (first | with_reducible assumption | with_reducible refine witEmit_sorted ?_ | with_reducible refine bump_sorted ?_ | with_reducible refine endCheck_sorted ?_ | with_reducible refine Sorted.ite ?_ ?_ | with_reducible refine Sorted.set_free ?_)

theorem giveShares_sorted {t : State} {a0 : Nat}  (h : Sorted t) : Sorted (giveShares a0 t) := by
  unfold giveShares
  repeat' (first | with_reducible assumption | with_reducible refine updWit_sorted ?_ | with_reducible refine foldl_sorted (fun _ _ _ => ?_) ?_ | dsimp only | with_reducible refine Sorted.ite ?_ ?_ | split)

theorem pumpChecks_sorted {t : State} {a0 : Nat} {a1 : Nat}  (h : Sorted t) : Sorted (pumpChecks a0 a1 t) := by
  induction a0 generalizing t a1 with
  | zero => exact h
  | succ n ih =>
    unfold pumpChecks
    repeat' (first | with_reducible assumption | (with_reducible refine ih ?_) | with_reducible refine endCheck_sorted ?_ | with_reducible refine updWit_sorted ?_ | with_reducible refine concludeCheck_sorted ?_ | with_reducible refine giveShares_sorted ?_ | dsimp only | with_reducible refine Sorted.ite ?_ ?_ | split)

theorem witRun_sorted {t : State} {a0 : Nat}  (h : Sorted t) : Sorted (witRun a0 t) := by
  unfold witRun
  repeat' (first | with_reducible assumption | with_reducible refine witFlush_sorted ?_ | with_reducible refine pumpChecks_sorted ?_ | with_reducible refine Sorted.ite ?_ ?_)

theorem shareComplete_sorted {t : State} {a0 : Nat}  (h : Sorted t) : Sorted (shareComplete a0 t) := by
  unfold shareComplete
  repeat' (first | with_reducible assumption | with_reducible refine count_sorted ?_ | with_reducible refine regPut_sorted ?_ | with_reducible refine witRun_sorted ?_ | with_reducible refine updWit_sorted ?_ | dsimp only | with_reducible refine Sorted.ite ?_ ?_ | split)

theorem shareAbandon_sorted {t : State} {a0 : Nat}  (h : Sorted t) : Sorted (shareAbandon a0 t) := by
  unfold shareAbandon
  repeat' (first | with_reducible assumption | with_reducible refine witRun_sorted ?_ | with_reducible refine bump_sorted ?_ | with_reducible refine updWit_sorted ?_ | dsimp only | with_reducible refine Sorted.ite ?_ ?_ | split)

theorem drawMust_sorted {t : State} {a0 : Nat} {a1 : Nat}  (h : Sorted t) : SortedO (drawMust a0 a1 t) := by
  dsimp only [drawMust]
  repeat' (first | with_reducible assumption | with_reducible refine updReedGov_sorted ?_ | with_reducible exact SortedO.none | with_reducible refine SortedO.some ?_ | with_reducible refine SortedO.ite ?_ ?_ | with_reducible refine Sorted.set_gov ?_)

theorem drawOther_sorted {t : State} {a0 : Nat} {a1 : Nat}  (h : Sorted t) : SortedO (drawOther a0 a1 t) := by
  unfold drawOther
  repeat' (first | with_reducible assumption | with_reducible refine updReedGov_sorted ?_ | with_reducible exact SortedO.none | with_reducible refine SortedO.some ?_ | with_reducible refine SortedO.ite ?_ ?_ | with_reducible refine Sorted.set_gov ?_)

theorem acceptCheck_sorted {t : State} {a0 : Nat} {a1 : Nat} {a2 : QBeat} {a3 : CheckCard} {a4 : Bool} {a5 : Bool}  (h : Sorted t) : Sorted (acceptCheck a0 a1 a2 a3 a4 a5 t).2 := by
  unfold acceptCheck
  repeat' (first | with_reducible assumption | with_reducible refine count_sorted ?_ | with_reducible refine updWit_sorted ?_ | with_reducible refine Sorted.ite ?_ ?_)

theorem acceptCheck_sorted_eq {t : State} {a0 : Nat} {a1 : Nat} {a2 : QBeat} {a3 : CheckCard} {a4 : Bool} {a5 : Bool}  {x} {u : State} (e : acceptCheck a0 a1 a2 a3 a4 a5 t = (x, u)) (h : Sorted t) : Sorted u := by
  have := acceptCheck_sorted (t := t) (a0 := a0) (a1 := a1) (a2 := a2) (a3 := a3) (a4 := a4) (a5 := a5) h
  rw [e] at this; exact this

theorem deferTile_sorted {t : State} {a0 : Nat} {a1 : QBeat} {a2 : CheckCard} {a3 : BitVec 32} {a4 : Nat}  (h : Sorted t) : Sorted (deferTile a0 a1 a2 a3 a4 t) := by
  unfold deferTile
  repeat' (first | with_reducible assumption | with_reducible refine updReedGov_sorted ?_ | with_reducible refine bump_sorted ?_ | with_reducible refine raise_sorted ?_ | with_reducible refine witEmit_sorted ?_ | with_reducible refine Sorted.ite ?_ ?_)

theorem refuseTile_sorted {t : State} {a0 : Nat} {a1 : Nat} {a2 : Nat} {a3 : Nat} {a4 : QBeat} {a5 : CheckCard}  (h : Sorted t) : Sorted (refuseTile a0 a1 a2 a3 a4 a5 t) := by
  unfold refuseTile
  repeat' (first | with_reducible assumption | with_reducible refine bump_sorted ?_ | with_reducible refine updReedGov_sorted ?_ | with_reducible refine updWit_sorted ?_ | with_reducible refine Sorted.ite ?_ ?_)

theorem admitTile_sorted {t : State} {a0 : Nat} {a1 : Nat} {a2 : Nat} {a3 : Nat} {a4 : QBeat} {a5 : CheckCard}  (h : Sorted t) : Sorted (admitTile a0 a1 a2 a3 a4 a5 t).2 := by
  unfold admitTile
  repeat' (first | with_reducible assumption | with_reducible refine updReedGov_sorted ?_ | with_reducible refine acceptCheck_sorted ?_ | with_reducible refine deferTile_sorted ?_ | with_reducible refine drawMust_sorted ?_ | with_reducible refine drawOther_sorted ?_ | with_reducible refine refuseTile_sorted ?_ | with_reducible exact SortedO.none | dsimp only | with_reducible refine Sorted.ite ?_ ?_ | split | with_reducible refine (show SortedO _ from ?_) _ (by assumption))

theorem admitTile_sorted_eq {t : State} {a0 : Nat} {a1 : Nat} {a2 : Nat} {a3 : Nat} {a4 : QBeat} {a5 : CheckCard}  {x} {u : State} (e : admitTile a0 a1 a2 a3 a4 a5 t = (x, u)) (h : Sorted t) : Sorted u := by
  have := admitTile_sorted (t := t) (a0 := a0) (a1 := a1) (a2 := a2) (a3 := a3) (a4 := a4) (a5 := a5) h
  rw [e] at this; exact this

theorem admitWaiting_sorted {t : State} {a0 : Nat}  (h : Sorted t) : Sorted (admitWaiting a0 t) := by
  dsimp only [admitWaiting]
  repeat' (first | with_reducible assumption | with_reducible refine updReedGov_sorted ?_ | with_reducible refine drawMust_sorted ?_ | with_reducible refine drawMust_sorted ?_ _ (by assumption) | with_reducible refine updCheck_sorted ?_ | with_reducible refine updWit_sorted ?_ | with_reducible refine witRun_sorted ?_ | with_reducible refine foldl_sorted (fun _ _ _ => ?_) ?_ | with_reducible refine Sorted.ite ?_ ?_ | split)

theorem fillTile_sorted {t : State} {a0 : Nat} {a1 : Check} {a2 : List Nat} {a3 : QBeat}  (h : Sorted t) : Sorted (fillTile a0 a1 a2 a3 t) := by
  unfold fillTile
  repeat' (first | with_reducible assumption | with_reducible refine count_sorted ?_ | with_reducible refine updCheck_sorted ?_ | with_reducible refine endCheck_sorted ?_ | with_reducible refine updWit_sorted ?_ | dsimp only | with_reducible refine Sorted.ite ?_ ?_ | split)

theorem tileBeat_sorted {t : State} {a0 : Nat} {a1 : QBeat}  (h : Sorted t) : Sorted (tileBeat a0 a1 t) := by
  unfold tileBeat
  repeat' (first | with_reducible assumption | with_reducible refine witRun_sorted ?_ | with_reducible refine fillTile_sorted ?_ | with_reducible refine updWit_sorted ?_ | with_reducible refine endCheck_sorted ?_ | with_reducible refine bump_sorted ?_ | with_reducible refine admitTile_sorted ?_ | with_reducible refine admitTile_sorted_eq (by assumption) ?_ | with_reducible refine count_sorted ?_ | dsimp only | with_reducible refine Sorted.ite ?_ ?_ | split)

theorem mirrorIntake_sorted {t : State} {a0 : Nat}  (h : Sorted t) : Sorted (mirrorIntake a0 t) := by
  unfold mirrorIntake
  repeat' (first | with_reducible assumption | with_reducible refine updWit_sorted ?_ | with_reducible refine tileBeat_sorted ?_ | with_reducible refine Sorted.ite ?_ ?_ | split)

theorem beatLost_sorted {t : State} {a0 : Nat} {a1 : QBeat}  (h : Sorted t) : Sorted (beatLost a0 a1 t) := by
  unfold beatLost
  repeat' (first | with_reducible assumption | with_reducible refine setErr_sorted ?_ | with_reducible refine bump_sorted ?_ | with_reducible refine tileBeat_sorted ?_ | with_reducible refine updWit_sorted ?_ | with_reducible refine Sorted.ite ?_ ?_)

theorem outputBeat_sorted {t : State} {a0 : Nat} {a1 : OutBeat}  (h : Sorted t) : Sorted (outputBeat a0 a1 t) := by
  unfold outputBeat
  repeat' (first | with_reducible assumption | with_reducible refine updHed_sorted ?_ | with_reducible refine bump_sorted ?_ | with_reducible refine captureLost_sorted ?_ | with_reducible refine unserved_sorted ?_ | with_reducible refine updWit_sorted ?_ | with_reducible refine beatLost_sorted ?_ | dsimp only | with_reducible refine Sorted.ite ?_ ?_ | split)

theorem gatherTimeout_sorted {t : State} {a0 : Nat} {a1 : BitVec 32}  (h : Sorted t) : Sorted (gatherTimeout a0 a1 t) := by
  unfold gatherTimeout
  repeat' (first | with_reducible assumption | with_reducible refine witRun_sorted ?_ | with_reducible refine endCheck_sorted ?_ | with_reducible refine Sorted.ite ?_ ?_ | split)

theorem loseSlot_sorted {t : State} {a0 : Nat} {a1 : Nat}  (h : Sorted t) : Sorted (loseSlot a0 a1 t) := by
  unfold loseSlot
  repeat' (first | with_reducible assumption | with_reducible refine setErr_sorted ?_ | with_reducible refine bump_sorted ?_ | with_reducible refine updHed_sorted ?_ | with_reducible refine Sorted.ite ?_ ?_)

theorem stagingEcc_sorted {t : State} {a0 : Nat} {a1 : StagingHit}  (h : Sorted t) : Sorted (stagingEcc a0 a1 t) := by
  unfold stagingEcc
  repeat' (first | with_reducible assumption | with_reducible refine witRun_sorted ?_ | with_reducible refine endCheck_sorted ?_ | with_reducible refine loseSlot_sorted ?_ | with_reducible refine Sorted.ite ?_ ?_ | split)

theorem reedLost_sorted {t : State} {a0 : Nat}  (h : Sorted t) : Sorted (reedLost a0 t) := by
  unfold reedLost
  repeat' (first | with_reducible assumption | with_reducible refine updWit_sorted ?_ | with_reducible refine witFlush_sorted ?_ | with_reducible refine Sorted.ite ?_ ?_)

theorem newVecKey_sorted {t : State} {a0 : Nat}  (h : Sorted t) : Sorted (newVecKey a0 t) := by
  unfold newVecKey
  repeat' (first | with_reducible assumption | with_reducible refine takeSalt_sorted ?_ | with_reducible refine updWit_sorted ?_ | with_reducible refine Sorted.ite ?_ ?_)

theorem cutContext_sorted {t : State} {a0 : Nat} {a1 : Nat} {a2 : Bt} {a3 : Bool} {a5 : Nat}  (h : Sorted t) : Sorted (cutContext a0 a1 a2 a3 t a5) := by
  unfold cutContext
  repeat' (first | with_reducible assumption | with_reducible refine hold_sorted ?_ | with_reducible refine Sorted.ite ?_ ?_)

theorem hedCut_sorted {t : State} {a0 : Nat} {a1 : Nat}  (h : Sorted t) : Sorted (hedCut a0 a1 t) := by
  unfold hedCut
  repeat' (first | with_reducible assumption | with_reducible refine updHedStop_sorted ?_ | with_reducible refine cutContext_sorted ?_ | with_reducible refine updHed_sorted ?_ | with_reducible refine dropGap_sorted ?_ | with_reducible refine foldl_sorted (fun _ _ _ => ?_) ?_ | with_reducible refine Sorted.ite ?_ ?_)

theorem passCut_sorted {t : State} {a0 : Nat}  (h : Sorted t) : Sorted (passCut a0 t) := by
  unfold passCut
  repeat' (first | with_reducible assumption | with_reducible refine closeBobs_sorted ?_ | (extract_lets +onlyGivenNames x; refine (fun (hx : Sorted x) => ?_) ?_; rotate_left; dsimp only [x]; clear x; rotate_right; clear_value x) | with_reducible refine Sorted.ite ?_ ?_ | split)

theorem partCut_sorted {t : State} {a0 : Nat} {a1 : Nat}  (h : Sorted t) : Sorted (partCut a0 a1 t) := by
  unfold partCut
  repeat' (first | with_reducible assumption | with_reducible refine passCut_sorted ?_ | with_reducible refine hedCut_sorted ?_ | with_reducible refine closeBobs_sorted ?_ | with_reducible refine linkCut_sorted ?_ | with_reducible refine Sorted.ite ?_ ?_ | with_reducible refine Sorted.set_stop ?_)

theorem treeArrival_sorted {t : State} {a0 : Nat}  (h : Sorted t) : Sorted (treeArrival a0 t) := by
  unfold treeArrival
  repeat' (first | with_reducible assumption | with_reducible refine partCut_sorted ?_ | with_reducible refine Sorted.ite ?_ ?_)

theorem armedFire_sorted {t : State} {a0 : Nat}  (h : Sorted t) : Sorted (armedFire a0 t) := by
  unfold armedFire
  repeat' (first | with_reducible assumption | with_reducible refine partCut_sorted ?_ | with_reducible refine launchArmed_sorted ?_ | with_reducible refine Sorted.ite ?_ ?_)

theorem ttCompare_sorted {t : State}   (h : Sorted t) : Sorted (ttCompare t) := by
  unfold ttCompare
  repeat' (first | with_reducible assumption | with_reducible refine launchArmed_sorted ?_ | with_reducible refine Sorted.ite ?_ ?_)

theorem armStop_sorted {t : State}   (h : Sorted t) : SortedO (armStop t) := by
  unfold armStop
  repeat' (first | with_reducible assumption | with_reducible exact SortedO.none | with_reducible refine SortedO.some ?_ | with_reducible refine SortedO.ite ?_ ?_ | with_reducible refine Sorted.set_stop ?_)

theorem disarmStop_sorted {t : State}   (h : Sorted t) : SortedO (disarmStop t) := by
  unfold disarmStop
  repeat' (first | with_reducible assumption | with_reducible exact SortedO.none | with_reducible refine SortedO.some ?_ | with_reducible refine SortedO.ite ?_ ?_ | with_reducible refine Sorted.set_stop ?_)

theorem stopNow_sorted {t : State}   (h : Sorted t) : SortedO (stopNow t) := by
  unfold stopNow
  repeat' (first | with_reducible assumption | with_reducible refine launchArmed_sorted ?_ | with_reducible refine stopEvent_sorted ?_ | with_reducible exact SortedO.none | with_reducible refine SortedO.some ?_ | with_reducible refine SortedO.ite ?_ ?_ | split)

theorem resumeStop_sorted {t : State}   (h : Sorted t) : SortedO (resumeStop t) := by
  unfold resumeStop
  repeat' (first | with_reducible assumption | with_reducible exact SortedO.none | with_reducible refine SortedO.some ?_ | with_reducible refine SortedO.ite ?_ ?_ | with_reducible refine Sorted.set_stop ?_)

theorem stopInPin_sorted {t : State} {a0 : Tdc}  (h : Sorted t) : Sorted (stopInPin a0 t) := by
  unfold stopInPin
  repeat' (first | with_reducible assumption | with_reducible refine stopEvent_sorted ?_ | with_reducible refine Sorted.ite ?_ ?_)

theorem stopEnters_sorted {t : State} {a0 : Nat}  (h : Sorted t) : Sorted (stopEnters a0 t) := by
  unfold stopEnters
  repeat' (first | with_reducible assumption | with_reducible refine updHedStop_sorted ?_ | with_reducible refine Sorted.ite ?_ ?_ | with_reducible refine Sorted.set_stop ?_)

theorem lowerHold_sorted {t : State} {a0 : Nat}  (h : Sorted t) : Sorted (lowerHold a0 t) := by
  unfold lowerHold
  repeat' (first | with_reducible assumption | with_reducible refine updHedStop_sorted ?_ | with_reducible refine Sorted.ite ?_ ?_)

theorem holdAck_sorted {t : State} {a0 : Nat} {a1 : Tdc}  (h : Sorted t) : Sorted (holdAck a0 a1 t) := by
  unfold holdAck
  repeat' (first | with_reducible assumption | with_reducible refine updHedStop_sorted ?_ | with_reducible refine Sorted.ite ?_ ?_)

theorem holdTimeout_sorted {t : State} {a0 : Nat}  (h : Sorted t) : Sorted (holdTimeout a0 t) := by
  unfold holdTimeout
  repeat' (first | with_reducible assumption | with_reducible refine raise_sorted ?_ | with_reducible refine setErr_sorted ?_ | with_reducible refine updHedStop_sorted ?_ | with_reducible refine Sorted.ite ?_ ?_)

theorem scanFail_sorted {t : State} {a0 : Nat} {a1 : Nat}  (h : Sorted t) : Sorted (scanFail a0 a1 t) := by
  unfold scanFail
  repeat' (first | with_reducible assumption | with_reducible refine setErr_sorted ?_ | with_reducible refine bump_sorted ?_ | with_reducible refine updHedStop_sorted ?_ | with_reducible refine Sorted.ite ?_ ?_)

theorem scanHeadOf_sorted {t : State} {a0 : Nat}  (h : Sorted t) : Sorted (scanHeadOf a0 t).2.2 := by
  unfold scanHeadOf
  repeat' (first | with_reducible assumption | with_reducible refine takeHead_sorted ?_ | with_reducible refine updSlot_sorted ?_ | dsimp only | with_reducible refine Sorted.ite ?_ ?_ | split)

theorem scanHeadOf_sorted_eq {t : State} {a0 : Nat}  {x y} {u : State} (e : scanHeadOf a0 t = (x, y, u)) (h : Sorted t) : Sorted u := by
  have := scanHeadOf_sorted (t := t) (a0 := a0) h
  rw [e] at this; exact this

theorem scanBlock_sorted {t : State} {a0 : Nat} {a1 : Bool}  (h : Sorted t) : Sorted (scanBlock a0 a1 t).2 := by
  unfold scanBlock
  repeat' (first | with_reducible assumption | with_reducible refine scanHeadOf_sorted ?_ | dsimp only | with_reducible refine Sorted.ite ?_ ?_ | split)

theorem scanBlock_sorted_eq {t : State} {a0 : Nat} {a1 : Bool}  {x} {u : State} (e : scanBlock a0 a1 t = (x, u)) (h : Sorted t) : Sorted u := by
  have := scanBlock_sorted (t := t) (a0 := a0) (a1 := a1) h
  rw [e] at this; exact this

theorem handBlock_sorted {t : State} {a0 : Nat} {a1 : Bool}  (h : Sorted t) : Sorted (handBlock a0 a1 t) := by
  unfold handBlock
  repeat' (first | with_reducible assumption | with_reducible refine updReedGov_sorted ?_ | with_reducible refine updHedStop_sorted ?_ | with_reducible refine Sorted.ite ?_ ?_)

theorem scanLast_sorted {t : State} {a0 : Nat}  (h : Sorted t) : Sorted (scanLast a0 t) := by
  unfold scanLast
  repeat' (first | with_reducible assumption | with_reducible refine updHedStop_sorted ?_ | with_reducible refine lowerHold_sorted ?_ | with_reducible refine Sorted.ite ?_ ?_)

theorem scanWord_sorted {t : State} {a0 : Nat} {a1 : BitVec 32} {a2 : Bool}  (h : Sorted t) : Sorted (scanWord a0 a1 a2 t) := by
  unfold scanWord
  repeat' (first | with_reducible assumption | with_reducible refine setPortErr_sorted ?_ | with_reducible refine updHedStop_sorted ?_ | with_reducible refine handBlock_sorted ?_ | with_reducible refine scanFail_sorted ?_ | with_reducible refine scanLast_sorted ?_ | with_reducible refine Sorted.ite ?_ ?_)

theorem scanWordTimeout_sorted {t : State} {a0 : Nat}  (h : Sorted t) : Sorted (scanWordTimeout a0 t) := by
  unfold scanWordTimeout
  repeat' (first | with_reducible assumption | with_reducible refine scanFail_sorted ?_ | dsimp only | with_reducible refine Sorted.ite ?_ ?_ | split)

theorem scanDoneBlock_sorted {t : State} {a0 : Nat} {a1 : Nat} {a2 : Bool}  (h : Sorted t) : Sorted (scanDoneBlock a0 a1 a2 t) := by
  unfold scanDoneBlock
  repeat' (first | with_reducible assumption | with_reducible refine updHedStop_sorted ?_ | with_reducible refine scanLast_sorted ?_ | with_reducible refine scanFail_sorted ?_ | dsimp only | with_reducible refine Sorted.ite ?_ ?_ | split)

theorem issueScan_sorted {t : State} {a0 : Nat} {a1 : Nat} {a2 : Nat}  (h : Sorted t) : Sorted (issueScan a0 a1 a2 t) := by
  unfold issueScan
  repeat' (first | with_reducible assumption | with_reducible refine scanBlock_sorted ?_ | with_reducible refine updHedStop_sorted ?_ | with_reducible refine updReedGov_sorted ?_ | with_reducible refine bump_sorted ?_ | with_reducible refine sendBlock_sorted ?_ | split | with_reducible refine Sorted.set_exempt ?_)

theorem scanRedo_sorted {t : State} {a0 : Nat}  (h : Sorted t) : Sorted (scanRedo a0 t) := by
  unfold scanRedo
  repeat' (first | with_reducible assumption | with_reducible refine scanDoneBlock_sorted ?_ | with_reducible refine updHedStop_sorted ?_ | with_reducible refine foldl_sorted (fun _ _ _ => ?_) ?_ | split)

theorem dropScan_sorted {t : State} {a0 : Nat} {a1 : Nat}  (h : Sorted t) : Sorted (dropScan a0 a1 t) := by
  unfold dropScan
  repeat' (first | with_reducible assumption | with_reducible refine scanFail_sorted ?_ | with_reducible refine updHedStop_sorted ?_ | with_reducible refine scanLast_sorted ?_ | dsimp only | split)

theorem abandonScans_sorted {t : State} {a0 : Nat}  (h : Sorted t) : Sorted (abandonScans a0 t) := by
  unfold abandonScans
  repeat' (first | with_reducible assumption | with_reducible refine updHedStop_sorted ?_ | with_reducible refine dropScan_sorted ?_ | with_reducible refine foldl_sorted (fun _ _ _ => ?_) ?_ | split)

theorem settleAll_sorted {t : State}   (h : Sorted t) : Sorted (settleAll t) := by
  unfold settleAll
  repeat' (first | with_reducible assumption | with_reducible refine settleLnk_sorted ?_ | with_reducible refine settleSpans_sorted ?_ | with_reducible refine foldl_sorted (fun _ _ _ => ?_) ?_)

theorem cutComplete_sorted {t : State}   (h : Sorted t) : Sorted (cutComplete t) := by
  unfold cutComplete
  repeat' (first | with_reducible assumption | with_reducible refine settleAll_sorted ?_ | with_reducible refine Sorted.ite ?_ ?_ | with_reducible refine Sorted.set_stop ?_)

theorem hedResume_sorted {t : State} {a0 : Nat}  (h : Sorted t) : Sorted (hedResume a0 t) := by
  unfold hedResume
  repeat' (first | with_reducible assumption | with_reducible refine hold_sorted ?_ | with_reducible refine openGap_sorted ?_ | with_reducible refine updHedStop_sorted ?_ | with_reducible refine lowerHold_sorted ?_ | with_reducible refine foldl_sorted (fun _ _ _ => ?_) ?_ | with_reducible refine Sorted.ite ?_ ?_)

theorem resumeArrival_sorted {t : State} {a0 : Nat}  (h : Sorted t) : Sorted (resumeArrival a0 t) := by
  unfold resumeArrival
  repeat' (first | with_reducible assumption | with_reducible refine restartGather_sorted ?_ | with_reducible refine hedResume_sorted ?_ | with_reducible refine linkResume_sorted ?_ | with_reducible refine Sorted.ite ?_ ?_ | with_reducible refine Sorted.set_stop ?_)

theorem resumeComplete_sorted {t : State}   (h : Sorted t) : Sorted (resumeComplete t) := by
  unfold resumeComplete
  repeat' (first | with_reducible assumption | with_reducible refine Sorted.ite ?_ ?_ | with_reducible refine Sorted.set_stop ?_)

theorem sendMsg_sorted {t : State} {a0 : Nat} {a1 : Nat}  (h : Sorted t) : Sorted (sendMsg a0 a1 t) := by
  unfold sendMsg
  repeat' (first | with_reducible assumption | with_reducible refine Sorted.set_tim ?_)

theorem statusMsg_sorted {t : State}   (h : Sorted t) : Sorted (statusMsg t) := by
  unfold statusMsg
  repeat' (first | with_reducible assumption | with_reducible refine sendMsg_sorted ?_ | with_reducible refine Sorted.ite ?_ ?_)

theorem timeRecord_sorted {t : State} {a0 : Nat} {a1 : Nat} {a2 : At} {a3 : Int}  (h : Sorted t) : Sorted (timeRecord a0 a1 a2 a3 t) := by
  unfold timeRecord
  repeat' (first | with_reducible assumption | with_reducible refine emitHub_sorted ?_ | with_reducible refine Sorted.ite ?_ ?_ | with_reducible refine Sorted.set_owed ?_)

theorem timeEvent_sorted {t : State} {a0 : Nat} {a1 : Nat}  (h : Sorted t) : Sorted (timeEvent a0 a1 t) := by
  unfold timeEvent
  repeat' (first | with_reducible assumption | with_reducible refine timeRecord_sorted ?_)

theorem payOwed_sorted {t : State}   (h : Sorted t) : Sorted (payOwed t) := by
  unfold payOwed
  repeat' (first | with_reducible assumption | with_reducible refine emitHub_sorted ?_ | with_reducible refine foldl_sorted (fun _ _ _ => ?_) ?_ | with_reducible refine Sorted.ite ?_ ?_ | with_reducible refine Sorted.set_owed ?_)

theorem announce_sorted {t : State} {a0 : Nat} {a1 : Nat} {a2 : Int}  (h : Sorted t) : SortedO (announce a0 a1 a2 t) := by
  unfold announce
  repeat' (first | with_reducible assumption | with_reducible refine sendMsg_sorted ?_ | with_reducible exact SortedO.none | with_reducible refine SortedO.some ?_ | with_reducible refine SortedO.ite ?_ ?_ | with_reducible refine Sorted.set_tim ?_)

theorem announceDelta_sorted {t : State} {a0 : Nat} {a1 : Nat} {a2 : Int}  (h : Sorted t) : SortedO (announceDelta a0 a1 a2 t) := by
  unfold announceDelta
  repeat' (first | with_reducible assumption | with_reducible refine announce_sorted ?_ | with_reducible exact SortedO.none | with_reducible refine SortedO.some ?_ | with_reducible refine SortedO.ite ?_ ?_)

theorem stepAction_sorted {t : State}   (h : Sorted t) : SortedO (stepAction t) := by
  unfold stepAction
  repeat' (first | with_reducible assumption | with_reducible refine announceDelta_sorted ?_ | with_reducible exact SortedO.none | with_reducible refine SortedO.some ?_ | with_reducible refine SortedO.ite ?_ ?_)

theorem setAction_sorted {t : State}   (h : Sorted t) : SortedO (setAction t) := by
  unfold setAction
  repeat' (first | with_reducible assumption | with_reducible refine announce_sorted ?_ | with_reducible exact SortedO.none | with_reducible refine SortedO.some ?_ | with_reducible refine SortedO.ite ?_ ?_)

theorem stepTakesForce_sorted {t : State}   (h : Sorted t) : Sorted (stepTakesForce t) := by
  unfold stepTakesForce
  repeat' (first | with_reducible assumption | with_reducible refine updPart_sorted ?_ | with_reducible refine timeRecord_sorted ?_ | with_reducible refine foldl_sorted (fun _ _ _ => ?_) ?_ | with_reducible refine Sorted.ite ?_ ?_ | split | with_reducible refine Sorted.set_tim ?_ | with_reducible refine Sorted.set_counts ?_ ?_ | with_reducible refine Sorted.counts ?_ | with_reducible refine msorted_mset _ _ _ _ ?_ | with_reducible refine msorted_mupd _ _ _ _ ?_ | with_reducible refine msorted_mins _ _ _ ?_ | with_reducible refine msorted_mdel _ _ ?_ | with_reducible refine msorted_filter _ _ ?_ | refine msorted_map _ (fun e => by first | rfl | (dsimp only; split <;> rfl)) _ ?_ | with_reducible exact msorted_nil)

theorem setRate_sorted {t : State} {a0 : Int}  (h : Sorted t) : Sorted (setRate a0 t) := by
  unfold setRate
  repeat' (first | with_reducible assumption | with_reducible refine Sorted.ite ?_ ?_ | with_reducible refine Sorted.set_tim ?_)

theorem rateAction_sorted {t : State}   (h : Sorted t) : SortedO (rateAction t) := by
  unfold rateAction
  repeat' (first | with_reducible assumption | with_reducible refine setRate_sorted ?_ | with_reducible exact SortedO.none | with_reducible refine SortedO.some ?_ | with_reducible refine SortedO.ite ?_ ?_)

theorem calTdcAction_sorted {t : State}   (h : Sorted t) : SortedO (calTdcAction t) := by
  unfold calTdcAction
  repeat' (first | with_reducible assumption | with_reducible refine calStart_sorted ?_ | with_reducible exact SortedO.none | with_reducible refine SortedO.some ?_ | with_reducible refine SortedO.ite ?_ ?_)

theorem referenceLoss_sorted {t : State}   (h : Sorted t) : Sorted (referenceLoss t) := by
  unfold referenceLoss
  repeat' (first | with_reducible assumption | with_reducible refine timeEvent_sorted ?_ | with_reducible refine statusMsg_sorted ?_ | with_reducible refine setErr_sorted ?_ | with_reducible refine bump_sorted ?_ | with_reducible refine Sorted.ite ?_ ?_ | with_reducible refine Sorted.set_tim ?_)

theorem referenceReturn_sorted {t : State}   (h : Sorted t) : Sorted (referenceReturn t) := by
  unfold referenceReturn
  repeat' (first | with_reducible assumption | with_reducible refine timeEvent_sorted ?_ | with_reducible refine statusMsg_sorted ?_ | with_reducible refine Sorted.ite ?_ ?_ | with_reducible refine Sorted.set_tim ?_)

theorem refreshError_sorted {t : State} {a0 : Nat}  (h : Sorted t) : Sorted (refreshError a0 t) := by
  unfold refreshError
  repeat' (first | with_reducible assumption | with_reducible refine setErr_sorted ?_ | with_reducible refine regSetFld_sorted ?_ | with_reducible refine bump_sorted ?_ | with_reducible refine Sorted.ite ?_ ?_)

theorem serialMessage_sorted {t : State} {a0 : Nat} {a1 : BitVec 192}  (h : Sorted t) : Sorted (serialMessage a0 a1 t) := by
  unfold serialMessage
  repeat' (first | with_reducible assumption | with_reducible refine refreshError_sorted ?_ | with_reducible refine updPart_sorted ?_ | with_reducible refine Sorted.ite ?_ ?_)

theorem statusRequest_sorted {t : State} {a0 : Nat}  (h : Sorted t) : Sorted (statusRequest a0 t) := by
  unfold statusRequest
  repeat' (first | with_reducible assumption | with_reducible refine statusMsg_sorted ?_ | with_reducible refine updPart_sorted ?_ | with_reducible refine Sorted.ite ?_ ?_)

theorem Q_scaled_sorted {t : State} {a0 : Q} {a1 : Int}  (h : Sorted t) : Sorted (Q.scaled a0 a1 t).2 := by
  unfold Q.scaled
  repeat' (first | with_reducible assumption | with_reducible refine freeRound_sorted ?_ | with_reducible refine Sorted.ite ?_ ?_)

theorem Q_scaled_sorted_eq {t : State} {a0 : Q} {a1 : Int}  {x} {u : State} (e : Q.scaled a0 a1 t = (x, u)) (h : Sorted t) : Sorted u := by
  have := Q_scaled_sorted (t := t) (a0 := a0) (a1 := a1) h
  rw [e] at this; exact this

theorem Q_nearest_sorted {t : State} {a0 : Q}  (h : Sorted t) : Sorted (Q.nearest a0 t).2 := by
  unfold Q.nearest
  repeat' (first | with_reducible assumption | with_reducible refine freeRound_sorted ?_ | with_reducible refine Sorted.ite ?_ ?_ | split)

theorem Q_nearest_sorted_eq {t : State} {a0 : Q}  {x} {u : State} (e : Q.nearest a0 t = (x, u)) (h : Sorted t) : Sorted u := by
  have := Q_nearest_sorted (t := t) (a0 := a0) h
  rw [e] at this; exact this

theorem updServo_sorted {t : State} {a0 : Servo → Servo}  (h : Sorted t) : Sorted (updServo a0 t) := by
  unfold updServo
  repeat' (first | with_reducible assumption | with_reducible refine Sorted.ite ?_ ?_ | with_reducible refine Sorted.set_servo ?_)

theorem gainDisc_sorted {t : State} {a0 : Nat}  (h : Sorted t) : Sorted (gainDisc a0 t) := by
  unfold gainDisc
  repeat' (first | with_reducible assumption | with_reducible refine timeEvent_sorted ?_ | with_reducible refine statusMsg_sorted ?_ | with_reducible refine Sorted.ite ?_ ?_ | with_reducible refine Sorted.set_tim ?_)

theorem loseDisc_sorted {t : State} {a0 : Nat} {a1 : Bool}  (h : Sorted t) : Sorted (loseDisc a0 a1 t) := by
  unfold loseDisc
  repeat' (first | with_reducible assumption | with_reducible refine timeEvent_sorted ?_ | with_reducible refine statusMsg_sorted ?_ | with_reducible refine raise_sorted ?_ | with_reducible refine Sorted.ite ?_ ?_ | with_reducible refine Sorted.set_tim ?_)

theorem servoTo_sorted {t : State} {a0 : Nat}  (h : Sorted t) : Sorted (servoTo a0 t) := by
  unfold servoTo
  repeat' (first | with_reducible assumption | with_reducible refine updServo_sorted ?_ | with_reducible refine Sorted.ite ?_ ?_)

theorem servoLost_sorted {t : State}   (h : Sorted t) : Sorted (servoLost t) := by
  unfold servoLost
  repeat' (first | with_reducible assumption | with_reducible refine servoTo_sorted ?_ | with_reducible refine loseDisc_sorted ?_ | with_reducible refine setRate_sorted ?_ | with_reducible refine Sorted.ite ?_ ?_)

theorem servoCheck_sorted {t : State} {a0 : Bool}  (h : Sorted t) : Sorted (servoCheck a0 t) := by
  unfold servoCheck
  repeat' (first | with_reducible assumption | with_reducible refine gainDisc_sorted ?_ | with_reducible refine servoTo_sorted ?_ | with_reducible refine servoLost_sorted ?_ | with_reducible refine Sorted.ite ?_ ?_)

theorem servoStart_sorted {t : State} {a0 : State → Bool}  (h : Sorted t) : SortedO (servoStart a0 t) := by
  unfold servoStart
  repeat' (first | with_reducible assumption | with_reducible refine updServo_sorted ?_ | with_reducible refine servoTo_sorted ?_ | with_reducible refine gainDisc_sorted ?_ | with_reducible refine servoCheck_sorted ?_ | with_reducible exact SortedO.none | with_reducible refine SortedO.some ?_ | with_reducible refine SortedO.ite ?_ ?_ | split)

theorem servoStop_sorted {t : State}   (h : Sorted t) : Sorted (servoStop t) := by
  unfold servoStop
  repeat' (first | with_reducible assumption | with_reducible refine servoTo_sorted ?_ | with_reducible refine loseDisc_sorted ?_ | with_reducible refine Sorted.ite ?_ ?_)

theorem rearm_sorted {t : State} {a0 : Nat}  (h : Sorted t) : Sorted (rearm a0 t) := by
  unfold rearm
  repeat' (first | with_reducible assumption | with_reducible refine updServo_sorted ?_ | with_reducible refine servoTo_sorted ?_ | with_reducible refine loseDisc_sorted ?_ | with_reducible refine Sorted.ite ?_ ?_)

theorem servoRearm_sorted {t : State} {a0 : State → Bool}  (h : Sorted t) : SortedO (servoRearm a0 t) := by
  unfold servoRearm
  repeat' (first | with_reducible assumption | with_reducible refine rearm_sorted ?_ | with_reducible refine servoCheck_sorted ?_ | with_reducible exact SortedO.none | with_reducible refine SortedO.some ?_ | with_reducible refine SortedO.ite ?_ ?_)

theorem freePpt_sorted {t : State}   (h : Sorted t) : Sorted (freePpt t).2 := by
  unfold freePpt
  repeat' (first | with_reducible assumption | with_reducible refine takeFree_sorted ?_ | with_reducible refine Sorted.ite ?_ ?_)

theorem freePpt_sorted_eq {t : State}   {x} {u : State} (e : freePpt t = (x, u)) (h : Sorted t) : Sorted u := by
  have := freePpt_sorted (t := t)  h
  rw [e] at this; exact this

theorem servoLaw_sorted {t : State} {a0 : Q} {a1 : Nat}  (h : Sorted t) : Sorted (servoLaw a0 a1 t) := by
  unfold servoLaw
  repeat' (first | with_reducible assumption | with_reducible refine freePpt_sorted ?_ | with_reducible refine freeRound_sorted ?_ | with_reducible refine setRate_sorted ?_ | with_reducible refine updServo_sorted ?_ | with_reducible refine timeEvent_sorted ?_ | with_reducible refine Sorted.ite ?_ ?_ | split)

theorem requestStep_sorted {t : State} {a0 : Q}  (h : Sorted t) : Sorted (requestStep a0 t) := by
  unfold requestStep
  repeat' (first | with_reducible assumption | with_reducible refine Q_nearest_sorted ?_ | with_reducible refine announceDelta_sorted ?_ | with_reducible refine announceDelta_sorted ?_ _ (by assumption) | with_reducible refine updServo_sorted ?_ | dsimp only | with_reducible refine Sorted.ite ?_ ?_ | split)

theorem slopePpt_sorted {t : State} {a0 : List (Q × Nat)}  (h : Sorted t) : Sorted (slopePpt a0 t).2 := by
  unfold slopePpt
  repeat' (first | with_reducible assumption | with_reducible refine freePpt_sorted ?_ | with_reducible refine freeRound_sorted ?_ | dsimp only | with_reducible refine Sorted.ite ?_ ?_ | split)

theorem slopePpt_sorted_eq {t : State} {a0 : List (Q × Nat)}  {x} {u : State} (e : slopePpt a0 t = (x, u)) (h : Sorted t) : Sorted u := by
  have := slopePpt_sorted (t := t) (a0 := a0) h
  rw [e] at this; exact this

theorem acquired_sorted {t : State} {a0 : Q}  (h : Sorted t) : Sorted (acquired a0 t) := by
  unfold acquired
  repeat' (first | with_reducible assumption | with_reducible refine slopePpt_sorted ?_ | with_reducible refine updServo_sorted ?_ | with_reducible refine requestStep_sorted ?_ | with_reducible refine servoTo_sorted ?_ | with_reducible refine Sorted.ite ?_ ?_)

theorem judge_sorted {t : State} {a0 : Q}  (h : Sorted t) : Sorted (judge a0 t) := by
  unfold judge
  repeat' (first | with_reducible assumption | with_reducible refine updServo_sorted ?_ | with_reducible refine gainDisc_sorted ?_ | with_reducible refine servoTo_sorted ?_ | with_reducible refine loseDisc_sorted ?_ | with_reducible refine Sorted.ite ?_ ?_)

theorem measure_sorted {t : State} {a0 : Q}  (h : Sorted t) : Sorted (Machine.measure a0 t) := by
  unfold Machine.measure
  repeat' (first | with_reducible assumption | with_reducible refine bump_sorted ?_ | with_reducible refine updServo_sorted ?_ | with_reducible refine Q_scaled_sorted ?_ | with_reducible refine acquired_sorted ?_ | with_reducible refine servoLaw_sorted ?_ | with_reducible refine judge_sorted ?_ | with_reducible refine requestStep_sorted ?_ | with_reducible refine Sorted.ite ?_ ?_)

theorem rootDiscLost_sorted {t : State}   (h : Sorted t) : Sorted (rootDiscLost t) := by
  unfold rootDiscLost
  repeat' (first | with_reducible assumption | with_reducible refine servoTo_sorted ?_ | with_reducible refine loseDisc_sorted ?_ | with_reducible refine Sorted.ite ?_ ?_)

theorem servoStepped_sorted {t : State}   (h : Sorted t) : Sorted (servoStepped t) := by
  unfold servoStepped
  repeat' (first | with_reducible assumption | with_reducible refine updServo_sorted ?_ | with_reducible refine servoTo_sorted ?_ | with_reducible refine Sorted.ite ?_ ?_)

theorem stepAt_sorted {t : State}   (h : Sorted t) : Sorted (stepAt t) := by
  unfold stepAt
  repeat' (first | with_reducible assumption | with_reducible refine stepTakesForce_sorted ?_ | with_reducible refine servoStepped_sorted ?_ | with_reducible refine Sorted.ite ?_ ?_ | split)

theorem updEth_sorted {t : State} {a0 : Eth → Eth}  (h : Sorted t) : Sorted (updEth a0 t) := by
  unfold updEth
  repeat' (first | with_reducible assumption | with_reducible refine Sorted.ite ?_ ?_ | with_reducible refine Sorted.set_eth ?_)

theorem recheck_sorted {t : State}   (h : Sorted t) : Sorted (recheck t) := by
  unfold recheck
  repeat' (first | with_reducible assumption | with_reducible refine servoCheck_sorted ?_ | with_reducible refine Sorted.ite ?_ ?_)

theorem selectMaster_sorted {t : State}   (h : Sorted t) : Sorted (selectMaster t) := by
  unfold selectMaster
  repeat' (first | with_reducible assumption | with_reducible refine recheck_sorted ?_ | with_reducible refine updEth_sorted ?_ | with_reducible refine Sorted.ite ?_ ?_)

theorem ethClear_sorted {t : State}   (h : Sorted t) : Sorted (ethClear t) := by
  unfold ethClear
  repeat' (first | with_reducible assumption | with_reducible refine recheck_sorted ?_ | with_reducible refine updEth_sorted ?_ | with_reducible refine Sorted.ite ?_ ?_)

theorem frameSize_sorted {t : State} {a0 : Nat}  (h : Sorted t) : Sorted (frameSize a0 t) := by
  unfold frameSize
  repeat' (first | with_reducible assumption | with_reducible refine setPortErr_sorted ?_ | with_reducible refine Sorted.ite ?_ ?_)

theorem ptpAnnounce_sorted {t : State} {a0 : PtpHdr} {a1 : PtpMaster}  (h : Sorted t) : Sorted (ptpAnnounce a0 a1 t) := by
  unfold ptpAnnounce
  repeat' (first | with_reducible assumption | with_reducible refine frameSize_sorted ?_ | with_reducible refine selectMaster_sorted ?_ | with_reducible refine updEth_sorted ?_ | with_reducible refine Sorted.ite ?_ ?_)

theorem announceTimeout_sorted {t : State}   (h : Sorted t) : Sorted (announceTimeout t) := by
  unfold announceTimeout
  repeat' (first | with_reducible assumption | with_reducible refine selectMaster_sorted ?_ | with_reducible refine updEth_sorted ?_ | with_reducible refine Sorted.ite ?_ ?_)

theorem tryMs_sorted {t : State}   (h : Sorted t) : Sorted (tryMs t) := by
  unfold tryMs
  repeat' (first | with_reducible assumption | with_reducible refine updEth_sorted ?_ | with_reducible refine Sorted.ite ?_ ?_ | split)

theorem ethTimestamp_sorted {t : State} {a0 : Bool} {a1 : BitVec 4} {a2 : BitVec 8} {a3 : BitVec 16} {a4 : BitVec 2} {a5 : Tdc}  (h : Sorted t) : Sorted (ethTimestamp a0 a1 a2 a3 a4 a5 t) := by
  unfold ethTimestamp
  repeat' (first | with_reducible assumption | with_reducible refine updEth_sorted ?_ | with_reducible refine setPortErr_sorted ?_ | with_reducible refine tryMs_sorted ?_ | with_reducible refine Sorted.ite ?_ ?_ | split)

theorem ptpSync_sorted {t : State} {a0 : PtpHdr} {a1 : PtpTime}  (h : Sorted t) : Sorted (ptpSync a0 a1 t) := by
  unfold ptpSync
  repeat' (first | with_reducible assumption | with_reducible refine frameSize_sorted ?_ | with_reducible refine recheck_sorted ?_ | with_reducible refine tryMs_sorted ?_ | with_reducible refine updEth_sorted ?_ | with_reducible refine Sorted.ite ?_ ?_)

theorem ptpFollowUp_sorted {t : State} {a0 : PtpHdr} {a1 : PtpTime}  (h : Sorted t) : Sorted (ptpFollowUp a0 a1 t) := by
  unfold ptpFollowUp
  repeat' (first | with_reducible assumption | with_reducible refine frameSize_sorted ?_ | with_reducible refine tryMs_sorted ?_ | with_reducible refine updEth_sorted ?_ | with_reducible refine Sorted.ite ?_ ?_ | split)

theorem ptpDelayResp_sorted {t : State} {a0 : PtpHdr} {a1 : PtpTime} {a2 : BitVec 64} {a3 : BitVec 16}  (h : Sorted t) : Sorted (ptpDelayResp a0 a1 a2 a3 t) := by
  unfold ptpDelayResp
  repeat' (first | with_reducible assumption | with_reducible refine frameSize_sorted ?_ | with_reducible refine updEth_sorted ?_ | with_reducible refine freeRound_sorted ?_ | with_reducible refine recheck_sorted ?_ | with_reducible refine measure_sorted ?_ | with_reducible refine Sorted.ite ?_ ?_ | split)

theorem ptpIgnored_sorted {t : State} {a0 : Nat}  (h : Sorted t) : Sorted (ptpIgnored a0 t) := by
  unfold ptpIgnored
  repeat' (first | with_reducible assumption | with_reducible refine frameSize_sorted ?_ | with_reducible refine bump_sorted ?_ | with_reducible refine Sorted.ite ?_ ?_)

theorem ptpDelayReqSend_sorted {t : State}   (h : Sorted t) : Sorted (ptpDelayReqSend t) := by
  unfold ptpDelayReqSend
  repeat' (first | with_reducible assumption | with_reducible refine updEth_sorted ?_ | with_reducible refine Sorted.ite ?_ ?_)

theorem sendFrame_sorted {t : State} {a0 : Nat} {a1 : Nat} {a2 : BitVec 16} {a3 : Beat}  (h : Sorted t) : Sorted (sendFrame a0 a1 a2 a3 t) := by
  unfold sendFrame
  repeat' (first | with_reducible assumption | with_reducible refine updTime_sorted ?_ | with_reducible refine Sorted.ite ?_ ?_)

theorem timeClear_sorted {t : State} {a0 : Nat}  (h : Sorted t) : Sorted (timeClear a0 t) := by
  unfold timeClear
  repeat' (first | with_reducible assumption | with_reducible refine updTime_sorted ?_ | with_reducible refine Sorted.ite ?_ ?_)

theorem timeStart_sorted {t : State} {a0 : Nat}  (h : Sorted t) : Sorted (timeStart a0 t) := by
  unfold timeStart
  repeat' (first | with_reducible assumption | with_reducible refine updTime_sorted ?_ | with_reducible refine timeClear_sorted ?_ | with_reducible refine Sorted.ite ?_ ?_)

theorem reparent_sorted {t : State}   (h : Sorted t) : Sorted (reparent t) := by
  unfold reparent
  repeat' (first | with_reducible assumption | with_reducible refine updServo_sorted ?_ | with_reducible refine recheck_sorted ?_ | with_reducible refine raise_sorted ?_ | with_reducible refine bump_sorted ?_ | with_reducible refine Sorted.ite ?_ ?_)

theorem timeDrop_sorted {t : State} {a0 : Nat}  (h : Sorted t) : Sorted (timeDrop a0 t) := by
  unfold timeDrop
  repeat' (first | with_reducible assumption | with_reducible refine reparent_sorted ?_ | with_reducible refine timeClear_sorted ?_ | with_reducible refine Sorted.ite ?_ ?_)

theorem rxTimestamp_sorted {t : State} {a0 : Nat} {a1 : Tdc}  (h : Sorted t) : Sorted (rxTimestamp a0 a1 t) := by
  unfold rxTimestamp
  repeat' (first | with_reducible assumption | with_reducible refine updTime_sorted ?_ | with_reducible refine Sorted.ite ?_ ?_)

theorem txTimestamp_sorted {t : State} {a0 : Nat} {a1 : Tdc}  (h : Sorted t) : Sorted (txTimestamp a0 a1 t) := by
  unfold txTimestamp
  repeat' (first | with_reducible assumption | with_reducible refine updTime_sorted ?_ | with_reducible refine Sorted.ite ?_ ?_ | split)

theorem takeFrame_sorted {t : State} {a0 : Nat} {a1 : Beat}  (h : Sorted t) : Sorted (takeFrame a0 a1 t).2 := by
  dsimp only [takeFrame]
  repeat' (first | with_reducible assumption | with_reducible refine updTime_sorted ?_ | with_reducible refine bump_sorted ?_ | with_reducible refine setPortErr_sorted ?_ | with_reducible refine setErr_sorted ?_ | with_reducible refine Sorted.ite ?_ ?_ | split)

theorem takeFrame_sorted_eq {t : State} {a0 : Nat} {a1 : Beat}  {x} {u : State} (e : takeFrame a0 a1 t = (x, u)) (h : Sorted t) : Sorted u := by
  have := takeFrame_sorted (t := t) (a0 := a0) (a1 := a1) h
  rw [e] at this; exact this

theorem helloSend_sorted {t : State} {a0 : Nat}  (h : Sorted t) : Sorted (helloSend a0 t) := by
  unfold helloSend
  repeat' (first | with_reducible assumption | with_reducible refine sendFrame_sorted ?_ | with_reducible refine updTime_sorted ?_ | with_reducible refine Sorted.ite ?_ ?_)

theorem planeStamp_sorted {t : State} {a1 : Nat} {a2 : Option Int}  (h : Sorted t) : Sorted (planeStamp t a1 a2).2 := by
  unfold planeStamp
  repeat' (first | with_reducible assumption | with_reducible refine freeRound_sorted ?_ | with_reducible refine Sorted.ite ?_ ?_ | split)

theorem planeStamp_sorted_eq {t : State} {a1 : Nat} {a2 : Option Int}  {x} {u : State} (e : planeStamp t a1 a2 = (x, u)) (h : Sorted t) : Sorted u := by
  have := planeStamp_sorted (t := t) (a1 := a1) (a2 := a2) h
  rw [e] at this; exact this

theorem negotiate_sorted {t : State} {a0 : Nat} {a1 : Nat} {a2 : Nat}  (h : Sorted t) : Sorted (negotiate a0 a1 a2 t) := by
  unfold negotiate
  repeat' (first | with_reducible assumption | with_reducible refine linkEvent_sorted ?_ | with_reducible refine setErr_sorted ?_ | with_reducible refine reparent_sorted ?_ | with_reducible refine updTime_sorted ?_ | with_reducible refine Sorted.ite ?_ ?_)

theorem hello_sorted {t : State} {a0 : Nat} {a1 : Beat} {a2 : Option Int}  (h : Sorted t) : Sorted (hello a0 a1 a2 t) := by
  unfold hello
  repeat' (first | with_reducible assumption | with_reducible refine planeStamp_sorted ?_ | with_reducible refine updLink_sorted ?_ | with_reducible refine timeDrop_sorted ?_ | with_reducible refine raise_sorted ?_ | with_reducible refine linkEvent_sorted ?_ | with_reducible refine setErr_sorted ?_ | with_reducible refine timeStart_sorted ?_ | with_reducible refine updTime_sorted ?_ | with_reducible refine negotiate_sorted ?_ | with_reducible refine Sorted.ite ?_ ?_)

theorem discardPd_sorted {t : State} {a0 : Nat}  (h : Sorted t) : Sorted (discardPd a0 t) := by
  unfold discardPd
  repeat' (first | with_reducible assumption | with_reducible refine reparent_sorted ?_ | with_reducible refine updTime_sorted ?_)

theorem pdreqSend_sorted {t : State} {a0 : Nat}  (h : Sorted t) : Sorted (pdreqSend a0 t) := by
  unfold pdreqSend
  repeat' (first | with_reducible assumption | with_reducible refine discardPd_sorted ?_ | with_reducible refine sendFrame_sorted ?_ | with_reducible refine updTime_sorted ?_ | with_reducible refine Sorted.ite ?_ ?_)

theorem pdreq_sorted {t : State} {a0 : Nat} {a1 : Beat} {a2 : Option Int}  (h : Sorted t) : Sorted (pdreq a0 a1 a2 t) := by
  unfold pdreq
  repeat' (first | with_reducible assumption | with_reducible refine freeRound_sorted ?_ | with_reducible refine sendFrame_sorted ?_ | with_reducible refine updTime_sorted ?_ | with_reducible refine Sorted.ite ?_ ?_ | split)

theorem pdfollowSend_sorted {t : State} {a0 : Nat}  (h : Sorted t) : Sorted (pdfollowSend a0 t) := by
  unfold pdfollowSend
  repeat' (first | with_reducible assumption | with_reducible refine freeRound_sorted ?_ | with_reducible refine sendFrame_sorted ?_ | with_reducible refine updTime_sorted ?_ | with_reducible refine Sorted.ite ?_ ?_ | split)

theorem pdresp_sorted {t : State} {a0 : Nat} {a1 : Beat} {a2 : Option Int}  (h : Sorted t) : Sorted (pdresp a0 a1 a2 t) := by
  unfold pdresp
  repeat' (first | with_reducible assumption | with_reducible refine updTime_sorted ?_ | with_reducible refine Sorted.ite ?_ ?_ | split)

theorem ratioOf_sorted {t : State} {a0 : LinkTime} {a1 : Int} {a2 : Nat}  (h : Sorted t) : Sorted (ratioOf a0 a1 a2 t).2 := by
  dsimp only [ratioOf]
  repeat' (first | with_reducible assumption | with_reducible refine takeFree_sorted ?_ | with_reducible refine Sorted.ite ?_ ?_ | split)

theorem ratioOf_sorted_eq {t : State} {a0 : LinkTime} {a1 : Int} {a2 : Nat}  {x} {u : State} (e : ratioOf a0 a1 a2 t = (x, u)) (h : Sorted t) : Sorted u := by
  have := ratioOf_sorted (t := t) (a0 := a0) (a1 := a1) (a2 := a2) h
  rw [e] at this; exact this

theorem pdfollow_sorted {t : State} {a0 : Nat} {a1 : Beat} {a2 : Option Int}  (h : Sorted t) : Sorted (pdfollow a0 a1 a2 t) := by
  unfold pdfollow
  repeat' (first | with_reducible assumption | with_reducible refine ratioOf_sorted ?_ | with_reducible refine Q_scaled_sorted ?_ | with_reducible refine reparent_sorted ?_ | with_reducible refine updTime_sorted ?_ | with_reducible refine Sorted.ite ?_ ?_ | split)

theorem pdelayTimeout_sorted {t : State} {a0 : Nat}  (h : Sorted t) : Sorted (pdelayTimeout a0 t) := by
  unfold pdelayTimeout
  repeat' (first | with_reducible assumption | with_reducible refine discardPd_sorted ?_ | with_reducible refine Sorted.ite ?_ ?_ | split)

theorem sendSync_sorted {t : State} {a0 : Nat} {a1 : BitVec 16} {a2 : Nat} {a3 : Nat}  (h : Sorted t) : Sorted (sendSync a0 a1 a2 a3 t) := by
  unfold sendSync
  repeat' (first | with_reducible assumption | with_reducible refine sendFrame_sorted ?_ | with_reducible refine updTime_sorted ?_ | with_reducible refine Sorted.ite ?_ ?_)

theorem rootSyncSend_sorted {t : State}   (h : Sorted t) : Sorted (rootSyncSend t) := by
  unfold rootSyncSend
  repeat' (first | with_reducible assumption | with_reducible refine sendSync_sorted ?_ | with_reducible refine updServo_sorted ?_ | with_reducible refine foldl_sorted (fun _ _ _ => ?_) ?_ | with_reducible refine Sorted.ite ?_ ?_)

theorem sync_sorted {t : State} {a0 : Nat} {a1 : Beat} {a2 : Option Int}  (h : Sorted t) : Sorted (sync a0 a1 a2 t) := by
  unfold sync
  repeat' (first | with_reducible assumption | with_reducible refine updTime_sorted ?_ | with_reducible refine sendSync_sorted ?_ | with_reducible refine foldl_sorted (fun _ _ _ => ?_) ?_ | with_reducible refine Sorted.ite ?_ ?_ | split)

theorem rootNews_sorted {t : State} {a0 : Follow}  (h : Sorted t) : Sorted (rootNews a0 t) := by
  unfold rootNews
  repeat' (first | with_reducible assumption | with_reducible refine updServo_sorted ?_ | with_reducible refine recheck_sorted ?_ | with_reducible refine rearm_sorted ?_ | with_reducible refine rootDiscLost_sorted ?_ | with_reducible refine Sorted.ite ?_ ?_)

theorem freshNews_sorted {t : State} {a0 : Follow}  (h : Sorted t) : Sorted (freshNews a0 t) := by
  unfold freshNews
  repeat' (first | with_reducible assumption | with_reducible refine updServo_sorted ?_ | with_reducible refine Sorted.ite ?_ ?_)

theorem follow_sorted {t : State} {a0 : Nat} {a1 : Beat} {a2 : Option Int}  (h : Sorted t) : Sorted (follow a0 a1 a2 t) := by
  unfold follow
  repeat' (first | with_reducible assumption | with_reducible refine reparent_sorted ?_ | with_reducible refine freshNews_sorted ?_ | with_reducible refine updTime_sorted ?_ | with_reducible refine rootNews_sorted ?_ | with_reducible refine measure_sorted ?_ | with_reducible refine Sorted.ite ?_ ?_ | split)

theorem followSend_sorted {t : State} {a0 : Nat}  (h : Sorted t) : Sorted (followSend a0 t) := by
  dsimp only [followSend]
  repeat' (first | with_reducible assumption | with_reducible refine updTime_sorted ?_ | with_reducible refine freeRound_sorted ?_ | with_reducible refine sendFrame_sorted ?_ | with_reducible refine Q_scaled_sorted ?_ | with_reducible refine Sorted.ite ?_ ?_ | split)

theorem followTimeout_sorted {t : State}   (h : Sorted t) : Sorted (followTimeout t) := by
  unfold followTimeout
  repeat' (first | with_reducible assumption | with_reducible refine updTime_sorted ?_ | with_reducible refine foldl_sorted (fun _ _ _ => ?_) ?_ | with_reducible refine Sorted.ite ?_ ?_ | split)

theorem rootLost_sorted {t : State}   (h : Sorted t) : Sorted (rootLost t) := by
  unfold rootLost
  repeat' (first | with_reducible assumption | with_reducible refine reparent_sorted ?_ | with_reducible refine setErr_sorted ?_ | with_reducible refine updServo_sorted ?_ | with_reducible refine Sorted.ite ?_ ?_)

theorem timeFrame_sorted {t : State} {a0 : Nat} {a1 : Beat}  (h : Sorted t) : Sorted (timeFrame a0 a1 t) := by
  unfold timeFrame
  repeat' (first | with_reducible assumption | with_reducible refine takeFrame_sorted ?_ | with_reducible refine hello_sorted ?_ | with_reducible refine sync_sorted ?_ | with_reducible refine follow_sorted ?_ | with_reducible refine pdreq_sorted ?_ | with_reducible refine pdresp_sorted ?_ | with_reducible refine pdfollow_sorted ?_ | dsimp only | with_reducible refine Sorted.ite ?_ ?_ | split)

theorem linkEnters_sorted {t : State} {a0 : Nat}  (h : Sorted t) : Sorted (linkEnters a0 t) := by
  unfold linkEnters
  repeat' (first | with_reducible assumption | with_reducible refine updLink_sorted ?_ | with_reducible refine raise_sorted ?_ | with_reducible refine linkEventNow_sorted ?_ | with_reducible refine timeStart_sorted ?_ | with_reducible refine settleLnk_sorted ?_ | with_reducible refine Sorted.ite ?_ ?_)

theorem linkStateChange_sorted {t : State} {a0 : Nat} {a1 : BitVec 2} {a2 : Tdc}  (h : Sorted t) : Sorted (linkStateChange a0 a1 a2 t) := by
  unfold linkStateChange
  repeat' (first | with_reducible assumption | with_reducible refine updLink_sorted ?_ | with_reducible refine bump_sorted ?_ | with_reducible refine linkEvent_sorted ?_ | with_reducible refine raise_sorted ?_ | with_reducible refine linkDown_sorted ?_ | with_reducible refine timeDrop_sorted ?_ | with_reducible refine timeStart_sorted ?_ | with_reducible refine Sorted.ite ?_ ?_)

theorem absentTimer_sorted {t : State} {a0 : Nat}  (h : Sorted t) : Sorted (absentTimer a0 t) := by
  unfold absentTimer
  repeat' (first | with_reducible assumption | with_reducible refine raise_sorted ?_ | with_reducible refine linkEvent_sorted ?_ | with_reducible refine setErr_sorted ?_ | with_reducible refine updLink_sorted ?_ | dsimp only | with_reducible refine Sorted.ite ?_ ?_ | split)

theorem updStop_sorted {t : State} {a0 : Stop → Stop}  (h : Sorted t) : Sorted (updStop a0 t) := by
  unfold updStop
  repeat' (first | with_reducible assumption | with_reducible refine Sorted.ite ?_ ?_ | with_reducible refine Sorted.set_stop ?_)

theorem snagFill_sorted {t : State}   (h : Sorted t) : Sorted (snagFill t) := by
  unfold snagFill
  repeat' (first | with_reducible assumption | with_reducible refine updStop_sorted ?_ | with_reducible refine setErr_sorted ?_ | with_reducible refine Sorted.ite ?_ ?_ | split)

theorem issueSnag_sorted {t : State} {a0 : Nat}  (h : Sorted t) : Sorted (issueSnag a0 t) := by
  unfold issueSnag
  repeat' (first | with_reducible assumption | with_reducible refine snagFill_sorted ?_ | with_reducible refine updReedGov_sorted ?_ | with_reducible refine updStop_sorted ?_ | with_reducible refine sendBlock_sorted ?_ | with_reducible refine Sorted.ite ?_ ?_ | split | with_reducible refine Sorted.set_exempt ?_)

theorem snagBlockDone_sorted {t : State} {a0 : Nat} {a1 : Bool}  (h : Sorted t) : Sorted (snagBlockDone a0 a1 t) := by
  unfold snagBlockDone
  repeat' (first | with_reducible assumption | with_reducible refine updStop_sorted ?_ | with_reducible refine Sorted.ite ?_ ?_ | split)

theorem snagWritten_sorted {t : State}   (h : Sorted t) : Sorted (snagWritten t) := by
  unfold snagWritten
  repeat' (first | with_reducible assumption | with_reducible refine raise_sorted ?_ | with_reducible refine updStop_sorted ?_ | with_reducible refine Sorted.ite ?_ ?_)

theorem snagRestart_sorted {t : State}   (h : Sorted t) : Sorted (snagRestart t) := by
  unfold snagRestart
  repeat' (first | with_reducible assumption | with_reducible refine updStop_sorted ?_ | with_reducible refine Sorted.ite ?_ ?_)

theorem waitingDemand_sorted {t : State}   (h : Sorted t) : Sorted (waitingDemand t) := by
  unfold waitingDemand
  repeat' (first | with_reducible assumption | with_reducible refine updReedGov_sorted ?_ | with_reducible refine foldl_sorted (fun _ _ _ => ?_) ?_ | with_reducible refine Sorted.ite ?_ ?_ | split)

theorem updKey_sorted {t : State} {a0 : KeyStore → KeyStore} (h_slots : msorted (a0 t.key).slots = true) (h : Sorted t) : Sorted (updKey a0 t) := by
  unfold updKey
  repeat' (first | with_reducible assumption | with_reducible refine Sorted.ite ?_ ?_ | with_reducible refine Sorted.set_key ?_ ?_)

theorem deriveGen_sorted {t : State} {a0 : BitVec 32} {a1 : BitVec 8} {a2 : BitVec 256}  (h : Sorted t) : Sorted (deriveGen a0 a1 a2 t).2 := by
  unfold deriveGen
  repeat' (first | with_reducible assumption | with_reducible refine takeSalt_sorted ?_ | with_reducible refine Sorted.ite ?_ ?_)

theorem deriveGen_sorted_eq {t : State} {a0 : BitVec 32} {a1 : BitVec 8} {a2 : BitVec 256}  {x} {u : State} (e : deriveGen a0 a1 a2 t = (x, u)) (h : Sorted t) : Sorted u := by
  have := deriveGen_sorted (t := t) (a0 := a0) (a1 := a1) (a2 := a2) h
  rw [e] at this; exact this

theorem clearSeed_sorted {t : State}   (h : Sorted t) : Sorted (clearSeed t) := by
  unfold clearSeed
  repeat' (first | with_reducible assumption | with_reducible refine updKey_sorted ?_ ?_ | with_reducible refine Sorted.ite ?_ ?_ | with_reducible refine Sorted.key_slots ?_ | with_reducible refine msorted_mset _ _ _ _ ?_ | with_reducible refine msorted_mupd _ _ _ _ ?_ | with_reducible refine msorted_mins _ _ _ ?_ | with_reducible refine msorted_mdel _ _ ?_ | with_reducible refine msorted_filter _ _ ?_ | refine msorted_map _ (fun e => by first | rfl | (dsimp only; split <;> rfl)) _ ?_ | with_reducible exact msorted_nil)

theorem install_sorted {t : State}   (h : Sorted t) : SortedO (install t) := by
  unfold install
  repeat' (first | with_reducible assumption | with_reducible refine deriveGen_sorted ?_ | with_reducible refine clearSeed_sorted ?_ | with_reducible refine updSlot_sorted ?_ | with_reducible exact SortedO.none | with_reducible refine SortedO.some ?_ | with_reducible refine SortedO.ite ?_ ?_ | split)

theorem rotate_sorted {t : State}   (h : Sorted t) : SortedO (rotate t) := by
  unfold rotate
  repeat' (first | with_reducible assumption | with_reducible refine deriveGen_sorted ?_ | with_reducible refine updSlot_sorted ?_ | with_reducible refine clearSeed_sorted ?_ | with_reducible refine updBob_sorted ?_ | with_reducible exact SortedO.none | with_reducible refine SortedO.some ?_ | with_reducible refine foldl_sorted (fun _ _ _ => ?_) ?_ | dsimp only | with_reducible refine SortedO.ite ?_ ?_ | split)

theorem slotReport_sorted {t : State} {a0 : Nat} {a1 : Nat} {a2 : Nat} {a3 : Nat} {a4 : Nat}  (h : Sorted t) : Sorted (slotReport a0 a1 a2 a3 a4 t) := by
  unfold slotReport
  repeat' (first | with_reducible assumption | with_reducible refine placeReport_sorted ?_ | with_reducible refine Sorted.ite ?_ ?_)

theorem beginRemoval_sorted {t : State} {a0 : Nat} {a1 : Nat}  (h : Sorted t) : Sorted (beginRemoval a0 a1 t) := by
  unfold beginRemoval
  repeat' (first | with_reducible assumption | with_reducible refine updSlot_sorted ?_ | with_reducible refine closeBobs_sorted ?_ | with_reducible refine raise_sorted ?_ | with_reducible refine slotReport_sorted ?_ | with_reducible refine Sorted.ite ?_ ?_)

theorem remove_sorted {t : State}   (h : Sorted t) : SortedO (remove t) := by
  unfold remove
  repeat' (first | with_reducible assumption | with_reducible refine beginRemoval_sorted ?_ | with_reducible exact SortedO.none | with_reducible refine SortedO.some ?_ | with_reducible refine SortedO.ite ?_ ?_)

theorem release_sorted {t : State}   (h : Sorted t) : SortedO (release t) := by
  unfold release
  repeat' (first | with_reducible assumption | with_reducible refine updSlot_sorted ?_ | with_reducible exact SortedO.none | with_reducible refine SortedO.some ?_ | with_reducible refine SortedO.ite ?_ ?_)

theorem scanRelease_sorted {t : State}   (h : Sorted t) : SortedO (scanRelease t) := by
  unfold scanRelease
  repeat' (first | with_reducible assumption | with_reducible refine updSlot_sorted ?_ | with_reducible exact SortedO.none | with_reducible refine SortedO.some ?_ | with_reducible refine SortedO.ite ?_ ?_)

theorem noteSeed_sorted {t : State}   (h : Sorted t) : Sorted (noteSeed t) := by
  unfold noteSeed
  repeat' (first | with_reducible assumption | with_reducible refine setErr_sorted ?_ | with_reducible refine Sorted.ite ?_ ?_)

theorem tdispChange_sorted {t : State} {a0 : BitVec 2}  (h : Sorted t) : Sorted (tdispChange a0 t) := by
  unfold tdispChange
  repeat' (first | with_reducible assumption | with_reducible refine raise_sorted ?_ | with_reducible refine updKey_sorted ?_ ?_ | with_reducible refine setErr_sorted ?_ | with_reducible refine clearSeed_sorted ?_ | with_reducible refine beginRemoval_sorted ?_ | with_reducible refine foldl_sorted (fun _ _ _ => ?_) ?_ | with_reducible refine Sorted.ite ?_ ?_ | with_reducible refine Sorted.key_slots ?_ | with_reducible refine msorted_mset _ _ _ _ ?_ | with_reducible refine msorted_mupd _ _ _ _ ?_ | with_reducible refine msorted_mins _ _ _ ?_ | with_reducible refine msorted_mdel _ _ ?_ | with_reducible refine msorted_filter _ _ ?_ | refine msorted_map _ (fun e => by first | rfl | (dsimp only; split <;> rfl)) _ ?_ | with_reducible exact msorted_nil)

theorem genRetired_sorted {t : State} {a0 : Nat}  (h : Sorted t) : Sorted (genRetired a0 t) := by
  unfold genRetired
  repeat' (first | with_reducible assumption | with_reducible refine updSlot_sorted ?_ | with_reducible refine updBob_sorted ?_ | with_reducible refine slotReport_sorted ?_ | with_reducible refine foldl_sorted (fun _ _ _ => ?_) ?_ | dsimp only | with_reducible refine Sorted.ite ?_ ?_ | split)

theorem fenceComplete_sorted {t : State} {a0 : Nat}  (h : Sorted t) : Sorted (fenceComplete a0 t) := by
  unfold fenceComplete
  repeat' (first | with_reducible assumption | with_reducible refine updSlot_sorted ?_ | with_reducible refine Sorted.ite ?_ ?_)

theorem clearBob_sorted {t : State} {a0 : Nat}  (h : Sorted t) : Sorted (clearBob a0 t) := by
  unfold clearBob
  repeat' (first | with_reducible assumption | with_reducible refine updBob_sorted ?_ | with_reducible refine Sorted.ite ?_ ?_)

theorem eraseSlot_sorted {t : State} {a0 : Nat}  (h : Sorted t) : Sorted (eraseSlot a0 t) := by
  unfold eraseSlot
  repeat' (first | with_reducible assumption | with_reducible refine updSlot_sorted ?_ | with_reducible refine clearBob_sorted ?_ | with_reducible refine slotReport_sorted ?_ | with_reducible refine foldl_sorted (fun _ _ _ => ?_) ?_ | with_reducible refine Sorted.ite ?_ ?_)

theorem slotDrainComplete_sorted {t : State} {a0 : Nat}  (h : Sorted t) : Sorted (slotDrainComplete a0 t) := by
  unfold slotDrainComplete
  repeat' (first | with_reducible assumption | with_reducible refine eraseSlot_sorted ?_ | with_reducible refine Sorted.ite ?_ ?_)

theorem drainOverdue_sorted {t : State} {a0 : Nat}  (h : Sorted t) : Sorted (drainOverdue a0 t) := by
  unfold drainOverdue
  repeat' (first | with_reducible assumption | with_reducible refine setErr_sorted ?_ | with_reducible refine updSlot_sorted ?_ | with_reducible refine Sorted.ite ?_ ?_)

theorem keyEcc_sorted {t : State} {a0 : Nat} {a1 : Bool}  (h : Sorted t) : Sorted (keyEcc a0 a1 t) := by
  unfold keyEcc
  repeat' (first | with_reducible assumption | with_reducible refine beginRemoval_sorted ?_ | with_reducible refine updSlot_sorted ?_ | with_reducible refine updStrm_sorted ?_ | with_reducible refine setErr_sorted ?_ | with_reducible refine abandonScans_sorted ?_ | with_reducible refine eraseSlot_sorted ?_ | with_reducible refine workLost_sorted ?_ | with_reducible refine foldl_sorted (fun _ _ _ => ?_) ?_ | with_reducible refine Sorted.ite ?_ ?_)

theorem issueZero_sorted {t : State} {a0 : Nat} {a1 : Nat} {a2 : Nat}  (h : Sorted t) : Sorted (issueZero a0 a1 a2 t) := by
  unfold issueZero
  repeat' (first | with_reducible assumption | with_reducible refine updSlot_sorted ?_ | with_reducible refine sendBlock_sorted ?_ | with_reducible refine Sorted.ite ?_ ?_ | with_reducible refine Sorted.set_exempt ?_)

theorem zeroDone_sorted {t : State} {a0 : Nat} {a1 : Nat} {a2 : Bool}  (h : Sorted t) : Sorted (zeroDone a0 a1 a2 t) := by
  unfold zeroDone
  repeat' (first | with_reducible assumption | with_reducible refine updSlot_sorted ?_ | with_reducible refine Sorted.ite ?_ ?_)

theorem scrubbed_sorted {t : State} {a0 : Nat} {a1 : Nat} {a2 : Nat} {a3 : Nat} {a4 : Nat}  (h : Sorted t) : Sorted (scrubbed a0 a1 a2 a3 a4 t) := by
  unfold scrubbed
  repeat' (first | with_reducible assumption | with_reducible refine raise_sorted ?_ | with_reducible refine slotReport_sorted ?_ | with_reducible refine updSlot_sorted ?_ | with_reducible refine Sorted.ite ?_ ?_)

theorem scrubComplete_sorted {t : State} {a0 : Nat}  (h : Sorted t) : Sorted (scrubComplete a0 t) := by
  unfold scrubComplete
  repeat' (first | with_reducible assumption | with_reducible refine scrubbed_sorted ?_ | with_reducible refine Sorted.ite ?_ ?_)

theorem askRead_sorted {t : State} {a0 : ReadFor} {a1 : Nat}  (h : Sorted t) : Sorted (askRead a0 a1 t) := by
  unfold askRead
  repeat' (first | with_reducible assumption | with_reducible refine Sorted.ite ?_ ?_ | with_reducible refine Sorted.set_rport ?_ ?_ | with_reducible refine Sorted.rport_tags ?_ | with_reducible refine msorted_mset _ _ _ _ ?_ | with_reducible refine msorted_mupd _ _ _ _ ?_ | with_reducible refine msorted_mins _ _ _ ?_ | with_reducible refine msorted_mdel _ _ ?_ | with_reducible refine msorted_filter _ _ ?_ | refine msorted_map _ (fun e => by first | rfl | (dsimp only; split <;> rfl)) _ ?_ | with_reducible exact msorted_nil)

theorem askScans_sorted {t : State} {a0 : Nat}  (h : Sorted t) : Sorted (askScans a0 t) := by
  unfold askScans
  repeat' (first | with_reducible assumption | with_reducible refine askRead_sorted ?_ | with_reducible refine updAdopt_sorted ?_ | with_reducible refine foldl_sorted (fun _ _ _ => ?_) ?_ | with_reducible refine Sorted.ite ?_ ?_)

theorem startReads_sorted {t : State} {a0 : Nat}  (h : Sorted t) : Sorted (startReads a0 t) := by
  induction a0 generalizing t  with
  | zero => exact h
  | succ n ih =>
    unfold startReads
    repeat' (first | with_reducible assumption | (with_reducible refine ih ?_) | with_reducible refine Sorted.ite ?_ ?_ | split | with_reducible refine Sorted.set_rport ?_ ?_ | with_reducible refine Sorted.rport_tags ?_ | with_reducible refine msorted_mset _ _ _ _ ?_ | with_reducible refine msorted_mupd _ _ _ _ ?_ | with_reducible refine msorted_mins _ _ _ ?_ | with_reducible refine msorted_mdel _ _ ?_ | with_reducible refine msorted_filter _ _ ?_ | refine msorted_map _ (fun e => by first | rfl | (dsimp only; split <;> rfl)) _ ?_ | with_reducible exact msorted_nil)

theorem settleReads_sorted {t : State}   (h : Sorted t) : Sorted (settleReads t) := by
  unfold settleReads
  repeat' (first | with_reducible assumption | with_reducible refine startReads_sorted ?_ | with_reducible refine askScans_sorted ?_ | with_reducible refine foldl_sorted (fun _ _ _ => ?_) ?_ | with_reducible refine Sorted.ite ?_ ?_)

theorem updRb_sorted {t : State} {a0 : RbPort → RbPort}  (h : Sorted t) : Sorted (updRb a0 t) := by
  unfold updRb
  repeat' (first | with_reducible assumption | with_reducible refine updKey_sorted ?_ ?_ | with_reducible refine Sorted.ite ?_ ?_ | with_reducible refine Sorted.key_slots ?_ | with_reducible refine msorted_mset _ _ _ _ ?_ | with_reducible refine msorted_mupd _ _ _ _ ?_ | with_reducible refine msorted_mins _ _ _ ?_ | with_reducible refine msorted_mdel _ _ ?_ | with_reducible refine msorted_filter _ _ ?_ | refine msorted_map _ (fun e => by first | rfl | (dsimp only; split <;> rfl)) _ ?_ | with_reducible exact msorted_nil)

theorem rbBegin_sorted {t : State}   (h : Sorted t) : Sorted (rbBegin t) := by
  unfold rbBegin
  repeat' (first | with_reducible assumption | with_reducible refine updRb_sorted ?_ | with_reducible refine askRead_sorted ?_ | with_reducible refine Sorted.ite ?_ ?_ | split)

theorem readbackRequest_sorted {t : State} {a0 : BitVec 16} {a1 : BitVec 48}  (h : Sorted t) : Sorted (readbackRequest a0 a1 t) := by
  unfold readbackRequest
  repeat' (first | with_reducible assumption | with_reducible refine updRb_sorted ?_ | with_reducible refine rbBegin_sorted ?_ | with_reducible refine Sorted.ite ?_ ?_)

theorem readbackComplete_sorted {t : State}   (h : Sorted t) : Sorted (readbackComplete t) := by
  dsimp only [readbackComplete]
  repeat' (first | with_reducible assumption | with_reducible refine rbBegin_sorted ?_ | with_reducible refine updRb_sorted ?_ | with_reducible refine Sorted.ite ?_ ?_ | split)

theorem keyReadClear_sorted {t : State}   (h : Sorted t) : Sorted (keyReadClear t) := by
  unfold keyReadClear
  repeat' (first | with_reducible assumption | with_reducible refine updSlot_sorted ?_ | with_reducible refine Sorted.ite ?_ ?_)

theorem updFw_sorted {t : State} {a0 : Fw → Fw} (h_image : msorted (a0 t.fw).image = true) (h : Sorted t) : Sorted (updFw a0 t) := by
  unfold updFw
  repeat' (first | with_reducible assumption | with_reducible refine Sorted.ite ?_ ?_ | with_reducible refine Sorted.set_fw ?_ ?_)

theorem fwResult_sorted {t : State} {a0 : Nat}  (h : Sorted t) : Sorted (fwResult a0 t) := by
  unfold fwResult
  repeat' (first | with_reducible assumption | with_reducible refine regSetFld_sorted ?_ | with_reducible refine Sorted.ite ?_ ?_)

theorem dropLoader_sorted {t : State}   (h : Sorted t) : Sorted (dropLoader t) := by
  unfold dropLoader
  repeat' (first | with_reducible assumption | with_reducible refine updFw_sorted ?_ ?_ | with_reducible refine dropReads_sorted ?_ | with_reducible refine Sorted.ite ?_ ?_ | with_reducible refine Sorted.fw_image ?_ | with_reducible refine msorted_mset _ _ _ _ ?_ | with_reducible refine msorted_mupd _ _ _ _ ?_ | with_reducible refine msorted_mins _ _ _ ?_ | with_reducible refine msorted_mdel _ _ ?_ | with_reducible refine msorted_filter _ _ ?_ | refine msorted_map _ (fun e => by first | rfl | (dsimp only; split <;> rfl)) _ ?_ | with_reducible exact msorted_nil)

theorem beginLoad_sorted {t : State} {a0 : Nat} {a1 : Nat}  (h : Sorted t) : Sorted (beginLoad a0 a1 t) := by
  unfold beginLoad
  repeat' (first | with_reducible assumption | with_reducible refine askRead_sorted ?_ | with_reducible refine updFw_sorted ?_ ?_ | with_reducible refine dropLoader_sorted ?_ | with_reducible refine Sorted.ite ?_ ?_ | with_reducible refine Sorted.fw_image ?_ | with_reducible refine msorted_mset _ _ _ _ ?_ | with_reducible refine msorted_mupd _ _ _ _ ?_ | with_reducible refine msorted_mins _ _ _ ?_ | with_reducible refine msorted_mdel _ _ ?_ | with_reducible refine msorted_filter _ _ ?_ | refine msorted_map _ (fun e => by first | rfl | (dsimp only; split <;> rfl)) _ ?_ | with_reducible exact msorted_nil)

theorem askBody_sorted {t : State} {a0 : Nat → ReadFor} {a1 : Nat} {a2 : Nat}  (h : Sorted t) : Sorted (askBody a0 a1 a2 t) := by
  unfold askBody
  repeat' (first | with_reducible assumption | with_reducible refine askRead_sorted ?_ | with_reducible refine foldl_sorted (fun _ _ _ => ?_) ?_ | with_reducible refine Sorted.ite ?_ ?_)

theorem loaderRead_sorted {t : State} {a0 : Nat} {a1 : Option Block}  (h : Sorted t) : Sorted (loaderRead a0 a1 t) := by
  unfold loaderRead
  repeat' (first | with_reducible assumption | with_reducible refine updFw_sorted ?_ ?_ | with_reducible refine dropReads_sorted ?_ | with_reducible refine askBody_sorted ?_ | with_reducible refine Sorted.ite ?_ ?_ | split | with_reducible refine Sorted.fw_image ?_ | with_reducible refine msorted_mset _ _ _ _ ?_ | with_reducible refine msorted_mupd _ _ _ _ ?_ | with_reducible refine msorted_mins _ _ _ ?_ | with_reducible refine msorted_mdel _ _ ?_ | with_reducible refine msorted_filter _ _ ?_ | refine msorted_map _ (fun e => by first | rfl | (dsimp only; split <;> rfl)) _ ?_ | with_reducible exact msorted_nil)

theorem clearSram_sorted {t : State}   (h : Sorted t) : Sorted (clearSram t) := by
  unfold clearSram
  repeat' (first | with_reducible assumption | with_reducible refine updFw_sorted ?_ ?_ | with_reducible refine Sorted.ite ?_ ?_ | with_reducible refine Sorted.fw_image ?_ | with_reducible refine msorted_mset _ _ _ _ ?_ | with_reducible refine msorted_mupd _ _ _ _ ?_ | with_reducible refine msorted_mins _ _ _ ?_ | with_reducible refine msorted_mdel _ _ ?_ | with_reducible refine msorted_filter _ _ ?_ | refine msorted_map _ (fun e => by first | rfl | (dsimp only; split <;> rfl)) _ ?_ | with_reducible exact msorted_nil)

theorem fwLoad_sorted {t : State}   (h : Sorted t) : SortedO (fwLoad t) := by
  unfold fwLoad
  repeat' (first | with_reducible assumption | with_reducible refine beginLoad_sorted ?_ | with_reducible refine clearSram_sorted ?_ | with_reducible exact SortedO.none | with_reducible refine SortedO.some ?_ | with_reducible refine SortedO.ite ?_ ?_)

theorem loadComplete_sorted {t : State}   (h : Sorted t) : Sorted (loadComplete t) := by
  unfold loadComplete
  repeat' (first | with_reducible assumption | with_reducible refine fwResult_sorted ?_ | with_reducible refine dropLoader_sorted ?_ | with_reducible refine updFw_sorted ?_ ?_ | with_reducible refine raise_sorted ?_ | with_reducible refine setErr_sorted ?_ | with_reducible refine clearSram_sorted ?_ | with_reducible refine Sorted.ite ?_ ?_ | split | with_reducible refine Sorted.fw_image ?_ | with_reducible refine msorted_mset _ _ _ _ ?_ | with_reducible refine msorted_mupd _ _ _ _ ?_ | with_reducible refine msorted_mins _ _ _ ?_ | with_reducible refine msorted_mdel _ _ ?_ | with_reducible refine msorted_filter _ _ ?_ | refine msorted_map _ (fun e => by first | rfl | (dsimp only; split <;> rfl)) _ ?_ | with_reducible exact msorted_nil)

theorem fwHandover_sorted {t : State}   (h : Sorted t) : SortedO (fwHandover t) := by
  unfold fwHandover
  repeat' (first | with_reducible assumption | with_reducible refine beginLoad_sorted ?_ | with_reducible refine updFw_sorted ?_ ?_ | with_reducible exact SortedO.none | with_reducible refine SortedO.some ?_ | with_reducible refine SortedO.ite ?_ ?_ | with_reducible refine Sorted.fw_image ?_ | with_reducible refine msorted_mset _ _ _ _ ?_ | with_reducible refine msorted_mupd _ _ _ _ ?_ | with_reducible refine msorted_mins _ _ _ ?_ | with_reducible refine msorted_mdel _ _ ?_ | with_reducible refine msorted_filter _ _ ?_ | refine msorted_map _ (fun e => by first | rfl | (dsimp only; split <;> rfl)) _ ?_ | with_reducible exact msorted_nil)

theorem handoverFails_sorted {t : State} {a0 : Nat}  (h : Sorted t) : Sorted (handoverFails a0 t) := by
  unfold handoverFails
  repeat' (first | with_reducible assumption | with_reducible refine raise_sorted ?_ | with_reducible refine setErr_sorted ?_ | with_reducible refine fwResult_sorted ?_ | with_reducible refine updFw_sorted ?_ ?_ | with_reducible refine dropLoader_sorted ?_ | with_reducible refine Sorted.ite ?_ ?_ | with_reducible refine Sorted.fw_image ?_ | with_reducible refine msorted_mset _ _ _ _ ?_ | with_reducible refine msorted_mupd _ _ _ _ ?_ | with_reducible refine msorted_mins _ _ _ ?_ | with_reducible refine msorted_mdel _ _ ?_ | with_reducible refine msorted_filter _ _ ?_ | refine msorted_map _ (fun e => by first | rfl | (dsimp only; split <;> rfl)) _ ?_ | with_reducible exact msorted_nil)

theorem verifyComplete_sorted {t : State}   (h : Sorted t) : Sorted (verifyComplete t) := by
  unfold verifyComplete
  repeat' (first | with_reducible assumption | with_reducible refine updFw_sorted ?_ ?_ | with_reducible refine dropLoader_sorted ?_ | with_reducible refine handoverFails_sorted ?_ | with_reducible refine Sorted.ite ?_ ?_ | split | with_reducible refine Sorted.fw_image ?_ | with_reducible refine msorted_mset _ _ _ _ ?_ | with_reducible refine msorted_mupd _ _ _ _ ?_ | with_reducible refine msorted_mins _ _ _ ?_ | with_reducible refine msorted_mdel _ _ ?_ | with_reducible refine msorted_filter _ _ ?_ | refine msorted_map _ (fun e => by first | rfl | (dsimp only; split <;> rfl)) _ ?_ | with_reducible exact msorted_nil)

theorem handoverTimeout_sorted {t : State}   (h : Sorted t) : Sorted (handoverTimeout t) := by
  unfold handoverTimeout
  repeat' (first | with_reducible assumption | with_reducible refine handoverFails_sorted ?_ | with_reducible refine Sorted.ite ?_ ?_)

theorem leaveCheckpoint_sorted {t : State}   (h : Sorted t) : Sorted (leaveCheckpoint t) := by
  unfold leaveCheckpoint
  repeat' (first | with_reducible assumption | with_reducible refine takeFree_sorted ?_ | with_reducible refine updFw_sorted ?_ ?_ | with_reducible refine Sorted.fw_image ?_ | with_reducible refine msorted_mset _ _ _ _ ?_ | with_reducible refine msorted_mupd _ _ _ _ ?_ | with_reducible refine msorted_mins _ _ _ ?_ | with_reducible refine msorted_mdel _ _ ?_ | with_reducible refine msorted_filter _ _ ?_ | refine msorted_map _ (fun e => by first | rfl | (dsimp only; split <;> rfl)) _ ?_ | with_reducible exact msorted_nil)

theorem enterReload_sorted {t : State}   (h : Sorted t) : Sorted (enterReload t) := by
  unfold enterReload
  repeat' (first | with_reducible assumption | with_reducible refine askBody_sorted ?_ | with_reducible refine updFw_sorted ?_ ?_ | with_reducible refine Sorted.ite ?_ ?_ | with_reducible refine Sorted.fw_image ?_ | with_reducible refine msorted_mset _ _ _ _ ?_ | with_reducible refine msorted_mupd _ _ _ _ ?_ | with_reducible refine msorted_mins _ _ _ ?_ | with_reducible refine msorted_mdel _ _ ?_ | with_reducible refine msorted_filter _ _ ?_ | refine msorted_map _ (fun e => by first | rfl | (dsimp only; split <;> rfl)) _ ?_ | with_reducible exact msorted_nil)

theorem enterStart_sorted {t : State}   (h : Sorted t) : Sorted (enterStart t) := by
  unfold enterStart
  repeat' (first | with_reducible assumption | with_reducible refine updFw_sorted ?_ ?_ | with_reducible refine dropLoader_sorted ?_ | with_reducible refine Sorted.ite ?_ ?_ | with_reducible refine Sorted.fw_image ?_ | with_reducible refine msorted_mset _ _ _ _ ?_ | with_reducible refine msorted_mupd _ _ _ _ ?_ | with_reducible refine msorted_mins _ _ _ ?_ | with_reducible refine msorted_mdel _ _ ?_ | with_reducible refine msorted_filter _ _ ?_ | refine msorted_map _ (fun e => by first | rfl | (dsimp only; split <;> rfl)) _ ?_ | with_reducible exact msorted_nil)

theorem fwAccept_sorted {t : State}   (h : Sorted t) : Sorted (fwAccept t) := by
  unfold fwAccept
  repeat' (first | with_reducible assumption | with_reducible refine regSetFld_sorted ?_ | with_reducible refine updFw_sorted ?_ ?_ | with_reducible refine count_sorted ?_ | with_reducible refine raise_sorted ?_ | with_reducible refine fwResult_sorted ?_ | with_reducible refine Sorted.ite ?_ ?_ | with_reducible refine Sorted.fw_image ?_ | with_reducible refine msorted_mset _ _ _ _ ?_ | with_reducible refine msorted_mupd _ _ _ _ ?_ | with_reducible refine msorted_mins _ _ _ ?_ | with_reducible refine msorted_mdel _ _ ?_ | with_reducible refine msorted_filter _ _ ?_ | refine msorted_map _ (fun e => by first | rfl | (dsimp only; split <;> rfl)) _ ?_ | with_reducible exact msorted_nil)

theorem abandonHandover_sorted {t : State}   (h : Sorted t) : Sorted (abandonHandover t) := by
  unfold abandonHandover
  repeat' (first | with_reducible assumption | with_reducible refine raise_sorted ?_ | with_reducible refine setErr_sorted ?_ | with_reducible refine fwResult_sorted ?_ | with_reducible refine updFw_sorted ?_ ?_ | with_reducible refine dropLoader_sorted ?_ | with_reducible refine Sorted.ite ?_ ?_ | with_reducible refine Sorted.fw_image ?_ | with_reducible refine msorted_mset _ _ _ _ ?_ | with_reducible refine msorted_mupd _ _ _ _ ?_ | with_reducible refine msorted_mins _ _ _ ?_ | with_reducible refine msorted_mdel _ _ ?_ | with_reducible refine msorted_filter _ _ ?_ | refine msorted_map _ (fun e => by first | rfl | (dsimp only; split <;> rfl)) _ ?_ | with_reducible exact msorted_nil)

theorem handoverHubReset_sorted {t : State}   (h : Sorted t) : Sorted (handoverHubReset t) := by
  unfold handoverHubReset
  repeat' (first | with_reducible assumption | with_reducible refine abandonHandover_sorted ?_ | with_reducible refine updFw_sorted ?_ ?_ | with_reducible refine Sorted.ite ?_ ?_ | with_reducible refine Sorted.fw_image ?_ | with_reducible refine msorted_mset _ _ _ _ ?_ | with_reducible refine msorted_mupd _ _ _ _ ?_ | with_reducible refine msorted_mins _ _ _ ?_ | with_reducible refine msorted_mdel _ _ ?_ | with_reducible refine msorted_filter _ _ ?_ | refine msorted_map _ (fun e => by first | rfl | (dsimp only; split <;> rfl)) _ ?_ | with_reducible exact msorted_nil)

theorem handoverHubBack_sorted {t : State} {a0 : Nat}  (h : Sorted t) : Sorted (handoverHubBack a0 t) := by
  unfold handoverHubBack
  repeat' (first | with_reducible assumption | with_reducible refine updFw_sorted ?_ ?_ | with_reducible refine Sorted.ite ?_ ?_ | with_reducible refine Sorted.fw_image ?_ | with_reducible refine msorted_mset _ _ _ _ ?_ | with_reducible refine msorted_mupd _ _ _ _ ?_ | with_reducible refine msorted_mins _ _ _ ?_ | with_reducible refine msorted_mdel _ _ ?_ | with_reducible refine msorted_filter _ _ ?_ | refine msorted_map _ (fun e => by first | rfl | (dsimp only; split <;> rfl)) _ ?_ | with_reducible exact msorted_nil)

theorem fwEnters_sorted {t : State}   (h : Sorted t) : Sorted (fwEnters t) := by
  unfold fwEnters
  repeat' (first | with_reducible assumption | with_reducible refine updFw_sorted ?_ ?_ | with_reducible refine Sorted.ite ?_ ?_ | with_reducible refine Sorted.fw_image ?_ | with_reducible refine msorted_mset _ _ _ _ ?_ | with_reducible refine msorted_mupd _ _ _ _ ?_ | with_reducible refine msorted_mins _ _ _ ?_ | with_reducible refine msorted_mdel _ _ ?_ | with_reducible refine msorted_filter _ _ ?_ | refine msorted_map _ (fun e => by first | rfl | (dsimp only; split <;> rfl)) _ ?_ | with_reducible exact msorted_nil)

theorem fwReset_sorted {t : State}   (h : Sorted t) : Sorted (fwReset t) := by
  unfold fwReset
  exact Sorted.set_fw rfl (dropReads_sorted h)

theorem watchdogKick_sorted {t : State}   (h : Sorted t) : Sorted (watchdogKick t) := by
  unfold watchdogKick
  repeat' (first | with_reducible assumption | with_reducible refine count_sorted ?_ | with_reducible refine updFw_sorted ?_ ?_ | with_reducible refine Sorted.ite ?_ ?_ | with_reducible refine Sorted.fw_image ?_ | with_reducible refine msorted_mset _ _ _ _ ?_ | with_reducible refine msorted_mupd _ _ _ _ ?_ | with_reducible refine msorted_mins _ _ _ ?_ | with_reducible refine msorted_mdel _ _ ?_ | with_reducible refine msorted_filter _ _ ?_ | refine msorted_map _ (fun e => by first | rfl | (dsimp only; split <;> rfl)) _ ?_ | with_reducible exact msorted_nil)

theorem fwEmit_sorted {t : State} {a0 : Nat}  (h : Sorted t) : Sorted (fwEmit a0 t) := by
  unfold fwEmit
  repeat' (first | with_reducible assumption | with_reducible refine emitNotices_sorted ?_ | with_reducible refine Sorted.ite ?_ ?_)

theorem hostEmit_sorted {t : State}   (h : Sorted t) : SortedO (hostEmit t) := by
  unfold hostEmit
  repeat' (first | with_reducible assumption | with_reducible refine emitNotices_sorted ?_ | with_reducible exact SortedO.none | with_reducible refine SortedO.some ?_ | with_reducible refine SortedO.ite ?_ ?_)

theorem hostScrubbed_sorted {t : State}   (h : Sorted t) : SortedO (hostScrubbed t) := by
  unfold hostScrubbed
  repeat' (first | with_reducible assumption | with_reducible refine scrubbed_sorted ?_ | with_reducible exact SortedO.none | with_reducible refine SortedO.some ?_ | with_reducible refine SortedO.ite ?_ ?_)

theorem bufTransfer_sorted {t : State} {a0 : Word} {a1 : Block}  (h : Sorted t) : Sorted (bufTransfer a0 a1 t) := by
  unfold bufTransfer
  repeat' (first | with_reducible assumption | with_reducible refine updFw_sorted ?_ ?_ | with_reducible refine askRead_sorted ?_ | with_reducible refine Sorted.ite ?_ ?_ | with_reducible refine Sorted.fw_image ?_ | with_reducible refine msorted_mset _ _ _ _ ?_ | with_reducible refine msorted_mupd _ _ _ _ ?_ | with_reducible refine msorted_mins _ _ _ ?_ | with_reducible refine msorted_mdel _ _ ?_ | with_reducible refine msorted_filter _ _ ?_ | refine msorted_map _ (fun e => by first | rfl | (dsimp only; split <;> rfl)) _ ?_ | with_reducible exact msorted_nil)

theorem issueBuf_sorted {t : State} {a0 : Nat}  (h : Sorted t) : Sorted (issueBuf a0 t) := by
  unfold issueBuf
  repeat' (first | with_reducible assumption | with_reducible refine updFw_sorted ?_ ?_ | with_reducible refine sendBlock_sorted ?_ | with_reducible refine Sorted.ite ?_ ?_ | with_reducible refine Sorted.fw_image ?_ | with_reducible refine msorted_mset _ _ _ _ ?_ | with_reducible refine msorted_mupd _ _ _ _ ?_ | with_reducible refine msorted_mins _ _ _ ?_ | with_reducible refine msorted_mdel _ _ ?_ | with_reducible refine msorted_filter _ _ ?_ | refine msorted_map _ (fun e => by first | rfl | (dsimp only; split <;> rfl)) _ ?_ | with_reducible exact msorted_nil)

theorem bufDone_sorted {t : State} {a0 : Bool}  (h : Sorted t) : Sorted (bufDone a0 t) := by
  unfold bufDone
  repeat' (first | with_reducible assumption | with_reducible refine updFw_sorted ?_ ?_ | with_reducible refine Sorted.ite ?_ ?_ | split | with_reducible refine Sorted.fw_image ?_ | with_reducible refine msorted_mset _ _ _ _ ?_ | with_reducible refine msorted_mupd _ _ _ _ ?_ | with_reducible refine msorted_mins _ _ _ ?_ | with_reducible refine msorted_mdel _ _ ?_ | with_reducible refine msorted_filter _ _ ?_ | refine msorted_map _ (fun e => by first | rfl | (dsimp only; split <;> rfl)) _ ?_ | with_reducible exact msorted_nil)

theorem bufRead_sorted {t : State} {a0 : Option Block}  (h : Sorted t) : Sorted (bufRead a0 t) := by
  unfold bufRead
  repeat' (first | with_reducible assumption | with_reducible refine updFw_sorted ?_ ?_ | with_reducible refine Sorted.ite ?_ ?_ | split | with_reducible refine Sorted.fw_image ?_ | with_reducible refine msorted_mset _ _ _ _ ?_ | with_reducible refine msorted_mupd _ _ _ _ ?_ | with_reducible refine msorted_mins _ _ _ ?_ | with_reducible refine msorted_mdel _ _ ?_ | with_reducible refine msorted_filter _ _ ?_ | refine msorted_map _ (fun e => by first | rfl | (dsimp only; split <;> rfl)) _ ?_ | with_reducible exact msorted_nil)

theorem testReload_sorted {t : State}   (h : Sorted t) : Sorted (testReload t) := by
  unfold testReload
  repeat' (first | with_reducible assumption | with_reducible refine askRead_sorted ?_ | with_reducible refine updTests_sorted ?_ ?_ | with_reducible refine dropReads_sorted ?_ | with_reducible refine Sorted.ite ?_ ?_ | with_reducible refine Sorted.tests_states ?_ | with_reducible refine msorted_mset _ _ _ _ ?_ | with_reducible refine msorted_mupd _ _ _ _ ?_ | with_reducible refine msorted_mins _ _ _ ?_ | with_reducible refine msorted_mdel _ _ ?_ | with_reducible refine msorted_filter _ _ ?_ | refine msorted_map _ (fun e => by first | rfl | (dsimp only; split <;> rfl)) _ ?_ | with_reducible exact msorted_nil)

theorem manifestRead_sorted {t : State} {a0 : Nat} {a1 : Option Block}  (h : Sorted t) : Sorted (manifestRead a0 a1 t) := by
  unfold manifestRead
  repeat' (first | with_reducible assumption | with_reducible refine updTests_sorted ?_ ?_ | with_reducible refine askRead_sorted ?_ | with_reducible refine foldl_sorted (fun _ _ _ => ?_) ?_ | with_reducible refine Sorted.ite ?_ ?_ | split | with_reducible refine Sorted.tests_states ?_ | with_reducible refine msorted_mset _ _ _ _ ?_ | with_reducible refine msorted_mupd _ _ _ _ ?_ | with_reducible refine msorted_mins _ _ _ ?_ | with_reducible refine msorted_mdel _ _ ?_ | with_reducible refine msorted_filter _ _ ?_ | refine msorted_map _ (fun e => by first | rfl | (dsimp only; split <;> rfl)) _ ?_ | with_reducible exact msorted_nil)

theorem dropManifest_sorted {t : State}   (h : Sorted t) : Sorted (dropManifest t) := by
  unfold dropManifest
  repeat' (first | with_reducible assumption | with_reducible refine updTests_sorted ?_ ?_ | with_reducible refine dropReads_sorted ?_ | with_reducible refine Sorted.ite ?_ ?_ | with_reducible refine Sorted.tests_states ?_ | with_reducible refine msorted_mset _ _ _ _ ?_ | with_reducible refine msorted_mupd _ _ _ _ ?_ | with_reducible refine msorted_mins _ _ _ ?_ | with_reducible refine msorted_mdel _ _ ?_ | with_reducible refine msorted_filter _ _ ?_ | refine msorted_map _ (fun e => by first | rfl | (dsimp only; split <;> rfl)) _ ?_ | with_reducible exact msorted_nil)

theorem readEnd_sorted {t : State} {a0 : ReadFor} {a1 : Option Block}  (h : Sorted t) : Sorted (readEnd a0 a1 t) := by
  unfold readEnd
  repeat' (first | with_reducible assumption | with_reducible refine scanRead_sorted ?_ | with_reducible refine updRb_sorted ?_ | with_reducible refine loaderRead_sorted ?_ | with_reducible refine manifestRead_sorted ?_ | with_reducible refine bufRead_sorted ?_ | with_reducible refine Sorted.ite ?_ ?_ | split)

theorem endTag_sorted {t : State} {a0 : Nat} {a1 : ReadUse} {a2 : Option Block}  (h : Sorted t) : Sorted (endTag a0 a1 a2 t) := by
  unfold endTag
  repeat' (first | with_reducible assumption | with_reducible refine readEnd_sorted ?_ | with_reducible refine Sorted.ite ?_ ?_ | with_reducible refine Sorted.set_rport ?_ ?_ | with_reducible refine Sorted.rport_tags ?_ | with_reducible refine msorted_mset _ _ _ _ ?_ | with_reducible refine msorted_mupd _ _ _ _ ?_ | with_reducible refine msorted_mins _ _ _ ?_ | with_reducible refine msorted_mdel _ _ ?_ | with_reducible refine msorted_filter _ _ ?_ | refine msorted_map _ (fun e => by first | rfl | (dsimp only; split <;> rfl)) _ ?_ | with_reducible exact msorted_nil)

theorem endEarly_sorted {t : State} {a0 : Nat} {a1 : ReadUse}  (h : Sorted t) : Sorted (endEarly a0 a1 t) := by
  unfold endEarly
  repeat' (first | with_reducible assumption | with_reducible refine readEnd_sorted ?_ | with_reducible refine Sorted.set_rport ?_ ?_ | with_reducible refine Sorted.rport_tags ?_ | with_reducible refine msorted_mset _ _ _ _ ?_ | with_reducible refine msorted_mupd _ _ _ _ ?_ | with_reducible refine msorted_mins _ _ _ ?_ | with_reducible refine msorted_mdel _ _ ?_ | with_reducible refine msorted_filter _ _ ?_ | refine msorted_map _ (fun e => by first | rfl | (dsimp only; split <;> rfl)) _ ?_ | with_reducible exact msorted_nil)

theorem readBeat_sorted {t : State} {a0 : Nat} {a1 : BitVec 3} {a2 : Bool} {a3 : Beat}  (h : Sorted t) : Sorted (readBeat a0 a1 a2 a3 t) := by
  unfold readBeat
  repeat' (first | with_reducible assumption | with_reducible refine setPortErr_sorted ?_ | with_reducible refine endTag_sorted ?_ | with_reducible refine endEarly_sorted ?_ | with_reducible refine Sorted.ite ?_ ?_ | split | with_reducible refine Sorted.set_rport ?_ ?_ | with_reducible refine Sorted.rport_tags ?_ | with_reducible refine msorted_mset _ _ _ _ ?_ | with_reducible refine msorted_mupd _ _ _ _ ?_ | with_reducible refine msorted_mins _ _ _ ?_ | with_reducible refine msorted_mdel _ _ ?_ | with_reducible refine msorted_filter _ _ ?_ | refine msorted_map _ (fun e => by first | rfl | (dsimp only; split <;> rfl)) _ ?_ | with_reducible exact msorted_nil)

theorem readTimeout_sorted {t : State} {a0 : Nat}  (h : Sorted t) : Sorted (readTimeout a0 t) := by
  unfold readTimeout
  repeat' (first | with_reducible assumption | with_reducible refine endEarly_sorted ?_ | with_reducible refine setPortErr_sorted ?_ | with_reducible refine Sorted.ite ?_ ?_ | split)

theorem writeEnd_sorted {t : State} {a0 : Nat} {a1 : BlkRef} {a2 : Bool}  (h : Sorted t) : Sorted (writeEnd a0 a1 a2 t) := by
  unfold writeEnd
  repeat' (first | with_reducible assumption | with_reducible refine completeBob_sorted ?_ | with_reducible refine completePast_sorted ?_ | with_reducible refine scanDoneBlock_sorted ?_ | with_reducible refine snagBlockDone_sorted ?_ | with_reducible refine zeroDone_sorted ?_ | with_reducible refine bufDone_sorted ?_ | with_reducible refine Sorted.ite ?_ ?_ | split)

theorem takeEnd_sorted {t : State} {a0 : Nat} {a1 : BlkRef} {a2 : Bool}  (h : Sorted t) : Sorted (takeEnd a0 a1 a2 t) := by
  unfold takeEnd
  repeat' (first | with_reducible assumption | with_reducible refine updPort_sorted ?_ | with_reducible refine writeEnd_sorted ?_ | with_reducible refine Sorted.ite ?_ ?_ | split)

theorem applyRecorded_sorted {t : State} {a0 : Nat}  (h : Sorted t) : Sorted (applyRecorded a0 t) := by
  unfold applyRecorded
  repeat' (first | with_reducible assumption | with_reducible refine writeEnd_sorted ?_ | with_reducible refine updPort_sorted ?_ | with_reducible refine foldl_sorted (fun _ _ _ => ?_) ?_ | with_reducible refine Sorted.ite ?_ ?_)

theorem lateDrop_sorted {t : State} {a0 : BlkRef}  (h : Sorted t) : Sorted (lateDrop a0 t) := by
  unfold lateDrop
  repeat' (first | with_reducible assumption | with_reducible refine updSlot_sorted ?_ | dsimp only | with_reducible refine Sorted.ite ?_ ?_ | split)

theorem memoryCompletion_sorted {t : State} {a0 : Nat} {a1 : Nat} {a2 : Bool}  (h : Sorted t) : Sorted (memoryCompletion a0 a1 a2 t) := by
  unfold memoryCompletion
  repeat' (first | with_reducible assumption | with_reducible refine setPortErr_sorted ?_ | with_reducible refine bump_sorted ?_ | with_reducible refine updPort_sorted ?_ | with_reducible refine lateDrop_sorted ?_ | with_reducible refine takeEnd_sorted ?_ | with_reducible refine Sorted.ite ?_ ?_ | split)

theorem completionTimeout_sorted {t : State} {a0 : Nat} {a1 : Nat}  (h : Sorted t) : Sorted (completionTimeout a0 a1 t) := by
  unfold completionTimeout
  repeat' (first | with_reducible assumption | with_reducible refine updPort_sorted ?_ | with_reducible refine takeEnd_sorted ?_ | with_reducible refine setPortErr_sorted ?_ | with_reducible refine bump_sorted ?_ | with_reducible refine Sorted.ite ?_ ?_ | split)

theorem settleWriter_sorted {t : State} {a0 : Nat}  (h : Sorted t) : Sorted (settleWriter a0 t) := by
  unfold settleWriter
  repeat' (first | with_reducible assumption | with_reducible refine settleLnk_sorted ?_ | with_reducible refine witFlush_sorted ?_ | with_reducible refine settleHed_sorted ?_ | with_reducible refine foldl_sorted (fun _ _ _ => ?_) ?_ | with_reducible refine Sorted.ite ?_ ?_)

theorem blockIssue_sorted {t : State} {a0 : Nat}  (h : Sorted t) : Sorted (blockIssue a0 t) := by
  unfold blockIssue
  repeat' (first | with_reducible assumption | with_reducible refine settleWriter_sorted ?_ | with_reducible refine issueBuf_sorted ?_ | with_reducible refine issueSnag_sorted ?_ | with_reducible refine issueZero_sorted ?_ | with_reducible refine issueNext_sorted ?_ | with_reducible refine issueScan_sorted ?_ | with_reducible refine Sorted.ite ?_ ?_ | split)

theorem releaseAck_sorted {t : State} {a0 : Nat}  (h : Sorted t) : Sorted (releaseAck a0 t) := by
  unfold releaseAck
  repeat' (first | with_reducible assumption | with_reducible refine settleWriter_sorted ?_ | with_reducible refine releaseBob_sorted ?_ | with_reducible refine pump_sorted ?_ | with_reducible refine witFlush_sorted ?_ | with_reducible refine settleLnk_sorted ?_ | dsimp only | with_reducible refine Sorted.ite ?_ ?_ | split)

theorem viewChanged_sorted {t : State} {a0 : Nat} {a1 : PState}  (h : Sorted t) : Sorted (viewChanged a0 a1 t) := by
  induction a0 generalizing t a1 with
  | zero => exact h
  | succ n ih =>
    unfold viewChanged
    repeat' (first | with_reducible assumption | (with_reducible refine ih ?_) | with_reducible refine startRehome_sorted ?_ | with_reducible refine Sorted.ite ?_ ?_)

theorem applyReport_sorted {t : State} {a0 : Nat} {a1 : Report}  (h : Sorted t) : Sorted (applyReport a0 a1 t) := by
  unfold applyReport
  repeat' (first | with_reducible assumption | with_reducible refine viewChanged_sorted ?_ | with_reducible refine updPart_sorted ?_ | with_reducible refine Sorted.ite ?_ ?_)

theorem popReport_sorted {t : State} {a0 : Nat}  (h : Sorted t) : Sorted (popReport a0 t) := by
  unfold popReport
  repeat' (first | with_reducible assumption | with_reducible refine updPart_sorted ?_ | with_reducible refine Sorted.ite ?_ ?_)

theorem stateReport_sorted {t : State} {a0 : Nat} {a1 : Bool}  (h : Sorted t) : Sorted (stateReport a0 a1 t) := by
  unfold stateReport
  repeat' (first | with_reducible assumption | with_reducible refine bump_sorted ?_ | with_reducible refine popReport_sorted ?_ | with_reducible refine applyReport_sorted ?_ | with_reducible refine Sorted.ite ?_ ?_ | split)

theorem drainReports_sorted {t : State} {a0 : Nat}  (h : Sorted t) : Sorted (drainReports a0 t) := by
  unfold drainReports
  repeat' (first | with_reducible assumption | with_reducible refine applyReport_sorted ?_ | with_reducible refine updPart_sorted ?_ | with_reducible refine foldl_sorted (fun _ _ _ => ?_) ?_ | with_reducible refine Sorted.ite ?_ ?_)

theorem compareView_sorted {t : State} {a0 : Nat} {a1 : Nat}  (h : Sorted t) : Sorted (compareView a0 a1 t).2 := by
  unfold compareView
  repeat' (first | with_reducible assumption | with_reducible refine viewChanged_sorted ?_ | with_reducible refine updPart_sorted ?_ | with_reducible refine bump_sorted ?_ | with_reducible refine emitHub_sorted ?_ | with_reducible refine setErr_sorted ?_ | dsimp only | with_reducible refine Sorted.ite ?_ ?_ | split)

theorem compareView_sorted_eq {t : State} {a0 : Nat} {a1 : Nat}  {x} {u : State} (e : compareView a0 a1 t = (x, u)) (h : Sorted t) : Sorted u := by
  have := compareView_sorted (t := t) (a0 := a0) (a1 := a1) h
  rw [e] at this; exact this

theorem askAudit_sorted {t : State} {a0 : Nat} {a1 : Nat}  (h : Sorted t) : Sorted (askAudit a0 a1 t) := by
  unfold askAudit
  repeat' (first | with_reducible assumption | with_reducible refine updPart_sorted ?_ | with_reducible refine Sorted.ite ?_ ?_)

theorem periodicAudit_sorted {t : State}   (h : Sorted t) : Sorted (periodicAudit t) := by
  unfold periodicAudit
  repeat' (first | with_reducible assumption | split | with_reducible refine Sorted.set_audit ?_)

theorem auditDone_sorted {t : State}   (h : Sorted t) : Sorted (auditDone t) := by
  unfold auditDone
  repeat' (first | with_reducible assumption | with_reducible refine count_sorted ?_ | with_reducible refine regSetFld_sorted ?_ | with_reducible refine Sorted.ite ?_ ?_ | with_reducible refine Sorted.set_audit ?_)

theorem auditAnswer_sorted {t : State} {a0 : Nat}  (h : Sorted t) : Sorted (auditAnswer a0 t) := by
  unfold auditAnswer
  repeat' (first | with_reducible assumption | with_reducible refine compareView_sorted ?_ | with_reducible refine drainReports_sorted ?_ | with_reducible refine updPart_sorted ?_ | with_reducible refine auditDone_sorted ?_ | with_reducible refine Sorted.ite ?_ ?_ | split | with_reducible refine Sorted.set_audit ?_)

theorem initialAudit_sorted {t : State}   (h : Sorted t) : Sorted (initialAudit t) := by
  unfold initialAudit
  repeat' (first | with_reducible assumption | with_reducible refine viewChanged_sorted ?_ | with_reducible refine updPart_sorted ?_ | with_reducible refine foldl_sorted (fun _ _ _ => ?_) ?_ | with_reducible refine Sorted.ite ?_ ?_ | with_reducible refine Sorted.set_audit ?_)

theorem factMissing_sorted {t : State} {a0 : Nat}  (h : Sorted t) : Sorted (factMissing a0 t) := by
  unfold factMissing
  repeat' (first | with_reducible assumption | with_reducible refine setErr_sorted ?_ | with_reducible refine Sorted.ite ?_ ?_)

theorem rehomeOnReset_sorted {t : State} {a0 : Nat} {a1 : PState}  (h : Sorted t) : Sorted (rehomeOnReset a0 a1 t) := by
  unfold rehomeOnReset
  repeat' (first | with_reducible assumption | with_reducible refine startRehome_sorted ?_ | with_reducible refine Sorted.ite ?_ ?_)

theorem slotsFail_sorted {t : State} {a0 : Nat} {a1 : Exit}  (h : Sorted t) : Sorted (slotsFail a0 a1 t) := by
  unfold slotsFail
  repeat' (first | with_reducible assumption | with_reducible refine loseIds_sorted ?_ | with_reducible refine foldl_sorted (fun _ _ _ => ?_) ?_ | split)

theorem dropRuns_sorted {t : State}   (h : Sorted t) : Sorted (dropRuns t) := by
  unfold dropRuns
  repeat' (first | with_reducible assumption | with_reducible refine Sorted.ite ?_ ?_ | with_reducible refine Sorted.set_trd ?_ ?_ ?_ | with_reducible refine Sorted.trd_srcs ?_ | with_reducible refine Sorted.trd_tgts ?_ | with_reducible refine msorted_mset _ _ _ _ ?_ | with_reducible refine msorted_mupd _ _ _ _ ?_ | with_reducible refine msorted_mins _ _ _ ?_ | with_reducible refine msorted_mdel _ _ ?_ | with_reducible refine msorted_filter _ _ ?_ | refine msorted_map _ (fun e => by first | rfl | (dsimp only; split <;> rfl)) _ ?_ | with_reducible exact msorted_nil)

theorem reedGone_sorted {t : State} {a0 : Nat}  (h : Sorted t) : Sorted (reedGone a0 t) := by
  unfold reedGone
  repeat' (first | with_reducible assumption | with_reducible refine reedLost_sorted ?_ | with_reducible refine dropAdoption_sorted ?_ | with_reducible refine scanRedo_sorted ?_ | with_reducible refine Sorted.ite ?_ ?_)

theorem afterLeaving_sorted {t : State} {a0 : Nat} {a1 : Exit} {a2 : PState}  (h : Sorted t) : Sorted (afterLeaving a0 a1 a2 t) := by
  unfold afterLeaving
  repeat' (first | with_reducible assumption | with_reducible refine beginDrain_sorted ?_ | with_reducible refine dropAdoption_sorted ?_ | with_reducible refine startRehome_sorted ?_ | with_reducible refine rehomeOnReset_sorted ?_ | with_reducible refine reedGone_sorted ?_ | with_reducible refine shareAbandon_sorted ?_ | with_reducible refine timeDrop_sorted ?_ | with_reducible refine linkLeaves_sorted ?_ | with_reducible refine linkFails_sorted ?_ | with_reducible refine recheck_sorted ?_ | with_reducible refine ethClear_sorted ?_ | with_reducible refine abandonHandover_sorted ?_ | with_reducible refine updFw_sorted ?_ ?_ | with_reducible refine fwReset_sorted ?_ | with_reducible refine dropManifest_sorted ?_ | with_reducible refine settle_sorted ?_ | with_reducible refine dropRuns_sorted ?_ | with_reducible refine clearSeed_sorted ?_ | with_reducible refine handoverHubReset_sorted ?_ | with_reducible refine snagRestart_sorted ?_ | with_reducible refine servoStop_sorted ?_ | with_reducible refine updAdopt_sorted ?_ | with_reducible refine dropReads_sorted ?_ | with_reducible exact SortedO.none | (extract_lets +onlyGivenNames x; refine (fun (hx : Sorted x) => ?_) ?_; rotate_left; dsimp only [x]; clear x; rotate_right; clear_value x) | (extract_lets +onlyGivenNames x; refine (fun (hx : Sorted x.2) => ?_) ?_; rotate_left; dsimp only [x]; clear x; rotate_right; clear_value x) | with_reducible refine foldl_sorted (fun _ _ _ => ?_) ?_ | with_reducible refine foldl2_sorted (fun _ _ _ => ?_) ?_ | with_reducible refine foldl2_sorted_eq (fun _ _ _ => ?_) (by assumption) ?_ | dsimp only | with_reducible refine Sorted.ite ?_ ?_ | split | with_reducible refine Sorted.fw_image ?_ | with_reducible refine msorted_mset _ _ _ _ ?_ | with_reducible refine msorted_mupd _ _ _ _ ?_ | with_reducible refine msorted_mins _ _ _ ?_ | with_reducible refine msorted_mdel _ _ ?_ | with_reducible refine msorted_filter _ _ ?_ | refine msorted_map _ (fun e => by first | rfl | (dsimp only; split <;> rfl)) _ ?_ | with_reducible exact msorted_nil | with_reducible refine (show SortedO _ from ?_) _ (by assumption))

theorem disarmPart_sorted {t : State} {a0 : Nat}  (h : Sorted t) : Sorted (disarmPart a0 t) := by
  unfold disarmPart
  repeat' (first | with_reducible assumption | with_reducible refine Sorted.ite ?_ ?_ | with_reducible refine Sorted.set_stop ?_)

theorem resetPart_sorted {t : State} {a0 : Nat}  (h : Sorted t) : Sorted (resetPart a0 t) := by
  unfold resetPart
  repeat' (first | with_reducible assumption | with_reducible refine calPartReset_sorted ?_ | with_reducible refine updPart_sorted ?_ | with_reducible refine Sorted.ite ?_ ?_)

theorem hedGone_sorted {t : State} {a0 : Nat} {a1 : PState} {a2 : BitVec 8} {a3 : Exit}  (h : Sorted t) : Sorted (hedGone a0 a1 a2 a3 t) := by
  unfold hedGone
  repeat' (first | with_reducible assumption | with_reducible refine disarmPart_sorted ?_ | with_reducible refine gateReleased_sorted ?_ | with_reducible refine hedFails_sorted ?_ | with_reducible refine transition_sorted ?_ | with_reducible refine lowerHold_sorted ?_ | with_reducible refine resetPart_sorted ?_ | with_reducible exact SortedO.none | (extract_lets +onlyGivenNames x; refine (fun (hx : Sorted x) => ?_) ?_; rotate_left; dsimp only [x]; clear x; rotate_right; clear_value x) | (extract_lets +onlyGivenNames x; refine (fun (hx : Sorted x.2) => ?_) ?_; rotate_left; dsimp only [x]; clear x; rotate_right; clear_value x) | with_reducible refine foldl_sorted (fun _ _ _ => ?_) ?_ | with_reducible refine foldl2_sorted (fun _ _ _ => ?_) ?_ | with_reducible refine foldl2_sorted_eq (fun _ _ _ => ?_) (by assumption) ?_ | dsimp only | with_reducible refine Sorted.ite ?_ ?_ | split | with_reducible refine msorted_mset _ _ _ _ ?_ | with_reducible refine msorted_mupd _ _ _ _ ?_ | with_reducible refine msorted_mins _ _ _ ?_ | with_reducible refine msorted_mdel _ _ ?_ | with_reducible refine msorted_filter _ _ ?_ | refine msorted_map _ (fun e => by first | rfl | (dsimp only; split <;> rfl)) _ ?_ | with_reducible exact msorted_nil | with_reducible refine (show SortedO _ from ?_) _ (by assumption))

theorem leaveNow_sorted {t : State} {a0 : Nat} {a1 : PState} {a2 : BitVec 8} {a3 : Exit}  (h : Sorted t) : Sorted (leaveNow a0 a1 a2 a3 t) := by
  unfold leaveNow
  repeat' (first | with_reducible assumption | with_reducible refine hedGone_sorted ?_ | with_reducible refine disarmPart_sorted ?_ | with_reducible refine transition_sorted ?_ | with_reducible refine slotsFail_sorted ?_ | with_reducible refine afterLeaving_sorted ?_ | with_reducible refine resetPart_sorted ?_ | with_reducible exact SortedO.none | (extract_lets +onlyGivenNames x; refine (fun (hx : Sorted x) => ?_) ?_; rotate_left; dsimp only [x]; clear x; rotate_right; clear_value x) | (extract_lets +onlyGivenNames x; refine (fun (hx : Sorted x.2) => ?_) ?_; rotate_left; dsimp only [x]; clear x; rotate_right; clear_value x) | with_reducible refine foldl_sorted (fun _ _ _ => ?_) ?_ | with_reducible refine foldl2_sorted (fun _ _ _ => ?_) ?_ | with_reducible refine foldl2_sorted_eq (fun _ _ _ => ?_) (by assumption) ?_ | dsimp only | with_reducible refine Sorted.ite ?_ ?_ | split | with_reducible refine msorted_mset _ _ _ _ ?_ | with_reducible refine msorted_mupd _ _ _ _ ?_ | with_reducible refine msorted_mins _ _ _ ?_ | with_reducible refine msorted_mdel _ _ ?_ | with_reducible refine msorted_filter _ _ ?_ | refine msorted_map _ (fun e => by first | rfl | (dsimp only; split <;> rfl)) _ ?_ | with_reducible exact msorted_nil | with_reducible refine (show SortedO _ from ?_) _ (by assumption))

theorem finishLeaving_sorted {t : State} {a0 : Nat}  (h : Sorted t) : Sorted (finishLeaving a0 t) := by
  unfold finishLeaving
  repeat' (first | with_reducible assumption | with_reducible refine hedGone_sorted ?_ | with_reducible refine updHed_sorted ?_ | with_reducible exact SortedO.none | (extract_lets +onlyGivenNames x; refine (fun (hx : Sorted x) => ?_) ?_; rotate_left; dsimp only [x]; clear x; rotate_right; clear_value x) | (extract_lets +onlyGivenNames x; refine (fun (hx : Sorted x.2) => ?_) ?_; rotate_left; dsimp only [x]; clear x; rotate_right; clear_value x) | with_reducible refine foldl_sorted (fun _ _ _ => ?_) ?_ | with_reducible refine foldl2_sorted (fun _ _ _ => ?_) ?_ | with_reducible refine foldl2_sorted_eq (fun _ _ _ => ?_) (by assumption) ?_ | dsimp only | with_reducible refine Sorted.ite ?_ ?_ | split | with_reducible refine msorted_mset _ _ _ _ ?_ | with_reducible refine msorted_mupd _ _ _ _ ?_ | with_reducible refine msorted_mins _ _ _ ?_ | with_reducible refine msorted_mdel _ _ ?_ | with_reducible refine msorted_filter _ _ ?_ | refine msorted_map _ (fun e => by first | rfl | (dsimp only; split <;> rfl)) _ ?_ | with_reducible exact msorted_nil | with_reducible refine (show SortedO _ from ?_) _ (by assumption))

theorem hedFirst_sorted {t : State} {a0 : Nat}  (h : Sorted t) : Sorted (hedFirst a0 t) := by
  unfold hedFirst
  repeat' (first | with_reducible assumption | with_reducible refine finishLeaving_sorted ?_ | with_reducible refine settleSpans_sorted ?_ | with_reducible refine settleHed_sorted ?_ | with_reducible refine Sorted.ite ?_ ?_)

theorem beginLeaving_sorted {t : State} {a0 : Nat} {a1 : Bool} {a2 : BitVec 8}  (h : Sorted t) : Sorted (beginLeaving a0 a1 a2 t) := by
  unfold beginLeaving
  repeat' (first | with_reducible assumption | with_reducible refine updHed_sorted ?_ | with_reducible refine hedFirst_sorted ?_ | with_reducible refine hedLeaves_sorted ?_ | split)

theorem leave_sorted {t : State} {a0 : Nat} {a1 : PState} {a2 : BitVec 8} {a3 : Exit}  (h : Sorted t) : Sorted (leave a0 a1 a2 a3 t) := by
  unfold leave
  repeat' (first | with_reducible assumption | with_reducible refine beginLeaving_sorted ?_ | with_reducible refine leaveNow_sorted ?_ | split)

theorem pageFirst_sorted {t : State} {a0 : Nat}  (h : Sorted t) : Sorted (pageFirst a0 t) := by
  unfold pageFirst
  repeat' (first | with_reducible assumption | with_reducible refine hedFirst_sorted ?_ | with_reducible refine settleLnk_sorted ?_ | with_reducible refine witFlush_sorted ?_ | split)

theorem serveAgain_sorted {t : State} {a0 : Nat}  (h : Sorted t) : Sorted (serveAgain a0 t) := by
  unfold serveAgain
  repeat' (first | with_reducible assumption | with_reducible refine updAdopt_sorted ?_)

theorem enterEnabled_sorted {t : State} {a0 : Nat}  (h : Sorted t) : Sorted (enterEnabled a0 t) := by
  unfold enterEnabled
  repeat' (first | with_reducible assumption | with_reducible refine transition_sorted ?_ | with_reducible refine testEnabled_sorted ?_ | with_reducible refine hedEnters_sorted ?_ | with_reducible refine stopEnters_sorted ?_ | with_reducible refine witRun_sorted ?_ | with_reducible refine newVecKey_sorted ?_ | with_reducible refine copyShadow_sorted ?_ | with_reducible refine beginReturn_sorted ?_ | with_reducible refine serveAgain_sorted ?_ | with_reducible refine linkEnters_sorted ?_ | with_reducible refine recheck_sorted ?_ | with_reducible refine ethClear_sorted ?_ | with_reducible refine updFw_sorted ?_ ?_ | with_reducible refine fwEnters_sorted ?_ | with_reducible refine reportLatches_sorted ?_ | with_reducible refine Sorted.ite ?_ ?_ | split | with_reducible refine Sorted.fw_image ?_ | with_reducible refine msorted_mset _ _ _ _ ?_ | with_reducible refine msorted_mupd _ _ _ _ ?_ | with_reducible refine msorted_mins _ _ _ ?_ | with_reducible refine msorted_mdel _ _ ?_ | with_reducible refine msorted_filter _ _ ?_ | refine msorted_map _ (fun e => by first | rfl | (dsimp only; split <;> rfl)) _ ?_ | with_reducible exact msorted_nil)

theorem actEnable_sorted {t : State} {a0 : Nat}  (h : Sorted t) : SortedO (actEnable a0 t) := by
  unfold actEnable
  repeat' (first | with_reducible assumption | with_reducible refine enterEnabled_sorted ?_ | with_reducible exact SortedO.none | with_reducible refine SortedO.some ?_ | with_reducible refine SortedO.ite ?_ ?_ | split)

theorem actDisable_sorted {t : State} {a0 : Nat}  (h : Sorted t) : SortedO (actDisable a0 t) := by
  unfold actDisable
  repeat' (first | with_reducible assumption | with_reducible refine leave_sorted ?_ | with_reducible refine transition_sorted ?_ | with_reducible exact SortedO.none | with_reducible refine SortedO.some ?_ | with_reducible refine SortedO.ite ?_ ?_ | split)

theorem actReset_sorted {t : State} {a0 : Nat} {a1 : BitVec 8}  (h : Sorted t) : SortedO (actReset a0 a1 t) := by
  unfold actReset
  repeat' (first | with_reducible assumption | with_reducible refine leave_sorted ?_ | with_reducible exact SortedO.none | with_reducible refine SortedO.some ?_ | with_reducible refine SortedO.ite ?_ ?_ | split)

theorem actRetire_sorted {t : State} {a0 : Nat}  (h : Sorted t) : SortedO (actRetire a0 t) := by
  unfold actRetire
  repeat' (first | with_reducible assumption | with_reducible refine transition_sorted ?_ | with_reducible refine testRetired_sorted ?_ | with_reducible exact SortedO.none | with_reducible refine SortedO.some ?_ | with_reducible refine SortedO.ite ?_ ?_ | split)

theorem actReinstate_sorted {t : State} {a0 : Nat}  (h : Sorted t) : SortedO (actReinstate a0 t) := by
  unfold actReinstate
  repeat' (first | with_reducible assumption | with_reducible refine resetPart_sorted ?_ | with_reducible refine transition_sorted ?_ | with_reducible refine updTests_sorted ?_ ?_ | with_reducible exact SortedO.none | with_reducible refine SortedO.some ?_ | with_reducible refine SortedO.ite ?_ ?_ | split | with_reducible refine Sorted.tests_states ?_ | with_reducible refine msorted_mset _ _ _ _ ?_ | with_reducible refine msorted_mupd _ _ _ _ ?_ | with_reducible refine msorted_mins _ _ _ ?_ | with_reducible refine msorted_mdel _ _ ?_ | with_reducible refine msorted_filter _ _ ?_ | refine msorted_map _ (fun e => by first | rfl | (dsimp only; split <;> rfl)) _ ?_ | with_reducible exact msorted_nil)

theorem actAudit_sorted {t : State} {a0 : Nat}  (h : Sorted t) : Sorted (actAudit a0 t) := by
  unfold actAudit
  repeat' (first | with_reducible assumption | with_reducible refine askAudit_sorted ?_ | with_reducible refine foldl_sorted (fun _ _ _ => ?_) ?_ | with_reducible refine Sorted.ite ?_ ?_)

theorem fatal_sorted {t : State} {a0 : Nat} {a1 : Nat} {a2 : BitVec 8}  (h : Sorted t) : Sorted (fatal a0 a1 a2 t) := by
  unfold fatal
  repeat' (first | with_reducible assumption | with_reducible refine setErr_sorted ?_ | with_reducible refine raise_sorted ?_ | with_reducible refine leave_sorted ?_ | with_reducible refine Sorted.ite ?_ ?_ | split)

theorem retentionLost_sorted {t : State} {a0 : Nat} {a1 : Nat} {a2 : Bool}  (h : Sorted t) : Sorted (retentionLost a0 a1 a2 t) := by
  unfold retentionLost
  repeat' (first | with_reducible assumption | with_reducible refine updStrm_sorted ?_ | with_reducible refine workLost_sorted ?_ | with_reducible refine Sorted.ite ?_ ?_)

theorem fatalFault_sorted {t : State} {a0 : Nat} {a1 : FaultCause}  (h : Sorted t) : Sorted (fatalFault a0 a1 t) := by
  unfold fatalFault
  repeat' (first | with_reducible assumption | with_reducible refine fatal_sorted ?_ | with_reducible refine retentionLost_sorted ?_ | with_reducible refine noticesLost_sorted ?_ | with_reducible refine Sorted.ite ?_ ?_ | split)

theorem watchdogExpiry_sorted {t : State}   (h : Sorted t) : Sorted (watchdogExpiry t) := by
  unfold watchdogExpiry
  repeat' (first | with_reducible assumption | with_reducible refine fatal_sorted ?_ | with_reducible refine bump_sorted ?_ | with_reducible refine Sorted.ite ?_ ?_)

theorem handoverFatal_sorted {t : State} {a0 : Nat} {a1 : BitVec 8} {a2 : Bool}  (h : Sorted t) : Sorted (handoverFatal a0 a1 a2 t) := by
  unfold handoverFatal
  repeat' (first | with_reducible assumption | with_reducible refine fwResult_sorted ?_ | with_reducible refine updFw_sorted ?_ ?_ | with_reducible refine dropLoader_sorted ?_ | with_reducible refine raise_sorted ?_ | with_reducible refine leave_sorted ?_ | with_reducible refine setErr_sorted ?_ | with_reducible refine Sorted.ite ?_ ?_ | with_reducible refine Sorted.fw_image ?_ | with_reducible refine msorted_mset _ _ _ _ ?_ | with_reducible refine msorted_mupd _ _ _ _ ?_ | with_reducible refine msorted_mins _ _ _ ?_ | with_reducible refine msorted_mdel _ _ ?_ | with_reducible refine msorted_filter _ _ ?_ | refine msorted_map _ (fun e => by first | rfl | (dsimp only; split <;> rfl)) _ ?_ | with_reducible exact msorted_nil)

theorem reloadComplete_sorted {t : State}   (h : Sorted t) : Sorted (reloadComplete t) := by
  unfold reloadComplete
  repeat' (first | with_reducible assumption | with_reducible refine enterStart_sorted ?_ | with_reducible refine handoverFatal_sorted ?_ | with_reducible refine Sorted.ite ?_ ?_ | split)

theorem fwReject_sorted {t : State}   (h : Sorted t) : Sorted (fwReject t) := by
  unfold fwReject
  repeat' (first | with_reducible assumption | with_reducible refine handoverFatal_sorted ?_ | with_reducible refine Sorted.ite ?_ ?_)

theorem acceptTimeout_sorted {t : State}   (h : Sorted t) : Sorted (acceptTimeout t) := by
  unfold acceptTimeout
  repeat' (first | with_reducible assumption | with_reducible refine fwReject_sorted ?_ | with_reducible refine Sorted.ite ?_ ?_)

theorem quiesceComplete_sorted {t : State} {a0 : Nat}  (h : Sorted t) : Sorted (quiesceComplete a0 t) := by
  unfold quiesceComplete
  repeat' (first | with_reducible assumption | with_reducible refine startRehome_sorted ?_ | with_reducible refine transition_sorted ?_ | with_reducible refine lowerHold_sorted ?_ | with_reducible refine Sorted.ite ?_ ?_ | split)

theorem quiesceOverdue_sorted {t : State} {a0 : Nat}  (h : Sorted t) : Sorted (quiesceOverdue a0 t) := by
  unfold quiesceOverdue
  repeat' (first | with_reducible assumption | with_reducible refine setErr_sorted ?_ | with_reducible refine updPart_sorted ?_ | with_reducible refine Sorted.ite ?_ ?_)

theorem fwReady_sorted {t : State}   (h : Sorted t) : Sorted (fwReady t) := by
  unfold fwReady
  repeat' (first | with_reducible assumption | with_reducible refine transition_sorted ?_ | with_reducible refine updFw_sorted ?_ ?_ | with_reducible refine dropManifest_sorted ?_ | with_reducible refine leaveCheckpoint_sorted ?_ | with_reducible refine enterReload_sorted ?_ | with_reducible refine Sorted.ite ?_ ?_ | with_reducible refine Sorted.fw_image ?_ | with_reducible refine msorted_mset _ _ _ _ ?_ | with_reducible refine msorted_mupd _ _ _ _ ?_ | with_reducible refine msorted_mins _ _ _ ?_ | with_reducible refine msorted_mdel _ _ ?_ | with_reducible refine msorted_filter _ _ ?_ | refine msorted_map _ (fun e => by first | rfl | (dsimp only; split <;> rfl)) _ ?_ | with_reducible exact msorted_nil)

theorem afterReset_sorted {t : State} {a0 : Nat} {a1 : Nat}  (h : Sorted t) : Sorted (afterReset a0 a1 t) := by
  unfold afterReset
  repeat' (first | with_reducible assumption | with_reducible refine applyRecorded_sorted ?_ | with_reducible refine handoverHubBack_sorted ?_ | with_reducible refine payOwed_sorted ?_ | with_reducible refine initialAudit_sorted ?_ | with_reducible refine awaitPort_sorted ?_ | with_reducible refine Sorted.ite ?_ ?_ | split)

theorem partInitialised_sorted {t : State} {a0 : Nat}  (h : Sorted t) : Sorted (partInitialised a0 t) := by
  unfold partInitialised
  repeat' (first | with_reducible assumption | with_reducible refine afterReset_sorted ?_ | with_reducible refine transition_sorted ?_ | with_reducible refine Sorted.ite ?_ ?_)

theorem blockInitialised_sorted {t : State}   (h : Sorted t) : Sorted (blockInitialised t) := by
  unfold blockInitialised
  dsimp only
  refine Sorted.ite h ?_
  have h1 : Sorted { t with ready := true, booting := false } := Sorted.set_booting (t := { t with ready := true }) (Sorted.set_ready h)
  have h2 := updOwn_sorted (a0 := fun o => { o with cleared := epochNow { t with ready := true, booting := false } - 1, confirm := epochNow { t with ready := true, booting := false } - 1, lastClear := epochNow { t with ready := true, booting := false } - 1 }) (Sorted.set_gov (v := { t.gov with k := t.tim.raw / govWindow { t with ready := true, booting := false } }) h1)
  split <;> split
  · exact workLost_sorted h2
  · exact workLost_sorted (setErr_sorted h2)
  · exact h2
  · exact setErr_sorted h2

theorem readClears_sorted {t : State} {a0 : PageKind} {a1 : Nat} {a2 : Nat} {a3 : RegRow}  (h : Sorted t) : Sorted (readClears a0 a1 a2 a3 t) := by
  unfold readClears
  repeat' (first | with_reducible assumption | with_reducible refine regPut_sorted ?_ | with_reducible refine updPart_sorted ?_ | with_reducible refine keyReadClear_sorted ?_ | with_reducible refine highWater_sorted ?_ | with_reducible refine Sorted.ite ?_ ?_ | split)

theorem readWord_sorted {t : State} {a0 : PageKind} {a1 : Nat} {a2 : Nat} {a3 : RegRow}  (h : Sorted t) : SortedOP (readWord a0 a1 a2 a3 t) := by
  unfold readWord
  repeat' (first | with_reducible assumption | with_reducible refine testNext_sorted ?_ | with_reducible refine claim_sorted ?_ | with_reducible refine calAccess_sorted ?_ | with_reducible refine readClears_sorted ?_ | with_reducible exact SortedOP.none | with_reducible refine SortedOP.some ?_ | with_reducible refine Sorted.ite ?_ ?_ | split)

theorem unblindAction_sorted {t : State}   (h : Sorted t) : SortedO (unblindAction t) := by
  unfold unblindAction
  repeat' (first | with_reducible assumption | with_reducible exact SortedO.none | with_reducible refine SortedO.some ?_ | with_reducible refine SortedO.ite ?_ ?_ | with_reducible refine Sorted.set_ver ?_ ?_ | with_reducible refine Sorted.ver_led ?_ | with_reducible refine msorted_mset _ _ _ _ ?_ | with_reducible refine msorted_mupd _ _ _ _ ?_ | with_reducible refine msorted_mins _ _ _ ?_ | with_reducible refine msorted_mdel _ _ ?_ | with_reducible refine msorted_filter _ _ ?_ | refine msorted_map _ (fun e => by first | rfl | (dsimp only; split <;> rfl)) _ ?_ | with_reducible exact msorted_nil)

theorem testReloadAction_sorted {t : State}   (h : Sorted t) : SortedO (testReloadAction t) := by
  unfold testReloadAction
  repeat' (first | with_reducible assumption | with_reducible refine testReload_sorted ?_ | with_reducible exact SortedO.none | with_reducible refine SortedO.some ?_ | with_reducible refine SortedO.ite ?_ ?_)

theorem flushAction_sorted {t : State} {a0 : Nat}  (h : Sorted t) : SortedO (flushAction a0 t) := by
  unfold flushAction
  repeat' (first | with_reducible assumption | with_reducible refine flush_sorted ?_ | with_reducible refine settleWriter_sorted ?_ | with_reducible exact SortedO.none | with_reducible refine SortedO.some ?_ | with_reducible refine SortedO.ite ?_ ?_)

theorem hubAction_sorted {t : State} {a0 : Nat}  (h : Sorted t) : SortedO (hubAction a0 t) := by
  unfold hubAction
  repeat' (first | with_reducible assumption | with_reducible refine stepAction_sorted ?_ | with_reducible refine setAction_sorted ?_ | with_reducible refine rateAction_sorted ?_ | with_reducible refine calTdcAction_sorted ?_ | with_reducible refine servoStart_sorted ?_ | with_reducible refine servoStop_sorted ?_ | with_reducible refine servoRearm_sorted ?_ | with_reducible refine flushAction_sorted ?_ | with_reducible refine bobEnable_sorted ?_ | with_reducible refine bobDisable_sorted ?_ | with_reducible refine unblindAction_sorted ?_ | with_reducible refine testReloadAction_sorted ?_ | with_reducible refine stopNow_sorted ?_ | with_reducible refine armStop_sorted ?_ | with_reducible refine disarmStop_sorted ?_ | with_reducible refine resumeStop_sorted ?_ | with_reducible exact SortedO.none | with_reducible refine SortedO.some ?_ | with_reducible refine SortedO.ite ?_ ?_)

theorem reedAction_sorted {t : State} {a0 : Nat} {a1 : Nat}  (h : Sorted t) : SortedO (reedAction a0 a1 t) := by
  unfold reedAction
  repeat' (first | with_reducible assumption | with_reducible refine flushAction_sorted ?_ | with_reducible refine bobEnable_sorted ?_ | with_reducible refine bobDisable_sorted ?_ | with_reducible refine cardLoad_sorted ?_ | with_reducible refine cardFetch_sorted ?_ | with_reducible exact SortedO.none | with_reducible refine SortedO.some ?_ | with_reducible refine SortedO.ite ?_ ?_)

theorem keyAction_sorted {t : State} {a0 : Nat}  (h : Sorted t) : SortedO (keyAction a0 t) := by
  unfold keyAction
  repeat' (first | with_reducible assumption | with_reducible refine install_sorted ?_ | with_reducible refine rotate_sorted ?_ | with_reducible refine remove_sorted ?_ | with_reducible refine release_sorted ?_ | with_reducible refine scanRelease_sorted ?_ | with_reducible exact SortedO.none | with_reducible refine SortedO.some ?_ | with_reducible refine SortedO.ite ?_ ?_)

theorem fwAction_sorted {t : State} {a0 : Nat}  (h : Sorted t) : SortedO (fwAction a0 t) := by
  unfold fwAction
  repeat' (first | with_reducible assumption | with_reducible refine fwLoad_sorted ?_ | with_reducible refine fwHandover_sorted ?_ | with_reducible refine hostEmit_sorted ?_ | with_reducible refine hostScrubbed_sorted ?_ | with_reducible exact SortedO.none | with_reducible refine SortedO.some ?_ | with_reducible refine SortedO.ite ?_ ?_)

theorem doAction_sorted {t : State} {a0 : PageKind} {a1 : Nat} {a2 : Nat} {a3 : BitVec 8}  (h : Sorted t) : SortedO (doAction a0 a1 a2 a3 t) := by
  unfold doAction
  repeat' (first | with_reducible assumption | with_reducible refine actEnable_sorted ?_ | with_reducible refine actDisable_sorted ?_ | with_reducible refine actReset_sorted ?_ | with_reducible refine actRetire_sorted ?_ | with_reducible refine actReinstate_sorted ?_ | with_reducible refine actAudit_sorted ?_ | with_reducible refine hubAction_sorted ?_ | with_reducible refine reedAction_sorted ?_ | with_reducible refine keyAction_sorted ?_ | with_reducible refine fwAction_sorted ?_ | with_reducible refine ringRelease_sorted ?_ | with_reducible exact SortedO.none | with_reducible refine SortedO.some ?_ | with_reducible refine SortedO.ite ?_ ?_ | split)

theorem ctrlWrite_sorted {t : State} {a0 : PageKind} {a1 : Nat} {a2 : Word} {a3 : BitVec 8}  (h : Sorted t) : SortedO (ctrlWrite a0 a1 a2 a3 t) := by
  unfold ctrlWrite
  repeat' (first | with_reducible assumption | with_reducible refine doAction_sorted ?_ | with_reducible exact SortedO.none | with_reducible refine SortedO.some ?_ | with_reducible refine SortedO.ite ?_ ?_)

theorem ctrlRefused_sorted {t : State} {a0 : PageKind} {a1 : Nat} {a2 : Word}  (h : Sorted t) : Sorted (ctrlRefused a0 a1 a2 t) := by
  unfold ctrlRefused
  repeat' (first | with_reducible assumption | with_reducible refine factMissing_sorted ?_ | with_reducible refine noteSeed_sorted ?_ | with_reducible refine setErr_sorted ?_ | with_reducible refine Sorted.ite ?_ ?_)

theorem storeWord_sorted {t : State} {a0 : PageKind} {a1 : Nat} {a2 : Nat} {a3 : RegRow} {a4 : Word}  (h : Sorted t) : Sorted (storeWord a0 a1 a2 a3 a4 t) := by
  unfold storeWord
  repeat' (first | with_reducible assumption | with_reducible refine regPut_sorted ?_ | with_reducible refine Sorted.ite ?_ ?_)

theorem doorbellBad_sorted {t : State}   (h : Sorted t) : Sorted (doorbellBad t) := by
  unfold doorbellBad
  repeat' (first | with_reducible assumption | with_reducible refine setErr_sorted ?_ | with_reducible refine bump_sorted ?_ | with_reducible refine Sorted.ite ?_ ?_)

theorem trd0Write_sorted {t : State} {a0 : Nat} {a1 : RegRow} {a2 : Word}  (h : Sorted t) : Sorted (trd0Write a0 a1 a2 t).2 := by
  unfold trd0Write
  repeat' (first | with_reducible assumption | with_reducible refine doorbell_sorted ?_ | with_reducible refine doorbell_sorted ?_ _ (by assumption) | with_reducible refine doorbellBad_sorted ?_ | with_reducible refine dozeWrite_sorted ?_ | with_reducible refine dozeWrite_sorted ?_ _ (by assumption) | with_reducible refine complete_sorted ?_ | with_reducible refine complete_sorted ?_ _ (by assumption) | with_reducible refine completeRefused_sorted ?_ | with_reducible refine settle_sorted ?_ | with_reducible refine storeWord_sorted ?_ | dsimp only | with_reducible refine Sorted.ite ?_ ?_ | split)

theorem trd0Write_sorted_eq {t : State} {a0 : Nat} {a1 : RegRow} {a2 : Word}  {x} {u : State} (e : trd0Write a0 a1 a2 t = (x, u)) (h : Sorted t) : Sorted u := by
  have := trd0Write_sorted (t := t) (a0 := a0) (a1 := a1) (a2 := a2) h
  rw [e] at this; exact this

theorem trd1Write_sorted {t : State} {a0 : Nat} {a1 : RegRow} {a2 : Word}  (h : Sorted t) : Sorted (trd1Write a0 a1 a2 t) := by
  unfold trd1Write
  repeat' (first | with_reducible assumption | with_reducible refine pendingSet_sorted ?_ | with_reducible refine pendingClr_sorted ?_ | with_reducible refine settle_sorted ?_ | with_reducible refine storeWord_sorted ?_ | with_reducible refine Sorted.ite ?_ ?_)

theorem trdSrcWrite_sorted {t : State} {a0 : Nat} {a1 : Word}  (h : Sorted t) : Sorted (trdSrcWrite a0 a1 t).2 := by
  unfold trdSrcWrite
  repeat' (first | with_reducible assumption | with_reducible refine srcWrite_sorted ?_ | with_reducible refine srcWrite_sorted ?_ _ (by assumption) | with_reducible refine Sorted.ite ?_ ?_ | split)

theorem trdSrcWrite_sorted_eq {t : State} {a0 : Nat} {a1 : Word}  {x} {u : State} (e : trdSrcWrite a0 a1 t = (x, u)) (h : Sorted t) : Sorted u := by
  have := trdSrcWrite_sorted (t := t) (a0 := a0) (a1 := a1) h
  rw [e] at this; exact this

theorem calWrite_sorted {t : State} {a0 : Word}  (h : Sorted t) : Sorted (calWrite a0 t).2 := by
  unfold calWrite
  repeat' (first | with_reducible assumption | with_reducible refine calAccess_sorted ?_ | with_reducible refine calAccess_sorted ?_ _ _ (by assumption) | with_reducible refine Sorted.ite ?_ ?_ | split)

theorem calWrite_sorted_eq {t : State} {a0 : Word}  {x} {u : State} (e : calWrite a0 t = (x, u)) (h : Sorted t) : Sorted u := by
  have := calWrite_sorted (t := t) (a0 := a0) h
  rw [e] at this; exact this

theorem tailRule_sorted {t : State} {a0 : Nat} {a1 : Word}  (h : Sorted t) : Sorted (tailRule a0 a1 t).2 := by
  unfold tailRule
  repeat' (first | with_reducible assumption | with_reducible refine tailWrite_sorted ?_ | with_reducible refine tailWrite_sorted ?_ _ (by assumption) | with_reducible refine Sorted.ite ?_ ?_ | split)

theorem tailRule_sorted_eq {t : State} {a0 : Nat} {a1 : Word}  {x} {u : State} (e : tailRule a0 a1 t = (x, u)) (h : Sorted t) : Sorted u := by
  have := tailRule_sorted (t := t) (a0 := a0) (a1 := a1) h
  rw [e] at this; exact this

theorem hubWrite_sorted {t : State} {a0 : Nat} {a1 : RegRow} {a2 : Word}  (h : Sorted t) : Sorted (hubWrite a0 a1 a2 t).2 := by
  unfold hubWrite
  repeat' (first | with_reducible assumption | with_reducible refine noticeIn_sorted ?_ | with_reducible refine noticeIn_sorted ?_ _ (by assumption) | with_reducible refine settleEpochs_sorted ?_ | with_reducible refine carryEpochs_sorted ?_ | with_reducible refine storeWord_sorted ?_ | with_reducible refine updHedGov_sorted ?_ | with_reducible refine tailRule_sorted ?_ | with_reducible refine foldl_sorted (fun _ _ _ => ?_) ?_ | split | with_reducible refine Sorted.set_gov ?_)

theorem hubWrite_sorted_eq {t : State} {a0 : Nat} {a1 : RegRow} {a2 : Word}  {x} {u : State} (e : hubWrite a0 a1 a2 t = (x, u)) (h : Sorted t) : Sorted u := by
  have := hubWrite_sorted (t := t) (a0 := a0) (a1 := a1) (a2 := a2) h
  rw [e] at this; exact this

theorem writeWord_sorted {t : State} {a0 : PageKind} {a1 : Nat} {a2 : Nat} {a3 : RegRow} {a4 : Word}  (h : Sorted t) : Sorted (writeWord a0 a1 a2 a3 a4 t).2 := by
  unfold writeWord
  repeat' (first | with_reducible assumption | with_reducible refine storeWord_sorted ?_ | with_reducible refine hubWrite_sorted ?_ | with_reducible refine updKey_sorted ?_ ?_ | with_reducible refine calWrite_sorted ?_ | with_reducible refine trd0Write_sorted ?_ | with_reducible refine trd1Write_sorted ?_ | with_reducible refine trdSrcWrite_sorted ?_ | with_reducible refine tailRule_sorted ?_ | with_reducible refine cardMapWrite_sorted ?_ | split | with_reducible refine Sorted.key_slots ?_ | with_reducible refine msorted_mset _ _ _ _ ?_ | with_reducible refine msorted_mupd _ _ _ _ ?_ | with_reducible refine msorted_mins _ _ _ ?_ | with_reducible refine msorted_mdel _ _ ?_ | with_reducible refine msorted_filter _ _ ?_ | refine msorted_map _ (fun e => by first | rfl | (dsimp only; split <;> rfl)) _ ?_ | with_reducible exact msorted_nil)

theorem writeWord_sorted_eq {t : State} {a0 : PageKind} {a1 : Nat} {a2 : Nat} {a3 : RegRow} {a4 : Word}  {x} {u : State} (e : writeWord a0 a1 a2 a3 a4 t = (x, u)) (h : Sorted t) : Sorted u := by
  have := writeWord_sorted (t := t) (a0 := a0) (a1 := a1) (a2 := a2) (a3 := a3) (a4 := a4) h
  rw [e] at this; exact this

theorem writeRule_sorted {t : State} {a0 : PageKind} {a1 : Nat} {a2 : Nat} {a3 : RegRow} {a4 : Word} {a5 : BitVec 8}  (h : Sorted t) : Sorted (writeRule a0 a1 a2 a3 a4 a5 t).2 := by
  unfold writeRule
  repeat' (first | with_reducible assumption | with_reducible refine ctrlWrite_sorted ?_ | with_reducible refine ctrlWrite_sorted ?_ _ (by assumption) | with_reducible refine ctrlRefused_sorted ?_ | with_reducible refine writeWord_sorted ?_ | with_reducible refine Sorted.ite ?_ ?_ | split)

theorem writeRule_sorted_eq {t : State} {a0 : PageKind} {a1 : Nat} {a2 : Nat} {a3 : RegRow} {a4 : Word} {a5 : BitVec 8}  {x} {u : State} (e : writeRule a0 a1 a2 a3 a4 a5 t = (x, u)) (h : Sorted t) : Sorted u := by
  have := writeRule_sorted (t := t) (a0 := a0) (a1 := a1) (a2 := a2) (a3 := a3) (a4 := a4) (a5 := a5) h
  rw [e] at this; exact this

theorem answer_sorted {t : State} {a0 : Access} {a1 : BitVec 8}  (h : Sorted t) : Sorted (answer a0 a1 t).2.2 := by
  unfold answer
  repeat' (first | with_reducible assumption | with_reducible refine writeRule_sorted ?_ | with_reducible refine readWord_sorted ?_ | with_reducible refine readWord_sorted ?_ _ _ (by assumption) | with_reducible refine Sorted.ite ?_ ?_ | split)

theorem answer_sorted_eq {t : State} {a0 : Access} {a1 : BitVec 8}  {x y} {u : State} (e : answer a0 a1 t = (x, y, u)) (h : Sorted t) : Sorted u := by
  have := answer_sorted (t := t) (a0 := a0) (a1 := a1) h
  rw [e] at this; exact this

theorem reject_sorted {t : State} {a0 : Access} {a1 : Nat}  (h : Sorted t) : Sorted (reject a0 a1 t) := by
  unfold reject
  repeat' (first | with_reducible assumption | with_reducible refine bump_sorted ?_ | with_reducible refine regPut_sorted ?_ | with_reducible refine askAudit_sorted ?_ | with_reducible refine setErr_sorted ?_ | with_reducible refine Sorted.ite ?_ ?_)

theorem answered_sorted {t : State} {a0 : Access} {a1 : BitVec 8}  (h : Sorted t) : Sorted (answered a0 a1 t).2.2 := by
  dsimp only [answered]
  repeat' (first | with_reducible assumption | with_reducible refine answer_sorted ?_ | with_reducible refine pageFirst_sorted ?_ | with_reducible refine reject_sorted ?_ | with_reducible refine Sorted.ite ?_ ?_)

theorem answered_sorted_eq {t : State} {a0 : Access} {a1 : BitVec 8}  {x y} {u : State} (e : answered a0 a1 t = (x, y, u)) (h : Sorted t) : Sorted u := by
  have := answered_sorted (t := t) (a0 := a0) (a1 := a1) h
  rw [e] at this; exact this

theorem serve_sorted {t : State} {a0 : Access}  (h : Sorted t) : Sorted (serve a0 t) := by
  dsimp only [serve]
  repeat' (first | with_reducible assumption | with_reducible refine answered_sorted ?_ | with_reducible refine Sorted.ite ?_ ?_ | with_reducible refine Sorted.set_port ?_)

theorem portAccess_sorted {t : State} {a0 : Access}  (h : Sorted t) : Sorted (portAccess a0 t) := by
  unfold portAccess
  repeat' (first | with_reducible assumption | with_reducible refine serve_sorted ?_ | with_reducible refine bump_sorted ?_ | with_reducible refine setPortErr_sorted ?_ | with_reducible refine Sorted.ite ?_ ?_ | split | with_reducible refine Sorted.set_port ?_)

theorem servePrst_sorted {t : State} {a0 : Nat}  (h : Sorted t) : Sorted (servePrst a0 t) := by
  unfold servePrst
  repeat' (first | with_reducible assumption | with_reducible refine answered_sorted ?_ | with_reducible refine Sorted.set_port ?_)

theorem partResetPort_sorted {t : State} {a0 : Nat}  (h : Sorted t) : Sorted (partResetPort a0 t) := by
  dsimp only [partResetPort]
  repeat' (first | with_reducible assumption | with_reducible refine servePrst_sorted ?_ | split | with_reducible refine Sorted.set_port ?_)

theorem regOverlap_sorted {t : State}   (h : Sorted t) : Sorted (regOverlap t) := by
  unfold regOverlap
  repeat' (first | with_reducible assumption | with_reducible refine bump_sorted ?_ | with_reducible refine setPortErr_sorted ?_ | with_reducible refine Sorted.ite ?_ ?_)

theorem action_sorted {t : State} {a0 : Nat} {a1 : Nat} {a2 : Option (BitVec 32)}  (h : Sorted t) : Sorted (action a0 a1 a2 t) := by
  unfold action
  repeat' (first | with_reducible assumption | with_reducible refine portAccess_sorted ?_ | with_reducible refine Sorted.ite ?_ ?_)

theorem advance_sorted {t : State} {a0 : Nat}  (h : Sorted t) : Sorted (advance a0 t) := by
  unfold advance
  repeat' (first | with_reducible assumption | with_reducible refine settleFrom_sorted ?_ | with_reducible refine Sorted.ite ?_ ?_ | with_reducible refine Sorted.set_tim ?_)

theorem ownerChange_sorted {t : State} {a0 : Nat}  (h : Sorted t) : Sorted (ownerChange a0 t) := by
  unfold ownerChange
  repeat' (first | with_reducible assumption | with_reducible refine raise_sorted ?_ | with_reducible refine updVer_sorted ?_ ?_ | with_reducible refine Sorted.ite ?_ ?_ | with_reducible refine Sorted.ver_led ?_ | with_reducible refine msorted_mset _ _ _ _ ?_ | with_reducible refine msorted_mupd _ _ _ _ ?_ | with_reducible refine msorted_mins _ _ _ ?_ | with_reducible refine msorted_mdel _ _ ?_ | with_reducible refine msorted_filter _ _ ?_ | refine msorted_map _ (fun e => by first | rfl | (dsimp only; split <;> rfl)) _ ?_ | with_reducible exact msorted_nil)

theorem endLapses_sorted {t : State}   (h : Sorted t) : Sorted (endLapses t) := by
  unfold endLapses
  repeat' (first | with_reducible assumption | with_reducible refine Sorted.ite ?_ ?_ | with_reducible refine Sorted.set_lapsed ?_)

theorem finish_sorted {t : State} {a0 : Nat}  (h : Sorted t) : Sorted (finish a0 t) := by
  unfold finish
  repeat' (first | with_reducible assumption | with_reducible refine settleReads_sorted ?_ | with_reducible refine freezeTests_sorted ?_ | with_reducible refine ownerChange_sorted ?_ | with_reducible refine endLapses_sorted ?_ | with_reducible refine settleEpochs_sorted ?_ | with_reducible refine Sorted.ite ?_ ?_ | with_reducible refine Sorted.set_workHeld ?_)

theorem issueCaptured_sorted {t : State} {a0 : Nat} {a1 : Issue}  (h : Sorted t) : Sorted (issueCaptured a0 a1 t) := by
  unfold issueCaptured
  repeat' (first | with_reducible assumption | with_reducible refine updHed_sorted ?_ | with_reducible refine issueItem_sorted ?_ | with_reducible refine captureLost_sorted ?_ | with_reducible refine testMarker_sorted ?_ | with_reducible refine Sorted.ite ?_ ?_)

theorem retireCaptured_sorted {t : State} {a0 : Nat} {a1 : Retire}  (h : Sorted t) : Sorted (retireCaptured a0 a1 t) := by
  unfold retireCaptured
  repeat' (first | with_reducible assumption | with_reducible refine updHed_sorted ?_ | with_reducible refine retireItem_sorted ?_ | with_reducible refine captureLost_sorted ?_ | with_reducible refine Sorted.ite ?_ ?_)

theorem govStart_sorted {t : State}   (h : Sorted t) : Sorted (govStart t) := by
  unfold govStart
  repeat' (first | with_reducible assumption | with_reducible refine admitWaiting_sorted ?_ | with_reducible refine waitingDemand_sorted ?_ | with_reducible refine windowStart_sorted ?_ | with_reducible refine settleHed_sorted ?_ | with_reducible refine foldl_sorted (fun _ _ _ => ?_) ?_ | with_reducible refine Sorted.ite ?_ ?_)

theorem flushExpiry_sorted {t : State} {a0 : Nat}  (h : Sorted t) : Sorted (flushExpiry a0 t) := by
  unfold flushExpiry
  repeat' (first | with_reducible assumption | with_reducible refine settleWriter_sorted ?_ | with_reducible refine closeRun_sorted ?_ | (extract_lets +onlyGivenNames x; refine (fun (hx : Sorted x) => ?_) ?_; rotate_left; dsimp only [x]; clear x; rotate_right; clear_value x) | split)

theorem filterElapsed_sorted {t : State} {a0 : Nat}  (h : Sorted t) : Sorted (filterElapsed a0 t) := by
  unfold filterElapsed
  repeat' (first | with_reducible assumption | with_reducible refine settle_sorted ?_ | with_reducible refine acceptLevel_sorted ?_ | with_reducible refine Sorted.ite ?_ ?_ | split)

theorem coalesceElapsed_sorted {t : State} {a0 : Nat}  (h : Sorted t) : Sorted (coalesceElapsed a0 t) := by
  unfold coalesceElapsed
  repeat' (first | with_reducible assumption | with_reducible refine settle_sorted ?_ | with_reducible refine srcBatch_sorted ?_ | with_reducible refine Sorted.ite ?_ ?_)

theorem latchWakes_sorted {t : State} {a0 : Nat}  (h : Sorted t) : Sorted (latchWakes a0 t) := by
  unfold latchWakes
  repeat' (first | with_reducible assumption | with_reducible refine wakeUp_sorted ?_ | with_reducible refine Sorted.ite ?_ ?_ | split)

end Sys2Proof.Laws
end

