-- ==== Sys2Proof/Laws/Inv.lean ====
section
/-! SUPPORT. The invariant, command by command: what a command's effect has to keep for the command to keep it. -/

namespace Sys2Proof.Laws

open Sys2Proof.Machine Sys2Proof.Safety

theorem canonical_iff (s : State) : canonical s = true ↔ Sorted s := by
  constructor
  · intro h
    simp only [canonical, Bool.and_eq_true] at h
    constructor <;> simp [h]
  · intro h
    simp [canonical, h.regs, h.parts, h.strs, h.bobs, h.wports, h.adopts, h.heds, h.counts, h.hedGovs, h.reedGovs, h.hedStops, h.wits, h.cards,
      h.shadows, h.gates, h.links, h.linkTimes, h.sens, h.snsOn, h.refused, h.trd_srcs, h.trd_tgts, h.key_slots, h.rport_tags, h.tests_states, h.ver_led, h.cal_lin,
      h.cal_linOld, h.cal_words, h.cal_store, h.fw_image]

theorem inv_sorted {s : State} (h : Inv s) : Sorted s := (canonical_iff s).mp h.stores

theorem inv_targets {s : State} (h : Inv s) : s.inst.targets ≤ 16 := by
  have := h.inst; simp [instOk] at this; omega

theorem newRaw_lt (dt : Nat) (s : State) (h : s.tim.raw < two64) : newRaw dt s < two64 := by
  unfold newRaw; split
  · exact Nat.mod_lt _ (by decide)
  · exact h

theorem advance_raw_lt (dt : Nat) (s : State) (h : s.tim.raw < two64) : (advance dt s).tim.raw < two64 := by
  rw [advance_raw]; exact newRaw_lt dt s h

theorem freezeTests_clock (s : State) : (freezeTests s).tests.frozen.isNone = fwRuns s := by
  unfold freezeTests
  split
  · rename_i e; split <;> rename_i h <;> simp_all [updTests]
  · rename_i e; split <;> rename_i h <;> simp_all [updTests]

theorem fwRuns_congr {s t : State} (hf : t.fw = s.fw) (hb : t.booting = s.booting) (hp : t.parts = s.parts) : fwRuns t = fwRuns s := by
  simp [fwRuns, fwOwner, isWorking, pst, part_congr hb hp, hf]

theorem finish_clock (was : Nat) (s : State) (hb : s.booting = false) : (finish was s).tests.frozen.isNone = fwRuns (finish was s) := by
  have e1 : (finish was s).tests = (freezeTests (ownerChange was (endLapses (settleEpochs s)))).tests := by
    unfold finish; rw [if_neg (by simp [hb])]
    show (settleReads (freezeTests (ownerChange was (endLapses (settleEpochs s))))).tests = _
    exact Same.get (f := .tests) (settleReads_same' _) rfl
  have h2 := settled_same s
  have e2 : fwRuns (finish was s) = fwRuns s := fwRuns_congr (by simp) (by simp) (by simp)
  have e3 : fwRuns (ownerChange was (endLapses (settleEpochs s))) = fwRuns (endLapses (settleEpochs s)) := by
    have h : Same (fun f => [Fld.regs, .trd, .ver].contains f) (endLapses (settleEpochs s)) (ownerChange was (endLapses (settleEpochs s))) :=
      ownerChange_same rfl rfl rfl (Same.refl _ _)
    exact fwRuns_congr (Same.get (f := .fw) h rfl) (Same.get (f := .booting) h rfl) (Same.get (f := .parts) h rfl)
  have e4 : fwRuns (endLapses (settleEpochs s)) = fwRuns s :=
    fwRuns_congr (Same.get (f := .fw) h2 rfl) (Same.get (f := .booting) h2 rfl) (Same.get (f := .parts) h2 rfl)
  rw [e1, freezeTests_clock, e3, e4, e2]

theorem finish_held (was : Nat) (s : State) (hb : s.booting = false) : (finish was s).workHeld = holdsWork (finish was s) := by
  unfold finish; rw [if_neg (by simp [hb])]
  rfl

/-- A command keeps the invariant if its effect keeps the stores, the raw count and the instantiation, and what READY says. -/
theorem inv_always {dt : Nat} {f : State → State} {s : State} (h : Inv s) (hs : Sorted (f (advance dt s)))
    (hr : (f (advance dt s)).tim.raw < two64) (hi : (f (advance dt s)).inst = s.inst)
    (hl : (f (advance dt s)).booting = true → (f (advance dt s)).ready = false ∧ ∀ e ∈ (f (advance dt s)).parts, e.2.st = .failed ∧ e.2.seq = 1)
    (hh : (f (advance dt s)).booting = false → (f (advance dt s)).ready = true) : Inv (always dt f s) where
  stores := (canonical_iff _).mpr (by unfold always; exact finish_sorted hs)
  inst := by rw [always_inst, hi]; exact h.inst
  raw := by rw [always_tim]; exact hr
  low := by intro hb; rw [always_booting] at hb; rw [always_ready, always_parts]; exact hl hb
  high := by intro hb; rw [always_booting] at hb; rw [always_ready]; exact hh hb
  held := by intro hb; rw [always_booting] at hb; unfold always; exact finish_held _ _ hb
  clock := by intro hb; rw [always_booting] at hb; unfold always; exact finish_clock _ _ hb

theorem inv_advance {dt : Nat} {s : State} (h : Inv s) (hb : s.booting = true) : Inv (advance dt s) where
  stores := (canonical_iff _).mpr (advance_sorted (inv_sorted h))
  inst := by simpa using h.inst
  raw := by rw [advance_raw]; exact newRaw_lt dt s h.raw
  low := by simpa using h.low
  high := by simpa using h.high
  held := by simp [hb]
  clock := by simp [hb]

/-- A command whose effect leaves READY, the instantiation and the raw count alone. -/
theorem inv_act {dt : Nat} {f : State → State} {s : State} (h : Inv s) (hs : ∀ t, Sorted t → Sorted (f t))
    (hf : ∀ t, Same (fun g => !([Fld.raw, .inst, .booting, .ready].contains g)) t (f t)) : Inv (act dt f s) := by
  unfold act
  split
  · exact inv_advance h (by assumption)
  · rename_i hb
    have hb : s.booting = false := by simpa using hb
    have e := hf (advance dt s)
    have e1 : (f (advance dt s)).tim.raw = _ := Same.get (f := .raw) e rfl
    have e2 : (f (advance dt s)).inst = _ := Same.get (f := .inst) e rfl
    have e3 : (f (advance dt s)).booting = _ := Same.get (f := .booting) e rfl
    have e4 : (f (advance dt s)).ready = _ := Same.get (f := .ready) e rfl
    exact inv_always h (hs _ (advance_sorted (inv_sorted h))) (by rw [e1]; exact advance_raw_lt dt s h.raw)
      (by simp [e2]) (by simp [e3, hb])
      (by intro _; simpa [e4] using h.high hb)

end Sys2Proof.Laws
end

