-- ==== Sys2Proof/Laws/Kept.lean ====
section
/-! SUPPORT. No operation but a write of a register changes a word that software alone writes. -/

namespace Sys2Proof.Laws

set_option Elab.async false

open Sys2Proof.Machine Sys2Proof.Safety

theorem dyn_lnk (n : Nat) : dynWord (pgLnk n) 0xB0 = true := by simp [dynWord, pgLnk]
theorem dyn_wit0 {n : Nat} (h : n < 1024) : dynWord (pgWit n) 0x40 = true := by
  unfold dynWord; rw [decide_eq_true (show pgWit n < pgReed 0 by unfold pgWit pgReed; omega)]; simp [pgWit]
theorem dyn_wit1 {n : Nat} (h : n < 1024) : dynWord (pgWit n) 0x48 = true := by
  unfold dynWord; rw [decide_eq_true (show pgWit n < pgReed 0 by unfold pgWit pgReed; omega)]; simp [pgWit]
theorem dyn_reed (r : Nat) {o : Nat} (h : reedDyn.contains o = true) : dynWord (pgReed r) o = true := by
  unfold dynWord; rw [h, show decide (pgReed 0 ≤ pgReed r) = true by simp [pgReed]]; simp
theorem dyn_hed (n : Nat) {o : Nat} (h : hedDyn.contains o = true) : dynWord (pgHed n) o = true := by
  unfold dynWord; rw [h, show decide (pgHed 0 ≤ pgHed n) = true by simp [pgHed]]; simp
theorem dyn_hub {o : Nat} (h : hubDyn.contains o = true) : dynWord pgHub o = true := by
  unfold dynWord; rw [h]; simp
theorem dyn_writer (w : Nat) {o : Nat} (h : hubDyn.contains o = true) (h' : reedDyn.contains o = true) : dynWord (pgWriter w) o = true := by
  unfold pgWriter; split
  · exact dyn_hub h
  · exact dyn_reed w h'
theorem dyn_bob (b w : Nat) : dynWord (pgWriter w) (bobCounts b) = true := by
  have h : (pgWriter w == pgHub || decide (pgReed 0 ≤ pgWriter w)) = true := by unfold pgWriter; split <;> simp [pgReed]
  have h1 : ((decide (0xC30 ≤ bobCounts b) || (decide (0x830 ≤ bobCounts b) && decide (bobCounts b < 0xA00))) && bobCounts b % 0x40 == 0x30) = true := by
    unfold bobCounts; have := Nat.mod_lt b (show 0 < 8 by decide); split <;> simp <;> omega
  unfold dynWord; simp only [Bool.or_eq_true, Bool.and_eq_true] at h h1 ⊢
  exact .inr ⟨⟨h, h1.1⟩, h1.2⟩
theorem bob_off (b : Nat) : bobCounts b < 4096 ∧ bobCounts b % 8 = 0 := by
  unfold bobCounts; have := Nat.mod_lt b (show 0 < 8 by decide); split <;> omega
theorem dyn_bob' (b r : Nat) : dynWord (pgReed r) (bobCounts b) = true := by
  have h1 : ((decide (0xC30 ≤ bobCounts b) || (decide (0x830 ≤ bobCounts b) && decide (bobCounts b < 0xA00))) && bobCounts b % 0x40 == 0x30) = true := by
    unfold bobCounts; have := Nat.mod_lt b (show 0 < 8 by decide); split <;> simp <;> omega
  unfold dynWord; simp only [Bool.or_eq_true, Bool.and_eq_true] at h1 ⊢
  exact .inr ⟨⟨.inr (by simp [pgReed]), h1.1⟩, h1.2⟩
theorem dyn_compl (w : Nat) : dynWord (pgWriter w) (complOff w) = true := by
  unfold pgWriter complOff; split
  · exact dyn_hub rfl
  · exact dyn_reed w rfl
theorem compl_off (w : Nat) : complOff w < 4096 ∧ complOff w % 8 = 0 := by unfold complOff; split <;> decide

theorem ite_eq {α : Type} {c : Prop} [Decidable c] {a b x : α} : (if c then a else b) = x ↔ (c ∧ a = x) ∨ (¬c ∧ b = x) := by
  by_cases h : c <;> simp [h]

theorem kindOf_wit {s : State} {p n : Nat} (h : kindOf s p = .wit n) : n < 1024 := by
  unfold kindOf at h
  cases e : pageKind s.inst p with
  | none => rw [e] at h; cases h
  | some k =>
    rw [e] at h
    have h : k = .wit n := h
    subst h
    simp only [pageKind, ite_eq, Option.some.injEq, PageKind.wit.injEq, reduceCtorEq, and_false, or_false, false_or] at e
    omega


/-- The description of the block stays, and so does every word that software alone writes. -/
structure Kept (D : Nat → Nat → Bool) (s t : State) : Prop where
  inst : t.inst = s.inst
  few : instOk s.inst = true
  dyn : ∀ p o, dynWord p o = true → D p o = true
  words : SameRegs D s t

variable {D : Nat → Nat → Bool}

theorem Kept.of_eq {s t u : State} (hi : u.inst = t.inst) (hr : u.regs = t.regs) (h : Kept D s t) : Kept D s u := ⟨hi.trans h.inst, h.few, h.dyn, SameRegs.of_eq hi hr h.words⟩

theorem Kept.few' {s t : State} (h : Kept D s t) : t.inst.targets ≤ 16 := by
  rw [h.inst]; have := h.few; simp [instOk] at this; exact this.1.2

/-- Kept, where there is a result. -/
@[reducible] def KeptO (D : Nat → Nat → Bool) (s : State) (o : Option State) : Prop := ∀ u, o = some u → Kept D s u

theorem KeptO.none {s : State} : KeptO D s none := by simp [KeptO]

theorem KeptO.some {s t : State} (h : Kept D s t) : KeptO D s (some t) := fun _ e => Option.some.inj e ▸ h

@[reducible] def KeptOP {α : Type} (D : Nat → Nat → Bool) (s : State) (o : Option (α × State)) : Prop := ∀ x u, o = some (x, u) → Kept D s u

theorem KeptOP.none {α : Type} {s : State} : KeptOP D s (none : Option (α × State)) := by simp [KeptOP]

theorem KeptOP.some {α : Type} {s : State} {p : α × State} (h : Kept D s p.2) : KeptOP D s (some p) := by
  intro x u e; cases e; exact h

theorem Kept.ite {s t u : State} {c : Prop} [Decidable c] (h : Kept D s t) (h' : Kept D s u) : Kept D s (if c then t else u) := by
  split <;> assumption

theorem KeptO.ite {s : State} {a b : Option State} {c : Prop} [Decidable c] (h : KeptO D s a) (h' : KeptO D s b) : KeptO D s (if c then a else b) := by
  split <;> assumption

theorem foldl_kept {α : Type} {f : State → α → State} {l : List α} {s t : State} (hf : ∀ t x, Kept D s t → Kept D s (f t x)) (h : Kept D s t) :
    Kept D s (l.foldl f t) := by
  induction l generalizing t with
  | nil => exact h
  | cons x l ih => exact ih (hf t x h)

theorem foldl2_kept {α β : Type} {s : State} {f : β × State → α → β × State} {l : List α} {a : β × State}
    (hf : ∀ a x, Kept D s a.2 → Kept D s (f a x).2) (h : Kept D s a.2) : Kept D s (l.foldl f a).2 := by
  induction l generalizing a with
  | nil => exact h
  | cons x l ih => exact ih (hf a x h)

theorem foldl2_kept_eq {α β : Type} {s : State} {f : β × State → α → β × State} {l : List α} {a : β × State} {x : β} {u : State}
    (hf : ∀ a x, Kept D s a.2 → Kept D s (f a x).2) (e : l.foldl f a = (x, u)) (h : Kept D s a.2) : Kept D s u := by
  have := foldl2_kept hf h (l := l)
  rw [e] at this; exact this

theorem full_dyn : ∀ p o, fullWord p o = true → dynWord p o = true := fun p o h => by unfold dynWord; rw [h]; rfl

theorem Kept.full {s t : State} (h : Kept D s t) : ∀ p o, fullWord p o = true → D p o = true := fun p o e => h.dyn p o (full_dyn p o e)

theorem err_dyn (p : Nat) : dynWord p 0x28 = true ∧ dynWord p 0x38 = true := by unfold dynWord; simp

theorem regPut_kept {s t : State} {a1 a2 : Nat} {a3 : Word} (hd : dynWord a1 a2 = true) (ho : a2 < 4096) (hm : a2 % 8 = 0) (h : Kept D s t) : Kept D s (regPut t a1 a2 a3) :=
  ⟨by rw [regPut_inst]; exact h.inst, h.few, h.dyn, regPut_sameRegs (h.dyn _ _ hd) ho hm h.words⟩

theorem regPut_keptD {s t : State} {a1 a2 : Nat} {a3 : Word} (hd : D a1 a2 = true) (ho : a2 < 4096) (hm : a2 % 8 = 0) (h : Kept D s t) : Kept D s (regPut t a1 a2 a3) :=
  ⟨by rw [regPut_inst]; exact h.inst, h.few, h.dyn, regPut_sameRegs hd ho hm h.words⟩

theorem bump_kept {s t : State} {a1 a2 a3 a4 a5 : Nat} (hd : dynWord a1 a2 = true) (ho : a2 < 4096) (hm : a2 % 8 = 0) (h : Kept D s t) : Kept D s (bump t a1 a2 a3 a4 a5) :=
  regPut_kept hd ho hm h

theorem count_kept {s t : State} {a1 a2 a3 a4 a5 : Nat} (hd : dynWord a1 a2 = true) (ho : a2 < 4096) (hm : a2 % 8 = 0) (h : Kept D s t) : Kept D s (count t a1 a2 a3 a4 a5) :=
  regPut_kept hd ho hm h

theorem regSetFld_kept {s t : State} {a1 a2 a3 a4 a5 : Nat} (hd : dynWord a1 a2 = true) (ho : a2 < 4096) (hm : a2 % 8 = 0) (h : Kept D s t) : Kept D s (regSetFld t a1 a2 a3 a4 a5) :=
  regPut_kept hd ho hm h

theorem settle_kept {s t : State} (h : Kept D s t) : Kept D s (settle t) := ⟨by rw [settle_inst]; exact h.inst, h.few, h.dyn, settle_sameRegs h.full h.few' h.words⟩

theorem raise_kept {s t : State} {a0 : Nat} (h : Kept D s t) : Kept D s (raise a0 t) := ⟨by rw [raise_inst]; exact h.inst, h.few, h.dyn, raise_sameRegs h.full h.few' h.words⟩

theorem recordErr_kept {s t : State} {a0 : Nat} {a1 : List Nat} (h : Kept D s t) : Kept D s (recordErr a0 a1 t) :=
  ⟨by rw [recordErr_inst]; exact h.inst, h.few, h.dyn, recordErr_sameRegs (h.dyn _ _ (err_dyn a0).1) (h.dyn _ _ (err_dyn a0).2) h.words⟩

theorem setErr_kept {s t : State} {a0 a1 : Nat} (h : Kept D s t) : Kept D s (setErr a0 a1 t) :=
  ⟨by rw [setErr_inst]; exact h.inst, h.few, h.dyn, setErr_sameRegs h.full h.few' (h.dyn _ _ (err_dyn a0).1) (h.dyn _ _ (err_dyn a0).2) h.words⟩

theorem setPortErr_kept {s t : State} {a0 a1 : Nat} (h : Kept D s t) : Kept D s (setPortErr a0 a1 t) :=
  ⟨by rw [setPortErr_inst]; exact h.inst, h.few, h.dyn, setPortErr_sameRegs h.full h.few' (h.dyn _ _ (err_dyn a0).1) (h.dyn _ _ (err_dyn a0).2) h.words⟩

theorem Kept.set_pending {s t : State} {v : List Instr} (h : Kept D s t) : Kept D s { t with pending := v } := ⟨h.inst, h.few, h.dyn, h.words⟩

theorem Kept.set_ready {s t : State} {v : Bool} (h : Kept D s t) : Kept D s { t with ready := v } := ⟨h.inst, h.few, h.dyn, h.words⟩

theorem Kept.set_booting {s t : State} {v : Bool} (h : Kept D s t) : Kept D s { t with booting := v } := ⟨h.inst, h.few, h.dyn, h.words⟩

theorem Kept.set_workHeld {s t : State} {v : Bool} (h : Kept D s t) : Kept D s { t with workHeld := v } := ⟨h.inst, h.few, h.dyn, h.words⟩

theorem Kept.set_port {s t : State} {v : Port} (h : Kept D s t) : Kept D s { t with port := v } := ⟨h.inst, h.few, h.dyn, h.words⟩

theorem Kept.set_parts {s t : State} {v : List (Nat × Part)} (h : Kept D s t) : Kept D s { t with parts := v } := ⟨h.inst, h.few, h.dyn, h.words⟩

theorem Kept.set_audit {s t : State} {v : Audit} (h : Kept D s t) : Kept D s { t with audit := v } := ⟨h.inst, h.few, h.dyn, h.words⟩

theorem Kept.set_tim {s t : State} {v : Time} (h : Kept D s t) : Kept D s { t with tim := v } := ⟨h.inst, h.few, h.dyn, h.words⟩

theorem Kept.set_owed {s t : State} {v : List Pick} (h : Kept D s t) : Kept D s { t with owed := v } := ⟨h.inst, h.few, h.dyn, h.words⟩

theorem Kept.set_strs {s t : State} {v : List (Nat × Strm)} (h : Kept D s t) : Kept D s { t with strs := v } := ⟨h.inst, h.few, h.dyn, h.words⟩

theorem Kept.set_closes {s t : State} {v : Nat} (h : Kept D s t) : Kept D s { t with closes := v } := ⟨h.inst, h.few, h.dyn, h.words⟩

theorem Kept.set_bobs {s t : State} {v : List (Nat × Bob)} (h : Kept D s t) : Kept D s { t with bobs := v } := ⟨h.inst, h.few, h.dyn, h.words⟩

theorem Kept.set_wports {s t : State} {v : List (Nat × WPort)} (h : Kept D s t) : Kept D s { t with wports := v } := ⟨h.inst, h.few, h.dyn, h.words⟩

theorem Kept.set_rport {s t : State} {v : RPort} (h : Kept D s t) : Kept D s { t with rport := v } := ⟨h.inst, h.few, h.dyn, h.words⟩

theorem Kept.set_adopts {s t : State} {v : List (Nat × Adopt)} (h : Kept D s t) : Kept D s { t with adopts := v } := ⟨h.inst, h.few, h.dyn, h.words⟩

theorem Kept.set_exempt {s t : State} {v : Nat} (h : Kept D s t) : Kept D s { t with exempt := v } := ⟨h.inst, h.few, h.dyn, h.words⟩

theorem Kept.set_refused {s t : State} {v : List (Nat × Nat)} (h : Kept D s t) : Kept D s { t with refused := v } := ⟨h.inst, h.few, h.dyn, h.words⟩

theorem Kept.set_heds {s t : State} {v : List (Nat × HedTrace)} (h : Kept D s t) : Kept D s { t with heds := v } := ⟨h.inst, h.few, h.dyn, h.words⟩

theorem Kept.set_counts {s t : State} {v : List (Nat × HedCount)} (h : Kept D s t) : Kept D s { t with counts := v } := ⟨h.inst, h.few, h.dyn, h.words⟩

theorem Kept.set_hedGovs {s t : State} {v : List (Nat × HedGov)} (h : Kept D s t) : Kept D s { t with hedGovs := v } := ⟨h.inst, h.few, h.dyn, h.words⟩

theorem Kept.set_reedGovs {s t : State} {v : List (Nat × ReedGov)} (h : Kept D s t) : Kept D s { t with reedGovs := v } := ⟨h.inst, h.few, h.dyn, h.words⟩

theorem Kept.set_gov {s t : State} {v : Gov} (h : Kept D s t) : Kept D s { t with gov := v } := ⟨h.inst, h.few, h.dyn, h.words⟩

theorem Kept.set_trd {s t : State} {v : Treadle} (h : Kept D s t) : Kept D s { t with trd := v } := ⟨h.inst, h.few, h.dyn, h.words⟩

theorem Kept.set_stop {s t : State} {v : Stop} (h : Kept D s t) : Kept D s { t with stop := v } := ⟨h.inst, h.few, h.dyn, h.words⟩

theorem Kept.set_hedStops {s t : State} {v : List (Nat × HedStop)} (h : Kept D s t) : Kept D s { t with hedStops := v } := ⟨h.inst, h.few, h.dyn, h.words⟩

theorem Kept.set_key {s t : State} {v : KeyStore} (h : Kept D s t) : Kept D s { t with key := v } := ⟨h.inst, h.few, h.dyn, h.words⟩

theorem Kept.set_wits {s t : State} {v : List (Nat × WitReed)} (h : Kept D s t) : Kept D s { t with wits := v } := ⟨h.inst, h.few, h.dyn, h.words⟩

theorem Kept.set_cards {s t : State} {v : List (Nat × CheckCard)} (h : Kept D s t) : Kept D s { t with cards := v } := ⟨h.inst, h.few, h.dyn, h.words⟩

theorem Kept.set_shadows {s t : State} {v : List (Nat × CheckCard)} (h : Kept D s t) : Kept D s { t with shadows := v } := ⟨h.inst, h.few, h.dyn, h.words⟩

theorem Kept.set_lapsed {s t : State} {v : List Nat} (h : Kept D s t) : Kept D s { t with lapsed := v } := ⟨h.inst, h.few, h.dyn, h.words⟩

theorem Kept.set_ver {s t : State} {v : Verdicts} (h : Kept D s t) : Kept D s { t with ver := v } := ⟨h.inst, h.few, h.dyn, h.words⟩

theorem Kept.set_gates {s t : State} {v : List (Nat × HedGate)} (h : Kept D s t) : Kept D s { t with gates := v } := ⟨h.inst, h.few, h.dyn, h.words⟩

theorem Kept.set_tests {s t : State} {v : Tests} (h : Kept D s t) : Kept D s { t with tests := v } := ⟨h.inst, h.few, h.dyn, h.words⟩

theorem Kept.set_links {s t : State} {v : List (Nat × Link)} (h : Kept D s t) : Kept D s { t with links := v } := ⟨h.inst, h.few, h.dyn, h.words⟩

theorem Kept.set_linkTimes {s t : State} {v : List (Nat × LinkTime)} (h : Kept D s t) : Kept D s { t with linkTimes := v } := ⟨h.inst, h.few, h.dyn, h.words⟩

theorem Kept.set_servo {s t : State} {v : Servo} (h : Kept D s t) : Kept D s { t with servo := v } := ⟨h.inst, h.few, h.dyn, h.words⟩

theorem Kept.set_eth {s t : State} {v : Eth} (h : Kept D s t) : Kept D s { t with eth := v } := ⟨h.inst, h.few, h.dyn, h.words⟩

theorem Kept.set_fw {s t : State} {v : Fw} (h : Kept D s t) : Kept D s { t with fw := v } := ⟨h.inst, h.few, h.dyn, h.words⟩

theorem Kept.set_cal {s t : State} {v : Cal} (h : Kept D s t) : Kept D s { t with cal := v } := ⟨h.inst, h.few, h.dyn, h.words⟩

theorem Kept.set_sens {s t : State} {v : List (Nat × List (Nat × BitVec 16))} (h : Kept D s t) : Kept D s { t with sens := v } := ⟨h.inst, h.few, h.dyn, h.words⟩

theorem Kept.set_snsOn {s t : State} {v : List (Nat × Word)} (h : Kept D s t) : Kept D s { t with snsOn := v } := ⟨h.inst, h.few, h.dyn, h.words⟩

theorem Kept.set_free {s t : State} {v : Nat} (h : Kept D s t) : Kept D s { t with free := v } := ⟨h.inst, h.few, h.dyn, h.words⟩

theorem Kept.set_salts {s t : State} {v : Nat} (h : Kept D s t) : Kept D s { t with salts := v } := ⟨h.inst, h.few, h.dyn, h.words⟩

theorem takeFree_kept {s t : State}   (h : Kept D s t) : Kept D s (takeFree t).2 := by
  have a := takeFree_same (F := (fun f => [Fld.free].contains f))  rfl (Same.refl _ t)
  exact Kept.of_eq (Same.get (f := .inst) a rfl) (Same.get (f := .regs) a rfl) h

theorem takeFree_kept_eq {s t : State}   {x} {u : State} (e : takeFree t = (x, u)) (h : Kept D s t) : Kept D s u := by
  have := takeFree_kept (s := s) (t := t)  h
  rw [e] at this; exact this

theorem takeSalt_kept {s t : State}   (h : Kept D s t) : Kept D s (takeSalt t).2 := by
  have a := takeSalt_same (F := (fun f => [Fld.salts].contains f))  rfl (Same.refl _ t)
  exact Kept.of_eq (Same.get (f := .inst) a rfl) (Same.get (f := .regs) a rfl) h

theorem takeSalt_kept_eq {s t : State}   {x} {u : State} (e : takeSalt t = (x, u)) (h : Kept D s t) : Kept D s u := by
  have := takeSalt_kept (s := s) (t := t)  h
  rw [e] at this; exact this

theorem updPart_kept {s t : State} {a1 : Nat} {a2 : Part → Part}  (h : Kept D s t) : Kept D s (updPart t a1 a2) := by
  have a := updPart_same (F := (fun f => [Fld.parts].contains f)) (a1 := a1) (a2 := a2) rfl (Same.refl _ t)
  exact Kept.of_eq (Same.get (f := .inst) a rfl) (Same.get (f := .regs) a rfl) h

theorem transition_kept {s t : State} {a0 : Nat} {a1 : PState} {a2 : BitVec 8}  (h : Kept D s t) : Kept D s (transition a0 a1 a2 t) := by
  have a := transition_same (F := (fun f => [Fld.parts].contains f)) (a0 := a0) (a1 := a1) (a2 := a2) rfl (Same.refl _ t)
  exact Kept.of_eq (Same.get (f := .inst) a rfl) (Same.get (f := .regs) a rfl) h

theorem updSrc_kept {s t : State} {a0 : Nat} {a1 : Src → Src}  (h : Kept D s t) : Kept D s (updSrc a0 a1 t) := by
  have a := updSrc_same (F := (fun f => [Fld.trd].contains f)) (a0 := a0) (a1 := a1) rfl (Same.refl _ t)
  exact Kept.of_eq (Same.get (f := .inst) a rfl) (Same.get (f := .regs) a rfl) h

theorem updTgt_kept {s t : State} {a0 : Nat} {a1 : Tgt → Tgt}  (h : Kept D s t) : Kept D s (updTgt a0 a1 t) := by
  have a := updTgt_same (F := (fun f => [Fld.trd].contains f)) (a0 := a0) (a1 := a1) rfl (Same.refl _ t)
  exact Kept.of_eq (Same.get (f := .inst) a rfl) (Same.get (f := .regs) a rfl) h

theorem srcEvent_kept {s t : State} {a0 : Nat} {a1 : Nat} {a2 : Bool}  (h : Kept D s t) : Kept D s (srcEvent a0 a1 a2 t) := by
  have a := srcEvent_same (F := (fun f => [Fld.trd].contains f)) (a0 := a0) (a1 := a1) (a2 := a2) rfl (Same.refl _ t)
  exact Kept.of_eq (Same.get (f := .inst) a rfl) (Same.get (f := .regs) a rfl) h

theorem srcBatch_kept {s t : State} {a0 : Nat}  (h : Kept D s t) : Kept D s (srcBatch a0 t) := by
  have a := srcBatch_same (F := (fun f => [Fld.trd].contains f)) (a0 := a0) rfl (Same.refl _ t)
  exact Kept.of_eq (Same.get (f := .inst) a rfl) (Same.get (f := .regs) a rfl) h

theorem withdraw_kept {s t : State} {a0 : Nat}  (h : Kept D s t) : Kept D s (withdraw a0 t) := by
  unfold withdraw
  repeat' (first | with_reducible assumption | with_reducible refine bump_kept (by first | with_reducible rfl | exact dyn_hub rfl | with_reducible exact dyn_hed _ rfl | with_reducible exact dyn_reed _ rfl | with_reducible exact dyn_lnk _ | with_reducible exact dyn_wit0 hn | with_reducible exact dyn_wit1 hn | with_reducible exact dyn_writer _ rfl rfl | with_reducible exact dyn_bob _ _ | with_reducible exact dyn_bob' _ _ | with_reducible exact dyn_compl _ | decide | (split <;> first | exact dyn_hub rfl | with_reducible exact dyn_hed _ rfl)) (by first | decide | with_reducible exact (bob_off _).1 | with_reducible exact (bob_off _).2 | with_reducible exact (compl_off _).1 | with_reducible exact (compl_off _).2 | (split <;> decide)) (by first | decide | with_reducible exact (bob_off _).1 | with_reducible exact (bob_off _).2 | with_reducible exact (compl_off _).1 | with_reducible exact (compl_off _).2 | (split <;> decide)) ?_ | with_reducible refine updSrc_kept ?_ | (with_reducible show Kept D s _; first | exact ⟨h.inst, h.few, h.dyn, h.words⟩ | exact ⟨hx.inst, hx.few, hx.dyn, hx.words⟩))

theorem srcLevelPend_kept {s t : State} {a0 : Nat}  (h : Kept D s t) : Kept D s (srcLevelPend a0 t) := by
  have a := srcLevelPend_same (F := (fun f => [Fld.trd].contains f)) (a0 := a0) rfl (Same.refl _ t)
  exact Kept.of_eq (Same.get (f := .inst) a rfl) (Same.get (f := .regs) a rfl) h

theorem acceptLevel_kept {s t : State} {a0 : Nat}  (h : Kept D s t) : Kept D s (acceptLevel a0 t) := by
  unfold acceptLevel
  repeat' (first | with_reducible assumption | with_reducible refine updSrc_kept ?_ | with_reducible refine srcEvent_kept ?_ | with_reducible refine srcLevelPend_kept ?_ | with_reducible refine withdraw_kept ?_ | dsimp only | with_reducible refine Kept.ite ?_ ?_ | split | (with_reducible show Kept D s _; first | exact ⟨h.inst, h.few, h.dyn, h.words⟩ | exact ⟨hx.inst, hx.few, hx.dyn, hx.words⟩))

theorem endRun_kept {s t : State} {a0 : Nat}  (h : Kept D s t) : Kept D s (endRun a0 t) := by
  unfold endRun
  repeat' (first | with_reducible assumption | with_reducible refine acceptLevel_kept ?_ | with_reducible refine updSrc_kept ?_ | with_reducible refine bump_kept (by first | with_reducible rfl | exact dyn_hub rfl | with_reducible exact dyn_hed _ rfl | with_reducible exact dyn_reed _ rfl | with_reducible exact dyn_lnk _ | with_reducible exact dyn_wit0 hn | with_reducible exact dyn_wit1 hn | with_reducible exact dyn_writer _ rfl rfl | with_reducible exact dyn_bob _ _ | with_reducible exact dyn_bob' _ _ | with_reducible exact dyn_compl _ | decide | (split <;> first | exact dyn_hub rfl | with_reducible exact dyn_hed _ rfl)) (by first | decide | with_reducible exact (bob_off _).1 | with_reducible exact (bob_off _).2 | with_reducible exact (compl_off _).1 | with_reducible exact (compl_off _).2 | (split <;> decide)) (by first | decide | with_reducible exact (bob_off _).1 | with_reducible exact (bob_off _).2 | with_reducible exact (compl_off _).1 | with_reducible exact (compl_off _).2 | (split <;> decide)) ?_ | dsimp only | with_reducible refine Kept.ite ?_ ?_ | split | (with_reducible show Kept D s _; first | exact ⟨h.inst, h.few, h.dyn, h.words⟩ | exact ⟨hx.inst, hx.few, hx.dyn, hx.words⟩))

theorem inputEdge_kept {s t : State} {a0 : Nat} {a1 : Bool}  (h : Kept D s t) : Kept D s (inputEdge a0 a1 t) := by
  unfold inputEdge
  repeat' (first | with_reducible assumption | with_reducible refine endRun_kept ?_ | with_reducible refine updSrc_kept ?_ | with_reducible refine settle_kept ?_ | with_reducible refine Kept.ite ?_ ?_ | (with_reducible show Kept D s _; first | exact ⟨h.inst, h.few, h.dyn, h.words⟩ | exact ⟨hx.inst, hx.few, hx.dyn, hx.words⟩))

theorem reportLatch_kept {s t : State} {a0 : Nat}  (h : Kept D s t) : Kept D s (reportLatch a0 t) := by
  unfold reportLatch
  repeat' (first | with_reducible assumption | with_reducible refine bump_kept (by first | with_reducible rfl | exact dyn_hub rfl | with_reducible exact dyn_hed _ rfl | with_reducible exact dyn_reed _ rfl | with_reducible exact dyn_lnk _ | with_reducible exact dyn_wit0 hn | with_reducible exact dyn_wit1 hn | with_reducible exact dyn_writer _ rfl rfl | with_reducible exact dyn_bob _ _ | with_reducible exact dyn_bob' _ _ | with_reducible exact dyn_compl _ | decide | (split <;> first | exact dyn_hub rfl | with_reducible exact dyn_hed _ rfl)) (by first | decide | with_reducible exact (bob_off _).1 | with_reducible exact (bob_off _).2 | with_reducible exact (compl_off _).1 | with_reducible exact (compl_off _).2 | (split <;> decide)) (by first | decide | with_reducible exact (bob_off _).1 | with_reducible exact (bob_off _).2 | with_reducible exact (compl_off _).1 | with_reducible exact (compl_off _).2 | (split <;> decide)) ?_ | with_reducible refine updSrc_kept ?_ | with_reducible refine srcEvent_kept ?_ | dsimp only | with_reducible refine Kept.ite ?_ ?_ | split | (with_reducible show Kept D s _; first | exact ⟨h.inst, h.few, h.dyn, h.words⟩ | exact ⟨hx.inst, hx.few, hx.dyn, hx.words⟩))

theorem restartRun_kept {s t : State} {a0 : Nat}  (h : Kept D s t) : Kept D s (restartRun a0 t) := by
  unfold restartRun
  repeat' (first | with_reducible assumption | with_reducible refine updSrc_kept ?_ | with_reducible refine bump_kept (by first | with_reducible rfl | exact dyn_hub rfl | with_reducible exact dyn_hed _ rfl | with_reducible exact dyn_reed _ rfl | with_reducible exact dyn_lnk _ | with_reducible exact dyn_wit0 hn | with_reducible exact dyn_wit1 hn | with_reducible exact dyn_writer _ rfl rfl | with_reducible exact dyn_bob _ _ | with_reducible exact dyn_bob' _ _ | with_reducible exact dyn_compl _ | decide | (split <;> first | exact dyn_hub rfl | with_reducible exact dyn_hed _ rfl)) (by first | decide | with_reducible exact (bob_off _).1 | with_reducible exact (bob_off _).2 | with_reducible exact (compl_off _).1 | with_reducible exact (compl_off _).2 | (split <;> decide)) (by first | decide | with_reducible exact (bob_off _).1 | with_reducible exact (bob_off _).2 | with_reducible exact (compl_off _).1 | with_reducible exact (compl_off _).2 | (split <;> decide)) ?_ | with_reducible refine Kept.ite ?_ ?_ | (with_reducible show Kept D s _; first | exact ⟨h.inst, h.few, h.dyn, h.words⟩ | exact ⟨hx.inst, hx.few, hx.dyn, hx.words⟩))

theorem reportLatches_kept {s t : State}   (h : Kept D s t) : Kept D s (reportLatches t) := by
  unfold reportLatches
  repeat' (first | with_reducible assumption | with_reducible refine settle_kept ?_ | with_reducible refine restartRun_kept ?_ | with_reducible refine reportLatch_kept ?_ | with_reducible refine foldl_kept (fun _ _ _ => ?_) ?_ | with_reducible refine Kept.ite ?_ ?_ | (with_reducible show Kept D s _; first | exact ⟨h.inst, h.few, h.dyn, h.words⟩ | exact ⟨hx.inst, hx.few, hx.dyn, hx.words⟩))

theorem wakeUp_kept {s t : State} {a0 : Nat} {a1 : Nat}  (h : Kept D s t) : Kept D s (wakeUp a0 a1 t) := by
  unfold wakeUp
  repeat' (first | with_reducible assumption | with_reducible refine reportLatches_kept ?_ | with_reducible refine bump_kept (by first | with_reducible rfl | exact dyn_hub rfl | with_reducible exact dyn_hed _ rfl | with_reducible exact dyn_reed _ rfl | with_reducible exact dyn_lnk _ | with_reducible exact dyn_wit0 hn | with_reducible exact dyn_wit1 hn | with_reducible exact dyn_writer _ rfl rfl | with_reducible exact dyn_bob _ _ | with_reducible exact dyn_bob' _ _ | with_reducible exact dyn_compl _ | decide | (split <;> first | exact dyn_hub rfl | with_reducible exact dyn_hed _ rfl)) (by first | decide | with_reducible exact (bob_off _).1 | with_reducible exact (bob_off _).2 | with_reducible exact (compl_off _).1 | with_reducible exact (compl_off _).2 | (split <;> decide)) (by first | decide | with_reducible exact (bob_off _).1 | with_reducible exact (bob_off _).2 | with_reducible exact (compl_off _).1 | with_reducible exact (compl_off _).2 | (split <;> decide)) ?_ | with_reducible refine Kept.ite ?_ ?_ | with_reducible refine Kept.set_trd ?_ | (with_reducible show Kept D s _; first | exact ⟨h.inst, h.few, h.dyn, h.words⟩ | exact ⟨hx.inst, hx.few, hx.dyn, hx.words⟩))

theorem complete_kept {s t : State} {a0 : Nat} {a1 : Nat}  (h : Kept D s t) : KeptO D s (complete a0 a1 t) := by
  unfold complete
  repeat' (first | with_reducible assumption | with_reducible refine updTgt_kept ?_ | with_reducible refine updSrc_kept ?_ | with_reducible refine settle_kept ?_ | with_reducible exact KeptO.none | with_reducible refine KeptO.some ?_ | with_reducible refine KeptO.ite ?_ ?_ | split | (with_reducible show Kept D s _; first | exact ⟨h.inst, h.few, h.dyn, h.words⟩ | exact ⟨hx.inst, hx.few, hx.dyn, hx.words⟩))

theorem doorbell_kept {s t : State} {a0 : Nat}  (h : Kept D s t) : KeptO D s (doorbell a0 t) := by
  unfold doorbell
  repeat' (first | with_reducible assumption | with_reducible refine wakeUp_kept ?_ | with_reducible refine settle_kept ?_ | with_reducible refine srcEvent_kept ?_ | with_reducible exact KeptO.none | with_reducible refine KeptO.some ?_ | with_reducible refine KeptO.ite ?_ ?_ | split | (with_reducible show Kept D s _; first | exact ⟨h.inst, h.few, h.dyn, h.words⟩ | exact ⟨hx.inst, hx.few, hx.dyn, hx.words⟩))

theorem pendingSet_kept {s t : State} {a0 : Nat} {a1 : Word}  (h : Kept D s t) : Kept D s (pendingSet a0 a1 t) := by
  unfold pendingSet
  repeat' (first | with_reducible assumption | with_reducible refine settle_kept ?_ | with_reducible refine updSrc_kept ?_ | with_reducible refine foldl_kept (fun _ _ _ => ?_) ?_ | with_reducible refine Kept.ite ?_ ?_ | (with_reducible show Kept D s _; first | exact ⟨h.inst, h.few, h.dyn, h.words⟩ | exact ⟨hx.inst, hx.few, hx.dyn, hx.words⟩))

theorem pendingClr_kept {s t : State} {a0 : Nat} {a1 : Word}  (h : Kept D s t) : Kept D s (pendingClr a0 a1 t) := by
  unfold pendingClr
  repeat' (first | with_reducible assumption | with_reducible refine settle_kept ?_ | with_reducible refine srcLevelPend_kept ?_ | with_reducible refine updSrc_kept ?_ | with_reducible refine foldl_kept (fun _ _ _ => ?_) ?_ | with_reducible refine Kept.ite ?_ ?_ | (with_reducible show Kept D s _; first | exact ⟨h.inst, h.few, h.dyn, h.words⟩ | exact ⟨hx.inst, hx.few, hx.dyn, hx.words⟩))

theorem dozeWrite_kept {s t : State} {a0 : Bool}  (h : Kept D s t) : KeptO D s (dozeWrite a0 t) := by
  unfold dozeWrite
  repeat' (first | with_reducible assumption | with_reducible refine settle_kept ?_ | with_reducible refine reportLatches_kept ?_ | with_reducible exact KeptO.none | with_reducible refine KeptO.some ?_ | with_reducible refine KeptO.ite ?_ ?_ | with_reducible refine Kept.set_trd ?_ | (with_reducible show Kept D s _; first | exact ⟨h.inst, h.few, h.dyn, h.words⟩ | exact ⟨hx.inst, hx.few, hx.dyn, hx.words⟩))

theorem updStrm_kept {s t : State} {a0 : Nat} {a1 : Strm → Strm}  (h : Kept D s t) : Kept D s (updStrm a0 a1 t) := by
  have a := updStrm_same (F := (fun f => [Fld.strs].contains f)) (a0 := a0) (a1 := a1) rfl (Same.refl _ t)
  exact Kept.of_eq (Same.get (f := .inst) a rfl) (Same.get (f := .regs) a rfl) h

theorem updAdopt_kept {s t : State} {a0 : Nat} {a1 : Adopt → Adopt}  (h : Kept D s t) : Kept D s (updAdopt a0 a1 t) := by
  have a := updAdopt_same (F := (fun f => [Fld.adopts].contains f)) (a0 := a0) (a1 := a1) rfl (Same.refl _ t)
  exact Kept.of_eq (Same.get (f := .inst) a rfl) (Same.get (f := .regs) a rfl) h

theorem updBob_kept {s t : State} {a0 : Nat} {a1 : Bob → Bob}  (h : Kept D s t) : Kept D s (updBob a0 a1 t) := by
  have a := updBob_same (F := (fun f => [Fld.bobs].contains f)) (a0 := a0) (a1 := a1) rfl (Same.refl _ t)
  exact Kept.of_eq (Same.get (f := .inst) a rfl) (Same.get (f := .regs) a rfl) h

theorem closeRun_kept {s t : State} {a0 : Nat}  (h : Kept D s t) : Kept D s (closeRun a0 t) := by
  have a := closeRun_same (F := (fun f => [Fld.strs, Fld.closes].contains f)) (a0 := a0) rfl rfl (Same.refl _ t)
  exact Kept.of_eq (Same.get (f := .inst) a rfl) (Same.get (f := .regs) a rfl) h

theorem growRuns_kept {s t : State} {a0 : Nat} {a1 : Nat} {a2 : Nat}  (h : Kept D s t) : Kept D s (growRuns a0 a1 a2 t) := by
  have a := growRuns_same (F := (fun f => [Fld.strs, Fld.closes].contains f)) (a0 := a0) (a1 := a1) (a2 := a2) rfl rfl (Same.refl _ t)
  exact Kept.of_eq (Same.get (f := .inst) a rfl) (Same.get (f := .regs) a rfl) h

theorem noteKind_kept {s t : State} {a0 : Nat}  (h : Kept D s t) : Kept D s (noteKind a0 t) := by
  unfold noteKind
  repeat' (first | with_reducible assumption | with_reducible refine setErr_kept ?_ | with_reducible refine Kept.ite ?_ ?_ | (with_reducible show Kept D s _; first | exact ⟨h.inst, h.few, h.dyn, h.words⟩ | exact ⟨hx.inst, hx.few, hx.dyn, hx.words⟩))

theorem acceptRec_kept {s t : State} {a0 : Nat} {a1 : Pick}  (h : Kept D s t) : Kept D s (acceptRec a0 a1 t) := by
  unfold acceptRec
  repeat' (first | with_reducible assumption | with_reducible refine growRuns_kept ?_ | with_reducible refine updStrm_kept ?_ | with_reducible refine noteKind_kept ?_ | with_reducible refine Kept.ite ?_ ?_ | (with_reducible show Kept D s _; first | exact ⟨h.inst, h.few, h.dyn, h.words⟩ | exact ⟨hx.inst, hx.few, hx.dyn, hx.words⟩))

theorem reformRuns_kept {s t : State} {a0 : Nat}  (h : Kept D s t) : Kept D s (reformRuns a0 t) := by
  have a := reformRuns_same (F := (fun f => [Fld.strs, Fld.closes].contains f)) (a0 := a0) rfl rfl (Same.refl _ t)
  exact Kept.of_eq (Same.get (f := .inst) a rfl) (Same.get (f := .regs) a rfl) h

theorem updSlot_kept {s t : State} {a0 : Nat} {a1 : KSlot → KSlot}  (h : Kept D s t) : Kept D s (updSlot a0 a1 t) := by
  have a := updSlot_same (F := (fun f => [Fld.key].contains f)) (a0 := a0) (a1 := a1) rfl (Same.refl _ t)
  exact Kept.of_eq (Same.get (f := .inst) a rfl) (Same.get (f := .regs) a rfl) h

theorem takeHead_kept {s t : State} {a0 : Nat} {a1 : BitVec 8}  (h : Kept D s t) : Kept D s (takeHead a0 a1 t).2 := by
  have a := takeHead_same (F := (fun f => [Fld.key].contains f)) (a0 := a0) (a1 := a1) rfl (Same.refl _ t)
  exact Kept.of_eq (Same.get (f := .inst) a rfl) (Same.get (f := .regs) a rfl) h

theorem takeHead_kept_eq {s t : State} {a0 : Nat} {a1 : BitVec 8}  {x} {u : State} (e : takeHead a0 a1 t = (x, u)) (h : Kept D s t) : Kept D s u := by
  have := takeHead_kept (s := s) (t := t) (a0 := a0) (a1 := a1) h
  rw [e] at this; exact this

theorem bobBlock_kept {s t : State} {a0 : Nat} {a1 : BitVec 32} {a2 : Bool} {a3 : Nat} {a4 : Nat} {a5 : List Rec}  (h : Kept D s t) : Kept D s (bobBlock a0 a1 a2 a3 a4 a5 t).2 := by
  have a := bobBlock_same (F := (fun f => [Fld.bobs, Fld.key].contains f)) (a0 := a0) (a1 := a1) (a2 := a2) (a3 := a3) (a4 := a4) (a5 := a5) rfl rfl (Same.refl _ t)
  exact Kept.of_eq (Same.get (f := .inst) a rfl) (Same.get (f := .regs) a rfl) h

theorem bobBlock_kept_eq {s t : State} {a0 : Nat} {a1 : BitVec 32} {a2 : Bool} {a3 : Nat} {a4 : Nat} {a5 : List Rec}  {x} {u : State} (e : bobBlock a0 a1 a2 a3 a4 a5 t = (x, u)) (h : Kept D s t) : Kept D s u := by
  have := bobBlock_kept (s := s) (t := t) (a0 := a0) (a1 := a1) (a2 := a2) (a3 := a3) (a4 := a4) (a5 := a5) h
  rw [e] at this; exact this

theorem updPort_kept {s t : State} {a0 : Nat} {a1 : WPort → WPort}  (h : Kept D s t) : Kept D s (updPort a0 a1 t) := by
  have a := updPort_same (F := (fun f => [Fld.wports].contains f)) (a0 := a0) (a1 := a1) rfl (Same.refl _ t)
  exact Kept.of_eq (Same.get (f := .inst) a rfl) (Same.get (f := .regs) a rfl) h

theorem sendBlock_kept {s t : State} {a0 : Nat} {a1 : Nat} {a2 : BlkRef}  (h : Kept D s t) : Kept D s (sendBlock a0 a1 a2 t) := by
  have a := sendBlock_same (F := (fun f => [Fld.wports].contains f)) (a0 := a0) (a1 := a1) (a2 := a2) rfl (Same.refl _ t)
  exact Kept.of_eq (Same.get (f := .inst) a rfl) (Same.get (f := .regs) a rfl) h

theorem fillEvent_kept {s t : State} {a0 : Nat}  (h : Kept D s t) : Kept D s (fillEvent a0 t) := by
  unfold fillEvent
  repeat' (first | with_reducible assumption | with_reducible refine raise_kept ?_ | with_reducible refine Kept.ite ?_ ?_ | (with_reducible show Kept D s _; first | exact ⟨h.inst, h.few, h.dyn, h.words⟩ | exact ⟨hx.inst, hx.few, hx.dyn, hx.words⟩))

theorem countFenced_kept {s t : State} {a0 : Nat}  (h : Kept D s t) : Kept D s (countFenced a0 t) := by
  have a := countFenced_same (F := (fun f => [Fld.key].contains f)) (a0 := a0) rfl (Same.refl _ t)
  exact Kept.of_eq (Same.get (f := .inst) a rfl) (Same.get (f := .regs) a rfl) h

theorem claimIdx_kept {s t : State} {a0 : Nat} {a1 : BitVec 32 → Slot}  (h : Kept D s t) : Kept D s (claimIdx a0 a1 t) := by
  unfold claimIdx
  dsimp only
  refine fillEvent_kept (updBob_kept ?_)
  split
  · exact bump_kept (dyn_bob a0 (a0 / 8)) (bob_off a0).1 (bob_off a0).2 (updBob_kept h)
  · exact h

theorem issueRun_kept {s t : State} {a0 : Nat} {a1 : Nat} {a2 : Nat}  (h : Kept D s t) : Kept D s (issueRun a0 a1 a2 t) := by
  unfold issueRun
  repeat' (first | with_reducible assumption | with_reducible refine bobBlock_kept ?_ | with_reducible refine claimIdx_kept ?_ | with_reducible refine updStrm_kept ?_ | with_reducible refine sendBlock_kept ?_ | with_reducible refine bump_kept (by first | with_reducible rfl | exact dyn_hub rfl | with_reducible exact dyn_hed _ rfl | with_reducible exact dyn_reed _ rfl | with_reducible exact dyn_lnk _ | with_reducible exact dyn_wit0 hn | with_reducible exact dyn_wit1 hn | with_reducible exact dyn_writer _ rfl rfl | with_reducible exact dyn_bob _ _ | with_reducible exact dyn_bob' _ _ | with_reducible exact dyn_compl _ | decide | (split <;> first | exact dyn_hub rfl | with_reducible exact dyn_hed _ rfl)) (by first | decide | with_reducible exact (bob_off _).1 | with_reducible exact (bob_off _).2 | with_reducible exact (compl_off _).1 | with_reducible exact (compl_off _).2 | (split <;> decide)) (by first | decide | with_reducible exact (bob_off _).1 | with_reducible exact (bob_off _).2 | with_reducible exact (compl_off _).1 | with_reducible exact (compl_off _).2 | (split <;> decide)) ?_ | with_reducible refine countFenced_kept ?_ | with_reducible refine Kept.ite ?_ ?_ | split | with_reducible refine Kept.set_exempt ?_ | (with_reducible show Kept D s _; first | exact ⟨h.inst, h.few, h.dyn, h.words⟩ | exact ⟨hx.inst, hx.few, hx.dyn, hx.words⟩))

theorem issueSlot_kept {s t : State} {a0 : Nat} {a1 : Nat} {a2 : Nat} {a3 : Slot}  (h : Kept D s t) : Kept D s (issueSlot a0 a1 a2 a3 t) := by
  unfold issueSlot
  repeat' (first | with_reducible assumption | with_reducible refine bobBlock_kept ?_ | with_reducible refine updBob_kept ?_ | with_reducible refine sendBlock_kept ?_ | with_reducible refine bump_kept (by first | with_reducible rfl | exact dyn_hub rfl | with_reducible exact dyn_hed _ rfl | with_reducible exact dyn_reed _ rfl | with_reducible exact dyn_lnk _ | with_reducible exact dyn_wit0 hn | with_reducible exact dyn_wit1 hn | with_reducible exact dyn_writer _ rfl rfl | with_reducible exact dyn_bob _ _ | with_reducible exact dyn_bob' _ _ | with_reducible exact dyn_compl _ | decide | (split <;> first | exact dyn_hub rfl | with_reducible exact dyn_hed _ rfl)) (by first | decide | with_reducible exact (bob_off _).1 | with_reducible exact (bob_off _).2 | with_reducible exact (compl_off _).1 | with_reducible exact (compl_off _).2 | (split <;> decide)) (by first | decide | with_reducible exact (bob_off _).1 | with_reducible exact (bob_off _).2 | with_reducible exact (compl_off _).1 | with_reducible exact (compl_off _).2 | (split <;> decide)) ?_ | with_reducible refine countFenced_kept ?_ | with_reducible refine Kept.ite ?_ ?_ | split | with_reducible refine Kept.set_exempt ?_ | (with_reducible show Kept D s _; first | exact ⟨h.inst, h.few, h.dyn, h.words⟩ | exact ⟨hx.inst, hx.few, hx.dyn, hx.words⟩))

theorem noteFull_kept {s t : State} {a0 : Nat}  (h : Kept D s t) : Kept D s (noteFull a0 t) := by
  unfold noteFull
  repeat' (first | with_reducible assumption | with_reducible refine bump_kept (by first | with_reducible rfl | exact dyn_hub rfl | with_reducible exact dyn_hed _ rfl | with_reducible exact dyn_reed _ rfl | with_reducible exact dyn_lnk _ | with_reducible exact dyn_wit0 hn | with_reducible exact dyn_wit1 hn | with_reducible exact dyn_writer _ rfl rfl | with_reducible exact dyn_bob _ _ | with_reducible exact dyn_bob' _ _ | with_reducible exact dyn_compl _ | decide | (split <;> first | exact dyn_hub rfl | with_reducible exact dyn_hed _ rfl)) (by first | decide | with_reducible exact (bob_off _).1 | with_reducible exact (bob_off _).2 | with_reducible exact (compl_off _).1 | with_reducible exact (compl_off _).2 | (split <;> decide)) (by first | decide | with_reducible exact (bob_off _).1 | with_reducible exact (bob_off _).2 | with_reducible exact (compl_off _).1 | with_reducible exact (compl_off _).2 | (split <;> decide)) ?_ | with_reducible refine updBob_kept ?_ | with_reducible refine Kept.ite ?_ ?_ | (with_reducible show Kept D s _; first | exact ⟨h.inst, h.few, h.dyn, h.words⟩ | exact ⟨hx.inst, hx.few, hx.dyn, hx.words⟩))

theorem issueFirst_kept {s t : State} {a0 : Nat} {a1 : Nat} {a2 : List Nat}  (h : Kept D s t) : Kept D s (issueFirst a0 a1 a2 t) := by
  induction a2 generalizing t with
  | nil => exact h
  | cons n l ih =>
    unfold issueFirst
    repeat' (first | with_reducible assumption | (with_reducible refine ih ?_) | with_reducible refine issueRun_kept ?_ | with_reducible refine noteFull_kept ?_ | with_reducible refine noteKind_kept ?_ | with_reducible refine Kept.ite ?_ ?_ | (with_reducible show Kept D s _; first | exact ⟨h.inst, h.few, h.dyn, h.words⟩ | exact ⟨hx.inst, hx.few, hx.dyn, hx.words⟩))

theorem issueNext_kept {s t : State} {a0 : Nat}  (h : Kept D s t) : Kept D s (issueNext a0 t) := by
  unfold issueNext
  repeat' (first | with_reducible assumption | with_reducible refine issueSlot_kept ?_ | with_reducible refine issueFirst_kept ?_ | dsimp only | with_reducible refine Kept.ite ?_ ?_ | split | (with_reducible show Kept D s _; first | exact ⟨h.inst, h.few, h.dyn, h.words⟩ | exact ⟨hx.inst, hx.few, hx.dyn, hx.words⟩))

theorem advanceHead_kept {s t : State} {a0 : Nat}  (h : Kept D s t) : Kept D s (advanceHead a0 t) := by
  have a := advanceHead_same (F := (fun f => [Fld.bobs].contains f)) (a0 := a0) rfl (Same.refl _ t)
  exact Kept.of_eq (Same.get (f := .inst) a rfl) (Same.get (f := .regs) a rfl) h

theorem faultBob_kept {s t : State} {a0 : Nat} {a1 : Nat}  (h : Kept D s t) : Kept D s (faultBob a0 a1 t) := by
  unfold faultBob
  repeat' (first | with_reducible assumption | with_reducible refine raise_kept ?_ | with_reducible refine setErr_kept ?_ | with_reducible refine bump_kept (by first | with_reducible rfl | exact dyn_hub rfl | with_reducible exact dyn_hed _ rfl | with_reducible exact dyn_reed _ rfl | with_reducible exact dyn_lnk _ | with_reducible exact dyn_wit0 hn | with_reducible exact dyn_wit1 hn | with_reducible exact dyn_writer _ rfl rfl | with_reducible exact dyn_bob _ _ | with_reducible exact dyn_bob' _ _ | with_reducible exact dyn_compl _ | decide | (split <;> first | exact dyn_hub rfl | with_reducible exact dyn_hed _ rfl)) (by first | decide | with_reducible exact (bob_off _).1 | with_reducible exact (bob_off _).2 | with_reducible exact (compl_off _).1 | with_reducible exact (compl_off _).2 | (split <;> decide)) (by first | decide | with_reducible exact (bob_off _).1 | with_reducible exact (bob_off _).2 | with_reducible exact (compl_off _).1 | with_reducible exact (compl_off _).2 | (split <;> decide)) ?_ | with_reducible refine updBob_kept ?_ | with_reducible refine Kept.ite ?_ ?_ | (with_reducible show Kept D s _; first | exact ⟨h.inst, h.few, h.dyn, h.words⟩ | exact ⟨hx.inst, hx.few, hx.dyn, hx.words⟩))

theorem requeue_kept {s t : State} {a0 : Nat}  (h : Kept D s t) : Kept D s (requeue a0 t) := by
  have a := requeue_same (F := (fun f => [Fld.strs].contains f)) (a0 := a0) rfl (Same.refl _ t)
  exact Kept.of_eq (Same.get (f := .inst) a rfl) (Same.get (f := .regs) a rfl) h

theorem commitTaken_kept {s t : State} {a0 : Nat}  (h : Kept D s t) : Kept D s (commitTaken a0 t) := by
  have a := commitTaken_same (F := (fun f => [Fld.strs].contains f)) (a0 := a0) rfl (Same.refl _ t)
  exact Kept.of_eq (Same.get (f := .inst) a rfl) (Same.get (f := .regs) a rfl) h

theorem completePast_kept {s t : State} {a0 : Nat} {a1 : Option Nat} {a2 : Bool}  (h : Kept D s t) : Kept D s (completePast a0 a1 a2 t) := by
  have a := completePast_same (F := (fun f => [Fld.strs, Fld.bobs].contains f)) (a0 := a0) (a1 := a1) (a2 := a2) rfl rfl (Same.refl _ t)
  exact Kept.of_eq (Same.get (f := .inst) a rfl) (Same.get (f := .regs) a rfl) h

theorem completeBob_kept {s t : State} {a0 : Nat} {a1 : Nat} {a2 : BitVec 32} {a3 : Bool}  (h : Kept D s t) : Kept D s (completeBob a0 a1 a2 a3 t) := by
  dsimp only [completeBob]
  repeat' (first | with_reducible assumption | with_reducible refine updBob_kept ?_ | with_reducible refine advanceHead_kept ?_ | with_reducible refine commitTaken_kept ?_ | with_reducible refine faultBob_kept ?_ | with_reducible refine Kept.ite ?_ ?_ | split | (with_reducible show Kept D s _; first | exact ⟨h.inst, h.few, h.dyn, h.words⟩ | exact ⟨hx.inst, hx.few, hx.dyn, hx.words⟩))

theorem releaseBob_kept {s t : State} {a0 : Nat}  (h : Kept D s t) : Kept D s (releaseBob a0 t) := by
  have a := releaseBob_same (F := (fun f => [Fld.strs, Fld.bobs].contains f)) (a0 := a0) rfl rfl (Same.refl _ t)
  exact Kept.of_eq (Same.get (f := .inst) a rfl) (Same.get (f := .regs) a rfl) h

theorem shadowAck_kept {s t : State} {a0 : Nat}  (h : Kept D s t) : Kept D s (shadowAck a0 t) := by
  have a := shadowAck_same (F := (fun f => [Fld.bobs].contains f)) (a0 := a0) rfl (Same.refl _ t)
  exact Kept.of_eq (Same.get (f := .inst) a rfl) (Same.get (f := .regs) a rfl) h

theorem closeBobs_kept {s t : State} {a0 : List Nat}  (h : Kept D s t) : Kept D s (closeBobs a0 t) := by
  have a := closeBobs_same (F := (fun f => [Fld.strs, Fld.closes].contains f)) (a0 := a0) rfl rfl (Same.refl _ t)
  exact Kept.of_eq (Same.get (f := .inst) a rfl) (Same.get (f := .regs) a rfl) h

theorem loseIds_kept {s t : State} {a0 : Nat}  (h : Kept D s t) : Kept D s (loseIds a0 t) := by
  unfold loseIds
  repeat' (first | with_reducible assumption | with_reducible refine setErr_kept ?_ | with_reducible refine bump_kept (by first | with_reducible rfl | exact dyn_hub rfl | with_reducible exact dyn_hed _ rfl | with_reducible exact dyn_reed _ rfl | with_reducible exact dyn_lnk _ | with_reducible exact dyn_wit0 hn | with_reducible exact dyn_wit1 hn | with_reducible exact dyn_writer _ rfl rfl | with_reducible exact dyn_bob _ _ | with_reducible exact dyn_bob' _ _ | with_reducible exact dyn_compl _ | decide | (split <;> first | exact dyn_hub rfl | with_reducible exact dyn_hed _ rfl)) (by first | decide | with_reducible exact (bob_off _).1 | with_reducible exact (bob_off _).2 | with_reducible exact (compl_off _).1 | with_reducible exact (compl_off _).2 | (split <;> decide)) (by first | decide | with_reducible exact (bob_off _).1 | with_reducible exact (bob_off _).2 | with_reducible exact (compl_off _).1 | with_reducible exact (compl_off _).2 | (split <;> decide)) ?_ | with_reducible refine Kept.ite ?_ ?_ | split | with_reducible refine Kept.set_heds ?_ | (with_reducible show Kept D s _; first | exact ⟨h.inst, h.few, h.dyn, h.words⟩ | exact ⟨hx.inst, hx.few, hx.dyn, hx.words⟩))

theorem enterServing_kept {s t : State} {a0 : Nat}  (h : Kept D s t) : Kept D s (enterServing a0 t) := by
  unfold enterServing
  repeat' (first | with_reducible assumption | with_reducible refine count_kept (by first | with_reducible rfl | exact dyn_hub rfl | with_reducible exact dyn_hed _ rfl | with_reducible exact dyn_reed _ rfl | with_reducible exact dyn_lnk _ | with_reducible exact dyn_wit0 hn | with_reducible exact dyn_wit1 hn | with_reducible exact dyn_writer _ rfl rfl | with_reducible exact dyn_bob _ _ | with_reducible exact dyn_bob' _ _ | with_reducible exact dyn_compl _ | decide | (split <;> first | exact dyn_hub rfl | with_reducible exact dyn_hed _ rfl)) (by first | decide | with_reducible exact (bob_off _).1 | with_reducible exact (bob_off _).2 | with_reducible exact (compl_off _).1 | with_reducible exact (compl_off _).2 | (split <;> decide)) (by first | decide | with_reducible exact (bob_off _).1 | with_reducible exact (bob_off _).2 | with_reducible exact (compl_off _).1 | with_reducible exact (compl_off _).2 | (split <;> decide)) ?_ | with_reducible refine raise_kept ?_ | with_reducible refine regSetFld_kept (by first | with_reducible rfl | exact dyn_hub rfl | with_reducible exact dyn_hed _ rfl | with_reducible exact dyn_reed _ rfl | with_reducible exact dyn_lnk _ | with_reducible exact dyn_wit0 hn | with_reducible exact dyn_wit1 hn | with_reducible exact dyn_writer _ rfl rfl | with_reducible exact dyn_bob _ _ | with_reducible exact dyn_bob' _ _ | with_reducible exact dyn_compl _ | decide | (split <;> first | exact dyn_hub rfl | with_reducible exact dyn_hed _ rfl)) (by first | decide | with_reducible exact (bob_off _).1 | with_reducible exact (bob_off _).2 | with_reducible exact (compl_off _).1 | with_reducible exact (compl_off _).2 | (split <;> decide)) (by first | decide | with_reducible exact (bob_off _).1 | with_reducible exact (bob_off _).2 | with_reducible exact (compl_off _).1 | with_reducible exact (compl_off _).2 | (split <;> decide)) ?_ | with_reducible refine Kept.ite ?_ ?_ | (with_reducible show Kept D s _; first | exact ⟨h.inst, h.few, h.dyn, h.words⟩ | exact ⟨hx.inst, hx.few, hx.dyn, hx.words⟩))

theorem dropReads_kept {s t : State} {a0 : ReadFor → Bool}  (h : Kept D s t) : Kept D s (dropReads a0 t) := by
  have a := dropReads_same (F := (fun f => [Fld.rport].contains f)) (a0 := a0) rfl (Same.refl _ t)
  exact Kept.of_eq (Same.get (f := .inst) a rfl) (Same.get (f := .regs) a rfl) h

theorem beginScan_kept {s t : State} {a0 : Nat} {a1 : Nat}  (h : Kept D s t) : Kept D s (beginScan a0 a1 t) := by
  have a := beginScan_same (F := (fun f => [Fld.bobs, Fld.adopts].contains f)) (a0 := a0) (a1 := a1) rfl rfl (Same.refl _ t)
  exact Kept.of_eq (Same.get (f := .inst) a rfl) (Same.get (f := .regs) a rfl) h

theorem dropAdoption_kept {s t : State} {a0 : Nat}  (h : Kept D s t) : Kept D s (dropAdoption a0 t) := by
  unfold dropAdoption
  repeat' (first | with_reducible assumption | with_reducible refine bump_kept (by first | with_reducible rfl | exact dyn_hub rfl | with_reducible exact dyn_hed _ rfl | with_reducible exact dyn_reed _ rfl | with_reducible exact dyn_lnk _ | with_reducible exact dyn_wit0 hn | with_reducible exact dyn_wit1 hn | with_reducible exact dyn_writer _ rfl rfl | with_reducible exact dyn_bob _ _ | with_reducible exact dyn_bob' _ _ | with_reducible exact dyn_compl _ | decide | (split <;> first | exact dyn_hub rfl | with_reducible exact dyn_hed _ rfl)) (by first | decide | with_reducible exact (bob_off _).1 | with_reducible exact (bob_off _).2 | with_reducible exact (compl_off _).1 | with_reducible exact (compl_off _).2 | (split <;> decide)) (by first | decide | with_reducible exact (bob_off _).1 | with_reducible exact (bob_off _).2 | with_reducible exact (compl_off _).1 | with_reducible exact (compl_off _).2 | (split <;> decide)) ?_ | with_reducible refine updBob_kept ?_ | with_reducible refine loseIds_kept ?_ | with_reducible refine setErr_kept ?_ | with_reducible refine updAdopt_kept ?_ | with_reducible refine dropReads_kept ?_ | with_reducible refine foldl_kept (fun _ _ _ => ?_) ?_ | with_reducible refine Kept.ite ?_ ?_ | (with_reducible show Kept D s _; first | exact ⟨h.inst, h.few, h.dyn, h.words⟩ | exact ⟨hx.inst, hx.few, hx.dyn, hx.words⟩))

theorem handOver_kept {s t : State} {a0 : Nat}  (h : Kept D s t) : Kept D s (handOver a0 t) := by
  have a := handOver_same (F := (fun f => [Fld.strs, Fld.closes].contains f)) (a0 := a0) rfl rfl (Same.refl _ t)
  exact Kept.of_eq (Same.get (f := .inst) a rfl) (Same.get (f := .regs) a rfl) h

theorem awaitPort_kept {s t : State} {a0 : Nat} {a1 : Nat}  (h : Kept D s t) : Kept D s (awaitPort a0 a1 t) := by
  have a := awaitPort_same (F := (fun f => [Fld.adopts].contains f)) (a0 := a0) (a1 := a1) rfl (Same.refl _ t)
  exact Kept.of_eq (Same.get (f := .inst) a rfl) (Same.get (f := .regs) a rfl) h

theorem startRehome_kept {s t : State} {a0 : Nat} {a1 : Bool}  (h : Kept D s t) : Kept D s (startRehome a0 a1 t) := by
  unfold startRehome
  repeat' (first | with_reducible assumption | with_reducible refine updAdopt_kept ?_ | with_reducible refine setErr_kept ?_ | with_reducible refine updBob_kept ?_ | with_reducible refine enterServing_kept ?_ | with_reducible refine handOver_kept ?_ | with_reducible refine awaitPort_kept ?_ | with_reducible refine foldl_kept (fun _ _ _ => ?_) ?_ | dsimp only | with_reducible refine Kept.ite ?_ ?_ | split | (with_reducible show Kept D s _; first | exact ⟨h.inst, h.few, h.dyn, h.words⟩ | exact ⟨hx.inst, hx.few, hx.dyn, hx.words⟩))

theorem portIdle_kept {s t : State} {a0 : Nat}  (h : Kept D s t) : Kept D s (portIdle a0 t) := by
  unfold portIdle
  repeat' (first | with_reducible assumption | with_reducible refine updPort_kept ?_ | with_reducible refine completeBob_kept ?_ | with_reducible refine completePast_kept ?_ | with_reducible refine updAdopt_kept ?_ | with_reducible refine beginScan_kept ?_ | with_reducible refine foldl_kept (fun _ _ _ => ?_) ?_ | with_reducible refine Kept.ite ?_ ?_ | split | (with_reducible show Kept D s _; first | exact ⟨h.inst, h.few, h.dyn, h.words⟩ | exact ⟨hx.inst, hx.few, hx.dyn, hx.words⟩))

theorem scanRead_kept {s t : State} {a0 : Nat} {a1 : Nat} {a2 : Nat} {a3 : Nat} {a4 : Option Block}  (h : Kept D s t) : Kept D s (scanRead a0 a1 a2 a3 a4 t) := by
  unfold scanRead
  repeat' (first | with_reducible assumption | with_reducible refine updAdopt_kept ?_ | with_reducible refine faultBob_kept ?_ | with_reducible refine setErr_kept ?_ | with_reducible refine dropReads_kept ?_ | with_reducible refine Kept.ite ?_ ?_ | split | (with_reducible show Kept D s _; first | exact ⟨h.inst, h.few, h.dyn, h.words⟩ | exact ⟨hx.inst, hx.few, hx.dyn, hx.words⟩))

theorem rebuildSlot_kept {s t : State} {a0 : List Nat} {a1 : Nat} {a2 : Scanned}  (h : Kept D s t) : Kept D s (rebuildSlot a0 a1 a2 t) := by
  have a := rebuildSlot_same (F := (fun f => [Fld.bobs].contains f)) (a0 := a0) (a1 := a1) (a2 := a2) rfl (Same.refl _ t)
  exact Kept.of_eq (Same.get (f := .inst) a rfl) (Same.get (f := .regs) a rfl) h

theorem rebuildBob_kept {s t : State} {a0 : Nat} {a1 : List Nat} {a2 : Nat}  (h : Kept D s t) : Kept D s (rebuildBob a0 a1 a2 t) := by
  have a := rebuildBob_same (F := (fun f => [Fld.bobs].contains f)) (a0 := a0) (a1 := a1) (a2 := a2) rfl (Same.refl _ t)
  exact Kept.of_eq (Same.get (f := .inst) a rfl) (Same.get (f := .regs) a rfl) h

theorem beginReturn_kept {s t : State} {a0 : Nat}  (h : Kept D s t) : Kept D s (beginReturn a0 t) := by
  have a := beginReturn_same (F := (fun f => [Fld.strs, Fld.closes, Fld.adopts].contains f)) (a0 := a0) rfl rfl rfl (Same.refl _ t)
  exact Kept.of_eq (Same.get (f := .inst) a rfl) (Same.get (f := .regs) a rfl) h

theorem scanDone_kept {s t : State} {a0 : Nat}  (h : Kept D s t) : Kept D s (scanDone a0 t) := by
  unfold scanDone
  repeat' (first | with_reducible assumption | with_reducible refine rebuildBob_kept ?_ | with_reducible refine updAdopt_kept ?_ | with_reducible refine beginReturn_kept ?_ | with_reducible refine enterServing_kept ?_ | with_reducible refine foldl_kept (fun _ _ _ => ?_) ?_ | with_reducible refine Kept.ite ?_ ?_ | (with_reducible show Kept D s _; first | exact ⟨h.inst, h.few, h.dyn, h.words⟩ | exact ⟨hx.inst, hx.few, hx.dyn, hx.words⟩))

theorem releaseRebuilt_kept {s t : State} {a0 : Nat} {a1 : Nat}  (h : Kept D s t) : Kept D s (releaseRebuilt a0 a1 t) := by
  have a := releaseRebuilt_same (F := (fun f => [Fld.bobs].contains f)) (a0 := a0) (a1 := a1) rfl (Same.refl _ t)
  exact Kept.of_eq (Same.get (f := .inst) a rfl) (Same.get (f := .regs) a rfl) h

theorem runReport_kept {s t : State} {a0 : Nat} {a1 : Nat}  (h : Kept D s t) : Kept D s (runReport a0 a1 t) := by
  unfold runReport
  repeat' (first | with_reducible assumption | with_reducible refine updStrm_kept ?_ | with_reducible refine updAdopt_kept ?_ | with_reducible refine reformRuns_kept ?_ | with_reducible refine releaseRebuilt_kept ?_ | with_reducible refine bump_kept (by first | with_reducible rfl | exact dyn_hub rfl | with_reducible exact dyn_hed _ rfl | with_reducible exact dyn_reed _ rfl | with_reducible exact dyn_lnk _ | with_reducible exact dyn_wit0 hn | with_reducible exact dyn_wit1 hn | with_reducible exact dyn_writer _ rfl rfl | with_reducible exact dyn_bob _ _ | with_reducible exact dyn_bob' _ _ | with_reducible exact dyn_compl _ | decide | (split <;> first | exact dyn_hub rfl | with_reducible exact dyn_hed _ rfl)) (by first | decide | with_reducible exact (bob_off _).1 | with_reducible exact (bob_off _).2 | with_reducible exact (compl_off _).1 | with_reducible exact (compl_off _).2 | (split <;> decide)) (by first | decide | with_reducible exact (bob_off _).1 | with_reducible exact (bob_off _).2 | with_reducible exact (compl_off _).1 | with_reducible exact (compl_off _).2 | (split <;> decide)) ?_ | with_reducible refine foldl_kept (fun _ _ _ => ?_) ?_ | with_reducible refine Kept.ite ?_ ?_ | split | (with_reducible show Kept D s _; first | exact ⟨h.inst, h.few, h.dyn, h.words⟩ | exact ⟨hx.inst, hx.few, hx.dyn, hx.words⟩))

theorem handBack_kept {s t : State} {a0 : Nat}  (h : Kept D s t) : Kept D s (handBack a0 t) := by
  unfold handBack
  repeat' (first | with_reducible assumption | with_reducible refine raise_kept ?_ | with_reducible refine handOver_kept ?_ | with_reducible refine updBob_kept ?_ | with_reducible refine updAdopt_kept ?_ | with_reducible refine foldl_kept (fun _ _ _ => ?_) ?_ | with_reducible refine Kept.ite ?_ ?_ | (with_reducible show Kept D s _; first | exact ⟨h.inst, h.few, h.dyn, h.words⟩ | exact ⟨hx.inst, hx.few, hx.dyn, hx.words⟩))

theorem beginDrain_kept {s t : State} {a0 : Nat}  (h : Kept D s t) : Kept D s (beginDrain a0 t) := by
  have a := beginDrain_same (F := (fun f => [Fld.strs, Fld.closes, Fld.wports].contains f)) (a0 := a0) rfl rfl rfl (Same.refl _ t)
  exact Kept.of_eq (Same.get (f := .inst) a rfl) (Same.get (f := .regs) a rfl) h

theorem restartRing_kept {s t : State} {a0 : Nat}  (h : Kept D s t) : Kept D s (restartRing a0 t) := by
  have a := restartRing_same (F := (fun f => [Fld.strs, Fld.bobs, Fld.wports].contains f)) (a0 := a0) rfl rfl rfl (Same.refl _ t)
  exact Kept.of_eq (Same.get (f := .inst) a rfl) (Same.get (f := .regs) a rfl) h

theorem bobEnable_kept {s t : State} {a0 : Nat}  (h : Kept D s t) : KeptO D s (bobEnable a0 t) := by
  unfold bobEnable
  repeat' (first | with_reducible assumption | with_reducible refine updBob_kept ?_ | with_reducible refine beginScan_kept ?_ | with_reducible refine restartRing_kept ?_ | with_reducible refine noteKind_kept ?_ | with_reducible refine takeHead_kept ?_ | with_reducible exact KeptO.none | with_reducible refine KeptO.some ?_ | with_reducible refine foldl_kept (fun _ _ _ => ?_) ?_ | with_reducible refine KeptO.ite ?_ ?_ | split | (with_reducible show Kept D s _; first | exact ⟨h.inst, h.few, h.dyn, h.words⟩ | exact ⟨hx.inst, hx.few, hx.dyn, hx.words⟩))

theorem bobDisable_kept {s t : State} {a0 : Nat}  (h : Kept D s t) : KeptO D s (bobDisable a0 t) := by
  intro u e
  have a := bobDisable_same (F := (fun f => [Fld.bobs].contains f)) (a0 := a0) rfl (Same.refl _ t) u e
  exact Kept.of_eq (Same.get (f := .inst) a rfl) (Same.get (f := .regs) a rfl) h

theorem flush_kept {s t : State} {a0 : Nat}  (h : Kept D s t) : Kept D s (flush a0 t) := by
  have a := flush_same (F := (fun f => [Fld.strs, Fld.closes].contains f)) (a0 := a0) rfl rfl (Same.refl _ t)
  exact Kept.of_eq (Same.get (f := .inst) a rfl) (Same.get (f := .regs) a rfl) h

theorem tailWrite_kept {s t : State} {a0 : Nat} {a1 : Word}  (h : Kept D s t) : KeptO D s (tailWrite a0 a1 t) := by
  intro u e
  have a := tailWrite_same (F := (fun f => [Fld.bobs].contains f)) (a0 := a0) (a1 := a1) rfl (Same.refl _ t) u e
  exact Kept.of_eq (Same.get (f := .inst) a rfl) (Same.get (f := .regs) a rfl) h

theorem fenceCount_kept {s t : State} {a0 : Nat} {a1 : Nat}  (h : Kept D s t) : Kept D s (fenceCount a0 a1 t) := by
  have a := fenceCount_same (F := (fun f => [Fld.key].contains f)) (a0 := a0) (a1 := a1) rfl (Same.refl _ t)
  exact Kept.of_eq (Same.get (f := .inst) a rfl) (Same.get (f := .regs) a rfl) h

theorem retain_kept {s t : State} {a0 : Nat} {a1 : Pick}  (h : Kept D s t) : Kept D s (retain a0 a1 t).2 := by
  unfold retain
  repeat' (first | with_reducible assumption | with_reducible refine acceptRec_kept ?_ | split | with_reducible refine Kept.set_exempt ?_ | with_reducible refine Kept.set_refused ?_ | (with_reducible show Kept D s _; first | exact ⟨h.inst, h.few, h.dyn, h.words⟩ | exact ⟨hx.inst, hx.few, hx.dyn, hx.words⟩))

theorem retain_kept_eq {s t : State} {a0 : Nat} {a1 : Pick}  {x} {u : State} (e : retain a0 a1 t = (x, u)) (h : Kept D s t) : Kept D s u := by
  have := retain_kept (s := s) (t := t) (a0 := a0) (a1 := a1) h
  rw [e] at this; exact this

theorem emitExempt_kept {s t : State} {a0 : Nat} {a1 : Pick}  (h : Kept D s t) : Kept D s (emitExempt a0 a1 t).2 := by
  unfold emitExempt
  repeat' (first | with_reducible assumption | with_reducible refine fenceCount_kept ?_ | with_reducible refine retain_kept ?_ | dsimp only | with_reducible refine Kept.ite ?_ ?_ | split | (with_reducible show Kept D s _; first | exact ⟨h.inst, h.few, h.dyn, h.words⟩ | exact ⟨hx.inst, hx.few, hx.dyn, hx.words⟩))

theorem emitExempt_kept_eq {s t : State} {a0 : Nat} {a1 : Pick}  {x} {u : State} (e : emitExempt a0 a1 t = (x, u)) (h : Kept D s t) : Kept D s u := by
  have := emitExempt_kept (s := s) (t := t) (a0 := a0) (a1 := a1) h
  rw [e] at this; exact this

theorem emitHub_kept {s t : State} {a0 : Pick}  (h : Kept D s t) : Kept D s (emitHub a0 t) := by
  unfold emitHub
  repeat' (first | with_reducible assumption | with_reducible refine emitExempt_kept ?_ | dsimp only | with_reducible refine Kept.ite ?_ ?_ | (with_reducible show Kept D s _; first | exact ⟨h.inst, h.few, h.dyn, h.words⟩ | exact ⟨hx.inst, hx.few, hx.dyn, hx.words⟩))

theorem updHedGov_kept {s t : State} {a0 : Nat} {a1 : HedGov → HedGov}  (h : Kept D s t) : Kept D s (updHedGov a0 a1 t) := by
  have a := updHedGov_same (F := (fun f => [Fld.hedGovs].contains f)) (a0 := a0) (a1 := a1) rfl (Same.refl _ t)
  exact Kept.of_eq (Same.get (f := .inst) a rfl) (Same.get (f := .regs) a rfl) h

theorem updReedGov_kept {s t : State} {a0 : Nat} {a1 : ReedGov → ReedGov}  (h : Kept D s t) : Kept D s (updReedGov a0 a1 t) := by
  have a := updReedGov_same (F := (fun f => [Fld.reedGovs].contains f)) (a0 := a0) (a1 := a1) rfl (Same.refl _ t)
  exact Kept.of_eq (Same.get (f := .inst) a rfl) (Same.get (f := .regs) a rfl) h

theorem putQuota_kept {s t : State} {a0 : Nat} {a1 : Bt} {a2 : Quota}  (h : Kept D s t) : Kept D s (putQuota a0 a1 a2 t) := by
  have a := putQuota_same (F := (fun f => [Fld.hedGovs].contains f)) (a0 := a0) (a1 := a1) (a2 := a2) rfl (Same.refl _ t)
  exact Kept.of_eq (Same.get (f := .inst) a rfl) (Same.get (f := .regs) a rfl) h

theorem countDemand_kept {s t : State} {a0 : Nat} {a1 : Nat} {a2 : Bool} {a3 : Bt}  (h : Kept D s t) : Kept D s (countDemand a0 a1 a2 a3 t) := by
  have a := countDemand_same (F := (fun f => [Fld.hedGovs].contains f)) (a0 := a0) (a1 := a1) (a2 := a2) (a3 := a3) rfl (Same.refl _ t)
  exact Kept.of_eq (Same.get (f := .inst) a rfl) (Same.get (f := .regs) a rfl) h

theorem refuseGov_kept {s t : State} {a0 : Nat} {a1 : Nat} {a2 : Nat} {a3 : Bool}  (h : Kept D s t) : Kept D s (refuseGov a0 a1 a2 a3 t) := by
  unfold refuseGov
  repeat' (first | with_reducible assumption | with_reducible refine updHedGov_kept ?_ | with_reducible refine bump_kept (by first | with_reducible rfl | exact dyn_hub rfl | with_reducible exact dyn_hed _ rfl | with_reducible exact dyn_reed _ rfl | with_reducible exact dyn_lnk _ | with_reducible exact dyn_wit0 hn | with_reducible exact dyn_wit1 hn | with_reducible exact dyn_writer _ rfl rfl | with_reducible exact dyn_bob _ _ | with_reducible exact dyn_bob' _ _ | with_reducible exact dyn_compl _ | decide | (split <;> first | exact dyn_hub rfl | with_reducible exact dyn_hed _ rfl)) (by first | decide | with_reducible exact (bob_off _).1 | with_reducible exact (bob_off _).2 | with_reducible exact (compl_off _).1 | with_reducible exact (compl_off _).2 | (split <;> decide)) (by first | decide | with_reducible exact (bob_off _).1 | with_reducible exact (bob_off _).2 | with_reducible exact (compl_off _).1 | with_reducible exact (compl_off _).2 | (split <;> decide)) ?_ | with_reducible refine updReedGov_kept ?_ | with_reducible refine raise_kept ?_ | with_reducible refine Kept.ite ?_ ?_ | (with_reducible show Kept D s _; first | exact ⟨h.inst, h.few, h.dyn, h.words⟩ | exact ⟨hx.inst, hx.few, hx.dyn, hx.words⟩))

theorem offerHed_kept {s t : State} {a0 : Nat} {a1 : Nat} {a2 : Cls} {a3 : Bt} {a4 : List Pick}  (h : Kept D s t) : Kept D s (offerHed a0 a1 a2 a3 a4 t).2 := by
  unfold offerHed
  repeat' (first | with_reducible assumption | with_reducible refine fenceCount_kept ?_ | with_reducible refine bump_kept (by first | with_reducible rfl | exact dyn_hub rfl | with_reducible exact dyn_hed _ rfl | with_reducible exact dyn_reed _ rfl | with_reducible exact dyn_lnk _ | with_reducible exact dyn_wit0 hn | with_reducible exact dyn_wit1 hn | with_reducible exact dyn_writer _ rfl rfl | with_reducible exact dyn_bob _ _ | with_reducible exact dyn_bob' _ _ | with_reducible exact dyn_compl _ | decide | (split <;> first | exact dyn_hub rfl | with_reducible exact dyn_hed _ rfl)) (by first | decide | with_reducible exact (bob_off _).1 | with_reducible exact (bob_off _).2 | with_reducible exact (compl_off _).1 | with_reducible exact (compl_off _).2 | (split <;> decide)) (by first | decide | with_reducible exact (bob_off _).1 | with_reducible exact (bob_off _).2 | with_reducible exact (compl_off _).1 | with_reducible exact (compl_off _).2 | (split <;> decide)) ?_ | with_reducible refine countDemand_kept ?_ | with_reducible refine refuseGov_kept ?_ | with_reducible refine updReedGov_kept ?_ | with_reducible refine putQuota_kept ?_ | with_reducible refine acceptRec_kept ?_ | with_reducible refine foldl_kept (fun _ _ _ => ?_) ?_ | dsimp only | with_reducible refine Kept.ite ?_ ?_ | split | with_reducible refine Kept.set_exempt ?_ | (with_reducible show Kept D s _; first | exact ⟨h.inst, h.few, h.dyn, h.words⟩ | exact ⟨hx.inst, hx.few, hx.dyn, hx.words⟩))

theorem offerHed_kept_eq {s t : State} {a0 : Nat} {a1 : Nat} {a2 : Cls} {a3 : Bt} {a4 : List Pick}  {x} {u : State} (e : offerHed a0 a1 a2 a3 a4 t = (x, u)) (h : Kept D s t) : Kept D s u := by
  have := offerHed_kept (s := s) (t := t) (a0 := a0) (a1 := a1) (a2 := a2) (a3 := a3) (a4 := a4) h
  rw [e] at this; exact this

theorem updHed_kept {s t : State} {a0 : Nat} {a1 : HedTrace → HedTrace}  (h : Kept D s t) : Kept D s (updHed a0 a1 t) := by
  have a := updHed_same (F := (fun f => [Fld.heds].contains f)) (a0 := a0) (a1 := a1) rfl (Same.refl _ t)
  exact Kept.of_eq (Same.get (f := .inst) a rfl) (Same.get (f := .regs) a rfl) h

theorem updHedC_kept {s t : State} {a0 : Nat} {a1 : HedCount → HedCount}  (h : Kept D s t) : Kept D s (updHedC a0 a1 t) := by
  have a := updHedC_same (F := (fun f => [Fld.counts].contains f)) (a0 := a0) (a1 := a1) rfl (Same.refl _ t)
  exact Kept.of_eq (Same.get (f := .inst) a rfl) (Same.get (f := .regs) a rfl) h

theorem hold_kept {s t : State} {a0 : Nat} {a1 : Held}  (h : Kept D s t) : Kept D s (hold a0 a1 t) := by
  have a := hold_same (F := (fun f => [Fld.heds].contains f)) (a0 := a0) (a1 := a1) rfl (Same.refl _ t)
  exact Kept.of_eq (Same.get (f := .inst) a rfl) (Same.get (f := .regs) a rfl) h

theorem throttle_kept {s t : State} {a0 : Nat} {a1 : Nat}  (h : Kept D s t) : Kept D s (throttle a0 a1 t) := by
  have a := throttle_same (F := (fun f => [Fld.heds].contains f)) (a0 := a0) (a1 := a1) rfl (Same.refl _ t)
  exact Kept.of_eq (Same.get (f := .inst) a rfl) (Same.get (f := .regs) a rfl) h

theorem refusalSummary_kept {s t : State} {a0 : Nat}  (h : Kept D s t) : Kept D s (refusalSummary a0 t) := by
  unfold refusalSummary
  repeat' (first | with_reducible assumption | with_reducible refine emitExempt_kept ?_ | dsimp only | with_reducible refine Kept.ite ?_ ?_ | (with_reducible show Kept D s _; first | exact ⟨h.inst, h.few, h.dyn, h.words⟩ | exact ⟨hx.inst, hx.few, hx.dyn, hx.words⟩))

theorem windowStart_kept {s t : State}   (h : Kept D s t) : Kept D s (windowStart t) := by
  unfold windowStart
  extract_lets w next s1 s2 hs d2 rs p2 u2 budget allow qp left1 scanD qs qu hp hu cap g0 s3 en qm qo s4 s5 s6 g s7
  have h1 : Kept D s s1 := foldl_kept (fun _ _ h => foldl_kept (fun _ _ h => throttle_kept h) h) h
  have h2 : Kept D s s2 := foldl_kept (fun _ _ h => Kept.ite (refusalSummary_kept h) h) h1
  have h3 : Kept D s s3 := Kept.set_gov h2
  have h4 : Kept D s s4 := foldl_kept (fun _ _ h => updHedGov_kept h) h3
  have h5 : Kept D s s5 := foldl_kept (fun _ _ h => updReedGov_kept h) h4
  have h6 : Kept D s s6 := updReedGov_kept h5
  have h7 : Kept D s s7 := Kept.set_gov (t := { s6 with exempt := s6.exempt - t.exempt }) (Kept.set_exempt h6)
  exact Kept.ite (raise_kept (bump_kept (dyn_hub rfl) (by decide) (by decide) h7)) h7

theorem captureLost_kept {s t : State} {a0 : Nat} {a1 : Nat}  (h : Kept D s t) : Kept D s (captureLost a0 a1 t) := by
  unfold captureLost
  repeat' (first | with_reducible assumption | with_reducible refine setPortErr_kept ?_ | with_reducible refine bump_kept (by first | with_reducible rfl | exact dyn_hub rfl | with_reducible exact dyn_hed _ rfl | with_reducible exact dyn_reed _ rfl | with_reducible exact dyn_lnk _ | with_reducible exact dyn_wit0 hn | with_reducible exact dyn_wit1 hn | with_reducible exact dyn_writer _ rfl rfl | with_reducible exact dyn_bob _ _ | with_reducible exact dyn_bob' _ _ | with_reducible exact dyn_compl _ | decide | (split <;> first | exact dyn_hub rfl | with_reducible exact dyn_hed _ rfl)) (by first | decide | with_reducible exact (bob_off _).1 | with_reducible exact (bob_off _).2 | with_reducible exact (compl_off _).1 | with_reducible exact (compl_off _).2 | (split <;> decide)) (by first | decide | with_reducible exact (bob_off _).1 | with_reducible exact (bob_off _).2 | with_reducible exact (compl_off _).1 | with_reducible exact (compl_off _).2 | (split <;> decide)) ?_ | with_reducible refine Kept.ite ?_ ?_ | (with_reducible show Kept D s _; first | exact ⟨h.inst, h.few, h.dyn, h.words⟩ | exact ⟨hx.inst, hx.few, hx.dyn, hx.words⟩))

theorem applyCard_kept {s t : State} {a0 : Nat} {a1 : Nat} {a2 : Nat} {a3 : Bt}  (h : Kept D s t) : Kept D s (applyCard a0 a1 a2 a3 t) := by
  unfold applyCard
  repeat' (first | with_reducible assumption | with_reducible refine updHedC_kept ?_ | with_reducible refine updHed_kept ?_ | with_reducible refine setErr_kept ?_ | with_reducible refine Kept.ite ?_ ?_ | (with_reducible show Kept D s _; first | exact ⟨h.inst, h.few, h.dyn, h.words⟩ | exact ⟨hx.inst, hx.few, hx.dyn, hx.words⟩))

theorem cardMapByte_kept {s t : State} {a0 : Nat} {a1 : Nat} {a2 : Nat}  (h : Kept D s t) : Kept D s (cardMapByte a0 a1 a2 t) := by
  unfold cardMapByte
  repeat' (first | with_reducible assumption | with_reducible refine updHedC_kept ?_ | with_reducible refine applyCard_kept ?_ | with_reducible refine Kept.ite ?_ ?_ | (with_reducible show Kept D s _; first | exact ⟨h.inst, h.few, h.dyn, h.words⟩ | exact ⟨hx.inst, hx.few, hx.dyn, hx.words⟩))

theorem cardMapWrite_kept {s t : State} {a0 : Nat} {a1 : Bool} {a2 : Word}  (h : Kept D s t) : Kept D s (cardMapWrite a0 a1 a2 t) := by
  unfold cardMapWrite
  repeat' (first | with_reducible assumption | with_reducible refine cardMapByte_kept ?_ | with_reducible refine foldl_kept (fun _ _ _ => ?_) ?_ | with_reducible refine Kept.ite ?_ ?_ | (with_reducible show Kept D s _; first | exact ⟨h.inst, h.few, h.dyn, h.words⟩ | exact ⟨hx.inst, hx.few, hx.dyn, hx.words⟩))

theorem openGap_kept {s t : State} {a0 : Nat} {a1 : Nat} {a2 : Bt} {a3 : Bool}  (h : Kept D s t) : Kept D s (openGap a0 a1 a2 a3 t) := by
  have a := openGap_same (F := (fun f => [Fld.heds].contains f)) (a0 := a0) (a1 := a1) (a2 := a2) (a3 := a3) rfl (Same.refl _ t)
  exact Kept.of_eq (Same.get (f := .inst) a rfl) (Same.get (f := .regs) a rfl) h

theorem dropGap_kept {s t : State} {a0 : Nat} {a1 : Nat}  (h : Kept D s t) : Kept D s (dropGap a0 a1 t) := by
  have a := dropGap_same (F := (fun f => [Fld.heds].contains f)) (a0 := a0) (a1 := a1) rfl (Same.refl _ t)
  exact Kept.of_eq (Same.get (f := .inst) a rfl) (Same.get (f := .regs) a rfl) h

theorem closeGap_kept {s t : State} {a0 : Nat} {a1 : Nat} {a2 : Bt} {a3 : Nat}  (h : Kept D s t) : Kept D s (closeGap a0 a1 a2 a3 t) := by
  have a := closeGap_same (F := (fun f => [Fld.heds].contains f)) (a0 := a0) (a1 := a1) (a2 := a2) (a3 := a3) rfl (Same.refl _ t)
  exact Kept.of_eq (Same.get (f := .inst) a rfl) (Same.get (f := .regs) a rfl) h

theorem addEdges_kept {s t : State} {a0 : Nat} {a1 : Nat}  (h : Kept D s t) : Kept D s (addEdges a0 a1 t) := by
  have a := addEdges_same (F := (fun f => [Fld.heds].contains f)) (a0 := a0) (a1 := a1) rfl (Same.refl _ t)
  exact Kept.of_eq (Same.get (f := .inst) a rfl) (Same.get (f := .regs) a rfl) h

theorem clockState_kept {s t : State} {a0 : Nat} {a1 : BitVec 2} {a2 : Tdc}  (h : Kept D s t) : Kept D s (clockState a0 a1 a2 t) := by
  unfold clockState
  repeat' (first | with_reducible assumption | with_reducible refine setPortErr_kept ?_ | with_reducible refine updHed_kept ?_ | with_reducible refine closeGap_kept ?_ | with_reducible refine openGap_kept ?_ | with_reducible refine Kept.ite ?_ ?_ | (with_reducible show Kept D s _; first | exact ⟨h.inst, h.few, h.dyn, h.words⟩ | exact ⟨hx.inst, hx.few, hx.dyn, hx.words⟩))

theorem gapLimit_kept {s t : State} {a0 : Nat}  (h : Kept D s t) : Kept D s (gapLimit a0 t) := by
  have a := gapLimit_same (F := (fun f => [Fld.heds].contains f)) (a0 := a0) rfl (Same.refl _ t)
  exact Kept.of_eq (Same.get (f := .inst) a rfl) (Same.get (f := .regs) a rfl) h

theorem holdBegin_kept {s t : State} {a0 : Nat} {a1 : Nat} {a2 : Ent} {a3 : Bt}  (h : Kept D s t) : Kept D s (holdBegin a0 a1 a2 a3 t) := by
  have a := holdBegin_same (F := (fun f => [Fld.heds].contains f)) (a0 := a0) (a1 := a1) (a2 := a2) (a3 := a3) rfl (Same.refl _ t)
  exact Kept.of_eq (Same.get (f := .inst) a rfl) (Same.get (f := .regs) a rfl) h

theorem dropGaps_kept {s t : State} {a0 : Nat}  (h : Kept D s t) : Kept D s (dropGaps a0 t) := by
  have a := dropGaps_same (F := (fun f => [Fld.heds].contains f)) (a0 := a0) rfl (Same.refl _ t)
  exact Kept.of_eq (Same.get (f := .inst) a rfl) (Same.get (f := .regs) a rfl) h

theorem freeEnt_kept {s t : State} {a0 : Nat} {a1 : Ent}  (h : Kept D s t) : Kept D s (freeEnt a0 a1 t) := by
  have a := freeEnt_same (F := (fun f => [Fld.heds].contains f)) (a0 := a0) (a1 := a1) rfl (Same.refl _ t)
  exact Kept.of_eq (Same.get (f := .inst) a rfl) (Same.get (f := .regs) a rfl) h

theorem updEnt_kept {s t : State} {a0 : Nat} {a1 : Ent} {a2 : Ent → Ent}  (h : Kept D s t) : Kept D s (updEnt a0 a1 a2 t) := by
  have a := updEnt_same (F := (fun f => [Fld.heds].contains f)) (a0 := a0) (a1 := a1) (a2 := a2) rfl (Same.refl _ t)
  exact Kept.of_eq (Same.get (f := .inst) a rfl) (Same.get (f := .regs) a rfl) h

theorem highWater_kept {s t : State} {a0 : Nat}  (h : Kept D s t) : Kept D s (highWater a0 t) := by
  unfold highWater
  repeat' (first | with_reducible assumption | with_reducible refine regSetFld_kept (by first | with_reducible rfl | exact dyn_hub rfl | with_reducible exact dyn_hed _ rfl | with_reducible exact dyn_reed _ rfl | with_reducible exact dyn_lnk _ | with_reducible exact dyn_wit0 hn | with_reducible exact dyn_wit1 hn | with_reducible exact dyn_writer _ rfl rfl | with_reducible exact dyn_bob _ _ | with_reducible exact dyn_bob' _ _ | with_reducible exact dyn_compl _ | decide | (split <;> first | exact dyn_hub rfl | with_reducible exact dyn_hed _ rfl)) (by first | decide | with_reducible exact (bob_off _).1 | with_reducible exact (bob_off _).2 | with_reducible exact (compl_off _).1 | with_reducible exact (compl_off _).2 | (split <;> decide)) (by first | decide | with_reducible exact (bob_off _).1 | with_reducible exact (bob_off _).2 | with_reducible exact (compl_off _).1 | with_reducible exact (compl_off _).2 | (split <;> decide)) ?_ | with_reducible refine Kept.ite ?_ ?_ | (with_reducible show Kept D s _; first | exact ⟨h.inst, h.few, h.dyn, h.words⟩ | exact ⟨hx.inst, hx.few, hx.dyn, hx.words⟩))

theorem openCommand_kept {s t : State} {a0 : Nat} {a1 : Issue} {a2 : Nat} {a3 : Bt} {a4 : Bool}  (h : Kept D s t) : Kept D s (openCommand a0 a1 a2 a3 a4 t) := by
  unfold openCommand
  repeat' (first | with_reducible assumption | with_reducible refine highWater_kept ?_ | with_reducible refine updHed_kept ?_ | with_reducible refine setErr_kept ?_ | with_reducible refine bump_kept (by first | with_reducible rfl | exact dyn_hub rfl | with_reducible exact dyn_hed _ rfl | with_reducible exact dyn_reed _ rfl | with_reducible exact dyn_lnk _ | with_reducible exact dyn_wit0 hn | with_reducible exact dyn_wit1 hn | with_reducible exact dyn_writer _ rfl rfl | with_reducible exact dyn_bob _ _ | with_reducible exact dyn_bob' _ _ | with_reducible exact dyn_compl _ | decide | (split <;> first | exact dyn_hub rfl | with_reducible exact dyn_hed _ rfl)) (by first | decide | with_reducible exact (bob_off _).1 | with_reducible exact (bob_off _).2 | with_reducible exact (compl_off _).1 | with_reducible exact (compl_off _).2 | (split <;> decide)) (by first | decide | with_reducible exact (bob_off _).1 | with_reducible exact (bob_off _).2 | with_reducible exact (compl_off _).1 | with_reducible exact (compl_off _).2 | (split <;> decide)) ?_ | with_reducible refine holdBegin_kept ?_ | with_reducible refine Kept.ite ?_ ?_ | split | (with_reducible show Kept D s _; first | exact ⟨h.inst, h.few, h.dyn, h.words⟩ | exact ⟨hx.inst, hx.few, hx.dyn, hx.words⟩))

theorem tagReused_kept {s t : State} {a0 : Nat} {a1 : Ent} {a2 : Bt}  (h : Kept D s t) : Kept D s (tagReused a0 a1 a2 t) := by
  unfold tagReused
  repeat' (first | with_reducible assumption | with_reducible refine setErr_kept ?_ | with_reducible refine bump_kept (by first | with_reducible rfl | exact dyn_hub rfl | with_reducible exact dyn_hed _ rfl | with_reducible exact dyn_reed _ rfl | with_reducible exact dyn_lnk _ | with_reducible exact dyn_wit0 hn | with_reducible exact dyn_wit1 hn | with_reducible exact dyn_writer _ rfl rfl | with_reducible exact dyn_bob _ _ | with_reducible exact dyn_bob' _ _ | with_reducible exact dyn_compl _ | decide | (split <;> first | exact dyn_hub rfl | with_reducible exact dyn_hed _ rfl)) (by first | decide | with_reducible exact (bob_off _).1 | with_reducible exact (bob_off _).2 | with_reducible exact (compl_off _).1 | with_reducible exact (compl_off _).2 | (split <;> decide)) (by first | decide | with_reducible exact (bob_off _).1 | with_reducible exact (bob_off _).2 | with_reducible exact (compl_off _).1 | with_reducible exact (compl_off _).2 | (split <;> decide)) ?_ | with_reducible refine freeEnt_kept ?_ | with_reducible refine holdBegin_kept ?_ | with_reducible refine Kept.ite ?_ ?_ | (with_reducible show Kept D s _; first | exact ⟨h.inst, h.few, h.dyn, h.words⟩ | exact ⟨hx.inst, hx.few, hx.dyn, hx.words⟩))

theorem issueItem_kept {s t : State} {a0 : Nat} {a1 : Issue}  (h : Kept D s t) : Kept D s (issueItem a0 a1 t) := by
  unfold issueItem
  repeat' (first | with_reducible assumption | with_reducible refine setPortErr_kept ?_ | with_reducible refine bump_kept (by first | with_reducible rfl | exact dyn_hub rfl | with_reducible exact dyn_hed _ rfl | with_reducible exact dyn_reed _ rfl | with_reducible exact dyn_lnk _ | with_reducible exact dyn_wit0 hn | with_reducible exact dyn_wit1 hn | with_reducible exact dyn_writer _ rfl rfl | with_reducible exact dyn_bob _ _ | with_reducible exact dyn_bob' _ _ | with_reducible exact dyn_compl _ | decide | (split <;> first | exact dyn_hub rfl | with_reducible exact dyn_hed _ rfl)) (by first | decide | with_reducible exact (bob_off _).1 | with_reducible exact (bob_off _).2 | with_reducible exact (compl_off _).1 | with_reducible exact (compl_off _).2 | (split <;> decide)) (by first | decide | with_reducible exact (bob_off _).1 | with_reducible exact (bob_off _).2 | with_reducible exact (compl_off _).1 | with_reducible exact (compl_off _).2 | (split <;> decide)) ?_ | with_reducible refine regPut_kept (by first | with_reducible rfl | exact dyn_hub rfl | with_reducible exact dyn_hed _ rfl | with_reducible exact dyn_reed _ rfl | with_reducible exact dyn_lnk _ | with_reducible exact dyn_wit0 hn | with_reducible exact dyn_wit1 hn | with_reducible exact dyn_writer _ rfl rfl | with_reducible exact dyn_bob _ _ | with_reducible exact dyn_bob' _ _ | with_reducible exact dyn_compl _ | decide | (split <;> first | exact dyn_hub rfl | with_reducible exact dyn_hed _ rfl)) (by first | decide | with_reducible exact (bob_off _).1 | with_reducible exact (bob_off _).2 | with_reducible exact (compl_off _).1 | with_reducible exact (compl_off _).2 | (split <;> decide)) (by first | decide | with_reducible exact (bob_off _).1 | with_reducible exact (bob_off _).2 | with_reducible exact (compl_off _).1 | with_reducible exact (compl_off _).2 | (split <;> decide)) ?_ | with_reducible refine applyCard_kept ?_ | with_reducible refine tagReused_kept ?_ | with_reducible refine openCommand_kept ?_ | with_reducible refine Kept.ite ?_ ?_ | split | (with_reducible show Kept D s _; first | exact ⟨h.inst, h.few, h.dyn, h.words⟩ | exact ⟨hx.inst, hx.few, hx.dyn, hx.words⟩))

theorem retireItem_kept {s t : State} {a0 : Nat} {a1 : Retire}  (h : Kept D s t) : Kept D s (retireItem a0 a1 t) := by
  unfold retireItem
  repeat' (first | with_reducible assumption | with_reducible refine updEnt_kept ?_ | with_reducible refine setPortErr_kept ?_ | with_reducible refine bump_kept (by first | with_reducible rfl | exact dyn_hub rfl | with_reducible exact dyn_hed _ rfl | with_reducible exact dyn_reed _ rfl | with_reducible exact dyn_lnk _ | with_reducible exact dyn_wit0 hn | with_reducible exact dyn_wit1 hn | with_reducible exact dyn_writer _ rfl rfl | with_reducible exact dyn_bob _ _ | with_reducible exact dyn_bob' _ _ | with_reducible exact dyn_compl _ | decide | (split <;> first | exact dyn_hub rfl | with_reducible exact dyn_hed _ rfl)) (by first | decide | with_reducible exact (bob_off _).1 | with_reducible exact (bob_off _).2 | with_reducible exact (compl_off _).1 | with_reducible exact (compl_off _).2 | (split <;> decide)) (by first | decide | with_reducible exact (bob_off _).1 | with_reducible exact (bob_off _).2 | with_reducible exact (compl_off _).1 | with_reducible exact (compl_off _).2 | (split <;> decide)) ?_ | with_reducible refine hold_kept ?_ | with_reducible refine Kept.ite ?_ ?_ | split | (with_reducible show Kept D s _; first | exact ⟨h.inst, h.few, h.dyn, h.words⟩ | exact ⟨hx.inst, hx.few, hx.dyn, hx.words⟩))

theorem acceptSpan_kept {s t : State} {a0 : Nat} {a1 : Ent}  (h : Kept D s t) : Kept D s (acceptSpan a0 a1 t) := by
  unfold acceptSpan
  repeat' (first | with_reducible assumption | with_reducible refine offerHed_kept ?_ | with_reducible refine count_kept (by first | with_reducible rfl | exact dyn_hub rfl | with_reducible exact dyn_hed _ rfl | with_reducible exact dyn_reed _ rfl | with_reducible exact dyn_lnk _ | with_reducible exact dyn_wit0 hn | with_reducible exact dyn_wit1 hn | with_reducible exact dyn_writer _ rfl rfl | with_reducible exact dyn_bob _ _ | with_reducible exact dyn_bob' _ _ | with_reducible exact dyn_compl _ | decide | (split <;> first | exact dyn_hub rfl | with_reducible exact dyn_hed _ rfl)) (by first | decide | with_reducible exact (bob_off _).1 | with_reducible exact (bob_off _).2 | with_reducible exact (compl_off _).1 | with_reducible exact (compl_off _).2 | (split <;> decide)) (by first | decide | with_reducible exact (bob_off _).1 | with_reducible exact (bob_off _).2 | with_reducible exact (compl_off _).1 | with_reducible exact (compl_off _).2 | (split <;> decide)) ?_ | with_reducible refine freeEnt_kept ?_ | with_reducible refine foldl_kept (fun _ _ _ => ?_) ?_ | with_reducible refine Kept.ite ?_ ?_ | (with_reducible show Kept D s _; first | exact ⟨h.inst, h.few, h.dyn, h.words⟩ | exact ⟨hx.inst, hx.few, hx.dyn, hx.words⟩))

theorem eventLine_kept {s t : State} {a0 : Nat} {a1 : BitVec 5}  (h : Kept D s t) : Kept D s (eventLine a0 a1 t) := by
  have a := eventLine_same (F := (fun f => [Fld.counts].contains f)) (a0 := a0) (a1 := a1) rfl (Same.refl _ t)
  exact Kept.of_eq (Same.get (f := .inst) a rfl) (Same.get (f := .regs) a rfl) h

theorem counterSample_kept {s t : State} {a0 : Nat}  (h : Kept D s t) : Kept D s (counterSample a0 t) := by
  have a := counterSample_same (F := (fun f => [Fld.heds, Fld.counts].contains f)) (a0 := a0) rfl rfl (Same.refl _ t)
  exact Kept.of_eq (Same.get (f := .inst) a rfl) (Same.get (f := .regs) a rfl) h

theorem stallChange_kept {s t : State} {a0 : Nat} {a1 : BitVec 8} {a2 : Tdc}  (h : Kept D s t) : Kept D s (stallChange a0 a1 a2 t) := by
  have a := stallChange_same (F := (fun f => [Fld.heds, Fld.counts].contains f)) (a0 := a0) (a1 := a1) (a2 := a2) rfl rfl (Same.refl _ t)
  exact Kept.of_eq (Same.get (f := .inst) a rfl) (Same.get (f := .regs) a rfl) h

theorem stallPeriodic_kept {s t : State} {a0 : Nat}  (h : Kept D s t) : Kept D s (stallPeriodic a0 t) := by
  have a := stallPeriodic_same (F := (fun f => [Fld.heds, Fld.counts].contains f)) (a0 := a0) rfl rfl (Same.refl _ t)
  exact Kept.of_eq (Same.get (f := .inst) a rfl) (Same.get (f := .regs) a rfl) h

theorem cutGroup_kept {s t : State} {a0 : Nat} {a1 : Held} {a2 : Option Pick} {a3 : List Ent} {a4 : Option (Gap × Nat)}  (h : Kept D s t) : Kept D s (cutGroup a0 a1 a2 a3 a4 t).2 := by
  unfold cutGroup
  repeat' (first | with_reducible assumption | with_reducible refine offerHed_kept ?_ | with_reducible refine updHed_kept ?_ | with_reducible refine count_kept (by first | with_reducible rfl | exact dyn_hub rfl | with_reducible exact dyn_hed _ rfl | with_reducible exact dyn_reed _ rfl | with_reducible exact dyn_lnk _ | with_reducible exact dyn_wit0 hn | with_reducible exact dyn_wit1 hn | with_reducible exact dyn_writer _ rfl rfl | with_reducible exact dyn_bob _ _ | with_reducible exact dyn_bob' _ _ | with_reducible exact dyn_compl _ | decide | (split <;> first | exact dyn_hub rfl | with_reducible exact dyn_hed _ rfl)) (by first | decide | with_reducible exact (bob_off _).1 | with_reducible exact (bob_off _).2 | with_reducible exact (compl_off _).1 | with_reducible exact (compl_off _).2 | (split <;> decide)) (by first | decide | with_reducible exact (bob_off _).1 | with_reducible exact (bob_off _).2 | with_reducible exact (compl_off _).1 | with_reducible exact (compl_off _).2 | (split <;> decide)) ?_ | with_reducible refine foldl2_kept (fun _ _ _ => ?_) ?_ | dsimp only | split | (with_reducible show Kept D s _; first | exact ⟨h.inst, h.few, h.dyn, h.words⟩ | exact ⟨hx.inst, hx.few, hx.dyn, hx.words⟩))

theorem cutGroup_kept_eq {s t : State} {a0 : Nat} {a1 : Held} {a2 : Option Pick} {a3 : List Ent} {a4 : Option (Gap × Nat)}  {x} {u : State} (e : cutGroup a0 a1 a2 a3 a4 t = (x, u)) (h : Kept D s t) : Kept D s u := by
  have := cutGroup_kept (s := s) (t := t) (a0 := a0) (a1 := a1) (a2 := a2) (a3 := a3) (a4 := a4) h
  rw [e] at this; exact this

theorem Held_take_kept {s t : State} {a0 : Nat} {a1 : Held}  (h : Kept D s t) : Kept D s (Held.take a0 a1 t) := by
  unfold Held.take
  repeat' (first | with_reducible assumption | with_reducible refine offerHed_kept ?_ | with_reducible refine count_kept (by first | with_reducible rfl | exact dyn_hub rfl | with_reducible exact dyn_hed _ rfl | with_reducible exact dyn_reed _ rfl | with_reducible exact dyn_lnk _ | with_reducible exact dyn_wit0 hn | with_reducible exact dyn_wit1 hn | with_reducible exact dyn_writer _ rfl rfl | with_reducible exact dyn_bob _ _ | with_reducible exact dyn_bob' _ _ | with_reducible exact dyn_compl _ | decide | (split <;> first | exact dyn_hub rfl | with_reducible exact dyn_hed _ rfl)) (by first | decide | with_reducible exact (bob_off _).1 | with_reducible exact (bob_off _).2 | with_reducible exact (compl_off _).1 | with_reducible exact (compl_off _).2 | (split <;> decide)) (by first | decide | with_reducible exact (bob_off _).1 | with_reducible exact (bob_off _).2 | with_reducible exact (compl_off _).1 | with_reducible exact (compl_off _).2 | (split <;> decide)) ?_ | with_reducible refine updHed_kept ?_ | with_reducible refine updHedC_kept ?_ | with_reducible refine closeRun_kept ?_ | with_reducible refine cutGroup_kept ?_ | with_reducible refine foldl_kept (fun _ _ _ => ?_) ?_ | with_reducible refine Kept.ite ?_ ?_ | split | (with_reducible show Kept D s _; first | exact ⟨h.inst, h.few, h.dyn, h.words⟩ | exact ⟨hx.inst, hx.few, hx.dyn, hx.words⟩))

theorem offerHeld_kept {s t : State} {a0 : Nat} {a1 : Held}  (h : Kept D s t) : Kept D s (offerHeld a0 a1 t) := by
  unfold offerHeld
  repeat' (first | with_reducible assumption | with_reducible refine hold_kept ?_ | with_reducible refine Held_take_kept ?_ | with_reducible refine Kept.ite ?_ ?_ | (with_reducible show Kept D s _; first | exact ⟨h.inst, h.few, h.dyn, h.words⟩ | exact ⟨hx.inst, hx.few, hx.dyn, hx.words⟩))

theorem settleHed_kept {s t : State} {a0 : Nat}  (h : Kept D s t) : Kept D s (settleHed a0 t) := by
  unfold settleHed
  repeat' (first | with_reducible assumption | with_reducible refine dropGaps_kept ?_ | with_reducible refine offerHeld_kept ?_ | with_reducible refine updHed_kept ?_ | with_reducible refine foldl_kept (fun _ _ _ => ?_) ?_ | with_reducible refine Kept.ite ?_ ?_ | (with_reducible show Kept D s _; first | exact ⟨h.inst, h.few, h.dyn, h.words⟩ | exact ⟨hx.inst, hx.few, hx.dyn, hx.words⟩))

theorem spanAccept_kept {s t : State} {a0 : Nat}  (h : Kept D s t) : Kept D s (spanAccept a0 t) := by
  unfold spanAccept
  repeat' (first | with_reducible assumption | with_reducible refine settleHed_kept ?_ | with_reducible refine acceptSpan_kept ?_ | (extract_lets +onlyGivenNames x; refine (fun (hx : Kept D s x) => ?_) ?_; rotate_left; dsimp only [x]; clear x; rotate_right; clear_value x) | split | (with_reducible show Kept D s _; first | exact ⟨h.inst, h.few, h.dyn, h.words⟩ | exact ⟨hx.inst, hx.few, hx.dyn, hx.words⟩))

theorem settleSpans_kept {s t : State} {a0 : Nat} {a1 : Nat}  (h : Kept D s t) : Kept D s (settleSpans a0 a1 t) := by
  induction a0 generalizing t with
  | zero => exact settleHed_kept h
  | succ n ih =>
    unfold settleSpans
    dsimp only
    split
    · exact ih (acceptSpan_kept (settleHed_kept h))
    · exact settleHed_kept h

theorem hedLeaves_kept {s t : State} {a0 : Nat}  (h : Kept D s t) : Kept D s (hedLeaves a0 t) := by
  have a := hedLeaves_same (F := (fun f => [Fld.heds].contains f)) (a0 := a0) rfl (Same.refl _ t)
  exact Kept.of_eq (Same.get (f := .inst) a rfl) (Same.get (f := .regs) a rfl) h

theorem hedFails_kept {s t : State} {a0 : Nat}  (h : Kept D s t) : Kept D s (hedFails a0 t) := by
  unfold hedFails
  repeat' (first | with_reducible assumption | with_reducible refine updHed_kept ?_ | with_reducible refine bump_kept (by first | with_reducible rfl | exact dyn_hub rfl | with_reducible exact dyn_hed _ rfl | with_reducible exact dyn_reed _ rfl | with_reducible exact dyn_lnk _ | with_reducible exact dyn_wit0 hn | with_reducible exact dyn_wit1 hn | with_reducible exact dyn_writer _ rfl rfl | with_reducible exact dyn_bob _ _ | with_reducible exact dyn_bob' _ _ | with_reducible exact dyn_compl _ | decide | (split <;> first | exact dyn_hub rfl | with_reducible exact dyn_hed _ rfl)) (by first | decide | with_reducible exact (bob_off _).1 | with_reducible exact (bob_off _).2 | with_reducible exact (compl_off _).1 | with_reducible exact (compl_off _).2 | (split <;> decide)) (by first | decide | with_reducible exact (bob_off _).1 | with_reducible exact (bob_off _).2 | with_reducible exact (compl_off _).1 | with_reducible exact (compl_off _).2 | (split <;> decide)) ?_ | with_reducible refine dropGaps_kept ?_ | with_reducible refine closeGap_kept ?_ | with_reducible refine Kept.ite ?_ ?_ | (with_reducible show Kept D s _; first | exact ⟨h.inst, h.few, h.dyn, h.words⟩ | exact ⟨hx.inst, hx.few, hx.dyn, hx.words⟩))

theorem hedEnters_kept {s t : State} {a0 : Nat}  (h : Kept D s t) : Kept D s (hedEnters a0 t) := by
  have a := hedEnters_same (F := (fun f => [Fld.heds].contains f)) (a0 := a0) rfl (Same.refl _ t)
  exact Kept.of_eq (Same.get (f := .inst) a rfl) (Same.get (f := .regs) a rfl) h

theorem updHedStop_kept {s t : State} {a0 : Nat} {a1 : HedStop → HedStop}  (h : Kept D s t) : Kept D s (updHedStop a0 a1 t) := by
  have a := updHedStop_same (F := (fun f => [Fld.hedStops].contains f)) (a0 := a0) (a1 := a1) rfl (Same.refl _ t)
  exact Kept.of_eq (Same.get (f := .inst) a rfl) (Same.get (f := .regs) a rfl) h

theorem updLink_kept {s t : State} {a0 : Nat} {a1 : Link → Link}  (h : Kept D s t) : Kept D s (updLink a0 a1 t) := by
  have a := updLink_same (F := (fun f => [Fld.links].contains f)) (a0 := a0) (a1 := a1) rfl (Same.refl _ t)
  exact Kept.of_eq (Same.get (f := .inst) a rfl) (Same.get (f := .regs) a rfl) h

theorem updWit_kept {s t : State} {a0 : Nat} {a1 : WitReed → WitReed}  (h : Kept D s t) : Kept D s (updWit a0 a1 t) := by
  have a := updWit_same (F := (fun f => [Fld.wits].contains f)) (a0 := a0) (a1 := a1) rfl (Same.refl _ t)
  exact Kept.of_eq (Same.get (f := .inst) a rfl) (Same.get (f := .regs) a rfl) h

theorem pauseGather_kept {s t : State} {a0 : Bt}  (h : Kept D s t) : Kept D s (pauseGather a0 t) := by
  have a := pauseGather_same (F := (fun f => [Fld.wits].contains f)) (a0 := a0) rfl (Same.refl _ t)
  exact Kept.of_eq (Same.get (f := .inst) a rfl) (Same.get (f := .regs) a rfl) h

theorem restartGather_kept {s t : State} {a0 : Nat}  (h : Kept D s t) : Kept D s (restartGather a0 t) := by
  have a := restartGather_same (F := (fun f => [Fld.wits].contains f)) (a0 := a0) rfl (Same.refl _ t)
  exact Kept.of_eq (Same.get (f := .inst) a rfl) (Same.get (f := .regs) a rfl) h

theorem launch_kept {s t : State} {a0 : Nat} {a1 : Nat}  (h : Kept D s t) : Kept D s (launch a0 a1 t) := by
  unfold launch
  repeat' (first | with_reducible assumption | with_reducible refine pauseGather_kept ?_ | with_reducible refine setErr_kept ?_ | with_reducible refine raise_kept ?_ | with_reducible refine closeBobs_kept ?_ | with_reducible refine Kept.ite ?_ ?_ | with_reducible refine Kept.set_stop ?_ | (with_reducible show Kept D s _; first | exact ⟨h.inst, h.few, h.dyn, h.words⟩ | exact ⟨hx.inst, hx.few, hx.dyn, hx.words⟩))

theorem launchArmed_kept {s t : State}   (h : Kept D s t) : Kept D s (launchArmed t) := by
  unfold launchArmed
  repeat' (first | with_reducible assumption | with_reducible refine setErr_kept ?_ | with_reducible refine launch_kept ?_ | with_reducible refine Kept.ite ?_ ?_ | (with_reducible show Kept D s _; first | exact ⟨h.inst, h.few, h.dyn, h.words⟩ | exact ⟨hx.inst, hx.few, hx.dyn, hx.words⟩))

theorem stopEvent_kept {s t : State} {a0 : Nat} {a1 : Nat}  (h : Kept D s t) : Kept D s (stopEvent a0 a1 t) := by
  dsimp only [stopEvent]
  repeat' (first | with_reducible assumption | with_reducible refine bump_kept (by first | with_reducible rfl | exact dyn_hub rfl | with_reducible exact dyn_hed _ rfl | with_reducible exact dyn_reed _ rfl | with_reducible exact dyn_lnk _ | with_reducible exact dyn_wit0 hn | with_reducible exact dyn_wit1 hn | with_reducible exact dyn_writer _ rfl rfl | with_reducible exact dyn_bob _ _ | with_reducible exact dyn_bob' _ _ | with_reducible exact dyn_compl _ | decide | (split <;> first | exact dyn_hub rfl | with_reducible exact dyn_hed _ rfl)) (by first | decide | with_reducible exact (bob_off _).1 | with_reducible exact (bob_off _).2 | with_reducible exact (compl_off _).1 | with_reducible exact (compl_off _).2 | (split <;> decide)) (by first | decide | with_reducible exact (bob_off _).1 | with_reducible exact (bob_off _).2 | with_reducible exact (compl_off _).1 | with_reducible exact (compl_off _).2 | (split <;> decide)) ?_ | with_reducible refine launch_kept ?_ | with_reducible refine launchArmed_kept ?_ | with_reducible refine Kept.ite ?_ ?_ | split | (with_reducible show Kept D s _; first | exact ⟨h.inst, h.few, h.dyn, h.words⟩ | exact ⟨hx.inst, hx.few, hx.dyn, hx.words⟩))

theorem updOwn_kept {s t : State} {a0 : Own → Own}  (h : Kept D s t) : Kept D s (updOwn a0 t) := by
  have a := updOwn_same (F := (fun f => [Fld.ver].contains f)) (a0 := a0) rfl (Same.refl _ t)
  exact Kept.of_eq (Same.get (f := .inst) a rfl) (Same.get (f := .regs) a rfl) h

theorem settleFrom_kept {s t : State} {a0 : Int}  (h : Kept D s t) : Kept D s (settleFrom a0 t) := by
  have a := settleFrom_same (F := (fun f => [Fld.ver].contains f)) (a0 := a0) rfl (Same.refl _ t)
  exact Kept.of_eq (Same.get (f := .inst) a rfl) (Same.get (f := .regs) a rfl) h

theorem settleEpochs_kept {s t : State}   (h : Kept D s t) : Kept D s (settleEpochs t) := by
  have a := settleEpochs_same (F := (fun f => [Fld.ver].contains f))  rfl (Same.refl _ t)
  exact Kept.of_eq (Same.get (f := .inst) a rfl) (Same.get (f := .regs) a rfl) h

theorem taintOwn_kept {s t : State} {a0 : BitVec 16}  (h : Kept D s t) : Kept D s (taintOwn a0 t).2 := by
  have a := taintOwn_same (F := (fun f => [Fld.ver].contains f)) (a0 := a0) rfl (Same.refl _ t)
  exact Kept.of_eq (Same.get (f := .inst) a rfl) (Same.get (f := .regs) a rfl) h

theorem taintOwn_kept_eq {s t : State} {a0 : BitVec 16}  {x} {u : State} (e : taintOwn a0 t = (x, u)) (h : Kept D s t) : Kept D s u := by
  have := taintOwn_kept (s := s) (t := t) (a0 := a0) h
  rw [e] at this; exact this

theorem freeRound_kept {s t : State} {a0 : Int} {a1 : Nat}  (h : Kept D s t) : Kept D s (freeRound a0 a1 t).2 := by
  have a := freeRound_same (F := (fun f => [Fld.free].contains f)) (a0 := a0) (a1 := a1) rfl (Same.refl _ t)
  exact Kept.of_eq (Same.get (f := .inst) a rfl) (Same.get (f := .regs) a rfl) h

theorem freeRound_kept_eq {s t : State} {a0 : Int} {a1 : Nat}  {x} {u : State} (e : freeRound a0 a1 t = (x, u)) (h : Kept D s t) : Kept D s u := by
  have := freeRound_kept (s := s) (t := t) (a0 := a0) (a1 := a1) h
  rw [e] at this; exact this

theorem fillReport_kept {s t : State} {a0 : ErrReport} {a1 : Bool}  (h : Kept D s t) : KeptOP D s (fillReport a0 a1 t) := by
  intro x u e
  have a := fillReport_same (F := (fun f => [Fld.free].contains f)) (a0 := a0) (a1 := a1) rfl (Same.refl _ t) x u e
  exact Kept.of_eq (Same.get (f := .inst) a rfl) (Same.get (f := .regs) a rfl) h

theorem updVer_kept {s t : State} {a0 : Verdicts → Verdicts}  (h : Kept D s t) : Kept D s (updVer a0 t) := by
  have a := updVer_same (F := (fun f => [Fld.ver].contains f)) (a0 := a0) rfl (Same.refl _ t)
  exact Kept.of_eq (Same.get (f := .inst) a rfl) (Same.get (f := .regs) a rfl) h

theorem enqueue_kept {s t : State} {a0 : Notice}  (h : Kept D s t) : Kept D s (enqueue a0 t) := by
  unfold enqueue
  repeat' (first | with_reducible assumption | with_reducible refine updVer_kept ?_ | with_reducible refine bump_kept (by first | with_reducible rfl | exact dyn_hub rfl | with_reducible exact dyn_hed _ rfl | with_reducible exact dyn_reed _ rfl | with_reducible exact dyn_lnk _ | with_reducible exact dyn_wit0 hn | with_reducible exact dyn_wit1 hn | with_reducible exact dyn_writer _ rfl rfl | with_reducible exact dyn_bob _ _ | with_reducible exact dyn_bob' _ _ | with_reducible exact dyn_compl _ | decide | (split <;> first | exact dyn_hub rfl | with_reducible exact dyn_hed _ rfl)) (by first | decide | with_reducible exact (bob_off _).1 | with_reducible exact (bob_off _).2 | with_reducible exact (compl_off _).1 | with_reducible exact (compl_off _).2 | (split <;> decide)) (by first | decide | with_reducible exact (bob_off _).1 | with_reducible exact (bob_off _).2 | with_reducible exact (compl_off _).1 | with_reducible exact (compl_off _).2 | (split <;> decide)) ?_ | with_reducible refine Kept.ite ?_ ?_ | (with_reducible show Kept D s _; first | exact ⟨h.inst, h.few, h.dyn, h.words⟩ | exact ⟨hx.inst, hx.few, hx.dyn, hx.words⟩))

theorem refill_kept {s t : State} {a0 : Nat}  (h : Kept D s t) : Kept D s (refill a0 t) := by
  induction a0 generalizing t  with
  | zero => exact h
  | succ n ih =>
    unfold refill
    repeat' (first | with_reducible assumption | (with_reducible refine ih ?_) | with_reducible refine enqueue_kept ?_ | with_reducible refine updVer_kept ?_ | with_reducible refine Kept.ite ?_ ?_ | split | (with_reducible show Kept D s _; first | exact ⟨h.inst, h.few, h.dyn, h.words⟩ | exact ⟨hx.inst, hx.few, hx.dyn, hx.words⟩))

theorem emitAt_kept {s t : State} {a0 : Nat} {a1 : Notice}  (h : Kept D s t) : Kept D s (emitAt a0 a1 t) := by
  unfold emitAt
  repeat' (first | with_reducible assumption | with_reducible refine updVer_kept ?_ | with_reducible refine acceptRec_kept ?_ | with_reducible refine refill_kept ?_ | with_reducible refine closeRun_kept ?_ | with_reducible refine Kept.ite ?_ ?_ | with_reducible refine Kept.set_exempt ?_ | (with_reducible show Kept D s _; first | exact ⟨h.inst, h.few, h.dyn, h.words⟩ | exact ⟨hx.inst, hx.few, hx.dyn, hx.words⟩))

theorem readyNotice_kept {s t : State} {a0 : Bool} {a1 : Notice}  (h : Kept D s t) : KeptOP D s (readyNotice a0 a1 t) := by
  intro x u e
  have a := readyNotice_same (F := (fun f => [Fld.free].contains f)) (a0 := a0) (a1 := a1) rfl (Same.refl _ t) x u e
  exact Kept.of_eq (Same.get (f := .inst) a rfl) (Same.get (f := .regs) a rfl) h

theorem pumpEmit_kept {s t : State} {a0 : Nat}  (h : Kept D s t) : Kept D s (pumpEmit a0 t) := by
  induction a0 generalizing t  with
  | zero => exact h
  | succ n ih =>
    unfold pumpEmit
    repeat' (first | with_reducible assumption | (with_reducible refine ih ?_) | with_reducible refine bump_kept (by first | with_reducible rfl | exact dyn_hub rfl | with_reducible exact dyn_hed _ rfl | with_reducible exact dyn_reed _ rfl | with_reducible exact dyn_lnk _ | with_reducible exact dyn_wit0 hn | with_reducible exact dyn_wit1 hn | with_reducible exact dyn_writer _ rfl rfl | with_reducible exact dyn_bob _ _ | with_reducible exact dyn_bob' _ _ | with_reducible exact dyn_compl _ | decide | (split <;> first | exact dyn_hub rfl | with_reducible exact dyn_hed _ rfl)) (by first | decide | with_reducible exact (bob_off _).1 | with_reducible exact (bob_off _).2 | with_reducible exact (compl_off _).1 | with_reducible exact (compl_off _).2 | (split <;> decide)) (by first | decide | with_reducible exact (bob_off _).1 | with_reducible exact (bob_off _).2 | with_reducible exact (compl_off _).1 | with_reducible exact (compl_off _).2 | (split <;> decide)) ?_ | with_reducible refine emitAt_kept ?_ | with_reducible refine updVer_kept ?_ | with_reducible refine readyNotice_kept ?_ | with_reducible refine readyNotice_kept ?_ _ _ (by assumption) | with_reducible refine Kept.ite ?_ ?_ | split | (with_reducible show Kept D s _; first | exact ⟨h.inst, h.few, h.dyn, h.words⟩ | exact ⟨hx.inst, hx.few, hx.dyn, hx.words⟩))

theorem pump_kept {s t : State}   (h : Kept D s t) : Kept D s (pump t) := by
  unfold pump
  repeat' (first | with_reducible assumption | with_reducible refine fenceCount_kept ?_ | with_reducible refine updVer_kept ?_ | with_reducible refine pumpEmit_kept ?_ | split | (with_reducible show Kept D s _; first | exact ⟨h.inst, h.few, h.dyn, h.words⟩ | exact ⟨hx.inst, hx.few, hx.dyn, hx.words⟩))

theorem emitNotices_kept {s t : State} {a0 : Nat}  (h : Kept D s t) : Kept D s (emitNotices a0 t) := by
  unfold emitNotices
  repeat' (first | with_reducible assumption | with_reducible refine pump_kept ?_ | with_reducible refine updVer_kept ?_ | with_reducible refine Kept.ite ?_ ?_ | (with_reducible show Kept D s _; first | exact ⟨h.inst, h.few, h.dyn, h.words⟩ | exact ⟨hx.inst, hx.few, hx.dyn, hx.words⟩))

theorem placePoison_kept {s t : State} {a0 : Nat} {a1 : BitVec 32} {a2 : Nat} {a3 : Nat}  (h : Kept D s t) : Kept D s (placePoison a0 a1 a2 a3 t) := by
  unfold placePoison
  repeat' (first | with_reducible assumption | with_reducible refine stopEvent_kept ?_ | with_reducible refine bump_kept (by first | with_reducible rfl | exact dyn_hub rfl | with_reducible exact dyn_hed _ rfl | with_reducible exact dyn_reed _ rfl | with_reducible exact dyn_lnk _ | with_reducible exact dyn_wit0 hn | with_reducible exact dyn_wit1 hn | with_reducible exact dyn_writer _ rfl rfl | with_reducible exact dyn_bob _ _ | with_reducible exact dyn_bob' _ _ | with_reducible exact dyn_compl _ | decide | (split <;> first | exact dyn_hub rfl | with_reducible exact dyn_hed _ rfl)) (by first | decide | with_reducible exact (bob_off _).1 | with_reducible exact (bob_off _).2 | with_reducible exact (compl_off _).1 | with_reducible exact (compl_off _).2 | (split <;> decide)) (by first | decide | with_reducible exact (bob_off _).1 | with_reducible exact (bob_off _).2 | with_reducible exact (compl_off _).1 | with_reducible exact (compl_off _).2 | (split <;> decide)) ?_ | with_reducible refine pump_kept ?_ | with_reducible refine enqueue_kept ?_ | with_reducible refine updVer_kept ?_ | with_reducible refine raise_kept ?_ | with_reducible refine Kept.ite ?_ ?_ | split | (with_reducible show Kept D s _; first | exact ⟨h.inst, h.few, h.dyn, h.words⟩ | exact ⟨hx.inst, hx.few, hx.dyn, hx.words⟩))

theorem placeReport_kept {s t : State} {a0 : ErrReport}  (h : Kept D s t) : Kept D s (placeReport a0 t) := by
  unfold placeReport
  repeat' (first | with_reducible assumption | with_reducible refine pump_kept ?_ | with_reducible refine enqueue_kept ?_ | with_reducible refine updVer_kept ?_ | with_reducible refine Kept.ite ?_ ?_ | (with_reducible show Kept D s _; first | exact ⟨h.inst, h.few, h.dyn, h.words⟩ | exact ⟨hx.inst, hx.few, hx.dyn, hx.words⟩))

theorem workLost_kept {s t : State} {a0 : Nat} {a1 : Nat} {a2 : Nat} {a3 : Nat} {a4 : Nat} {a5 : Nat}  (h : Kept D s t) : Kept D s (workLost a0 a1 a2 a3 a4 a5 t) := by
  unfold workLost
  repeat' (first | with_reducible assumption | with_reducible refine placeReport_kept ?_ | with_reducible refine Kept.ite ?_ ?_ | (with_reducible show Kept D s _; first | exact ⟨h.inst, h.few, h.dyn, h.words⟩ | exact ⟨hx.inst, hx.few, hx.dyn, hx.words⟩))

theorem noticesLost_kept {s t : State} {a0 : Bool}  (h : Kept D s t) : Kept D s (noticesLost a0 t) := by
  unfold noticesLost
  repeat' (first | with_reducible assumption | with_reducible refine updVer_kept ?_ | with_reducible refine workLost_kept ?_ | with_reducible refine refill_kept ?_ | with_reducible refine Kept.ite ?_ ?_ | (with_reducible show Kept D s _; first | exact ⟨h.inst, h.few, h.dyn, h.words⟩ | exact ⟨hx.inst, hx.few, hx.dyn, hx.words⟩))

theorem logNotice_kept {s t : State} {a0 : Nat} {a1 : Nat} {a2 : BitVec 16}  (h : Kept D s t) : Kept D s (logNotice a0 a1 a2 t) := by
  unfold logNotice
  repeat' (first | with_reducible assumption | with_reducible refine bump_kept (by first | with_reducible rfl | exact dyn_hub rfl | with_reducible exact dyn_hed _ rfl | with_reducible exact dyn_reed _ rfl | with_reducible exact dyn_lnk _ | with_reducible exact dyn_wit0 hn | with_reducible exact dyn_wit1 hn | with_reducible exact dyn_writer _ rfl rfl | with_reducible exact dyn_bob _ _ | with_reducible exact dyn_bob' _ _ | with_reducible exact dyn_compl _ | decide | (split <;> first | exact dyn_hub rfl | with_reducible exact dyn_hed _ rfl)) (by first | decide | with_reducible exact (bob_off _).1 | with_reducible exact (bob_off _).2 | with_reducible exact (compl_off _).1 | with_reducible exact (compl_off _).2 | (split <;> decide)) (by first | decide | with_reducible exact (bob_off _).1 | with_reducible exact (bob_off _).2 | with_reducible exact (compl_off _).1 | with_reducible exact (compl_off _).2 | (split <;> decide)) ?_ | with_reducible refine enqueue_kept ?_ | with_reducible refine Kept.ite ?_ ?_ | (with_reducible show Kept D s _; first | exact ⟨h.inst, h.few, h.dyn, h.words⟩ | exact ⟨hx.inst, hx.few, hx.dyn, hx.words⟩))

theorem fillReports_kept {s t : State}   (h : Kept D s t) : Kept D s (fillReports t) := by
  unfold fillReports
  repeat' (first | with_reducible assumption | with_reducible refine fillReport_kept ?_ | with_reducible refine fillReport_kept ?_ _ _ (by assumption) | with_reducible refine pump_kept ?_ | with_reducible refine updVer_kept ?_ | with_reducible refine foldl2_kept (fun _ _ _ => ?_) ?_ | with_reducible refine Kept.ite ?_ ?_ | split | (with_reducible show Kept D s _; first | exact ⟨h.inst, h.few, h.dyn, h.words⟩ | exact ⟨hx.inst, hx.few, hx.dyn, hx.words⟩))

theorem clearBatch_kept {s t : State}   (h : Kept D s t) : Kept D s (clearBatch t) := by
  unfold clearBatch
  repeat' (first | with_reducible assumption | with_reducible refine settleEpochs_kept ?_ | with_reducible refine updVer_kept ?_ | with_reducible refine pump_kept ?_ | with_reducible refine enqueue_kept ?_ | with_reducible refine updOwn_kept ?_ | with_reducible refine Kept.ite ?_ ?_ | split | (with_reducible show Kept D s _; first | exact ⟨h.inst, h.few, h.dyn, h.words⟩ | exact ⟨hx.inst, hx.few, hx.dyn, hx.words⟩))

theorem staleEpoch_kept {s t : State}   (h : Kept D s t) : Kept D s (staleEpoch t) := by
  unfold staleEpoch
  repeat' (first | with_reducible assumption | with_reducible refine settleEpochs_kept ?_ | with_reducible refine taintOwn_kept ?_ | with_reducible refine placePoison_kept ?_ | with_reducible refine updOwn_kept ?_ | with_reducible refine Kept.ite ?_ ?_ | (with_reducible show Kept D s _; first | exact ⟨h.inst, h.few, h.dyn, h.words⟩ | exact ⟨hx.inst, hx.few, hx.dyn, hx.words⟩))

theorem goBlind_kept {s t : State} {a0 : Nat}  (h : Kept D s t) : Kept D s (goBlind a0 t) := by
  unfold goBlind
  repeat' (first | with_reducible assumption | with_reducible refine raise_kept ?_ | with_reducible refine updVer_kept ?_ | with_reducible refine Kept.ite ?_ ?_ | (with_reducible show Kept D s _; first | exact ⟨h.inst, h.few, h.dyn, h.words⟩ | exact ⟨hx.inst, hx.few, hx.dyn, hx.words⟩))

theorem receive_kept {s t : State} {a0 : Receipt}  (h : Kept D s t) : Kept D s (receive a0 t) := by
  unfold receive
  repeat' (first | with_reducible assumption | with_reducible refine goBlind_kept ?_ | with_reducible refine updVer_kept ?_ | with_reducible exact KeptO.none | (extract_lets +onlyGivenNames x; refine (fun (hx : Kept D s x) => ?_) ?_; rotate_left; dsimp only [x]; clear x; rotate_right; clear_value x) | (extract_lets +onlyGivenNames x; refine (fun (hx : Kept D s x.2) => ?_) ?_; rotate_left; dsimp only [x]; clear x; rotate_right; clear_value x) | with_reducible refine foldl_kept (fun _ _ _ => ?_) ?_ | with_reducible refine foldl2_kept (fun _ _ _ => ?_) ?_ | with_reducible refine foldl2_kept_eq (fun _ _ _ => ?_) (by assumption) ?_ | dsimp only | with_reducible refine Kept.ite ?_ ?_ | split | with_reducible refine Kept.set_gates ?_ | (with_reducible show Kept D s _; first | exact ⟨h.inst, h.few, h.dyn, h.words⟩ | exact ⟨hx.inst, hx.few, hx.dyn, hx.words⟩) | with_reducible refine (show KeptO D s _ from ?_) _ (by assumption))

theorem passReceipt_kept {s t : State} {a0 : Nat}  (h : Kept D s t) : Kept D s (passReceipt a0 t) := by
  unfold passReceipt
  repeat' (first | with_reducible assumption | with_reducible refine receive_kept ?_ | with_reducible refine updLink_kept ?_ | with_reducible refine Kept.ite ?_ ?_ | split | (with_reducible show Kept D s _; first | exact ⟨h.inst, h.few, h.dyn, h.words⟩ | exact ⟨hx.inst, hx.few, hx.dyn, hx.words⟩))

theorem queueReceipt_kept {s t : State} {a0 : Nat} {a1 : Receipt}  (h : Kept D s t) : Kept D s (queueReceipt a0 a1 t) := by
  unfold queueReceipt
  repeat' (first | with_reducible assumption | with_reducible refine goBlind_kept ?_ | with_reducible refine updLink_kept ?_ | with_reducible refine Kept.ite ?_ ?_ | (with_reducible show Kept D s _; first | exact ⟨h.inst, h.few, h.dyn, h.words⟩ | exact ⟨hx.inst, hx.few, hx.dyn, hx.words⟩))

theorem absolveOwn_kept {s t : State} {a0 : BitVec 16}  (h : Kept D s t) : Kept D s (absolveOwn a0 t) := by
  have a := absolveOwn_same (F := (fun f => [Fld.ver].contains f)) (a0 := a0) rfl (Same.refl _ t)
  exact Kept.of_eq (Same.get (f := .inst) a rfl) (Same.get (f := .regs) a rfl) h

theorem carryEpochs_kept {s t : State} {a0 : State}  (h : Kept D s t) : Kept D s (carryEpochs a0 t) := by
  unfold carryEpochs
  exact updOwn_kept h

theorem poisonOwn_kept {s t : State} {a0 : BitVec 16}  (h : Kept D s t) : Kept D s (poisonOwn a0 t) := by
  unfold poisonOwn
  repeat' (first | with_reducible assumption | with_reducible refine settleEpochs_kept ?_ | with_reducible refine raise_kept ?_ | with_reducible refine bump_kept (by first | with_reducible rfl | exact dyn_hub rfl | with_reducible exact dyn_hed _ rfl | with_reducible exact dyn_reed _ rfl | with_reducible exact dyn_lnk _ | with_reducible exact dyn_wit0 hn | with_reducible exact dyn_wit1 hn | with_reducible exact dyn_writer _ rfl rfl | with_reducible exact dyn_bob _ _ | with_reducible exact dyn_bob' _ _ | with_reducible exact dyn_compl _ | decide | (split <;> first | exact dyn_hub rfl | with_reducible exact dyn_hed _ rfl)) (by first | decide | with_reducible exact (bob_off _).1 | with_reducible exact (bob_off _).2 | with_reducible exact (compl_off _).1 | with_reducible exact (compl_off _).2 | (split <;> decide)) (by first | decide | with_reducible exact (bob_off _).1 | with_reducible exact (bob_off _).2 | with_reducible exact (compl_off _).1 | with_reducible exact (compl_off _).2 | (split <;> decide)) ?_ | with_reducible refine updOwn_kept ?_ | with_reducible refine placePoison_kept ?_ | with_reducible refine taintOwn_kept ?_ | with_reducible refine Kept.ite ?_ ?_ | (with_reducible show Kept D s _; first | exact ⟨h.inst, h.few, h.dyn, h.words⟩ | exact ⟨hx.inst, hx.few, hx.dyn, hx.words⟩))

theorem poisonOther_kept {s t : State} {a0 : Nat} {a1 : BitVec 16}  (h : Kept D s t) : Kept D s (poisonOther a0 a1 t) := by
  unfold poisonOther
  repeat' (first | with_reducible assumption | with_reducible refine goBlind_kept ?_ | with_reducible refine updVer_kept ?_ | with_reducible refine raise_kept ?_ | with_reducible refine bump_kept (by first | with_reducible rfl | exact dyn_hub rfl | with_reducible exact dyn_hed _ rfl | with_reducible exact dyn_reed _ rfl | with_reducible exact dyn_lnk _ | with_reducible exact dyn_wit0 hn | with_reducible exact dyn_wit1 hn | with_reducible exact dyn_writer _ rfl rfl | with_reducible exact dyn_bob _ _ | with_reducible exact dyn_bob' _ _ | with_reducible exact dyn_compl _ | decide | (split <;> first | exact dyn_hub rfl | with_reducible exact dyn_hed _ rfl)) (by first | decide | with_reducible exact (bob_off _).1 | with_reducible exact (bob_off _).2 | with_reducible exact (compl_off _).1 | with_reducible exact (compl_off _).2 | (split <;> decide)) (by first | decide | with_reducible exact (bob_off _).1 | with_reducible exact (bob_off _).2 | with_reducible exact (compl_off _).1 | with_reducible exact (compl_off _).2 | (split <;> decide)) ?_ | with_reducible exact KeptO.none | (extract_lets +onlyGivenNames x; refine (fun (hx : Kept D s x) => ?_) ?_; rotate_left; dsimp only [x]; clear x; rotate_right; clear_value x) | (extract_lets +onlyGivenNames x; refine (fun (hx : Kept D s x.2) => ?_) ?_; rotate_left; dsimp only [x]; clear x; rotate_right; clear_value x) | with_reducible refine foldl_kept (fun _ _ _ => ?_) ?_ | with_reducible refine foldl2_kept (fun _ _ _ => ?_) ?_ | with_reducible refine foldl2_kept_eq (fun _ _ _ => ?_) (by assumption) ?_ | dsimp only | with_reducible refine Kept.ite ?_ ?_ | split | (with_reducible show Kept D s _; first | exact ⟨h.inst, h.few, h.dyn, h.words⟩ | exact ⟨hx.inst, hx.few, hx.dyn, hx.words⟩) | with_reducible refine (show KeptO D s _ from ?_) _ (by assumption))

theorem updLed_kept {s t : State} {a0 : Nat} {a1 : LedEnt → LedEnt}  (h : Kept D s t) : Kept D s (updLed a0 a1 t) := by
  have a := updLed_same (F := (fun f => [Fld.ver].contains f)) (a0 := a0) (a1 := a1) rfl (Same.refl _ t)
  exact Kept.of_eq (Same.get (f := .inst) a rfl) (Same.get (f := .regs) a rfl) h

theorem noticeIn_kept {s t : State} {a0 : Nat} {a1 : Nat} {a2 : BitVec 16}  (h : Kept D s t) : KeptO D s (noticeIn a0 a1 a2 t) := by
  unfold noticeIn
  repeat' (first | with_reducible assumption | with_reducible refine bump_kept (by first | with_reducible rfl | exact dyn_hub rfl | with_reducible exact dyn_hed _ rfl | with_reducible exact dyn_reed _ rfl | with_reducible exact dyn_lnk _ | with_reducible exact dyn_wit0 hn | with_reducible exact dyn_wit1 hn | with_reducible exact dyn_writer _ rfl rfl | with_reducible exact dyn_bob _ _ | with_reducible exact dyn_bob' _ _ | with_reducible exact dyn_compl _ | decide | (split <;> first | exact dyn_hub rfl | with_reducible exact dyn_hed _ rfl)) (by first | decide | with_reducible exact (bob_off _).1 | with_reducible exact (bob_off _).2 | with_reducible exact (compl_off _).1 | with_reducible exact (compl_off _).2 | (split <;> decide)) (by first | decide | with_reducible exact (bob_off _).1 | with_reducible exact (bob_off _).2 | with_reducible exact (compl_off _).1 | with_reducible exact (compl_off _).2 | (split <;> decide)) ?_ | with_reducible refine poisonOwn_kept ?_ | with_reducible refine poisonOther_kept ?_ | with_reducible refine updLed_kept ?_ | with_reducible refine absolveOwn_kept ?_ | with_reducible refine settleEpochs_kept ?_ | with_reducible refine updOwn_kept ?_ | with_reducible refine pump_kept ?_ | with_reducible refine logNotice_kept ?_ | with_reducible exact KeptO.none | with_reducible refine KeptO.some ?_ | with_reducible refine KeptO.ite ?_ ?_ | split | (with_reducible show Kept D s _; first | exact ⟨h.inst, h.few, h.dyn, h.words⟩ | exact ⟨hx.inst, hx.few, hx.dyn, hx.words⟩))

theorem updGate_kept {s t : State} {a0 : Nat} {a1 : HedGate → HedGate}  (h : Kept D s t) : Kept D s (updGate a0 a1 t) := by
  have a := updGate_same (F := (fun f => [Fld.gates].contains f)) (a0 := a0) (a1 := a1) rfl (Same.refl _ t)
  exact Kept.of_eq (Same.get (f := .inst) a rfl) (Same.get (f := .regs) a rfl) h

theorem startGate_kept {s t : State} {a0 : Nat} {a1 : Nat} {a2 : Bt}  (h : Kept D s t) : Kept D s (startGate a0 a1 a2 t) := by
  have a := startGate_same (F := (fun f => [Fld.gates].contains f)) (a0 := a0) (a1 := a1) (a2 := a2) rfl (Same.refl _ t)
  exact Kept.of_eq (Same.get (f := .inst) a rfl) (Same.get (f := .regs) a rfl) h

theorem gateAnswer_kept {s t : State} {a0 : Nat}  (h : Kept D s t) : Kept D s (gateAnswer a0 t) := by
  unfold gateAnswer
  repeat' (first | with_reducible assumption | with_reducible refine count_kept (by first | with_reducible rfl | exact dyn_hub rfl | with_reducible exact dyn_hed _ rfl | with_reducible exact dyn_reed _ rfl | with_reducible exact dyn_lnk _ | with_reducible exact dyn_wit0 hn | with_reducible exact dyn_wit1 hn | with_reducible exact dyn_writer _ rfl rfl | with_reducible exact dyn_bob _ _ | with_reducible exact dyn_bob' _ _ | with_reducible exact dyn_compl _ | decide | (split <;> first | exact dyn_hub rfl | with_reducible exact dyn_hed _ rfl)) (by first | decide | with_reducible exact (bob_off _).1 | with_reducible exact (bob_off _).2 | with_reducible exact (compl_off _).1 | with_reducible exact (compl_off _).2 | (split <;> decide)) (by first | decide | with_reducible exact (bob_off _).1 | with_reducible exact (bob_off _).2 | with_reducible exact (compl_off _).1 | with_reducible exact (compl_off _).2 | (split <;> decide)) ?_ | with_reducible refine updGate_kept ?_ | (with_reducible show Kept D s _; first | exact ⟨h.inst, h.few, h.dyn, h.words⟩ | exact ⟨hx.inst, hx.few, hx.dyn, hx.words⟩))

theorem gateOpen_kept {s t : State} {a0 : Nat}  (h : Kept D s t) : Kept D s (gateOpen a0 t) := by
  unfold gateOpen
  repeat' (first | with_reducible assumption | with_reducible refine settleEpochs_kept ?_ | with_reducible refine gateAnswer_kept ?_ | with_reducible refine startGate_kept ?_ | with_reducible refine Kept.ite ?_ ?_ | split | (with_reducible show Kept D s _; first | exact ⟨h.inst, h.few, h.dyn, h.words⟩ | exact ⟨hx.inst, hx.few, hx.dyn, hx.words⟩))

theorem gateRequest_kept {s t : State} {a0 : Nat} {a1 : BitVec 4} {a2 : Tdc}  (h : Kept D s t) : Kept D s (gateRequest a0 a1 a2 t) := by
  unfold gateRequest
  repeat' (first | with_reducible assumption | with_reducible refine updGate_kept ?_ | with_reducible refine setPortErr_kept ?_ | with_reducible refine bump_kept (by first | with_reducible rfl | exact dyn_hub rfl | with_reducible exact dyn_hed _ rfl | with_reducible exact dyn_reed _ rfl | with_reducible exact dyn_lnk _ | with_reducible exact dyn_wit0 hn | with_reducible exact dyn_wit1 hn | with_reducible exact dyn_writer _ rfl rfl | with_reducible exact dyn_bob _ _ | with_reducible exact dyn_bob' _ _ | with_reducible exact dyn_compl _ | decide | (split <;> first | exact dyn_hub rfl | with_reducible exact dyn_hed _ rfl)) (by first | decide | with_reducible exact (bob_off _).1 | with_reducible exact (bob_off _).2 | with_reducible exact (compl_off _).1 | with_reducible exact (compl_off _).2 | (split <;> decide)) (by first | decide | with_reducible exact (bob_off _).1 | with_reducible exact (bob_off _).2 | with_reducible exact (compl_off _).1 | with_reducible exact (compl_off _).2 | (split <;> decide)) ?_ | with_reducible refine startGate_kept ?_ | with_reducible refine gateOpen_kept ?_ | (extract_lets +onlyGivenNames x; refine (fun (hx : Kept D s x) => ?_) ?_; rotate_left; dsimp only [x]; clear x; rotate_right; clear_value x) | with_reducible refine Kept.ite ?_ ?_ | split | (with_reducible show Kept D s _; first | exact ⟨h.inst, h.few, h.dyn, h.words⟩ | exact ⟨hx.inst, hx.few, hx.dyn, hx.words⟩))

theorem gateReleased_kept {s t : State} {a0 : Nat}  (h : Kept D s t) : Kept D s (gateReleased a0 t) := by
  unfold gateReleased
  repeat' (first | with_reducible assumption | with_reducible refine raise_kept ?_ | with_reducible refine bump_kept (by first | with_reducible rfl | exact dyn_hub rfl | with_reducible exact dyn_hed _ rfl | with_reducible exact dyn_reed _ rfl | with_reducible exact dyn_lnk _ | with_reducible exact dyn_wit0 hn | with_reducible exact dyn_wit1 hn | with_reducible exact dyn_writer _ rfl rfl | with_reducible exact dyn_bob _ _ | with_reducible exact dyn_bob' _ _ | with_reducible exact dyn_compl _ | decide | (split <;> first | exact dyn_hub rfl | with_reducible exact dyn_hed _ rfl)) (by first | decide | with_reducible exact (bob_off _).1 | with_reducible exact (bob_off _).2 | with_reducible exact (compl_off _).1 | with_reducible exact (compl_off _).2 | (split <;> decide)) (by first | decide | with_reducible exact (bob_off _).1 | with_reducible exact (bob_off _).2 | with_reducible exact (compl_off _).1 | with_reducible exact (compl_off _).2 | (split <;> decide)) ?_ | with_reducible refine updGate_kept ?_ | dsimp only | with_reducible refine Kept.ite ?_ ?_ | split | (with_reducible show Kept D s _; first | exact ⟨h.inst, h.few, h.dyn, h.words⟩ | exact ⟨hx.inst, hx.few, hx.dyn, hx.words⟩))

theorem updTests_kept {s t : State} {a0 : Tests → Tests}  (h : Kept D s t) : Kept D s (updTests a0 t) := by
  have a := updTests_same (F := (fun f => [Fld.tests].contains f)) (a0 := a0) rfl (Same.refl _ t)
  exact Kept.of_eq (Same.get (f := .inst) a rfl) (Same.get (f := .regs) a rfl) h

theorem offerTests_kept {s t : State}   (h : Kept D s t) : Kept D s (offerTests t) := by
  have a := offerTests_same (F := (fun f => [Fld.tests].contains f))  rfl (Same.refl _ t)
  exact Kept.of_eq (Same.get (f := .inst) a rfl) (Same.get (f := .regs) a rfl) h

theorem testTrigger_kept {s t : State} {a0 : Nat} {a1 : Nat} {a2 : Nat}  (h : Kept D s t) : Kept D s (testTrigger a0 a1 a2 t) := by
  have a := testTrigger_same (F := (fun f => [Fld.tests].contains f)) (a0 := a0) (a1 := a1) (a2 := a2) rfl (Same.refl _ t)
  exact Kept.of_eq (Same.get (f := .inst) a rfl) (Same.get (f := .regs) a rfl) h

theorem testRequest_kept {s t : State} {a0 : Nat} {a1 : Nat} {a2 : Nat} {a3 : TestState}  (h : Kept D s t) : Kept D s (testRequest a0 a1 a2 a3 t) := by
  unfold testRequest
  repeat' (first | with_reducible assumption | with_reducible refine raise_kept ?_ | with_reducible refine offerTests_kept ?_ | with_reducible refine updTests_kept ?_ | with_reducible refine Kept.ite ?_ ?_ | (with_reducible show Kept D s _; first | exact ⟨h.inst, h.few, h.dyn, h.words⟩ | exact ⟨hx.inst, hx.few, hx.dyn, hx.words⟩))

theorem testMarker_kept {s t : State} {a0 : Nat} {a1 : Nat}  (h : Kept D s t) : Kept D s (testMarker a0 a1 t) := by
  unfold testMarker
  repeat' (first | with_reducible assumption | with_reducible refine testRequest_kept ?_ | with_reducible refine foldl_kept (fun _ _ _ => ?_) ?_ | with_reducible refine Kept.ite ?_ ?_ | (with_reducible show Kept D s _; first | exact ⟨h.inst, h.few, h.dyn, h.words⟩ | exact ⟨hx.inst, hx.few, hx.dyn, hx.words⟩))

theorem testReport_kept {s t : State} {a0 : Nat} {a1 : Nat} {a2 : BitVec 32} {a3 : Nat} {a4 : TestState}  (h : Kept D s t) : Kept D s (testReport a0 a1 a2 a3 a4 t) := by
  unfold testReport
  repeat' (first | with_reducible assumption | with_reducible refine updTests_kept ?_ | with_reducible refine placeReport_kept ?_ | with_reducible refine Kept.ite ?_ ?_ | split | (with_reducible show Kept D s _; first | exact ⟨h.inst, h.few, h.dyn, h.words⟩ | exact ⟨hx.inst, hx.few, hx.dyn, hx.words⟩))

theorem testDeadline_kept {s t : State} {a0 : Nat} {a1 : Nat}  (h : Kept D s t) : Kept D s (testDeadline a0 a1 t) := by
  unfold testDeadline
  repeat' (first | with_reducible assumption | with_reducible refine testRequest_kept ?_ | with_reducible refine testReport_kept ?_ | dsimp only | with_reducible refine Kept.ite ?_ ?_ | split | (with_reducible show Kept D s _; first | exact ⟨h.inst, h.few, h.dyn, h.words⟩ | exact ⟨hx.inst, hx.few, hx.dyn, hx.words⟩))

theorem testResult_kept {s t : State} {a0 : Nat} {a1 : Nat} {a2 : Nat} {a3 : Bt} {a4 : BitVec 32} {a5 : Nat}  (h : Kept D s t) : Kept D s (testResult a0 a1 a2 a3 a4 a5 t).2 := by
  unfold testResult
  repeat' (first | with_reducible assumption | with_reducible refine testReport_kept ?_ | with_reducible refine foldl2_kept (fun _ _ _ => ?_) ?_ | with_reducible refine Kept.ite ?_ ?_ | split | (with_reducible show Kept D s _; first | exact ⟨h.inst, h.few, h.dyn, h.words⟩ | exact ⟨hx.inst, hx.few, hx.dyn, hx.words⟩))

theorem testResult_kept_eq {s t : State} {a0 : Nat} {a1 : Nat} {a2 : Nat} {a3 : Bt} {a4 : BitVec 32} {a5 : Nat}  {x} {u : State} (e : testResult a0 a1 a2 a3 a4 a5 t = (x, u)) (h : Kept D s t) : Kept D s u := by
  have := testResult_kept (s := s) (t := t) (a0 := a0) (a1 := a1) (a2 := a2) (a3 := a3) (a4 := a4) (a5 := a5) h
  rw [e] at this; exact this

theorem testRetired_kept {s t : State} {a0 : Nat}  (h : Kept D s t) : Kept D s (testRetired a0 t) := by
  unfold testRetired
  repeat' (first | with_reducible assumption | with_reducible refine testReport_kept ?_ | with_reducible refine foldl_kept (fun _ _ _ => ?_) ?_ | with_reducible refine Kept.ite ?_ ?_ | (with_reducible show Kept D s _; first | exact ⟨h.inst, h.few, h.dyn, h.words⟩ | exact ⟨hx.inst, hx.few, hx.dyn, hx.words⟩))

theorem testEnabled_kept {s t : State} {a0 : Nat}  (h : Kept D s t) : Kept D s (testEnabled a0 t) := by
  have a := testEnabled_same (F := (fun f => [Fld.tests].contains f)) (a0 := a0) rfl (Same.refl _ t)
  exact Kept.of_eq (Same.get (f := .inst) a rfl) (Same.get (f := .regs) a rfl) h

theorem freezeTests_kept {s t : State}   (h : Kept D s t) : Kept D s (freezeTests t) := by
  have a := freezeTests_same (F := (fun f => [Fld.tests].contains f))  rfl (Same.refl _ t)
  exact Kept.of_eq (Same.get (f := .inst) a rfl) (Same.get (f := .regs) a rfl) h

theorem testNext_kept {s t : State}   (h : Kept D s t) : Kept D s (testNext t).2 := by
  have a := testNext_same (F := (fun f => [Fld.tests].contains f))  rfl (Same.refl _ t)
  exact Kept.of_eq (Same.get (f := .inst) a rfl) (Same.get (f := .regs) a rfl) h

theorem testNext_kept_eq {s t : State}   {x} {u : State} (e : testNext t = (x, u)) (h : Kept D s t) : Kept D s u := by
  have := testNext_kept (s := s) (t := t)  h
  rw [e] at this; exact this

theorem manifestDone_kept {s t : State}   (h : Kept D s t) : Kept D s (manifestDone t) := by
  unfold manifestDone
  repeat' (first | with_reducible assumption | with_reducible refine updTests_kept ?_ | with_reducible refine setErr_kept ?_ | with_reducible refine Kept.ite ?_ ?_ | split | (with_reducible show Kept D s _; first | exact ⟨h.inst, h.few, h.dyn, h.words⟩ | exact ⟨hx.inst, hx.few, hx.dyn, hx.words⟩))

theorem updTime_kept {s t : State} {a0 : Nat} {a1 : LinkTime → LinkTime}  (h : Kept D s t) : Kept D s (updTime a0 a1 t) := by
  have a := updTime_same (F := (fun f => [Fld.linkTimes].contains f)) (a0 := a0) (a1 := a1) rfl (Same.refl _ t)
  exact Kept.of_eq (Same.get (f := .inst) a rfl) (Same.get (f := .regs) a rfl) h

theorem holdLnk_kept {s t : State} {a0 : Nat} {a1 : LinkHeld}  (h : Kept D s t) : Kept D s (holdLnk a0 a1 t) := by
  have a := holdLnk_same (F := (fun f => [Fld.links].contains f)) (a0 := a0) (a1 := a1) rfl (Same.refl _ t)
  exact Kept.of_eq (Same.get (f := .inst) a rfl) (Same.get (f := .regs) a rfl) h

theorem linkEvent_kept {s t : State} {a0 : Nat} {a1 : Nat} {a2 : At} {a3 : BitVec 2} {a4 : Nat}  (h : Kept D s t) : Kept D s (linkEvent a0 a1 a2 a3 a4 t) := by
  have a := linkEvent_same (F := (fun f => [Fld.links].contains f)) (a0 := a0) (a1 := a1) (a2 := a2) (a3 := a3) (a4 := a4) rfl (Same.refl _ t)
  exact Kept.of_eq (Same.get (f := .inst) a rfl) (Same.get (f := .regs) a rfl) h

theorem linkEventNow_kept {s t : State} {a0 : Nat} {a1 : Nat}  (h : Kept D s t) : Kept D s (linkEventNow a0 a1 t) := by
  have a := linkEventNow_same (F := (fun f => [Fld.links].contains f)) (a0 := a0) (a1 := a1) rfl (Same.refl _ t)
  exact Kept.of_eq (Same.get (f := .inst) a rfl) (Same.get (f := .regs) a rfl) h

theorem freezeForStop_kept {s t : State} {a0 : Nat} {a1 : Bool} {a2 : Nat}  (h : Kept D s t) : Kept D s (freezeForStop a0 a1 a2 t) := by
  have a := freezeForStop_same (F := (fun f => [Fld.links].contains f)) (a0 := a0) (a1 := a1) (a2 := a2) rfl (Same.refl _ t)
  exact Kept.of_eq (Same.get (f := .inst) a rfl) (Same.get (f := .regs) a rfl) h

theorem linkCut_kept {s t : State} {a0 : Nat} {a1 : Nat}  (h : Kept D s t) : Kept D s (linkCut a0 a1 t) := by
  have a := linkCut_same (F := (fun f => [Fld.links].contains f)) (a0 := a0) (a1 := a1) rfl (Same.refl _ t)
  exact Kept.of_eq (Same.get (f := .inst) a rfl) (Same.get (f := .regs) a rfl) h

theorem graceExpiry_kept {s t : State} {a0 : Nat}  (h : Kept D s t) : Kept D s (graceExpiry a0 t) := by
  have a := graceExpiry_same (F := (fun f => [Fld.links].contains f)) (a0 := a0) rfl (Same.refl _ t)
  exact Kept.of_eq (Same.get (f := .inst) a rfl) (Same.get (f := .regs) a rfl) h

theorem linkResume_kept {s t : State} {a0 : Nat}  (h : Kept D s t) : Kept D s (linkResume a0 t) := by
  have a := linkResume_same (F := (fun f => [Fld.links].contains f)) (a0 := a0) rfl (Same.refl _ t)
  exact Kept.of_eq (Same.get (f := .inst) a rfl) (Same.get (f := .regs) a rfl) h

theorem ringPut_kept {s t : State} {a0 : Nat} {a1 : Hdr} {a2 : Nat}  (h : Kept D s t) : Kept D s (ringPut a0 a1 a2 t) := by
  have a := ringPut_same (F := (fun f => [Fld.links].contains f)) (a0 := a0) (a1 := a1) (a2 := a2) rfl (Same.refl _ t)
  exact Kept.of_eq (Same.get (f := .inst) a rfl) (Same.get (f := .regs) a rfl) h

theorem loseHeaders_kept {s t : State} {a0 : Nat} {a1 : Nat}  (h : Kept D s t) : Kept D s (loseHeaders a0 a1 t) := by
  unfold loseHeaders
  repeat' (first | with_reducible assumption | with_reducible refine updLink_kept ?_ | with_reducible refine bump_kept (by first | with_reducible rfl | exact dyn_hub rfl | with_reducible exact dyn_hed _ rfl | with_reducible exact dyn_reed _ rfl | with_reducible exact dyn_lnk _ | with_reducible exact dyn_wit0 hn | with_reducible exact dyn_wit1 hn | with_reducible exact dyn_writer _ rfl rfl | with_reducible exact dyn_bob _ _ | with_reducible exact dyn_bob' _ _ | with_reducible exact dyn_compl _ | decide | (split <;> first | exact dyn_hub rfl | with_reducible exact dyn_hed _ rfl)) (by first | decide | with_reducible exact (bob_off _).1 | with_reducible exact (bob_off _).2 | with_reducible exact (compl_off _).1 | with_reducible exact (compl_off _).2 | (split <;> decide)) (by first | decide | with_reducible exact (bob_off _).1 | with_reducible exact (bob_off _).2 | with_reducible exact (compl_off _).1 | with_reducible exact (compl_off _).2 | (split <;> decide)) ?_ | with_reducible refine Kept.ite ?_ ?_ | (with_reducible show Kept D s _; first | exact ⟨h.inst, h.few, h.dyn, h.words⟩ | exact ⟨hx.inst, hx.few, hx.dyn, hx.words⟩))

theorem headerCapture_kept {s t : State} {a0 : Nat} {a1 : Hdr}  (h : Kept D s t) : Kept D s (headerCapture a0 a1 t) := by
  unfold headerCapture
  repeat' (first | with_reducible assumption | with_reducible refine updLink_kept ?_ | with_reducible refine setPortErr_kept ?_ | with_reducible refine loseHeaders_kept ?_ | with_reducible refine goBlind_kept ?_ | with_reducible refine queueReceipt_kept ?_ | with_reducible refine ringPut_kept ?_ | with_reducible refine bump_kept (by first | with_reducible rfl | exact dyn_hub rfl | with_reducible exact dyn_hed _ rfl | with_reducible exact dyn_reed _ rfl | with_reducible exact dyn_lnk _ | with_reducible exact dyn_wit0 hn | with_reducible exact dyn_wit1 hn | with_reducible exact dyn_writer _ rfl rfl | with_reducible exact dyn_bob _ _ | with_reducible exact dyn_bob' _ _ | with_reducible exact dyn_compl _ | decide | (split <;> first | exact dyn_hub rfl | with_reducible exact dyn_hed _ rfl)) (by first | decide | with_reducible exact (bob_off _).1 | with_reducible exact (bob_off _).2 | with_reducible exact (compl_off _).1 | with_reducible exact (compl_off _).2 | (split <;> decide)) (by first | decide | with_reducible exact (bob_off _).1 | with_reducible exact (bob_off _).2 | with_reducible exact (compl_off _).1 | with_reducible exact (compl_off _).2 | (split <;> decide)) ?_ | with_reducible refine setErr_kept ?_ | with_reducible refine Kept.ite ?_ ?_ | (with_reducible show Kept D s _; first | exact ⟨h.inst, h.few, h.dyn, h.words⟩ | exact ⟨hx.inst, hx.few, hx.dyn, hx.words⟩))

theorem ringRelease_kept {s t : State} {a0 : Nat}  (h : Kept D s t) : KeptO D s (ringRelease a0 t) := by
  intro u e
  have a := ringRelease_same (F := (fun f => [Fld.links].contains f)) (a0 := a0) rfl (Same.refl _ t) u e
  exact Kept.of_eq (Same.get (f := .inst) a rfl) (Same.get (f := .regs) a rfl) h

theorem updThreads_kept {s t : State} {a0 : Nat} {a1 : Thread → Bool} {a2 : Thread → Thread}  (h : Kept D s t) : Kept D s (updThreads a0 a1 a2 t) := by
  have a := updThreads_same (F := (fun f => [Fld.links].contains f)) (a0 := a0) (a1 := a1) (a2 := a2) rfl (Same.refl _ t)
  exact Kept.of_eq (Same.get (f := .inst) a rfl) (Same.get (f := .regs) a rfl) h

theorem listStep_kept {s t : State} {a0 : Nat}  (h : Kept D s t) : Kept D s (listStep a0 t).2 := by
  unfold listStep
  repeat' (first | with_reducible assumption | with_reducible refine emitExempt_kept ?_ | with_reducible refine updThreads_kept ?_ | with_reducible refine updLink_kept ?_ | dsimp only | with_reducible refine Kept.ite ?_ ?_ | split | (with_reducible show Kept D s _; first | exact ⟨h.inst, h.few, h.dyn, h.words⟩ | exact ⟨hx.inst, hx.few, hx.dyn, hx.words⟩))

theorem listStep_kept_eq {s t : State} {a0 : Nat}  {x} {u : State} (e : listStep a0 t = (x, u)) (h : Kept D s t) : Kept D s u := by
  have := listStep_kept (s := s) (t := t) (a0 := a0) h
  rw [e] at this; exact this

theorem listPump_kept {s t : State} {a0 : Nat} {a1 : Nat}  (h : Kept D s t) : Kept D s (listPump a0 a1 t) := by
  induction a0 generalizing t a1 with
  | zero => exact h
  | succ n ih =>
    unfold listPump
    repeat' (first | with_reducible assumption | (with_reducible refine ih ?_) | with_reducible refine listStep_kept ?_ | with_reducible refine Kept.ite ?_ ?_ | (with_reducible show Kept D s _; first | exact ⟨h.inst, h.few, h.dyn, h.words⟩ | exact ⟨hx.inst, hx.few, hx.dyn, hx.words⟩))

theorem LinkHeld_take_kept {s t : State} {a0 : Nat} {a1 : LinkHeld}  (h : Kept D s t) : Kept D s (LinkHeld.take a0 a1 t) := by
  unfold LinkHeld.take
  repeat' (first | with_reducible assumption | with_reducible refine emitExempt_kept ?_ | with_reducible refine updLink_kept ?_ | with_reducible refine Kept.ite ?_ ?_ | split | (with_reducible show Kept D s _; first | exact ⟨h.inst, h.few, h.dyn, h.words⟩ | exact ⟨hx.inst, hx.few, hx.dyn, hx.words⟩))

theorem offerLnk_kept {s t : State} {a0 : Nat} {a2 : LinkHeld}  (h : Kept D s t) : Kept D s (offerLnk a0 t a2) := by
  unfold offerLnk
  repeat' (first | with_reducible assumption | with_reducible refine holdLnk_kept ?_ | with_reducible refine LinkHeld_take_kept ?_ | with_reducible refine Kept.ite ?_ ?_ | (with_reducible show Kept D s _; first | exact ⟨h.inst, h.few, h.dyn, h.words⟩ | exact ⟨hx.inst, hx.few, hx.dyn, hx.words⟩))

theorem settleEvents_kept {s t : State} {a0 : Nat}  (h : Kept D s t) : Kept D s (settleEvents a0 t) := by
  unfold settleEvents
  repeat' (first | with_reducible assumption | with_reducible refine offerLnk_kept ?_ | with_reducible refine updLink_kept ?_ | with_reducible refine foldl_kept (fun _ _ _ => ?_) ?_ | with_reducible refine Kept.ite ?_ ?_ | (with_reducible show Kept D s _; first | exact ⟨h.inst, h.few, h.dyn, h.words⟩ | exact ⟨hx.inst, hx.few, hx.dyn, hx.words⟩))

theorem settleLnk_kept {s t : State} {a0 : Nat}  (h : Kept D s t) : Kept D s (settleLnk a0 t) := by
  unfold settleLnk
  repeat' (first | with_reducible assumption | with_reducible refine settleEvents_kept ?_ | with_reducible refine listPump_kept ?_ | (with_reducible show Kept D s _; first | exact ⟨h.inst, h.few, h.dyn, h.words⟩ | exact ⟨hx.inst, hx.few, hx.dyn, hx.words⟩))

theorem closeList_kept {s t : State} {a0 : Nat} {a1 : Nat} {a2 : Bool}  (h : Kept D s t) : Kept D s (closeList a0 a1 a2 t) := by
  have a := closeList_same (F := (fun f => [Fld.links].contains f)) (a0 := a0) (a1 := a1) (a2 := a2) rfl (Same.refl _ t)
  exact Kept.of_eq (Same.get (f := .inst) a rfl) (Same.get (f := .regs) a rfl) h

theorem linkDown_kept {s t : State} {a0 : Nat} {a1 : Nat} {a2 : Bt}  (h : Kept D s t) : Kept D s (linkDown a0 a1 a2 t) := by
  unfold linkDown
  repeat' (first | with_reducible assumption | with_reducible refine freezeForStop_kept ?_ | with_reducible refine updLink_kept ?_ | with_reducible refine settleLnk_kept ?_ | with_reducible refine closeList_kept ?_ | with_reducible refine Kept.ite ?_ ?_ | (with_reducible show Kept D s _; first | exact ⟨h.inst, h.few, h.dyn, h.words⟩ | exact ⟨hx.inst, hx.few, hx.dyn, hx.words⟩))

theorem unackEntry_kept {s t : State} {a0 : Nat} {a1 : BitVec 32} {a2 : BitVec 32}  (h : Kept D s t) : Kept D s (unackEntry a0 a1 a2 t) := by
  unfold unackEntry
  repeat' (first | with_reducible assumption | with_reducible refine bump_kept (by first | with_reducible rfl | exact dyn_hub rfl | with_reducible exact dyn_hed _ rfl | with_reducible exact dyn_reed _ rfl | with_reducible exact dyn_lnk _ | with_reducible exact dyn_wit0 hn | with_reducible exact dyn_wit1 hn | with_reducible exact dyn_writer _ rfl rfl | with_reducible exact dyn_bob _ _ | with_reducible exact dyn_bob' _ _ | with_reducible exact dyn_compl _ | decide | (split <;> first | exact dyn_hub rfl | with_reducible exact dyn_hed _ rfl)) (by first | decide | with_reducible exact (bob_off _).1 | with_reducible exact (bob_off _).2 | with_reducible exact (compl_off _).1 | with_reducible exact (compl_off _).2 | (split <;> decide)) (by first | decide | with_reducible exact (bob_off _).1 | with_reducible exact (bob_off _).2 | with_reducible exact (compl_off _).1 | with_reducible exact (compl_off _).2 | (split <;> decide)) ?_ | with_reducible refine setPortErr_kept ?_ | with_reducible refine setErr_kept ?_ | with_reducible refine updThreads_kept ?_ | with_reducible refine settleLnk_kept ?_ | with_reducible refine Kept.ite ?_ ?_ | split | (with_reducible show Kept D s _; first | exact ⟨h.inst, h.few, h.dyn, h.words⟩ | exact ⟨hx.inst, hx.few, hx.dyn, hx.words⟩))

theorem unackEnd_kept {s t : State} {a0 : Nat}  (h : Kept D s t) : Kept D s (unackEnd a0 t) := by
  unfold unackEnd
  repeat' (first | with_reducible assumption | with_reducible refine setPortErr_kept ?_ | with_reducible refine settleLnk_kept ?_ | with_reducible refine closeList_kept ?_ | with_reducible refine updThreads_kept ?_ | with_reducible refine Kept.ite ?_ ?_ | (with_reducible show Kept D s _; first | exact ⟨h.inst, h.few, h.dyn, h.words⟩ | exact ⟨hx.inst, hx.few, hx.dyn, hx.words⟩))

theorem listTimeout_kept {s t : State} {a0 : Nat}  (h : Kept D s t) : Kept D s (listTimeout a0 t) := by
  unfold listTimeout
  repeat' (first | with_reducible assumption | with_reducible refine settleLnk_kept ?_ | with_reducible refine setErr_kept ?_ | with_reducible refine closeList_kept ?_ | with_reducible refine Kept.ite ?_ ?_ | split | (with_reducible show Kept D s _; first | exact ⟨h.inst, h.few, h.dyn, h.words⟩ | exact ⟨hx.inst, hx.few, hx.dyn, hx.words⟩))

theorem linkFails_kept {s t : State} {a0 : Nat}  (h : Kept D s t) : Kept D s (linkFails a0 t) := by
  have a := linkFails_same (F := (fun f => [Fld.links].contains f)) (a0 := a0) rfl (Same.refl _ t)
  exact Kept.of_eq (Same.get (f := .inst) a rfl) (Same.get (f := .regs) a rfl) h

theorem linkLeaves_kept {s t : State} {a0 : Nat}  (h : Kept D s t) : Kept D s (linkLeaves a0 t) := by
  unfold linkLeaves
  repeat' (first | with_reducible assumption | with_reducible refine updLink_kept ?_ | with_reducible refine goBlind_kept ?_ | with_reducible refine Kept.ite ?_ ?_ | (with_reducible show Kept D s _; first | exact ⟨h.inst, h.few, h.dyn, h.words⟩ | exact ⟨hx.inst, hx.few, hx.dyn, hx.words⟩))

theorem epochQuery_kept {s t : State} {a0 : Nat} {a1 : Nat}  (h : Kept D s t) : Kept D s (epochQuery a0 a1 t) := by
  have a := epochQuery_same (F := (fun f => [Fld.links].contains f)) (a0 := a0) (a1 := a1) rfl (Same.refl _ t)
  exact Kept.of_eq (Same.get (f := .inst) a rfl) (Same.get (f := .regs) a rfl) h

theorem updCal_kept {s t : State} {a0 : Cal → Cal}  (h : Kept D s t) : Kept D s (updCal a0 t) := by
  have a := updCal_same (F := (fun f => [Fld.cal].contains f)) (a0 := a0) rfl (Same.refl _ t)
  exact Kept.of_eq (Same.get (f := .inst) a rfl) (Same.get (f := .regs) a rfl) h

theorem calPut_kept {s t : State} {a0 : Nat} {a1 : Nat} {a2 : Word}  (h : Kept D s t) : Kept D s (calPut a0 a1 a2 t) := by
  have a := calPut_same (F := (fun f => [Fld.cal].contains f)) (a0 := a0) (a1 := a1) (a2 := a2) rfl (Same.refl _ t)
  exact Kept.of_eq (Same.get (f := .inst) a rfl) (Same.get (f := .regs) a rfl) h

theorem calAccess_kept {s t : State} {a0 : Option Word}  (h : Kept D s t) : KeptOP D s (calAccess a0 t) := by
  unfold calAccess
  repeat' (first | with_reducible assumption | with_reducible refine calPut_kept ?_ | with_reducible refine regSetFld_kept (by first | with_reducible rfl | exact dyn_hub rfl | with_reducible exact dyn_hed _ rfl | with_reducible exact dyn_reed _ rfl | with_reducible exact dyn_lnk _ | with_reducible exact dyn_wit0 hn | with_reducible exact dyn_wit1 hn | with_reducible exact dyn_writer _ rfl rfl | with_reducible exact dyn_bob _ _ | with_reducible exact dyn_bob' _ _ | with_reducible exact dyn_compl _ | decide | (split <;> first | exact dyn_hub rfl | with_reducible exact dyn_hed _ rfl)) (by first | decide | with_reducible exact (bob_off _).1 | with_reducible exact (bob_off _).2 | with_reducible exact (compl_off _).1 | with_reducible exact (compl_off _).2 | (split <;> decide)) (by first | decide | with_reducible exact (bob_off _).1 | with_reducible exact (bob_off _).2 | with_reducible exact (compl_off _).1 | with_reducible exact (compl_off _).2 | (split <;> decide)) ?_ | with_reducible exact KeptOP.none | with_reducible refine KeptOP.some ?_ | dsimp only | with_reducible refine Kept.ite ?_ ?_ | split | (with_reducible show Kept D s _; first | exact ⟨h.inst, h.few, h.dyn, h.words⟩ | exact ⟨hx.inst, hx.few, hx.dyn, hx.words⟩))

theorem calStoreWrite_kept {s t : State} {a0 : Bool}  (h : Kept D s t) : Kept D s (calStoreWrite a0 t) := by
  unfold calStoreWrite
  repeat' (first | with_reducible assumption | with_reducible refine updCal_kept ?_ | with_reducible refine takeFree_kept ?_ | with_reducible refine setErr_kept ?_ | with_reducible refine Kept.ite ?_ ?_ | split | (with_reducible show Kept D s _; first | exact ⟨h.inst, h.few, h.dyn, h.words⟩ | exact ⟨hx.inst, hx.few, hx.dyn, hx.words⟩))

theorem calStart_kept {s t : State}   (h : Kept D s t) : Kept D s (calStart t) := by
  have a := calStart_same (F := (fun f => [Fld.tim].contains f))  rfl (Same.refl _ t)
  exact Kept.of_eq (Same.get (f := .inst) a rfl) (Same.get (f := .regs) a rfl) h

theorem calPartReset_kept {s t : State} {a0 : Nat}  (h : Kept D s t) : Kept D s (calPartReset a0 t) := by
  unfold calPartReset
  repeat' (first | with_reducible assumption | with_reducible refine setErr_kept ?_ | with_reducible refine Kept.ite ?_ ?_ | with_reducible refine Kept.set_tim ?_ | (with_reducible show Kept D s _; first | exact ⟨h.inst, h.few, h.dyn, h.words⟩ | exact ⟨hx.inst, hx.few, hx.dyn, hx.words⟩))

theorem supplyByte_kept {s t : State} {a1 : Nat} {a2 : Nat}  (h : Kept D s t) : Kept D s (supplyByte t a1 a2).2 := by
  have a := supplyByte_same (F := (fun f => [Fld.free].contains f)) (a1 := a1) (a2 := a2) rfl (Same.refl _ t)
  exact Kept.of_eq (Same.get (f := .inst) a rfl) (Same.get (f := .regs) a rfl) h

theorem supplyByte_kept_eq {s t : State} {a1 : Nat} {a2 : Nat}  {x} {u : State} (e : supplyByte t a1 a2 = (x, u)) (h : Kept D s t) : Kept D s u := by
  have := supplyByte_kept (s := s) (t := t) (a1 := a1) (a2 := a2) h
  rw [e] at this; exact this

theorem storeLine_kept {s t : State} {a0 : List (Nat × Word)} {a1 : Nat} {a2 : Nat}  (h : Kept D s t) : Kept D s (storeLine a0 a1 a2 t) := by
  have a := storeLine_same (F := (fun f => [Fld.cal, Fld.free].contains f)) (a0 := a0) (a1 := a1) (a2 := a2) rfl rfl (Same.refl _ t)
  exact Kept.of_eq (Same.get (f := .inst) a rfl) (Same.get (f := .regs) a rfl) h

theorem storePoint_kept {s t : State} {a0 : List (Nat × Word)} {a1 : Nat}  (h : Kept D s t) : Kept D s (storePoint a0 a1 t) := by
  have a := storePoint_same (F := (fun f => [Fld.cal, Fld.free].contains f)) (a0 := a0) (a1 := a1) rfl rfl (Same.refl _ t)
  exact Kept.of_eq (Same.get (f := .inst) a rfl) (Same.get (f := .regs) a rfl) h

theorem storeTemp_kept {s t : State} {a0 : Nat}  (h : Kept D s t) : Kept D s (storeTemp a0 t) := by
  have a := storeTemp_same (F := (fun f => [Fld.cal, Fld.free].contains f)) (a0 := a0) rfl rfl (Same.refl _ t)
  exact Kept.of_eq (Same.get (f := .inst) a rfl) (Same.get (f := .regs) a rfl) h

theorem calRunComplete_kept {s t : State} {a0 : List (Nat × Word)} {a1 : List Nat}  (h : Kept D s t) : Kept D s (calRunComplete a0 a1 t) := by
  unfold calRunComplete
  repeat' (first | with_reducible assumption | with_reducible refine storePoint_kept ?_ | with_reducible refine storeTemp_kept ?_ | with_reducible refine regPut_kept (by first | with_reducible rfl | exact dyn_hub rfl | with_reducible exact dyn_hed _ rfl | with_reducible exact dyn_reed _ rfl | with_reducible exact dyn_lnk _ | with_reducible exact dyn_wit0 hn | with_reducible exact dyn_wit1 hn | with_reducible exact dyn_writer _ rfl rfl | with_reducible exact dyn_bob _ _ | with_reducible exact dyn_bob' _ _ | with_reducible exact dyn_compl _ | decide | (split <;> first | exact dyn_hub rfl | with_reducible exact dyn_hed _ rfl)) (by first | decide | with_reducible exact (bob_off _).1 | with_reducible exact (bob_off _).2 | with_reducible exact (compl_off _).1 | with_reducible exact (compl_off _).2 | (split <;> decide)) (by first | decide | with_reducible exact (bob_off _).1 | with_reducible exact (bob_off _).2 | with_reducible exact (compl_off _).1 | with_reducible exact (compl_off _).2 | (split <;> decide)) ?_ | with_reducible refine setErr_kept ?_ | with_reducible refine foldl_kept (fun _ _ _ => ?_) ?_ | with_reducible refine Kept.ite ?_ ?_ | with_reducible refine Kept.set_tim ?_ | (with_reducible show Kept D s _; first | exact ⟨h.inst, h.few, h.dyn, h.words⟩ | exact ⟨hx.inst, hx.few, hx.dyn, hx.words⟩))

theorem trimSample_kept {s t : State} {a0 : Nat} {a1 : Bool} {a2 : BitVec 16}  (h : Kept D s t) : Kept D s (trimSample a0 a1 a2 t).2 := by
  have a := trimSample_same (F := (fun f => [Fld.free].contains f)) (a0 := a0) (a1 := a1) (a2 := a2) rfl (Same.refl _ t)
  exact Kept.of_eq (Same.get (f := .inst) a rfl) (Same.get (f := .regs) a rfl) h

theorem trimSample_kept_eq {s t : State} {a0 : Nat} {a1 : Bool} {a2 : BitVec 16}  {x} {u : State} (e : trimSample a0 a1 a2 t = (x, u)) (h : Kept D s t) : Kept D s u := by
  have := trimSample_kept (s := s) (t := t) (a0 := a0) (a1 := a1) (a2 := a2) h
  rw [e] at this; exact this

theorem calRises_kept {s t : State}   (h : Kept D s t) : Kept D s (calRises t) := by
  unfold calRises
  repeat' (first | with_reducible assumption | with_reducible refine raise_kept ?_ | with_reducible refine calStart_kept ?_ | with_reducible refine Kept.ite ?_ ?_ | with_reducible refine Kept.set_tim ?_ | (with_reducible show Kept D s _; first | exact ⟨h.inst, h.few, h.dyn, h.words⟩ | exact ⟨hx.inst, hx.few, hx.dyn, hx.words⟩))

theorem mapChannel_kept {s t : State} {a0 : Nat}  (h : Kept D s t) : Kept D s (mapChannel a0 t) := by
  have a := mapChannel_same (F := (fun f => [Fld.sens, Fld.snsOn].contains f)) (a0 := a0) rfl rfl (Same.refl _ t)
  exact Kept.of_eq (Same.get (f := .inst) a rfl) (Same.get (f := .regs) a rfl) h

theorem sensorSample_kept {s t : State} {a0 : Nat} {a1 : Bool} {a2 : BitVec 16} {a3 : Tdc}  (h : Kept D s t) : Kept D s (sensorSample a0 a1 a2 a3 t) := by
  unfold sensorSample
  repeat' (first | with_reducible assumption | with_reducible refine mapChannel_kept ?_ | with_reducible refine setPortErr_kept ?_ | with_reducible refine bump_kept (by first | with_reducible rfl | exact dyn_hub rfl | with_reducible exact dyn_hed _ rfl | with_reducible exact dyn_reed _ rfl | with_reducible exact dyn_lnk _ | with_reducible exact dyn_wit0 hn | with_reducible exact dyn_wit1 hn | with_reducible exact dyn_writer _ rfl rfl | with_reducible exact dyn_bob _ _ | with_reducible exact dyn_bob' _ _ | with_reducible exact dyn_compl _ | decide | (split <;> first | exact dyn_hub rfl | with_reducible exact dyn_hed _ rfl)) (by first | decide | with_reducible exact (bob_off _).1 | with_reducible exact (bob_off _).2 | with_reducible exact (compl_off _).1 | with_reducible exact (compl_off _).2 | (split <;> decide)) (by first | decide | with_reducible exact (bob_off _).1 | with_reducible exact (bob_off _).2 | with_reducible exact (compl_off _).1 | with_reducible exact (compl_off _).2 | (split <;> decide)) ?_ | with_reducible refine trimSample_kept ?_ | with_reducible refine calRises_kept ?_ | with_reducible refine fillReports_kept ?_ | with_reducible refine Kept.ite ?_ ?_ | with_reducible refine Kept.set_sens ?_ | (with_reducible show Kept D s _; first | exact ⟨h.inst, h.few, h.dyn, h.words⟩ | exact ⟨hx.inst, hx.few, hx.dyn, hx.words⟩))

theorem cardLoad_kept {s t : State} {a0 : Nat}  (h : Kept D s t) : KeptO D s (cardLoad a0 t) := by
  intro u e
  have a := cardLoad_same (F := (fun f => [Fld.cards, Fld.shadows].contains f)) (a0 := a0) rfl rfl (Same.refl _ t) u e
  exact Kept.of_eq (Same.get (f := .inst) a rfl) (Same.get (f := .regs) a rfl) h

theorem copyShadow_kept {s t : State} {a0 : Nat}  (h : Kept D s t) : Kept D s (copyShadow a0 t) := by
  have a := copyShadow_same (F := (fun f => [Fld.shadows].contains f)) (a0 := a0) rfl (Same.refl _ t)
  exact Kept.of_eq (Same.get (f := .inst) a rfl) (Same.get (f := .regs) a rfl) h

theorem unserved_kept {s t : State} {a0 : Nat} {a1 : BitVec 4} {a2 : Bt}  (h : Kept D s t) : Kept D s (unserved a0 a1 a2 t) := by
  unfold unserved
  repeat' (first | with_reducible assumption | with_reducible refine bump_kept (by first | with_reducible rfl | exact dyn_hub rfl | with_reducible exact dyn_hed _ rfl | with_reducible exact dyn_reed _ rfl | with_reducible exact dyn_lnk _ | with_reducible exact dyn_wit0 hn | with_reducible exact dyn_wit1 hn | with_reducible exact dyn_writer _ rfl rfl | with_reducible exact dyn_bob _ _ | with_reducible exact dyn_bob' _ _ | with_reducible exact dyn_compl _ | decide | (split <;> first | exact dyn_hub rfl | with_reducible exact dyn_hed _ rfl)) (by first | decide | with_reducible exact (bob_off _).1 | with_reducible exact (bob_off _).2 | with_reducible exact (compl_off _).1 | with_reducible exact (compl_off _).2 | (split <;> decide)) (by first | decide | with_reducible exact (bob_off _).1 | with_reducible exact (bob_off _).2 | with_reducible exact (compl_off _).1 | with_reducible exact (compl_off _).2 | (split <;> decide)) ?_ | with_reducible refine taintOwn_kept ?_ | with_reducible refine settleEpochs_kept ?_ | with_reducible refine placePoison_kept ?_ | with_reducible refine Kept.ite ?_ ?_ | with_reducible refine Kept.set_lapsed ?_ | (with_reducible show Kept D s _; first | exact ⟨h.inst, h.few, h.dyn, h.words⟩ | exact ⟨hx.inst, hx.few, hx.dyn, hx.words⟩))

theorem drainOut_kept {s t : State} {a0 : Nat} {a1 : Nat}  (h : Kept D s t) : Kept D s (drainOut a0 a1 t) := by
  induction a0 generalizing t a1 with
  | zero => exact h
  | succ n ih =>
    unfold drainOut
    repeat' (first | with_reducible assumption | (with_reducible refine ih ?_) | with_reducible refine retain_kept ?_ | with_reducible refine updWit_kept ?_ | dsimp only | with_reducible refine Kept.ite ?_ ?_ | split | (with_reducible show Kept D s _; first | exact ⟨h.inst, h.few, h.dyn, h.words⟩ | exact ⟨hx.inst, hx.few, hx.dyn, hx.words⟩))

theorem witEmit_kept {s t : State} {a0 : Nat} {a1 : List (Bt × Pick)}  (h : Kept D s t) : Kept D s (witEmit a0 a1 t) := by
  unfold witEmit
  repeat' (first | with_reducible assumption | with_reducible refine drainOut_kept ?_ | with_reducible refine updWit_kept ?_ | with_reducible refine Kept.ite ?_ ?_ | (with_reducible show Kept D s _; first | exact ⟨h.inst, h.few, h.dyn, h.words⟩ | exact ⟨hx.inst, hx.few, hx.dyn, hx.words⟩))

theorem updCheck_kept {s t : State} {a0 : Nat} {a1 : BitVec 32} {a2 : Check → Check}  (h : Kept D s t) : Kept D s (updCheck a0 a1 a2 t) := by
  have a := updCheck_same (F := (fun f => [Fld.wits].contains f)) (a0 := a0) (a1 := a1) (a2 := a2) rfl (Same.refl _ t)
  exact Kept.of_eq (Same.get (f := .inst) a rfl) (Same.get (f := .regs) a rfl) h

theorem endCheck_kept {s t : State} {a0 : Nat} {a1 : Check} {a2 : Nat} {a3 : Nat} {a4 : Nat}  (h : Kept D s t) : Kept D s (endCheck a0 a1 a2 a3 a4 t) := by
  unfold endCheck
  repeat' (first | with_reducible assumption | with_reducible refine updWit_kept ?_ | with_reducible refine updCheck_kept ?_ | with_reducible refine bump_kept (by first | with_reducible rfl | exact dyn_hub rfl | with_reducible exact dyn_hed _ rfl | with_reducible exact dyn_reed _ rfl | with_reducible exact dyn_lnk _ | with_reducible exact dyn_wit0 hn | with_reducible exact dyn_wit1 hn | with_reducible exact dyn_writer _ rfl rfl | with_reducible exact dyn_bob _ _ | with_reducible exact dyn_bob' _ _ | with_reducible exact dyn_compl _ | decide | (split <;> first | exact dyn_hub rfl | with_reducible exact dyn_hed _ rfl)) (by first | decide | with_reducible exact (bob_off _).1 | with_reducible exact (bob_off _).2 | with_reducible exact (compl_off _).1 | with_reducible exact (compl_off _).2 | (split <;> decide)) (by first | decide | with_reducible exact (bob_off _).1 | with_reducible exact (bob_off _).2 | with_reducible exact (compl_off _).1 | with_reducible exact (compl_off _).2 | (split <;> decide)) ?_ | with_reducible refine Kept.ite ?_ ?_ | (with_reducible show Kept D s _; first | exact ⟨h.inst, h.few, h.dyn, h.words⟩ | exact ⟨hx.inst, hx.few, hx.dyn, hx.words⟩))

theorem acceptResult_kept {s t : State} {a0 : Nat} {a1 : Check} {a2 : Verdict}  (h : Kept D s t) : Kept D s (acceptResult a0 a1 a2 t) := by
  unfold acceptResult
  repeat' (first | with_reducible assumption | with_reducible refine retain_kept ?_ | with_reducible refine updWit_kept ?_ | with_reducible refine updOwn_kept ?_ | with_reducible refine bump_kept (by first | with_reducible rfl | exact dyn_hub rfl | with_reducible exact dyn_hed _ rfl | with_reducible exact dyn_reed _ rfl | with_reducible exact dyn_lnk _ | with_reducible exact dyn_wit0 hn | with_reducible exact dyn_wit1 hn | with_reducible exact dyn_writer _ rfl rfl | with_reducible exact dyn_bob _ _ | with_reducible exact dyn_bob' _ _ | with_reducible exact dyn_compl _ | decide | (split <;> first | exact dyn_hub rfl | with_reducible exact dyn_hed _ rfl)) (by first | decide | with_reducible exact (bob_off _).1 | with_reducible exact (bob_off _).2 | with_reducible exact (compl_off _).1 | with_reducible exact (compl_off _).2 | (split <;> decide)) (by first | decide | with_reducible exact (bob_off _).1 | with_reducible exact (bob_off _).2 | with_reducible exact (compl_off _).1 | with_reducible exact (compl_off _).2 | (split <;> decide)) ?_ | with_reducible refine raise_kept ?_ | with_reducible refine setErr_kept ?_ | with_reducible refine settleEpochs_kept ?_ | with_reducible refine placePoison_kept ?_ | with_reducible refine taintOwn_kept ?_ | with_reducible refine testResult_kept ?_ | with_reducible refine testTrigger_kept ?_ | dsimp only | with_reducible refine Kept.ite ?_ ?_ | (with_reducible show Kept D s _; first | exact ⟨h.inst, h.few, h.dyn, h.words⟩ | exact ⟨hx.inst, hx.few, hx.dyn, hx.words⟩))

theorem flushResults_kept {s t : State} {a0 : Nat} {a1 : Nat}  (h : Kept D s t) : Kept D s (flushResults a0 a1 t) := by
  induction a0 generalizing t a1 with
  | zero => exact h
  | succ n ih =>
    unfold flushResults
    repeat' (first | with_reducible assumption | (with_reducible refine ih ?_) | with_reducible refine drainOut_kept ?_ | with_reducible refine acceptResult_kept ?_ | with_reducible refine Kept.ite ?_ ?_ | split | (with_reducible show Kept D s _; first | exact ⟨h.inst, h.few, h.dyn, h.words⟩ | exact ⟨hx.inst, hx.few, hx.dyn, hx.words⟩))

theorem witFlush_kept {s t : State} {a0 : Nat}  (h : Kept D s t) : Kept D s (witFlush a0 t) := by
  unfold witFlush
  repeat' (first | with_reducible assumption | with_reducible refine flushResults_kept ?_ | with_reducible refine Kept.ite ?_ ?_ | (with_reducible show Kept D s _; first | exact ⟨h.inst, h.few, h.dyn, h.words⟩ | exact ⟨hx.inst, hx.few, hx.dyn, hx.words⟩))

theorem concludeCheck_kept {s t : State} {a0 : Nat} {a1 : Check}  (h : Kept D s t) : Kept D s (concludeCheck a0 a1 t) := by
  unfold concludeCheck
  repeat' (first | with_reducible assumption | with_reducible refine witEmit_kept ?_ | with_reducible refine bump_kept (by first | with_reducible rfl | exact dyn_hub rfl | with_reducible exact dyn_hed _ rfl | with_reducible exact dyn_reed _ rfl | with_reducible exact dyn_lnk _ | with_reducible exact dyn_wit0 hn | with_reducible exact dyn_wit1 hn | with_reducible exact dyn_writer _ rfl rfl | with_reducible exact dyn_bob _ _ | with_reducible exact dyn_bob' _ _ | with_reducible exact dyn_compl _ | decide | (split <;> first | exact dyn_hub rfl | with_reducible exact dyn_hed _ rfl)) (by first | decide | with_reducible exact (bob_off _).1 | with_reducible exact (bob_off _).2 | with_reducible exact (compl_off _).1 | with_reducible exact (compl_off _).2 | (split <;> decide)) (by first | decide | with_reducible exact (bob_off _).1 | with_reducible exact (bob_off _).2 | with_reducible exact (compl_off _).1 | with_reducible exact (compl_off _).2 | (split <;> decide)) ?_ | with_reducible refine endCheck_kept ?_ | with_reducible refine Kept.ite ?_ ?_ | with_reducible refine Kept.set_free ?_ | (with_reducible show Kept D s _; first | exact ⟨h.inst, h.few, h.dyn, h.words⟩ | exact ⟨hx.inst, hx.few, hx.dyn, hx.words⟩))

theorem giveShares_kept {s t : State} {a0 : Nat}  (h : Kept D s t) : Kept D s (giveShares a0 t) := by
  have a := giveShares_same (F := (fun f => [Fld.wits].contains f)) (a0 := a0) rfl (Same.refl _ t)
  exact Kept.of_eq (Same.get (f := .inst) a rfl) (Same.get (f := .regs) a rfl) h

theorem pumpChecks_kept {s t : State} {a0 : Nat} {a1 : Nat}  (h : Kept D s t) : Kept D s (pumpChecks a0 a1 t) := by
  induction a0 generalizing t a1 with
  | zero => exact h
  | succ n ih =>
    unfold pumpChecks
    repeat' (first | with_reducible assumption | (with_reducible refine ih ?_) | with_reducible refine endCheck_kept ?_ | with_reducible refine updWit_kept ?_ | with_reducible refine concludeCheck_kept ?_ | with_reducible refine giveShares_kept ?_ | dsimp only | with_reducible refine Kept.ite ?_ ?_ | split | (with_reducible show Kept D s _; first | exact ⟨h.inst, h.few, h.dyn, h.words⟩ | exact ⟨hx.inst, hx.few, hx.dyn, hx.words⟩))

theorem witRun_kept {s t : State} {a0 : Nat}  (h : Kept D s t) : Kept D s (witRun a0 t) := by
  unfold witRun
  repeat' (first | with_reducible assumption | with_reducible refine witFlush_kept ?_ | with_reducible refine pumpChecks_kept ?_ | with_reducible refine Kept.ite ?_ ?_ | (with_reducible show Kept D s _; first | exact ⟨h.inst, h.few, h.dyn, h.words⟩ | exact ⟨hx.inst, hx.few, hx.dyn, hx.words⟩))

theorem shareComplete_kept {s t : State} {a0 : Nat} (hn : a0 < 1024) (h : Kept D s t) : Kept D s (shareComplete a0 t) := by
  unfold shareComplete
  repeat' (first | with_reducible assumption | with_reducible refine count_kept (by first | with_reducible rfl | exact dyn_hub rfl | with_reducible exact dyn_hed _ rfl | with_reducible exact dyn_reed _ rfl | with_reducible exact dyn_lnk _ | with_reducible exact dyn_wit0 hn | with_reducible exact dyn_wit1 hn | with_reducible exact dyn_writer _ rfl rfl | with_reducible exact dyn_bob _ _ | with_reducible exact dyn_bob' _ _ | with_reducible exact dyn_compl _ | decide | (split <;> first | exact dyn_hub rfl | with_reducible exact dyn_hed _ rfl)) (by first | decide | with_reducible exact (bob_off _).1 | with_reducible exact (bob_off _).2 | with_reducible exact (compl_off _).1 | with_reducible exact (compl_off _).2 | (split <;> decide)) (by first | decide | with_reducible exact (bob_off _).1 | with_reducible exact (bob_off _).2 | with_reducible exact (compl_off _).1 | with_reducible exact (compl_off _).2 | (split <;> decide)) ?_ | with_reducible refine regPut_kept (by first | with_reducible rfl | exact dyn_hub rfl | with_reducible exact dyn_hed _ rfl | with_reducible exact dyn_reed _ rfl | with_reducible exact dyn_lnk _ | with_reducible exact dyn_wit0 hn | with_reducible exact dyn_wit1 hn | with_reducible exact dyn_writer _ rfl rfl | with_reducible exact dyn_bob _ _ | with_reducible exact dyn_bob' _ _ | with_reducible exact dyn_compl _ | decide | (split <;> first | exact dyn_hub rfl | with_reducible exact dyn_hed _ rfl)) (by first | decide | with_reducible exact (bob_off _).1 | with_reducible exact (bob_off _).2 | with_reducible exact (compl_off _).1 | with_reducible exact (compl_off _).2 | (split <;> decide)) (by first | decide | with_reducible exact (bob_off _).1 | with_reducible exact (bob_off _).2 | with_reducible exact (compl_off _).1 | with_reducible exact (compl_off _).2 | (split <;> decide)) ?_ | with_reducible refine witRun_kept ?_ | with_reducible refine updWit_kept ?_ | dsimp only | with_reducible refine Kept.ite ?_ ?_ | split | (with_reducible show Kept D s _; first | exact ⟨h.inst, h.few, h.dyn, h.words⟩ | exact ⟨hx.inst, hx.few, hx.dyn, hx.words⟩))

theorem shareAbandon_kept {s t : State} {a0 : Nat} (hn : a0 < 1024) (h : Kept D s t) : Kept D s (shareAbandon a0 t) := by
  unfold shareAbandon
  repeat' (first | with_reducible assumption | with_reducible refine witRun_kept ?_ | with_reducible refine bump_kept (by first | with_reducible rfl | exact dyn_hub rfl | with_reducible exact dyn_hed _ rfl | with_reducible exact dyn_reed _ rfl | with_reducible exact dyn_lnk _ | with_reducible exact dyn_wit0 hn | with_reducible exact dyn_wit1 hn | with_reducible exact dyn_writer _ rfl rfl | with_reducible exact dyn_bob _ _ | with_reducible exact dyn_bob' _ _ | with_reducible exact dyn_compl _ | decide | (split <;> first | exact dyn_hub rfl | with_reducible exact dyn_hed _ rfl)) (by first | decide | with_reducible exact (bob_off _).1 | with_reducible exact (bob_off _).2 | with_reducible exact (compl_off _).1 | with_reducible exact (compl_off _).2 | (split <;> decide)) (by first | decide | with_reducible exact (bob_off _).1 | with_reducible exact (bob_off _).2 | with_reducible exact (compl_off _).1 | with_reducible exact (compl_off _).2 | (split <;> decide)) ?_ | with_reducible refine updWit_kept ?_ | dsimp only | with_reducible refine Kept.ite ?_ ?_ | split | (with_reducible show Kept D s _; first | exact ⟨h.inst, h.few, h.dyn, h.words⟩ | exact ⟨hx.inst, hx.few, hx.dyn, hx.words⟩))

theorem drawMust_kept {s t : State} {a0 : Nat} {a1 : Nat}  (h : Kept D s t) : KeptO D s (drawMust a0 a1 t) := by
  intro u e
  have a := drawMust_same (F := (fun f => [Fld.reedGovs, Fld.gov].contains f)) (a0 := a0) (a1 := a1) rfl rfl (Same.refl _ t) u e
  exact Kept.of_eq (Same.get (f := .inst) a rfl) (Same.get (f := .regs) a rfl) h

theorem drawOther_kept {s t : State} {a0 : Nat} {a1 : Nat}  (h : Kept D s t) : KeptO D s (drawOther a0 a1 t) := by
  intro u e
  have a := drawOther_same (F := (fun f => [Fld.reedGovs, Fld.gov].contains f)) (a0 := a0) (a1 := a1) rfl rfl (Same.refl _ t) u e
  exact Kept.of_eq (Same.get (f := .inst) a rfl) (Same.get (f := .regs) a rfl) h

theorem acceptCheck_kept {s t : State} {a0 : Nat} {a1 : Nat} {a2 : QBeat} {a3 : CheckCard} {a4 : Bool} {a5 : Bool}  (h : Kept D s t) : Kept D s (acceptCheck a0 a1 a2 a3 a4 a5 t).2 := by
  unfold acceptCheck
  repeat' (first | with_reducible assumption | with_reducible refine count_kept (by first | with_reducible rfl | exact dyn_hub rfl | with_reducible exact dyn_hed _ rfl | with_reducible exact dyn_reed _ rfl | with_reducible exact dyn_lnk _ | with_reducible exact dyn_wit0 hn | with_reducible exact dyn_wit1 hn | with_reducible exact dyn_writer _ rfl rfl | with_reducible exact dyn_bob _ _ | with_reducible exact dyn_bob' _ _ | with_reducible exact dyn_compl _ | decide | (split <;> first | exact dyn_hub rfl | with_reducible exact dyn_hed _ rfl)) (by first | decide | with_reducible exact (bob_off _).1 | with_reducible exact (bob_off _).2 | with_reducible exact (compl_off _).1 | with_reducible exact (compl_off _).2 | (split <;> decide)) (by first | decide | with_reducible exact (bob_off _).1 | with_reducible exact (bob_off _).2 | with_reducible exact (compl_off _).1 | with_reducible exact (compl_off _).2 | (split <;> decide)) ?_ | with_reducible refine updWit_kept ?_ | with_reducible refine Kept.ite ?_ ?_ | (with_reducible show Kept D s _; first | exact ⟨h.inst, h.few, h.dyn, h.words⟩ | exact ⟨hx.inst, hx.few, hx.dyn, hx.words⟩))

theorem acceptCheck_kept_eq {s t : State} {a0 : Nat} {a1 : Nat} {a2 : QBeat} {a3 : CheckCard} {a4 : Bool} {a5 : Bool}  {x} {u : State} (e : acceptCheck a0 a1 a2 a3 a4 a5 t = (x, u)) (h : Kept D s t) : Kept D s u := by
  have := acceptCheck_kept (s := s) (t := t) (a0 := a0) (a1 := a1) (a2 := a2) (a3 := a3) (a4 := a4) (a5 := a5) h
  rw [e] at this; exact this

theorem deferTile_kept {s t : State} {a0 : Nat} {a1 : QBeat} {a2 : CheckCard} {a3 : BitVec 32} {a4 : Nat}  (h : Kept D s t) : Kept D s (deferTile a0 a1 a2 a3 a4 t) := by
  unfold deferTile
  repeat' (first | with_reducible assumption | with_reducible refine updReedGov_kept ?_ | with_reducible refine bump_kept (by first | with_reducible rfl | exact dyn_hub rfl | with_reducible exact dyn_hed _ rfl | with_reducible exact dyn_reed _ rfl | with_reducible exact dyn_lnk _ | with_reducible exact dyn_wit0 hn | with_reducible exact dyn_wit1 hn | with_reducible exact dyn_writer _ rfl rfl | with_reducible exact dyn_bob _ _ | with_reducible exact dyn_bob' _ _ | with_reducible exact dyn_compl _ | decide | (split <;> first | exact dyn_hub rfl | with_reducible exact dyn_hed _ rfl)) (by first | decide | with_reducible exact (bob_off _).1 | with_reducible exact (bob_off _).2 | with_reducible exact (compl_off _).1 | with_reducible exact (compl_off _).2 | (split <;> decide)) (by first | decide | with_reducible exact (bob_off _).1 | with_reducible exact (bob_off _).2 | with_reducible exact (compl_off _).1 | with_reducible exact (compl_off _).2 | (split <;> decide)) ?_ | with_reducible refine raise_kept ?_ | with_reducible refine witEmit_kept ?_ | with_reducible refine Kept.ite ?_ ?_ | (with_reducible show Kept D s _; first | exact ⟨h.inst, h.few, h.dyn, h.words⟩ | exact ⟨hx.inst, hx.few, hx.dyn, hx.words⟩))

theorem refuseTile_kept {s t : State} {a0 : Nat} {a1 : Nat} {a2 : Nat} {a3 : Nat} {a4 : QBeat} {a5 : CheckCard}  (h : Kept D s t) : Kept D s (refuseTile a0 a1 a2 a3 a4 a5 t) := by
  unfold refuseTile
  repeat' (first | with_reducible assumption | with_reducible refine bump_kept (by first | with_reducible rfl | exact dyn_hub rfl | with_reducible exact dyn_hed _ rfl | with_reducible exact dyn_reed _ rfl | with_reducible exact dyn_lnk _ | with_reducible exact dyn_wit0 hn | with_reducible exact dyn_wit1 hn | with_reducible exact dyn_writer _ rfl rfl | with_reducible exact dyn_bob _ _ | with_reducible exact dyn_bob' _ _ | with_reducible exact dyn_compl _ | decide | (split <;> first | exact dyn_hub rfl | with_reducible exact dyn_hed _ rfl)) (by first | decide | with_reducible exact (bob_off _).1 | with_reducible exact (bob_off _).2 | with_reducible exact (compl_off _).1 | with_reducible exact (compl_off _).2 | (split <;> decide)) (by first | decide | with_reducible exact (bob_off _).1 | with_reducible exact (bob_off _).2 | with_reducible exact (compl_off _).1 | with_reducible exact (compl_off _).2 | (split <;> decide)) ?_ | with_reducible refine updReedGov_kept ?_ | with_reducible refine updWit_kept ?_ | with_reducible refine Kept.ite ?_ ?_ | (with_reducible show Kept D s _; first | exact ⟨h.inst, h.few, h.dyn, h.words⟩ | exact ⟨hx.inst, hx.few, hx.dyn, hx.words⟩))

theorem admitTile_kept {s t : State} {a0 : Nat} {a1 : Nat} {a2 : Nat} {a3 : Nat} {a4 : QBeat} {a5 : CheckCard}  (h : Kept D s t) : Kept D s (admitTile a0 a1 a2 a3 a4 a5 t).2 := by
  unfold admitTile
  repeat' (first | with_reducible assumption | with_reducible refine updReedGov_kept ?_ | with_reducible refine acceptCheck_kept ?_ | with_reducible refine deferTile_kept ?_ | with_reducible refine drawMust_kept ?_ | with_reducible refine drawOther_kept ?_ | with_reducible refine refuseTile_kept ?_ | with_reducible exact KeptO.none | dsimp only | with_reducible refine Kept.ite ?_ ?_ | split | (with_reducible show Kept D s _; first | exact ⟨h.inst, h.few, h.dyn, h.words⟩ | exact ⟨hx.inst, hx.few, hx.dyn, hx.words⟩) | with_reducible refine (show KeptO D s _ from ?_) _ (by assumption))

theorem admitTile_kept_eq {s t : State} {a0 : Nat} {a1 : Nat} {a2 : Nat} {a3 : Nat} {a4 : QBeat} {a5 : CheckCard}  {x} {u : State} (e : admitTile a0 a1 a2 a3 a4 a5 t = (x, u)) (h : Kept D s t) : Kept D s u := by
  have := admitTile_kept (s := s) (t := t) (a0 := a0) (a1 := a1) (a2 := a2) (a3 := a3) (a4 := a4) (a5 := a5) h
  rw [e] at this; exact this

theorem admitWaiting_kept {s t : State} {a0 : Nat}  (h : Kept D s t) : Kept D s (admitWaiting a0 t) := by
  dsimp only [admitWaiting]
  repeat' (first | with_reducible assumption | with_reducible refine updReedGov_kept ?_ | with_reducible refine drawMust_kept ?_ | with_reducible refine drawMust_kept ?_ _ (by assumption) | with_reducible refine updCheck_kept ?_ | with_reducible refine updWit_kept ?_ | with_reducible refine witRun_kept ?_ | with_reducible refine foldl_kept (fun _ _ _ => ?_) ?_ | with_reducible refine Kept.ite ?_ ?_ | split | (with_reducible show Kept D s _; first | exact ⟨h.inst, h.few, h.dyn, h.words⟩ | exact ⟨hx.inst, hx.few, hx.dyn, hx.words⟩))

theorem fillTile_kept {s t : State} {a0 : Nat} {a1 : Check} {a2 : List Nat} {a3 : QBeat}  (h : Kept D s t) : Kept D s (fillTile a0 a1 a2 a3 t) := by
  unfold fillTile
  repeat' (first | with_reducible assumption | with_reducible refine count_kept (by first | with_reducible rfl | exact dyn_hub rfl | with_reducible exact dyn_hed _ rfl | with_reducible exact dyn_reed _ rfl | with_reducible exact dyn_lnk _ | with_reducible exact dyn_wit0 hn | with_reducible exact dyn_wit1 hn | with_reducible exact dyn_writer _ rfl rfl | with_reducible exact dyn_bob _ _ | with_reducible exact dyn_bob' _ _ | with_reducible exact dyn_compl _ | decide | (split <;> first | exact dyn_hub rfl | with_reducible exact dyn_hed _ rfl)) (by first | decide | with_reducible exact (bob_off _).1 | with_reducible exact (bob_off _).2 | with_reducible exact (compl_off _).1 | with_reducible exact (compl_off _).2 | (split <;> decide)) (by first | decide | with_reducible exact (bob_off _).1 | with_reducible exact (bob_off _).2 | with_reducible exact (compl_off _).1 | with_reducible exact (compl_off _).2 | (split <;> decide)) ?_ | with_reducible refine updCheck_kept ?_ | with_reducible refine endCheck_kept ?_ | with_reducible refine updWit_kept ?_ | dsimp only | with_reducible refine Kept.ite ?_ ?_ | split | (with_reducible show Kept D s _; first | exact ⟨h.inst, h.few, h.dyn, h.words⟩ | exact ⟨hx.inst, hx.few, hx.dyn, hx.words⟩))

theorem tileBeat_kept {s t : State} {a0 : Nat} {a1 : QBeat}  (h : Kept D s t) : Kept D s (tileBeat a0 a1 t) := by
  unfold tileBeat
  repeat' (first | with_reducible assumption | with_reducible refine witRun_kept ?_ | with_reducible refine fillTile_kept ?_ | with_reducible refine updWit_kept ?_ | with_reducible refine endCheck_kept ?_ | with_reducible refine bump_kept (by first | with_reducible rfl | exact dyn_hub rfl | with_reducible exact dyn_hed _ rfl | with_reducible exact dyn_reed _ rfl | with_reducible exact dyn_lnk _ | with_reducible exact dyn_wit0 hn | with_reducible exact dyn_wit1 hn | with_reducible exact dyn_writer _ rfl rfl | with_reducible exact dyn_bob _ _ | with_reducible exact dyn_bob' _ _ | with_reducible exact dyn_compl _ | decide | (split <;> first | exact dyn_hub rfl | with_reducible exact dyn_hed _ rfl)) (by first | decide | with_reducible exact (bob_off _).1 | with_reducible exact (bob_off _).2 | with_reducible exact (compl_off _).1 | with_reducible exact (compl_off _).2 | (split <;> decide)) (by first | decide | with_reducible exact (bob_off _).1 | with_reducible exact (bob_off _).2 | with_reducible exact (compl_off _).1 | with_reducible exact (compl_off _).2 | (split <;> decide)) ?_ | with_reducible refine admitTile_kept ?_ | with_reducible refine admitTile_kept_eq (by assumption) ?_ | with_reducible refine count_kept (by first | with_reducible rfl | exact dyn_hub rfl | with_reducible exact dyn_hed _ rfl | with_reducible exact dyn_reed _ rfl | with_reducible exact dyn_lnk _ | with_reducible exact dyn_wit0 hn | with_reducible exact dyn_wit1 hn | with_reducible exact dyn_writer _ rfl rfl | with_reducible exact dyn_bob _ _ | with_reducible exact dyn_bob' _ _ | with_reducible exact dyn_compl _ | decide | (split <;> first | exact dyn_hub rfl | with_reducible exact dyn_hed _ rfl)) (by first | decide | with_reducible exact (bob_off _).1 | with_reducible exact (bob_off _).2 | with_reducible exact (compl_off _).1 | with_reducible exact (compl_off _).2 | (split <;> decide)) (by first | decide | with_reducible exact (bob_off _).1 | with_reducible exact (bob_off _).2 | with_reducible exact (compl_off _).1 | with_reducible exact (compl_off _).2 | (split <;> decide)) ?_ | dsimp only | with_reducible refine Kept.ite ?_ ?_ | split | (with_reducible show Kept D s _; first | exact ⟨h.inst, h.few, h.dyn, h.words⟩ | exact ⟨hx.inst, hx.few, hx.dyn, hx.words⟩))

theorem mirrorIntake_kept {s t : State} {a0 : Nat}  (h : Kept D s t) : Kept D s (mirrorIntake a0 t) := by
  unfold mirrorIntake
  repeat' (first | with_reducible assumption | with_reducible refine updWit_kept ?_ | with_reducible refine tileBeat_kept ?_ | with_reducible refine Kept.ite ?_ ?_ | split | (with_reducible show Kept D s _; first | exact ⟨h.inst, h.few, h.dyn, h.words⟩ | exact ⟨hx.inst, hx.few, hx.dyn, hx.words⟩))

theorem beatLost_kept {s t : State} {a0 : Nat} {a1 : QBeat}  (h : Kept D s t) : Kept D s (beatLost a0 a1 t) := by
  unfold beatLost
  repeat' (first | with_reducible assumption | with_reducible refine setErr_kept ?_ | with_reducible refine bump_kept (by first | with_reducible rfl | exact dyn_hub rfl | with_reducible exact dyn_hed _ rfl | with_reducible exact dyn_reed _ rfl | with_reducible exact dyn_lnk _ | with_reducible exact dyn_wit0 hn | with_reducible exact dyn_wit1 hn | with_reducible exact dyn_writer _ rfl rfl | with_reducible exact dyn_bob _ _ | with_reducible exact dyn_bob' _ _ | with_reducible exact dyn_compl _ | decide | (split <;> first | exact dyn_hub rfl | with_reducible exact dyn_hed _ rfl)) (by first | decide | with_reducible exact (bob_off _).1 | with_reducible exact (bob_off _).2 | with_reducible exact (compl_off _).1 | with_reducible exact (compl_off _).2 | (split <;> decide)) (by first | decide | with_reducible exact (bob_off _).1 | with_reducible exact (bob_off _).2 | with_reducible exact (compl_off _).1 | with_reducible exact (compl_off _).2 | (split <;> decide)) ?_ | with_reducible refine tileBeat_kept ?_ | with_reducible refine updWit_kept ?_ | with_reducible refine Kept.ite ?_ ?_ | (with_reducible show Kept D s _; first | exact ⟨h.inst, h.few, h.dyn, h.words⟩ | exact ⟨hx.inst, hx.few, hx.dyn, hx.words⟩))

theorem outputBeat_kept {s t : State} {a0 : Nat} {a1 : OutBeat}  (h : Kept D s t) : Kept D s (outputBeat a0 a1 t) := by
  unfold outputBeat
  repeat' (first | with_reducible assumption | with_reducible refine updHed_kept ?_ | with_reducible refine bump_kept (by first | with_reducible rfl | exact dyn_hub rfl | with_reducible exact dyn_hed _ rfl | with_reducible exact dyn_reed _ rfl | with_reducible exact dyn_lnk _ | with_reducible exact dyn_wit0 hn | with_reducible exact dyn_wit1 hn | with_reducible exact dyn_writer _ rfl rfl | with_reducible exact dyn_bob _ _ | with_reducible exact dyn_bob' _ _ | with_reducible exact dyn_compl _ | decide | (split <;> first | exact dyn_hub rfl | with_reducible exact dyn_hed _ rfl)) (by first | decide | with_reducible exact (bob_off _).1 | with_reducible exact (bob_off _).2 | with_reducible exact (compl_off _).1 | with_reducible exact (compl_off _).2 | (split <;> decide)) (by first | decide | with_reducible exact (bob_off _).1 | with_reducible exact (bob_off _).2 | with_reducible exact (compl_off _).1 | with_reducible exact (compl_off _).2 | (split <;> decide)) ?_ | with_reducible refine captureLost_kept ?_ | with_reducible refine unserved_kept ?_ | with_reducible refine updWit_kept ?_ | with_reducible refine beatLost_kept ?_ | dsimp only | with_reducible refine Kept.ite ?_ ?_ | split | (with_reducible show Kept D s _; first | exact ⟨h.inst, h.few, h.dyn, h.words⟩ | exact ⟨hx.inst, hx.few, hx.dyn, hx.words⟩))

theorem gatherTimeout_kept {s t : State} {a0 : Nat} {a1 : BitVec 32}  (h : Kept D s t) : Kept D s (gatherTimeout a0 a1 t) := by
  unfold gatherTimeout
  repeat' (first | with_reducible assumption | with_reducible refine witRun_kept ?_ | with_reducible refine endCheck_kept ?_ | with_reducible refine Kept.ite ?_ ?_ | split | (with_reducible show Kept D s _; first | exact ⟨h.inst, h.few, h.dyn, h.words⟩ | exact ⟨hx.inst, hx.few, hx.dyn, hx.words⟩))

theorem loseSlot_kept {s t : State} {a0 : Nat} {a1 : Nat}  (h : Kept D s t) : Kept D s (loseSlot a0 a1 t) := by
  unfold loseSlot
  repeat' (first | with_reducible assumption | with_reducible refine setErr_kept ?_ | with_reducible refine bump_kept (by first | with_reducible rfl | exact dyn_hub rfl | with_reducible exact dyn_hed _ rfl | with_reducible exact dyn_reed _ rfl | with_reducible exact dyn_lnk _ | with_reducible exact dyn_wit0 hn | with_reducible exact dyn_wit1 hn | with_reducible exact dyn_writer _ rfl rfl | with_reducible exact dyn_bob _ _ | with_reducible exact dyn_bob' _ _ | with_reducible exact dyn_compl _ | decide | (split <;> first | exact dyn_hub rfl | with_reducible exact dyn_hed _ rfl)) (by first | decide | with_reducible exact (bob_off _).1 | with_reducible exact (bob_off _).2 | with_reducible exact (compl_off _).1 | with_reducible exact (compl_off _).2 | (split <;> decide)) (by first | decide | with_reducible exact (bob_off _).1 | with_reducible exact (bob_off _).2 | with_reducible exact (compl_off _).1 | with_reducible exact (compl_off _).2 | (split <;> decide)) ?_ | with_reducible refine updHed_kept ?_ | with_reducible refine Kept.ite ?_ ?_ | (with_reducible show Kept D s _; first | exact ⟨h.inst, h.few, h.dyn, h.words⟩ | exact ⟨hx.inst, hx.few, hx.dyn, hx.words⟩))

theorem stagingEcc_kept {s t : State} {a0 : Nat} {a1 : StagingHit}  (h : Kept D s t) : Kept D s (stagingEcc a0 a1 t) := by
  unfold stagingEcc
  repeat' (first | with_reducible assumption | with_reducible refine witRun_kept ?_ | with_reducible refine endCheck_kept ?_ | with_reducible refine loseSlot_kept ?_ | with_reducible refine Kept.ite ?_ ?_ | split | (with_reducible show Kept D s _; first | exact ⟨h.inst, h.few, h.dyn, h.words⟩ | exact ⟨hx.inst, hx.few, hx.dyn, hx.words⟩))

theorem reedLost_kept {s t : State} {a0 : Nat}  (h : Kept D s t) : Kept D s (reedLost a0 t) := by
  unfold reedLost
  repeat' (first | with_reducible assumption | with_reducible refine updWit_kept ?_ | with_reducible refine witFlush_kept ?_ | with_reducible refine Kept.ite ?_ ?_ | (with_reducible show Kept D s _; first | exact ⟨h.inst, h.few, h.dyn, h.words⟩ | exact ⟨hx.inst, hx.few, hx.dyn, hx.words⟩))

theorem newVecKey_kept {s t : State} {a0 : Nat}  (h : Kept D s t) : Kept D s (newVecKey a0 t) := by
  have a := newVecKey_same (F := (fun f => [Fld.wits, Fld.salts].contains f)) (a0 := a0) rfl rfl (Same.refl _ t)
  exact Kept.of_eq (Same.get (f := .inst) a rfl) (Same.get (f := .regs) a rfl) h

theorem cutContext_kept {s t : State} {a0 : Nat} {a1 : Nat} {a2 : Bt} {a3 : Bool} {a5 : Nat}  (h : Kept D s t) : Kept D s (cutContext a0 a1 a2 a3 t a5) := by
  have a := cutContext_same (F := (fun f => [Fld.heds].contains f)) (a0 := a0) (a1 := a1) (a2 := a2) (a3 := a3) (a5 := a5) rfl (Same.refl _ t)
  exact Kept.of_eq (Same.get (f := .inst) a rfl) (Same.get (f := .regs) a rfl) h

theorem hedCut_kept {s t : State} {a0 : Nat} {a1 : Nat}  (h : Kept D s t) : Kept D s (hedCut a0 a1 t) := by
  have a := hedCut_same (F := (fun f => [Fld.heds, Fld.hedStops].contains f)) (a0 := a0) (a1 := a1) rfl rfl (Same.refl _ t)
  exact Kept.of_eq (Same.get (f := .inst) a rfl) (Same.get (f := .regs) a rfl) h

theorem passCut_kept {s t : State} {a0 : Nat}  (h : Kept D s t) : Kept D s (passCut a0 t) := by
  have a := passCut_same (F := (fun f => [Fld.strs, Fld.closes].contains f)) (a0 := a0) rfl rfl (Same.refl _ t)
  exact Kept.of_eq (Same.get (f := .inst) a rfl) (Same.get (f := .regs) a rfl) h

theorem partCut_kept {s t : State} {a0 : Nat} {a1 : Nat}  (h : Kept D s t) : Kept D s (partCut a0 a1 t) := by
  have a := partCut_same (F := (fun f => [Fld.strs, Fld.closes, Fld.heds, Fld.stop, Fld.hedStops, Fld.links].contains f)) (a0 := a0) (a1 := a1) rfl rfl rfl rfl rfl rfl (Same.refl _ t)
  exact Kept.of_eq (Same.get (f := .inst) a rfl) (Same.get (f := .regs) a rfl) h

theorem treeArrival_kept {s t : State} {a0 : Nat}  (h : Kept D s t) : Kept D s (treeArrival a0 t) := by
  have a := treeArrival_same (F := (fun f => [Fld.strs, Fld.closes, Fld.heds, Fld.stop, Fld.hedStops, Fld.links].contains f)) (a0 := a0) rfl rfl rfl rfl rfl rfl (Same.refl _ t)
  exact Kept.of_eq (Same.get (f := .inst) a rfl) (Same.get (f := .regs) a rfl) h

theorem armedFire_kept {s t : State} {a0 : Nat}  (h : Kept D s t) : Kept D s (armedFire a0 t) := by
  unfold armedFire
  repeat' (first | with_reducible assumption | with_reducible refine partCut_kept ?_ | with_reducible refine launchArmed_kept ?_ | with_reducible refine Kept.ite ?_ ?_ | (with_reducible show Kept D s _; first | exact ⟨h.inst, h.few, h.dyn, h.words⟩ | exact ⟨hx.inst, hx.few, hx.dyn, hx.words⟩))

theorem ttCompare_kept {s t : State}   (h : Kept D s t) : Kept D s (ttCompare t) := by
  unfold ttCompare
  repeat' (first | with_reducible assumption | with_reducible refine launchArmed_kept ?_ | with_reducible refine Kept.ite ?_ ?_ | (with_reducible show Kept D s _; first | exact ⟨h.inst, h.few, h.dyn, h.words⟩ | exact ⟨hx.inst, hx.few, hx.dyn, hx.words⟩))

theorem armStop_kept {s t : State}   (h : Kept D s t) : KeptO D s (armStop t) := by
  intro u e
  have a := armStop_same (F := (fun f => [Fld.stop].contains f))  rfl (Same.refl _ t) u e
  exact Kept.of_eq (Same.get (f := .inst) a rfl) (Same.get (f := .regs) a rfl) h

theorem disarmStop_kept {s t : State}   (h : Kept D s t) : KeptO D s (disarmStop t) := by
  intro u e
  have a := disarmStop_same (F := (fun f => [Fld.stop].contains f))  rfl (Same.refl _ t) u e
  exact Kept.of_eq (Same.get (f := .inst) a rfl) (Same.get (f := .regs) a rfl) h

theorem stopNow_kept {s t : State}   (h : Kept D s t) : KeptO D s (stopNow t) := by
  unfold stopNow
  repeat' (first | with_reducible assumption | with_reducible refine launchArmed_kept ?_ | with_reducible refine stopEvent_kept ?_ | with_reducible exact KeptO.none | with_reducible refine KeptO.some ?_ | with_reducible refine KeptO.ite ?_ ?_ | split | (with_reducible show Kept D s _; first | exact ⟨h.inst, h.few, h.dyn, h.words⟩ | exact ⟨hx.inst, hx.few, hx.dyn, hx.words⟩))

theorem resumeStop_kept {s t : State}   (h : Kept D s t) : KeptO D s (resumeStop t) := by
  intro u e
  have a := resumeStop_same (F := (fun f => [Fld.stop].contains f))  rfl (Same.refl _ t) u e
  exact Kept.of_eq (Same.get (f := .inst) a rfl) (Same.get (f := .regs) a rfl) h

theorem stopInPin_kept {s t : State} {a0 : Tdc}  (h : Kept D s t) : Kept D s (stopInPin a0 t) := by
  unfold stopInPin
  repeat' (first | with_reducible assumption | with_reducible refine stopEvent_kept ?_ | with_reducible refine Kept.ite ?_ ?_ | (with_reducible show Kept D s _; first | exact ⟨h.inst, h.few, h.dyn, h.words⟩ | exact ⟨hx.inst, hx.few, hx.dyn, hx.words⟩))

theorem stopEnters_kept {s t : State} {a0 : Nat}  (h : Kept D s t) : Kept D s (stopEnters a0 t) := by
  have a := stopEnters_same (F := (fun f => [Fld.stop, Fld.hedStops].contains f)) (a0 := a0) rfl rfl (Same.refl _ t)
  exact Kept.of_eq (Same.get (f := .inst) a rfl) (Same.get (f := .regs) a rfl) h

theorem lowerHold_kept {s t : State} {a0 : Nat}  (h : Kept D s t) : Kept D s (lowerHold a0 t) := by
  have a := lowerHold_same (F := (fun f => [Fld.hedStops].contains f)) (a0 := a0) rfl (Same.refl _ t)
  exact Kept.of_eq (Same.get (f := .inst) a rfl) (Same.get (f := .regs) a rfl) h

theorem holdAck_kept {s t : State} {a0 : Nat} {a1 : Tdc}  (h : Kept D s t) : Kept D s (holdAck a0 a1 t) := by
  have a := holdAck_same (F := (fun f => [Fld.hedStops].contains f)) (a0 := a0) (a1 := a1) rfl (Same.refl _ t)
  exact Kept.of_eq (Same.get (f := .inst) a rfl) (Same.get (f := .regs) a rfl) h

theorem holdTimeout_kept {s t : State} {a0 : Nat}  (h : Kept D s t) : Kept D s (holdTimeout a0 t) := by
  unfold holdTimeout
  repeat' (first | with_reducible assumption | with_reducible refine raise_kept ?_ | with_reducible refine setErr_kept ?_ | with_reducible refine updHedStop_kept ?_ | with_reducible refine Kept.ite ?_ ?_ | (with_reducible show Kept D s _; first | exact ⟨h.inst, h.few, h.dyn, h.words⟩ | exact ⟨hx.inst, hx.few, hx.dyn, hx.words⟩))

theorem scanFail_kept {s t : State} {a0 : Nat} {a1 : Nat}  (h : Kept D s t) : Kept D s (scanFail a0 a1 t) := by
  unfold scanFail
  repeat' (first | with_reducible assumption | with_reducible refine setErr_kept ?_ | with_reducible refine bump_kept (by first | with_reducible rfl | exact dyn_hub rfl | with_reducible exact dyn_hed _ rfl | with_reducible exact dyn_reed _ rfl | with_reducible exact dyn_lnk _ | with_reducible exact dyn_wit0 hn | with_reducible exact dyn_wit1 hn | with_reducible exact dyn_writer _ rfl rfl | with_reducible exact dyn_bob _ _ | with_reducible exact dyn_bob' _ _ | with_reducible exact dyn_compl _ | decide | (split <;> first | exact dyn_hub rfl | with_reducible exact dyn_hed _ rfl)) (by first | decide | with_reducible exact (bob_off _).1 | with_reducible exact (bob_off _).2 | with_reducible exact (compl_off _).1 | with_reducible exact (compl_off _).2 | (split <;> decide)) (by first | decide | with_reducible exact (bob_off _).1 | with_reducible exact (bob_off _).2 | with_reducible exact (compl_off _).1 | with_reducible exact (compl_off _).2 | (split <;> decide)) ?_ | with_reducible refine updHedStop_kept ?_ | with_reducible refine Kept.ite ?_ ?_ | (with_reducible show Kept D s _; first | exact ⟨h.inst, h.few, h.dyn, h.words⟩ | exact ⟨hx.inst, hx.few, hx.dyn, hx.words⟩))

theorem scanHeadOf_kept {s t : State} {a0 : Nat}  (h : Kept D s t) : Kept D s (scanHeadOf a0 t).2.2 := by
  have a := scanHeadOf_same (F := (fun f => [Fld.key].contains f)) (a0 := a0) rfl (Same.refl _ t)
  exact Kept.of_eq (Same.get (f := .inst) a rfl) (Same.get (f := .regs) a rfl) h

theorem scanHeadOf_kept_eq {s t : State} {a0 : Nat}  {x y} {u : State} (e : scanHeadOf a0 t = (x, y, u)) (h : Kept D s t) : Kept D s u := by
  have := scanHeadOf_kept (s := s) (t := t) (a0 := a0) h
  rw [e] at this; exact this

theorem scanBlock_kept {s t : State} {a0 : Nat} {a1 : Bool}  (h : Kept D s t) : Kept D s (scanBlock a0 a1 t).2 := by
  have a := scanBlock_same (F := (fun f => [Fld.key].contains f)) (a0 := a0) (a1 := a1) rfl (Same.refl _ t)
  exact Kept.of_eq (Same.get (f := .inst) a rfl) (Same.get (f := .regs) a rfl) h

theorem scanBlock_kept_eq {s t : State} {a0 : Nat} {a1 : Bool}  {x} {u : State} (e : scanBlock a0 a1 t = (x, u)) (h : Kept D s t) : Kept D s u := by
  have := scanBlock_kept (s := s) (t := t) (a0 := a0) (a1 := a1) h
  rw [e] at this; exact this

theorem handBlock_kept {s t : State} {a0 : Nat} {a1 : Bool}  (h : Kept D s t) : Kept D s (handBlock a0 a1 t) := by
  have a := handBlock_same (F := (fun f => [Fld.reedGovs, Fld.hedStops].contains f)) (a0 := a0) (a1 := a1) rfl rfl (Same.refl _ t)
  exact Kept.of_eq (Same.get (f := .inst) a rfl) (Same.get (f := .regs) a rfl) h

theorem scanLast_kept {s t : State} {a0 : Nat}  (h : Kept D s t) : Kept D s (scanLast a0 t) := by
  have a := scanLast_same (F := (fun f => [Fld.hedStops].contains f)) (a0 := a0) rfl (Same.refl _ t)
  exact Kept.of_eq (Same.get (f := .inst) a rfl) (Same.get (f := .regs) a rfl) h

theorem scanWord_kept {s t : State} {a0 : Nat} {a1 : BitVec 32} {a2 : Bool}  (h : Kept D s t) : Kept D s (scanWord a0 a1 a2 t) := by
  unfold scanWord
  repeat' (first | with_reducible assumption | with_reducible refine setPortErr_kept ?_ | with_reducible refine updHedStop_kept ?_ | with_reducible refine handBlock_kept ?_ | with_reducible refine scanFail_kept ?_ | with_reducible refine scanLast_kept ?_ | with_reducible refine Kept.ite ?_ ?_ | (with_reducible show Kept D s _; first | exact ⟨h.inst, h.few, h.dyn, h.words⟩ | exact ⟨hx.inst, hx.few, hx.dyn, hx.words⟩))

theorem scanWordTimeout_kept {s t : State} {a0 : Nat}  (h : Kept D s t) : Kept D s (scanWordTimeout a0 t) := by
  unfold scanWordTimeout
  repeat' (first | with_reducible assumption | with_reducible refine scanFail_kept ?_ | dsimp only | with_reducible refine Kept.ite ?_ ?_ | split | (with_reducible show Kept D s _; first | exact ⟨h.inst, h.few, h.dyn, h.words⟩ | exact ⟨hx.inst, hx.few, hx.dyn, hx.words⟩))

theorem scanDoneBlock_kept {s t : State} {a0 : Nat} {a1 : Nat} {a2 : Bool}  (h : Kept D s t) : Kept D s (scanDoneBlock a0 a1 a2 t) := by
  unfold scanDoneBlock
  repeat' (first | with_reducible assumption | with_reducible refine updHedStop_kept ?_ | with_reducible refine scanLast_kept ?_ | with_reducible refine scanFail_kept ?_ | dsimp only | with_reducible refine Kept.ite ?_ ?_ | split | (with_reducible show Kept D s _; first | exact ⟨h.inst, h.few, h.dyn, h.words⟩ | exact ⟨hx.inst, hx.few, hx.dyn, hx.words⟩))

theorem issueScan_kept {s t : State} {a0 : Nat} {a1 : Nat} {a2 : Nat}  (h : Kept D s t) : Kept D s (issueScan a0 a1 a2 t) := by
  unfold issueScan
  repeat' (first | with_reducible assumption | with_reducible refine scanBlock_kept ?_ | with_reducible refine updHedStop_kept ?_ | with_reducible refine updReedGov_kept ?_ | with_reducible refine bump_kept (by first | with_reducible rfl | exact dyn_hub rfl | with_reducible exact dyn_hed _ rfl | with_reducible exact dyn_reed _ rfl | with_reducible exact dyn_lnk _ | with_reducible exact dyn_wit0 hn | with_reducible exact dyn_wit1 hn | with_reducible exact dyn_writer _ rfl rfl | with_reducible exact dyn_bob _ _ | with_reducible exact dyn_bob' _ _ | with_reducible exact dyn_compl _ | decide | (split <;> first | exact dyn_hub rfl | with_reducible exact dyn_hed _ rfl)) (by first | decide | with_reducible exact (bob_off _).1 | with_reducible exact (bob_off _).2 | with_reducible exact (compl_off _).1 | with_reducible exact (compl_off _).2 | (split <;> decide)) (by first | decide | with_reducible exact (bob_off _).1 | with_reducible exact (bob_off _).2 | with_reducible exact (compl_off _).1 | with_reducible exact (compl_off _).2 | (split <;> decide)) ?_ | with_reducible refine sendBlock_kept ?_ | split | with_reducible refine Kept.set_exempt ?_ | (with_reducible show Kept D s _; first | exact ⟨h.inst, h.few, h.dyn, h.words⟩ | exact ⟨hx.inst, hx.few, hx.dyn, hx.words⟩))

theorem scanRedo_kept {s t : State} {a0 : Nat}  (h : Kept D s t) : Kept D s (scanRedo a0 t) := by
  unfold scanRedo
  repeat' (first | with_reducible assumption | with_reducible refine scanDoneBlock_kept ?_ | with_reducible refine updHedStop_kept ?_ | with_reducible refine foldl_kept (fun _ _ _ => ?_) ?_ | split | (with_reducible show Kept D s _; first | exact ⟨h.inst, h.few, h.dyn, h.words⟩ | exact ⟨hx.inst, hx.few, hx.dyn, hx.words⟩))

theorem dropScan_kept {s t : State} {a0 : Nat} {a1 : Nat}  (h : Kept D s t) : Kept D s (dropScan a0 a1 t) := by
  unfold dropScan
  repeat' (first | with_reducible assumption | with_reducible refine scanFail_kept ?_ | with_reducible refine updHedStop_kept ?_ | with_reducible refine scanLast_kept ?_ | dsimp only | split | (with_reducible show Kept D s _; first | exact ⟨h.inst, h.few, h.dyn, h.words⟩ | exact ⟨hx.inst, hx.few, hx.dyn, hx.words⟩))

theorem abandonScans_kept {s t : State} {a0 : Nat}  (h : Kept D s t) : Kept D s (abandonScans a0 t) := by
  unfold abandonScans
  repeat' (first | with_reducible assumption | with_reducible refine updHedStop_kept ?_ | with_reducible refine dropScan_kept ?_ | with_reducible refine foldl_kept (fun _ _ _ => ?_) ?_ | split | (with_reducible show Kept D s _; first | exact ⟨h.inst, h.few, h.dyn, h.words⟩ | exact ⟨hx.inst, hx.few, hx.dyn, hx.words⟩))

theorem settleAll_kept {s t : State}   (h : Kept D s t) : Kept D s (settleAll t) := by
  unfold settleAll
  repeat' (first | with_reducible assumption | with_reducible refine settleLnk_kept ?_ | with_reducible refine settleSpans_kept ?_ | with_reducible refine foldl_kept (fun _ _ _ => ?_) ?_ | (with_reducible show Kept D s _; first | exact ⟨h.inst, h.few, h.dyn, h.words⟩ | exact ⟨hx.inst, hx.few, hx.dyn, hx.words⟩))

theorem cutComplete_kept {s t : State}   (h : Kept D s t) : Kept D s (cutComplete t) := by
  unfold cutComplete
  repeat' (first | with_reducible assumption | with_reducible refine settleAll_kept ?_ | with_reducible refine Kept.ite ?_ ?_ | with_reducible refine Kept.set_stop ?_ | (with_reducible show Kept D s _; first | exact ⟨h.inst, h.few, h.dyn, h.words⟩ | exact ⟨hx.inst, hx.few, hx.dyn, hx.words⟩))

theorem hedResume_kept {s t : State} {a0 : Nat}  (h : Kept D s t) : Kept D s (hedResume a0 t) := by
  have a := hedResume_same (F := (fun f => [Fld.heds, Fld.hedStops].contains f)) (a0 := a0) rfl rfl (Same.refl _ t)
  exact Kept.of_eq (Same.get (f := .inst) a rfl) (Same.get (f := .regs) a rfl) h

theorem resumeArrival_kept {s t : State} {a0 : Nat}  (h : Kept D s t) : Kept D s (resumeArrival a0 t) := by
  have a := resumeArrival_same (F := (fun f => [Fld.heds, Fld.stop, Fld.hedStops, Fld.wits, Fld.links].contains f)) (a0 := a0) rfl rfl rfl rfl rfl (Same.refl _ t)
  exact Kept.of_eq (Same.get (f := .inst) a rfl) (Same.get (f := .regs) a rfl) h

theorem resumeComplete_kept {s t : State}   (h : Kept D s t) : Kept D s (resumeComplete t) := by
  have a := resumeComplete_same (F := (fun f => [Fld.stop].contains f))  rfl (Same.refl _ t)
  exact Kept.of_eq (Same.get (f := .inst) a rfl) (Same.get (f := .regs) a rfl) h

theorem sendMsg_kept {s t : State} {a0 : Nat} {a1 : Nat}  (h : Kept D s t) : Kept D s (sendMsg a0 a1 t) := by
  have a := sendMsg_same (F := (fun f => [Fld.tim].contains f)) (a0 := a0) (a1 := a1) rfl (Same.refl _ t)
  exact Kept.of_eq (Same.get (f := .inst) a rfl) (Same.get (f := .regs) a rfl) h

theorem statusMsg_kept {s t : State}   (h : Kept D s t) : Kept D s (statusMsg t) := by
  have a := statusMsg_same (F := (fun f => [Fld.tim].contains f))  rfl (Same.refl _ t)
  exact Kept.of_eq (Same.get (f := .inst) a rfl) (Same.get (f := .regs) a rfl) h

theorem timeRecord_kept {s t : State} {a0 : Nat} {a1 : Nat} {a2 : At} {a3 : Int}  (h : Kept D s t) : Kept D s (timeRecord a0 a1 a2 a3 t) := by
  unfold timeRecord
  repeat' (first | with_reducible assumption | with_reducible refine emitHub_kept ?_ | with_reducible refine Kept.ite ?_ ?_ | with_reducible refine Kept.set_owed ?_ | (with_reducible show Kept D s _; first | exact ⟨h.inst, h.few, h.dyn, h.words⟩ | exact ⟨hx.inst, hx.few, hx.dyn, hx.words⟩))

theorem timeEvent_kept {s t : State} {a0 : Nat} {a1 : Nat}  (h : Kept D s t) : Kept D s (timeEvent a0 a1 t) := by
  unfold timeEvent
  repeat' (first | with_reducible assumption | with_reducible refine timeRecord_kept ?_ | (with_reducible show Kept D s _; first | exact ⟨h.inst, h.few, h.dyn, h.words⟩ | exact ⟨hx.inst, hx.few, hx.dyn, hx.words⟩))

theorem payOwed_kept {s t : State}   (h : Kept D s t) : Kept D s (payOwed t) := by
  unfold payOwed
  repeat' (first | with_reducible assumption | with_reducible refine emitHub_kept ?_ | with_reducible refine foldl_kept (fun _ _ _ => ?_) ?_ | with_reducible refine Kept.ite ?_ ?_ | with_reducible refine Kept.set_owed ?_ | (with_reducible show Kept D s _; first | exact ⟨h.inst, h.few, h.dyn, h.words⟩ | exact ⟨hx.inst, hx.few, hx.dyn, hx.words⟩))

theorem announce_kept {s t : State} {a0 : Nat} {a1 : Nat} {a2 : Int}  (h : Kept D s t) : KeptO D s (announce a0 a1 a2 t) := by
  intro u e
  have a := announce_same (F := (fun f => [Fld.tim].contains f)) (a0 := a0) (a1 := a1) (a2 := a2) rfl (Same.refl _ t) u e
  exact Kept.of_eq (Same.get (f := .inst) a rfl) (Same.get (f := .regs) a rfl) h

theorem announceDelta_kept {s t : State} {a0 : Nat} {a1 : Nat} {a2 : Int}  (h : Kept D s t) : KeptO D s (announceDelta a0 a1 a2 t) := by
  intro u e
  have a := announceDelta_same (F := (fun f => [Fld.tim].contains f)) (a0 := a0) (a1 := a1) (a2 := a2) rfl (Same.refl _ t) u e
  exact Kept.of_eq (Same.get (f := .inst) a rfl) (Same.get (f := .regs) a rfl) h

theorem stepAction_kept {s t : State}   (h : Kept D s t) : KeptO D s (stepAction t) := by
  intro u e
  have a := stepAction_same (F := (fun f => [Fld.tim].contains f))  rfl (Same.refl _ t) u e
  exact Kept.of_eq (Same.get (f := .inst) a rfl) (Same.get (f := .regs) a rfl) h

theorem setAction_kept {s t : State}   (h : Kept D s t) : KeptO D s (setAction t) := by
  intro u e
  have a := setAction_same (F := (fun f => [Fld.tim].contains f))  rfl (Same.refl _ t) u e
  exact Kept.of_eq (Same.get (f := .inst) a rfl) (Same.get (f := .regs) a rfl) h

theorem stepTakesForce_kept {s t : State}   (h : Kept D s t) : Kept D s (stepTakesForce t) := by
  unfold stepTakesForce
  repeat' (first | with_reducible assumption | with_reducible refine updPart_kept ?_ | with_reducible refine timeRecord_kept ?_ | with_reducible refine foldl_kept (fun _ _ _ => ?_) ?_ | with_reducible refine Kept.ite ?_ ?_ | split | with_reducible refine Kept.set_tim ?_ | with_reducible refine Kept.set_counts ?_ | (with_reducible show Kept D s _; first | exact ⟨h.inst, h.few, h.dyn, h.words⟩ | exact ⟨hx.inst, hx.few, hx.dyn, hx.words⟩))

theorem setRate_kept {s t : State} {a0 : Int}  (h : Kept D s t) : Kept D s (setRate a0 t) := by
  have a := setRate_same (F := (fun f => [Fld.tim].contains f)) (a0 := a0) rfl (Same.refl _ t)
  exact Kept.of_eq (Same.get (f := .inst) a rfl) (Same.get (f := .regs) a rfl) h

theorem rateAction_kept {s t : State}   (h : Kept D s t) : KeptO D s (rateAction t) := by
  intro u e
  have a := rateAction_same (F := (fun f => [Fld.tim].contains f))  rfl (Same.refl _ t) u e
  exact Kept.of_eq (Same.get (f := .inst) a rfl) (Same.get (f := .regs) a rfl) h

theorem calTdcAction_kept {s t : State}   (h : Kept D s t) : KeptO D s (calTdcAction t) := by
  intro u e
  have a := calTdcAction_same (F := (fun f => [Fld.tim].contains f))  rfl (Same.refl _ t) u e
  exact Kept.of_eq (Same.get (f := .inst) a rfl) (Same.get (f := .regs) a rfl) h

theorem referenceLoss_kept {s t : State}   (h : Kept D s t) : Kept D s (referenceLoss t) := by
  unfold referenceLoss
  repeat' (first | with_reducible assumption | with_reducible refine timeEvent_kept ?_ | with_reducible refine statusMsg_kept ?_ | with_reducible refine setErr_kept ?_ | with_reducible refine bump_kept (by first | with_reducible rfl | exact dyn_hub rfl | with_reducible exact dyn_hed _ rfl | with_reducible exact dyn_reed _ rfl | with_reducible exact dyn_lnk _ | with_reducible exact dyn_wit0 hn | with_reducible exact dyn_wit1 hn | with_reducible exact dyn_writer _ rfl rfl | with_reducible exact dyn_bob _ _ | with_reducible exact dyn_bob' _ _ | with_reducible exact dyn_compl _ | decide | (split <;> first | exact dyn_hub rfl | with_reducible exact dyn_hed _ rfl)) (by first | decide | with_reducible exact (bob_off _).1 | with_reducible exact (bob_off _).2 | with_reducible exact (compl_off _).1 | with_reducible exact (compl_off _).2 | (split <;> decide)) (by first | decide | with_reducible exact (bob_off _).1 | with_reducible exact (bob_off _).2 | with_reducible exact (compl_off _).1 | with_reducible exact (compl_off _).2 | (split <;> decide)) ?_ | with_reducible refine Kept.ite ?_ ?_ | with_reducible refine Kept.set_tim ?_ | (with_reducible show Kept D s _; first | exact ⟨h.inst, h.few, h.dyn, h.words⟩ | exact ⟨hx.inst, hx.few, hx.dyn, hx.words⟩))

theorem referenceReturn_kept {s t : State}   (h : Kept D s t) : Kept D s (referenceReturn t) := by
  unfold referenceReturn
  repeat' (first | with_reducible assumption | with_reducible refine timeEvent_kept ?_ | with_reducible refine statusMsg_kept ?_ | with_reducible refine Kept.ite ?_ ?_ | with_reducible refine Kept.set_tim ?_ | (with_reducible show Kept D s _; first | exact ⟨h.inst, h.few, h.dyn, h.words⟩ | exact ⟨hx.inst, hx.few, hx.dyn, hx.words⟩))

theorem refreshError_kept {s t : State} {a0 : Nat}  (h : Kept D s t) : Kept D s (refreshError a0 t) := by
  unfold refreshError
  repeat' (first | with_reducible assumption | with_reducible refine setErr_kept ?_ | with_reducible refine regSetFld_kept (by first | with_reducible rfl | exact dyn_hub rfl | with_reducible exact dyn_hed _ rfl | with_reducible exact dyn_reed _ rfl | with_reducible exact dyn_lnk _ | with_reducible exact dyn_wit0 hn | with_reducible exact dyn_wit1 hn | with_reducible exact dyn_writer _ rfl rfl | with_reducible exact dyn_bob _ _ | with_reducible exact dyn_bob' _ _ | with_reducible exact dyn_compl _ | decide | (split <;> first | exact dyn_hub rfl | with_reducible exact dyn_hed _ rfl)) (by first | decide | with_reducible exact (bob_off _).1 | with_reducible exact (bob_off _).2 | with_reducible exact (compl_off _).1 | with_reducible exact (compl_off _).2 | (split <;> decide)) (by first | decide | with_reducible exact (bob_off _).1 | with_reducible exact (bob_off _).2 | with_reducible exact (compl_off _).1 | with_reducible exact (compl_off _).2 | (split <;> decide)) ?_ | with_reducible refine bump_kept (by first | with_reducible rfl | exact dyn_hub rfl | with_reducible exact dyn_hed _ rfl | with_reducible exact dyn_reed _ rfl | with_reducible exact dyn_lnk _ | with_reducible exact dyn_wit0 hn | with_reducible exact dyn_wit1 hn | with_reducible exact dyn_writer _ rfl rfl | with_reducible exact dyn_bob _ _ | with_reducible exact dyn_bob' _ _ | with_reducible exact dyn_compl _ | decide | (split <;> first | exact dyn_hub rfl | with_reducible exact dyn_hed _ rfl)) (by first | decide | with_reducible exact (bob_off _).1 | with_reducible exact (bob_off _).2 | with_reducible exact (compl_off _).1 | with_reducible exact (compl_off _).2 | (split <;> decide)) (by first | decide | with_reducible exact (bob_off _).1 | with_reducible exact (bob_off _).2 | with_reducible exact (compl_off _).1 | with_reducible exact (compl_off _).2 | (split <;> decide)) ?_ | with_reducible refine Kept.ite ?_ ?_ | (with_reducible show Kept D s _; first | exact ⟨h.inst, h.few, h.dyn, h.words⟩ | exact ⟨hx.inst, hx.few, hx.dyn, hx.words⟩))

theorem serialMessage_kept {s t : State} {a0 : Nat} {a1 : BitVec 192}  (h : Kept D s t) : Kept D s (serialMessage a0 a1 t) := by
  unfold serialMessage
  repeat' (first | with_reducible assumption | with_reducible refine refreshError_kept ?_ | with_reducible refine updPart_kept ?_ | with_reducible refine Kept.ite ?_ ?_ | (with_reducible show Kept D s _; first | exact ⟨h.inst, h.few, h.dyn, h.words⟩ | exact ⟨hx.inst, hx.few, hx.dyn, hx.words⟩))

theorem statusRequest_kept {s t : State} {a0 : Nat}  (h : Kept D s t) : Kept D s (statusRequest a0 t) := by
  have a := statusRequest_same (F := (fun f => [Fld.parts, Fld.tim].contains f)) (a0 := a0) rfl rfl (Same.refl _ t)
  exact Kept.of_eq (Same.get (f := .inst) a rfl) (Same.get (f := .regs) a rfl) h

theorem Q_scaled_kept {s t : State} {a0 : Q} {a1 : Int}  (h : Kept D s t) : Kept D s (Q.scaled a0 a1 t).2 := by
  have a := Q_scaled_same (F := (fun f => [Fld.free].contains f)) (a0 := a0) (a1 := a1) rfl (Same.refl _ t)
  exact Kept.of_eq (Same.get (f := .inst) a rfl) (Same.get (f := .regs) a rfl) h

theorem Q_scaled_kept_eq {s t : State} {a0 : Q} {a1 : Int}  {x} {u : State} (e : Q.scaled a0 a1 t = (x, u)) (h : Kept D s t) : Kept D s u := by
  have := Q_scaled_kept (s := s) (t := t) (a0 := a0) (a1 := a1) h
  rw [e] at this; exact this

theorem Q_nearest_kept {s t : State} {a0 : Q}  (h : Kept D s t) : Kept D s (Q.nearest a0 t).2 := by
  have a := Q_nearest_same (F := (fun f => [Fld.free].contains f)) (a0 := a0) rfl (Same.refl _ t)
  exact Kept.of_eq (Same.get (f := .inst) a rfl) (Same.get (f := .regs) a rfl) h

theorem Q_nearest_kept_eq {s t : State} {a0 : Q}  {x} {u : State} (e : Q.nearest a0 t = (x, u)) (h : Kept D s t) : Kept D s u := by
  have := Q_nearest_kept (s := s) (t := t) (a0 := a0) h
  rw [e] at this; exact this

theorem updServo_kept {s t : State} {a0 : Servo → Servo}  (h : Kept D s t) : Kept D s (updServo a0 t) := by
  have a := updServo_same (F := (fun f => [Fld.servo].contains f)) (a0 := a0) rfl (Same.refl _ t)
  exact Kept.of_eq (Same.get (f := .inst) a rfl) (Same.get (f := .regs) a rfl) h

theorem gainDisc_kept {s t : State} {a0 : Nat}  (h : Kept D s t) : Kept D s (gainDisc a0 t) := by
  unfold gainDisc
  repeat' (first | with_reducible assumption | with_reducible refine timeEvent_kept ?_ | with_reducible refine statusMsg_kept ?_ | with_reducible refine Kept.ite ?_ ?_ | with_reducible refine Kept.set_tim ?_ | (with_reducible show Kept D s _; first | exact ⟨h.inst, h.few, h.dyn, h.words⟩ | exact ⟨hx.inst, hx.few, hx.dyn, hx.words⟩))

theorem loseDisc_kept {s t : State} {a0 : Nat} {a1 : Bool}  (h : Kept D s t) : Kept D s (loseDisc a0 a1 t) := by
  unfold loseDisc
  repeat' (first | with_reducible assumption | with_reducible refine timeEvent_kept ?_ | with_reducible refine statusMsg_kept ?_ | with_reducible refine raise_kept ?_ | with_reducible refine Kept.ite ?_ ?_ | with_reducible refine Kept.set_tim ?_ | (with_reducible show Kept D s _; first | exact ⟨h.inst, h.few, h.dyn, h.words⟩ | exact ⟨hx.inst, hx.few, hx.dyn, hx.words⟩))

theorem servoTo_kept {s t : State} {a0 : Nat}  (h : Kept D s t) : Kept D s (servoTo a0 t) := by
  have a := servoTo_same (F := (fun f => [Fld.servo].contains f)) (a0 := a0) rfl (Same.refl _ t)
  exact Kept.of_eq (Same.get (f := .inst) a rfl) (Same.get (f := .regs) a rfl) h

theorem servoLost_kept {s t : State}   (h : Kept D s t) : Kept D s (servoLost t) := by
  unfold servoLost
  repeat' (first | with_reducible assumption | with_reducible refine servoTo_kept ?_ | with_reducible refine loseDisc_kept ?_ | with_reducible refine setRate_kept ?_ | with_reducible refine Kept.ite ?_ ?_ | (with_reducible show Kept D s _; first | exact ⟨h.inst, h.few, h.dyn, h.words⟩ | exact ⟨hx.inst, hx.few, hx.dyn, hx.words⟩))

theorem servoCheck_kept {s t : State} {a0 : Bool}  (h : Kept D s t) : Kept D s (servoCheck a0 t) := by
  unfold servoCheck
  repeat' (first | with_reducible assumption | with_reducible refine gainDisc_kept ?_ | with_reducible refine servoTo_kept ?_ | with_reducible refine servoLost_kept ?_ | with_reducible refine Kept.ite ?_ ?_ | (with_reducible show Kept D s _; first | exact ⟨h.inst, h.few, h.dyn, h.words⟩ | exact ⟨hx.inst, hx.few, hx.dyn, hx.words⟩))

theorem servoStart_kept {s t : State} {a0 : State → Bool}  (h : Kept D s t) : KeptO D s (servoStart a0 t) := by
  unfold servoStart
  repeat' (first | with_reducible assumption | with_reducible refine updServo_kept ?_ | with_reducible refine servoTo_kept ?_ | with_reducible refine gainDisc_kept ?_ | with_reducible refine servoCheck_kept ?_ | with_reducible exact KeptO.none | with_reducible refine KeptO.some ?_ | with_reducible refine KeptO.ite ?_ ?_ | split | (with_reducible show Kept D s _; first | exact ⟨h.inst, h.few, h.dyn, h.words⟩ | exact ⟨hx.inst, hx.few, hx.dyn, hx.words⟩))

theorem servoStop_kept {s t : State}   (h : Kept D s t) : Kept D s (servoStop t) := by
  unfold servoStop
  repeat' (first | with_reducible assumption | with_reducible refine servoTo_kept ?_ | with_reducible refine loseDisc_kept ?_ | with_reducible refine Kept.ite ?_ ?_ | (with_reducible show Kept D s _; first | exact ⟨h.inst, h.few, h.dyn, h.words⟩ | exact ⟨hx.inst, hx.few, hx.dyn, hx.words⟩))

theorem rearm_kept {s t : State} {a0 : Nat}  (h : Kept D s t) : Kept D s (rearm a0 t) := by
  unfold rearm
  repeat' (first | with_reducible assumption | with_reducible refine updServo_kept ?_ | with_reducible refine servoTo_kept ?_ | with_reducible refine loseDisc_kept ?_ | with_reducible refine Kept.ite ?_ ?_ | (with_reducible show Kept D s _; first | exact ⟨h.inst, h.few, h.dyn, h.words⟩ | exact ⟨hx.inst, hx.few, hx.dyn, hx.words⟩))

theorem servoRearm_kept {s t : State} {a0 : State → Bool}  (h : Kept D s t) : KeptO D s (servoRearm a0 t) := by
  unfold servoRearm
  repeat' (first | with_reducible assumption | with_reducible refine rearm_kept ?_ | with_reducible refine servoCheck_kept ?_ | with_reducible exact KeptO.none | with_reducible refine KeptO.some ?_ | with_reducible refine KeptO.ite ?_ ?_ | (with_reducible show Kept D s _; first | exact ⟨h.inst, h.few, h.dyn, h.words⟩ | exact ⟨hx.inst, hx.few, hx.dyn, hx.words⟩))

theorem freePpt_kept {s t : State}   (h : Kept D s t) : Kept D s (freePpt t).2 := by
  have a := freePpt_same (F := (fun f => [Fld.free].contains f))  rfl (Same.refl _ t)
  exact Kept.of_eq (Same.get (f := .inst) a rfl) (Same.get (f := .regs) a rfl) h

theorem freePpt_kept_eq {s t : State}   {x} {u : State} (e : freePpt t = (x, u)) (h : Kept D s t) : Kept D s u := by
  have := freePpt_kept (s := s) (t := t)  h
  rw [e] at this; exact this

theorem servoLaw_kept {s t : State} {a0 : Q} {a1 : Nat}  (h : Kept D s t) : Kept D s (servoLaw a0 a1 t) := by
  unfold servoLaw
  repeat' (first | with_reducible assumption | with_reducible refine freePpt_kept ?_ | with_reducible refine freeRound_kept ?_ | with_reducible refine setRate_kept ?_ | with_reducible refine updServo_kept ?_ | with_reducible refine timeEvent_kept ?_ | with_reducible refine Kept.ite ?_ ?_ | split | (with_reducible show Kept D s _; first | exact ⟨h.inst, h.few, h.dyn, h.words⟩ | exact ⟨hx.inst, hx.few, hx.dyn, hx.words⟩))

theorem requestStep_kept {s t : State} {a0 : Q}  (h : Kept D s t) : Kept D s (requestStep a0 t) := by
  have a := requestStep_same (F := (fun f => [Fld.tim, Fld.servo, Fld.free].contains f)) (a0 := a0) rfl rfl rfl (Same.refl _ t)
  exact Kept.of_eq (Same.get (f := .inst) a rfl) (Same.get (f := .regs) a rfl) h

theorem slopePpt_kept {s t : State} {a0 : List (Q × Nat)}  (h : Kept D s t) : Kept D s (slopePpt a0 t).2 := by
  have a := slopePpt_same (F := (fun f => [Fld.free].contains f)) (a0 := a0) rfl (Same.refl _ t)
  exact Kept.of_eq (Same.get (f := .inst) a rfl) (Same.get (f := .regs) a rfl) h

theorem slopePpt_kept_eq {s t : State} {a0 : List (Q × Nat)}  {x} {u : State} (e : slopePpt a0 t = (x, u)) (h : Kept D s t) : Kept D s u := by
  have := slopePpt_kept (s := s) (t := t) (a0 := a0) h
  rw [e] at this; exact this

theorem acquired_kept {s t : State} {a0 : Q}  (h : Kept D s t) : Kept D s (acquired a0 t) := by
  have a := acquired_same (F := (fun f => [Fld.tim, Fld.servo, Fld.free].contains f)) (a0 := a0) rfl rfl rfl (Same.refl _ t)
  exact Kept.of_eq (Same.get (f := .inst) a rfl) (Same.get (f := .regs) a rfl) h

theorem judge_kept {s t : State} {a0 : Q}  (h : Kept D s t) : Kept D s (judge a0 t) := by
  unfold judge
  repeat' (first | with_reducible assumption | with_reducible refine updServo_kept ?_ | with_reducible refine gainDisc_kept ?_ | with_reducible refine servoTo_kept ?_ | with_reducible refine loseDisc_kept ?_ | with_reducible refine Kept.ite ?_ ?_ | (with_reducible show Kept D s _; first | exact ⟨h.inst, h.few, h.dyn, h.words⟩ | exact ⟨hx.inst, hx.few, hx.dyn, hx.words⟩))

theorem measure_kept {s t : State} {a0 : Q}  (h : Kept D s t) : Kept D s (Machine.measure a0 t) := by
  unfold Machine.measure
  repeat' (first | with_reducible assumption | with_reducible refine bump_kept (by first | with_reducible rfl | exact dyn_hub rfl | with_reducible exact dyn_hed _ rfl | with_reducible exact dyn_reed _ rfl | with_reducible exact dyn_lnk _ | with_reducible exact dyn_wit0 hn | with_reducible exact dyn_wit1 hn | with_reducible exact dyn_writer _ rfl rfl | with_reducible exact dyn_bob _ _ | with_reducible exact dyn_bob' _ _ | with_reducible exact dyn_compl _ | decide | (split <;> first | exact dyn_hub rfl | with_reducible exact dyn_hed _ rfl)) (by first | decide | with_reducible exact (bob_off _).1 | with_reducible exact (bob_off _).2 | with_reducible exact (compl_off _).1 | with_reducible exact (compl_off _).2 | (split <;> decide)) (by first | decide | with_reducible exact (bob_off _).1 | with_reducible exact (bob_off _).2 | with_reducible exact (compl_off _).1 | with_reducible exact (compl_off _).2 | (split <;> decide)) ?_ | with_reducible refine updServo_kept ?_ | with_reducible refine Q_scaled_kept ?_ | with_reducible refine acquired_kept ?_ | with_reducible refine servoLaw_kept ?_ | with_reducible refine judge_kept ?_ | with_reducible refine requestStep_kept ?_ | with_reducible refine Kept.ite ?_ ?_ | (with_reducible show Kept D s _; first | exact ⟨h.inst, h.few, h.dyn, h.words⟩ | exact ⟨hx.inst, hx.few, hx.dyn, hx.words⟩))

theorem rootDiscLost_kept {s t : State}   (h : Kept D s t) : Kept D s (rootDiscLost t) := by
  unfold rootDiscLost
  repeat' (first | with_reducible assumption | with_reducible refine servoTo_kept ?_ | with_reducible refine loseDisc_kept ?_ | with_reducible refine Kept.ite ?_ ?_ | (with_reducible show Kept D s _; first | exact ⟨h.inst, h.few, h.dyn, h.words⟩ | exact ⟨hx.inst, hx.few, hx.dyn, hx.words⟩))

theorem servoStepped_kept {s t : State}   (h : Kept D s t) : Kept D s (servoStepped t) := by
  have a := servoStepped_same (F := (fun f => [Fld.servo].contains f))  rfl (Same.refl _ t)
  exact Kept.of_eq (Same.get (f := .inst) a rfl) (Same.get (f := .regs) a rfl) h

theorem stepAt_kept {s t : State}   (h : Kept D s t) : Kept D s (stepAt t) := by
  unfold stepAt
  repeat' (first | with_reducible assumption | with_reducible refine stepTakesForce_kept ?_ | with_reducible refine servoStepped_kept ?_ | with_reducible refine Kept.ite ?_ ?_ | split | (with_reducible show Kept D s _; first | exact ⟨h.inst, h.few, h.dyn, h.words⟩ | exact ⟨hx.inst, hx.few, hx.dyn, hx.words⟩))

theorem updEth_kept {s t : State} {a0 : Eth → Eth}  (h : Kept D s t) : Kept D s (updEth a0 t) := by
  have a := updEth_same (F := (fun f => [Fld.eth].contains f)) (a0 := a0) rfl (Same.refl _ t)
  exact Kept.of_eq (Same.get (f := .inst) a rfl) (Same.get (f := .regs) a rfl) h

theorem recheck_kept {s t : State}   (h : Kept D s t) : Kept D s (recheck t) := by
  unfold recheck
  repeat' (first | with_reducible assumption | with_reducible refine servoCheck_kept ?_ | with_reducible refine Kept.ite ?_ ?_ | (with_reducible show Kept D s _; first | exact ⟨h.inst, h.few, h.dyn, h.words⟩ | exact ⟨hx.inst, hx.few, hx.dyn, hx.words⟩))

theorem selectMaster_kept {s t : State}   (h : Kept D s t) : Kept D s (selectMaster t) := by
  unfold selectMaster
  repeat' (first | with_reducible assumption | with_reducible refine recheck_kept ?_ | with_reducible refine updEth_kept ?_ | with_reducible refine Kept.ite ?_ ?_ | (with_reducible show Kept D s _; first | exact ⟨h.inst, h.few, h.dyn, h.words⟩ | exact ⟨hx.inst, hx.few, hx.dyn, hx.words⟩))

theorem ethClear_kept {s t : State}   (h : Kept D s t) : Kept D s (ethClear t) := by
  unfold ethClear
  repeat' (first | with_reducible assumption | with_reducible refine recheck_kept ?_ | with_reducible refine updEth_kept ?_ | with_reducible refine Kept.ite ?_ ?_ | (with_reducible show Kept D s _; first | exact ⟨h.inst, h.few, h.dyn, h.words⟩ | exact ⟨hx.inst, hx.few, hx.dyn, hx.words⟩))

theorem frameSize_kept {s t : State} {a0 : Nat}  (h : Kept D s t) : Kept D s (frameSize a0 t) := by
  unfold frameSize
  repeat' (first | with_reducible assumption | with_reducible refine setPortErr_kept ?_ | with_reducible refine Kept.ite ?_ ?_ | (with_reducible show Kept D s _; first | exact ⟨h.inst, h.few, h.dyn, h.words⟩ | exact ⟨hx.inst, hx.few, hx.dyn, hx.words⟩))

theorem ptpAnnounce_kept {s t : State} {a0 : PtpHdr} {a1 : PtpMaster}  (h : Kept D s t) : Kept D s (ptpAnnounce a0 a1 t) := by
  unfold ptpAnnounce
  repeat' (first | with_reducible assumption | with_reducible refine frameSize_kept ?_ | with_reducible refine selectMaster_kept ?_ | with_reducible refine updEth_kept ?_ | with_reducible refine Kept.ite ?_ ?_ | (with_reducible show Kept D s _; first | exact ⟨h.inst, h.few, h.dyn, h.words⟩ | exact ⟨hx.inst, hx.few, hx.dyn, hx.words⟩))

theorem announceTimeout_kept {s t : State}   (h : Kept D s t) : Kept D s (announceTimeout t) := by
  unfold announceTimeout
  repeat' (first | with_reducible assumption | with_reducible refine selectMaster_kept ?_ | with_reducible refine updEth_kept ?_ | with_reducible refine Kept.ite ?_ ?_ | (with_reducible show Kept D s _; first | exact ⟨h.inst, h.few, h.dyn, h.words⟩ | exact ⟨hx.inst, hx.few, hx.dyn, hx.words⟩))

theorem tryMs_kept {s t : State}   (h : Kept D s t) : Kept D s (tryMs t) := by
  have a := tryMs_same (F := (fun f => [Fld.eth].contains f))  rfl (Same.refl _ t)
  exact Kept.of_eq (Same.get (f := .inst) a rfl) (Same.get (f := .regs) a rfl) h

theorem ethTimestamp_kept {s t : State} {a0 : Bool} {a1 : BitVec 4} {a2 : BitVec 8} {a3 : BitVec 16} {a4 : BitVec 2} {a5 : Tdc}  (h : Kept D s t) : Kept D s (ethTimestamp a0 a1 a2 a3 a4 a5 t) := by
  unfold ethTimestamp
  repeat' (first | with_reducible assumption | with_reducible refine updEth_kept ?_ | with_reducible refine setPortErr_kept ?_ | with_reducible refine tryMs_kept ?_ | with_reducible refine Kept.ite ?_ ?_ | split | (with_reducible show Kept D s _; first | exact ⟨h.inst, h.few, h.dyn, h.words⟩ | exact ⟨hx.inst, hx.few, hx.dyn, hx.words⟩))

theorem ptpSync_kept {s t : State} {a0 : PtpHdr} {a1 : PtpTime}  (h : Kept D s t) : Kept D s (ptpSync a0 a1 t) := by
  unfold ptpSync
  repeat' (first | with_reducible assumption | with_reducible refine frameSize_kept ?_ | with_reducible refine recheck_kept ?_ | with_reducible refine tryMs_kept ?_ | with_reducible refine updEth_kept ?_ | with_reducible refine Kept.ite ?_ ?_ | (with_reducible show Kept D s _; first | exact ⟨h.inst, h.few, h.dyn, h.words⟩ | exact ⟨hx.inst, hx.few, hx.dyn, hx.words⟩))

theorem ptpFollowUp_kept {s t : State} {a0 : PtpHdr} {a1 : PtpTime}  (h : Kept D s t) : Kept D s (ptpFollowUp a0 a1 t) := by
  unfold ptpFollowUp
  repeat' (first | with_reducible assumption | with_reducible refine frameSize_kept ?_ | with_reducible refine tryMs_kept ?_ | with_reducible refine updEth_kept ?_ | with_reducible refine Kept.ite ?_ ?_ | split | (with_reducible show Kept D s _; first | exact ⟨h.inst, h.few, h.dyn, h.words⟩ | exact ⟨hx.inst, hx.few, hx.dyn, hx.words⟩))

theorem ptpDelayResp_kept {s t : State} {a0 : PtpHdr} {a1 : PtpTime} {a2 : BitVec 64} {a3 : BitVec 16}  (h : Kept D s t) : Kept D s (ptpDelayResp a0 a1 a2 a3 t) := by
  unfold ptpDelayResp
  repeat' (first | with_reducible assumption | with_reducible refine frameSize_kept ?_ | with_reducible refine updEth_kept ?_ | with_reducible refine freeRound_kept ?_ | with_reducible refine recheck_kept ?_ | with_reducible refine measure_kept ?_ | with_reducible refine Kept.ite ?_ ?_ | split | (with_reducible show Kept D s _; first | exact ⟨h.inst, h.few, h.dyn, h.words⟩ | exact ⟨hx.inst, hx.few, hx.dyn, hx.words⟩))

theorem ptpIgnored_kept {s t : State} {a0 : Nat}  (h : Kept D s t) : Kept D s (ptpIgnored a0 t) := by
  unfold ptpIgnored
  repeat' (first | with_reducible assumption | with_reducible refine frameSize_kept ?_ | with_reducible refine bump_kept (by first | with_reducible rfl | exact dyn_hub rfl | with_reducible exact dyn_hed _ rfl | with_reducible exact dyn_reed _ rfl | with_reducible exact dyn_lnk _ | with_reducible exact dyn_wit0 hn | with_reducible exact dyn_wit1 hn | with_reducible exact dyn_writer _ rfl rfl | with_reducible exact dyn_bob _ _ | with_reducible exact dyn_bob' _ _ | with_reducible exact dyn_compl _ | decide | (split <;> first | exact dyn_hub rfl | with_reducible exact dyn_hed _ rfl)) (by first | decide | with_reducible exact (bob_off _).1 | with_reducible exact (bob_off _).2 | with_reducible exact (compl_off _).1 | with_reducible exact (compl_off _).2 | (split <;> decide)) (by first | decide | with_reducible exact (bob_off _).1 | with_reducible exact (bob_off _).2 | with_reducible exact (compl_off _).1 | with_reducible exact (compl_off _).2 | (split <;> decide)) ?_ | with_reducible refine Kept.ite ?_ ?_ | (with_reducible show Kept D s _; first | exact ⟨h.inst, h.few, h.dyn, h.words⟩ | exact ⟨hx.inst, hx.few, hx.dyn, hx.words⟩))

theorem ptpDelayReqSend_kept {s t : State}   (h : Kept D s t) : Kept D s (ptpDelayReqSend t) := by
  have a := ptpDelayReqSend_same (F := (fun f => [Fld.eth].contains f))  rfl (Same.refl _ t)
  exact Kept.of_eq (Same.get (f := .inst) a rfl) (Same.get (f := .regs) a rfl) h

theorem sendFrame_kept {s t : State} {a0 : Nat} {a1 : Nat} {a2 : BitVec 16} {a3 : Beat}  (h : Kept D s t) : Kept D s (sendFrame a0 a1 a2 a3 t) := by
  have a := sendFrame_same (F := (fun f => [Fld.linkTimes].contains f)) (a0 := a0) (a1 := a1) (a2 := a2) (a3 := a3) rfl (Same.refl _ t)
  exact Kept.of_eq (Same.get (f := .inst) a rfl) (Same.get (f := .regs) a rfl) h

theorem timeClear_kept {s t : State} {a0 : Nat}  (h : Kept D s t) : Kept D s (timeClear a0 t) := by
  have a := timeClear_same (F := (fun f => [Fld.linkTimes].contains f)) (a0 := a0) rfl (Same.refl _ t)
  exact Kept.of_eq (Same.get (f := .inst) a rfl) (Same.get (f := .regs) a rfl) h

theorem timeStart_kept {s t : State} {a0 : Nat}  (h : Kept D s t) : Kept D s (timeStart a0 t) := by
  have a := timeStart_same (F := (fun f => [Fld.linkTimes].contains f)) (a0 := a0) rfl (Same.refl _ t)
  exact Kept.of_eq (Same.get (f := .inst) a rfl) (Same.get (f := .regs) a rfl) h

theorem reparent_kept {s t : State}   (h : Kept D s t) : Kept D s (reparent t) := by
  unfold reparent
  repeat' (first | with_reducible assumption | with_reducible refine updServo_kept ?_ | with_reducible refine recheck_kept ?_ | with_reducible refine raise_kept ?_ | with_reducible refine bump_kept (by first | with_reducible rfl | exact dyn_hub rfl | with_reducible exact dyn_hed _ rfl | with_reducible exact dyn_reed _ rfl | with_reducible exact dyn_lnk _ | with_reducible exact dyn_wit0 hn | with_reducible exact dyn_wit1 hn | with_reducible exact dyn_writer _ rfl rfl | with_reducible exact dyn_bob _ _ | with_reducible exact dyn_bob' _ _ | with_reducible exact dyn_compl _ | decide | (split <;> first | exact dyn_hub rfl | with_reducible exact dyn_hed _ rfl)) (by first | decide | with_reducible exact (bob_off _).1 | with_reducible exact (bob_off _).2 | with_reducible exact (compl_off _).1 | with_reducible exact (compl_off _).2 | (split <;> decide)) (by first | decide | with_reducible exact (bob_off _).1 | with_reducible exact (bob_off _).2 | with_reducible exact (compl_off _).1 | with_reducible exact (compl_off _).2 | (split <;> decide)) ?_ | with_reducible refine Kept.ite ?_ ?_ | (with_reducible show Kept D s _; first | exact ⟨h.inst, h.few, h.dyn, h.words⟩ | exact ⟨hx.inst, hx.few, hx.dyn, hx.words⟩))

theorem timeDrop_kept {s t : State} {a0 : Nat}  (h : Kept D s t) : Kept D s (timeDrop a0 t) := by
  unfold timeDrop
  repeat' (first | with_reducible assumption | with_reducible refine reparent_kept ?_ | with_reducible refine timeClear_kept ?_ | with_reducible refine Kept.ite ?_ ?_ | (with_reducible show Kept D s _; first | exact ⟨h.inst, h.few, h.dyn, h.words⟩ | exact ⟨hx.inst, hx.few, hx.dyn, hx.words⟩))

theorem rxTimestamp_kept {s t : State} {a0 : Nat} {a1 : Tdc}  (h : Kept D s t) : Kept D s (rxTimestamp a0 a1 t) := by
  have a := rxTimestamp_same (F := (fun f => [Fld.linkTimes].contains f)) (a0 := a0) (a1 := a1) rfl (Same.refl _ t)
  exact Kept.of_eq (Same.get (f := .inst) a rfl) (Same.get (f := .regs) a rfl) h

theorem txTimestamp_kept {s t : State} {a0 : Nat} {a1 : Tdc}  (h : Kept D s t) : Kept D s (txTimestamp a0 a1 t) := by
  have a := txTimestamp_same (F := (fun f => [Fld.linkTimes].contains f)) (a0 := a0) (a1 := a1) rfl (Same.refl _ t)
  exact Kept.of_eq (Same.get (f := .inst) a rfl) (Same.get (f := .regs) a rfl) h

theorem takeFrame_kept {s t : State} {a0 : Nat} {a1 : Beat}  (h : Kept D s t) : Kept D s (takeFrame a0 a1 t).2 := by
  dsimp only [takeFrame]
  repeat' (first | with_reducible assumption | with_reducible refine updTime_kept ?_ | with_reducible refine bump_kept (by first | with_reducible rfl | exact dyn_hub rfl | with_reducible exact dyn_hed _ rfl | with_reducible exact dyn_reed _ rfl | with_reducible exact dyn_lnk _ | with_reducible exact dyn_wit0 hn | with_reducible exact dyn_wit1 hn | with_reducible exact dyn_writer _ rfl rfl | with_reducible exact dyn_bob _ _ | with_reducible exact dyn_bob' _ _ | with_reducible exact dyn_compl _ | decide | (split <;> first | exact dyn_hub rfl | with_reducible exact dyn_hed _ rfl)) (by first | decide | with_reducible exact (bob_off _).1 | with_reducible exact (bob_off _).2 | with_reducible exact (compl_off _).1 | with_reducible exact (compl_off _).2 | (split <;> decide)) (by first | decide | with_reducible exact (bob_off _).1 | with_reducible exact (bob_off _).2 | with_reducible exact (compl_off _).1 | with_reducible exact (compl_off _).2 | (split <;> decide)) ?_ | with_reducible refine setPortErr_kept ?_ | with_reducible refine setErr_kept ?_ | with_reducible refine Kept.ite ?_ ?_ | split | (with_reducible show Kept D s _; first | exact ⟨h.inst, h.few, h.dyn, h.words⟩ | exact ⟨hx.inst, hx.few, hx.dyn, hx.words⟩))

theorem takeFrame_kept_eq {s t : State} {a0 : Nat} {a1 : Beat}  {x} {u : State} (e : takeFrame a0 a1 t = (x, u)) (h : Kept D s t) : Kept D s u := by
  have := takeFrame_kept (s := s) (t := t) (a0 := a0) (a1 := a1) h
  rw [e] at this; exact this

theorem helloSend_kept {s t : State} {a0 : Nat}  (h : Kept D s t) : Kept D s (helloSend a0 t) := by
  have a := helloSend_same (F := (fun f => [Fld.linkTimes].contains f)) (a0 := a0) rfl (Same.refl _ t)
  exact Kept.of_eq (Same.get (f := .inst) a rfl) (Same.get (f := .regs) a rfl) h

theorem planeStamp_kept {s t : State} {a1 : Nat} {a2 : Option Int}  (h : Kept D s t) : Kept D s (planeStamp t a1 a2).2 := by
  have a := planeStamp_same (F := (fun f => [Fld.free].contains f)) (a1 := a1) (a2 := a2) rfl (Same.refl _ t)
  exact Kept.of_eq (Same.get (f := .inst) a rfl) (Same.get (f := .regs) a rfl) h

theorem planeStamp_kept_eq {s t : State} {a1 : Nat} {a2 : Option Int}  {x} {u : State} (e : planeStamp t a1 a2 = (x, u)) (h : Kept D s t) : Kept D s u := by
  have := planeStamp_kept (s := s) (t := t) (a1 := a1) (a2 := a2) h
  rw [e] at this; exact this

theorem negotiate_kept {s t : State} {a0 : Nat} {a1 : Nat} {a2 : Nat}  (h : Kept D s t) : Kept D s (negotiate a0 a1 a2 t) := by
  unfold negotiate
  repeat' (first | with_reducible assumption | with_reducible refine linkEvent_kept ?_ | with_reducible refine setErr_kept ?_ | with_reducible refine reparent_kept ?_ | with_reducible refine updTime_kept ?_ | with_reducible refine Kept.ite ?_ ?_ | (with_reducible show Kept D s _; first | exact ⟨h.inst, h.few, h.dyn, h.words⟩ | exact ⟨hx.inst, hx.few, hx.dyn, hx.words⟩))

theorem hello_kept {s t : State} {a0 : Nat} {a1 : Beat} {a2 : Option Int}  (h : Kept D s t) : Kept D s (hello a0 a1 a2 t) := by
  unfold hello
  repeat' (first | with_reducible assumption | with_reducible refine planeStamp_kept ?_ | with_reducible refine updLink_kept ?_ | with_reducible refine timeDrop_kept ?_ | with_reducible refine raise_kept ?_ | with_reducible refine linkEvent_kept ?_ | with_reducible refine setErr_kept ?_ | with_reducible refine timeStart_kept ?_ | with_reducible refine updTime_kept ?_ | with_reducible refine negotiate_kept ?_ | with_reducible refine Kept.ite ?_ ?_ | (with_reducible show Kept D s _; first | exact ⟨h.inst, h.few, h.dyn, h.words⟩ | exact ⟨hx.inst, hx.few, hx.dyn, hx.words⟩))

theorem discardPd_kept {s t : State} {a0 : Nat}  (h : Kept D s t) : Kept D s (discardPd a0 t) := by
  unfold discardPd
  repeat' (first | with_reducible assumption | with_reducible refine reparent_kept ?_ | with_reducible refine updTime_kept ?_ | (with_reducible show Kept D s _; first | exact ⟨h.inst, h.few, h.dyn, h.words⟩ | exact ⟨hx.inst, hx.few, hx.dyn, hx.words⟩))

theorem pdreqSend_kept {s t : State} {a0 : Nat}  (h : Kept D s t) : Kept D s (pdreqSend a0 t) := by
  unfold pdreqSend
  repeat' (first | with_reducible assumption | with_reducible refine discardPd_kept ?_ | with_reducible refine sendFrame_kept ?_ | with_reducible refine updTime_kept ?_ | with_reducible refine Kept.ite ?_ ?_ | (with_reducible show Kept D s _; first | exact ⟨h.inst, h.few, h.dyn, h.words⟩ | exact ⟨hx.inst, hx.few, hx.dyn, hx.words⟩))

theorem pdreq_kept {s t : State} {a0 : Nat} {a1 : Beat} {a2 : Option Int}  (h : Kept D s t) : Kept D s (pdreq a0 a1 a2 t) := by
  have a := pdreq_same (F := (fun f => [Fld.linkTimes, Fld.free].contains f)) (a0 := a0) (a1 := a1) (a2 := a2) rfl rfl (Same.refl _ t)
  exact Kept.of_eq (Same.get (f := .inst) a rfl) (Same.get (f := .regs) a rfl) h

theorem pdfollowSend_kept {s t : State} {a0 : Nat}  (h : Kept D s t) : Kept D s (pdfollowSend a0 t) := by
  have a := pdfollowSend_same (F := (fun f => [Fld.linkTimes, Fld.free].contains f)) (a0 := a0) rfl rfl (Same.refl _ t)
  exact Kept.of_eq (Same.get (f := .inst) a rfl) (Same.get (f := .regs) a rfl) h

theorem pdresp_kept {s t : State} {a0 : Nat} {a1 : Beat} {a2 : Option Int}  (h : Kept D s t) : Kept D s (pdresp a0 a1 a2 t) := by
  have a := pdresp_same (F := (fun f => [Fld.linkTimes].contains f)) (a0 := a0) (a1 := a1) (a2 := a2) rfl (Same.refl _ t)
  exact Kept.of_eq (Same.get (f := .inst) a rfl) (Same.get (f := .regs) a rfl) h

theorem ratioOf_kept {s t : State} {a0 : LinkTime} {a1 : Int} {a2 : Nat}  (h : Kept D s t) : Kept D s (ratioOf a0 a1 a2 t).2 := by
  have a := ratioOf_same (F := (fun f => [Fld.free].contains f)) (a0 := a0) (a1 := a1) (a2 := a2) rfl (Same.refl _ t)
  exact Kept.of_eq (Same.get (f := .inst) a rfl) (Same.get (f := .regs) a rfl) h

theorem ratioOf_kept_eq {s t : State} {a0 : LinkTime} {a1 : Int} {a2 : Nat}  {x} {u : State} (e : ratioOf a0 a1 a2 t = (x, u)) (h : Kept D s t) : Kept D s u := by
  have := ratioOf_kept (s := s) (t := t) (a0 := a0) (a1 := a1) (a2 := a2) h
  rw [e] at this; exact this

theorem pdfollow_kept {s t : State} {a0 : Nat} {a1 : Beat} {a2 : Option Int}  (h : Kept D s t) : Kept D s (pdfollow a0 a1 a2 t) := by
  unfold pdfollow
  repeat' (first | with_reducible assumption | with_reducible refine ratioOf_kept ?_ | with_reducible refine Q_scaled_kept ?_ | with_reducible refine reparent_kept ?_ | with_reducible refine updTime_kept ?_ | with_reducible refine Kept.ite ?_ ?_ | split | (with_reducible show Kept D s _; first | exact ⟨h.inst, h.few, h.dyn, h.words⟩ | exact ⟨hx.inst, hx.few, hx.dyn, hx.words⟩))

theorem pdelayTimeout_kept {s t : State} {a0 : Nat}  (h : Kept D s t) : Kept D s (pdelayTimeout a0 t) := by
  unfold pdelayTimeout
  repeat' (first | with_reducible assumption | with_reducible refine discardPd_kept ?_ | with_reducible refine Kept.ite ?_ ?_ | split | (with_reducible show Kept D s _; first | exact ⟨h.inst, h.few, h.dyn, h.words⟩ | exact ⟨hx.inst, hx.few, hx.dyn, hx.words⟩))

theorem sendSync_kept {s t : State} {a0 : Nat} {a1 : BitVec 16} {a2 : Nat} {a3 : Nat}  (h : Kept D s t) : Kept D s (sendSync a0 a1 a2 a3 t) := by
  have a := sendSync_same (F := (fun f => [Fld.linkTimes].contains f)) (a0 := a0) (a1 := a1) (a2 := a2) (a3 := a3) rfl (Same.refl _ t)
  exact Kept.of_eq (Same.get (f := .inst) a rfl) (Same.get (f := .regs) a rfl) h

theorem rootSyncSend_kept {s t : State}   (h : Kept D s t) : Kept D s (rootSyncSend t) := by
  have a := rootSyncSend_same (F := (fun f => [Fld.linkTimes, Fld.servo].contains f))  rfl rfl (Same.refl _ t)
  exact Kept.of_eq (Same.get (f := .inst) a rfl) (Same.get (f := .regs) a rfl) h

theorem sync_kept {s t : State} {a0 : Nat} {a1 : Beat} {a2 : Option Int}  (h : Kept D s t) : Kept D s (sync a0 a1 a2 t) := by
  have a := sync_same (F := (fun f => [Fld.linkTimes].contains f)) (a0 := a0) (a1 := a1) (a2 := a2) rfl (Same.refl _ t)
  exact Kept.of_eq (Same.get (f := .inst) a rfl) (Same.get (f := .regs) a rfl) h

theorem rootNews_kept {s t : State} {a0 : Follow}  (h : Kept D s t) : Kept D s (rootNews a0 t) := by
  unfold rootNews
  repeat' (first | with_reducible assumption | with_reducible refine updServo_kept ?_ | with_reducible refine recheck_kept ?_ | with_reducible refine rearm_kept ?_ | with_reducible refine rootDiscLost_kept ?_ | with_reducible refine Kept.ite ?_ ?_ | (with_reducible show Kept D s _; first | exact ⟨h.inst, h.few, h.dyn, h.words⟩ | exact ⟨hx.inst, hx.few, hx.dyn, hx.words⟩))

theorem freshNews_kept {s t : State} {a0 : Follow}  (h : Kept D s t) : Kept D s (freshNews a0 t) := by
  have a := freshNews_same (F := (fun f => [Fld.servo].contains f)) (a0 := a0) rfl (Same.refl _ t)
  exact Kept.of_eq (Same.get (f := .inst) a rfl) (Same.get (f := .regs) a rfl) h

theorem follow_kept {s t : State} {a0 : Nat} {a1 : Beat} {a2 : Option Int}  (h : Kept D s t) : Kept D s (follow a0 a1 a2 t) := by
  unfold follow
  repeat' (first | with_reducible assumption | with_reducible refine reparent_kept ?_ | with_reducible refine freshNews_kept ?_ | with_reducible refine updTime_kept ?_ | with_reducible refine rootNews_kept ?_ | with_reducible refine measure_kept ?_ | with_reducible refine Kept.ite ?_ ?_ | split | (with_reducible show Kept D s _; first | exact ⟨h.inst, h.few, h.dyn, h.words⟩ | exact ⟨hx.inst, hx.few, hx.dyn, hx.words⟩))

theorem followSend_kept {s t : State} {a0 : Nat}  (h : Kept D s t) : Kept D s (followSend a0 t) := by
  have a := followSend_same (F := (fun f => [Fld.linkTimes, Fld.free].contains f)) (a0 := a0) rfl rfl (Same.refl _ t)
  exact Kept.of_eq (Same.get (f := .inst) a rfl) (Same.get (f := .regs) a rfl) h

theorem followTimeout_kept {s t : State}   (h : Kept D s t) : Kept D s (followTimeout t) := by
  have a := followTimeout_same (F := (fun f => [Fld.linkTimes].contains f))  rfl (Same.refl _ t)
  exact Kept.of_eq (Same.get (f := .inst) a rfl) (Same.get (f := .regs) a rfl) h

theorem rootLost_kept {s t : State}   (h : Kept D s t) : Kept D s (rootLost t) := by
  unfold rootLost
  repeat' (first | with_reducible assumption | with_reducible refine reparent_kept ?_ | with_reducible refine setErr_kept ?_ | with_reducible refine updServo_kept ?_ | with_reducible refine Kept.ite ?_ ?_ | (with_reducible show Kept D s _; first | exact ⟨h.inst, h.few, h.dyn, h.words⟩ | exact ⟨hx.inst, hx.few, hx.dyn, hx.words⟩))

theorem timeFrame_kept {s t : State} {a0 : Nat} {a1 : Beat}  (h : Kept D s t) : Kept D s (timeFrame a0 a1 t) := by
  unfold timeFrame
  repeat' (first | with_reducible assumption | with_reducible refine takeFrame_kept ?_ | with_reducible refine hello_kept ?_ | with_reducible refine sync_kept ?_ | with_reducible refine follow_kept ?_ | with_reducible refine pdreq_kept ?_ | with_reducible refine pdresp_kept ?_ | with_reducible refine pdfollow_kept ?_ | dsimp only | with_reducible refine Kept.ite ?_ ?_ | split | (with_reducible show Kept D s _; first | exact ⟨h.inst, h.few, h.dyn, h.words⟩ | exact ⟨hx.inst, hx.few, hx.dyn, hx.words⟩))

theorem linkEnters_kept {s t : State} {a0 : Nat}  (h : Kept D s t) : Kept D s (linkEnters a0 t) := by
  unfold linkEnters
  repeat' (first | with_reducible assumption | with_reducible refine updLink_kept ?_ | with_reducible refine raise_kept ?_ | with_reducible refine linkEventNow_kept ?_ | with_reducible refine timeStart_kept ?_ | with_reducible refine settleLnk_kept ?_ | with_reducible refine Kept.ite ?_ ?_ | (with_reducible show Kept D s _; first | exact ⟨h.inst, h.few, h.dyn, h.words⟩ | exact ⟨hx.inst, hx.few, hx.dyn, hx.words⟩))

theorem linkStateChange_kept {s t : State} {a0 : Nat} {a1 : BitVec 2} {a2 : Tdc}  (h : Kept D s t) : Kept D s (linkStateChange a0 a1 a2 t) := by
  unfold linkStateChange
  repeat' (first | with_reducible assumption | with_reducible refine updLink_kept ?_ | with_reducible refine bump_kept (by first | with_reducible rfl | exact dyn_hub rfl | with_reducible exact dyn_hed _ rfl | with_reducible exact dyn_reed _ rfl | with_reducible exact dyn_lnk _ | with_reducible exact dyn_wit0 hn | with_reducible exact dyn_wit1 hn | with_reducible exact dyn_writer _ rfl rfl | with_reducible exact dyn_bob _ _ | with_reducible exact dyn_bob' _ _ | with_reducible exact dyn_compl _ | decide | (split <;> first | exact dyn_hub rfl | with_reducible exact dyn_hed _ rfl)) (by first | decide | with_reducible exact (bob_off _).1 | with_reducible exact (bob_off _).2 | with_reducible exact (compl_off _).1 | with_reducible exact (compl_off _).2 | (split <;> decide)) (by first | decide | with_reducible exact (bob_off _).1 | with_reducible exact (bob_off _).2 | with_reducible exact (compl_off _).1 | with_reducible exact (compl_off _).2 | (split <;> decide)) ?_ | with_reducible refine linkEvent_kept ?_ | with_reducible refine raise_kept ?_ | with_reducible refine linkDown_kept ?_ | with_reducible refine timeDrop_kept ?_ | with_reducible refine timeStart_kept ?_ | with_reducible refine Kept.ite ?_ ?_ | (with_reducible show Kept D s _; first | exact ⟨h.inst, h.few, h.dyn, h.words⟩ | exact ⟨hx.inst, hx.few, hx.dyn, hx.words⟩))

theorem absentTimer_kept {s t : State} {a0 : Nat}  (h : Kept D s t) : Kept D s (absentTimer a0 t) := by
  unfold absentTimer
  repeat' (first | with_reducible assumption | with_reducible refine raise_kept ?_ | with_reducible refine linkEvent_kept ?_ | with_reducible refine setErr_kept ?_ | with_reducible refine updLink_kept ?_ | dsimp only | with_reducible refine Kept.ite ?_ ?_ | split | (with_reducible show Kept D s _; first | exact ⟨h.inst, h.few, h.dyn, h.words⟩ | exact ⟨hx.inst, hx.few, hx.dyn, hx.words⟩))

theorem updStop_kept {s t : State} {a0 : Stop → Stop}  (h : Kept D s t) : Kept D s (updStop a0 t) := by
  have a := updStop_same (F := (fun f => [Fld.stop].contains f)) (a0 := a0) rfl (Same.refl _ t)
  exact Kept.of_eq (Same.get (f := .inst) a rfl) (Same.get (f := .regs) a rfl) h

theorem snagFill_kept {s t : State}   (h : Kept D s t) : Kept D s (snagFill t) := by
  unfold snagFill
  repeat' (first | with_reducible assumption | with_reducible refine updStop_kept ?_ | with_reducible refine setErr_kept ?_ | with_reducible refine Kept.ite ?_ ?_ | split | (with_reducible show Kept D s _; first | exact ⟨h.inst, h.few, h.dyn, h.words⟩ | exact ⟨hx.inst, hx.few, hx.dyn, hx.words⟩))

theorem issueSnag_kept {s t : State} {a0 : Nat}  (h : Kept D s t) : Kept D s (issueSnag a0 t) := by
  unfold issueSnag
  repeat' (first | with_reducible assumption | with_reducible refine snagFill_kept ?_ | with_reducible refine updReedGov_kept ?_ | with_reducible refine updStop_kept ?_ | with_reducible refine sendBlock_kept ?_ | with_reducible refine Kept.ite ?_ ?_ | split | with_reducible refine Kept.set_exempt ?_ | (with_reducible show Kept D s _; first | exact ⟨h.inst, h.few, h.dyn, h.words⟩ | exact ⟨hx.inst, hx.few, hx.dyn, hx.words⟩))

theorem snagBlockDone_kept {s t : State} {a0 : Nat} {a1 : Bool}  (h : Kept D s t) : Kept D s (snagBlockDone a0 a1 t) := by
  have a := snagBlockDone_same (F := (fun f => [Fld.stop].contains f)) (a0 := a0) (a1 := a1) rfl (Same.refl _ t)
  exact Kept.of_eq (Same.get (f := .inst) a rfl) (Same.get (f := .regs) a rfl) h

theorem snagWritten_kept {s t : State}   (h : Kept D s t) : Kept D s (snagWritten t) := by
  unfold snagWritten
  repeat' (first | with_reducible assumption | with_reducible refine raise_kept ?_ | with_reducible refine updStop_kept ?_ | with_reducible refine Kept.ite ?_ ?_ | (with_reducible show Kept D s _; first | exact ⟨h.inst, h.few, h.dyn, h.words⟩ | exact ⟨hx.inst, hx.few, hx.dyn, hx.words⟩))

theorem snagRestart_kept {s t : State}   (h : Kept D s t) : Kept D s (snagRestart t) := by
  have a := snagRestart_same (F := (fun f => [Fld.stop].contains f))  rfl (Same.refl _ t)
  exact Kept.of_eq (Same.get (f := .inst) a rfl) (Same.get (f := .regs) a rfl) h

theorem waitingDemand_kept {s t : State}   (h : Kept D s t) : Kept D s (waitingDemand t) := by
  have a := waitingDemand_same (F := (fun f => [Fld.reedGovs].contains f))  rfl (Same.refl _ t)
  exact Kept.of_eq (Same.get (f := .inst) a rfl) (Same.get (f := .regs) a rfl) h

theorem updKey_kept {s t : State} {a0 : KeyStore → KeyStore}  (h : Kept D s t) : Kept D s (updKey a0 t) := by
  have a := updKey_same (F := (fun f => [Fld.key].contains f)) (a0 := a0) rfl (Same.refl _ t)
  exact Kept.of_eq (Same.get (f := .inst) a rfl) (Same.get (f := .regs) a rfl) h

theorem deriveGen_kept {s t : State} {a0 : BitVec 32} {a1 : BitVec 8} {a2 : BitVec 256}  (h : Kept D s t) : Kept D s (deriveGen a0 a1 a2 t).2 := by
  have a := deriveGen_same (F := (fun f => [Fld.salts].contains f)) (a0 := a0) (a1 := a1) (a2 := a2) rfl (Same.refl _ t)
  exact Kept.of_eq (Same.get (f := .inst) a rfl) (Same.get (f := .regs) a rfl) h

theorem deriveGen_kept_eq {s t : State} {a0 : BitVec 32} {a1 : BitVec 8} {a2 : BitVec 256}  {x} {u : State} (e : deriveGen a0 a1 a2 t = (x, u)) (h : Kept D s t) : Kept D s u := by
  have := deriveGen_kept (s := s) (t := t) (a0 := a0) (a1 := a1) (a2 := a2) h
  rw [e] at this; exact this

theorem clearSeed_kept {s t : State}   (h : Kept D s t) : Kept D s (clearSeed t) := by
  have a := clearSeed_same (F := (fun f => [Fld.key].contains f))  rfl (Same.refl _ t)
  exact Kept.of_eq (Same.get (f := .inst) a rfl) (Same.get (f := .regs) a rfl) h

theorem install_kept {s t : State}   (h : Kept D s t) : KeptO D s (install t) := by
  intro u e
  have a := install_same (F := (fun f => [Fld.key, Fld.salts].contains f))  rfl rfl (Same.refl _ t) u e
  exact Kept.of_eq (Same.get (f := .inst) a rfl) (Same.get (f := .regs) a rfl) h

theorem rotate_kept {s t : State}   (h : Kept D s t) : KeptO D s (rotate t) := by
  intro u e
  have a := rotate_same (F := (fun f => [Fld.bobs, Fld.key, Fld.salts].contains f))  rfl rfl rfl (Same.refl _ t) u e
  exact Kept.of_eq (Same.get (f := .inst) a rfl) (Same.get (f := .regs) a rfl) h

theorem slotReport_kept {s t : State} {a0 : Nat} {a1 : Nat} {a2 : Nat} {a3 : Nat} {a4 : Nat}  (h : Kept D s t) : Kept D s (slotReport a0 a1 a2 a3 a4 t) := by
  unfold slotReport
  repeat' (first | with_reducible assumption | with_reducible refine placeReport_kept ?_ | with_reducible refine Kept.ite ?_ ?_ | (with_reducible show Kept D s _; first | exact ⟨h.inst, h.few, h.dyn, h.words⟩ | exact ⟨hx.inst, hx.few, hx.dyn, hx.words⟩))

theorem beginRemoval_kept {s t : State} {a0 : Nat} {a1 : Nat}  (h : Kept D s t) : Kept D s (beginRemoval a0 a1 t) := by
  unfold beginRemoval
  repeat' (first | with_reducible assumption | with_reducible refine updSlot_kept ?_ | with_reducible refine closeBobs_kept ?_ | with_reducible refine raise_kept ?_ | with_reducible refine slotReport_kept ?_ | with_reducible refine Kept.ite ?_ ?_ | (with_reducible show Kept D s _; first | exact ⟨h.inst, h.few, h.dyn, h.words⟩ | exact ⟨hx.inst, hx.few, hx.dyn, hx.words⟩))

theorem remove_kept {s t : State}   (h : Kept D s t) : KeptO D s (remove t) := by
  unfold remove
  repeat' (first | with_reducible assumption | with_reducible refine beginRemoval_kept ?_ | with_reducible exact KeptO.none | with_reducible refine KeptO.some ?_ | with_reducible refine KeptO.ite ?_ ?_ | (with_reducible show Kept D s _; first | exact ⟨h.inst, h.few, h.dyn, h.words⟩ | exact ⟨hx.inst, hx.few, hx.dyn, hx.words⟩))

theorem release_kept {s t : State}   (h : Kept D s t) : KeptO D s (release t) := by
  intro u e
  have a := release_same (F := (fun f => [Fld.key].contains f))  rfl (Same.refl _ t) u e
  exact Kept.of_eq (Same.get (f := .inst) a rfl) (Same.get (f := .regs) a rfl) h

theorem scanRelease_kept {s t : State}   (h : Kept D s t) : KeptO D s (scanRelease t) := by
  intro u e
  have a := scanRelease_same (F := (fun f => [Fld.key].contains f))  rfl (Same.refl _ t) u e
  exact Kept.of_eq (Same.get (f := .inst) a rfl) (Same.get (f := .regs) a rfl) h

theorem noteSeed_kept {s t : State}   (h : Kept D s t) : Kept D s (noteSeed t) := by
  unfold noteSeed
  repeat' (first | with_reducible assumption | with_reducible refine setErr_kept ?_ | with_reducible refine Kept.ite ?_ ?_ | (with_reducible show Kept D s _; first | exact ⟨h.inst, h.few, h.dyn, h.words⟩ | exact ⟨hx.inst, hx.few, hx.dyn, hx.words⟩))

theorem tdispChange_kept {s t : State} {a0 : BitVec 2}  (h : Kept D s t) : Kept D s (tdispChange a0 t) := by
  unfold tdispChange
  repeat' (first | with_reducible assumption | with_reducible refine raise_kept ?_ | with_reducible refine updKey_kept ?_ | with_reducible refine setErr_kept ?_ | with_reducible refine clearSeed_kept ?_ | with_reducible refine beginRemoval_kept ?_ | with_reducible refine foldl_kept (fun _ _ _ => ?_) ?_ | with_reducible refine Kept.ite ?_ ?_ | (with_reducible show Kept D s _; first | exact ⟨h.inst, h.few, h.dyn, h.words⟩ | exact ⟨hx.inst, hx.few, hx.dyn, hx.words⟩))

theorem genRetired_kept {s t : State} {a0 : Nat}  (h : Kept D s t) : Kept D s (genRetired a0 t) := by
  unfold genRetired
  repeat' (first | with_reducible assumption | with_reducible refine updSlot_kept ?_ | with_reducible refine updBob_kept ?_ | with_reducible refine slotReport_kept ?_ | with_reducible refine foldl_kept (fun _ _ _ => ?_) ?_ | dsimp only | with_reducible refine Kept.ite ?_ ?_ | split | (with_reducible show Kept D s _; first | exact ⟨h.inst, h.few, h.dyn, h.words⟩ | exact ⟨hx.inst, hx.few, hx.dyn, hx.words⟩))

theorem fenceComplete_kept {s t : State} {a0 : Nat}  (h : Kept D s t) : Kept D s (fenceComplete a0 t) := by
  have a := fenceComplete_same (F := (fun f => [Fld.key].contains f)) (a0 := a0) rfl (Same.refl _ t)
  exact Kept.of_eq (Same.get (f := .inst) a rfl) (Same.get (f := .regs) a rfl) h

theorem clearBob_kept {s t : State} {a0 : Nat}  (h : Kept D s t) : Kept D s (clearBob a0 t) := by
  have a := clearBob_same (F := (fun f => [Fld.bobs].contains f)) (a0 := a0) rfl (Same.refl _ t)
  exact Kept.of_eq (Same.get (f := .inst) a rfl) (Same.get (f := .regs) a rfl) h

theorem eraseSlot_kept {s t : State} {a0 : Nat}  (h : Kept D s t) : Kept D s (eraseSlot a0 t) := by
  unfold eraseSlot
  repeat' (first | with_reducible assumption | with_reducible refine updSlot_kept ?_ | with_reducible refine clearBob_kept ?_ | with_reducible refine slotReport_kept ?_ | with_reducible refine foldl_kept (fun _ _ _ => ?_) ?_ | with_reducible refine Kept.ite ?_ ?_ | (with_reducible show Kept D s _; first | exact ⟨h.inst, h.few, h.dyn, h.words⟩ | exact ⟨hx.inst, hx.few, hx.dyn, hx.words⟩))

theorem slotDrainComplete_kept {s t : State} {a0 : Nat}  (h : Kept D s t) : Kept D s (slotDrainComplete a0 t) := by
  unfold slotDrainComplete
  repeat' (first | with_reducible assumption | with_reducible refine eraseSlot_kept ?_ | with_reducible refine Kept.ite ?_ ?_ | (with_reducible show Kept D s _; first | exact ⟨h.inst, h.few, h.dyn, h.words⟩ | exact ⟨hx.inst, hx.few, hx.dyn, hx.words⟩))

theorem drainOverdue_kept {s t : State} {a0 : Nat}  (h : Kept D s t) : Kept D s (drainOverdue a0 t) := by
  unfold drainOverdue
  repeat' (first | with_reducible assumption | with_reducible refine setErr_kept ?_ | with_reducible refine updSlot_kept ?_ | with_reducible refine Kept.ite ?_ ?_ | (with_reducible show Kept D s _; first | exact ⟨h.inst, h.few, h.dyn, h.words⟩ | exact ⟨hx.inst, hx.few, hx.dyn, hx.words⟩))

theorem keyEcc_kept {s t : State} {a0 : Nat} {a1 : Bool}  (h : Kept D s t) : Kept D s (keyEcc a0 a1 t) := by
  unfold keyEcc
  repeat' (first | with_reducible assumption | with_reducible refine beginRemoval_kept ?_ | with_reducible refine updSlot_kept ?_ | with_reducible refine updStrm_kept ?_ | with_reducible refine setErr_kept ?_ | with_reducible refine abandonScans_kept ?_ | with_reducible refine eraseSlot_kept ?_ | with_reducible refine workLost_kept ?_ | with_reducible refine foldl_kept (fun _ _ _ => ?_) ?_ | with_reducible refine Kept.ite ?_ ?_ | (with_reducible show Kept D s _; first | exact ⟨h.inst, h.few, h.dyn, h.words⟩ | exact ⟨hx.inst, hx.few, hx.dyn, hx.words⟩))

theorem issueZero_kept {s t : State} {a0 : Nat} {a1 : Nat} {a2 : Nat}  (h : Kept D s t) : Kept D s (issueZero a0 a1 a2 t) := by
  have a := issueZero_same (F := (fun f => [Fld.wports, Fld.exempt, Fld.key].contains f)) (a0 := a0) (a1 := a1) (a2 := a2) rfl rfl rfl (Same.refl _ t)
  exact Kept.of_eq (Same.get (f := .inst) a rfl) (Same.get (f := .regs) a rfl) h

theorem zeroDone_kept {s t : State} {a0 : Nat} {a1 : Nat} {a2 : Bool}  (h : Kept D s t) : Kept D s (zeroDone a0 a1 a2 t) := by
  have a := zeroDone_same (F := (fun f => [Fld.key].contains f)) (a0 := a0) (a1 := a1) (a2 := a2) rfl (Same.refl _ t)
  exact Kept.of_eq (Same.get (f := .inst) a rfl) (Same.get (f := .regs) a rfl) h

theorem scrubbed_kept {s t : State} {a0 : Nat} {a1 : Nat} {a2 : Nat} {a3 : Nat} {a4 : Nat}  (h : Kept D s t) : Kept D s (scrubbed a0 a1 a2 a3 a4 t) := by
  unfold scrubbed
  repeat' (first | with_reducible assumption | with_reducible refine raise_kept ?_ | with_reducible refine slotReport_kept ?_ | with_reducible refine updSlot_kept ?_ | with_reducible refine Kept.ite ?_ ?_ | (with_reducible show Kept D s _; first | exact ⟨h.inst, h.few, h.dyn, h.words⟩ | exact ⟨hx.inst, hx.few, hx.dyn, hx.words⟩))

theorem scrubComplete_kept {s t : State} {a0 : Nat}  (h : Kept D s t) : Kept D s (scrubComplete a0 t) := by
  unfold scrubComplete
  repeat' (first | with_reducible assumption | with_reducible refine scrubbed_kept ?_ | with_reducible refine Kept.ite ?_ ?_ | (with_reducible show Kept D s _; first | exact ⟨h.inst, h.few, h.dyn, h.words⟩ | exact ⟨hx.inst, hx.few, hx.dyn, hx.words⟩))

theorem askRead_kept {s t : State} {a0 : ReadFor} {a1 : Nat}  (h : Kept D s t) : Kept D s (askRead a0 a1 t) := by
  have a := askRead_same (F := (fun f => [Fld.rport].contains f)) (a0 := a0) (a1 := a1) rfl (Same.refl _ t)
  exact Kept.of_eq (Same.get (f := .inst) a rfl) (Same.get (f := .regs) a rfl) h

theorem askScans_kept {s t : State} {a0 : Nat}  (h : Kept D s t) : Kept D s (askScans a0 t) := by
  have a := askScans_same (F := (fun f => [Fld.rport, Fld.adopts].contains f)) (a0 := a0) rfl rfl (Same.refl _ t)
  exact Kept.of_eq (Same.get (f := .inst) a rfl) (Same.get (f := .regs) a rfl) h

theorem startReads_kept {s t : State} {a0 : Nat}  (h : Kept D s t) : Kept D s (startReads a0 t) := by
  have a := startReads_same (F := (fun f => [Fld.rport].contains f)) (a0 := a0) rfl (Same.refl _ t)
  exact Kept.of_eq (Same.get (f := .inst) a rfl) (Same.get (f := .regs) a rfl) h

theorem settleReads_kept {s t : State}   (h : Kept D s t) : Kept D s (settleReads t) := by
  have a := settleReads_same (F := (fun f => [Fld.rport, Fld.adopts].contains f))  rfl rfl (Same.refl _ t)
  exact Kept.of_eq (Same.get (f := .inst) a rfl) (Same.get (f := .regs) a rfl) h

theorem updRb_kept {s t : State} {a0 : RbPort → RbPort}  (h : Kept D s t) : Kept D s (updRb a0 t) := by
  have a := updRb_same (F := (fun f => [Fld.key].contains f)) (a0 := a0) rfl (Same.refl _ t)
  exact Kept.of_eq (Same.get (f := .inst) a rfl) (Same.get (f := .regs) a rfl) h

theorem rbBegin_kept {s t : State}   (h : Kept D s t) : Kept D s (rbBegin t) := by
  have a := rbBegin_same (F := (fun f => [Fld.rport, Fld.key].contains f))  rfl rfl (Same.refl _ t)
  exact Kept.of_eq (Same.get (f := .inst) a rfl) (Same.get (f := .regs) a rfl) h

theorem readbackRequest_kept {s t : State} {a0 : BitVec 16} {a1 : BitVec 48}  (h : Kept D s t) : Kept D s (readbackRequest a0 a1 t) := by
  have a := readbackRequest_same (F := (fun f => [Fld.rport, Fld.key].contains f)) (a0 := a0) (a1 := a1) rfl rfl (Same.refl _ t)
  exact Kept.of_eq (Same.get (f := .inst) a rfl) (Same.get (f := .regs) a rfl) h

theorem readbackComplete_kept {s t : State}   (h : Kept D s t) : Kept D s (readbackComplete t) := by
  have a := readbackComplete_same (F := (fun f => [Fld.rport, Fld.key].contains f))  rfl rfl (Same.refl _ t)
  exact Kept.of_eq (Same.get (f := .inst) a rfl) (Same.get (f := .regs) a rfl) h

theorem keyReadClear_kept {s t : State}   (h : Kept D s t) : Kept D s (keyReadClear t) := by
  have a := keyReadClear_same (F := (fun f => [Fld.key].contains f))  rfl (Same.refl _ t)
  exact Kept.of_eq (Same.get (f := .inst) a rfl) (Same.get (f := .regs) a rfl) h

theorem updFw_kept {s t : State} {a0 : Fw → Fw}  (h : Kept D s t) : Kept D s (updFw a0 t) := by
  have a := updFw_same (F := (fun f => [Fld.fw].contains f)) (a0 := a0) rfl (Same.refl _ t)
  exact Kept.of_eq (Same.get (f := .inst) a rfl) (Same.get (f := .regs) a rfl) h

theorem fwResult_kept {s t : State} {a0 : Nat}  (h : Kept D s t) : Kept D s (fwResult a0 t) := by
  unfold fwResult
  repeat' (first | with_reducible assumption | with_reducible refine regSetFld_kept (by first | with_reducible rfl | exact dyn_hub rfl | with_reducible exact dyn_hed _ rfl | with_reducible exact dyn_reed _ rfl | with_reducible exact dyn_lnk _ | with_reducible exact dyn_wit0 hn | with_reducible exact dyn_wit1 hn | with_reducible exact dyn_writer _ rfl rfl | with_reducible exact dyn_bob _ _ | with_reducible exact dyn_bob' _ _ | with_reducible exact dyn_compl _ | decide | (split <;> first | exact dyn_hub rfl | with_reducible exact dyn_hed _ rfl)) (by first | decide | with_reducible exact (bob_off _).1 | with_reducible exact (bob_off _).2 | with_reducible exact (compl_off _).1 | with_reducible exact (compl_off _).2 | (split <;> decide)) (by first | decide | with_reducible exact (bob_off _).1 | with_reducible exact (bob_off _).2 | with_reducible exact (compl_off _).1 | with_reducible exact (compl_off _).2 | (split <;> decide)) ?_ | with_reducible refine Kept.ite ?_ ?_ | (with_reducible show Kept D s _; first | exact ⟨h.inst, h.few, h.dyn, h.words⟩ | exact ⟨hx.inst, hx.few, hx.dyn, hx.words⟩))

theorem dropLoader_kept {s t : State}   (h : Kept D s t) : Kept D s (dropLoader t) := by
  have a := dropLoader_same (F := (fun f => [Fld.rport, Fld.fw].contains f))  rfl rfl (Same.refl _ t)
  exact Kept.of_eq (Same.get (f := .inst) a rfl) (Same.get (f := .regs) a rfl) h

theorem beginLoad_kept {s t : State} {a0 : Nat} {a1 : Nat}  (h : Kept D s t) : Kept D s (beginLoad a0 a1 t) := by
  have a := beginLoad_same (F := (fun f => [Fld.rport, Fld.fw].contains f)) (a0 := a0) (a1 := a1) rfl rfl (Same.refl _ t)
  exact Kept.of_eq (Same.get (f := .inst) a rfl) (Same.get (f := .regs) a rfl) h

theorem askBody_kept {s t : State} {a0 : Nat → ReadFor} {a1 : Nat} {a2 : Nat}  (h : Kept D s t) : Kept D s (askBody a0 a1 a2 t) := by
  have a := askBody_same (F := (fun f => [Fld.rport].contains f)) (a0 := a0) (a1 := a1) (a2 := a2) rfl (Same.refl _ t)
  exact Kept.of_eq (Same.get (f := .inst) a rfl) (Same.get (f := .regs) a rfl) h

theorem loaderRead_kept {s t : State} {a0 : Nat} {a1 : Option Block}  (h : Kept D s t) : Kept D s (loaderRead a0 a1 t) := by
  have a := loaderRead_same (F := (fun f => [Fld.rport, Fld.fw].contains f)) (a0 := a0) (a1 := a1) rfl rfl (Same.refl _ t)
  exact Kept.of_eq (Same.get (f := .inst) a rfl) (Same.get (f := .regs) a rfl) h

theorem clearSram_kept {s t : State}   (h : Kept D s t) : Kept D s (clearSram t) := by
  have a := clearSram_same (F := (fun f => [Fld.fw].contains f))  rfl (Same.refl _ t)
  exact Kept.of_eq (Same.get (f := .inst) a rfl) (Same.get (f := .regs) a rfl) h

theorem fwLoad_kept {s t : State}   (h : Kept D s t) : KeptO D s (fwLoad t) := by
  intro u e
  have a := fwLoad_same (F := (fun f => [Fld.rport, Fld.fw].contains f))  rfl rfl (Same.refl _ t) u e
  exact Kept.of_eq (Same.get (f := .inst) a rfl) (Same.get (f := .regs) a rfl) h

theorem loadComplete_kept {s t : State}   (h : Kept D s t) : Kept D s (loadComplete t) := by
  unfold loadComplete
  repeat' (first | with_reducible assumption | with_reducible refine fwResult_kept ?_ | with_reducible refine dropLoader_kept ?_ | with_reducible refine updFw_kept ?_ | with_reducible refine raise_kept ?_ | with_reducible refine setErr_kept ?_ | with_reducible refine clearSram_kept ?_ | with_reducible refine Kept.ite ?_ ?_ | split | (with_reducible show Kept D s _; first | exact ⟨h.inst, h.few, h.dyn, h.words⟩ | exact ⟨hx.inst, hx.few, hx.dyn, hx.words⟩))

theorem fwHandover_kept {s t : State}   (h : Kept D s t) : KeptO D s (fwHandover t) := by
  intro u e
  have a := fwHandover_same (F := (fun f => [Fld.rport, Fld.fw].contains f))  rfl rfl (Same.refl _ t) u e
  exact Kept.of_eq (Same.get (f := .inst) a rfl) (Same.get (f := .regs) a rfl) h

theorem handoverFails_kept {s t : State} {a0 : Nat}  (h : Kept D s t) : Kept D s (handoverFails a0 t) := by
  unfold handoverFails
  repeat' (first | with_reducible assumption | with_reducible refine raise_kept ?_ | with_reducible refine setErr_kept ?_ | with_reducible refine fwResult_kept ?_ | with_reducible refine updFw_kept ?_ | with_reducible refine dropLoader_kept ?_ | with_reducible refine Kept.ite ?_ ?_ | (with_reducible show Kept D s _; first | exact ⟨h.inst, h.few, h.dyn, h.words⟩ | exact ⟨hx.inst, hx.few, hx.dyn, hx.words⟩))

theorem verifyComplete_kept {s t : State}   (h : Kept D s t) : Kept D s (verifyComplete t) := by
  unfold verifyComplete
  repeat' (first | with_reducible assumption | with_reducible refine updFw_kept ?_ | with_reducible refine dropLoader_kept ?_ | with_reducible refine handoverFails_kept ?_ | with_reducible refine Kept.ite ?_ ?_ | split | (with_reducible show Kept D s _; first | exact ⟨h.inst, h.few, h.dyn, h.words⟩ | exact ⟨hx.inst, hx.few, hx.dyn, hx.words⟩))

theorem handoverTimeout_kept {s t : State}   (h : Kept D s t) : Kept D s (handoverTimeout t) := by
  unfold handoverTimeout
  repeat' (first | with_reducible assumption | with_reducible refine handoverFails_kept ?_ | with_reducible refine Kept.ite ?_ ?_ | (with_reducible show Kept D s _; first | exact ⟨h.inst, h.few, h.dyn, h.words⟩ | exact ⟨hx.inst, hx.few, hx.dyn, hx.words⟩))

theorem leaveCheckpoint_kept {s t : State}   (h : Kept D s t) : Kept D s (leaveCheckpoint t) := by
  have a := leaveCheckpoint_same (F := (fun f => [Fld.fw, Fld.free].contains f))  rfl rfl (Same.refl _ t)
  exact Kept.of_eq (Same.get (f := .inst) a rfl) (Same.get (f := .regs) a rfl) h

theorem enterReload_kept {s t : State}   (h : Kept D s t) : Kept D s (enterReload t) := by
  have a := enterReload_same (F := (fun f => [Fld.rport, Fld.fw].contains f))  rfl rfl (Same.refl _ t)
  exact Kept.of_eq (Same.get (f := .inst) a rfl) (Same.get (f := .regs) a rfl) h

theorem enterStart_kept {s t : State}   (h : Kept D s t) : Kept D s (enterStart t) := by
  have a := enterStart_same (F := (fun f => [Fld.rport, Fld.fw].contains f))  rfl rfl (Same.refl _ t)
  exact Kept.of_eq (Same.get (f := .inst) a rfl) (Same.get (f := .regs) a rfl) h

theorem fwAccept_kept {s t : State}   (h : Kept D s t) : Kept D s (fwAccept t) := by
  unfold fwAccept
  repeat' (first | with_reducible assumption | with_reducible refine regSetFld_kept (by first | with_reducible rfl | exact dyn_hub rfl | with_reducible exact dyn_hed _ rfl | with_reducible exact dyn_reed _ rfl | with_reducible exact dyn_lnk _ | with_reducible exact dyn_wit0 hn | with_reducible exact dyn_wit1 hn | with_reducible exact dyn_writer _ rfl rfl | with_reducible exact dyn_bob _ _ | with_reducible exact dyn_bob' _ _ | with_reducible exact dyn_compl _ | decide | (split <;> first | exact dyn_hub rfl | with_reducible exact dyn_hed _ rfl)) (by first | decide | with_reducible exact (bob_off _).1 | with_reducible exact (bob_off _).2 | with_reducible exact (compl_off _).1 | with_reducible exact (compl_off _).2 | (split <;> decide)) (by first | decide | with_reducible exact (bob_off _).1 | with_reducible exact (bob_off _).2 | with_reducible exact (compl_off _).1 | with_reducible exact (compl_off _).2 | (split <;> decide)) ?_ | with_reducible refine updFw_kept ?_ | with_reducible refine count_kept (by first | with_reducible rfl | exact dyn_hub rfl | with_reducible exact dyn_hed _ rfl | with_reducible exact dyn_reed _ rfl | with_reducible exact dyn_lnk _ | with_reducible exact dyn_wit0 hn | with_reducible exact dyn_wit1 hn | with_reducible exact dyn_writer _ rfl rfl | with_reducible exact dyn_bob _ _ | with_reducible exact dyn_bob' _ _ | with_reducible exact dyn_compl _ | decide | (split <;> first | exact dyn_hub rfl | with_reducible exact dyn_hed _ rfl)) (by first | decide | with_reducible exact (bob_off _).1 | with_reducible exact (bob_off _).2 | with_reducible exact (compl_off _).1 | with_reducible exact (compl_off _).2 | (split <;> decide)) (by first | decide | with_reducible exact (bob_off _).1 | with_reducible exact (bob_off _).2 | with_reducible exact (compl_off _).1 | with_reducible exact (compl_off _).2 | (split <;> decide)) ?_ | with_reducible refine raise_kept ?_ | with_reducible refine fwResult_kept ?_ | with_reducible refine Kept.ite ?_ ?_ | (with_reducible show Kept D s _; first | exact ⟨h.inst, h.few, h.dyn, h.words⟩ | exact ⟨hx.inst, hx.few, hx.dyn, hx.words⟩))

theorem abandonHandover_kept {s t : State}   (h : Kept D s t) : Kept D s (abandonHandover t) := by
  unfold abandonHandover
  repeat' (first | with_reducible assumption | with_reducible refine raise_kept ?_ | with_reducible refine setErr_kept ?_ | with_reducible refine fwResult_kept ?_ | with_reducible refine updFw_kept ?_ | with_reducible refine dropLoader_kept ?_ | with_reducible refine Kept.ite ?_ ?_ | (with_reducible show Kept D s _; first | exact ⟨h.inst, h.few, h.dyn, h.words⟩ | exact ⟨hx.inst, hx.few, hx.dyn, hx.words⟩))

theorem handoverHubReset_kept {s t : State}   (h : Kept D s t) : Kept D s (handoverHubReset t) := by
  unfold handoverHubReset
  repeat' (first | with_reducible assumption | with_reducible refine abandonHandover_kept ?_ | with_reducible refine updFw_kept ?_ | with_reducible refine Kept.ite ?_ ?_ | (with_reducible show Kept D s _; first | exact ⟨h.inst, h.few, h.dyn, h.words⟩ | exact ⟨hx.inst, hx.few, hx.dyn, hx.words⟩))

theorem handoverHubBack_kept {s t : State} {a0 : Nat}  (h : Kept D s t) : Kept D s (handoverHubBack a0 t) := by
  have a := handoverHubBack_same (F := (fun f => [Fld.fw].contains f)) (a0 := a0) rfl (Same.refl _ t)
  exact Kept.of_eq (Same.get (f := .inst) a rfl) (Same.get (f := .regs) a rfl) h

theorem fwEnters_kept {s t : State}   (h : Kept D s t) : Kept D s (fwEnters t) := by
  have a := fwEnters_same (F := (fun f => [Fld.fw].contains f))  rfl (Same.refl _ t)
  exact Kept.of_eq (Same.get (f := .inst) a rfl) (Same.get (f := .regs) a rfl) h

theorem fwReset_kept {s t : State}   (h : Kept D s t) : Kept D s (fwReset t) := by
  have a := fwReset_same (F := (fun f => [Fld.rport, Fld.fw].contains f))  rfl rfl (Same.refl _ t)
  exact Kept.of_eq (Same.get (f := .inst) a rfl) (Same.get (f := .regs) a rfl) h

theorem watchdogKick_kept {s t : State}   (h : Kept D s t) : Kept D s (watchdogKick t) := by
  unfold watchdogKick
  repeat' (first | with_reducible assumption | with_reducible refine count_kept (by first | with_reducible rfl | exact dyn_hub rfl | with_reducible exact dyn_hed _ rfl | with_reducible exact dyn_reed _ rfl | with_reducible exact dyn_lnk _ | with_reducible exact dyn_wit0 hn | with_reducible exact dyn_wit1 hn | with_reducible exact dyn_writer _ rfl rfl | with_reducible exact dyn_bob _ _ | with_reducible exact dyn_bob' _ _ | with_reducible exact dyn_compl _ | decide | (split <;> first | exact dyn_hub rfl | with_reducible exact dyn_hed _ rfl)) (by first | decide | with_reducible exact (bob_off _).1 | with_reducible exact (bob_off _).2 | with_reducible exact (compl_off _).1 | with_reducible exact (compl_off _).2 | (split <;> decide)) (by first | decide | with_reducible exact (bob_off _).1 | with_reducible exact (bob_off _).2 | with_reducible exact (compl_off _).1 | with_reducible exact (compl_off _).2 | (split <;> decide)) ?_ | with_reducible refine updFw_kept ?_ | with_reducible refine Kept.ite ?_ ?_ | (with_reducible show Kept D s _; first | exact ⟨h.inst, h.few, h.dyn, h.words⟩ | exact ⟨hx.inst, hx.few, hx.dyn, hx.words⟩))

theorem fwEmit_kept {s t : State} {a0 : Nat}  (h : Kept D s t) : Kept D s (fwEmit a0 t) := by
  unfold fwEmit
  repeat' (first | with_reducible assumption | with_reducible refine emitNotices_kept ?_ | with_reducible refine Kept.ite ?_ ?_ | (with_reducible show Kept D s _; first | exact ⟨h.inst, h.few, h.dyn, h.words⟩ | exact ⟨hx.inst, hx.few, hx.dyn, hx.words⟩))

theorem hostEmit_kept {s t : State}   (h : Kept D s t) : KeptO D s (hostEmit t) := by
  unfold hostEmit
  repeat' (first | with_reducible assumption | with_reducible refine emitNotices_kept ?_ | with_reducible exact KeptO.none | with_reducible refine KeptO.some ?_ | with_reducible refine KeptO.ite ?_ ?_ | (with_reducible show Kept D s _; first | exact ⟨h.inst, h.few, h.dyn, h.words⟩ | exact ⟨hx.inst, hx.few, hx.dyn, hx.words⟩))

theorem hostScrubbed_kept {s t : State}   (h : Kept D s t) : KeptO D s (hostScrubbed t) := by
  unfold hostScrubbed
  repeat' (first | with_reducible assumption | with_reducible refine scrubbed_kept ?_ | with_reducible exact KeptO.none | with_reducible refine KeptO.some ?_ | with_reducible refine KeptO.ite ?_ ?_ | (with_reducible show Kept D s _; first | exact ⟨h.inst, h.few, h.dyn, h.words⟩ | exact ⟨hx.inst, hx.few, hx.dyn, hx.words⟩))

theorem bufTransfer_kept {s t : State} {a0 : Word} {a1 : Block}  (h : Kept D s t) : Kept D s (bufTransfer a0 a1 t) := by
  have a := bufTransfer_same (F := (fun f => [Fld.rport, Fld.fw].contains f)) (a0 := a0) (a1 := a1) rfl rfl (Same.refl _ t)
  exact Kept.of_eq (Same.get (f := .inst) a rfl) (Same.get (f := .regs) a rfl) h

theorem issueBuf_kept {s t : State} {a0 : Nat}  (h : Kept D s t) : Kept D s (issueBuf a0 t) := by
  have a := issueBuf_same (F := (fun f => [Fld.wports, Fld.fw].contains f)) (a0 := a0) rfl rfl (Same.refl _ t)
  exact Kept.of_eq (Same.get (f := .inst) a rfl) (Same.get (f := .regs) a rfl) h

theorem bufDone_kept {s t : State} {a0 : Bool}  (h : Kept D s t) : Kept D s (bufDone a0 t) := by
  have a := bufDone_same (F := (fun f => [Fld.fw].contains f)) (a0 := a0) rfl (Same.refl _ t)
  exact Kept.of_eq (Same.get (f := .inst) a rfl) (Same.get (f := .regs) a rfl) h

theorem bufRead_kept {s t : State} {a0 : Option Block}  (h : Kept D s t) : Kept D s (bufRead a0 t) := by
  have a := bufRead_same (F := (fun f => [Fld.fw].contains f)) (a0 := a0) rfl (Same.refl _ t)
  exact Kept.of_eq (Same.get (f := .inst) a rfl) (Same.get (f := .regs) a rfl) h

theorem testReload_kept {s t : State}   (h : Kept D s t) : Kept D s (testReload t) := by
  have a := testReload_same (F := (fun f => [Fld.rport, Fld.tests].contains f))  rfl rfl (Same.refl _ t)
  exact Kept.of_eq (Same.get (f := .inst) a rfl) (Same.get (f := .regs) a rfl) h

theorem manifestRead_kept {s t : State} {a0 : Nat} {a1 : Option Block}  (h : Kept D s t) : Kept D s (manifestRead a0 a1 t) := by
  have a := manifestRead_same (F := (fun f => [Fld.rport, Fld.tests].contains f)) (a0 := a0) (a1 := a1) rfl rfl (Same.refl _ t)
  exact Kept.of_eq (Same.get (f := .inst) a rfl) (Same.get (f := .regs) a rfl) h

theorem dropManifest_kept {s t : State}   (h : Kept D s t) : Kept D s (dropManifest t) := by
  have a := dropManifest_same (F := (fun f => [Fld.rport, Fld.tests].contains f))  rfl rfl (Same.refl _ t)
  exact Kept.of_eq (Same.get (f := .inst) a rfl) (Same.get (f := .regs) a rfl) h

theorem readEnd_kept {s t : State} {a0 : ReadFor} {a1 : Option Block}  (h : Kept D s t) : Kept D s (readEnd a0 a1 t) := by
  unfold readEnd
  repeat' (first | with_reducible assumption | with_reducible refine scanRead_kept ?_ | with_reducible refine updRb_kept ?_ | with_reducible refine loaderRead_kept ?_ | with_reducible refine manifestRead_kept ?_ | with_reducible refine bufRead_kept ?_ | with_reducible refine Kept.ite ?_ ?_ | split | (with_reducible show Kept D s _; first | exact ⟨h.inst, h.few, h.dyn, h.words⟩ | exact ⟨hx.inst, hx.few, hx.dyn, hx.words⟩))

theorem endTag_kept {s t : State} {a0 : Nat} {a1 : ReadUse} {a2 : Option Block}  (h : Kept D s t) : Kept D s (endTag a0 a1 a2 t) := by
  unfold endTag
  repeat' (first | with_reducible assumption | with_reducible refine readEnd_kept ?_ | with_reducible refine Kept.ite ?_ ?_ | with_reducible refine Kept.set_rport ?_ | (with_reducible show Kept D s _; first | exact ⟨h.inst, h.few, h.dyn, h.words⟩ | exact ⟨hx.inst, hx.few, hx.dyn, hx.words⟩))

theorem endEarly_kept {s t : State} {a0 : Nat} {a1 : ReadUse}  (h : Kept D s t) : Kept D s (endEarly a0 a1 t) := by
  unfold endEarly
  repeat' (first | with_reducible assumption | with_reducible refine readEnd_kept ?_ | with_reducible refine Kept.set_rport ?_ | (with_reducible show Kept D s _; first | exact ⟨h.inst, h.few, h.dyn, h.words⟩ | exact ⟨hx.inst, hx.few, hx.dyn, hx.words⟩))

theorem readBeat_kept {s t : State} {a0 : Nat} {a1 : BitVec 3} {a2 : Bool} {a3 : Beat}  (h : Kept D s t) : Kept D s (readBeat a0 a1 a2 a3 t) := by
  unfold readBeat
  repeat' (first | with_reducible assumption | with_reducible refine setPortErr_kept ?_ | with_reducible refine endTag_kept ?_ | with_reducible refine endEarly_kept ?_ | with_reducible refine Kept.ite ?_ ?_ | split | with_reducible refine Kept.set_rport ?_ | (with_reducible show Kept D s _; first | exact ⟨h.inst, h.few, h.dyn, h.words⟩ | exact ⟨hx.inst, hx.few, hx.dyn, hx.words⟩))

theorem readTimeout_kept {s t : State} {a0 : Nat}  (h : Kept D s t) : Kept D s (readTimeout a0 t) := by
  unfold readTimeout
  repeat' (first | with_reducible assumption | with_reducible refine endEarly_kept ?_ | with_reducible refine setPortErr_kept ?_ | with_reducible refine Kept.ite ?_ ?_ | split | (with_reducible show Kept D s _; first | exact ⟨h.inst, h.few, h.dyn, h.words⟩ | exact ⟨hx.inst, hx.few, hx.dyn, hx.words⟩))

theorem writeEnd_kept {s t : State} {a0 : Nat} {a1 : BlkRef} {a2 : Bool}  (h : Kept D s t) : Kept D s (writeEnd a0 a1 a2 t) := by
  unfold writeEnd
  repeat' (first | with_reducible assumption | with_reducible refine completeBob_kept ?_ | with_reducible refine completePast_kept ?_ | with_reducible refine scanDoneBlock_kept ?_ | with_reducible refine snagBlockDone_kept ?_ | with_reducible refine zeroDone_kept ?_ | with_reducible refine bufDone_kept ?_ | with_reducible refine Kept.ite ?_ ?_ | split | (with_reducible show Kept D s _; first | exact ⟨h.inst, h.few, h.dyn, h.words⟩ | exact ⟨hx.inst, hx.few, hx.dyn, hx.words⟩))

theorem takeEnd_kept {s t : State} {a0 : Nat} {a1 : BlkRef} {a2 : Bool}  (h : Kept D s t) : Kept D s (takeEnd a0 a1 a2 t) := by
  unfold takeEnd
  repeat' (first | with_reducible assumption | with_reducible refine updPort_kept ?_ | with_reducible refine writeEnd_kept ?_ | with_reducible refine Kept.ite ?_ ?_ | split | (with_reducible show Kept D s _; first | exact ⟨h.inst, h.few, h.dyn, h.words⟩ | exact ⟨hx.inst, hx.few, hx.dyn, hx.words⟩))

theorem applyRecorded_kept {s t : State} {a0 : Nat}  (h : Kept D s t) : Kept D s (applyRecorded a0 t) := by
  unfold applyRecorded
  repeat' (first | with_reducible assumption | with_reducible refine writeEnd_kept ?_ | with_reducible refine updPort_kept ?_ | with_reducible refine foldl_kept (fun _ _ _ => ?_) ?_ | with_reducible refine Kept.ite ?_ ?_ | (with_reducible show Kept D s _; first | exact ⟨h.inst, h.few, h.dyn, h.words⟩ | exact ⟨hx.inst, hx.few, hx.dyn, hx.words⟩))

theorem lateDrop_kept {s t : State} {a0 : BlkRef}  (h : Kept D s t) : Kept D s (lateDrop a0 t) := by
  have a := lateDrop_same (F := (fun f => [Fld.key].contains f)) (a0 := a0) rfl (Same.refl _ t)
  exact Kept.of_eq (Same.get (f := .inst) a rfl) (Same.get (f := .regs) a rfl) h

theorem memoryCompletion_kept {s t : State} {a0 : Nat} {a1 : Nat} {a2 : Bool}  (h : Kept D s t) : Kept D s (memoryCompletion a0 a1 a2 t) := by
  unfold memoryCompletion
  repeat' (first | with_reducible assumption | with_reducible refine setPortErr_kept ?_ | with_reducible refine bump_kept (by first | with_reducible rfl | exact dyn_hub rfl | with_reducible exact dyn_hed _ rfl | with_reducible exact dyn_reed _ rfl | with_reducible exact dyn_lnk _ | with_reducible exact dyn_wit0 hn | with_reducible exact dyn_wit1 hn | with_reducible exact dyn_writer _ rfl rfl | with_reducible exact dyn_bob _ _ | with_reducible exact dyn_bob' _ _ | with_reducible exact dyn_compl _ | decide | (split <;> first | exact dyn_hub rfl | with_reducible exact dyn_hed _ rfl)) (by first | decide | with_reducible exact (bob_off _).1 | with_reducible exact (bob_off _).2 | with_reducible exact (compl_off _).1 | with_reducible exact (compl_off _).2 | (split <;> decide)) (by first | decide | with_reducible exact (bob_off _).1 | with_reducible exact (bob_off _).2 | with_reducible exact (compl_off _).1 | with_reducible exact (compl_off _).2 | (split <;> decide)) ?_ | with_reducible refine updPort_kept ?_ | with_reducible refine lateDrop_kept ?_ | with_reducible refine takeEnd_kept ?_ | with_reducible refine Kept.ite ?_ ?_ | split | (with_reducible show Kept D s _; first | exact ⟨h.inst, h.few, h.dyn, h.words⟩ | exact ⟨hx.inst, hx.few, hx.dyn, hx.words⟩))

theorem completionTimeout_kept {s t : State} {a0 : Nat} {a1 : Nat}  (h : Kept D s t) : Kept D s (completionTimeout a0 a1 t) := by
  unfold completionTimeout
  repeat' (first | with_reducible assumption | with_reducible refine updPort_kept ?_ | with_reducible refine takeEnd_kept ?_ | with_reducible refine setPortErr_kept ?_ | with_reducible refine bump_kept (by first | with_reducible rfl | exact dyn_hub rfl | with_reducible exact dyn_hed _ rfl | with_reducible exact dyn_reed _ rfl | with_reducible exact dyn_lnk _ | with_reducible exact dyn_wit0 hn | with_reducible exact dyn_wit1 hn | with_reducible exact dyn_writer _ rfl rfl | with_reducible exact dyn_bob _ _ | with_reducible exact dyn_bob' _ _ | with_reducible exact dyn_compl _ | decide | (split <;> first | exact dyn_hub rfl | with_reducible exact dyn_hed _ rfl)) (by first | decide | with_reducible exact (bob_off _).1 | with_reducible exact (bob_off _).2 | with_reducible exact (compl_off _).1 | with_reducible exact (compl_off _).2 | (split <;> decide)) (by first | decide | with_reducible exact (bob_off _).1 | with_reducible exact (bob_off _).2 | with_reducible exact (compl_off _).1 | with_reducible exact (compl_off _).2 | (split <;> decide)) ?_ | with_reducible refine Kept.ite ?_ ?_ | split | (with_reducible show Kept D s _; first | exact ⟨h.inst, h.few, h.dyn, h.words⟩ | exact ⟨hx.inst, hx.few, hx.dyn, hx.words⟩))

theorem settleWriter_kept {s t : State} {a0 : Nat}  (h : Kept D s t) : Kept D s (settleWriter a0 t) := by
  unfold settleWriter
  repeat' (first | with_reducible assumption | with_reducible refine settleLnk_kept ?_ | with_reducible refine witFlush_kept ?_ | with_reducible refine settleHed_kept ?_ | with_reducible refine foldl_kept (fun _ _ _ => ?_) ?_ | with_reducible refine Kept.ite ?_ ?_ | (with_reducible show Kept D s _; first | exact ⟨h.inst, h.few, h.dyn, h.words⟩ | exact ⟨hx.inst, hx.few, hx.dyn, hx.words⟩))

theorem blockIssue_kept {s t : State} {a0 : Nat}  (h : Kept D s t) : Kept D s (blockIssue a0 t) := by
  unfold blockIssue
  repeat' (first | with_reducible assumption | with_reducible refine settleWriter_kept ?_ | with_reducible refine issueBuf_kept ?_ | with_reducible refine issueSnag_kept ?_ | with_reducible refine issueZero_kept ?_ | with_reducible refine issueNext_kept ?_ | with_reducible refine issueScan_kept ?_ | with_reducible refine Kept.ite ?_ ?_ | split | (with_reducible show Kept D s _; first | exact ⟨h.inst, h.few, h.dyn, h.words⟩ | exact ⟨hx.inst, hx.few, hx.dyn, hx.words⟩))

theorem releaseAck_kept {s t : State} {a0 : Nat}  (h : Kept D s t) : Kept D s (releaseAck a0 t) := by
  unfold releaseAck
  repeat' (first | with_reducible assumption | with_reducible refine settleWriter_kept ?_ | with_reducible refine releaseBob_kept ?_ | with_reducible refine pump_kept ?_ | with_reducible refine witFlush_kept ?_ | with_reducible refine settleLnk_kept ?_ | dsimp only | with_reducible refine Kept.ite ?_ ?_ | split | (with_reducible show Kept D s _; first | exact ⟨h.inst, h.few, h.dyn, h.words⟩ | exact ⟨hx.inst, hx.few, hx.dyn, hx.words⟩))

theorem viewChanged_kept {s t : State} {a0 : Nat} {a1 : PState}  (h : Kept D s t) : Kept D s (viewChanged a0 a1 t) := by
  induction a0 generalizing t a1 with
  | zero => exact h
  | succ n ih =>
    unfold viewChanged
    repeat' (first | with_reducible assumption | (with_reducible refine ih ?_) | with_reducible refine startRehome_kept ?_ | with_reducible refine Kept.ite ?_ ?_ | (with_reducible show Kept D s _; first | exact ⟨h.inst, h.few, h.dyn, h.words⟩ | exact ⟨hx.inst, hx.few, hx.dyn, hx.words⟩))

theorem applyReport_kept {s t : State} {a0 : Nat} {a1 : Report}  (h : Kept D s t) : Kept D s (applyReport a0 a1 t) := by
  unfold applyReport
  repeat' (first | with_reducible assumption | with_reducible refine viewChanged_kept ?_ | with_reducible refine updPart_kept ?_ | with_reducible refine Kept.ite ?_ ?_ | (with_reducible show Kept D s _; first | exact ⟨h.inst, h.few, h.dyn, h.words⟩ | exact ⟨hx.inst, hx.few, hx.dyn, hx.words⟩))

theorem popReport_kept {s t : State} {a0 : Nat}  (h : Kept D s t) : Kept D s (popReport a0 t) := by
  have a := popReport_same (F := (fun f => [Fld.parts].contains f)) (a0 := a0) rfl (Same.refl _ t)
  exact Kept.of_eq (Same.get (f := .inst) a rfl) (Same.get (f := .regs) a rfl) h

theorem stateReport_kept {s t : State} {a0 : Nat} {a1 : Bool}  (h : Kept D s t) : Kept D s (stateReport a0 a1 t) := by
  unfold stateReport
  repeat' (first | with_reducible assumption | with_reducible refine bump_kept (by first | with_reducible rfl | exact dyn_hub rfl | with_reducible exact dyn_hed _ rfl | with_reducible exact dyn_reed _ rfl | with_reducible exact dyn_lnk _ | with_reducible exact dyn_wit0 hn | with_reducible exact dyn_wit1 hn | with_reducible exact dyn_writer _ rfl rfl | with_reducible exact dyn_bob _ _ | with_reducible exact dyn_bob' _ _ | with_reducible exact dyn_compl _ | decide | (split <;> first | exact dyn_hub rfl | with_reducible exact dyn_hed _ rfl)) (by first | decide | with_reducible exact (bob_off _).1 | with_reducible exact (bob_off _).2 | with_reducible exact (compl_off _).1 | with_reducible exact (compl_off _).2 | (split <;> decide)) (by first | decide | with_reducible exact (bob_off _).1 | with_reducible exact (bob_off _).2 | with_reducible exact (compl_off _).1 | with_reducible exact (compl_off _).2 | (split <;> decide)) ?_ | with_reducible refine popReport_kept ?_ | with_reducible refine applyReport_kept ?_ | with_reducible refine Kept.ite ?_ ?_ | split | (with_reducible show Kept D s _; first | exact ⟨h.inst, h.few, h.dyn, h.words⟩ | exact ⟨hx.inst, hx.few, hx.dyn, hx.words⟩))

theorem drainReports_kept {s t : State} {a0 : Nat}  (h : Kept D s t) : Kept D s (drainReports a0 t) := by
  unfold drainReports
  repeat' (first | with_reducible assumption | with_reducible refine applyReport_kept ?_ | with_reducible refine updPart_kept ?_ | with_reducible refine foldl_kept (fun _ _ _ => ?_) ?_ | with_reducible refine Kept.ite ?_ ?_ | (with_reducible show Kept D s _; first | exact ⟨h.inst, h.few, h.dyn, h.words⟩ | exact ⟨hx.inst, hx.few, hx.dyn, hx.words⟩))

theorem compareView_kept {s t : State} {a0 : Nat} {a1 : Nat}  (h : Kept D s t) : Kept D s (compareView a0 a1 t).2 := by
  unfold compareView
  repeat' (first | with_reducible assumption | with_reducible refine viewChanged_kept ?_ | with_reducible refine updPart_kept ?_ | with_reducible refine bump_kept (by first | with_reducible rfl | exact dyn_hub rfl | with_reducible exact dyn_hed _ rfl | with_reducible exact dyn_reed _ rfl | with_reducible exact dyn_lnk _ | with_reducible exact dyn_wit0 hn | with_reducible exact dyn_wit1 hn | with_reducible exact dyn_writer _ rfl rfl | with_reducible exact dyn_bob _ _ | with_reducible exact dyn_bob' _ _ | with_reducible exact dyn_compl _ | decide | (split <;> first | exact dyn_hub rfl | with_reducible exact dyn_hed _ rfl)) (by first | decide | with_reducible exact (bob_off _).1 | with_reducible exact (bob_off _).2 | with_reducible exact (compl_off _).1 | with_reducible exact (compl_off _).2 | (split <;> decide)) (by first | decide | with_reducible exact (bob_off _).1 | with_reducible exact (bob_off _).2 | with_reducible exact (compl_off _).1 | with_reducible exact (compl_off _).2 | (split <;> decide)) ?_ | with_reducible refine emitHub_kept ?_ | with_reducible refine setErr_kept ?_ | dsimp only | with_reducible refine Kept.ite ?_ ?_ | split | (with_reducible show Kept D s _; first | exact ⟨h.inst, h.few, h.dyn, h.words⟩ | exact ⟨hx.inst, hx.few, hx.dyn, hx.words⟩))

theorem compareView_kept_eq {s t : State} {a0 : Nat} {a1 : Nat}  {x} {u : State} (e : compareView a0 a1 t = (x, u)) (h : Kept D s t) : Kept D s u := by
  have := compareView_kept (s := s) (t := t) (a0 := a0) (a1 := a1) h
  rw [e] at this; exact this

theorem askAudit_kept {s t : State} {a0 : Nat} {a1 : Nat}  (h : Kept D s t) : Kept D s (askAudit a0 a1 t) := by
  have a := askAudit_same (F := (fun f => [Fld.parts].contains f)) (a0 := a0) (a1 := a1) rfl (Same.refl _ t)
  exact Kept.of_eq (Same.get (f := .inst) a rfl) (Same.get (f := .regs) a rfl) h

theorem periodicAudit_kept {s t : State}   (h : Kept D s t) : Kept D s (periodicAudit t) := by
  have a := periodicAudit_same (F := (fun f => [Fld.audit].contains f))  rfl (Same.refl _ t)
  exact Kept.of_eq (Same.get (f := .inst) a rfl) (Same.get (f := .regs) a rfl) h

theorem auditDone_kept {s t : State}   (h : Kept D s t) : Kept D s (auditDone t) := by
  unfold auditDone
  repeat' (first | with_reducible assumption | with_reducible refine count_kept (by first | with_reducible rfl | exact dyn_hub rfl | with_reducible exact dyn_hed _ rfl | with_reducible exact dyn_reed _ rfl | with_reducible exact dyn_lnk _ | with_reducible exact dyn_wit0 hn | with_reducible exact dyn_wit1 hn | with_reducible exact dyn_writer _ rfl rfl | with_reducible exact dyn_bob _ _ | with_reducible exact dyn_bob' _ _ | with_reducible exact dyn_compl _ | decide | (split <;> first | exact dyn_hub rfl | with_reducible exact dyn_hed _ rfl)) (by first | decide | with_reducible exact (bob_off _).1 | with_reducible exact (bob_off _).2 | with_reducible exact (compl_off _).1 | with_reducible exact (compl_off _).2 | (split <;> decide)) (by first | decide | with_reducible exact (bob_off _).1 | with_reducible exact (bob_off _).2 | with_reducible exact (compl_off _).1 | with_reducible exact (compl_off _).2 | (split <;> decide)) ?_ | with_reducible refine regSetFld_kept (by first | with_reducible rfl | exact dyn_hub rfl | with_reducible exact dyn_hed _ rfl | with_reducible exact dyn_reed _ rfl | with_reducible exact dyn_lnk _ | with_reducible exact dyn_wit0 hn | with_reducible exact dyn_wit1 hn | with_reducible exact dyn_writer _ rfl rfl | with_reducible exact dyn_bob _ _ | with_reducible exact dyn_bob' _ _ | with_reducible exact dyn_compl _ | decide | (split <;> first | exact dyn_hub rfl | with_reducible exact dyn_hed _ rfl)) (by first | decide | with_reducible exact (bob_off _).1 | with_reducible exact (bob_off _).2 | with_reducible exact (compl_off _).1 | with_reducible exact (compl_off _).2 | (split <;> decide)) (by first | decide | with_reducible exact (bob_off _).1 | with_reducible exact (bob_off _).2 | with_reducible exact (compl_off _).1 | with_reducible exact (compl_off _).2 | (split <;> decide)) ?_ | with_reducible refine Kept.ite ?_ ?_ | with_reducible refine Kept.set_audit ?_ | (with_reducible show Kept D s _; first | exact ⟨h.inst, h.few, h.dyn, h.words⟩ | exact ⟨hx.inst, hx.few, hx.dyn, hx.words⟩))

theorem auditAnswer_kept {s t : State} {a0 : Nat}  (h : Kept D s t) : Kept D s (auditAnswer a0 t) := by
  unfold auditAnswer
  repeat' (first | with_reducible assumption | with_reducible refine compareView_kept ?_ | with_reducible refine drainReports_kept ?_ | with_reducible refine updPart_kept ?_ | with_reducible refine auditDone_kept ?_ | with_reducible refine Kept.ite ?_ ?_ | split | with_reducible refine Kept.set_audit ?_ | (with_reducible show Kept D s _; first | exact ⟨h.inst, h.few, h.dyn, h.words⟩ | exact ⟨hx.inst, hx.few, hx.dyn, hx.words⟩))

theorem initialAudit_kept {s t : State}   (h : Kept D s t) : Kept D s (initialAudit t) := by
  unfold initialAudit
  repeat' (first | with_reducible assumption | with_reducible refine viewChanged_kept ?_ | with_reducible refine updPart_kept ?_ | with_reducible refine foldl_kept (fun _ _ _ => ?_) ?_ | with_reducible refine Kept.ite ?_ ?_ | with_reducible refine Kept.set_audit ?_ | (with_reducible show Kept D s _; first | exact ⟨h.inst, h.few, h.dyn, h.words⟩ | exact ⟨hx.inst, hx.few, hx.dyn, hx.words⟩))

theorem factMissing_kept {s t : State} {a0 : Nat}  (h : Kept D s t) : Kept D s (factMissing a0 t) := by
  unfold factMissing
  repeat' (first | with_reducible assumption | with_reducible refine setErr_kept ?_ | with_reducible refine Kept.ite ?_ ?_ | (with_reducible show Kept D s _; first | exact ⟨h.inst, h.few, h.dyn, h.words⟩ | exact ⟨hx.inst, hx.few, hx.dyn, hx.words⟩))

theorem rehomeOnReset_kept {s t : State} {a0 : Nat} {a1 : PState}  (h : Kept D s t) : Kept D s (rehomeOnReset a0 a1 t) := by
  unfold rehomeOnReset
  repeat' (first | with_reducible assumption | with_reducible refine startRehome_kept ?_ | with_reducible refine Kept.ite ?_ ?_ | (with_reducible show Kept D s _; first | exact ⟨h.inst, h.few, h.dyn, h.words⟩ | exact ⟨hx.inst, hx.few, hx.dyn, hx.words⟩))

theorem slotsFail_kept {s t : State} {a0 : Nat} {a1 : Exit}  (h : Kept D s t) : Kept D s (slotsFail a0 a1 t) := by
  unfold slotsFail
  repeat' (first | with_reducible assumption | with_reducible refine loseIds_kept ?_ | with_reducible refine foldl_kept (fun _ _ _ => ?_) ?_ | split | (with_reducible show Kept D s _; first | exact ⟨h.inst, h.few, h.dyn, h.words⟩ | exact ⟨hx.inst, hx.few, hx.dyn, hx.words⟩))

theorem dropRuns_kept {s t : State}   (h : Kept D s t) : Kept D s (dropRuns t) := by
  have a := dropRuns_same (F := (fun f => [Fld.trd].contains f))  rfl (Same.refl _ t)
  exact Kept.of_eq (Same.get (f := .inst) a rfl) (Same.get (f := .regs) a rfl) h

theorem reedGone_kept {s t : State} {a0 : Nat}  (h : Kept D s t) : Kept D s (reedGone a0 t) := by
  unfold reedGone
  repeat' (first | with_reducible assumption | with_reducible refine reedLost_kept ?_ | with_reducible refine dropAdoption_kept ?_ | with_reducible refine scanRedo_kept ?_ | with_reducible refine Kept.ite ?_ ?_ | (with_reducible show Kept D s _; first | exact ⟨h.inst, h.few, h.dyn, h.words⟩ | exact ⟨hx.inst, hx.few, hx.dyn, hx.words⟩))

theorem afterLeaving_kept {s t : State} {a0 : Nat} {a1 : Exit} {a2 : PState}  (h : Kept D s t) : Kept D s (afterLeaving a0 a1 a2 t) := by
  unfold afterLeaving
  repeat' (first | with_reducible assumption | with_reducible refine beginDrain_kept ?_ | with_reducible refine dropAdoption_kept ?_ | with_reducible refine startRehome_kept ?_ | with_reducible refine rehomeOnReset_kept ?_ | with_reducible refine reedGone_kept ?_ | with_reducible refine shareAbandon_kept (kindOf_wit (by assumption)) ?_ | with_reducible refine timeDrop_kept ?_ | with_reducible refine linkLeaves_kept ?_ | with_reducible refine linkFails_kept ?_ | with_reducible refine recheck_kept ?_ | with_reducible refine ethClear_kept ?_ | with_reducible refine abandonHandover_kept ?_ | with_reducible refine updFw_kept ?_ | with_reducible refine fwReset_kept ?_ | with_reducible refine dropManifest_kept ?_ | with_reducible refine settle_kept ?_ | with_reducible refine dropRuns_kept ?_ | with_reducible refine clearSeed_kept ?_ | with_reducible refine handoverHubReset_kept ?_ | with_reducible refine snagRestart_kept ?_ | with_reducible refine servoStop_kept ?_ | with_reducible refine updAdopt_kept ?_ | with_reducible refine dropReads_kept ?_ | with_reducible exact KeptO.none | (extract_lets +onlyGivenNames x; refine (fun (hx : Kept D s x) => ?_) ?_; rotate_left; dsimp only [x]; clear x; rotate_right; clear_value x) | (extract_lets +onlyGivenNames x; refine (fun (hx : Kept D s x.2) => ?_) ?_; rotate_left; dsimp only [x]; clear x; rotate_right; clear_value x) | with_reducible refine foldl_kept (fun _ _ _ => ?_) ?_ | with_reducible refine foldl2_kept (fun _ _ _ => ?_) ?_ | with_reducible refine foldl2_kept_eq (fun _ _ _ => ?_) (by assumption) ?_ | dsimp only | with_reducible refine Kept.ite ?_ ?_ | split | (with_reducible show Kept D s _; first | exact ⟨h.inst, h.few, h.dyn, h.words⟩ | exact ⟨hx.inst, hx.few, hx.dyn, hx.words⟩) | with_reducible refine (show KeptO D s _ from ?_) _ (by assumption))

theorem disarmPart_kept {s t : State} {a0 : Nat}  (h : Kept D s t) : Kept D s (disarmPart a0 t) := by
  have a := disarmPart_same (F := (fun f => [Fld.stop].contains f)) (a0 := a0) rfl (Same.refl _ t)
  exact Kept.of_eq (Same.get (f := .inst) a rfl) (Same.get (f := .regs) a rfl) h

theorem resetPart_kept {s t : State} {a0 : Nat}  (h : Kept D s t) : Kept D s (resetPart a0 t) := by
  unfold resetPart
  repeat' (first | with_reducible assumption | with_reducible refine calPartReset_kept ?_ | with_reducible refine updPart_kept ?_ | with_reducible refine Kept.ite ?_ ?_ | (with_reducible show Kept D s _; first | exact ⟨h.inst, h.few, h.dyn, h.words⟩ | exact ⟨hx.inst, hx.few, hx.dyn, hx.words⟩))

theorem hedGone_kept {s t : State} {a0 : Nat} {a1 : PState} {a2 : BitVec 8} {a3 : Exit}  (h : Kept D s t) : Kept D s (hedGone a0 a1 a2 a3 t) := by
  unfold hedGone
  repeat' (first | with_reducible assumption | with_reducible refine disarmPart_kept ?_ | with_reducible refine gateReleased_kept ?_ | with_reducible refine hedFails_kept ?_ | with_reducible refine transition_kept ?_ | with_reducible refine lowerHold_kept ?_ | with_reducible refine resetPart_kept ?_ | with_reducible exact KeptO.none | (extract_lets +onlyGivenNames x; refine (fun (hx : Kept D s x) => ?_) ?_; rotate_left; dsimp only [x]; clear x; rotate_right; clear_value x) | (extract_lets +onlyGivenNames x; refine (fun (hx : Kept D s x.2) => ?_) ?_; rotate_left; dsimp only [x]; clear x; rotate_right; clear_value x) | with_reducible refine foldl_kept (fun _ _ _ => ?_) ?_ | with_reducible refine foldl2_kept (fun _ _ _ => ?_) ?_ | with_reducible refine foldl2_kept_eq (fun _ _ _ => ?_) (by assumption) ?_ | dsimp only | with_reducible refine Kept.ite ?_ ?_ | split | (with_reducible show Kept D s _; first | exact ⟨h.inst, h.few, h.dyn, h.words⟩ | exact ⟨hx.inst, hx.few, hx.dyn, hx.words⟩) | with_reducible refine (show KeptO D s _ from ?_) _ (by assumption))

theorem leaveNow_kept {s t : State} {a0 : Nat} {a1 : PState} {a2 : BitVec 8} {a3 : Exit}  (h : Kept D s t) : Kept D s (leaveNow a0 a1 a2 a3 t) := by
  unfold leaveNow
  repeat' (first | with_reducible assumption | with_reducible refine hedGone_kept ?_ | with_reducible refine disarmPart_kept ?_ | with_reducible refine transition_kept ?_ | with_reducible refine slotsFail_kept ?_ | with_reducible refine afterLeaving_kept ?_ | with_reducible refine resetPart_kept ?_ | with_reducible exact KeptO.none | (extract_lets +onlyGivenNames x; refine (fun (hx : Kept D s x) => ?_) ?_; rotate_left; dsimp only [x]; clear x; rotate_right; clear_value x) | (extract_lets +onlyGivenNames x; refine (fun (hx : Kept D s x.2) => ?_) ?_; rotate_left; dsimp only [x]; clear x; rotate_right; clear_value x) | with_reducible refine foldl_kept (fun _ _ _ => ?_) ?_ | with_reducible refine foldl2_kept (fun _ _ _ => ?_) ?_ | with_reducible refine foldl2_kept_eq (fun _ _ _ => ?_) (by assumption) ?_ | dsimp only | with_reducible refine Kept.ite ?_ ?_ | split | (with_reducible show Kept D s _; first | exact ⟨h.inst, h.few, h.dyn, h.words⟩ | exact ⟨hx.inst, hx.few, hx.dyn, hx.words⟩) | with_reducible refine (show KeptO D s _ from ?_) _ (by assumption))

theorem finishLeaving_kept {s t : State} {a0 : Nat}  (h : Kept D s t) : Kept D s (finishLeaving a0 t) := by
  unfold finishLeaving
  repeat' (first | with_reducible assumption | with_reducible refine hedGone_kept ?_ | with_reducible refine updHed_kept ?_ | with_reducible exact KeptO.none | (extract_lets +onlyGivenNames x; refine (fun (hx : Kept D s x) => ?_) ?_; rotate_left; dsimp only [x]; clear x; rotate_right; clear_value x) | (extract_lets +onlyGivenNames x; refine (fun (hx : Kept D s x.2) => ?_) ?_; rotate_left; dsimp only [x]; clear x; rotate_right; clear_value x) | with_reducible refine foldl_kept (fun _ _ _ => ?_) ?_ | with_reducible refine foldl2_kept (fun _ _ _ => ?_) ?_ | with_reducible refine foldl2_kept_eq (fun _ _ _ => ?_) (by assumption) ?_ | dsimp only | with_reducible refine Kept.ite ?_ ?_ | split | (with_reducible show Kept D s _; first | exact ⟨h.inst, h.few, h.dyn, h.words⟩ | exact ⟨hx.inst, hx.few, hx.dyn, hx.words⟩) | with_reducible refine (show KeptO D s _ from ?_) _ (by assumption))

theorem hedFirst_kept {s t : State} {a0 : Nat}  (h : Kept D s t) : Kept D s (hedFirst a0 t) := by
  unfold hedFirst
  repeat' (first | with_reducible assumption | with_reducible refine finishLeaving_kept ?_ | with_reducible refine settleSpans_kept ?_ | with_reducible refine settleHed_kept ?_ | with_reducible refine Kept.ite ?_ ?_ | (with_reducible show Kept D s _; first | exact ⟨h.inst, h.few, h.dyn, h.words⟩ | exact ⟨hx.inst, hx.few, hx.dyn, hx.words⟩))

theorem beginLeaving_kept {s t : State} {a0 : Nat} {a1 : Bool} {a2 : BitVec 8}  (h : Kept D s t) : Kept D s (beginLeaving a0 a1 a2 t) := by
  unfold beginLeaving
  repeat' (first | with_reducible assumption | with_reducible refine updHed_kept ?_ | with_reducible refine hedFirst_kept ?_ | with_reducible refine hedLeaves_kept ?_ | split | (with_reducible show Kept D s _; first | exact ⟨h.inst, h.few, h.dyn, h.words⟩ | exact ⟨hx.inst, hx.few, hx.dyn, hx.words⟩))

theorem leave_kept {s t : State} {a0 : Nat} {a1 : PState} {a2 : BitVec 8} {a3 : Exit}  (h : Kept D s t) : Kept D s (leave a0 a1 a2 a3 t) := by
  unfold leave
  repeat' (first | with_reducible assumption | with_reducible refine beginLeaving_kept ?_ | with_reducible refine leaveNow_kept ?_ | split | (with_reducible show Kept D s _; first | exact ⟨h.inst, h.few, h.dyn, h.words⟩ | exact ⟨hx.inst, hx.few, hx.dyn, hx.words⟩))

theorem pageFirst_kept {s t : State} {a0 : Nat}  (h : Kept D s t) : Kept D s (pageFirst a0 t) := by
  unfold pageFirst
  repeat' (first | with_reducible assumption | with_reducible refine hedFirst_kept ?_ | with_reducible refine settleLnk_kept ?_ | with_reducible refine witFlush_kept ?_ | split | (with_reducible show Kept D s _; first | exact ⟨h.inst, h.few, h.dyn, h.words⟩ | exact ⟨hx.inst, hx.few, hx.dyn, hx.words⟩))

theorem serveAgain_kept {s t : State} {a0 : Nat}  (h : Kept D s t) : Kept D s (serveAgain a0 t) := by
  have a := serveAgain_same (F := (fun f => [Fld.adopts].contains f)) (a0 := a0) rfl (Same.refl _ t)
  exact Kept.of_eq (Same.get (f := .inst) a rfl) (Same.get (f := .regs) a rfl) h

theorem enterEnabled_kept {s t : State} {a0 : Nat}  (h : Kept D s t) : Kept D s (enterEnabled a0 t) := by
  unfold enterEnabled
  repeat' (first | with_reducible assumption | with_reducible refine transition_kept ?_ | with_reducible refine testEnabled_kept ?_ | with_reducible refine hedEnters_kept ?_ | with_reducible refine stopEnters_kept ?_ | with_reducible refine witRun_kept ?_ | with_reducible refine newVecKey_kept ?_ | with_reducible refine copyShadow_kept ?_ | with_reducible refine beginReturn_kept ?_ | with_reducible refine serveAgain_kept ?_ | with_reducible refine linkEnters_kept ?_ | with_reducible refine recheck_kept ?_ | with_reducible refine ethClear_kept ?_ | with_reducible refine updFw_kept ?_ | with_reducible refine fwEnters_kept ?_ | with_reducible refine reportLatches_kept ?_ | with_reducible refine Kept.ite ?_ ?_ | split | (with_reducible show Kept D s _; first | exact ⟨h.inst, h.few, h.dyn, h.words⟩ | exact ⟨hx.inst, hx.few, hx.dyn, hx.words⟩))

theorem actEnable_kept {s t : State} {a0 : Nat}  (h : Kept D s t) : KeptO D s (actEnable a0 t) := by
  unfold actEnable
  repeat' (first | with_reducible assumption | with_reducible refine enterEnabled_kept ?_ | with_reducible exact KeptO.none | with_reducible refine KeptO.some ?_ | with_reducible refine KeptO.ite ?_ ?_ | split | (with_reducible show Kept D s _; first | exact ⟨h.inst, h.few, h.dyn, h.words⟩ | exact ⟨hx.inst, hx.few, hx.dyn, hx.words⟩))

theorem actDisable_kept {s t : State} {a0 : Nat}  (h : Kept D s t) : KeptO D s (actDisable a0 t) := by
  unfold actDisable
  repeat' (first | with_reducible assumption | with_reducible refine leave_kept ?_ | with_reducible refine transition_kept ?_ | with_reducible exact KeptO.none | with_reducible refine KeptO.some ?_ | with_reducible refine KeptO.ite ?_ ?_ | split | (with_reducible show Kept D s _; first | exact ⟨h.inst, h.few, h.dyn, h.words⟩ | exact ⟨hx.inst, hx.few, hx.dyn, hx.words⟩))

theorem actReset_kept {s t : State} {a0 : Nat} {a1 : BitVec 8}  (h : Kept D s t) : KeptO D s (actReset a0 a1 t) := by
  unfold actReset
  repeat' (first | with_reducible assumption | with_reducible refine leave_kept ?_ | with_reducible exact KeptO.none | with_reducible refine KeptO.some ?_ | with_reducible refine KeptO.ite ?_ ?_ | split | (with_reducible show Kept D s _; first | exact ⟨h.inst, h.few, h.dyn, h.words⟩ | exact ⟨hx.inst, hx.few, hx.dyn, hx.words⟩))

theorem actRetire_kept {s t : State} {a0 : Nat}  (h : Kept D s t) : KeptO D s (actRetire a0 t) := by
  unfold actRetire
  repeat' (first | with_reducible assumption | with_reducible refine transition_kept ?_ | with_reducible refine testRetired_kept ?_ | with_reducible exact KeptO.none | with_reducible refine KeptO.some ?_ | with_reducible refine KeptO.ite ?_ ?_ | split | (with_reducible show Kept D s _; first | exact ⟨h.inst, h.few, h.dyn, h.words⟩ | exact ⟨hx.inst, hx.few, hx.dyn, hx.words⟩))

theorem actReinstate_kept {s t : State} {a0 : Nat}  (h : Kept D s t) : KeptO D s (actReinstate a0 t) := by
  unfold actReinstate
  repeat' (first | with_reducible assumption | with_reducible refine resetPart_kept ?_ | with_reducible refine transition_kept ?_ | with_reducible refine updTests_kept ?_ | with_reducible exact KeptO.none | with_reducible refine KeptO.some ?_ | with_reducible refine KeptO.ite ?_ ?_ | split | (with_reducible show Kept D s _; first | exact ⟨h.inst, h.few, h.dyn, h.words⟩ | exact ⟨hx.inst, hx.few, hx.dyn, hx.words⟩))

theorem actAudit_kept {s t : State} {a0 : Nat}  (h : Kept D s t) : Kept D s (actAudit a0 t) := by
  have a := actAudit_same (F := (fun f => [Fld.parts].contains f)) (a0 := a0) rfl (Same.refl _ t)
  exact Kept.of_eq (Same.get (f := .inst) a rfl) (Same.get (f := .regs) a rfl) h

theorem fatal_kept {s t : State} {a0 : Nat} {a1 : Nat} {a2 : BitVec 8}  (h : Kept D s t) : Kept D s (fatal a0 a1 a2 t) := by
  unfold fatal
  repeat' (first | with_reducible assumption | with_reducible refine setErr_kept ?_ | with_reducible refine raise_kept ?_ | with_reducible refine leave_kept ?_ | with_reducible refine Kept.ite ?_ ?_ | split | (with_reducible show Kept D s _; first | exact ⟨h.inst, h.few, h.dyn, h.words⟩ | exact ⟨hx.inst, hx.few, hx.dyn, hx.words⟩))

theorem retentionLost_kept {s t : State} {a0 : Nat} {a1 : Nat} {a2 : Bool}  (h : Kept D s t) : Kept D s (retentionLost a0 a1 a2 t) := by
  unfold retentionLost
  repeat' (first | with_reducible assumption | with_reducible refine updStrm_kept ?_ | with_reducible refine workLost_kept ?_ | with_reducible refine Kept.ite ?_ ?_ | (with_reducible show Kept D s _; first | exact ⟨h.inst, h.few, h.dyn, h.words⟩ | exact ⟨hx.inst, hx.few, hx.dyn, hx.words⟩))

theorem fatalFault_kept {s t : State} {a0 : Nat} {a1 : FaultCause}  (h : Kept D s t) : Kept D s (fatalFault a0 a1 t) := by
  unfold fatalFault
  repeat' (first | with_reducible assumption | with_reducible refine fatal_kept ?_ | with_reducible refine retentionLost_kept ?_ | with_reducible refine noticesLost_kept ?_ | with_reducible refine Kept.ite ?_ ?_ | split | (with_reducible show Kept D s _; first | exact ⟨h.inst, h.few, h.dyn, h.words⟩ | exact ⟨hx.inst, hx.few, hx.dyn, hx.words⟩))

theorem watchdogExpiry_kept {s t : State}   (h : Kept D s t) : Kept D s (watchdogExpiry t) := by
  unfold watchdogExpiry
  repeat' (first | with_reducible assumption | with_reducible refine fatal_kept ?_ | with_reducible refine bump_kept (by first | with_reducible rfl | exact dyn_hub rfl | with_reducible exact dyn_hed _ rfl | with_reducible exact dyn_reed _ rfl | with_reducible exact dyn_lnk _ | with_reducible exact dyn_wit0 hn | with_reducible exact dyn_wit1 hn | with_reducible exact dyn_writer _ rfl rfl | with_reducible exact dyn_bob _ _ | with_reducible exact dyn_bob' _ _ | with_reducible exact dyn_compl _ | decide | (split <;> first | exact dyn_hub rfl | with_reducible exact dyn_hed _ rfl)) (by first | decide | with_reducible exact (bob_off _).1 | with_reducible exact (bob_off _).2 | with_reducible exact (compl_off _).1 | with_reducible exact (compl_off _).2 | (split <;> decide)) (by first | decide | with_reducible exact (bob_off _).1 | with_reducible exact (bob_off _).2 | with_reducible exact (compl_off _).1 | with_reducible exact (compl_off _).2 | (split <;> decide)) ?_ | with_reducible refine Kept.ite ?_ ?_ | (with_reducible show Kept D s _; first | exact ⟨h.inst, h.few, h.dyn, h.words⟩ | exact ⟨hx.inst, hx.few, hx.dyn, hx.words⟩))

theorem handoverFatal_kept {s t : State} {a0 : Nat} {a1 : BitVec 8} {a2 : Bool}  (h : Kept D s t) : Kept D s (handoverFatal a0 a1 a2 t) := by
  unfold handoverFatal
  repeat' (first | with_reducible assumption | with_reducible refine fwResult_kept ?_ | with_reducible refine updFw_kept ?_ | with_reducible refine dropLoader_kept ?_ | with_reducible refine raise_kept ?_ | with_reducible refine leave_kept ?_ | with_reducible refine setErr_kept ?_ | with_reducible refine Kept.ite ?_ ?_ | (with_reducible show Kept D s _; first | exact ⟨h.inst, h.few, h.dyn, h.words⟩ | exact ⟨hx.inst, hx.few, hx.dyn, hx.words⟩))

theorem reloadComplete_kept {s t : State}   (h : Kept D s t) : Kept D s (reloadComplete t) := by
  unfold reloadComplete
  repeat' (first | with_reducible assumption | with_reducible refine enterStart_kept ?_ | with_reducible refine handoverFatal_kept ?_ | with_reducible refine Kept.ite ?_ ?_ | split | (with_reducible show Kept D s _; first | exact ⟨h.inst, h.few, h.dyn, h.words⟩ | exact ⟨hx.inst, hx.few, hx.dyn, hx.words⟩))

theorem fwReject_kept {s t : State}   (h : Kept D s t) : Kept D s (fwReject t) := by
  unfold fwReject
  repeat' (first | with_reducible assumption | with_reducible refine handoverFatal_kept ?_ | with_reducible refine Kept.ite ?_ ?_ | (with_reducible show Kept D s _; first | exact ⟨h.inst, h.few, h.dyn, h.words⟩ | exact ⟨hx.inst, hx.few, hx.dyn, hx.words⟩))

theorem acceptTimeout_kept {s t : State}   (h : Kept D s t) : Kept D s (acceptTimeout t) := by
  unfold acceptTimeout
  repeat' (first | with_reducible assumption | with_reducible refine fwReject_kept ?_ | with_reducible refine Kept.ite ?_ ?_ | (with_reducible show Kept D s _; first | exact ⟨h.inst, h.few, h.dyn, h.words⟩ | exact ⟨hx.inst, hx.few, hx.dyn, hx.words⟩))

theorem quiesceComplete_kept {s t : State} {a0 : Nat}  (h : Kept D s t) : Kept D s (quiesceComplete a0 t) := by
  unfold quiesceComplete
  repeat' (first | with_reducible assumption | with_reducible refine startRehome_kept ?_ | with_reducible refine transition_kept ?_ | with_reducible refine lowerHold_kept ?_ | with_reducible refine Kept.ite ?_ ?_ | split | (with_reducible show Kept D s _; first | exact ⟨h.inst, h.few, h.dyn, h.words⟩ | exact ⟨hx.inst, hx.few, hx.dyn, hx.words⟩))

theorem quiesceOverdue_kept {s t : State} {a0 : Nat}  (h : Kept D s t) : Kept D s (quiesceOverdue a0 t) := by
  unfold quiesceOverdue
  repeat' (first | with_reducible assumption | with_reducible refine setErr_kept ?_ | with_reducible refine updPart_kept ?_ | with_reducible refine Kept.ite ?_ ?_ | (with_reducible show Kept D s _; first | exact ⟨h.inst, h.few, h.dyn, h.words⟩ | exact ⟨hx.inst, hx.few, hx.dyn, hx.words⟩))

theorem fwReady_kept {s t : State}   (h : Kept D s t) : Kept D s (fwReady t) := by
  have a := fwReady_same (F := (fun f => [Fld.parts, Fld.rport, Fld.tests, Fld.fw, Fld.free].contains f))  rfl rfl rfl rfl rfl (Same.refl _ t)
  exact Kept.of_eq (Same.get (f := .inst) a rfl) (Same.get (f := .regs) a rfl) h

theorem afterReset_kept {s t : State} {a0 : Nat} {a1 : Nat}  (h : Kept D s t) : Kept D s (afterReset a0 a1 t) := by
  unfold afterReset
  repeat' (first | with_reducible assumption | with_reducible refine applyRecorded_kept ?_ | with_reducible refine handoverHubBack_kept ?_ | with_reducible refine payOwed_kept ?_ | with_reducible refine initialAudit_kept ?_ | with_reducible refine awaitPort_kept ?_ | with_reducible refine Kept.ite ?_ ?_ | split | (with_reducible show Kept D s _; first | exact ⟨h.inst, h.few, h.dyn, h.words⟩ | exact ⟨hx.inst, hx.few, hx.dyn, hx.words⟩))

theorem partInitialised_kept {s t : State} {a0 : Nat}  (h : Kept D s t) : Kept D s (partInitialised a0 t) := by
  unfold partInitialised
  repeat' (first | with_reducible assumption | with_reducible refine afterReset_kept ?_ | with_reducible refine transition_kept ?_ | with_reducible refine Kept.ite ?_ ?_ | (with_reducible show Kept D s _; first | exact ⟨h.inst, h.few, h.dyn, h.words⟩ | exact ⟨hx.inst, hx.few, hx.dyn, hx.words⟩))

theorem unblindAction_kept {s t : State}   (h : Kept D s t) : KeptO D s (unblindAction t) := by
  intro u e
  have a := unblindAction_same (F := (fun f => [Fld.ver].contains f))  rfl (Same.refl _ t) u e
  exact Kept.of_eq (Same.get (f := .inst) a rfl) (Same.get (f := .regs) a rfl) h

theorem testReloadAction_kept {s t : State}   (h : Kept D s t) : KeptO D s (testReloadAction t) := by
  intro u e
  have a := testReloadAction_same (F := (fun f => [Fld.rport, Fld.tests].contains f))  rfl rfl (Same.refl _ t) u e
  exact Kept.of_eq (Same.get (f := .inst) a rfl) (Same.get (f := .regs) a rfl) h

theorem flushAction_kept {s t : State} {a0 : Nat}  (h : Kept D s t) : KeptO D s (flushAction a0 t) := by
  unfold flushAction
  repeat' (first | with_reducible assumption | with_reducible refine flush_kept ?_ | with_reducible refine settleWriter_kept ?_ | with_reducible exact KeptO.none | with_reducible refine KeptO.some ?_ | with_reducible refine KeptO.ite ?_ ?_ | (with_reducible show Kept D s _; first | exact ⟨h.inst, h.few, h.dyn, h.words⟩ | exact ⟨hx.inst, hx.few, hx.dyn, hx.words⟩))

theorem hubAction_kept {s t : State} {a0 : Nat}  (h : Kept D s t) : KeptO D s (hubAction a0 t) := by
  unfold hubAction
  repeat' (first | with_reducible assumption | with_reducible refine stepAction_kept ?_ | with_reducible refine setAction_kept ?_ | with_reducible refine rateAction_kept ?_ | with_reducible refine calTdcAction_kept ?_ | with_reducible refine servoStart_kept ?_ | with_reducible refine servoStop_kept ?_ | with_reducible refine servoRearm_kept ?_ | with_reducible refine flushAction_kept ?_ | with_reducible refine bobEnable_kept ?_ | with_reducible refine bobDisable_kept ?_ | with_reducible refine unblindAction_kept ?_ | with_reducible refine testReloadAction_kept ?_ | with_reducible refine stopNow_kept ?_ | with_reducible refine armStop_kept ?_ | with_reducible refine disarmStop_kept ?_ | with_reducible refine resumeStop_kept ?_ | with_reducible exact KeptO.none | with_reducible refine KeptO.some ?_ | with_reducible refine KeptO.ite ?_ ?_ | (with_reducible show Kept D s _; first | exact ⟨h.inst, h.few, h.dyn, h.words⟩ | exact ⟨hx.inst, hx.few, hx.dyn, hx.words⟩))

theorem keyAction_kept {s t : State} {a0 : Nat}  (h : Kept D s t) : KeptO D s (keyAction a0 t) := by
  unfold keyAction
  repeat' (first | with_reducible assumption | with_reducible refine install_kept ?_ | with_reducible refine rotate_kept ?_ | with_reducible refine remove_kept ?_ | with_reducible refine release_kept ?_ | with_reducible refine scanRelease_kept ?_ | with_reducible exact KeptO.none | with_reducible refine KeptO.some ?_ | with_reducible refine KeptO.ite ?_ ?_ | (with_reducible show Kept D s _; first | exact ⟨h.inst, h.few, h.dyn, h.words⟩ | exact ⟨hx.inst, hx.few, hx.dyn, hx.words⟩))

theorem fwAction_kept {s t : State} {a0 : Nat}  (h : Kept D s t) : KeptO D s (fwAction a0 t) := by
  unfold fwAction
  repeat' (first | with_reducible assumption | with_reducible refine fwLoad_kept ?_ | with_reducible refine fwHandover_kept ?_ | with_reducible refine hostEmit_kept ?_ | with_reducible refine hostScrubbed_kept ?_ | with_reducible exact KeptO.none | with_reducible refine KeptO.some ?_ | with_reducible refine KeptO.ite ?_ ?_ | (with_reducible show Kept D s _; first | exact ⟨h.inst, h.few, h.dyn, h.words⟩ | exact ⟨hx.inst, hx.few, hx.dyn, hx.words⟩))

theorem ctrlRefused_kept {s t : State} {a0 : PageKind} {a1 : Nat} {a2 : Word}  (h : Kept D s t) : Kept D s (ctrlRefused a0 a1 a2 t) := by
  unfold ctrlRefused
  repeat' (first | with_reducible assumption | with_reducible refine factMissing_kept ?_ | with_reducible refine noteSeed_kept ?_ | with_reducible refine setErr_kept ?_ | with_reducible refine Kept.ite ?_ ?_ | (with_reducible show Kept D s _; first | exact ⟨h.inst, h.few, h.dyn, h.words⟩ | exact ⟨hx.inst, hx.few, hx.dyn, hx.words⟩))

theorem doorbellBad_kept {s t : State}   (h : Kept D s t) : Kept D s (doorbellBad t) := by
  unfold doorbellBad
  repeat' (first | with_reducible assumption | with_reducible refine setErr_kept ?_ | with_reducible refine bump_kept (by first | with_reducible rfl | exact dyn_hub rfl | with_reducible exact dyn_hed _ rfl | with_reducible exact dyn_reed _ rfl | with_reducible exact dyn_lnk _ | with_reducible exact dyn_wit0 hn | with_reducible exact dyn_wit1 hn | with_reducible exact dyn_writer _ rfl rfl | with_reducible exact dyn_bob _ _ | with_reducible exact dyn_bob' _ _ | with_reducible exact dyn_compl _ | decide | (split <;> first | exact dyn_hub rfl | with_reducible exact dyn_hed _ rfl)) (by first | decide | with_reducible exact (bob_off _).1 | with_reducible exact (bob_off _).2 | with_reducible exact (compl_off _).1 | with_reducible exact (compl_off _).2 | (split <;> decide)) (by first | decide | with_reducible exact (bob_off _).1 | with_reducible exact (bob_off _).2 | with_reducible exact (compl_off _).1 | with_reducible exact (compl_off _).2 | (split <;> decide)) ?_ | with_reducible refine Kept.ite ?_ ?_ | (with_reducible show Kept D s _; first | exact ⟨h.inst, h.few, h.dyn, h.words⟩ | exact ⟨hx.inst, hx.few, hx.dyn, hx.words⟩))

theorem calWrite_kept {s t : State} {a0 : Word}  (h : Kept D s t) : Kept D s (calWrite a0 t).2 := by
  unfold calWrite
  repeat' (first | with_reducible assumption | with_reducible refine calAccess_kept ?_ | with_reducible refine calAccess_kept ?_ _ _ (by assumption) | with_reducible refine Kept.ite ?_ ?_ | split | (with_reducible show Kept D s _; first | exact ⟨h.inst, h.few, h.dyn, h.words⟩ | exact ⟨hx.inst, hx.few, hx.dyn, hx.words⟩))

theorem calWrite_kept_eq {s t : State} {a0 : Word}  {x} {u : State} (e : calWrite a0 t = (x, u)) (h : Kept D s t) : Kept D s u := by
  have := calWrite_kept (s := s) (t := t) (a0 := a0) h
  rw [e] at this; exact this

theorem tailRule_kept {s t : State} {a0 : Nat} {a1 : Word}  (h : Kept D s t) : Kept D s (tailRule a0 a1 t).2 := by
  have a := tailRule_same (F := (fun f => [Fld.bobs].contains f)) (a0 := a0) (a1 := a1) rfl (Same.refl _ t)
  exact Kept.of_eq (Same.get (f := .inst) a rfl) (Same.get (f := .regs) a rfl) h

theorem tailRule_kept_eq {s t : State} {a0 : Nat} {a1 : Word}  {x} {u : State} (e : tailRule a0 a1 t = (x, u)) (h : Kept D s t) : Kept D s u := by
  have := tailRule_kept (s := s) (t := t) (a0 := a0) (a1 := a1) h
  rw [e] at this; exact this

theorem reject_kept {s t : State} {a0 : Access} {a1 : Nat}  (h : Kept D s t) : Kept D s (reject a0 a1 t) := by
  unfold reject
  repeat' (first | with_reducible assumption | with_reducible refine bump_kept (by first | with_reducible rfl | exact dyn_hub rfl | with_reducible exact dyn_hed _ rfl | with_reducible exact dyn_reed _ rfl | with_reducible exact dyn_lnk _ | with_reducible exact dyn_wit0 hn | with_reducible exact dyn_wit1 hn | with_reducible exact dyn_writer _ rfl rfl | with_reducible exact dyn_bob _ _ | with_reducible exact dyn_bob' _ _ | with_reducible exact dyn_compl _ | decide | (split <;> first | exact dyn_hub rfl | with_reducible exact dyn_hed _ rfl)) (by first | decide | with_reducible exact (bob_off _).1 | with_reducible exact (bob_off _).2 | with_reducible exact (compl_off _).1 | with_reducible exact (compl_off _).2 | (split <;> decide)) (by first | decide | with_reducible exact (bob_off _).1 | with_reducible exact (bob_off _).2 | with_reducible exact (compl_off _).1 | with_reducible exact (compl_off _).2 | (split <;> decide)) ?_ | with_reducible refine regPut_kept (by first | with_reducible rfl | exact dyn_hub rfl | with_reducible exact dyn_hed _ rfl | with_reducible exact dyn_reed _ rfl | with_reducible exact dyn_lnk _ | with_reducible exact dyn_wit0 hn | with_reducible exact dyn_wit1 hn | with_reducible exact dyn_writer _ rfl rfl | with_reducible exact dyn_bob _ _ | with_reducible exact dyn_bob' _ _ | with_reducible exact dyn_compl _ | decide | (split <;> first | exact dyn_hub rfl | with_reducible exact dyn_hed _ rfl)) (by first | decide | with_reducible exact (bob_off _).1 | with_reducible exact (bob_off _).2 | with_reducible exact (compl_off _).1 | with_reducible exact (compl_off _).2 | (split <;> decide)) (by first | decide | with_reducible exact (bob_off _).1 | with_reducible exact (bob_off _).2 | with_reducible exact (compl_off _).1 | with_reducible exact (compl_off _).2 | (split <;> decide)) ?_ | with_reducible refine askAudit_kept ?_ | with_reducible refine setErr_kept ?_ | with_reducible refine Kept.ite ?_ ?_ | (with_reducible show Kept D s _; first | exact ⟨h.inst, h.few, h.dyn, h.words⟩ | exact ⟨hx.inst, hx.few, hx.dyn, hx.words⟩))

theorem regOverlap_kept {s t : State}   (h : Kept D s t) : Kept D s (regOverlap t) := by
  unfold regOverlap
  repeat' (first | with_reducible assumption | with_reducible refine bump_kept (by first | with_reducible rfl | exact dyn_hub rfl | with_reducible exact dyn_hed _ rfl | with_reducible exact dyn_reed _ rfl | with_reducible exact dyn_lnk _ | with_reducible exact dyn_wit0 hn | with_reducible exact dyn_wit1 hn | with_reducible exact dyn_writer _ rfl rfl | with_reducible exact dyn_bob _ _ | with_reducible exact dyn_bob' _ _ | with_reducible exact dyn_compl _ | decide | (split <;> first | exact dyn_hub rfl | with_reducible exact dyn_hed _ rfl)) (by first | decide | with_reducible exact (bob_off _).1 | with_reducible exact (bob_off _).2 | with_reducible exact (compl_off _).1 | with_reducible exact (compl_off _).2 | (split <;> decide)) (by first | decide | with_reducible exact (bob_off _).1 | with_reducible exact (bob_off _).2 | with_reducible exact (compl_off _).1 | with_reducible exact (compl_off _).2 | (split <;> decide)) ?_ | with_reducible refine setPortErr_kept ?_ | with_reducible refine Kept.ite ?_ ?_ | (with_reducible show Kept D s _; first | exact ⟨h.inst, h.few, h.dyn, h.words⟩ | exact ⟨hx.inst, hx.few, hx.dyn, hx.words⟩))

theorem advance_kept {s t : State} {a0 : Nat}  (h : Kept D s t) : Kept D s (advance a0 t) := by
  unfold advance
  dsimp only
  split
  · exact Kept.set_tim h
  · exact settleFrom_kept (Kept.set_tim h)

theorem ownerChange_kept {s t : State} {a0 : Nat}  (h : Kept D s t) : Kept D s (ownerChange a0 t) := by
  unfold ownerChange
  repeat' (first | with_reducible assumption | with_reducible refine raise_kept ?_ | with_reducible refine updVer_kept ?_ | with_reducible refine Kept.ite ?_ ?_ | (with_reducible show Kept D s _; first | exact ⟨h.inst, h.few, h.dyn, h.words⟩ | exact ⟨hx.inst, hx.few, hx.dyn, hx.words⟩))

theorem endLapses_kept {s t : State}   (h : Kept D s t) : Kept D s (endLapses t) := by
  have a := endLapses_same (F := (fun f => [Fld.lapsed].contains f))  rfl (Same.refl _ t)
  exact Kept.of_eq (Same.get (f := .inst) a rfl) (Same.get (f := .regs) a rfl) h

theorem finish_kept {s t : State} {a0 : Nat}  (h : Kept D s t) : Kept D s (finish a0 t) := by
  unfold finish
  repeat' (first | with_reducible assumption | with_reducible refine settleReads_kept ?_ | with_reducible refine freezeTests_kept ?_ | with_reducible refine ownerChange_kept ?_ | with_reducible refine endLapses_kept ?_ | with_reducible refine settleEpochs_kept ?_ | with_reducible refine Kept.ite ?_ ?_ | with_reducible refine Kept.set_workHeld ?_ | (with_reducible show Kept D s _; first | exact ⟨h.inst, h.few, h.dyn, h.words⟩ | exact ⟨hx.inst, hx.few, hx.dyn, hx.words⟩))

theorem issueCaptured_kept {s t : State} {a0 : Nat} {a1 : Issue}  (h : Kept D s t) : Kept D s (issueCaptured a0 a1 t) := by
  unfold issueCaptured
  repeat' (first | with_reducible assumption | with_reducible refine updHed_kept ?_ | with_reducible refine issueItem_kept ?_ | with_reducible refine captureLost_kept ?_ | with_reducible refine testMarker_kept ?_ | with_reducible refine Kept.ite ?_ ?_ | (with_reducible show Kept D s _; first | exact ⟨h.inst, h.few, h.dyn, h.words⟩ | exact ⟨hx.inst, hx.few, hx.dyn, hx.words⟩))

theorem retireCaptured_kept {s t : State} {a0 : Nat} {a1 : Retire}  (h : Kept D s t) : Kept D s (retireCaptured a0 a1 t) := by
  unfold retireCaptured
  repeat' (first | with_reducible assumption | with_reducible refine updHed_kept ?_ | with_reducible refine retireItem_kept ?_ | with_reducible refine captureLost_kept ?_ | with_reducible refine Kept.ite ?_ ?_ | (with_reducible show Kept D s _; first | exact ⟨h.inst, h.few, h.dyn, h.words⟩ | exact ⟨hx.inst, hx.few, hx.dyn, hx.words⟩))

theorem govStart_kept {s t : State}   (h : Kept D s t) : Kept D s (govStart t) := by
  unfold govStart
  repeat' (first | with_reducible assumption | with_reducible refine admitWaiting_kept ?_ | with_reducible refine waitingDemand_kept ?_ | with_reducible refine windowStart_kept ?_ | with_reducible refine settleHed_kept ?_ | with_reducible refine foldl_kept (fun _ _ _ => ?_) ?_ | with_reducible refine Kept.ite ?_ ?_ | (with_reducible show Kept D s _; first | exact ⟨h.inst, h.few, h.dyn, h.words⟩ | exact ⟨hx.inst, hx.few, hx.dyn, hx.words⟩))

theorem flushExpiry_kept {s t : State} {a0 : Nat}  (h : Kept D s t) : Kept D s (flushExpiry a0 t) := by
  unfold flushExpiry
  repeat' (first | with_reducible assumption | with_reducible refine settleWriter_kept ?_ | with_reducible refine closeRun_kept ?_ | (extract_lets +onlyGivenNames x; refine (fun (hx : Kept D s x) => ?_) ?_; rotate_left; dsimp only [x]; clear x; rotate_right; clear_value x) | split | (with_reducible show Kept D s _; first | exact ⟨h.inst, h.few, h.dyn, h.words⟩ | exact ⟨hx.inst, hx.few, hx.dyn, hx.words⟩))

theorem filterElapsed_kept {s t : State} {a0 : Nat}  (h : Kept D s t) : Kept D s (filterElapsed a0 t) := by
  unfold filterElapsed
  repeat' (first | with_reducible assumption | with_reducible refine settle_kept ?_ | with_reducible refine acceptLevel_kept ?_ | with_reducible refine Kept.ite ?_ ?_ | split | (with_reducible show Kept D s _; first | exact ⟨h.inst, h.few, h.dyn, h.words⟩ | exact ⟨hx.inst, hx.few, hx.dyn, hx.words⟩))

theorem coalesceElapsed_kept {s t : State} {a0 : Nat}  (h : Kept D s t) : Kept D s (coalesceElapsed a0 t) := by
  unfold coalesceElapsed
  repeat' (first | with_reducible assumption | with_reducible refine settle_kept ?_ | with_reducible refine srcBatch_kept ?_ | with_reducible refine Kept.ite ?_ ?_ | (with_reducible show Kept D s _; first | exact ⟨h.inst, h.few, h.dyn, h.words⟩ | exact ⟨hx.inst, hx.few, hx.dyn, hx.words⟩))

theorem latchWakes_kept {s t : State} {a0 : Nat}  (h : Kept D s t) : Kept D s (latchWakes a0 t) := by
  unfold latchWakes
  repeat' (first | with_reducible assumption | with_reducible refine wakeUp_kept ?_ | with_reducible refine Kept.ite ?_ ?_ | split | (with_reducible show Kept D s _; first | exact ⟨h.inst, h.few, h.dyn, h.words⟩ | exact ⟨hx.inst, hx.few, hx.dyn, hx.words⟩))


/-- The words that a write of a word may change are among some. -/
@[reducible] def Covers (D : Nat → Nat → Bool) (p off : Nat) : Prop := D p off = true ∧ D p (off - 8) = true ∧ D p (off - 16) = true

/-- The words that CARD_FETCH fills are among some. -/
@[reducible] def Fetches (D : Nat → Nat → Bool) (p code : Nat) : Prop :=
  code = 0xB1 → pgReed 0 ≤ p → ∀ o, 0xA00 ≤ o → o ≤ 0xA38 → D p o = true

/-- The words that an access may change are among some. -/
@[reducible] def CoversA (D : Nat → Nat → Bool) (a : Access) : Prop := ∀ q o, accessWords a q o = true → D q o = true

theorem CoversA.word {a : Access} (h : CoversA D a) (hn : a.off ≠ 0x18) : Covers D a.page a.off :=
  ⟨h _ _ (by simp [accessWords, hn]), h _ _ (by simp [accessWords, hn]), h _ _ (by simp [accessWords, hn])⟩

theorem CoversA.fetch {a : Access} (h : CoversA D a) (hn : a.off = 0x18) (hw : a.wr = true) : Fetches D a.page (fld a.data 7 0) :=
  fun hb hp o h1 h2 => h _ _ (by simp [accessWords, hn, hw, hb, hp, h1, h2])

theorem storeWord_kept {s t : State} {k : PageKind} {p off : Nat} {row : RegRow} {d : Word} (hc : Covers D p off) (ho : off < 4096)
    (hm : off % 8 = 0) (h : Kept D s t) : Kept D s (storeWord k p off row d t) := by
  unfold storeWord; dsimp only
  split
  · exact regPut_keptD hc.2.1 (by omega) (by omega) h
  · split
    · exact regPut_keptD hc.2.2 (by omega) (by omega) h
    · split
      · exact h
      · exact regPut_keptD hc.1 ho hm h

theorem readClears_kept {s t : State} {k : PageKind} {p off : Nat} {row : RegRow} (hc : row.rc = 0 ∨ Covers D p off) (ho : off < 4096)
    (hm : off % 8 = 0) (h : Kept D s t) : Kept D s (readClears k p off row t) := by
  unfold readClears
  have h1 : Kept D s (if row.rc = 0 then t else regPut t p off (regGet t p off &&& ~~~row.rc)) := by
    split
    · exact h
    · rename_i hn; rcases hc with hc | hc
      · exact absurd hc hn
      · exact regPut_keptD hc.1 ho hm h
  dsimp only
  split
  · exact updPart_kept h1
  · split
    · exact keyReadClear_kept h1
    · split
      · exact Kept.ite (highWater_kept h1) h1
      · exact h1

theorem dyn_trd {o : Nat} (h : 0x138 ≤ o) : dynWord pgTrd o = true := by simp [dynWord, fullWord, h]

theorem claim_kept {s t : State} {n : Nat} (hn : n < 16) (h : Kept D s t) : Kept D s (claim n t).2 := by
  unfold claim
  split
  · exact h
  · split
    · exact settle_kept (updTgt_kept (updSrc_kept h))
    · split
      · exact bump_kept (dyn_trd (by omega)) (by omega) (by omega) (updTgt_kept h)
      · exact h

theorem completeRefused_kept {s t : State} {n m : Nat} (hn : n < 16) (h : Kept D s t) : Kept D s (completeRefused n m t) := by
  unfold completeRefused; dsimp only
  refine Kept.ite (setErr_kept ?_) ?_ <;> exact bump_kept (dyn_trd (by omega)) (by omega) (by omega) h

theorem srcWrite_kept {s t : State} {n : Nat} {w : Word} (hc : Covers D (10 + n / 504) (0x40 + 8 * (n % 504))) (h : Kept D s t) :
    KeptO D s (srcWrite n w t) := by
  unfold srcWrite
  have := Nat.mod_lt n (show 0 < 504 by decide)
  have h1 : Kept D s (regPut t (10 + n / 504) (0x40 + 8 * (n % 504)) w) := regPut_keptD hc.1 (by omega) (by omega) h
  revert h1
  generalize regPut t (10 + n / 504) (0x40 + 8 * (n % 504)) w = t1
  intro h1
  dsimp only
  refine KeptO.ite KeptO.none (KeptO.some (settle_kept (srcLevelPend_kept ?_)))
  repeat' (first | with_reducible assumption | with_reducible refine restartRun_kept ?_ | with_reducible refine withdraw_kept ?_ | with_reducible refine updSrc_kept ?_ | split)

theorem cardFetch_kept {s t : State} {r : Nat} (hd : ∀ o, 0xA00 ≤ o → o ≤ 0xA38 → D (pgReed r) o = true) (h : Kept D s t) : KeptO D s (cardFetch r t) := by
  unfold cardFetch
  dsimp only
  split
  · exact KeptO.none
  · refine KeptO.some ?_
    simp only [List.foldl_cons, List.foldl_nil]
    repeat' (refine regPut_keptD (hd _ (by decide) (by decide)) (by decide) (by decide) ?_)
    exact h

theorem kind_hub {i : Inst} {p : Nat} (h : pageKind i p = some .hub) : p = pgHub := by
  rcases Nat.eq_zero_or_pos p with hp | hp
  · exact hp
  · rw [pageKind, if_neg (by omega)] at h
    simp only [ite_eq, Option.some.injEq, reduceCtorEq, and_false, or_false] at h

theorem kind_trd {i : Inst} {p j : Nat} (h : pageKind i p = some (.trd j)) : p = 8 + j := by
  simp only [pageKind, ite_eq, Option.some.injEq, PageKind.trd.injEq, reduceCtorEq, and_false, or_false, false_or] at h
  omega

theorem kind_reed {i : Inst} {p r : Nat} (h : pageKind i p = some (.reed r)) : p = pgReed r := by
  simp only [pageKind, ite_eq, Option.some.injEq, PageKind.reed.injEq, reduceCtorEq, and_false, or_false, false_or] at h
  unfold pgReed; omega

theorem readWord_kept {s t : State} {k : PageKind} {p off : Nat} {row : RegRow} (hc : off ≠ 0x18 → Covers D p off) (ho : off < 4096)
    (hm : off % 8 = 0) (hr : regRow t.inst k off = some row) (h : Kept D s t) : KeptOP D s (readWord k p off row t) := by
  unfold readWord
  split
  · exact KeptOP.some (testNext_kept h)
  · split
    · rename_i hk
      simp only [Bool.and_eq_true, decide_eq_true_eq] at hk
      refine KeptOP.some (claim_kept ?_ h)
      unfold regRow at hr
      rw [if_neg (by omega), hk.1.1] at hr
      split at hr
      · rename_i hp
        simp [regPresent] at hp
        have := h.few'; omega
      · cases hr
    · split
      · exact calAccess_kept h
      · refine KeptOP.some (readClears_kept ?_ ho hm h)
        by_cases e : off = 0x18
        · subst e; rw [regRow_ctrl] at hr; cases hr; exact .inl rfl
        · exact .inr (hc e)

theorem reedAction_kept {s t : State} {r code : Nat} (hc : Fetches D (pgReed r) code) (h : Kept D s t) : KeptO D s (reedAction r code t) := by
  unfold reedAction; dsimp only
  repeat' split
  all_goals first | exact KeptO.none | exact flushAction_kept h | exact bobEnable_kept h | exact bobDisable_kept h | exact cardLoad_kept h | exact cardFetch_kept (hc (by assumption) (by simp [pgReed])) h

theorem doAction_kept {s t : State} {k : PageKind} {p code : Nat} {cause : BitVec 8} (hk : pageKind t.inst p = some k)
    (hc : Fetches D p code) (h : Kept D s t) : KeptO D s (doAction k p code cause t) := by
  unfold doAction
  repeat' split
  all_goals first
    | exact KeptO.none | exact KeptO.some h | exact actEnable_kept h | exact actDisable_kept h | exact actReset_kept h | exact actRetire_kept h
    | exact actReinstate_kept h | exact KeptO.some (actAudit_kept h) | exact hubAction_kept h | exact keyAction_kept h | exact fwAction_kept h
    | exact ringRelease_kept h | (rw [kind_reed hk] at hc; exact reedAction_kept hc h)

theorem ctrlWrite_kept {s t : State} {k : PageKind} {p : Nat} {d : Word} {cause : BitVec 8} (hk : pageKind t.inst p = some k)
    (hc : Fetches D p (fld d 7 0)) (h : Kept D s t) : KeptO D s (ctrlWrite k p d cause t) := by
  unfold ctrlWrite
  split
  · exact doAction_kept hk hc h
  · exact KeptO.none

theorem trd0Write_kept {s t : State} {off : Nat} {row : RegRow} {d : Word} (hc : Covers D pgTrd off) (ho : off < 4096)
    (hm : off % 8 = 0) (hr : regRow t.inst (.trd 0) off = some row) (h : Kept D s t) : Kept D s (trd0Write off row d t).2 := by
  unfold trd0Write
  split
  · split
    · exact doorbell_kept h _ (by assumption)
    · exact doorbellBad_kept h
  · split
    · split
      · exact dozeWrite_kept h _ (by assumption)
      · exact h
    · split
      · rename_i hk
        simp only [Bool.and_eq_true, decide_eq_true_eq] at hk
        dsimp only
        split
        · exact complete_kept h _ (by assumption)
        · refine completeRefused_kept ?_ h
          unfold regRow at hr
          rw [if_neg (by omega)] at hr
          split at hr
          · rename_i hp
            simp [regPresent] at hp
            have := h.few'; omega
          · cases hr
      · exact settle_kept (storeWord_kept hc ho hm h)

theorem trd1Write_kept {s t : State} {off : Nat} {row : RegRow} {d : Word} (hc : Covers D 9 off) (ho : off < 4096)
    (hm : off % 8 = 0) (h : Kept D s t) : Kept D s (trd1Write off row d t) := by
  unfold trd1Write
  split
  · exact pendingSet_kept h
  · split
    · exact pendingClr_kept h
    · exact settle_kept (storeWord_kept hc ho hm h)

theorem trdSrcWrite_kept {s t : State} {n : Nat} {d : Word} (hc : Covers D (10 + n / 504) (0x40 + 8 * (n % 504))) (h : Kept D s t) :
    Kept D s (trdSrcWrite n d t).2 := by
  unfold trdSrcWrite
  split
  · exact h
  · split
    · exact srcWrite_kept hc h _ (by assumption)
    · exact h

theorem hubWrite_kept {s t : State} {off : Nat} {row : RegRow} {d : Word} (hc : Covers D pgHub off) (ho : off < 4096)
    (hm : off % 8 = 0) (h : Kept D s t) : Kept D s (hubWrite off row d t).2 := by
  unfold hubWrite
  split
  · split
    · exact noticeIn_kept h _ (by assumption)
    · exact h
  · split
    · exact carryEpochs_kept (storeWord_kept hc ho hm (settleEpochs_kept h))
    · split
      · exact Kept.set_gov (foldl_kept (fun _ _ h => updHedGov_kept h) (storeWord_kept hc ho hm h))
      · split
        · exact tailRule_kept h
        · exact storeWord_kept hc ho hm h

theorem writeWord_kept {s t : State} {k : PageKind} {p off : Nat} {row : RegRow} {d : Word} (hk : pageKind t.inst p = some k)
    (hc : Covers D p off) (ho : off < 4096) (hm : off % 8 = 0) (hr : regRow t.inst k off = some row) (h : Kept D s t) :
    Kept D s (writeWord k p off row d t).2 := by
  have hs : Kept D s (storeWord k p off row d t) := storeWord_kept hc ho hm h
  unfold writeWord
  split
  · exact hs
  · split
    · rw [kind_hub hk] at hc; exact hubWrite_kept hc ho hm h
    · split
      · exact updKey_kept (a0 := fun y => { y with seed := mins y.seed ((off - 0x50) / 8) d }) h
      · exact hs
    · split
      · exact calWrite_kept h
      · exact hs
    · rw [kind_trd hk] at hc; exact trd0Write_kept hc ho hm hr h
    · rw [kind_trd hk] at hc; exact trd1Write_kept hc ho hm h
    · rename_i j _ _
      split
      · rename_i hj
        simp only [Bool.and_eq_true, decide_eq_true_eq] at hj
        refine trdSrcWrite_kept ?_ h
        rw [show 10 + (504 * (j - 2) + (off - 0x40) / 8) / 504 = p by rw [kind_trd hk]; omega,
          show 0x40 + 8 * ((504 * (j - 2) + (off - 0x40) / 8) % 504) = off by omega]
        exact hc
      · exact h
    · split
      · exact tailRule_kept h
      · exact hs
    · split
      · exact cardMapWrite_kept h
      · split
        · exact cardMapWrite_kept h
        · exact hs
    · exact hs

theorem writeRule_kept {s t : State} {k : PageKind} {p off : Nat} {row : RegRow} {d : Word} {cause : BitVec 8}
    (hk : pageKind t.inst p = some k) (hc : off ≠ 0x18 → Covers D p off) (hf : off = 0x18 → Fetches D p (fld d 7 0)) (ho : off < 4096)
    (hm : off % 8 = 0) (hr : regRow t.inst k off = some row) (h : Kept D s t) : Kept D s (writeRule k p off row d cause t).2 := by
  unfold writeRule
  split
  · exact h
  · split
    · exact h
    · split
      · exact h
      · split
        · rename_i e; subst e
          split
          · exact ctrlWrite_kept hk (hf rfl) h _ (by assumption)
          · exact ctrlRefused_kept h
        · exact writeWord_kept hk (hc (by assumption)) ho hm hr h

theorem answer_kept {s t : State} {a : Access} {cause : BitVec 8} (hc : CoversA D a) (h : Kept D s t) :
    Kept D s (answer a cause t).2.2 := by
  have ho : a.off < 4096 := by unfold Access.off; omega
  have hm : a.off % 8 = 0 := by unfold Access.off; omega
  unfold answer
  split
  · exact h
  · split
    · exact h
    · rename_i k hk _ row hr
      split
      · exact h
      · split
        · exact writeRule_kept hk hc.word (fun e => hc.fetch e (by assumption)) ho hm hr h
        · split
          · exact readWord_kept hc.word ho hm hr h _ _ (by assumption)
          · exact h

theorem answered_kept {s t : State} {a : Access} {cause : BitVec 8} (hc : CoversA D a) (h : Kept D s t) :
    Kept D s (answered a cause t).2.2 := by
  unfold answered; dsimp only
  split
  · exact answer_kept hc (pageFirst_kept h)
  · exact reject_kept (answer_kept hc (pageFirst_kept h))

theorem serve_kept {s t : State} {a : Access} (hc : CoversA D a) (h : Kept D s t) : Kept D s (serve a t) :=
  Kept.set_port (answered_kept hc h)

theorem portAccess_kept {s t : State} {a : Access} (hc : CoversA D a) (h : Kept D s t) : Kept D s (portAccess a t) := by
  unfold portAccess
  split
  · exact serve_kept hc h
  · split
    · exact Kept.set_port h
    · exact bump_kept (by decide) (by decide) (by decide) (setPortErr_kept h)

theorem coversA_ctrl {a : Access} (ho : a.off = 0x18) (hd : fld a.data 7 0 ≠ 0xB1) : CoversA D a := by
  intro q o h; simp [accessWords, ho, hd] at h

theorem action_kept {s t : State} {p code : Nat} {cond : Option (BitVec 32)} (hc : code < 256) (hb : code ≠ 0xB1) (h : Kept D s t) :
    Kept D s (action p code cond t) := by
  unfold action
  exact portAccess_kept (coversA_ctrl (by simp [Access.off, ctrlAccess]) (by simp only [ctrlAccess]; rw [ctrlWord_code _ _ hc]; exact hb)) h

theorem servePrst_kept {s t : State} {p : Nat} (h : Kept D s t) : Kept D s (servePrst p t) :=
  Kept.set_port (answered_kept (coversA_ctrl (by simp [Access.off]) (by show fld 3 7 0 ≠ 0xB1; decide)) h)

theorem partResetPort_kept {s t : State} {p : Nat} (h : Kept D s t) : Kept D s (partResetPort p t) := by
  unfold partResetPort
  split
  · exact servePrst_kept h
  · split
    · exact Kept.set_port h
    · exact h

/-! ### A command -/

theorem kept_always {dt : Nat} {f : State → State} {s : State} (hi : instOk s.inst = true) (hd : ∀ p o, dynWord p o = true → D p o = true)
    (hf : ∀ t, Kept D s t → Kept D s (f t)) : Kept D s (always dt f s) :=
  finish_kept (hf _ (advance_kept ⟨rfl, hi, hd, SameRegs.refl _ _⟩))

theorem kept_act {dt : Nat} {f : State → State} {s : State} (hi : instOk s.inst = true) (hd : ∀ p o, dynWord p o = true → D p o = true)
    (hf : ∀ t, Kept D s t → Kept D s (f t)) : Kept D s (act dt f s) := by
  unfold act
  split
  · exact advance_kept ⟨rfl, hi, hd, SameRegs.refl _ _⟩
  · exact kept_always hi hd hf

/-- The words that a command may change. -/
@[reducible] def Dc (c : Instr) (p o : Nat) : Bool := dynWord p o || wordsOf c p o

theorem dc_dyn (c : Instr) : ∀ p o, dynWord p o = true → Dc c p o = true := fun p o h => by simp [Dc, h]

theorem dc_acc {c : Instr} {a : Access} (h : ∀ p o, wordsOf c p o = accessWords a p o) : CoversA (Dc c) a := fun p o e => by simp [Dc, h, e]

end Sys2Proof.Laws
end

