-- ==== Sys2Proof/WellFormed.lean ====
section
/-! DEFINITION. Which commands are well formed: every operand within what its port or its table can carry. The machine runs every command;
these checks say which of them spell something. -/

namespace Sys2Proof

/-- A page index of the window (R57). -/
def pageOk (p : Nat) : Bool := decide (p < 8192)

/-- The byte address of a 64-bit word of the 32 MiB window (R30). -/
def addrOk (a : Nat) : Bool := decide (a < 2 ^ 25) && a % 8 == 0

/-- A Heddle number of the full configuration. -/
def hedOk (h : Nat) : Bool := decide (h < 4096)

/-- A Reed number of the full configuration. -/
def reedOk (r : Nat) : Bool := decide (r < 256)

/-- A Reed, or 256 for the Hub. -/
def writerOk (w : Nat) : Bool := decide (w ≤ 256)

/-- A link port number of the full configuration. -/
def portOk (n : Nat) : Bool := decide (n < 96)

/-- A page that has bobbin slots: HUB, or a REED page. -/
def ownerPage (p : Nat) : Bool := p == 0 || (decide (0x800 ≤ p) && decide (p < 0x900))

/-- A stream identifier (Table AR-2). -/
def streamOk (n : Nat) : Bool := decide (n < 0x10162)

/-- A TDC reading: at most one update of cells after the latest Gray update (R92). -/
def tdcOk (t : Tdc) : Bool := decide (1 ≤ t.p) && decide (t.n ≤ t.p)

/-- A PTP time: fewer than 10^9 nanoseconds (R121). -/
def PtpTime.wf (t : PtpTime) : Bool := decide (t.ns.toNat < 1000000000)

/-- A fatal fault names a stream of the block. -/
def FaultCause.wf : FaultCause → Bool
  | .retention n _ => streamOk n
  | _ => true

/-- An error in staging names a Heddle and an entry of its table. -/
def StagingHit.wf : StagingHit → Bool
  | .tile _ => true
  | .slot h n => hedOk h && decide (n < 16)

/-- Whether a command is well formed; its time since the command before it is below the modulus of the raw count (R78). -/
def Instr.wf : Instr → Bool
  | .fundamentalReset dt => decide (dt < 2 ^ 64)
  | .blockReset dt => decide (dt < 2 ^ 64)
  | .initialisationComplete dt who => decide (dt < 2 ^ 64) && pageOk (who.getD 0)
  | .partResetPortRequest dt page => decide (dt < 2 ^ 64) && pageOk page
  | .regOverlap dt => decide (dt < 2 ^ 64)
  | .registerWrite dt addr _ => decide (dt < 2 ^ 64) && addrOk addr
  | .readClearRegister dt addr => decide (dt < 2 ^ 64) && addrOk addr
  | .enable dt page _ => decide (dt < 2 ^ 64) && pageOk page
  | .disable dt page _ => decide (dt < 2 ^ 64) && pageOk page
  | .partReset dt page _ => decide (dt < 2 ^ 64) && pageOk page
  | .retire dt page _ => decide (dt < 2 ^ 64) && pageOk page
  | .reinstate dt page _ => decide (dt < 2 ^ 64) && pageOk page
  | .auditNow dt page _ => decide (dt < 2 ^ 64) && pageOk page
  | .fatalFault dt page cause => decide (dt < 2 ^ 64) && pageOk page && cause.wf
  | .quiesceComplete dt page => decide (dt < 2 ^ 64) && pageOk page
  | .quiesceOverdue dt page => decide (dt < 2 ^ 64) && pageOk page
  | .stateReport dt page _ => decide (dt < 2 ^ 64) && pageOk page
  | .periodicAudit dt => decide (dt < 2 ^ 64)
  | .auditAnswer dt page => decide (dt < 2 ^ 64) && pageOk page
  | .step dt _ => decide (dt < 2 ^ 64)
  | .set dt _ => decide (dt < 2 ^ 64)
  | .rate dt _ => decide (dt < 2 ^ 64)
  | .calTdc dt _ => decide (dt < 2 ^ 64)
  | .calRunComplete dt _ _ => decide (dt < 2 ^ 64)
  | .stepAt dt => decide (dt < 2 ^ 64)
  | .referenceLoss dt => decide (dt < 2 ^ 64)
  | .referenceReturn dt => decide (dt < 2 ^ 64)
  | .serialMessage dt page _ => decide (dt < 2 ^ 64) && pageOk page
  | .statusRequest dt page => decide (dt < 2 ^ 64) && pageOk page
  | .sensorSample dt ch _ _ tdc => decide (dt < 2 ^ 64) && ch < 64 && tdcOk tdc
  | .tdispStateChange dt _ => decide (dt < 2 ^ 64)
  | .commandIssue dt hed item => decide (dt < 2 ^ 64) && hedOk hed && tdcOk item.tdc
  | .commandRetire dt hed item => decide (dt < 2 ^ 64) && hedOk hed && tdcOk item.tdc
  | .spanAccept dt hed => decide (dt < 2 ^ 64) && hedOk hed
  | .eventLineTransition dt hed _ => decide (dt < 2 ^ 64) && hedOk hed
  | .stallReasonChange dt hed _ tdc => decide (dt < 2 ^ 64) && hedOk hed && tdcOk tdc
  | .stallSamplePeriodic dt hed => decide (dt < 2 ^ 64) && hedOk hed
  | .counterSample dt hed _ => decide (dt < 2 ^ 64) && hedOk hed
  | .clockStateChange dt hed _ _ tdc => decide (dt < 2 ^ 64) && hedOk hed && tdcOk tdc
  | .gapLimit dt hed _ => decide (dt < 2 ^ 64) && hedOk hed
  | .hedCardMap dt hed _ _ => decide (dt < 2 ^ 64) && hedOk hed
  | .outputBeat dt hed item => decide (dt < 2 ^ 64) && hedOk hed && tdcOk item.tdc
  | .mirrorIntake dt reed => decide (dt < 2 ^ 64) && reedOk reed
  | .gatherTimeout dt reed _ => decide (dt < 2 ^ 64) && reedOk reed
  | .shareComplete dt wit => decide (dt < 2 ^ 64) && wit < 1024
  | .stagingEccError dt reed hit => decide (dt < 2 ^ 64) && reedOk reed && hit.wf
  | .cardLoad dt reed _ => decide (dt < 2 ^ 64) && reedOk reed
  | .cardFetch dt reed _ => decide (dt < 2 ^ 64) && reedOk reed
  | .governorWindowStart dt => decide (dt < 2 ^ 64)
  | .flushWaitExpiry dt stream => decide (dt < 2 ^ 64) && streamOk stream
  | .flush dt page _ => decide (dt < 2 ^ 64) && ownerPage page
  | .blockIssue dt writer => decide (dt < 2 ^ 64) && writerOk writer
  | .memoryCompletion dt writer _ _ => decide (dt < 2 ^ 64) && writerOk writer
  | .completionTimeout dt writer _ => decide (dt < 2 ^ 64) && writerOk writer
  | .releaseAcknowledge dt bob => decide (dt < 2 ^ 64) && writerOk (bob / 8)
  | .shadowAcknowledge dt bob => decide (dt < 2 ^ 64) && writerOk (bob / 8)
  | .bobEnable dt page _ _ => decide (dt < 2 ^ 64) && ownerPage page
  | .bobDisable dt page _ _ => decide (dt < 2 ^ 64) && ownerPage page
  | .bobTail dt page _ _ => decide (dt < 2 ^ 64) && ownerPage page
  | .writePortIdle dt reed => decide (dt < 2 ^ 64) && writerOk reed
  | .scanComplete dt reed => decide (dt < 2 ^ 64) && writerOk reed
  | .retainedRunReport dt reed stream => decide (dt < 2 ^ 64) && writerOk reed && streamOk stream
  | .handBack dt reed => decide (dt < 2 ^ 64) && reedOk reed
  | .epochSettled dt => decide (dt < 2 ^ 64)
  | .staleEpoch dt => decide (dt < 2 ^ 64)
  | .epochQuery dt port hed => decide (dt < 2 ^ 64) && portOk port && hedOk hed
  | .ledgerReceipt dt port => decide (dt < 2 ^ 64) && portOk port
  | .poison dt _ _ => decide (dt < 2 ^ 64)
  | .clear dt _ _ => decide (dt < 2 ^ 64)
  | .absolve dt _ _ => decide (dt < 2 ^ 64)
  | .confirm dt _ _ => decide (dt < 2 ^ 64)
  | .clearBatch dt => decide (dt < 2 ^ 64)
  | .gateRequest dt hed _ tdc => decide (dt < 2 ^ 64) && hedOk hed && tdcOk tdc
  | .gateOpen dt hed => decide (dt < 2 ^ 64) && hedOk hed
  | .unblind dt _ => decide (dt < 2 ^ 64)
  | .testReload dt _ => decide (dt < 2 ^ 64)
  | .manifestLoadComplete dt => decide (dt < 2 ^ 64)
  | .testDeadline dt entry hed => decide (dt < 2 ^ 64) && entry < 64 && hedOk hed
  | .hubTestNext dt => decide (dt < 2 ^ 64)
  | .sensorWaitExpiry dt => decide (dt < 2 ^ 64)
  | .stopNow dt _ => decide (dt < 2 ^ 64)
  | .arm dt _ => decide (dt < 2 ^ 64)
  | .disarm dt _ => decide (dt < 2 ^ 64)
  | .resume dt _ => decide (dt < 2 ^ 64)
  | .stopIn dt tdc => decide (dt < 2 ^ 64) && tdcOk tdc
  | .ttCompare dt => decide (dt < 2 ^ 64)
  | .armedPartFire dt page => decide (dt < 2 ^ 64) && pageOk page
  | .stopTreeArrival dt page => decide (dt < 2 ^ 64) && pageOk page
  | .holdAck dt hed tdc => decide (dt < 2 ^ 64) && hedOk hed && tdcOk tdc
  | .holdTimeout dt hed => decide (dt < 2 ^ 64) && hedOk hed
  | .scanWord dt hed _ _ => decide (dt < 2 ^ 64) && hedOk hed
  | .scanWordTimeout dt hed => decide (dt < 2 ^ 64) && hedOk hed
  | .graceExpiry dt port => decide (dt < 2 ^ 64) && portOk port
  | .cutComplete dt => decide (dt < 2 ^ 64)
  | .snagWritten dt => decide (dt < 2 ^ 64)
  | .resumeArrival dt page => decide (dt < 2 ^ 64) && pageOk page
  | .resumeComplete dt => decide (dt < 2 ^ 64)
  | .treadleInputEdge dt src _ => decide (dt < 2 ^ 64) && 100 ≤ src && src ≤ 2040
  | .filterAccept dt src => decide (dt < 2 ^ 64) && 100 ≤ src && src ≤ 2040
  | .falcenSourceEvent dt src => decide (dt < 2 ^ 64) && 1 ≤ src && src < 100
  | .coalesceTimeout dt src => decide (dt < 2 ^ 64) && 1 ≤ src && src ≤ 2040
  | .trdDoorbell dt _ => decide (dt < 2 ^ 64)
  | .trdClaim dt target => decide (dt < 2 ^ 64) && target < 16
  | .trdComplete dt target _ => decide (dt < 2 ^ 64) && target < 16
  | .trdPendingSet dt word _ => decide (dt < 2 ^ 64) && word < 32
  | .trdPendingClr dt word _ => decide (dt < 2 ^ 64) && word < 32
  | .trdDoze dt _ => decide (dt < 2 ^ 64)
  | .asyncWake dt src => decide (dt < 2 ^ 64) && 1 ≤ src && src ≤ 2040
  | .linkStateChange dt port _ tdc => decide (dt < 2 ^ 64) && portOk port && tdcOk tdc
  | .absentTimer dt port => decide (dt < 2 ^ 64) && portOk port
  | .headerCapture dt port item => decide (dt < 2 ^ 64) && portOk port && tdcOk item.tdc
  | .unackEntry dt port _ _ => decide (dt < 2 ^ 64) && portOk port
  | .unackEnd dt port => decide (dt < 2 ^ 64) && portOk port
  | .listTimeout dt port => decide (dt < 2 ^ 64) && portOk port
  | .listEntryPick dt port => decide (dt < 2 ^ 64) && portOk port
  | .ringRelease dt port _ => decide (dt < 2 ^ 64) && portOk port
  | .helloSend dt port => decide (dt < 2 ^ 64) && portOk port
  | .hello dt port _ => decide (dt < 2 ^ 64) && portOk port
  | .pdreqSend dt port => decide (dt < 2 ^ 64) && portOk port
  | .pdreq dt port _ => decide (dt < 2 ^ 64) && portOk port
  | .pdresp dt port _ => decide (dt < 2 ^ 64) && portOk port
  | .pdfollowSend dt port => decide (dt < 2 ^ 64) && portOk port
  | .pdfollow dt port _ => decide (dt < 2 ^ 64) && portOk port
  | .pdelayTimeout dt port => decide (dt < 2 ^ 64) && portOk port
  | .rootSyncSend dt => decide (dt < 2 ^ 64)
  | .sync dt port _ => decide (dt < 2 ^ 64) && portOk port
  | .follow dt port _ => decide (dt < 2 ^ 64) && portOk port
  | .followSend dt port => decide (dt < 2 ^ 64) && portOk port
  | .followTimeout dt => decide (dt < 2 ^ 64)
  | .rootLost dt => decide (dt < 2 ^ 64)
  | .txTimestamp dt port tdc => decide (dt < 2 ^ 64) && portOk port && tdcOk tdc
  | .rxTimestamp dt port tdc => decide (dt < 2 ^ 64) && portOk port && tdcOk tdc
  | .servoStart dt _ => decide (dt < 2 ^ 64)
  | .servoStop dt _ => decide (dt < 2 ^ 64)
  | .servoRearm dt _ => decide (dt < 2 ^ 64)
  | .ethTimestamp dt _ _ _ _ _ tdc => decide (dt < 2 ^ 64) && tdcOk tdc
  | .ptpSync dt hdr origin => decide (dt < 2 ^ 64) && hdr.len < 65536 && origin.wf
  | .ptpFollowUp dt hdr origin => decide (dt < 2 ^ 64) && hdr.len < 65536 && origin.wf
  | .ptpDelayResp dt hdr receive _ _ => decide (dt < 2 ^ 64) && hdr.len < 65536 && receive.wf
  | .ptpAnnounce dt hdr _ => decide (dt < 2 ^ 64) && hdr.len < 65536
  | .ptpIgnoredMessage dt len => decide (dt < 2 ^ 64) && len < 65536
  | .ptpDelayReqSend dt => decide (dt < 2 ^ 64)
  | .announceTimeout dt => decide (dt < 2 ^ 64)
  | .install dt _ => decide (dt < 2 ^ 64)
  | .rotate dt _ => decide (dt < 2 ^ 64)
  | .remove dt _ => decide (dt < 2 ^ 64)
  | .release dt _ => decide (dt < 2 ^ 64)
  | .scanRelease dt _ => decide (dt < 2 ^ 64)
  | .genRetired dt _ => decide (dt < 2 ^ 64)
  | .fenceComplete dt _ => decide (dt < 2 ^ 64)
  | .slotDrainComplete dt _ => decide (dt < 2 ^ 64)
  | .drainOverdue dt _ => decide (dt < 2 ^ 64)
  | .scrubComplete dt _ => decide (dt < 2 ^ 64)
  | .keyEcc dt _ _ => decide (dt < 2 ^ 64)
  | .readbackRequest dt _ _ => decide (dt < 2 ^ 64)
  | .readbackComplete dt => decide (dt < 2 ^ 64)
  | .readBeat dt _ beat last _ _ => decide (dt < 2 ^ 64) && last == (beat == 7)
  | .readTimeout dt _ => decide (dt < 2 ^ 64)
  | .load dt _ => decide (dt < 2 ^ 64)
  | .loadComplete dt => decide (dt < 2 ^ 64)
  | .handover dt _ => decide (dt < 2 ^ 64)
  | .verifyComplete dt => decide (dt < 2 ^ 64)
  | .fwReady dt => decide (dt < 2 ^ 64)
  | .handoverTimeout dt => decide (dt < 2 ^ 64)
  | .reloadComplete dt => decide (dt < 2 ^ 64)
  | .fwAccept dt => decide (dt < 2 ^ 64)
  | .fwReject dt => decide (dt < 2 ^ 64)
  | .acceptTimeout dt => decide (dt < 2 ^ 64)
  | .watchdogKick dt => decide (dt < 2 ^ 64)
  | .watchdogExpiry dt => decide (dt < 2 ^ 64)
  | .fwEmit dt _ => decide (dt < 2 ^ 64)
  | .blockBufferTransfer dt _ _ => decide (dt < 2 ^ 64)
  | .emit dt _ => decide (dt < 2 ^ 64)
  | .hostScrubbed dt _ => decide (dt < 2 ^ 64)
  | .calData dt _ => decide (dt < 2 ^ 64)
  | .calStoreWrite dt _ => decide (dt < 2 ^ 64)
  | .eccCorr dt page => decide (dt < 2 ^ 64) && pageOk page
  | .powerLoss dt => decide (dt < 2 ^ 64)
  | .frameCrc dt port _ => decide (dt < 2 ^ 64) && portOk port

end Sys2Proof
end

