-- ==== Sys2Proof/Tests/Slice0.lean ====
section
/-! SUPPORT. Tests: a command that each check of WellFormed refuses, states that meet the hypotheses of each statement, and single steps
whose results were worked out from the tables of spec/. -/

namespace Sys2Proof.Tests

set_option Elab.async false

open Sys2Proof.Machine Sys2Proof.Safety

/-- The invariant as a check. -/
def invB (s : State) : Bool :=
  canonical s && instOk s.inst && decide (s.tim.raw < two64) &&
  (if s.booting then !s.ready && s.parts.all (fun e => e.2.st == .failed && e.2.seq == 1) else s.ready && (s.workHeld == holdsWork s) && (s.tests.frozen.isNone == fwRuns s))

theorem inv_of_invB {s : State} (h : invB s = true) : Inv s := by
  unfold invB at h
  cases hb : s.booting <;> rw [hb] at h <;> simp [Bool.and_eq_true] at h
  · exact ⟨h.1.1.1, h.1.1.2, h.1.2, (by simp [hb]), fun _ => h.2.1.1, fun _ => h.2.1.2, fun _ => h.2.2⟩
  · exact ⟨h.1.1.1, h.1.1.2, h.1.2, fun _ => ⟨h.2.1, fun e he => h.2.2 e.1 e.2 he⟩, (by simp [hb]), (by simp [hb]), (by simp [hb])⟩

/-- The machine after reset with some parts in some states and some words written, at a raw count. -/
def mach (ps : List (Nat × PState)) (ws : List (Nat × Nat × Word)) (raw : Nat := 0) : State :=
  let s := ps.foldl (fun s e => updPart s e.1 fun x => { x with st := e.2 }) State.reset
  let s := ws.foldl (fun s e => regPut s e.1 e.2.1 e.2.2) s
  { s with tim := { s.tim with raw := raw } }

/-- WORK_HELD and the clock of the tests as the rest of the state implies them. -/
def fit (s : State) : State := { s with workHeld := holdsWork s, tests := { s.tests with frozen := if fwRuns s then none else some 0 } }

/-- A state with the block running that meets the invariant. -/
abbrev runs (s : State) : Prop := invB s = true ∧ s.booting = false

/-- The block in the initialisation that a fundamental reset begins, and the same with a part that failed in it. -/
def booting0 : State := { State.reset with ready := false, booting := true }
def booting1 : State := { booting0 with parts := mset (partDflt booting0) [] (pgHed 0) { Part.quiet with st := .failed, seq := 1 } }

-- the whole machine
theorem test_wit_StepKeepsTheInvariant : invB State.reset = true ∧ invB booting0 = true ∧ invB booting1 = true ∧ pst booting1 (pgHed 0) = .failed ∧
    pst booting1 (pgHed 1) = .resetting ∧ booting1.port.held = none ∧ booting1.port.prstHeld = none := by decide +kernel
theorem test_wit_AnEmptyQueueIdles : State.reset.pending = [] := rfl
theorem test_wit_OnlyTheWordsNamedChange : instOk State.reset.inst = true := by decide +kernel
theorem test_wit_BeforeReadyOnlyTimePasses : booting0.booting = true ∧ actsLow (.stepAt 5) = false := by decide +kernel
theorem test_wit_EventCountersRun : evtSorted State.reset ∧ hedBound State.reset 4095 = none := ⟨fun _ => rfl, by decide +kernel⟩
theorem test_wit_NoCommandStops : there State.reset.inst (.spanAccept 0 4096) = false := by decide +kernel

-- parts
theorem test_wit_HostActions_enable :
    let a := mach [(pgReed 0, .quiescing)] []
    let b := State.reset
    runs a ∧ actionHeard (due (pgReed 0) 0 a) (pgReed 0) 1 none = true ∧ pst (due (pgReed 0) 0 a) (pgReed 0) = .quiescing ∧
      runs b ∧ actionHeard (due pgHub 0 b) pgHub 1 (some 1) = true ∧ pst (due pgHub 0 b) pgHub = .disabled ∧
      factsPresent (due pgHub 0 b) pgHub = true := by decide +kernel
theorem test_wit_HostActions_disable :
    let s := mach [(pgReed 255, .enabled), (pgTrd, .enabled), (pgHed 0, .enabled)] []
    runs s ∧ ([pgReed 255, pgTrd, pgHed 0].all fun p => actionHeard (due p 0 s) p 2 none && pst (due p 0 s) p == .enabled) = true ∧
      (∀ h, pgReed 255 ≠ pgHed h) ∧ (hed (due (pgHed 0) 0 s) 0).leaving = none :=
  ⟨by decide +kernel, by decide +kernel, by intro h; simp only [pgReed, pgHed]; omega, by decide +kernel⟩
theorem test_wit_HostActions_reset :
    let s := mach [(pgKey, .failed), (pgHed 0, .enabled)] []
    runs s ∧ actionHeard (due pgKey 0 s) pgKey 3 none = true ∧ pst (due pgKey 0 s) pgKey = .failed ∧ s.key.slots = [] ∧
      actionHeard (due (pgHed 0) 0 s) (pgHed 0) 3 none = true ∧ pst (due (pgHed 0) 0 s) (pgHed 0) = .enabled := by decide +kernel
/-- A Heddle that is leaving ENABLED, with nothing or a record left to decide. -/
def leaving0 (l : List Held) : State := updHed 0 (fun x => { x with leaving := some (false, 1), held := l }) (mach [(pgHed 0, .enabled)] [])
def heldGap : Held := ⟨0, ⟨5, 5, false, false⟩, 5, 5, 37, .gap ⟨5, 5, false, false, 0, 1, false, false⟩ 5 0 0⟩
theorem test_wit_HostActions_leave :
    let a := leaving0 []
    let b := leaving0 [heldGap]
    let v := fun (s : State) => settleSpans 32 0 (updHed 0 (fun x => { x with leaving := some (false, 1) }) (hedLeaves 0 (due (pgHed 0) 0 s)))
    let e := mach [(pgHed 0, .enabled)] []
    runs a ∧ isHome a.inst (pgHed 0) = true ∧ pst a (pgHed 0) = .enabled ∧ (hed a 0).leaving = some (false, 1) ∧
      hedSettled (settleSpans 32 0 (advance 0 a)) 0 = true ∧ runs b ∧ (hed (due (pgHed 0) 0 b) 0).leaving = some (false, 1) ∧
      pst (due (pgHed 0) 0 b) (pgHed 0) = .enabled ∧ actionHeard (due (pgHed 0) 0 b) (pgHed 0) 2 none = true ∧ hedSettled (v e) 0 = true ∧
      hedSettled (v (updHed 0 (fun x => { x with held := [heldGap] }) e)) 0 = false := by decide +kernel
theorem test_wit_HostActions_retire :
    let s := mach [(pgLnk 95, .failed), (pgHed 4095, .retired)] []
    runs s ∧ actionHeard (due (pgLnk 95) 0 s) (pgLnk 95) 4 none = true ∧ pst (due (pgLnk 95) 0 s) (pgLnk 95) = .failed ∧
      retirable (due (pgLnk 95) 0 s) (pgLnk 95) = true ∧ actionHeard (due (pgHed 4095) 0 s) (pgHed 4095) 5 none = true ∧
      pst (due (pgHed 4095) 0 s) (pgHed 4095) = .retired ∧ retirable (due (pgHed 4095) 0 s) (pgHed 4095) = true := by decide +kernel
theorem test_wit_Faults_fatal :
    let s := mach [(pgHed 0, .enabled), (pgHed 1, .retired)] []
    runs s ∧ isHome s.inst (pgHed 0) = true ∧ pst (due (pgHed 0) 0 s) (pgHed 0) = .enabled ∧ pst (due (pgHed 1) 0 s) (pgHed 1) = .retired ∧
      invB booting1 = true ∧ pst (due (pgHed 1) 0 booting1) (pgHed 1) = .resetting ∧ pst (due (pgHed 0) 0 booting1) (pgHed 0) = .failed := by
  decide +kernel
theorem test_wit_Faults_quiesce :
    let s := mach [(pgHed 0, .quiescing), (pgFw, .quiescing)] [] 3999999
    let u := fit s
    let v := fun p => due p 1 u
    runs u ∧ isHome u.inst (pgHed 0) = true ∧ pst (v (pgHed 0)) (pgHed 0) = .quiescing ∧ quiet (v (pgHed 0)) (pgHed 0) = true ∧
      quiet (v pgFw) pgFw = false ∧ (part (v (pgHed 0)) (pgHed 0)).overdue = false ∧
      (part (v (pgHed 0)) (pgHed 0)).quiesceAt + 4000 * regFld (v (pgHed 0)) pgHub 0x68 19 0 ≤ newRaw 1 u := by decide +kernel
theorem test_wit_Reports_report :
    let s := updPart State.reset (pgHed 0) fun x => { x with st := .enabled, seq := 2, reports := [⟨.enabled, 2, 1⟩, ⟨.disabled, 1, 0⟩] }
    let u := due (pgHed 0) 0 s
    let v := due (pgHed 0) 0 (updPart State.reset (pgHed 0) fun x => { x with reports := [⟨.disabled, 1, 0⟩] })
    runs s ∧ isHome s.inst (pgHed 0) = true ∧ hubHears u = true ∧ (part u (pgHed 0)).reports = [⟨.enabled, 2, 1⟩, ⟨.disabled, 1, 0⟩] ∧
      (part u (pgHed 0)).view.seq.toNat < (2 : BitVec 32).toNat ∧ hubHears v = true ∧ (1 : BitVec 32).toNat ≤ (part v (pgHed 0)).view.seq.toNat := by
  decide +kernel
theorem test_wit_Reports_audit :
    let s := updPart State.reset (pgHed 0) fun x => { x with st := .enabled, seq := 2, audits := [2] }
    let u := due (pgHed 0) 0 s
    let w := mach [(pgHub, .resetting)] []
    runs s ∧ (part u (pgHed 0)).audits ≠ [] ∧ (part u (pgHed 0)).reports = [] ∧ (part u (pgHed 0)).view.st ≠ pst u (pgHed 0) ∧
      actionHeard u (pgHed 0) 6 none = true ∧ actionHeard (due pgHub 0 s) pgHub 6 none = true ∧ runs w ∧ hubHears (due (pgHed 0) 0 w) = false := by
  decide +kernel
theorem test_wit_Reports_periodic :
    let s := { State.reset with audit := { running := true, answered := [0], skews := 0, last := none } }
    runs s ∧ s.audit.running = true ∧ pgHed 0 ∉ s.audit.answered ∧ multipleAt (advance 4000000 State.reset) pgHub 4000000 = some 4000000 ∧
      isNew State.reset.audit.last 4000000 = true ∧ State.reset.audit.running = false ∧ hubHears State.reset = true ∧
      multipleAt (advance 0 { State.reset with tim := { State.reset.tim with offset := 5 } }) pgHub 4000000 = none := by decide +kernel
theorem test_wit_Initialisation :
    let s := mach [(pgBeam, .disabled), (pgHed 0, .resetting), (pgKey, .resetting)] []
    let u := updPart s (pgHed 0) fun x => { x with locked := false }
    let d := fun (s : State) => due (pgHed 0) 0 s
    runs s ∧ pst (d s) (pgHed 0) = .resetting ∧ (part (d s) (pgHed 0)).locked = true ∧ isHome s.inst pgKey = true ∧ isStamping pgKey = false ∧
      pst (due pgKey 0 s) pgKey = .resetting ∧ runs u ∧ pst (d u) (pgHed 0) = .resetting ∧ (part (d u) (pgHed 0)).locked = false ∧
      isStamping (pgHed 0) = true := by decide +kernel

-- the register port
theorem test_wit_Accesses :
    let u := fun p => due p 0 State.reset
    runs State.reset ∧ pageKind State.reset.inst pgBeam = some .beam ∧ writeHeard (u pgBeam) .beam pgBeam 0x78 0xFFFFFFFFFFFFFFFF = true ∧
      (regRow State.reset.inst .beam 0x78).any (fun r => r.grp == 0) = true ∧ readHeard (u pgBeam) .beam pgBeam 0x28 = true ∧
      readHeard (u (pgHed 4095)) (.hed 4095) (pgHed 4095) 0x20 = true ∧ writeHeard (u (pgLnk 0)) (.lnk 0) (pgLnk 0) 0x40 0 = true ∧
      readHeard (u (pgWit 1023)) (.wit 1023) (pgWit 1023) 0x48 = true := by decide +kernel
theorem test_wit_Other_unmapped :
    let s := State.reset
    runs s ∧ pageKind s.inst 0x70 = none ∧ (regRow s.inst .hub 0xFF8).isNone = true := by decide +kernel
theorem test_wit_Other_held :
    let s := mach [(pgHub, .enabled)] []
    let u := due pgHub 0 s
    runs s ∧ (regRow s.inst .hub 0x110).any (·.held) = true ∧ hubAnswers u pgHub 0x110 (writeAccess pgHub 0x110 0) = true ∧
      tdiForbids u .hub pgHub 0x110 0 = false ∧ pst u (homeOf s.inst .hub pgHub) ≠ .disabled ∧ fullWord pgHub 0x110 = false := by decide +kernel
theorem test_wit_Other_port :
    let s := mach [(pgReed 0, .failed), (pgHed 0, .enabled)] []
    let u := fun p => due p 0 s
    let v := fun (s : State) => settleSpans 32 0 (updHed 0 (fun x => { x with leaving := some (true, 2) }) (hedLeaves 0 (due (pgHed 0) 0 s)))
    let w := updHed 0 (fun x => { x with held := [heldGap] }) s
    runs s ∧ isHome s.inst (pgReed 0) = true ∧ hubAnswers (u (pgReed 0)) (pgReed 0) 0x18 (ctrlAccess (pgReed 0) 3 none) = true ∧
      pst (u (pgReed 0)) (pgReed 0) = .failed ∧ hubAnswers (u (pgHed 0)) (pgHed 0) 0x18 (ctrlAccess (pgHed 0) 3 none) = true ∧
      pst (u (pgHed 0)) (pgHed 0) = .enabled ∧ (hed (u (pgHed 0)) 0).leaving = none ∧ hedSettled (v s) 0 = true ∧ runs w ∧
      hedSettled (v w) 0 = false ∧ booting0.port.prstHeld = none ∧ booting0.port.held = none := by decide +kernel

-- time
theorem test_wit_BeamActions_step :
    let s := mach [] [(pgBeam, 0x78, 0xFFFFFFFFFFFFFFFF)] 100
    runs s ∧ mayManage s pgHub = true ∧ strapOk s = true ∧ s.tim.step = none ∧ s.stop.phase ≠ .armed ∧ actionHeard s pgHub 0x80 none = true ∧
      (0 : Int) ≤ ((16384 % two64 : Nat) : Int) + signed64 (regGet s pgBeam 0x78).toNat := by decide +kernel
theorem test_wit_BeamActions_set :
    let s := mach [] [(pgBeam, 0x80, 5)]
    runs s ∧ actionHeard s pgHub 0x81 none = true ∧ ((regGet s pgBeam 0x80).toNat : Int) + 8192 < two64 := by decide +kernel
theorem test_wit_BeamActions_rate :
    let s := mach [] [(pgBeam, 0x70, 0xF4143E00)]
    runs s ∧ actionHeard s pgHub 0x82 none = true ∧ s.servo.st = 0 ∧ signedN 32 (regFld s pgBeam 0x70 31 0) = -200000000 ∧
      actionHeard s pgHub 0x83 none = true ∧ s.tim.calRunning = false := by decide +kernel
theorem test_wit_TimeEvents_step :
    let s := { State.reset with tim := { State.reset.tim with step := some ⟨8192, 7, 0, 0⟩ } }
    runs s ∧ s.tim.step = some ⟨8192, 7, 0, 0⟩ ∧ 8192 ≤ newRaw 8192 s ∧ s.tim.holdover = false ∧ strapOk s = true := by decide +kernel
theorem test_wit_TimeEvents_return :
    let s := { State.reset with tim := { State.reset.tim with refOk := false, holdover := true } }
    runs s ∧ s.tim.refOk = false ∧ strapOk s = true := by decide +kernel
theorem test_wit_TimeEvents_serial :
    let s := mach [(pgHed 0, .resetting)] []
    let m : BitVec 192 := 1 + 5 * 2 ^ 64
    let good : BitVec 192 := m + BitVec.ofNat 192 ((serialCrc m).toNat * 2 ^ 16)
    runs s ∧ isHome s.inst (pgHed 0) = true ∧ isStamping (pgHed 0) = true ∧ pst s (pgHed 0) = .resetting ∧
      BitVec.ofNat 16 (fieldN good.toNat 31 16) = serialCrc good ∧ fieldN good.toNat 3 0 = 1 ∧
      BitVec.ofNat 16 (fieldN (good + 2 ^ 16).toNat 31 16) ≠ serialCrc (good + 2 ^ 16) := by decide +kernel
theorem test_wit_Calibration :
    let s := { State.reset with tim := { State.reset.tim with calRunning := true } }
    let u := { State.reset with cal := { State.reset.cal with queue := [(calKey 4 0, 1)] } }
    runs s ∧ s.tim.calRunning = true ∧ 0 < pointCount s ∧ readHeard s .cal pgCal 0x50 = true ∧
      calPresent s (regFld s pgCal 0x48 34 32) (regFld s pgCal 0x48 19 0) = true ∧ runs u ∧ writeHeard u .cal pgCal 0x50 1 = true ∧
      calPresent u (regFld u pgCal 0x48 34 32) (regFld u pgCal 0x48 19 0) = true ∧ u.tim.calRunning = false ∧ u.cal.queue = [(calKey 4 0, 1)] := by
  decide +kernel
theorem test_wit_Pins :
    let s := mach [] [(pgHub, 0x300 + 8 * 63, 0x8000000000000000)]
    let u := mapChannel 63 (advance 0 s)
    runs s ∧ 63 < s.inst.sensors ∧ bit (snsMap u 63) 63 = true ∧ bit (snsMap u 63) 62 = false ∧ bit (snsMap (mapChannel 0 (advance 0 s)) 0) 63 = false ∧
      sampleVal 0 400 * (fld (calGet s 3 63) 31 16 : Nat) + signedN 16 (fld (calGet s 3 63) 15 0) * 32768 = 400 * 32768 := by decide +kernel
-- the engine taps
def issue0 : Issue := ⟨1, false, 0, 3, 0, 7, 0, 0, 0, 0, 0, 0, ⟨0, 1⟩⟩
def ent0 : Ent := ⟨true, 15, .opened, issue0, true, false, false, false, 100, 100, false, false, 0, 0, 0, false, false, none⟩
def tapped (e : List Ent) (raw : Nat) : State :=
  updHed 0 (fun x => { x with ents := e }) (mach [(pgHed 0, .enabled), (pgReed 0, .enabled)] [(pgHed 0, 0x40, 0xFFFF), (pgHed 0, 0x60, 1)] raw)

theorem test_wit_Captures_issue :
    let s := tapped [] 200
    let u := hedFirst 0 (advance 0 s)
    let w := hedFirst 0 (advance 0 State.reset)
    runs s ∧ hedThere s.inst 0 = true ∧ hedActive u 0 = true ∧ ctxOn u 0 issue0.ctx.toNat = true ∧ issue0.mark = 0 ∧
      openEnt u 0 issue0.ctx issue0.tag = none ∧ freeEntNum u 0 true = some 0 ∧ runs State.reset ∧ hedActive w 0 = false := by decide +kernel
theorem test_wit_Captures_retire :
    let u := hedFirst 0 (advance 0 (tapped [ent0] 200))
    let w := hedFirst 0 (advance 0 (tapped [] 200))
    runs (tapped [ent0] 200) ∧ hedActive u 0 = true ∧ (openEnt u 0 0 7 == some ent0) = true ∧ openEnt w 0 0 7 = none ∧ ctxOn w 0 0 = true := by
  decide +kernel
theorem test_wit_Captures_accept :
    let s := tapped [{ ent0 with st := .retired, retire := 168, retireRaw := 168 }] 200
    let v := settleHed 0 (hedFirst 0 (advance 0 s))
    let w := tapped [ent0] 200
    runs s ∧ ((retiredEnts v 0).find? (fun e => spanReady v 0 e)).isSome = true ∧ runs w ∧
      (retiredEnts (settleHed 0 (hedFirst 0 (advance 0 w))) 0).isEmpty = true := by decide +kernel
theorem test_wit_Taps_samples :
    let s := updHedC 0 (fun x => { x with cards := [(0, ⟨0, 0, 0x0C60000000000000⟩)] }) (tapped [] 4096)
    let u := hedFirst 0 (advance 0 s)
    runs s ∧ (5 : BitVec 8) ≠ (hedC u 0).reason ∧ (1 : BitVec 2) ≠ (hed u 0).clkState ∧ clkEff 1 ≠ clkEff (hed u 0).clkState ∧ hedActive u 0 = true ∧
      lastInstant u 0 60 56 = some 4096 ∧ isNew (hedC u 0).lastCnt 4096 = true ∧ lastInstant u 0 55 51 = some 4096 ∧
      isNew (hedC u 0).lastStl 4096 = true := by decide +kernel
theorem test_wit_Taps_gap :
    let g : Gap := ⟨0, 0, false, false, 0, 1, false, false⟩
    let s := updHed 0 (fun x => { x with clkState := 2, gap := some g }) (tapped [] 0)
    let u := hedFirst 0 (advance 0xFFFFFFFF s)
    runs s ∧ (hed u 0).gap = some g ∧ (hed u 0).clkState ≠ 0 ∧ g.entryRaw + 0xFFFFFFFF ≤ u.tim.raw ∧ clkEff 3 = clkEff (hed u 0).clkState ∧
      (3 : BitVec 2) ≠ (hed u 0).clkState ∧ ctxOn u 0 0 = true := by decide +kernel

-- the witness
def qbeat0 : QBeat := ⟨0, 0, 7, 5, none, 0, true, 0, 10, 10, false, false⟩
/-- A card of one beat in each role, A in context 1, B in context 2 and C in context 0 of position 0; one of C alone; and one that fills
the staging. -/
def card0 : CheckCard := ⟨0x8000000000000000, 0x1000100010000, 0x4060500000000000, 0⟩
def cardC : CheckCard := { card0 with w2 := 0x100000000000 }
def cardBig : CheckCard := { cardC with w1 := 0xFFFF0001FFFF0000 }
def must (k : CheckCard) : CheckCard := { k with w0 := k.w0 + 0x1000000000000000 }
def check0 : Check := ⟨3, 0, 5, 7, card0, 0, 10, 10, 0, 10, [⟨[], false, 0⟩, ⟨[], false, 0⟩, ⟨[], false, 0⟩], false, false, false, none⟩
def witness (f : WitReed → WitReed) : State := fit (updWit 0 f (mach [(pgReed 0, .enabled), (pgHed 0, .enabled)] [] 20))

theorem test_wit_Witness_tile :
    let u := fun (c : Check) (b : QBeat) => witFlush 0 (advance 0 (witness fun x => { x with queue := [b], checks := [c] }))
    let opens := fun (c : Check) (s : State) => ((witReed s 0).checks.filter fun c => c.keyed 0 5 7 && c.gathering).find?
      (fun c => !(openRoles c.card c.roleDone 0 0).isEmpty) == some c
    let full := { check0 with roles := [⟨[], false, 0⟩, ⟨[], false, 0⟩, ⟨[(0, 1)], true, 0⟩] }
    runs (witness fun x => { x with queue := [{ qbeat0 with dead := true }] }) ∧ runs (witness fun x => { x with queue := [qbeat0], checks := [check0] }) ∧
      (witReed (u check0 qbeat0) 0).queue = [qbeat0] ∧ isWorking (u check0 qbeat0) (pgReed 0) = true ∧ opens check0 (u check0 qbeat0) = true ∧
      (roleBeat card0 2 qbeat0 ⟨[], false, 0⟩).1 = [] ∧ (roleBeat card0 2 { qbeat0 with lost := true } ⟨[], false, 0⟩).1 = [0x13] ∧
      opens { check0 with card := cardC } (u { check0 with card := cardC } qbeat0) = true ∧ cardC.roles = [2] ∧ card0.roles = [0, 1, 2] ∧
      opens full (u full qbeat0) = false ∧ full.card.roleAt 2 0 0 = true ∧ (witReed (u check0 qbeat0) 0).order = [] := by decide +kernel
theorem test_wit_Witness_form :
    let s := fun (k : CheckCard) (l : List Check) (ts : List Tomb) =>
      { witness (fun x => { x with queue := [qbeat0], checks := l, tombs := ts }) with cards := if k = CheckCard.zero then [] else [(5, k)] }
    let u := fun k l ts => witFlush 0 (advance 0 (s k l ts))
    let big := { check0 with tag := 8, card := cardBig }
    let serves := fun (k : CheckCard) (s : State) => (kslot s k.tenant).st == .active
    runs (s card0 [] []) ∧ (droppedTile (u card0 [] [⟨0, 5, 7, card0, [false, false, false], 1000⟩]) 0 0 0 0 5 7 == some 0) = true ∧
      droppedTile (u card0 [] []) 0 0 0 0 5 7 = none ∧ cardFor (u CheckCard.zero [] []) 0 0 5 = CheckCard.zero ∧ CheckCard.zero.valid = false ∧
      cardFor (u card0 [] []) 0 0 5 = card0 ∧ card0.valid = true ∧ openRoles card0 (fun _ => false) 0 0 = [2] ∧ card0.must = false ∧
      serves card0 (u card0 [] []) = false ∧ (must card0).must = true ∧ (must card0).valid = true ∧ (must cardC).must = true ∧
      stagingUsed (u (must card0) [] []) 0 = 0 ∧ (must card0).footprint ≤ stagingSize ∧ runs (s (must card0) [big] []) ∧
      stagingSize ≤ stagingUsed (u (must card0) [big] []) 0 ∧ 0 < (must card0).footprint := by decide +kernel
theorem test_wit_Witness_timeout :
    let s := witness fun x => { x with checks := [check0] }
    let dt := 2 ^ regFld s (pgReed 0) 0x60 4 0
    let u := witFlush 0 (advance dt s)
    runs s ∧ ((witReed u 0).checks.find? (fun c => c.id == 3) == some check0) = true ∧ check0.gathering = true ∧ check0.outcome = none ∧
      2 ^ regFld u (pgReed 0) 0x60 4 0 ≤ gatherTime u 0 check0 ∧ (witReed u 0).order = [] := by decide +kernel
theorem test_wit_Witness_slot :
    let s := { mach [(pgReed 1, .enabled)] [] with adopts := [(1, { Adopt.idle with phase := .serving })] }
    let u := witFlush 1 (advance 0 s)
    runs s ∧ servingReed u 0 = some 1 ∧ primaryReed u 0 ≠ 1 := by decide +kernel
theorem test_wit_Witness_share :
    let c := { check0 with complete := true, admitted := true }
    let s := witness fun x => { x with checks := [c], order := [3], started := true, busy := [(3, ⟨false, 8⟩)] }
    let u := witness fun x => { x with checks := [c], order := [3], started := true, busy := [(2, ⟨false, 8⟩), (3, ⟨false, 8⟩)] }
    runs s ∧ witThere s.inst 3 = true ∧ mfind (witReed s 0).busy 3 = some ⟨false, 8⟩ ∧ (witReed s 0).todo = [] ∧
      (witReed s 0).order.head? = some 3 ∧ ((witReed s 0).checks.find? (fun c => c.id == 3)).isSome = true ∧ mdel (witReed s 0).busy 3 = [] ∧
      runs u ∧ mdel (witReed u 0).busy 3 ≠ [] := by decide +kernel
theorem test_wit_Cards_map :
    let s := mach [(pgHed 0, .enabled)] [(pgHed 0, 0x400 + 0x20 * 31, 1), (pgHed 0, 0x408 + 0x20 * 31, 0xA000000000000000)]
    let u := due (pgHed 0) 0 s
    runs s ∧ writeHeard u (.hed 0) (pgHed 0) 0x118 0x5F = true ∧ writeHeard u (.hed 0) (pgHed 0) 0x120 0xDF00000000000000 = true ∧
      fieldN 0x5F 6 6 = 1 ∧ fieldN 0x5F 7 7 = 0 ∧ fieldN 0xDF 7 7 = 1 ∧ bit (regGet u (pgHed 0) (0x408 + 0x20 * 31)) 63 = true ∧
      fld (regGet u (pgHed 0) (0x408 + 0x20 * 31)) 62 61 = 1 := by decide +kernel
theorem test_wit_Cards_load :
    let s := State.reset
    let u := due (pgReed 255) 0 s
    runs s ∧ actionHeard u (pgReed 255) 0xB0 none = true ∧ tdiForbids u (.reed 255) (pgReed 255) 0x18 (ctrlWord 0xB0 none) = false ∧
      pst u (pgReed 255) = .disabled ∧ (cardBuf u 255).valid = false ∧ actionHeard u (pgReed 255) 0xB1 none = true := by decide +kernel
theorem test_wit_Beats :
    let s := fit (updWit 0 (fun x => { x with queue := [qbeat0] }) (tapped [{ ent0 with mirror := some 5 }] 200))
    let t := fit (updWit 0 (fun x => { x with tombs := [⟨0, 5, 7, cardC, [false, false, false], 1000⟩] }) (tapped [{ ent0 with mirror := some 5 }] 200))
    let u := fun s => hedFirst 0 (advance 0 s)
    runs s ∧ hedThere s.inst 0 = true ∧ hedActive (u s) 0 = true ∧ (openEnt (u s) 0 0 7).any (fun e => e.mirror == some 5) = true ∧
      servingReed (u s) 0 = some 0 ∧ mirrorReed (u s) 0 0 0 5 7 = 0 ∧ keyWaits (u s) 0 (primaryReed (u s) 0) 5 7 = true ∧
      ((witReed s 0).queue.filter fun x => !x.lost).length < 64 ∧ runs t ∧ keyWaits (u t) 0 (primaryReed (u t) 0) 5 7 = false ∧
      mirrorReed (u t) 0 0 0 5 7 = 0 ∧ droppedTile (u t) 0 0 0 0 5 7 = some 0 ∧ hedActive (hedFirst 0 (advance 0 State.reset)) 0 = false ∧
      (openEnt (u (tapped [ent0] 200)) 0 0 7).any (fun e => e.mirror == none) = true ∧ openEnt (u (tapped [] 200)) 0 0 7 = none := by
  decide +kernel

-- delivery
def rec0 : Rec := ⟨0, ⟨1, 0, 0, 0, 0⟩, 0, false⟩
def slot0 : Slot := ⟨0, some 0, 0, 1, 0, 0, true, .outstanding, 3⟩
def bob0 : Bob := { Bob.off with en := true, latched := true, cfg := 0x3000000, write := 1, window := [slot0] }
def outbox (b : Bob) (x : Strm) (tags : List (Nat × TagUse)) (raw : Nat) : State :=
  let s := mach [(pgReed 0, .enabled), (pgHed 0, .enabled)] [] raw
  fit { s with bobs := [(0, b)], strs := [(0, x)], wports := [(0, ⟨tags, [], 0⟩)] }

theorem test_wit_Completions_unknown :
    runs State.reset ∧ writerThere State.reset.inst 256 = true ∧ mfind (wport State.reset 256).tags 15 = none := by decide +kernel
theorem test_wit_Completions_known :
    let x : TagUse := ⟨.bob 0 0, 0, 0, false⟩
    let s := outbox bob0 ⟨1, [rec0], 0, 1, []⟩ [(15, x)] 200460
    let y : TagUse := ⟨.past 0 (some 0), 0, 0, false⟩
    let t := outbox { bob0 with window := [], past := [slot0] } ⟨1, [rec0], 0, 1, []⟩ [(15, y)] 0
    runs s ∧ mfind (wport s 0).tags 15 = some x ∧ portRecords s 0 = false ∧ beingScanned s 0 = false ∧
      (bob s 0).window.find? (fun e => e.idx == 0) = some slot0 ∧ slot0.st = .outstanding ∧ slot0.stream = some 0 ∧ x.issued + 200460 ≤ newRaw 0 s ∧
      runs t ∧ mfind (wport t 0).tags 15 = some y ∧ (bob t 0).past.find? (fun e => e.stream == some 0 && e.st == .outstanding) = some slot0 := by
  decide +kernel
theorem test_wit_Completions_release :
    let s := outbox { bob0 with window := [{ slot0 with st := .stored }] } ⟨1, [rec0], 1, 0, []⟩ [] 0
    let u := fun (s : State) => settleWriter ((bobWriter (advance 0 s) 0).getD 0) (advance 0 s)
    runs s ∧ bobThere s.inst 0 = true ∧ (releasing (u s) 0 == some { slot0 with st := .stored }) = true ∧ runs State.reset ∧
      releasing (u State.reset) 0 = none ∧ (adoptedBy s 0).phase = .idle := by decide +kernel
theorem test_wit_Completions_flush :
    let s := outbox bob0 ⟨1, [rec0], 0, 0, [⟨1, 1, 12, none⟩]⟩ [] 4096
    let u := settleWriter (strWriter (advance 0 s) 0) (advance 0 s)
    runs s ∧ (openRunRec (strm u 0) == some (rec0, ⟨1, 1, 12, none⟩)) = true ∧ rec0.accepted + 2 ^ 12 ≤ u.tim.raw := by decide +kernel
theorem test_wit_Bobbins_flush :
    let s := outbox bob0 ⟨1, [rec0], 0, 0, [⟨1, 1, 12, none⟩]⟩ [] 0
    let u := due (pgWriter 0) 0 s
    let h := mach [(pgHub, .enabled)] []
    runs s ∧ writerThere s.inst 0 = true ∧ actionHeard u (pgWriter 0) 0x90 none = true ∧ isEnabled u (pgWriter 0) = true ∧
      strBob (settleWriter 0 u) 0 ∈ writerBobs (settleWriter 0 u) 0 ∧
      (strm (settleWriter 0 u) 0).runs.getLast?.isSome = true ∧ runs h ∧
      actionHeard (due (pgWriter 256) 0 h) (pgWriter 256) 0xC0 none = true ∧ isEnabled (due (pgWriter 256) 0 h) (pgWriter 256) = true := by decide +kernel
theorem test_wit_Bobbins_enable :
    let s := mach [] [(pgReed 0, 0x800 + 0x40 * 7, 0x1000000), (pgReed 0, 0x800 + 0x40 * 7 + 16, 0x0110),
      (pgHub, 0xC00, 0x3000100), (pgHub, 0xC10, 0x4028)]
    let u := due (pgWriter 0) 0 s
    let v := due (pgWriter 256) 0 s
    runs s ∧ actionHeard u (pgWriter 0) (0x98 + 7) none = true ∧ mayManage u (pgWriter 0) = true ∧ bobAdopted u 7 = false ∧
      (bob u 7).en = false ∧ fld (regGet u (pgReed 0) (bobBase 7)) 26 24 = 1 ∧ fld (regGet u (pgReed 0) (bobBase 7 + 16)) 5 0 = 16 ∧
      fld (regGet u (pgReed 0) (bobBase 7 + 16)) 15 8 = 1 ∧ bit (regGet u (pgReed 0) (bobBase 7)) 15 = false ∧
      actionHeard v (pgWriter 256) 0xC8 none = true ∧ bit (regGet v pgHub (bobBase 2048)) 8 = true ∧
      fld (regGet v pgHub (bobBase 2048)) 26 24 = 3 ∧ fld (regGet v pgHub (bobBase 2048 + 16)) 5 0 = 40 ∧
      fld (regGet v pgHub (bobBase 2048 + 16)) 15 8 = 64 ∧ u.key.slots = [] ∧ actionHeard v (pgWriter 256) 0xD7 none = true := by decide +kernel
theorem test_wit_Bobbins_tail :
    let s := outbox { bob0 with head := 5, window := [] } Strm.empty [] 0
    let u := due (pgWriter 0) 0 s
    runs s ∧ writeHeard u (.reed 0) (pgWriter 0) 0x820 5 = true ∧ before32 (shownBob u 0).head 5 = false ∧ before32 5 (bob u 0).tail = false := by
  decide +kernel
theorem test_wit_Windows_start :
    let s := State.reset
    runs s ∧ (s.gov.k + 1) * govWindow s ≤ newRaw (govWindow s) s := by decide +kernel
theorem test_wit_Windows_issue :
    let s := outbox { bob0 with write := 0, window := [] } ⟨1, [rec0], 0, 0, [⟨1, 1, 12, some 0⟩]⟩ [] 0
    let u := settleWriter 0 (advance 0 s)
    runs s ∧ writerThere s.inst 0 = true ∧ portOpen u 0 = true ∧ freeTag u 0 = some 0 ∧ scanReady u 0 = none ∧
      (writerBobs u 0).all (fun b => (waitingSlot (bob u b)).isNone) = true ∧ (runsInOrder u 0).head? = some 0 ∧ strBob u 0 = 0 ∧
      (strm u 0).runs.length = 1 ∧ claimOk u 0 = true ∧ kindOk u 0 0 = true ∧ ringFull u 0 = false := by decide +kernel
theorem test_wit_Windows_hub :
    let s := fit (mach [(pgHub, .enabled)] [])
    let u := settleWriter 256 (advance 0 s)
    u.fw.bufOut = none ∧ snagReady u = false ∧ zeroReady u = none ∧ runs s := by decide +kernel
def adopter (a : Nat) (x : Adopt) (ps : List (Nat × PState)) : State := fit { mach ps [] with adopts := [(a, x)] }
theorem test_wit_ReHoming :
    let a := adopter 1 { Adopt.idle with phase := .waitPort, scanning := [0] } [(pgReed 1, .enabled)]
    let b := adopter 1 { Adopt.idle with phase := .scan } [(pgReed 1, .enabled)]
    let c := adopter 1 { Adopt.idle with phase := .serving, await := [(0, none)] } [(pgReed 1, .enabled)]
    let d := adopter 1 { Adopt.idle with phase := .returning } [(pgReed 0, .enabled), (pgReed 1, .enabled)]
    let e := adopter 256 { Adopt.idle with phase := .scan } []
    runs a ∧ writerThere a.inst 1 = true ∧ (adopt (advance 0 a) 1).phase = .waitPort ∧ portBusy (advance 0 a) (predReed a 1) = false ∧
      0 ∈ ownerBobs 0 ∧ 0 ∈ (adopt (advance 0 a) 1).scanning ∧
      runs b ∧ (adopt (advance 0 b) 1).phase = .scan ∧ (adopt (advance 0 b) 1).todo = [] ∧ b.rport = ⟨[], []⟩ ∧
      runs c ∧ (adopt (advance 0 c) 1).await.find? (fun e => e.1 == 0) = some (0, none) ∧
      runs d ∧ returnReady (advance 0 d) 1 = true ∧ runs e ∧ (adopt (advance 0 e) 256).phase = .scan := by decide +kernel
def reading (x : ReadUse) : State := { mach [] [] 200000 with rport := ⟨[(15, x)], []⟩ }
theorem test_wit_Reads :
    let x : ReadUse := ⟨.readback, 0, 0, [], false, false⟩
    let y : ReadUse := ⟨.readback, 0, 0, [0, 0, 0, 0, 0, 0, 0], false, false⟩
    let z : ReadUse := ⟨.dropped, 0, 0, [], false, true⟩
    runs State.reset ∧ mfind State.reset.rport.tags 15 = none ∧ runs (reading x) ∧ mfind (reading x).rport.tags 15 = some x ∧
      (0 : BitVec 3).toNat = x.beats.length ∧ (1 : BitVec 3).toNat ≠ x.beats.length ∧ runs (reading y) ∧ mfind (reading y).rport.tags 15 = some y ∧
      (7 : BitVec 3).toNat = y.beats.length ∧ runs (reading z) ∧ mfind (reading z).rport.tags 15 = some z ∧ x.asked + 200000 ≤ newRaw 0 (reading x) := by
  decide +kernel
def asked (e : Option (BitVec 3)) (d : Option (Option Block)) : State :=
  { State.reset with key := { State.reset.key with rb := ⟨[⟨1, 8⟩], e, d, none⟩ }, bobs := [(0, { bob0 with base := 0x1000, window := [] })] }
theorem test_wit_Readback :
    runs (asked (some 1) none) ∧ runs (asked none (some none)) ∧ runs (asked none (some (some 0))) ∧
      (rbPlace (advance 0 (asked none (some (some 0)))) 8).isSome = true := by decide +kernel
-- verdicts
theorem test_wit_Epochs_stale :
    let s := { mach [] [] (16384 * 20000) with ver := { State.reset.ver with own := { State.reset.ver.own with cleared := 0 } } }
    let u := { s with wits := [(0, { WitReed.zero with queue := [qbeat0] })] }
    runs State.reset ∧ runs u ∧ hubEvaluates (advance 0 u) = true ∧ (2 : Int) ^ 14 ≤ clearedBack (settleEpochs (advance 0 u)) ∧
      u.ver.own.tainted = false := by decide +kernel
theorem test_wit_Epochs_batch :
    let s := mach [(pgHub, .enabled)] [] 200000
    let c := fun (s : State) => settleEpochs (updVer (fun v => { v with lastBatch := some 200000 }) (advance 0 s))
    let t := { s with ver := { s.ver with own := { s.ver.own with lastClear := 7 } } }
    runs s ∧ lastMultiple (advance 0 s) pgHub 200000 = some 200000 ∧ isNew s.ver.lastBatch 200000 = true ∧ s.ver.queue = [] ∧ s.ver.owed = 0 ∧
      s.ver.eager = 0 ∧ runs t ∧ (c t).ver.own.cleared ≠ (c t).ver.own.lastClear ∧
      (let v := { s with ver := { s.ver with own := { s.ver.own with lastClear := (c s).ver.own.cleared } } }
       (c v).ver.own.cleared = (c v).ver.own.lastClear) := by decide +kernel
/-- A ledger with no room: every die tainted. -/
def fullLedger : List (Nat × LedEnt) := (List.range 4096).map fun i => (i + 2, ⟨0, 1, true, none, []⟩)
theorem test_wit_Epochs_receipt :
    let s := { State.reset with links := [(95, { Link.zero with toLedger := [⟨1, 2, 3⟩] })] }
    let u := { s with ver := { s.ver with led := [(1, ⟨0, 0, false, none, []⟩)] } }
    runs s ∧ linkThere s.inst 95 = true ∧ mfind s.ver.led 1 = none ∧ (ledgerAlloc 1 2 none s.ver.led).isSome = true ∧ pst s pgHub ≠ .resetting ∧
      runs u ∧ mfind u.ver.led 1 = some ⟨0, 0, false, none, []⟩ := by decide +kernel
theorem test_wit_Epochs_full : msorted fullLedger = true ∧ mfind fullLedger 1 = none ∧ ledgerAlloc 1 2 none fullLedger = none := by decide +kernel
theorem test_wit_Notices :
    let s := mach [(pgHub, .enabled)] [(pgSync, 0x50, 0x80000000)]
    let u := { s with ver := { s.ver with led := [(1, ⟨0, 0, false, none, []⟩)], blind := true } }
    runs u ∧ isEnabled u pgHub = true ∧ regBit u pgSync 0x50 31 = true ∧
      ([1, 2, 3, 4].all fun k => writeHeard u .hub pgHub 0x258 (noticeWord k 1 5)) = true ∧ (1 : BitVec 14).toNat ≠ ownDie u ∧
      mfind u.ver.led 1 = some ⟨0, 0, false, none, []⟩ ∧ mfind u.ver.led 2 = none ∧ (ledgerAlloc 2 5 none u.ver.led).isSome = true ∧
      ([1, 2, 3, 4].all fun k => writeHeard u .hub pgHub 0x258 (noticeWord k 0 1)) = true ∧
      (0 : BitVec 14).toNat = ownDie u ∧ after16 1 (epochNow (advance 0 u) + 1) = false ∧ after16 2 (epochNow (advance 0 u) + 1) = true ∧
      actionHeard u pgHub 0xE0 none = true ∧ u.ver.blind = true := by decide +kernel
def gated (g : Option Gate) (st : PState) (req : Bool) : State :=
  { mach [(pgHed 0, st)] [(pgHed 0, 0x168, 2)] 100000 with gates := [(0, ⟨req, false, 1, g⟩)] }
theorem test_wit_Gates :
    let g : Gate := ⟨0, 10, 10, 1, []⟩
    let u := fun s => hedFirst 0 (advance 0 s)
    let scope := fun (s : State) (c : Nat) => regFld (u s) (pgHed 0) 0x168 (3 * c + 2) (3 * c)
    let a := gated none .enabled true
    let b := gated (some g) .enabled true
    let c := gated (some g) .enabled false
    runs a ∧ (hedGate (u a) 0).gate = none ∧ isEnabled (u a) (pgHed 0) = true ∧ scope a 0 ≠ 0 ∧ scope a 1 = 0 ∧
      runs (gated none .disabled true) ∧ isEnabled (u (gated none .disabled true)) (pgHed 0) = false ∧ runs b ∧ (hedGate (u b) 0).gate = some g ∧
      hubEvaluates (u b) = true ∧ gateHolds (settleEpochs (u b)) g = true ∧ (hedGate (u b) 0).req ≠ (hedGate (u b) 0).ack ∧
      runs c ∧ (hedGate (u c) 0).gate = some g ∧ (hedGate (u c) 0).req = (hedGate (u c) 0).ack ∧ (hedGate (u c) 0).ctx = 1 := by decide +kernel
def manifest0 : Block := BitVec.ofNat 4096 (0xF31E + 2 ^ 16 + 2 ^ 24)
def testEnts0 : Block := BitVec.ofNat 4096 (1 * 256 ^ 12)
theorem test_wit_Tests_manifest :
    let ds : List (Nat × Option Block) := [(0, some manifest0), (1, some testEnts0)]
    let s := { State.reset with tests := { State.reset.tests with reading := some ds } }
    let u := { State.reset with tests := { State.reset.tests with reading := some [(0, some 0)] } }
    let w := fit (mach [(pgFw, .enabled)] [])
    runs s ∧ manifestBlocks ((ds.map (·.2)).head?.getD none) ≤ ds.length ∧ (manifest s (ds.map (·.2))).isSome = true ∧
      runs u ∧ manifestBlocks (some 0) ≤ 1 ∧ manifest u [some 0] = none ∧ runs w ∧ actionHeard w pgHub 0xE1 none = true ∧ isEnabled w pgFw = true := by
  decide +kernel
def testing (x : TestState) : State :=
  let s := mach [(pgFw, .enabled)] [] 4000
  fit { s with tests := { s.tests with ents := [⟨0, 1, 0, 0, 0, 0, 1⟩], states := [(0, x)] } }
theorem test_wit_Tests_deadline :
    let x : TestState := ⟨1, 0, 0, 0, 0, 0, false⟩
    runs (testing x) ∧ mfind (testing x).tests.states (0 * 4096 + 0) = some x ∧ fwRuns (testing x) = true ∧ x.fromRaw + 1 * 4000 ≤ newRaw 0 (testing x) ∧
      runs (testing { x with st := 2 }) ∧ x.entered + 1 * 4000 ≤ newRaw 0 (testing { x with st := 2 }) := by decide +kernel
theorem test_wit_Tests_next :
    let s := { State.reset with tests := { State.reset.tests with fifo := [(true, 63, 4095)] } }
    runs s ∧ readHeard s .hub pgHub 0x298 = true ∧ s.tests.fifo = [(true, 63, 4095)] ∧ State.reset.tests.fifo = [] ∧
      readHeard State.reset .hub pgHub 0x298 = true ∧ State.reset.ver.owed = 0 ∧ State.reset.ver.eager = 0 := by decide +kernel

-- the stop
def halted (p : StopPhase) (f : Stop → Stop) (ps : List (Nat × PState)) (ws : List (Nat × Nat × Word)) (raw : Nat) : State :=
  let s := mach ((pgHub, .enabled) :: ps) ws raw
  { s with stop := f { s.stop with phase := p } }
theorem test_wit_Stop_launch :
    let s := halted .idle id [] [(pgStop, 0x40, 3), (pgStop, 0x48, 80000)] 0
    runs s ∧ actionHeard s pgHub 0xF0 none = true ∧ isEnabled s pgHub = true ∧ s.stop.phase = .idle ∧ ctlPinIn (regGet s pgStop 0x40) = true ∧
      actionHeard s pgHub 0xF1 none = true ∧ strapOk s = true ∧ beam (advance 0 s) + 80000 ≤ (regGet s pgStop 0x48).toNat ∧
      actionHeard s pgHub 0xF2 none = true ∧ actionHeard s pgHub 0xF3 none = true ∧ ctlPinIn (regGet State.reset pgStop 0x40) = false := by
  decide +kernel
theorem test_wit_Stop_armed :
    let s := fun at_ guard => halted .armed (fun x => { x with armedAt := at_, guard := guard }) [] [(pgStop, 0x40, 3)] 80000
    runs (s 80000 0) ∧ actionHeard (s 80000 0) pgHub 0xF2 none = true ∧ (s 80000 0).stop.armedAt ≤ hubBeam (advance 0 (s 80000 0)) ∧
      runs (s 90000 0) ∧ actionHeard (s 90000 0) pgHub 0xF0 none = true ∧ isEnabled (s 90000 0) pgHub = true ∧
      hubBeam (advance 0 (s 90000 0)) + 0 < 90000 ∧ runs (s 90000 10000) ∧ ¬hubBeam (advance 0 (s 90000 10000)) + 10000 < 90000 ∧
      ctlPinIn (regGet (s 90000 0) pgStop 0x40) = true := by decide +kernel
theorem test_wit_Stop_later :
    let a := halted .cutting id [] [(pgStop, 0x40, 3)] 0
    let b := halted .snagging (fun x => { x with snagDone := true }) [] [] 0
    let c := halted .stopped id [] [] 0
    let d := halted .resuming id [] [] 0
    runs a ∧ cutReady (settleAll (advance 0 a)) = true ∧ ctlPinIn (regGet a pgStop 0x40) = true ∧ actionHeard a pgHub 0xF0 none = true ∧
      runs b ∧ b.stop.phase = .snagging ∧ b.stop.snagDone = true ∧ runs c ∧ isEnabled c pgHub = true ∧
      actionHeard c pgHub 0xF3 none = true ∧ c.stop.phase = .stopped ∧ runs d ∧ d.stop.phase = .resuming ∧ d.stop.resumeTodo = [] := by decide +kernel
theorem test_wit_Cut :
    let p := pgHed 0
    let a := halted .cutting (fun x => { x with cutTodo := [p, pgLnk 0] }) [(p, .enabled), (pgLnk 0, .enabled)] [(p, 0x60, 1)] 0
    let b := halted .armed (fun x => { x with armed := [p], armedAt := 5 }) [(p, .enabled)] [(p, 0x60, 1)] 5
    let c := halted .resuming (fun x => { x with resumeTodo := [p, pgLnk 0] }) [] [] 0
    let c := { c with hedStops := [(0, { HedStop.zero with line := true, learnt := true })] }
    let u := fun q s => due q 0 s
    runs a ∧ isHome a.inst p = true ∧ (u p a).stop.phase = .cutting ∧ p ∈ (u p a).stop.cutTodo ∧ (hedStop (u p a) 0).learnt = false ∧
      isEnabled (u p a) p = true ∧ pgLnk 0 ∈ (u (pgLnk 0) a).stop.cutTodo ∧ isEnabled (u (pgLnk 0) a) (pgLnk 0) = true ∧
      (link (u (pgLnk 0) a) 0).cut.grace = false ∧ (link (u (pgLnk 0) a) 0).cut.frozen = false ∧ runs b ∧ p ∈ (u p b).stop.armed ∧
      (u p b).stop.armedAt ≤ beamOf (u p b) p ∧ runs c ∧ (u p c).stop.phase = .resuming ∧ p ∈ (u p c).stop.resumeTodo ∧
      (hedStop (u p c) 0).line = true ∧ (hedStop (u p c) 0).scanning = false ∧ pgLnk 0 ∈ (u (pgLnk 0) c).stop.resumeTodo ∧
      isHome c.inst (pgLnk 0) = true := by decide +kernel
theorem test_wit_Grace :
    let s := halted .cutting (fun x => { x with tc := 0, ctl := 0xA00000 }) [(pgLnk 0, .enabled)] [] 1024
    let s := { s with links := [(0, { Link.zero with cut := { LinkCut.zero with grace := true } })] }
    let u := settleLnk 0 (advance 0 s)
    runs s ∧ linkThere s.inst 0 = true ∧ (link u 0).cut.grace = true ∧
      (link u 0).cut.tc + 2 ^ fld (actCtl u) 23 20 ≤ beamOf u (pgLnk 0) := by decide +kernel
def held (x : HedStop) (raw : Nat) : State :=
  { halted .cutting (fun y => { y with ctl := 0x10000004, scanBase := 0x200 }) [(pgHed 0, .enabled), (pgReed 0, .enabled)] [] raw with hedStops := [(0, x)] }
theorem test_wit_Holds :
    let x := { HedStop.zero with line := true, hold := 1, learnt := true, atCut := true }
    let y := { x with ack := true, hold := 2, scan := 6, wordAsked := some 0 }
    let z := { y with buf := List.replicate 119 1 }
    let o := { y with wordAsked := none, out := some ⟨0, false, 0, true, false⟩ }
    let u := fun (h : HedStop) => hedFirst 0 (advance 0 (held h 4000))
    let q := updReedGov 0 (fun g => { g with scanQ := 15 }) (held o 0)
    let v := settleWriter 0 (advance 0 q)
    runs (held x 4000) ∧ (hedStop (u x) 0).line = true ∧ (hedStop (u x) 0).ack = false ∧ (hedStop (u x) 0).hold = 1 ∧
      (hedStop (u x) 0).learntRaw + ctlHoldLimit (actCtl (u x)) ≤ (u x).tim.raw ∧ (hedStop (u x) 0).wordAsked = none ∧ runs (held y 4000) ∧
      (hedStop (u y) 0).scan = 6 ∧ hedSlot (u y) 0 = none ∧ (hedStop (u y) 0).wordAsked = some 0 ∧
      0 + ctlHoldLimit (u y).stop.ctl ≤ (u y).tim.raw ∧ runs (held z 4000) ∧ 120 ≤ (hedStop (u z) 0).buf.length + 1 ∧
      (hedStop (u y) 0).buf.length + 1 < 120 ∧ runs q ∧ reedThere q.inst 0 = true ∧ portOpen v 0 = true ∧ freeTag v 0 = some 0 ∧
      scanReady v 0 = some 0 ∧ scanFits v 0 = true ∧ hedSlot v 0 = none ∧ (hedStop v 0).out = some ⟨0, false, 0, true, false⟩ := by decide +kernel
theorem test_wit_Holds_withheld :
    let x := { HedStop.zero with line := true, hold := 2, learnt := true, atCut := true, scan := 6, wordAsked := some 0 }
    let s := updSlot 3 (fun k => { k with st := .fencing }) (regPut (held x 0) (pgHed 0) 0x180 0x43)
    let u := hedFirst 0 (advance 0 s)
    runs s ∧ (hedStop u 0).scan = 6 ∧ hedSlot u 0 = some 3 ∧ (kslot u 3).st ≠ .active := by decide +kernel

-- the Treadle
def treadle (n : Nat) (x : Src) (w : Word) (st : PState) (raw : Nat) : State :=
  let s := mach [(pgTrd, st)] [(10 + n / 504, 0x40 + 8 * (n % 504), w), (9, 0x40 + 0x18 * (n / 64), BitVec.ofNat 64 (2 ^ (n % 64))), (pgTrd, 0x120, 1)] raw
  { s with trd := { s.trd with srcs := if x = Src.idle then [] else [(n, x)] } }
theorem test_wit_Sources_edge :
    let a := treadle 2040 Src.idle 0 .enabled 0
    let b := treadle 2040 { Src.idle with runRaw := some (0, 0) } 0xFF0000000000 .enabled 1
    let c := treadle 100 Src.idle 0x4000000000000 .disabled 0
    runs a ∧ inputThere 2040 = true ∧ (trdSrc a 2040).input ≠ true ∧ trdOn a = true ∧ srcSense a 2040 ≤ 1 ∧ (trdSrc a 2040).runRaw = none ∧
      runs b ∧ (trdSrc b 2040).runRaw = some (0, 0) ∧ (trdSrc b 2040).wake = none ∧ newRaw 0 b < 0 + srcFilter b 2040 ∧ runs c ∧
      trdOn c = false ∧ pst c pgTrd = .disabled ∧ (trdSrc c 100).latch = none ∧ srcSense c 100 = 1 ∧ srcActiveLevel c 100 true = true := by decide +kernel
theorem test_wit_Sources_accept :
    let x := { Src.idle with input := true, runRaw := some (0, 0) }
    let a := treadle 100 x 0x4000000000000 .enabled 0
    let b := treadle 100 { x with input := false, level := true, pend := true } 0x4000000000000 .enabled 0
    let c := treadle 100 x 0x10000000 .enabled 0
    runs a ∧ trdOn a = true ∧ srcSense a 100 = 1 ∧ srcActiveLevel a 100 true = true ∧ 0 + srcFilter a 100 ≤ newRaw 0 a ∧ runs b ∧
      srcActiveLevel b 100 false = false ∧ runs c ∧ srcSense c 100 = 0 ∧ fld (srcWord c 100) 35 28 ≤ (trdSrc c 100).unrep + 1 := by decide +kernel
theorem test_wit_Sources_events :
    let a := treadle 61 { Src.idle with pend := true } 0x10000000 .enabled 0
    let b := treadle 61 Src.idle 0x10000000 .enabled 0
    let c := treadle 61 Src.idle 0x20000000 .enabled 0
    let d := treadle 61 { Src.idle with unrep := 1 } 0x20001000 .enabled 4000
    let v := advance 0 d
    let e := treadle 61 { Src.idle with latch := some 9 } 0x10000000 .enabled 0
    let e := { e with trd := { e.trd with doze := true } }
    runs a ∧ falcenSources.contains 61 = true ∧ (trdSrc a 61).pend = true ∧ runs b ∧ fld (srcWord b 61) 35 28 ≤ (trdSrc b 61).unrep + 1 ∧ runs c ∧
      (trdSrc c 61).unrep + 1 < fld (srcWord c 61) 35 28 ∧ runs d ∧ sourceThere 61 = true ∧ 0 < (trdSrc d 61).unrep ∧
      (trdSrc d 61).pend = false ∧ (trdSrc d 61).first + 4000 * fld (srcWord d 61) 27 12 ≤ beamOf v pgTrd ∧ runs e ∧ (trdSrc e 61).latch = some 9 ∧ e.trd.doze = true ∧
      srcEnabled e 61 = true ∧ runs (treadle 61 Src.idle 0 .disabled 0) := by decide +kernel
theorem test_wit_Treadle_doorbell :
    let s := treadle 2040 { Src.idle with pend := true } 0x8000010000000 .enabled 0
    runs s ∧ writeHeard s (.trd 0) pgTrd 0x50 2040 = true ∧ isEnabled s pgTrd = true ∧ srcSense s 2040 = 2 ∧ (trdSrc s 2040).pend = true ∧
      fld (srcWord s 2040) 35 28 ≤ (trdSrc s 2040).unrep + 1 ∧ writeHeard s (.trd 0) pgTrd 0x50 99 = true := by decide +kernel
theorem test_wit_Treadle_claim :
    let s := treadle 2040 { Src.idle with pend := true } 0x8000000010000000 .enabled 0
    let u := { s with trd := { s.trd with tgts := [(15, { Tgt.idle with offered := true })] } }
    runs u ∧ readHeard u (.trd 0) pgTrd (0x100 + 0x40 * 0) = true ∧ trdOn u = true ∧ mostUrgent (advance 0 u) (claimable (advance 0 u) 0) = some 2040 ∧
      readHeard u (.trd 0) pgTrd (0x100 + 0x40 * 15) = true ∧ mostUrgent (advance 0 u) (claimable (advance 0 u) 15) = none ∧
      (trdTgt u 15).offered = true ∧ (trdTgt u 1).offered = false ∧ writeHeard u (.trd 0) pgTrd 0x58 1 = true ∧ claimable (advance 0 u) 0 ≠ [] := by
  decide +kernel
theorem test_wit_Treadle_complete :
    let s := treadle 2040 { Src.idle with active := true } 0 .enabled 0
    let u := { s with trd := { s.trd with tgts := [(15, { Tgt.idle with stack := [(2040, 1)] })] } }
    runs u ∧ writeHeard u (.trd 0) pgTrd (0x108 + 0x40 * 15) 2040 = true ∧ (trdTgt u 15).stack = [(fld 2040 10 0, 1)] ∧
      writeHeard u (.trd 1) 9 (0x408 + 0x18 * 31) 1 = true ∧ writeHeard u (.trd 1) 9 (0x410 + 0x18 * 31) 1 = true ∧
      (List.range 16).all (fun t => claimable (advance 0 u) t == []) = true ∧ writeHeard u (.trd 0) pgTrd 0x58 1 = true := by decide +kernel
-- link ports and time
def linked (x : Link) (y : LinkTime) (ws : List (Nat × Nat × Word)) (raw : Nat) : State :=
  let s := mach [(pgLnk 0, .enabled)] ((pgLnk 0, 0x40, 0xC000000000000000) :: ws) raw
  { s with links := if x = Link.zero then [] else [(0, x)], linkTimes := if y = LinkTime.zero then [] else [(0, y)] }
def thread0 : Thread := ⟨1, 0, 0, false, false, 1, 0, 0, 0, 0, [], true, false, false⟩
theorem test_wit_Links_state :
    let a := linked Link.zero LinkTime.zero [] 0
    let b := linked { Link.zero with topo := 1, absentFrom := some 0, absentMs := 1 } LinkTime.zero [] 4000000
    let c := linked { Link.zero with freeze := 2, seq := some 0 } LinkTime.zero [] 0
    let d := linked { Link.zero with lp := 2, topo := 3 } LinkTime.zero [] 0
    let u := fun s => settleLnk 0 (advance 0 s)
    runs a ∧ linkThere a.inst 0 = true ∧ (2 : BitVec 2) ≠ (link (u a) 0).lp ∧ seqLost (link (u a) 0).seq 3 = 0 ∧ isEnabled (u a) (pgLnk 0) = true ∧
      planned (u a) 0 = true ∧ (link (u a) 0).freeze = 0 ∧ (link (u a) 0).cut.grace = false ∧ runs b ∧ (link (u b) 0).absentFrom = some 0 ∧
      (link (u b) 0).topo = 1 ∧ 0 + (link (u b) 0).absentMs * 4000000 ≤ (u b).tim.raw ∧ runs c ∧ seqLost (link (u c) 0).seq 1 = 0 ∧
      (link (u c) 0).freeze = 2 ∧ actionHeard (u c) (pgLnk 0) 0x80 none = true ∧ runs d ∧ (link (u d) 0).topo = 3 ∧ (0 : BitVec 2) ≠ (link (u d) 0).lp := by
  decide +kernel
theorem test_wit_Links_lists :
    let a := linked { Link.zero with lp := 1, threads := [thread0] } LinkTime.zero [] 262140000
    let b := linked { Link.zero with lp := 1, threads := [{ thread0 with buf := List.replicate 4096 (0, 0) }] } LinkTime.zero [] 0
    let c := linked { Link.zero with lp := 1, threads := [{ thread0 with buf := [(1, 2)] }] } LinkTime.zero [] 64
    let u := fun s => settleLnk 0 (advance 0 s)
    let v := advance 0 c
    runs a ∧ pst (u a) (pgLnk 0) = .enabled ∧ planned (u a) 0 = true ∧ (link (u a) 0).lp ≠ 2 ∧ (link (u a) 0).threads = [thread0] ∧
      listBuffered (link (u a) 0) < 4096 ∧ (openThread (link (u a) 0)).isSome = true ∧
      thread0.tdRaw + regFld (u a) (pgLnk 0) 0x48 47 32 * 4000 ≤ (u a).tim.raw ∧ runs b ∧ 4096 ≤ listBuffered (link (u b) 0) ∧ runs c ∧
      (link v 0).held = [] ∧ lnkReady v 0 thread0.td (thread0.tdRaw + waitHed) = true ∧ hasRoom v (strLnk 0) = true ∧ fencedBob v (strLnk 0) = none := by
  decide +kernel
def up2 : Link := { Link.zero with lp := 2, topo := 3 }
def follow0 : Follow := readFollow State.reset (BitVec.ofNat 512 (3 * 2 ^ 64))
theorem test_wit_Frames_sent :
    let a := linked up2 { LinkTime.zero with ver := 1, good := 4 } [(pgSync, 0x40, 4)] 65536
    let b := linked up2 { LinkTime.zero with ver := 1, good := 4, reply := some (3, some 70), sent := [⟨5, 3⟩] } [] 0
    let c := linked up2 { LinkTime.zero with ver := 1, good := 4, fwd := some (96, 3, some 70) } [] 0
    let d := linked up2 { LinkTime.zero with ver := 3, good := 4, fwd := some (1, 3, some 70) } [] 0
    let d := { d with linkTimes := d.linkTimes ++ [(1, { LinkTime.zero with ver := 3, follow := some follow0, syncIn := some (3, 5, 0) })],
                      servo := { d.servo with parent := some 1 } }
    let u := fun s => advance 0 s
    runs a ∧ timeUp a 0 = true ∧ intervalIdx (u a) (beamOf (u a) (pgLnk 0)) ≠ (linkTime a 0).helloIdx ∧ portState a 0 = 5 ∧
      halfIdx (u a) (beamOf (u a) (pgLnk 0)) ≠ (linkTime a 0).pdIdx ∧ isRoot a = true ∧
      intervalIdx (u a) (hubBeam (u a)) ≠ a.servo.rootIdx ∧ runs b ∧ timeUp b 0 = true ∧ (linkTime b 0).ver ≠ 0 ∧
      (linkTime b 0).reply = some (3, some 70) ∧ (linkTime b 0).sent = [⟨5, 3⟩] ∧ runs c ∧ (linkTime c 0).fwd = some (96, 3, some 70) ∧
      portState c 0 = 5 ∧ runs d ∧ (linkTime d 0).fwd = some (1, 3, some 70) ∧ portState d 0 = 5 ∧ (linkTime d 1).follow = some follow0 ∧
      (linkTime d 1).syncIn = some (3, 5, 0) ∧ follow0.seq = 3 ∧ d.servo.parent = some 1 ∧ follow0.hops + 1 ≤ 254 := by decide +kernel
theorem test_wit_Frames_stamped :
    let a := linked up2 { LinkTime.zero with ver := 1, pdSeq := 3, pdRaw := some 0, sent := [⟨4, 3⟩] } [] 65536
    let b := linked up2 { LinkTime.zero with ver := 1, fwd := some (1, 3, none), sent := [⟨2, 3⟩] } [] 0
    runs a ∧ (linkTime a 0).sent = [⟨4, 3⟩] ∧ (4 : Nat) = 4 ∧ (3 : BitVec 16) = (linkTime a 0).pdSeq ∧ (linkTime a 0).pdRaw = some 0 ∧
      0 + interval' a ≤ newRaw (interval' a - 65536) a ∧ runs b ∧
      (linkTime b 0).fwd = some (1, 3, none) ∧ (linkTime b 0).sent = [⟨2, 3⟩] ∧ (linkTime b 1).syncIn = none ∧
      (linkTime b 1).follow.map (·.seq) ≠ some 3 := by decide +kernel
def frame (kind ver : Nat) (fields : List (Nat × Nat × Nat)) : Beat := mkFrame State.reset 0 kind ver 0 3 0 fields
theorem test_wit_Frames_taken :
    let y := { LinkTime.zero with ver := 1, verMax := 1, good := 4, rx := [70] }
    let a := linked up2 y [] 0
    let b := linked up2 { y with pdSeq := 3, pdRaw := some 0, t1 := some 0, t2 := some 0, t4 := some 0 } [] 0
    let c := linked up2 { y with ver := 3, verMax := 3, agreed := some 3, last := some (1, 2) } [] 0
    let d := linked up2 { y with syncIn := some (3, 70, 0) } [] 0
    let d := { d with servo := { d.servo with st := 3, ctl := 1 } }
    runs a ∧ linkThere a.inst 0 = true ∧ isEnabled a (pgLnk 0) = true ∧ planned a 0 = true ∧ (link a 0).lp = 2 ∧ (link a 0).topo = 3 ∧
      (linkTime a 0).rx = [70] ∧ (linkTime a 0).noCommon = false ∧ (linkTime a 0).agreed ≠ some 1 ∧ runs b ∧ (linkTime b 0).pdRaw = some 0 ∧
      newRaw 0 b < 0 + interval' b ∧ (linkTime b 0).pdSeq.toNat = 3 ∧ runs c ∧ (linkTime c 0).agreed = some 3 ∧ (linkTime c 0).last = some (1, 2) ∧
      planned (mach [(pgLnk 0, .enabled)] []) 0 = false ∧ runs d ∧ (linkTime d 0).syncIn = some (3, 70, 0) ∧ srcOf d.servo.ctl = 1 := by decide +kernel
/-- A FOLLOW from a neighbour makes it the parent where it is the one candidate. -/
theorem test_wit_Frames_parent :
    let a := linked up2 { LinkTime.zero with ver := 1, verMax := 1, good := 4, rx := [70] } [] 0
    let y := readFollow a 0
    let v0 := freshNews y (updTime 0 (fun z => { z with follow := some y }) (updTime 0 (fun z => { z with rx := z.rx.drop 1 }) (advance 0 a)))
    isRoot a = false ∧ (candidates v0).map (·.1) = [0] ∧ (reparent v0).servo.parent = some 0 ∧ candidates (advance 0 a) = [] := by decide +kernel
set_option maxRecDepth 20000 in
theorem test_wit_Frames_crc :
    ([1, 2, 3, 4, 5, 6, 7].all fun k => BitVec.ofNat 32 (fby (frame k 1 []) 60 4) == frameCrc (frame k 1 []) && fby (frame k 1 []) 0 1 == k &&
      fby (frame k 1 []) 1 1 == 1 && fby (frame k 1 []) 8 2 == 3 && !(readFollow State.reset (frame k 1 [])).flags.getLsbD 0) = true := by
  decide +kernel
set_option maxRecDepth 20000 in
theorem test_wit_Frames_badCrc : BitVec.ofNat 32 (fby 1 60 4) ≠ frameCrc 1 := by decide +kernel
theorem test_wit_Servo :
    let a := mach [] [(pgSync, 0x40, 4), (pgSync, 0x50, 0x80000000)]
    let b := mach [] [(pgSync, 0x40, 1), (pgSync, 0x50, 0x80010000)]
    let c := { b with servo := { b.servo with st := 3, ctl := 1 } }
    let d := mach [(pgSync, .enabled)] [(pgSync, 0x40, 2), (pgSync, 0x50, 0x80010000)]
    runs a ∧ actionHeard a pgHub 0x84 none = true ∧ mayManage a pgHub = true ∧ a.servo.st = 0 ∧ strapOk a = true ∧ startConfigBad a = false ∧
      bit (regGet a pgSync 0x40) 2 = true ∧ srcOf (regGet a pgSync 0x40) = 0 ∧ a.tim.holdover = false ∧ runs b ∧ startConfigBad b = false ∧
      srcOf (regGet b pgSync 0x40) = 1 ∧ runs c ∧ actionHeard c pgHub 0x85 none = true ∧ actionHeard c pgHub 0x86 none = true ∧ c.servo.st ≠ 0 ∧
      freeRoot c = false ∧ isRoot c = false ∧ c.servo.rootLost = false ∧ srcOf c.servo.ctl = 1 ∧ newRaw 0 c < c.servo.freshRaw + 3 * rootInterval c ∧
      c.servo.freshRaw + 3 * rootInterval c ≤ newRaw (3 * rootInterval c) c ∧ startConfigBad d = false ∧ srcOf (regGet d pgSync 0x40) = 2 := by
  decide +kernel
/-- A servo in a state, latched with LOCK_BT and UNLOCK_BT 1, at its second instant. -/
def served (f : Servo → Servo) : State :=
  let s := mach [(pgHub, .enabled)] [] 8000
  { s with servo := f { s.servo with lock := 0x10001, lastAt := some 4000 } }
theorem test_wit_Measurements :
    let live := fun (s : State) => s.servo.st ≠ 0 ∧ s.servo.st ≠ 5 ∧ freeRoot s = false ∧ pst s pgHub ≠ .resetting ∧ pst s pgHub ≠ .failed
    let above := fun (k : Nat) (a : Q) => k * a.d < a.n.natAbs
    let sv := fun n => served fun v => { v with st := n }
    live (sv 1) ∧ live (sv 2) ∧ live (sv 3) ∧ live (sv 4) ∧ (sv 1).servo.got.length ≠ 7 ∧ above (4 * unlockBt (sv 4)) ⟨5, 1⟩ ∧ (sv 4).servo.aside < 2 ∧
      ¬above (4 * unlockBt (sv 4)) ⟨3, 1⟩ ∧ above (unlockBt (sv 4)) ⟨3, 1⟩ ∧ ¬above (lockBt (sv 3)) ⟨1, 2⟩ ∧ above (lockBt (sv 3)) ⟨3, 1⟩ ∧
      (sv 3).servo.lastAt = some 4000 ∧ 4000 < hubBeam (sv 3) ∧ (sv 2).tim.step = none ∧ (sv 2).stop.phase ≠ .armed ∧ strapOk (sv 2) = true := by decide +kernel
theorem test_wit_Measurements_acquired :
    let s := served fun v => { v with st := 1, got := (List.range 7).map fun i => ((⟨9, 1⟩ : Q), 1000 * i) }
    let m := Q.mean ((s.servo.got ++ [((⟨9, 1⟩ : Q), hubBeam s)]).map (·.1))
    s.servo.got.length = 7 ∧ s.servo.acqDone = false ∧ unlockBt s * m.d < m.n.natAbs := by decide +kernel
def clock (e : Eth → Eth) : State := let s := mach [(pgSync, .enabled)] [] 4000000; { s with eth := e s.eth }
def hdr0 : PtpHdr := ⟨64, 0, 3, true, true, 0, 5, 1, 0⟩
theorem test_wit_Clock :
    let a := clock fun e => { e with sel := some (5, 1), sync := some ⟨3, true, 0, none, none, 0⟩ }
    let b := clock fun e => { e with sel := some (5, 1), drSeq := 3, drRaw := some 0, t3 := some 7, ms := some 8 }
    let b := { b with servo := { b.servo with ctl := 2 } }
    let c := clock fun e => { e with sel := some (5, 1), ts := [⟨false, 0, 0, 3, 9, 0⟩] }
    runs a ∧ a.inst.eth = true ∧ isEnabled a pgSync = true ∧ (0 : BitVec 8).toNat = regFld a pgSync 0x58 7 0 ∧ fromMaster a hdr0 = true ∧
      a.eth.sync = some ⟨3, true, 0, none, none, 0⟩ ∧ newRaw 0 a ≤ 0 + 4000000 ∧ runs b ∧ fromMaster b hdr0 = true ∧ b.eth.drRaw = some 0 ∧
      hdr0.seqId = b.eth.drSeq ∧ b.eth.t3 = some 7 ∧ b.eth.ms = some 8 ∧ srcOf b.servo.ctl = 2 ∧ runs c ∧ takeRxTs (advance 0 c) 0 3 = some 9 ∧
      fromMaster c { hdr0 with srcClock := 6 } = false ∧ hdr0.ptpTimescale = true ∧ c.eth.sel.isSome = true := by decide +kernel

-- tenants
def slotted (f : KSlot → KSlot) (ws : List (Nat × Nat × Word)) (raw : Nat) : State :=
  let s := mach [(pgKey, .enabled)] ws raw
  updSlot 63 f { s with key := { s.key with tdi := 2, seed := [(0, 1), (1, 2), (2, 3), (3, 4)] } }
def gen0 : Gen := ⟨1, 0, 5, 7, 0, 0⟩
theorem test_wit_Slots_actions :
    let arg : List (Nat × Nat × Word) := [(pgKey, 0x48, 0x50000003F)]
    let a := slotted id arg 0
    let b := slotted (fun k => { k with st := .active, tenant := 5, gens := [gen0] }) arg 0
    let c := slotted (fun k => { k with st := .erased, tenant := 5, scrubbed := true, scanHold := [1] }) arg 0
    runs a ∧ isEnabled a pgKey = true ∧ actionHeard a pgKey 0x80 none = true ∧ a.key.tdi = 2 ∧ BitVec.ofNat 32 (regFld a pgKey 0x48 63 32) ≠ 0 ∧
      argSlot a = 63 ∧ (kslot a 63).st = .free ∧ (seedOf a).isSome = true ∧ runs b ∧ actionHeard b pgKey 0x81 none = true ∧ (kslot b 63).st = .active ∧
      (kslot b 63).gens = [gen0] ∧ actionHeard b pgKey 0x82 none = true ∧ runs c ∧ actionHeard c pgKey 0x83 none = true ∧ (kslot c 63).st = .erased ∧
      (kslot c 63).scrubbed = true ∧ actionHeard c pgKey 0x84 none = true ∧ (kslot c 63).scanHold ≠ [] ∧ seedOf (mach [(pgKey, .enabled)] []) = none := by decide +kernel
theorem test_wit_Slots_events :
    let a := slotted (fun k => { k with st := .active, tenant := 5, gens := [{ gen0 with g := 2 }, gen0] }) [] 0
    let b := slotted (fun k => { k with st := .fencing, tenant := 5 }) [] 0
    let c := slotted (fun k => { k with st := .draining, tenant := 5 }) [] 200000
    let d := { c with bobs := [(0, { bob0 with fault := true, cfg := 0x303F8000, window := [] })] }
    let e := fit (slotted (fun k => { k with st := .erased, tenant := 5 }) [] 0)
    let e := fit { e with parts := mset (partDflt e) e.parts pgFw { Part.quiet with st := .enabled } }
    runs a ∧ retireReady (advance 0 a) 63 gen0.g = true ∧ runs b ∧ fenced (advance 0 b) 63 = true ∧ runs c ∧ slotDrained (advance 0 c) 63 = true ∧
      (kslot c 63).drainRaw + 200000 ≤ newRaw 0 c ∧ (kslot c 63).overdue = false ∧ runs d ∧ (bob d 0).fault = true ∧ runs e ∧ fwRuns e = true ∧
      (kslot e 63).st = .erased ∧ (kslot e 63).scrubbed = false ∧ (kslot e 63).zeroed = scrubRing e (kslot e 63) ∧
      (kslot e 63).scanZeroed = scrubScan (kslot e 63) ∧ (kslot a 63).live = true := by decide +kernel
theorem test_wit_Slots_overdue :
    let c := slotted (fun k => { k with st := .draining, tenant := 5 }) [] 200000
    let d := { c with bobs := [(0, { bob0 with fault := true, cfg := 0x33F8000, window := [] })] }
    runs d ∧ 0 ∈ slotBobs d 63 ∧ (bob d 0).fault = true := by decide +kernel

-- the management core
def core0 (f : Fw → Fw) (st : PState) (ws : List (Nat × Nat × Word)) (raw : Nat) : State :=
  let s := mach [(pgFw, st)] ws raw
  fit { s with fw := f s.fw }
theorem test_wit_Core_load :
    let l : Loader := ⟨0, 1, none, [], 0, true⟩
    let a := core0 id .disabled [(pgFw, 0x40, 0x200)] 0
    let b := core0 (fun f => { f with loader := some l }) .disabled [] 0
    let c := core0 id .enabled [(pgFw, 0x50, 0x200)] 0
    let d := core0 (fun f => { f with phase := 1, loader := some { l with kind := 1 } }) .enabled [] 0
    let e := core0 (fun f => { f with phase := 2 }) .enabled [] 0
    let g := core0 id .quiescing [] 0
    runs a ∧ actionHeard a pgFw 0x80 none = true ∧ pst a pgFw = .disabled ∧ regFld a pgFw 0x40 56 9 ≠ 0 ∧ runs b ∧ loadCode b l = some 1 ∧ runs c ∧
      actionHeard c pgFw 0x81 none = true ∧ isEnabled c pgFw = true ∧ c.fw.phase = 0 ∧ regFld c pgFw 0x50 56 9 ≠ 0 ∧ runs d ∧
      loadCode d { l with kind := 1 } = some 1 ∧ runs e ∧ fwGoing e = true ∧ e.fw.phase = 2 ∧ pst e pgFw ≠ .quiescing ∧ runs g ∧ fwGoing g = true ∧
      pst g pgFw = .quiescing := by decide +kernel
theorem test_wit_Core_handover :
    let a := core0 (fun f => { f with phase := 2 }) .enabled [(pgFw, 0x60, 0x10000)] 4000
    let b := core0 (fun f => { f with phase := 3, loader := some ⟨2, 1, none, [], 0, true⟩ }) .enabled [] 0
    let c := core0 (fun f => { f with phase := 4 }) .enabled [] 4000000
    runs a ∧ a.fw.phase = 2 ∧ a.fw.phaseRaw + handoverUs a * 4000 ≤ newRaw 0 a ∧ runs b ∧ isEnabled b pgFw = true ∧ pst b pgHub ≠ .resetting ∧
      b.fw.phase = 3 ∧ reloadResult b = some false ∧ runs c ∧ c.fw.phase = 4 ∧ c.fw.phaseRaw + 4000000 ≤ newRaw 0 c := by decide +kernel
def notice0 : Notice := .notice 1 0 0 0 0 0 0 0 0 0
theorem test_wit_Core_emits :
    let a := core0 id .enabled [] 4000000000
    let q := fun (s : State) => fit { s with ver := { s.ver with queue := [notice0] } }
    let b := q (core0 id .enabled [] 0)
    let c := q (core0 id .disabled [(pgFw, 0x78, 1)] 0)
    let d := updSlot 63 (fun k => { k with st := .erased }) (core0 id .disabled [(pgFw, 0x78, 0x3F0000)] 0)
    let full := fit { core0 id .enabled [] 0 with strs := [(strMc, ⟨64, List.replicate 64 rec0, 0, 0, []⟩)] }
    let free := fun (s : State) => s.ver.eager = 0 ∧ s.ver.owed = 0 ∧ s.ver.hold = none ∧ s.ver.waiting = [] ∧ fencedBob (advance 0 s) strMc = none
    runs a ∧ watchdogOut (advance 0 a) = true ∧ fwGoing a = true ∧ runs b ∧ fwOwner b = 0 ∧ b.ver.queue = [notice0] ∧ free b ∧
      hasRoom (advance 0 b) strMc = true ∧ (readyNotice false notice0 (advance 0 b)).isSome = true ∧ runs c ∧ fwOwner c = 1 ∧
      actionHeard c pgFw 0x82 none = true ∧ regFld c pgFw 0x78 10 0 = 1 ∧ free c ∧
      hasRoom (advance 0 c) strMc = true ∧ runs d ∧ fwOwner d = 1 ∧ d.ver.queue = [] ∧ free d ∧ actionHeard d pgFw 0x82 none = true ∧
      actionHeard d pgFw 0x83 none = true ∧ (kslot d 63).st = .erased ∧ (kslot d 63).scrubbed = false ∧ runs full ∧ fwOwner full = 0 ∧
      hasRoom (advance 0 full) strMc = false ∧ b.fw.bufStatus ≠ 0 := by decide +kernel
/-- The stream of notices routed to the bobbin of a slot that fences. -/
theorem test_wit_Core_fenced :
    let b := core0 id .enabled [] 0
    let b := updSlot 3 (fun k => { k with st := .fencing }) (fit { b with ver := { b.ver with queue := [notice0] }, bobs := [(2048, { bob0 with cfg := 0x3038000 })] })
    runs b ∧ fwOwner b = 0 ∧ strBob (advance 0 b) strMc = 2048 ∧ fencedBob (advance 0 b) strMc = some 3 := by decide +kernel
-- well-formed commands: a well-formed term of every constructor, and an ill-formed one for every check
def tdc0 : Tdc := ⟨0, 1⟩
def retire0 : Retire := ⟨0, 0, 0, 0, tdc0⟩
def beat0 : OutBeat := ⟨0, 0, 0, 0, false, 0, tdc0⟩
def hdrItem0 : Hdr := ⟨0, false, 0, false, 0, 0, tdc0⟩
def master0 : PtpMaster := ⟨0, 0, 0, 0, 0, 0, 0⟩

theorem test_wf_accepts_1 :
    (([.fundamentalReset 0, .blockReset 0, .initialisationComplete 0 none, .partResetPortRequest 0 0, .regOverlap 0, .registerWrite 0 0 0,
      .readClearRegister 0 0, .enable 0 0 none, .disable 0 0 none, .partReset 0 0 none, .retire 0 0 none, .reinstate 0 0 none,
      .auditNow 0 0 none, .fatalFault 0 0 .ecc, .quiesceComplete 0 0, .quiesceOverdue 0 0, .stateReport 0 0 false, .periodicAudit 0,
      .auditAnswer 0 0, .step 0 none, .set 0 none, .rate 0 none, .calTdc 0 none, .calRunComplete 0 [] []] : List Instr).all fun i => i.wf) = true := by decide +kernel

theorem test_wf_accepts_2 :
    (([.stepAt 0, .referenceLoss 0, .referenceReturn 0, .serialMessage 0 0 0, .statusRequest 0 0, .sensorSample 0 0 false 0 tdc0,
      .tdispStateChange 0 0, .commandIssue 0 0 issue0, .commandRetire 0 0 retire0, .spanAccept 0 0, .eventLineTransition 0 0 0,
      .stallReasonChange 0 0 0 tdc0, .stallSamplePeriodic 0 0, .counterSample 0 0 0, .clockStateChange 0 0 0 0 tdc0, .gapLimit 0 0 0,
      .hedCardMap 0 0 false 0, .outputBeat 0 0 beat0, .mirrorIntake 0 0, .gatherTimeout 0 0 0, .shareComplete 0 0,
      .stagingEccError 0 0 (.tile 0), .cardLoad 0 0 none, .cardFetch 0 0 none] : List Instr).all fun i => i.wf) = true := by decide +kernel

theorem test_wf_accepts_3 :
    (([.governorWindowStart 0, .flushWaitExpiry 0 0, .flush 0 0 none, .blockIssue 0 0, .memoryCompletion 0 0 0 false,
      .completionTimeout 0 0 0, .releaseAcknowledge 0 0, .shadowAcknowledge 0 0, .bobEnable 0 0 0 none, .bobDisable 0 0 0 none,
      .bobTail 0 0 0 0, .writePortIdle 0 0, .scanComplete 0 0, .retainedRunReport 0 0 0, .handBack 0 0, .epochSettled 0, .staleEpoch 0,
      .epochQuery 0 0 0, .ledgerReceipt 0 0, .poison 0 0 0, .clear 0 0 0, .absolve 0 0 0, .confirm 0 0 0, .clearBatch 0] : List Instr).all fun i => i.wf) = true := by decide +kernel

theorem test_wf_accepts_4 :
    (([.gateRequest 0 0 0 tdc0, .gateOpen 0 0, .unblind 0 none, .testReload 0 none, .manifestLoadComplete 0, .testDeadline 0 0 0,
      .hubTestNext 0, .sensorWaitExpiry 0, .stopNow 0 none, .arm 0 none, .disarm 0 none, .resume 0 none, .stopIn 0 tdc0, .ttCompare 0,
      .armedPartFire 0 0, .stopTreeArrival 0 0, .holdAck 0 0 tdc0, .holdTimeout 0 0, .scanWord 0 0 0 false, .scanWordTimeout 0 0,
      .graceExpiry 0 0, .cutComplete 0, .snagWritten 0, .resumeArrival 0 0] : List Instr).all fun i => i.wf) = true := by decide +kernel

theorem test_wf_accepts_5 :
    (([.resumeComplete 0, .treadleInputEdge 0 100 false, .filterAccept 0 100, .falcenSourceEvent 0 99, .coalesceTimeout 0 100,
      .trdDoorbell 0 0, .trdClaim 0 0, .trdComplete 0 0 0, .trdPendingSet 0 0 0, .trdPendingClr 0 0 0, .trdDoze 0 0, .asyncWake 0 100,
      .linkStateChange 0 0 0 tdc0, .absentTimer 0 0, .headerCapture 0 0 hdrItem0, .unackEntry 0 0 0 0, .unackEnd 0 0, .listTimeout 0 0,
      .listEntryPick 0 0, .ringRelease 0 0 none, .helloSend 0 0, .hello 0 0 0, .pdreqSend 0 0, .pdreq 0 0 0] : List Instr).all fun i => i.wf) = true := by decide +kernel

theorem test_wf_accepts_6 :
    (([.pdresp 0 0 0, .pdfollowSend 0 0, .pdfollow 0 0 0, .pdelayTimeout 0 0, .rootSyncSend 0, .sync 0 0 0, .follow 0 0 0,
      .followSend 0 0, .followTimeout 0, .rootLost 0, .txTimestamp 0 0 tdc0, .rxTimestamp 0 0 tdc0, .servoStart 0 none,
      .servoStop 0 none, .servoRearm 0 none, .ethTimestamp 0 false 0 0 0 0 tdc0, .ptpSync 0 hdr0 ⟨0, 0⟩, .ptpFollowUp 0 hdr0 ⟨0, 0⟩,
      .ptpDelayResp 0 hdr0 ⟨0, 0⟩ 0 0, .ptpAnnounce 0 hdr0 master0, .ptpIgnoredMessage 0 0, .ptpDelayReqSend 0, .announceTimeout 0,
      .install 0 none] : List Instr).all fun i => i.wf) = true := by decide +kernel

theorem test_wf_accepts_7 :
    (([.rotate 0 none, .remove 0 none, .release 0 none, .scanRelease 0 none, .genRetired 0 0, .fenceComplete 0 0, .slotDrainComplete 0 0,
      .drainOverdue 0 0, .scrubComplete 0 0, .keyEcc 0 0 false, .readbackRequest 0 0 0, .readbackComplete 0,
      .readBeat 0 0 0 false false 0, .readTimeout 0 0, .load 0 none, .loadComplete 0, .handover 0 none, .verifyComplete 0, .fwReady 0,
      .handoverTimeout 0, .reloadComplete 0, .fwAccept 0, .fwReject 0, .acceptTimeout 0] : List Instr).all fun i => i.wf) = true := by decide +kernel

theorem test_wf_accepts_8 :
    (([.watchdogKick 0, .watchdogExpiry 0, .fwEmit 0 0, .blockBufferTransfer 0 0 0, .emit 0 none, .hostScrubbed 0 none, .calData 0 none,
      .calStoreWrite 0 false, .eccCorr 0 0, .powerLoss 0, .frameCrc 0 0 0] : List Instr).all fun i => i.wf) = true := by decide +kernel

theorem test_wf_refuses_1 :
    (([.fundamentalReset (2 ^ 64), .blockReset (2 ^ 64), .initialisationComplete (2 ^ 64) none, .initialisationComplete 0 (some 8192),
      .partResetPortRequest (2 ^ 64) 0, .partResetPortRequest 0 8192, .regOverlap (2 ^ 64), .registerWrite (2 ^ 64) 0 0,
      .registerWrite 0 (2 ^ 25) 0, .registerWrite 0 4 0, .readClearRegister (2 ^ 64) 0, .readClearRegister 0 (2 ^ 25),
      .readClearRegister 0 4, .enable (2 ^ 64) 0 none, .enable 0 8192 none, .disable (2 ^ 64) 0 none, .disable 0 8192 none,
      .partReset (2 ^ 64) 0 none, .partReset 0 8192 none, .retire (2 ^ 64) 0 none, .retire 0 8192 none, .reinstate (2 ^ 64) 0 none,
      .reinstate 0 8192 none, .auditNow (2 ^ 64) 0 none] : List Instr).all fun i => !i.wf) = true := by decide +kernel

theorem test_wf_refuses_2 :
    (([.auditNow 0 8192 none, .fatalFault (2 ^ 64) 0 .ecc, .fatalFault 0 8192 .ecc, .fatalFault 0 0 (.retention 0x10162 true),
      .quiesceComplete (2 ^ 64) 0, .quiesceComplete 0 8192, .quiesceOverdue (2 ^ 64) 0, .quiesceOverdue 0 8192,
      .stateReport (2 ^ 64) 0 false, .stateReport 0 8192 false, .periodicAudit (2 ^ 64), .auditAnswer (2 ^ 64) 0, .auditAnswer 0 8192,
      .step (2 ^ 64) none, .set (2 ^ 64) none, .rate (2 ^ 64) none, .calTdc (2 ^ 64) none, .calRunComplete (2 ^ 64) [] [],
      .stepAt (2 ^ 64), .referenceLoss (2 ^ 64), .referenceReturn (2 ^ 64), .serialMessage (2 ^ 64) 0 0, .serialMessage 0 8192 0,
      .statusRequest (2 ^ 64) 0] : List Instr).all fun i => !i.wf) = true := by decide +kernel

theorem test_wf_refuses_3 :
    (([.statusRequest 0 8192, .sensorSample (2 ^ 64) 0 false 0 tdc0, .sensorSample 0 64 false 0 tdc0, .sensorSample 0 0 false 0 ⟨0, 0⟩,
      .sensorSample 0 0 false 0 ⟨2, 1⟩, .tdispStateChange (2 ^ 64) 0, .commandIssue (2 ^ 64) 0 issue0, .commandIssue 0 4096 issue0,
      .commandIssue 0 0 { issue0 with tdc := ⟨2, 1⟩ }, .commandRetire (2 ^ 64) 0 retire0, .commandRetire 0 4096 retire0,
      .commandRetire 0 0 { retire0 with tdc := ⟨2, 1⟩ }, .spanAccept (2 ^ 64) 0, .spanAccept 0 4096, .eventLineTransition (2 ^ 64) 0 0,
      .eventLineTransition 0 4096 0, .stallReasonChange (2 ^ 64) 0 0 tdc0, .stallReasonChange 0 4096 0 tdc0,
      .stallReasonChange 0 0 0 ⟨0, 0⟩, .stallReasonChange 0 0 0 ⟨2, 1⟩, .stallSamplePeriodic (2 ^ 64) 0, .stallSamplePeriodic 0 4096,
      .counterSample (2 ^ 64) 0 0, .counterSample 0 4096 0] : List Instr).all fun i => !i.wf) = true := by decide +kernel

theorem test_wf_refuses_4 :
    (([.clockStateChange (2 ^ 64) 0 0 0 tdc0, .clockStateChange 0 4096 0 0 tdc0, .clockStateChange 0 0 0 0 ⟨0, 0⟩,
      .clockStateChange 0 0 0 0 ⟨2, 1⟩, .gapLimit (2 ^ 64) 0 0, .gapLimit 0 4096 0, .hedCardMap (2 ^ 64) 0 false 0,
      .hedCardMap 0 4096 false 0, .outputBeat (2 ^ 64) 0 beat0, .outputBeat 0 4096 beat0, .outputBeat 0 0 { beat0 with tdc := ⟨2, 1⟩ },
      .mirrorIntake (2 ^ 64) 0, .mirrorIntake 0 256, .gatherTimeout (2 ^ 64) 0 0, .gatherTimeout 0 256 0, .shareComplete (2 ^ 64) 0,
      .shareComplete 0 1024, .stagingEccError (2 ^ 64) 0 (.tile 0), .stagingEccError 0 256 (.tile 0), .cardLoad (2 ^ 64) 0 none, .cardLoad 0 256 none,
      .cardFetch (2 ^ 64) 0 none, .cardFetch 0 256 none, .governorWindowStart (2 ^ 64)] : List Instr).all fun i => !i.wf) = true := by decide +kernel

theorem test_wf_refuses_5 :
    (([.flushWaitExpiry (2 ^ 64) 0, .flushWaitExpiry 0 0x10162, .flush (2 ^ 64) 0 none, .flush 0 1 none, .blockIssue (2 ^ 64) 0,
      .blockIssue 0 257, .memoryCompletion (2 ^ 64) 0 0 false, .memoryCompletion 0 257 0 false, .completionTimeout (2 ^ 64) 0 0,
      .completionTimeout 0 257 0, .releaseAcknowledge (2 ^ 64) 0, .releaseAcknowledge 0 (8 * 257), .shadowAcknowledge (2 ^ 64) 0,
      .shadowAcknowledge 0 (8 * 257), .bobEnable (2 ^ 64) 0 0 none, .bobEnable 0 1 0 none, .bobDisable (2 ^ 64) 0 0 none,
      .bobDisable 0 1 0 none, .bobTail (2 ^ 64) 0 0 0, .bobTail 0 1 0 0, .writePortIdle (2 ^ 64) 0, .writePortIdle 0 257,
      .scanComplete (2 ^ 64) 0, .scanComplete 0 257] : List Instr).all fun i => !i.wf) = true := by decide +kernel

theorem test_wf_refuses_6 :
    (([.retainedRunReport (2 ^ 64) 0 0, .retainedRunReport 0 257 0, .retainedRunReport 0 0 0x10162, .handBack (2 ^ 64) 0, .handBack 0 256,
      .epochSettled (2 ^ 64), .staleEpoch (2 ^ 64), .epochQuery (2 ^ 64) 0 0, .epochQuery 0 96 0, .epochQuery 0 0 4096,
      .ledgerReceipt (2 ^ 64) 0, .ledgerReceipt 0 96, .poison (2 ^ 64) 0 0, .clear (2 ^ 64) 0 0, .absolve (2 ^ 64) 0 0,
      .confirm (2 ^ 64) 0 0, .clearBatch (2 ^ 64), .gateRequest (2 ^ 64) 0 0 tdc0, .gateRequest 0 4096 0 tdc0, .gateRequest 0 0 0 ⟨0, 0⟩,
      .gateRequest 0 0 0 ⟨2, 1⟩, .gateOpen (2 ^ 64) 0, .gateOpen 0 4096, .unblind (2 ^ 64) none] : List Instr).all fun i => !i.wf) = true := by decide +kernel

theorem test_wf_refuses_7 :
    (([.testReload (2 ^ 64) none, .manifestLoadComplete (2 ^ 64), .testDeadline (2 ^ 64) 0 0, .testDeadline 0 64 0,
      .testDeadline 0 0 4096, .hubTestNext (2 ^ 64), .sensorWaitExpiry (2 ^ 64), .stopNow (2 ^ 64) none, .arm (2 ^ 64) none,
      .disarm (2 ^ 64) none, .resume (2 ^ 64) none, .stopIn (2 ^ 64) tdc0, .stopIn 0 ⟨0, 0⟩, .stopIn 0 ⟨2, 1⟩, .ttCompare (2 ^ 64),
      .armedPartFire (2 ^ 64) 0, .armedPartFire 0 8192, .stopTreeArrival (2 ^ 64) 0, .stopTreeArrival 0 8192, .holdAck (2 ^ 64) 0 tdc0,
      .holdAck 0 4096 tdc0, .holdAck 0 0 ⟨0, 0⟩, .holdAck 0 0 ⟨2, 1⟩, .holdTimeout (2 ^ 64) 0] : List Instr).all fun i => !i.wf) = true := by decide +kernel

theorem test_wf_refuses_8 :
    (([.holdTimeout 0 4096, .scanWord (2 ^ 64) 0 0 false, .scanWord 0 4096 0 false, .scanWordTimeout (2 ^ 64) 0, .scanWordTimeout 0 4096,
      .graceExpiry (2 ^ 64) 0, .graceExpiry 0 96, .cutComplete (2 ^ 64), .snagWritten (2 ^ 64), .resumeArrival (2 ^ 64) 0,
      .resumeArrival 0 8192, .resumeComplete (2 ^ 64), .treadleInputEdge (2 ^ 64) 100 false, .treadleInputEdge 0 99 false,
      .treadleInputEdge 0 2041 false, .filterAccept (2 ^ 64) 100, .filterAccept 0 99, .filterAccept 0 2041,
      .falcenSourceEvent (2 ^ 64) 99, .falcenSourceEvent 0 0, .falcenSourceEvent 0 100, .coalesceTimeout (2 ^ 64) 100,
      .coalesceTimeout 0 0, .coalesceTimeout 0 2041] : List Instr).all fun i => !i.wf) = true := by decide +kernel

theorem test_wf_refuses_9 :
    (([.trdDoorbell (2 ^ 64) 0, .trdClaim (2 ^ 64) 0, .trdClaim 0 16, .trdComplete (2 ^ 64) 0 0, .trdComplete 0 16 0,
      .trdPendingSet (2 ^ 64) 0 0, .trdPendingSet 0 32 0, .trdPendingClr (2 ^ 64) 0 0, .trdPendingClr 0 32 0, .trdDoze (2 ^ 64) 0,
      .asyncWake (2 ^ 64) 100, .asyncWake 0 0, .asyncWake 0 2041, .linkStateChange (2 ^ 64) 0 0 tdc0, .linkStateChange 0 96 0 tdc0,
      .linkStateChange 0 0 0 ⟨0, 0⟩, .linkStateChange 0 0 0 ⟨2, 1⟩, .absentTimer (2 ^ 64) 0, .absentTimer 0 96,
      .headerCapture (2 ^ 64) 0 hdrItem0, .headerCapture 0 96 hdrItem0, .headerCapture 0 0 { hdrItem0 with tdc := ⟨2, 1⟩ },
      .unackEntry (2 ^ 64) 0 0 0, .unackEntry 0 96 0 0] : List Instr).all fun i => !i.wf) = true := by decide +kernel

theorem test_wf_refuses_10 :
    (([.unackEnd (2 ^ 64) 0, .unackEnd 0 96, .listTimeout (2 ^ 64) 0, .listTimeout 0 96, .listEntryPick (2 ^ 64) 0, .listEntryPick 0 96,
      .ringRelease (2 ^ 64) 0 none, .ringRelease 0 96 none, .helloSend (2 ^ 64) 0, .helloSend 0 96, .hello (2 ^ 64) 0 0, .hello 0 96 0,
      .pdreqSend (2 ^ 64) 0, .pdreqSend 0 96, .pdreq (2 ^ 64) 0 0, .pdreq 0 96 0, .pdresp (2 ^ 64) 0 0, .pdresp 0 96 0,
      .pdfollowSend (2 ^ 64) 0, .pdfollowSend 0 96, .pdfollow (2 ^ 64) 0 0, .pdfollow 0 96 0, .pdelayTimeout (2 ^ 64) 0,
      .pdelayTimeout 0 96] : List Instr).all fun i => !i.wf) = true := by decide +kernel

theorem test_wf_refuses_11 :
    (([.rootSyncSend (2 ^ 64), .sync (2 ^ 64) 0 0, .sync 0 96 0, .follow (2 ^ 64) 0 0, .follow 0 96 0, .followSend (2 ^ 64) 0,
      .followSend 0 96, .followTimeout (2 ^ 64), .rootLost (2 ^ 64), .txTimestamp (2 ^ 64) 0 tdc0, .txTimestamp 0 96 tdc0,
      .txTimestamp 0 0 ⟨0, 0⟩, .txTimestamp 0 0 ⟨2, 1⟩, .rxTimestamp (2 ^ 64) 0 tdc0, .rxTimestamp 0 96 tdc0, .rxTimestamp 0 0 ⟨0, 0⟩,
      .rxTimestamp 0 0 ⟨2, 1⟩, .servoStart (2 ^ 64) none, .servoStop (2 ^ 64) none, .servoRearm (2 ^ 64) none,
      .ethTimestamp (2 ^ 64) false 0 0 0 0 tdc0, .ethTimestamp 0 false 0 0 0 0 ⟨0, 0⟩, .ethTimestamp 0 false 0 0 0 0 ⟨2, 1⟩,
      .ptpSync (2 ^ 64) hdr0 ⟨0, 0⟩] : List Instr).all fun i => !i.wf) = true := by decide +kernel

theorem test_wf_refuses_12 :
    (([.ptpSync 0 { hdr0 with len := 65536 } ⟨0, 0⟩, .ptpSync 0 hdr0 ⟨0, 1000000000⟩, .ptpFollowUp (2 ^ 64) hdr0 ⟨0, 0⟩,
      .ptpFollowUp 0 { hdr0 with len := 65536 } ⟨0, 0⟩, .ptpFollowUp 0 hdr0 ⟨0, 1000000000⟩, .ptpDelayResp (2 ^ 64) hdr0 ⟨0, 0⟩ 0 0,
      .ptpDelayResp 0 { hdr0 with len := 65536 } ⟨0, 0⟩ 0 0, .ptpDelayResp 0 hdr0 ⟨0, 1000000000⟩ 0 0,
      .ptpAnnounce (2 ^ 64) hdr0 master0, .ptpAnnounce 0 { hdr0 with len := 65536 } master0, .ptpIgnoredMessage (2 ^ 64) 0,
      .ptpIgnoredMessage 0 65536, .ptpDelayReqSend (2 ^ 64), .announceTimeout (2 ^ 64), .install (2 ^ 64) none, .rotate (2 ^ 64) none,
      .remove (2 ^ 64) none, .release (2 ^ 64) none, .scanRelease (2 ^ 64) none, .genRetired (2 ^ 64) 0, .fenceComplete (2 ^ 64) 0,
      .slotDrainComplete (2 ^ 64) 0, .drainOverdue (2 ^ 64) 0, .scrubComplete (2 ^ 64) 0] : List Instr).all fun i => !i.wf) = true := by decide +kernel

theorem test_wf_refuses_13 :
    (([.keyEcc (2 ^ 64) 0 false, .readbackRequest (2 ^ 64) 0 0, .readbackComplete (2 ^ 64), .readBeat (2 ^ 64) 0 0 false false 0,
      .readBeat 0 0 0 true false 0, .readBeat 0 0 7 false false 0, .readTimeout (2 ^ 64) 0, .load (2 ^ 64) none, .loadComplete (2 ^ 64),
      .handover (2 ^ 64) none, .verifyComplete (2 ^ 64), .fwReady (2 ^ 64), .handoverTimeout (2 ^ 64), .reloadComplete (2 ^ 64),
      .fwAccept (2 ^ 64), .fwReject (2 ^ 64), .acceptTimeout (2 ^ 64), .watchdogKick (2 ^ 64), .watchdogExpiry (2 ^ 64),
      .fwEmit (2 ^ 64) 0, .blockBufferTransfer (2 ^ 64) 0 0, .emit (2 ^ 64) none, .hostScrubbed (2 ^ 64) none, .calData (2 ^ 64) none] : List Instr).all fun i => !i.wf) = true := by decide +kernel

theorem test_wf_refuses_14 :
    (([.calStoreWrite (2 ^ 64) false, .eccCorr (2 ^ 64) 0, .eccCorr 0 8192, .powerLoss (2 ^ 64), .frameCrc (2 ^ 64) 0 0, .frameCrc 0 96 0] : List Instr).all fun i => !i.wf) = true := by decide +kernel

-- single steps: what a command leaves, worked out from the tables of spec/
/-- A property of the state that a command leaves. -/
def after (c : Instr) (s : State) (f : State → Bool) : Bool :=
  match exec c s with
  | .next t => f t
  | _ => false

theorem test_step_front : (match step { State.reset with pending := [.regOverlap 4, .stepAt 1] } with
    | .next t => t.pending == [.stepAt 1] && t.tim.raw == 4
    | _ => false) = true := by decide +kernel
theorem test_raw_wraps : after (.stepAt 1) (mach [] [] (2 ^ 64 - 1)) (fun t => t.tim.raw == 0) = true := by decide +kernel
theorem test_blockReset_keeps_time : after (.blockReset 5) (mach [(pgHed 0, .enabled)] [] 100) (fun t =>
    t.tim.raw == 105 && !t.ready && pst t (pgHed 0) == .resetting && (part t (pgHed 0)).seq == 0) = true := by decide +kernel
theorem test_initialised : after (.initialisationComplete 0 none) booting0 (fun t =>
    t.ready && pst t pgKey == .disabled && (part t pgKey).seq == 1) = true := by decide +kernel
theorem test_enable_hub : after (.enable 0 pgHub none) State.reset (fun t =>
    pst t pgHub == .enabled && (part t pgHub).seq == 2 && t.port.rsp == 0) = true := by decide +kernel
theorem test_enable_heddle_lacks_fact : after (.enable 0 (pgHed 0) none) State.reset (fun t =>
    pst t (pgHed 0) == .disabled && (part t (pgHed 0)).seq == 1 && t.port.rsp == 1 && regBit t (pgHed 0) 0x28 63) = true := by decide +kernel
theorem test_condition_unmet : after (.enable 0 pgHub (some 7)) State.reset (fun t => pst t pgHub == .disabled && t.port.rsp == 1) = true := by
  decide +kernel
theorem test_fatal_fault : after (.fatalFault 0 (pgHed 0) .timeout) State.reset (fun t =>
    pst t (pgHed 0) == .failed && (part t (pgHed 0)).cause == 5) = true := by decide +kernel
theorem test_write_and_mask : after (.registerWrite 0 (0x1000 + 0x70) 0xFFFFFFFF00000001) State.reset (fun t =>
    t.port.rsp == 0 && regGet t pgBeam 0x70 == 1) = true := by decide +kernel
theorem test_unmapped : after (.readClearRegister 0 (0x70 * 4096)) State.reset (fun t =>
    t.port.rsp == 2 && regFld t pgHub 0x58 31 0 == 1) = true := by decide +kernel
theorem test_out_of_range : after (.registerWrite 0 0x100 15) State.reset (fun t =>
    t.port.rsp == 1 && regFld t pgHub 0x100 15 0 == 0 && regFld t pgHub 0x50 31 0 == 1) = true := by decide +kernel
theorem test_read_clears : after (.readClearRegister 0 0x78) (mach [] [(pgHub, 0x78, 9)]) (fun t =>
    t.port.rdata == 9 && regGet t pgHub 0x78 == 0) = true := by decide +kernel
theorem test_absent_heddle : after (.spanAccept 5 4096) State.reset (fun t => t.tim.raw == 5 && t.heds == []) = true := by decide +kernel
theorem test_event_wraps : after (.eventLineTransition 0 4095 31)
    (updHedC 4095 (fun x => { x with evt := [(31, 0xFFFFFFFFFFFF)] }) State.reset) (fun t =>
      mget (0 : BitVec 48) (hedC t 4095).evt 31 == 0 && (hedC t 4095).evt == []) = true := by decide +kernel
theorem test_cycles_in_disabled : after (.counterSample 0 7 9) State.reset (fun t => (hed t 7).cycles == 9 && (hed t 8).cycles == 0) = true := by
  decide +kernel
theorem test_tdc_halfway : tdcFrac 0 ⟨32, 64⟩ = 8 := by decide +kernel
theorem test_stop_now : after (.stopNow 0 none) (halted .idle id [] [] 77) (fun t =>
    t.stop.phase == .cutting && t.stop.num == 1 && t.stop.source == 1 && t.stop.tc == 77) = true := by decide +kernel
theorem test_stop_refused_while_disabled : after (.stopNow 0 none) State.reset (fun t => t.stop.phase == .idle && t.port.rsp == 1) = true := by
  decide +kernel
/-- An instantiation of one Reed with one Heddle. -/
def small : State := { State.reset with inst := { State.reset.inst with reeds := 1, hpr := 1 } }
theorem test_window_starts : after (.governorWindowStart (govWindow small)) small (fun t => t.gov.k == 1) = true := by decide +kernel
theorem test_claim_nothing : after (.trdClaim 0 0) (mach [(pgTrd, .enabled)] []) (fun t => t.port.rdata == 0 && t.port.rsp == 0) = true := by
  decide +kernel
theorem test_own_poison : after (.poison 0 0 3) (mach [(pgHub, .enabled)] [(pgSync, 0x50, 0x80000000)]) (fun t =>
    t.ver.own.tainted && t.ver.own.taintFrom == 3) = true := by decide +kernel
theorem test_ledger_keeps_latest : (LedEnt.receive ⟨0, 0, false, some 9, []⟩ 4 0).seen = some 9 := by decide +kernel
theorem test_tdisp_clears_seed : after (.tdispStateChange 0 1) (slotted id [] 0) (fun t => t.key.tdi == 1 && t.key.seed == []) = true := by decide +kernel
theorem test_release_needs_scrub : after (.release 0 none) (slotted (fun k => { k with st := .erased, tenant := 5 }) [(pgKey, 0x48, 63)] 0) (fun t =>
    (kslot t 63).st == .erased && t.port.rsp == 1) = true := by decide +kernel
theorem test_link_up : after (.linkStateChange 0 0 2 tdc0) (linked Link.zero LinkTime.zero [] 0) (fun t =>
    (link t 0).lp == 2 && (link t 0).topo == 5) = true := by decide +kernel
theorem test_bad_crc_counts : after (.ptpIgnoredMessage 0 64) (clock id) (fun t => regFld t pgSync 0xA8 15 0 == 1) = true := by decide +kernel
theorem test_unmapped_sensor : after (.sensorSample 0 0 false 5 tdc0) State.reset (fun t => regFld t pgHub 0x500 31 0 == 1 && t.sens == []) = true := by
  decide +kernel
theorem test_kick : after (.watchdogKick 8) (core0 id .enabled [] 0) (fun t => t.fw.kickRaw == 8) = true := by decide +kernel
theorem test_no_word_decodes : decodeTableWord 64 5 = none := rfl

end Sys2Proof.Tests
end

section
/-! The frame of the registers over every command (O6): each form of a meaning leaves a word alone where its effect does, and each
command's effect does by its lemma of Laws/Kept. -/

namespace Sys2Proof.Proofs

open Sys2Proof.Machine Sys2Proof.Safety Sys2Proof.Laws

/-! ### The forms of a meaning -/

/-- Every register word outside `D` reads in the state that an outcome answers as it reads in `s`. -/
def Leaves (D : Nat → Nat → Bool) (s : State) (o : Out) : Prop := ∀ t, o = .next t → SameRegs D s t

section Forms

variable {D : Nat → Nat → Bool} {s : State} {dt : Nat} {f : State → State}

theorem next_leaves {t : State} (h : Kept D s t) : Leaves D s (.next t) := fun _ e => by cases e; exact h.words

/-- A command that begins every word again, or ends the initialisation, may change each of them. -/
theorem leaves_of_all {o : Out} (h : ∀ p a, D p a = true) : Leaves D s o := fun _ _ p a hp => by simp [h p a] at hp

/-- The effect has to leave the words alone only where what the operand names is there. -/
theorem only_leaves_of_there {b : Bool} (h : Kept D s s) (hf : b = true → ∀ {t}, Kept D s t → Kept D s (f t)) :
    Leaves D s (only b dt f s) :=
  next_leaves <| kept_act h.few h.dyn fun t ht => by
    split
    · exact hf ‹_› ht
    · exact ht

section Effect

variable (h : Kept D s s) (hf : ∀ {t}, Kept D s t → Kept D s (f t))
include h hf

theorem always_leaves : Leaves D s (.next (always dt f s)) := next_leaves (kept_always h.few h.dyn fun _ => hf)

theorem act_leaves : Leaves D s (.next (act dt f s)) := next_leaves (kept_act h.few h.dyn fun _ => hf)

theorem only_leaves {b : Bool} : Leaves D s (only b dt f s) := only_leaves_of_there h fun _ => hf

theorem onlyEver_leaves {b : Bool} : Leaves D s (onlyEver b dt f s) :=
  next_leaves (kept_always h.few h.dyn fun _ ht => Kept.ite (hf ht) ht)

theorem onPage_leaves {p : Nat} : Leaves D s (onPage p dt f s) := only_leaves h fun ht => hf (pageFirst_kept ht)

theorem onHed_leaves {n : Nat} : Leaves D s (onHed n dt f s) := only_leaves h fun ht => finishLeaving_kept (hf (hedFirst_kept ht))

theorem onReed_leaves {r : Nat} : Leaves D s (onReed r dt f s) := only_leaves h fun ht => hf (witFlush_kept ht)

theorem onLink_leaves {n : Nat} : Leaves D s (onLink n dt f s) := only_leaves h fun ht => hf (settleLnk_kept ht)

end Effect

theorem access_leaves {a : Access} (h : Kept D s s) (ha : CoversA D a) : Leaves D s (.next (always dt (portAccess a) s)) :=
  always_leaves h (portAccess_kept ha)

/-- An action other than CARD_FETCH changes only words that the block writes itself. -/
theorem command_leaves {p code : Nat} {cond : Option (BitVec 32)} (h : Kept D s s) (hc : code < 0xB1 ∨ (0xB1 < code ∧ code < 256)) :
    Leaves D s (command dt p code cond s) :=
  always_leaves h (action_kept (by omega) (by omega))

end Forms

/-! ### A command -/

/-- From a state within the bounds of the window the frame of a command starts with nothing changed. -/
theorem kept_start (c : Instr) {s : State} (hi : instOk s.inst = true) : Kept (Dc c) s s := ⟨rfl, hi, dc_dyn c, SameRegs.refl _ _⟩

/-- Where a witness array was instantiated, its number is one of the window (R58). -/
theorem witThere_lt {i : Inst} {n : Nat} (hi : instOk i = true) (h : witThere i n = true) : n < 1024 := by
  simp only [instOk, witThere, Bool.and_eq_true, decide_eq_true_eq] at hi h
  omega

/-- The frame of the registers for one command: an access may change the words it names, the resets begin every word again, and every
other command writes only words that the block writes itself. -/
theorem exec_leaves (c : Instr) {s : State} (h : Kept (Dc c) s s) : Leaves (Dc c) s (exec c s) := by
  cases c with
  | fundamentalReset | blockReset | powerLoss =>
    exact leaves_of_all fun _ _ => by simp [Dc, wordsOf]
  | initialisationComplete dt who =>
    cases who with
    | none => exact leaves_of_all fun _ _ => by simp [Dc, wordsOf]
    | some p => exact onPage_leaves h partInitialised_kept
  | registerWrite | readClearRegister | hedCardMap | cardFetch | bobTail | poison | clear | absolve | confirm | hubTestNext
  | trdDoorbell | trdClaim | trdComplete | trdPendingSet | trdPendingClr | trdDoze =>
    exact access_leaves h (dc_acc fun _ _ => rfl)
  | calData dt w =>
    cases w with
    | none => exact access_leaves h (dc_acc fun _ _ => rfl)
    | some d => exact access_leaves h (dc_acc fun _ _ => rfl)
  | enable | disable | partReset | retire | reinstate | auditNow | step | set | rate | calTdc | cardLoad | unblind | testReload
  | stopNow | arm | disarm | resume | ringRelease | servoStart | servoStop | servoRearm | install | rotate | remove | release
  | scanRelease | load | handover | emit | hostScrubbed =>
    exact command_leaves h (by decide)
  | flush dt page =>
    exact command_leaves h (by split <;> decide)
  | bobEnable dt page slot | bobDisable dt page slot =>
    exact command_leaves h (by have := slot.isLt; split <;> omega)
  | partResetPortRequest => exact always_leaves h partResetPort_kept
  | regOverlap => exact always_leaves h regOverlap_kept
  | fatalFault => exact onlyEver_leaves h fun ht => fatalFault_kept (pageFirst_kept ht)
  | quiesceComplete => exact onPage_leaves h quiesceComplete_kept
  | quiesceOverdue => exact onPage_leaves h quiesceOverdue_kept
  | stateReport => exact onPage_leaves h stateReport_kept
  | periodicAudit => exact act_leaves h periodicAudit_kept
  | auditAnswer => exact onPage_leaves h auditAnswer_kept
  | calRunComplete => exact act_leaves h calRunComplete_kept
  | stepAt => exact act_leaves h stepAt_kept
  | referenceLoss => exact act_leaves h fun ht => recheck_kept (referenceLoss_kept ht)
  | referenceReturn => exact act_leaves h fun ht => recheck_kept (referenceReturn_kept ht)
  | serialMessage => exact only_leaves h serialMessage_kept
  | statusRequest => exact only_leaves h statusRequest_kept
  | sensorSample => exact only_leaves h sensorSample_kept
  | tdispStateChange => exact act_leaves h tdispChange_kept
  | commandIssue => exact onHed_leaves h issueCaptured_kept
  | commandRetire => exact onHed_leaves h retireCaptured_kept
  | spanAccept => exact onHed_leaves h spanAccept_kept
  | eventLineTransition => exact only_leaves h eventLine_kept
  | stallReasonChange => exact onHed_leaves h stallChange_kept
  | stallSamplePeriodic => exact onHed_leaves h stallPeriodic_kept
  | counterSample =>
    exact onHed_leaves (f := fun t => Machine.counterSample _ (addEdges _ _ t)) h fun ht => counterSample_kept (addEdges_kept ht)
  | clockStateChange =>
    exact onHed_leaves (f := fun t => clockState _ _ _ (addEdges _ _ t)) h fun ht => clockState_kept (addEdges_kept ht)
  | gapLimit => exact onHed_leaves (f := fun t => Machine.gapLimit _ (addEdges _ _ t)) h fun ht => gapLimit_kept (addEdges_kept ht)
  | outputBeat => exact onHed_leaves h outputBeat_kept
  | mirrorIntake => exact onReed_leaves h mirrorIntake_kept
  | gatherTimeout => exact onReed_leaves h gatherTimeout_kept
  | shareComplete => exact only_leaves_of_there h fun hw => shareComplete_kept (witThere_lt h.few hw)
  | stagingEccError => exact onReed_leaves h stagingEcc_kept
  | governorWindowStart => exact act_leaves h govStart_kept
  | flushWaitExpiry => exact act_leaves h flushExpiry_kept
  | blockIssue => exact only_leaves h blockIssue_kept
  | memoryCompletion => exact only_leaves h memoryCompletion_kept
  | completionTimeout => exact only_leaves h completionTimeout_kept
  | releaseAcknowledge => exact only_leaves h releaseAck_kept
  | shadowAcknowledge => exact only_leaves h shadowAck_kept
  | writePortIdle => exact only_leaves h portIdle_kept
  | scanComplete => exact only_leaves h scanDone_kept
  | retainedRunReport => exact only_leaves h runReport_kept
  | handBack => exact only_leaves h handBack_kept
  | epochSettled => exact act_leaves h settleEpochs_kept
  | staleEpoch => exact act_leaves h staleEpoch_kept
  | epochQuery => exact only_leaves h epochQuery_kept
  | ledgerReceipt => exact only_leaves h passReceipt_kept
  | clearBatch => exact act_leaves h clearBatch_kept
  | gateRequest => exact onHed_leaves h gateRequest_kept
  | gateOpen => exact onHed_leaves h gateOpen_kept
  | manifestLoadComplete => exact act_leaves h manifestDone_kept
  | testDeadline => exact only_leaves h testDeadline_kept
  | sensorWaitExpiry => exact act_leaves h fillReports_kept
  | stopIn => exact act_leaves h stopInPin_kept
  | ttCompare => exact act_leaves h ttCompare_kept
  | armedPartFire => exact onPage_leaves h armedFire_kept
  | stopTreeArrival => exact onPage_leaves h treeArrival_kept
  | holdAck => exact onHed_leaves h holdAck_kept
  | holdTimeout => exact onHed_leaves h holdTimeout_kept
  | scanWord => exact onHed_leaves h scanWord_kept
  | scanWordTimeout => exact onHed_leaves h scanWordTimeout_kept
  | graceExpiry => exact onLink_leaves h graceExpiry_kept
  | cutComplete => exact act_leaves h cutComplete_kept
  | snagWritten => exact act_leaves h snagWritten_kept
  | resumeArrival => exact onPage_leaves h resumeArrival_kept
  | resumeComplete => exact act_leaves h resumeComplete_kept
  | treadleInputEdge => exact only_leaves h inputEdge_kept
  | filterAccept => exact only_leaves h filterElapsed_kept
  | falcenSourceEvent => exact only_leaves h raise_kept
  | coalesceTimeout => exact only_leaves h coalesceElapsed_kept
  | asyncWake => exact only_leaves h latchWakes_kept
  | linkStateChange => exact onLink_leaves h linkStateChange_kept
  | absentTimer => exact onLink_leaves h absentTimer_kept
  | headerCapture => exact onLink_leaves h headerCapture_kept
  | unackEntry => exact onLink_leaves h unackEntry_kept
  | unackEnd => exact onLink_leaves h unackEnd_kept
  | listTimeout => exact onLink_leaves h listTimeout_kept
  | listEntryPick => exact only_leaves h settleLnk_kept
  | helloSend => exact only_leaves h helloSend_kept
  | hello | pdreq | pdresp | pdfollow | sync | follow | frameCrc =>
    exact only_leaves h timeFrame_kept
  | pdreqSend => exact only_leaves h pdreqSend_kept
  | pdfollowSend => exact only_leaves h pdfollowSend_kept
  | pdelayTimeout => exact only_leaves h pdelayTimeout_kept
  | rootSyncSend => exact act_leaves h rootSyncSend_kept
  | followSend => exact only_leaves h followSend_kept
  | followTimeout => exact act_leaves h followTimeout_kept
  | rootLost => exact act_leaves h rootLost_kept
  | txTimestamp => exact only_leaves h txTimestamp_kept
  | rxTimestamp => exact only_leaves h rxTimestamp_kept
  | ethTimestamp => exact only_leaves h ethTimestamp_kept
  | ptpSync => exact only_leaves h ptpSync_kept
  | ptpFollowUp => exact only_leaves h ptpFollowUp_kept
  | ptpDelayResp => exact only_leaves h ptpDelayResp_kept
  | ptpAnnounce => exact only_leaves h ptpAnnounce_kept
  | ptpIgnoredMessage => exact only_leaves h ptpIgnored_kept
  | ptpDelayReqSend => exact only_leaves h ptpDelayReqSend_kept
  | announceTimeout => exact only_leaves h announceTimeout_kept
  | genRetired => exact act_leaves h genRetired_kept
  | fenceComplete => exact act_leaves h fenceComplete_kept
  | slotDrainComplete => exact act_leaves h slotDrainComplete_kept
  | drainOverdue => exact act_leaves h drainOverdue_kept
  | scrubComplete => exact act_leaves h scrubComplete_kept
  | keyEcc => exact act_leaves h keyEcc_kept
  | readbackRequest => exact act_leaves h readbackRequest_kept
  | readbackComplete => exact act_leaves h readbackComplete_kept
  | readBeat => exact act_leaves h readBeat_kept
  | readTimeout => exact act_leaves h readTimeout_kept
  | loadComplete => exact act_leaves h loadComplete_kept
  | verifyComplete => exact act_leaves h verifyComplete_kept
  | fwReady => exact act_leaves h fwReady_kept
  | handoverTimeout => exact act_leaves h handoverTimeout_kept
  | reloadComplete => exact act_leaves h reloadComplete_kept
  | fwAccept => exact act_leaves h fwAccept_kept
  | fwReject => exact act_leaves h fwReject_kept
  | acceptTimeout => exact act_leaves h acceptTimeout_kept
  | watchdogKick => exact act_leaves h watchdogKick_kept
  | watchdogExpiry => exact act_leaves h watchdogExpiry_kept
  | fwEmit => exact act_leaves h fwEmit_kept
  | blockBufferTransfer => exact act_leaves h bufTransfer_kept
  | calStoreWrite => exact act_leaves h calStoreWrite_kept
  | eccCorr => exact only_leaves h setErr_kept

/-- Settles O6: no command but an access of the register port and the resets reaches a word that software wrote. That a part reset keeps the
words of its page is notes/assumptions 11, and that a loss of power begins them again notes/assumptions 13. -/
theorem onlyTheWordsNamedChange : Obligations.OnlyTheWordsNamedChange :=
  fun c _ t hi => exec_leaves c (kept_start c hi) t

end Sys2Proof.Proofs
end

section
/-! Every command answers a next state, and one whose operand names nothing that was instantiated lets time pass (O4): each form of a
meaning is one `next`, with its effect guarded by what the operand names. -/

namespace Sys2Proof.Proofs

open Sys2Proof.Machine Sys2Proof.Safety Sys2Proof.Laws

/-! ### A command that names nothing -/

theorem only_absent {b : Bool} {dt : Nat} {f : State → State} {s : State} (h : b = false) : only b dt f s = .next (act dt id s) := by
  subst h; rfl

/-- While the block initialises, what follows a command changes nothing, so a command without effect is the advance alone. -/
theorem always_id (dt : Nat) (s : State) : always dt id s = act dt id s := by
  unfold act
  split
  · next hb =>
    unfold always finish
    exact if_pos (by simpa using hb)
  · rfl

theorem onlyEver_absent {b : Bool} {dt : Nat} {f : State → State} {s : State} (h : b = false) :
    onlyEver b dt f s = .next (act dt id s) := by
  subst h
  exact congrArg _ (always_id dt s)

/-! ### Every command -/

theorem exec_next (c : Instr) (s : State) : ∃ t, exec c s = .next t := by
  cases c with
  | initialisationComplete dt who => cases who <;> exact ⟨_, rfl⟩
  | calData dt w => cases w <;> exact ⟨_, rfl⟩
  | _ => exact ⟨_, rfl⟩

/-- A command that names what was not instantiated finds nothing to act on (notes/assumptions 2). -/
theorem exec_absent (c : Instr) (s : State) (h : there s.inst c = false) : exec c s = .next (act (dtOf c) id s) := by
  cases c with
  | fatalFault => exact onlyEver_absent h
  | initialisationComplete dt who =>
    cases who with
    | none => exact absurd h Bool.noConfusion
    | some p => exact only_absent h
  | quiesceComplete | quiesceOverdue | stateReport | auditAnswer | serialMessage | statusRequest | armedPartFire | stopTreeArrival
  | resumeArrival | eccCorr | sensorSample | commandIssue | commandRetire | spanAccept | eventLineTransition | stallReasonChange
  | stallSamplePeriodic | counterSample | clockStateChange | gapLimit | outputBeat | gateRequest | gateOpen | testDeadline | holdAck
  | holdTimeout | scanWord | scanWordTimeout | mirrorIntake | gatherTimeout | stagingEccError | handBack | shareComplete | blockIssue
  | memoryCompletion | completionTimeout | writePortIdle | scanComplete | retainedRunReport | releaseAcknowledge | shadowAcknowledge
  | epochQuery | ledgerReceipt | graceExpiry | linkStateChange | absentTimer | headerCapture | unackEntry | unackEnd | listTimeout
  | listEntryPick | helloSend | hello | pdreqSend | pdreq | pdresp | pdfollowSend | pdfollow | pdelayTimeout | sync | follow
  | followSend | txTimestamp | rxTimestamp | frameCrc | treadleInputEdge | filterAccept | falcenSourceEvent | coalesceTimeout
  | asyncWake | ethTimestamp | ptpSync | ptpFollowUp | ptpDelayResp | ptpAnnounce | ptpIgnoredMessage | ptpDelayReqSend
  | announceTimeout =>
    exact only_absent h
  | _ => exact absurd h Bool.noConfusion

/-- Settles O4: each command is one of the forms of Machine/Operands, and none of them stops. -/
theorem noCommandStops : Obligations.NoCommandStops := ⟨exec_next, exec_absent⟩

end Sys2Proof.Proofs
end

section
/-! A heard access to a plain word acts on that word (O22): neither its write nor its read has an effect of its own beside the word, and
what follows the access leaves the word alone. -/

namespace Sys2Proof.Proofs

open Sys2Proof.Machine Sys2Proof.Safety Sys2Proof.Laws

/-! ### Plain words -/

/-- The words of the page headers, and of the pages whose words have no effect of their own beside the word. -/
@[reducible] def Plain (k : PageKind) (off : Nat) : Prop :=
  off < 0x40 ∨ k ∈ [.beam, .sync, .stop, .fw] ∨ (∃ n, k = .lnk n) ∨ (∃ n, k = .wit n)

/-- A plain word is in the header, or its page is none of those that give words an effect of their own. -/
theorem Plain.header_or {k : PageKind} {off : Nat} (h : Plain k off) :
    off < 0x40 ∨ (k ≠ .hub ∧ k ≠ .key ∧ k ≠ .cal ∧ (∀ j, k ≠ .trd j) ∧ (∀ r, k ≠ .reed r) ∧ ∀ n, k ≠ .hed n) := by
  refine h.imp id fun hk => ?_
  simp only [List.mem_cons, List.not_mem_nil, or_false] at hk
  obtain (rfl | rfl | rfl | rfl) | ⟨n, rfl⟩ | ⟨n, rfl⟩ := hk <;> simp

/-- No plain word is one in which the Treadle counts what the depth limit held back. -/
theorem Plain.not_full {i : Inst} {k : PageKind} {p off : Nat} (h : Plain k off) (hk : pageKind i p = some k) : fullWord p off = false := by
  rcases h.header_or with ho | ⟨-, -, -, htrd, -⟩
  · simp only [fullWord, Bool.and_eq_false_iff, decide_eq_false_iff_not]
    exact .inr (by omega)
  · have hp : p ≠ pgTrd := by
      rintro rfl
      exact htrd 0 (Option.some.inj (hk.symm.trans rfl))
    simp [fullWord, hp]

theorem Plain.rwBits_eq {k : PageKind} {off : Nat} (h : Plain k off) (row : RegRow) : rwBits k off row = row.rw := by
  have hn : ¬(k = .trd 1 ∧ 0x40 ≤ off) := by
    rintro ⟨rfl, ho⟩
    rcases h.header_or with hl | ⟨-, -, -, htrd, -⟩
    · omega
    · exact htrd 1 rfl
  unfold rwBits
  rw [if_neg, if_neg]
  all_goals
    simp only [Bool.and_eq_true, Bool.or_eq_true, decide_eq_true_eq]
    rintro ⟨hk, ho⟩
    exact hn ⟨hk, by omega⟩

/-! ### A write -/

/-- A write of a plain word stores it and does nothing else. -/
theorem Plain.writeWord_eq {k : PageKind} {off : Nat} (h : Plain k off) (p : Nat) (row : RegRow) (d : Word) (s : State) :
    writeWord k p off row d s = (7, storeWord k p off row d s) := by
  unfold writeWord
  rcases h.header_or with ho | ⟨hhub, hkey, hcal, htrd, hreed, hhed⟩
  · rw [if_pos ho]
  · split
    · rfl
    · cases k with
      | hub => exact absurd rfl hhub
      | key => exact absurd rfl hkey
      | cal => exact absurd rfl hcal
      | trd j => exact absurd rfl (htrd j)
      | reed r => exact absurd rfl (hreed r)
      | hed n => exact absurd rfl (hhed n)
      | beam | sync | stop | fw | lnk | wit => rfl

theorem storeWord_inst (k : PageKind) (p off : Nat) (row : RegRow) (d : Word) (s : State) : (storeWord k p off row d s).inst = s.inst := by
  unfold storeWord; dsimp only
  split
  · rfl
  · split
    · rfl
    · split <;> rfl

theorem and_not_zero (w : Word) : w &&& ~~~(0 : Word) = w :=
  (congrArg (w &&& ·) BitVec.not_zero).trans BitVec.and_allOnes

/-- A word of no group takes its writable bits from the data and keeps the others. -/
theorem regGet_storeWord {k : PageKind} {off : Nat} {row : RegRow} (hg : row.grp = 0) (p : Nat) (d : Word) {s : State}
    (hs : msorted s.regs = true) :
    regGet (storeWord k p off row d s) p off = (regGet s p off &&& ~~~rwBits k off row) ||| (d &&& rwBits k off row) := by
  unfold storeWord; dsimp only
  rw [if_neg (by omega), if_neg (by omega)]
  split
  · next h => rw [h, and_not_zero]; simp
  · exact regGet_regPut _ _ _ _ hs

/-! ### A read -/

/-- A read of a plain word answers the word shown and clears what the read clears. -/
theorem Plain.readWord_eq {k : PageKind} {off : Nat} (h : Plain k off) (p : Nat) (row : RegRow) (s : State) :
    readWord k p off row s = some (shown s k p off, readClears k p off row s) := by
  unfold readWord
  rw [if_neg, if_neg, if_neg]
  all_goals
    simp only [Bool.and_eq_true, decide_eq_true_eq]
    intro hx
    rcases h.header_or with ho | ⟨hhub, -, hcal, htrd, -⟩
  · omega
  · exact hcal hx.1
  · omega
  · exact htrd 0 hx.1.1
  · omega
  · exact hhub hx.1

/-- The read clears of a plain word: the RC fields of the word, and SKEWED of the view behind PAGE_STATE. -/
theorem Plain.readClears_eq {k : PageKind} {off : Nat} (h : Plain k off) (p : Nat) (row : RegRow) (s : State) :
    readClears k p off row s =
      (if off = 0x20 then
        updPart (if row.rc = 0 then s else regPut s p off (regGet s p off &&& ~~~row.rc)) (homeOf s.inst k p) fun x =>
          { x with view := { x.view with skewed := false } }
      else if row.rc = 0 then s else regPut s p off (regGet s p off &&& ~~~row.rc)) := by
  unfold readClears; dsimp only
  refine ite_congr rfl (fun _ => rfl) fun _ => ?_
  rw [if_neg]
  · cases k with
    | hed n =>
      refine if_neg fun ho => ?_
      rcases h.header_or with hl | ⟨-, -, -, -, -, hhed⟩
      · omega
      · exact hhed n rfl
    | _ => rfl
  · simp only [Bool.and_eq_true, decide_eq_true_eq]
    rintro ⟨hk, ho⟩
    rcases h.header_or with hl | ⟨-, hkey, -⟩
    · omega
    · exact hkey hk

/-- The word after the clearing of its RC fields. -/
theorem regGet_clearRc (p off : Nat) (rc : Word) {s : State} (hs : msorted s.regs = true) :
    regGet (if rc = 0 then s else regPut s p off (regGet s p off &&& ~~~rc)) p off = (regGet s p off &&& ~~~rc) := by
  split
  · next h => rw [h, and_not_zero]
  · exact regGet_regPut _ _ _ _ hs

theorem Plain.readClears_inst {k : PageKind} {off : Nat} (h : Plain k off) (p : Nat) (row : RegRow) (s : State) :
    (readClears k p off row s).inst = s.inst := by
  rw [h.readClears_eq]
  repeat' split
  all_goals rfl

/-- A read of a plain word other than PAGE_STATE clears the RC fields of the word. -/
theorem Plain.regGet_readClears {k : PageKind} {off : Nat} (h : Plain k off) (ho : off ≠ 0x20) (p : Nat) (row : RegRow) {s : State}
    (hs : msorted s.regs = true) : regGet (readClears k p off row s) p off = (regGet s p off &&& ~~~row.rc) := by
  rw [h.readClears_eq, if_neg ho]
  exact regGet_clearRc p off row.rc hs

/-- A read of PAGE_STATE clears SKEWED of the part's view. -/
theorem readClears_skewed (k : PageKind) (p : Nat) (row : RegRow) {s : State} (hs : msorted s.parts = true) :
    (part (readClears k p 0x20 row s) (homeOf s.inst k p)).view.skewed = false := by
  unfold readClears; dsimp only
  rw [if_pos rfl, part_updPart]
  split <;> exact hs

/-! ### The access -/

theorem due_inst (p dt : Nat) (s : State) : (due p dt s).inst = s.inst := by simp [due]

theorem due_sorted {s : State} (h : Inv s) (p dt : Nat) : Sorted (due p dt s) := pageFirst_sorted (advance_sorted (inv_sorted h))

/-- What follows an access that leaves the instantiation alone leaves a plain word alone. -/
theorem Plain.regGet_always {k : PageKind} {p off dt : Nat} {f : State → State} {s b : State} (h : Plain k off) (hs : Inv s)
    (hk : pageKind s.inst p = some k) (hf : f (advance dt s) = b) (hb : b.inst = s.inst) (ho : off < 4096) (hm : off % 8 = 0) :
    regGet (always dt f s) p off = regGet b p off := by
  subst hf
  exact always_regGet dt f s (by rw [hb]; exact inv_targets hs) (h.not_full hk) ho hm

section Access

variable {dt p off : Nat} {k : PageKind} {row : RegRow} {s : State}

/-- A heard write of a plain word answers OKAY and leaves the word with its writable fields from the data. -/
theorem Plain.write_heard (h : Plain k off) (hs : Inv s) (hk : pageKind s.inst p = some k) (hrow : regRow s.inst k off = some row)
    {d : Word} (hw : writeHeard (due p dt s) k p off d = true) (hg : row.grp = 0) :
    ∃ t, exec (.registerWrite dt (p * 4096 + off) d) s = .next t ∧ t.port.rsp = 0 ∧
      regGet t p off = ((regGet (due p dt s) p off &&& ~~~row.rw) ||| (d &&& row.rw)) := by
  have hacc := portAccess_write rfl hw (by rw [due_inst]; exact hrow) (h.writeWord_eq p row d (due p dt s))
  simp only [writeHeard, Bool.and_eq_true, decide_eq_true_eq] at hw
  obtain ⟨⟨⟨⟨⟨⟨⟨-, ho⟩, hm⟩, -⟩, -⟩, -⟩, -⟩, -⟩ := hw
  refine ⟨_, rfl, ?_, ?_⟩
  · rw [always_port]
    exact congrArg (·.port.rsp) hacc
  · refine (h.regGet_always hs hk hacc ((storeWord_inst ..).trans (due_inst ..)) ho hm).trans ?_
    exact (regGet_storeWord hg p d (due_sorted hs p dt).regs).trans (by rw [h.rwBits_eq])

/-- The state after a heard read of a plain word, before what follows the access. -/
theorem Plain.read_access (h : Plain k off) (hrow : regRow s.inst k off = some row) (hr : readHeard (due p dt s) k p off = true) :
    portAccess (readAccess p off) (advance dt s) =
      { readClears k p off row (due p dt s) with
        port := { (readClears k p off row (due p dt s)).port with rsp := 0, rdata := shown (due p dt s) k p off } } :=
  portAccess_read rfl hr (by rw [due_inst]; exact hrow) (h.readWord_eq p row (due p dt s))

/-- A heard read of a plain word answers OKAY with the word as shown. -/
theorem Plain.read_answer (h : Plain k off) (hrow : regRow s.inst k off = some row) (hr : readHeard (due p dt s) k p off = true) :
    let t := always dt (portAccess (readAccess p off)) s
    t.port.rsp = 0 ∧ t.port.rdata = shown (due p dt s) k p off := by
  dsimp only
  rw [always_port, h.read_access hrow hr]
  exact ⟨rfl, rfl⟩

/-- A heard read of a plain word other than PAGE_STATE clears the word's RC fields. -/
theorem Plain.read_heard (h : Plain k off) (hs : Inv s) (hk : pageKind s.inst p = some k) (hrow : regRow s.inst k off = some row)
    (hr : readHeard (due p dt s) k p off = true) (hne : off ≠ 0x20) :
    ∃ t, exec (.readClearRegister dt (p * 4096 + off)) s = .next t ∧ t.port.rsp = 0 ∧
      t.port.rdata = shown (due p dt s) k p off ∧ regGet t p off = (regGet (due p dt s) p off &&& ~~~row.rc) := by
  have hacc := h.read_access hrow hr
  obtain ⟨hrsp, hdata⟩ := h.read_answer hrow hr
  simp only [readHeard, Bool.and_eq_true, decide_eq_true_eq] at hr
  obtain ⟨⟨⟨⟨⟨-, ho⟩, hm⟩, -⟩, -⟩, -⟩ := hr
  refine ⟨_, rfl, hrsp, hdata, ?_⟩
  refine (h.regGet_always hs hk hacc ((h.readClears_inst ..).trans (due_inst ..)) ho hm).trans ?_
  exact h.regGet_readClears hne p row (due_sorted hs p dt).regs

/-- A heard read of PAGE_STATE clears SKEWED of the part's view (R75). -/
theorem pageState_read_heard (hs : Inv s) (hrow : regRow s.inst k 0x20 = some row) (hr : readHeard (due p dt s) k p 0x20 = true) :
    ∃ t, exec (.readClearRegister dt (p * 4096 + 0x20)) s = .next t ∧ t.port.rsp = 0 ∧
      t.port.rdata = shown (due p dt s) k p 0x20 ∧ (part t (homeOf s.inst k p)).view.skewed = false := by
  have h : Plain k 0x20 := .inl (by decide)
  obtain ⟨hrsp, hdata⟩ := h.read_answer hrow hr
  refine ⟨_, rfl, hrsp, hdata, ?_⟩
  show (part (always dt (portAccess (readAccess p 0x20)) s) (homeOf s.inst k p)).view.skewed = false
  rw [part_congr (always_booting ..) (always_parts ..), h.read_access hrow hr, ← due_inst p dt s]
  exact readClears_skewed k p row (due_sorted hs p dt).parts

end Access

/-- Settles O22: a heard access to a plain word is its store, or its showing and its read clears. -/
theorem registerAccessesActOnTheirWord : Obligations.RegisterAccessesActOnTheirWord := by
  intro dt p off k row s hs _ hk hrow (hplain : Plain k off)
  refine ⟨fun d hw hg => hplain.write_heard hs hk hrow hw hg, fun hr hne => hplain.read_heard hs hk hrow hr hne, fun hr he => ?_⟩
  subst he
  exact pageState_read_heard hs hrow hr

end Sys2Proof.Proofs
end

section
/-! What a command may change at all: only the resets, and what reaches a part, go beyond the fields that no part shows; and no command
changes the queue or what was instantiated (O3). -/

namespace Sys2Proof.Proofs

open Sys2Proof.Machine Sys2Proof.Safety Sys2Proof.Laws

/-! ### Footprints of a command's forms -/

theorem same_mono {F G : Fld → Bool} {s t : State} (h : Same F s t) (hFG : ∀ f, F f = true → G f = true) : Same G s t :=
  fun f hf => h f (Bool.eq_false_iff.mpr fun hF => Bool.false_ne_true (hf.symm.trans (hFG f hF)))

/-- Every field but the queue and what was instantiated. -/
@[reducible] def unfixed (f : Fld) : Bool := !([Fld.pending, .inst].contains f)

/-- Every field but the queue, what was instantiated, READY and the parts. -/
@[reducible] def partFree (f : Fld) : Bool := !([Fld.pending, .inst, .ready, .booting, .parts].contains f)

theorem unfixed_of_partFree (f : Fld) : partFree f = true → unfixed f = true := by cases f <;> decide

/-- Every state that an outcome answers agrees with a state outside a footprint. -/
def Answers (F : Fld → Bool) (s : State) (o : Out) : Prop := ∀ t, o = .next t → Same F s t

section Forms

variable {F : Fld → Bool} {s : State} {dt : Nat} {f : State → State}

theorem next_answers {t : State} (h : Same F s t) : Answers F s (.next t) := fun _ e => by cases e; exact h

variable (hF : ∀ g, partFree g = true → F g = true)
include hF

theorem advance_footprint : Same F s (advance dt s) := same_mono (advance_same rfl rfl rfl (Same.refl partFree s)) hF

theorem finish_footprint {t : State} {was : Nat} (h : Same F s t) : Same F s (finish was t) :=
  Same.trans h (same_mono (finish_same rfl rfl rfl rfl rfl rfl rfl rfl (Same.refl partFree t)) hF)

variable (hf : ∀ {t}, Same F s t → Same F s (f t))
include hf

theorem always_footprint : Same F s (always dt f s) := finish_footprint hF (hf (advance_footprint hF))

theorem act_footprint : Same F s (act dt f s) := by
  unfold act
  split
  · exact advance_footprint hF
  · exact always_footprint hF hf

theorem always_answers : Answers F s (.next (always dt f s)) := next_answers (always_footprint hF hf)

theorem act_answers : Answers F s (.next (act dt f s)) := next_answers (act_footprint hF hf)

theorem only_answers {b : Bool} : Answers F s (only b dt f s) := next_answers (act_footprint hF fun ht => Same.ite (hf ht) ht)

end Forms

/-! ### The commands that leave the parts alone -/

section PartFree

variable {s : State} {dt : Nat} {f : State → State} (hf : ∀ {t}, Same partFree s t → Same partFree s (f t))
include hf

theorem always_partFree : Answers partFree s (.next (always dt f s)) := always_answers (fun _ => id) hf

theorem act_partFree : Answers partFree s (.next (act dt f s)) := act_answers (fun _ => id) hf

theorem only_partFree {b : Bool} : Answers partFree s (only b dt f s) := only_answers (fun _ => id) hf

theorem onReed_partFree {r : Nat} : Answers partFree s (onReed r dt f s) :=
  only_partFree fun ht => hf (witFlush_same rfl rfl rfl rfl rfl rfl rfl rfl rfl rfl rfl rfl ht)

theorem onLink_partFree {n : Nat} : Answers partFree s (onLink n dt f s) :=
  only_partFree fun ht => hf (settleLnk_same rfl rfl rfl rfl rfl rfl rfl rfl ht)

end PartFree

/-- A command whose footprint names no parts leaves them alone, with READY, the queue and what was instantiated. -/
theorem exec_partFree (c : Instr) (s : State) (hc : (touches c).contains .parts = false) : Answers partFree s (exec c s) := by
  cases c with
  | calRunComplete => exact act_partFree fun ht => calRunComplete_same rfl rfl rfl rfl rfl ht
  | referenceLoss =>
    exact act_partFree fun ht => recheck_same rfl rfl rfl rfl rfl rfl rfl rfl rfl rfl (referenceLoss_same rfl rfl rfl rfl rfl rfl rfl rfl rfl ht)
  | referenceReturn =>
    exact act_partFree fun ht =>
      recheck_same rfl rfl rfl rfl rfl rfl rfl rfl rfl rfl (referenceReturn_same rfl rfl rfl rfl rfl rfl rfl rfl rfl ht)
  | sensorSample => exact only_partFree fun ht => sensorSample_same rfl rfl rfl rfl rfl rfl rfl rfl rfl rfl rfl ht
  | tdispStateChange => exact act_partFree fun ht => tdispChange_same rfl rfl rfl rfl rfl rfl rfl rfl ht
  | eventLineTransition => exact only_partFree fun ht => eventLine_same rfl ht
  | mirrorIntake => exact onReed_partFree fun ht => mirrorIntake_same rfl rfl rfl rfl rfl rfl rfl rfl rfl rfl rfl rfl rfl rfl ht
  | gatherTimeout => exact onReed_partFree fun ht => gatherTimeout_same rfl rfl rfl rfl rfl rfl rfl rfl rfl rfl rfl rfl ht
  | shareComplete => exact only_partFree fun ht => shareComplete_same rfl rfl rfl rfl rfl rfl rfl rfl rfl rfl rfl rfl ht
  | stagingEccError => exact onReed_partFree fun ht => stagingEcc_same rfl rfl rfl rfl rfl rfl rfl rfl rfl rfl rfl rfl rfl ht
  | governorWindowStart => exact act_partFree fun ht => govStart_same rfl rfl rfl rfl rfl rfl rfl rfl rfl rfl rfl rfl rfl rfl rfl rfl rfl ht
  | flushWaitExpiry => exact act_partFree fun ht => flushExpiry_same rfl rfl rfl rfl rfl rfl rfl rfl rfl rfl rfl rfl rfl rfl rfl rfl rfl ht
  | blockIssue =>
    exact only_partFree fun ht => blockIssue_same rfl rfl rfl rfl rfl rfl rfl rfl rfl rfl rfl rfl rfl rfl rfl rfl rfl rfl rfl rfl rfl ht
  | memoryCompletion => exact only_partFree fun ht => memoryCompletion_same rfl rfl rfl rfl rfl rfl rfl rfl rfl ht
  | completionTimeout => exact only_partFree fun ht => completionTimeout_same rfl rfl rfl rfl rfl rfl rfl rfl rfl ht
  | releaseAcknowledge =>
    exact only_partFree fun ht => releaseAck_same rfl rfl rfl rfl rfl rfl rfl rfl rfl rfl rfl rfl rfl rfl rfl rfl rfl rfl ht
  | shadowAcknowledge => exact only_partFree fun ht => shadowAck_same rfl ht
  | writePortIdle => exact only_partFree fun ht => portIdle_same rfl rfl rfl rfl rfl rfl ht
  | scanComplete => exact only_partFree fun ht => scanDone_same rfl rfl rfl rfl rfl rfl ht
  | retainedRunReport => exact only_partFree fun ht => runReport_same rfl rfl rfl rfl rfl ht
  | handBack => exact only_partFree fun ht => handBack_same rfl rfl rfl rfl rfl rfl ht
  | epochSettled => exact act_partFree fun ht => settleEpochs_same rfl ht
  | staleEpoch => exact act_partFree fun ht => staleEpoch_same rfl rfl rfl rfl rfl rfl rfl rfl rfl rfl ht
  | epochQuery => exact only_partFree fun ht => epochQuery_same rfl ht
  | ledgerReceipt => exact only_partFree fun ht => passReceipt_same rfl rfl rfl rfl rfl ht
  | clearBatch => exact act_partFree fun ht => clearBatch_same rfl rfl rfl rfl rfl rfl rfl rfl ht
  | manifestLoadComplete => exact act_partFree fun ht => manifestDone_same rfl rfl rfl ht
  | testDeadline => exact only_partFree fun ht => testDeadline_same rfl rfl rfl rfl rfl rfl rfl rfl rfl ht
  | sensorWaitExpiry => exact act_partFree fun ht => fillReports_same rfl rfl rfl rfl rfl rfl rfl rfl ht
  | stopIn => exact act_partFree fun ht => stopInPin_same rfl rfl rfl rfl rfl rfl ht
  | ttCompare => exact act_partFree fun ht => ttCompare_same rfl rfl rfl rfl rfl rfl ht
  | graceExpiry => exact onLink_partFree fun ht => graceExpiry_same rfl ht
  | cutComplete => exact act_partFree fun ht => cutComplete_same rfl rfl rfl rfl rfl rfl rfl rfl rfl rfl rfl rfl rfl ht
  | snagWritten => exact act_partFree fun ht => snagWritten_same rfl rfl rfl ht
  | resumeComplete => exact act_partFree fun ht => resumeComplete_same rfl ht
  | treadleInputEdge => exact only_partFree fun ht => inputEdge_same rfl rfl ht
  | filterAccept => exact only_partFree fun ht => filterElapsed_same rfl rfl ht
  | falcenSourceEvent => exact only_partFree fun ht => raise_same rfl rfl ht
  | coalesceTimeout => exact only_partFree fun ht => coalesceElapsed_same rfl rfl ht
  | asyncWake => exact only_partFree fun ht => latchWakes_same rfl rfl ht
  | linkStateChange => exact onLink_partFree fun ht => linkStateChange_same rfl rfl rfl rfl rfl rfl rfl rfl rfl rfl rfl rfl ht
  | absentTimer => exact onLink_partFree fun ht => absentTimer_same rfl rfl rfl ht
  | headerCapture => exact onLink_partFree fun ht => headerCapture_same rfl rfl rfl rfl ht
  | unackEntry => exact onLink_partFree fun ht => unackEntry_same rfl rfl rfl rfl rfl rfl rfl rfl ht
  | unackEnd => exact onLink_partFree fun ht => unackEnd_same rfl rfl rfl rfl rfl rfl rfl rfl ht
  | listTimeout => exact onLink_partFree fun ht => listTimeout_same rfl rfl rfl rfl rfl rfl rfl rfl ht
  | listEntryPick => exact only_partFree fun ht => settleLnk_same rfl rfl rfl rfl rfl rfl rfl rfl ht
  | helloSend => exact only_partFree fun ht => helloSend_same rfl ht
  | hello | pdreq | pdresp | pdfollow | sync | follow | frameCrc =>
    exact only_partFree fun ht => timeFrame_same rfl rfl rfl rfl rfl rfl rfl rfl rfl rfl rfl rfl rfl ht
  | pdreqSend => exact only_partFree fun ht => pdreqSend_same rfl rfl rfl rfl rfl rfl rfl rfl rfl rfl rfl ht
  | pdfollowSend => exact only_partFree fun ht => pdfollowSend_same rfl rfl ht
  | pdelayTimeout => exact only_partFree fun ht => pdelayTimeout_same rfl rfl rfl rfl rfl rfl rfl rfl rfl rfl rfl ht
  | rootSyncSend => exact act_partFree fun ht => rootSyncSend_same rfl rfl ht
  | followSend => exact only_partFree fun ht => followSend_same rfl rfl ht
  | followTimeout => exact act_partFree fun ht => followTimeout_same rfl ht
  | rootLost => exact act_partFree fun ht => rootLost_same rfl rfl rfl rfl rfl rfl rfl rfl rfl rfl ht
  | txTimestamp => exact only_partFree fun ht => txTimestamp_same rfl ht
  | rxTimestamp => exact only_partFree fun ht => rxTimestamp_same rfl ht
  | ethTimestamp => exact only_partFree fun ht => ethTimestamp_same rfl rfl rfl ht
  | ptpSync => exact only_partFree fun ht => ptpSync_same rfl rfl rfl rfl rfl rfl rfl rfl rfl rfl rfl ht
  | ptpFollowUp => exact only_partFree fun ht => ptpFollowUp_same rfl rfl rfl ht
  | ptpDelayResp => exact only_partFree fun ht => ptpDelayResp_same rfl rfl rfl rfl rfl rfl rfl rfl rfl rfl rfl rfl ht
  | ptpAnnounce => exact only_partFree fun ht => ptpAnnounce_same rfl rfl rfl rfl rfl rfl rfl rfl rfl rfl rfl ht
  | ptpIgnoredMessage => exact only_partFree fun ht => ptpIgnored_same rfl rfl ht
  | ptpDelayReqSend => exact only_partFree fun ht => ptpDelayReqSend_same rfl ht
  | announceTimeout => exact only_partFree fun ht => announceTimeout_same rfl rfl rfl rfl rfl rfl rfl rfl rfl rfl rfl ht
  | genRetired => exact act_partFree fun ht => genRetired_same rfl rfl rfl rfl rfl rfl rfl rfl rfl ht
  | fenceComplete => exact act_partFree fun ht => fenceComplete_same rfl ht
  | slotDrainComplete => exact act_partFree fun ht => slotDrainComplete_same rfl rfl rfl rfl rfl rfl rfl rfl rfl ht
  | drainOverdue => exact act_partFree fun ht => drainOverdue_same rfl rfl rfl ht
  | scrubComplete => exact act_partFree fun ht => scrubComplete_same rfl rfl rfl rfl rfl rfl rfl rfl ht
  | keyEcc => exact act_partFree fun ht => keyEcc_same rfl rfl rfl rfl rfl rfl rfl rfl rfl rfl ht
  | readbackRequest => exact act_partFree fun ht => readbackRequest_same rfl rfl ht
  | readbackComplete => exact act_partFree fun ht => readbackComplete_same rfl rfl ht
  | readBeat => exact act_partFree fun ht => readBeat_same rfl rfl rfl rfl rfl rfl rfl rfl ht
  | readTimeout => exact act_partFree fun ht => readTimeout_same rfl rfl rfl rfl rfl rfl rfl rfl ht
  | loadComplete => exact act_partFree fun ht => loadComplete_same rfl rfl rfl rfl ht
  | verifyComplete => exact act_partFree fun ht => verifyComplete_same rfl rfl rfl rfl ht
  | handoverTimeout => exact act_partFree fun ht => handoverTimeout_same rfl rfl rfl rfl ht
  | fwAccept => exact act_partFree fun ht => fwAccept_same rfl rfl rfl ht
  | watchdogKick => exact act_partFree fun ht => watchdogKick_same rfl rfl ht
  | fwEmit => exact act_partFree fun ht => fwEmit_same rfl rfl rfl rfl rfl rfl rfl rfl ht
  | blockBufferTransfer => exact act_partFree fun ht => bufTransfer_same rfl rfl ht
  | calStoreWrite => exact act_partFree fun ht => calStoreWrite_same rfl rfl rfl rfl ht
  | regOverlap => exact always_partFree fun ht => regOverlap_same rfl rfl ht
  | periodicAudit => exact act_partFree fun ht => periodicAudit_same rfl ht
  | eccCorr => exact only_partFree fun ht => setErr_same rfl rfl ht
  | initialisationComplete dt who => cases who <;> exact absurd hc Bool.noConfusion
  | _ => exact absurd hc Bool.noConfusion

/-! ### Every command -/

section Unfixed

variable {s : State} {dt : Nat} {f : State → State}

theorem pageFirst_unfixed {t : State} {p : Nat} (h : Same unfixed s t) : Same unfixed s (pageFirst p t) :=
  pageFirst_same rfl rfl rfl rfl rfl rfl rfl rfl rfl rfl rfl rfl rfl rfl rfl rfl rfl rfl rfl rfl rfl h

theorem portAccess_unfixed {t : State} {a : Access} (h : Same unfixed s t) : Same unfixed s (portAccess a t) :=
  portAccess_same rfl rfl rfl rfl rfl rfl rfl rfl rfl rfl rfl rfl rfl rfl rfl rfl rfl rfl rfl rfl rfl rfl rfl rfl rfl rfl rfl rfl rfl rfl rfl rfl
      rfl rfl rfl rfl h

theorem partResetPort_unfixed {t : State} {p : Nat} (h : Same unfixed s t) : Same unfixed s (partResetPort p t) :=
  partResetPort_same rfl rfl rfl rfl rfl rfl rfl rfl rfl rfl rfl rfl rfl rfl rfl rfl rfl rfl rfl rfl rfl rfl rfl rfl rfl rfl rfl rfl rfl rfl rfl
      rfl rfl rfl rfl rfl h

theorem access_unfixed {a : Access} : Answers unfixed s (.next (always dt (portAccess a) s)) :=
  always_answers unfixed_of_partFree portAccess_unfixed

theorem unfixed_of_eq {t u : State} (hp : u.pending = t.pending) (hi : u.inst = t.inst) : Same unfixed t u := by
  intro f hf
  cases f with
  | pending => exact hp
  | inst => exact hi
  | _ => exact absurd hf Bool.noConfusion

theorem serveHeld_unfixed {t : State} (h : Same unfixed s t) : Same unfixed s (serveHeld t) := by
  have hserve {u : State} (a : Access) (hu : Same unfixed s u) : Same unfixed s (serve a u) :=
    serve_same rfl rfl rfl rfl rfl rfl rfl rfl rfl rfl rfl rfl rfl rfl rfl rfl rfl rfl rfl rfl rfl rfl rfl rfl rfl rfl rfl rfl rfl rfl rfl rfl
        rfl rfl rfl rfl hu
  have hprst {u : State} (p : Nat) (hu : Same unfixed s u) : Same unfixed s (servePrst p u) :=
    servePrst_same rfl rfl rfl rfl rfl rfl rfl rfl rfl rfl rfl rfl rfl rfl rfl rfl rfl rfl rfl rfl rfl rfl rfl rfl rfl rfl rfl rfl rfl rfl rfl
        rfl rfl rfl rfl rfl hu
  have h1 : Same unfixed s (match t.port.held with
      | none => t
      | some a => serve a { t with port := { t.port with held := none } }) := by
    split
    · exact h
    · exact hserve _ (Same.set_port rfl h)
  unfold serveHeld
  dsimp only
  split
  · exact h1
  · exact hprst _ (Same.set_port rfl h1)

variable (hf : ∀ {t}, Same unfixed s t → Same unfixed s (f t))
include hf

theorem always_unfixed : Answers unfixed s (.next (always dt f s)) := always_answers unfixed_of_partFree hf

theorem act_unfixed : Answers unfixed s (.next (act dt f s)) := act_answers unfixed_of_partFree hf

theorem only_unfixed {b : Bool} : Answers unfixed s (only b dt f s) := only_answers unfixed_of_partFree hf

theorem onPage_unfixed {p : Nat} : Answers unfixed s (onPage p dt f s) := only_unfixed fun ht => hf (pageFirst_unfixed ht)

theorem onHed_unfixed {h : Nat} : Answers unfixed s (onHed h dt f s) :=
  only_unfixed fun ht => finishLeaving_same rfl rfl rfl rfl rfl rfl rfl rfl
    (hf (hedFirst_same rfl rfl rfl rfl rfl rfl rfl rfl rfl rfl rfl rfl rfl rfl rfl ht))

end Unfixed

/-- No command changes the queue or what was instantiated. -/
theorem exec_unfixed (c : Instr) (s : State) : Answers unfixed s (exec c s) := by
  cases hc : (touches c).contains .parts with
  | false => exact fun t ht => same_mono (exec_partFree c s hc t ht) unfixed_of_partFree
  | true =>
    cases c with
    | fundamentalReset | blockReset | powerLoss => exact always_unfixed fun ht => Same.trans ht (unfixed_of_eq rfl rfl)
    | initialisationComplete dt who =>
      cases who with
      | none =>
        exact always_unfixed fun ht => Same.ite (serveHeld_unfixed (blockInitialised_same rfl rfl rfl rfl rfl rfl rfl rfl rfl rfl rfl ht)) ht
      | some p => exact onPage_unfixed fun ht => partInitialised_same rfl rfl rfl rfl rfl rfl rfl rfl rfl rfl rfl rfl rfl rfl rfl rfl ht
    | partResetPortRequest => exact always_unfixed partResetPort_unfixed
    | registerWrite | readClearRegister | enable | disable | partReset | retire | reinstate | auditNow | step | set | rate | calTdc
    | hedCardMap | cardLoad | cardFetch | flush | bobEnable | bobDisable | bobTail | poison | clear | absolve | confirm | unblind
    | testReload | hubTestNext | stopNow | arm | disarm | resume | trdDoorbell | trdClaim | trdComplete | trdPendingSet | trdPendingClr
    | trdDoze | ringRelease | servoStart | servoStop | servoRearm | install | rotate | remove | release | scanRelease | load | handover
    | emit | hostScrubbed => exact access_unfixed
    | calData dt w => cases w <;> exact access_unfixed
    | fatalFault =>
      exact always_unfixed fun ht =>
        Same.ite (fatalFault_same rfl rfl rfl rfl rfl rfl rfl rfl rfl rfl rfl rfl rfl rfl rfl rfl rfl rfl rfl rfl rfl rfl rfl rfl rfl rfl rfl rfl
            rfl rfl (pageFirst_unfixed ht)) ht
    | quiesceComplete => exact onPage_unfixed fun ht => quiesceComplete_same rfl rfl rfl rfl rfl rfl rfl rfl ht
    | quiesceOverdue => exact onPage_unfixed fun ht => quiesceOverdue_same rfl rfl rfl ht
    | stateReport => exact onPage_unfixed fun ht => stateReport_same rfl rfl rfl rfl rfl rfl rfl ht
    | auditAnswer => exact onPage_unfixed fun ht => auditAnswer_same rfl rfl rfl rfl rfl rfl rfl rfl rfl rfl rfl ht
    | stepAt => exact act_unfixed fun ht => stepAt_same rfl rfl rfl rfl rfl rfl rfl rfl rfl rfl rfl rfl ht
    | serialMessage => exact only_unfixed fun ht => serialMessage_same rfl rfl rfl ht
    | statusRequest => exact only_unfixed fun ht => statusRequest_same rfl rfl ht
    | commandIssue => exact onHed_unfixed fun ht => issueCaptured_same rfl rfl rfl rfl rfl ht
    | commandRetire => exact onHed_unfixed fun ht => retireCaptured_same rfl rfl rfl ht
    | spanAccept => exact onHed_unfixed fun ht => spanAccept_same rfl rfl rfl rfl rfl rfl rfl rfl rfl rfl ht
    | stallReasonChange => exact onHed_unfixed fun ht => stallChange_same rfl rfl ht
    | stallSamplePeriodic => exact onHed_unfixed fun ht => stallPeriodic_same rfl rfl ht
    | counterSample => exact onHed_unfixed fun ht => counterSample_same rfl rfl (addEdges_same rfl ht)
    | clockStateChange => exact onHed_unfixed fun ht => clockState_same rfl rfl rfl (addEdges_same rfl ht)
    | gapLimit => exact onHed_unfixed fun ht => gapLimit_same rfl (addEdges_same rfl ht)
    | outputBeat => exact onHed_unfixed fun ht => outputBeat_same rfl rfl rfl rfl rfl rfl rfl rfl rfl rfl rfl rfl rfl rfl rfl rfl ht
    | gateRequest => exact onHed_unfixed fun ht => gateRequest_same rfl rfl rfl rfl ht
    | gateOpen => exact onHed_unfixed fun ht => gateOpen_same rfl rfl rfl ht
    | armedPartFire => exact onPage_unfixed fun ht => armedFire_same rfl rfl rfl rfl rfl rfl rfl rfl rfl ht
    | stopTreeArrival => exact onPage_unfixed fun ht => treeArrival_same rfl rfl rfl rfl rfl rfl ht
    | holdAck => exact onHed_unfixed fun ht => holdAck_same rfl ht
    | holdTimeout => exact onHed_unfixed fun ht => holdTimeout_same rfl rfl rfl ht
    | scanWord => exact onHed_unfixed fun ht => scanWord_same rfl rfl rfl rfl ht
    | scanWordTimeout => exact onHed_unfixed fun ht => scanWordTimeout_same rfl rfl rfl ht
    | resumeArrival => exact onPage_unfixed fun ht => resumeArrival_same rfl rfl rfl rfl rfl ht
    | fwReady => exact act_unfixed fun ht => fwReady_same rfl rfl rfl rfl rfl ht
    | reloadComplete =>
      exact act_unfixed fun ht =>
        reloadComplete_same rfl rfl rfl rfl rfl rfl rfl rfl rfl rfl rfl rfl rfl rfl rfl rfl rfl rfl rfl rfl rfl rfl rfl rfl rfl rfl rfl rfl rfl rfl ht
    | fwReject =>
      exact act_unfixed fun ht =>
        fwReject_same rfl rfl rfl rfl rfl rfl rfl rfl rfl rfl rfl rfl rfl rfl rfl rfl rfl rfl rfl rfl rfl rfl rfl rfl rfl rfl rfl rfl rfl rfl ht
    | acceptTimeout =>
      exact act_unfixed fun ht =>
        acceptTimeout_same rfl rfl rfl rfl rfl rfl rfl rfl rfl rfl rfl rfl rfl rfl rfl rfl rfl rfl rfl rfl rfl rfl rfl rfl rfl rfl rfl rfl rfl rfl ht
    | watchdogExpiry =>
      exact act_unfixed fun ht =>
        watchdogExpiry_same rfl rfl rfl rfl rfl rfl rfl rfl rfl rfl rfl rfl rfl rfl rfl rfl rfl rfl rfl rfl rfl rfl rfl rfl rfl rfl rfl rfl rfl rfl ht
    | _ => exact absurd hc.symm Bool.noConfusion

/-- Settles O3: the footprint of every command leaves out the queue and what was instantiated. -/
theorem commandsTakeTurns : Obligations.CommandsTakeTurns :=
  fun c s _ ht => ⟨Same.get (f := .pending) (exec_unfixed c s _ ht) rfl, Same.get (f := .inst) (exec_unfixed c s _ ht) rfl⟩

end Sys2Proof.Proofs
end

section
/-! How parts move: an operation leaves the state, STATE_SEQ and cause of every part, or leads one part along one transition. The
relations, the operations that leave every part where it is, and the transitions (R68, R70). -/

namespace Sys2Proof.Proofs

open Sys2Proof.Machine Sys2Proof.Safety Sys2Proof.Laws

/-! ### The relations -/

/-- No part shows another state, STATE_SEQ or cause, in a block described alike. -/
structure Still (s t : State) : Prop where
  inst : t.inst = s.inst
  booting : t.booting = s.booting
  stores : msorted t.parts = true
  core : ∀ q, partCore (part t q) = partCore (part s q)

/-- One part has made one transition, and no other part has moved. -/
structure Moved (p : Nat) (dst : PState) (cause : BitVec 8) (s t : State) : Prop where
  inst : t.inst = s.inst
  booting : t.booting = s.booting
  stores : msorted t.parts = true
  rest : ∀ q, q ≠ p → partCore (part t q) = partCore (part s q)
  core : partCore (part t p) = (dst, (part s p).seq + 1, cause)

variable {s t u : State} {p : Nat} {dst : PState} {cause : BitVec 8}

theorem Still.refl (h : msorted s.parts = true) : Still s s := ⟨rfl, rfl, h, fun _ => rfl⟩

theorem Still.pst_eq (h : Still s t) (q : Nat) : pst t q = pst s q := congrArg (·.1) (h.core q)

theorem Still.seq_eq (h : Still s t) (q : Nat) : (part t q).seq = (part s q).seq := congrArg (·.2.1) (h.core q)

theorem Still.trans (h : Still s t) (h' : Still t u) : Still s u :=
  ⟨h'.inst.trans h.inst, h'.booting.trans h.booting, h'.stores, fun q => (h'.core q).trans (h.core q)⟩

theorem Moved.pst_eq (h : Moved p dst cause s t) : pst t p = dst := congrArg (·.1) h.core

theorem Moved.seq_eq (h : Moved p dst cause s t) : (part t p).seq = (part s p).seq + 1 := congrArg (·.2.1) h.core

theorem Moved.cause_eq (h : Moved p dst cause s t) : (part t p).cause = cause := congrArg (·.2.2) h.core

theorem Still.moved (h : Still s t) (h' : Moved p dst cause t u) : Moved p dst cause s u :=
  ⟨h'.inst.trans h.inst, h'.booting.trans h.booting, h'.stores, fun q hq => (h'.rest q hq).trans (h.core q),
    by rw [h'.core, h.seq_eq]⟩

theorem Moved.still (h : Moved p dst cause s t) (h' : Still t u) : Moved p dst cause s u :=
  ⟨h'.inst.trans h.inst, h'.booting.trans h.booting, h'.stores, fun q hq => (h'.core q).trans (h.rest q hq), (h'.core p).trans h.core⟩

/-- An operation whose footprint names no parts leaves them where they are. -/
theorem Still.of_same (h : Same partFree t u) (hs : Still s t) : Still s u := by
  have hb : u.booting = t.booting := Same.get (f := .booting) h rfl
  have hp : u.parts = t.parts := Same.get (f := .parts) h rfl
  exact ⟨(Same.get (f := .inst) h rfl).trans hs.inst, hb.trans hs.booting, by rw [hp]; exact hs.stores,
    fun q => (congrArg partCore (part_congr hb hp q)).trans (hs.core q)⟩

theorem Moved.of_same (h : Same partFree t u) (hs : Moved p dst cause s t) : Moved p dst cause s u :=
  hs.still (.of_same h (.refl hs.stores))

theorem Still.ite {c : Prop} [Decidable c] (h : Still s t) (h' : Still s u) : Still s (if c then t else u) := by
  split <;> assumption

theorem foldl_still {α : Type} {f : State → α → State} (hf : ∀ t x, Still s t → Still s (f t x)) (l : List α) {t : State} (h : Still s t) :
    Still s (l.foldl f t) := by
  induction l generalizing t with
  | nil => exact h
  | cons x l ih => exact ih (hf t x h)

/-- A change of a part that keeps its state, STATE_SEQ and cause. -/
theorem updPart_still {f : Part → Part} (hf : partCore (f (part t p)) = partCore (part t p)) (h : Still s t) : Still s (updPart t p f) := by
  refine ⟨h.inst, h.booting, msorted_mset _ _ _ _ h.stores, fun q => (h.core q).symm ▸ ?_⟩
  by_cases hq : q = p
  · rw [hq, part_updPart _ _ _ h.stores, hf]
  · rw [part_updPart_other _ _ hq]

theorem transition_moved (h : Still s t) : Moved p dst cause s (transition p dst cause t) := by
  refine h.moved ⟨rfl, rfl, msorted_mset _ _ _ _ h.stores, fun q hq => by rw [transition, part_updPart_other _ _ hq], ?_⟩
  rw [transition, part_updPart _ _ _ h.stores]
  by_cases hp : p = pgHub
  · simp only [if_pos hp, partCore]
  · simp only [if_neg hp, partCore]

/-! ### Operations that leave every part where it is -/

theorem viewChanged_still {was : PState} (h : Still s t) : Still s (viewChanged p was t) :=
  .of_same (viewChanged_same rfl rfl rfl rfl rfl rfl (Same.refl _ _)) h

theorem applyReport_still {r : Report} (h : Still s t) : Still s (applyReport p r t) := by
  unfold applyReport
  exact Still.ite h (viewChanged_still (updPart_still rfl h))

theorem drainReports_still (h : Still s t) : Still s (drainReports p t) :=
  foldl_still (fun _ _ => applyReport_still) _ (updPart_still rfl h)

theorem compareView_still {kind : Nat} (h : Still s t) : Still s (compareView p kind t).2 := by
  unfold compareView
  dsimp only
  split
  · exact h
  · refine .of_same (bump_same rfl (emitHub_same rfl rfl rfl rfl rfl rfl rfl (setErr_same rfl rfl (Same.refl _ _)))) (viewChanged_still
        (updPart_still rfl h))

theorem askAudit_still {kind : Nat} (h : Still s t) : Still s (askAudit p kind t) := by
  unfold askAudit
  exact Still.ite (updPart_still rfl h) h

theorem popReport_still (h : Still s t) : Still s (popReport p t) := updPart_still rfl h

theorem stateReport_still {bad : Bool} (h : Still s t) : Still s (stateReport p bad t) := by
  unfold stateReport
  split
  · exact h
  · exact Still.ite h (Still.ite (.of_same (bump_same rfl (Same.refl _ _)) (popReport_still h)) (applyReport_still (popReport_still h)))

theorem auditAnswer_still (h : Still s t) : Still s (auditAnswer p t) := by
  unfold auditAnswer
  split
  · exact h
  · split
    · exact compareView_still (drainReports_still (updPart_still rfl h))
    · exact Still.ite (.of_same (auditDone_same rfl rfl (Same.set_audit rfl (Same.refl _ _))) (compareView_still (drainReports_still h))) h

theorem initialAudit_still (h : Still s t) : Still s (initialAudit t) := by
  unfold initialAudit
  refine foldl_still (fun u q hu => viewChanged_still (updPart_still ?_ hu)) _ (.of_same (Same.set_audit rfl (Same.refl _ _)) h)
  rfl

theorem afterReset_still {stay : Nat} (h : Still s t) : Still s (afterReset p stay t) := by
  unfold afterReset
  split
  · exact .of_same (applyRecorded_same rfl rfl rfl rfl rfl rfl rfl rfl rfl (Same.refl _ _)) h
  · exact .of_same (handoverHubBack_same rfl (payOwed_same rfl rfl rfl rfl rfl rfl rfl rfl (Same.refl _ _))) (initialAudit_still (.of_same
        (awaitPort_same rfl (Same.refl _ _)) h))
  · exact h

theorem quiesceOverdue_still (h : Still s t) : Still s (quiesceOverdue p t) := by
  unfold quiesceOverdue
  exact Still.ite (.of_same (setErr_same rfl rfl (Same.refl _ _)) (updPart_still rfl h)) h

theorem partCore_keepOld (old new : Nat) (x : Part) : partCore (keepOld old new x) = partCore x := by
  unfold keepOld
  split <;> rfl

theorem stepTakesForce_still (h : Still s t) : Still s (stepTakesForce t) := by
  unfold stepTakesForce
  split
  · exact h
  · refine .of_same (timeRecord_same rfl rfl rfl rfl rfl rfl rfl rfl (Same.set_counts rfl (Same.refl _ _))) ?_
    exact foldl_still (fun _ _ => updPart_still (partCore_keepOld ..)) _ (.of_same (Same.set_tim rfl rfl (Same.refl _ _)) h)

theorem stepAt_still (h : Still s t) : Still s (stepAt t) := by
  unfold stepAt
  split
  · exact h
  · exact Still.ite (Still.ite (.of_same (servoStepped_same rfl (Same.refl _ _)) (stepTakesForce_still h)) (stepTakesForce_still h)) h

theorem statusRequest_still (h : Still s t) : Still s (statusRequest p t) := by
  unfold statusRequest
  exact Still.ite (.of_same (statusMsg_same rfl (Same.refl _ _)) (updPart_still rfl h)) h

theorem serialMessage_still {m : BitVec 192} (h : Still s t) : Still s (serialMessage p m t) := by
  have hbad {u : State} (hu : Still s u) : Still s (refreshError p u) := .of_same (refreshError_same rfl rfl (Same.refl _ _)) hu
  unfold serialMessage
  dsimp only
  split
  · exact h
  · split
    · exact hbad (Still.ite (updPart_still rfl h) h)
    · split
      · exact h
      · refine Still.ite (updPart_still ?_ h) (hbad (updPart_still ?_ h)) <;> (dsimp only [partCore]; split <;> rfl)

theorem resetPart_still (h : Still s t) : Still s (resetPart p t) := .of_same (calPartReset_same rfl rfl rfl (Same.refl _ _)) (updPart_still rfl h)

theorem readClears_still {k : PageKind} {off : Nat} {row : RegRow} (h : Still s t) : Still s (readClears k p off row t) := by
  have h1 : Still s (if row.rc = 0 then t else regPut t p off (regGet t p off &&& ~~~row.rc)) :=
    Still.ite h (.of_same (regPut_same rfl (Same.refl _ _)) h)
  unfold readClears
  dsimp only
  split
  · exact updPart_still rfl h1
  · split
    · exact .of_same (keyReadClear_same rfl (Same.refl _ _)) h1
    · split
      · exact Still.ite (.of_same (highWater_same rfl (Same.refl _ _)) h1) h1
      · exact h1

theorem readWord_still {k : PageKind} {off : Nat} {row : RegRow} {w : Word} (hr : readWord k p off row t = some (w, u)) (h : Still s t) :
    Still s u := by
  unfold readWord at hr
  split at hr
  · exact .of_same (testNext_same_eq rfl (Option.some.inj hr) (Same.refl _ _)) h
  · split at hr
    · obtain rfl : (claim ((off - 0x100) / 0x40) t).2 = u := congrArg (·.2) (Option.some.inj hr)
      exact .of_same (claim_same rfl rfl (Same.refl _ _)) h
    · split at hr
      · exact .of_same (calAccess_same rfl rfl (Same.refl _ _) _ _ hr) h
      · cases hr
        exact readClears_still h

theorem reject_still {a : Access} {rule : Nat} (h : Still s t) : Still s (reject a rule t) := by
  have h1 : Same partFree t (regPut (bump t pgHub (if rule = 1 then 0x58 else 0x50) 31 0 1) pgHub 0x60
      (packW [(62, 2, if rule = 1 then 2 else 1), (61, 1, bn a.wr), (57, 4, rule), (3, 22, a.addr / 8)])) :=
    regPut_same rfl (bump_same rfl (Same.refl _ _))
  unfold reject
  exact Still.ite (askAudit_still (.of_same (setErr_same rfl rfl h1) h)) (.of_same h1 h)

end Sys2Proof.Proofs
end

section
/-! The transitions that operations make, and what a command makes of them (Table RM-11, R130, R278): a part moves at most once, but for
a Heddle that leaves ENABLED before the command acts on it, and the Treadle that passes QUIESCING. -/

namespace Sys2Proof.Proofs

open Sys2Proof.Machine Sys2Proof.Safety Sys2Proof.Laws

variable {s t u v : State} {p h : Nat} {dst : PState} {cause : BitVec 8}

/-! ### Pages and kinds -/

theorem pageKind_hed_page {i : Inst} (hk : pageKind i p = some (.hed h)) : p = pgHed h := by
  simp only [pageKind, ite_eq, Option.some.injEq, PageKind.hed.injEq, reduceCtorEq, and_false, or_false, false_or] at hk
  unfold pgHed
  omega

theorem kindOf_hed (hk : kindOf s p = .hed h) : p = pgHed h := by
  unfold kindOf at hk
  cases e : pageKind s.inst p with
  | none => rw [e] at hk; cases hk
  | some k =>
    rw [e] at hk
    exact pageKind_hed_page (e.trans (congrArg some hk))

/-! ### A transition, with what entering and leaving do -/

theorem hedGone_moved {how : Exit} (hs : Still s t) : Moved (pgHed h) dst cause s (hedGone h dst cause how t) := by
  have h1 : Still s (if isEnabled t (pgHed h) then
      disarmPart (pgHed h) (gateReleased h (if how == .fault then hedFails h t else t)) else t) :=
    Still.ite (.of_same (disarmPart_same rfl (gateReleased_same rfl rfl rfl (Same.ite (hedFails_same rfl rfl (Same.refl _ _))
        (Same.refl _ _)))) hs) hs
  have h2 : Moved (pgHed h) dst cause s (transition (pgHed h) dst cause _) := transition_moved h1
  unfold hedGone
  dsimp only
  split
  · exact h2
  · refine h2.still (.of_same (lowerHold_same rfl (Same.refl _ _)) ?_)
    exact Still.ite (resetPart_still (.refl h2.stores)) (.refl h2.stores)

theorem leaveNow_moved {how : Exit} (hs : Still s t) : Moved p dst cause s (leaveNow p dst cause how t) := by
  unfold leaveNow
  split
  · rename_i h hk
    rw [kindOf_hed hk]
    exact hedGone_moved hs
  · have h1 : Still s (slotsFail p how (if pst t p == .enabled then disarmPart p t else t)) :=
      .of_same (slotsFail_same rfl rfl rfl (Same.ite (disarmPart_same rfl (Same.refl _ _)) (Same.refl _ _))) hs
    have h2 : Moved p dst cause s (transition p dst cause _) := transition_moved h1
    refine h2.still (.of_same (afterLeaving_same rfl rfl rfl rfl rfl rfl rfl rfl rfl rfl rfl rfl rfl rfl rfl rfl rfl rfl rfl rfl rfl rfl rfl rfl rfl
        (Same.refl _ _)) ?_)
    exact Still.ite (resetPart_still (.refl h2.stores)) (.refl h2.stores)

theorem enterEnabled_moved (hs : Still s t) : Moved p .enabled 0x01 s (enterEnabled p t) := by
  refine Moved.of_same ?_ (transition_moved hs)
  unfold enterEnabled
  dsimp only
  split
  · exact testEnabled_same rfl (hedEnters_same rfl (stopEnters_same rfl rfl (Same.refl _ _)))
  · exact witRun_same rfl rfl rfl rfl rfl rfl rfl rfl rfl rfl rfl rfl (stopEnters_same rfl rfl (newVecKey_same rfl rfl (copyShadow_same rfl
        (beginReturn_same rfl rfl rfl (serveAgain_same rfl (Same.refl _ _))))))
  · exact witRun_same rfl rfl rfl rfl rfl rfl rfl rfl rfl rfl rfl rfl (Same.refl _ _)
  · exact linkEnters_same rfl rfl rfl rfl rfl rfl rfl rfl rfl (stopEnters_same rfl rfl (Same.refl _ _))
  · exact recheck_same rfl rfl rfl rfl rfl rfl rfl rfl rfl rfl (ethClear_same rfl rfl rfl rfl rfl rfl rfl rfl rfl rfl rfl (Same.refl _ _))
  · exact Same.ite (updFw_same rfl (Same.refl _ _)) (fwEnters_same rfl (Same.refl _ _))
  · exact reportLatches_same rfl rfl (Same.refl _ _)
  · exact Same.refl _ _

/-! ### Once -/

/-- No part moves but one, and that one at most along one arrow of Table RM-11. -/
def Once (p : Nat) (s t : State) : Prop := Still s t ∨ ∃ dst cause, Moved p dst cause s t ∧ partArrow (pst s p) dst = true

/-- A Heddle has left ENABLED, to quiesce or by reset. -/
def Left (p : Nat) (s t : State) : Prop :=
  pst s p = .enabled ∧ ∃ dst cause, (dst = .quiescing ∨ dst = .resetting) ∧ Moved p dst cause s t

theorem Once.of_still (h : Still s t) : Once p s t := .inl h

theorem Once.of_moved (h : Moved p dst cause s t) (ha : partArrow (pst s p) dst = true) : Once p s t := .inr ⟨_, _, h, ha⟩

theorem Once.stores (h : Once p s t) : msorted t.parts = true := h.elim (·.stores) fun ⟨_, _, hm, _⟩ => hm.stores

theorem Once.still (h : Once p s t) (h' : Still t u) : Once p s u :=
  h.imp (·.trans h') fun ⟨d, c, hm, ha⟩ => ⟨d, c, hm.still h', ha⟩

theorem Once.of_same (h : Same partFree t u) (ht : Once p s t) : Once p s u := ht.still (.of_same h (.refl ht.stores))

theorem Still.once (h : Still s t) (h' : Once p t u) : Once p s u :=
  h'.imp h.trans fun ⟨d, c, hm, ha⟩ => ⟨d, c, h.moved hm, h.pst_eq p ▸ ha⟩

theorem Left.once (h : Left p s t) : Once p s t := by
  obtain ⟨he, dst, cause, hd, hm⟩ := h
  refine .of_moved hm ?_
  rw [he]
  obtain rfl | rfl := hd <;> rfl

theorem Still.left (h : Still s t) (h' : Left p t u) : Left p s u := by
  obtain ⟨he, dst, cause, hd, hm⟩ := h'
  exact ⟨(h.pst_eq p).symm.trans he, dst, cause, hd, h.moved hm⟩

/-! ### A Heddle leaves ENABLED -/

theorem finishLeaving_cases (hs : Still s t) : Still s (finishLeaving h t) ∨ Left (pgHed h) s (finishLeaving h t) := by
  unfold finishLeaving
  split
  · exact .inl hs
  · rename_i rst cause _
    split
    · rename_i hc
      have he : pst t (pgHed h) = .enabled := by simpa [isEnabled] using (Bool.and_eq_true_iff.mp hc).1
      refine .inr ⟨(hs.pst_eq _).symm.trans he, _, cause, ?_, hedGone_moved (.of_same (updHed_same rfl (Same.refl _ _)) hs)⟩
      cases rst
      · exact .inl rfl
      · exact .inr rfl
    · exact .inl hs

theorem hedFirst_cases (hs : Still s t) : Still s (hedFirst h t) ∨ Left (pgHed h) s (hedFirst h t) :=
  finishLeaving_cases (.of_same (Same.ite (settleSpans_same rfl rfl rfl rfl rfl rfl rfl rfl rfl rfl (Same.refl _ _))
      (settleHed_same rfl rfl rfl rfl rfl rfl rfl rfl rfl rfl (Same.refl _ _))) hs)

theorem beginLeaving_cases {rst : Bool} (hs : Still s t) :
    Still s (beginLeaving h rst cause t) ∨ Left (pgHed h) s (beginLeaving h rst cause t) := by
  unfold beginLeaving
  split
  · exact .inl (Still.ite (.of_same (updHed_same rfl (Same.refl _ _)) hs) hs)
  · exact hedFirst_cases (.of_same (updHed_same rfl (hedLeaves_same rfl (Same.refl _ _))) hs)

theorem pageFirst_cases (hs : Still s t) : Still s (pageFirst p t) ∨ (pgHed 0 ≤ p ∧ Left p s (pageFirst p t)) := by
  unfold pageFirst
  split
  · rename_i h hk
    rw [pageKind_hed_page hk]
    exact (hedFirst_cases hs).imp_right fun hl => ⟨Nat.add_le_add_left h.zero_le _, hl⟩
  · exact .inl (.of_same (settleLnk_same rfl rfl rfl rfl rfl rfl rfl rfl (Same.refl _ _)) hs)
  · exact .inl (.of_same (witFlush_same rfl rfl rfl rfl rfl rfl rfl rfl rfl rfl rfl rfl (Same.refl _ _)) hs)
  · exact .inl hs

theorem leave_once {how : Exit} (ha : partArrow (pst s p) dst = true) (hs : Still s t) : Once p s (leave p dst cause how t) := by
  have hnow : Once p s (leaveNow p dst cause how t) := .of_moved (leaveNow_moved hs) ha
  unfold leave
  split
  · rename_i h hk
    split
    · rw [kindOf_hed hk]
      exact (beginLeaving_cases hs).elim .of_still Left.once
    · exact hnow
  · exact hnow

/-! ### Actions of the host -/

/-- What an access or an event does to a part once what had come due in it is decided: the Treadle's DISABLE makes two transitions. -/
def Acts (p : Nat) (s t : State) : Prop :=
  Once p s t ∨ (p = pgTrd ∧ pst s p = .enabled ∧ ∃ u c c', Moved p .quiescing c s u ∧ Moved p .disabled c' u t)

theorem actEnable_once (hst : msorted t.parts = true) (he : actEnable p t = some u) : Once p t u := by
  unfold actEnable at he
  split at he
  · rename_i hp
    split at he
    · cases he
      exact .of_moved (enterEnabled_moved (.refl hst)) (by rw [hp]; rfl)
    · cases he
  · cases he
    exact .of_still (.refl hst)
  · rename_i hp
    cases he
    exact .of_moved (enterEnabled_moved (.refl hst)) (by rw [hp]; rfl)
  · cases he

theorem actDisable_acts {k : PageKind} (hk : pageKind t.inst p = some k) (hh : homeOf t.inst k p = p) (hst : msorted t.parts = true)
    (he : actDisable p t = some u) : Acts p t u := by
  unfold actDisable at he
  split at he
  · cases he
    exact .inl (.of_still (.refl hst))
  · cases he
    exact .inl (.of_still (.refl hst))
  · rename_i hp
    rw [kindOf_eq hk] at he
    cases k with
    | trd j =>
      obtain rfl : pgTrd = p := hh
      cases he
      have hl : leave pgTrd .quiescing 0x01 .disable t = leaveNow pgTrd .quiescing 0x01 .disable t := by
        unfold leave
        rw [kindOf_eq hk]
      have hm : Moved pgTrd .quiescing 0x01 t (leave pgTrd .quiescing 0x01 .disable t) := hl ▸ leaveNow_moved (.refl hst)
      exact .inr ⟨rfl, hp, _, _, _, hm, transition_moved (.refl hm.stores)⟩
    | hub | beam | sync | stop | key | fw | cal | lnk | wit | reed | hed =>
      cases he
      exact .inl (leave_once (by rw [hp]; rfl) (.refl hst))
  · cases he

theorem actReset_once (hst : msorted t.parts = true) (he : actReset p cause t = some u) : Once p t u := by
  have ha {x : PState} (hp : pst t p = x) (hx : partArrow x .resetting = true)
      (he : (if p = pgKey && t.key.slots.any fun e => e.2.live then none else some (leave p .resetting cause .reset t)) = some u) :
      Once p t u := by
    split at he
    · cases he
    · cases he
      exact leave_once (hp ▸ hx) (.refl hst)
  unfold actReset at he
  split at he
  · exact ha ‹_› rfl he
  · exact ha ‹_› rfl he
  · exact ha ‹_› rfl he
  · exact ha ‹_› rfl he
  · cases he

theorem actRetire_moved (hst : msorted t.parts = true) (he : actRetire p t = some u) :
    Moved p .retired 0x01 t u ∧ (pst t p = .disabled ∨ pst t p = .failed) := by
  have hm : Moved p .retired 0x01 t (transition p .retired 0x01 t) := transition_moved (.refl hst)
  unfold actRetire at he
  have hp : pst t p = .disabled ∨ pst t p = .failed := by
    revert he
    cases pst t p with
    | disabled => exact fun _ => .inl rfl
    | failed => exact fun _ => .inr rfl
    | _ => exact nofun
  refine ⟨?_, hp⟩
  rcases hp with hp | hp
  all_goals
    rw [hp] at he
    dsimp only at he
    split at he
    · cases he
      split
      · exact .of_same (testRetired_same rfl rfl rfl rfl rfl rfl rfl rfl rfl (Same.refl _ _)) hm
      · exact hm
    · cases he

theorem actReinstate_moved (hst : msorted t.parts = true) (he : actReinstate p t = some u) :
    Moved p .resetting 0x01 t u ∧ pst t p = .retired := by
  have hm : Moved p .resetting 0x01 t (transition p .resetting 0x01 t) := transition_moved (.refl hst)
  have hm' : Moved p .resetting 0x01 t (resetPart p (transition p .resetting 0x01 t)) := hm.still (resetPart_still (.refl hm.stores))
  unfold actReinstate at he
  split at he
  · rename_i hp
    refine ⟨?_, hp⟩
    split at he
    · cases he
      split
      · exact .of_same (updTests_same rfl (Same.refl _ _)) hm'
      · exact hm'
    · cases he
  · cases he

theorem actAudit_still (hs : Still s t) : Still s (actAudit p t) :=
  Still.ite (foldl_still (fun _ _ => askAudit_still) _ hs) (askAudit_still hs)

theorem doAction_acts {k : PageKind} {code : Nat} (hk : pageKind t.inst p = some k) (hh : homeOf t.inst k p = p)
    (hst : msorted t.parts = true) (he : doAction k p code cause t = some u) : Acts p t u := by
  have hfree (h : SameO partFree t (some u)) : Acts p t u := .inl (.of_still (.of_same (h u rfl) (.refl hst)))
  unfold doAction at he
  split at he
  · cases he
    exact .inl (.of_still (.refl hst))
  split at he
  · exact .inl (actEnable_once hst he)
  split at he
  · exact actDisable_acts hk hh hst he
  split at he
  · exact .inl (actReset_once hst he)
  split at he
  · obtain ⟨hm, hp⟩ := actRetire_moved hst he
    exact .inl (.of_moved hm (by rcases hp with hp | hp <;> rw [hp] <;> rfl))
  split at he
  · obtain ⟨hm, hp⟩ := actReinstate_moved hst he
    exact .inl (.of_moved hm (by rw [hp]; rfl))
  split at he
  · cases he
    exact .inl (.of_still (actAudit_still (.refl hst)))
  cases k with
  | hub => exact hfree (he ▸ hubAction_same rfl rfl rfl rfl rfl rfl rfl rfl rfl rfl rfl rfl rfl rfl rfl rfl rfl rfl rfl rfl rfl rfl rfl rfl
      (Same.refl _ _))
  | reed r => exact hfree (he ▸ reedAction_same rfl rfl rfl rfl rfl rfl rfl rfl rfl rfl rfl rfl rfl rfl rfl rfl rfl rfl rfl rfl rfl rfl
      (Same.refl _ _))
  | key => exact hfree (he ▸ keyAction_same rfl rfl rfl rfl rfl rfl rfl rfl rfl rfl (Same.refl _ _))
  | fw => exact hfree (he ▸ fwAction_same rfl rfl rfl rfl rfl rfl rfl rfl rfl rfl (Same.refl _ _))
  | lnk n =>
    dsimp only at he
    split at he
    · exact hfree (he ▸ ringRelease_same rfl (Same.refl _ _))
    · cases he
  | beam | sync | stop | cal | trd | wit | hed => cases he

/-! ### Faults, and the ends of QUIESCING and RESETTING -/

theorem fatal_failed {bit : Nat} (hs : Still s t) (h1 : pst t p ≠ .failed) (h2 : pst t p ≠ .retired) :
    Moved p .failed cause s (fatal p bit cause t) := by
  have he : Still s (setErr p bit t) := .of_same (setErr_same rfl rfl (Same.refl _ _)) hs
  have hl : leave p .failed cause .fault (setErr p bit t) = leaveNow p .failed cause .fault (setErr p bit t) := by
    unfold leave
    split
    · simp
    · rfl
  unfold fatal
  split
  · exact absurd ‹_› h1
  · exact absurd ‹_› h2
  · exact .of_same (raise_same rfl rfl (Same.refl _ _)) (hl ▸ leaveNow_moved he)

theorem fatal_recorded {bit : Nat} (hp : pst t p = .failed ∨ pst t p = .retired) : fatal p bit cause t = setErr p bit t := by
  unfold fatal
  rcases hp with hp | hp <;> rw [hp]

/-- The cause that a fatal fault gives (R70). -/
def faultCause (c : FaultCause) : BitVec 8 := if c = .timeout then 0x05 else 0x04

theorem fatalFault_failed (c : FaultCause) (hs : Still s t) (h1 : pst t p ≠ .failed) (h2 : pst t p ≠ .retired) :
    Moved p .failed (faultCause c) s (fatalFault p c t) := by
  have h4 : Moved p .failed 0x04 s (fatal p 60 0x04 t) := fatal_failed hs h1 h2
  cases c with
  | ecc => exact h4
  | timeout => exact fatal_failed hs h1 h2
  | retention n known => exact h4.of_same (retentionLost_same rfl rfl rfl rfl rfl rfl rfl rfl (Same.refl _ _))
  | notices known => exact h4.of_same (Same.ite (noticesLost_same rfl rfl rfl rfl rfl rfl rfl rfl (Same.refl _ _)) (Same.refl _ _))

/-- A part that is FAILED or RETIRED only records a fatal fault. -/
theorem fatalFault_recorded (c : FaultCause) (hp : pst t p = .failed ∨ pst t p = .retired) : Same partFree t (fatalFault p c t) := by
  have h4 : Same partFree t (fatal p 60 0x04 t) := fatal_recorded hp ▸ setErr_same rfl rfl (Same.refl _ _)
  cases c with
  | ecc => exact h4
  | timeout => exact (fatal_recorded hp ▸ setErr_same rfl rfl (Same.refl _ _) : Same partFree t (fatal p 59 0x05 t))
  | retention n known => exact retentionLost_same rfl rfl rfl rfl rfl rfl rfl rfl h4
  | notices known => exact Same.ite (noticesLost_same rfl rfl rfl rfl rfl rfl rfl rfl h4) h4

theorem partArrow_failed {x : PState} (h1 : x ≠ .failed) (h2 : x ≠ .retired) : partArrow x .failed = true := by
  cases x with
  | failed => exact absurd rfl h1
  | retired => exact absurd rfl h2
  | _ => rfl

theorem fatalFault_once (c : FaultCause) (hst : msorted t.parts = true) : Once p t (fatalFault p c t) := by
  by_cases hp : pst t p = .failed ∨ pst t p = .retired
  · exact .of_still (.of_same (fatalFault_recorded c hp) (.refl hst))
  · obtain ⟨h1, h2⟩ := not_or.mp hp
    exact .of_moved (fatalFault_failed c (.refl hst) h1 h2) (partArrow_failed h1 h2)

theorem quiesceComplete_moved (hs : Still s t) (hq : pst t p = .quiescing) (hd : quiet t p = true) :
    Moved p .disabled 0x03 s (quiesceComplete p t) := by
  unfold quiesceComplete
  rw [if_pos (by simp [hq, hd])]
  have hm {u : State} (h : Same partFree t u) : Moved p .disabled 0x03 s (transition p .disabled 0x03 u) :=
    transition_moved (.of_same h hs)
  dsimp only
  split
  · refine .of_same (lowerHold_same rfl (Same.refl _ _)) (hm ?_)
    split
    · exact Same.ite (startRehome_same rfl rfl rfl rfl rfl rfl (Same.refl _ _)) (Same.refl _ _)
    · exact Same.refl _ _
  · refine hm ?_
    split
    · exact Same.ite (startRehome_same rfl rfl rfl rfl rfl rfl (Same.refl _ _)) (Same.refl _ _)
    · exact Same.refl _ _

theorem quiesceComplete_idle (h : ¬(pst t p = .quiescing ∧ quiet t p = true)) : quiesceComplete p t = t := by
  unfold quiesceComplete
  exact if_neg (by simpa using h)

theorem quiesceComplete_once (hst : msorted t.parts = true) : Once p t (quiesceComplete p t) := by
  by_cases h : pst t p = .quiescing ∧ quiet t p = true
  · exact .of_moved (quiesceComplete_moved (.refl hst) h.1 h.2) (by rw [h.1]; rfl)
  · rw [quiesceComplete_idle h]
    exact .of_still (.refl hst)

theorem partInitialised_once (hst : msorted t.parts = true) : Once p t (partInitialised p t) := by
  unfold partInitialised
  dsimp only
  split
  · rename_i hc
    simp only [Bool.and_eq_true, beq_iff_eq] at hc
    have hp : pst t p = .resetting := hc.1.2
    have hm : Moved p .disabled 0x03 t (transition p .disabled 0x03 t) := transition_moved (.refl hst)
    exact .of_moved (hm.still (afterReset_still (.refl hm.stores))) (by rw [hp]; rfl)
  · exact .of_still (.refl hst)

/-! ### The management core -/

theorem fwReady_once (hst : msorted t.parts = true) : Once pgFw t (fwReady t) := by
  unfold fwReady
  split
  · exact .of_still (.refl hst)
  · split
    · rename_i hq
      have hq : pst t pgFw = .quiescing := by simpa using hq
      refine .of_moved (transition_moved (.of_same (updFw_same rfl (dropManifest_same rfl rfl (leaveCheckpoint_same rfl rfl (Same.refl _ _))))
          (.refl hst))) ?_
      rw [hq]
      rfl
    · exact .of_still (Still.ite (.of_same (enterReload_same rfl rfl (leaveCheckpoint_same rfl rfl (Same.refl _ _))) (.refl hst)) (.refl hst))

theorem handoverFatal_once {code : Nat} {lose : Bool} (he : isEnabled t pgFw = true) (hst : msorted t.parts = true) :
    Once pgFw t (handoverFatal code cause lose t) := by
  have he : pst t pgFw = .enabled := by simpa [isEnabled] using he
  unfold handoverFatal
  refine .of_same (raise_same rfl rfl (raise_same rfl rfl (Same.refl _ _))) (leave_once (by rw [he]; rfl) ?_)
  exact .of_same (setErr_same rfl rfl (fwResult_same rfl (updFw_same rfl (dropLoader_same rfl rfl (Same.refl _ _))))) (.refl hst)

theorem reloadComplete_once (hst : msorted t.parts = true) : Once pgFw t (reloadComplete t) := by
  unfold reloadComplete
  split
  · rename_i hc
    simp only [Bool.and_eq_true] at hc
    split
    · exact .of_still (.refl hst)
    · exact .of_still (.of_same (enterStart_same rfl rfl (Same.refl _ _)) (.refl hst))
    · exact handoverFatal_once hc.1.2 hst
  · exact .of_still (.refl hst)

theorem fwReject_once (hst : msorted t.parts = true) : Once pgFw t (fwReject t) := by
  unfold fwReject
  split
  · rename_i hc
    simp only [Bool.and_eq_true] at hc
    exact handoverFatal_once hc.1.2 hst
  · exact .of_still (.refl hst)

theorem acceptTimeout_once (hst : msorted t.parts = true) : Once pgFw t (acceptTimeout t) := by
  unfold acceptTimeout
  split
  · exact fwReject_once hst
  · exact .of_still (.refl hst)

theorem fatal_once {bit : Nat} (hs : Still s t) : Once p s (fatal p bit cause t) := by
  by_cases hp : pst t p = .failed ∨ pst t p = .retired
  · exact .of_still (fatal_recorded hp ▸ .of_same (setErr_same rfl rfl (Same.refl _ _)) hs)
  · obtain ⟨h1, h2⟩ := not_or.mp hp
    exact .of_moved (fatal_failed hs h1 h2) (hs.pst_eq p ▸ partArrow_failed h1 h2)

theorem watchdogExpiry_once (hst : msorted t.parts = true) : Once pgFw t (watchdogExpiry t) := by
  unfold watchdogExpiry
  split
  · exact fatal_once (.of_same (bump_same rfl (Same.refl _ _)) (.refl hst))
  · exact .of_still (.refl hst)

/-! ### What has come due comes first -/

/-- The turn of a part under a command: once along Table RM-11, or twice where a Heddle left ENABLED before the command acted on it, or the
Treadle passed QUIESCING. -/
def Turns (p : Nat) (s t : State) : Prop :=
  Once p s t ∨ ((p = pgTrd ∨ pgHed 0 ≤ p) ∧ pst s p = .enabled ∧ ∃ u mid c dst c', (mid = .quiescing ∨ mid = .resetting) ∧
    Moved p mid c s u ∧ Moved p dst c' u t ∧ partArrow mid dst = true)

theorem Turns.stores (h : Turns p s t) : msorted t.parts = true :=
  h.elim (·.stores) fun ⟨_, _, _, _, _, _, _, _, _, hm, _⟩ => hm.stores

theorem Turns.of_still (h : Still s t) : Turns p s t := .inl (.of_still h)

theorem Turns.still (h : Turns p s t) (h' : Still t u) : Turns p s u :=
  h.imp (·.still h') fun ⟨hp, he, w, m, c, d, c', hmid, hm, hm', ha⟩ => ⟨hp, he, w, m, c, d, c', hmid, hm, hm'.still h', ha⟩

theorem Turns.of_same (h : Same partFree t u) (ht : Turns p s t) : Turns p s u := ht.still (.of_same h (.refl ht.stores))

theorem Still.turns (h : Still s t) (h' : Turns p t u) : Turns p s u :=
  h'.imp h.once fun ⟨hp, he, w, m, c, d, c', hmid, hm, hm', ha⟩ =>
    ⟨hp, (h.pst_eq p).symm.trans he, w, m, c, d, c', hmid, h.moved hm, hm', ha⟩

theorem Acts.turns (h : Acts p s t) : Turns p s t :=
  h.imp_right fun ⟨hp, he, u, c, c', hm, hm'⟩ => ⟨.inl hp, he, u, _, c, _, c', .inl rfl, hm, hm', rfl⟩

theorem Left.turns (h : Left p s t) (hp : pgHed 0 ≤ p) (h' : Once p t u) : Turns p s u := by
  rcases h' with hs | ⟨dst, c', hm', ha⟩
  · exact .inl (h.once.still hs)
  · obtain ⟨he, mid, c, hmid, hm⟩ := h
    exact .inr ⟨.inr hp, he, t, mid, c, dst, c', hmid, hm, hm', hm.pst_eq ▸ ha⟩

/-- An effect on the part of a page, once what had come due in it is decided. -/
theorem pageFirst_turns {f : State → State} (hst : msorted t.parts = true) (hf : ∀ {u}, msorted u.parts = true → Acts p u (f u)) :
    Turns p t (f (pageFirst p t)) := by
  rcases pageFirst_cases (p := p) (.refl hst) with hs | ⟨hp, hl⟩
  · exact hs.turns (hf hs.stores).turns
  · rcases hf hl.once.stores with ho | ⟨rfl, -⟩
    · exact hl.turns hp ho
    · exact absurd hp (by decide)

/-- An effect on a Heddle that leaves the parts alone, between what had come due in it and what has come due since. -/
theorem hedFirst_turns {f : State → State} (hst : msorted t.parts = true) (hf : ∀ {u}, Same partFree u (f u)) :
    Turns (pgHed h) t (finishLeaving h (f (hedFirst h t))) := by
  have hone {u : State} (hu : msorted u.parts = true) : Once (pgHed h) u (finishLeaving h (f u)) :=
    (finishLeaving_cases (.of_same hf (.refl hu))).elim .of_still Left.once
  rcases hedFirst_cases (h := h) (.refl hst) with hs | hl
  · exact .inl (hs.once (hone hs.stores))
  · exact hl.turns (Nat.add_le_add_left h.zero_le _) (hone hl.once.stores)

end Sys2Proof.Proofs
end

section
/-! Every command against Table RM-11 (O9): what an access does to the part of its page, each form of a meaning, and each command. -/

namespace Sys2Proof.Proofs

open Sys2Proof.Machine Sys2Proof.Safety Sys2Proof.Laws

variable {s t u : State} {p : Nat} {cause : BitVec 8}

/-! ### An access -/

theorem ctrlWrite_acts {k : PageKind} {d : Word} (hk : pageKind t.inst p = some k) (hst : msorted t.parts = true)
    (he : ctrlWrite k p d cause t = some u) : Acts p t u := by
  unfold ctrlWrite at he
  split at he
  · rename_i hc
    simp only [Bool.and_eq_true, decide_eq_true_eq] at hc
    exact doAction_acts hk hc.1 hst he
  · cases he

theorem writeRule_acts {k : PageKind} {off : Nat} {row : RegRow} {d : Word} (hk : pageKind t.inst p = some k) (hst : msorted t.parts = true) :
    Acts p t (writeRule k p off row d cause t).2 := by
  have hstill {u : State} (h : Same partFree t u) : Acts p t u := .inl (.of_still (.of_same h (.refl hst)))
  unfold writeRule
  split
  · exact hstill (Same.refl _ _)
  split
  · exact hstill (Same.refl _ _)
  split
  · exact hstill (Same.refl _ _)
  split
  · split
    · exact ctrlWrite_acts hk hst ‹_›
    · exact hstill (ctrlRefused_same rfl rfl (Same.refl _ _))
  · exact hstill (writeWord_same rfl rfl rfl rfl rfl rfl rfl rfl rfl rfl rfl rfl rfl rfl rfl rfl (Same.refl _ _))

theorem answer_acts {a : Access} (hst : msorted t.parts = true) : Acts a.page t (answer a cause t).2.2 := by
  have hself : Acts a.page t t := .inl (.of_still (.refl hst))
  unfold answer
  split
  · exact hself
  · rename_i k hk
    split
    · exact hself
    split
    · exact hself
    split
    · exact writeRule_acts hk hst
    · split
      · exact .inl (.of_still (readWord_still ‹_› (.refl hst)))
      · exact hself

theorem answered_turns {a : Access} (hst : msorted t.parts = true) : Turns a.page t (answered a cause t).2.2 := by
  have hans : Turns a.page t (answer a cause (pageFirst a.page t)).2.2 :=
    pageFirst_turns (f := fun u => (answer a cause u).2.2) hst answer_acts
  unfold answered
  dsimp only
  split
  · exact hans
  · exact hans.still (reject_still (.refl hans.stores))

theorem serve_turns {a : Access} (hst : msorted t.parts = true) : Turns a.page t (serve a t) :=
  (answered_turns hst).of_same (Same.set_port rfl (Same.refl _ _))

theorem servePrst_turns (hst : msorted t.parts = true) : ∃ q, Turns q t (servePrst p t) :=
  ⟨_, (answered_turns hst).of_same (Same.set_port rfl (Same.refl _ _))⟩

/-- While READY is low an access waits, or is counted (R31). -/
theorem portAccess_low {a : Access} (hr : t.ready = false) : Same partFree t (portAccess a t) := by
  unfold portAccess
  rw [if_neg (by simp [hr])]
  split
  · exact Same.set_port rfl (Same.refl _ _)
  · exact bump_same rfl (setPortErr_same rfl rfl (Same.refl _ _))

theorem portAccess_turns {a : Access} (hst : msorted t.parts = true) : Turns a.page t (portAccess a t) := by
  cases hr : t.ready with
  | false => exact .of_still (.of_same (portAccess_low hr) (.refl hst))
  | true =>
    unfold portAccess
    rw [if_pos hr]
    exact serve_turns hst

theorem partResetPort_low (hr : t.ready = false) : Same partFree t (partResetPort p t) := by
  unfold partResetPort
  rw [if_neg (by simp [hr])]
  split
  · exact Same.set_port rfl (Same.refl _ _)
  · exact Same.refl _ _

theorem partResetPort_turns (hst : msorted t.parts = true) : ∃ q, Turns q t (partResetPort p t) := by
  cases hr : t.ready with
  | false => exact ⟨p, .of_still (.of_same (partResetPort_low hr) (.refl hst))⟩
  | true =>
    unfold partResetPort
    rw [if_pos hr]
    exact servePrst_turns hst

/-! ### The forms of a meaning -/

/-- What one command, no reset of the block and not the end of its initialisation, does to the parts: with the block running one part has
its turn; until READY rises a part only fails. -/
def Leads (s : State) (o : Out) : Prop :=
  ∀ t, o = .next t → (s.booting = false → ∃ p, Turns p s t) ∧
    (s.booting = true → ∃ p, Still s t ∨ (pst s p = .resetting ∧ ∃ cause, Moved p .failed cause s t))

theorem inv_parts (h : Inv s) : msorted s.parts = true := (inv_sorted h).parts

/-- What a key reads as, whatever an unlisted key would: the default, or its entry. -/
theorem mget_cases {α : Type} (m : List (Nat × α)) (i : Nat) : (∀ d, mget d m i = d) ∨ ∃ e ∈ m, ∀ d, mget d m i = e.2 := by
  induction m with
  | nil => exact .inl fun _ => rfl
  | cons e m ih =>
    obtain ⟨k, x⟩ := e
    by_cases hk : k = i
    · exact .inr ⟨(k, x), List.mem_cons_self .., fun _ => by simp [mget, hk]⟩
    · refine ih.imp (fun h d => by simp [mget, hk, h d]) fun ⟨e, he, h⟩ => ⟨e, List.mem_cons_of_mem _ he, fun d => by simp [mget, hk, h d]⟩

/-- Until READY rises a part is in the RESETTING that the reset began, or has failed in it, which its entry shows. -/
theorem part_low (hs : Inv s) (hb : s.booting = true) (p : Nat) :
    (pst s p = .resetting ∧ ∀ d, mget d s.parts p = d) ∨ (pst s p = .failed ∧ ∃ x, ∀ d, mget d s.parts p = x) := by
  have hd : partDflt s = Part.starting := if_pos hb
  unfold pst part
  rcases mget_cases s.parts p with h | ⟨e, he, h⟩
  · exact .inl ⟨by rw [h, hd]; rfl, h⟩
  · exact .inr ⟨by rw [h]; exact ((hs.low hb).2 e he).1, e.2, h⟩

section Forms

variable {dt : Nat} {f : State → State} (hs : Inv s)
include hs

theorem advance_still : Still s (advance dt s) := .of_same (advance_footprint fun _ => id) (.refl (inv_parts hs))

/-- What follows a command moves no part. -/
theorem always_turns (hf : ∃ p, Turns p (advance dt s) (f (advance dt s))) : ∃ p, Turns p s (always dt f s) := by
  obtain ⟨p, hp⟩ := hf
  exact ⟨p, (advance_still hs).turns (hp.of_same (finish_footprint (fun _ => id) (Same.refl _ _)))⟩

theorem leads_of_partFree {o : Out} (h : Answers partFree s o) : Leads s o := fun t ht => by
  have hst : Still s t := .of_same (h t ht) (.refl (inv_parts hs))
  exact ⟨fun _ => ⟨0, .of_still hst⟩, fun _ => ⟨0, .inl hst⟩⟩

/-- An effect that takes place while READY is low, too, moves no part then. -/
theorem always_leads (hlow : s.ready = false → Same partFree (advance dt s) (f (advance dt s)))
    (hf : ∀ {u}, msorted u.parts = true → ∃ p, Turns p u (f u)) : Leads s (.next (always dt f s)) := fun t ht => by
  cases ht
  have ha : Still s (advance dt s) := advance_still hs
  refine ⟨fun _ => always_turns hs (hf ha.stores), fun hb => ⟨0, .inl ?_⟩⟩
  exact .of_same (finish_footprint (fun _ => id) (hlow (hs.low hb).1)) ha

theorem act_leads (hf : ∀ {u}, msorted u.parts = true → ∃ p, Turns p u (f u)) : Leads s (.next (act dt f s)) := fun t ht => by
  cases ht
  unfold act
  split
  · exact ⟨fun hb => by simp_all, fun _ => ⟨0, .inl (advance_still hs)⟩⟩
  · exact ⟨fun _ => always_turns hs (hf (advance_still hs).stores), fun hb => by simp_all⟩

theorem only_leads {b : Bool} (hf : ∀ {u}, msorted u.parts = true → ∃ p, Turns p u (f u)) : Leads s (only b dt f s) :=
  act_leads hs fun {u} hu => by
    cases b
    · exact ⟨0, .of_still (.refl hu)⟩
    · exact hf hu

theorem still_leads {b : Bool} (hf : ∀ {u}, msorted u.parts = true → Still u (f u)) : Leads s (only b dt f s) :=
  only_leads hs fun hu => ⟨0, .of_still (hf hu)⟩

theorem onPage_leads (hf : ∀ {u}, msorted u.parts = true → Once p u (f u)) : Leads s (onPage p dt f s) :=
  only_leads hs fun hu => ⟨p, pageFirst_turns hu fun hv => .inl (hf hv)⟩

theorem onPage_still_leads (hf : ∀ {u}, msorted u.parts = true → Still u (f u)) : Leads s (onPage p dt f s) :=
  onPage_leads hs fun hu => .of_still (hf hu)

theorem onHed_leads {h : Nat} (hf : ∀ {u}, Same partFree u (f u)) : Leads s (onHed h dt f s) :=
  only_leads hs fun hu => ⟨_, hedFirst_turns hu hf⟩

omit f in
theorem access_leads {a : Access} : Leads s (.next (always dt (portAccess a) s)) :=
  always_leads hs (fun hr => portAccess_low (by simpa using hr)) fun hu => ⟨_, portAccess_turns hu⟩

omit f in
/-- Until READY rises every part is RESETTING or FAILED, so no Heddle is leaving ENABLED, and a fatal fault acts at once (R70). -/
theorem fatalFault_leads {c : FaultCause} :
    Leads s (onlyEver (isHome s.inst p) dt (fun t => fatalFault p c (pageFirst p t)) s) := fun t ht => by
  cases ht
  have ha : Still s (advance dt s) := advance_still hs
  cases hh : isHome s.inst p with
  | false =>
    have hst : Still s (always dt id s) := .of_same (finish_footprint (fun _ => id) (Same.refl _ _)) ha
    exact ⟨fun _ => ⟨0, .of_still hst⟩, fun _ => ⟨0, .inl hst⟩⟩
  | true =>
    refine ⟨fun _ => always_turns hs ⟨p, pageFirst_turns ha.stores fun hu => .inl (fatalFault_once c hu)⟩, fun hb => ⟨p, ?_⟩⟩
    have hlow : pst s p = .resetting ∨ pst s p = .failed := (part_low hs hb p).imp (·.1) (·.1)
    have hfirst : Still s (pageFirst p (advance dt s)) := by
      rcases pageFirst_cases (p := p) ha with h | ⟨-, he, -⟩
      · exact h
      · rw [he] at hlow
        simp at hlow
    have hfin {u v : State} (h : Same partFree u v) : Same partFree u (finish (fwOwner (advance dt s)) v) :=
      finish_footprint (fun _ => id) h
    rcases hlow with hp | hp
    · refine .inr ⟨hp, _, Moved.of_same (hfin (Same.refl _ _)) (fatalFault_failed c hfirst ?_ ?_)⟩ <;>
        rw [hfirst.pst_eq, hp] <;> decide
    · exact .inl (.of_same (hfin (fatalFault_recorded c (.inl (by rw [hfirst.pst_eq, hp])))) hfirst)

end Forms

/-! ### A command -/

theorem exec_leads (c : Instr) (hs : Inv s) (hr : isReset c = false) (hi : ∀ dt, c ≠ .initialisationComplete dt none) :
    Leads s (exec c s) := by
  cases hc : (touches c).contains .parts with
  | false => exact leads_of_partFree hs (exec_partFree c s hc)
  | true =>
    cases c with
    | fundamentalReset | blockReset | powerLoss => exact absurd hr Bool.noConfusion
    | initialisationComplete dt who =>
      cases who with
      | none => exact absurd rfl (hi dt)
      | some p => exact onPage_leads hs partInitialised_once
    | partResetPortRequest =>
      exact always_leads hs (fun hl => partResetPort_low (by simpa using hl)) partResetPort_turns
    | registerWrite | readClearRegister | enable | disable | partReset | retire | reinstate | auditNow | step | set | rate | calTdc
    | hedCardMap | cardLoad | cardFetch | flush | bobEnable | bobDisable | bobTail | poison | clear | absolve | confirm | unblind
    | testReload | hubTestNext | stopNow | arm | disarm | resume | trdDoorbell | trdClaim | trdComplete | trdPendingSet | trdPendingClr
    | trdDoze | ringRelease | servoStart | servoStop | servoRearm | install | rotate | remove | release | scanRelease | load | handover
    | emit | hostScrubbed => exact access_leads hs
    | calData dt w => cases w <;> exact access_leads hs
    | fatalFault => exact fatalFault_leads hs
    | quiesceComplete => exact onPage_leads hs quiesceComplete_once
    | quiesceOverdue => exact onPage_still_leads hs fun hu => quiesceOverdue_still (.refl hu)
    | stateReport => exact onPage_still_leads hs fun hu => stateReport_still (.refl hu)
    | auditAnswer => exact onPage_still_leads hs fun hu => auditAnswer_still (.refl hu)
    | serialMessage => exact still_leads hs fun hu => serialMessage_still (.refl hu)
    | statusRequest => exact still_leads hs fun hu => statusRequest_still (.refl hu)
    | stepAt => exact act_leads hs fun hu => ⟨0, .of_still (stepAt_still (.refl hu))⟩
    | commandIssue => exact onHed_leads hs (issueCaptured_same rfl rfl rfl rfl rfl (Same.refl _ _))
    | commandRetire => exact onHed_leads hs (retireCaptured_same rfl rfl rfl (Same.refl _ _))
    | spanAccept => exact onHed_leads hs (spanAccept_same rfl rfl rfl rfl rfl rfl rfl rfl rfl rfl (Same.refl _ _))
    | stallReasonChange => exact onHed_leads hs (stallChange_same rfl rfl (Same.refl _ _))
    | stallSamplePeriodic => exact onHed_leads hs (stallPeriodic_same rfl rfl (Same.refl _ _))
    | counterSample =>
      exact onHed_leads (f := fun t => Machine.counterSample _ (addEdges _ _ t)) hs (counterSample_same rfl rfl (addEdges_same rfl (Same.refl _ _)))
    | clockStateChange =>
      exact onHed_leads (f := fun t => clockState _ _ _ (addEdges _ _ t)) hs (clockState_same rfl rfl rfl (addEdges_same rfl (Same.refl _ _)))
    | gapLimit =>
      exact onHed_leads (f := fun t => Machine.gapLimit _ (addEdges _ _ t)) hs (gapLimit_same rfl (addEdges_same rfl (Same.refl _ _)))
    | outputBeat => exact onHed_leads hs (outputBeat_same rfl rfl rfl rfl rfl rfl rfl rfl rfl rfl rfl rfl rfl rfl rfl rfl (Same.refl _ _))
    | gateRequest => exact onHed_leads hs (gateRequest_same rfl rfl rfl rfl (Same.refl _ _))
    | gateOpen => exact onHed_leads hs (gateOpen_same rfl rfl rfl (Same.refl _ _))
    | holdAck => exact onHed_leads hs (holdAck_same rfl (Same.refl _ _))
    | holdTimeout => exact onHed_leads hs (holdTimeout_same rfl rfl rfl (Same.refl _ _))
    | scanWord => exact onHed_leads hs (scanWord_same rfl rfl rfl rfl (Same.refl _ _))
    | scanWordTimeout => exact onHed_leads hs (scanWordTimeout_same rfl rfl rfl (Same.refl _ _))
    | armedPartFire => exact onPage_still_leads hs fun hu => .of_same (armedFire_same rfl rfl rfl rfl rfl rfl rfl rfl rfl (Same.refl _ _)) (.refl hu)
    | stopTreeArrival => exact onPage_still_leads hs fun hu => .of_same (treeArrival_same rfl rfl rfl rfl rfl rfl (Same.refl _ _)) (.refl hu)
    | resumeArrival => exact onPage_still_leads hs fun hu => .of_same (resumeArrival_same rfl rfl rfl rfl rfl (Same.refl _ _)) (.refl hu)
    | fwReady => exact act_leads hs fun hu => ⟨_, .inl (fwReady_once hu)⟩
    | reloadComplete => exact act_leads hs fun hu => ⟨_, .inl (reloadComplete_once hu)⟩
    | fwReject => exact act_leads hs fun hu => ⟨_, .inl (fwReject_once hu)⟩
    | acceptTimeout => exact act_leads hs fun hu => ⟨_, .inl (acceptTimeout_once hu)⟩
    | watchdogExpiry => exact act_leads hs fun hu => ⟨_, .inl (watchdogExpiry_once hu)⟩
    | _ => exact absurd hc.symm Bool.noConfusion

/-! ### The resets, and the end of the initialisation -/

/-- A reset of the block leaves every part in RESETTING with STATE_SEQ 0 (a loss of power among them, notes/assumptions 13). -/
theorem reset_parts {c : Instr} (hr : isReset c = true) (h : exec c s = .next t) :
    t.booting = true ∧ ∀ p, pst t p = .resetting ∧ (part t p).seq = 0 := by
  have hpart {u : State} (hb : u.booting = true) (hp : u.parts = []) (p : Nat) : part u p = Part.starting := by
    unfold part partDflt
    rw [hb, hp]
    rfl
  have key {dt : Nat} {f : State → State} (hb : (f (advance dt s)).booting = true) (hp : (f (advance dt s)).parts = []) :
      (always dt f s).booting = true ∧ ∀ p, pst (always dt f s) p = .resetting ∧ (part (always dt f s) p).seq = 0 := by
    refine ⟨(always_booting ..).trans hb, fun p => ?_⟩
    rw [pst_always, part_always, pst, hpart hb hp]
    exact ⟨rfl, rfl⟩
  cases c with
  | fundamentalReset | blockReset | powerLoss =>
    cases h
    exact key rfl rfl
  | _ => exact absurd hr Bool.noConfusion

theorem blockInitialised_foot (s : State) : Same (fun f => !([Fld.parts, .port].contains f)) s (blockInitialised s) :=
  blockInitialised_same rfl rfl rfl rfl rfl rfl rfl rfl rfl rfl rfl (Same.refl _ _)

theorem blockInitialised_running (hb : s.booting = true) : (blockInitialised s).booting = false := by
  unfold blockInitialised
  rw [if_neg (by simp [hb])]
  dsimp only
  split
  · rw [workLost_booting]
    split
    · rfl
    · rw [setErr_booting, updOwn_booting]
  · split
    · rfl
    · rw [setErr_booting, updOwn_booting]

theorem serveHeld_none (h : s.port.held = none) (h' : s.port.prstHeld = none) : serveHeld s = s := by
  unfold serveHeld
  rw [h]
  dsimp only
  rw [h']

/-- The end of the initialisation with nothing held: what failed stays FAILED, and every other part is DISABLED with STATE_SEQ 1. -/
theorem initialised_parts {dt : Nat} (hs : Inv s) (hb : s.booting = true) (hh : s.port.held = none) (hp : s.port.prstHeld = none)
    (h : exec (.initialisationComplete dt none) s = .next t) :
    t.booting = false ∧ ∀ p, (pst s p = .failed → partCore (part t p) = partCore (part s p)) ∧
      (pst s p ≠ .failed → pst t p = .disabled ∧ (part t p).seq = 1) := by
  have hba : (advance dt s).booting = true := (advance_booting dt s).trans hb
  have hlow : (blockInitialised (advance dt s)).booting = false := blockInitialised_running hba
  have hparts : (blockInitialised (advance dt s)).parts = s.parts :=
    (Same.get (f := .parts) (blockInitialised_foot _) rfl).trans (advance_parts dt s)
  have hport : (blockInitialised (advance dt s)).port = s.port :=
    (Same.get (f := .port) (blockInitialised_foot _) rfl).trans (advance_port dt s)
  have heff : (if (advance dt s).booting then serveHeld (blockInitialised (advance dt s)) else advance dt s) =
      blockInitialised (advance dt s) := by
    rw [if_pos hba]
    exact serveHeld_none (by rw [hport, hh]) (by rw [hport, hp])
  cases h
  refine ⟨by rw [always_booting, heff, hlow], fun p => ?_⟩
  have hpart : part (always dt (fun s => if s.booting then serveHeld (blockInitialised s) else s) s) p = mget Part.quiet s.parts p := by
    rw [part_always, heff, part, partDflt, hlow, hparts]
    rfl
  rcases part_low hs hb p with ⟨hr, hd⟩ | ⟨hf, x, hx⟩
  · refine ⟨fun hf => absurd (hr.symm.trans hf) (by decide), fun _ => ?_⟩
    rw [pst, hpart, hd]
    exact ⟨rfl, rfl⟩
  · refine ⟨fun _ => ?_, fun h => absurd hf h⟩
    rw [hpart, part, hx, hx]

/-! ### Table RM-11 -/

theorem Turns.core_eq {q : Nat} (h : Turns p s t) (hq : q ≠ p) : partCore (part t q) = partCore (part s q) := by
  rcases h with (hs | ⟨_, _, hm, -⟩) | ⟨-, -, _, _, _, _, _, -, hm, hm', -⟩
  · exact hs.core q
  · exact hm.rest q hq
  · exact (hm'.rest q hq).trans (hm.rest q hq)

theorem Turns.booting_eq (h : Turns p s t) : t.booting = s.booting := by
  rcases h with (hs | ⟨_, _, hm, -⟩) | ⟨-, -, _, _, _, _, _, -, hm, hm', -⟩
  · exact hs.booting
  · exact hm.booting
  · exact hm'.booting.trans hm.booting

/-- The turn of a part in the words of Table RM-11. -/
theorem Turns.along (h : Turns p s t) : partCore (part t p) = partCore (part s p) ∨
    (partArrow (pst s p) (pst t p) = true ∧ (part t p).seq = (part s p).seq + 1) ∨
    ((p = pgTrd ∨ pgHed 0 ≤ p) ∧ pst s p = .enabled ∧ (partArrow .quiescing (pst t p) = true ∨ partArrow .resetting (pst t p) = true) ∧
      (part t p).seq = (part s p).seq + 2) := by
  rcases h with (hs | ⟨_, _, hm, ha⟩) | ⟨hp, he, _, _, _, _, _, hmid, hm, hm', ha⟩
  · exact .inl (hs.core p)
  · exact .inr (.inl ⟨hm.pst_eq ▸ ha, hm.seq_eq⟩)
  · refine .inr (.inr ⟨hp, he, ?_, ?_⟩)
    · rw [hm'.pst_eq]
      rcases hmid with rfl | rfl
      · exact .inl ha
      · exact .inr ha
    · rw [hm'.seq_eq, hm.seq_eq, BitVec.add_assoc]
      rfl

/-- The end of an initialisation that is over does nothing. -/
theorem initialisation_over {dt : Nat} (hs : Inv s) (hb : s.booting = false) (h : exec (.initialisationComplete dt none) s = .next t) :
    Still s t := by
  cases h
  refine .of_same (finish_footprint (fun _ => id) ?_) (.refl (inv_parts hs))
  dsimp only
  rw [if_neg (by simp [hb])]
  exact advance_footprint fun _ => id

/-- Settles O9: each command but the resets gives one part its turn. A loss of power is among the resets (notes/assumptions 13), and a Heddle
that is leaving ENABLED goes before the command acts on it (notes/assumptions 25). -/
theorem partsFollowTheirTable : Obligations.PartsFollowTheirTable := by
  refine ⟨fun c s t hs h => ⟨fun hr => reset_parts hr h, fun hr hb => ?_, fun hr hb hi => ?_, ?_⟩, rfl⟩
  · have hturn : ∃ p, Turns p s t := by
      by_cases hi : ∃ dt, c = .initialisationComplete dt none
      · obtain ⟨dt, rfl⟩ := hi
        exact ⟨0, .of_still (initialisation_over hs hb h)⟩
      · exact (exec_leads c hs hr (not_exists.mp hi) t h).1 hb
    obtain ⟨p, hp⟩ := hturn
    exact ⟨hp.booting_eq.trans hb, p, fun q => hp.core_eq, hp.along⟩
  · obtain ⟨p, hst | ⟨hp, cause, hm⟩⟩ := (exec_leads c hs hr hi t h).2 hb
    · exact ⟨hst.booting.trans hb, p, fun q _ => hst.core q, .inl (hst.core p)⟩
    · exact ⟨hm.booting.trans hb, p, hm.rest, .inr ⟨hp, hm.pst_eq, hm.seq_eq⟩⟩
  · rintro dt rfl hb hh hp
    exact initialised_parts hs hb hh hp h

end Sys2Proof.Proofs
end

section
/-! Accepting the records of a Heddle leaves alone whether, and where to, it is leaving ENABLED (R130). -/

namespace Sys2Proof.Proofs

open Sys2Proof.Machine Sys2Proof.Safety Sys2Proof.Laws

/-- A Heddle is leaving ENABLED in one state as in another, or not. -/
structure LeavesAlike (h : Nat) (s t : State) : Prop where
  stores : msorted t.heds = true
  leaving : (hed t h).leaving = (hed s h).leaving

/-- Every field but the Heddles' traces. -/
@[reducible] def hedFree (f : Fld) : Bool := f != .heds

variable {s t u : State} {h : Nat}

theorem LeavesAlike.refl (hst : msorted s.heds = true) : LeavesAlike h s s := ⟨hst, rfl⟩

theorem LeavesAlike.trans (h1 : LeavesAlike h s t) (h2 : LeavesAlike h t u) : LeavesAlike h s u :=
  ⟨h2.stores, h2.leaving.trans h1.leaving⟩

theorem LeavesAlike.of_same (hsame : Same hedFree t u) (hs : LeavesAlike h s t) : LeavesAlike h s u := by
  have he : u.heds = t.heds := Same.get (f := .heds) hsame rfl
  exact ⟨by rw [he]; exact hs.stores, by rw [← hs.leaving, hed, hed, he]⟩

theorem LeavesAlike.ite {c : Prop} [Decidable c] (h1 : LeavesAlike h s t) (h2 : LeavesAlike h s u) : LeavesAlike h s (if c then t else u) := by
  split <;> assumption

theorem updHed_leavesAlike {f : HedTrace → HedTrace} (hf : (f (hed t h)).leaving = (hed t h).leaving) (hs : LeavesAlike h s t) :
    LeavesAlike h s (updHed h f t) :=
  ⟨msorted_mupd _ _ _ _ hs.stores, by rw [hed_updHed _ _ _ hs.stores, hf, hs.leaving]⟩

theorem foldl_leavesAlike {α : Type} {f : State → α → State} (hf : ∀ t x, LeavesAlike h s t → LeavesAlike h s (f t x)) (l : List α)
    (hs : LeavesAlike h s t) : LeavesAlike h s (l.foldl f t) := by
  induction l generalizing t with
  | nil => exact hs
  | cons x l ih => exact ih (hf t x hs)

theorem hold_leavesAlike {x : Held} (hs : LeavesAlike h s t) : LeavesAlike h s (hold h x t) := updHed_leavesAlike rfl hs

theorem dropGaps_leavesAlike (hs : LeavesAlike h s t) : LeavesAlike h s (dropGaps h t) := updHed_leavesAlike rfl hs

theorem freeEnt_leavesAlike {e : Ent} (hs : LeavesAlike h s t) : LeavesAlike h s (freeEnt h e t) :=
  dropGaps_leavesAlike (updHed_leavesAlike rfl hs)

theorem offerHed_leavesAlike {c trig : Nat} {cls : Cls} {picks : List Pick} (hs : LeavesAlike h s t) :
    LeavesAlike h s (offerHed h c cls trig picks t).2 := .of_same (offerHed_same rfl rfl rfl rfl rfl rfl rfl rfl (Same.refl _ _)) hs

theorem acceptSpan_leavesAlike {e : Ent} (hs : LeavesAlike h s t) : LeavesAlike h s (acceptSpan h e t) := by
  refine freeEnt_leavesAlike (LeavesAlike.ite ?_ hs)
  exact LeavesAlike.ite (.of_same (count_same rfl (Same.refl _ _)) (offerHed_leavesAlike hs)) (offerHed_leavesAlike hs)

theorem foldl2_leavesAlike {α β : Type} {f : β × State → α → β × State} (hf : ∀ a x, LeavesAlike h s a.2 → LeavesAlike h s (f a x).2)
    (l : List α) {a : β × State} (ha : LeavesAlike h s a.2) : LeavesAlike h s (l.foldl f a).2 := by
  induction l generalizing a with
  | nil => exact ha
  | cons x l ih => exact ih (hf a x ha)

/-- An accepted OPEN_AT_CUT record is counted and noted in its entry. -/
theorem counted_leavesAlike {o : Bool × State} {n p off hi lo : Nat} {f : HedTrace → HedTrace} (hf : ∀ x, (f x).leaving = x.leaving)
    (ho : LeavesAlike h s o.2) :
    LeavesAlike h s (if o.1 then (n + 1, updHed h f (count o.2 p off hi lo 1)) else (n, o.2)).2 := by
  split
  · exact updHed_leavesAlike (hf _) (.of_same (count_same rfl (Same.refl _ _)) ho)
  · exact ho

theorem cutGroup_leavesAlike {x : Held} {marker : Option Pick} {ents : List Ent} {gap : Option (Gap × Nat)} (hs : LeavesAlike h s t) :
    LeavesAlike h s (cutGroup h x marker ents gap t).2 := by
  unfold cutGroup
  dsimp only
  generalize hr : List.foldl _ _ ents = r
  have hents : LeavesAlike h s r.2 := by
    rw [← hr]
    refine foldl2_leavesAlike (fun a e ha => ?_) _ ?_
    · exact counted_leavesAlike (fun _ => by rfl) (offerHed_leavesAlike ha)
    · dsimp only
      split
      · exact offerHed_leavesAlike hs
      · exact hs
  split
  · split
    · exact offerHed_leavesAlike hents
    · exact hents
  · exact hents

theorem take_leavesAlike {x : Held} (hs : LeavesAlike h s t) : LeavesAlike h s (x.take h t) := by
  have hcount {u : State} {p o a b n : Nat} (hu : LeavesAlike h s u) : LeavesAlike h s (count u p o a b n) :=
    .of_same (count_same rfl (Same.refl _ _)) hu
  unfold Held.take
  dsimp only
  cases x.what with
  | begin e reason =>
    exact LeavesAlike.ite (LeavesAlike.ite (updHed_leavesAlike rfl (hcount (offerHed_leavesAlike hs))) (hcount (offerHed_leavesAlike hs)))
      (offerHed_leavesAlike hs)
  | endOnly tag status => exact LeavesAlike.ite (hcount (hcount (offerHed_leavesAlike hs))) (offerHed_leavesAlike hs)
  | gap g exit cyc extra => exact LeavesAlike.ite (offerHed_leavesAlike hs) hs
  | sample cycles evt => exact LeavesAlike.ite (offerHed_leavesAlike hs) hs
  | stall kind reason old held stalled changes =>
    exact LeavesAlike.ite (LeavesAlike.ite (.of_same (updHedC_same rfl (Same.refl _ _)) (offerHed_leavesAlike hs)) (offerHed_leavesAlike hs)) hs
  | throttle payload => exact offerHed_leavesAlike hs
  | cut marked source num dist ents gap => exact .of_same (closeRun_same rfl rfl (Same.refl _ _)) (cutGroup_leavesAlike hs)
  | resume source num dist => exact offerHed_leavesAlike hs

theorem offerHeld_leavesAlike {x : Held} (hs : LeavesAlike h s t) : LeavesAlike h s (offerHeld h x t) :=
  LeavesAlike.ite (hold_leavesAlike hs) (take_leavesAlike hs)

theorem settleHed_leavesAlike (hs : LeavesAlike h s t) : LeavesAlike h s (settleHed h t) :=
  LeavesAlike.ite hs (dropGaps_leavesAlike (foldl_leavesAlike (fun _ _ => offerHeld_leavesAlike) _ (updHed_leavesAlike rfl hs)))

/-- However many rounds accept what may be accepted, the Heddle is leaving ENABLED as before. -/
theorem settleSpans_leavesAlike (n : Nat) (hs : LeavesAlike h s t) : LeavesAlike h s (settleSpans n h t) := by
  induction n generalizing t with
  | zero => exact settleHed_leavesAlike hs
  | succ n ih =>
    unfold settleSpans
    dsimp only
    split
    · exact ih (acceptSpan_leavesAlike (settleHed_leavesAlike hs))
    · exact settleHed_leavesAlike hs

end Sys2Proof.Proofs
end

section
/-! The actions of the host move the part (O17): an action that the port lets through is done on the state that has come due, and what
follows the command leaves the part as the action left it. -/

namespace Sys2Proof.Proofs

open Sys2Proof.Machine Sys2Proof.Safety Sys2Proof.Laws

variable {s t u v b : State} {p h dt code : Nat} {dst : PState} {cause : BitVec 8} {cond : Option (BitVec 32)}

/-! ### Kinds of parts -/

theorem part_of_same (hs : Same partFree t u) (q : Nat) : part u q = part t q :=
  part_congr (Same.get (f := .booting) hs rfl) (Same.get (f := .parts) hs rfl) q

/-- The kind of a part whose page is its home. -/
theorem kindOf_home (hh : isHome s.inst p = true) : pageKind s.inst p = some (kindOf s p) ∧ homeOf s.inst (kindOf s p) p = p := by
  obtain ⟨k, hk, hhome⟩ := isHome_kind hh
  rw [kindOf_eq hk]
  exact ⟨hk, hhome⟩

theorem kindOf_hed_page (hh : isHome s.inst (pgHed h) = true) : kindOf s (pgHed h) = .hed h := by
  obtain ⟨hk, -⟩ := kindOf_home hh
  have hlt : h < 4096 := by
    have := pageKind_lt hk
    unfold pgHed at this
    omega
  rw [pageKind_hed _ hlt] at hk
  split at hk
  · exact (Option.some.inj hk).symm
  · cases hk

theorem hedThere_of_home (hh : isHome s.inst (pgHed h) = true) : hedThere s.inst h = true := by
  obtain ⟨hk, -⟩ := kindOf_home hh
  have hlt : h < 4096 := by
    have := pageKind_lt hk
    unfold pgHed at this
    omega
  rw [pageKind_hed _ hlt] at hk
  split at hk
  · exact decide_eq_true ‹_›
  · cases hk

theorem kindOf_trd_home (hh : isHome s.inst p = true) {j : Nat} (hk : kindOf s p = .trd j) : p = pgTrd := by
  obtain ⟨-, hhome⟩ := kindOf_home hh
  rw [hk] at hhome
  exact hhome.symm

/-! ### An action that is performed -/

theorem actionHeard_home (hh : actionHeard s p code cond = true) : isHome s.inst p = true := by
  simp only [actionHeard, Bool.and_eq_true] at hh
  exact hh.1.1.2

/-- An action below the page-specific ones that the port lets through: OKAY, with the parts and the Heddles as the action leaves them. -/
theorem command_performed (hh : actionHeard (due p dt s) p code cond = true) (hc : code < 0x80)
    (hd : doAction (kindOf (due p dt s) p) p code 0x01 (due p dt s) = some b) :
    ∃ t, command dt p code cond s = .next t ∧ t.port.rsp = 0 ∧ (∀ q, part t q = part b q) ∧ t.heds = b.heds := by
  have hact : action p code cond (advance dt s) = { b with port := { b.port with rsp := 0, rdata := 0 } } := by
    refine action_performed rfl hh (by omega) (fun r _ => tdiForbids_ctrl _ _ _ _ fun _ _ => ?_) hd
    rw [ctrlWord_code code cond (by omega)]
    omega
  refine ⟨_, rfl, ?_, fun q => ?_, ?_⟩
  · rw [always_port, hact]
  · rw [part_always, hact]
    rfl
  · rw [always_heds, hact]

/-! ### ENABLE, RETIRE and REINSTATE -/

theorem actEnable_eq (h : pst t p = .quiescing ∨ (pst t p = .disabled ∧ factsPresent t p = true)) :
    actEnable p t = some (enterEnabled p t) := by
  unfold actEnable
  rcases h with hq | ⟨hd, hf⟩
  · rw [hq]
  · rw [hd]
    exact if_pos hf

theorem actRetire_some (h : pst t p = .disabled ∨ pst t p = .failed) (hr : retirable t p = true) : ∃ b, actRetire p t = some b := by
  unfold actRetire
  rcases h with hp | hp <;> rw [hp] <;> exact ⟨_, if_pos hr⟩

theorem actReinstate_some (h : pst t p = .retired) (hr : retirable t p = true) : ∃ b, actReinstate p t = some b := by
  unfold actReinstate
  rw [h]
  exact ⟨_, if_pos hr⟩

/-! ### DISABLE and PART_RESET -/

/-- Every part but an ENABLED Heddle leaves at once. -/
theorem leave_now {how : Exit} (h : ∀ n, kindOf t p = .hed n → isEnabled t p = false) : leave p dst cause how t = leaveNow p dst cause how t := by
  unfold leave
  split
  · rw [h _ ‹_›]
    rfl
  · rfl

theorem leave_hed {how : Exit} (hk : kindOf t p = .hed h) (he : pst t p = .enabled) (hh : how ≠ .fault) :
    leave p dst cause how t = beginLeaving h (how == .reset) cause t := by
  unfold leave
  rw [hk]
  exact if_pos (by simp [isEnabled, he, hh])

/-- A part in reset is not locked to Beam (R91). -/
theorem leaveNow_unlocked (hst : msorted t.parts = true) : (part (leaveNow p dst cause .reset t) p).locked = false := by
  have hlock {v : State} (hv : msorted v.parts = true) : (part (resetPart p v) p).locked = false := by
    have : part (resetPart p v) p = { part v p with locked := false, asked := false } :=
      (part_of_same (calPartReset_same rfl rfl rfl (Same.refl _ _)) p).trans (part_updPart _ _ _ hv)
    rw [this]
  have htrans {v : State} (hv : Same partFree t v) : msorted (transition p dst cause v).parts = true :=
    (transition_moved (.of_same hv (.refl hst)) : Moved p dst cause t _).stores
  unfold leaveNow
  split
  · rename_i h hk
    obtain rfl := kindOf_hed hk
    unfold hedGone
    dsimp only
    rw [if_neg (by decide)]
    refine (congrArg Part.locked (part_of_same (lowerHold_same rfl (Same.refl _ _)) _)).trans ?_
    exact hlock (htrans (Same.ite (disarmPart_same rfl (gateReleased_same rfl rfl rfl (Same.ite (hedFails_same rfl rfl (Same.refl _ _))
        (Same.refl _ _)))) (Same.refl _ _)))
  · refine (congrArg Part.locked (part_of_same (afterLeaving_same rfl rfl rfl rfl rfl rfl rfl rfl rfl rfl rfl rfl rfl rfl rfl rfl rfl rfl rfl rfl
        rfl rfl rfl rfl rfl (Same.refl _ _)) _)).trans ?_
    exact hlock (htrans (slotsFail_same rfl rfl rfl (Same.ite (disarmPart_same rfl (Same.refl _ _)) (Same.refl _ _))))

theorem actDisable_eq (hp : pst t p = .enabled) (hk : ∀ j, kindOf t p ≠ .trd j) :
    actDisable p t = some (leave p .quiescing 0x01 .disable t) := by
  unfold actDisable
  rw [hp]
  dsimp only
  split
  · exact absurd ‹_› (hk _)
  · rfl

theorem actDisable_trd (hp : pst t pgTrd = .enabled) :
    actDisable pgTrd t = some (transition pgTrd .disabled 0x03 (leaveNow pgTrd .quiescing 0x01 .disable t)) := by
  unfold actDisable
  rw [hp]
  rfl

theorem actReset_eq (h1 : pst t p ≠ .resetting) (h2 : pst t p ≠ .retired) (hkey : p = pgKey → ∀ e ∈ t.key.slots, e.2.live = false) :
    actReset p cause t = some (leave p .resetting cause .reset t) := by
  have hkey : ¬(p = pgKey && t.key.slots.any fun e => e.2.live) = true := by
    simp only [Bool.and_eq_true, decide_eq_true_eq, List.any_eq_true, not_and, not_exists]
    intro hp e he hl
    rw [hkey hp e he] at hl
    cases hl
  unfold actReset
  split
  · exact if_neg hkey
  · exact if_neg hkey
  · exact if_neg hkey
  · exact if_neg hkey
  · exfalso
    revert h1 h2
    cases hx : pst t p <;> simp_all

/-! ### A Heddle that is ENABLED -/

/-- What a Heddle's leaving looks like once its records are decided. -/
theorem beginLeaving_none {rst : Bool} (hst : msorted (hedLeaves h t).heds = true) (hn : (hed t h).leaving = none) :
    beginLeaving h rst cause t =
      finishLeaving h (settleSpans 32 h (updHed h (fun x => { x with leaving := some (rst, cause) }) (hedLeaves h t))) := by
  unfold beginLeaving hedFirst
  rw [hn]
  dsimp only
  rw [hed_updHed _ _ _ hst]
  rfl

theorem finishLeaving_settled {rst : Bool} (hs : Still s t) (hl : (hed t h).leaving = some (rst, cause)) (he : pst t (pgHed h) = .enabled)
    (hset : hedSettled t h = true) : Moved (pgHed h) (if rst then .resetting else .quiescing) cause s (finishLeaving h t) := by
  have hc : (isEnabled t (pgHed h) && hedSettled t h) = true := by simp [isEnabled, he, hset]
  unfold finishLeaving
  rw [hl]
  dsimp only
  rw [if_pos hc]
  exact hedGone_moved (.of_same (updHed_same rfl (Same.refl _ _)) hs)

theorem finishLeaving_waits (hset : hedSettled t h = false) : finishLeaving h t = t := by
  unfold finishLeaving
  split
  · rfl
  · exact if_neg (by simp [hset])

/-- The state in which a Heddle that has just been told to leave waits for its records. -/
theorem leaving_state {rst : Bool} (hst : Sorted t) :
    let v := settleSpans 32 h (updHed h (fun x => { x with leaving := some (rst, cause) }) (hedLeaves h t))
    Same partFree t v ∧ (hed v h).leaving = some (rst, cause) := by
  have hl : msorted (hedLeaves h t).heds = true := (hedLeaves_sorted hst).heds
  have hup : msorted (updHed h (fun x => { x with leaving := some (rst, cause) }) (hedLeaves h t)).heds = true := msorted_mset _ _ _ _ hl
  refine ⟨settleSpans_same rfl rfl rfl rfl rfl rfl rfl rfl rfl rfl (updHed_same rfl (hedLeaves_same rfl (Same.refl _ _))),
    (settleSpans_leavesAlike 32 (.refl hup)).leaving.trans ?_⟩
  rw [hed_updHed _ _ _ hl]

/-- The actions by which a Heddle that is ENABLED is told to leave. -/
theorem hed_told {rst : Bool} (hh : actionHeard (due (pgHed h) dt s) (pgHed h) (if rst then 3 else 2) cond = true)
    (he : pst (due (pgHed h) dt s) (pgHed h) = .enabled) :
    ∃ t, exec (if rst then .partReset dt (pgHed h) cond else .disable dt (pgHed h) cond) s = .next t ∧ t.port.rsp = 0 ∧
      (∀ q, part t q = part (beginLeaving h rst 0x01 (due (pgHed h) dt s)) q) ∧
      t.heds = (beginLeaving h rst 0x01 (due (pgHed h) dt s)).heds := by
  have hk : kindOf (due (pgHed h) dt s) (pgHed h) = .hed h := kindOf_hed_page (actionHeard_home hh)
  cases rst with
  | false =>
    refine command_performed hh (by decide) ?_
    exact (actDisable_eq he (by rw [hk]; exact nofun)).trans (congrArg some (leave_hed hk he (by decide)))
  | true =>
    refine command_performed hh (by decide) ?_
    have hkey : pgHed h ≠ pgKey := by
      unfold pgHed pgKey
      omega
    exact (actReset_eq (by rw [he]; decide) (by rw [he]; decide) fun hp => absurd hp hkey).trans
      (congrArg some (leave_hed hk he (by decide)))

/-- A Heddle told to leave for the first time goes at once where its records are decided, and waits for them else. -/
theorem hed_told_first {rst : Bool} (hs : Inv s) (he : pst (due (pgHed h) dt s) (pgHed h) = .enabled)
    (hn : (hed (due (pgHed h) dt s) h).leaving = none) :
    let u := due (pgHed h) dt s
    let v := settleSpans 32 h (updHed h (fun x => { x with leaving := some (rst, 0x01) }) (hedLeaves h u))
    (hedSettled v h = true → Moved (pgHed h) (if rst then .resetting else .quiescing) 0x01 u (beginLeaving h rst 0x01 u)) ∧
    (hedSettled v h = false → part (beginLeaving h rst 0x01 u) (pgHed h) = part u (pgHed h) ∧
      (hed (beginLeaving h rst 0x01 u) h).leaving = some (rst, 0x01)) := by
  intro u v
  have hst : Sorted u := due_sorted hs _ _
  obtain ⟨hsame, hleave⟩ := leaving_state (h := h) (rst := rst) (cause := 0x01) hst
  have hstill : Still u v := .of_same hsame (.refl hst.parts)
  rw [beginLeaving_none (hedLeaves_sorted hst).heds hn]
  refine ⟨fun hset => finishLeaving_settled hstill hleave ((hstill.pst_eq _).trans he) hset, fun hset => ?_⟩
  rw [finishLeaving_waits hset]
  exact ⟨part_of_same hsame _, hleave⟩

/-- Told again, a reset takes the place of a disable. -/
theorem hed_told_again {rst : Bool} {w : Bool × BitVec 8} (hst : msorted t.heds = true) (hw : (hed t h).leaving = some w) :
    Same partFree t (beginLeaving h rst 0x01 t) ∧
      (hed (beginLeaving h rst 0x01 t) h).leaving = some (if rst then (true, 0x01) else w) := by
  unfold beginLeaving
  rw [hw]
  cases rst with
  | false => exact ⟨Same.refl _ _, hw⟩
  | true =>
    refine ⟨updHed_same rfl (Same.refl _ _), ?_⟩
    exact congrArg HedTrace.leaving (hed_updHed _ _ _ hst)

/-- The command that finds the records of a leaving Heddle decided lets it go. -/
theorem spanAccept_leaves {rst : Bool} (hs : Inv s) (hb : s.booting = false) (hh : isHome s.inst (pgHed h) = true)
    (he : pst s (pgHed h) = .enabled) (hl : (hed s h).leaving = some (rst, cause))
    (hset : hedSettled (settleSpans 32 h (advance dt s)) h = true) :
    ∃ t, exec (.spanAccept dt h) s = .next t ∧ Moved (pgHed h) (if rst then .resetting else .quiescing) cause s t := by
  have ha : Still s (advance dt s) := advance_still hs
  have hlike : LeavesAlike h (advance dt s) (settleSpans 32 h (advance dt s)) :=
    settleSpans_leavesAlike 32 (.refl (advance_sorted (inv_sorted hs)).heds)
  have hla : (hed (advance dt s) h).leaving = some (rst, cause) := by rw [← hl, hed, hed, advance_heds]
  have hsettle : Still s (settleSpans 32 h (advance dt s)) := .of_same (settleSpans_same rfl rfl rfl rfl rfl rfl rfl rfl rfl rfl (Same.refl _ _)) ha
  have hfirst : Moved (pgHed h) (if rst then .resetting else .quiescing) cause s (hedFirst h (advance dt s)) := by
    have hsome : (hed (advance dt s) h).leaving.isSome = true := by rw [hla]; rfl
    unfold hedFirst
    rw [if_pos hsome]
    exact finishLeaving_settled hsettle (hlike.leaving.trans hla) ((hsettle.pst_eq _).trans he) hset
  have hacc : Moved (pgHed h) (if rst then .resetting else .quiescing) cause s (spanAccept h (hedFirst h (advance dt s))) :=
    hfirst.of_same (spanAccept_same rfl rfl rfl rfl rfl rfl rfl rfl rfl rfl (Same.refl _ _))
  have hlast : Still (spanAccept h (hedFirst h (advance dt s))) (finishLeaving h (spanAccept h (hedFirst h (advance dt s)))) := by
    rcases finishLeaving_cases (h := h) (.refl hacc.stores) with h | ⟨hne, -⟩
    · exact h
    · rw [hacc.pst_eq] at hne
      cases rst <;> cases hne
  refine ⟨_, only_there (hedThere_of_home hh) hb, ?_⟩
  refine .of_same (finish_footprint (fun _ => id) (Same.refl _ _)) ?_
  exact hacc.still hlast

/-! ### The actions -/

theorem goes_of_moved {q : Nat} (hpart : ∀ q, part t q = part b q) (hm : Moved q dst 0x01 u b) (hrsp : t.port.rsp = 0) :
    pst t q = dst ∧ (part t q).seq = (part u q).seq + 1 ∧ (part t q).cause = 0x01 ∧ t.port.rsp = 0 := by
  rw [pst, hpart]
  exact ⟨hm.pst_eq, hm.seq_eq, hm.cause_eq, hrsp⟩

/-- Settles O17: each action acts on the state in which what had come due in the part is decided, and makes its transition there. -/
theorem hostActionsMoveTheState : Obligations.HostActionsMoveTheState := by
  intro dt p cond s hs hb u goes
  have hst : Sorted u := due_sorted hs p dt
  have hself : Still u u := .refl hst.parts
  refine ⟨fun hh hp => ?_, fun hh hp htrd hhed => ?_, fun hh hp htrd => ?_, fun hh h1 h2 hkey hhed => ?_, fun h rst hp he hh => ?_,
    fun h rst cause hp hh he hl hset => ?_, fun hh hp hr => ?_, fun hh hp hr => ?_⟩
  case refine_1 =>
    obtain ⟨t, ht, hrsp, hpart, -⟩ := command_performed (b := enterEnabled p u) hh (by decide) (actEnable_eq hp)
    exact ⟨t, ht, goes_of_moved hpart (enterEnabled_moved hself) hrsp⟩
  case refine_2 =>
    have hk : ∀ n, kindOf u p = .hed n → isEnabled u p = false := fun n hk => absurd (kindOf_hed hk) (hhed n)
    have hd : actDisable p u = some (leaveNow p .quiescing 0x01 .disable u) := by
      rw [← leave_now hk]
      exact actDisable_eq hp fun j hj => htrd (kindOf_trd_home (actionHeard_home hh) hj)
    obtain ⟨t, ht, hrsp, hpart, -⟩ := command_performed hh (by decide) hd
    exact ⟨t, ht, goes_of_moved hpart (leaveNow_moved hself) hrsp⟩
  case refine_3 =>
    subst htrd
    obtain ⟨t, ht, hrsp, hpart, -⟩ := command_performed hh (by decide) (actDisable_trd hp)
    have h1 : Moved pgTrd .quiescing 0x01 u (leaveNow pgTrd .quiescing 0x01 .disable u) := leaveNow_moved hself
    have h2 : Moved pgTrd .disabled 0x03 _ (transition pgTrd .disabled 0x03 (leaveNow pgTrd .quiescing 0x01 .disable u)) :=
      transition_moved (.refl h1.stores)
    refine ⟨t, ht, ?_⟩
    rw [pst, hpart]
    refine ⟨h2.pst_eq, ?_, h2.cause_eq, hrsp⟩
    rw [h2.seq_eq, h1.seq_eq, BitVec.add_assoc]
    rfl
  case refine_4 =>
    have hk : ∀ n, kindOf u p = .hed n → isEnabled u p = false := fun n hk => by
      rw [isEnabled, beq_eq_false_iff_ne]
      exact fun he => hhed he n (kindOf_hed hk)
    have hd : actReset p 0x01 u = some (leaveNow p .resetting 0x01 .reset u) := by
      rw [← leave_now hk]
      refine actReset_eq h1 h2 fun hp => ?_
      subst hp
      have hkeys : u.key = s.key := advance_key dt s
      rw [hkeys]
      exact hkey rfl
    obtain ⟨t, ht, hrsp, hpart, -⟩ := command_performed hh (by decide) hd
    refine ⟨t, ht, goes_of_moved hpart (leaveNow_moved hself) hrsp, ?_⟩
    rw [hpart]
    exact leaveNow_unlocked hst.parts
  case refine_5 =>
    subst hp
    obtain ⟨t, ht, hrsp, hpart, hheds⟩ := hed_told hh he
    have hhed : hed t h = hed (beginLeaving h rst 0x01 u) h := congrArg (mget HedTrace.zero · h) hheds
    refine ⟨t, ht, hrsp, fun hn => ?_, fun w hw => ?_⟩
    · obtain ⟨hgo, hwait⟩ := hed_told_first (rst := rst) hs he hn
      refine ⟨fun hset => goes_of_moved hpart (hgo hset) hrsp, fun hset => ?_⟩
      rw [hpart, hhed]
      exact hwait hset
    · obtain ⟨hsame, hleave⟩ := hed_told_again (rst := rst) hst.heds hw
      rw [hpart, hhed]
      exact ⟨part_of_same hsame _, hleave⟩
  case refine_6 =>
    subst hp
    obtain ⟨t, ht, hm⟩ := spanAccept_leaves hs hb hh he hl hset
    exact ⟨t, ht, hm.pst_eq, hm.seq_eq, hm.cause_eq⟩
  case refine_7 =>
    obtain ⟨b, hd⟩ := actRetire_some hp hr
    obtain ⟨t, ht, hrsp, hpart, -⟩ := command_performed hh (by decide) hd
    exact ⟨t, ht, goes_of_moved hpart (actRetire_moved hst.parts hd).1 hrsp⟩
  case refine_8 =>
    obtain ⟨b, hd⟩ := actReinstate_some hp hr
    obtain ⟨t, ht, hrsp, hpart, -⟩ := command_performed hh (by decide) hd
    exact ⟨t, ht, goes_of_moved hpart (actReinstate_moved hst.parts hd).1 hrsp⟩

end Sys2Proof.Proofs
end

section
/-! Fatal faults, the end and the overdue limit of quiescing, and corrected errors (O18): each effect on the part of a page, once what had
come due in it is decided. -/

namespace Sys2Proof.Proofs

open Sys2Proof.Machine Sys2Proof.Safety Sys2Proof.Laws

variable {s t : State} {p dt : Nat} {f : State → State}

/-! ### A command of a page that is there -/

theorem onPage_there (hh : isHome s.inst p = true) (hb : s.booting = false) :
    onPage p dt f s = .next (always dt (fun t => f (pageFirst p t)) s) := only_there hh hb

theorem part_onPage (q : Nat) : part (always dt (fun t => f (pageFirst p t)) s) q = part (f (due p dt s)) q := part_always ..

theorem fatalFault_there {c : FaultCause} (hh : isHome s.inst p = true) :
    exec (.fatalFault dt p c) s = .next (always dt (fun t => fatalFault p c (pageFirst p t)) s) := by
  show onlyEver (isHome s.inst p) dt _ s = _
  rw [hh]
  rfl

/-- A reader that the part alone gives reads of the state after a command what it reads of the effect. -/
theorem moved_onPage {dst : PState} {cause : BitVec 8} (hm : Moved p dst cause (due p dt s) (f (due p dt s))) :
    let t := always dt (fun t => f (pageFirst p t)) s
    pst t p = dst ∧ (part t p).seq = (part (due p dt s) p).seq + 1 ∧ (part t p).cause = cause := by
  intro t
  rw [pst, part_onPage]
  exact ⟨hm.pst_eq, hm.seq_eq, hm.cause_eq⟩

/-! ### Errors that a page records -/

/-- An error that was recorded shows in PAGE_ERR. -/
theorem regBit_setErr {b : Nat} (hb : b < 64) (hst : Sorted t) (ht : t.inst.targets ≤ 16) : regBit (setErr p b t) p 0x28 b = true := by
  rw [regBit, bit, setErr_word p b t hst.regs ht, BitVec.getLsbD_or, BitVec.getLsbD_shiftLeft]
  simp [hb]

/-- PAGE_ERR after a command reads as its effect leaves it. -/
theorem regBit_always {b : Nat} (ht : (f (advance dt s)).inst.targets ≤ 16) :
    regBit (always dt f s) p 0x28 b = regBit (f (advance dt s)) p 0x28 b :=
  congrArg (bit · b) (always_regGet dt f s ht (by simp [fullWord]) (by decide) (by decide))

theorem due_raw (p dt : Nat) (s : State) : (due p dt s).tim.raw = newRaw dt s :=
  (Same.get (f := .raw) (pageFirst_foot p (advance dt s)) rfl).trans (advance_raw dt s)

/-- The limit of a stay in QUIESCING that passes is noted once (R72). -/
theorem quiesceOverdue_noted (hq : pst t p = .quiescing) (ho : (part t p).overdue = false)
    (hl : (part t p).quiesceAt + 4000 * regFld t pgHub 0x68 19 0 ≤ t.tim.raw) :
    quiesceOverdue p t = setErr p 58 (updPart t p fun x => { x with overdue := true }) := by
  unfold quiesceOverdue
  refine if_pos ?_
  simp only [Bool.and_eq_true, beq_iff_eq, Bool.not_eq_true', decide_eq_true_eq]
  exact ⟨⟨hq, ho⟩, hl⟩

theorem quiesceOverdue_effect (hs : Inv s) (hh : isHome s.inst p = true) (hb : s.booting = false)
    (hq : pst (due p dt s) p = .quiescing) (ho : (part (due p dt s) p).overdue = false)
    (hl : (part (due p dt s) p).quiesceAt + 4000 * regFld (due p dt s) pgHub 0x68 19 0 ≤ newRaw dt s) :
    ∃ t, exec (.quiesceOverdue dt p) s = .next t ∧ (part t p).overdue = true ∧ pst t p = .quiescing ∧ regBit t p 0x28 58 = true := by
  have hst : Sorted (due p dt s) := due_sorted hs p dt
  have htgt : (due p dt s).inst.targets ≤ 16 := by
    rw [due_inst]
    exact inv_targets hs
  have heff := quiesceOverdue_noted hq ho (by rw [due_raw]; exact hl)
  have hpart : part (quiesceOverdue p (due p dt s)) p = { part (due p dt s) p with overdue := true } := by
    rw [heff, part_of_same (setErr_same rfl rfl (Same.refl _ _)), part_updPart _ _ _ hst.parts]
  refine ⟨_, onPage_there hh hb, ?_, ?_, ?_⟩
  · rw [part_onPage, hpart]
  · rw [pst, part_onPage, hpart]
    exact hq
  · have hinst : (quiesceOverdue p (due p dt s)).inst.targets ≤ 16 := by
      rw [heff, setErr_inst]
      exact htgt
    refine (regBit_always hinst).trans ?_
    rw [heff]
    exact regBit_setErr (by decide) (updPart_sorted hst) htgt

theorem eccCorr_effect (hs : Inv s) (hh : isHome s.inst p = true) (hb : s.booting = false) :
    ∃ t, exec (.eccCorr dt p) s = .next t ∧ regBit t p 0x28 61 = true ∧ part t p = part s p := by
  have htgt : (advance dt s).inst.targets ≤ 16 := by
    rw [advance_inst]
    exact inv_targets hs
  refine ⟨_, only_there hh hb, ?_, ?_⟩
  · rw [regBit_always (by rw [setErr_inst]; exact htgt)]
    exact regBit_setErr (by decide) (advance_sorted (inv_sorted hs)) htgt
  · rw [part_always, part_of_same (setErr_same rfl rfl (Same.refl _ _)), part_advance]

/-! ### The statement -/

/-- Settles O18: a fatal fault fails the part unless it only records it; the other events act where the part is as their rule asks. -/
theorem faultsAndQuiescingMoveTheState : Obligations.FaultsAndQuiescingMoveTheState := by
  intro dt p s hs hh u
  have hself : Still u u := .refl (due_sorted hs p dt).parts
  refine ⟨fun c h1 h2 => ⟨_, fatalFault_there hh, moved_onPage (fatalFault_failed c hself h1 h2)⟩, fun c hp => ?_,
    fun hb => ⟨fun hq hd => ⟨_, onPage_there hh hb, moved_onPage (quiesceComplete_moved hself hq hd)⟩, fun hq => ?_,
      fun hq ho hl => quiesceOverdue_effect hs hh hb hq ho hl, eccCorr_effect hs hh hb⟩⟩
  · exact ⟨_, fatalFault_there hh, (part_onPage p).trans (part_of_same (fatalFault_recorded c hp) p)⟩
  · refine ⟨_, onPage_there hh hb, (part_onPage p).trans (congrArg (part · p) (quiesceComplete_idle ?_))⟩
    rintro ⟨h1, h2⟩
    exact hq.elim (fun h => h h1) fun h => Bool.false_ne_true (h.symm.trans h2)

end Sys2Proof.Proofs
end

section
/-! State reports and audits (O19): a report and the answer of an audit change nothing of a part but the Hub's view of it and what is on its
way to the Hub. -/

namespace Sys2Proof.Proofs

open Sys2Proof.Machine Sys2Proof.Safety Sys2Proof.Laws

variable {s t : State} {p q dt : Nat} {r : Report}

/-! ### A page that is one of the homes -/

theorem mem_homes_hub (i : Inst) : pgHub ∈ homes i := by simp [homes]

theorem mem_homes_sync {i : Inst} (h : i.eth = true) : pgSync ∈ homes i := by simp [homes, h]

theorem mem_homes_key (i : Inst) : pgKey ∈ homes i := by simp [homes]

theorem mem_homes_fw (i : Inst) : pgFw ∈ homes i := by simp [homes]

theorem mem_homes_trd (i : Inst) : pgTrd ∈ homes i := by simp [homes]

theorem mem_homes_lnk {i : Inst} {n : Nat} (h : n < 96) (hn : n % 24 < i.linksPerDir) : pgLnk n ∈ homes i := by
  have : pgLnk n ∈ ((List.range 96).filter fun n => decide (n % 24 < i.linksPerDir)).map pgLnk :=
    List.mem_map_of_mem (List.mem_filter.2 ⟨List.mem_range.2 h, decide_eq_true hn⟩)
  simp only [homes, List.mem_append, this, true_or, or_true]

theorem mem_homes_wit {i : Inst} {n : Nat} (h : n < 4 * i.reeds) : pgWit n ∈ homes i := by
  have : pgWit n ∈ (List.range (4 * i.reeds)).map pgWit := List.mem_map_of_mem (List.mem_range.2 h)
  simp only [homes, List.mem_append, this, true_or, or_true]

theorem mem_homes_reed {i : Inst} {n : Nat} (h : n < i.reeds) : pgReed n ∈ homes i := by
  have : pgReed n ∈ (List.range i.reeds).map pgReed := List.mem_map_of_mem (List.mem_range.2 h)
  simp only [homes, List.mem_append, this, true_or, or_true]

theorem mem_homes_hed {i : Inst} {n : Nat} (h : n < i.reeds * i.hpr) : pgHed n ∈ homes i := by
  have : pgHed n ∈ (List.range (i.reeds * i.hpr)).map pgHed := List.mem_map_of_mem (List.mem_range.2 h)
  simp only [homes, List.mem_append, this, or_true]

theorem kind_sync {i : Inst} (h : pageKind i q = some .sync) : q = pgSync := by
  simp only [pageKind, ite_eq, Option.some.injEq, reduceCtorEq, and_false, or_false, false_or] at h
  exact h.2.2.1

theorem kind_key {i : Inst} (h : pageKind i q = some .key) : q = pgKey := by
  simp only [pageKind, ite_eq, Option.some.injEq, reduceCtorEq, and_false, or_false, false_or] at h
  unfold pgKey; omega

theorem kind_fw {i : Inst} (h : pageKind i q = some .fw) : q = pgFw := by
  simp only [pageKind, ite_eq, Option.some.injEq, reduceCtorEq, and_false, or_false, false_or] at h
  unfold pgFw; omega

theorem kind_lnk {i : Inst} {n : Nat} (h : pageKind i q = some (.lnk n)) : q = pgLnk n ∧ n < 96 ∧ n % 24 < i.linksPerDir := by
  simp only [pageKind, ite_eq, Option.some.injEq, PageKind.lnk.injEq, reduceCtorEq, and_false, or_false, false_or] at h
  unfold pgLnk; omega

theorem kind_wit {i : Inst} {n : Nat} (h : pageKind i q = some (.wit n)) : q = pgWit n ∧ n < 4 * i.reeds := by
  simp only [pageKind, ite_eq, Option.some.injEq, PageKind.wit.injEq, reduceCtorEq, and_false, or_false, false_or] at h
  unfold pgWit; omega

theorem kind_reed_lt {i : Inst} {n : Nat} (h : pageKind i q = some (.reed n)) : n < i.reeds := by
  simp only [pageKind, ite_eq, Option.some.injEq, PageKind.reed.injEq, reduceCtorEq, and_false, or_false, false_or] at h
  omega

theorem kind_hed {i : Inst} {n : Nat} (h : pageKind i q = some (.hed n)) : q = pgHed n ∧ n < i.reeds * i.hpr := by
  simp only [pageKind, ite_eq, Option.some.injEq, PageKind.hed.injEq, reduceCtorEq, and_false, or_false, false_or] at h
  unfold pgHed; omega

theorem mem_homes {i : Inst} (h : isHome i q = true) : q ∈ homes i := by
  obtain ⟨k, hk, hhome⟩ := isHome_kind h
  cases k with
  | hub => exact kind_hub hk ▸ mem_homes_hub i
  | beam | stop | cal => exact hhome ▸ mem_homes_hub i
  | sync =>
    cases he : i.eth with
    | true => exact kind_sync hk ▸ mem_homes_sync he
    | false =>
      rw [homeOf, he] at hhome
      exact hhome ▸ mem_homes_hub i
  | key => exact kind_key hk ▸ mem_homes_key i
  | fw => exact kind_fw hk ▸ mem_homes_fw i
  | trd j => exact hhome ▸ mem_homes_trd i
  | lnk n =>
    obtain ⟨rfl, hlt, hdir⟩ := kind_lnk hk
    exact mem_homes_lnk hlt hdir
  | wit n =>
    obtain ⟨rfl, hlt⟩ := kind_wit hk
    exact mem_homes_wit hlt
  | reed r => exact kind_reed hk ▸ mem_homes_reed (kind_reed_lt hk)
  | hed n =>
    obtain ⟨rfl, hlt⟩ := kind_hed hk
    exact mem_homes_hed hlt

/-! ### Reports -/

theorem part_popReport (h : msorted t.parts = true) : part (popReport p t) p = { part t p with reports := (part t p).reports.drop 1 } :=
  part_updPart _ _ _ h

theorem applyReport_newer (h : msorted t.parts = true) (hr : (part t p).view.seq.toNat < r.seq.toNat) :
    part (applyReport p r t) p = { part t p with view := { (part t p).view with st := r.st, seq := r.seq, cause := r.cause } } := by
  unfold applyReport
  dsimp only
  rw [if_neg (Nat.not_le.2 hr), part_of_same (viewChanged_same rfl rfl rfl rfl rfl rfl (Same.refl _ _)), part_updPart _ _ _ h]

theorem applyReport_older (hr : r.seq.toNat ≤ (part t p).view.seq.toNat) : applyReport p r t = t := if_pos hr

/-- A report changes nothing of the part but the Hub's view of it. -/
theorem applyReport_view (h : msorted t.parts = true) : ∃ v, part (applyReport p r t) p = { part t p with view := v } := by
  by_cases hr : r.seq.toNat ≤ (part t p).view.seq.toNat
  · exact ⟨_, by rw [applyReport_older hr]⟩
  · exact ⟨_, applyReport_newer h (Nat.not_le.1 hr)⟩

theorem applyReports_view (l : List Report) (h : msorted t.parts = true) :
    ∃ v, part (l.foldl (fun u r => applyReport p r u) t) p = { part t p with view := v } := by
  induction l generalizing t with
  | nil => exact ⟨_, rfl⟩
  | cons r l ih =>
    obtain ⟨v, hv⟩ := applyReport_view (p := p) (r := r) h
    obtain ⟨w, hw⟩ := ih (applyReport_still (p := p) (r := r) (.refl h)).stores
    exact ⟨w, by rw [List.foldl_cons, hw, hv]⟩

theorem drainReports_view (h : msorted t.parts = true) : ∃ v, part (drainReports p t) p = { part t p with reports := [], view := v } := by
  have hst : msorted (updPart t p fun x => { x with reports := [] }).parts = true := msorted_mset _ _ _ _ h
  obtain ⟨v, hv⟩ := applyReports_view (p := p) (part t p).reports hst
  exact ⟨v, by rw [drainReports, hv, part_updPart _ _ _ h]⟩

theorem drainReports_none (h : msorted t.parts = true) (hr : (part t p).reports = []) : part (drainReports p t) p = part t p := by
  rw [drainReports, hr, List.foldl_nil, part_updPart _ _ _ h, ← hr]

theorem stateReport_heard {bad : Bool} {rest : List Report} (hh : hubHears t = true) (hr : (part t p).reports = r :: rest) :
    stateReport p bad t = if bad then bump (popReport p t) pgHub 0x70 31 0 1 else applyReport p r (popReport p t) := by
  unfold stateReport
  rw [hr, hh]
  rfl

theorem stateReport_unheard {bad : Bool} (hh : hubHears t = false) : stateReport p bad t = t := by
  unfold stateReport
  rw [hh]
  split <;> rfl

/-! ### Audits -/

/-- The answer of an audit puts the Hub's view where it differs from the part, and notes the correction. -/
theorem compareView_corrects {kind : Nat} (h : msorted t.parts = true)
    (hv : ¬((part t p).view.st = pst t p ∧ (part t p).view.seq = (part t p).seq)) :
    part (compareView p kind t).2 p = { part t p with view := ⟨pst t p, (part t p).seq, (part t p).cause, true⟩ } := by
  have hv : ¬((part t p).view.st == (part t p).st && (part t p).view.seq == (part t p).seq) = true := by
    simpa only [Bool.and_eq_true, beq_iff_eq, pst] using hv
  unfold compareView
  dsimp only
  have hsame {v : State} : Same partFree v (bump (emitHub (skewPick t p kind) (setErr p 57 (viewChanged p
      (part t p).view.st v))) pgHub 0x48 31 0 1) :=
    bump_same rfl (emitHub_same rfl rfl rfl rfl rfl rfl rfl (setErr_same rfl rfl
      (viewChanged_same rfl rfl rfl rfl rfl rfl (Same.refl _ _))))
  rw [if_neg hv, part_of_same hsame, part_updPart _ _ _ h]
  rfl

theorem compareView_agrees {kind : Nat} (hv : (part t p).view.st = pst t p ∧ (part t p).view.seq = (part t p).seq) :
    compareView p kind t = (false, t) := by
  obtain ⟨h1, h2⟩ := hv
  exact if_pos (by rw [h1, h2]; simp [pst])

/-- The Hub's view of a part after an audit, and that nothing else of the part changes but what was on its way to the Hub. -/
structure Audited (x y : Part) : Prop where
  st : y.st = x.st
  viewSt : y.view.st = x.st
  viewSeq : y.view.seq = x.seq
  reports : y.reports = []
  audits : y.audits = x.audits

theorem compareView_audited {kind : Nat} (h : msorted t.parts = true) :
    Audited (part t p) (part (compareView p kind (drainReports p t)).2 p) := by
  obtain ⟨v, hv⟩ := drainReports_view (p := p) h
  have hst := (drainReports_still (p := p) (.refl h)).stores
  by_cases ha : (part (drainReports p t) p).view.st = pst (drainReports p t) p ∧
      (part (drainReports p t) p).view.seq = (part (drainReports p t) p).seq
  · have hst : v.st = (part t p).st ∧ v.seq = (part t p).seq := by simpa only [pst, hv] using ha
    rw [compareView_agrees ha, hv]
    exact ⟨rfl, hst.1, hst.2, rfl, rfl⟩
  · rw [compareView_corrects hst ha, pst, hv]
    exact ⟨rfl, rfl, rfl, rfl, rfl⟩

theorem auditAnswer_single {k : Nat} {rest : List Nat} (hh : hubHears t = true) (ha : (part t p).audits = k :: rest) :
    auditAnswer p t = (compareView p k (drainReports p (updPart t p fun x => { x with audits := rest }))).2 := by
  unfold auditAnswer
  rw [hh, ha]
  rfl

theorem auditAnswer_periodic (hh : hubHears t = true) (ha : (part t p).audits = []) (hr : t.audit.running = true)
    (hp : p ∉ t.audit.answered) : Same partFree (compareView p 0 (drainReports p t)).2 (auditAnswer p t) := by
  have hc : (t.audit.running && !t.audit.answered.contains p) = true := by simp [hr, hp]
  unfold auditAnswer
  rw [hh, ha]
  dsimp only
  rw [if_pos hc]
  exact auditDone_same rfl rfl (Same.set_audit rfl (Same.refl _ _))

theorem auditAnswer_unheard (hh : hubHears t = false) : auditAnswer p t = t := if_pos (by rw [hh]; rfl)

theorem auditAnswer_audited (h : msorted t.parts = true) (hh : hubHears t = true)
    (ha : (part t p).audits ≠ [] ∨ (t.audit.running = true ∧ p ∉ t.audit.answered)) :
    Audited { part t p with audits := (part t p).audits.drop 1 } (part (auditAnswer p t) p) := by
  cases hl : (part t p).audits with
  | nil =>
    obtain ⟨hr, hp⟩ := ha.resolve_left fun h => h hl
    rw [part_of_same (auditAnswer_periodic hh hl hr hp), List.drop_nil, ← hl]
    exact compareView_audited h
  | cons k rest =>
    have hup : part (updPart t p fun x => { x with audits := rest }) p = { part t p with audits := rest } := part_updPart _ _ _ h
    rw [auditAnswer_single hh hl, List.drop_one, List.tail_cons, ← hup]
    exact compareView_audited (msorted_mset _ _ _ _ h)

theorem auditAnswer_corrects (h : msorted t.parts = true) (hh : hubHears t = true) (ha : (part t p).audits ≠ [])
    (hr : (part t p).reports = []) (hv : ¬((part t p).view.st = pst t p ∧ (part t p).view.seq = (part t p).seq)) :
    (part (auditAnswer p t) p).view = ⟨pst t p, (part t p).seq, (part t p).cause, true⟩ := by
  obtain ⟨k, rest, hl⟩ := List.exists_cons_of_ne_nil ha
  have hst : msorted (updPart t p fun x => { x with audits := rest }).parts = true := msorted_mset _ _ _ _ h
  have hup : part (updPart t p fun x => { x with audits := rest }) p = { part t p with audits := rest } := part_updPart _ _ _ h
  have hdr : part (drainReports p (updPart t p fun x => { x with audits := rest })) p = { part t p with audits := rest } := by
    rw [drainReports_none hst (by rw [hup]; exact hr), hup]
  rw [auditAnswer_single hh hl, compareView_corrects (drainReports_still (.refl hst)).stores (by simpa only [pst, hdr] using hv), pst, hdr]
  rfl

/-! ### AUDIT_NOW -/

theorem hubHears_still (h : Still s t) : hubHears t = hubHears s := by rw [hubHears, hubHears, h.pst_eq]

theorem part_askAudit {k : Nat} (h : msorted t.parts = true) (hh : hubHears t = true) :
    part (askAudit p k t) p = { part t p with audits := (part t p).audits ++ [k] } := by
  rw [askAudit, if_pos hh, part_updPart _ _ _ h]

theorem askAudit_unheard {k : Nat} (hh : hubHears t = false) : askAudit p k t = t := if_neg (by rw [hh]; decide)

/-- A question that was put to a part stays put. -/
theorem asked_askAudit {k : Nat} (h : msorted t.parts = true) (hq : k ∈ (part t q).audits) : k ∈ (part (askAudit p k t) q).audits := by
  cases hh : hubHears t with
  | false => rwa [askAudit_unheard hh]
  | true =>
    by_cases hp : q = p
    · subst hp
      rw [part_askAudit h hh]
      exact List.mem_append_left _ hq
    · rwa [askAudit, if_pos hh, part_updPart_other _ _ hp]

theorem asked_foldl {k : Nat} (l : List Nat) (h : msorted t.parts = true) (hq : k ∈ (part t q).audits) :
    k ∈ (part (l.foldl (fun u p => askAudit p k u) t) q).audits := by
  induction l generalizing t with
  | nil => exact hq
  | cons p l ih => exact ih (askAudit_still (.refl h)).stores (asked_askAudit h hq)

/-- A Hub that hears asks every part of a list. -/
theorem foldl_asks {k : Nat} {l : List Nat} (h : msorted t.parts = true) (hh : hubHears t = true) (hq : q ∈ l) :
    k ∈ (part (l.foldl (fun u p => askAudit p k u) t) q).audits := by
  induction l generalizing t with
  | nil => cases hq
  | cons p l ih =>
    have hstill : Still t (askAudit p k t) := askAudit_still (.refl h)
    by_cases hp : q = p
    · subst hp
      refine asked_foldl l hstill.stores ?_
      rw [part_askAudit h hh]
      exact List.mem_append_right _ (List.mem_singleton_self k)
    · exact ih hstill.stores ((hubHears_still hstill).trans hh) ((List.mem_cons.1 hq).resolve_left hp)

/-- The Hub hears a part's AUDIT_NOW only where it hears reports, too: a Hub in reset or FAILED answers PART_RESET alone (R71). -/
theorem hubHears_of_actionHeard {cond : Option (BitVec 32)} (hh : actionHeard t p 6 cond = true) : hubHears t = true := by
  simp only [actionHeard, hubAnswers, Bool.and_eq_true] at hh
  obtain ⟨⟨-, hans⟩, -⟩ := hh
  have hcode : fld (ctrlAccess p 6 cond).data 7 0 = 6 := ctrlWord_code 6 cond (by decide)
  rw [hcode] at hans
  simpa [hubHears, ctrlAccess] using hans

theorem auditNow_effect {cond : Option (BitVec 32)} (hs : Inv s) (hh : actionHeard (due p dt s) p 6 cond = true) :
    ∃ t, exec (.auditNow dt p cond) s = .next t ∧ t.port.rsp = 0 ∧
      (p ≠ pgHub → (part t p).audits = (part (due p dt s) p).audits ++ [2]) ∧
      (p = pgHub → ∀ q, isHome s.inst q = true → 2 ∈ (part t q).audits) := by
  have hst := (due_sorted hs p dt).parts
  have hears := hubHears_of_actionHeard hh
  obtain ⟨t, ht, hrsp, hpart, -⟩ := command_performed (b := actAudit p (due p dt s)) hh (by decide) rfl
  refine ⟨t, ht, hrsp, fun hp => ?_, fun hp q hq => ?_⟩
  · rw [hpart, actAudit, if_neg hp, part_askAudit hst hears]
  · rw [hpart, actAudit, if_pos hp, due_inst]
    exact foldl_asks hst hears (mem_homes hq)

/-! ### The periodic audit -/

theorem periodicAudit_starts {i : Bt} (hm : multipleAt t pgHub 4000000 = some i) (hh : hubHears t = true) (hr : t.audit.running = false)
    (hn : isNew t.audit.last i = true) : (periodicAudit t).audit = { running := true, answered := [], skews := 0, last := some i } := by
  unfold periodicAudit
  rw [hm]
  dsimp only
  rw [if_pos (by rw [hh, hr, hn]; rfl)]

theorem periodicAudit_idle (hm : multipleAt t pgHub 4000000 = none) : periodicAudit t = t := by
  unfold periodicAudit
  rw [hm]

theorem periodicAudit_effect (hb : s.booting = false) :
    ∃ t, exec (.periodicAudit dt) s = .next t ∧ t.parts = s.parts ∧
      (∀ i, multipleAt (advance dt s) pgHub 4000000 = some i → hubHears s = true → s.audit.running = false → isNew s.audit.last i = true →
        t.audit = { running := true, answered := [], skews := 0, last := some i }) ∧
      (multipleAt (advance dt s) pgHub 4000000 = none → t.audit = s.audit) := by
  have hhears : hubHears (advance dt s) = hubHears s := by rw [hubHears, hubHears, pst_advance]
  have hexec : exec (.periodicAudit dt) s = .next (always dt periodicAudit s) := by
    show Host.Outcome.next (act dt periodicAudit s) = _
    rw [act, hb]
    rfl
  refine ⟨_, hexec, ?_, fun i hm hh hr hn => ?_, fun hm => ?_⟩
  · rw [always_parts]
    exact (Same.get (f := .parts) (F := partFree) (periodicAudit_same rfl (Same.refl _ _)) rfl).trans (advance_parts ..)
  · rw [always_audit]
    exact periodicAudit_starts hm (hhears.trans hh) (by rwa [advance_audit]) (by rwa [advance_audit])
  · rw [always_audit, periodicAudit_idle hm, advance_audit]

/-! ### The statement -/

/-- The reports of a part to a Hub that hears. -/
theorem stateReport_effect {rest : List Report} (hs : Inv s) (hb : s.booting = false) (hh : isHome s.inst p = true)
    (hears : hubHears (due p dt s) = true) (hr : (part (due p dt s) p).reports = r :: rest) :
    let u := due p dt s
    (∃ t, exec (.stateReport dt p true) s = .next t ∧ part t p = { part u p with reports := rest } ∧
      regGet t pgHub 0x70 = satFld (regGet u pgHub 0x70) 31 0 1) ∧
    ((part u p).view.seq.toNat < r.seq.toNat → ∃ t, exec (.stateReport dt p false) s = .next t ∧
      part t p = { part u p with reports := rest, view := { (part u p).view with st := r.st, seq := r.seq, cause := r.cause } }) ∧
    (r.seq.toNat ≤ (part u p).view.seq.toNat → ∃ t, exec (.stateReport dt p false) s = .next t ∧ part t p = { part u p with reports := rest })
    := by
  intro u
  have hst : Sorted u := due_sorted hs p dt
  have hpop : part (popReport p u) p = { part u p with reports := rest } := by
    rw [part_popReport hst.parts, hr]
    rfl
  have hpops : msorted (popReport p u).parts = true := (popReport_still (.refl hst.parts)).stores
  have hbad := stateReport_heard (bad := true) hears hr
  have hgood := stateReport_heard (bad := false) hears hr
  refine ⟨⟨_, onPage_there hh hb, ?_, ?_⟩, fun hn => ⟨_, onPage_there hh hb, ?_⟩, fun ho => ⟨_, onPage_there hh hb, ?_⟩⟩
  · rw [part_onPage, hbad]
    exact (part_of_same (bump_same rfl (Same.refl _ _)) p).trans hpop
  · have htgt : (stateReport p true u).inst.targets ≤ 16 := by
      rw [(stateReport_still (.refl hst.parts)).inst, due_inst]
      exact inv_targets hs
    refine (always_regGet _ _ _ htgt (by simp [fullWord]) (by decide) (by decide)).trans ?_
    refine (congrArg (regGet · pgHub 0x70) hbad).trans ?_
    exact regGet_regPut _ _ _ _ hst.regs
  · rw [part_onPage, hgood]
    exact (applyReport_newer hpops (by rw [hpop]; exact hn)).trans (by rw [hpop])
  · rw [part_onPage, hgood]
    exact (congrArg (part · p) (applyReport_older (by rw [hpop]; exact ho))).trans hpop

/-- Settles O19: with a Hub that hears, a report and the answer of an audit bring its view to the part; else they wait. -/
theorem reportsAndAuditsCorrectTheView : Obligations.ReportsAndAuditsCorrectTheView := by
  intro dt p s hs hb hh u
  have hst := (due_sorted hs p dt).parts
  refine ⟨fun hears => ⟨fun r rest hr => stateReport_effect hs hb hh hears hr, fun ha => ?_, fun ha hr hv => ?_⟩, fun cond hact => ?_,
    fun hdeaf => ⟨fun bad => ?_, ?_⟩, periodicAudit_effect hb⟩
  · have haud := auditAnswer_audited hst hears ha
    refine ⟨_, onPage_there hh hb, ?_⟩
    rw [pst, part_onPage]
    exact ⟨haud.st, haud.viewSt, haud.viewSeq, haud.reports, haud.audits⟩
  · refine ⟨_, onPage_there hh hb, ?_⟩
    rw [part_onPage]
    exact auditAnswer_corrects hst hears ha hr hv
  · obtain ⟨t, ht, hrsp, hpage, hhub⟩ := auditNow_effect hs hact
    refine ⟨t, ht, hrsp, fun _ => hpage, fun _ => hhub, fun hdeaf => ?_⟩
    exact absurd (hubHears_of_actionHeard hact) (by rw [hdeaf]; decide)
  · exact ⟨_, onPage_there hh hb, (always_parts ..).trans (congrArg State.parts (stateReport_unheard hdeaf))⟩
  · exact ⟨_, onPage_there hh hb, (always_parts ..).trans (congrArg State.parts (auditAnswer_unheard hdeaf))⟩

end Sys2Proof.Proofs
end
